-- ==== Sys2Proof/Word.lean ====
section
/-! DEFINITION. The word types of the HQ8: bytes, 32-bit register words, 64-bit words. -/
namespace Sys2Proof

/-- One byte. -/
abbrev Byte := BitVec 8

/-- One register word, or one sequencer register (R354, R422). -/
abbrev Word := BitVec 32

/-- A 64-bit word (NVMe fields, profile values). -/
abbrev Word64 := BitVec 64

/-- The signed value of the low `w` bits of `v`. -/
def signedOf (w v : Nat) : Int :=
  let m := v % 2 ^ w
  if m < 2 ^ (w - 1) then (m : Int) else (m : Int) - (2 ^ w : Nat)

/-- The `w`-bit code of a signed value (two's complement, wrapping). -/
def codeOf (w : Nat) (v : Int) : Nat := (v % (2 ^ w : Nat)).toNat

/-- `v` limited to the range `lo`–`hi`. -/
def clampInt (lo hi v : Int) : Int := max lo (min hi v)

/-- A Bool as 0 or 1. -/
def bitNat (b : Bool) : Nat := if b then 1 else 0

end Sys2Proof
end

