-- ==== Sys2Proof/Machine/PartsBuffer.lean ====
section
/-! DEFINITION. State of the buffer, the pools, the system cache and the scrubber that stands in no register
(spec/09_buffer_cache_pools.md). -/
namespace Sys2Proof.Machine

/-- One valid bit per 4 KiB page (R218): `dflt` is the value of every page that `ex` does not list; `ex` lists the
pages that differ, rising. -/
structure PageBits where
  dflt : Bool
  ex   : List Nat
  deriving DecidableEq, Repr

/-- The data space of the LPDDR5X (R212): its bytes in canonical form (rising addresses, no entry of value 0; an
unlisted address reads 0), the lines whose stored check word is not that of their data (R214, R216), rising, and the
page valid bits. -/
structure BufMem where
  cells : List Host.Cell
  bad   : List Nat
  pages : PageBits
  deriving DecidableEq, Repr

/-- An empty buffer: no byte listed, every check word right, every page valid bit 1. -/
def BufMem.initial : BufMem where
  cells := []
  bad := []
  pages := ⟨true, []⟩

/-- A buffer pool P0–P7 (R221). -/
abbrev PoolId := Fin 8
/-- An allocation mailbox (R223). -/
abbrev Mailbox := Fin 16

/-- A waiting allocation request (R223, R224): count, priority 0–2, result address. -/
structure PoolReq where
  mb     : Mailbox
  count  : Nat
  prio   : Nat
  result : Nat
  deriving DecidableEq, Repr

/-- A pool (R222): indices handed out (the state bits that are 1), rising; the handle cache, first to be taken first;
the read index and the number of handles of the ring; the free count; the waiting requests in order of arrival. -/
structure Pool where
  used    : List Nat
  cache   : List Nat
  head    : Nat
  inRing  : Nat
  free    : Nat
  waiting : List PoolReq
  /-- Traffic with the ring is asked for: 64 handles to the ring (true) or from it (false) (R222). -/
  moving  : Option Bool
  deriving DecidableEq, Repr

/-- A pool after reset. -/
def Pool.initial : Pool := ⟨[], [], 0, 0, 0, [], none⟩

/-- A valid or once used line of the system cache (R229): set within the cache (global), way, tag and state. -/
structure CacheLine where
  set   : Nat
  way   : Fin 16
  tag   : Nat
  dirty : Bool
  data  : List Byte
  deriving DecidableEq, Repr

/-- A line write: its 64 bytes and one enable bit per byte (R216). -/
structure LineWrite where
  data   : List Byte
  enable : BitVec 64
  deriving DecidableEq, Repr

/-- An access of a port to the line `line` (byte address ÷ 64); a read where `write` is none. -/
structure LineAccess where
  port  : Fin 30
  line  : Nat
  write : Option LineWrite
  deriving DecidableEq, Repr

/-- A miss register (R234): the line it fetches, and the accesses that wait on it, the first to come first. -/
structure MissReg where
  line     : Nat
  accesses : List LineAccess
  deriving DecidableEq, Repr

/-- What the SECDED words of a line show when they are read (R231). -/
inductive EccResult where
  | good | single | double
  deriving DecidableEq, Repr

/-- The system cache. -/
structure SysCache where
  /-- Valid lines, by rising (set, way). -/
  lines  : List CacheLine
  /-- Tree pseudo-LRU bits of each set that differ from 0: (set, 15 bits), rising. -/
  plru   : List (Nat × Nat)
  misses : List MissReg
  /-- The sixteen bank input queues, oldest first (R234). -/
  queues : Vector (List LineAccess) 16
  deriving DecidableEq, Repr

/-- A cache with no valid line. -/
def SysCache.initial : SysCache := ⟨[], [], [], Vector.replicate 16 []⟩

/-- A scrub pass in progress (R237). -/
structure ScrubPass where
  start    : Nat
  lines    : Nat
  sumAddr  : Nat
  figure   : Nat
  aborting : Bool
  deriving DecidableEq, Repr

/-- Buffer, pools, cache and scrubber. -/
structure BufState where
  mem     : BufMem
  pools   : Vector Pool 8
  /-- The retired table (R227), in order of entry. -/
  retired : List Nat
  /-- Frees that wait, oldest first (R225). -/
  frees   : List Nat
  cache   : SysCache
  scrub   : Option ScrubPass
  /-- The LPDDR5X is in self-refresh (R220). -/
  selfRef : Bool
  /-- VSRAM was off since the last P4 (R220). -/
  vsramOff : Bool
  deriving DecidableEq, Repr

/-- Buffer state before the first P4. -/
def BufState.initial : BufState where
  mem := BufMem.initial
  pools := Vector.replicate 8 Pool.initial
  retired := []
  frees := []
  cache := SysCache.initial
  scrub := none
  selfRef := false
  vsramOff := false

end Sys2Proof.Machine
end

