-- ==== Sys2Proof/Machine/PartsHost.lean ====
section
/-! DEFINITION. State of the host ports, the NVMe controllers and their queues
(spec/11_host_link_and_queues.md). -/
namespace Sys2Proof.Machine

/-- A host port and its controller (R256). -/
abbrev PortId := Fin 2

/-- Serial-number order of fetch sequence numbers modulo 2³² (R16): `a` before `b`. -/
def fsnBefore (a b : Nat) : Bool :=
  let d := (b + 2 ^ 32 - a % 2 ^ 32) % 2 ^ 32
  1 ≤ d && d < 2 ^ 31

/-- A submission queue (R266). `head` counts entries granted, `fetched` entries read. -/
structure SubQueue where
  id      : Nat
  size    : Nat
  base    : Nat
  cq      : Nat
  prio    : Nat
  tail    : Nat
  head    : Nat
  fetched : Nat
  /-- The queue is halted by the command with this CID, status field and fetch sequence number (R277). -/
  halted  : Option (Nat × Nat × Nat)
  /-- Entries left that a Discard restart completes without dispatch (R278). -/
  discard : Nat
  /-- A Delete waits for the queue's commands (R267). -/
  closing : Bool
  deriving DecidableEq, Repr

/-- A completion queue (R266, R272). -/
structure CompQueue where
  id     : Nat
  size   : Nat
  base   : Nat
  vector : Nat
  ien    : Bool
  head   : Nat
  tail   : Nat
  phase  : Bool
  deriving DecidableEq, Repr

/-- Features of scope C (Table 12-5). -/
structure CtrlFeatures where
  ab       : Nat
  lpw      : Nat
  mpw      : Nat
  hpw      : Nat
  nsq      : Nat
  ncq      : Nat
  coalTime : Nat
  coalThr  : Nat
  /-- Vectors with CD = 1. -/
  vecCd    : List Nat
  aec      : Nat
  /-- Queues with Queue Halt on Error: SQID, fetch sequence number of the Set Features (R303). -/
  qhoe     : List (Nat × Nat)
  deriving DecidableEq, Repr

/-- Defaults of Table 12-5. -/
def CtrlFeatures.default : CtrlFeatures := ⟨7, 0, 0, 0, 128, 128, 0, 0, [], 0, []⟩

/-- An asynchronous event: type, information, log page. -/
structure AsyncEvent where
  type : Nat
  info : Nat
  lid  : Nat
  deriving DecidableEq, Repr

/-- An entry of the Error Information log (R413, Table 18-3): `loc` is the parameter error location, `source` the source of a
FATAL report, and `record` the SEQ of the recorder record that belongs to the entry. -/
structure ErrorEntry where
  count  : Nat
  sqid   : Nat
  cid    : Nat
  status : Nat
  loc    : Nat
  lba    : Nat
  nsid   : Nat
  source : Option Nat
  record : Option Nat
  deriving DecidableEq, Repr

/-- A controller: its NVMe registers (Table 11-3) and queues. -/
structure Ctrl where
  /-- CC, AQA, ASQ, ACQ, the interrupt mask. -/
  cc    : Word
  aqa   : Word
  asq   : Nat
  acq   : Nat
  intms : Word
  rdy   : Bool
  /-- CFS raised by a fetch or post failure, or by CC.EN with bad values. -/
  cfsOwn   : Bool
  /-- CFS raised by a fatal event (R283). -/
  cfsFatal : Bool
  shst  : Nat
  nssro : Bool
  sqs   : List SubQueue
  cqs   : List CompQueue
  feat  : CtrlFeatures
  /-- Queue identifier served last, per class: admin and plain round robin 0, urgent 1, high 2, medium 3, low 4. -/
  lastSq : Vector Nat 5
  /-- Commands left in the weighted round for high, medium, low (R268). -/
  shares : Vector Nat 3
  /-- An I/O queue has been created since the last reset (Table 12-5, 0x07). -/
  queued : Bool
  /-- Outstanding Asynchronous Event Requests, fetch sequence numbers, oldest first. -/
  aers   : List Nat
  /-- Events that wait for a request, oldest first. -/
  events : List AsyncEvent
  /-- Event types masked until their log page is read. -/
  masked : List AsyncEvent
  /-- Changed Namespace List (log 0x04). -/
  changedNs   : List Nat
  /-- Changed Zone List (log 0xBF): NSID and zone. -/
  changedZone : List (Nat × Nat)
  /-- Error Information, newest first, at most 256. -/
  errors : List ErrorEntry
  errorCount : Nat
  /-- Interrupts delayed by coalescing: vector and count (R273). -/
  coalescing : List (Nat × Nat)
  /-- Vectors of INTx that are asserted. -/
  intx   : List Nat
  /-- Part of a firmware image downloaded: offset and bytes, in order of arrival (R289). -/
  download : List (Nat × List Byte)
  deriving DecidableEq, Repr

/-- A controller after reset. -/
def Ctrl.initial : Ctrl where
  cc := 0
  aqa := 0
  asq := 0
  acq := 0
  intms := 0
  rdy := false
  cfsOwn := false
  cfsFatal := false
  shst := 0
  nssro := false
  sqs := []
  cqs := []
  feat := CtrlFeatures.default
  lastSq := Vector.replicate 5 0
  shares := Vector.replicate 3 0
  queued := false
  aers := []
  events := []
  masked := []
  changedNs := []
  changedZone := []
  errors := []
  errorCount := 0
  coalescing := []
  intx := []
  download := []

/-- The link side of a port: its PERST# pin, the PCI power state, and what the host set in configuration space. -/
structure HostPort where
  /-- PERST# is asserted. -/
  perst   : Bool
  d3hot   : Bool
  mps     : Nat
  mrrs    : Nat
  /-- Code of the Completion Timeout range that the host selected (R434). -/
  cto     : Nat
  aspmL1  : Bool
  /-- ASPM L1.1 and L1.2 enables, and the LTR_L1.2_THRESHOLD in ns, of the L1 PM Substates control (R261). -/
  l11     : Bool
  l12     : Bool
  l12Thr  : Nat
  msix    : Bool
  /-- AER status bits, uncorrectable and correctable, numbered as PCI Express numbers them. -/
  aerUnc  : Nat
  aerCorr : Nat
  /-- The host's AER masks and severities, and the Device Control enables of correctable, non-fatal and fatal error messages
  (R262). -/
  uncMask : Nat
  uncSev  : Nat
  corrMask : Nat
  errEn   : Nat
  /-- The last LTR message, µs (R261). -/
  ltr     : Nat
  deriving DecidableEq, Repr

/-- A port after reset: Max_Payload_Size 128 and Max_Read_Request_Size 512 bytes, the AER masks and severities, as PCI Express
resets them. -/
def HostPort.initial : HostPort where
  perst := true
  d3hot := false
  mps := 128
  mrrs := 512
  cto := 0
  aspmL1 := false
  l11 := false
  l12 := false
  l12Thr := 0
  msix := false
  aerUnc := 0
  aerCorr := 0
  uncMask := 0x400000
  uncSev := 0x462030
  corrMask := 0xE000
  errEn := 0
  ltr := 0

/-- Errors received on the link (Table 11-2) other than those of DMA reads, which halt their channel, with their AER
status bit as PCI Express numbers it. -/
inductive LinkError where
  | poisonedWrite | unsupported | malformed | ecrc | overflow | dataLink | unexpectedCompletion
  | receiver | badTlp | badDllp | replayRollover | replayTimeout | advisory
  deriving DecidableEq, Repr

/-- A grant held by a queue sequencer (R269). -/
structure Grant where
  ctrl  : PortId
  sqid  : Nat
  count : Nat
  /-- First ring slot and first fetch sequence number. -/
  slot  : Nat
  fsn   : Nat
  issued : Bool
  retried : Bool
  deriving DecidableEq, Repr

/-- The host side. -/
structure HostState where
  ports  : Vector HostPort 2
  ctrls  : Vector Ctrl 2
  grants : Vector (Option Grant) 4
  /-- Controller whose grant was accepted last (R269). -/
  lastCtrl : PortId
  deriving DecidableEq, Repr

/-- The host side after reset. -/
def HostState.initial : HostState where
  ports := Vector.replicate 2 HostPort.initial
  ctrls := Vector.replicate 2 Ctrl.initial
  grants := Vector.replicate 4 none
  lastCtrl := 1

end Sys2Proof.Machine
end

