-- ==== Sys2Proof/Machine/PartsCommand.lean ====
section
/-! DEFINITION. State of the command complex: the command table and overlap checker, speculative copies, namespaces,
zones, the uncorrectable table, features of the subsystem, firmware slots and maintenance passes
(spec/01_invariant_outcome.md, spec/12_command_set.md). -/
namespace Sys2Proof.Machine

/-- Kinds of range entries (R20). -/
inductive RangeKind where
  | read | write
  deriving DecidableEq, Repr

/-- A range of a command in a namespace. -/
structure LbaRange where
  nsid  : Nat
  first : Nat
  count : Nat
  deriving DecidableEq, Repr

/-- How far a command has come. -/
inductive CmdStage where
  | granted | fetched | checked | dispatched | ended
  deriving DecidableEq, Repr

/-- What a command completes with (R286): SCT · 256 + SC, and DW0. -/
structure CmdResult where
  status : Nat
  dw0    : Nat
  deriving DecidableEq, Repr

/-- A command-table entry with its range entry (R19): the 64-byte submission entry, its stage, the ranges with their
kind, whether its write data is wholly in the buffer, whether it must wait for destage before it completes (R274),
what its zone check or order check decided at the overlap check, and its assigned first LBA (R18). -/
structure Cmd where
  fsn     : Nat
  ctrl    : PortId
  sqid    : Nat
  sqe     : BitVec 512
  stage   : CmdStage
  /-- It uses a reserve entry of its controller (R270). -/
  reserve : Bool
  kind    : Option RangeKind
  ranges  : List LbaRange
  inBuffer : Bool
  durable : Bool
  verdict : Option Nat
  slba    : Nat
  result  : Option CmdResult
  /-- A Discard restart covers it (R278). -/
  discard : Bool
  /-- Units of 4,096 LBAs whose first write it is (R295). -/
  units   : List Nat
  /-- The command core it was dispatched to (Table 15-9). -/
  core    : Nat
  /-- The fetch sequence number of the command that an Abort acts on (R290). -/
  target  : Option Nat
  /-- A command that completes in several steps has begun (Table 12-9). -/
  begun   : Bool
  /-- Parts of its ranges that a later write has superseded before its own data was in the buffer, each with the number of
  that write (R20). -/
  superseded : List (Nat × LbaRange)
  /-- Where the first offending field stands: byte + 256 · bit, 0xFFFF none; the first LBA that its status concerns
  (Table 18-3). -/
  loc     : Nat
  badLba  : Nat
  /-- LBAs of a read that returns zeros for them, since they were unwritten at its overlap check (R295, R296), and those that the
  MBR shadow answers (R343). -/
  blank   : List Nat
  shadow  : List Nat
  deriving DecidableEq, Repr

/-- Where the data of one LBA of a read comes from (R20, R23, R295, R296, R343). -/
inductive ReadSource where
  | buffer (handle : Nat) | zeros | copy (handle : Nat) | mbr | medium
  deriving DecidableEq, Repr

/-- How the transfer of a command ended, as its DMA descriptors, the ladder and the compare show it (R286–R288, R294,
Table 12-1): sectors are offsets from the first LBA. -/
inductive IoEnd where
  | ok
  | hostErr (sect : Nat)
  /-- CRCERR, TAGERR or BUFERR on the buffer side, with the sectors that failed. -/
  | sectorErr (failing : List Nat)
  | piErr (kind : Fin 4) (sect : Nat)
  | sglLength
  | sglType
  | unrecovered (sect : Nat)
  | mismatch (sect : Nat)
  deriving DecidableEq, Repr

/-- Where an admin request comes from: a dispatched command, or the sideband, which tunnels a submission entry to a
controller (R304). -/
inductive AdminReq where
  | host (fsn : BitVec 32)
  | tunnel (ctrl : PortId) (sqe : BitVec 512)
  deriving DecidableEq, Repr

/-- The data of a Namespace Management Create (R291). -/
structure NsCreate where
  nsze  : BitVec 64
  ncap  : BitVec 64
  flbas : BitVec 8
  dps   : BitVec 8
  group : BitVec 4
  limit : BitVec 16
  deriving DecidableEq, Repr

/-- State of a speculative sector (R23, R24). -/
inductive SpecSector where
  | filling | decoded (handle : Nat) | absent | bound (fsn : Nat) (handle : Option Nat) | discarded
  deriving DecidableEq, Repr

/-- A speculative copy (R22). `id` tells it from an earlier copy of the same LBAs whose sectors are still on their way. -/
structure SpecCopy where
  id      : Nat
  nsid    : Nat
  first   : Nat
  capture : Nat
  sectors : List SpecSector
  /-- Instant from which its sectors have been unbound (R26). -/
  since   : Nat
  deriving DecidableEq, Repr

/-- Zone states (R296, R297). -/
inductive ZoneState where
  | empty | implicitOpen | explicitOpen | closed | full | offline
  deriving DecidableEq, Repr

/-- A zone: state, write pointer as an offset, fetch sequence number of its last write. -/
structure Zone where
  state : ZoneState
  wp    : Nat
  last  : Nat
  deriving DecidableEq, Repr

/-- An empty zone. -/
def Zone.initial : Zone := ⟨.empty, 0, 0⟩

/-- A namespace (R291). -/
structure Namespace where
  nsid     : Nat
  zoned    : Bool
  nsze     : Nat
  flbas    : Nat
  dps      : Nat
  group    : Nat
  limit    : Nat
  attached : Vector Bool 2
  /-- Zones that are not Empty, by number. -/
  zones    : List (Nat × Zone)
  /-- Units of 4,096 LBAs whose written bit is 1 (R295), rising. -/
  written  : List Nat
  deriving DecidableEq, Repr

/-- An entry of the uncorrectable table (R294): an aligned block of 256 LBAs with a bitmap; `reserved` entries are of
the 64. -/
structure UncEntry where
  nsid     : Nat
  block    : Nat
  bits     : BitVec 256
  reserved : Bool
  deriving DecidableEq, Repr

/-- Features of scope S that are saved (Table 12-5). -/
structure SavedFeatures where
  vwc   : Bool
  rrl   : Nat
  limit : Nat
  cap   : Nat
  slot  : Nat
  deriving DecidableEq, Repr

/-- Saved values in flash; none where no value was saved (R301). -/
structure FlashFeatures where
  vwc   : Option Bool
  rrl   : Option Nat
  limit : Option Nat
  cap   : Option Nat
  slot  : Option Nat
  deriving DecidableEq, Repr

/-- Features of scope S (Table 12-5): the saved ones, PS, and the temperature thresholds over and under for composite,
logic die and power die. -/
structure SubFeatures where
  saved : SavedFeatures
  ps    : Nat
  overT  : Vector Nat 3
  underT : Vector Nat 3
  deriving DecidableEq, Repr

/-- Default values (Table 12-5); the fleet slot default stands in the option words. -/
def SavedFeatures.default : SavedFeatures := ⟨true, 0, 512, 0, 0⟩

/-- Default values (Table 12-5). -/
def SubFeatures.default : SubFeatures :=
  ⟨SavedFeatures.default, 0, Vector.replicate 3 343, Vector.replicate 3 0⟩

/-- Kinds of maintenance passes (R302). -/
inductive PassKind where
  | scrub | candidate | scan
  deriving DecidableEq, Repr

/-- A running pass: for a scan, its namespace; counts reached; figure at its start. A candidate pass has still to read the
LBAs of `todo`, each with its namespace, and its rewrites of those of `rewrites` are not on the medium. -/
structure Pass where
  nsid  : Nat
  count : Nat
  figure : Nat
  abort : Bool
  todo  : List (Nat × Nat)
  rewrites : List (Nat × Nat)
  deriving DecidableEq, Repr

/-- Outcome of the last pass of a kind, for log 0xC3: state 0 none yet, 1 running, 2 complete, 3 aborted. -/
structure PassReport where
  state : Nat
  count : Nat
  startFig : Nat
  endFig : Nat
  deriving DecidableEq, Repr

/-- A reallocation candidate (R134): namespace, LBA, and whether it has been written since and waits for its verify. -/
structure Candidate where
  nsid    : Nat
  lba     : Nat
  written : Bool
  deriving DecidableEq, Repr

/-- The command complex. -/
structure CmdState where
  /-- Command-table entries in fetch sequence order. -/
  table   : List Cmd
  specs   : List SpecCopy
  /-- The identity of the next speculative copy. -/
  nextCopy : Nat
  nss     : List Namespace
  unc     : List UncEntry
  feat    : SubFeatures
  /-- Saved values in flash (R301). -/
  saved   : FlashFeatures
  cands   : List Candidate
  scrub   : Option Pass
  candPass : Option Pass
  scan    : Option Pass
  reports : Vector PassReport 3
  /-- An activation without reset waits for its quiet point: the commit's fetch sequence number and slot (R284). -/
  quiet   : Option (Nat × Nat)
  /-- SMART critical-warning bits raised so far (SMART / Health). -/
  critical : Nat
  /-- Anticipatory seek in progress, per actuator (R26). -/
  seeking : Vector Bool 4
  /-- NVMe-MI configuration: SMBus frequency, transmission unit (Table 12-10). -/
  miFreq  : Nat
  miMtu   : Nat
  /-- Last temperatures known above their thresholds: composite, logic die, power die. -/
  overTemp : Vector Bool 3
  deriving DecidableEq, Repr

/-- The command complex of a drive without namespaces. -/
def CmdState.initial : CmdState where
  table := []
  specs := []
  nextCopy := 0
  nss := []
  unc := []
  feat := SubFeatures.default
  saved := ⟨none, none, none, none, none⟩
  cands := []
  scrub := none
  candPass := none
  scan := none
  reports := Vector.replicate 3 ⟨0, 0, 0, 0⟩
  quiet := none
  critical := 0
  seeking := Vector.replicate 4 false
  miFreq := 1
  miMtu := 64
  overTemp := Vector.replicate 3 false

end Sys2Proof.Machine
end

