-- ==== Sys2Proof/Machine/PartsDma.lean ====
section
/-! DEFINITION. State of the DMA engine that stands in no register (spec/10_dma_engine.md). -/
namespace Sys2Proof.Machine

/-- A DMA channel. -/
abbrev DmaCh := Fin 16
/-- A descriptor ring and priority level (R241). -/
abbrev DmaLevel := Fin 4

/-- A 64-byte descriptor, little-endian words 0–7 (Table 10-1). -/
abbrev DmaDesc := BitVec 512

/-- How a held descriptor is to be completed: STATUS, PIKIND and SECT (Table 10-2). -/
structure DmaEnd where
  status : Nat
  piKind : Nat
  sect   : Nat
  deriving DecidableEq, Repr

/-- What a channel's next step is (R243): reading the descriptor, the list entries of the unit that host reads fill, or the
lines of a unit on the fabric; host requests; or the two status writes. -/
inductive DmaStep where
  | taking
  | list
  | unit
  | host
  | status
  deriving DecidableEq, Repr

/-- What ends the movement once the bytes that precede it are in place: an end, or a halt with its cause and address. -/
inductive DmaStop where
  | fin (e : DmaEnd)
  | halt (cause addr : Nat)
  deriving DecidableEq, Repr

/-- A descriptor in a channel's hands. -/
structure DmaHold where
  ring    : DmaLevel
  slot    : Nat
  /-- The descriptor as read; zero while it is being taken. -/
  desc    : DmaDesc
  /-- Bytes of host stream, or copied bytes, completed. -/
  moved   : Nat
  /-- Host bytes of the unit in progress that have arrived (DIR 0). -/
  arrived : List Byte
  /-- Host address of the last byte written to host memory; none before the first (R250). -/
  last    : Option Nat
  /-- The end it is to be completed with, once known. -/
  fin     : Option DmaEnd
  /-- Cause of the halt it stands in (Table 10-3). -/
  cause   : Nat
  step    : DmaStep
  /-- Host bytes read and checked that are still to be sent (DIR 1). -/
  out     : List Byte
  /-- The host read that is outstanding (DIR 0): address of its next byte, and the bytes still to come. -/
  read    : Option (Nat × Nat)
  /-- Instant at which its last host read or read-back was issued (R434). -/
  since   : Nat
  stop    : Option DmaStop
  deriving DecidableEq, Repr

/-- One set of rounds (R243): the level being visited, bursts offered there, and the last served channel of each
level. -/
structure DmaRound where
  level   : DmaLevel
  offered : Nat
  last    : Vector DmaCh 4
  deriving DecidableEq, Repr

/-- The engine: each channel's descriptor, the fabric rounds and the host-request rounds. -/
structure DmaState where
  chans  : Vector (Option DmaHold) 16
  fabric : DmaRound
  host   : DmaRound
  deriving DecidableEq, Repr

/-- A round set before its first offering. -/
def DmaRound.initial : DmaRound := ⟨3, 0, #v[15, 15, 15, 15]⟩

/-- The engine after reset. -/
def DmaState.initial : DmaState := ⟨Vector.replicate 16 none, DmaRound.initial, DmaRound.initial⟩

end Sys2Proof.Machine
end

