-- ==== Sys2Proof/Machine/PartsChannel.lean ====
section
/-! DEFINITION. State of the read channel, the formatters and the write path, and the recovery ladder that stands in no
register (spec/03_read_channel.md, spec/04_write_path_and_format.md, spec/05_recovery_ladder.md). -/
namespace Sys2Proof.Machine

/-- A head stream S0–S7 (R5). -/
abbrev Stream := Fin 8
/-- An actuator A0–A3. -/
abbrev Actuator := Fin 4
/-- A head slot of an actuator (R5). -/
abbrev HeadSlot := Fin 2
/-- An AFE lane (Table 0-2). -/
abbrev Lane := Fin 16
/-- A slot of a stream's sector sample memory (R61). -/
abbrev SampleIdx := Fin 64
/-- A decoder engine D0–D11 (R76). -/
abbrev Engine := Fin 12
/-- One ADC code (Table 3-1). -/
abbrev Adc := BitVec 7

/-- The actuator of a stream (R5). -/
def actOf (n : Stream) : Actuator := ⟨n.val / 2, by omega⟩
/-- The head slot of a stream (R5). -/
def slotOf (n : Stream) : HeadSlot := ⟨n.val % 2, by omega⟩
/-- The stream of a slot of an actuator (R5). -/
def streamOf (a : Actuator) (k : HeadSlot) : Stream := ⟨2 * a.val + k.val, by omega⟩
/-- The stream of a lane (R5). -/
def laneStream (l : Lane) : Stream := ⟨l.val / 2, by omega⟩
/-- The other slot of the same actuator. -/
def otherSlot (k : HeadSlot) : HeadSlot := ⟨1 - k.val, by omega⟩

/-- A formatter sector descriptor, 32 bytes little-endian (Table 4-5). -/
abbrev SectorDesc := BitVec 256

/-- Bits `lo + w − 1` to `lo` of a wide word, as a number. -/
def bitsAt {n : Nat} (x : BitVec n) (lo w : Nat) : Nat := (x.extractLsb' lo w).toNat

def SectorDesc.tag (d : SectorDesc) : BitVec 64 := BitVec.extractLsb' 0 64 d
def SectorDesc.wgen (d : SectorDesc) : BitVec 64 := BitVec.extractLsb' 64 64 d
def SectorDesc.cyl (d : SectorDesc) : Nat := bitsAt d 128 20
def SectorDesc.head (d : SectorDesc) : Nat := bitsAt d 148 3
def SectorDesc.spec (d : SectorDesc) : Bool := bitsAt d 151 1 == 1
def SectorDesc.index (d : SectorDesc) : Nat := bitsAt d 152 11
def SectorDesc.zone (d : SectorDesc) : Nat := bitsAt d 163 5
def SectorDesc.op (d : SectorDesc) : Nat := bitsAt d 168 3
def SectorDesc.key (d : SectorDesc) : Nat := bitsAt d 171 5
def SectorDesc.member (d : SectorDesc) : Nat := bitsAt d 176 8
def SectorDesc.handle (d : SectorDesc) : Nat := bitsAt d 192 24

/-- The samples of one captured sector, both readers (R61). -/
structure Samples where
  x : List Adc
  y : List Adc
  deriving DecidableEq, Repr

/-- An erasure span, first and last slot sample (R53). -/
structure Span where
  first : Nat
  last  : Nat
  deriving DecidableEq, Repr

/-- One position of a group as step 15 read it (R126): the samples, the tracking path's decisions from d = −24 on, and the
erasure spans. -/
structure MemberRead where
  samples : Samples
  bits    : List Bool
  spans   : List Span
  deriving DecidableEq, Repr

/-- The four states of a sample slot (R62). -/
inductive SlotState where
  | free | captured | decoding | pinned
  deriving DecidableEq, Repr

/-- One slot of a sector sample memory (R61). -/
structure SampleSlot where
  state   : SlotState
  /-- Ring index and content of the sector's descriptor (the descriptor reference). -/
  ring    : Nat
  desc    : SectorDesc
  /-- Capture time (R76). -/
  time    : Nat
  eqSet   : Fin 4
  /-- The sync search of the sector has ended, with this offset; `found` is false for a blind framing. -/
  framed  : Bool
  offset  : Int
  found   : Bool
  spans   : List Span
  samples : Samples
  /-- The capture belongs to a ladder job (R123). -/
  ladder  : Bool
  /-- The speculative copy that the sector was read for (R22). -/
  copy    : Option Nat
  deriving DecidableEq, Repr

/-- An empty, free slot. -/
def SampleSlot.empty : SampleSlot where
  state := .free
  ring := 0
  desc := 0
  time := 0
  eqSet := 0
  framed := false
  offset := 0
  found := false
  spans := []
  samples := ⟨[], []⟩
  ladder := false
  copy := none

/-- Values that change only at a sector boundary, as they are in force (R54, R55, R81, R89). -/
structure InForce where
  eqSet     : Fin 4
  rateM     : Nat
  delta     : Int
  wedgeData : Nat
  spt       : Nat
  first     : Nat
  cskew     : Nat
  hskew     : Nat
  pre1      : Nat
  pre2      : Nat
  zone      : Nat
  deriving DecidableEq, Repr

/-- The values in force after reset: the reset values of the registers they come from. -/
def InForce.initial : InForce where
  eqSet := 0
  rateM := 65536
  delta := 0
  wedgeData := 0
  spt := 0
  first := 0
  cskew := 0
  hskew := 0
  pre1 := 0
  pre2 := 0
  zone := 0

/-- Hidden state of one stream's channel. -/
structure ChanState where
  slots     : Vector SampleSlot 64
  /-- Coefficient memory: entries that differ from Table 3-8, by address 0–0xFFF, rising (Table 3-10). -/
  coef      : List (Nat × Nat)
  force     : InForce
  /-- The last δ received from PC (R55), in units of 2⁻²⁴. -/
  deltaNext : Int
  /-- Adapted taps held aside until the next sector boundary: coefficient address and code (R60). -/
  heldTaps  : List (Nat × Nat)
  /-- Erasure spans of the sector passing under the head (R53). -/
  spans     : List Span
  /-- Capture runs: EN was 1 and no boundary has passed since it became 0 (CHN_CTRL.EN). -/
  capturing : Bool
  /-- The replay front end is busy until this instant (R63). -/
  replayEnd : Nat
  deriving DecidableEq, Repr

/-- A stream's channel after reset. -/
def ChanState.initial : ChanState where
  slots := Vector.replicate 64 SampleSlot.empty
  coef := []
  force := InForce.initial
  deltaNext := 0
  heldTaps := []
  spans := []
  capturing := false
  replayEnd := 0

/-- Gain hold of a lane (R52). -/
inductive GainHold where
  | off | span | after
  deriving DecidableEq, Repr

/-- Hidden state of one AFE lane. -/
structure LaneState where
  hold     : GainHold
  /-- First saturated sample of the span in progress, as a sample of the current sector. -/
  spanFrom : Nat
  deriving DecidableEq, Repr

/-- Iteration schedules (Table 3-4). -/
inductive Sched where
  | otf | ext | max
  deriving DecidableEq, Repr

/-- What the decoder itself gives for a replayed sector (R71, R72): convergence, the number of local
iterations run less 1, the unsatisfied checks after the last one, and the 4,160 information bytes. -/
structure DecodeRun where
  converged : Bool
  iter      : Nat
  unsat     : Nat
  info      : List Byte
  deriving DecidableEq, Repr

/-- Which ladder attempt a decode belongs to. -/
structure AttemptRef where
  act     : Actuator
  /-- The job's number in its ladder. -/
  job     : Nat
  ring    : Nat
  ssel    : HeadSlot
  step    : Nat
  attempt : Nat
  deriving DecidableEq, Repr

/-- A sector held by a decoder engine (R76). `slot` is none for an averaged source. -/
structure EngineHold where
  stream  : Stream
  slot    : Option SampleIdx
  desc    : SectorDesc
  sched   : Sched
  found   : Bool
  ladder  : Option AttemptRef
  since   : Nat
  run     : DecodeRun
  copy    : Option Nat
  deriving DecidableEq, Repr

/-- A request in the ladder queue of the decoder pool (R76), with the attempt's change (Table 5-1). -/
structure LadderReq where
  ref       : AttemptRef
  stream    : Stream
  slot      : Option SampleIdx
  desc      : SectorDesc
  sched     : Sched
  shift     : Int
  eqSet     : Fin 4
  readers   : Nat
  npDefault : Bool
  time      : Nat
  /-- The job has ended (R118): the source that the attempt still decodes, one capture or the captures of an average. -/
  orphan    : List (Samples × List Span × Int)
  deriving DecidableEq, Repr

/-- A write-back of a decoded sector in progress (R73): `keep` is false for a sector whose speculative entry was
discarded (R21). -/
structure WriteBack where
  stream : Stream
  slot   : Option SampleIdx
  desc   : SectorDesc
  block  : List Byte
  keep   : Bool
  copy   : Option Nat
  deriving DecidableEq, Repr

/-- The decoder pool. -/
structure DecPool where
  engines    : Vector (Option EngineHold) 12
  ladder     : List LadderReq
  writeBacks : List WriteBack
  deriving DecidableEq, Repr

/-- An idle decoder pool. -/
def DecPool.initial : DecPool where
  engines := Vector.replicate 12 none
  ladder := []
  writeBacks := []

/-! ### Formatter and write path -/

/-- One defect-map entry (Table 4-3). -/
abbrev DefectEntry := BitVec 64

/-- A descriptor in the formatter's hands: ring index, content, physical index (R97), status and result once the
datapath holds them (Table 4-4). -/
structure FmtItem where
  ring   : Nat
  desc   : SectorDesc
  phys   : Nat
  status : Option (Nat × Nat)
  /-- The speculative copy that a descriptor with SPEC = 1 fills (R22). -/
  copy   : Option Nat
  deriving DecidableEq, Repr

/-- The sector being written: ring index, its block, the bits driven before the current segment, and the bits left in the
data interval from the segment's start on (R86, R88). -/
structure Writing where
  ring  : Nat
  block : List Byte
  sent  : Nat
  left  : Nat
  deriving DecidableEq, Repr

/-- Hidden state of one formatter. -/
structure FmtState where
  /-- Descriptors taken and not yet completed, oldest first (R99). -/
  items     : List FmtItem
  /-- Ring index of the next descriptor to take. -/
  nextRing  : Nat
  /-- The loaded track: cylinder and global head; `overflow` when it has more than 64 entries (R96). -/
  track     : Option (Nat × Nat)
  defects   : List DefectEntry
  overflow  : Bool
  /-- A defect-map search in progress, for this cylinder and global head. -/
  searching : Option (Nat × Nat)
  /-- A capture of this ring index is armed. -/
  armedCap  : Option Nat
  /-- Writes of these ring indexes are armed, in order (R103). -/
  armedWr   : List Nat
  /-- A run is in progress (R311). -/
  inRun     : Bool
  /-- The sector being written: its gate is open, or closed for a servo field (R88). -/
  writing   : Option Writing
  /-- Cylinder, head and physical index of the next sector of a run that ended early: it ends ABANDONED (R103, R104). -/
  abandon   : Option (Nat × Nat × Nat)
  /-- A descriptor handed over while the other slot writes: it is taken when that run ends (R106). -/
  loadWait  : Option SectorDesc
  /-- The actuator has faulted: the block is reset once STATE is 0 (R178). -/
  resetDue  : Bool
  deriving DecidableEq, Repr

/-- A formatter after reset (R108). -/
def FmtState.initial : FmtState where
  items := []
  nextRing := 0
  track := none
  defects := []
  overflow := false
  searching := none
  armedCap := none
  armedWr := []
  inRun := false
  writing := none
  abandon := none
  loadWait := none
  resetDue := false

/-- A codeword of the write path (R100): the descriptor it belongs to and the block as it is encoded. -/
structure Codeword where
  stream : Stream
  ring   : Nat
  block  : List Byte
  deriving DecidableEq, Repr

/-- Which track-parity group an accumulator serves: tag bits 63:61, and the LBA of data member 0, or the group
number of a save region (R93); `save` tells the two apart. -/
structure GroupKey where
  save  : Bool
  ns    : Nat
  first : Nat
  deriving DecidableEq, Repr

/-- The accumulator of an open group (R94), as the parity vectors of the data members written so far, by member; the
four sums are computed from them. -/
structure GroupAcc where
  key     : GroupKey
  members : List (Nat × List Byte)
  /-- Parity members encoded, and those written, since the last data member was added (R95). -/
  encoded : BitVec 4
  covered : BitVec 4
  deriving DecidableEq, Repr

/-- The block that the encoder works on: the group and member it contributes to, if any, and the contribution that the
accumulator held for that member before, for the withdrawal on a failed self-check (R101). -/
structure Encoding where
  word   : Codeword
  key    : Option GroupKey
  member : Nat
  before : Option (List Byte)
  deriving DecidableEq, Repr

/-- The write path of one actuator. -/
structure WritePath where
  encoding : Option Encoding
  /-- The four-codeword FIFO, oldest first. -/
  fifo     : List Codeword
  groups   : List GroupAcc
  /-- The slot whose stream is in a write run (R106). -/
  writer   : Option HeadSlot
  /-- The gate is open in mid-sector for a split sector that waits for its reopening (R88). -/
  split    : Bool
  deriving DecidableEq, Repr

/-- An idle write path. -/
def WritePath.initial : WritePath where
  encoding := none
  fifo := []
  groups := []
  writer := none
  split := false

/-! ### The ladder -/

/-- One issued attempt of the current step; the result once its decode has ended: code, unsatisfied checks,
plaintext block. -/
structure Attempt where
  number : Nat
  result : Option (Nat × Nat × List Byte)
  slot   : Option SampleIdx
  deriving DecidableEq, Repr

/-- How a job ends (Table 5-2). -/
inductive JobOutcome where
  | recovered | unrecovered | withdrawn
  deriving DecidableEq, Repr

/-- A ladder job (R114). -/
structure LadJob where
  /-- Its number in its ladder. -/
  id         : Nat
  ring       : Nat
  desc       : SectorDesc
  ssel       : HeadSlot
  nosamp     : Bool
  parity     : Bool
  /-- Last step L, 1–16 (R128). -/
  limit      : Nat
  /-- Current step, 1–16. -/
  step       : Nat
  /-- The pinned slot (R121). -/
  slot       : Option SampleIdx
  attempts   : List Attempt
  counted    : Nat
  lastResult : Nat
  /-- Steps 8 and 9: NOCONV attempts as (signed offset, unsatisfied checks), in order (R433). -/
  offsets    : List (Int × Nat)
  /-- Steps 8 and 9 were run. -/
  ran89      : Bool
  /-- A capture is armed (R123). -/
  armed      : Bool
  /-- The slot of the capture taken for the step. -/
  capSlot    : Option SampleIdx
  /-- A capture is to be armed once a heater change has settled, or the write run of the actuator is over (R7, R124). -/
  armWait    : Bool
  /-- A heater change is set and its settling revolution has ended (R124). -/
  heaterOk   : Bool
  /-- Offset in 1/4,096 track and heater change now applied to the job's head (R124). -/
  offset     : Int
  heater     : Int
  /-- Accumulator: captures added, and their aligned sample lists with spans (R125). -/
  added      : List (Samples × List Span × Int)
  /-- The rebuild of step 15 is in progress. -/
  rebuilding : Bool
  /-- The job waits to end with this outcome at this step. -/
  ending     : Option (JobOutcome × Nat)
  /-- Its result record is written. -/
  recorded   : Bool
  /-- All commands waiting on it were aborted (R132). -/
  withdraw   : Bool
  deriving DecidableEq, Repr

/-- A ladder sequencer's jobs: the running one is the head of the queue (R114). -/
structure LadState where
  jobs   : List LadJob
  /-- Number of the next job. -/
  nextId : Nat
  deriving DecidableEq, Repr

/-- All channel, formatter, write-path and ladder state. -/
structure MediaState where
  chan  : Vector ChanState 8
  lanes : Vector LaneState 16
  dec   : DecPool
  fmt   : Vector FmtState 8
  wpath : Vector WritePath 4
  lad   : Vector LadState 4
  /-- Consecutive TORN results at a position, by global head, cylinder and physical index (R105). -/
  torn  : List (Nat × Nat × Nat × Nat)
  /-- LBAs that live at a spare position, by tag: their position has a TYPE-1 entry (R97, R105, R134). -/
  moved : List (BitVec 64)
  deriving DecidableEq, Repr

/-- Media state after reset. -/
def MediaState.initial : MediaState where
  chan := Vector.replicate 8 ChanState.initial
  lanes := Vector.replicate 16 ⟨.off, 0⟩
  dec := DecPool.initial
  fmt := Vector.replicate 8 FmtState.initial
  wpath := Vector.replicate 4 WritePath.initial
  lad := Vector.replicate 4 ⟨[], 0⟩
  torn := []
  moved := []

end Sys2Proof.Machine
end

