-- ==== Sys2Proof/Machine/PartsEngine.lean ====
section
/-! DEFINITION. State of the twenty sequencers, their control stores and the dispatch tables that stands in no register
(spec/15_engines_and_control_stores.md). -/
namespace Sys2Proof.Machine

/-- A sequencer: FS0–FS7, LS0–LS3, QS0–QS3, HS0–HS3 (Table 15-2). -/
abbrev SeqId := Fin 20
/-- A general register of a sequencer (R354). -/
abbrev Gp := Fin 32

/-- The formatter sequencer of a stream. -/
def seqFS (n : Stream) : SeqId := ⟨n.val, by omega⟩
/-- The ladder sequencer of an actuator. -/
def seqLS (a : Actuator) : SeqId := ⟨8 + a.val, by omega⟩
/-- A queue sequencer. -/
def seqQS (k : Fin 4) : SeqId := ⟨12 + k.val, by omega⟩
/-- The head sequencer of an actuator. -/
def seqHS (a : Actuator) : SeqId := ⟨16 + a.val, by omega⟩

/-- The four kinds of sequencer. -/
inductive SeqKind where
  | fs | ls | qs | hs
  deriving DecidableEq, Repr

/-- The kind of a sequencer. -/
def seqKind (q : SeqId) : SeqKind :=
  if q.val < 8 then .fs else if q.val < 12 then .ls else if q.val < 16 then .qs else .hs

/-- Words of each bank of a sequencer's control store (Table 15-2). -/
def storeSize (q : SeqId) : Nat :=
  match seqKind q with
  | .fs | .ls => 4096
  | .qs => 2048
  | .hs => 1024

/-- A FOP that has not completed (R355): direction, class tag, line, tokens less 1, and whether the port has offered it. -/
structure Fop where
  read    : Bool
  cls     : Fin 16
  line    : Nat
  less1   : Fin 8
  offered : Bool
  deriving DecidableEq, Repr

/-- A sequencer (R354). The word address stands in SEQ_STAT.ADDR. -/
structure Seq where
  /-- GP0–GP31; GP0 reads 0. -/
  gp    : Vector Word 32
  lc    : BitVec 10
  zero  : Bool
  neg   : Bool
  carry : Bool
  /-- The 512-byte line buffer. -/
  line  : Vector Word 128
  /-- The operations of the current word have been applied: it waits (R357). -/
  held  : Bool
  fop   : Option Fop
  /-- The last FOP completed, and read a line flagged by R215. -/
  fdone : Bool
  ferr  : Bool
  /-- Mailbox of the last MBREQ. -/
  mb    : Option (Fin 16)
  /-- Queue sequencers: the entry that CHECK passed on, by fetch sequence number, until DISPATCH. -/
  checked : Option Nat
  deriving DecidableEq, Repr

/-- A sequencer after reset. -/
def Seq.initial : Seq where
  gp := Vector.replicate 32 0
  lc := 0
  zero := false
  neg := false
  carry := false
  line := Vector.replicate 128 0
  held := false
  fop := none
  fdone := false
  ferr := false
  mb := none
  checked := none

/-- Sequencers and stores. Words and entries that are not listed are 0. -/
structure EngState where
  seqs   : Vector Seq 20
  /-- Two banks for each sequencer: words that differ from 0, by rising address. -/
  stores : Vector (Vector (List (Nat × BitVec 128)) 2) 20
  /-- Two banks of the dispatch tables: entries that differ from 0, by table · 256 + opcode. -/
  tables : Vector (List (Nat × Word)) 2
  /-- The sequencer that each of ports 25–28 offered a FOP of last (R355). -/
  last   : Vector SeqId 4
  deriving DecidableEq, Repr

/-- Engines after power-on. -/
def EngState.initial : EngState where
  seqs := Vector.replicate 20 Seq.initial
  stores := Vector.replicate 20 (Vector.replicate 2 [])
  tables := Vector.replicate 2 []
  last := Vector.replicate 4 19

end Sys2Proof.Machine
end

