-- ==== Sys2Proof/Machine/PartsFabric.lean ====
section
/-! DEFINITION. State of the Caller and the buffer fabric (spec/02_caller_and_fabric.md) that stands in no
register. -/
namespace Sys2Proof.Machine

/-- A requester port of the fabric (Table 2-2). -/
abbrev Port := Fin 30

/-- An activity class (Table 2-1). -/
abbrev FabClass := Fin 16

/-- A burst request: `less1 + 1` tokens, 1 to 8 (R30). `owner` tells the requesters behind one port apart: the channel at
the DMA engine's port, else 0. -/
structure BurstReq where
  port  : Port
  less1 : Fin 8
  owner : Nat
  deriving DecidableEq, Repr

/-- Tokens of a request (R30). -/
def BurstReq.tokens (r : BurstReq) : Nat := r.less1.val + 1

/-- A granted burst that has not reached its burst boundary (R41), with the instant of its grant. -/
structure Flight where
  port   : Port
  cls    : FabClass
  tokens : Nat
  since  : Nat
  owner  : Nat
  deriving DecidableEq, Repr

/-- A port held not-ready because the pending queue of the class it offers is full (R38). -/
structure HeldPort where
  cls : FabClass
  req : BurstReq
  deriving DecidableEq, Repr

/-- Traffic that one of the HQ8's own requesters has still to offer at its port: `count` lines of 64 bytes from the line
`line` on, under class `cls` (Table 2-2). -/
structure Demand where
  port  : Port
  cls   : FabClass
  line  : Nat
  count : Nat
  owner : Nat
  deriving DecidableEq, Repr

/-- Tokens of the demand's next burst: its lines up to the end of the 512-byte-aligned block it stands in (R30). -/
def Demand.tokens (d : Demand) : Nat := min d.count (8 - d.line % 8)

/-- The Caller's working counts (R32–R34), its pending queues (R38), and the bursts in flight (R41). -/
structure Caller where
  /-- The first figure has begun (R29). -/
  running  : Bool
  /-- The release cycle of the running figure has passed (R33). -/
  released : Bool
  /-- Guaranteed counts left (R32). -/
  guar     : Vector Nat 16
  /-- Ceiling rooms left (R32); below zero where a debt exceeds the ceiling. -/
  room     : Vector Int 16
  /-- The shared pool (R32). -/
  pool     : Int
  /-- Tokens charged in the running figure. -/
  used     : Vector Nat 16
  /-- Debt run up in the running figure (R34). -/
  debt     : Vector Nat 16
  /-- The class ended its eligibility for this figure with an unpaid burst (R34). -/
  ended    : Vector Bool 16
  /-- Class granted last among classes holding guaranteed tokens (R37). -/
  lastGuar : FabClass
  /-- Class granted last among classes drawing on the shared pool before the release cycle (R37). -/
  lastPool : FabClass
  /-- Class granted last in the one group after the release cycle (R37). -/
  lastAll  : FabClass
  /-- The sixteen pending queues, oldest request first (R38). -/
  queues   : Vector (List BurstReq) 16
  /-- Ports held not-ready, the longest held first (R38). -/
  held     : List HeldPort
  /-- Bursts in flight, oldest first (R41). -/
  flights  : List Flight
  /-- Traffic that the requesters of the HQ8's own data paths have still to offer, oldest first (Table 2-2). -/
  demands  : List Demand
  /-- Herug has frozen every port other than 21 and 29 (R348). -/
  frozen   : Bool
  /-- M9 was entered and the save table waits for the next figure boundary (R45). -/
  saveDue  : Bool
  /-- The half-time event of the oldest burst was raised (R48). -/
  halfDone : Bool
  deriving DecidableEq, Repr

/-- The Caller before its first figure. R37 does not say at which class a group's round-robin starts before its first grant:
each starts as if class 15 had been granted last, so at class 0 (DESIGN CHOICE, log entry 126). -/
def Caller.initial : Caller where
  running := false
  released := false
  guar := Vector.replicate 16 0
  room := Vector.replicate 16 0
  pool := 0
  used := Vector.replicate 16 0
  debt := Vector.replicate 16 0
  ended := Vector.replicate 16 false
  lastGuar := 15
  lastPool := 15
  lastAll := 15
  queues := Vector.replicate 16 []
  held := []
  flights := []
  demands := []
  frozen := false
  saveDue := false
  halfDone := false

end Sys2Proof.Machine
end

