-- ==== Sys2Proof/Machine/PartsServo.lean ====
section
/-! DEFINITION. State of the servo blocks, the profile generator, Quadrille and the head sequencers' frame side
that stands in no register (spec/06_servo.md, spec/07_quadrille_and_actuators.md). -/
namespace Sys2Proof.Machine

/-- The samples of one burst region: the index of the first, counted from the gate opening, and the samples (R141). -/
structure BurstRegion where
  first   : Nat
  samples : List Adc
  deriving DecidableEq, Repr

/-- What a demodulator path read from one servo field with one reader (R138–R141). -/
structure ReaderField where
  /-- The servo bit decisions from 8 servo bits before the predicted SAM to 8 behind the predicted end of the identity. -/
  bits    : List Bool
  /-- The regions of bursts A, B, C and D. -/
  burstA  : BurstRegion
  burstB  : BurstRegion
  burstC  : BurstRegion
  burstD  : BurstRegion
  deriving DecidableEq, Repr

/-- One servo field as a slot's demodulator path read it. -/
structure WedgeField where
  x : ReaderField
  y : ReaderField
  /-- Measured SAM spacing from the previous wedge, 1/256 F-SEQ cycle (R138). -/
  spacing : Nat
  deriving DecidableEq, Repr

/-- Hidden state of one slot's demodulator. -/
structure SrvSlot where
  /-- The previous valid wedge number. -/
  prevWedge : Option Nat
  /-- Wedges since the previous valid one. -/
  since     : Nat
  /-- W of the previous valid wedge (R140). -/
  prevW     : Nat
  /-- PES of wedge k − 1 where that wedge was valid (Table 6-4). -/
  prevPes   : Option Int
  /-- Consecutive valid wedges within the settle window (R153). -/
  settle    : Nat
  /-- The RRO row as loaded, 16-bit codes (R145). -/
  rro       : List Nat
  /-- Buffer address of a row being fetched. -/
  rroFetch  : Option Nat
  /-- The servo gate is open for the coming field (R138). -/
  gateOpen  : Bool
  /-- Start of the last field in 1/256 F-SEQ cycle of the servo timer: as measured, or as predicted for a missed wedge, and
  the instant at which the gate was opened for the coming one (R138). -/
  fieldAt   : Nat
  gateAt    : Nat
  /-- Earlier targets with the instants at which they were replaced, newest first (R144). -/
  targets   : List (Nat × Nat)
  deriving DecidableEq, Repr

/-- A slot's demodulator after reset (R163). -/
def SrvSlot.initial : SrvSlot where
  prevWedge := none
  since := 0
  prevW := 0
  prevPes := none
  settle := 0
  rro := []
  rroFetch := none
  gateOpen := false
  fieldAt := 0
  gateAt := 0
  targets := []

/-- A post of the servo core (R147): SEQ, the three staged commands, WPERMIT. -/
structure Post where
  seq     : Nat
  vcm     : Int
  ma0     : Int
  ma1     : Int
  wpermit : Bool
  deriving DecidableEq, Repr

/-- Hidden state of one actuator's servo block. -/
structure SrvState where
  slots    : Vector SrvSlot 2
  /-- SEQ of the lead slot's wedge k that the next post answers (R147). -/
  curSeq   : Option Nat
  /-- The deadline of wedge k has passed (R147). -/
  closed   : Bool
  /-- The on-time post for wedge k. -/
  post     : Option Post
  /-- The last on-time post (R148). -/
  lastPost : Option Post
  /-- On-time posts in a row since the last overrun, counted to 2 (Table 6-4). -/
  goodRun  : Nat
  /-- Missed wedges in a row on the lead slot (R149). -/
  missRun  : Nat
  /-- Valid lead wedges in a row with PES at ±32,767 and no profile (R149). -/
  railRun  : Nat
  /-- The actuator is faulted until R179 ends it. -/
  faulted  : Bool
  /-- A lead change waits for the next apply instant (R156). -/
  leadNext : Option HeadSlot
  /-- Spacings of the last 16 pairs of consecutive valid lead wedges, newest first (R201). -/
  spacings : List Nat
  deriving DecidableEq, Repr

/-- A servo block after reset. -/
def SrvState.initial : SrvState where
  slots := Vector.replicate 2 SrvSlot.initial
  curSeq := none
  closed := false
  post := none
  lastPost := none
  goodRun := 2
  missRun := 0
  railRun := 0
  faulted := false
  leadNext := none
  spacings := []

/-- A planned profile (R157): signed jerk, the three counts, the residual target distance, and its integrator. -/
structure Profile where
  start : Int
  dInt  : Int
  jerk  : Int
  nj    : Nat
  na    : Nat
  nc    : Nat
  /-- Samples applied. -/
  idx   : Nat
  a     : Int
  v     : Int
  p     : Int
  deriving DecidableEq, Repr

/-- Hidden state of one profile channel. -/
structure PrgState where
  /-- The running profile: the summed parts (R160). -/
  parts    : List Profile
  /-- Target of the motion that runs or waits, 20.12. -/
  target   : Int
  /-- The STARTs being planned, the latest first: target, and whether it is to be superposed. The earlier ones matter only
  while the latest may still be refused (R159). -/
  planning : List (Int × Bool)
  /-- State before the START being planned (R159). -/
  before   : Nat
  /-- The planned profile waiting in ADMIT. -/
  waiting  : Option Profile
  /-- A pending target (R160, R171). -/
  pending  : Option Int
  /-- The channel's E is counted in the admitted total (R169). -/
  admitted : Bool
  /-- F-SEQ cycle of entry into ADMIT (R170). -/
  age      : Nat
  /-- First instant at which a first sample may be applied (R158). -/
  notBefore : Nat
  /-- ABORT was ordered: stop at the next apply instant (R161). -/
  aborting : Bool
  /-- The sample of the apply instant to come is applied already: another actuator's instant falls into the same F-SEQ cycle
  (R165). -/
  ahead    : Bool
  /-- Position (20.12) and acceleration (8.24) in force since the latest apply instant (R158, R165). -/
  inForceP : Int
  inForceA : Int
  deriving DecidableEq, Repr

/-- A profile channel after reset. -/
def PrgState.initial : PrgState where
  parts := []
  target := 0
  planning := []
  before := 0
  waiting := none
  pending := none
  admitted := false
  age := 0
  notBefore := 0
  aborting := false
  ahead := false
  inForceP := 0
  inForceA := 0

/-- Hidden state of Quadrille. -/
structure QdrState where
  /-- Delay lines: destination, source, newest first (R165). -/
  lines  : Vector (Vector (List Int) 4) 4
  /-- Coefficient memory, 16-bit codes that differ from 0, by address 0–255, rising (R168). -/
  coef   : List (Nat × Nat)
  /-- Bank each destination uses until it switches (R168). -/
  banks  : Vector Nat 4
  /-- Instant of each actuator's latest apply instant (R164). -/
  applied : Vector (Option Nat) 4
  deriving DecidableEq, Repr

/-- Quadrille after reset. -/
def QdrState.initial : QdrState where
  lines := Vector.replicate 4 (Vector.replicate 4 [])
  coef := []
  banks := Vector.replicate 4 0
  applied := Vector.replicate 4 none

/-- Frames of the preamplifier link (Table 7-2). -/
inductive Frame where
  | write (bits : BitVec 22)
  | read  (xreg : Fin 32) (bits : BitVec 22)
  | select (slot : HeadSlot) (head : Nat) (bits : BitVec 22)
  | raise (slot : HeadSlot)
  | lower (slot : HeadSlot)
  deriving DecidableEq, Repr

/-- A gate moment passed to the frame timer (R174): the slot, the ring index of the sector, the wedge after which its data
interval begins and the data bit period of that interval at which the moment lies, and the instant at which it falls. -/
structure GateMoment where
  slot  : HeadSlot
  ring  : Nat
  wedge : Nat
  bit   : Nat
  at_   : Nat
  deriving DecidableEq, Repr

/-- The bits that the HQ8 drives in a frame, first bit first (Table 7-2); in a read the preamplifier drives the rest. -/
def Frame.wire : Frame → List Bool
  | .write b => false :: false :: (List.range 22).map fun i => b.getLsbD (21 - i)
  | .read _ b => false :: true :: (List.range 6).map fun i => b.getLsbD (21 - i)
  | .select _ _ b => false :: false :: (List.range 22).map fun i => b.getLsbD (21 - i)
  | .raise k => [true, true, k == 1, false, false, false, false, false]
  | .lower k => [true, false, k == 1, false, false, false, false, false]

/-- Clocks of a frame (Table 7-2). -/
def Frame.clocks : Frame → Nat
  | .write _ => 24
  | .read _ _ => 25
  | .select _ _ _ => 24
  | .raise _ => 8
  | .lower _ => 8

/-- Hidden state of one head sequencer's frame side. -/
structure HsqState where
  /-- The frame on the link. -/
  frame    : Option Frame
  /-- Frames held until the link is free or a gate frame has gone (R174). -/
  queued   : List Frame
  /-- Gate moments handed to the frame timer. -/
  moments  : List GateMoment
  /-- The formatter has given a gate moment that GATEARM has not passed on yet. -/
  due      : Option GateMoment
  /-- Head per slot waiting for its settle time (R173). -/
  settling : Vector (Option Nat) 2
  /-- A select that waits for the other slot to release the head (R6, R173). -/
  blocked  : List Frame
  /-- Heater change now set for the head of each slot, in codes (R124). -/
  heater   : Vector Int 2
  deriving DecidableEq, Repr

/-- A head sequencer's frame side after reset. -/
def HsqState.initial : HsqState where
  frame := none
  queued := []
  moments := []
  due := none
  settling := Vector.replicate 2 none
  blocked := []
  heater := Vector.replicate 2 0

/-- All servo, profile, Quadrille and head-sequencer state, with Ibzin's persistent actuator records (R179, R183). -/
structure MotionState where
  srv  : Vector SrvState 4
  prg  : Vector PrgState 4
  qdr  : QdrState
  hsq  : Vector HsqState 4
  /-- Operating seconds at which each actuator faulted, newest first (R179). -/
  faultTimes : Vector (List Nat) 4
  /-- SRV_FAULT as latched at the last fault of each actuator (R432). -/
  lastFault : Vector (BitVec 4) 4
  /-- Persistent DEPOP of each actuator (R183). -/
  depop      : Vector Bool 4
  /-- Persistent HEAD_DEPOP of each actuator (R183). -/
  headDepop  : Vector Nat 4
  /-- The generation stored with each table of each head, keyed by four times the head plus the table of Table 7-4; a table
  that is not listed is not fresh (R182). -/
  tables     : Vector (List (Nat × Nat)) 4
  /-- A requalification failed: Ibzin depopulates the actuator once it is parked (R179, R182). -/
  depopDue   : Vector Bool 4
  /-- Preamplifier temperature at the last advance of TDG (R182), °C. -/
  tdgTemp    : Vector (Option Int) 4
  deriving DecidableEq, Repr

/-- Motion state after reset. -/
def MotionState.initial : MotionState where
  srv := Vector.replicate 4 SrvState.initial
  prg := Vector.replicate 4 PrgState.initial
  qdr := QdrState.initial
  hsq := Vector.replicate 4 HsqState.initial
  faultTimes := Vector.replicate 4 []
  lastFault := Vector.replicate 4 0
  depop := Vector.replicate 4 false
  headDepop := Vector.replicate 4 0
  tables := Vector.replicate 4 []
  depopDue := Vector.replicate 4 false
  tdgTemp := Vector.replicate 4 none

end Sys2Proof.Machine
end

