-- ==== Sys2Proof/Machine/PartsPower.lean ====
section
/-! DEFINITION. State of the power die, the operating modes and kinetic save that stands in no register
(spec/08_motor_and_power_stage.md, spec/13_power_modes_and_kinetic_save.md, spec/17_package_and_signals.md). -/
namespace Sys2Proof.Machine

/-- The retract sequence of one actuator (Table 8-6). -/
inductive RetractPhase where
  | none | velocity | climb | park
  deriving DecidableEq, Repr

/-- What the spindle's phases are doing. -/
inductive BridgeState where
  | float | drive | regen | short | rectify
  deriving DecidableEq, Repr

/-- The switch state of a hysteretic current engine (R185): off, drive, fast decay to the rail, slow decay. -/
inductive SwitchState where
  | off | drive | fast | slow
  deriving DecidableEq, Repr

/-- A hysteretic current engine (R185, R186): its switch state, the F-PER cycles of blanking that remain, those of the
sampling window that follows, and the sample it holds for the observer and VCM_STAT.CUR, in 100 µA. -/
structure CurEngine where
  sw     : SwitchState
  blank  : Nat
  window : Nat
  sample : Int
  deriving DecidableEq, Repr

/-- An engine without a reference. -/
def CurEngine.initial : CurEngine := ⟨.off, 0, 0, 0⟩

/-- What the power stage's converters deliver over the 5 µs of one observer update: the mean phase-to-centre-tap voltages of U,
V and W in mV (R194); the currents of phases U and V and of the four coils, F-PER cycle by F-PER cycle, in 100 µA (R185); the
coil voltages in mV (R209); the currents that the microactuator outputs' loads take, in 100 µA (R189); and the power die's
junction temperature in °C (R190). -/
structure Sensed where
  volts    : Vector Int 3
  phases   : Vector (List Int) 2
  coils    : Vector (List Int) 4
  coilMv   : Vector Int 4
  ma       : Vector (Vector Int 2) 4
  junction : BitVec 8
  deriving DecidableEq, Repr

/-- The power die. Its state outlives every reset of the logic die (R184, R386). -/
structure PowerDie where
  /-- Supply inputs present. -/
  v12Ok      : Bool
  v5Ok       : Bool
  /-- The input isolation switches are open (R317). -/
  isolated   : Bool
  /-- The rails are fed from the spindle bus (R317). -/
  onBus      : Bool
  bridge     : BridgeState
  /-- Overvoltage ladder level, 0 normal … 4 L3 (R206). -/
  level      : Nat
  retract    : Vector RetractPhase 4
  parked     : Vector Bool 4
  /-- A load is in progress (R210). -/
  loading    : Vector Bool 4
  /-- The bridge is in servo mode. -/
  servo      : Vector Bool 4
  /-- OC has occurred once since the last load (Table 8-1). -/
  ocOnce     : Vector Bool 4
  /-- The bridge was turned off for good after a second OC (Table 8-1). -/
  bridgeOff  : Vector Bool 4
  /-- VCM references in force, 100 µA units (R187). -/
  vcmRef     : Vector Int 4
  /-- The continuous clamp acts (R187). -/
  contClamp  : Vector Bool 4
  /-- Means of i² of the bridges, in (100 µA)², times the 20,000 observer updates of the time constant (R187). -/
  meanSq     : Vector Nat 4
  /-- The VCM bridges' current engines (R185). -/
  vcmEng     : Vector CurEngine 4
  /-- The back-EMFs of the coils, in 0.1 µV (R209). -/
  emf        : Vector Int 4
  /-- Microactuator drives in force, per actuator and slot (R154, R189). -/
  maRef      : Vector (Vector Int 2) 4
  /-- The junction reached 150 °C (Table 8-1). -/
  ot         : Bool
  /-- The junction temperature as last measured, °C (R190). -/
  junction   : Nat
  /-- The chopper's current has exceeded 6 A since its fault was last cleared (R205). -/
  shorted    : Bool
  /-- Preamplifier supply pairs switched off by current limit or depopulation (R394). -/
  paOff      : Vector Bool 4
  /-- Instant of the last status frame (R184). -/
  lastFrame  : Nat
  /-- End of the chopper's self-test pulse (R205). -/
  pulseEnd   : Option Nat
  deriving DecidableEq, Repr

/-- The power die after its own power-on with both supplies present: phases floating, every actuator parked, the
preamplifier rails off. -/
def PowerDie.initial : PowerDie where
  v12Ok := true
  v5Ok := true
  isolated := false
  onBus := false
  bridge := .float
  level := 0
  retract := Vector.replicate 4 .none
  parked := Vector.replicate 4 true
  loading := Vector.replicate 4 false
  servo := Vector.replicate 4 false
  ocOnce := Vector.replicate 4 false
  bridgeOff := Vector.replicate 4 false
  vcmRef := Vector.replicate 4 0
  contClamp := Vector.replicate 4 false
  meanSq := Vector.replicate 4 0
  vcmEng := Vector.replicate 4 CurEngine.initial
  emf := Vector.replicate 4 0
  maRef := Vector.replicate 4 (Vector.replicate 2 0)
  ot := false
  junction := 0
  shorted := false
  paOff := Vector.replicate 4 true
  lastFrame := 0
  pulseEnd := none

/-- The flux observer (R194, R195). The flux vector is held as three times its two-axis components, in units of 0.5 pV·s. -/
structure FluxObs where
  /-- The integrals of v − RPH·i. -/
  intA    : Int
  intB    : Int
  /-- The flux angle, 1/4,096 turn. -/
  angle   : Nat
  /-- The advance of the angle since the period began, 1/4,096 turn. -/
  turn    : Int
  /-- Observer updates since the period began. -/
  updates : Nat
  /-- Smallest and largest |ψ| of the period, and the sum over its updates. -/
  least   : Nat
  most    : Nat
  sum     : Nat
  /-- The largest step back of the angle in the period, 1/4,096 turn. -/
  back    : Nat
  /-- Smallest and largest load angle of the period's updates with at least 10 % of the current limit, 1/4,096 turn. -/
  load    : Option (Int × Int)
  deriving DecidableEq, Repr

/-- The observer without an angle or a flux. -/
def FluxObs.initial : FluxObs := ⟨0, 0, 0, 0, 0, 0, 0, 0, 0, none⟩

/-- The spindle controller on the logic die. -/
structure Spindle where
  obs        : FluxObs
  /-- The current engines of phases U and V (R185). -/
  eng        : Vector CurEngine 2
  /-- The references of phases U, V and W, 100 µA; W carries the negated sum of the others (R185, R191, R192). -/
  phaseRef   : Vector Int 3
  /-- The speed loop's current magnitude, mA (R191, R192). -/
  loop       : Nat
  /-- Observer updates of the 10 ms current ramp that have passed since the spindle was re-caught; none outside the ramp
  (R198). -/
  rampIn     : Option Nat
  /-- The open-loop angle of the ramp in 1/4,096 turn, times 2³² (Table 8-2). -/
  openAngle  : Nat
  /-- Largest phase voltage seen while the phases float, mV (Table 8-2). -/
  emfPeak    : Nat
  /-- Loss of synchronism was declared: the next observer update floats the phases (R198). -/
  lossDue    : Bool
  /-- The Promenade attempt that handed over is not complete: the write inhibit has not been released since (R193). -/
  attempt    : Bool
  /-- Electrical periods ended since the last float or align (Table 8-3). -/
  periods    : Nat
  /-- Confident periods ended in LISTEN (Table 8-2). -/
  listenConf : Nat
  /-- Every period that ended in LISTEN was confident. -/
  listenAll  : Bool
  /-- Unconfident periods in a row (R196). -/
  badRun     : Nat
  /-- Speed of the previous period, 1/16 rpm. -/
  prevSpeed  : Nat
  /-- |ψ| of the last 32 confident periods, as nV/rpm, newest first (R197). -/
  keHist     : List Nat
  /-- The RAMP reference, in 1/16 rpm times 200,000 (Table 8-2). -/
  rampAcc    : Nat
  /-- Part of a 1/16 rpm of the target slew in progress, times 200,000 (R203). -/
  slewAcc    : Nat
  /-- Braking of the stop in progress is held to short brake (R199, R206, R207). -/
  forceShort : Bool
  /-- A stop was ordered and waits for PARKED (R204). -/
  stopDue    : Bool
  /-- Electrical periods in a row without a cause of the write inhibit (R200). -/
  cleanPeriods : Nat
  /-- Speed of the wanted target before slewing, 1/16 rpm. -/
  goal       : Nat
  /-- The chopper self-test is due: leaving STOPPED (R205). -/
  selfTest   : Bool
  deriving DecidableEq, Repr

/-- The spindle controller after reset. -/
def Spindle.initial : Spindle where
  obs := FluxObs.initial
  eng := Vector.replicate 2 CurEngine.initial
  phaseRef := Vector.replicate 3 0
  loop := 0
  rampIn := none
  openAngle := 0
  emfPeak := 0
  lossDue := false
  attempt := false
  periods := 0
  listenConf := 0
  listenAll := true
  badRun := 0
  prevSpeed := 0
  keHist := []
  rampAcc := 0
  slewAcc := 0
  forceShort := false
  stopDue := false
  cleanPeriods := 0
  goal := 0
  selfTest := false

/-- What the observer measured over an electrical period (R194–R197): smallest, largest and mean |ψ| as nV/rpm, speed in
1/16 rpm, the largest step back of the angle in 1/4,096 turn, and the smallest and largest load angle in 1/4,096 turn where
the current was at least 10 % of its limit. -/
structure PeriodMeas where
  fluxMin : Nat
  fluxMax : Nat
  fluxAvg : Nat
  speed   : Nat
  back    : Nat
  load    : Option (Int × Int)
  deriving DecidableEq, Repr

/-- A unit of the dirty list (R315): namespace, LBA (for a metadata unit the number of its zone or of its unit of written
bits), the fetch sequence number of its write (none for re-adopted and
replayed data, which stands before every command, R16), the pool buffer, the key slot, and whether it is one of
Ibzin's metadata units. -/
structure DirtyUnit where
  nsid   : Nat
  lba    : Nat
  fsn    : Option Nat
  handle : Nat
  key    : Nat
  isMeta : Bool
  /-- It counts against L: not so for a write that L could never hold (R315). -/
  counted : Bool
  deriving DecidableEq, Repr

/-- A pending record of a locked range (R324), and the group positions that its generation holds in each region. -/
structure PendingSave where
  gen : Nat
  key : Nat
  units : List DirtyUnit
  held : Vector Nat 4
  deriving DecidableEq, Repr

/-- A save header as it was decoded (Table 13-6): the entries are tag, key slot and metadata mark. -/
structure SaveHeader where
  gen     : Nat
  group   : Nat
  last    : Bool
  total   : Nat
  entries : List (BitVec 64 × Nat × Bool)
  deriving DecidableEq, Repr

/-- What the scan of one group position of a save region brings (R323, R429): the member count that each of the four parity
sectors states where its decode ends OK or OK_BLIND, in its first decode or in step 1 of a job of LIMIT 0; the header read at
the last member that the parity counts; and for each unit, once its member is decoded under the full ladder, the pool buffer
that it is loaded into, none where it is not recovered. -/
structure GroupScan where
  act    : Actuator
  pos    : Nat
  parity : Vector (Option (Fin 129)) 4
  header : Option SaveHeader
  units  : List (Option (BitVec 24))
  deriving DecidableEq, Repr

/-- The drag measurement of a spin-up (R314): P_drag in mW and the rotor's energy in mJ at the speed of the test. -/
structure DragMeas where
  dragMw   : Nat
  energyMj : Nat
  deriving DecidableEq, Repr

/-- Why the writing of a save ends (R320). -/
inductive SaveStop where
  | exhausted | slow | timeout
  deriving DecidableEq, Repr

/-- A writer of a kinetic save (R319–R322). -/
structure SaveWriter where
  active : Bool
  /-- The unit it has taken and not yet written. -/
  unit   : Option DirtyUnit
  /-- Units written into the open group. -/
  open_  : Nat
  /-- Groups closed. -/
  closed : Nat
  /-- Tags, key slots and metadata marks of the units in the open group (Table 13-6). -/
  entries : List (BitVec 64 × Nat × Bool)
  deriving DecidableEq, Repr

/-- Power management, the dirty list and kinetic save. -/
structure PowerMgr where
  /-- Dirty units in list order: metadata first, then rising fetch sequence (R319). -/
  dirty      : List DirtyUnit
  /-- Superseded units that a read standing before the superseding write still needs, with that write's number: never
  destaged (R20). -/
  kept       : List (DirtyUnit × Nat)
  /-- Writes that wait for room under L, by fetch sequence number and units (R315). -/
  waitL      : List (Nat × Nat)
  /-- Writes admitted under L whose data is not wholly in the buffer (R315). -/
  admitted   : List (Nat × Nat)
  /-- The capacity has been computed at the spin-up in progress (R314). -/
  measured   : Bool
  /-- P_drag in mW, the rotor's energy J · ω₀² ÷ 2 in mJ, and ω₀ in 1/16 rpm, as last measured (R314). -/
  dragMw     : Nat
  energyMj   : Nat
  w0         : Nat
  /-- Sectors per second of the save-band rate zone, from the configuration image (R91, R314). -/
  saveRate   : Nat
  /-- Position in the dirty list of the next unit to save. -/
  nextUnit   : Nat
  /-- The dirty list as it stood at the trigger (R319). -/
  saveList   : List DirtyUnit
  writers    : Vector SaveWriter 4
  /-- A save has begun to end: writing is over (R320). -/
  ended      : Bool
  /-- RETIRED, in flash (R323). -/
  retired    : Nat
  /-- The write generation in use, and the highest value recorded in flash (R85). -/
  wgen       : Nat
  wgenFlash  : Nat
  pendingSaves : List PendingSave
  /-- Replay must run before the next M3 (R323). -/
  replayDue  : Bool
  /-- Replay has loaded units, and M3 waits until the dirty count is within L (R323). -/
  replayDrain : Bool
  /-- SMART bit 4 is held until the next power-on (R326). -/
  backupFailed : Bool
  /-- Curve level written by M6 (R307), from the configuration image. -/
  idleCLevel : Nat
  /-- The demand level for M3, from the configuration image. -/
  activeLevel : Nat
  /-- First spin-up after this boot has not happened (R312). -/
  firstSpin  : Bool
  /-- Logic-die thermal row in force (R310). -/
  throttle   : Bool
  /-- Last operational power state of the subsystem (R309, R310). -/
  lastOpPs   : Nat
  /-- Formatters waiting to begin a run, earliest first (R311). -/
  runWait    : List Stream
  /-- Media wake was asked for. -/
  wakeDue    : Bool
  deriving DecidableEq, Repr

/-- Power management after reset. -/
def PowerMgr.initial : PowerMgr where
  dirty := []
  kept := []
  waitL := []
  admitted := []
  measured := false
  dragMw := 0
  energyMj := 0
  w0 := 0
  saveRate := 0
  nextUnit := 0
  saveList := []
  writers := Vector.replicate 4 ⟨false, none, 0, 0, []⟩
  ended := false
  retired := 0
  wgen := 0
  wgenFlash := 0
  pendingSaves := []
  replayDue := true
  replayDrain := false
  backupFailed := false
  idleCLevel := 0
  activeLevel := 0
  firstSpin := true
  throttle := false
  lastOpPs := 0
  runWait := []
  wakeDue := false

end Sys2Proof.Machine
end

