-- ==== Sys2Proof/Machine/PartsReset.lean ====
section
/-! DEFINITION. State of the clocks, the reset controller and the pins that stands in no register
(spec/16_clocks_and_reset.md, spec/17_package_and_signals.md). -/
namespace Sys2Proof.Machine

/-- A clock domain (Table 16-1). -/
abbrev Domain := Fin 40
/-- A configurable ball: STAT0–3, SMB_ALERT_N, CLKREQ_N0, CLKREQ_N1, FL_RST_N, as FUS_PADMAP numbers them (R392). -/
abbrev PadId := Fin 8

/-- Who writes a register (R337, R372, R377, R423). -/
inductive Requester where
  /-- The boot core. -/
  | bc
  /-- Another core, numbered as RST_INFO.CORE. -/
  | core (k : Fin 16)
  /-- The host through BAR2. -/
  | bar2
  /-- A sequencer. -/
  | seq (q : Fin 20)
  /-- The host through BAR0 of a function: its NVMe registers (Table 11-3). -/
  | bar0 (p : Fin 2)
  /-- The host in configuration space of a function. -/
  | config (p : Fin 2)
  deriving DecidableEq, Repr

/-- Clocks, reset and pins. -/
structure RstState where
  /-- The reset entry is in progress; `fromP0` when P0 follows it (R374). -/
  entering : Bool
  fromP0   : Bool
  /-- F-AON times of the last reset entries, µs, newest first (R381). -/
  history  : List Nat
  /-- Instant of the last power-on (Table 18-2). -/
  origin   : Nat
  /-- RESET_N is asserted after its filter (R376). -/
  pinLow   : Bool
  /-- The storm hold is in progress (R381). -/
  stormHold : Bool
  /-- The rails of R379 are off after a failed ramp. -/
  railsOff : Bool
  /-- Domains in reset. -/
  inReset  : Vector Bool 40
  /-- Release requests that wait for clock-good (R369). -/
  waiting  : List Domain
  /-- Power-on or brown-out began this boot (R312, R419). -/
  coldBoot : Bool
  /-- The cores have been released in P6. -/
  coresUp  : Bool
  /-- P4 treated the buffer as kept, and the dirty list has not been walked yet (R325, R380). -/
  kept     : Bool
  /-- Configurable balls that their function drives (R392). -/
  driven   : Vector Bool 8
  /-- TEST_EN is sampled 1 in P1 (R399). -/
  testEn   : Bool
  /-- The crystal is good (R366). -/
  xtal     : Bool
  /-- P3 has begun and the root PLL is enabled (R366). -/
  pllOn    : Bool
  /-- A storm hold that Ibzin has not reported yet (Table 18-1). -/
  stormed  : Bool
  deriving DecidableEq, Repr

/-- The reset controller just after the reset entry of the first power-on. -/
def RstState.initial : RstState where
  entering := true
  fromP0 := true
  history := []
  origin := 0
  pinLow := false
  stormHold := false
  railsOff := false
  inReset := (Vector.replicate 40 true).set 39 false
  waiting := []
  coldBoot := true
  coresUp := false
  kept := false
  driven := Vector.replicate 8 false
  testEn := false
  xtal := false
  pllOn := false
  stormed := false

end Sys2Proof.Machine
end

