-- ==== Sys2Proof/Machine/PartsSecurity.lean ====
section
/-! DEFINITION. State of boot, images and security that stands in no register (spec/14_boot_images_security.md). -/
namespace Sys2Proof.Machine

/-- A key slot, 0–31 (R340). -/
abbrev KeySlot := Fin 32
/-- A locking object: the global range of NSID `i + 1` for `i` 0–7, locking range `i − 7` for 8–23; its number is its
key slot (Table 14-8). -/
abbrev LockId := Fin 24

/-- A locking object (Table 14-9, R343–R345). A global range covers its namespace, so its bounds are not used. -/
structure LockObject where
  /-- The namespace it is bound to; 0: a locking range bound to none. -/
  nsid  : Nat
  first : Nat
  count : Nat
  /-- ReadLockEnabled, WriteLockEnabled, ReadLocked, WriteLocked. -/
  readEn      : Bool
  writeEn     : Bool
  readLocked  : Bool
  writeLocked : Bool
  /-- What LockOnReset holds. -/
  powerCycle   : Bool
  programmatic : Bool
  /-- MEK(r) (Table 14-7). -/
  mek   : BitVec 512
  /-- Authorities under whose KAUTH the key store holds a copy of the MEK (R339). -/
  auths : List Nat
  deriving DecidableEq, Repr

/-- A locking object as Revert leaves it. -/
def LockObject.initial (nsid : Nat) : LockObject := ⟨nsid, 0, 0, false, false, false, false, true, false, 0, []⟩

/-- What a Security Send does (R342–R345): the methods and commands of Opal, with the parameters its packet carries
after authentication. -/
inductive OpalOp where
  | lock (r : LockId) (read write : Bool)
  | enable (r : LockId) (read write : Bool)
  | lockOnReset (r : LockId) (powerCycle programmatic hardware hotPlug : Bool)
  | range (r : LockId) (nsid first count : Nat)
  | authority (r : LockId) (auth : Nat) (grant : Bool)
  | genKey (r : LockId)
  | revertLocking
  | revertPsid
  | tperReset
  | mbrControl (enable done : Bool)
  | mbrWrite (offset : Nat) (data : List Byte)
  | dataStoreWrite (offset : Nat) (data : List Byte)
  | blockSid
  /-- A method of a part that Table 14-9 lists as not supported, or that its authority may not invoke. -/
  | unsupported
  deriving DecidableEq, Repr

/-- A Herug token (Table 14-10), with the outcome of checking its signature under each key. -/
structure Token where
  sigSceka : Bool
  sigOem   : Bool
  scope    : BitVec 16
  serial   : BitVec 64
  nonce    : BitVec 128
  deriving DecidableEq, Repr

/-- A bundle (Tables 14-4, 14-5): its header fields, the outcome of each cryptographic check that BC makes on it
(R332), and what its sections hold. -/
structure Bundle where
  /-- MAGIC, FORMAT, LENGTH, COUNT and the section offsets lie within the bundle. -/
  formOk   : Bool
  cls      : Nat
  svnCfg   : Nat
  svnPatch : Nat
  romX     : Nat
  romY     : Nat
  patchLvl : Nat
  /-- Section types, in order. -/
  sections : List Nat
  /-- The core patch is marked live by Sceka (Table 14-5). -/
  live     : Bool
  /-- The trailer signature verifies under the Sceka root key; under the drive-maker key of the type-0 section. -/
  sigSceka : Bool
  sigOem   : Bool
  /-- The type-0 key's SHA-384 equals the hash in fuses. -/
  keyOk    : Bool
  patchSig : Bool
  gcmOk    : Bool
  /-- Words 1–62 of the option-word copy (R329). -/
  options  : Option (List Word)
  /-- Register values of the configuration sections: address and word. -/
  regs     : List (Nat × Word)
  /-- Microcode words: sequencer, address, word; dispatch entries by table · 256 + opcode. -/
  code     : List (SeqId × Nat × BitVec 128)
  tables   : List (Nat × Word)
  /-- Type 8: the curve levels of M6 and of M3 (R307), and the sectors per second of the save band's rate zone (R314). -/
  idleCLevel  : Nat
  activeLevel : Nat
  saveRate    : Nat
  deriving DecidableEq, Repr

/-- Fuse rows (R330, R351, R392, R427). -/
structure Fuses where
  /-- 0 SCEKA, 1 OEM, 2 RETURNED. -/
  life    : Nat
  /-- The drive-maker key hash and KIMG_O are programmed. -/
  oemKey  : Bool
  patch   : Nat
  cfg     : Nat
  serial  : BitVec 64
  /-- Pad map, laid out as FUS_PADMAP. -/
  padmap  : BitVec 8
  deriving DecidableEq, Repr

/-- Flash regions of Table 14-1 other than the recorder. -/
structure Flash where
  /-- Option blocks A and B: 64 words each, or none while erased. -/
  optA    : List Word
  optB    : List Word
  /-- Pending slot and its class; active slot, 1 when none (R331). -/
  pending : Option (Nat × Nat)
  active  : Nat
  /-- Slots 2 and 3. -/
  slot2   : Option Bundle
  slot3   : Option Bundle
  /-- The dirty-unit count of a forced Herug opening (R350). -/
  forced  : Nat
  deriving DecidableEq, Repr

/-- Security state. -/
structure SecState where
  fuses   : Fuses
  flash   : Flash
  /-- Contents of the key slots (R340): the AES-256-XTS key pair, 64 bytes little-endian; an empty slot holds 0. -/
  slots   : Vector (BitVec 512) 32
  /-- The vault (R341). -/
  vault   : Vector (Option (BitVec 512)) 24
  /-- The ladder's working register. -/
  work    : BitVec 512
  objects : Vector LockObject 24
  /-- DUS and the image keys are unreadable until a chip reset (R348). -/
  noDus   : Bool
  /-- MBR shadow enabled, done; bytes of the MBR table and of the DataStore that are not 0, by rising offset. -/
  mbrEnable : Bool
  mbrDone   : Bool
  mbr       : List (Nat × Byte)
  dataStore : List (Nat × Byte)
  sidBlocked : Bool
  /-- Option words 1–62 in force, from word 1 (R328). -/
  options : List Word
  /-- The bundle loaded in P5 (R331). -/
  active  : Option Bundle
  /-- Raise of the SVN counts is due at the next M3 (R336). -/
  svnDue  : Bool
  /-- Rejected tokens since the last chip reset; the accepted token's SCOPE (R346). -/
  rejects : Nat
  scope   : BitVec 16
  deriving DecidableEq, Repr

/-- The locking objects of a drive without ranges. -/
def LockObject.all : Vector LockObject 24 := Vector.ofFn fun i => LockObject.initial (if i.val < 8 then i.val + 1 else 0)

/-- Security state of a part ordered without a pad map, in lifecycle SCEKA, with erased flash. -/
def SecState.initial : SecState where
  fuses := ⟨0, false, 0, 0, 0, 0x80⟩
  flash := ⟨[], [], none, 1, none, none, 0⟩
  slots := Vector.replicate 32 0
  vault := Vector.replicate 24 none
  work := 0
  objects := LockObject.all
  noDus := false
  mbrEnable := false
  mbrDone := false
  mbr := []
  dataStore := []
  sidBlocked := false
  options := []
  active := none
  svnDue := false
  rejects := 0
  scope := 0

end Sys2Proof.Machine
end

