-- ==== Sys2Proof/Syntax.lean ====
section
/-! DEFINITION. The commands of the block: one constructor for each row of spec/opcode_table.json, with the row's
operands: where it happens, what is written, and what the outside world presents with it. -/
namespace Sys2Proof

open Machine

/-- A command: an event, a register write, or an operation of a host, a sequencer or a core. -/
inductive Instr where
  /-- ARBITER_GRANT (R268). -/
  | arbiterGrant
  /-- FETCH (R269). -/
  | fetch (k : Fin 4) (inp : Bool)
  /-- FETCH_COMPLETE (R269). -/
  | fetchComplete (k : Fin 4) (data : Option (List (BitVec 512)))
  /-- CHECK (R19). -/
  | check (k : Fin 4) (inp : Bool) (dsm : List (Nat × Nat))
  /-- DISPATCH (R271). -/
  | dispatch (k : Option (Fin 4)) (inp : Bool) (fsn : BitVec 32)
  /-- READ_AHEAD_ISSUE (R22). -/
  | readAheadIssue (nsid : BitVec 4) (first : BitVec 40) (count : Fin 257)
  /-- ANTICIPATORY_SEEK (R26). -/
  | anticipatorySeek (a : Actuator) (target : Word)
  /-- SPEC_COPY_EXPIRE (R26). -/
  | specCopyExpire (k : Nat)
  /-- FIGURE_BOUNDARY (R32). -/
  | figureBoundary
  /-- RELEASE_CYCLE (R33). -/
  | releaseCycle
  /-- FABRIC_REQUEST (R38). -/
  | fabricRequest (port : Port) (tag : FabClass) (less1 : Fin 8)
  /-- FABRIC_GRANT (R37). -/
  | fabricGrant
  /-- BURST_BOUNDARY (R41). -/
  | burstBoundary (port : Port)
  /-- CAL_FREEZE (R47). -/
  | calFreeze (b : Bool)
  /-- CAL_SWAP (R43). -/
  | calSwap
  /-- CAL_SWAP_CANCEL (R44). -/
  | calSwapCancel
  /-- CAL_BACK_WRITE (R43). -/
  | calBackWrite (n : FabClass) (w : Word)
  /-- FABRIC_WATCHDOG_HALF (R48). -/
  | fabricWatchdogHalf
  /-- FABRIC_WATCHDOG_EXPIRY (R48). -/
  | fabricWatchdogExpiry
  /-- LANE_READY (R50). -/
  | laneReady (l : Lane)
  /-- TA_SPAN_DETECT (R52). -/
  | taSpanDetect (l : Lane) (first : Nat)
  /-- TA_SPAN_END (R52). -/
  | taSpanEnd (l : Lane) (last : Nat) (sat : Nat)
  /-- TA_GAIN_HOLD_END (R52). -/
  | taGainHoldEnd (l : Lane)
  /-- ADAPT_WINDOW_END (R60). -/
  | adaptWindowEnd (n : Stream) (w : Samples) (errors : List Int)
  /-- SECTOR_BOUNDARY (R89). -/
  | sectorBoundary (n : Stream)
  /-- SECTOR_CAPTURE (R61). -/
  | sectorCapture (n : Stream) (samples : Samples)
  /-- SYNC_SEARCH_END (R110). -/
  | syncSearchEnd (n : Stream) (bits : List Bool) (phases : List Int)
  /-- DECODER_GRANT (R77). -/
  | decoderGrant
  /-- DECODE_COMPLETE (R73). -/
  | decodeComplete (e : Engine)
  /-- WRITE_BACK_COMPLETE (R62). -/
  | writeBackComplete (k : Nat)
  /-- CHN_CDATA_WRITE (R81). -/
  | chnCdataWrite (n : Stream) (data : BitVec 10)
  /-- CHN_EN_WRITE (R428). -/
  | chnEnWrite (n : Stream) (en : Bool)
  /-- CHN_CNTCLR (R81). -/
  | chnCntclr (n : Stream)
  /-- DEC_CNTCLR (R72). -/
  | decCntclr
  /-- LOADDESC (R98). -/
  | loaddesc (n : Stream) (inp : Bool)
  /-- LOADTRK (R96). -/
  | loadtrk (n : Stream) (inp : Bool)
  /-- TRACK_LOADED (R96). -/
  | trackLoaded (n : Stream)
  /-- CAPTURE (R102). -/
  | capture (n : Stream) (inp : Bool)
  /-- WRITE (R103). -/
  | write (n : Stream) (inp : Bool)
  /-- COMPLETE (R99). -/
  | complete (n : Stream) (inp : Bool)
  /-- WRITE_PATH_FETCH (R100). -/
  | writePathFetch (n : Stream) (grouped : Bool)
  /-- CODEWORD_READY (R101). -/
  | codewordReady (a : Actuator) (bad : Bool)
  /-- GATE_MOMENT (R174). -/
  | gateMoment (a : Actuator)
  /-- GATE_REOPEN (R104). -/
  | gateReopen (n : Stream)
  /-- WSAFE_FALL (R104). -/
  | wsafeFall (a : Actuator) (bits : Nat)
  /-- RUN_END (R176). -/
  | runEnd (n : Stream)
  /-- FMT_EN_WRITE (R428). -/
  | fmtEnWrite (n : Stream) (en : Bool)
  /-- FMT_CNTCLR (R108). -/
  | fmtCntclr (n : Stream)
  /-- LAD_START (R114). -/
  | ladStart (a : Actuator) (w : Word)
  /-- LAD_RAISE (R129). -/
  | ladRaise (a : Actuator) (w : Word)
  /-- ATTEMPT (R117). -/
  | attempt (a : Actuator) (inp : Bool)
  /-- ATTEMPT_END (R118). -/
  | attemptEnd (a : Actuator)
  /-- ARMCAP (R123). -/
  | armcap (a : Actuator) (inp : Bool)
  /-- CAPTURE_TAKEN (R123). -/
  | captureTaken (a : Actuator) (samples : Samples)
  /-- HEATER_SETTLE_END (R124). -/
  | heaterSettleEnd (a : Actuator)
  /-- AVGADD (R125). -/
  | avgadd (a : Actuator) (inp : Bool)
  /-- REBUILD (R126). -/
  | rebuild (a : Actuator) (inp : Bool)
  /-- REBUILD_DONE (R127). -/
  | rebuildDone (a : Actuator) (group : List (Option Machine.MemberRead))
  /-- RECORD (R133). -/
  | record (a : Actuator) (inp : Bool)
  /-- JOB_END (R133). -/
  | jobEnd (a : Actuator)
  /-- LAD_EN_WRITE (R428). -/
  | ladEnWrite (a : Actuator) (en : Bool)
  /-- LAD_CNTCLR (R135). -/
  | ladCntclr (a : Actuator)
  /-- SERVO_GATE_OPEN (R138). -/
  | servoGateOpen (a : Actuator) (k : HeadSlot)
  /-- SAM_SEARCH_END (R139). -/
  | samSearchEnd (a : Actuator) (k : HeadSlot) (x : List Bool) (y : List Bool)
  /-- PES_READY (R144). -/
  | pesReady (a : Actuator) (k : HeadSlot) (f : WedgeField)
  /-- SRV_POST (R147). -/
  | srvPost (a : Actuator) (seq : BitVec 8) (wpermit : Bool)
  /-- POST_DEADLINE (R148). -/
  | postDeadline (a : Actuator)
  /-- APPLY_INSTANT (R146). -/
  | applyInstant (a : Actuator) (same : BitVec 4)
  /-- SRV_TARGET_WRITE (R144). -/
  | srvTargetWrite (a : Actuator) (k : HeadSlot) (w : Word)
  /-- SRV_CTRL_WRITE (R151). -/
  | srvCtrlWrite (a : Actuator) (w : Word)
  /-- SRV_LEAD_WRITE (R156). -/
  | srvLeadWrite (a : Actuator) (k : HeadSlot)
  /-- SRV_RRO_LOAD (R145). -/
  | srvRroLoad (a : Actuator) (k : HeadSlot) (w : Word)
  /-- RRO_FETCH_DONE (R145). -/
  | rroFetchDone (a : Actuator) (k : HeadSlot)
  /-- PRG_START (R158). -/
  | prgStart (a : Actuator)
  /-- PLAN_DONE (R159). -/
  | planDone (a : Actuator)
  /-- PRG_ABORT (R161). -/
  | prgAbort (a : Actuator)
  /-- QUADRILLE_ADMIT (R170). -/
  | quadrilleAdmit
  /-- FAULT_END (R179). -/
  | faultEnd (a : Actuator)
  /-- QDR_BANK_WRITE (R168). -/
  | qdrBankWrite (w : Word)
  /-- QDR_COEF_WRITE (R168). -/
  | qdrCoefWrite (w : Word)
  /-- QUAL (R181). -/
  | qual (a : Actuator) (bad : BitVec 24)
  /-- DEPOP_WRITE (R183). -/
  | depopWrite (a : Actuator) (b : Bool)
  /-- SELECT (R173). -/
  | select (a : Actuator) (inp : Bool)
  /-- HEAD_SELECT_SETTLE (R173). -/
  | headSelectSettle (a : Actuator) (k : HeadSlot)
  /-- WFRAME (R172). -/
  | wframe (a : Actuator) (inp : Bool)
  /-- RFRAME (R172). -/
  | rframe (a : Actuator) (inp : Bool)
  /-- FRAMEDONE (R172). -/
  | framedone (a : Actuator) (data : BitVec 16)
  /-- GATEARM (R174). -/
  | gatearm (a : Actuator) (inp : Bool)
  /-- PA_FAULT_ASSERT (R177). -/
  | paFaultAssert (a : Actuator)
  /-- STATUS_FRAME (R184). -/
  | statusFrame
  /-- STATUS_FRAME_TIMEOUT (R184). -/
  | statusFrameTimeout
  /-- DRV_OC (R190). -/
  | drvOc (a : Actuator)
  /-- DRV_OPEN (R190). -/
  | drvOpen (a : Actuator)
  /-- DRV_MA_LIMIT (R190). -/
  | drvMaLimit (a : Actuator) (k : HeadSlot)
  /-- DRV_OT (R190). -/
  | drvOt
  /-- POWER_DIE_WARN (R190). -/
  | powerDieWarn
  /-- LISTEN_END (R191). -/
  | listenEnd
  /-- STOPBRAKE_END (R191). -/
  | stopbrakeEnd
  /-- ALIGN_END (R191). -/
  | alignEnd
  /-- RAMP_TIMEOUT (R193). -/
  | rampTimeout
  /-- OBSERVER_UPDATE (R194). -/
  | observerUpdate (x : Sensed)
  /-- ELECTRICAL_PERIOD_END (R195). -/
  | electricalPeriodEnd
  /-- CATCH_TIMEOUT (R199). -/
  | catchTimeout
  /-- INHIBIT_RELEASE (R200). -/
  | inhibitRelease
  /-- SPN_DEMAND_WRITE (R203). -/
  | spnDemandWrite (level : BitVec 8)
  /-- SPN_CTRL_WRITE (R191). -/
  | spnCtrlWrite (w : Word)
  /-- STOPPING_BEGIN (R204). -/
  | stoppingBegin
  /-- STOPPED_DETECT (R204). -/
  | stoppedDetect
  /-- CHOPPER_ON (R205). -/
  | chopperOn
  /-- CHOPPER_OFF (R205). -/
  | chopperOff
  /-- CHOPPER_SELF_TEST (R205). -/
  | chopperSelfTest
  /-- CHOPPER_OPEN_CHECK (R205). -/
  | chopperOpenCheck (ma : Nat)
  /-- CHOPPER_SHORT (R205). -/
  | chopperShort
  /-- LADDER_L1_ENTER (R206). -/
  | ladderL1Enter
  /-- LADDER_L2_ENTER (R206). -/
  | ladderL2Enter
  /-- LADDER_L2_LEAVE (R206). -/
  | ladderL2Leave
  /-- LADDER_L3_ENTER (R206). -/
  | ladderL3Enter
  /-- LADDER_L3_LEAVE (R206). -/
  | ladderL3Leave
  /-- SPN_BRK_FAULT_CLEAR (R207). -/
  | spnBrkFaultClear
  /-- SPN_BRK_ACK (R207). -/
  | spnBrkAck
  /-- RETRACT_START (R209). -/
  | retractStart (a : Actuator)
  /-- RETRACT_VELOCITY_END (R209). -/
  | retractVelocityEnd (a : Actuator)
  /-- RETRACT_CLIMB_END (R209). -/
  | retractClimbEnd (a : Actuator)
  /-- RETRACT_PARK_END (R209). -/
  | retractParkEnd (a : Actuator)
  /-- RETRACT_TIMEOUT (R209). -/
  | retractTimeout (a : Actuator)
  /-- LOW_SPEED_RETRACT (R208). -/
  | lowSpeedRetract
  /-- LOAD (R210). -/
  | load (a : Actuator)
  /-- UNLOAD (R208). -/
  | unload (a : Actuator)
  /-- LOAD_TIMEOUT (R210). -/
  | loadTimeout (a : Actuator)
  /-- BUFFER_LINE_ACCESS (R214). -/
  | bufferLineAccess (a : LineAccess) (decay : Bool)
  /-- BUFFER_FILL_END (R218). -/
  | bufferFillEnd
  /-- POOL_EN_WRITE (R222). -/
  | poolEnWrite (p : PoolId) (en : Bool)
  /-- POOL_RING_INIT_DONE (R222). -/
  | poolRingInitDone (p : PoolId)
  /-- POOL_MB_WRITE (R223). -/
  | poolMbWrite (mb : Mailbox) (w : Word)
  /-- POOL_GRANT (R224). -/
  | poolGrant (p : PoolId)
  /-- POOL_CACHE_REFILL (R222). -/
  | poolCacheRefill (p : PoolId)
  /-- POOL_FREE (R225). -/
  | poolFree (h : BitVec 24)
  /-- POOL_RETIRE (R227). -/
  | poolRetire (h : BitVec 24)
  /-- POOL_BANKRET_WRITE (R228). -/
  | poolBankretWrite (half : Fin 2) (w : Word)
  /-- CACHE_ACCESS (R229). -/
  | cacheAccess (a : LineAccess) (ecc : EccResult) (tagBad : Option (Fin 16 × Bool))
  /-- MISS_FILL_DONE (R234). -/
  | missFillDone (k : Nat)
  /-- BUCKET_LEAK (R232). -/
  | bucketLeak (bank : Fin 16)
  /-- MOP_CLEAN_RANGE (R235). -/
  | mopCleanRange
  /-- MOP_INVALIDATE_RANGE (R235). -/
  | mopInvalidateRange
  /-- MOP_CLEAN_INVALIDATE_RANGE (R235). -/
  | mopCleanInvalidateRange
  /-- MOP_CLEAN_SET_WAY (R235). -/
  | mopCleanSetWay (set : Fin 32768) (way : Fin 16)
  /-- MOP_INVALIDATE_SET_WAY (R235). -/
  | mopInvalidateSetWay (set : Fin 32768) (way : Fin 16)
  /-- MOP_CLEAN_INVALIDATE_SET_WAY (R235). -/
  | mopCleanInvalidateSetWay (set : Fin 32768) (way : Fin 16)
  /-- MOP_CLEAN_INVALIDATE_ALL (R235). -/
  | mopCleanInvalidateAll
  /-- MOP_DONE (R235). -/
  | mopDone
  /-- CCH_EN_WRITE (R236). -/
  | cchEnWrite (en : Bool)
  /-- SCB_GO (R237). -/
  | scbGo
  /-- SCB_ABORT (R238). -/
  | scbAbort
  /-- SCRUB_PASS_END (R237). -/
  | scrubPassEnd
  /-- DMA_DESC_TAKE (R241). -/
  | dmaDescTake (p : DmaLevel)
  /-- DMA_SECTOR_CHECK (R248). -/
  | dmaSectorCheck
  /-- HOST_READ_COMPLETION (R252). -/
  | hostReadCompletion (n : DmaCh) (data : Option (List Byte))
  /-- COMPLETION_TIMEOUT (R434). -/
  | completionTimeout (n : DmaCh)
  /-- READBACK_ISSUE (R250). -/
  | readbackIssue
  /-- READBACK_COMPLETE (R250). -/
  | readbackComplete (n : DmaCh) (ok : Bool)
  /-- DMA_CH_ABORT (R253). -/
  | dmaChAbort (n : DmaCh)
  /-- DMA_CH_RETRY (R253). -/
  | dmaChRetry (n : DmaCh)
  /-- DMA_BLOCK_WRITE (R254). -/
  | dmaBlockWrite (b0 : Bool) (b1 : Bool)
  /-- DMA_EN_WRITE (R254). -/
  | dmaEnWrite (en : Bool)
  /-- TRAIN_EN_WRITE (R259). -/
  | trainEnWrite (en0 : Bool) (en1 : Bool)
  /-- LINK_UP (R256). -/
  | linkUp (p : PortId) (speed : Fin 6) (width : Fin 5)
  /-- LINK_DOWN (R279). -/
  | linkDown (p : PortId)
  /-- PERST_ASSERT (R279). -/
  | perstAssert (p : PortId)
  /-- HOT_RESET (R279). -/
  | hotReset (p : PortId)
  /-- FUNCTION_LEVEL_RESET (R279). -/
  | functionLevelReset (p : PortId)
  /-- CC_EN_SET (R264). -/
  | ccEnSet (p : PortId) (cc : Word)
  /-- CC_EN_CLEAR (R279). -/
  | ccEnClear (p : PortId)
  /-- SHUTDOWN_NORMAL (R276). -/
  | shutdownNormal (p : PortId)
  /-- SHUTDOWN_ABRUPT (R276). -/
  | shutdownAbrupt (p : PortId)
  /-- SHUTDOWN_COMPLETE (R276). -/
  | shutdownComplete (p : PortId)
  /-- NSSR_WRITE (R282). -/
  | nssrWrite (w : Word)
  /-- SQ_TAIL_DOORBELL (R265). -/
  | sqTailDoorbell (p : PortId) (qid : BitVec 16) (v : BitVec 16)
  /-- CQ_HEAD_DOORBELL (R265). -/
  | cqHeadDoorbell (p : PortId) (qid : BitVec 16) (v : BitVec 16)
  /-- RECEIVED_ERROR (R262). -/
  | receivedError (p : PortId) (e : LinkError)
  /-- ASPM_L1_ENTRY (R261). -/
  | aspmL1Entry (p : PortId) (sub : Fin 3)
  /-- D3HOT_TRANSITION (R261). -/
  | d3hotTransition (p : PortId) (d3 : Bool)
  /-- COMPLETION_POST (R273). -/
  | completionPost (fsn : BitVec 32) (ok : Bool)
  /-- FETCH_EN_WRITE (R270). -/
  | fetchEnWrite (en0 : Bool) (en1 : Bool)
  /-- QUIET_POINT (R284). -/
  | quietPoint
  /-- DELETE_IO_SQ (R267). -/
  | deleteIoSq (fsn : BitVec 32)
  /-- CREATE_IO_SQ (R266). -/
  | createIoSq (fsn : BitVec 32)
  /-- GET_LOG_PAGE (R289). -/
  | getLogPage (r : AdminReq) (e : IoEnd)
  /-- DELETE_IO_CQ (R266). -/
  | deleteIoCq (fsn : BitVec 32)
  /-- CREATE_IO_CQ (R266). -/
  | createIoCq (fsn : BitVec 32)
  /-- IDENTIFY (R289). -/
  | identify (r : AdminReq) (e : IoEnd)
  /-- ABORT (R290). -/
  | abort (fsn : BitVec 32)
  /-- SET_FEATURES (R301). -/
  | setFeatures (r : AdminReq)
  /-- GET_FEATURES (R301). -/
  | getFeatures (r : AdminReq)
  /-- ASYNCHRONOUS_EVENT_REQUEST (R289). -/
  | asynchronousEventRequest (fsn : BitVec 32)
  /-- NAMESPACE_CREATE (R291). -/
  | namespaceCreate (fsn : BitVec 32) (d : NsCreate) (e : IoEnd)
  /-- NAMESPACE_DELETE (R291). -/
  | namespaceDelete (fsn : BitVec 32)
  /-- NAMESPACE_ATTACH (R289). -/
  | namespaceAttach (fsn : BitVec 32) (ctrls : BitVec 2) (e : IoEnd)
  /-- NAMESPACE_DETACH (R289). -/
  | namespaceDetach (fsn : BitVec 32) (ctrls : BitVec 2) (e : IoEnd)
  /-- FIRMWARE_IMAGE_DOWNLOAD (R289). -/
  | firmwareImageDownload (fsn : BitVec 32) (data : List Byte) (e : IoEnd)
  /-- FIRMWARE_COMMIT_REPLACE (R292). -/
  | firmwareCommitReplace (fsn : BitVec 32) (b : Option Bundle)
  /-- FIRMWARE_COMMIT_REPLACE_ACTIVATE (R334). -/
  | firmwareCommitReplaceActivate (fsn : BitVec 32) (b : Option Bundle)
  /-- FIRMWARE_COMMIT_ACTIVATE (R334). -/
  | firmwareCommitActivate (fsn : BitVec 32)
  /-- FIRMWARE_COMMIT_ACTIVATE_NOW (R284). -/
  | firmwareCommitActivateNow (fsn : BitVec 32)
  /-- NVME_MI_SEND (R304). -/
  | nvmeMiSend (fsn : BitVec 32) (e : IoEnd)
  /-- NVME_MI_RECEIVE (R304). -/
  | nvmeMiReceive (fsn : BitVec 32) (e : IoEnd)
  /-- FORMAT_NVM (R293). -/
  | formatNvm (fsn : BitVec 32)
  /-- SECURITY_SEND (R343). -/
  | securitySend (fsn : BitVec 32) (op : OpalOp) (e : IoEnd)
  /-- SECURITY_RECEIVE (R342). -/
  | securityReceive (fsn : BitVec 32) (e : IoEnd)
  /-- MAINTENANCE_START_SCRUB (R302). -/
  | maintenanceStartScrub (fsn : BitVec 32)
  /-- MAINTENANCE_START_CANDIDATE (R302). -/
  | maintenanceStartCandidate (fsn : BitVec 32)
  /-- MAINTENANCE_START_SCAN (R302). -/
  | maintenanceStartScan (fsn : BitVec 32)
  /-- MAINTENANCE_ABORT (R302). -/
  | maintenanceAbort (fsn : BitVec 32)
  /-- MAINTENANCE_PASS_END (R302). -/
  | maintenancePassEnd (k : PassKind) (count : Nat)
  /-- DEPOPULATE_ACTUATOR (R303). -/
  | depopulateActuator (fsn : BitVec 32)
  /-- REINSTATE_ACTUATOR (R303). -/
  | reinstateActuator (fsn : BitVec 32)
  /-- DEPOPULATE_HEAD (R303). -/
  | depopulateHead (fsn : BitVec 32)
  /-- REINSTATE_HEAD (R303). -/
  | reinstateHead (fsn : BitVec 32) (failed : Bool)
  /-- ACKNOWLEDGE_BRAKE_FAULT (R303). -/
  | acknowledgeBrakeFault (fsn : BitVec 32)
  /-- QUEUE_RESTART_RESUME (R278). -/
  | queueRestartResume (fsn : BitVec 32)
  /-- QUEUE_RESTART_DISCARD (R278). -/
  | queueRestartDiscard (fsn : BitVec 32)
  /-- FLUSH (R275). -/
  | flush (fsn : BitVec 32)
  /-- WRITE_COMMAND (R274). -/
  | writeCommand (fsn : BitVec 32) (e : IoEnd) (handles : List (BitVec 24))
  /-- READ (R294). -/
  | read (fsn : BitVec 32) (e : IoEnd)
  /-- WRITE_UNCORRECTABLE (R294). -/
  | writeUncorrectable (fsn : BitVec 32)
  /-- COMPARE (R294). -/
  | compare (fsn : BitVec 32) (e : IoEnd)
  /-- WRITE_ZEROES (R295). -/
  | writeZeroes (fsn : BitVec 32)
  /-- DATASET_MANAGEMENT (R295). -/
  | datasetManagement (fsn : BitVec 32)
  /-- VERIFY (R294). -/
  | verify (fsn : BitVec 32) (e : IoEnd)
  /-- ZONE_CLOSE (R297). -/
  | zoneClose (fsn : BitVec 32)
  /-- ZONE_FINISH (R297). -/
  | zoneFinish (fsn : BitVec 32)
  /-- ZONE_OPEN (R297). -/
  | zoneOpen (fsn : BitVec 32)
  /-- ZONE_RESET (R297). -/
  | zoneReset (fsn : BitVec 32)
  /-- ZONE_OFFLINE (R297). -/
  | zoneOffline (fsn : BitVec 32)
  /-- REPORT_ZONES (R297). -/
  | reportZones (fsn : BitVec 32) (e : IoEnd)
  /-- ZONE_APPEND (R18). -/
  | zoneAppend (fsn : BitVec 32) (e : IoEnd) (handles : List (BitVec 24))
  /-- MI_READ_DATA_STRUCTURE (R304). -/
  | miReadDataStructure (type : BitVec 8)
  /-- MI_SUBSYSTEM_HEALTH_POLL (R304). -/
  | miSubsystemHealthPoll
  /-- MI_CONTROLLER_HEALTH_POLL (R304). -/
  | miControllerHealthPoll (p : PortId)
  /-- MI_CONFIGURATION_SET (R304). -/
  | miConfigurationSet (id : BitVec 8) (value : BitVec 16)
  /-- MI_CONFIGURATION_GET (R304). -/
  | miConfigurationGet (id : BitVec 8)
  /-- MI_VPD_READ (R304). -/
  | miVpdRead (offset : BitVec 16) (len : BitVec 16)
  /-- MI_RESET (R304). -/
  | miReset
  /-- SMBUS_BASIC_MANAGEMENT (R304). -/
  | smbusBasicManagement
  /-- IDLE_T4_EXPIRY (R307). -/
  | idleT4Expiry
  /-- IDLE_T5_EXPIRY (R307). -/
  | idleT5Expiry
  /-- IDLE_T6_EXPIRY (R307). -/
  | idleT6Expiry
  /-- IDLE_T7_EXPIRY (R307). -/
  | idleT7Expiry
  /-- MEDIA_WAKE (R306). -/
  | mediaWake
  /-- SPIN_UP_COMPLETE (R306). -/
  | spinUpComplete
  /-- CAPACITY_MEASURE (R314). -/
  | capacityMeasure (d : DragMeas)
  /-- WRITE_ADMISSION (R315). -/
  | writeAdmission
  /-- METADATA_FLUSH (R315). -/
  | metadataFlush
  /-- THERMAL_THROTTLE (R310). -/
  | thermalThrottle (celsius : BitVec 8)
  /-- LOGIC_DIE_OVERTEMP (R306). -/
  | logicDieOvertemp
  /-- RUN_BEGIN (R311). -/
  | runBegin
  /-- SLEEP_ENTRY (R384). -/
  | sleepEntry
  /-- WAKE (R384). -/
  | wake (p : PortId) (perst : Bool)
  /-- SUPPLY_LOSS (R317). -/
  | supplyLoss (v12 : BitVec 10) (v5 : BitVec 10) (us : BitVec 10)
  /-- SAVE_UNIT_WRITE (R319). -/
  | saveUnitWrite (a : Actuator)
  /-- BUS_UNDERVOLTAGE (R318). -/
  | busUndervoltage
  /-- SAVE_END (R320). -/
  | saveEnd (stop : SaveStop) (busMin : BitVec 16) (us : BitVec 32)
  /-- SUPPLY_RETURN (R321). -/
  | supplyReturn
  /-- REPLAY (R323). -/
  | replay (scan : List GroupScan)
  /-- READOPT_DIRTY (R325). -/
  | readoptDirty
  /-- SVN_RAISE (R336). -/
  | svnRaise
  /-- POWER_ON_RESET (R373). -/
  | powerOnReset
  /-- BROWN_OUT_RESET (R305). -/
  | brownOutReset (rail : Fin 7)
  /-- RESET_N_ASSERT (R376). -/
  | resetNAssert
  /-- RESET_N_RELEASE (R376). -/
  | resetNRelease
  /-- RST_SWRST_WRITE (R377). -/
  | rstSwrstWrite (req : Requester) (w : Word)
  /-- CHIPRST (R373). -/
  | chiprst
  /-- CORE_WATCHDOG_EXPIRY (R353). -/
  | coreWatchdogExpiry (k : Fin 12)
  /-- CORE_LOCKUP (R353). -/
  | coreLockup (k : Fin 12)
  /-- CLOCK_FAILURE (R370). -/
  | clockFailure (d : Fin 64) (kind : Fin 3)
  /-- CLOCK_GOOD_TIMEOUT (R369). -/
  | clockGoodTimeout (d : Fin 40)
  /-- STORM_HOLD_END (R381). -/
  | stormHoldEnd
  /-- PHASE_P0 (R379). -/
  | phaseP0
  /-- RAIL_RAMP_TIMEOUT (R379). -/
  | railRampTimeout
  /-- CRYSTAL_GOOD (R366). -/
  | crystalGood
  /-- PLL_LOCK (R366). -/
  | pllLock
  /-- FUSE_SENSE (R330). -/
  | fuseSense (testEn : Bool)
  /-- OPTION_LOAD (R328). -/
  | optionLoad
  /-- CLOCK_START (R378). -/
  | clockStart
  /-- DOMAIN_RELEASE (R369). -/
  | domainRelease (d : Fin 40)
  /-- BUFFER_INIT (R218). -/
  | bufferInit
  /-- BUNDLE_SELECT (R331). -/
  | bundleSelect
  /-- CONFIG_APPLY (R330). -/
  | configApply
  /-- SPIN_DELAY_END (R312). -/
  | spinDelayEnd
  /-- CLK_GATE_WRITE (R372). -/
  | clkGateWrite (req : Requester) (half : Fin 2) (w : Word)
  /-- BLOCK_RESET_CHN (R80). -/
  | blockResetChn (n : Stream)
  /-- BLOCK_RESET_FMT (R108). -/
  | blockResetFmt (n : Stream)
  /-- BLOCK_RESET_LAD (R135). -/
  | blockResetLad (a : Actuator)
  /-- BLOCK_RESET_SRV (R163). -/
  | blockResetSrv (a : Actuator)
  /-- BLOCK_RESET_HSQ (R383). -/
  | blockResetHsq (a : Actuator)
  /-- BLOCK_RESET_DEC (R80). -/
  | blockResetDec
  /-- BLOCK_RESET_PRG (R163). -/
  | blockResetPrg
  /-- BLOCK_RESET_QDR (R382). -/
  | blockResetQdr
  /-- BLOCK_RESET_SPN (R211). -/
  | blockResetSpn
  /-- BLOCK_RESET_VCM (R211). -/
  | blockResetVcm
  /-- BLOCK_RESET_POOL (R240). -/
  | blockResetPool
  /-- BLOCK_RESET_CCH (R240). -/
  | blockResetCch
  /-- BLOCK_RESET_SCB (R240). -/
  | blockResetScb
  /-- BLOCK_RESET_DMA (R255). -/
  | blockResetDma
  /-- BLOCK_RESET_QSQ (R383). -/
  | blockResetQsq
  /-- BLOCK_RESET_RELEASE (R382). -/
  | blockResetRelease (b : Fin 39)
  /-- KEY_LOAD_SLOT (R340). -/
  | keyLoadSlot (req : Requester) (slot : KeySlot)
  /-- KEY_CLEAR_SLOT (R340). -/
  | keyClearSlot (req : Requester) (slot : KeySlot)
  /-- KEY_CLEAR_ALL (R340). -/
  | keyClearAll (req : Requester)
  /-- NONCE_REQUEST (R346). -/
  | nonceRequest
  /-- TOKEN_SUBMIT (R346). -/
  | tokenSubmit (t : Token)
  /-- HERUG_PREPARE (R347). -/
  | herugPrepare
  /-- DBG_GRANT (R348). -/
  | dbgGrant
  /-- DBG_REFUSE (R347). -/
  | dbgRefuse
  /-- HERUG_OPEN (R348). -/
  | herugOpen
  /-- FUSE_PROGRAM (R351). -/
  | fuseProgram (toReturned : Bool)
  /-- BAR2_WRITE (R426). -/
  | bar2Write (o : BitVec 22) (len : Fin 5) (w : Word)
  /-- ALU_ADD (R355). -/
  | aluAdd (q : SeqId) (inp : Bool)
  /-- ALU_SUB (R355). -/
  | aluSub (q : SeqId) (inp : Bool)
  /-- ALU_AND (R355). -/
  | aluAnd (q : SeqId) (inp : Bool)
  /-- ALU_OR (R355). -/
  | aluOr (q : SeqId) (inp : Bool)
  /-- ALU_XOR (R355). -/
  | aluXor (q : SeqId) (inp : Bool)
  /-- ALU_SHIFT_LEFT (R355). -/
  | aluShiftLeft (q : SeqId) (inp : Bool)
  /-- ALU_SHIFT_RIGHT (R355). -/
  | aluShiftRight (q : SeqId) (inp : Bool)
  /-- ALU_MOVE (R355). -/
  | aluMove (q : SeqId) (inp : Bool)
  /-- ALU_COMPARE (R355). -/
  | aluCompare (q : SeqId) (inp : Bool)
  /-- ALU_LDR (R355). -/
  | aluLdr (q : SeqId) (inp : Bool)
  /-- ALU_STR (R355). -/
  | aluStr (q : SeqId) (inp : Bool)
  /-- ALU_REG_READ (R355). -/
  | aluRegRead (q : SeqId) (inp : Bool)
  /-- ALU_REG_WRITE (R355). -/
  | aluRegWrite (q : SeqId) (inp : Bool)
  /-- SEQ_NOP_WORD (R357). -/
  | seqNopWord (q : SeqId) (inp : Bool)
  /-- SEQ_CONDITION_MET (R357). -/
  | seqConditionMet (q : SeqId) (inp : Bool)
  /-- FOP_READ (R355). -/
  | fopRead (q : SeqId) (inp : Bool)
  /-- FOP_WRITE (R355). -/
  | fopWrite (q : SeqId) (inp : Bool)
  /-- FOP_COMPLETE (R357). -/
  | fopComplete (q : SeqId)
  /-- MBREQ (R359). -/
  | mbreq (q : SeqId) (inp : Bool)
  /-- FREE (R225). -/
  | free (q : SeqId) (inp : Bool)
  /-- EVENT (R404). -/
  | event (q : SeqId) (inp : Bool)
  /-- SEQ_CSDATA_WRITE (R362). -/
  | seqCsdataWrite (req : Requester) (q : SeqId) (k : Fin 4) (w : Word)
  /-- QSQ_DTDATA_WRITE (R362). -/
  | qsqDtdataWrite (req : Requester) (w : Word)
  /-- SEQ_RUN_WRITE (R362). -/
  | seqRunWrite (req : Requester) (q : SeqId) (run : Bool)
  /-- QSQ_CSSWAP (R364). -/
  | qsqCsswap
  /-- SWAP_BUSY_END (R364). -/
  | swapBusyEnd
  /-- PREAMP_RAIL_LIMIT (R394). -/
  | preampRailLimit (a : Actuator)
  /-- EVENT_FIRE (R405). -/
  | eventFire (src : Option (Fin 1152))
  /-- LEDGER_WRITE_DONE (R410). -/
  | ledgerWriteDone
  /-- EVT_CNTCLR (R408). -/
  | evtCntclr
  /-- EVT_FIRST_CLEAR (R409). -/
  | evtFirstClear
  /-- EVT_SWRAISE (R405). -/
  | evtSwraise (bit : BitVec 5)
  /-- REC_PROGRAM (R416). -/
  | recProgram
  /-- REC_ERASE (R416). -/
  | recErase
  /-- REC_DONE (R416). -/
  | recDone (outcome : Fin 3)
  /-- SNAPSHOT_TIMER (R418). -/
  | snapshotTimer
  /-- POH_STORE (R419). -/
  | pohStore
  /-- REGISTER_WRITE (R423). -/
  | registerWrite (req : Requester) (a : BitVec 32) (len : Fin 5) (w : Word)
  /-- SPIN_PHASE_OVERCURRENT (R193). -/
  | spinPhaseOvercurrent
  /-- LADDER_L1_LEAVE (R206). -/
  | ladderL1Leave
  /-- THERMAL_THROTTLE_END (R310). -/
  | thermalThrottleEnd (celsius : BitVec 8)
  /-- ASPM_L1_EXIT (R261). -/
  | aspmL1Exit (p : PortId)
  /-- PERST_DEASSERT (R279). -/
  | perstDeassert (p : PortId)
  /-- INTERRUPT_COALESCING_TIMEOUT (R273). -/
  | interruptCoalescingTimeout (p : PortId)
  /-- POWER_DIE_POWER_ON (R386). -/
  | powerDiePowerOn
  /-- PREAMP_TEMPERATURE_READ (R182). -/
  | preampTemperatureRead (a : Actuator) (temp : Int)
  /-- TEMPERATURE_THRESHOLD_CROSSED (R301). -/
  | temperatureThresholdCrossed (sensor : Fin 3) (kelvin : BitVec 16)
  deriving DecidableEq, Repr

end Sys2Proof
end

