-- ==== Sys2Proof/Decode.lean ====
section
/-! DEFINITION. The commands that words spell. spec/opcode_table.json gives no row any bits: a command reaches the block as
an event, a pin or a register write, and no word of bits stands for it. -/
namespace Sys2Proof

/-- The command that the word `w` of `nbits` bits spells: none, since no row of the operation table has bits. -/
def decodeTableWord (_nbits _w : Nat) : Option Instr := none

end Sys2Proof
end

