-- ==== Sys2Proof/Config.lean ====
section
/-! DEFINITION. The free values of the model: constants without a body, one for each value the spec leaves open
(notes/assumptions). Nothing in Lean can evaluate one, so a statement about a free value holds for every value. -/
namespace Sys2Proof.Config

/-- A fresh value that the spec does not state; the argument is the free counter of the state. -/
opaque freeNat : Nat → Nat

/-- The level that a channel bit stands for in the detector's target, in ADC units: R64 gives the target's taps and states no
amplitude. -/
opaque bitLevel : Bool → Int

/-- The difference of path metrics that makes one LLR unit: R64 makes the noise weight proportional to 1/σ² and states no
factor. -/
opaque llrUnit : Nat

/-- S, the largest slope that the load of a current engine allows (engines 0–3: the coils; 4 and 5: phases U and V), in 100 nA
per F-PER cycle: R186 gives it by the supply, the back-EMF and the inductance of the motors, which are no part of the HQ8. -/
opaque loadSlope : Nat → Nat

/-- The law of the back-EMF loop (R209, R210): from the error against VEL_MV in 0.1 µV, the current toward the target in
100 µA. The spec states none. -/
opaque emfLoop : Int → Int

/-- The tolerance that the configuration image gives a table of Table 7-4, if any (R182). -/
opaque tableTolerance : Nat → Option Nat

/-- Ibzin's handler list: whether a handler serves an opcode of a dispatch table (0 admin, 1 I/O) (R362). The spec does
not list the handlers. -/
opaque handlerServes : Nat → Nat → Nat → Bool

/-- The head that holds an LBA of a namespace, as the band extents of the configuration image place it (R296): arguments
NSID and LBA. -/
opaque headOf : Nat → Nat → Nat

/-- The servo target of a group position of an actuator's save region, as the configuration image places it (R91, R319). -/
opaque saveTarget : Nat → Nat → BitVec 32

/-- The count of heads of an actuator, from the configuration image (Table 12-9). -/
opaque headCount : Nat → Nat

/-- The count of sectors that an actuator has in bands of a kind (0 conventional, 1 zoned), from the configuration image
(R291). -/
opaque bandSectors : Nat → Nat → Nat

/-- Bytes of strings and structures whose content the spec does not state, or takes from the configuration image: arguments a
kind and an index (R289, R301, R304, Tables 12-6, 12-10, 12-11). -/
opaque imageByte : Nat → Nat → BitVec 8

/-- KSAVE (R338, Table 14-7), which the ladder derives from DUS and the lifecycle: no port reads it. -/
opaque saveKey : Nat → BitVec 512

end Sys2Proof.Config
end

