-- ==== Sys2Proof/Machine/PartsEvent.lean ====
section
/-! DEFINITION. State of events, the ledger and the event recorder that stands in no register
(spec/18_events_errors_recorder.md). -/
namespace Sys2Proof.Machine

/-- A recorder operation in progress (R416): program of a slot with the 256 bytes it will hold, or erase of a sector;
`result` is what REC_STAT.RESULT will show. -/
structure RecOp where
  program : Bool
  slot    : Nat
  bytes   : List Byte
  result  : Nat
  deriving DecidableEq, Repr

/-- Values that SNAPSHOT deltas count from (Table 18-6): DEC_ITERH, LAD_CNT_STEP, SRV_CNT.OVR, loss, catch failures,
line checks; and the extremes of the interval. -/
structure SnapBase where
  iters  : List Nat
  steps  : List Nat
  others : List Nat
  deriving DecidableEq, Repr

/-- Events and recorder. -/
structure EvtState where
  /-- Operating seconds of the drive's life, and power-on and brown-out count (R419), with the values in flash. -/
  poh       : Nat
  pcyc      : Nat
  pohFlash  : Nat
  pcycFlash : Nat
  /-- Ledger entries whose write has not completed: entry bytes, oldest first (R410). -/
  ledger    : List (List Byte)
  /-- OVR and EARLY as last recorded (R411), and entries found with VALID 0 not yet recorded (R412). -/
  ovrSeen   : Nat
  earlySeen : Nat
  found0    : Nat
  /-- Recorder slots that are not erased, by rising slot number, 256 bytes each (R414). -/
  slots     : List (Nat × List Byte)
  op        : Option RecOp
  /-- SEQ of the next record (R415). -/
  seq       : Nat
  /-- Next slots of the first and last areas (R418, R419). -/
  nextFirst : Nat
  nextLast  : Nat
  /-- Boots and SNAPSHOT records of the drive's life, and reports of each source, up to four (R418). -/
  boots     : Nat
  snaps     : Nat
  firsts    : List (Nat × Nat)
  base      : SnapBase
  /-- Fatal interrupts of CC0 and PC (R406). -/
  fatalIrq  : Bool
  deriving DecidableEq, Repr

/-- Events and recorder of a drive that has never booted. -/
def EvtState.initial : EvtState where
  poh := 0
  pcyc := 0
  pohFlash := 0
  pcycFlash := 0
  ledger := []
  ovrSeen := 0
  earlySeen := 0
  found0 := 0
  slots := []
  op := none
  seq := 1
  nextFirst := 16
  nextLast := 65536
  boots := 0
  snaps := 0
  firsts := []
  base := ⟨[], [], []⟩
  fatalIrq := false

end Sys2Proof.Machine
end

