-- ==== Sys2Proof/Machine/RegTable.lean ====
section
/-! DEFINITION. The register table of spec/19_register_space.md and of the register sections of the
chapters: one row per register heading, with its fields, access types (Table 19-2), reset-class letters
(Table 0-6) and reset values. -/
namespace Sys2Proof.Machine

/-- Access type of a register field (Table 19-2, R423). -/
inductive Access where
  | ro | rw | wo | w1c | rws | rwl
  deriving DecidableEq, Repr

/-- Reset-class letter of a field (Table 0-6, R9). -/
inductive RstClass where
  | A | B | C | S | F
  deriving DecidableEq, Repr

/-- One field of a register: lowest bit, width, access, class, and its reset value (one value for every
index, or one per index). -/
structure FieldRow where
  lo  : Nat
  w   : Nat
  acc : Access
  cls : RstClass
  rst : List Nat
  deriving DecidableEq, Repr

/-- One register heading: the address of index (0, 0), an outer and an inner count with their strides,
and the fields (reserved bits have none: they read 0 and ignore writes). -/
structure RegRow where
  base : Nat
  n1   : Nat
  s1   : Nat
  n2   : Nat
  s2   : Nat
  fields : List FieldRow
  deriving DecidableEq, Repr

/-- A block: its first address, the address past its last register, and its rows. -/
structure BlockRows where
  lo   : Nat
  hi   : Nat
  rows : List RegRow
  deriving DecidableEq, Repr

/-- Classes of the event sources, two bits each (Table 18-1): word 2g holds bits 0–15 of group g and
word 2g + 1 bits 16–31. -/
def evtClassWords : List Nat :=
  [ 0x105, 0x0, 0x15410055, 0x0, 0x1021, 0x0, 0x55555555, 0x100,
    0x1050550, 0x0, 0x0, 0x0, 0x0, 0x0, 0x0, 0x0,
    0x0, 0x0, 0x0, 0x0, 0x0, 0x0, 0x0, 0x0,
    0x0, 0x0, 0x0, 0x0, 0x555, 0x0, 0x555, 0x0,
    0x555, 0x0, 0x555, 0x0, 0x555, 0x0, 0x555, 0x0,
    0x555, 0x0, 0x555, 0x0, 0x401, 0x0, 0x401, 0x0,
    0x401, 0x0, 0x401, 0x0, 0x10100005, 0x1555, 0x10100005, 0x1555,
    0x10100005, 0x1555, 0x10100005, 0x1555, 0x55155, 0x0, 0x504, 0x0,
    0x155155, 0x0, 0x150, 0x0, 0xAAAAAAAA, 0xAA, 0x0, 0x54A00 ]

/-- The registers of CAL (spec/02_caller_and_fabric.md). -/
def rowsCAL : List RegRow :=
  [ -- CAL_CTRL
    ⟨0x40040000, 1, 0x10000000, 1, 4,
      [⟨0, 1, .rw, .S, [0]⟩, ⟨1, 1, .wo, .S, [0]⟩, ⟨2, 1, .wo, .S, [0]⟩]⟩,
    -- CAL_STATUS
    ⟨0x40040004, 1, 0x10000000, 1, 4,
      [⟨0, 1, .ro, .S, [0]⟩, ⟨1, 1, .ro, .S, [0]⟩, ⟨2, 1, .ro, .S, [0]⟩, ⟨3, 1, .ro, .S, [0]⟩]⟩,
    -- CAL_FIGNO
    ⟨0x40040008, 1, 0x10000000, 1, 4,
      [⟨0, 32, .ro, .S, [0]⟩]⟩,
    -- CAL_CFG
    ⟨0x4004000C, 1, 0x10000000, 1, 4,
      [⟨0, 12, .rwl, .C, [0xAF0]⟩]⟩,
    -- CAL_CAP
    ⟨0x40040010, 1, 0x10000000, 1, 4,
      [⟨0, 9, .rw, .S, [0x100]⟩]⟩,
    -- CAL_ERR
    ⟨0x40040014, 1, 0x10000000, 1, 4,
      [⟨0, 1, .w1c, .S, [0]⟩, ⟨1, 1, .w1c, .S, [0]⟩, ⟨2, 1, .w1c, .S, [0]⟩, ⟨3, 1, .w1c, .S, [0]⟩]⟩,
    -- CAL_BACK
    ⟨0x40040100, 1, 0x10000000, 16, 4,
      [⟨0, 12, .rw, .S, [0xC0, 0xC0, 0x34, 0x34, 0x34, 0x34, 0x34, 0x34, 0x34, 0x34, 0, 0x60, 0x20, 0x10, 0, 0]⟩, ⟨16, 12, .rw, .S, [0x280, 0x280, 0xA0, 0xA0, 0xA0, 0xA0, 0xA0, 0xA0, 0xA0, 0xA0, 0x100, 0x200, 0x100, 0x100, 0, 0x80]⟩]⟩,
    -- CAL_FRONT
    ⟨0x40040180, 1, 0x10000000, 16, 4,
      [⟨0, 12, .ro, .S, [0xC0, 0xC0, 0x34, 0x34, 0x34, 0x34, 0x34, 0x34, 0x34, 0x34, 0, 0x60, 0x20, 0x10, 0, 0]⟩, ⟨16, 12, .ro, .S, [0x280, 0x280, 0xA0, 0xA0, 0xA0, 0xA0, 0xA0, 0xA0, 0xA0, 0xA0, 0x100, 0x200, 0x100, 0x100, 0, 0x80]⟩]⟩,
    -- CAL_USE
    ⟨0x40040200, 1, 0x10000000, 16, 4,
      [⟨0, 12, .ro, .S, [0]⟩, ⟨12, 3, .ro, .S, [0]⟩, ⟨16, 16, .ro, .S, [0]⟩]⟩
    ]

/-- The registers of FAB (spec/02_caller_and_fabric.md). -/
def rowsFAB : List RegRow :=
  [ -- FAB_CTRL
    ⟨0x40050000, 1, 0x10000000, 1, 4,
      [⟨0, 8, .rwl, .C, [8]⟩, ⟨8, 1, .rw, .C, [0]⟩]⟩,
    -- FAB_STATUS
    ⟨0x40050004, 1, 0x10000000, 1, 4,
      [⟨0, 6, .ro, .C, [0]⟩, ⟨8, 5, .ro, .C, [0]⟩, ⟨16, 16, .ro, .C, [0]⟩]⟩,
    -- FAB_WDG_LAST
    ⟨0x40050008, 1, 0x10000000, 1, 4,
      [⟨0, 1, .rws, .A, [0]⟩, ⟨8, 5, .rws, .A, [0]⟩, ⟨16, 4, .rws, .A, [0]⟩, ⟨24, 8, .rws, .A, [0]⟩]⟩,
    -- FAB_PEND
    ⟨0x40050010, 1, 0x10000000, 4, 4,
      [⟨0, 5, .ro, .C, [0]⟩, ⟨8, 5, .ro, .C, [0]⟩, ⟨16, 5, .ro, .C, [0]⟩, ⟨24, 5, .ro, .C, [0]⟩]⟩
    ]

/-- The registers of CHN (spec/03_read_channel.md). -/
def rowsCHN : List RegRow :=
  [ -- CHN_CTRL
    ⟨0x40100000, 8, 0x10000, 1, 4,
      [⟨0, 1, .rw, .S, [0]⟩, ⟨1, 2, .rw, .S, [0]⟩, ⟨3, 2, .rw, .S, [0]⟩, ⟨5, 1, .rw, .S, [0]⟩,
       ⟨6, 4, .rw, .S, [0xA]⟩, ⟨10, 2, .rw, .S, [2]⟩, ⟨12, 4, .rw, .S, [8]⟩]⟩,
    -- CHN_RATE
    ⟨0x40100004, 8, 0x10000, 1, 4,
      [⟨0, 17, .rw, .S, [0x10000]⟩]⟩,
    -- CHN_TLOOP
    ⟨0x40100008, 8, 0x10000, 1, 4,
      [⟨0, 4, .rw, .S, [3]⟩, ⟨4, 4, .rw, .S, [8]⟩, ⟨8, 4, .rw, .S, [5]⟩, ⟨12, 4, .rw, .S, [0xB]⟩,
       ⟨16, 6, .rw, .S, [0x30]⟩, ⟨22, 1, .rw, .S, [1]⟩]⟩,
    -- CHN_TSTAT
    ⟨0x4010000C, 8, 0x10000, 1, 4,
      [⟨0, 6, .ro, .S, [0]⟩, ⟨6, 1, .ro, .S, [0]⟩, ⟨16, 16, .ro, .S, [0]⟩]⟩,
    -- CHN_SKEW
    ⟨0x40100010, 8, 0x10000, 1, 4,
      [⟨0, 5, .rw, .S, [0]⟩, ⟨8, 5, .rw, .S, [0]⟩]⟩,
    -- CHN_TARGET
    ⟨0x40100014, 8, 0x10000, 1, 4,
      [⟨0, 8, .rw, .S, [0x40]⟩, ⟨8, 8, .rw, .S, [0x28]⟩, ⟨16, 8, .rw, .S, [8]⟩]⟩,
    -- CHN_CADDR
    ⟨0x40100020, 8, 0x10000, 1, 4,
      [⟨0, 12, .rw, .S, [0]⟩, ⟨16, 1, .rw, .S, [0]⟩]⟩,
    -- CHN_CDATA
    ⟨0x40100024, 8, 0x10000, 1, 4,
      [⟨0, 10, .rw, .S, [0]⟩]⟩,
    -- CHN_SMEM
    ⟨0x40100030, 8, 0x10000, 1, 4,
      [⟨0, 7, .ro, .S, [0]⟩, ⟨8, 4, .ro, .S, [0]⟩, ⟨16, 7, .ro, .S, [0]⟩, ⟨23, 1, .w1c, .S, [0]⟩]⟩,
    -- CHN_CNT_SECT
    ⟨0x40100034, 8, 0x10000, 1, 4,
      [⟨0, 32, .ro, .S, [0]⟩]⟩,
    -- CHN_CNT_TA
    ⟨0x40100038, 8, 0x10000, 1, 4,
      [⟨0, 16, .ro, .S, [0]⟩, ⟨16, 16, .ro, .S, [0]⟩]⟩,
    -- CHN_CNTCLR
    ⟨0x4010003C, 8, 0x10000, 1, 4,
      [⟨0, 1, .wo, .S, [0]⟩]⟩
    ]

/-- The registers of AFE (spec/03_read_channel.md). -/
def rowsAFE : List RegRow :=
  [ -- AFE_EN
    ⟨0x40180000, 1, 0x10000000, 1, 4,
      [⟨0, 16, .rw, .S, [0]⟩]⟩,
    -- AFE_LANE_CFG
    ⟨0x40180100, 1, 0x10000000, 16, 4,
      [⟨0, 4, .rw, .S, [6]⟩, ⟨4, 2, .rw, .S, [1]⟩, ⟨6, 2, .rw, .S, [1]⟩, ⟨8, 7, .rw, .S, [0x40]⟩,
       ⟨15, 1, .rw, .S, [1]⟩, ⟨16, 7, .rw, .S, [0x28]⟩, ⟨23, 4, .rw, .S, [8]⟩]⟩,
    -- AFE_LANE_STAT
    ⟨0x40180180, 1, 0x10000000, 16, 4,
      [⟨0, 7, .ro, .S, [0]⟩, ⟨7, 1, .ro, .S, [0]⟩, ⟨8, 1, .ro, .S, [0]⟩, ⟨16, 16, .ro, .S, [0]⟩]⟩
    ]

/-- The registers of DEC (spec/03_read_channel.md). -/
def rowsDEC : List RegRow :=
  [ -- DEC_CFG
    ⟨0x40190000, 1, 0x10000000, 1, 4,
      [⟨0, 3, .rw, .S, [2]⟩]⟩,
    -- DEC_SCHED
    ⟨0x40190004, 1, 0x10000000, 1, 4,
      [⟨0, 4, .ro, .C, [3]⟩, ⟨4, 6, .ro, .C, [8]⟩, ⟨10, 4, .ro, .C, [6]⟩, ⟨14, 6, .ro, .C, [0x10]⟩,
       ⟨20, 4, .ro, .C, [0xC]⟩, ⟨24, 6, .ro, .C, [0x20]⟩]⟩,
    -- DEC_BUSY
    ⟨0x40190008, 1, 0x10000000, 1, 4,
      [⟨0, 12, .ro, .S, [0]⟩, ⟨12, 3, .ro, .S, [0]⟩, ⟨16, 10, .ro, .S, [0]⟩, ⟨26, 6, .ro, .S, [0]⟩]⟩,
    -- DEC_CNT_OTF
    ⟨0x40190010, 1, 0x10000000, 1, 4,
      [⟨0, 32, .ro, .S, [0]⟩]⟩,
    -- DEC_CNT_NOCONV
    ⟨0x40190014, 1, 0x10000000, 1, 4,
      [⟨0, 32, .ro, .S, [0]⟩]⟩,
    -- DEC_CNT_CRC
    ⟨0x40190018, 1, 0x10000000, 1, 4,
      [⟨0, 32, .ro, .S, [0]⟩]⟩,
    -- DEC_CNT_TAG
    ⟨0x4019001C, 1, 0x10000000, 1, 4,
      [⟨0, 32, .ro, .S, [0]⟩]⟩,
    -- DEC_CNTCLR
    ⟨0x40190020, 1, 0x10000000, 1, 4,
      [⟨0, 1, .wo, .S, [0]⟩]⟩,
    -- DEC_ITERH
    ⟨0x40190040, 1, 0x10000000, 24, 4,
      [⟨0, 32, .ro, .S, [0]⟩]⟩,
    -- DEC_ENG
    ⟨0x40190100, 1, 0x10000000, 12, 4,
      [⟨0, 2, .ro, .S, [0]⟩, ⟨2, 2, .ro, .S, [0]⟩, ⟨4, 3, .ro, .S, [0]⟩, ⟨8, 4, .ro, .S, [0]⟩,
       ⟨16, 6, .ro, .S, [0]⟩]⟩
    ]

/-- The registers of FMT (spec/04_write_path_and_format.md, spec/15_engines_and_control_stores.md). -/
def rowsFMT : List RegRow :=
  [ -- FMT_CTRL
    ⟨0x40200000, 8, 0x10000, 1, 4,
      [⟨0, 1, .rw, .S, [0]⟩]⟩,
    -- FMT_STAT
    ⟨0x40200004, 8, 0x10000, 1, 4,
      [⟨0, 2, .ro, .S, [0]⟩, ⟨2, 1, .ro, .S, [0]⟩, ⟨3, 1, .ro, .S, [0]⟩, ⟨4, 1, .ro, .S, [0]⟩]⟩,
    -- FMT_GEOM
    ⟨0x40200008, 8, 0x10000, 1, 4,
      [⟨0, 18, .rw, .S, [0]⟩, ⟨18, 11, .rw, .S, [0]⟩]⟩,
    -- FMT_SKEW
    ⟨0x4020000C, 8, 0x10000, 1, 4,
      [⟨0, 16, .rw, .S, [0]⟩, ⟨16, 8, .rw, .S, [0]⟩, ⟨24, 8, .rw, .S, [0]⟩]⟩,
    -- FMT_PRECOMP
    ⟨0x40200010, 8, 0x10000, 1, 4,
      [⟨0, 4, .rw, .S, [0]⟩, ⟨4, 4, .rw, .S, [0]⟩, ⟨8, 5, .rw, .S, [0]⟩]⟩,
    -- FMT_RING_BASE
    ⟨0x40200020, 8, 0x10000, 1, 4,
      [⟨0, 28, .rw, .S, [0]⟩]⟩,
    -- FMT_RING_CFG
    ⟨0x40200024, 8, 0x10000, 1, 4,
      [⟨0, 4, .rw, .S, [4]⟩]⟩,
    -- FMT_RING_TAIL
    ⟨0x40200028, 8, 0x10000, 1, 4,
      [⟨0, 12, .rw, .S, [0]⟩]⟩,
    -- FMT_RING_HEAD
    ⟨0x4020002C, 8, 0x10000, 1, 4,
      [⟨0, 12, .ro, .S, [0]⟩]⟩,
    -- FMT_DMAP_BASE
    ⟨0x40200030, 8, 0x10000, 1, 4,
      [⟨0, 30, .rw, .S, [0]⟩]⟩,
    -- FMT_DMAP_COUNT
    ⟨0x40200034, 8, 0x10000, 1, 4,
      [⟨0, 21, .rw, .S, [0]⟩]⟩,
    -- FMT_CUR
    ⟨0x40200038, 8, 0x10000, 1, 4,
      [⟨0, 20, .ro, .S, [0]⟩, ⟨20, 5, .ro, .S, [0]⟩, ⟨25, 7, .ro, .S, [0]⟩]⟩,
    -- FMT_CNT_WR
    ⟨0x40200040, 8, 0x10000, 1, 4,
      [⟨0, 32, .ro, .S, [0]⟩]⟩,
    -- FMT_CNT_ABORT
    ⟨0x40200044, 8, 0x10000, 1, 4,
      [⟨0, 16, .ro, .S, [0]⟩, ⟨16, 16, .ro, .S, [0]⟩]⟩,
    -- FMT_CNT_MISS
    ⟨0x40200048, 8, 0x10000, 1, 4,
      [⟨0, 16, .ro, .S, [0]⟩, ⟨16, 16, .ro, .S, [0]⟩]⟩,
    -- FMT_CNTCLR
    ⟨0x4020004C, 8, 0x10000, 1, 4,
      [⟨0, 1, .wo, .S, [0]⟩]⟩,
    -- FMT_ERR
    ⟨0x40200050, 8, 0x10000, 1, 4,
      [⟨0, 1, .w1c, .S, [0]⟩, ⟨1, 1, .w1c, .S, [0]⟩, ⟨2, 1, .w1c, .S, [0]⟩, ⟨3, 1, .w1c, .S, [0]⟩,
       ⟨4, 1, .w1c, .S, [0]⟩, ⟨5, 1, .w1c, .S, [0]⟩]⟩,
    -- FMT_SEQ_CTRL
    ⟨0x4020F000, 8, 0x10000, 1, 4,
      [⟨0, 1, .rw, .C, [0]⟩]⟩,
    -- FMT_SEQ_STAT
    ⟨0x4020F004, 8, 0x10000, 1, 4,
      [⟨0, 12, .ro, .B, [0]⟩, ⟨12, 2, .ro, .B, [0]⟩, ⟨14, 1, .ro, .C, [0]⟩, ⟨15, 1, .ro, .B, [0]⟩,
       ⟨16, 1, .ro, .B, [0]⟩]⟩,
    -- FMT_SEQ_HALT
    ⟨0x4020F008, 8, 0x10000, 1, 4,
      [⟨0, 1, .ro, .C, [0]⟩, ⟨1, 4, .ro, .C, [0]⟩, ⟨16, 12, .ro, .C, [0]⟩]⟩,
    -- FMT_SEQ_CNT
    ⟨0x4020F00C, 8, 0x10000, 1, 4,
      [⟨0, 16, .ro, .C, [0]⟩]⟩,
    -- FMT_SEQ_CSADDR
    ⟨0x4020F010, 8, 0x10000, 1, 4,
      [⟨0, 12, .rw, .C, [0]⟩, ⟨12, 1, .rw, .C, [0]⟩, ⟨13, 1, .rw, .C, [0]⟩]⟩,
    -- FMT_SEQ_CSDATA
    ⟨0x4020F014, 8, 0x10000, 4, 4,
      [⟨0, 32, .rw, .C, [0]⟩]⟩
    ]

/-- The registers of LAD (spec/05_recovery_ladder.md, spec/15_engines_and_control_stores.md). -/
def rowsLAD : List RegRow :=
  [ -- LAD_CTRL
    ⟨0x40280000, 4, 0x10000, 1, 4,
      [⟨0, 1, .rw, .S, [0]⟩]⟩,
    -- LAD_SYNC
    ⟨0x40280004, 4, 0x10000, 1, 4,
      [⟨0, 4, .rw, .S, [4]⟩]⟩,
    -- LAD_PARAM
    ⟨0x40280008, 4, 0x10000, 1, 4,
      [⟨0, 10, .rw, .S, [0x80]⟩, ⟨10, 10, .rw, .S, [0x100]⟩, ⟨20, 4, .rw, .S, [2]⟩, ⟨24, 4, .rw, .S, [0xE]⟩,
       ⟨28, 4, .rw, .S, [7]⟩]⟩,
    -- LAD_STAT
    ⟨0x4028000C, 4, 0x10000, 1, 4,
      [⟨0, 2, .ro, .S, [0]⟩, ⟨2, 5, .ro, .S, [0]⟩, ⟨7, 1, .ro, .S, [0]⟩, ⟨8, 5, .ro, .S, [0]⟩]⟩,
    -- LAD_SYNCSTAT
    ⟨0x40280010, 4, 0x10000, 2, 4,
      [⟨0, 1, .ro, .S, [0]⟩, ⟨1, 1, .ro, .S, [0]⟩, ⟨2, 6, .ro, .S, [0]⟩, ⟨8, 8, .ro, .S, [0]⟩,
       ⟨16, 8, .ro, .S, [0]⟩]⟩,
    -- LAD_START
    ⟨0x40280020, 4, 0x10000, 1, 4,
      [⟨0, 12, .wo, .S, [0]⟩, ⟨12, 1, .wo, .S, [0]⟩, ⟨13, 1, .wo, .S, [0]⟩, ⟨14, 1, .wo, .S, [0]⟩,
       ⟨16, 4, .wo, .S, [0]⟩]⟩,
    -- LAD_RAISE
    ⟨0x40280024, 4, 0x10000, 1, 4,
      [⟨0, 12, .wo, .S, [0]⟩, ⟨12, 1, .wo, .S, [0]⟩, ⟨16, 4, .wo, .S, [0]⟩]⟩,
    -- LAD_RING_BASE
    ⟨0x40280028, 4, 0x10000, 1, 4,
      [⟨0, 29, .rw, .S, [0]⟩]⟩,
    -- LAD_RING_CFG
    ⟨0x4028002C, 4, 0x10000, 1, 4,
      [⟨0, 4, .rw, .S, [6]⟩]⟩,
    -- LAD_RING_HEAD
    ⟨0x40280030, 4, 0x10000, 1, 4,
      [⟨0, 8, .ro, .S, [0]⟩]⟩,
    -- LAD_RING_TAIL
    ⟨0x40280034, 4, 0x10000, 1, 4,
      [⟨0, 8, .rw, .S, [0]⟩]⟩,
    -- LAD_CNT_STEP
    ⟨0x40280040, 4, 0x10000, 16, 4,
      [⟨0, 32, .ro, .S, [0]⟩]⟩,
    -- LAD_CNT_END
    ⟨0x40280080, 4, 0x10000, 1, 4,
      [⟨0, 16, .ro, .S, [0]⟩, ⟨16, 16, .ro, .S, [0]⟩]⟩,
    -- LAD_CNT_SYNC
    ⟨0x40280084, 4, 0x10000, 1, 4,
      [⟨0, 16, .ro, .S, [0]⟩, ⟨16, 16, .ro, .S, [0]⟩]⟩,
    -- LAD_CNTCLR
    ⟨0x40280088, 4, 0x10000, 1, 4,
      [⟨0, 1, .wo, .S, [0]⟩]⟩,
    -- LAD_ERR
    ⟨0x4028008C, 4, 0x10000, 1, 4,
      [⟨0, 1, .w1c, .S, [0]⟩, ⟨1, 1, .w1c, .S, [0]⟩, ⟨2, 1, .w1c, .S, [0]⟩, ⟨3, 1, .w1c, .S, [0]⟩,
       ⟨4, 1, .w1c, .S, [0]⟩]⟩,
    -- LAD_SEQ_CTRL
    ⟨0x4028F000, 4, 0x10000, 1, 4,
      [⟨0, 1, .rw, .C, [0]⟩]⟩,
    -- LAD_SEQ_STAT
    ⟨0x4028F004, 4, 0x10000, 1, 4,
      [⟨0, 12, .ro, .B, [0]⟩, ⟨12, 2, .ro, .B, [0]⟩, ⟨14, 1, .ro, .C, [0]⟩, ⟨15, 1, .ro, .B, [0]⟩,
       ⟨16, 1, .ro, .B, [0]⟩]⟩,
    -- LAD_SEQ_HALT
    ⟨0x4028F008, 4, 0x10000, 1, 4,
      [⟨0, 1, .ro, .C, [0]⟩, ⟨1, 4, .ro, .C, [0]⟩, ⟨16, 12, .ro, .C, [0]⟩]⟩,
    -- LAD_SEQ_CNT
    ⟨0x4028F00C, 4, 0x10000, 1, 4,
      [⟨0, 16, .ro, .C, [0]⟩]⟩,
    -- LAD_SEQ_CSADDR
    ⟨0x4028F010, 4, 0x10000, 1, 4,
      [⟨0, 12, .rw, .C, [0]⟩, ⟨12, 1, .rw, .C, [0]⟩, ⟨13, 1, .rw, .C, [0]⟩]⟩,
    -- LAD_SEQ_CSDATA
    ⟨0x4028F014, 4, 0x10000, 4, 4,
      [⟨0, 32, .rw, .C, [0]⟩]⟩
    ]

/-- The registers of SRV (spec/06_servo.md). -/
def rowsSRV : List RegRow :=
  [ -- SRV_CTRL
    ⟨0x40300000, 4, 0x10000, 1, 4,
      [⟨0, 1, .rw, .S, [0]⟩, ⟨1, 1, .rw, .S, [0]⟩, ⟨2, 1, .rw, .S, [0]⟩]⟩,
    -- SRV_CFG
    ⟨0x40300004, 4, 0x10000, 1, 4,
      [⟨0, 1, .rw, .S, [0]⟩, ⟨1, 2, .rw, .S, [0]⟩, ⟨3, 2, .rw, .S, [1]⟩, ⟨16, 11, .rwl, .S, [0x280]⟩]⟩,
    -- SRV_TIMING
    ⟨0x40300008, 4, 0x10000, 1, 4,
      [⟨0, 6, .rw, .S, [0x14]⟩, ⟨8, 8, .rw, .S, [0xC4]⟩]⟩,
    -- SRV_TEST
    ⟨0x4030000C, 4, 0x10000, 1, 4,
      [⟨0, 24, .ro, .S, [0]⟩]⟩,
    -- SRV_LIMIT
    ⟨0x40300010, 4, 0x10000, 1, 4,
      [⟨0, 12, .rw, .S, [0x19A]⟩, ⟨12, 12, .rw, .S, [0xCD]⟩, ⟨24, 4, .rw, .S, [8]⟩]⟩,
    -- SRV_SETTLE
    ⟨0x40300014, 4, 0x10000, 1, 4,
      [⟨0, 12, .rw, .S, [0xCD]⟩, ⟨12, 4, .rw, .S, [6]⟩, ⟨16, 12, .rw, .S, [0x266]⟩]⟩,
    -- SRV_TARGET
    ⟨0x40300020, 4, 0x10000, 2, 4,
      [⟨0, 32, .rw, .S, [0]⟩]⟩,
    -- SRV_ROFS
    ⟨0x40300028, 4, 0x10000, 2, 4,
      [⟨0, 16, .rw, .S, [0]⟩, ⟨16, 16, .rw, .S, [0]⟩]⟩,
    -- SRV_PES
    ⟨0x40300030, 4, 0x10000, 2, 4,
      [⟨0, 16, .ro, .S, [0]⟩, ⟨16, 8, .ro, .S, [0]⟩, ⟨24, 1, .ro, .S, [0]⟩, ⟨25, 2, .ro, .S, [0]⟩]⟩,
    -- SRV_POS
    ⟨0x40300038, 4, 0x10000, 2, 4,
      [⟨0, 32, .ro, .S, [0]⟩]⟩,
    -- SRV_OUT_VCM
    ⟨0x40300040, 4, 0x10000, 1, 4,
      [⟨0, 16, .rw, .S, [0]⟩]⟩,
    -- SRV_OUT_MA
    ⟨0x40300044, 4, 0x10000, 2, 4,
      [⟨0, 16, .rw, .S, [0]⟩]⟩,
    -- SRV_POST
    ⟨0x4030004C, 4, 0x10000, 1, 4,
      [⟨0, 8, .wo, .S, [0]⟩, ⟨8, 1, .wo, .S, [0]⟩]⟩,
    -- SRV_MALIM
    ⟨0x40300050, 4, 0x10000, 1, 4,
      [⟨0, 15, .rw, .S, [0x7FFF]⟩, ⟨16, 15, .rw, .S, [0x7FFF]⟩]⟩,
    -- SRV_RRO_LOAD
    ⟨0x40300058, 4, 0x10000, 2, 4,
      [⟨0, 30, .wo, .S, [0]⟩]⟩,
    -- SRV_STAT
    ⟨0x40300060, 4, 0x10000, 1, 4,
      [⟨0, 1, .ro, .S, [0]⟩, ⟨1, 2, .ro, .S, [0]⟩, ⟨3, 2, .ro, .S, [0]⟩, ⟨5, 2, .ro, .S, [0]⟩,
       ⟨7, 2, .ro, .S, [0]⟩, ⟨9, 2, .ro, .S, [0]⟩, ⟨11, 2, .ro, .S, [0]⟩, ⟨16, 10, .ro, .S, [0]⟩]⟩,
    -- SRV_FAULT
    ⟨0x40300064, 4, 0x10000, 1, 4,
      [⟨0, 1, .w1c, .C, [0]⟩, ⟨1, 1, .w1c, .C, [0]⟩, ⟨2, 1, .w1c, .C, [0]⟩, ⟨3, 1, .w1c, .C, [0]⟩]⟩,
    -- SRV_ERR
    ⟨0x40300068, 4, 0x10000, 1, 4,
      [⟨0, 1, .w1c, .S, [0]⟩, ⟨1, 1, .w1c, .S, [0]⟩, ⟨2, 1, .w1c, .S, [0]⟩, ⟨3, 1, .w1c, .S, [0]⟩,
       ⟨4, 1, .w1c, .S, [0]⟩]⟩,
    -- SRV_CNT
    ⟨0x4030006C, 4, 0x10000, 1, 4,
      [⟨0, 16, .ro, .S, [0]⟩, ⟨16, 16, .ro, .S, [0]⟩]⟩
    ]

/-- The registers of PRG (spec/06_servo.md). -/
def rowsPRG : List RegRow :=
  [ -- PRG_CMD
    ⟨0x40340000, 4, 0x40, 1, 4,
      [⟨0, 1, .wo, .S, [0]⟩, ⟨1, 1, .wo, .S, [0]⟩]⟩,
    -- PRG_TGT
    ⟨0x40340004, 4, 0x40, 1, 4,
      [⟨0, 32, .rw, .S, [0]⟩]⟩,
    -- PRG_VMAX
    ⟨0x40340008, 4, 0x40, 1, 4,
      [⟨0, 32, .rwl, .S, [0x5DC00000]⟩]⟩,
    -- PRG_AMAX
    ⟨0x4034000C, 4, 0x40, 1, 4,
      [⟨0, 32, .rwl, .S, [0x4000000]⟩]⟩,
    -- PRG_JMAX
    ⟨0x40340010, 4, 0x40, 1, 4,
      [⟨0, 32, .rwl, .S, [0x66666666]⟩]⟩,
    -- PRG_MAXTRK
    ⟨0x40340014, 4, 0x40, 1, 4,
      [⟨0, 20, .rwl, .S, [0xFFFFF]⟩]⟩,
    -- PRG_STAT
    ⟨0x40340018, 4, 0x40, 1, 4,
      [⟨0, 3, .ro, .S, [0]⟩, ⟨3, 1, .ro, .S, [0]⟩, ⟨4, 2, .ro, .S, [0]⟩, ⟨16, 12, .ro, .S, [0]⟩]⟩,
    -- PRG_REFP
    ⟨0x4034001C, 4, 0x40, 1, 4,
      [⟨0, 32, .ro, .S, [0]⟩]⟩,
    -- PRG_REFV
    ⟨0x40340020, 4, 0x40, 1, 4,
      [⟨0, 32, .ro, .S, [0]⟩]⟩,
    -- PRG_REFA
    ⟨0x40340024, 4, 0x40, 1, 4,
      [⟨0, 32, .ro, .S, [0]⟩]⟩
    ]

/-- The registers of QDR (spec/07_quadrille_and_actuators.md). -/
def rowsQDR : List RegRow :=
  [ -- QDR_CTRL
    ⟨0x40350000, 1, 0x10000000, 1, 4,
      [⟨0, 1, .rw, .S, [0]⟩, ⟨1, 1, .rw, .S, [0]⟩, ⟨16, 15, .rw, .S, [0x1388]⟩]⟩,
    -- QDR_STAT
    ⟨0x40350004, 1, 0x10000000, 1, 4,
      [⟨0, 4, .ro, .S, [0xF]⟩]⟩,
    -- QDR_COEF
    ⟨0x40350008, 1, 0x10000000, 1, 4,
      [⟨0, 16, .rw, .S, [0]⟩, ⟨16, 8, .rw, .S, [0]⟩]⟩,
    -- QDR_TORQ
    ⟨0x4035000C, 1, 0x10000000, 1, 4,
      [⟨0, 14, .rw, .S, [0x1450]⟩, ⟨16, 14, .ro, .S, [0]⟩]⟩,
    -- QDR_ADMIT
    ⟨0x40350010, 1, 0x10000000, 1, 4,
      [⟨0, 4, .ro, .S, [0]⟩, ⟨4, 2, .ro, .S, [0]⟩]⟩,
    -- QDR_KACC
    ⟨0x40350020, 1, 0x10000000, 4, 4,
      [⟨0, 16, .rwl, .S, [0x258]⟩, ⟨16, 16, .ro, .S, [0]⟩]⟩,
    -- QDR_OUT
    ⟨0x40350030, 1, 0x10000000, 4, 4,
      [⟨0, 16, .ro, .S, [0]⟩, ⟨16, 1, .ro, .S, [0]⟩]⟩,
    -- QDR_PHASE
    ⟨0x40350040, 1, 0x10000000, 4, 4,
      [⟨0, 17, .ro, .S, [0]⟩, ⟨31, 1, .ro, .S, [0]⟩]⟩,
    -- QDR_ACT
    ⟨0x40350050, 1, 0x10000000, 4, 4,
      [⟨0, 1, .ro, .C, [1]⟩, ⟨1, 1, .wo, .C, [0]⟩, ⟨2, 1, .rw, .C, [0]⟩, ⟨3, 1, .ro, .C, [1]⟩,
       ⟨4, 2, .ro, .C, [1]⟩, ⟨6, 6, .rw, .C, [0]⟩, ⟨16, 16, .rw, .C, [0]⟩]⟩,
    -- QDR_ERR
    ⟨0x40350060, 1, 0x10000000, 1, 4,
      [⟨0, 1, .w1c, .S, [0]⟩, ⟨1, 1, .w1c, .S, [0]⟩, ⟨2, 1, .w1c, .S, [0]⟩]⟩
    ]

/-- The registers of HSQ (spec/07_quadrille_and_actuators.md, spec/15_engines_and_control_stores.md). -/
def rowsHSQ : List RegRow :=
  [ -- HSQ_CTRL
    ⟨0x40360000, 4, 0x10000, 1, 4,
      [⟨0, 1, .rw, .S, [0]⟩]⟩,
    -- HSQ_WGCFG
    ⟨0x40360004, 4, 0x10000, 1, 4,
      [⟨0, 8, .rw, .S, [0x40]⟩]⟩,
    -- HSQ_HSW
    ⟨0x40360008, 4, 0x10000, 1, 4,
      [⟨0, 16, .rw, .S, [0x7D0]⟩]⟩,
    -- HSQ_SEL
    ⟨0x40360010, 4, 0x10000, 2, 4,
      [⟨0, 3, .ro, .S, [0]⟩, ⟨3, 1, .ro, .S, [0]⟩, ⟨4, 1, .ro, .S, [0]⟩]⟩,
    -- HSQ_FAULT
    ⟨0x40360018, 4, 0x10000, 1, 4,
      [⟨0, 1, .ro, .S, [0]⟩, ⟨1, 1, .w1c, .S, [0]⟩, ⟨16, 16, .ro, .S, [0]⟩]⟩,
    -- HSQ_ERR
    ⟨0x4036001C, 4, 0x10000, 1, 4,
      [⟨0, 1, .w1c, .S, [0]⟩, ⟨1, 1, .w1c, .S, [0]⟩, ⟨2, 1, .w1c, .S, [0]⟩]⟩,
    -- HSQ_SEQ_CTRL
    ⟨0x4036F000, 4, 0x10000, 1, 4,
      [⟨0, 1, .rw, .C, [0]⟩]⟩,
    -- HSQ_SEQ_STAT
    ⟨0x4036F004, 4, 0x10000, 1, 4,
      [⟨0, 12, .ro, .B, [0]⟩, ⟨12, 2, .ro, .B, [0]⟩, ⟨14, 1, .ro, .C, [0]⟩, ⟨15, 1, .ro, .B, [0]⟩,
       ⟨16, 1, .ro, .B, [0]⟩]⟩,
    -- HSQ_SEQ_HALT
    ⟨0x4036F008, 4, 0x10000, 1, 4,
      [⟨0, 1, .ro, .C, [0]⟩, ⟨1, 4, .ro, .C, [0]⟩, ⟨16, 12, .ro, .C, [0]⟩]⟩,
    -- HSQ_SEQ_CNT
    ⟨0x4036F00C, 4, 0x10000, 1, 4,
      [⟨0, 16, .ro, .C, [0]⟩]⟩,
    -- HSQ_SEQ_CSADDR
    ⟨0x4036F010, 4, 0x10000, 1, 4,
      [⟨0, 12, .rw, .C, [0]⟩, ⟨12, 1, .rw, .C, [0]⟩, ⟨13, 1, .rw, .C, [0]⟩]⟩,
    -- HSQ_SEQ_CSDATA
    ⟨0x4036F014, 4, 0x10000, 4, 4,
      [⟨0, 32, .rw, .C, [0]⟩]⟩
    ]

/-- The registers of SPN (spec/08_motor_and_power_stage.md). -/
def rowsSPN : List RegRow :=
  [ -- SPN_CTRL
    ⟨0x40400000, 1, 0x10000000, 1, 4,
      [⟨0, 1, .rw, .S, [0]⟩, ⟨1, 2, .rw, .S, [0]⟩, ⟨3, 1, .rw, .S, [0]⟩]⟩,
    -- SPN_STAT
    ⟨0x40400004, 1, 0x10000000, 1, 4,
      [⟨0, 4, .ro, .S, [0]⟩, ⟨4, 1, .ro, .S, [1]⟩, ⟨5, 1, .ro, .S, [0]⟩, ⟨6, 1, .ro, .S, [0]⟩,
       ⟨8, 2, .ro, .S, [0]⟩, ⟨10, 6, .ro, .S, [0]⟩]⟩,
    -- SPN_SPEED
    ⟨0x40400008, 1, 0x10000000, 1, 4,
      [⟨0, 18, .ro, .S, [0]⟩, ⟨31, 1, .ro, .S, [0]⟩]⟩,
    -- SPN_TARGET
    ⟨0x4040000C, 1, 0x10000000, 1, 4,
      [⟨0, 18, .ro, .S, [0]⟩]⟩,
    -- SPN_DEMAND
    ⟨0x40400010, 1, 0x10000000, 1, 4,
      [⟨0, 8, .rw, .S, [0]⟩]⟩,
    -- SPN_CURVE_CFG
    ⟨0x40400014, 1, 0x10000000, 1, 4,
      [⟨0, 8, .rwl, .S, [0x80]⟩, ⟨8, 8, .rwl, .S, [0x40]⟩, ⟨16, 12, .rwl, .S, [0x1F4]⟩]⟩,
    -- SPN_MOTOR
    ⟨0x40400018, 1, 0x10000000, 1, 4,
      [⟨0, 4, .rwl, .S, [4]⟩, ⟨8, 12, .rwl, .S, [0x1F4]⟩, ⟨20, 12, .rwl, .S, [0xFA]⟩]⟩,
    -- SPN_PROM
    ⟨0x4040001C, 1, 0x10000000, 1, 4,
      [⟨0, 10, .rwl, .S, [0xC8]⟩, ⟨12, 10, .rwl, .S, [0x258]⟩, ⟨22, 10, .rwl, .S, [0x258]⟩]⟩,
    -- SPN_ILIM
    ⟨0x40400020, 1, 0x10000000, 1, 4,
      [⟨0, 12, .rwl, .S, [0xBB8]⟩, ⟨12, 12, .rwl, .S, [0x9C4]⟩]⟩,
    -- SPN_IBAND
    ⟨0x40400024, 1, 0x10000000, 1, 4,
      [⟨0, 6, .rw, .S, [4]⟩, ⟨8, 6, .rw, .S, [0x30]⟩, ⟨16, 6, .rw, .S, [0]⟩]⟩,
    -- SPN_KE
    ⟨0x40400028, 1, 0x10000000, 1, 4,
      [⟨0, 16, .rwl, .S, [0]⟩, ⟨16, 16, .ro, .S, [0]⟩]⟩,
    -- SPN_INH
    ⟨0x4040002C, 1, 0x10000000, 1, 4,
      [⟨0, 8, .rw, .S, [0x32]⟩, ⟨8, 4, .rw, .S, [2]⟩]⟩,
    -- SPN_OBS
    ⟨0x40400030, 1, 0x10000000, 1, 4,
      [⟨0, 12, .ro, .S, [0]⟩, ⟨16, 4, .ro, .S, [0]⟩]⟩,
    -- SPN_RAIL
    ⟨0x40400034, 1, 0x10000000, 1, 4,
      [⟨0, 10, .ro, .C, [0]⟩, ⟨12, 3, .ro, .C, [0]⟩]⟩,
    -- SPN_BRK
    ⟨0x40400038, 1, 0x10000000, 1, 4,
      [⟨0, 1, .ro, .A, [0]⟩, ⟨1, 1, .w1c, .A, [0]⟩, ⟨2, 1, .rw, .A, [0]⟩, ⟨4, 2, .ro, .A, [0]⟩,
       ⟨16, 12, .rws, .A, [0xA0]⟩]⟩,
    -- SPN_FAULT
    ⟨0x4040003C, 1, 0x10000000, 1, 4,
      [⟨0, 1, .w1c, .C, [0]⟩, ⟨1, 1, .w1c, .C, [0]⟩]⟩,
    -- SPN_ERR
    ⟨0x40400040, 1, 0x10000000, 1, 4,
      [⟨0, 1, .w1c, .S, [0]⟩]⟩,
    -- SPN_CNT
    ⟨0x40400044, 1, 0x10000000, 1, 4,
      [⟨0, 16, .ro, .S, [0]⟩, ⟨16, 16, .ro, .S, [0]⟩]⟩,
    -- SPN_CURVE
    ⟨0x40400080, 1, 0x10000000, 16, 4,
      [⟨0, 8, .rwl, .S, [0xF, 0x1F, 0x2F, 0x3F, 0x4F, 0x5F, 0x6F, 0x7F, 0x8F, 0x9F, 0xAF, 0xBF, 0xCF, 0xDF, 0xEF, 0xFF]⟩, ⟨16, 14, .rwl, .S, [0x1C20]⟩]⟩
    ]

/-- The registers of VCM (spec/08_motor_and_power_stage.md). -/
def rowsVCM : List RegRow :=
  [ -- VCM_CTRL
    ⟨0x40410000, 4, 0x40, 1, 4,
      [⟨0, 7, .rw, .S, [8]⟩, ⟨8, 6, .rw, .S, [0x20]⟩, ⟨16, 1, .rwl, .S, [0]⟩]⟩,
    -- VCM_LIM
    ⟨0x40410004, 4, 0x40, 1, 4,
      [⟨0, 12, .rwl, .S, [0xBB8]⟩, ⟨12, 12, .rwl, .S, [0x7D0]⟩]⟩,
    -- VCM_CMD
    ⟨0x40410008, 4, 0x40, 1, 4,
      [⟨0, 1, .wo, .S, [0]⟩, ⟨1, 1, .wo, .S, [0]⟩]⟩,
    -- VCM_STAT
    ⟨0x4041000C, 4, 0x40, 1, 4,
      [⟨0, 2, .ro, .C, [0]⟩, ⟨2, 1, .ro, .C, [1]⟩, ⟨8, 1, .ro, .C, [0]⟩, ⟨9, 1, .ro, .C, [0]⟩,
       ⟨10, 1, .ro, .C, [0]⟩, ⟨11, 1, .ro, .C, [0]⟩, ⟨16, 16, .ro, .C, [0]⟩]⟩,
    -- VCM_RCOIL
    ⟨0x40410010, 4, 0x40, 1, 4,
      [⟨0, 16, .rwl, .S, [0xBB8]⟩]⟩,
    -- VCM_FAULT
    ⟨0x40410014, 4, 0x40, 1, 4,
      [⟨0, 1, .w1c, .C, [0]⟩, ⟨1, 1, .w1c, .C, [0]⟩, ⟨2, 1, .w1c, .C, [0]⟩, ⟨3, 1, .w1c, .C, [0]⟩,
       ⟨4, 1, .w1c, .C, [0]⟩, ⟨5, 1, .w1c, .C, [0]⟩, ⟨6, 1, .w1c, .C, [0]⟩]⟩,
    -- VCM_MA
    ⟨0x40410018, 4, 0x40, 1, 4,
      [⟨0, 1, .ro, .S, [0]⟩, ⟨1, 1, .ro, .S, [0]⟩]⟩,
    -- VCM_RET0
    ⟨0x40410100, 1, 0x10000000, 1, 4,
      [⟨0, 10, .rwl, .S, [0x12C]⟩, ⟨16, 10, .rwl, .S, [0x190]⟩]⟩,
    -- VCM_RET1
    ⟨0x40410104, 1, 0x10000000, 1, 4,
      [⟨0, 10, .rwl, .S, [0x258]⟩, ⟨16, 10, .rwl, .S, [0xC8]⟩, ⟨26, 6, .rwl, .S, [0x1E]⟩]⟩,
    -- VCM_TEMP
    ⟨0x40410108, 1, 0x10000000, 1, 4,
      [⟨0, 8, .ro, .C, [0]⟩, ⟨8, 1, .ro, .C, [0]⟩]⟩,
    -- VCM_ERR
    ⟨0x4041010C, 1, 0x10000000, 1, 4,
      [⟨0, 4, .w1c, .S, [0]⟩]⟩
    ]

/-- The registers of BUF (spec/09_buffer_cache_pools.md). -/
def rowsBUF : List RegRow :=
  [ -- BUF_CTRL
    ⟨0x40070000, 1, 0x10000000, 1, 4,
      [⟨0, 1, .rwl, .C, [0]⟩]⟩,
    -- BUF_STAT
    ⟨0x40070004, 1, 0x10000000, 1, 4,
      [⟨0, 2, .ro, .C, [0]⟩]⟩,
    -- BUF_ERR
    ⟨0x40070008, 1, 0x10000000, 1, 4,
      [⟨0, 1, .w1c, .C, [0]⟩, ⟨1, 1, .w1c, .C, [0]⟩, ⟨2, 1, .w1c, .C, [0]⟩, ⟨3, 1, .w1c, .C, [0]⟩]⟩,
    -- BUF_FIRST
    ⟨0x4007000C, 1, 0x10000000, 1, 4,
      [⟨0, 1, .w1c, .C, [0]⟩, ⟨1, 31, .ro, .C, [0]⟩]⟩,
    -- BUF_CNT
    ⟨0x40070010, 1, 0x10000000, 1, 4,
      [⟨0, 32, .ro, .C, [0]⟩]⟩
    ]

/-- The registers of POOL (spec/09_buffer_cache_pools.md). -/
def rowsPOOL : List RegRow :=
  [ -- POOL_CFG
    ⟨0x40080000, 8, 0x40, 1, 4,
      [⟨0, 1, .rw, .C, [0]⟩, ⟨1, 1, .ro, .C, [0]⟩, ⟨11, 21, .rw, .C, [0]⟩]⟩,
    -- POOL_BUFBASE
    ⟨0x40080004, 8, 0x40, 1, 4,
      [⟨0, 32, .rw, .C, [0]⟩]⟩,
    -- POOL_TAILBASE
    ⟨0x40080008, 8, 0x40, 1, 4,
      [⟨0, 32, .rw, .C, [0]⟩]⟩,
    -- POOL_RINGBASE
    ⟨0x4008000C, 8, 0x40, 1, 4,
      [⟨0, 32, .rw, .C, [0]⟩]⟩,
    -- POOL_STBASE
    ⟨0x40080010, 8, 0x40, 1, 4,
      [⟨0, 32, .rw, .C, [0]⟩]⟩,
    -- POOL_THR
    ⟨0x40080014, 8, 0x40, 1, 4,
      [⟨0, 16, .rw, .C, [0x40]⟩, ⟨16, 16, .rw, .C, [0x400]⟩]⟩,
    -- POOL_STAT
    ⟨0x40080018, 8, 0x40, 1, 4,
      [⟨0, 21, .ro, .C, [0]⟩, ⟨21, 10, .ro, .C, [0]⟩, ⟨31, 1, .ro, .C, [0]⟩]⟩,
    -- POOL_RETSTAT
    ⟨0x4008001C, 8, 0x40, 1, 4,
      [⟨0, 21, .ro, .C, [0]⟩]⟩,
    -- POOL_MB
    ⟨0x40080200, 1, 0x10000000, 16, 8,
      [⟨0, 27, .wo, .S, [0]⟩, ⟨27, 3, .wo, .S, [0]⟩, ⟨30, 2, .wo, .S, [0]⟩]⟩,
    -- POOL_MBSTAT
    ⟨0x40080204, 1, 0x10000000, 16, 8,
      [⟨0, 5, .rw, .S, [1]⟩, ⟨5, 1, .ro, .S, [0]⟩, ⟨6, 1, .ro, .S, [0]⟩, ⟨7, 1, .ro, .S, [0]⟩]⟩,
    -- POOL_FREE
    ⟨0x40080300, 1, 0x10000000, 1, 4,
      [⟨0, 24, .wo, .C, [0]⟩]⟩,
    -- POOL_RETIRE
    ⟨0x40080304, 1, 0x10000000, 1, 4,
      [⟨0, 24, .wo, .C, [0]⟩]⟩,
    -- POOL_BANKRET0
    ⟨0x40080308, 1, 0x10000000, 1, 4,
      [⟨0, 32, .rw, .C, [0]⟩]⟩,
    -- POOL_BANKRET1
    ⟨0x4008030C, 1, 0x10000000, 1, 4,
      [⟨0, 32, .rw, .C, [0]⟩]⟩,
    -- POOL_ERR
    ⟨0x40080310, 1, 0x10000000, 1, 4,
      [⟨0, 1, .w1c, .C, [0]⟩, ⟨1, 1, .w1c, .C, [0]⟩, ⟨2, 1, .w1c, .C, [0]⟩, ⟨3, 1, .w1c, .C, [0]⟩,
       ⟨4, 1, .w1c, .C, [0]⟩, ⟨5, 1, .w1c, .C, [0]⟩, ⟨6, 1, .w1c, .C, [0]⟩]⟩,
    -- POOL_FIRST
    ⟨0x40080314, 1, 0x10000000, 1, 4,
      [⟨0, 24, .ro, .C, [0]⟩, ⟨31, 1, .w1c, .C, [0]⟩]⟩
    ]

/-- The registers of CCH (spec/09_buffer_cache_pools.md). -/
def rowsCCH : List RegRow :=
  [ -- CCH_CTRL
    ⟨0x40060000, 1, 0x10000000, 1, 4,
      [⟨0, 1, .rw, .S, [0]⟩]⟩,
    -- CCH_MOP_ADDR
    ⟨0x40060004, 1, 0x10000000, 1, 4,
      [⟨0, 27, .rw, .S, [0]⟩]⟩,
    -- CCH_MOP_LEN
    ⟨0x40060008, 1, 0x10000000, 1, 4,
      [⟨0, 27, .rw, .S, [1]⟩]⟩,
    -- CCH_MOP_CMD
    ⟨0x4006000C, 1, 0x10000000, 1, 4,
      [⟨0, 3, .rw, .S, [0]⟩, ⟨3, 1, .wo, .S, [0]⟩, ⟨4, 4, .rw, .S, [0]⟩, ⟨8, 15, .rw, .S, [0]⟩]⟩,
    -- CCH_MOP_STAT
    ⟨0x40060010, 1, 0x10000000, 1, 4,
      [⟨0, 1, .ro, .S, [0]⟩]⟩,
    -- CCH_BKCFG
    ⟨0x40060014, 1, 0x10000000, 1, 4,
      [⟨0, 8, .rw, .S, [0x10]⟩, ⟨16, 16, .rw, .S, [0x3E8]⟩]⟩,
    -- CCH_BUCKET
    ⟨0x40060040, 1, 0x10000000, 16, 4,
      [⟨0, 8, .ro, .S, [0]⟩, ⟨8, 1, .w1c, .S, [0]⟩]⟩,
    -- CCH_ERR
    ⟨0x40060080, 1, 0x10000000, 1, 4,
      [⟨0, 1, .w1c, .S, [0]⟩, ⟨1, 1, .w1c, .S, [0]⟩, ⟨2, 1, .w1c, .S, [0]⟩, ⟨3, 1, .w1c, .S, [0]⟩,
       ⟨4, 1, .w1c, .S, [0]⟩, ⟨5, 1, .w1c, .S, [0]⟩]⟩,
    -- CCH_ERRLOC
    ⟨0x40060084, 1, 0x10000000, 1, 4,
      [⟨0, 15, .ro, .S, [0]⟩, ⟨15, 4, .ro, .S, [0]⟩, ⟨31, 1, .w1c, .S, [0]⟩]⟩,
    -- CCH_CNT
    ⟨0x40060088, 1, 0x10000000, 1, 4,
      [⟨0, 16, .ro, .S, [0]⟩, ⟨16, 16, .ro, .S, [0]⟩]⟩,
    -- CCH_MISS
    ⟨0x4006008C, 1, 0x10000000, 1, 4,
      [⟨0, 7, .ro, .S, [0]⟩, ⟨16, 16, .ro, .S, [0]⟩]⟩
    ]

/-- The registers of SCB (spec/09_buffer_cache_pools.md). -/
def rowsSCB : List RegRow :=
  [ -- SCB_START
    ⟨0x40520000, 1, 0x10000000, 1, 4,
      [⟨0, 27, .rw, .S, [0]⟩]⟩,
    -- SCB_LEN
    ⟨0x40520004, 1, 0x10000000, 1, 4,
      [⟨0, 27, .rw, .S, [0]⟩]⟩,
    -- SCB_SUMADDR
    ⟨0x40520008, 1, 0x10000000, 1, 4,
      [⟨0, 25, .rw, .S, [0]⟩]⟩,
    -- SCB_CMD
    ⟨0x4052000C, 1, 0x10000000, 1, 4,
      [⟨0, 1, .wo, .S, [0]⟩, ⟨1, 1, .wo, .S, [0]⟩]⟩,
    -- SCB_STAT
    ⟨0x40520010, 1, 0x10000000, 1, 4,
      [⟨0, 1, .ro, .S, [0]⟩, ⟨1, 1, .w1c, .S, [0]⟩]⟩,
    -- SCB_PASS
    ⟨0x40520014, 1, 0x10000000, 1, 4,
      [⟨0, 32, .ro, .C, [0]⟩]⟩
    ]

/-- The registers of DMA (spec/10_dma_engine.md). -/
def rowsDMA : List RegRow :=
  [ -- DMA_CTRL
    ⟨0x40090000, 1, 0x10000000, 1, 4,
      [⟨0, 1, .rw, .S, [0]⟩, ⟨1, 1, .rw, .S, [0]⟩, ⟨2, 1, .rw, .S, [0]⟩]⟩,
    -- DMA_WEIGHT
    ⟨0x40090004, 1, 0x10000000, 1, 4,
      [⟨0, 4, .rw, .S, [1]⟩, ⟨4, 4, .rw, .S, [2]⟩, ⟨8, 4, .rw, .S, [4]⟩, ⟨12, 4, .rw, .S, [8]⟩]⟩,
    -- DMA_STAT
    ⟨0x40090008, 1, 0x10000000, 1, 4,
      [⟨0, 16, .ro, .S, [0]⟩, ⟨16, 16, .ro, .S, [0]⟩]⟩,
    -- DMA_ERR
    ⟨0x4009000C, 1, 0x10000000, 1, 4,
      [⟨0, 1, .w1c, .S, [0]⟩, ⟨1, 1, .w1c, .S, [0]⟩]⟩,
    -- DMA_RING_BASE
    ⟨0x40090040, 4, 0x10, 1, 4,
      [⟨0, 27, .rw, .S, [0]⟩]⟩,
    -- DMA_RING_CFG
    ⟨0x40090044, 4, 0x10, 1, 4,
      [⟨0, 4, .rw, .S, [4]⟩, ⟨4, 1, .rw, .S, [0]⟩]⟩,
    -- DMA_RING_TAIL
    ⟨0x40090048, 4, 0x10, 1, 4,
      [⟨0, 12, .rw, .S, [0]⟩]⟩,
    -- DMA_RING_HEAD
    ⟨0x4009004C, 4, 0x10, 1, 4,
      [⟨0, 12, .ro, .S, [0]⟩]⟩,
    -- DMA_CH_CFG
    ⟨0x40090100, 16, 0x20, 1, 4,
      [⟨0, 1, .rw, .S, [0]⟩, ⟨1, 2, .rw, .S, [0, 0, 0, 0, 1, 1, 1, 1, 2, 2, 2, 2, 3, 3, 3, 3]⟩]⟩,
    -- DMA_CH_CTRL
    ⟨0x40090104, 16, 0x20, 1, 4,
      [⟨0, 1, .wo, .S, [0]⟩, ⟨1, 1, .wo, .S, [0]⟩]⟩,
    -- DMA_CH_STAT
    ⟨0x40090108, 16, 0x20, 1, 4,
      [⟨0, 3, .ro, .S, [0]⟩, ⟨3, 2, .ro, .S, [0]⟩, ⟨5, 12, .ro, .S, [0]⟩]⟩,
    -- DMA_CH_HALT
    ⟨0x4009010C, 16, 0x20, 1, 4,
      [⟨0, 1, .w1c, .S, [0]⟩, ⟨1, 3, .ro, .S, [0]⟩, ⟨4, 1, .ro, .S, [0]⟩]⟩,
    -- DMA_CH_ADDRLO
    ⟨0x40090110, 16, 0x20, 1, 4,
      [⟨0, 32, .ro, .S, [0]⟩]⟩,
    -- DMA_CH_ADDRHI
    ⟨0x40090114, 16, 0x20, 1, 4,
      [⟨0, 32, .ro, .S, [0]⟩]⟩,
    -- DMA_CH_MOVED
    ⟨0x40090118, 16, 0x20, 1, 4,
      [⟨0, 32, .ro, .S, [0]⟩]⟩
    ]

/-- The registers of HIF (spec/11_host_link_and_queues.md). -/
def rowsHIF : List RegRow :=
  [ -- HIF_MODE
    ⟨0x400A0000, 1, 0x10000000, 1, 4,
      [⟨0, 1, .rwl, .C, [0]⟩, ⟨1, 1, .rwl, .C, [0]⟩, ⟨2, 3, .rwl, .C, [5]⟩]⟩,
    -- HIF_ID
    ⟨0x400A0004, 1, 0x10000000, 1, 4,
      [⟨0, 16, .ro, .F, [0x1F2B]⟩, ⟨16, 16, .ro, .F, [0xA18]⟩]⟩,
    -- HIF_SUBSYS
    ⟨0x400A0008, 1, 0x10000000, 1, 4,
      [⟨0, 16, .rwl, .C, [0]⟩, ⟨16, 16, .rwl, .C, [0]⟩]⟩,
    -- HIF_CTRL
    ⟨0x400A000C, 1, 0x10000000, 1, 4,
      [⟨0, 1, .rw, .C, [0]⟩, ⟨1, 1, .rw, .C, [0]⟩]⟩,
    -- HIF_LINK
    ⟨0x400A0010, 1, 0x10000000, 2, 4,
      [⟨0, 1, .ro, .C, [0]⟩, ⟨1, 3, .ro, .C, [0]⟩, ⟨4, 3, .ro, .C, [0]⟩, ⟨7, 3, .ro, .C, [0]⟩,
       ⟨10, 6, .ro, .C, [0]⟩]⟩,
    -- HIF_AERCNT
    ⟨0x400A0018, 1, 0x10000000, 2, 4,
      [⟨0, 16, .ro, .C, [0]⟩, ⟨16, 16, .ro, .C, [0]⟩]⟩,
    -- HIF_CC
    ⟨0x400A0020, 1, 0x10000000, 2, 4,
      [⟨0, 1, .ro, .C, [0]⟩, ⟨1, 1, .ro, .C, [0]⟩, ⟨2, 1, .ro, .C, [0]⟩, ⟨3, 2, .ro, .C, [0]⟩]⟩,
    -- HIF_RSTCAUSE
    ⟨0x400A0028, 1, 0x10000000, 2, 4,
      [⟨0, 1, .w1c, .C, [0]⟩, ⟨1, 1, .w1c, .C, [0]⟩, ⟨2, 1, .w1c, .C, [0]⟩, ⟨3, 1, .w1c, .C, [0]⟩,
       ⟨4, 1, .w1c, .C, [0]⟩, ⟨5, 1, .w1c, .C, [0]⟩]⟩
    ]

/-- The registers of QSQ (spec/11_host_link_and_queues.md, spec/15_engines_and_control_stores.md). -/
def rowsQSQ : List RegRow :=
  [ -- QSQ_CTRL
    ⟨0x400B0000, 1, 0x10000000, 1, 4,
      [⟨0, 1, .rw, .S, [0]⟩, ⟨1, 1, .rw, .S, [0]⟩]⟩,
    -- QSQ_STAT
    ⟨0x400B0004, 1, 0x10000000, 1, 4,
      [⟨0, 4, .ro, .S, [0]⟩, ⟨4, 1, .ro, .S, [0]⟩, ⟨5, 1, .ro, .S, [0]⟩]⟩,
    -- QSQ_FSN
    ⟨0x400B0008, 1, 0x10000000, 1, 4,
      [⟨0, 32, .ro, .S, [0]⟩]⟩,
    -- QSQ_CMDTAB
    ⟨0x400B000C, 1, 0x10000000, 1, 4,
      [⟨0, 13, .ro, .S, [0]⟩, ⟨16, 6, .ro, .S, [0]⟩]⟩,
    -- QSQ_ARB
    ⟨0x400B0010, 1, 0x10000000, 2, 4,
      [⟨0, 3, .ro, .S, [0]⟩, ⟨3, 1, .ro, .S, [0]⟩, ⟨8, 8, .ro, .S, [0]⟩, ⟨16, 8, .ro, .S, [0]⟩,
       ⟨24, 8, .ro, .S, [0]⟩]⟩,
    -- QSQ_HALT
    ⟨0x400B0020, 2, 0x10, 4, 4,
      [⟨0, 32, .ro, .S, [0]⟩]⟩,
    -- QSQ_QHOE
    ⟨0x400B0040, 2, 0x10, 4, 4,
      [⟨0, 32, .ro, .S, [0]⟩]⟩,
    -- QSQ_ERR
    ⟨0x400B0060, 1, 0x10000000, 1, 4,
      [⟨0, 1, .w1c, .S, [0]⟩, ⟨1, 1, .w1c, .S, [0]⟩, ⟨2, 1, .w1c, .S, [0]⟩, ⟨3, 1, .w1c, .S, [0]⟩]⟩,
    -- QSQ_SEQ_CTRL
    ⟨0x400BF000, 4, 0x40, 1, 4,
      [⟨0, 1, .rw, .C, [0]⟩]⟩,
    -- QSQ_SEQ_STAT
    ⟨0x400BF004, 4, 0x40, 1, 4,
      [⟨0, 12, .ro, .B, [0]⟩, ⟨12, 2, .ro, .B, [0]⟩, ⟨14, 1, .ro, .C, [0]⟩, ⟨15, 1, .ro, .B, [0]⟩,
       ⟨16, 1, .ro, .B, [0]⟩]⟩,
    -- QSQ_SEQ_HALT
    ⟨0x400BF008, 4, 0x40, 1, 4,
      [⟨0, 1, .ro, .C, [0]⟩, ⟨1, 4, .ro, .C, [0]⟩, ⟨16, 12, .ro, .C, [0]⟩]⟩,
    -- QSQ_SEQ_CNT
    ⟨0x400BF00C, 4, 0x40, 1, 4,
      [⟨0, 16, .ro, .C, [0]⟩]⟩,
    -- QSQ_SEQ_CSADDR
    ⟨0x400BF010, 4, 0x40, 1, 4,
      [⟨0, 12, .rw, .C, [0]⟩, ⟨12, 1, .rw, .C, [0]⟩, ⟨13, 1, .rw, .C, [0]⟩]⟩,
    -- QSQ_SEQ_CSDATA
    ⟨0x400BF014, 4, 0x40, 4, 4,
      [⟨0, 32, .rw, .C, [0]⟩]⟩,
    -- QSQ_DTADDR
    ⟨0x400B0100, 1, 0x10000000, 1, 4,
      [⟨0, 8, .rw, .C, [0]⟩, ⟨8, 1, .rw, .C, [0]⟩, ⟨9, 1, .rw, .C, [0]⟩]⟩,
    -- QSQ_DTDATA
    ⟨0x400B0104, 1, 0x10000000, 1, 4,
      [⟨0, 32, .rw, .C, [0]⟩]⟩,
    -- QSQ_DTERR
    ⟨0x400B0108, 1, 0x10000000, 1, 4,
      [⟨0, 1, .w1c, .C, [0]⟩]⟩,
    -- QSQ_CSSWAP
    ⟨0x400B010C, 1, 0x10000000, 1, 4,
      [⟨0, 1, .wo, .C, [0]⟩, ⟨1, 1, .ro, .C, [0]⟩, ⟨2, 1, .ro, .C, [0]⟩, ⟨3, 1, .w1c, .C, [0]⟩]⟩
    ]

/-- The registers of PWR (spec/13_power_modes_and_kinetic_save.md). -/
def rowsPWR : List RegRow :=
  [ -- PWR_MODE
    ⟨0x40420000, 1, 0x10000000, 1, 4,
      [⟨0, 4, .ro, .C, [1]⟩, ⟨4, 3, .ro, .C, [0]⟩]⟩,
    -- PWR_RAILS
    ⟨0x40420004, 1, 0x10000000, 1, 4,
      [⟨0, 16, .ro, .C, [0]⟩, ⟨16, 1, .ro, .C, [0]⟩]⟩,
    -- PWR_IDLE
    ⟨0x40420008, 1, 0x10000000, 1, 4,
      [⟨0, 8, .rw, .S, [0xA]⟩, ⟨8, 8, .rw, .S, [0xC]⟩, ⟨16, 8, .rw, .S, [0x5A]⟩, ⟨24, 8, .rw, .S, [0]⟩]⟩,
    -- PWR_CAP
    ⟨0x4042000C, 1, 0x10000000, 1, 4,
      [⟨0, 4, .rw, .S, [8]⟩, ⟨4, 3, .rw, .S, [0]⟩, ⟨16, 16, .rw, .S, [0]⟩]⟩,
    -- PWR_FLEET
    ⟨0x40420010, 1, 0x10000000, 1, 4,
      [⟨0, 14, .rwl, .C, [0]⟩, ⟨14, 1, .rwl, .C, [1]⟩, ⟨15, 1, .rwl, .C, [0]⟩, ⟨16, 10, .rwl, .C, [0x3F]⟩,
       ⟨26, 6, .rwl, .C, [5]⟩]⟩,
    -- PWR_SPIN
    ⟨0x40420014, 1, 0x10000000, 1, 4,
      [⟨0, 16, .ro, .C, [0]⟩, ⟨16, 1, .ro, .C, [0]⟩]⟩,
    -- PWR_TEMP
    ⟨0x40420018, 1, 0x10000000, 1, 4,
      [⟨0, 8, .ro, .C, [0]⟩, ⟨8, 1, .ro, .C, [0]⟩]⟩
    ]

/-- The registers of KSV (spec/13_power_modes_and_kinetic_save.md). -/
def rowsKSV : List RegRow :=
  [ -- KSV_CTRL
    ⟨0x40430000, 1, 0x10000000, 1, 4,
      [⟨0, 1, .rw, .C, [0]⟩]⟩,
    -- KSV_CFG
    ⟨0x40430004, 1, 0x10000000, 1, 4,
      [⟨0, 8, .rwl, .C, [0x20]⟩, ⟨8, 8, .rwl, .C, [0xC8]⟩, ⟨16, 8, .rwl, .C, [0x3C]⟩, ⟨24, 8, .rwl, .C, [0x64]⟩]⟩,
    -- KSV_TRIP
    ⟨0x40430008, 1, 0x10000000, 1, 4,
      [⟨0, 10, .rwl, .C, [0x1A0]⟩, ⟨10, 10, .rwl, .C, [0xB6]⟩, ⟨20, 4, .rwl, .C, [4]⟩]⟩,
    -- KSV_LIMIT
    ⟨0x4043000C, 1, 0x10000000, 1, 4,
      [⟨0, 11, .rw, .C, [0]⟩, ⟨16, 11, .rw, .C, [0]⟩]⟩,
    -- KSV_LIST_BASE
    ⟨0x40430010, 1, 0x10000000, 1, 4,
      [⟨0, 32, .rw, .C, [0]⟩]⟩,
    -- KSV_LIST_COUNT
    ⟨0x40430014, 1, 0x10000000, 1, 4,
      [⟨0, 32, .rw, .C, [0]⟩]⟩,
    -- KSV_STAT
    ⟨0x40430018, 1, 0x10000000, 1, 4,
      [⟨0, 3, .ro, .C, [0]⟩, ⟨3, 2, .ro, .C, [0]⟩, ⟨5, 4, .ro, .C, [0]⟩, ⟨12, 20, .ro, .C, [0]⟩]⟩,
    -- KSV_REG
    ⟨0x40430020, 1, 0x10000000, 4, 4,
      [⟨0, 10, .rw, .C, [0]⟩, ⟨16, 10, .rw, .C, [0]⟩]⟩,
    -- KSV_GENLO
    ⟨0x40430030, 1, 0x10000000, 1, 4,
      [⟨0, 32, .rw, .C, [0]⟩]⟩,
    -- KSV_GENHI
    ⟨0x40430034, 1, 0x10000000, 1, 4,
      [⟨0, 32, .rw, .C, [0]⟩]⟩
    ]

/-- The registers of SEC (spec/14_boot_images_security.md). -/
def rowsSEC : List RegRow :=
  [ -- SEC_LIFE
    ⟨0x40030000, 1, 0x10000000, 1, 4,
      [⟨0, 2, .ro, .F, [0]⟩, ⟨2, 1, .ro, .F, [0]⟩]⟩,
    -- SEC_SVN
    ⟨0x40030004, 1, 0x10000000, 1, 4,
      [⟨0, 7, .ro, .F, [0]⟩, ⟨8, 7, .ro, .F, [0]⟩]⟩,
    -- SEC_BOOT
    ⟨0x40030008, 1, 0x10000000, 1, 4,
      [⟨0, 2, .ro, .C, [0]⟩, ⟨2, 2, .ro, .C, [0]⟩, ⟨4, 2, .ro, .C, [0]⟩, ⟨6, 1, .ro, .C, [0]⟩,
       ⟨7, 1, .ro, .C, [0]⟩, ⟨8, 1, .ro, .C, [0]⟩, ⟨31, 1, .ro, .C, [0]⟩]⟩,
    -- SEC_SEAL
    ⟨0x4003000C, 1, 0x10000000, 1, 4,
      [⟨0, 1, .wo, .C, [0]⟩, ⟨1, 1, .ro, .C, [0]⟩]⟩,
    -- SEC_KEYCMD
    ⟨0x40030010, 1, 0x10000000, 1, 4,
      [⟨0, 4, .wo, .C, [0]⟩, ⟨4, 5, .wo, .C, [0]⟩]⟩,
    -- SEC_SLOTS
    ⟨0x40030014, 1, 0x10000000, 1, 4,
      [⟨0, 32, .ro, .C, [0]⟩]⟩,
    -- SEC_VAULT
    ⟨0x40030018, 1, 0x10000000, 1, 4,
      [⟨0, 24, .ro, .A, [0]⟩]⟩,
    -- SEC_ERR
    ⟨0x4003001C, 1, 0x10000000, 1, 4,
      [⟨0, 1, .w1c, .C, [0]⟩, ⟨1, 1, .w1c, .C, [0]⟩, ⟨2, 1, .w1c, .C, [0]⟩, ⟨3, 1, .w1c, .C, [0]⟩,
       ⟨4, 1, .w1c, .C, [0]⟩]⟩
    ]

/-- The registers of DBG (spec/14_boot_images_security.md). -/
def rowsDBG : List RegRow :=
  [ -- DBG_STAT
    ⟨0x40600000, 1, 0x10000000, 1, 4,
      [⟨0, 3, .ro, .C, [0]⟩, ⟨3, 1, .ro, .C, [0]⟩, ⟨8, 8, .ro, .C, [0]⟩]⟩,
    -- DBG_GRANT
    ⟨0x40600004, 1, 0x10000000, 1, 4,
      [⟨0, 1, .wo, .C, [0]⟩, ⟨1, 1, .wo, .C, [0]⟩]⟩,
    -- DBG_ERR
    ⟨0x40600008, 1, 0x10000000, 1, 4,
      [⟨0, 1, .w1c, .C, [0]⟩, ⟨1, 1, .w1c, .C, [0]⟩, ⟨2, 1, .w1c, .C, [0]⟩, ⟨3, 1, .w1c, .C, [0]⟩]⟩,
    -- DBG_NONCE
    ⟨0x40600010, 1, 0x10000000, 4, 4,
      [⟨0, 32, .ro, .C, [0]⟩]⟩,
    -- DBG_COUNT
    ⟨0x40600020, 1, 0x10000000, 1, 4,
      [⟨0, 8, .ro, .A, [0]⟩]⟩
    ]

/-- The registers of CLK (spec/16_clocks_and_reset.md). -/
def rowsCLK : List RegRow :=
  [ -- CLK_STAT
    ⟨0x40000000, 1, 0x10000000, 1, 4,
      [⟨0, 1, .ro, .C, [0]⟩, ⟨1, 1, .ro, .C, [0]⟩, ⟨2, 1, .ro, .C, [0]⟩]⟩,
    -- CLK_GOOD0
    ⟨0x40000004, 1, 0x10000000, 1, 4,
      [⟨0, 32, .ro, .C, [0]⟩]⟩,
    -- CLK_GOOD1
    ⟨0x40000008, 1, 0x10000000, 1, 4,
      [⟨0, 32, .ro, .C, [0]⟩]⟩,
    -- CLK_GATE0
    ⟨0x40000010, 1, 0x10000000, 1, 4,
      [⟨0, 32, .rw, .C, [0xFFFFFFFF]⟩]⟩,
    -- CLK_GATE1
    ⟨0x40000014, 1, 0x10000000, 1, 4,
      [⟨0, 32, .rw, .C, [0xFF]⟩]⟩,
    -- CLK_ERR
    ⟨0x40000018, 1, 0x10000000, 1, 4,
      [⟨0, 1, .w1c, .C, [0]⟩]⟩
    ]

/-- The registers of RST (spec/16_clocks_and_reset.md). -/
def rowsRST : List RegRow :=
  [ -- RST_CAUSE
    ⟨0x40010000, 1, 0x10000000, 1, 4,
      [⟨0, 9, .ro, .A, [1]⟩, ⟨12, 4, .ro, .A, [1]⟩]⟩,
    -- RST_INFO
    ⟨0x40010004, 1, 0x10000000, 1, 4,
      [⟨0, 4, .ro, .A, [0]⟩, ⟨8, 6, .ro, .A, [0]⟩, ⟨14, 2, .ro, .A, [0]⟩]⟩,
    -- RST_PHASE
    ⟨0x40010008, 1, 0x10000000, 1, 4,
      [⟨0, 3, .ro, .C, [0]⟩, ⟨3, 1, .ro, .C, [0]⟩]⟩,
    -- RST_STAT
    ⟨0x4001000C, 1, 0x10000000, 1, 4,
      [⟨0, 1, .w1c, .A, [0]⟩, ⟨1, 1, .ro, .A, [0]⟩]⟩,
    -- RST_CNT
    ⟨0x40010010, 1, 0x10000000, 1, 4,
      [⟨0, 16, .ro, .A, [0]⟩, ⟨16, 8, .ro, .A, [0]⟩]⟩,
    -- RST_SWRST
    ⟨0x40010014, 1, 0x10000000, 1, 4,
      [⟨0, 32, .wo, .C, [0]⟩]⟩,
    -- RST_BLKRST0
    ⟨0x40010020, 1, 0x10000000, 1, 4,
      [⟨0, 32, .wo, .C, [0]⟩]⟩,
    -- RST_BLKRST1
    ⟨0x40010024, 1, 0x10000000, 1, 4,
      [⟨0, 32, .wo, .C, [0]⟩]⟩,
    -- RST_BLKSTAT0
    ⟨0x40010028, 1, 0x10000000, 1, 4,
      [⟨0, 32, .ro, .C, [0]⟩]⟩,
    -- RST_BLKSTAT1
    ⟨0x4001002C, 1, 0x10000000, 1, 4,
      [⟨0, 32, .ro, .C, [0]⟩]⟩,
    -- RST_ERR
    ⟨0x40010030, 1, 0x10000000, 1, 4,
      [⟨0, 1, .w1c, .C, [0]⟩, ⟨1, 1, .w1c, .C, [0]⟩]⟩
    ]

/-- The registers of FUS (spec/17_package_and_signals.md, spec/19_register_space.md). -/
def rowsFUS : List RegRow :=
  [ -- FUS_PADMAP
    ⟨0x40020040, 1, 0x10000000, 1, 4,
      [⟨0, 4, .ro, .F, [0]⟩, ⟨4, 1, .ro, .F, [0]⟩, ⟨5, 1, .ro, .F, [0]⟩, ⟨6, 1, .ro, .F, [0]⟩,
       ⟨7, 1, .ro, .F, [1]⟩]⟩,
    -- FUS_PART
    ⟨0x40020000, 1, 0x10000000, 1, 4,
      [⟨0, 16, .ro, .F, [0xA18]⟩, ⟨16, 4, .ro, .F, [4]⟩]⟩,
    -- FUS_STEP
    ⟨0x40020004, 1, 0x10000000, 1, 4,
      [⟨0, 8, .ro, .F, [1]⟩, ⟨8, 8, .ro, .F, [1]⟩]⟩,
    -- FUS_SERLO
    ⟨0x40020008, 1, 0x10000000, 1, 4,
      [⟨0, 32, .ro, .F, [0]⟩]⟩,
    -- FUS_SERHI
    ⟨0x4002000C, 1, 0x10000000, 1, 4,
      [⟨0, 32, .ro, .F, [0]⟩]⟩,
    -- FUS_ROMVER
    ⟨0x40020010, 1, 0x10000000, 1, 4,
      [⟨0, 8, .ro, .C, [1]⟩, ⟨8, 8, .ro, .C, [0]⟩]⟩
    ]

/-- The registers of EVT (spec/18_events_errors_recorder.md). -/
def rowsEVT : List RegRow :=
  [ -- EVT_STAT
    ⟨0x40500000, 1, 0x10000000, 36, 4,
      [⟨0, 32, .w1c, .C, [0]⟩]⟩,
    -- EVT_EN
    ⟨0x40500100, 1, 0x10000000, 36, 4,
      [⟨0, 32, .rw, .S, [0]⟩]⟩,
    -- EVT_ROUTE
    ⟨0x40500200, 1, 0x10000000, 36, 4,
      [⟨0, 4, .rw, .S, [0]⟩, ⟨4, 1, .rw, .S, [0]⟩, ⟨5, 1, .rw, .S, [0]⟩, ⟨8, 8, .rw, .S, [0]⟩]⟩,
    -- EVT_CLASS
    ⟨0x40500400, 1, 0x10000000, 72, 4,
      [⟨0, 32, .ro, .C, evtClassWords⟩]⟩,
    -- EVT_FIRST
    ⟨0x40500600, 1, 0x10000000, 1, 4,
      [⟨0, 1, .w1c, .A, [0]⟩, ⟨2, 11, .ro, .A, [0]⟩, ⟨13, 2, .ro, .A, [0]⟩]⟩,
    -- EVT_FIRSTSEQ
    ⟨0x40500604, 1, 0x10000000, 1, 4,
      [⟨0, 32, .ro, .A, [0]⟩]⟩,
    -- EVT_SEQLO
    ⟨0x40500608, 1, 0x10000000, 1, 4,
      [⟨0, 32, .ro, .A, [0]⟩]⟩,
    -- EVT_SEQHI
    ⟨0x4050060C, 1, 0x10000000, 1, 4,
      [⟨0, 32, .ro, .A, [0]⟩]⟩,
    -- EVT_CNTCLR
    ⟨0x40500610, 1, 0x10000000, 1, 4,
      [⟨0, 1, .wo, .C, [0]⟩]⟩,
    -- EVT_LGR_BASE
    ⟨0x40500620, 1, 0x10000000, 1, 4,
      [⟨0, 28, .rw, .A, [0]⟩]⟩,
    -- EVT_LGR_CTRL
    ⟨0x40500624, 1, 0x10000000, 1, 4,
      [⟨0, 1, .rw, .C, [0]⟩]⟩,
    -- EVT_LGR_HEAD
    ⟨0x40500628, 1, 0x10000000, 1, 4,
      [⟨0, 12, .ro, .A, [0]⟩]⟩,
    -- EVT_LGR_TAIL
    ⟨0x4050062C, 1, 0x10000000, 1, 4,
      [⟨0, 12, .rw, .A, [0]⟩]⟩,
    -- EVT_LGR_STAT
    ⟨0x40500630, 1, 0x10000000, 1, 4,
      [⟨0, 16, .ro, .A, [0]⟩, ⟨16, 16, .ro, .A, [0]⟩]⟩,
    -- EVT_SWRAISE
    ⟨0x40500640, 1, 0x10000000, 1, 4,
      [⟨0, 5, .wo, .C, [0]⟩]⟩,
    -- EVT_ERR
    ⟨0x40500644, 1, 0x10000000, 1, 4,
      [⟨0, 1, .w1c, .C, [0]⟩]⟩,
    -- EVT_CNT
    ⟨0x40501000, 1, 0x10000000, 576, 4,
      [⟨0, 16, .ro, .C, [0]⟩, ⟨16, 16, .ro, .C, [0]⟩]⟩
    ]

/-- The registers of REC (spec/18_events_errors_recorder.md). -/
def rowsREC : List RegRow :=
  [ -- REC_CMD
    ⟨0x40510000, 1, 0x10000000, 1, 4,
      [⟨0, 2, .wo, .C, [0]⟩]⟩,
    -- REC_SRC
    ⟨0x40510004, 1, 0x10000000, 1, 4,
      [⟨0, 25, .rw, .C, [0]⟩]⟩,
    -- REC_DST
    ⟨0x40510008, 1, 0x10000000, 1, 4,
      [⟨0, 17, .rw, .C, [0]⟩]⟩,
    -- REC_STAT
    ⟨0x4051000C, 1, 0x10000000, 1, 4,
      [⟨0, 1, .ro, .C, [0]⟩, ⟨1, 2, .ro, .C, [0]⟩]⟩
    ]

/-- Every block, in address order (Table 19-1). -/
def regBlocks : List BlockRows :=
  [ ⟨0x40000000, 0x4000001C, rowsCLK⟩,
    ⟨0x40010000, 0x40010034, rowsRST⟩,
    ⟨0x40020000, 0x40020044, rowsFUS⟩,
    ⟨0x40030000, 0x40030020, rowsSEC⟩,
    ⟨0x40040000, 0x40040240, rowsCAL⟩,
    ⟨0x40050000, 0x40050020, rowsFAB⟩,
    ⟨0x40060000, 0x40060090, rowsCCH⟩,
    ⟨0x40070000, 0x40070014, rowsBUF⟩,
    ⟨0x40080000, 0x40080318, rowsPOOL⟩,
    ⟨0x40090000, 0x400902FC, rowsDMA⟩,
    ⟨0x400A0000, 0x400A0030, rowsHIF⟩,
    ⟨0x400B0000, 0x400BF0E4, rowsQSQ⟩,
    ⟨0x40100000, 0x40170040, rowsCHN⟩,
    ⟨0x40180000, 0x401801C0, rowsAFE⟩,
    ⟨0x40190000, 0x40190130, rowsDEC⟩,
    ⟨0x40200000, 0x4027F024, rowsFMT⟩,
    ⟨0x40280000, 0x402BF024, rowsLAD⟩,
    ⟨0x40300000, 0x40330070, rowsSRV⟩,
    ⟨0x40340000, 0x403400E8, rowsPRG⟩,
    ⟨0x40350000, 0x40350064, rowsQDR⟩,
    ⟨0x40360000, 0x4039F024, rowsHSQ⟩,
    ⟨0x40400000, 0x404000C0, rowsSPN⟩,
    ⟨0x40410000, 0x40410110, rowsVCM⟩,
    ⟨0x40420000, 0x4042001C, rowsPWR⟩,
    ⟨0x40430000, 0x40430038, rowsKSV⟩,
    ⟨0x40500000, 0x40501900, rowsEVT⟩,
    ⟨0x40510000, 0x40510010, rowsREC⟩,
    ⟨0x40520000, 0x40520018, rowsSCB⟩,
    ⟨0x40600000, 0x40600024, rowsDBG⟩ ]

/-- The index of address `a` in a row, `n2 · outer + inner`; none where the row has no register there. -/
def RegRow.index (r : RegRow) (a : Nat) : Option Nat :=
  if a < r.base then none else
  let d := a - r.base
  let i := d / r.s1
  let e := d % r.s1
  if i < r.n1 ∧ e / r.s2 < r.n2 ∧ e % r.s2 = 0 then some (i * r.n2 + e / r.s2) else none

/-- The first row that holds address `a`, with the index there. -/
def findRow (a : Nat) : List RegRow → Option (RegRow × Nat)
  | [] => none
  | r :: rs =>
    match r.index a with
    | some i => some (r, i)
    | none => findRow a rs

/-- The row and index of a register address; none where no register lies (R421). -/
def findReg (a : Nat) : List BlockRows → Option (RegRow × Nat)
  | [] => none
  | b :: bs => if b.lo ≤ a ∧ a < b.hi then findRow a b.rows else findReg a bs

/-- Reset value of a field at index `i`. -/
def FieldRow.reset (f : FieldRow) (i : Nat) : Nat :=
  match f.rst with
  | [v] => v
  | vs => vs.getD i 0

/-- The word whose fields hold their reset values. -/
def resetOf (fs : List FieldRow) (i : Nat) : Word :=
  fs.foldl (fun w f => w ||| (BitVec.ofNat 32 (f.reset i) <<< f.lo)) 0

/-- The reset value of the register at address `a`; 0 where there is none (R421). -/
def resetWord (a : Nat) : Word :=
  match findReg a regBlocks with
  | some (r, i) => resetOf r.fields i
  | none => 0

end Sys2Proof.Machine
end

