-- ==== Sys2Proof/Machine/Regs.lean ====
section
/-! DEFINITION. The names of the registers and fields of the spec: the place of each field (address, lowest
bit, width), and `REG_<register>` for each register address. Indices count from 0 (LAD_CNT_STEP k is
index k − 1). -/
namespace Sys2Proof.Machine

/-- The place of a register field. -/
structure Loc where
  addr : Nat
  lo   : Nat
  w    : Nat
  deriving DecidableEq, Repr

/-- Base address of the register set of sequencer `q`, in the order FS0–FS7, LS0–LS3, QS0–QS3, HS0–HS3
(EG34 of Table 18-1; spec/15_engines_and_control_stores.md, Registers). -/
def seqBase (q : Nat) : Nat :=
  if q < 8 then 0x4020F000 + 0x10000 * q
  else if q < 12 then 0x4028F000 + 0x10000 * (q - 8)
  else if q < 16 then 0x400BF000 + 0x40 * (q - 12)
  else 0x4036F000 + 0x10000 * (q - 16)

/-! ### spec/02_caller_and_fabric.md -/

/-- Address of CAL_CTRL. -/
def REG_CAL_CTRL : Nat := 0x40040000
def CAL_CTRL_FREEZE : Loc := ⟨REG_CAL_CTRL, 0, 1⟩
def CAL_CTRL_SWAP : Loc := ⟨REG_CAL_CTRL, 1, 1⟩
def CAL_CTRL_SWAP_CANCEL : Loc := ⟨REG_CAL_CTRL, 2, 1⟩

/-- Address of CAL_STATUS. -/
def REG_CAL_STATUS : Nat := 0x40040004
def CAL_STATUS_SWAP_PENDING : Loc := ⟨REG_CAL_STATUS, 0, 1⟩
def CAL_STATUS_FROZEN : Loc := ⟨REG_CAL_STATUS, 1, 1⟩
def CAL_STATUS_SAVE_TABLE : Loc := ⟨REG_CAL_STATUS, 2, 1⟩
def CAL_STATUS_USE_VALID : Loc := ⟨REG_CAL_STATUS, 3, 1⟩

/-- Address of CAL_FIGNO. -/
def REG_CAL_FIGNO : Nat := 0x40040008
def CAL_FIGNO_FIGURE : Loc := ⟨REG_CAL_FIGNO, 0, 32⟩

/-- Address of CAL_CFG. -/
def REG_CAL_CFG : Nat := 0x4004000C
def CAL_CFG_RELEASE : Loc := ⟨REG_CAL_CFG, 0, 12⟩

/-- Address of CAL_CAP. -/
def REG_CAL_CAP : Nat := 0x40040010
def CAL_CAP_SCALE : Loc := ⟨REG_CAL_CAP, 0, 9⟩

/-- Address of CAL_ERR. -/
def REG_CAL_ERR : Nat := 0x40040014
def CAL_ERR_SWAP_SUM : Loc := ⟨REG_CAL_ERR, 0, 1⟩
def CAL_ERR_SWAP_ORDER : Loc := ⟨REG_CAL_ERR, 1, 1⟩
def CAL_ERR_BACK_LOCKED : Loc := ⟨REG_CAL_ERR, 2, 1⟩
def CAL_ERR_MAINT_FLOOR : Loc := ⟨REG_CAL_ERR, 3, 1⟩

/-- Address of CAL_BACK. -/
def REG_CAL_BACK (k : Nat) : Nat := 0x40040100 + 0x4 * k
def CAL_BACK_GUAR (k : Nat) : Loc := ⟨(REG_CAL_BACK k), 0, 12⟩
def CAL_BACK_CEIL (k : Nat) : Loc := ⟨(REG_CAL_BACK k), 16, 12⟩

/-- Address of CAL_FRONT. -/
def REG_CAL_FRONT (k : Nat) : Nat := 0x40040180 + 0x4 * k
def CAL_FRONT_GUAR (k : Nat) : Loc := ⟨(REG_CAL_FRONT k), 0, 12⟩
def CAL_FRONT_CEIL (k : Nat) : Loc := ⟨(REG_CAL_FRONT k), 16, 12⟩

/-- Address of CAL_USE. -/
def REG_CAL_USE (k : Nat) : Nat := 0x40040200 + 0x4 * k
def CAL_USE_USED (k : Nat) : Loc := ⟨(REG_CAL_USE k), 0, 12⟩
def CAL_USE_DEBT (k : Nat) : Loc := ⟨(REG_CAL_USE k), 12, 3⟩
def CAL_USE_STARVED (k : Nat) : Loc := ⟨(REG_CAL_USE k), 16, 16⟩

/-- Address of FAB_CTRL. -/
def REG_FAB_CTRL : Nat := 0x40050000
def FAB_CTRL_WDG_FIGS : Loc := ⟨REG_FAB_CTRL, 0, 8⟩
def FAB_CTRL_WDG_OFF : Loc := ⟨REG_FAB_CTRL, 8, 1⟩

/-- Address of FAB_STATUS. -/
def REG_FAB_STATUS : Nat := 0x40050004
def FAB_STATUS_INFLIGHT : Loc := ⟨REG_FAB_STATUS, 0, 6⟩
def FAB_STATUS_OLDEST_PORT : Loc := ⟨REG_FAB_STATUS, 8, 5⟩
def FAB_STATUS_OLDEST_AGE : Loc := ⟨REG_FAB_STATUS, 16, 16⟩

/-- Address of FAB_WDG_LAST. -/
def REG_FAB_WDG_LAST : Nat := 0x40050008
def FAB_WDG_LAST_VALID : Loc := ⟨REG_FAB_WDG_LAST, 0, 1⟩
def FAB_WDG_LAST_PORT : Loc := ⟨REG_FAB_WDG_LAST, 8, 5⟩
def FAB_WDG_LAST_CLASS : Loc := ⟨REG_FAB_WDG_LAST, 16, 4⟩
def FAB_WDG_LAST_COUNT : Loc := ⟨REG_FAB_WDG_LAST, 24, 8⟩

/-- Address of FAB_PEND. -/
def REG_FAB_PEND (k : Nat) : Nat := 0x40050010 + 0x4 * k
def FAB_PEND_DEPTH0 (k : Nat) : Loc := ⟨(REG_FAB_PEND k), 0, 5⟩
def FAB_PEND_DEPTH1 (k : Nat) : Loc := ⟨(REG_FAB_PEND k), 8, 5⟩
def FAB_PEND_DEPTH2 (k : Nat) : Loc := ⟨(REG_FAB_PEND k), 16, 5⟩
def FAB_PEND_DEPTH3 (k : Nat) : Loc := ⟨(REG_FAB_PEND k), 24, 5⟩

/-! ### spec/03_read_channel.md -/

/-- Address of CHN_CTRL. -/
def REG_CHN_CTRL (n : Nat) : Nat := 0x40100000 + 0x10000 * n
def CHN_CTRL_EN (n : Nat) : Loc := ⟨(REG_CHN_CTRL n), 0, 1⟩
def CHN_CTRL_EQ_SET (n : Nat) : Loc := ⟨(REG_CHN_CTRL n), 1, 2⟩
def CHN_CTRL_READERS (n : Nat) : Loc := ⟨(REG_CHN_CTRL n), 3, 2⟩
def CHN_CTRL_ADAPT (n : Nat) : Loc := ⟨(REG_CHN_CTRL n), 5, 1⟩
def CHN_CTRL_ADAPT_SHIFT (n : Nat) : Loc := ⟨(REG_CHN_CTRL n), 6, 4⟩
def CHN_CTRL_XSCALE (n : Nat) : Loc := ⟨(REG_CHN_CTRL n), 10, 2⟩
def CHN_CTRL_PIN_MAX (n : Nat) : Loc := ⟨(REG_CHN_CTRL n), 12, 4⟩

/-- Address of CHN_RATE. -/
def REG_CHN_RATE (n : Nat) : Nat := 0x40100004 + 0x10000 * n
def CHN_RATE_M (n : Nat) : Loc := ⟨(REG_CHN_RATE n), 0, 17⟩

/-- Address of CHN_TLOOP. -/
def REG_CHN_TLOOP (n : Nat) : Nat := 0x40100008 + 0x10000 * n
def CHN_TLOOP_ACQ_KP_SHIFT (n : Nat) : Loc := ⟨(REG_CHN_TLOOP n), 0, 4⟩
def CHN_TLOOP_ACQ_KI_SHIFT (n : Nat) : Loc := ⟨(REG_CHN_TLOOP n), 4, 4⟩
def CHN_TLOOP_TRK_KP_SHIFT (n : Nat) : Loc := ⟨(REG_CHN_TLOOP n), 8, 4⟩
def CHN_TLOOP_TRK_KI_SHIFT (n : Nat) : Loc := ⟨(REG_CHN_TLOOP n), 12, 4⟩
def CHN_TLOOP_ACQ_LEN (n : Nat) : Loc := ⟨(REG_CHN_TLOOP n), 16, 6⟩
def CHN_TLOOP_FOLLOW (n : Nat) : Loc := ⟨(REG_CHN_TLOOP n), 22, 1⟩

/-- Address of CHN_TSTAT. -/
def REG_CHN_TSTAT (n : Nat) : Nat := 0x4010000C + 0x10000 * n
def CHN_TSTAT_PHASE (n : Nat) : Loc := ⟨(REG_CHN_TSTAT n), 0, 6⟩
def CHN_TSTAT_LOCK (n : Nat) : Loc := ⟨(REG_CHN_TSTAT n), 6, 1⟩
def CHN_TSTAT_FOFF (n : Nat) : Loc := ⟨(REG_CHN_TSTAT n), 16, 16⟩

/-- Address of CHN_SKEW. -/
def REG_CHN_SKEW (n : Nat) : Nat := 0x40100010 + 0x10000 * n
def CHN_SKEW_DELAY_X (n : Nat) : Loc := ⟨(REG_CHN_SKEW n), 0, 5⟩
def CHN_SKEW_DELAY_Y (n : Nat) : Loc := ⟨(REG_CHN_SKEW n), 8, 5⟩

/-- Address of CHN_TARGET. -/
def REG_CHN_TARGET (n : Nat) : Nat := 0x40100014 + 0x10000 * n
def CHN_TARGET_G0 (n : Nat) : Loc := ⟨(REG_CHN_TARGET n), 0, 8⟩
def CHN_TARGET_G1 (n : Nat) : Loc := ⟨(REG_CHN_TARGET n), 8, 8⟩
def CHN_TARGET_G2 (n : Nat) : Loc := ⟨(REG_CHN_TARGET n), 16, 8⟩

/-- Address of CHN_CADDR. -/
def REG_CHN_CADDR (n : Nat) : Nat := 0x40100020 + 0x10000 * n
def CHN_CADDR_ADDR (n : Nat) : Loc := ⟨(REG_CHN_CADDR n), 0, 12⟩
def CHN_CADDR_AUTOINC (n : Nat) : Loc := ⟨(REG_CHN_CADDR n), 16, 1⟩

/-- Address of CHN_CDATA. -/
def REG_CHN_CDATA (n : Nat) : Nat := 0x40100024 + 0x10000 * n
def CHN_CDATA_DATA (n : Nat) : Loc := ⟨(REG_CHN_CDATA n), 0, 10⟩

/-- Address of CHN_SMEM. -/
def REG_CHN_SMEM (n : Nat) : Nat := 0x40100030 + 0x10000 * n
def CHN_SMEM_USED (n : Nat) : Loc := ⟨(REG_CHN_SMEM n), 0, 7⟩
def CHN_SMEM_PINNED (n : Nat) : Loc := ⟨(REG_CHN_SMEM n), 8, 4⟩
def CHN_SMEM_HIGH (n : Nat) : Loc := ⟨(REG_CHN_SMEM n), 16, 7⟩
def CHN_SMEM_CWR_IGN (n : Nat) : Loc := ⟨(REG_CHN_SMEM n), 23, 1⟩

/-- Address of CHN_CNT_SECT. -/
def REG_CHN_CNT_SECT (n : Nat) : Nat := 0x40100034 + 0x10000 * n
def CHN_CNT_SECT_CAPT (n : Nat) : Loc := ⟨(REG_CHN_CNT_SECT n), 0, 32⟩

/-- Address of CHN_CNT_TA. -/
def REG_CHN_CNT_TA (n : Nat) : Nat := 0x40100038 + 0x10000 * n
def CHN_CNT_TA_SPANS (n : Nat) : Loc := ⟨(REG_CHN_CNT_TA n), 0, 16⟩
def CHN_CNT_TA_MERGED (n : Nat) : Loc := ⟨(REG_CHN_CNT_TA n), 16, 16⟩

/-- Address of CHN_CNTCLR. -/
def REG_CHN_CNTCLR (n : Nat) : Nat := 0x4010003C + 0x10000 * n
def CHN_CNTCLR_CLR (n : Nat) : Loc := ⟨(REG_CHN_CNTCLR n), 0, 1⟩

/-- Address of AFE_EN. -/
def REG_AFE_EN : Nat := 0x40180000
def AFE_EN_LANE_EN : Loc := ⟨REG_AFE_EN, 0, 16⟩

/-- Address of AFE_LANE_CFG. -/
def REG_AFE_LANE_CFG (k : Nat) : Nat := 0x40180100 + 0x4 * k
def AFE_LANE_CFG_CTLE_BOOST (k : Nat) : Loc := ⟨(REG_AFE_LANE_CFG k), 0, 4⟩
def AFE_LANE_CFG_CTLE_PEAK (k : Nat) : Loc := ⟨(REG_AFE_LANE_CFG k), 4, 2⟩
def AFE_LANE_CFG_HPF (k : Nat) : Loc := ⟨(REG_AFE_LANE_CFG k), 6, 2⟩
def AFE_LANE_CFG_VGA_MAN (k : Nat) : Loc := ⟨(REG_AFE_LANE_CFG k), 8, 7⟩
def AFE_LANE_CFG_AGC_EN (k : Nat) : Loc := ⟨(REG_AFE_LANE_CFG k), 15, 1⟩
def AFE_LANE_CFG_AGC_TARGET (k : Nat) : Loc := ⟨(REG_AFE_LANE_CFG k), 16, 7⟩
def AFE_LANE_CFG_TA_LEN (k : Nat) : Loc := ⟨(REG_AFE_LANE_CFG k), 23, 4⟩

/-- Address of AFE_LANE_STAT. -/
def REG_AFE_LANE_STAT (k : Nat) : Nat := 0x40180180 + 0x4 * k
def AFE_LANE_STAT_VGA (k : Nat) : Loc := ⟨(REG_AFE_LANE_STAT k), 0, 7⟩
def AFE_LANE_STAT_READY (k : Nat) : Loc := ⟨(REG_AFE_LANE_STAT k), 7, 1⟩
def AFE_LANE_STAT_TA (k : Nat) : Loc := ⟨(REG_AFE_LANE_STAT k), 8, 1⟩
def AFE_LANE_STAT_SATCNT (k : Nat) : Loc := ⟨(REG_AFE_LANE_STAT k), 16, 16⟩

/-- Address of DEC_CFG. -/
def REG_DEC_CFG : Nat := 0x40190000
def DEC_CFG_LADDER_MAX : Loc := ⟨REG_DEC_CFG, 0, 3⟩

/-- Address of DEC_SCHED. -/
def REG_DEC_SCHED : Nat := 0x40190004
def DEC_SCHED_OTF_G : Loc := ⟨REG_DEC_SCHED, 0, 4⟩
def DEC_SCHED_OTF_L : Loc := ⟨REG_DEC_SCHED, 4, 6⟩
def DEC_SCHED_EXT_G : Loc := ⟨REG_DEC_SCHED, 10, 4⟩
def DEC_SCHED_EXT_L : Loc := ⟨REG_DEC_SCHED, 14, 6⟩
def DEC_SCHED_MAX_G : Loc := ⟨REG_DEC_SCHED, 20, 4⟩
def DEC_SCHED_MAX_L : Loc := ⟨REG_DEC_SCHED, 24, 6⟩

/-- Address of DEC_BUSY. -/
def REG_DEC_BUSY : Nat := 0x40190008
def DEC_BUSY_ENG : Loc := ⟨REG_DEC_BUSY, 0, 12⟩
def DEC_BUSY_LADDER_HELD : Loc := ⟨REG_DEC_BUSY, 12, 3⟩
def DEC_BUSY_OTF_WAIT : Loc := ⟨REG_DEC_BUSY, 16, 10⟩
def DEC_BUSY_LADDER_WAIT : Loc := ⟨REG_DEC_BUSY, 26, 6⟩

/-- Address of DEC_CNT_OTF. -/
def REG_DEC_CNT_OTF : Nat := 0x40190010
def DEC_CNT_OTF_COUNT : Loc := ⟨REG_DEC_CNT_OTF, 0, 32⟩

/-- Address of DEC_CNT_NOCONV. -/
def REG_DEC_CNT_NOCONV : Nat := 0x40190014
def DEC_CNT_NOCONV_COUNT : Loc := ⟨REG_DEC_CNT_NOCONV, 0, 32⟩

/-- Address of DEC_CNT_CRC. -/
def REG_DEC_CNT_CRC : Nat := 0x40190018
def DEC_CNT_CRC_COUNT : Loc := ⟨REG_DEC_CNT_CRC, 0, 32⟩

/-- Address of DEC_CNT_TAG. -/
def REG_DEC_CNT_TAG : Nat := 0x4019001C
def DEC_CNT_TAG_COUNT : Loc := ⟨REG_DEC_CNT_TAG, 0, 32⟩

/-- Address of DEC_CNTCLR. -/
def REG_DEC_CNTCLR : Nat := 0x40190020
def DEC_CNTCLR_CLR : Loc := ⟨REG_DEC_CNTCLR, 0, 1⟩

/-- Address of DEC_ITERH. -/
def REG_DEC_ITERH (k : Nat) : Nat := 0x40190040 + 0x4 * k
def DEC_ITERH_COUNT (k : Nat) : Loc := ⟨(REG_DEC_ITERH k), 0, 32⟩

/-- Address of DEC_ENG. -/
def REG_DEC_ENG (k : Nat) : Nat := 0x40190100 + 0x4 * k
def DEC_ENG_STATE (k : Nat) : Loc := ⟨(REG_DEC_ENG k), 0, 2⟩
def DEC_ENG_SCHED (k : Nat) : Loc := ⟨(REG_DEC_ENG k), 2, 2⟩
def DEC_ENG_STREAM (k : Nat) : Loc := ⟨(REG_DEC_ENG k), 4, 3⟩
def DEC_ENG_GLOBAL (k : Nat) : Loc := ⟨(REG_DEC_ENG k), 8, 4⟩
def DEC_ENG_LOCAL (k : Nat) : Loc := ⟨(REG_DEC_ENG k), 16, 6⟩

/-! ### spec/04_write_path_and_format.md -/

/-- Address of FMT_CTRL. -/
def REG_FMT_CTRL (n : Nat) : Nat := 0x40200000 + 0x10000 * n
def FMT_CTRL_EN (n : Nat) : Loc := ⟨(REG_FMT_CTRL n), 0, 1⟩

/-- Address of FMT_STAT. -/
def REG_FMT_STAT (n : Nat) : Nat := 0x40200004 + 0x10000 * n
def FMT_STAT_STATE (n : Nat) : Loc := ⟨(REG_FMT_STAT n), 0, 2⟩
def FMT_STAT_TRACK_VALID (n : Nat) : Loc := ⟨(REG_FMT_STAT n), 2, 1⟩
def FMT_STAT_WSAFE (n : Nat) : Loc := ⟨(REG_FMT_STAT n), 3, 1⟩
def FMT_STAT_GATE (n : Nat) : Loc := ⟨(REG_FMT_STAT n), 4, 1⟩

/-- Address of FMT_GEOM. -/
def REG_FMT_GEOM (n : Nat) : Nat := 0x40200008 + 0x10000 * n
def FMT_GEOM_WEDGE_DATA (n : Nat) : Loc := ⟨(REG_FMT_GEOM n), 0, 18⟩
def FMT_GEOM_SPT (n : Nat) : Loc := ⟨(REG_FMT_GEOM n), 18, 11⟩

/-- Address of FMT_SKEW. -/
def REG_FMT_SKEW (n : Nat) : Nat := 0x4020000C + 0x10000 * n
def FMT_SKEW_FIRST (n : Nat) : Loc := ⟨(REG_FMT_SKEW n), 0, 16⟩
def FMT_SKEW_CSKEW (n : Nat) : Loc := ⟨(REG_FMT_SKEW n), 16, 8⟩
def FMT_SKEW_HSKEW (n : Nat) : Loc := ⟨(REG_FMT_SKEW n), 24, 8⟩

/-- Address of FMT_PRECOMP. -/
def REG_FMT_PRECOMP (n : Nat) : Nat := 0x40200010 + 0x10000 * n
def FMT_PRECOMP_PRE1 (n : Nat) : Loc := ⟨(REG_FMT_PRECOMP n), 0, 4⟩
def FMT_PRECOMP_PRE2 (n : Nat) : Loc := ⟨(REG_FMT_PRECOMP n), 4, 4⟩
def FMT_PRECOMP_ZONE (n : Nat) : Loc := ⟨(REG_FMT_PRECOMP n), 8, 5⟩

/-- Address of FMT_RING_BASE. -/
def REG_FMT_RING_BASE (n : Nat) : Nat := 0x40200020 + 0x10000 * n
def FMT_RING_BASE_ADDR (n : Nat) : Loc := ⟨(REG_FMT_RING_BASE n), 0, 28⟩

/-- Address of FMT_RING_CFG. -/
def REG_FMT_RING_CFG (n : Nat) : Nat := 0x40200024 + 0x10000 * n
def FMT_RING_CFG_SIZE_LOG2 (n : Nat) : Loc := ⟨(REG_FMT_RING_CFG n), 0, 4⟩

/-- Address of FMT_RING_TAIL. -/
def REG_FMT_RING_TAIL (n : Nat) : Nat := 0x40200028 + 0x10000 * n
def FMT_RING_TAIL_TAIL (n : Nat) : Loc := ⟨(REG_FMT_RING_TAIL n), 0, 12⟩

/-- Address of FMT_RING_HEAD. -/
def REG_FMT_RING_HEAD (n : Nat) : Nat := 0x4020002C + 0x10000 * n
def FMT_RING_HEAD_HEAD (n : Nat) : Loc := ⟨(REG_FMT_RING_HEAD n), 0, 12⟩

/-- Address of FMT_DMAP_BASE. -/
def REG_FMT_DMAP_BASE (n : Nat) : Nat := 0x40200030 + 0x10000 * n
def FMT_DMAP_BASE_ADDR (n : Nat) : Loc := ⟨(REG_FMT_DMAP_BASE n), 0, 30⟩

/-- Address of FMT_DMAP_COUNT. -/
def REG_FMT_DMAP_COUNT (n : Nat) : Nat := 0x40200034 + 0x10000 * n
def FMT_DMAP_COUNT_COUNT (n : Nat) : Loc := ⟨(REG_FMT_DMAP_COUNT n), 0, 21⟩

/-- Address of FMT_CUR. -/
def REG_FMT_CUR (n : Nat) : Nat := 0x40200038 + 0x10000 * n
def FMT_CUR_CYL (n : Nat) : Loc := ⟨(REG_FMT_CUR n), 0, 20⟩
def FMT_CUR_HEAD (n : Nat) : Loc := ⟨(REG_FMT_CUR n), 20, 5⟩
def FMT_CUR_DEFECTS (n : Nat) : Loc := ⟨(REG_FMT_CUR n), 25, 7⟩

/-- Address of FMT_CNT_WR. -/
def REG_FMT_CNT_WR (n : Nat) : Nat := 0x40200040 + 0x10000 * n
def FMT_CNT_WR_COUNT (n : Nat) : Loc := ⟨(REG_FMT_CNT_WR n), 0, 32⟩

/-- Address of FMT_CNT_ABORT. -/
def REG_FMT_CNT_ABORT (n : Nat) : Nat := 0x40200044 + 0x10000 * n
def FMT_CNT_ABORT_TORN (n : Nat) : Loc := ⟨(REG_FMT_CNT_ABORT n), 0, 16⟩
def FMT_CNT_ABORT_UNDERRUN (n : Nat) : Loc := ⟨(REG_FMT_CNT_ABORT n), 16, 16⟩

/-- Address of FMT_CNT_MISS. -/
def REG_FMT_CNT_MISS (n : Nat) : Nat := 0x40200048 + 0x10000 * n
def FMT_CNT_MISS_MISSED (n : Nat) : Loc := ⟨(REG_FMT_CNT_MISS n), 0, 16⟩
def FMT_CNT_MISS_ENCERR (n : Nat) : Loc := ⟨(REG_FMT_CNT_MISS n), 16, 16⟩

/-- Address of FMT_CNTCLR. -/
def REG_FMT_CNTCLR (n : Nat) : Nat := 0x4020004C + 0x10000 * n
def FMT_CNTCLR_CLR (n : Nat) : Loc := ⟨(REG_FMT_CNTCLR n), 0, 1⟩

/-- Address of FMT_ERR. -/
def REG_FMT_ERR (n : Nat) : Nat := 0x40200050 + 0x10000 * n
def FMT_ERR_ZONE_MISMATCH (n : Nat) : Loc := ⟨(REG_FMT_ERR n), 0, 1⟩
def FMT_ERR_BADDESC (n : Nat) : Loc := ⟨(REG_FMT_ERR n), 1, 1⟩
def FMT_ERR_ENCERR (n : Nat) : Loc := ⟨(REG_FMT_ERR n), 2, 1⟩
def FMT_ERR_BUFERR (n : Nat) : Loc := ⟨(REG_FMT_ERR n), 3, 1⟩
def FMT_ERR_DMAP_OVF (n : Nat) : Loc := ⟨(REG_FMT_ERR n), 4, 1⟩
def FMT_ERR_DMAP_TYPE (n : Nat) : Loc := ⟨(REG_FMT_ERR n), 5, 1⟩

/-! ### spec/05_recovery_ladder.md -/

/-- Address of LAD_CTRL. -/
def REG_LAD_CTRL (n : Nat) : Nat := 0x40280000 + 0x10000 * n
def LAD_CTRL_EN (n : Nat) : Loc := ⟨(REG_LAD_CTRL n), 0, 1⟩

/-- Address of LAD_SYNC. -/
def REG_LAD_SYNC (n : Nat) : Nat := 0x40280004 + 0x10000 * n
def LAD_SYNC_THRESH (n : Nat) : Loc := ⟨(REG_LAD_SYNC n), 0, 4⟩

/-- Address of LAD_PARAM. -/
def REG_LAD_PARAM (n : Nat) : Nat := 0x40280008 + 0x10000 * n
def LAD_PARAM_OFF1 (n : Nat) : Loc := ⟨(REG_LAD_PARAM n), 0, 10⟩
def LAD_PARAM_OFF2 (n : Nat) : Loc := ⟨(REG_LAD_PARAM n), 10, 10⟩
def LAD_PARAM_HEAT1 (n : Nat) : Loc := ⟨(REG_LAD_PARAM n), 20, 4⟩
def LAD_PARAM_HEAT2 (n : Nat) : Loc := ⟨(REG_LAD_PARAM n), 24, 4⟩
def LAD_PARAM_CAND_STEP (n : Nat) : Loc := ⟨(REG_LAD_PARAM n), 28, 4⟩

/-- Address of LAD_STAT. -/
def REG_LAD_STAT (n : Nat) : Nat := 0x4028000C + 0x10000 * n
def LAD_STAT_STATE (n : Nat) : Loc := ⟨(REG_LAD_STAT n), 0, 2⟩
def LAD_STAT_STEP (n : Nat) : Loc := ⟨(REG_LAD_STAT n), 2, 5⟩
def LAD_STAT_SSEL (n : Nat) : Loc := ⟨(REG_LAD_STAT n), 7, 1⟩
def LAD_STAT_JOBS (n : Nat) : Loc := ⟨(REG_LAD_STAT n), 8, 5⟩

/-- Address of LAD_SYNCSTAT. -/
def REG_LAD_SYNCSTAT (n k : Nat) : Nat := 0x40280010 + 0x10000 * n + 0x4 * k
def LAD_SYNCSTAT_VALID (n k : Nat) : Loc := ⟨(REG_LAD_SYNCSTAT n k), 0, 1⟩
def LAD_SYNCSTAT_FOUND (n k : Nat) : Loc := ⟨(REG_LAD_SYNCSTAT n k), 1, 1⟩
def LAD_SYNCSTAT_DIST (n k : Nat) : Loc := ⟨(REG_LAD_SYNCSTAT n k), 2, 6⟩
def LAD_SYNCSTAT_OFFSET (n k : Nat) : Loc := ⟨(REG_LAD_SYNCSTAT n k), 8, 8⟩
def LAD_SYNCSTAT_FIRST (n k : Nat) : Loc := ⟨(REG_LAD_SYNCSTAT n k), 16, 8⟩

/-- Address of LAD_START. -/
def REG_LAD_START (n : Nat) : Nat := 0x40280020 + 0x10000 * n
def LAD_START_DESC (n : Nat) : Loc := ⟨(REG_LAD_START n), 0, 12⟩
def LAD_START_SSEL (n : Nat) : Loc := ⟨(REG_LAD_START n), 12, 1⟩
def LAD_START_NOSAMP (n : Nat) : Loc := ⟨(REG_LAD_START n), 13, 1⟩
def LAD_START_PARITY (n : Nat) : Loc := ⟨(REG_LAD_START n), 14, 1⟩
def LAD_START_LIMIT (n : Nat) : Loc := ⟨(REG_LAD_START n), 16, 4⟩

/-- Address of LAD_RAISE. -/
def REG_LAD_RAISE (n : Nat) : Nat := 0x40280024 + 0x10000 * n
def LAD_RAISE_DESC (n : Nat) : Loc := ⟨(REG_LAD_RAISE n), 0, 12⟩
def LAD_RAISE_SSEL (n : Nat) : Loc := ⟨(REG_LAD_RAISE n), 12, 1⟩
def LAD_RAISE_LIMIT (n : Nat) : Loc := ⟨(REG_LAD_RAISE n), 16, 4⟩

/-- Address of LAD_RING_BASE. -/
def REG_LAD_RING_BASE (n : Nat) : Nat := 0x40280028 + 0x10000 * n
def LAD_RING_BASE_ADDR (n : Nat) : Loc := ⟨(REG_LAD_RING_BASE n), 0, 29⟩

/-- Address of LAD_RING_CFG. -/
def REG_LAD_RING_CFG (n : Nat) : Nat := 0x4028002C + 0x10000 * n
def LAD_RING_CFG_SIZE_LOG2 (n : Nat) : Loc := ⟨(REG_LAD_RING_CFG n), 0, 4⟩

/-- Address of LAD_RING_HEAD. -/
def REG_LAD_RING_HEAD (n : Nat) : Nat := 0x40280030 + 0x10000 * n
def LAD_RING_HEAD_HEAD (n : Nat) : Loc := ⟨(REG_LAD_RING_HEAD n), 0, 8⟩

/-- Address of LAD_RING_TAIL. -/
def REG_LAD_RING_TAIL (n : Nat) : Nat := 0x40280034 + 0x10000 * n
def LAD_RING_TAIL_TAIL (n : Nat) : Loc := ⟨(REG_LAD_RING_TAIL n), 0, 8⟩

/-- Address of LAD_CNT_STEP. -/
def REG_LAD_CNT_STEP (n k : Nat) : Nat := 0x40280040 + 0x10000 * n + 0x4 * k
def LAD_CNT_STEP_COUNT (n k : Nat) : Loc := ⟨(REG_LAD_CNT_STEP n k), 0, 32⟩

/-- Address of LAD_CNT_END. -/
def REG_LAD_CNT_END (n : Nat) : Nat := 0x40280080 + 0x10000 * n
def LAD_CNT_END_UNREC (n : Nat) : Loc := ⟨(REG_LAD_CNT_END n), 0, 16⟩
def LAD_CNT_END_WITHDRAWN (n : Nat) : Loc := ⟨(REG_LAD_CNT_END n), 16, 16⟩

/-- Address of LAD_CNT_SYNC. -/
def REG_LAD_CNT_SYNC (n : Nat) : Nat := 0x40280084 + 0x10000 * n
def LAD_CNT_SYNC_BLIND (n : Nat) : Loc := ⟨(REG_LAD_CNT_SYNC n), 0, 16⟩
def LAD_CNT_SYNC_LATE (n : Nat) : Loc := ⟨(REG_LAD_CNT_SYNC n), 16, 16⟩

/-- Address of LAD_CNTCLR. -/
def REG_LAD_CNTCLR (n : Nat) : Nat := 0x40280088 + 0x10000 * n
def LAD_CNTCLR_CLR (n : Nat) : Loc := ⟨(REG_LAD_CNTCLR n), 0, 1⟩

/-- Address of LAD_ERR. -/
def REG_LAD_ERR (n : Nat) : Nat := 0x4028008C + 0x10000 * n
def LAD_ERR_ORDER (n : Nat) : Loc := ⟨(REG_LAD_ERR n), 0, 1⟩
def LAD_ERR_START_BAD (n : Nat) : Loc := ⟨(REG_LAD_ERR n), 1, 1⟩
def LAD_ERR_START_DUP (n : Nat) : Loc := ⟨(REG_LAD_ERR n), 2, 1⟩
def LAD_ERR_START_FULL (n : Nat) : Loc := ⟨(REG_LAD_ERR n), 3, 1⟩
def LAD_ERR_RAISE_BAD (n : Nat) : Loc := ⟨(REG_LAD_ERR n), 4, 1⟩

/-! ### spec/06_servo.md -/

/-- Address of SRV_CTRL. -/
def REG_SRV_CTRL (n : Nat) : Nat := 0x40300000 + 0x10000 * n
def SRV_CTRL_SLOT_EN0 (n : Nat) : Loc := ⟨(REG_SRV_CTRL n), 0, 1⟩
def SRV_CTRL_SLOT_EN1 (n : Nat) : Loc := ⟨(REG_SRV_CTRL n), 1, 1⟩
def SRV_CTRL_WSLOT (n : Nat) : Loc := ⟨(REG_SRV_CTRL n), 2, 1⟩

/-- Address of SRV_CFG. -/
def REG_SRV_CFG (n : Nat) : Nat := 0x40300004 + 0x10000 * n
def SRV_CFG_LEAD (n : Nat) : Loc := ⟨(REG_SRV_CFG n), 0, 1⟩
def SRV_CFG_SREADER (n : Nat) : Loc := ⟨(REG_SRV_CFG n), 1, 2⟩
def SRV_CFG_SAM_TH (n : Nat) : Loc := ⟨(REG_SRV_CFG n), 3, 2⟩
def SRV_CFG_NWEDGE (n : Nat) : Loc := ⟨(REG_SRV_CFG n), 16, 11⟩

/-- Address of SRV_TIMING. -/
def REG_SRV_TIMING (n : Nat) : Nat := 0x40300008 + 0x10000 * n
def SRV_TIMING_GATE_LEAD (n : Nat) : Loc := ⟨(REG_SRV_TIMING n), 0, 6⟩
def SRV_TIMING_DSTART (n : Nat) : Loc := ⟨(REG_SRV_TIMING n), 8, 8⟩

/-- Address of SRV_TEST. -/
def REG_SRV_TEST (n : Nat) : Nat := 0x4030000C + 0x10000 * n
def SRV_TEST_TEST (n : Nat) : Loc := ⟨(REG_SRV_TEST n), 0, 24⟩

/-- Address of SRV_LIMIT. -/
def REG_SRV_LIMIT (n : Nat) : Nat := 0x40300010 + 0x10000 * n
def SRV_LIMIT_WU_PES (n : Nat) : Loc := ⟨(REG_SRV_LIMIT n), 0, 12⟩
def SRV_LIMIT_WU_DELTA (n : Nat) : Loc := ⟨(REG_SRV_LIMIT n), 12, 12⟩
def SRV_LIMIT_MISS_MAX (n : Nat) : Loc := ⟨(REG_SRV_LIMIT n), 24, 4⟩

/-- Address of SRV_SETTLE. -/
def REG_SRV_SETTLE (n : Nat) : Nat := 0x40300014 + 0x10000 * n
def SRV_SETTLE_WIN (n : Nat) : Loc := ⟨(REG_SRV_SETTLE n), 0, 12⟩
def SRV_SETTLE_COUNT (n : Nat) : Loc := ⟨(REG_SRV_SETTLE n), 12, 4⟩
def SRV_SETTLE_HOLD (n : Nat) : Loc := ⟨(REG_SRV_SETTLE n), 16, 12⟩

/-- Address of SRV_TARGET. -/
def REG_SRV_TARGET (n k : Nat) : Nat := 0x40300020 + 0x10000 * n + 0x4 * k
def SRV_TARGET_TARGET (n k : Nat) : Loc := ⟨(REG_SRV_TARGET n k), 0, 32⟩

/-- Address of SRV_ROFS. -/
def REG_SRV_ROFS (n k : Nat) : Nat := 0x40300028 + 0x10000 * n + 0x4 * k
def SRV_ROFS_XOFS (n k : Nat) : Loc := ⟨(REG_SRV_ROFS n k), 0, 16⟩
def SRV_ROFS_YOFS (n k : Nat) : Loc := ⟨(REG_SRV_ROFS n k), 16, 16⟩

/-- Address of SRV_PES. -/
def REG_SRV_PES (n k : Nat) : Nat := 0x40300030 + 0x10000 * n + 0x4 * k
def SRV_PES_PES (n k : Nat) : Loc := ⟨(REG_SRV_PES n k), 0, 16⟩
def SRV_PES_SEQ (n k : Nat) : Loc := ⟨(REG_SRV_PES n k), 16, 8⟩
def SRV_PES_VALID (n k : Nat) : Loc := ⟨(REG_SRV_PES n k), 24, 1⟩
def SRV_PES_SRC (n k : Nat) : Loc := ⟨(REG_SRV_PES n k), 25, 2⟩

/-- Address of SRV_POS. -/
def REG_SRV_POS (n k : Nat) : Nat := 0x40300038 + 0x10000 * n + 0x4 * k
def SRV_POS_POS (n k : Nat) : Loc := ⟨(REG_SRV_POS n k), 0, 32⟩

/-- Address of SRV_OUT_VCM. -/
def REG_SRV_OUT_VCM (n : Nat) : Nat := 0x40300040 + 0x10000 * n
def SRV_OUT_VCM_CUR (n : Nat) : Loc := ⟨(REG_SRV_OUT_VCM n), 0, 16⟩

/-- Address of SRV_OUT_MA. -/
def REG_SRV_OUT_MA (n k : Nat) : Nat := 0x40300044 + 0x10000 * n + 0x4 * k
def SRV_OUT_MA_VOLT (n k : Nat) : Loc := ⟨(REG_SRV_OUT_MA n k), 0, 16⟩

/-- Address of SRV_POST. -/
def REG_SRV_POST (n : Nat) : Nat := 0x4030004C + 0x10000 * n
def SRV_POST_SEQ (n : Nat) : Loc := ⟨(REG_SRV_POST n), 0, 8⟩
def SRV_POST_WPERMIT (n : Nat) : Loc := ⟨(REG_SRV_POST n), 8, 1⟩

/-- Address of SRV_MALIM. -/
def REG_SRV_MALIM (n : Nat) : Nat := 0x40300050 + 0x10000 * n
def SRV_MALIM_LIM0 (n : Nat) : Loc := ⟨(REG_SRV_MALIM n), 0, 15⟩
def SRV_MALIM_LIM1 (n : Nat) : Loc := ⟨(REG_SRV_MALIM n), 16, 15⟩

/-- Address of SRV_RRO_LOAD. -/
def REG_SRV_RRO_LOAD (n k : Nat) : Nat := 0x40300058 + 0x10000 * n + 0x4 * k
def SRV_RRO_LOAD_ADDR (n k : Nat) : Loc := ⟨(REG_SRV_RRO_LOAD n k), 0, 30⟩

/-- Address of SRV_STAT. -/
def REG_SRV_STAT (n : Nat) : Nat := 0x40300060 + 0x10000 * n
def SRV_STAT_WSAFE (n : Nat) : Loc := ⟨(REG_SRV_STAT n), 0, 1⟩
def SRV_STAT_LOCK (n : Nat) : Loc := ⟨(REG_SRV_STAT n), 1, 2⟩
def SRV_STAT_TRK_CONF (n : Nat) : Loc := ⟨(REG_SRV_STAT n), 3, 2⟩
def SRV_STAT_ONTRACK (n : Nat) : Loc := ⟨(REG_SRV_STAT n), 5, 2⟩
def SRV_STAT_RRO_VALID (n : Nat) : Loc := ⟨(REG_SRV_STAT n), 7, 2⟩
def SRV_STAT_MA_CLAMP (n : Nat) : Loc := ⟨(REG_SRV_STAT n), 9, 2⟩
def SRV_STAT_OVR_RUN (n : Nat) : Loc := ⟨(REG_SRV_STAT n), 11, 2⟩
def SRV_STAT_WEDGE (n : Nat) : Loc := ⟨(REG_SRV_STAT n), 16, 10⟩

/-- Address of SRV_FAULT. -/
def REG_SRV_FAULT (n : Nat) : Nat := 0x40300064 + 0x10000 * n
def SRV_FAULT_OVR (n : Nat) : Loc := ⟨(REG_SRV_FAULT n), 0, 1⟩
def SRV_FAULT_LOCK (n : Nat) : Loc := ⟨(REG_SRV_FAULT n), 1, 1⟩
def SRV_FAULT_RUNAWAY (n : Nat) : Loc := ⟨(REG_SRV_FAULT n), 2, 1⟩
def SRV_FAULT_DRV (n : Nat) : Loc := ⟨(REG_SRV_FAULT n), 3, 1⟩

/-- Address of SRV_ERR. -/
def REG_SRV_ERR (n : Nat) : Nat := 0x40300068 + 0x10000 * n
def SRV_ERR_SEQ (n : Nat) : Loc := ⟨(REG_SRV_ERR n), 0, 1⟩
def SRV_ERR_DUP (n : Nat) : Loc := ⟨(REG_SRV_ERR n), 1, 1⟩
def SRV_ERR_LATE (n : Nat) : Loc := ⟨(REG_SRV_ERR n), 2, 1⟩
def SRV_ERR_FAULTED (n : Nat) : Loc := ⟨(REG_SRV_ERR n), 3, 1⟩
def SRV_ERR_LEAD (n : Nat) : Loc := ⟨(REG_SRV_ERR n), 4, 1⟩

/-- Address of SRV_CNT. -/
def REG_SRV_CNT (n : Nat) : Nat := 0x4030006C + 0x10000 * n
def SRV_CNT_OVR (n : Nat) : Loc := ⟨(REG_SRV_CNT n), 0, 16⟩
def SRV_CNT_MISS (n : Nat) : Loc := ⟨(REG_SRV_CNT n), 16, 16⟩

/-- Address of PRG_CMD. -/
def REG_PRG_CMD (n : Nat) : Nat := 0x40340000 + 0x40 * n
def PRG_CMD_START (n : Nat) : Loc := ⟨(REG_PRG_CMD n), 0, 1⟩
def PRG_CMD_ABORT (n : Nat) : Loc := ⟨(REG_PRG_CMD n), 1, 1⟩

/-- Address of PRG_TGT. -/
def REG_PRG_TGT (n : Nat) : Nat := 0x40340004 + 0x40 * n
def PRG_TGT_TARGET (n : Nat) : Loc := ⟨(REG_PRG_TGT n), 0, 32⟩

/-- Address of PRG_VMAX. -/
def REG_PRG_VMAX (n : Nat) : Nat := 0x40340008 + 0x40 * n
def PRG_VMAX_LIMIT (n : Nat) : Loc := ⟨(REG_PRG_VMAX n), 0, 32⟩

/-- Address of PRG_AMAX. -/
def REG_PRG_AMAX (n : Nat) : Nat := 0x4034000C + 0x40 * n
def PRG_AMAX_LIMIT (n : Nat) : Loc := ⟨(REG_PRG_AMAX n), 0, 32⟩

/-- Address of PRG_JMAX. -/
def REG_PRG_JMAX (n : Nat) : Nat := 0x40340010 + 0x40 * n
def PRG_JMAX_LIMIT (n : Nat) : Loc := ⟨(REG_PRG_JMAX n), 0, 32⟩

/-- Address of PRG_MAXTRK. -/
def REG_PRG_MAXTRK (n : Nat) : Nat := 0x40340014 + 0x40 * n
def PRG_MAXTRK_MAXTRK (n : Nat) : Loc := ⟨(REG_PRG_MAXTRK n), 0, 20⟩

/-- Address of PRG_STAT. -/
def REG_PRG_STAT (n : Nat) : Nat := 0x40340018 + 0x40 * n
def PRG_STAT_STATE (n : Nat) : Loc := ⟨(REG_PRG_STAT n), 0, 3⟩
def PRG_STAT_PENDING (n : Nat) : Loc := ⟨(REG_PRG_STAT n), 3, 1⟩
def PRG_STAT_ERR (n : Nat) : Loc := ⟨(REG_PRG_STAT n), 4, 2⟩
def PRG_STAT_LEFT (n : Nat) : Loc := ⟨(REG_PRG_STAT n), 16, 12⟩

/-- Address of PRG_REFP. -/
def REG_PRG_REFP (n : Nat) : Nat := 0x4034001C + 0x40 * n
def PRG_REFP_REF (n : Nat) : Loc := ⟨(REG_PRG_REFP n), 0, 32⟩

/-- Address of PRG_REFV. -/
def REG_PRG_REFV (n : Nat) : Nat := 0x40340020 + 0x40 * n
def PRG_REFV_REF (n : Nat) : Loc := ⟨(REG_PRG_REFV n), 0, 32⟩

/-- Address of PRG_REFA. -/
def REG_PRG_REFA (n : Nat) : Nat := 0x40340024 + 0x40 * n
def PRG_REFA_REF (n : Nat) : Loc := ⟨(REG_PRG_REFA n), 0, 32⟩

/-! ### spec/07_quadrille_and_actuators.md -/

/-- Address of QDR_CTRL. -/
def REG_QDR_CTRL : Nat := 0x40350000
def QDR_CTRL_EN : Loc := ⟨REG_QDR_CTRL, 0, 1⟩
def QDR_CTRL_BANK : Loc := ⟨REG_QDR_CTRL, 1, 1⟩
def QDR_CTRL_LIM : Loc := ⟨REG_QDR_CTRL, 16, 15⟩

/-- Address of QDR_STAT. -/
def REG_QDR_STAT : Nat := 0x40350004
def QDR_STAT_SWITCHED : Loc := ⟨REG_QDR_STAT, 0, 4⟩

/-- Address of QDR_COEF. -/
def REG_QDR_COEF : Nat := 0x40350008
def QDR_COEF_DATA : Loc := ⟨REG_QDR_COEF, 0, 16⟩
def QDR_COEF_ADDR : Loc := ⟨REG_QDR_COEF, 16, 8⟩

/-- Address of QDR_TORQ. -/
def REG_QDR_TORQ : Nat := 0x4035000C
def QDR_TORQ_BUDGET : Loc := ⟨REG_QDR_TORQ, 0, 14⟩
def QDR_TORQ_TOTAL : Loc := ⟨REG_QDR_TORQ, 16, 14⟩

/-- Address of QDR_ADMIT. -/
def REG_QDR_ADMIT : Nat := 0x40350010
def QDR_ADMIT_WAIT : Loc := ⟨REG_QDR_ADMIT, 0, 4⟩
def QDR_ADMIT_OLDEST : Loc := ⟨REG_QDR_ADMIT, 4, 2⟩

/-- Address of QDR_KACC. -/
def REG_QDR_KACC (k : Nat) : Nat := 0x40350020 + 0x4 * k
def QDR_KACC_KACC (k : Nat) : Loc := ⟨(REG_QDR_KACC k), 0, 16⟩
def QDR_KACC_EST (k : Nat) : Loc := ⟨(REG_QDR_KACC k), 16, 16⟩

/-- Address of QDR_OUT. -/
def REG_QDR_OUT (k : Nat) : Nat := 0x40350030 + 0x4 * k
def QDR_OUT_OUT (k : Nat) : Loc := ⟨(REG_QDR_OUT k), 0, 16⟩
def QDR_OUT_SAT (k : Nat) : Loc := ⟨(REG_QDR_OUT k), 16, 1⟩

/-- Address of QDR_PHASE. -/
def REG_QDR_PHASE (k : Nat) : Nat := 0x40350040 + 0x4 * k
def QDR_PHASE_PHASE (k : Nat) : Loc := ⟨(REG_QDR_PHASE k), 0, 17⟩
def QDR_PHASE_VALID (k : Nat) : Loc := ⟨(REG_QDR_PHASE k), 31, 1⟩

/-- Address of QDR_ACT. -/
def REG_QDR_ACT (k : Nat) : Nat := 0x40350050 + 0x4 * k
def QDR_ACT_RO (k : Nat) : Loc := ⟨(REG_QDR_ACT k), 0, 1⟩
def QDR_ACT_QUAL (k : Nat) : Loc := ⟨(REG_QDR_ACT k), 1, 1⟩
def QDR_ACT_DEPOP (k : Nat) : Loc := ⟨(REG_QDR_ACT k), 2, 1⟩
def QDR_ACT_PARKED (k : Nat) : Loc := ⟨(REG_QDR_ACT k), 3, 1⟩
def QDR_ACT_STATE (k : Nat) : Loc := ⟨(REG_QDR_ACT k), 4, 2⟩
def QDR_ACT_HEAD_DEPOP (k : Nat) : Loc := ⟨(REG_QDR_ACT k), 6, 6⟩
def QDR_ACT_TDG (k : Nat) : Loc := ⟨(REG_QDR_ACT k), 16, 16⟩

/-- Address of QDR_ERR. -/
def REG_QDR_ERR : Nat := 0x40350060
def QDR_ERR_COEF_IGN : Loc := ⟨REG_QDR_ERR, 0, 1⟩
def QDR_ERR_QUAL : Loc := ⟨REG_QDR_ERR, 1, 1⟩
def QDR_ERR_DEPOP : Loc := ⟨REG_QDR_ERR, 2, 1⟩

/-- Address of HSQ_CTRL. -/
def REG_HSQ_CTRL (n : Nat) : Nat := 0x40360000 + 0x10000 * n
def HSQ_CTRL_EN (n : Nat) : Loc := ⟨(REG_HSQ_CTRL n), 0, 1⟩

/-- Address of HSQ_WGCFG. -/
def REG_HSQ_WGCFG (n : Nat) : Nat := 0x40360004 + 0x10000 * n
def HSQ_WGCFG_LEAD (n : Nat) : Loc := ⟨(REG_HSQ_WGCFG n), 0, 8⟩

/-- Address of HSQ_HSW. -/
def REG_HSQ_HSW (n : Nat) : Nat := 0x40360008 + 0x10000 * n
def HSQ_HSW_SETTLE (n : Nat) : Loc := ⟨(REG_HSQ_HSW n), 0, 16⟩

/-- Address of HSQ_SEL. -/
def REG_HSQ_SEL (n k : Nat) : Nat := 0x40360010 + 0x10000 * n + 0x4 * k
def HSQ_SEL_HEAD (n k : Nat) : Loc := ⟨(REG_HSQ_SEL n k), 0, 3⟩
def HSQ_SEL_VALID (n k : Nat) : Loc := ⟨(REG_HSQ_SEL n k), 3, 1⟩
def HSQ_SEL_GATE (n k : Nat) : Loc := ⟨(REG_HSQ_SEL n k), 4, 1⟩

/-- Address of HSQ_FAULT. -/
def REG_HSQ_FAULT (n : Nat) : Nat := 0x40360018 + 0x10000 * n
def HSQ_FAULT_PIN (n : Nat) : Loc := ⟨(REG_HSQ_FAULT n), 0, 1⟩
def HSQ_FAULT_LATCH (n : Nat) : Loc := ⟨(REG_HSQ_FAULT n), 1, 1⟩
def HSQ_FAULT_COUNT (n : Nat) : Loc := ⟨(REG_HSQ_FAULT n), 16, 16⟩

/-- Address of HSQ_ERR. -/
def REG_HSQ_ERR (n : Nat) : Nat := 0x4036001C + 0x10000 * n
def HSQ_ERR_GATE_REFUSED (n : Nat) : Loc := ⟨(REG_HSQ_ERR n), 0, 1⟩
def HSQ_ERR_DEPOP_SEL (n : Nat) : Loc := ⟨(REG_HSQ_ERR n), 1, 1⟩
def HSQ_ERR_LEAD_SEL (n : Nat) : Loc := ⟨(REG_HSQ_ERR n), 2, 1⟩

/-! ### spec/08_motor_and_power_stage.md -/

/-- Address of SPN_CTRL. -/
def REG_SPN_CTRL : Nat := 0x40400000
def SPN_CTRL_EN : Loc := ⟨REG_SPN_CTRL, 0, 1⟩
def SPN_CTRL_BRAKE : Loc := ⟨REG_SPN_CTRL, 1, 2⟩
def SPN_CTRL_KE_CHECK : Loc := ⟨REG_SPN_CTRL, 3, 1⟩

/-- Address of SPN_STAT. -/
def REG_SPN_STAT : Nat := 0x40400004
def SPN_STAT_STATE : Loc := ⟨REG_SPN_STAT, 0, 4⟩
def SPN_STAT_INHIBIT : Loc := ⟨REG_SPN_STAT, 4, 1⟩
def SPN_STAT_WAIT_PARK : Loc := ⟨REG_SPN_STAT, 5, 1⟩
def SPN_STAT_WAIT_ACK : Loc := ⟨REG_SPN_STAT, 6, 1⟩
def SPN_STAT_ATTEMPT : Loc := ⟨REG_SPN_STAT, 8, 2⟩
def SPN_STAT_CONF : Loc := ⟨REG_SPN_STAT, 10, 6⟩

/-- Address of SPN_SPEED. -/
def REG_SPN_SPEED : Nat := 0x40400008
def SPN_SPEED_SPEED : Loc := ⟨REG_SPN_SPEED, 0, 18⟩
def SPN_SPEED_VALID : Loc := ⟨REG_SPN_SPEED, 31, 1⟩

/-- Address of SPN_TARGET. -/
def REG_SPN_TARGET : Nat := 0x4040000C
def SPN_TARGET_TARGET : Loc := ⟨REG_SPN_TARGET, 0, 18⟩

/-- Address of SPN_DEMAND. -/
def REG_SPN_DEMAND : Nat := 0x40400010
def SPN_DEMAND_LEVEL : Loc := ⟨REG_SPN_DEMAND, 0, 8⟩

/-- Address of SPN_CURVE_CFG. -/
def REG_SPN_CURVE_CFG : Nat := 0x40400014
def SPN_CURVE_CFG_L_ON : Loc := ⟨REG_SPN_CURVE_CFG, 0, 8⟩
def SPN_CURVE_CFG_L_OFF : Loc := ⟨REG_SPN_CURVE_CFG, 8, 8⟩
def SPN_CURVE_CFG_SLEW : Loc := ⟨REG_SPN_CURVE_CFG, 16, 12⟩

/-- Address of SPN_MOTOR. -/
def REG_SPN_MOTOR : Nat := 0x40400018
def SPN_MOTOR_PP : Loc := ⟨REG_SPN_MOTOR, 0, 4⟩
def SPN_MOTOR_RPH : Loc := ⟨REG_SPN_MOTOR, 8, 12⟩
def SPN_MOTOR_LPH : Loc := ⟨REG_SPN_MOTOR, 20, 12⟩

/-- Address of SPN_PROM. -/
def REG_SPN_PROM : Nat := 0x4040001C
def SPN_PROM_ALIGN_MS : Loc := ⟨REG_SPN_PROM, 0, 10⟩
def SPN_PROM_RAMP_RATE : Loc := ⟨REG_SPN_PROM, 12, 10⟩
def SPN_PROM_HAND_RPM : Loc := ⟨REG_SPN_PROM, 22, 10⟩

/-- Address of SPN_ILIM. -/
def REG_SPN_ILIM : Nat := 0x40400020
def SPN_ILIM_START : Loc := ⟨REG_SPN_ILIM, 0, 12⟩
def SPN_ILIM_RUN : Loc := ⟨REG_SPN_ILIM, 12, 12⟩

/-- Address of SPN_IBAND. -/
def REG_SPN_IBAND : Nat := 0x40400024
def SPN_IBAND_BAND : Loc := ⟨REG_SPN_IBAND, 0, 6⟩
def SPN_IBAND_BLANK : Loc := ⟨REG_SPN_IBAND, 8, 6⟩
def SPN_IBAND_ADV : Loc := ⟨REG_SPN_IBAND, 16, 6⟩

/-- Address of SPN_KE. -/
def REG_SPN_KE : Nat := 0x40400028
def SPN_KE_NOM : Loc := ⟨REG_SPN_KE, 0, 16⟩
def SPN_KE_MEAS : Loc := ⟨REG_SPN_KE, 16, 16⟩

/-- Address of SPN_INH. -/
def REG_SPN_INH : Nat := 0x4040002C
def SPN_INH_BAND : Loc := ⟨REG_SPN_INH, 0, 8⟩
def SPN_INH_REVS : Loc := ⟨REG_SPN_INH, 8, 4⟩

/-- Address of SPN_OBS. -/
def REG_SPN_OBS : Nat := 0x40400030
def SPN_OBS_ANGLE : Loc := ⟨REG_SPN_OBS, 0, 12⟩
def SPN_OBS_PASS : Loc := ⟨REG_SPN_OBS, 16, 4⟩

/-- Address of SPN_RAIL. -/
def REG_SPN_RAIL : Nat := 0x40400034
def SPN_RAIL_V12 : Loc := ⟨REG_SPN_RAIL, 0, 10⟩
def SPN_RAIL_LEVEL : Loc := ⟨REG_SPN_RAIL, 12, 3⟩

/-- Address of SPN_BRK. -/
def REG_SPN_BRK : Nat := 0x40400038
def SPN_BRK_ON : Loc := ⟨REG_SPN_BRK, 0, 1⟩
def SPN_BRK_FAULT : Loc := ⟨REG_SPN_BRK, 1, 1⟩
def SPN_BRK_ACK : Loc := ⟨REG_SPN_BRK, 2, 1⟩
def SPN_BRK_CAUSE : Loc := ⟨REG_SPN_BRK, 4, 2⟩
def SPN_BRK_RBRK : Loc := ⟨REG_SPN_BRK, 16, 12⟩

/-- Address of SPN_FAULT. -/
def REG_SPN_FAULT : Nat := 0x4040003C
def SPN_FAULT_SPIN_FAIL : Loc := ⟨REG_SPN_FAULT, 0, 1⟩
def SPN_FAULT_KE : Loc := ⟨REG_SPN_FAULT, 1, 1⟩

/-- Address of SPN_ERR. -/
def REG_SPN_ERR : Nat := 0x40400040
def SPN_ERR_CURVE : Loc := ⟨REG_SPN_ERR, 0, 1⟩

/-- Address of SPN_CNT. -/
def REG_SPN_CNT : Nat := 0x40400044
def SPN_CNT_LOSS : Loc := ⟨REG_SPN_CNT, 0, 16⟩
def SPN_CNT_CATCH_FAIL : Loc := ⟨REG_SPN_CNT, 16, 16⟩

/-- Address of SPN_CURVE. -/
def REG_SPN_CURVE (k : Nat) : Nat := 0x40400080 + 0x4 * k
def SPN_CURVE_LEVEL (k : Nat) : Loc := ⟨(REG_SPN_CURVE k), 0, 8⟩
def SPN_CURVE_RPM (k : Nat) : Loc := ⟨(REG_SPN_CURVE k), 16, 14⟩

/-- Address of VCM_CTRL. -/
def REG_VCM_CTRL (n : Nat) : Nat := 0x40410000 + 0x40 * n
def VCM_CTRL_BAND (n : Nat) : Loc := ⟨(REG_VCM_CTRL n), 0, 7⟩
def VCM_CTRL_BLANK (n : Nat) : Loc := ⟨(REG_VCM_CTRL n), 8, 6⟩
def VCM_CTRL_RET_DIR (n : Nat) : Loc := ⟨(REG_VCM_CTRL n), 16, 1⟩

/-- Address of VCM_LIM. -/
def REG_VCM_LIM (n : Nat) : Nat := 0x40410004 + 0x40 * n
def VCM_LIM_PEAK (n : Nat) : Loc := ⟨(REG_VCM_LIM n), 0, 12⟩
def VCM_LIM_CONT (n : Nat) : Loc := ⟨(REG_VCM_LIM n), 12, 12⟩

/-- Address of VCM_CMD. -/
def REG_VCM_CMD (n : Nat) : Nat := 0x40410008 + 0x40 * n
def VCM_CMD_LOAD (n : Nat) : Loc := ⟨(REG_VCM_CMD n), 0, 1⟩
def VCM_CMD_UNLOAD (n : Nat) : Loc := ⟨(REG_VCM_CMD n), 1, 1⟩

/-- Address of VCM_STAT. -/
def REG_VCM_STAT (n : Nat) : Nat := 0x4041000C + 0x40 * n
def VCM_STAT_MODE (n : Nat) : Loc := ⟨(REG_VCM_STAT n), 0, 2⟩
def VCM_STAT_PARKED (n : Nat) : Loc := ⟨(REG_VCM_STAT n), 2, 1⟩
def VCM_STAT_CLIP_PEAK (n : Nat) : Loc := ⟨(REG_VCM_STAT n), 8, 1⟩
def VCM_STAT_CLIP_CONT (n : Nat) : Loc := ⟨(REG_VCM_STAT n), 9, 1⟩
def VCM_STAT_CLIP_SUM (n : Nat) : Loc := ⟨(REG_VCM_STAT n), 10, 1⟩
def VCM_STAT_CLIP_OV (n : Nat) : Loc := ⟨(REG_VCM_STAT n), 11, 1⟩
def VCM_STAT_CUR (n : Nat) : Loc := ⟨(REG_VCM_STAT n), 16, 16⟩

/-- Address of VCM_RCOIL. -/
def REG_VCM_RCOIL (n : Nat) : Nat := 0x40410010 + 0x40 * n
def VCM_RCOIL_RCOIL (n : Nat) : Loc := ⟨(REG_VCM_RCOIL n), 0, 16⟩

/-- Address of VCM_FAULT. -/
def REG_VCM_FAULT (n : Nat) : Nat := 0x40410014 + 0x40 * n
def VCM_FAULT_OC (n : Nat) : Loc := ⟨(REG_VCM_FAULT n), 0, 1⟩
def VCM_FAULT_OPEN (n : Nat) : Loc := ⟨(REG_VCM_FAULT n), 1, 1⟩
def VCM_FAULT_MA0 (n : Nat) : Loc := ⟨(REG_VCM_FAULT n), 2, 1⟩
def VCM_FAULT_MA1 (n : Nat) : Loc := ⟨(REG_VCM_FAULT n), 3, 1⟩
def VCM_FAULT_OT (n : Nat) : Loc := ⟨(REG_VCM_FAULT n), 4, 1⟩
def VCM_FAULT_RET_TO (n : Nat) : Loc := ⟨(REG_VCM_FAULT n), 5, 1⟩
def VCM_FAULT_LOAD_TO (n : Nat) : Loc := ⟨(REG_VCM_FAULT n), 6, 1⟩

/-- Address of VCM_MA. -/
def REG_VCM_MA (n : Nat) : Nat := 0x40410018 + 0x40 * n
def VCM_MA_LIM0 (n : Nat) : Loc := ⟨(REG_VCM_MA n), 0, 1⟩
def VCM_MA_LIM1 (n : Nat) : Loc := ⟨(REG_VCM_MA n), 1, 1⟩

/-- Address of VCM_RET0. -/
def REG_VCM_RET0 : Nat := 0x40410100
def VCM_RET0_VEL_MV : Loc := ⟨REG_VCM_RET0, 0, 10⟩
def VCM_RET0_RET_I : Loc := ⟨REG_VCM_RET0, 16, 10⟩

/-- Address of VCM_RET1. -/
def REG_VCM_RET1 : Nat := 0x40410104
def VCM_RET1_CLIMB_I : Loc := ⟨REG_VCM_RET1, 0, 10⟩
def VCM_RET1_PARK_I : Loc := ⟨REG_VCM_RET1, 16, 10⟩
def VCM_RET1_MINRPM : Loc := ⟨REG_VCM_RET1, 26, 6⟩

/-- Address of VCM_TEMP. -/
def REG_VCM_TEMP : Nat := 0x40410108
def VCM_TEMP_TEMP : Loc := ⟨REG_VCM_TEMP, 0, 8⟩
def VCM_TEMP_WARN : Loc := ⟨REG_VCM_TEMP, 8, 1⟩

/-- Address of VCM_ERR. -/
def REG_VCM_ERR : Nat := 0x4041010C
def VCM_ERR_LOAD : Loc := ⟨REG_VCM_ERR, 0, 4⟩

/-! ### spec/09_buffer_cache_pools.md -/

/-- Address of BUF_CTRL. -/
def REG_BUF_CTRL : Nat := 0x40070000
def BUF_CTRL_INIT_MODE : Loc := ⟨REG_BUF_CTRL, 0, 1⟩

/-- Address of BUF_STAT. -/
def REG_BUF_STAT : Nat := 0x40070004
def BUF_STAT_INIT : Loc := ⟨REG_BUF_STAT, 0, 2⟩

/-- Address of BUF_ERR. -/
def REG_BUF_ERR : Nat := 0x40070008
def BUF_ERR_CHECK : Loc := ⟨REG_BUF_ERR, 0, 1⟩
def BUF_ERR_RANGE : Loc := ⟨REG_BUF_ERR, 1, 1⟩
def BUF_ERR_INIT_ACCESS : Loc := ⟨REG_BUF_ERR, 2, 1⟩
def BUF_ERR_POISON : Loc := ⟨REG_BUF_ERR, 3, 1⟩

/-- Address of BUF_FIRST. -/
def REG_BUF_FIRST : Nat := 0x4007000C
def BUF_FIRST_VALID : Loc := ⟨REG_BUF_FIRST, 0, 1⟩
def BUF_FIRST_ADDR : Loc := ⟨REG_BUF_FIRST, 1, 31⟩

/-- Address of BUF_CNT. -/
def REG_BUF_CNT : Nat := 0x40070010
def BUF_CNT_CHECK : Loc := ⟨REG_BUF_CNT, 0, 32⟩

/-- Address of POOL_CFG. -/
def REG_POOL_CFG (n : Nat) : Nat := 0x40080000 + 0x40 * n
def POOL_CFG_EN (n : Nat) : Loc := ⟨(REG_POOL_CFG n), 0, 1⟩
def POOL_CFG_INIT_BUSY (n : Nat) : Loc := ⟨(REG_POOL_CFG n), 1, 1⟩
def POOL_CFG_COUNT (n : Nat) : Loc := ⟨(REG_POOL_CFG n), 11, 21⟩

/-- Address of POOL_BUFBASE. -/
def REG_POOL_BUFBASE (n : Nat) : Nat := 0x40080004 + 0x40 * n
def POOL_BUFBASE_ADDR (n : Nat) : Loc := ⟨(REG_POOL_BUFBASE n), 0, 32⟩

/-- Address of POOL_TAILBASE. -/
def REG_POOL_TAILBASE (n : Nat) : Nat := 0x40080008 + 0x40 * n
def POOL_TAILBASE_ADDR (n : Nat) : Loc := ⟨(REG_POOL_TAILBASE n), 0, 32⟩

/-- Address of POOL_RINGBASE. -/
def REG_POOL_RINGBASE (n : Nat) : Nat := 0x4008000C + 0x40 * n
def POOL_RINGBASE_ADDR (n : Nat) : Loc := ⟨(REG_POOL_RINGBASE n), 0, 32⟩

/-- Address of POOL_STBASE. -/
def REG_POOL_STBASE (n : Nat) : Nat := 0x40080010 + 0x40 * n
def POOL_STBASE_ADDR (n : Nat) : Loc := ⟨(REG_POOL_STBASE n), 0, 32⟩

/-- Address of POOL_THR. -/
def REG_POOL_THR (n : Nat) : Nat := 0x40080014 + 0x40 * n
def POOL_THR_RESV (n : Nat) : Loc := ⟨(REG_POOL_THR n), 0, 16⟩
def POOL_THR_LOW (n : Nat) : Loc := ⟨(REG_POOL_THR n), 16, 16⟩

/-- Address of POOL_STAT. -/
def REG_POOL_STAT (n : Nat) : Nat := 0x40080018 + 0x40 * n
def POOL_STAT_FREE (n : Nat) : Loc := ⟨(REG_POOL_STAT n), 0, 21⟩
def POOL_STAT_CACHED (n : Nat) : Loc := ⟨(REG_POOL_STAT n), 21, 10⟩
def POOL_STAT_WAITING (n : Nat) : Loc := ⟨(REG_POOL_STAT n), 31, 1⟩

/-- Address of POOL_RETSTAT. -/
def REG_POOL_RETSTAT (n : Nat) : Nat := 0x4008001C + 0x40 * n
def POOL_RETSTAT_RETIRED (n : Nat) : Loc := ⟨(REG_POOL_RETSTAT n), 0, 21⟩

/-- Address of POOL_MB. -/
def REG_POOL_MB (k : Nat) : Nat := 0x40080200 + 0x8 * k
def POOL_MB_RESULT (k : Nat) : Loc := ⟨(REG_POOL_MB k), 0, 27⟩
def POOL_MB_POOL (k : Nat) : Loc := ⟨(REG_POOL_MB k), 27, 3⟩
def POOL_MB_PRIO (k : Nat) : Loc := ⟨(REG_POOL_MB k), 30, 2⟩

/-- Address of POOL_MBSTAT. -/
def REG_POOL_MBSTAT (k : Nat) : Nat := 0x40080204 + 0x8 * k
def POOL_MBSTAT_K (k : Nat) : Loc := ⟨(REG_POOL_MBSTAT k), 0, 5⟩
def POOL_MBSTAT_BUSY (k : Nat) : Loc := ⟨(REG_POOL_MBSTAT k), 5, 1⟩
def POOL_MBSTAT_DONE (k : Nat) : Loc := ⟨(REG_POOL_MBSTAT k), 6, 1⟩
def POOL_MBSTAT_ERR (k : Nat) : Loc := ⟨(REG_POOL_MBSTAT k), 7, 1⟩

/-- Address of POOL_FREE. -/
def REG_POOL_FREE : Nat := 0x40080300
def POOL_FREE_HANDLE : Loc := ⟨REG_POOL_FREE, 0, 24⟩

/-- Address of POOL_RETIRE. -/
def REG_POOL_RETIRE : Nat := 0x40080304
def POOL_RETIRE_HANDLE : Loc := ⟨REG_POOL_RETIRE, 0, 24⟩

/-- Address of POOL_BANKRET0. -/
def REG_POOL_BANKRET0 : Nat := 0x40080308
def POOL_BANKRET0_BANKS : Loc := ⟨REG_POOL_BANKRET0, 0, 32⟩

/-- Address of POOL_BANKRET1. -/
def REG_POOL_BANKRET1 : Nat := 0x4008030C
def POOL_BANKRET1_BANKS : Loc := ⟨REG_POOL_BANKRET1, 0, 32⟩

/-- Address of POOL_ERR. -/
def REG_POOL_ERR : Nat := 0x40080310
def POOL_ERR_CFG : Loc := ⟨REG_POOL_ERR, 0, 1⟩
def POOL_ERR_BUSY : Loc := ⟨REG_POOL_ERR, 1, 1⟩
def POOL_ERR_MB_BUSY : Loc := ⟨REG_POOL_ERR, 2, 1⟩
def POOL_ERR_BAD_HANDLE : Loc := ⟨REG_POOL_ERR, 3, 1⟩
def POOL_ERR_DOUBLE_FREE : Loc := ⟨REG_POOL_ERR, 4, 1⟩
def POOL_ERR_RING : Loc := ⟨REG_POOL_ERR, 5, 1⟩
def POOL_ERR_RET_FULL : Loc := ⟨REG_POOL_ERR, 6, 1⟩

/-- Address of POOL_FIRST. -/
def REG_POOL_FIRST : Nat := 0x40080314
def POOL_FIRST_HANDLE : Loc := ⟨REG_POOL_FIRST, 0, 24⟩
def POOL_FIRST_VALID : Loc := ⟨REG_POOL_FIRST, 31, 1⟩

/-- Address of CCH_CTRL. -/
def REG_CCH_CTRL : Nat := 0x40060000
def CCH_CTRL_EN : Loc := ⟨REG_CCH_CTRL, 0, 1⟩

/-- Address of CCH_MOP_ADDR. -/
def REG_CCH_MOP_ADDR : Nat := 0x40060004
def CCH_MOP_ADDR_LINE : Loc := ⟨REG_CCH_MOP_ADDR, 0, 27⟩

/-- Address of CCH_MOP_LEN. -/
def REG_CCH_MOP_LEN : Nat := 0x40060008
def CCH_MOP_LEN_LINES : Loc := ⟨REG_CCH_MOP_LEN, 0, 27⟩

/-- Address of CCH_MOP_CMD. -/
def REG_CCH_MOP_CMD : Nat := 0x4006000C
def CCH_MOP_CMD_OP : Loc := ⟨REG_CCH_MOP_CMD, 0, 3⟩
def CCH_MOP_CMD_GO : Loc := ⟨REG_CCH_MOP_CMD, 3, 1⟩
def CCH_MOP_CMD_WAY : Loc := ⟨REG_CCH_MOP_CMD, 4, 4⟩
def CCH_MOP_CMD_SET : Loc := ⟨REG_CCH_MOP_CMD, 8, 15⟩

/-- Address of CCH_MOP_STAT. -/
def REG_CCH_MOP_STAT : Nat := 0x40060010
def CCH_MOP_STAT_BUSY : Loc := ⟨REG_CCH_MOP_STAT, 0, 1⟩

/-- Address of CCH_BKCFG. -/
def REG_CCH_BKCFG : Nat := 0x40060014
def CCH_BKCFG_CAP : Loc := ⟨REG_CCH_BKCFG, 0, 8⟩
def CCH_BKCFG_LEAK : Loc := ⟨REG_CCH_BKCFG, 16, 16⟩

/-- Address of CCH_BUCKET. -/
def REG_CCH_BUCKET (k : Nat) : Nat := 0x40060040 + 0x4 * k
def CCH_BUCKET_LEVEL (k : Nat) : Loc := ⟨(REG_CCH_BUCKET k), 0, 8⟩
def CCH_BUCKET_OVF (k : Nat) : Loc := ⟨(REG_CCH_BUCKET k), 8, 1⟩

/-- Address of CCH_ERR. -/
def REG_CCH_ERR : Nat := 0x40060080
def CCH_ERR_DED_DIRTY : Loc := ⟨REG_CCH_ERR, 0, 1⟩
def CCH_ERR_TAG_CLEAN : Loc := ⟨REG_CCH_ERR, 1, 1⟩
def CCH_ERR_TAG_DIRTY : Loc := ⟨REG_CCH_ERR, 2, 1⟩
def CCH_ERR_MOP_BUSY : Loc := ⟨REG_CCH_ERR, 3, 1⟩
def CCH_ERR_MOP_RANGE : Loc := ⟨REG_CCH_ERR, 4, 1⟩
def CCH_ERR_EN_BUSY : Loc := ⟨REG_CCH_ERR, 5, 1⟩

/-- Address of CCH_ERRLOC. -/
def REG_CCH_ERRLOC : Nat := 0x40060084
def CCH_ERRLOC_SET : Loc := ⟨REG_CCH_ERRLOC, 0, 15⟩
def CCH_ERRLOC_WAY : Loc := ⟨REG_CCH_ERRLOC, 15, 4⟩
def CCH_ERRLOC_VALID : Loc := ⟨REG_CCH_ERRLOC, 31, 1⟩

/-- Address of CCH_CNT. -/
def REG_CCH_CNT : Nat := 0x40060088
def CCH_CNT_SEC : Loc := ⟨REG_CCH_CNT, 0, 16⟩
def CCH_CNT_DED_CLEAN : Loc := ⟨REG_CCH_CNT, 16, 16⟩

/-- Address of CCH_MISS. -/
def REG_CCH_MISS : Nat := 0x4006008C
def CCH_MISS_BUSY : Loc := ⟨REG_CCH_MISS, 0, 7⟩
def CCH_MISS_FULL : Loc := ⟨REG_CCH_MISS, 16, 16⟩

/-- Address of SCB_START. -/
def REG_SCB_START : Nat := 0x40520000
def SCB_START_LINE : Loc := ⟨REG_SCB_START, 0, 27⟩

/-- Address of SCB_LEN. -/
def REG_SCB_LEN : Nat := 0x40520004
def SCB_LEN_LINES : Loc := ⟨REG_SCB_LEN, 0, 27⟩

/-- Address of SCB_SUMADDR. -/
def REG_SCB_SUMADDR : Nat := 0x40520008
def SCB_SUMADDR_ADDR : Loc := ⟨REG_SCB_SUMADDR, 0, 25⟩

/-- Address of SCB_CMD. -/
def REG_SCB_CMD : Nat := 0x4052000C
def SCB_CMD_GO : Loc := ⟨REG_SCB_CMD, 0, 1⟩
def SCB_CMD_ABORT : Loc := ⟨REG_SCB_CMD, 1, 1⟩

/-- Address of SCB_STAT. -/
def REG_SCB_STAT : Nat := 0x40520010
def SCB_STAT_BUSY : Loc := ⟨REG_SCB_STAT, 0, 1⟩
def SCB_STAT_ERR : Loc := ⟨REG_SCB_STAT, 1, 1⟩

/-- Address of SCB_PASS. -/
def REG_SCB_PASS : Nat := 0x40520014
def SCB_PASS_PASS : Loc := ⟨REG_SCB_PASS, 0, 32⟩

/-! ### spec/10_dma_engine.md -/

/-- Address of DMA_CTRL. -/
def REG_DMA_CTRL : Nat := 0x40090000
def DMA_CTRL_EN : Loc := ⟨REG_DMA_CTRL, 0, 1⟩
def DMA_CTRL_BLOCK0 : Loc := ⟨REG_DMA_CTRL, 1, 1⟩
def DMA_CTRL_BLOCK1 : Loc := ⟨REG_DMA_CTRL, 2, 1⟩

/-- Address of DMA_WEIGHT. -/
def REG_DMA_WEIGHT : Nat := 0x40090004
def DMA_WEIGHT_W0 : Loc := ⟨REG_DMA_WEIGHT, 0, 4⟩
def DMA_WEIGHT_W1 : Loc := ⟨REG_DMA_WEIGHT, 4, 4⟩
def DMA_WEIGHT_W2 : Loc := ⟨REG_DMA_WEIGHT, 8, 4⟩
def DMA_WEIGHT_W3 : Loc := ⟨REG_DMA_WEIGHT, 12, 4⟩

/-- Address of DMA_STAT. -/
def REG_DMA_STAT : Nat := 0x40090008
def DMA_STAT_ACTIVE : Loc := ⟨REG_DMA_STAT, 0, 16⟩
def DMA_STAT_HALTED : Loc := ⟨REG_DMA_STAT, 16, 16⟩

/-- Address of DMA_ERR. -/
def REG_DMA_ERR : Nat := 0x4009000C
def DMA_ERR_NOTOWN : Loc := ⟨REG_DMA_ERR, 0, 1⟩
def DMA_ERR_CTRL_IGN : Loc := ⟨REG_DMA_ERR, 1, 1⟩

/-- Address of DMA_RING_BASE. -/
def REG_DMA_RING_BASE (n : Nat) : Nat := 0x40090040 + 0x10 * n
def DMA_RING_BASE_ADDR (n : Nat) : Loc := ⟨(REG_DMA_RING_BASE n), 0, 27⟩

/-- Address of DMA_RING_CFG. -/
def REG_DMA_RING_CFG (n : Nat) : Nat := 0x40090044 + 0x10 * n
def DMA_RING_CFG_SIZE_LOG2 (n : Nat) : Loc := ⟨(REG_DMA_RING_CFG n), 0, 4⟩
def DMA_RING_CFG_CACHE (n : Nat) : Loc := ⟨(REG_DMA_RING_CFG n), 4, 1⟩

/-- Address of DMA_RING_TAIL. -/
def REG_DMA_RING_TAIL (n : Nat) : Nat := 0x40090048 + 0x10 * n
def DMA_RING_TAIL_TAIL (n : Nat) : Loc := ⟨(REG_DMA_RING_TAIL n), 0, 12⟩

/-- Address of DMA_RING_HEAD. -/
def REG_DMA_RING_HEAD (n : Nat) : Nat := 0x4009004C + 0x10 * n
def DMA_RING_HEAD_HEAD (n : Nat) : Loc := ⟨(REG_DMA_RING_HEAD n), 0, 12⟩

/-- Address of DMA_CH_CFG. -/
def REG_DMA_CH_CFG (n : Nat) : Nat := 0x40090100 + 0x20 * n
def DMA_CH_CFG_EN (n : Nat) : Loc := ⟨(REG_DMA_CH_CFG n), 0, 1⟩
def DMA_CH_CFG_PRIO (n : Nat) : Loc := ⟨(REG_DMA_CH_CFG n), 1, 2⟩

/-- Address of DMA_CH_CTRL. -/
def REG_DMA_CH_CTRL (n : Nat) : Nat := 0x40090104 + 0x20 * n
def DMA_CH_CTRL_ABORT (n : Nat) : Loc := ⟨(REG_DMA_CH_CTRL n), 0, 1⟩
def DMA_CH_CTRL_RETRY (n : Nat) : Loc := ⟨(REG_DMA_CH_CTRL n), 1, 1⟩

/-- Address of DMA_CH_STAT. -/
def REG_DMA_CH_STAT (n : Nat) : Nat := 0x40090108 + 0x20 * n
def DMA_CH_STAT_STATE (n : Nat) : Loc := ⟨(REG_DMA_CH_STAT n), 0, 3⟩
def DMA_CH_STAT_RING (n : Nat) : Loc := ⟨(REG_DMA_CH_STAT n), 3, 2⟩
def DMA_CH_STAT_SLOT (n : Nat) : Loc := ⟨(REG_DMA_CH_STAT n), 5, 12⟩

/-- Address of DMA_CH_HALT. -/
def REG_DMA_CH_HALT (n : Nat) : Nat := 0x4009010C + 0x20 * n
def DMA_CH_HALT_VALID (n : Nat) : Loc := ⟨(REG_DMA_CH_HALT n), 0, 1⟩
def DMA_CH_HALT_CAUSE (n : Nat) : Loc := ⟨(REG_DMA_CH_HALT n), 1, 3⟩
def DMA_CH_HALT_PORT (n : Nat) : Loc := ⟨(REG_DMA_CH_HALT n), 4, 1⟩

/-- Address of DMA_CH_ADDRLO. -/
def REG_DMA_CH_ADDRLO (n : Nat) : Nat := 0x40090110 + 0x20 * n
def DMA_CH_ADDRLO_ADDR (n : Nat) : Loc := ⟨(REG_DMA_CH_ADDRLO n), 0, 32⟩

/-- Address of DMA_CH_ADDRHI. -/
def REG_DMA_CH_ADDRHI (n : Nat) : Nat := 0x40090114 + 0x20 * n
def DMA_CH_ADDRHI_ADDR (n : Nat) : Loc := ⟨(REG_DMA_CH_ADDRHI n), 0, 32⟩

/-- Address of DMA_CH_MOVED. -/
def REG_DMA_CH_MOVED (n : Nat) : Nat := 0x40090118 + 0x20 * n
def DMA_CH_MOVED_MOVED (n : Nat) : Loc := ⟨(REG_DMA_CH_MOVED n), 0, 32⟩

/-! ### spec/11_host_link_and_queues.md -/

/-- Address of HIF_MODE. -/
def REG_HIF_MODE : Nat := 0x400A0000
def HIF_MODE_DUAL : Loc := ⟨REG_HIF_MODE, 0, 1⟩
def HIF_MODE_SRIS : Loc := ⟨REG_HIF_MODE, 1, 1⟩
def HIF_MODE_MAXSPEED : Loc := ⟨REG_HIF_MODE, 2, 3⟩

/-- Address of HIF_ID. -/
def REG_HIF_ID : Nat := 0x400A0004
def HIF_ID_VID : Loc := ⟨REG_HIF_ID, 0, 16⟩
def HIF_ID_DID : Loc := ⟨REG_HIF_ID, 16, 16⟩

/-- Address of HIF_SUBSYS. -/
def REG_HIF_SUBSYS : Nat := 0x400A0008
def HIF_SUBSYS_SSVID : Loc := ⟨REG_HIF_SUBSYS, 0, 16⟩
def HIF_SUBSYS_SSID : Loc := ⟨REG_HIF_SUBSYS, 16, 16⟩

/-- Address of HIF_CTRL. -/
def REG_HIF_CTRL : Nat := 0x400A000C
def HIF_CTRL_TRAIN_EN0 : Loc := ⟨REG_HIF_CTRL, 0, 1⟩
def HIF_CTRL_TRAIN_EN1 : Loc := ⟨REG_HIF_CTRL, 1, 1⟩

/-- Address of HIF_LINK. -/
def REG_HIF_LINK (k : Nat) : Nat := 0x400A0010 + 0x4 * k
def HIF_LINK_UP (k : Nat) : Loc := ⟨(REG_HIF_LINK k), 0, 1⟩
def HIF_LINK_SPEED (k : Nat) : Loc := ⟨(REG_HIF_LINK k), 1, 3⟩
def HIF_LINK_WIDTH (k : Nat) : Loc := ⟨(REG_HIF_LINK k), 4, 3⟩
def HIF_LINK_PMSTATE (k : Nat) : Loc := ⟨(REG_HIF_LINK k), 7, 3⟩
def HIF_LINK_LTSSM (k : Nat) : Loc := ⟨(REG_HIF_LINK k), 10, 6⟩

/-- Address of HIF_AERCNT. -/
def REG_HIF_AERCNT (k : Nat) : Nat := 0x400A0018 + 0x4 * k
def HIF_AERCNT_CORR (k : Nat) : Loc := ⟨(REG_HIF_AERCNT k), 0, 16⟩
def HIF_AERCNT_UNCORR (k : Nat) : Loc := ⟨(REG_HIF_AERCNT k), 16, 16⟩

/-- Address of HIF_CC. -/
def REG_HIF_CC (k : Nat) : Nat := 0x400A0020 + 0x4 * k
def HIF_CC_EN (k : Nat) : Loc := ⟨(REG_HIF_CC k), 0, 1⟩
def HIF_CC_RDY (k : Nat) : Loc := ⟨(REG_HIF_CC k), 1, 1⟩
def HIF_CC_CFS (k : Nat) : Loc := ⟨(REG_HIF_CC k), 2, 1⟩
def HIF_CC_SHST (k : Nat) : Loc := ⟨(REG_HIF_CC k), 3, 2⟩

/-- Address of HIF_RSTCAUSE. -/
def REG_HIF_RSTCAUSE (k : Nat) : Nat := 0x400A0028 + 0x4 * k
def HIF_RSTCAUSE_CC_EN (k : Nat) : Loc := ⟨(REG_HIF_RSTCAUSE k), 0, 1⟩
def HIF_RSTCAUSE_FLR (k : Nat) : Loc := ⟨(REG_HIF_RSTCAUSE k), 1, 1⟩
def HIF_RSTCAUSE_HOT (k : Nat) : Loc := ⟨(REG_HIF_RSTCAUSE k), 2, 1⟩
def HIF_RSTCAUSE_LINKDOWN (k : Nat) : Loc := ⟨(REG_HIF_RSTCAUSE k), 3, 1⟩
def HIF_RSTCAUSE_PERST (k : Nat) : Loc := ⟨(REG_HIF_RSTCAUSE k), 4, 1⟩
def HIF_RSTCAUSE_NSSR (k : Nat) : Loc := ⟨(REG_HIF_RSTCAUSE k), 5, 1⟩

/-- Address of QSQ_CTRL. -/
def REG_QSQ_CTRL : Nat := 0x400B0000
def QSQ_CTRL_FETCH_EN0 : Loc := ⟨REG_QSQ_CTRL, 0, 1⟩
def QSQ_CTRL_FETCH_EN1 : Loc := ⟨REG_QSQ_CTRL, 1, 1⟩

/-- Address of QSQ_STAT. -/
def REG_QSQ_STAT : Nat := 0x400B0004
def QSQ_STAT_BUSY : Loc := ⟨REG_QSQ_STAT, 0, 4⟩
def QSQ_STAT_INFLIGHT0 : Loc := ⟨REG_QSQ_STAT, 4, 1⟩
def QSQ_STAT_INFLIGHT1 : Loc := ⟨REG_QSQ_STAT, 5, 1⟩

/-- Address of QSQ_FSN. -/
def REG_QSQ_FSN : Nat := 0x400B0008
def QSQ_FSN_FSN : Loc := ⟨REG_QSQ_FSN, 0, 32⟩

/-- Address of QSQ_CMDTAB. -/
def REG_QSQ_CMDTAB : Nat := 0x400B000C
def QSQ_CMDTAB_USED : Loc := ⟨REG_QSQ_CMDTAB, 0, 13⟩
def QSQ_CMDTAB_ADMIN : Loc := ⟨REG_QSQ_CMDTAB, 16, 6⟩

/-- Address of QSQ_ARB. -/
def REG_QSQ_ARB (k : Nat) : Nat := 0x400B0010 + 0x4 * k
def QSQ_ARB_AB (k : Nat) : Loc := ⟨(REG_QSQ_ARB k), 0, 3⟩
def QSQ_ARB_WRR (k : Nat) : Loc := ⟨(REG_QSQ_ARB k), 3, 1⟩
def QSQ_ARB_LPW (k : Nat) : Loc := ⟨(REG_QSQ_ARB k), 8, 8⟩
def QSQ_ARB_MPW (k : Nat) : Loc := ⟨(REG_QSQ_ARB k), 16, 8⟩
def QSQ_ARB_HPW (k : Nat) : Loc := ⟨(REG_QSQ_ARB k), 24, 8⟩

/-- Address of QSQ_HALT. -/
def REG_QSQ_HALT (n k : Nat) : Nat := 0x400B0020 + 0x10 * n + 0x4 * k
def QSQ_HALT_HALTED (n k : Nat) : Loc := ⟨(REG_QSQ_HALT n k), 0, 32⟩

/-- Address of QSQ_QHOE. -/
def REG_QSQ_QHOE (n k : Nat) : Nat := 0x400B0040 + 0x10 * n + 0x4 * k
def QSQ_QHOE_ENABLED (n k : Nat) : Loc := ⟨(REG_QSQ_QHOE n k), 0, 32⟩

/-- Address of QSQ_ERR. -/
def REG_QSQ_ERR : Nat := 0x400B0060
def QSQ_ERR_DB_NOQ : Loc := ⟨REG_QSQ_ERR, 0, 1⟩
def QSQ_ERR_DB_VALUE : Loc := ⟨REG_QSQ_ERR, 1, 1⟩
def QSQ_ERR_FETCH_FAIL : Loc := ⟨REG_QSQ_ERR, 2, 1⟩
def QSQ_ERR_FETCH_FATAL : Loc := ⟨REG_QSQ_ERR, 3, 1⟩

/-! ### spec/13_power_modes_and_kinetic_save.md -/

/-- Address of PWR_MODE. -/
def REG_PWR_MODE : Nat := 0x40420000
def PWR_MODE_MODE : Loc := ⟨REG_PWR_MODE, 0, 4⟩
def PWR_MODE_PS : Loc := ⟨REG_PWR_MODE, 4, 3⟩

/-- Address of PWR_RAILS. -/
def REG_PWR_RAILS : Nat := 0x40420004
def PWR_RAILS_GOOD : Loc := ⟨REG_PWR_RAILS, 0, 16⟩
def PWR_RAILS_BUS : Loc := ⟨REG_PWR_RAILS, 16, 1⟩

/-- Address of PWR_IDLE. -/
def REG_PWR_IDLE : Nat := 0x40420008
def PWR_IDLE_T4 : Loc := ⟨REG_PWR_IDLE, 0, 8⟩
def PWR_IDLE_T5 : Loc := ⟨REG_PWR_IDLE, 8, 8⟩
def PWR_IDLE_T6 : Loc := ⟨REG_PWR_IDLE, 16, 8⟩
def PWR_IDLE_T7 : Loc := ⟨REG_PWR_IDLE, 24, 8⟩

/-- Address of PWR_CAP. -/
def REG_PWR_CAP : Nat := 0x4042000C
def PWR_CAP_STREAMS : Loc := ⟨REG_PWR_CAP, 0, 4⟩
def PWR_CAP_ROW : Loc := ⟨REG_PWR_CAP, 4, 3⟩
def PWR_CAP_CAPW : Loc := ⟨REG_PWR_CAP, 16, 16⟩

/-- Address of PWR_FLEET. -/
def REG_PWR_FLEET : Nat := 0x40420010
def PWR_FLEET_SLOT : Loc := ⟨REG_PWR_FLEET, 0, 14⟩
def PWR_FLEET_AUTO : Loc := ⟨REG_PWR_FLEET, 14, 1⟩
def PWR_FLEET_SLEEP_EN : Loc := ⟨REG_PWR_FLEET, 15, 1⟩
def PWR_FLEET_SPINGRP : Loc := ⟨REG_PWR_FLEET, 16, 10⟩
def PWR_FLEET_SPINSTEP : Loc := ⟨REG_PWR_FLEET, 26, 6⟩

/-- Address of PWR_SPIN. -/
def REG_PWR_SPIN : Nat := 0x40420014
def PWR_SPIN_DELAY : Loc := ⟨REG_PWR_SPIN, 0, 16⟩
def PWR_SPIN_ELIG : Loc := ⟨REG_PWR_SPIN, 16, 1⟩

/-- Address of PWR_TEMP. -/
def REG_PWR_TEMP : Nat := 0x40420018
def PWR_TEMP_LOGIC : Loc := ⟨REG_PWR_TEMP, 0, 8⟩
def PWR_TEMP_THROTTLE : Loc := ⟨REG_PWR_TEMP, 8, 1⟩

/-- Address of KSV_CTRL. -/
def REG_KSV_CTRL : Nat := 0x40430000
def KSV_CTRL_ARM : Loc := ⟨REG_KSV_CTRL, 0, 1⟩

/-- Address of KSV_CFG. -/
def REG_KSV_CFG : Nat := 0x40430004
def KSV_CFG_END_RPM : Loc := ⟨REG_KSV_CFG, 0, 8⟩
def KSV_CFG_TMAX : Loc := ⟨REG_KSV_CFG, 8, 8⟩
def KSV_CFG_OVH : Loc := ⟨REG_KSV_CFG, 16, 8⟩
def KSV_CFG_PLOAD : Loc := ⟨REG_KSV_CFG, 24, 8⟩

/-- Address of KSV_TRIP. -/
def REG_KSV_TRIP : Nat := 0x40430008
def KSV_TRIP_V12 : Loc := ⟨REG_KSV_TRIP, 0, 10⟩
def KSV_TRIP_V5 : Loc := ⟨REG_KSV_TRIP, 10, 10⟩
def KSV_TRIP_FILT : Loc := ⟨REG_KSV_TRIP, 20, 4⟩

/-- Address of KSV_LIMIT. -/
def REG_KSV_LIMIT : Nat := 0x4043000C
def KSV_LIMIT_LIMIT : Loc := ⟨REG_KSV_LIMIT, 0, 11⟩
def KSV_LIMIT_CAP : Loc := ⟨REG_KSV_LIMIT, 16, 11⟩

/-- Address of KSV_LIST_BASE. -/
def REG_KSV_LIST_BASE : Nat := 0x40430010
def KSV_LIST_BASE_VALUE : Loc := ⟨REG_KSV_LIST_BASE, 0, 32⟩

/-- Address of KSV_LIST_COUNT. -/
def REG_KSV_LIST_COUNT : Nat := 0x40430014
def KSV_LIST_COUNT_VALUE : Loc := ⟨REG_KSV_LIST_COUNT, 0, 32⟩

/-- Address of KSV_STAT. -/
def REG_KSV_STAT : Nat := 0x40430018
def KSV_STAT_STATE : Loc := ⟨REG_KSV_STAT, 0, 3⟩
def KSV_STAT_CAUSE : Loc := ⟨REG_KSV_STAT, 3, 2⟩
def KSV_STAT_WRITERS : Loc := ⟨REG_KSV_STAT, 5, 4⟩
def KSV_STAT_SAVED : Loc := ⟨REG_KSV_STAT, 12, 20⟩

/-- Address of KSV_REG. -/
def REG_KSV_REG (k : Nat) : Nat := 0x40430020 + 0x4 * k
def KSV_REG_START (k : Nat) : Loc := ⟨(REG_KSV_REG k), 0, 10⟩
def KSV_REG_ROOM (k : Nat) : Loc := ⟨(REG_KSV_REG k), 16, 10⟩

/-- Address of KSV_GENLO. -/
def REG_KSV_GENLO : Nat := 0x40430030
def KSV_GENLO_GEN : Loc := ⟨REG_KSV_GENLO, 0, 32⟩

/-- Address of KSV_GENHI. -/
def REG_KSV_GENHI : Nat := 0x40430034
def KSV_GENHI_GEN : Loc := ⟨REG_KSV_GENHI, 0, 32⟩

/-! ### spec/14_boot_images_security.md -/

/-- Address of SEC_LIFE. -/
def REG_SEC_LIFE : Nat := 0x40030000
def SEC_LIFE_LIFE : Loc := ⟨REG_SEC_LIFE, 0, 2⟩
def SEC_LIFE_OEMKEY : Loc := ⟨REG_SEC_LIFE, 2, 1⟩

/-- Address of SEC_SVN. -/
def REG_SEC_SVN : Nat := 0x40030004
def SEC_SVN_PATCH : Loc := ⟨REG_SEC_SVN, 0, 7⟩
def SEC_SVN_CFG : Loc := ⟨REG_SEC_SVN, 8, 7⟩

/-- Address of SEC_BOOT. -/
def REG_SEC_BOOT : Nat := 0x40030008
def SEC_BOOT_ACTIVE : Loc := ⟨REG_SEC_BOOT, 0, 2⟩
def SEC_BOOT_SOURCE : Loc := ⟨REG_SEC_BOOT, 2, 2⟩
def SEC_BOOT_OPTBLK : Loc := ⟨REG_SEC_BOOT, 4, 2⟩
def SEC_BOOT_PFAIL : Loc := ⟨REG_SEC_BOOT, 6, 1⟩
def SEC_BOOT_AFAIL : Loc := ⟨REG_SEC_BOOT, 7, 1⟩
def SEC_BOOT_OPTMIS : Loc := ⟨REG_SEC_BOOT, 8, 1⟩
def SEC_BOOT_VALID : Loc := ⟨REG_SEC_BOOT, 31, 1⟩

/-- Address of SEC_SEAL. -/
def REG_SEC_SEAL : Nat := 0x4003000C
def SEC_SEAL_SET : Loc := ⟨REG_SEC_SEAL, 0, 1⟩
def SEC_SEAL_SEALED : Loc := ⟨REG_SEC_SEAL, 1, 1⟩

/-- Address of SEC_KEYCMD. -/
def REG_SEC_KEYCMD : Nat := 0x40030010
def SEC_KEYCMD_OP : Loc := ⟨REG_SEC_KEYCMD, 0, 4⟩
def SEC_KEYCMD_SLOT : Loc := ⟨REG_SEC_KEYCMD, 4, 5⟩

/-- Address of SEC_SLOTS. -/
def REG_SEC_SLOTS : Nat := 0x40030014
def SEC_SLOTS_LOADED : Loc := ⟨REG_SEC_SLOTS, 0, 32⟩

/-- Address of SEC_VAULT. -/
def REG_SEC_VAULT : Nat := 0x40030018
def SEC_VAULT_HELD : Loc := ⟨REG_SEC_VAULT, 0, 24⟩

/-- Address of SEC_ERR. -/
def REG_SEC_ERR : Nat := 0x4003001C
def SEC_ERR_NOTBC : Loc := ⟨REG_SEC_ERR, 0, 1⟩
def SEC_ERR_VERIFY : Loc := ⟨REG_SEC_ERR, 1, 1⟩
def SEC_ERR_SVN : Loc := ⟨REG_SEC_ERR, 2, 1⟩
def SEC_ERR_OPTCRC : Loc := ⟨REG_SEC_ERR, 3, 1⟩
def SEC_ERR_KEYOP : Loc := ⟨REG_SEC_ERR, 4, 1⟩

/-- Address of DBG_STAT. -/
def REG_DBG_STAT : Nat := 0x40600000
def DBG_STAT_STATE : Loc := ⟨REG_DBG_STAT, 0, 3⟩
def DBG_STAT_LOCKED : Loc := ⟨REG_DBG_STAT, 3, 1⟩
def DBG_STAT_SCOPE : Loc := ⟨REG_DBG_STAT, 8, 8⟩

/-- Address of DBG_GRANT. -/
def REG_DBG_GRANT : Nat := 0x40600004
def DBG_GRANT_GRANT : Loc := ⟨REG_DBG_GRANT, 0, 1⟩
def DBG_GRANT_REFUSE : Loc := ⟨REG_DBG_GRANT, 1, 1⟩

/-- Address of DBG_ERR. -/
def REG_DBG_ERR : Nat := 0x40600008
def DBG_ERR_BADSIG : Loc := ⟨REG_DBG_ERR, 0, 1⟩
def DBG_ERR_BADNONCE : Loc := ⟨REG_DBG_ERR, 1, 1⟩
def DBG_ERR_SCOPE : Loc := ⟨REG_DBG_ERR, 2, 1⟩
def DBG_ERR_REFUSED : Loc := ⟨REG_DBG_ERR, 3, 1⟩

/-- Address of DBG_NONCE. -/
def REG_DBG_NONCE (k : Nat) : Nat := 0x40600010 + 0x4 * k
def DBG_NONCE_NONCE (k : Nat) : Loc := ⟨(REG_DBG_NONCE k), 0, 32⟩

/-- Address of DBG_COUNT. -/
def REG_DBG_COUNT : Nat := 0x40600020
def DBG_COUNT_OPENS : Loc := ⟨REG_DBG_COUNT, 0, 8⟩

/-! ### spec/15_engines_and_control_stores.md -/

/-- Address of SEQ_CTRL. -/
def REG_SEQ_CTRL (q : Nat) : Nat := seqBase q + 0x0
def SEQ_CTRL_RUN (q : Nat) : Loc := ⟨(REG_SEQ_CTRL q), 0, 1⟩

/-- Address of SEQ_STAT. -/
def REG_SEQ_STAT (q : Nat) : Nat := seqBase q + 0x4
def SEQ_STAT_ADDR (q : Nat) : Loc := ⟨(REG_SEQ_STAT q), 0, 12⟩
def SEQ_STAT_STATE (q : Nat) : Loc := ⟨(REG_SEQ_STAT q), 12, 2⟩
def SEQ_STAT_BANK (q : Nat) : Loc := ⟨(REG_SEQ_STAT q), 14, 1⟩
def SEQ_STAT_FOP_OUT (q : Nat) : Loc := ⟨(REG_SEQ_STAT q), 15, 1⟩
def SEQ_STAT_IDLE (q : Nat) : Loc := ⟨(REG_SEQ_STAT q), 16, 1⟩

/-- Address of SEQ_HALT. -/
def REG_SEQ_HALT (q : Nat) : Nat := seqBase q + 0x8
def SEQ_HALT_VALID (q : Nat) : Loc := ⟨(REG_SEQ_HALT q), 0, 1⟩
def SEQ_HALT_CAUSE (q : Nat) : Loc := ⟨(REG_SEQ_HALT q), 1, 4⟩
def SEQ_HALT_ADDR (q : Nat) : Loc := ⟨(REG_SEQ_HALT q), 16, 12⟩

/-- Address of SEQ_CNT. -/
def REG_SEQ_CNT (q : Nat) : Nat := seqBase q + 0xC
def SEQ_CNT_CORR (q : Nat) : Loc := ⟨(REG_SEQ_CNT q), 0, 16⟩

/-- Address of SEQ_CSADDR. -/
def REG_SEQ_CSADDR (q : Nat) : Nat := seqBase q + 0x10
def SEQ_CSADDR_ADDR (q : Nat) : Loc := ⟨(REG_SEQ_CSADDR q), 0, 12⟩
def SEQ_CSADDR_RBANK (q : Nat) : Loc := ⟨(REG_SEQ_CSADDR q), 12, 1⟩
def SEQ_CSADDR_AUTOINC (q : Nat) : Loc := ⟨(REG_SEQ_CSADDR q), 13, 1⟩

/-- Address of SEQ_CSDATA. -/
def REG_SEQ_CSDATA (q k : Nat) : Nat := seqBase q + 0x14 + 4 * k
def SEQ_CSDATA_DATA (q k : Nat) : Loc := ⟨(REG_SEQ_CSDATA q k), 0, 32⟩

/-- Address of QSQ_DTADDR. -/
def REG_QSQ_DTADDR : Nat := 0x400B0100
def QSQ_DTADDR_OPC : Loc := ⟨REG_QSQ_DTADDR, 0, 8⟩
def QSQ_DTADDR_TABLE : Loc := ⟨REG_QSQ_DTADDR, 8, 1⟩
def QSQ_DTADDR_RBANK : Loc := ⟨REG_QSQ_DTADDR, 9, 1⟩

/-- Address of QSQ_DTDATA. -/
def REG_QSQ_DTDATA : Nat := 0x400B0104
def QSQ_DTDATA_ENTRY : Loc := ⟨REG_QSQ_DTDATA, 0, 32⟩

/-- Address of QSQ_DTERR. -/
def REG_QSQ_DTERR : Nat := 0x400B0108
def QSQ_DTERR_BAD : Loc := ⟨REG_QSQ_DTERR, 0, 1⟩

/-- Address of QSQ_CSSWAP. -/
def REG_QSQ_CSSWAP : Nat := 0x400B010C
def QSQ_CSSWAP_SWAP : Loc := ⟨REG_QSQ_CSSWAP, 0, 1⟩
def QSQ_CSSWAP_BUSY : Loc := ⟨REG_QSQ_CSSWAP, 1, 1⟩
def QSQ_CSSWAP_BANK : Loc := ⟨REG_QSQ_CSSWAP, 2, 1⟩
def QSQ_CSSWAP_ERR : Loc := ⟨REG_QSQ_CSSWAP, 3, 1⟩

/-! ### spec/16_clocks_and_reset.md -/

/-- Address of CLK_STAT. -/
def REG_CLK_STAT : Nat := 0x40000000
def CLK_STAT_XTAL_GOOD : Loc := ⟨REG_CLK_STAT, 0, 1⟩
def CLK_STAT_RPLL_LOCK : Loc := ⟨REG_CLK_STAT, 1, 1⟩
def CLK_STAT_AON_SRC : Loc := ⟨REG_CLK_STAT, 2, 1⟩

/-- Address of CLK_GOOD0. -/
def REG_CLK_GOOD0 : Nat := 0x40000004
def CLK_GOOD0_GOOD : Loc := ⟨REG_CLK_GOOD0, 0, 32⟩

/-- Address of CLK_GOOD1. -/
def REG_CLK_GOOD1 : Nat := 0x40000008
def CLK_GOOD1_GOOD : Loc := ⟨REG_CLK_GOOD1, 0, 32⟩

/-- Address of CLK_GATE0. -/
def REG_CLK_GATE0 : Nat := 0x40000010
def CLK_GATE0_OPEN : Loc := ⟨REG_CLK_GATE0, 0, 32⟩

/-- Address of CLK_GATE1. -/
def REG_CLK_GATE1 : Nat := 0x40000014
def CLK_GATE1_OPEN : Loc := ⟨REG_CLK_GATE1, 0, 32⟩

/-- Address of CLK_ERR. -/
def REG_CLK_ERR : Nat := 0x40000018
def CLK_ERR_GATE : Loc := ⟨REG_CLK_ERR, 0, 1⟩

/-- Address of RST_CAUSE. -/
def REG_RST_CAUSE : Nat := 0x40010000
def RST_CAUSE_SRC : Loc := ⟨REG_RST_CAUSE, 0, 9⟩
def RST_CAUSE_FIRST : Loc := ⟨REG_RST_CAUSE, 12, 4⟩

/-- Address of RST_INFO. -/
def REG_RST_INFO : Nat := 0x40010004
def RST_INFO_CORE : Loc := ⟨REG_RST_INFO, 0, 4⟩
def RST_INFO_DOMAIN : Loc := ⟨REG_RST_INFO, 8, 6⟩
def RST_INFO_KIND : Loc := ⟨REG_RST_INFO, 14, 2⟩

/-- Address of RST_PHASE. -/
def REG_RST_PHASE : Nat := 0x40010008
def RST_PHASE_PHASE : Loc := ⟨REG_RST_PHASE, 0, 3⟩
def RST_PHASE_DONE : Loc := ⟨REG_RST_PHASE, 3, 1⟩

/-- Address of RST_STAT. -/
def REG_RST_STAT : Nat := 0x4001000C
def RST_STAT_STORM : Loc := ⟨REG_RST_STAT, 0, 1⟩
def RST_STAT_BUFOK : Loc := ⟨REG_RST_STAT, 1, 1⟩

/-- Address of RST_CNT. -/
def REG_RST_CNT : Nat := 0x40010010
def RST_CNT_RESETS : Loc := ⟨REG_RST_CNT, 0, 16⟩
def RST_CNT_STORMS : Loc := ⟨REG_RST_CNT, 16, 8⟩

/-- Address of RST_SWRST. -/
def REG_RST_SWRST : Nat := 0x40010014
def RST_SWRST_KEY : Loc := ⟨REG_RST_SWRST, 0, 32⟩

/-- Address of RST_BLKRST0. -/
def REG_RST_BLKRST0 : Nat := 0x40010020
def RST_BLKRST0_REQ : Loc := ⟨REG_RST_BLKRST0, 0, 32⟩

/-- Address of RST_BLKRST1. -/
def REG_RST_BLKRST1 : Nat := 0x40010024
def RST_BLKRST1_REQ : Loc := ⟨REG_RST_BLKRST1, 0, 32⟩

/-- Address of RST_BLKSTAT0. -/
def REG_RST_BLKSTAT0 : Nat := 0x40010028
def RST_BLKSTAT0_BUSY : Loc := ⟨REG_RST_BLKSTAT0, 0, 32⟩

/-- Address of RST_BLKSTAT1. -/
def REG_RST_BLKSTAT1 : Nat := 0x4001002C
def RST_BLKSTAT1_BUSY : Loc := ⟨REG_RST_BLKSTAT1, 0, 32⟩

/-- Address of RST_ERR. -/
def REG_RST_ERR : Nat := 0x40010030
def RST_ERR_BLK_BUSY : Loc := ⟨REG_RST_ERR, 0, 1⟩
def RST_ERR_SW_KEY : Loc := ⟨REG_RST_ERR, 1, 1⟩

/-! ### spec/17_package_and_signals.md -/

/-- Address of FUS_PADMAP. -/
def REG_FUS_PADMAP : Nat := 0x40020040
def FUS_PADMAP_STAT : Loc := ⟨REG_FUS_PADMAP, 0, 4⟩
def FUS_PADMAP_ALERT : Loc := ⟨REG_FUS_PADMAP, 4, 1⟩
def FUS_PADMAP_CLKREQ0 : Loc := ⟨REG_FUS_PADMAP, 5, 1⟩
def FUS_PADMAP_CLKREQ1 : Loc := ⟨REG_FUS_PADMAP, 6, 1⟩
def FUS_PADMAP_FLRST : Loc := ⟨REG_FUS_PADMAP, 7, 1⟩

/-! ### spec/18_events_errors_recorder.md -/

/-- Address of EVT_STAT. -/
def REG_EVT_STAT (k : Nat) : Nat := 0x40500000 + 0x4 * k
def EVT_STAT_PEND (k : Nat) : Loc := ⟨(REG_EVT_STAT k), 0, 32⟩

/-- Address of EVT_EN. -/
def REG_EVT_EN (k : Nat) : Nat := 0x40500100 + 0x4 * k
def EVT_EN_EN (k : Nat) : Loc := ⟨(REG_EVT_EN k), 0, 32⟩

/-- Address of EVT_ROUTE. -/
def REG_EVT_ROUTE (k : Nat) : Nat := 0x40500200 + 0x4 * k
def EVT_ROUTE_CORE (k : Nat) : Loc := ⟨(REG_EVT_ROUTE k), 0, 4⟩
def EVT_ROUTE_CEN (k : Nat) : Loc := ⟨(REG_EVT_ROUTE k), 4, 1⟩
def EVT_ROUTE_HOSTEN (k : Nat) : Loc := ⟨(REG_EVT_ROUTE k), 5, 1⟩
def EVT_ROUTE_VEC (k : Nat) : Loc := ⟨(REG_EVT_ROUTE k), 8, 8⟩

/-- Address of EVT_CLASS. -/
def REG_EVT_CLASS (k : Nat) : Nat := 0x40500400 + 0x4 * k
def EVT_CLASS_CLASS (k : Nat) : Loc := ⟨(REG_EVT_CLASS k), 0, 32⟩

/-- Address of EVT_FIRST. -/
def REG_EVT_FIRST : Nat := 0x40500600
def EVT_FIRST_VALID : Loc := ⟨REG_EVT_FIRST, 0, 1⟩
def EVT_FIRST_SOURCE : Loc := ⟨REG_EVT_FIRST, 2, 11⟩
def EVT_FIRST_CLASS : Loc := ⟨REG_EVT_FIRST, 13, 2⟩

/-- Address of EVT_FIRSTSEQ. -/
def REG_EVT_FIRSTSEQ : Nat := 0x40500604
def EVT_FIRSTSEQ_SEQ : Loc := ⟨REG_EVT_FIRSTSEQ, 0, 32⟩

/-- Address of EVT_SEQLO. -/
def REG_EVT_SEQLO : Nat := 0x40500608
def EVT_SEQLO_SEQ : Loc := ⟨REG_EVT_SEQLO, 0, 32⟩

/-- Address of EVT_SEQHI. -/
def REG_EVT_SEQHI : Nat := 0x4050060C
def EVT_SEQHI_SEQ : Loc := ⟨REG_EVT_SEQHI, 0, 32⟩

/-- Address of EVT_CNTCLR. -/
def REG_EVT_CNTCLR : Nat := 0x40500610
def EVT_CNTCLR_CLR : Loc := ⟨REG_EVT_CNTCLR, 0, 1⟩

/-- Address of EVT_LGR_BASE. -/
def REG_EVT_LGR_BASE : Nat := 0x40500620
def EVT_LGR_BASE_ADDR : Loc := ⟨REG_EVT_LGR_BASE, 0, 28⟩

/-- Address of EVT_LGR_CTRL. -/
def REG_EVT_LGR_CTRL : Nat := 0x40500624
def EVT_LGR_CTRL_EN : Loc := ⟨REG_EVT_LGR_CTRL, 0, 1⟩

/-- Address of EVT_LGR_HEAD. -/
def REG_EVT_LGR_HEAD : Nat := 0x40500628
def EVT_LGR_HEAD_INDEX : Loc := ⟨REG_EVT_LGR_HEAD, 0, 12⟩

/-- Address of EVT_LGR_TAIL. -/
def REG_EVT_LGR_TAIL : Nat := 0x4050062C
def EVT_LGR_TAIL_INDEX : Loc := ⟨REG_EVT_LGR_TAIL, 0, 12⟩

/-- Address of EVT_LGR_STAT. -/
def REG_EVT_LGR_STAT : Nat := 0x40500630
def EVT_LGR_STAT_OVR : Loc := ⟨REG_EVT_LGR_STAT, 0, 16⟩
def EVT_LGR_STAT_EARLY : Loc := ⟨REG_EVT_LGR_STAT, 16, 16⟩

/-- Address of EVT_SWRAISE. -/
def REG_EVT_SWRAISE : Nat := 0x40500640
def EVT_SWRAISE_BIT : Loc := ⟨REG_EVT_SWRAISE, 0, 5⟩

/-- Address of EVT_ERR. -/
def REG_EVT_ERR : Nat := 0x40500644
def EVT_ERR_SW_BAD : Loc := ⟨REG_EVT_ERR, 0, 1⟩

/-- Address of EVT_CNT. -/
def REG_EVT_CNT (k : Nat) : Nat := 0x40501000 + 0x4 * k
def EVT_CNT_CNT0 (k : Nat) : Loc := ⟨(REG_EVT_CNT k), 0, 16⟩
def EVT_CNT_CNT1 (k : Nat) : Loc := ⟨(REG_EVT_CNT k), 16, 16⟩

/-- Address of REC_CMD. -/
def REG_REC_CMD : Nat := 0x40510000
def REC_CMD_OP : Loc := ⟨REG_REC_CMD, 0, 2⟩

/-- Address of REC_SRC. -/
def REG_REC_SRC : Nat := 0x40510004
def REC_SRC_ADDR : Loc := ⟨REG_REC_SRC, 0, 25⟩

/-- Address of REC_DST. -/
def REG_REC_DST : Nat := 0x40510008
def REC_DST_SLOT : Loc := ⟨REG_REC_DST, 0, 17⟩

/-- Address of REC_STAT. -/
def REG_REC_STAT : Nat := 0x4051000C
def REC_STAT_BUSY : Loc := ⟨REG_REC_STAT, 0, 1⟩
def REC_STAT_RESULT : Loc := ⟨REG_REC_STAT, 1, 2⟩

/-! ### spec/19_register_space.md -/

/-- Address of FUS_PART. -/
def REG_FUS_PART : Nat := 0x40020000
def FUS_PART_PART : Loc := ⟨REG_FUS_PART, 0, 16⟩
def FUS_PART_DIES : Loc := ⟨REG_FUS_PART, 16, 4⟩

/-- Address of FUS_STEP. -/
def REG_FUS_STEP : Nat := 0x40020004
def FUS_STEP_MAJOR : Loc := ⟨REG_FUS_STEP, 0, 8⟩
def FUS_STEP_MINOR : Loc := ⟨REG_FUS_STEP, 8, 8⟩

/-- Address of FUS_SERLO. -/
def REG_FUS_SERLO : Nat := 0x40020008
def FUS_SERLO_SERIAL : Loc := ⟨REG_FUS_SERLO, 0, 32⟩

/-- Address of FUS_SERHI. -/
def REG_FUS_SERHI : Nat := 0x4002000C
def FUS_SERHI_SERIAL : Loc := ⟨REG_FUS_SERHI, 0, 32⟩

/-- Address of FUS_ROMVER. -/
def REG_FUS_ROMVER : Nat := 0x40020010
def FUS_ROMVER_X : Loc := ⟨REG_FUS_ROMVER, 0, 8⟩
def FUS_ROMVER_Y : Loc := ⟨REG_FUS_ROMVER, 8, 8⟩

end Sys2Proof.Machine
end

