-- ==== Sys2Proof/Machine/Mach.lean ====
section
/-! DEFINITION. The state of the block apart from its queue of commands. -/
namespace Sys2Proof.Machine

/-- The attributes of a request on the host link (R260). -/
structure TlpAttr where
  relaxed : Bool
  idBased : Bool
  noSnoop : Bool
  deriving DecidableEq, Repr

/-- The attributes of a memory read of host data and of a submission-entry fetch (R260). -/
def TlpAttr.read : TlpAttr := ⟨true, false, false⟩

/-- The attributes of every other request: memory writes, MSI-X messages and the read-back (R260). -/
def TlpAttr.plain : TlpAttr := ⟨false, false, false⟩

/-- What the block shows to the outside at a command: frames, interrupts, bus traffic. -/
inductive Out where
  /-- A line read delivered to a port: port, line, bytes, check-failure flag (R215). -/
  | line (port : Fin 30) (line : Nat) (bytes : List Byte) (fail : Bool)
  /-- Bytes sent to host memory through a port (R248). -/
  | hostWrite (attr : TlpAttr) (port : Fin 2) (addr : Nat) (bytes : List Byte)
  /-- A memory read of a port: host data (R246), or the 4-byte read-back (R250). -/
  | hostRead (attr : TlpAttr) (port : Fin 2) (addr : Nat) (len : Nat)
  /-- Channel bits that a stream's serialiser has driven while its gate was open, first bit first, with the delay of each
  transition in 1/64 of a bit period (R82, R83, R88, R107). -/
  | written (stream : Stream) (bits : List Bool) (delays : List Nat)
  /-- A frame on the preamplifier link of an actuator, with the bits that the HQ8 drives (Table 7-2). -/
  | frame (act : Actuator) (f : Frame) (wire : List Bool)
  /-- A command's data returned to the host (R289): fetch sequence number and bytes. -/
  | returned (fsn : Nat) (bytes : List Byte)
  /-- A Read ends well: for each of its LBAs, where the data it returned came from (R294). -/
  | readFrom (fsn : Nat) (sources : List (Nat × ReadSource))
  /-- A completion entry written to host memory: port, address, 16 bytes (R273). -/
  | completion (attr : TlpAttr) (port : Fin 2) (addr : Nat) (bytes : List Byte)
  /-- An MSI-X message, or an INTx assertion, of a port (R273, R407). -/
  | msix (attr : TlpAttr) (port : Fin 2) (vector : Nat)
  | intx (port : Fin 2) (vector : Nat)
  /-- A read of host memory for submission entries (R269): port, address, bytes. -/
  | fetch (attr : TlpAttr) (port : Fin 2) (addr : Nat) (len : Nat)
  /-- An error message to the host: 0 correctable, 1 non-fatal, 2 fatal (R262). -/
  | errorMessage (port : Fin 2) (kind : Nat)
  /-- An LTR message: port, µs (R261). -/
  | ltr (port : Fin 2) (us : Nat)
  /-- A sideband response: Response Message Status and bytes (R304). -/
  | mi (status : Nat) (bytes : List Byte)
  /-- The header of a save group written by an actuator's writer: LBATAG and DATA bytes (R322). -/
  | saveHeader (act : Actuator) (tag : Nat) (data : List Byte)
  /-- A sector that a save writes: actuator, group position in its region, member 0–131, media form (R94, R319, R322). -/
  | saveSector (act : Actuator) (pos : Nat) (member : Nat) (block : List Byte)
  /-- A core's access to an address outside every window ends in a bus-error exception of that core (R421). -/
  | busError (core : Nat)
  /-- A core's interrupt raised by a group, and the fatal interrupt of a core (R405, R406). -/
  | irq (core : Nat) (group : Nat)
  /-- The code of a sequencer's microcode event (Table 15-6, EVENT). -/
  | code (seq : Nat) (code : Nat)
  | fatal (core : Nat)
  deriving DecidableEq, Repr

/-- The block. -/
structure Mach where
  /-- Time in periods of the root PLL (R365). -/
  clock   : Nat
  /-- Counter that the free values are applied to. -/
  freeCtr : Nat
  /-- Register words that differ from their reset values, by rising address. -/
  regs    : List (Nat × Word)
  /-- Event reports that have not fired yet, source numbers in order of arrival (R405). -/
  reports : List Nat
  /-- What the last commands put out, newest first. -/
  out     : List Out
  cal     : Caller
  media   : MediaState
  motion  : MotionState
  die     : PowerDie
  spn     : Spindle
  pwr     : PowerMgr
  buf     : BufState
  dma     : DmaState
  host    : HostState
  cmd     : CmdState
  sec     : SecState
  eng     : EngState
  evt     : EvtState
  rst     : RstState
  deriving DecidableEq, Repr

end Sys2Proof.Machine
end

