-- ==== Sys2Proof/Machine/Ops.lean ====
section
/-! DEFINITION. The operations that every family shares: register fields, event reports, free values, bytes, the
buffer's bytes, and the traffic that the HQ8's own requesters ask for. -/
namespace Sys2Proof.Machine

/-- `x` with its field of `w` bits at `lo` replaced by the low `w` bits of `v`. -/
def setBits (x : Word) (lo w v : Nat) : Word :=
  let mask := BitVec.ofNat 32 (2 ^ w - 1) <<< lo
  (x &&& ~~~mask) ||| ((BitVec.ofNat 32 v <<< lo) &&& mask)

/-- The field of `w` bits at `lo` of `x`. -/
def getBits (x : Word) (lo w : Nat) : Nat := (x.toNat / 2 ^ lo) % 2 ^ w

/-- The word listed for `a`, or its reset value. -/
def regLookup (a : Nat) : List (Nat × Word) → Word
  | [] => resetWord a
  | (b, x) :: rs => if a = b then x else regLookup a rs

/-- Insert `x` at `a` before the first larger address. -/
def insertPair {β : Type} (a : Nat) (x : β) : List (Nat × β) → List (Nat × β)
  | [] => [(a, x)]
  | c :: rs => if a < c.1 then (a, x) :: c :: rs else c :: insertPair a x rs

/-- Store `x` at `a` in the canonical form: rising addresses, no entry equal to its reset value. -/
def regStore (a : Nat) (x : Word) (l : List (Nat × Word)) : List (Nat × Word) :=
  let r := l.filter fun c => c.1 != a
  if x = resetWord a then r else insertPair a x r

/-- The word held at a register address. -/
def Mach.word (m : Mach) (a : Nat) : Word := regLookup a m.regs

/-- Replace the word held at a register address. -/
def Mach.setWord (m : Mach) (a : Nat) (x : Word) : Mach := { m with regs := regStore a x m.regs }

/-- The value of a register field. -/
def Mach.get (m : Mach) (l : Loc) : Nat := getBits (m.word l.addr) l.lo l.w

/-- Set a register field to the low bits of `v`. -/
def Mach.set (m : Mach) (l : Loc) (v : Nat) : Mach := m.setWord l.addr (setBits (m.word l.addr) l.lo l.w v)

/-- The field is not 0. -/
def Mach.is (m : Mach) (l : Loc) : Bool := m.get l != 0

/-- Set a one-bit field from a Bool. -/
def Mach.setFlag (m : Mach) (l : Loc) (b : Bool) : Mach := m.set l (bitNat b)

/-- The field's two's-complement value. -/
def Mach.getS (m : Mach) (l : Loc) : Int := signedOf l.w (m.get l)

/-- Set a field to a two's-complement value. -/
def Mach.setS (m : Mach) (l : Loc) (v : Int) : Mach := m.set l (codeOf l.w v)

/-- Add `n` to a count that saturates. -/
def Mach.incSat (m : Mach) (l : Loc) (n : Nat) : Mach := m.set l (min (m.get l + n) (2 ^ l.w - 1))

/-- Add `n` to a count that wraps. -/
def Mach.incWrap (m : Mach) (l : Loc) (n : Nat) : Mach := m.set l (m.get l + n)

/-- An event report of source `s` arrives (R405). -/
def Mach.report (m : Mach) (s : Nat) : Mach := { m with reports := m.reports ++ [s] }

/-- Set an error flag and report its event. -/
def Mach.flagEvent (m : Mach) (l : Loc) (s : Nat) : Mach := (m.set l 1).report s

/-- Put `o` out. -/
def Mach.emit (m : Mach) (o : Out) : Mach := { m with out := o :: m.out }

/-- A TLP of a port goes out: ASPM L1 and its substates are left for it (R261). -/
def Mach.tlp (m : Mach) (p : Fin 2) (o : Out) : Mach :=
  let s := m.get (HIF_LINK_PMSTATE p.val)
  (if 1 ≤ s ∧ s ≤ 3 then m.set (HIF_LINK_PMSTATE p.val) 0 else m).emit o

/-- The next free value. -/
def Mach.free (m : Mach) : Nat := Config.freeNat m.freeCtr

/-- Pass on to a further free value. -/
def Mach.nextFree (m : Mach) : Mach := { m with freeCtr := m.freeCtr + 1 }

/-- `f` applied where `c` holds. -/
def Mach.when (m : Mach) (c : Bool) (f : Mach → Mach) : Mach := if c then f m else m

/-- Replace the element at `i` by its image. -/
def updAt {α : Type} {n : Nat} (v : Vector α n) (i : Fin n) (f : α → α) : Vector α n := v.set i (f v[i])

/-- Every index 0 to `n − 1`, as Fin. -/
def allFin (n : Nat) : List (Fin n) := List.finRange n

/-! ### Bytes and lists -/

/-- The number spelled by bytes, the lowest first. -/
def ofBytesLE : List Byte → Nat
  | [] => 0
  | b :: bs => b.toNat + 256 * ofBytesLE bs

/-- The `n` low bytes of `v`, the lowest first. -/
def toBytesLE : Nat → Nat → List Byte
  | 0, _ => []
  | n + 1, v => BitVec.ofNat 8 v :: toBytesLE n (v / 256)

/-- The `n` low bytes of `v`, the highest first. -/
def toBytesBE (n v : Nat) : List Byte := (toBytesLE n v).reverse

/-- Insert into a rising list without repeats. -/
def insertNat (a : Nat) : List Nat → List Nat
  | [] => [a]
  | b :: bs => if a = b then b :: bs else if a < b then a :: b :: bs else b :: insertNat a bs

/-- Remove from a list. -/
def removeNat (a : Nat) (l : List Nat) : List Nat := l.filter (· != a)

/-- Store `v` at `k` in a rising list of pairs without entries equal to the default `d`. -/
def putPair {β : Type} [DecidableEq β] (d : β) (k : Nat) (v : β) (l : List (Nat × β)) : List (Nat × β) :=
  let r := l.filter fun c => c.1 != k
  if v = d then r else insertPair k v r

/-- The value at `k` in such a list. -/
def getPair {β : Type} (d : β) (k : Nat) : List (Nat × β) → β
  | [] => d
  | (j, w) :: r => if k = j then w else getPair d k r

/-! ### The bytes of the buffer (R212, R213) -/

/-- One past the last byte address of the data space (R212). -/
def bufEnd : Nat := 0x1E0000000

/-- Write one byte; the canonical form lists no byte of value 0. -/
def BufMem.putByte (b : BufMem) (a : Nat) (x : Byte) : BufMem := { b with cells := putPair 0 a x b.cells }

/-- The byte at `a`. -/
def BufMem.byte (b : BufMem) (a : Nat) : Byte := getPair 0 a b.cells

/-- The canonical form of the listed bytes: rising addresses inside the data space, no byte 0. -/
def BufMem.wf (b : BufMem) : Bool :=
  (b.cells.map (·.1)).Pairwise (· < ·) && b.cells.all (fun c => c.1 < bufEnd && c.2 != 0)

/-- The page's valid bit (R218). -/
def PageBits.test (p : PageBits) (n : Nat) : Bool := if p.ex.contains n then !p.dflt else p.dflt

/-- Set the page's valid bit. -/
def PageBits.put (p : PageBits) (n : Nat) (b : Bool) : PageBits :=
  { p with ex := if b = p.dflt then removeNat n p.ex else insertNat n p.ex }

/-! ### Traffic of the HQ8's own requesters (R30, Table 2-2) -/

/-- Update the Caller. -/
def Mach.setCal (m : Mach) (f : Caller → Caller) : Mach := { m with cal := f m.cal }

/-- One of the requesters behind a port asks for `bytes` bytes of the buffer from `addr` on under a class. -/
def Mach.demandAs (m : Mach) (owner : Nat) (port : Port) (cls : FabClass) (addr bytes : Nat) : Mach :=
  if bytes = 0 then m
  else m.setCal fun s =>
    { s with demands := s.demands ++ [⟨port, cls, addr / 64, (addr + bytes - 1) / 64 - addr / 64 + 1, owner⟩] }

/-- A port's one requester asks for `bytes` bytes of the buffer from `addr` on at its port under a class. -/
def Mach.demand (m : Mach) (port : Port) (cls : FabClass) (addr bytes : Nat) : Mach := m.demandAs 0 port cls addr bytes

/-- No request that `mine` names waits, and none of its bursts is in flight. -/
def Caller.idleFor (s : Caller) (mine : Port → Nat → Bool) : Bool :=
  !s.held.any (fun h => mine h.req.port h.req.owner) && !s.flights.any (fun f => mine f.port f.owner) &&
    (allFin 16).all fun c => !s.queues[c].any fun r => mine r.port r.owner

/-- No request of a port waits, and none of its bursts is in flight. -/
def Caller.portIdle (s : Caller) (port : Port) : Bool := s.idleFor fun p _ => p == port

/-- Every burst that `mine` was asked for has reached its burst boundary (R41). -/
def Mach.quietFor (m : Mach) (mine : Port → Nat → Bool) : Bool :=
  !m.cal.demands.any (fun d => mine d.port d.owner) && m.cal.idleFor mine

/-- Every burst that a port was asked for has reached its burst boundary (R41). -/
def Mach.portQuiet (m : Mach) (port : Port) : Bool := m.quietFor fun p _ => p == port

end Sys2Proof.Machine
end

