-- ==== Sys2Proof/Machine/Buffer.lean ====
section
/-! DEFINITION. The buffer manager, the pools, the system cache and the scrubber
(spec/09_buffer_cache_pools.md). -/
namespace Sys2Proof.Machine

/-! ### CRC-32C (R68, R214) -/

/-- One bit of a reflected CRC. -/
def crcBit {n : Nat} (poly c : BitVec n) : BitVec n := if c.getLsbD 0 then (c >>> 1) ^^^ poly else c >>> 1

/-- One byte of a reflected CRC. -/
def crcByte {n : Nat} (poly c : BitVec n) (b : Byte) : BitVec n :=
  (List.range 8).foldl (fun x _ => crcBit poly x) (c ^^^ b.setWidth n)

/-- The CRC register after the bytes. -/
def crcRefl {n : Nat} (poly c : BitVec n) (bs : List Byte) : BitVec n := bs.foldl (crcByte poly) c

/-- CRC-32C from a start value; polynomial 0x1EDC_6F41, bit-reflected, result XORed with ones. -/
def crc32cFrom (start : BitVec 32) (bs : List Byte) : BitVec 32 := ~~~(crcRefl 0x82F63B78 start bs)

/-- The check word that belongs to the data of line `line` (R214). -/
def lineCheck (line : Nat) (bs : List Byte) : BitVec 32 := crc32cFrom (BitVec.ofNat 32 line ^^^ 0xFFFFFFFF) bs

/-! ### Lines (R212–R219) -/

/-- The 64 stored bytes of a line. -/
def BufMem.line (b : BufMem) (line : Nat) : List Byte := (List.range 64).map fun i => b.byte (64 * line + i)

/-- The stored check word of a line: that of its data, inverted where the line is bad (R216). -/
def BufMem.checkWord (b : BufMem) (line : Nat) : BitVec 32 :=
  let c := lineCheck line (b.line line)
  if b.bad.contains line then ~~~c else c

/-- The stored check word passes (R214). -/
def BufMem.good (b : BufMem) (line : Nat) : Bool := b.checkWord line == lineCheck line (b.line line)

/-- Write bytes from address `a` upward. -/
def BufMem.putBytes (b : BufMem) (a : Nat) : List Byte → BufMem
  | [] => b
  | x :: xs => (b.putByte a x).putBytes (a + 1) xs

/-- Set a line's check word right. -/
def BufMem.heal (b : BufMem) (line : Nat) : BufMem := { b with bad := removeNat line b.bad }

/-- Give a line a check word that its data does not have. -/
def BufMem.poison (b : BufMem) (line : Nat) : BufMem := { b with bad := insertNat line b.bad }

/-- Write every line of a page as zeros with a correct check word (R218). -/
def BufMem.zeroPage (b : BufMem) (page : Nat) : BufMem :=
  { b with
    cells := b.cells.filter fun c => c.1 / 4096 != page
    bad := b.bad.filter fun l => l / 64 != page }

/-- The merge of enabled bytes into a line (R216). -/
def LineWrite.merge (w : LineWrite) (old : List Byte) : List Byte :=
  (List.range 64).map fun i => if w.enable.getLsbD i then w.data.getD i 0 else old.getD i 0

/-- Every byte is enabled. -/
def LineWrite.full (w : LineWrite) : Bool := w.enable == BitVec.allOnes 64

/-- A write of a whole line. -/
def LineWrite.whole (bs : List Byte) : LineWrite := ⟨bs, BitVec.allOnes 64⟩

namespace Mach

/-- Update the buffer state. -/
def setBuf (m : Mach) (f : BufState → BufState) : Mach := { m with buf := f m.buf }

/-- Update the buffer memory. -/
def setMem (m : Mach) (f : BufMem → BufMem) : Mach := m.setBuf fun b => { b with mem := f b.mem }

/-- The page's valid bit matters: valid-bit mode (R218). -/
def pageInvalid (m : Mach) (page : Nat) : Bool := m.is BUF_CTRL_INIT_MODE && !m.buf.mem.pages.test page

/-- A line read failed its check: count, first-fault latch, error flag, event (R215). -/
def checkFail (m : Mach) (line : Nat) : Mach :=
  let m := m.incSat BUF_CNT_CHECK 1
  let m := m.when (!m.is BUF_FIRST_VALID) fun m => (m.set BUF_FIRST_ADDR line).set BUF_FIRST_VALID 1
  m.flagEvent BUF_ERR_CHECK 32

/-- A line read by the buffer manager: the bytes delivered and the check-failure flag. -/
def bufRead (m : Mach) (line : Nat) : (List Byte × Bool) × Mach :=
  let zeros := List.replicate 64 (0 : Byte)
  if bufEnd ≤ 64 * line then ((zeros, true), m.flagEvent BUF_ERR_RANGE 33)
  else if m.get BUF_STAT_INIT = 1 then ((zeros, false), m.flagEvent BUF_ERR_INIT_ACCESS 34)
  else if m.pageInvalid (line / 64) then ((zeros, false), m)
  else if m.buf.mem.good line then ((m.buf.mem.line line, false), m)
  else ((m.buf.mem.line line, true), m.checkFail line)

/-- Before the first write to a page whose valid bit is 0, the whole page is written (R218). -/
def openPage (m : Mach) (page : Nat) : Mach :=
  m.when (m.pageInvalid page) fun m =>
    m.setMem fun b => { b.zeroPage page with pages := b.pages.put page true }

/-- A line write by the buffer manager (R213, R214, R216, R218, R219). -/
def bufWrite (m : Mach) (line : Nat) (w : LineWrite) : Mach :=
  if bufEnd ≤ 64 * line then m.flagEvent BUF_ERR_RANGE 33
  else if m.get BUF_STAT_INIT = 1 then m.flagEvent BUF_ERR_INIT_ACCESS 34
  else
    let m := m.openPage (line / 64)
    if w.full then m.setMem fun b => (b.putBytes (64 * line) (w.merge [])).heal line
    else
      let ((old, fail), m) := m.bufRead line
      let m := m.setMem fun b => b.putBytes (64 * line) (w.merge old)
      if fail then (m.setMem (·.poison line)).flagEvent BUF_ERR_POISON 35 else m

/-- Write a line poisoned (R216, R231). -/
def bufWritePoisoned (m : Mach) (line : Nat) (bs : List Byte) : Mach :=
  ((m.bufWrite line (.whole bs)).setMem (·.poison line)).flagEvent BUF_ERR_POISON 35

end Mach

/-! ### The system cache (R229–R236) -/

/-- The global set of a line (R229). -/
def cacheSet (line : Nat) : Nat := 16 * (line / 16 % 1536) + line % 16

/-- The tag of a line (R229). -/
def cacheTag (line : Nat) : Nat := line * 64 / 1572864

/-- The line that a cache line holds. -/
def CacheLine.line (c : CacheLine) : Nat := c.tag * 24576 + c.set

/-- The valid line that holds `line`. -/
def SysCache.find (c : SysCache) (line : Nat) : Option CacheLine :=
  c.lines.find? fun l => l.set == cacheSet line && l.tag == cacheTag line

/-- Order of cache lines: set, then way. -/
def CacheLine.key (l : CacheLine) : Nat := 16 * l.set + l.way.val

/-- Insert or replace the line of a set and way. -/
def putCacheLine (l : CacheLine) : List CacheLine → List CacheLine
  | [] => [l]
  | x :: xs =>
    if l.key = x.key then l :: xs else if l.key < x.key then l :: x :: xs else x :: putCacheLine l xs

/-- Store a line. -/
def SysCache.put (c : SysCache) (l : CacheLine) : SysCache := { c with lines := putCacheLine l c.lines }

/-- Invalidate the way of a set. -/
def SysCache.drop (c : SysCache) (set : Nat) (way : Fin 16) : SysCache :=
  { c with lines := c.lines.filter fun l => !(l.set == set && l.way == way) }

/-- Node of the pseudo-LRU tree above `way` at depth `d` (0 the root): heap index 0–14. -/
def plruNode (way : Nat) (d : Nat) : Nat := 2 ^ d - 1 + way / 2 ^ (4 - d)

/-- The set's tree after a use of `way`: each node on its path points away from it. -/
def plruTouch (bits way : Nat) : Nat :=
  (List.range 4).foldl (fun b d =>
    let n := plruNode way d
    let dir := way / 2 ^ (3 - d) % 2
    let b0 := b - (b / 2 ^ n % 2) * 2 ^ n
    b0 + (1 - dir) * 2 ^ n) bits

/-- The way that the set's tree points to. -/
def plruVictim (bits : Nat) : Nat :=
  (List.range 4).foldl (fun w d => 2 * w + bits / 2 ^ (2 ^ d - 1 + w) % 2) 0

/-- Record a use of a line. -/
def SysCache.touch (c : SysCache) (l : CacheLine) : SysCache :=
  { c with plru := putPair 0 l.set (plruTouch (getPair 0 l.set c.plru) l.way.val) c.plru }

/-- The way a fill of `set` takes: the lowest invalid way, else the tree's victim. -/
def SysCache.victim (c : SysCache) (set : Nat) : Fin 16 :=
  let used (w : Fin 16) : Bool := c.lines.any fun l => l.set == set && l.way == w
  match (allFin 16).find? fun w => !used w with
  | some w => w
  | none => Fin.ofNat 16 (plruVictim (getPair 0 set c.plru))

namespace Mach

/-- Update the cache. -/
def setCache (m : Mach) (f : SysCache → SysCache) : Mach := m.setBuf fun b => { b with cache := f b.cache }

/-- The core at a fabric port (Table 2-2) in the order CC, SC, MC, PC, BC of the core numbers. -/
def portCore (port : Fin 30) : Option Nat :=
  let p := port.val
  if p ≤ 3 then some p else if p ≤ 5 then some (p + 4) else if p ≤ 7 then some (p + 4) else if p ≤ 11 then some (p - 4) else none

/-- A core's access completes with a bus-error exception (R215). -/
def coreError (m : Mach) (port : Fin 30) (fail : Bool) : Mach :=
  match portCore port with
  | some k => m.when fail (·.emit (.busError k))
  | none => m

/-- Deliver a line to a port; a core's access that carries the flag completes with a bus-error exception (R215). -/
def deliver (m : Mach) (port : Port) (line : Nat) (bs : List Byte) (fail : Bool) : Mach :=
  (m.emit (.line port line bs fail)).coreError port fail

/-- A partial write whose line failed its check is reported to a core like a read (R215, R216). -/
def partialFail (m : Mach) (port : Port) (line : Nat) (w : LineWrite) : Mach :=
  m.coreError port (!w.full && (m.buf.cache.find line).isNone && (m.bufRead line).1.2)

/-- Serve an access from a cached line: a read is delivered, a write merges and makes the line dirty. -/
def serveHit (m : Mach) (l : CacheLine) (a : LineAccess) : Mach :=
  match a.write with
  | some w => m.setCache fun c =>
      let l := { l with data := w.merge l.data, dirty := true }
      (c.put l).touch l
  | none => (m.setCache (·.touch l)).deliver a.port a.line l.data false

/-- Number of miss registers in use, to CCH_MISS.BUSY. -/
def syncMiss (m : Mach) : Mach := m.set CCH_MISS_BUSY m.buf.cache.misses.length

/-- Write a dirty line back to the LPDDR5X. -/
def writeBack (m : Mach) (l : CacheLine) : Mach := m.when l.dirty fun m => m.bufWrite l.line (.whole l.data)

/-- Install a line that has been fetched; the victim is written back (R229, R234). -/
def installLine (m : Mach) (line : Nat) (bs : List Byte) : Mach :=
  let set := cacheSet line
  let way := m.buf.cache.victim set
  let m := match m.buf.cache.lines.find? (fun l => l.set == set && l.way == way) with
    | some v => m.writeBack v
    | none => m
  m.setCache fun c =>
    let l : CacheLine := ⟨set, way, cacheTag line, false, bs⟩
    (c.put l).touch l

/-- What waits on a line acts now, in grant order (R217, R234): the fill of a miss of the line. A fill whose line fails its check
is not installed: each access then acts on the LPDDR5X (R215, R216). -/
def fillLine (m : Mach) (line : Nat) (accesses : List LineAccess) : Mach :=
  let ((bs, fail), m) := m.bufRead line
  if fail then accesses.foldl (fun (m : Mach) a => match a.write with
    | some w => (m.partialFail a.port a.line w).bufWrite a.line w
    | none => m.deliver a.port a.line bs true) m
  else
    let m := match m.buf.cache.find line with
      | some _ => m
      | none => m.installLine line bs
    accesses.foldl (fun (m : Mach) a => match m.buf.cache.find a.line with
      | some l => m.serveHit l a
      | none => m) m

/-- Accesses of a line that wait in a miss register or a bank's queue complete before a later access of that line (R217). -/
def settleLine (m : Mach) (line : Nat) : Mach :=
  let bank : Fin 16 := Fin.ofNat 16 line
  let own := (m.buf.cache.misses.filter (·.line == line)).flatMap (·.accesses)
  let queued := m.buf.cache.queues[bank].filter (·.line == line)
  if own.isEmpty && queued.isEmpty then m
  else
    let m := (m.setCache fun c => { c with
      misses := c.misses.filter (·.line != line), queues := updAt c.queues bank (·.filter (·.line != line)) }).syncMiss
    m.fillLine line (own ++ queued)

/-- A bypassing read: a hit takes the cached data (R230). -/
def fabRead (m : Mach) (line : Nat) : (List Byte × Bool) × Mach :=
  let m := m.settleLine line
  match m.buf.cache.find line with
  | some l => ((l.data, false), m)
  | none => m.bufRead line

/-- A bypassing write: a hit updates the cached line and the LPDDR5X and leaves the line clean (R230). -/
def fabWrite (m : Mach) (line : Nat) (w : LineWrite) : Mach :=
  let m := m.settleLine line
  match m.buf.cache.find line with
  | some l =>
    let d := w.merge l.data
    (m.bufWrite line (.whole d)).setCache (·.put { l with data := d, dirty := false })
  | none => m.bufWrite line w

/-- Read `n` bytes at `a` past the cache: the bytes, and whether a line failed its check. -/
def readBytes (m : Mach) (a n : Nat) : (List Byte × Bool) × Mach :=
  if n = 0 then (([], false), m) else
  let first := a / 64
  let k := (a + n - 1) / 64 - first + 1
  let ((bs, fail), m) := (List.range k).foldl (fun (p : (List Byte × Bool) × Mach) i =>
    let ((b, f), m) := p.2.fabRead (first + i)
    ((p.1.1 ++ b, p.1.2 || f), m)) (([], false), m)
  (((bs.drop (a % 64)).take n, fail), m)

/-- The part of bytes at `a` that falls in `line`, as a line write. -/
def lineWriteOf (line a : Nat) (bs : List Byte) : LineWrite :=
  let inside (i : Nat) : Bool := a ≤ 64 * line + i && 64 * line + i < a + bs.length
  { data := (List.range 64).map fun i => if inside i then bs.getD (64 * line + i - a) 0 else 0
    enable := BitVec.ofNat 64 ((List.range 64).foldl (fun e i => if inside i then e + 2 ^ i else e) 0) }

/-- Write bytes at `a` past the cache, line by line. -/
def writeBytes (m : Mach) (a : Nat) (bs : List Byte) : Mach :=
  if bs.length = 0 then m else
  let first := a / 64
  let k := (a + bs.length - 1) / 64 - first + 1
  (List.range k).foldl (fun m i => m.fabWrite (first + i) (lineWriteOf (first + i) a bs)) m

end Mach

/-- BUFFER_LINE_ACCESS (R212–R219, R230): a bypassing access. `decay`: the LPDDR5X no longer returns the line as it was
written, so its check fails from now until the line is written in full. -/
def bufferLineAccess (a : LineAccess) (decay : Bool) (m : Mach) : Mach :=
  let m := m.when (decay && 64 * a.line < bufEnd) fun m => m.setMem (·.poison a.line)
  match a.write with
  | some w =>
    let m := m.settleLine a.line
    (m.partialFail a.port a.line w).fabWrite a.line w
  | none =>
    let ((bs, fail), m) := m.fabRead a.line
    m.deliver a.port a.line bs fail

/-- BUFFER_FILL_END (R218, R380): the zero fill of P4 ends, and P5 begins. -/
def bufferFillEnd (m : Mach) : Mach :=
  if m.get BUF_STAT_INIT = 1 then
    (((m.setMem fun b => { b with cells := [], bad := [] }).set BUF_STAT_INIT 2).set RST_STAT_BUFOK 1).set RST_PHASE_PHASE 5
  else m

/-! #### Cache accesses -/

namespace Mach

/-- Latch the place of a DED_DIRTY or TAG_DIRTY (R231, R233). -/
def latchErrLoc (m : Mach) (set : Nat) (way : Fin 16) : Mach :=
  m.when (!m.is CCH_ERRLOC_VALID) fun m =>
    ((m.set CCH_ERRLOC_SET set).set CCH_ERRLOC_WAY way.val).set CCH_ERRLOC_VALID 1

/-- CAP of the leaky buckets; 0 acts as 1 (R232). -/
def bucketCap (m : Mach) : Nat := max 1 (m.get CCH_BKCFG_CAP)

/-- A corrected error: the count and the bank's bucket (R231, R232). -/
def correctedError (m : Mach) (bank : Nat) : Mach :=
  let m := m.incSat CCH_CNT_SEC 1
  if m.bucketCap ≤ m.get (CCH_BUCKET_LEVEL bank) then m.flagEvent (CCH_BUCKET_OVF bank) 70
  else m.set (CCH_BUCKET_LEVEL bank) (m.get (CCH_BUCKET_LEVEL bank) + 1)

/-- A miss: it merges, takes a register, or waits in its bank's queue (R234). `waited` accesses come from the queue. -/
def miss (m : Mach) (a : LineAccess) : Mach :=
  let c := m.buf.cache
  let bank : Fin 16 := Fin.ofNat 16 a.line
  match c.misses.find? (·.line == a.line) with
  | some r =>
    if r.accesses.length < 9 then
      m.setCache fun c => { c with misses := c.misses.map fun x =>
        if x.line = a.line then { x with accesses := x.accesses ++ [a] } else x }
    else (m.setCache fun c => { c with queues := updAt c.queues bank (· ++ [a]) }).incSat CCH_MISS_FULL 1
  | none =>
    if c.misses.length < 64 then
      (m.setCache fun c => { c with misses := c.misses ++ [⟨a.line, [a]⟩] }).syncMiss
    else (m.setCache fun c => { c with queues := updAt c.queues bank (· ++ [a]) }).incSat CCH_MISS_FULL 1

/-- A tag parity error of a way: the way is invalidated (R233). -/
def tagError (m : Mach) (set : Nat) (way : Fin 16) (dirty : Bool) : Mach :=
  let m := m.setCache (·.drop set way)
  if dirty then (m.latchErrLoc set way).flagEvent CCH_ERR_TAG_DIRTY 66 else m.flagEvent CCH_ERR_TAG_CLEAN 65

end Mach

/-- CACHE_ACCESS (R229–R234): a cacheable access, with what the SECDED words of a hit line show and the way, if any,
whose tag parity fails, with its dirty bit as read. -/
def cacheAccess (a : LineAccess) (ecc : EccResult) (tagBad : Option (Fin 16 × Bool)) (m : Mach) : Mach :=
  if !m.is CCH_CTRL_EN then bufferLineAccess a false m else
  let set := cacheSet a.line
  let bank : Fin 16 := Fin.ofNat 16 a.line
  if 16 ≤ m.buf.cache.queues[bank].length then m
  else if m.buf.cache.queues[bank].any (·.line == a.line) then
    (m.setCache fun c => { c with queues := updAt c.queues bank (· ++ [a]) }).incSat CCH_MISS_FULL 1
  else
  match tagBad with
  | some (w, d) => (m.tagError set w d).miss a
  | none =>
    match m.buf.cache.find a.line with
    | none => m.miss a
    | some l =>
      match ecc with
      | .good => m.serveHit l a
      | .single => (m.correctedError bank.val).serveHit l a
      | .double =>
        if l.dirty then
          let m := ((m.bufWritePoisoned a.line l.data).setCache (·.drop l.set l.way)).latchErrLoc l.set l.way
          let m := m.flagEvent CCH_ERR_DED_DIRTY 64
          match a.write with
          | none => m.deliver a.port a.line l.data true
          | some _ => m.miss a
        else (((m.setCache (·.drop l.set l.way)).incSat CCH_CNT_DED_CLEAN 1).report 71).miss a

namespace Mach

/-- A waiting access finds neither a merge place nor a free register (R234). -/
def missBlocked (m : Mach) (line : Nat) : Bool :=
  match m.buf.cache.misses.find? (·.line == line) with
  | some r => decide (9 ≤ r.accesses.length)
  | none => (m.buf.cache.find line).isNone && decide (64 ≤ m.buf.cache.misses.length)

/-- Present the oldest access of a bank's queue again. -/
def drainQueue (m : Mach) (bank : Fin 16) : Mach :=
  match m.buf.cache.queues[bank] with
  | [] => m
  | a :: rest =>
    if m.missBlocked a.line then m else
    let m := m.setCache fun c => { c with queues := c.queues.set bank rest }
    match m.buf.cache.find a.line with
    | some l => m.serveHit l a
    | none => m.miss a

end Mach

namespace Mach

/-- A whole cacheable read in one step: a miss is filled at once (R229). With EN = 0 it bypasses (R236). -/
def cachedRead (m : Mach) (line : Nat) : (List Byte × Bool) × Mach :=
  if !m.is CCH_CTRL_EN then m.fabRead line else
  let m := m.settleLine line
  match m.buf.cache.find line with
  | some l => ((l.data, false), m.setCache (·.touch l))
  | none =>
    let ((bs, fail), m) := m.bufRead line
    if fail then ((bs, true), m) else ((bs, false), m.installLine line bs)

/-- A whole cacheable write in one step, allocating on a miss (R229). -/
def cachedWrite (m : Mach) (line : Nat) (w : LineWrite) : Mach :=
  if !m.is CCH_CTRL_EN then m.fabWrite line w else
  let m := m.settleLine line
  let m := match m.buf.cache.find line with
    | some _ => m
    | none =>
      let ((bs, fail), m) := m.bufRead line
      if fail then m else m.installLine line bs
  match m.buf.cache.find line with
  | some l => m.setCache fun c =>
      let l := { l with data := w.merge l.data, dirty := true }
      (c.put l).touch l
  | none => m.bufWrite line w

end Mach

/-- MISS_FILL_DONE (R234): the fill of the `k`-th miss register in use ends; the victim is written back, the waiting
accesses complete in grant order, and waiting misses are presented again. -/
def missFillDone (k : Nat) (m : Mach) : Mach :=
  match m.buf.cache.misses[k]? with
  | none => m
  | some r =>
    let m := (m.setCache fun c => { c with misses := c.misses.eraseIdx k }).syncMiss
    (allFin 16).foldl Mach.drainQueue (m.fillLine r.line r.accesses)

/-- BUCKET_LEAK (R232): LEAK milliseconds have passed; the bank's bucket loses 1. -/
def bucketLeak (bank : Fin 16) (m : Mach) : Mach :=
  m.set (CCH_BUCKET_LEVEL bank.val) (m.get (CCH_BUCKET_LEVEL bank.val) - 1)

/-! #### Maintenance operations -/

namespace Mach

/-- Treat the lines that `sel` selects, in walk order: write dirty lines back where `clean`, then keep them clean or
invalidate them (Table 9-2). -/
def mopWalk (m : Mach) (sel : CacheLine → Bool) (clean inval : Bool) : Mach :=
  let hit := m.buf.cache.lines.filter sel
  let m := if clean then hit.foldl (fun m l => m.writeBack l) m else m
  m.setCache fun c => { c with
    lines := if inval then c.lines.filter fun l => !sel l
             else c.lines.map fun l => if sel l && clean then { l with dirty := false } else l }

/-- A GO with operation `op` is written: OP is stored; a running operation makes it ignored (R235). -/
def mopGo (m : Mach) (op : Nat) (f : Mach → Mach) : Mach :=
  let m := m.set CCH_MOP_CMD_OP op
  if m.is CCH_MOP_STAT_BUSY then m.flagEvent CCH_ERR_MOP_BUSY 67 else f m

/-- A range operation (R235): CCH_MOP_LEN lines from CCH_MOP_ADDR. -/
def mopRange (m : Mach) (op : Nat) (clean inval : Bool) : Mach :=
  m.mopGo op fun m =>
    let first := m.get CCH_MOP_ADDR_LINE
    let n := m.get CCH_MOP_LEN_LINES
    if n = 0 ∨ bufEnd < 64 * (first + n) then m.flagEvent CCH_ERR_MOP_RANGE 68
    else (m.mopWalk (fun l => first ≤ l.line && l.line < first + n) clean inval).set CCH_MOP_STAT_BUSY 1

/-- A set-and-way operation (R235). -/
def mopSetWay (m : Mach) (op set : Nat) (way : Fin 16) (clean inval : Bool) : Mach :=
  let m := (m.set CCH_MOP_CMD_SET set).set CCH_MOP_CMD_WAY way.val
  m.mopGo op fun m =>
    if 24576 ≤ set then m.flagEvent CCH_ERR_MOP_RANGE 68
    else (m.mopWalk (fun l => l.set == set && l.way == way) clean inval).set CCH_MOP_STAT_BUSY 1

end Mach

/-- MOP_CLEAN_RANGE (Table 9-2, OP 1). -/
def mopCleanRange (m : Mach) : Mach := m.mopRange 1 true false
/-- MOP_INVALIDATE_RANGE (Table 9-2, OP 2). -/
def mopInvalidateRange (m : Mach) : Mach := m.mopRange 2 false true
/-- MOP_CLEAN_INVALIDATE_RANGE (Table 9-2, OP 3). -/
def mopCleanInvalidateRange (m : Mach) : Mach := m.mopRange 3 true true
/-- MOP_CLEAN_SET_WAY (Table 9-2, OP 4). -/
def mopCleanSetWay (set : Fin 32768) (way : Fin 16) (m : Mach) : Mach := m.mopSetWay 4 set.val way true false
/-- MOP_INVALIDATE_SET_WAY (Table 9-2, OP 5). -/
def mopInvalidateSetWay (set : Fin 32768) (way : Fin 16) (m : Mach) : Mach := m.mopSetWay 5 set.val way false true
/-- MOP_CLEAN_INVALIDATE_SET_WAY (Table 9-2, OP 6). -/
def mopCleanInvalidateSetWay (set : Fin 32768) (way : Fin 16) (m : Mach) : Mach := m.mopSetWay 6 set.val way true true
/-- The effect of operation 7 on the lines. -/
def Mach.mopAll (m : Mach) : Mach := m.mopWalk (fun _ => true) true true
/-- MOP_CLEAN_INVALIDATE_ALL (Table 9-2, OP 7). -/
def mopCleanInvalidateAll (m : Mach) : Mach := m.mopGo 7 fun m => m.mopAll.set CCH_MOP_STAT_BUSY 1
/-- MOP_DONE (R235): the walk and its write-backs have ended. -/
def mopDone (m : Mach) : Mach := m.set CCH_MOP_STAT_BUSY 0

/-- CCH_EN_WRITE (R236): a change of EN is accepted only while no line is valid. -/
def cchEnWrite (en : Bool) (m : Mach) : Mach :=
  if m.is CCH_CTRL_EN = en then m
  else if m.buf.cache.lines.isEmpty then m.setFlag CCH_CTRL_EN en
  else m.flagEvent CCH_ERR_EN_BUSY 69

/-! ### Pools (R221–R228) -/

/-- The handle of index `i` of pool `p`. -/
def handleOf (p : PoolId) (i : Nat) : Nat := p.val * 2 ^ 21 + i
/-- The pool that a handle names. -/
def handlePool (h : Nat) : PoolId := Fin.ofNat 8 (h / 2 ^ 21)
/-- The index that a handle names. -/
def handleIndex (h : Nat) : Nat := h % 2 ^ 21

/-- The channel of a buffer address (Table 9-1). -/
def bufChannel (a : Nat) : Nat := a / 512 % 4
/-- The bank of a buffer address (Table 9-1). -/
def bufBank (a : Nat) : Nat := (a / 4096 % 16) ^^^ (a / 65536 % 16)

namespace Mach

/-- COUNT of a pool. -/
def poolCount (m : Mach) (p : PoolId) : Nat := m.get (POOL_CFG_COUNT p.val)
/-- Address of a buffer's 4 KiB (R221). -/
def pageAddr (m : Mach) (p : PoolId) (i : Nat) : Nat := 4 * m.get (POOL_BUFBASE_ADDR p.val) + 4096 * i
/-- Address of a buffer's tail line (R221). -/
def tailAddr (m : Mach) (p : PoolId) (i : Nat) : Nat := 4 * m.get (POOL_TAILBASE_ADDR p.val) + 64 * i
/-- Address of the ring's slot `i` (R222). -/
def ringAddr (m : Mach) (p : PoolId) (i : Nat) : Nat := 4 * m.get (POOL_RINGBASE_ADDR p.val) + 4 * i

/-- The bank of a channel is marked retired (R228). -/
def bankRetired (m : Mach) (c b : Nat) : Bool :=
  let n := 16 * c + b
  if n < 32 then (m.get POOL_BANKRET0_BANKS).testBit n else (m.get POOL_BANKRET1_BANKS).testBit (n - 32)

/-- The buffer lies, with its page or its tail line, in a retired bank (R228). -/
def inRetiredBank (m : Mach) (p : PoolId) (i : Nat) : Bool :=
  let t := m.tailAddr p i
  ((List.range 4).any fun c => m.bankRetired c (bufBank (m.pageAddr p i))) || m.bankRetired (bufChannel t) (bufBank t)

/-- The buffer is retired, by table or by bank (R227, R228). -/
def poolRetired (m : Mach) (p : PoolId) (i : Nat) : Bool :=
  m.buf.retired.contains (handleOf p i) || m.inRetiredBank p i

/-- The pool's retired buffers. -/
def retiredCount (m : Mach) (p : PoolId) : Nat := (List.range (m.poolCount p)).countP (m.poolRetired p)

/-- Update a pool. -/
def setPool (m : Mach) (p : PoolId) (f : Pool → Pool) : Mach :=
  m.setBuf fun b => { b with pools := updAt b.pools p f }

/-- POOL_STATp and POOL_RETSTATp follow the pool. -/
def syncPool (m : Mach) (p : PoolId) : Mach :=
  let q := m.buf.pools[p]
  (((m.set (POOL_STAT_FREE p.val) q.free).set (POOL_STAT_CACHED p.val) q.cache.length).setFlag
    (POOL_STAT_WAITING p.val) (!q.waiting.isEmpty)).set (POOL_RETSTAT_RETIRED p.val) (m.retiredCount p)

/-- The pool serves requests: enabled, ring written. -/
def poolServes (m : Mach) (p : PoolId) : Bool := m.is (POOL_CFG_EN p.val) && !m.is (POOL_CFG_INIT_BUSY p.val)

/-- The conditions of R222 for EN = 1. -/
def poolCfgOk (m : Mach) (p : PoolId) : Bool :=
  let n := m.poolCount p
  let others := (allFin 8).foldl (fun s q => if q ≠ p ∧ m.is (POOL_CFG_EN q.val) then s + m.poolCount q else s) 0
  m.pageAddr p 0 % 4096 == 0 && m.tailAddr p 0 % 64 == 0
    && m.pageAddr p n ≤ bufEnd && m.tailAddr p n ≤ bufEnd && m.ringAddr p n ≤ bufEnd
    && 1 ≤ n && others + n ≤ 1966080

/-- The low event, when FREE falls below LOW (R224). -/
def lowEvent (m : Mach) (p : PoolId) (before : Nat) : Mach :=
  let low := m.get (POOL_THR_LOW p.val)
  m.when (low ≤ before && m.buf.pools[p].free < low) (·.report (48 + p.val))

end Mach

/-- The pool manager's port and class (Table 2-2). -/
def poolPort : Port := 21

namespace Mach

/-- Traffic of the pool manager on `n` words of the ring from slot `i` on, in at most two stretches (R222). -/
def ringDemand (m : Mach) (p : PoolId) (i n : Nat) : Mach :=
  let first := min n (m.poolCount p - i)
  (m.demand poolPort 12 (m.ringAddr p i) (4 * first)).demand poolPort 12 (m.ringAddr p 0) (4 * (n - first))

/-- A handle cache below 128 asks for 64 handles of the ring; one above 448 asks to write 64 to it (R222). -/
def ringMove (m : Mach) (p : PoolId) : Mach :=
  let q := m.buf.pools[p]
  if !m.poolServes p || q.moving.isSome then m
  else if q.cache.length < 128 ∧ 0 < q.inRing then
    (m.setPool p fun q => { q with moving := some false }).ringDemand p q.head (min 64 q.inRing)
  else if 448 < q.cache.length then
    (m.setPool p fun q => { q with moving := some true }).ringDemand p ((q.head + q.inRing) % m.poolCount p) 64
  else m

/-- A handle that cannot be handed out again is discarded: FREE no longer counts it (R224, R226). -/
def ringDiscard (m : Mach) (p : PoolId) : Mach :=
  let before := m.buf.pools[p].free
  ((m.setPool p fun q => { q with free := q.free - 1 }).flagEvent POOL_ERR_RING 45).lowEvent p before

end Mach

/-- POOL_EN_WRITE (R222): the handles are written into the ring through port 21. -/
def poolEnWrite (p : PoolId) (en : Bool) (m : Mach) : Mach :=
  if m.is (POOL_CFG_EN p.val) = en then m
  else if en then
    if m.poolCfgOk p then
      let m := (m.set (POOL_CFG_EN p.val) 1).set (POOL_CFG_INIT_BUSY p.val) 1
      let n := m.poolCount p
      let m := (m.setPool p fun q =>
        { q with used := [], cache := [], head := 0, inRing := n, free := n - m.retiredCount p, moving := none }).syncPool p
      m.ringDemand p 0 n
    else m.flagEvent POOL_ERR_CFG 40
  else if m.buf.pools[p].free = m.poolCount p - m.retiredCount p ∧ m.buf.pools[p].waiting.isEmpty then
    (m.set (POOL_CFG_EN p.val) 0).set (POOL_CFG_INIT_BUSY p.val) 0
  else m.flagEvent POOL_ERR_BUSY 41

/-- POOL_RING_INIT_DONE (R222): handles 0 to COUNT − 1 stand in the ring in index order, once the port's bursts have moved. -/
def poolRingInitDone (p : PoolId) (m : Mach) : Mach :=
  if m.is (POOL_CFG_INIT_BUSY p.val) && m.portQuiet poolPort then
    let ring := (List.range (m.poolCount p)).flatMap fun i => toBytesLE 4 (handleOf p i)
    ((m.writeBytes (m.ringAddr p 0) ring).set (POOL_CFG_INIT_BUSY p.val) 0).ringMove p
  else m

/-- Take one handle from the ring into the cache, or discard it (R226, R227). -/
def Mach.ringTake (m : Mach) (p : PoolId) : Mach :=
  let q := m.buf.pools[p]
  if q.inRing = 0 then m else
  let ((bs, _), m) := m.readBytes (m.ringAddr p q.head) 4
  let i := handleIndex (ofBytesLE bs)
  let m := m.setPool p fun q => { q with head := (q.head + 1) % m.poolCount p, inRing := q.inRing - 1 }
  if m.poolRetired p i then m
  else if q.used.contains i then m.ringDiscard p
  else m.setPool p fun q => { q with cache := q.cache ++ [i] }

/-- Write handles at the end of the ring. -/
def Mach.ringPut (m : Mach) (p : PoolId) (is : List Nat) : Mach :=
  is.foldl (fun m i =>
    let q := m.buf.pools[p]
    let m := m.writeBytes (m.ringAddr p ((q.head + q.inRing) % m.poolCount p)) (toBytesLE 4 (handleOf p i))
    m.setPool p fun q => { q with inRing := q.inRing + 1 }) m

/-- The floor of a priority (R224). -/
def Mach.poolFloor (m : Mach) (p : PoolId) (prio : Nat) : Nat :=
  if prio = 2 then 0 else if prio = 1 then m.get (POOL_THR_LOW p.val) else m.get (POOL_THR_RESV p.val)

/-- Rank of a priority: reserve above normal above speculative (R224). -/
def prioRank (prio : Nat) : Nat := if prio = 2 then 2 else if prio = 1 then 0 else 1

/-- The pool can serve the request (R224). -/
def Mach.servable (m : Mach) (p : PoolId) (r : PoolReq) : Bool :=
  r.count + m.poolFloor p r.prio ≤ m.buf.pools[p].free

/-- The request served next: the highest priority, then the earliest, among those with no earlier request of the same
or a higher priority that cannot be served (R224). -/
def Mach.nextReq (m : Mach) (p : PoolId) : List PoolReq → List PoolReq → Option PoolReq
  | _, [] => none
  | before, r :: rs =>
    let later := m.nextReq p (before ++ [r]) rs
    if m.servable p r && before.all (fun b => prioRank b.prio < prioRank r.prio || m.servable p b) then
      match later with
      | some x => if prioRank r.prio < prioRank x.prio then some x else some r
      | none => some r
    else later

/-- Write a result line: words little-endian, the rest zero (R223). -/
def Mach.resultLine (m : Mach) (addr : Nat) (handles : List Nat) : Mach :=
  let bs := handles.flatMap (toBytesLE 4)
  m.fabWrite (addr / 64) (.whole (bs ++ List.replicate (64 - bs.length) 0))

/-- Cached handles that can be handed out: one retired since it was cached is dropped, and one whose state bit is set, or that
stands in the cache twice, is discarded with POOL_ERR.RING (R226, R227). -/
def Mach.sweepCache (m : Mach) (p : PoolId) : Mach :=
  let q := m.buf.pools[p]
  let live := q.cache.filter fun i => !m.poolRetired p i
  let good := (live.filter fun i => !q.used.contains i).eraseDups
  (List.range (live.length - good.length)).foldl (fun (m : Mach) _ => m.ringDiscard p)
    (m.setPool p fun q => { q with cache := good })

/-- POOL_GRANT (R223, R224, R226, R227): the pool grants its next request, all or nothing. The grant waits while the handle cache
holds too few. The result line is traffic of port 21. -/
def poolGrant (p : PoolId) (m : Mach) : Mach :=
  if !m.poolServes p then m else
  let m := m.sweepCache p
  let q := m.buf.pools[p]
  match m.nextReq p [] q.waiting with
  | none => m.syncPool p
  | some r =>
    if q.cache.length < r.count then (m.syncPool p).ringMove p else
    let taken := q.cache.take r.count
    let m := m.setPool p fun q => { q with
      cache := q.cache.drop r.count
      used := taken.foldl (fun u i => insertNat i u) q.used
      free := q.free - r.count
      waiting := q.waiting.filter (· ≠ r) }
    let m := (m.resultLine r.result (taken.map (handleOf p))).demand poolPort 12 r.result 64
    let m := ((m.set (POOL_MBSTAT_DONE r.mb.val) 1).set (POOL_MBSTAT_BUSY r.mb.val) 0).syncPool p
    (m.lowEvent p q.free).ringMove p

/-- A request is written to mailbox `mb` (R223): count, pool, priority 0–3, result address. -/
def mailboxRequest (mb : Mailbox) (count : Nat) (p : PoolId) (prio result : Nat) (m : Mach) : Mach :=
  if m.is (POOL_MBSTAT_BUSY mb.val) then m.flagEvent POOL_ERR_MB_BUSY 42 else
  let m := (m.set (POOL_MBSTAT_DONE mb.val) 0).set (POOL_MBSTAT_ERR mb.val) 0
  if count = 0 ∨ 16 < count ∨ !m.is (POOL_CFG_EN p.val) then
    (((m.resultLine result []).demand poolPort 12 result 64).set (POOL_MBSTAT_DONE mb.val) 1).set (POOL_MBSTAT_ERR mb.val) 1
  else
    let r : PoolReq := ⟨mb, count, if prio = 3 then 0 else prio, result⟩
    ((m.set (POOL_MBSTAT_BUSY mb.val) 1).setPool p fun q => { q with waiting := q.waiting ++ [r] }).syncPool p

/-- POOL_MB_WRITE (R223): the word written to POOL_MBm, with the count that POOL_MBSTATm.K holds. -/
def poolMbWrite (mb : Mailbox) (w : Word) (m : Mach) : Mach :=
  mailboxRequest mb (m.get (POOL_MBSTAT_K mb.val)) (Fin.ofNat 8 (getBits w 27 3)) (getBits w 30 2) (64 * getBits w 0 27) m

/-- A refused free: error flag, first latch, event (R225). -/
def Mach.freeRefused (m : Mach) (h : Nat) (l : Loc) (s : Nat) : Mach :=
  let m := m.when (!m.is POOL_FIRST_VALID) fun m => (m.set POOL_FIRST_HANDLE h).set POOL_FIRST_VALID 1
  m.flagEvent l s

/-- A free can be treated now: one that needs a place in a full handle cache waits for the cache to be written to the ring
(R222, R225). -/
def Mach.freeBlocked (m : Mach) (h : Nat) : Bool :=
  let p := handlePool h
  let i := handleIndex h
  m.is (POOL_CFG_EN p.val) && decide (i < m.poolCount p) && m.buf.pools[p].used.contains i && !m.poolRetired p i &&
    decide (512 ≤ m.buf.pools[p].cache.length)

/-- One free (R225, R227). -/
def Mach.freeOne (m : Mach) (h : Nat) : Mach :=
  let p := handlePool h
  let i := handleIndex h
  if !m.is (POOL_CFG_EN p.val) ∨ m.poolCount p ≤ i then m.freeRefused h POOL_ERR_BAD_HANDLE 43
  else if !m.buf.pools[p].used.contains i then m.freeRefused h POOL_ERR_DOUBLE_FREE 44
  else
    let m := m.setPool p fun q => { q with used := removeNat i q.used }
    if m.poolRetired p i then m
    else ((m.setPool p fun q => { q with free := q.free + 1, cache := q.cache ++ [i] }).syncPool p).ringMove p

/-- The queued frees are treated in order, up to one that must wait (R225). -/
def Mach.drainFrees : List Nat → Mach → Mach
  | [], m => m.setBuf fun b => { b with frees := [] }
  | h :: hs, m => if m.freeBlocked h then m.setBuf fun b => { b with frees := h :: hs } else Mach.drainFrees hs (m.freeOne h)

/-- POOL_FREE (R225, R227): the free joins the queue. Those beyond the 64 places of the queue are held on the register bus, in
the same order. -/
def poolFree (h : BitVec 24) (m : Mach) : Mach := Mach.drainFrees (m.buf.frees ++ [h.toNat]) m

/-- POOL_CACHE_REFILL (R222): the 64 handles asked for are read from the ring, or written to it, once the port's bursts have
moved. -/
def poolCacheRefill (p : PoolId) (m : Mach) : Mach :=
  let q := m.buf.pools[p]
  if !(m.poolServes p && m.portQuiet poolPort) then m
  else
    match q.moving with
    | none => m.ringMove p
    | some out =>
      let m := m.setPool p fun q => { q with moving := none }
      let m :=
        if out then
          let keep := q.cache.length - 64
          (m.setPool p fun q => { q with cache := q.cache.take keep }).ringPut p (q.cache.drop keep)
        else (List.range 64).foldl (fun (m : Mach) _ => m.ringTake p) m
      let m := (m.syncPool p).ringMove p
      Mach.drainFrees m.buf.frees m

/-- POOL_RETIRE (R227). -/
def poolRetire (h : BitVec 24) (m : Mach) : Mach :=
  let p := handlePool h.toNat
  let i := handleIndex h.toNat
  if m.buf.retired.contains h.toNat then m
  else if 1024 ≤ m.buf.retired.length then m.flagEvent POOL_ERR_RET_FULL 46
  else
    let live := m.is (POOL_CFG_EN p.val) && i < m.poolCount p && !m.poolRetired p i && !m.buf.pools[p].used.contains i
    let m := m.setBuf fun b => { b with retired := b.retired ++ [h.toNat] }
    let before := m.buf.pools[p].free
    let m := m.when live fun m => m.setPool p fun q => { q with free := q.free - 1 }
    (m.syncPool p).lowEvent p before

/-- POOL_BANKRET_WRITE (R228): bits only become 1; every buffer of a newly marked bank leaves its pool's free count. -/
def poolBankretWrite (half : Fin 2) (w : Word) (m : Mach) : Mach :=
  let l := if half = 0 then POOL_BANKRET0_BANKS else POOL_BANKRET1_BANKS
  let m' := m.set l (m.get l ||| w.toNat)
  (allFin 8).foldl (fun k p =>
    if m.is (POOL_CFG_EN p.val) then
      let lost := (List.range (m.poolCount p)).countP fun i =>
        m'.poolRetired p i && !m.poolRetired p i && !m.buf.pools[p].used.contains i
      ((k.setPool p fun q => { q with free := q.free - lost }).syncPool p).lowEvent p m.buf.pools[p].free
    else k) m'

/-! ### The scrubber (R237, R238) -/

/-- The scrubber's port and class (Table 2-2). -/
def scrubPort : Port := 22

/-- The scrubber asks for the lines of its range: all of them, or in valid-bit mode those of the pages whose bit is 1 (R237). -/
def Mach.scrubDemand (m : Mach) (first n : Nat) : Mach :=
  if m.is BUF_CTRL_INIT_MODE then
    let pages := (List.range ((first + n - 1) / 64 - first / 64 + 1)).map (first / 64 + ·)
    (pages.filter fun p => !m.pageInvalid p).foldl (fun (m : Mach) p =>
      let lo := max (64 * p) first
      let hi := min (64 * p + 64) (first + n)
      m.demand scrubPort 13 (64 * lo) (64 * (hi - lo))) m
  else m.demand scrubPort 13 (64 * first) (64 * n)

/-- SCB_GO (R237). -/
def scbGo (m : Mach) : Mach :=
  let first := m.get SCB_START_LINE
  let n := m.get SCB_LEN_LINES
  if m.is SCB_STAT_BUSY ∨ n = 0 ∨ bufEnd < 64 * (first + n) then m.flagEvent SCB_STAT_ERR 73
  else
    let s := 256 * m.get SCB_SUMADDR_ADDR
    let m := ((m.incWrap SCB_PASS_PASS 1).set SCB_STAT_BUSY 1).writeBytes (s + 248) (toBytesLE 8 0)
    (m.setBuf fun b => { b with scrub := some ⟨first, n, s, m.get CAL_FIGNO_FIGURE, false⟩ }).scrubDemand first n

/-- SCB_ABORT (R238): the pass offers no further burst; the lines that it has not asked for lie outside it. -/
def scbAbort (m : Mach) : Mach :=
  match m.buf.scrub with
  | none => m
  | some s =>
    let left := (m.cal.demands.find? (·.port == scrubPort)).map (·.line)
    let n := match left with
      | some l => min s.lines (l - s.start)
      | none => s.lines
    let m := m.setCal fun c => { c with demands := c.demands.filter (·.port != scrubPort) }
    m.setBuf fun b => { b with scrub := some { s with lines := n, aborting := true } }

/-- A scrub pass ends with its summary (R237, R238, Table 9-3). -/
def Mach.scrubEnd (m : Mach) : Mach :=
  match m.buf.scrub with
  | none => m
  | some s =>
    let n := s.lines
    let pages := if n = 0 then [] else
      (List.range ((s.start + n - 1) / 64 - s.start / 64 + 1)).map (s.start / 64 + ·)
    let skipped := pages.filter m.pageInvalid
    let skippedLines := skipped.foldl (fun k p => k + (min (64 * p + 64) (s.start + n) - max (64 * p) s.start)) 0
    let bad := m.buf.mem.bad.filter fun l => s.start ≤ l && l < s.start + n && !m.pageInvalid (l / 64)
    let m := bad.foldl Mach.checkFail m
    let bank (k : Nat) : Nat :=
      min 65535 (bad.countP fun l => bufChannel (64 * l) == k / 16 && bufBank (64 * l) == k % 16)
    let addrs := (bad.take 7).map (64 * ·)
    let sum := toBytesLE 4 (m.get SCB_PASS_PASS) ++ toBytesLE 4 (bitNat s.aborting)
      ++ toBytesLE 8 (64 * s.start) ++ toBytesLE 8 (n - skippedLines)
      ++ toBytesLE 4 (min bad.length 0xFFFFFFFF) ++ toBytesLE 4 skipped.length
      ++ toBytesLE 4 s.figure ++ toBytesLE 4 (m.get CAL_FIGNO_FIGURE) ++ toBytesLE 24 0
      ++ ((List.range 64).flatMap fun k => toBytesLE 2 (bank k))
      ++ ((List.range 7).flatMap fun k => toBytesLE 8 (addrs.getD k 0))
    let m := m.writeBytes s.sumAddr sum
    let m := m.writeBytes (s.sumAddr + 248) (toBytesLE 8 (addrs.length + 2 ^ 63))
    ((m.set SCB_STAT_BUSY 0).setBuf fun b => { b with scrub := none }).report 72

/-- SCRUB_PASS_END (R237, R238): the last burst of the pass, or of an aborted pass, has moved. -/
def scrubPassEnd (m : Mach) : Mach := if m.portQuiet scrubPort then m.scrubEnd else m

/-! ### Entry into M8 (R239) -/

/-- The pool's state image and its cached handles are written to the buffer (R239). -/
def Mach.poolSleep (m : Mach) (p : PoolId) : Mach :=
  if m.is (POOL_CFG_EN p.val) then
    let q := m.buf.pools[p]
    let n := m.poolCount p
    let byte (j : Nat) : Nat := (List.range 8).foldl (fun s b =>
      if 8 * j + b < n ∧ q.used.contains (8 * j + b) then s + 2 ^ b else s) 0
    let m := (m.setPool p fun q => { q with cache := [] }).ringPut p q.cache
    (m.writeBytes (4 * m.get (POOL_STBASE_ADDR p.val))
      ((List.range ((n + 7) / 8)).map fun j => BitVec.ofNat 8 (byte j))).syncPool p
  else m

/-- The steps of R239 before the LPDDR5X enters self-refresh for M8. -/
def Mach.bufSleep (m : Mach) : Mach :=
  let m := (scbAbort m).scrubEnd
  let m := m.mopAll
  let m := (allFin 8).foldl Mach.poolSleep m
  let m := m.when (m.is BUF_CTRL_INIT_MODE) fun m => m.setMem fun b =>
    { b with
      cells := b.cells.filter fun c => b.pages.test (c.1 / 4096)
      bad := b.bad.filter fun l => b.pages.test (l / 64)
      pages := ⟨true, []⟩ }
  m.setBuf fun b => { b with selfRef := true }

/-! ### Block resets (R240) -/

/-- POOL leaves block reset without ring pointers, caches or tables. -/
def Mach.clearPools (m : Mach) : Mach :=
  (m.setBuf fun b => { b with pools := Vector.replicate 8 Pool.initial, retired := [], frees := [] }).setCal fun c =>
    { c with demands := c.demands.filter (·.port != poolPort) }

/-- CCH leaves block reset with every line invalid. -/
def Mach.clearCache (m : Mach) : Mach := m.setCache fun _ => SysCache.initial

/-- SCB leaves block reset without a pass. -/
def Mach.clearScrub (m : Mach) : Mach := m.setBuf fun b => { b with scrub := none }

end Sys2Proof.Machine
end

