-- ==== Sys2Proof/Machine/Dma.lean ====
section
/-! DEFINITION. The DMA engine (spec/10_dma_engine.md). -/
namespace Sys2Proof.Machine

/-! ### Fields of a descriptor (Table 10-1) -/

def DmaDesc.own (d : DmaDesc) : Bool := bitsAt d 0 1 == 1
def DmaDesc.dir (d : DmaDesc) : Nat := bitsAt d 1 2
def DmaDesc.port (d : DmaDesc) : Fin 2 := Fin.ofNat 2 (bitsAt d 3 1)
def DmaDesc.hidx (d : DmaDesc) : Bool := bitsAt d 4 1 == 1
def DmaDesc.bhdl (d : DmaDesc) : Bool := bitsAt d 5 1 == 1
def DmaDesc.lcache (d : DmaDesc) : Bool := bitsAt d 6 1 == 1
def DmaDesc.irq (d : DmaDesc) : Bool := bitsAt d 7 1 == 1
def DmaDesc.elog (d : DmaDesc) : Nat := bitsAt d 12 4
def DmaDesc.piFmt (d : DmaDesc) : Nat := bitsAt d 16 2
def DmaDesc.mdx (d : DmaDesc) : Bool := bitsAt d 18 1 == 1
def DmaDesc.piOnly (d : DmaDesc) : Bool := bitsAt d 19 1 == 1
def DmaDesc.prAct (d : DmaDesc) : Bool := bitsAt d 20 1 == 1
def DmaDesc.chkRef (d : DmaDesc) : Bool := bitsAt d 21 1 == 1
def DmaDesc.chkApp (d : DmaDesc) : Bool := bitsAt d 22 1 == 1
def DmaDesc.chkGuard (d : DmaDesc) : Bool := bitsAt d 23 1 == 1
def DmaDesc.ushift (d : DmaDesc) : Nat := bitsAt d 24 4
def DmaDesc.xlist (d : DmaDesc) : Bool := bitsAt d 28 1 == 1
def DmaDesc.length (d : DmaDesc) : Nat := bitsAt d 32 32
def DmaDesc.haddr (d : DmaDesc) : Nat := bitsAt d 64 64
def DmaDesc.baddr (d : DmaDesc) : Nat := bitsAt d 128 33
def DmaDesc.fofs (d : DmaDesc) : Nat := bitsAt d 176 16
def DmaDesc.idxAddr (d : DmaDesc) : Nat := bitsAt d 192 33
def DmaDesc.tagBase (d : DmaDesc) : Nat := bitsAt d 256 64
def DmaDesc.refTag (d : DmaDesc) : Nat := bitsAt d 320 48
def DmaDesc.appTag (d : DmaDesc) : Nat := bitsAt d 368 16
def DmaDesc.appMask (d : DmaDesc) : Nat := bitsAt d 384 16

/-- Element size E (Table 10-1). -/
def DmaDesc.elem (d : DmaDesc) : Nat := 2 ^ (d.elog + 9)

/-- PI bytes per sector (R247, Sector mode). -/
def DmaDesc.piSize (d : DmaDesc) : Nat := if d.piFmt = 1 then 8 else if d.piFmt = 2 then 16 else 0

/-- Per-sector host size h. -/
def DmaDesc.sectorSize (d : DmaDesc) : Nat :=
  if d.piOnly then d.piSize else if d.mdx then 4096 + d.piSize else 4096

/-- The descriptor fails R242. -/
def DmaDesc.isBad (d : DmaDesc) : Bool :=
  let indexed := d.hidx && !d.xlist
  d.dir == 3
    || (d.length == 0 || 16777216 < d.length)
    || (indexed && (7 < d.elog || d.ushift < 2))
    || (d.xlist && !d.hidx)
    || (indexed && d.elem ≤ d.fofs)
    || d.piFmt == 3
    || (d.dir == 2 && (d.hidx || d.bhdl))
    || (!d.bhdl && (d.piFmt != 0 || d.mdx || d.piOnly || d.prAct || d.chkRef || d.chkApp || d.chkGuard))
    || (d.bhdl && d.length % d.sectorSize != 0)
    || (d.prAct && (d.mdx || d.piOnly))
    || (d.piOnly && d.piFmt == 0)

/-! ### Sector CRC and protection information (R68, R249) -/

/-- The CRC of an information block under its tag (R68). -/
def sectorCrc (tag : Nat) (block : List Byte) : Nat :=
  (crc32cFrom (BitVec.ofNat 32 tag ^^^ 0xFFFFFFFF) (block.take 4112 ++ (block.drop 4116).take 44)).toNat

/-- One bit of the 16-bit guard CRC (polynomial 0x8BB7). -/
def crc16Bit (c : BitVec 16) : BitVec 16 := if c.getLsbD 15 then (c <<< 1) ^^^ 0x8BB7 else c <<< 1

/-- The 16-bit guard of the NVM Command Set Specification. -/
def guard16 (bs : List Byte) : Nat :=
  (bs.foldl (fun c b => (List.range 8).foldl (fun x _ => crc16Bit x) (c ^^^ BitVec.ofNat 16 (b.toNat * 256))) (0 : BitVec 16)).toNat

/-- The 64-bit guard of the NVM Command Set Specification (polynomial 0xAD93_D235_94C9_3659, reflected). -/
def guard64 (bs : List Byte) : Nat :=
  (~~~(crcRefl (0x9A6C9329AC4BC9B5 : BitVec 64) (BitVec.allOnes 64) bs)).toNat

/-- The number spelled by bytes, the highest first. -/
def ofBytesBE (bs : List Byte) : Nat := ofBytesLE bs.reverse

/-- Guard, application tag and reference tag of PI bytes. -/
def piFields (fmt : Nat) (pi : List Byte) : Nat × Nat × Nat :=
  if fmt = 2 then (ofBytesBE (pi.take 8), ofBytesBE ((pi.drop 8).take 2), ofBytesBE ((pi.drop 10).take 6))
  else (ofBytesBE (pi.take 2), ofBytesBE ((pi.drop 2).take 2), ofBytesBE ((pi.drop 4).take 4))

/-- The guard that belongs to data. -/
def guardOf (fmt : Nat) (data : List Byte) : Nat := if fmt = 2 then guard64 data else guard16 data

/-- Reference tag of sector `k` (R249). -/
def DmaDesc.refAt (d : DmaDesc) (k : Nat) : Nat := (d.refTag + k) % (if d.piFmt = 2 then 2 ^ 48 else 2 ^ 32)

/-- PI generated for sector `k` (R249). -/
def DmaDesc.makePi (d : DmaDesc) (k : Nat) (data : List Byte) : List Byte :=
  if d.piFmt = 2 then toBytesBE 8 (guard64 data) ++ toBytesBE 2 d.appTag ++ toBytesBE 6 (d.refAt k)
  else if d.piFmt = 1 then toBytesBE 2 (guard16 data) ++ toBytesBE 2 d.appTag ++ toBytesBE 4 (d.refAt k)
  else []

/-- The first failed protection check of sector `k`: 0 none, 1 guard, 2 application tag, 3 reference tag (R249). -/
def DmaDesc.checkPi (d : DmaDesc) (k : Nat) (data pi : List Byte) : Nat :=
  if d.piFmt = 0 then 0 else
  let (g, app, ref) := piFields d.piFmt pi
  if app = 0xFFFF then 0
  else if d.chkGuard && g != guardOf d.piFmt data then 1
  else if d.chkApp && ((app ^^^ d.appTag) &&& d.appMask) != 0 then 2
  else if d.chkRef && ref != d.refAt k then 3
  else 0

/-- The tail line of a sector that the engine writes (R248): PI, CRC, tag, zeros. -/
def DmaDesc.tailLine (d : DmaDesc) (k : Nat) (data pi : List Byte) : List Byte :=
  let pi16 := (pi ++ List.replicate 16 0).take 16
  let tag := (d.tagBase + k) % 2 ^ 64
  let rest := toBytesLE 8 tag ++ List.replicate 36 (0 : Byte)
  pi16 ++ toBytesLE 4 (sectorCrc tag (data ++ pi16 ++ [0, 0, 0, 0] ++ rest)) ++ rest

/-! ### Rounds (R243) -/

/-- The next channel of a set in cyclic order after `last`. -/
def nextAfter {n : Nat} [NeZero n] (last : Fin n) (ready : Fin n → Bool) : Option (Fin n) :=
  ((List.range n).map fun i => Fin.ofNat n (last.val + 1 + i)).find? ready

/-- The next offering of a round set: the channel served and the set afterwards (R243). `ready l c`: channel `c` of level
`l` has an offering; `weight l`: W of the level, 0 acting as 1. -/
def DmaRound.next (weight : DmaLevel → Nat) (ready : DmaLevel → DmaCh → Bool) :
    Nat → DmaRound → Option (DmaCh × DmaRound)
  | 0, _ => none
  | fuel + 1, r =>
    let leave : DmaRound := { r with level := ⟨(r.level.val + 3) % 4, Nat.mod_lt _ (by decide)⟩, offered := 0 }
    if max 1 (weight r.level) ≤ r.offered then DmaRound.next weight ready fuel leave
    else match nextAfter r.last[r.level] (ready r.level) with
      | some c => some (c, { r with offered := r.offered + 1, last := r.last.set r.level c })
      | none => DmaRound.next weight ready fuel leave

namespace Mach

/-- Update the engine. -/
def setDma (m : Mach) (f : DmaState → DmaState) : Mach := { m with dma := f m.dma }

/-- Update a held descriptor. -/
def setHold (m : Mach) (n : DmaCh) (f : DmaHold → DmaHold) : Mach :=
  m.setDma fun d => { d with chans := updAt d.chans n (Option.map f) }

/-- Set one bit of a field. -/
def setBitAt (m : Mach) (l : Loc) (i : Nat) (b : Bool) : Mach :=
  let v := m.get l
  m.set l (if b then v ||| 2 ^ i else if v.testBit i then v - 2 ^ i else v)

/-- Bit `i` of a field. -/
def bitAt (m : Mach) (l : Loc) (i : Nat) : Bool := (m.get l).testBit i

/-- Level of a channel. -/
def dmaLevel (m : Mach) (n : DmaCh) : DmaLevel := Fin.ofNat 4 (m.get (DMA_CH_CFG_PRIO n.val))

/-- W of a level (R243). -/
def dmaWeight (m : Mach) (l : DmaLevel) : Nat :=
  m.get (if l = 0 then DMA_WEIGHT_W0 else if l = 1 then DMA_WEIGHT_W1 else if l = 2 then DMA_WEIGHT_W2 else DMA_WEIGHT_W3)

/-- The port is blocked (R254). -/
def dmaBlocked (m : Mach) (p : Fin 2) : Bool := m.is (if p = 0 then DMA_CTRL_BLOCK0 else DMA_CTRL_BLOCK1)

/-- Slots of a ring: 2^SIZE_LOG2, 4 to 12. -/
def ringSlots (m : Mach) (p : DmaLevel) : Nat := 2 ^ (max 4 (min 12 (m.get (DMA_RING_CFG_SIZE_LOG2 p.val))))

/-- The line of a ring slot. -/
def slotLine (m : Mach) (p : DmaLevel) (slot : Nat) : Nat := m.get (DMA_RING_BASE_ADDR p.val) + slot

/-- A read with a CACHE attribute (R230). -/
def attrRead (m : Mach) (cache : Bool) (line : Nat) : (List Byte × Bool) × Mach :=
  if cache then m.cachedRead line else m.fabRead line

/-- The bytes `n` at `a` of a list, with the LCACHE attribute: bytes, failing line address if any. -/
def listRead (m : Mach) (cache : Bool) (a n : Nat) : (List Byte × Option Nat) × Mach :=
  let l0 := a / 64
  let l1 := (a + n - 1) / 64
  let ((b0, f0), m) := m.attrRead cache l0
  if l1 = l0 then (((b0.drop (a % 64)).take n, if f0 then some (64 * l0) else none), m) else
  let ((b1, f1), m) := m.attrRead cache l1
  ((((b0 ++ b1).drop (a % 64)).take n, if f0 then some (64 * l0) else if f1 then some (64 * l1) else none), m)

/-- STATE of a channel. -/
def chState (m : Mach) (n : DmaCh) (v : Nat) : Mach := m.set (DMA_CH_STAT_STATE n.val) v

/-- The engine's fabric port (Table 2-2). -/
def dmaPort : Port := 12

/-- A channel asks for buffer traffic at the engine's port (R244). -/
def chDemand (m : Mach) (n : DmaCh) (cls : FabClass) (addr bytes : Nat) : Mach := m.demandAs n.val dmaPort cls addr bytes

/-- Every burst that a channel asked for has reached its burst boundary. -/
def chQuiet (m : Mach) (n : DmaCh) : Bool := m.quietFor fun p o => p == dmaPort && o == n.val

/-- The channel offers no further burst or host request; bursts already offered run to their boundary (R252, R253). -/
def chStop (m : Mach) (n : DmaCh) : Mach :=
  (m.setCal fun s => { s with demands := s.demands.filter fun d => !(d.port == dmaPort && d.owner == n.val) }).setHold n
    fun h => { h with out := [], read := none, arrived := [], stop := none }

/-- The channel becomes idle. -/
def chIdle (m : Mach) (n : DmaCh) : Mach :=
  let m := (m.chStop n).setDma fun d => { d with chans := d.chans.set n none }
  let m := ((m.chState n 0).set (DMA_CH_STAT_RING n.val) 0).set (DMA_CH_STAT_SLOT n.val) 0
  let m := m.set (DMA_CH_MOVED_MOVED n.val) 0
  (m.setBitAt DMA_STAT_ACTIVE n.val false).setBitAt DMA_STAT_HALTED n.val false

/-- A descriptor is to be completed: its two status writes are asked for under class FW (R244, R251). -/
def chComplete (m : Mach) (n : DmaCh) (e : DmaEnd) : Mach :=
  match m.dma.chans[n] with
  | none => m
  | some h =>
    let a := 64 * m.slotLine h.ring h.slot
    let m := (m.chStop n).setHold n fun h => { h with fin := some e, step := .status, cause := 0 }
    let m := (m.chState n 5).setBitAt DMA_STAT_HALTED n.val false
    (m.chDemand n 11 (a + 56) 8).chDemand n 11 a 8

/-- The two status writes, the completion event, and the idle channel (R251). -/
def chStatus (m : Mach) (n : DmaCh) (h : DmaHold) (e : DmaEnd) : Mach :=
  let line := m.slotLine h.ring h.slot
  let cache := m.is (DMA_RING_CFG_CACHE h.ring.val)
  let w7 := h.moved + e.status * 2 ^ 32 + e.piKind * 2 ^ 36 + e.sect * 2 ^ 40
  let w0 := bitsAt h.desc 0 64 / 2 * 2
  let put (m : Mach) (k v : Nat) : Mach :=
    let w : LineWrite := lineWriteOf line (64 * line + 8 * k) (toBytesLE 8 v)
    if cache then m.cachedWrite line w else m.fabWrite line w
  let m := put (put m 7 w7) 0 w0
  (m.when h.desc.irq fun m => m.report (112 + h.ring.val)).chIdle n

/-- The descriptor's movement has ended: a read-back is due where host memory was written (R250). -/
def chFinish (m : Mach) (n : DmaCh) (e : DmaEnd) : Mach :=
  match m.dma.chans[n] with
  | none => m
  | some h =>
    if h.last.isSome then (m.chStop n).setHold n fun h => { h with fin := some e, step := .host } else m.chComplete n e

/-- A channel halts (R252). -/
def chHalt (m : Mach) (n : DmaCh) (cause addr : Nat) : Mach :=
  match m.dma.chans[n] with
  | none => m
  | some h =>
    let m := ((m.chStop n).setHold n fun h => { h with cause := cause }).chState n 4
    let m := m.when (!m.is (DMA_CH_HALT_VALID n.val)) fun m =>
      let m := (m.set (DMA_CH_HALT_CAUSE n.val) cause).set (DMA_CH_HALT_PORT n.val) h.desc.port.val
      ((m.set (DMA_CH_ADDRLO_ADDR n.val) addr).set (DMA_CH_ADDRHI_ADDR n.val) (addr / 2 ^ 32)).set
        (DMA_CH_HALT_VALID n.val) 1
    (m.setBitAt DMA_STAT_HALTED n.val true).report (96 + n.val)

/-- The movement ends as `s` says. -/
def chApply (m : Mach) (n : DmaCh) (s : DmaStop) : Mach :=
  match s with
  | .fin e => m.chFinish n e
  | .halt cause addr => m.chHalt n cause addr

/-- Count completed bytes. -/
def chMoved (m : Mach) (n : DmaCh) (k : Nat) : Mach :=
  match m.dma.chans[n] with
  | none => m
  | some h => (m.setHold n fun h => { h with moved := h.moved + k }).set (DMA_CH_MOVED_MOVED n.val) (h.moved + k)

end Mach

/-! ### Host-side addressing (R246) -/

/-- Where a byte of the host stream lies. -/
inductive HostAt where
  | addr (a len : Nat)
  | bucket (len : Nat)
  | bad
  | listFail (a : Nat)
  deriving DecidableEq, Repr

/-- Walk an extent list to stream position `pos` (R246): `k` the extent, `start` the position where it begins. -/
def Mach.extentAt (d : DmaDesc) (pos : Nat) : Nat → Nat → Nat → Mach → HostAt × Mach
  | 0, _, _, m => (.bad, m)
  | fuel + 1, k, start, m =>
    let ((bs, fail), m) := m.listRead d.lcache (d.idxAddr + 8 * k) 8
    match fail with
    | some a => (.listFail a, m)
    | none =>
      let x := ofBytesLE bs
      let off := x % 2 ^ 40
      let full := x / 2 ^ 40
      let skip := if k = 0 then d.fofs else 0
      let len := full - skip
      if full ≤ skip then (.bad, m)
      else if pos < start + len then
        if off = 0xFFFFFFFFFF then (.bucket (start + len - pos), m)
        else (.addr ((d.haddr + off + skip + (pos - start)) % 2 ^ 64) (start + len - pos), m)
      else Mach.extentAt d pos fuel (k + 1) (start + len) m

/-- Where position `pos` of the host stream lies, and how many bytes follow there. -/
def Mach.hostAt (m : Mach) (d : DmaDesc) (pos : Nat) : HostAt × Mach :=
  if !d.hidx then (.addr ((d.haddr + pos) % 2 ^ 64) (d.length - pos), m)
  else if d.xlist then m.extentAt d pos (pos + 1) 0 0
  else
    let first := d.elem - d.fofs
    let k := if pos < first then 0 else 1 + (pos - first) / d.elem
    let off := if pos < first then d.fofs + pos else (pos - first) % d.elem
    let ((bs, fail), m) := m.listRead d.lcache (d.idxAddr + 4 * k) 4
    match fail with
    | some a => (.listFail a, m)
    | none =>
      let x := ofBytesLE bs
      if x = 0xFFFFFFFF then (.bucket (d.elem - off), m)
      else (.addr ((d.haddr + x * 2 ^ d.ushift + off) % 2 ^ 64) (d.elem - off), m)

namespace Mach

/-- The pool and index of sector `k`'s handle, or where the list fails, or a handle that names no buffer (R247). -/
def sectorBuffer (m : Mach) (d : DmaDesc) (k : Nat) : (Option (PoolId × Nat) × Option Nat) × Mach :=
  let ((bs, fail), m) := m.listRead d.lcache (d.baddr + 4 * k) 4
  let h := ofBytesLE bs % 2 ^ 24
  let p := handlePool h
  let i := handleIndex h
  let ok := m.is (POOL_CFG_EN p.val) && i < m.poolCount p
  ((if ok then some (p, i) else none, fail), m)

/-- Read whole lines from `line` on: bytes, first failing line. -/
def readLines (m : Mach) (line n : Nat) : (List Byte × Option Nat) × Mach :=
  (List.range n).foldl (fun (p : (List Byte × Option Nat) × Mach) i =>
    let ((b, f), m) := p.2.fabRead (line + i)
    ((p.1.1 ++ b, if p.1.2.isSome then p.1.2 else if f then some (line + i) else none), m)) (([], none), m)

/-- The bytes `n` at `a`, and the first line that failed its check. -/
def readBytesAt (m : Mach) (a n : Nat) : (List Byte × Option Nat) × Mach :=
  if n = 0 then (([], none), m)
  else
    let ((bs, bad), m) := m.readLines (a / 64) ((a + n - 1) / 64 - a / 64 + 1)
    (((bs.drop (a % 64)).take n, bad), m)

/-- A sector's information block: 64 data lines and the tail line (R221). -/
def readSector (m : Mach) (p : PoolId) (i : Nat) : (List Byte × Option Nat) × Mach :=
  let ((data, f1), m) := m.readLines (m.pageAddr p i / 64) 64
  let ((tail, f2), m) := m.readLines (m.tailAddr p i / 64) 1
  ((data ++ tail, if f1.isSome then f1 else f2), m)

/-- The channel may go on: it holds a descriptor in movement. -/
def chMoving (m : Mach) (n : DmaCh) : Bool :=
  match m.dma.chans[n] with
  | some h => h.cause = 0 && h.fin.isNone && h.step != .taking
  | none => false

end Mach

/-! ### Units

A transfer moves unit by unit: a sector in sector mode, else a piece of the buffer that one 512-byte block (DIR 1, DIR 2) or
one 4 KiB page (DIR 0) holds. -/

/-- Bytes of the unit that begins at stream position `pos`. -/
def DmaDesc.unitSize (d : DmaDesc) (pos : Nat) : Nat :=
  let rest := d.length - pos
  if d.bhdl then d.sectorSize
  else if d.dir = 0 then min rest (4096 - (d.baddr + pos) % 4096)
  else if d.dir = 1 then min rest (512 - (d.baddr + pos) % 512)
  else min rest (min (512 - (d.baddr + pos) % 512) (512 - (d.haddr + pos) % 512))

/-- Class of a descriptor's data and list traffic (R244). -/
def DmaDesc.cls (d : DmaDesc) : FabClass := Fin.ofNat 16 (bitsAt d 8 4)

/-- Sector index that a BADDESC found at a stream position carries. -/
def DmaDesc.sectAt (d : DmaDesc) (pos : Nat) : Nat := if d.bhdl then pos / d.sectorSize else 0

namespace Mach

/-- Extents that stream positions from `pos` up to `stop` need, as the list stands: first and count. -/
def extentsIn (m : Mach) (d : DmaDesc) (pos stop : Nat) : Nat → Nat → Nat → Option Nat → Nat × Nat
  | 0, k, _, first => (first.getD k, 0)
  | fuel + 1, k, start, first =>
    let x := ofBytesLE ((m.readBytes (d.idxAddr + 8 * k) 8).1.1)
    let len := x / 2 ^ 40 - (if k = 0 then d.fofs else 0)
    let first := if first.isNone && pos < start + len then some k else first
    if len = 0 ∨ stop ≤ start + len then (first.getD k, k + 1 - first.getD k)
    else extentsIn m d pos stop fuel (k + 1) (start + len) first

/-- The list entries of the host stream from `pos` on for `n` bytes are asked for under the descriptor's class. -/
def askEntries (m : Mach) (c : DmaCh) (d : DmaDesc) (pos n : Nat) : Mach :=
  if !d.hidx then m
  else if d.xlist then
    let (k, cnt) := m.extentsIn d pos (pos + n) (pos + n) 0 0 none
    m.chDemand c d.cls (d.idxAddr + 8 * k) (8 * cnt)
  else
    let first := d.elem - d.fofs
    let idx (p : Nat) : Nat := if p < first then 0 else 1 + (p - first) / d.elem
    m.chDemand c d.cls (d.idxAddr + 4 * idx pos) (4 * (idx (pos + n - 1) + 1 - idx pos))

/-- The lines of sector `k`'s buffer are asked for, after its handle-list entry: the data lines and the tail line. -/
def askSector (m : Mach) (c : DmaCh) (d : DmaDesc) (k : Nat) : Mach :=
  let m' := m.chDemand c d.cls (d.baddr + 4 * k) 4
  match (m.sectorBuffer d k).1 with
  | (some (p, i), none) => (m'.chDemand c d.cls (m.pageAddr p i) 4096).chDemand c d.cls (m.tailAddr p i) 64
  | _ => m'

/-- A channel's next unit begins (R243, R244): DIR 1 and DIR 2 ask for its traffic; DIR 0 asks for the list entries of its
host bytes first. -/
def beginUnit (m : Mach) (n : DmaCh) : Mach :=
  match m.dma.chans[n] with
  | none => m
  | some h =>
    let d := h.desc
    let pos := h.moved
    let size := d.unitSize pos
    let step (m : Mach) (s : DmaStep) : Mach := m.setHold n fun h => { h with step := s }
    if d.dir = 0 then step (m.askEntries n d pos size) (if d.hidx then .list else .host)
    else if d.dir = 2 then
      step ((m.chDemand n d.cls (d.haddr % 2 ^ 33 + pos) size).chDemand n d.cls (d.baddr + pos) size) .unit
    else
      let m := if d.bhdl then m.askSector n d (pos / d.sectorSize) else m.chDemand n d.cls (d.baddr + pos) size
      step (m.askEntries n d pos size) .unit

/-- The unit has moved: the descriptor ends OK with its last byte, else the next unit begins. -/
def unitDone (m : Mach) (n : DmaCh) : Mach :=
  match m.dma.chans[n] with
  | none => m
  | some h => if h.desc.length ≤ h.moved then m.chFinish n ⟨1, 0, 0⟩ else m.beginUnit n

/-! ### Host requests (R243, R244, R246) -/

/-- One host request of a DIR 1 channel: the next bytes of its stream, in one element, crossing no 4 KiB boundary and at most
Max_Payload_Size long; a bit bucket takes bytes without a request. -/
def sendNext (m : Mach) (n : DmaCh) (h : DmaHold) : Mach :=
  let d := h.desc
  let gone (m : Mach) (k : Nat) : Mach :=
    let m := (m.setHold n fun h => { h with out := h.out.drop k }).chMoved n k
    if h.out.length ≤ k then m.unitDone n else m
  match m.hostAt d h.moved with
  | (.bad, m) => m.chFinish n ⟨5, 0, d.sectAt h.moved⟩
  | (.listFail a, m) => m.chHalt n 4 a
  | (.bucket len, m) => gone m (max 1 (min h.out.length len))
  | (.addr a len, m) =>
    let k := max 1 (min (min h.out.length len) (min (4096 - a % 4096) m.host.ports[d.port].mps))
    gone ((m.tlp d.port (.hostWrite .plain d.port a (h.out.take k))).setHold n fun h => { h with last := some ((a + k - 1) % 2 ^ 64) }) k

/-- The bytes before a stop are in place at once, or, outside sector mode, once the bytes that have arrived are written
(R246, R252). -/
def stopAfter (m : Mach) (n : DmaCh) (h : DmaHold) (s : DmaStop) : Mach :=
  if h.desc.bhdl ∨ h.arrived = [] then m.chApply n s
  else
    (m.setHold n fun h => { h with stop := some s, read := none, step := .unit }).chDemand n h.desc.cls
      (h.desc.baddr + h.moved) h.arrived.length

/-- One host request of a DIR 0 channel: a memory read of the next bytes of its unit, in one element, crossing no 4 KiB
boundary and at most Max_Read_Request_Size long. A bit bucket ends the descriptor. -/
def readNext (m : Mach) (n : DmaCh) (h : DmaHold) : Mach :=
  let d := h.desc
  let pos := h.moved + h.arrived.length
  match m.hostAt d pos with
  | (.bad, m) => m.stopAfter n h (.fin ⟨5, 0, d.sectAt pos⟩)
  | (.bucket _, m) => m.stopAfter n h (.fin ⟨5, 0, d.sectAt pos⟩)
  | (.listFail a, m) => m.stopAfter n h (.halt 4 a)
  | (.addr a len, m) =>
    let rest := d.unitSize h.moved - h.arrived.length
    let k := max 1 (min (min rest len) (min (4096 - a % 4096) (max 128 m.host.ports[d.port].mrrs)))
    (m.tlp d.port (.hostRead .read d.port a k)).setHold n fun h => { h with read := some (a, k), since := m.clock }

/-- A channel's next step is a host request for data. -/
def hostReady (m : Mach) (n : DmaCh) : Bool :=
  m.chMoving n && (match m.dma.chans[n] with
    | some h => h.step == .host && (if h.desc.dir = 0 then h.read.isNone else !h.out.isEmpty)
    | none => false)

/-- The host-request rounds run until no channel has a host request (R243). -/
def pumpHost : Nat → Mach → Mach
  | 0, m => m
  | fuel + 1, m =>
    match DmaRound.next m.dmaWeight (fun l n => m.dmaLevel n == l && m.hostReady n) 5 m.dma.host with
    | none => m
    | some (n, r) =>
      let m := m.setDma fun d => { d with host := r }
      match m.dma.chans[n] with
      | none => m
      | some h => pumpHost fuel (if h.desc.dir = 0 then m.readNext n h else m.sendNext n h)

/-- Requests that the rounds can have to pass: a byte each at most, and a read or an end of each channel. -/
def hostFuel (m : Mach) : Nat :=
  (allFin 16).foldl (fun s n => s + 2 + (match m.dma.chans[n] with | some h => h.out.length | none => 0)) 0

/-- The host requests that are ready go to the host link. -/
def pump (m : Mach) : Mach := pumpHost m.hostFuel m

end Mach

/-! ### The commands -/

/-- The descriptor that a channel was taking has been read (R241, R242, R254). -/
def Mach.taken (m : Mach) (n : DmaCh) (h : DmaHold) : Mach :=
  let line := m.slotLine h.ring h.slot
  let ((bs, fail), m) := m.attrRead (m.is (DMA_RING_CFG_CACHE h.ring.val)) line
  let m := m.set (DMA_RING_HEAD_HEAD h.ring.val) ((h.slot + 1) % m.ringSlots h.ring)
  let d : DmaDesc := BitVec.ofNat 512 (ofBytesLE bs)
  let held := (m.setHold n fun h => { h with desc := d, step := .host, stop := none }).chState n 2
  if fail then held.chHalt n 5 (64 * line)
  else if !d.own then (m.chIdle n).flagEvent DMA_ERR_NOTOWN 116
  else if m.dmaBlocked d.port ∨ h.stop.isSome then held.chComplete n ⟨6, 0, 0⟩
  else if d.isBad then held.chComplete n ⟨5, 0, 0⟩
  else held.beginUnit n

/-- DMA_DESC_TAKE (R241, R242, R254): the lowest-numbered enabled, idle channel of level `p` asks for the descriptor in slot
HEAD of ring `p` under class FW; once its burst has come, the row ends the taking: HEAD advances, and the movement begins or
the descriptor ends. -/
def dmaDescTake (p : DmaLevel) (m : Mach) : Mach :=
  let taking (n : DmaCh) : Bool := match m.dma.chans[n] with
    | some h => h.step == .taking && h.cause == 0 && h.ring == p
    | none => false
  match (allFin 16).find? taking with
  | some n =>
    match m.dma.chans[n] with
    | none => m
    | some h => if m.chQuiet n then (m.taken n h).pump else m
  | none =>
    let head := m.get (DMA_RING_HEAD_HEAD p.val)
    let free (n : DmaCh) : Bool :=
      m.is (DMA_CH_CFG_EN n.val) && m.dmaLevel n == p && m.dma.chans[n].isNone && m.chQuiet n
    match (allFin 16).find? free with
    | none => m
    | some n =>
      if !m.is DMA_CTRL_EN ∨ head = m.get (DMA_RING_TAIL_TAIL p.val) then m else
      let hold : DmaHold := ⟨p, head, 0, 0, [], none, none, 0, .taking, [], none, 0, none⟩
      let m := ((m.setDma fun s => { s with chans := s.chans.set n (some hold) }).set
        (DMA_CH_STAT_RING n.val) p.val).set (DMA_CH_STAT_SLOT n.val) head
      ((m.setBitAt DMA_STAT_ACTIVE n.val true).chState n 1).chDemand n 11 (64 * m.slotLine p head) 64

namespace Mach

/-- Sector `k` of a DIR 1 descriptor in sector mode is checked; its host bytes wait to be sent (R248). -/
def checkSector (m : Mach) (n : DmaCh) (d : DmaDesc) (k : Nat) : Mach :=
  match m.sectorBuffer d k with
  | ((_, some a), m) => m.chHalt n 4 a
  | ((none, none), m) => m.chFinish n ⟨5, 0, k⟩
  | ((some (p, i), none), m) =>
    match m.readSector p i with
    | ((_, some line), m) => m.chHalt n 3 (64 * line)
    | ((block, none), m) =>
      let data := block.take 4096
      let pi := (block.drop 4096).take 16
      let tag := ofBytesLE ((block.drop 4116).take 8)
      if ofBytesLE ((block.drop 4112).take 4) ≠ sectorCrc tag block then m.chFinish n ⟨3, 0, k⟩
      else if tag ≠ (d.tagBase + k) % 2 ^ 64 then m.chFinish n ⟨4, 0, k⟩
      else if d.checkPi k data pi ≠ 0 then m.chFinish n ⟨2, d.checkPi k data pi, k⟩
      else
        let host := if d.piOnly then pi.take d.piSize else if d.mdx then data ++ pi.take d.piSize else data
        m.setHold n fun h => { h with out := host, step := .host }

/-- A burst of a DIR 1 descriptor outside sector mode has been read: its bytes wait to be sent. -/
def readBurst (m : Mach) (n : DmaCh) (d : DmaDesc) (moved : Nat) : Mach :=
  let a := d.baddr + moved
  let ((bs, bad), m) := m.readBytesAt a (d.unitSize moved)
  match bad with
  | some line => m.chHalt n 3 (64 * line)
  | none => m.setHold n fun h => { h with out := bs, step := .host }

/-- A burst of a DIR 2 descriptor is read before it is written (R249). -/
def copyBurst (m : Mach) (n : DmaCh) (d : DmaDesc) (moved : Nat) : Mach :=
  let k := d.unitSize moved
  let ((bs, bad), m) := m.readBytesAt (d.haddr % 2 ^ 33 + moved) k
  match bad with
  | some line => m.chHalt n 3 (64 * line)
  | none => ((m.writeBytes (d.baddr + moved) bs).chMoved n k).unitDone n

/-- Sector `k` of a DIR 0 descriptor is written from its host bytes (R248, R249). -/
def storeSector (m : Mach) (n : DmaCh) (d : DmaDesc) (k : Nat) (host : List Byte) : Mach :=
  match m.sectorBuffer d k with
  | ((_, some a), m) => m.chHalt n 4 a
  | ((none, none), m) => m.chFinish n ⟨5, 0, k⟩
  | ((some (p, i), none), m) =>
    let page := m.pageAddr p i
    let ((old, bad), m) := if d.piOnly then m.readLines (page / 64) 64 else (([], none), m)
    match bad with
    | some line => m.chHalt n 3 (64 * line)
    | none =>
      let data := if d.piOnly then old else host.take 4096
      let carried := d.mdx || d.piOnly
      let pi := if d.prAct then d.makePi k data else if d.piOnly then host else if d.mdx then host.drop 4096 else []
      let bad := if carried && !d.prAct then d.checkPi k data pi else 0
      let m := if d.piOnly then m else m.writeBytes page data
      let m := (m.writeBytes (m.tailAddr p i) (d.tailLine k data pi)).chMoved n d.sectorSize
      let m := m.setHold n fun h => { h with arrived := [] }
      if bad ≠ 0 then m.chFinish n ⟨2, bad, k⟩ else m.unitDone n

/-- The arrived bytes of a DIR 0 unit are written; what stopped it, if anything did, then ends or halts it. -/
def storeUnit (m : Mach) (n : DmaCh) (h : DmaHold) : Mach :=
  let d := h.desc
  if d.bhdl then m.storeSector n d (h.moved / d.sectorSize) h.arrived
  else
    let m := ((m.writeBytes (d.baddr + h.moved) h.arrived).chMoved n h.arrived.length).setHold n fun h => { h with arrived := [] }
    match h.stop with
    | some s => m.chApply n s
    | none => m.unitDone n

/-- A channel goes on once the bursts it asked for have come: the list entries of a unit, the unit itself, or the status
writes. -/
def chStep (m : Mach) (n : DmaCh) : Mach :=
  match m.dma.chans[n] with
  | none => m
  | some h =>
    if h.cause ≠ 0 ∨ ¬ m.chQuiet n then m
    else match h.step, h.fin with
      | .status, some e => m.chStatus n h e
      | .list, _ => m.setHold n fun h => { h with step := .host }
      | .unit, _ =>
        if h.desc.dir = 0 then m.storeUnit n h
        else if h.desc.dir = 2 then m.copyBurst n h.desc h.moved
        else if h.desc.bhdl then m.checkSector n h.desc (h.moved / h.desc.sectorSize)
        else m.readBurst n h.desc h.moved
      | _, _ => m

end Mach

/-- DMA_SECTOR_CHECK (R243, R244, R248–R252): every channel whose bursts have come goes on: a DIR 1 sector is checked, a
burst or a DIR 0 unit is moved, a status is written; then the host requests that are ready go to the host link. -/
def dmaSectorCheck (m : Mach) : Mach := ((allFin 16).foldl Mach.chStep m).pump

namespace Mach

/-- The host read of a DIR 0 channel fails (R252): the bytes before the failure are written, and the channel halts. -/
def hostReadFail (m : Mach) (n : DmaCh) (h : DmaHold) (a : Nat) : Mach := m.stopAfter n h (.halt 1 a)

/-- Bytes of the outstanding host read arrive. A whole unit is handed to the fabric; else the next host read is issued. -/
def takeHost (m : Mach) (n : DmaCh) (h : DmaHold) (a k : Nat) (bs : List Byte) : Mach :=
  let part := bs.take k
  let got := h.arrived ++ part
  let d := h.desc
  let size := d.unitSize h.moved
  if part.length < k then m.setHold n fun h => { h with arrived := got, read := some (a + part.length, k - part.length) }
  else if got.length < size then m.setHold n fun h => { h with arrived := got, read := none }
  else
    let m := m.setHold n fun h => { h with arrived := got, read := none, step := .unit }
    if d.bhdl then m.askSector n d (h.moved / d.sectorSize) else m.chDemand n d.cls (d.baddr + h.moved) size

end Mach

/-- HOST_READ_COMPLETION (R246, R248, R252): bytes of the host read that channel `n` has outstanding arrive, in stream order,
or (none) the read ends with an error status or poisoned. -/
def hostReadCompletion (n : DmaCh) (data : Option (List Byte)) (m : Mach) : Mach :=
  match m.dma.chans[n] with
  | none => m
  | some h =>
    match h.read, data with
    | some (a, k), some bs => (m.takeHost n h a k bs).pump
    | some (a, _), none => m.hostReadFail n h a
    | none, _ => m

/-- An error message goes to the host where its kind is enabled. -/
def Mach.errMessage (m : Mach) (p : PortId) (kind : Nat) : Mach :=
  m.when (m.host.ports[p].errEn.testBit kind) fun m => m.tlp p (.errorMessage p kind)

/-- An uncorrectable error is logged in AER, signalled as its mask and severity direct, and counted (R262). -/
def Mach.aerUncorr (m : Mach) (p : PortId) (bit : Nat) : Mach :=
  let m := { m with host := { m.host with ports := updAt m.host.ports p fun h => { h with aerUnc := h.aerUnc ||| 2 ^ bit } } }
  let h := m.host.ports[p]
  let m := m.when (!h.uncMask.testBit bit) fun m => m.errMessage p (if h.uncSev.testBit bit then 2 else 1)
  (m.incSat (HIF_AERCNT_UNCORR p.val) 1).report (136 + p.val)

/-- A correctable error is logged in AER, signalled as its mask directs, and counted (R262). -/
def Mach.aerCorrectable (m : Mach) (p : PortId) (bit : Nat) : Mach :=
  let m := { m with host := { m.host with ports := updAt m.host.ports p fun h => { h with aerCorr := h.aerCorr ||| 2 ^ bit } } }
  let m := m.when (!m.host.ports[p].corrMask.testBit bit) fun m => m.errMessage p 0
  (m.incSat (HIF_AERCNT_CORR p.val) 1).report (138 + p.val)

/-- The upper bound of a Completion Timeout range, µs (R434, PCIe Base 5.0 Device Control 2). -/
def timeoutUs (code : Nat) : Nat :=
  match code with
  | 1 => 100
  | 2 => 10000
  | 5 => 55000
  | 6 => 210000
  | 9 => 900000
  | 10 => 3500000
  | 13 => 13000000
  | 14 => 64000000
  | _ => 50000

/-- COMPLETION_TIMEOUT (R252, R262, R434): the read or read-back that channel `n` has outstanding times out, at the upper bound
of the selected range or up to 10 % before it. -/
def completionTimeout (n : DmaCh) (m : Mach) : Mach :=
  match m.dma.chans[n] with
  | none => m
  | some h =>
    if m.clock < h.since + timeoutUs m.host.ports[h.desc.port].cto * 11200 * 9 / 10 then m
    else if m.get (DMA_CH_STAT_STATE n.val) = 3 then
      (m.aerUncorr h.desc.port 14).chHalt n 2 (h.last.getD 0 / 4 * 4)
    else match h.read with
      | some (a, _) => (m.aerUncorr h.desc.port 14).hostReadFail n h a
      | none => m

/-- READBACK_ISSUE (R243, R250): the host-request rounds pick a channel whose last write has gone; it reads back the
dword of the last byte written. -/
def readbackIssue (m : Mach) : Mach :=
  let due (n : DmaCh) : Bool :=
    m.get (DMA_CH_STAT_STATE n.val) == 2 && (match m.dma.chans[n] with
      | some h => h.fin.isSome && h.cause == 0 && h.step == .host
      | none => false)
  match DmaRound.next m.dmaWeight (fun l n => m.dmaLevel n == l && due n) 5 m.dma.host with
  | none => m
  | some (n, r) =>
    let m := m.setDma fun d => { d with host := r }
    match m.dma.chans[n] with
    | none => m
    | some h => ((m.tlp h.desc.port (.hostRead .plain h.desc.port (h.last.getD 0 / 4 * 4) 4)).chState n 3).setHold n fun h => { h with since := m.clock }

/-- READBACK_COMPLETE (R250–R252): the read-back completes and the status is written, or it fails and the channel
halts. -/
def readbackComplete (n : DmaCh) (ok : Bool) (m : Mach) : Mach :=
  if m.get (DMA_CH_STAT_STATE n.val) ≠ 3 then m else
  match m.dma.chans[n] with
  | none => m
  | some h =>
    match h.fin with
    | none => m
    | some e => if ok then m.chComplete n e else m.chHalt n 2 (h.last.getD 0 / 4 * 4)

/-- An ignored channel control write (R253). -/
def Mach.ctrlIgnored (m : Mach) : Mach := m.flagEvent DMA_ERR_CTRL_IGN 117

/-- A running channel completes with ABORTED; one that is still reading its descriptor does so once it has come (R253,
R254). -/
def Mach.chAbort (m : Mach) (n : DmaCh) (h : DmaHold) : Mach :=
  if h.step = .taking then m.setHold n fun h => { h with stop := some (.fin ⟨6, 0, 0⟩) } else m.chComplete n ⟨6, 0, 0⟩

/-- DMA_CH_ABORT (R253). -/
def dmaChAbort (n : DmaCh) (m : Mach) : Mach :=
  match m.dma.chans[n] with
  | none => m.ctrlIgnored
  | some h =>
    if h.step = .status then m.ctrlIgnored
    else if h.cause = 0 then m.chAbort n h
    else if h.cause = 5 then m.chIdle n
    else m.chComplete n ⟨if h.cause ≤ 2 then 7 else 8, 0, 0⟩

/-- DMA_CH_RETRY (R253): the descriptor restarts from its first byte and reads its lists again. -/
def dmaChRetry (n : DmaCh) (m : Mach) : Mach :=
  match m.dma.chans[n] with
  | none => m.ctrlIgnored
  | some h =>
    if h.cause = 1 ∨ h.cause = 2 then
      let m := m.setHold n fun h => { h with moved := 0, last := none, fin := none, cause := 0 }
      ((((m.chState n 2).set (DMA_CH_MOVED_MOVED n.val) 0).setBitAt DMA_STAT_HALTED n.val false).beginUnit n).pump
    else m.ctrlIgnored

/-- Every held descriptor of a blocked port completes ABORTED, a halted one too (R254); one that could not be read is given
up, and one that is still being read or completed is left to that. -/
def Mach.abortPort (m : Mach) (p : Fin 2) : Mach :=
  (allFin 16).foldl (fun m n =>
    match m.dma.chans[n] with
    | some h =>
      if h.step = .taking ∧ h.cause = 0 ∨ h.step = .status ∨ h.desc.port ≠ p then m
      else if h.cause = 5 then m.chIdle n
      else m.chComplete n ⟨6, 0, 0⟩
    | none => m) m

/-- DMA_BLOCK_WRITE (R254): BLOCK0 and BLOCK1 are written. -/
def dmaBlockWrite (b0 b1 : Bool) (m : Mach) : Mach :=
  let m := (m.setFlag DMA_CTRL_BLOCK0 b0).setFlag DMA_CTRL_BLOCK1 b1
  let m := if b0 then m.abortPort 0 else m
  if b1 then m.abortPort 1 else m

/-- DMA_EN_WRITE (R254). -/
def dmaEnWrite (en : Bool) (m : Mach) : Mach := m.setFlag DMA_CTRL_EN en

/-- DMA leaves block reset without descriptors or round positions (R255). -/
def Mach.clearDma (m : Mach) : Mach := m.setDma fun _ => DmaState.initial

end Sys2Proof.Machine
end

