-- ==== Sys2Proof/Machine/Codec.lean ====
section
/-! DEFINITION. The codes of the channel and the write path: equalisation arithmetic (R57, R65), the LDPC code and its
decoder (R66–R72), AES-256-XTS (R74), and the track-parity field (R92). -/
namespace Sys2Proof.Machine

/-! ### Equalisation (R57) -/

/-- Division rounded to the nearest integer, ties away from zero. -/
def roundDiv (a : Int) (b : Nat) : Int :=
  if 0 ≤ a then (a + (b / 2 : Nat)) / b else -((-a + (b / 2 : Nat)) / b)

/-- Signed value of an ADC code. -/
def adcValue (c : Adc) : Int := c.toInt

/-- Sample `k` of a list; 0 outside. -/
def sampleAt (xs : Array Int) (k : Int) : Int := if k < 0 then 0 else xs.getD k.toNat 0

/-- A delayed 32-tap FIR, in units of 1/256 of a code; tap 12 is the one without delay. -/
def firAt (taps : Array Int) (delay : Nat) (xs : Array Int) (k : Int) : Int :=
  (List.range 32).foldl (fun s (t : Nat) => s + taps.getD t 0 * sampleAt xs (k + 12 - (t : Int) - (delay : Int))) 0

/-- The output of one stage for every sample. -/
def firAll (taps : Array Int) (delay : Nat) (xs : Array Int) : Array Int :=
  ((List.range xs.size).map fun (k : Nat) => firAt taps delay xs (k : Int)).toArray

/-- Coefficients of one equaliser set (Table 3-10): FIR X, FIR Y, combiner a and b (−2 … +2), noise predictor. -/
structure EqCoef where
  firX : Array Int
  firY : Array Int
  a    : Array Int
  b    : Array Int
  np   : List Int

/-- The combiner's output z (R57, R59): `readers` 1 X only, 2 Y only. -/
def combine (c : EqCoef) (readers : Nat) (dx dy : Nat) (xs ys : Array Int) : Array Int :=
  let fx := firAll c.firX dx xs
  let fy := firAll c.firY dy ys
  ((List.range xs.size).map fun (k : Nat) =>
    let s := (List.range 5).foldl (fun s (j : Nat) =>
      let i : Int := (k : Int) - ((j : Int) - 2)
      let sx := if readers = 2 then 0 else c.a.getD j 0 * sampleAt fx i
      let sy := if readers = 1 then 0 else c.b.getD j 0 * sampleAt fy i
      s + sx + sy) 0
    clampInt (-128) 127 (roundDiv s 65536)).toArray

/-- The extrinsic LLR from a posterior and an a-priori input (R65): scaled by `num`/8, rounded toward zero, saturated. -/
def extrinsic (num : Nat) (post apriori : Int) : Int :=
  clampInt (-31) 31 (Int.tdiv ((post - apriori) * num) 8)

/-- Numerator over 8 of the factor that XSCALE selects (R65). -/
def xscaleNum (x : Nat) : Nat := 8 - x % 4

/-! ### The LDPC code (Table 3-2, R66–R70) -/

/-- One circulant column as 512 bits, bit `i` being the `i`-th bit of the column. -/
abbrev Block := BitVec 512

/-- The shift of information column `j` in row `r` (R69). -/
def ldpcShift (r j : Nat) : Nat := (37 * (r + 1) * (j + 1) + 11 * r) % 512

/-- Information column `j` has a circulant in row `r` (R69). -/
def ldpcHas (r j : Nat) : Bool := j % 8 == r || (j + 3) % 8 == r || (j + 5) % 8 == r

/-- The circulants of row `r`: column and shift (R69). -/
def ldpcRow (r : Nat) : List (Nat × Nat) :=
  ((List.range 65).filter (ldpcHas r)).map (fun j => (j, ldpcShift r j))
    ++ (if r = 0 then [(65, 0)] else [(64 + r, 0), (65 + r, 0)])

/-- The checks of a circulant of shift `s` see the column rotated (R69). -/
def circulant (b : Block) (s : Nat) : Block := b.rotateRight s

/-- The information bits of 64 bytes: byte order, the most significant bit of each byte first (R66). -/
def blockOfBytes (bs : List Byte) : Block :=
  BitVec.ofNat 512 (ofBytesLE (bs.map fun b => b.reverse))

/-- The bytes of a block. -/
def bytesOfBlock (b : Block) : List Byte := (toBytesLE 64 b.toNat).map fun x => x.reverse

/-- The 65 information columns of an information block. -/
def infoBlocks (info : List Byte) : List Block :=
  (List.range 65).map fun j => blockOfBytes ((info.drop (64 * j)).take 64)

/-- The block syndrome of row `r` over the information columns (R70). -/
def rowSyndrome (info : List Block) (r : Nat) : Block :=
  (List.range 65).foldl (fun s j => if ldpcHas r j then s ^^^ circulant (info.getD j 0) (ldpcShift r j) else s) 0

/-- The parity columns: p₀ = s₀, pₖ = sₖ ⊕ pₖ₋₁ (R70). -/
def ldpcParity (info : List Block) : List Block :=
  ((List.range 8).foldl (fun (acc : List Block × Block) r =>
    let p := rowSyndrome info r ^^^ acc.2
    (acc.1 ++ [p], p)) ([], 0)).1

/-- The codeword: information columns, then parity columns (R66). -/
def ldpcEncode (info : List Block) : List Block := info ++ ldpcParity info

/-- The syndrome of row `r` of a codeword. -/
def wordSyndrome (word : List Block) (r : Nat) : Block :=
  (ldpcRow r).foldl (fun s c => s ^^^ circulant (word.getD c.1 0) c.2) 0

/-- Every check is satisfied. -/
def ldpcValid (word : List Block) : Bool := (List.range 8).all fun r => wordSyndrome word r == 0

/-- The number of ones of a block. -/
def popBlock (b : Block) : Nat := (List.range 512).countP fun i => b.getLsbD i

/-- The number of unsatisfied checks. -/
def unsatisfied (word : List Block) : Nat := (List.range 8).foldl (fun s r => s + popBlock (wordSyndrome word r)) 0

/-! ### Min-sum decoding (R71) -/

/-- Saturate to ±(2^(b−1) − 1). -/
def satBits (x : Int) (b : Nat) : Int := clampInt (-((2 ^ (b - 1) : Nat) - 1)) ((2 ^ (b - 1) : Nat) - 1) x

/-- sign(0) counts as positive. -/
def signOf (x : Int) : Int := if x < 0 then -1 else 1

/-- The bit that circulant `e` connects to check `c` (R69). -/
def bitOf (e : Nat × Nat) (c : Nat) : Nat := 512 * e.1 + (c + e.2) % 512

/-- Place of a message: row, check, position in the row's list. -/
def msgIndex (r c k : Nat) : Nat := (r * 512 + c) * 27 + k

/-- Messages M and posteriors P. -/
structure MinSum where
  msgs : Array Int
  post : Array Int

/-- Start of a global iteration: P[v] = sat(A[v] + Σ M, 9). -/
def MinSum.start (a : Array Int) (msgs : Array Int) : MinSum :=
  let sums := (List.range 8).foldl (fun (p : Array Int) r =>
    (List.range 512).foldl (fun (p : Array Int) c =>
      ((ldpcRow r).zipIdx.foldl (fun (p : Array Int) ek =>
        let v := bitOf ek.1 c
        p.setIfInBounds v (p.getD v 0 + msgs.getD (msgIndex r c ek.2) 0)) p)) p) a
  ⟨msgs, sums.map fun x => satBits x 9⟩

/-- One check (R71). -/
def MinSum.check (s : MinSum) (row : List (Nat × Nat)) (r c : Nat) : MinSum :=
  let q := (row.zipIdx.map fun ek => satBits (s.post.getD (bitOf ek.1 c) 0 - s.msgs.getD (msgIndex r c ek.2) 0) 6).toArray
  let mags := q.map Int.natAbs
  let neg := q.foldl (fun n x => if x < 0 then n + 1 else n) 0
  let lowest := mags.foldl min 1000
  let nLow := mags.foldl (fun n x => if x = lowest then n + 1 else n) 0
  let second := mags.foldl (fun b x => if x = lowest then b else min b x) 1000
  row.zipIdx.foldl (fun (s : MinSum) ek =>
    let x := q.getD ek.2 0
    let others := if x.natAbs = lowest ∧ nLow = 1 then second else lowest
    let mag : Int := max ((others : Int) - 1) 0
    let sgn : Int := if (neg - (if x < 0 then 1 else 0)) % 2 = 0 then 1 else -1
    let msg := sgn * mag
    ⟨s.msgs.setIfInBounds (msgIndex r c ek.2) msg, s.post.setIfInBounds (bitOf ek.1 c) (satBits (x + msg) 9)⟩) s

/-- One local iteration: rows 0–7, in each row checks 0–511. -/
def MinSum.iterate (s : MinSum) : MinSum :=
  (List.range 8).foldl (fun s r =>
    let row := ldpcRow r
    (List.range 512).foldl (fun s c => s.check row r c) s) s

/-- The hard decision as 73 columns. -/
def MinSum.hard (s : MinSum) : List Block :=
  (List.range 73).map fun j => (List.range 512).foldl (fun (b : Block) i =>
    if s.post.getD (512 * j + i) 0 < 0 then b ||| (1#512 <<< i) else b) 0

/-- Up to `l` local iterations from the `n`-th one on; the state, the local iterations run, and convergence. -/
def MinSum.local : Nat → Nat → MinSum → MinSum × Nat × Bool
  | 0, n, s => (s, n, false)
  | l + 1, n, s =>
    let s := s.iterate
    if ldpcValid s.hard then (s, n + 1, true) else MinSum.local l (n + 1) s

/-- The global iterations (R64, R71, R72): `detect` gives the detector's extrinsic LLRs from the a-priori input. -/
def decodeGlobal (detect : List Int → List Int) (l : Nat) : Nat → Nat → List Int → Array Int → DecodeRun
  | 0, n, _, _ => ⟨false, n - 1, 0, []⟩
  | g + 1, n, apriori, msgs =>
    let a := (detect apriori).toArray
    let (s, n, ok) := MinSum.local l n (MinSum.start a msgs)
    let word := s.hard
    if ok ∨ g = 0 then
      ⟨ok, n - 1, if ok then 0 else unsatisfied word, (word.take 65).flatMap bytesOfBlock⟩
    else
      let e := (List.range 37376).map fun v => satBits (s.post.getD v 0 - a.getD v 0) 6
      decodeGlobal detect l g n e s.msgs

/-! ### The soft detector (R64) -/

/-- What the detector works with: the target's three taps (codes over 64) and the noise predictor's 128 entries. -/
structure Detector where
  target : List Int
  np     : Array Int

/-- An equalised sample and the two before it. -/
structure SampleTriple where
  z0 : Int
  z1 : Int
  z2 : Int

/-- Bit `i` of a branch pattern: 0 is the new bit, 1 to 4 the last four bits, the latest first. -/
def patternLevel (p i : Nat) : Int := Config.bitLevel (p.testBit i)

/-- 64 times the difference of a sample from the target's output for the bits of pattern `p` from bit `j` on. -/
def Detector.misfit (d : Detector) (p j : Nat) (z : Int) : Int :=
  64 * z - ((List.range 3).foldl (fun s i => s + d.target.getD i 0 * patternLevel p (i + j)) 0)

/-- The metric of a branch: the pattern's weight times the square of what its predictor of order 2 leaves of the misfit, less
its mean bias; larger is likelier. -/
def Detector.branch (d : Detector) (p : Nat) (z : SampleTriple) : Int :=
  let c (k : Nat) : Int := d.np.getD (4 * p + k) 0
  let w := 128 * (d.misfit p 0 z.z0 - 64 * c 2) - c 0 * d.misfit p 1 z.z1 - c 1 * d.misfit p 2 z.z2
  0 - c 3 * w * w

/-- The larger of two path metrics; none is an unreachable state. -/
def maxMetric : Option Int → Option Int → Option Int
  | none, b => b
  | a, none => a
  | some a, some b => some (max a b)

/-- The metric of the branch from state `s` on bit `b`, with the a-priori LLR of the bit. -/
def Detector.step (d : Detector) (z : SampleTriple) (apriori : Int) (s b : Nat) : Int :=
  d.branch (2 * s + b) z + (if b = 0 then (Config.llrUnit : Int) * apriori else 0)

/-- The forward metrics after a bit: state `t` is reached from the two states whose last three bits are its first three. -/
def Detector.forward (d : Detector) (alpha : List (Option Int)) (z : SampleTriple) (apriori : Int) : List (Option Int) :=
  (List.range 16).map fun t =>
    let from_ (s : Nat) : Option Int := (alpha.getD s none).map (· + d.step z apriori s (t % 2))
    maxMetric (from_ (t / 2)) (from_ (t / 2 + 8))

/-- The backward metrics before a bit. -/
def Detector.backward (d : Detector) (beta : List Int) (z : SampleTriple) (apriori : Int) : List Int :=
  (List.range 16).map fun s =>
    let into (b : Nat) : Int := beta.getD ((2 * s + b) % 16) 0 + d.step z apriori s b
    max (into 0) (into 1)

/-- The best path metric through a bit of value `b`. -/
def Detector.through (d : Detector) (alpha : List (Option Int)) (beta : List Int) (z : SampleTriple) (apriori : Int)
    (b : Nat) : Option Int :=
  (List.range 16).foldl (fun best s =>
    maxMetric best ((alpha.getD s none).map fun a => a + d.step z apriori s b + beta.getD ((2 * s + b) % 16) 0)) none

/-- The posterior LLR of a bit, in LLR units, rounded toward zero. -/
def Detector.posterior (d : Detector) (alpha : List (Option Int)) (beta : List Int) (z : SampleTriple) (apriori : Int) : Int :=
  match d.through alpha beta z apriori 0, d.through alpha beta z apriori 1 with
  | some x, some y => Int.tdiv (x - y) Config.llrUnit
  | _, _ => 0

/-- The passes over the samples from a forward metric on: the posteriors, and the backward metrics before the first sample.
At the end all states are equally likely. -/
def Detector.run (d : Detector) : List (Option Int) → List (SampleTriple × Int) → List Int × List Int
  | _, [] => ([], List.replicate 16 0)
  | alpha, (z, apriori) :: rest =>
    let (post, beta) := Detector.run d (d.forward alpha z apriori) rest
    (d.posterior alpha beta z apriori :: post, d.backward beta z apriori)

/-- The forward metrics at the start: the state given by the last four bits of the sync mark, 0xD. -/
def startMetrics : List (Option Int) := (List.range 16).map fun s => if s = 13 then some 0 else none

/-- The posteriors of a codeword's bits. -/
def Detector.detect (d : Detector) (z : List SampleTriple) (apriori : List Int) : List Int :=
  (d.run startMetrics (z.zip apriori)).1

/-- Global and local iterations of a schedule (Table 3-4). -/
def Sched.iterations : Sched → Nat × Nat
  | .otf => (3, 8)
  | .ext => (6, 16)
  | .max => (12, 32)

/-- A decode of the equalised samples of a codeword's bits (R64, R65, R71, R72). -/
def decodeRun (sched : Sched) (xnum : Nat) (d : Detector) (z : List SampleTriple) (erased : Nat → Bool) : DecodeRun :=
  let (g, l) := sched.iterations
  let detect (apriori : List Int) : List Int :=
    let post := d.detect z apriori
    (List.range 37376).map fun v =>
      if erased v then 0 else extrinsic xnum (post.getD v 0) (apriori.getD v 0)
  decodeGlobal detect l g 0 (List.replicate 37376 0) (Array.replicate 110592 0)

/-! ### AES-256-XTS (R74) -/

/-- Multiply by x in GF(2⁸) modulo 0x11B. -/
def xtime (b : Byte) : Byte := if b.getLsbD 7 then (b <<< 1) ^^^ 0x1B else b <<< 1

/-- Product in GF(2⁸) modulo 0x11B. -/
def aesMul (a b : Byte) : Byte :=
  ((List.range 8).foldl (fun (p : Byte × Byte) i => (if b.getLsbD i then p.1 ^^^ p.2 else p.1, xtime p.2)) (0, a)).1

/-- The S-box: inverse (a²⁵⁴), then the affine map. -/
def sboxOf (a : Byte) : Byte :=
  let inv := (List.range 7).foldl (fun (p : Byte × Byte) _ =>
    let q := aesMul p.2 p.2
    (aesMul p.1 q, q)) ((1 : Byte), a)
  let v := inv.1
  v ^^^ v.rotateLeft 1 ^^^ v.rotateLeft 2 ^^^ v.rotateLeft 3 ^^^ v.rotateLeft 4 ^^^ 0x63

/-- The S-box as a table. -/
def sbox : Array Byte := ((List.range 256).map fun i => sboxOf (BitVec.ofNat 8 i)).toArray

/-- The inverse S-box as a table. -/
def invSbox : Array Byte :=
  (List.range 256).foldl (fun t i => t.setIfInBounds (sbox.getD i 0).toNat (BitVec.ofNat 8 i)) (Array.replicate 256 0)

/-- Bytewise XOR. -/
def xorBytes (a b : List Byte) : List Byte := List.zipWith (· ^^^ ·) a b

/-- Round keys 0–14 of a 32-byte key. -/
def aesKeys (key : List Byte) : List (List Byte) :=
  let words := (List.range 52).foldl (fun (ws : Array (List Byte)) n =>
    let i := n + 8
    let t := ws.getD (i - 1) []
    let t :=
      if i % 8 = 0 then
        let s := ((t.drop 1) ++ (t.take 1)).map fun b => sbox.getD b.toNat 0
        xorBytes s [((List.range (i / 8 - 1)).foldl (fun r _ => xtime r) (1 : Byte)), 0, 0, 0]
      else if i % 8 = 4 then t.map fun b => sbox.getD b.toNat 0
      else t
    ws.push (xorBytes (ws.getD (i - 8) []) t))
    ((List.range 8).map fun i => (key.drop (4 * i)).take 4).toArray
  (List.range 15).map fun r => (List.range 4).flatMap fun c => words.getD (4 * r + c) []

/-- One column of MixColumns with the given first row. -/
def mixColumn (k : List Byte) (c : List Byte) : List Byte :=
  (List.range 4).map fun i => (List.range 4).foldl (fun s j =>
    s ^^^ aesMul (k.getD ((j + 4 - i) % 4) 0) (c.getD j 0)) 0

/-- MixColumns or its inverse. -/
def mixColumns (k : List Byte) (s : List Byte) : List Byte :=
  (List.range 4).flatMap fun c => mixColumn k ((s.drop (4 * c)).take 4)

/-- ShiftRows. -/
def shiftRows (s : List Byte) : List Byte :=
  (List.range 16).map fun i => s.getD (4 * ((i / 4 + i % 4) % 4) + i % 4) 0

/-- The inverse of ShiftRows. -/
def invShiftRows (s : List Byte) : List Byte :=
  (List.range 16).map fun i => s.getD (4 * ((i / 4 + 4 - i % 4) % 4) + i % 4) 0

/-- AES encryption of one block. -/
def aesEncrypt (keys : List (List Byte)) (s : List Byte) : List Byte :=
  let s := (List.range 13).foldl (fun s r =>
    xorBytes (mixColumns [2, 3, 1, 1] (shiftRows (s.map fun b => sbox.getD b.toNat 0))) (keys.getD (r + 1) []))
    (xorBytes s (keys.getD 0 []))
  xorBytes (shiftRows (s.map fun b => sbox.getD b.toNat 0)) (keys.getD 14 [])

/-- AES decryption of one block. -/
def aesDecrypt (keys : List (List Byte)) (s : List Byte) : List Byte :=
  let s := (List.range 13).foldl (fun s r =>
    mixColumns [14, 11, 13, 9] (xorBytes ((invShiftRows s).map fun b => invSbox.getD b.toNat 0) (keys.getD (13 - r) [])))
    (xorBytes s (keys.getD 14 []))
  xorBytes ((invShiftRows s).map fun b => invSbox.getD b.toNat 0) (keys.getD 0 [])

/-- The next tweak: multiplication by α in GF(2¹²⁸), bytes little-endian. -/
def nextTweak (t : List Byte) : List Byte :=
  let v := ofBytesLE t
  let d := 2 * v
  toBytesLE 16 (if 2 ^ 128 ≤ d then (d - 2 ^ 128) ^^^ 0x87 else d)

/-- XTS over whole 16-byte blocks. -/
def xtsBlocks (f : List Byte → List Byte) : Nat → List Byte → List Byte → List Byte
  | 0, _, _ => []
  | n + 1, t, bs => xorBytes (f (xorBytes (bs.take 16) t)) t ++ xtsBlocks f n (nextTweak t) (bs.drop 16)

/-- The first tweak: the LBA tag, zero-extended, little-endian, under the second key (R74). -/
def xtsTweak (key : BitVec 512) (tag : BitVec 64) : List Byte :=
  aesEncrypt (aesKeys ((toBytesLE 64 key.toNat).drop 32)) (toBytesLE 16 tag.toNat)

/-- Encryption of bytes 0–4,111 (257 blocks); the first 32 bytes of the key are the data key. -/
def xtsEncrypt (key : BitVec 512) (tag : BitVec 64) (bs : List Byte) : List Byte :=
  xtsBlocks (aesEncrypt (aesKeys ((toBytesLE 64 key.toNat).take 32))) 257 (xtsTweak key tag) bs

/-- Decryption of bytes 0–4,111. -/
def xtsDecrypt (key : BitVec 512) (tag : BitVec 64) (bs : List Byte) : List Byte :=
  xtsBlocks (aesDecrypt (aesKeys ((toBytesLE 64 key.toNat).take 32))) 257 (xtsTweak key tag) bs

/-- An information block with its DATA and PI decrypted. -/
def decryptBlock (key : BitVec 512) (tag : BitVec 64) (info : List Byte) : List Byte :=
  xtsDecrypt key tag (info.take 4112) ++ info.drop 4112

/-- An information block with its DATA and PI encrypted. -/
def encryptBlock (key : BitVec 512) (tag : BitVec 64) (info : List Byte) : List Byte :=
  xtsEncrypt key tag (info.take 4112) ++ info.drop 4112

/-! ### The track-parity field (R92): GF(2⁸) modulo 0x11D -/

/-- Multiply by x modulo 0x11D. -/
def gfX (b : Byte) : Byte := if b.getLsbD 7 then (b <<< 1) ^^^ 0x1D else b <<< 1

/-- Product modulo 0x11D. -/
def gfMul (a b : Byte) : Byte :=
  ((List.range 8).foldl (fun (p : Byte × Byte) i => (if b.getLsbD i then p.1 ^^^ p.2 else p.1, gfX p.2)) (0, a)).1

/-- Power in the field. -/
def gfPow (a : Byte) : Nat → Byte
  | 0 => 1
  | n + 1 => gfMul a (gfPow a n)

/-- Inverse of a non-zero element (a²⁵⁴). -/
def gfInv (a : Byte) : Byte := gfPow a 254

/-- αⁿ with α = 2. -/
def gfAlpha (n : Nat) : Byte := (List.range (n % 255)).foldl (fun b _ => gfX b) 1

end Sys2Proof.Machine
end

