-- ==== Sys2Proof/Machine/Fabric.lean ====
section
/-! DEFINITION. The Caller, figures and the buffer fabric (spec/02_caller_and_fabric.md). -/
namespace Sys2Proof.Machine

/-- Class MAINT (R35). -/
def MAINT : FabClass := 12

/-- Tokens of a figure (R30). -/
def figureTokens : Nat := 2048

/-- The save table (Table 2-3): G and C of a class. -/
def saveTable (c : FabClass) : Nat × Nat :=
  if c = 11 then (128, 512) else if c = 12 then (16, 256) else if c = 14 then (1536, 2048) else (0, 0)

/-- G with the MAINT floor applied (R35). -/
def floored (c : FabClass) (g : Nat) : Nat := if c = MAINT then max 16 g else g

/-- SCALE bounds the ceilings of classes 0–11 and 15 (R46). -/
def scaledClass (c : FabClass) : Bool := c.val ≤ 11 || c.val == 15

/-- Sum over the sixteen classes. -/
def sumClasses (f : FabClass → Nat) : Nat := (allFin 16).foldl (fun s c => s + f c) 0

namespace Mach

/-- G of the live table with the floor (R35). -/
def liveG (m : Mach) (c : FabClass) : Nat := floored c (m.get (CAL_FRONT_GUAR c.val))

/-- Effective ceiling of a class (R46); the cap is ignored while the save table is live (R45). -/
def effectiveC (m : Mach) (c : FabClass) : Nat :=
  let ceil := m.get (CAL_FRONT_CEIL c.val)
  if scaledClass c && !m.is CAL_STATUS_SAVE_TABLE then
    max (m.liveG c) (ceil * min 256 (m.get CAL_CAP_SCALE) / 256)
  else ceil

/-- The release cycle, within 1,750–3,499 (CAL_CFG). -/
def releaseCycle (m : Mach) : Nat := max 1750 (min 3499 (m.get CAL_CFG_RELEASE))

/-- FAB_STATUS, FAB_PENDn and CAL_STATUS.FROZEN follow the queues and the bursts in flight. -/
def syncFab (m : Mach) : Mach :=
  let m := (m.set FAB_STATUS_INFLIGHT m.cal.flights.length).set FAB_STATUS_OLDEST_PORT
    (match m.cal.flights with | f :: _ => f.port.val | [] => 0)
  let m := m.setFlag CAL_STATUS_FROZEN (m.is CAL_CTRL_FREEZE && m.cal.flights.isEmpty)
  (List.range 4).foldl (fun m n =>
    let depth (j : Nat) : Nat := (m.cal.queues[(Fin.ofNat 16 (4 * n + j))]).length
    (((m.set (FAB_PEND_DEPTH0 n) (depth 0)).set (FAB_PEND_DEPTH1 n) (depth 1)).set
      (FAB_PEND_DEPTH2 n) (depth 2)).set (FAB_PEND_DEPTH3 n) (depth 3)) m

end Mach

/-- The part of a class's debt that its guaranteed count does not absorb (R32). -/
def spill (g debt : Nat) : Nat := debt - g

/-- The counts of a new figure from the live table and the debts carried in (R32). -/
def Mach.newFigure (m : Mach) (debt : FabClass → Nat) : Mach :=
  m.setCal fun s =>
    { s with
      released := false
      guar := Vector.ofFn fun c => m.liveG c - debt c
      room := Vector.ofFn fun c => (m.effectiveC c : Int) - (spill (m.liveG c) (debt c) : Nat)
      pool := (figureTokens : Int) - (sumClasses m.liveG : Nat) - (sumClasses fun c => spill (m.liveG c) (debt c) : Nat)
      used := Vector.replicate 16 0
      debt := Vector.replicate 16 0
      ended := Vector.replicate 16 false
      lastGuar := s.lastGuar }

/-- A class is eligible for a grant (R34). -/
def Caller.eligible (s : Caller) (c : FabClass) : Bool :=
  !s.ended[c] && decide (1 ≤ s.room[c]) && (decide (1 ≤ s.guar[c]) || decide (1 ≤ s.pool))

/-- Every C is at most 2,048 and every G at most its C (R43). -/
def Mach.backOrdered (m : Mach) : Bool :=
  (allFin 16).all fun c =>
    m.get (CAL_BACK_CEIL c.val) ≤ 2048 && m.get (CAL_BACK_GUAR c.val) ≤ m.get (CAL_BACK_CEIL c.val)

/-- The sum of all G, with the floor, is at most 2,048 (R43). -/
def Mach.backFits (m : Mach) : Bool :=
  sumClasses (fun c => floored c (m.get (CAL_BACK_GUAR c.val))) ≤ figureTokens

/-- Make a table live (R35, R43). -/
def Mach.makeLive (m : Mach) (t : FabClass → Nat × Nat) : Mach :=
  let m := (allFin 16).foldl (fun m c =>
    (m.set (CAL_FRONT_GUAR c.val) (t c).1).set (CAL_FRONT_CEIL c.val) (t c).2) m
  m.when ((t MAINT).1 < 16) fun m => m.flagEvent CAL_ERR_MAINT_FLOOR 3

/-- A pending swap is resolved at the boundary (R43). -/
def Mach.swapValidate (m : Mach) : Mach :=
  if !m.is CAL_STATUS_SWAP_PENDING then m else
  let back (c : FabClass) : Nat × Nat := (m.get (CAL_BACK_GUAR c.val), m.get (CAL_BACK_CEIL c.val))
  let m' :=
    if m.backOrdered && m.backFits then m.makeLive back
    else
      let m := m.when (!m.backFits) fun m => m.flagEvent CAL_ERR_SWAP_SUM 0
      m.when (!m.backOrdered) fun m => m.flagEvent CAL_ERR_SWAP_ORDER 1
  m'.set CAL_STATUS_SWAP_PENDING 0

/-- CAL_USEn of the figure that ends. STARVED counts a class with a waiting request that R34 calls not eligible; R41 lists the
freeze among what ends eligibility and R34 does not, and a class that only the freeze keeps from its grants is not counted
(DESIGN CHOICE, log entry 127). -/
def Mach.figureUse (m : Mach) : Mach :=
  let s := m.cal
  let m := (allFin 16).foldl (fun m c =>
    let m := (m.set (CAL_USE_USED c.val) s.used[c]).set (CAL_USE_DEBT c.val) s.debt[c]
    m.when (!s.queues[c].isEmpty && !s.eligible c) fun m => m.incSat (CAL_USE_STARVED c.val) 1) m
  m.set CAL_STATUS_USE_VALID 1

/-- The Caller begins its first figure (R29, R31). -/
def Mach.firstFigure (m : Mach) : Mach :=
  (m.set CAL_FIGNO_FIGURE 0).newFigure (fun _ => 0) |>.setCal fun s => { s with running := true }

/-- FIGURE_BOUNDARY (R31, R32, R35, R42, R43, R45, R46). -/
def figureBoundary (m : Mach) : Mach :=
  if !m.cal.running then m else
  let debt (c : FabClass) : Nat := m.cal.debt[c]
  let m := (m.incWrap CAL_FIGNO_FIGURE 1).figureUse
  let m :=
    if m.cal.saveDue then
      ((m.setCal fun s => { s with saveDue := false }).set CAL_STATUS_SAVE_TABLE 1).makeLive saveTable
    else m.swapValidate
  m.newFigure debt

/-- RELEASE_CYCLE (R33). -/
def releaseCycleReached (m : Mach) : Mach :=
  if m.cal.running && !m.cal.released then
    m.setCal fun s =>
      { s with
        released := true
        pool := s.pool + ((sumClasses fun c => s.guar[c]) : Nat)
        guar := Vector.replicate 16 0 }
  else m

/-- The class a tag is charged to: while the save table is live, MEDRD and MEDWR tags of port 25 are charged to SAVE
(R39, R358). -/
def Mach.chargedClass (m : Mach) (port : Port) (tag : FabClass) : FabClass :=
  if port.val = 25 ∧ m.is CAL_STATUS_SAVE_TABLE ∧ 2 ≤ tag.val ∧ tag.val ≤ 9 then 14 else tag

/-- The class tag that a port carries where Table 2-2 fixes it; `tag` where Ibzin, the descriptor or the microword sets it. -/
def Mach.portTag (m : Mach) (port : Port) (tag : FabClass) : FabClass :=
  let p := port.val
  if 4 ≤ p ∧ p ≤ 11 then 11
  else if 17 ≤ p ∧ p ≤ 20 then (if m.is CAL_STATUS_SAVE_TABLE then 14 else Fin.ofNat 16 (6 + (p - 17)))
  else if p = 21 then 12
  else if p = 22 ∨ p = 23 then 13
  else if p = 24 then 14
  else if p = 29 then 15
  else tag

/-- A request joins the queue of its class, or its port is held not-ready while that queue is full (R38). -/
def Mach.enqueue (m : Mach) (cls : FabClass) (r : BurstReq) : Mach :=
  if m.cal.queues[cls].length < 16 then
    (m.setCal fun s => { s with queues := updAt s.queues cls (· ++ [r]) }).syncFab
  else m.setCal fun s => { s with held := s.held ++ [HeldPort.mk cls r] }

/-- The oldest demand of a requester behind a port has offered its next burst. -/
def offerNext (port : Port) (owner : Nat) : List Demand → List Demand
  | [] => []
  | d :: ds =>
    if d.port = port ∧ d.owner = owner then
      if d.count ≤ d.tokens then ds
      else { d with line := d.line + d.tokens, count := d.count - d.tokens } :: ds
    else d :: offerNext port owner ds

/-- The demand whose next burst a port offers: its oldest, and at the DMA engine's port the oldest of the channel that the
fabric rounds serve next (R243). -/
def Mach.nextDemand (m : Mach) (port : Port) : Option (Demand × Mach) :=
  if port = dmaPort then
    match DmaRound.next m.dmaWeight (fun l n => m.dmaLevel n == l && m.cal.demands.any fun d =>
        d.port == dmaPort && d.owner == n.val) 5 m.dma.fabric with
    | some (n, r) =>
      (m.cal.demands.find? fun d => d.port == dmaPort && d.owner == n.val).map fun d => (d, m.setDma ({ · with fabric := r }))
    | none => none
  else (m.cal.demands.find? (·.port == port)).map fun d => (d, m)

/-- The ports of the HQ8's own data paths and sequencers: they offer what their requesters ask for, and nothing else. A
sequencer's FOP is offered as its word is carried out. -/
def ownPort (port : Port) : Bool := decide (12 ≤ port.val) && decide (port.val ≤ 28)

/-- Herug holds the port frozen (R348): it offers nothing and gets no grant. -/
def Caller.portFrozen (s : Caller) (p : Port) : Bool := s.frozen && p != 21 && p != 29

/-- FABRIC_REQUEST (R30, R38, R39, R358, Table 2-2): a port offers the next burst of its requester's demand, or, at a port
whose requester the model does not hold, a burst of `less1 + 1` tokens; the class tag is the one that Table 2-2 gives the
port. -/
def fabricRequest (port : Port) (tag : FabClass) (less1 : Fin 8) (m : Mach) : Mach :=
  if m.cal.held.any (·.req.port == port) || m.cal.portFrozen port then m
  else
    match m.nextDemand port with
    | some (d, m) =>
      (m.setCal fun s => { s with demands := offerNext port d.owner s.demands }).enqueue (m.portTag port d.cls)
        ⟨port, Fin.ofNat 8 (d.tokens - 1), d.owner⟩
    | none =>
      if ownPort port then m
      else m.enqueue (m.chargedClass port (m.portTag port tag)) ⟨port, less1, 0⟩

/-- A class takes part in arbitration: its oldest request comes from a port without a burst in flight (R37) that is not
frozen (R348). -/
def Caller.offers (s : Caller) (c : FabClass) : Bool :=
  match s.queues[c] with
  | r :: _ => !s.flights.any (·.port == r.port) && !s.portFrozen r.port
  | [] => false

/-- The first class in round-robin order after `last` that satisfies `p`. -/
def roundRobin (last : FabClass) (p : FabClass → Bool) : Option FabClass :=
  ((List.range 16).map fun i => Fin.ofNat 16 (last.val + 1 + i)).find? p

/-- The class granted next, and the group it is granted in: 0 guaranteed, 1 shared pool, 2 one group (R37). -/
def Caller.choose (s : Caller) : Option (FabClass × Fin 3) :=
  if s.released then (roundRobin s.lastAll fun c => s.eligible c && s.offers c).map (·, 2)
  else
    match roundRobin s.lastGuar fun c => s.eligible c && s.offers c && decide (1 ≤ s.guar[c]) with
    | some c => some (c, 0)
    | none =>
      (roundRobin s.lastPool fun c => s.eligible c && s.offers c && s.guar[c] == 0).map (·, 1)

/-- Charge a burst of `k` tokens to a class (R34). -/
def Caller.charge (s : Caller) (c : FabClass) (k : Nat) : Caller :=
  let g := min k s.guar[c]
  let p := min (k - g) (min s.pool.toNat (s.room[c] - g).toNat)
  let unpaid := k - g - p
  { s with
    guar := updAt s.guar c (· - g)
    pool := s.pool - p
    room := updAt s.room c (· - (k : Nat))
    used := updAt s.used c (· + k)
    debt := updAt s.debt c (· + unpaid)
    ended := updAt s.ended c (· || decide (0 < unpaid)) }

/-- Space has opened in a class's queue: the port held longest for it enters (R38). -/
def Caller.admitHeld (s : Caller) (c : FabClass) : Caller :=
  match s.held.find? (·.cls == c) with
  | some h =>
    { s with
      queues := updAt s.queues c (· ++ [h.req])
      held := s.held.filter fun x => x.req.port != h.req.port }
  | none => s

/-- FABRIC_GRANT (R34, R37, R41, R42, R47). -/
def fabricGrant (m : Mach) : Mach :=
  if !m.cal.running ∨ m.is CAL_CTRL_FREEZE then m else
  match m.cal.choose with
  | none => m
  | some (c, group) =>
    match m.cal.queues[c] with
    | [] => m
    | r :: rest =>
      let m := m.setCal fun s =>
        let s := s.charge c r.tokens
        let s := { s with
          queues := s.queues.set c rest
          flights := s.flights ++ [Flight.mk r.port c r.tokens m.clock r.owner]
          lastGuar := if group = 0 then c else s.lastGuar
          lastPool := if group = 1 then c else s.lastPool
          lastAll := if group = 2 then c else s.lastAll }
        s.admitHeld c
      m.syncFab

/-- BURST_BOUNDARY (R37, R41): the last token of the port's burst has moved. -/
def burstBoundary (port : Port) (m : Mach) : Mach :=
  (m.setCal fun s => { s with
    flights := s.flights.filter (·.port != port)
    halfDone := s.halfDone && !(s.flights.take 1).any (·.port == port) }).syncFab

/-- CAL_FREEZE (R47). -/
def calFreeze (b : Bool) (m : Mach) : Mach := (m.setFlag CAL_CTRL_FREEZE b).syncFab

/-- CAL_SWAP (R43, R45): from M9 entry on the write is ignored. -/
def calSwap (m : Mach) : Mach :=
  if m.get PWR_MODE_MODE = 9 then m else m.set CAL_STATUS_SWAP_PENDING 1

/-- CAL_SWAP_CANCEL (R44). -/
def calSwapCancel (m : Mach) : Mach := m.set CAL_STATUS_SWAP_PENDING 0

/-- CAL_BACK_WRITE (R43). -/
def calBackWrite (n : FabClass) (w : Word) (m : Mach) : Mach :=
  if m.is CAL_STATUS_SWAP_PENDING then m.flagEvent CAL_ERR_BACK_LOCKED 2
  else (m.set (CAL_BACK_GUAR n.val) (getBits w 0 12)).set (CAL_BACK_CEIL n.val) (getBits w 16 12)

/-- The watchdog measures: a burst is in flight, and it is not switched off in M11 (R48). -/
def Mach.wdgRuns (m : Mach) : Bool :=
  !m.cal.flights.isEmpty && !(m.is FAB_CTRL_WDG_OFF && m.get PWR_MODE_MODE == 11)

/-- The watchdog's limit in F-FAB cycles (R48). -/
def Mach.wdgLimit (m : Mach) : Nat := max 1 (min 100 (m.get FAB_CTRL_WDG_FIGS)) * 3500

/-- FABRIC_WATCHDOG_HALF (R48). -/
def fabricWatchdogHalf (m : Mach) : Mach :=
  if m.wdgRuns && !m.cal.halfDone then (m.setCal fun s => { s with halfDone := true }).report 4 else m

/-- Steps 1 and 2 of a watchdog trigger (R48). -/
def Mach.wdgLatch (m : Mach) : Mach :=
  match m.cal.flights with
  | [] => m
  | f :: _ =>
    (((m.set FAB_WDG_LAST_PORT f.port.val).set FAB_WDG_LAST_CLASS f.cls.val).set FAB_WDG_LAST_VALID 1).incSat
      FAB_WDG_LAST_COUNT 1

/-- M9 is entered: the save table goes live at the next boundary, and a pending swap is cancelled (R45). -/
def Mach.saveTableDue (m : Mach) : Mach :=
  (m.setCal fun s => { s with saveDue := true }).set CAL_STATUS_SWAP_PENDING 0

end Sys2Proof.Machine
end

