-- ==== Sys2Proof/Machine/Channel.lean ====
section
/-! DEFINITION. The read channel, the decoder pool and the write-back of decoded sectors
(spec/03_read_channel.md; R109–R113 of spec/05_recovery_ladder.md). -/
namespace Sys2Proof.Machine

/-! ### Coefficient memory (Tables 3-8 and 3-10) -/

/-- Width of the entry at an offset in a set; 0 where there is none. -/
def coefWidth (off : Nat) : Nat :=
  if off < 0x45 then 10 else if 0x48 ≤ off ∧ off < 0x4D then 10 else if 0x100 ≤ off ∧ off < 0x180 then 8 else 0

/-- Default of the entry at an offset in a set. -/
def coefDefault (off : Nat) : Nat :=
  if off = 12 ∨ off = 0x2C then 256
  else if off = 0x42 ∨ off = 0x4A then 128
  else if 0x100 ≤ off ∧ off < 0x180 ∧ off % 4 = 3 then 64
  else 0

/-- The entry at an address, 0–0xFFF. -/
def ChanState.coefAt (c : ChanState) (a : Nat) : Nat := getPair (coefDefault (a % 0x400)) a c.coef

/-- Store an entry. -/
def ChanState.putCoef (c : ChanState) (a v : Nat) : ChanState :=
  { c with coef := putPair (coefDefault (a % 0x400)) a (v % 2 ^ coefWidth (a % 0x400)) c.coef }

/-- The coefficients of a set; `npDefault` takes the noise predictor's defaults (Table 5-1, step 5). -/
def ChanState.eq (c : ChanState) (set : Nat) (npDefault : Bool) : EqCoef :=
  let tap (off : Nat) : Int := signedOf 10 (c.coefAt (0x400 * set + off))
  { firX := ((List.range 32).map fun i => tap i).toArray
    firY := ((List.range 32).map fun i => tap (0x20 + i)).toArray
    a := ((List.range 5).map fun i => tap (0x40 + i)).toArray
    b := ((List.range 5).map fun i => tap (0x48 + i)).toArray
    np := (List.range 128).map fun i =>
      let v := if npDefault then coefDefault (0x100 + i) else c.coefAt (0x400 * set + 0x100 + i)
      if i % 4 = 3 then (v : Int) else signedOf 8 v }

namespace Mach

/-- Update the media state. -/
def setMedia (m : Mach) (f : MediaState → MediaState) : Mach := { m with media := f m.media }

/-- Update a stream's channel. -/
def setChan (m : Mach) (n : Stream) (f : ChanState → ChanState) : Mach :=
  m.setMedia fun s => { s with chan := updAt s.chan n f }

/-- Update a slot. -/
def setSlot (m : Mach) (n : Stream) (i : SampleIdx) (f : SampleSlot → SampleSlot) : Mach :=
  m.setChan n fun c => { c with slots := updAt c.slots i f }

/-- Slots in a state. -/
def countSlots (m : Mach) (n : Stream) (st : SlotState) : Nat :=
  (allFin 64).countP fun i => m.media.chan[n].slots[i].state == st

/-- CHN_SMEM follows the slots. -/
def syncSlots (m : Mach) (n : Stream) : Mach :=
  let used := 64 - m.countSlots n .free
  let m := (m.set (CHN_SMEM_USED n.val) used).set (CHN_SMEM_PINNED n.val) (m.countSlots n .pinned)
  m.set (CHN_SMEM_HIGH n.val) (max used (m.get (CHN_SMEM_HIGH n.val)))

/-- The lowest free slot of a stream. -/
def freeSlotOf (m : Mach) (n : Stream) : Option SampleIdx :=
  (allFin 64).find? fun i => m.media.chan[n].slots[i].state == .free

/-- A slot returns to free. -/
def freeSlot (m : Mach) (n : Stream) (i : SampleIdx) : Mach :=
  (m.setSlot n i fun _ => SampleSlot.empty).syncSlots n

/-- PIN_MAX of a stream (R62). -/
def pinMax (m : Mach) (n : Stream) : Nat := min 8 (m.get (CHN_CTRL_PIN_MAX n.val))

/-- Event source `b` of stream `n`'s channel (Table 18-1). -/
def chnSource (n : Stream) (b : Nat) : Nat := 32 * (5 + n.val) + b

/-! ### Samples and thermal asperities -/

/-- TA_LEN of a lane; 0–3 act as 4 (R52). -/
def taLen (m : Mach) (l : Lane) : Nat := max 4 (m.get (AFE_LANE_CFG_TA_LEN l.val))

/-- Update a lane. -/
def setLane (m : Mach) (l : Lane) (f : LaneState → LaneState) : Mach :=
  m.setMedia fun s => { s with lanes := updAt s.lanes l f }

end Mach

/-- LANE_READY (R50): a powered lane produces valid samples. The gain that the loop starts from is a free value (R51). -/
def laneReady (l : Lane) (m : Mach) : Mach :=
  if m.bitAt AFE_EN_LANE_EN l.val && m.get PWR_MODE_MODE != 4 then
    let m := m.set (AFE_LANE_STAT_READY l.val) 1
    if m.is (AFE_LANE_CFG_AGC_EN l.val) then (m.set (AFE_LANE_STAT_VGA l.val) m.free).nextFree
    else m.set (AFE_LANE_STAT_VGA l.val) (m.get (AFE_LANE_CFG_VGA_MAN l.val))
  else m

/-- TA_SPAN_DETECT (R52): TA_LEN saturated samples in a row, the first at sector sample `first`. -/
def taSpanDetect (l : Lane) (first : Nat) (m : Mach) : Mach :=
  if m.is (AFE_LANE_STAT_READY l.val) ∧ ¬ m.is (AFE_LANE_STAT_TA l.val) then
    let m := (m.set (AFE_LANE_STAT_TA l.val) 1).setLane l fun _ => ⟨.span, first⟩
    m.incSat (AFE_LANE_STAT_SATCNT l.val) (m.taLen l)
  else m

/-- Record an erasure span of the passing sector (R53): 16 samples are added on each side, and a fifth span extends the
fourth so that it reaches the new span's end. -/
def addSpan (spans : List Span) (first last : Nat) : List Span × Bool :=
  let s : Span := ⟨first - 16, last + 16⟩
  match spans with
  | [a, b, c, d] => ([a, b, c, { d with last := max d.last s.last }], true)
  | _ => (spans ++ [s], false)

/-- A span of a stream is recorded and counted: as one of the four, or as an extension of the fourth (R53). -/
def Mach.recordSpan (m : Mach) (n : Stream) (first last : Nat) : Mach :=
  let (spans, merged) := addSpan m.media.chan[n].spans first last
  let m := m.setChan n fun c => { c with spans := spans }
  if merged then (m.incSat (CHN_CNT_TA_MERGED n.val) 1).report (Mach.chnSource n 2)
  else (m.incSat (CHN_CNT_TA_SPANS n.val) 1).report (Mach.chnSource n 1)

/-- TA_SPAN_END (R52, R53): the span's last saturated sample is `last`; `sat` samples were saturated since the detection. -/
def taSpanEnd (l : Lane) (last sat : Nat) (m : Mach) : Mach :=
  if m.is (AFE_LANE_STAT_TA l.val) then
    let m := (m.set (AFE_LANE_STAT_TA l.val) 0).incSat (AFE_LANE_STAT_SATCNT l.val) sat
    (m.setLane l fun s => { s with hold := .after }).recordSpan (laneStream l) m.media.lanes[l].spanFrom last
  else m

/-- TA_GAIN_HOLD_END (R52). -/
def taGainHoldEnd (l : Lane) (m : Mach) : Mach :=
  if m.media.lanes[l].hold = .after then m.setLane l fun s => { s with hold := .off } else m

/-! ### Adaptation and sector boundaries -/

/-- ADAPT_SHIFT within 4–15 (R60). -/
def Mach.adaptShift (m : Mach) (n : Stream) : Nat := max 4 (m.get (CHN_CTRL_ADAPT_SHIFT n.val))

/-- The sign of a value: −1, 0 or 1. -/
def signum (x : Int) : Int := if x < 0 then -1 else if 0 < x then 1 else 0

/-- The sum of sign(error) × sign(tap input) over a window, for a tap of a reader's FIR behind the reader's delay (R57,
R60). -/
def tapSum (xs : Array Int) (delay t : Nat) (errors : List Int) : Int :=
  (errors.foldl (fun (s : Int × Int) e =>
    (s.1 + signum e * signum (sampleAt xs (s.2 + 12 - (t : Int) - (delay : Int))), s.2 + 1)) (0, 0)).1

/-- The sums of the 64 taps: FIR X 0–31, then FIR Y 0–31. -/
def Mach.adaptSum (m : Mach) (n : Stream) (w : Samples) (errors : List Int) (t : Nat) : Int :=
  if t < 32 then tapSum (w.x.map adcValue).toArray (m.get (CHN_SKEW_DELAY_X n.val)) t errors
  else tapSum (w.y.map adcValue).toArray (m.get (CHN_SKEW_DELAY_Y n.val)) (t - 32) errors

/-- ADAPT_WINDOW_END (R60): a window of 2^ADAPT_SHIFT samples ends. `w` are the readers' samples of the window and `errors`
the tracking path's error at each, which the spec does not compute: it states neither the path's decisions nor the target's
amplitude (log entry 129). Each tap whose sum exceeds the limit moves by one code and is held aside. -/
def adaptWindowEnd (n : Stream) (w : Samples) (errors : List Int) (m : Mach) : Mach :=
  if m.is (CHN_CTRL_EN n.val) ∧ m.is (CHN_CTRL_ADAPT n.val) then
    let errors := errors.take (2 ^ m.adaptShift n)
    let limit : Nat := 2 ^ (m.adaptShift n - 2)
    (List.range 64).foldl (fun (s : Mach) t =>
      let sum := m.adaptSum n w errors t
      if limit < sum.natAbs then
        let c := s.media.chan[n]
        let a := 0x400 * c.force.eqSet.val + t
        let cur := getPair (c.coefAt a) a c.heldTaps
        let new := codeOf 10 (clampInt (-512) 511 (signedOf 10 cur + (if 0 < sum then 1 else -1)))
        s.setChan n fun c => { c with heldTaps := putPair (2 ^ 10) a new c.heldTaps }
      else s) m
  else m

/-- M in force: within 23,406–65,536 (R54). -/
def rateOf (v : Nat) : Nat := max 23406 (min 65536 v)

/-- Samples of a sector (Table 4-1). -/
def sectorLength : Nat := 37504

/-- Samples of a slot (R61). -/
def slotLength : Nat := 37888

/-- A span as the next sector sees it: the slots of two sectors overlap. -/
def nextSpan (s : Span) : Option Span :=
  if sectorLength ≤ s.last then some ⟨s.first - sectorLength, s.last - sectorLength⟩ else none

/-- The lane of a stream's reader: 0 X, 1 Y (R5). -/
def lanesOf (n : Stream) (r : Fin 2) : Lane := ⟨2 * n.val + r.val, by omega⟩

/-- Pending values of stream `n`'s channel take effect at a sector boundary, and sample numbers count from the new sector
(R53–R56, R60, R81, R88). -/
def Mach.channelBoundary (m : Mach) (n : Stream) : Mach :=
  let c := m.media.chan[n]
  let m := m.setChan n fun c =>
    let c := c.heldTaps.foldl (fun c t => c.putCoef t.1 t.2) c
    { c with heldTaps := [], spans := c.spans.filterMap nextSpan, capturing := m.is (CHN_CTRL_EN n.val) }
  let m := m.setChan n fun s => { s with force := { s.force with
    eqSet := Fin.ofNat 4 (m.get (CHN_CTRL_EQ_SET n.val))
    delta := if m.is (CHN_TLOOP_FOLLOW n.val) then c.deltaNext else 0 } }
  let m := [lanesOf n 0, lanesOf n 1].foldl (fun (m : Mach) l =>
    m.setLane l fun s => { s with spanFrom := s.spanFrom - sectorLength }) m
  ((m.set (CHN_TSTAT_LOCK n.val) 0).set (CHN_TSTAT_PHASE n.val) 0).set (CHN_TSTAT_FOFF n.val) 0

/-- What a lane delivers for a sector: the 37,888 samples of a slot, all at code 0 while its LANE_EN bit is 0 (R50, R61). -/
def Mach.laneSamples (m : Mach) (l : Lane) (xs : List Adc) : List Adc :=
  if m.bitAt AFE_EN_LANE_EN l.val then (xs ++ List.replicate (slotLength - xs.length) 0).take slotLength
  else List.replicate slotLength 0

/-- A span that is still open in a lane is recorded with the sector up to its last sample (R53). -/
def Mach.recordOpen (m : Mach) (n : Stream) (l : Lane) : Mach :=
  if m.is (AFE_LANE_STAT_TA l.val) then m.recordSpan n m.media.lanes[l].spanFrom (slotLength - 1) else m

/-- Saturated samples outside the recorded spans (AFE_LANEn_STAT.SATCNT). -/
def saturated (spans : List Span) (xs : List Adc) : Nat :=
  (xs.foldl (fun (s : Nat × Nat) x =>
    (if (x == 63 || x == 64) && !spans.any (fun p => decide (p.first ≤ s.2) && decide (s.2 ≤ p.last)) then s.1 + 1 else s.1,
      s.2 + 1)) (0, 0)).1

/-- The sum of the absolute FIR outputs of a reader, in 1/256 of a code (R51). -/
def firSum (taps : Array Int) (delay : Nat) (xs : List Adc) : Nat :=
  (firAll taps delay (xs.map adcValue).toArray).foldl (fun s v => s + v.natAbs) 0

/-- The gain loop over a sector (R51, R52): with AGC the code goes toward the one that brings the mean absolute FIR output to
AGC_TARGET; how far is a free value, for the spec bounds the steps and does not state them. In a span's hold it stays. -/
def Mach.gainLoop (m : Mach) (l : Lane) (taps : Array Int) (delay : Nat) (xs : List Adc) : Mach :=
  if !(m.is (AFE_LANE_STAT_READY l.val) && m.is (AFE_LANE_CFG_AGC_EN l.val)) || m.media.lanes[l].hold != .off then m
  else
    let sum := firSum taps delay xs
    let want := 256 * slotLength * m.get (AFE_LANE_CFG_AGC_TARGET l.val)
    let g := m.get (AFE_LANE_STAT_VGA l.val)
    if sum < want then (m.set (AFE_LANE_STAT_VGA l.val) (g + m.free % (128 - g))).nextFree
    else if want < sum then (m.set (AFE_LANE_STAT_VGA l.val) (g - m.free % (g + 1))).nextFree
    else m

/-- A sector passes under the head and its samples go into a slot (R50, R51, R53, R61). -/
def Mach.fillSlot (m : Mach) (n : Stream) (i : SampleIdx) (ring : Nat) (desc : SectorDesc) (samples : Samples)
    (ladder : Bool) (copy : Option Nat) : Mach :=
  let lx := lanesOf n 0
  let ly := lanesOf n 1
  let xs := m.laneSamples lx samples.x
  let ys := m.laneSamples ly samples.y
  let m := (m.recordOpen n lx).recordOpen n ly
  let c := m.media.chan[n]
  let eq := c.eq c.force.eqSet.val false
  let m := (m.gainLoop lx eq.firX (m.get (CHN_SKEW_DELAY_X n.val)) xs).gainLoop ly eq.firY
    (m.get (CHN_SKEW_DELAY_Y n.val)) ys
  let m := (m.incSat (AFE_LANE_STAT_SATCNT lx.val) (saturated c.spans xs)).incSat (AFE_LANE_STAT_SATCNT ly.val)
    (saturated c.spans ys)
  let s : SampleSlot :=
    { state := .captured, ring := ring, desc := desc, time := m.clock, eqSet := c.force.eqSet, framed := false,
      offset := 0, found := false, spans := c.spans, samples := ⟨xs, ys⟩, ladder := ladder, copy := copy }
  ((m.setSlot n i fun _ => s).incSat (CHN_CNT_SECT_CAPT n.val) 1).syncSlots n

/-! ### Ends of descriptors (Table 4-4) -/

namespace Mach

/-- Update a formatter. -/
def setFmt (m : Mach) (n : Stream) (f : FmtState → FmtState) : Mach :=
  m.setMedia fun s => { s with fmt := updAt s.fmt n f }

/-- The datapath holds status and result of the descriptor at a ring index (Table 4-4). -/
def itemStatus (m : Mach) (n : Stream) (ring status result : Nat) : Mach :=
  m.setFmt n fun f => { f with items := f.items.map fun i =>
    if i.ring = ring ∧ i.status.isNone then { i with status := some (status, result) } else i }

/-- Event source `b` of stream `n`'s formatter (Table 18-1). -/
def fmtSource (n : Stream) (b : Nat) : Nat := 32 * (14 + n.val) + b

/-- A descriptor ends without having been read or written in full: status, counter, error bit and event (Table 4-4). -/
def endDesc (m : Mach) (n : Stream) (ring status : Nat) : Mach :=
  let m := m.itemStatus n ring status 0
  match status with
  | 1 => (m.incSat (FMT_CNT_MISS_MISSED n.val) 1).report (fmtSource n 8)
  | 2 => (m.incSat (FMT_CNT_ABORT_TORN n.val) 1).report (fmtSource n 6)
  | 3 => (m.incSat (FMT_CNT_ABORT_UNDERRUN n.val) 1).report (fmtSource n 7)
  | 4 => m.flagEvent (FMT_ERR_ZONE_MISMATCH n.val) (fmtSource n 0)
  | 5 => m.flagEvent (FMT_ERR_BADDESC n.val) (fmtSource n 1)
  | 6 => (m.incSat (FMT_CNT_MISS_ENCERR n.val) 1).flagEvent (FMT_ERR_ENCERR n.val) (fmtSource n 2)
  | 7 => m.flagEvent (FMT_ERR_BUFERR n.val) (fmtSource n 3)
  | 8 => m.flagEvent (FMT_ERR_DMAP_OVF n.val) (fmtSource n 4)
  | _ => m

/-- A stream's head selection is settled (R173). -/
def headValid (m : Mach) (n : Stream) : Bool := m.is (HSQ_SEL_VALID (actOf n).val (slotOf n).val)

/-- Ring size of a formatter (FMT_RING_CFG). -/
def fmtRingSize (m : Mach) (n : Stream) : Nat := 2 ^ max 4 (min 12 (m.get (FMT_RING_CFG_SIZE_LOG2 n.val)))

/-- Every posted descriptor has been taken. -/
def ringTaken (m : Mach) (n : Stream) : Bool :=
  m.media.fmt[n].nextRing == m.get (FMT_RING_TAIL_TAIL n.val) % m.fmtRingSize n

/-- A read run ends with the capture of its last sector (R311). -/
def endReadRun (m : Mach) (n : Stream) : Mach :=
  if m.ringTaken n && m.media.fmt[n].armedCap.isNone && m.get (FMT_STAT_STATE n.val) == 1 then
    (m.setFmt n fun f => { f with inRun := false }).set (FMT_STAT_STATE n.val) 0
  else m

end Mach

/-- The other slot of the stream's actuator is in a write run (R7, R106). -/
def Mach.otherWrites (m : Mach) (n : Stream) : Bool :=
  let k := otherSlot (slotOf n)
  let o := streamOf (actOf n) k
  m.media.wpath[actOf n].writer == some k || (m.media.fmt[o].inRun && m.get (FMT_STAT_STATE o.val) == 2)

/-- The formatter of a stream leaves a sector to the ladder: its job's capture of this position is armed (R123), or a change of
the job is on the head (R124). -/
def Mach.ladderHas (m : Mach) (n : Stream) (d : SectorDesc) : Bool :=
  match m.media.lad[actOf n].jobs with
  | j :: _ => j.ssel == slotOf n && ((j.armed && j.desc.cyl == d.cyl && j.desc.head == d.head && j.desc.index == d.index) ||
      j.offset != 0 || j.heater != 0)
  | [] => false

/-- SECTOR_CAPTURE (R7, R53, R61, R62, R102, R153, R173): the armed sector passes under the head of stream `n`; its samples go
into a free slot, or the descriptor ends MISSED. Nothing is captured while the slot's track is not confirmed. -/
def sectorCapture (n : Stream) (samples : Samples) (m : Mach) : Mach :=
  match m.media.fmt[n].armedCap with
  | none => m
  | some ring =>
    match m.media.fmt[n].items.find? (·.ring == ring) with
    | none => m
    | some item =>
      if m.media.chan[n].capturing && m.headValid n && m.bitAt (SRV_STAT_TRK_CONF (actOf n).val) (slotOf n).val &&
          !m.otherWrites n && !m.ladderHas n item.desc &&
          decide (m.get (QDR_ACT_STATE (actOf n).val) < 2) then
        let m' := m.setFmt n fun f => { f with armedCap := none }
        match m.freeSlotOf n with
        | some i => (m'.fillSlot n i ring item.desc samples false item.copy).endReadRun n
        | none => (m'.endDesc n ring 1).endReadRun n
      else m

/-! ### The sync search (R109–R113) -/

/-- The result of a sync search. -/
structure SyncResult where
  found : Bool
  dist  : Nat
  best  : Int
  first : Int
  deriving DecidableEq, Repr

/-- The Hamming distance at offset `d`; `dists` starts at d = −24. -/
def distAt (dists : List Nat) (d : Int) : Nat := dists.getD (d + 24).toNat 48

/-- The sync search over the distances at d = −24 … +87 (R109, R110, R112). -/
def syncSearch (thresh : Nat) (dists : List Nat) : SyncResult :=
  match (List.range 49).find? fun i => dists.getD i 48 ≤ thresh with
  | none => ⟨false, 0, 0, 0⟩
  | some i =>
    let first : Int := (i : Int) - 24
    let best := (List.range 63).foldl (fun (b : Int × Nat) (k : Nat) =>
      let d := first + 1 + (k : Int)
      let x := distAt dists d
      if x ≤ thresh ∧ x ≤ b.2 then (d, x) else b) (first, distAt dists first)
    ⟨true, best.2, best.1, first⟩

/-- The oldest captured sector of a stream whose search has not ended. -/
def Mach.unframed (m : Mach) (n : Stream) : Option SampleIdx :=
  (allFin 64).foldl (fun (b : Option SampleIdx) i =>
    let s := m.media.chan[n].slots[i]
    if s.state == .captured && !s.framed then
      match b with
      | some j => if s.time < m.media.chan[n].slots[j].time then some i else b
      | none => some i
    else b) none

/-- The sync mark (Table 4-1), first bit first. -/
def syncMark : List Bool := (List.range 48).map fun i => Nat.testBit 0xB8E533A94F0D (47 - i)

/-- The distances at d = −24 … +87 of the mark from the tracking path's bit decisions, the first of which is the one at
d = −24. -/
def syncDists (bits : List Bool) : List Nat :=
  (List.range 112).map fun i => (((bits.drop i).take 48).zipWith (· != ·) syncMark).countP id + (48 - (bits.length - i))

/-- The timing loop (R56): the phase and the frequency offset in 2⁻³⁰ UI, the bits gone since the preamble's start, and the
bits in a row whose phase-detector output stayed within ±4/64 UI. -/
structure TimingLoop where
  phase : Int
  freq  : Int
  bits  : Nat
  calm  : Nat
  lock  : Bool

/-- The loop after a bit whose phase-detector output is `e`, in 1/64 UI: acquisition gains for ACQ_LEN bits, then tracking
gains; the frequency offset stays within ±2,000 ppm. It keeps full precision (DESIGN CHOICE, log entry 130). -/
def Mach.timingBit (m : Mach) (n : Stream) (t : TimingLoop) (e : Int) : TimingLoop :=
  let acq := t.bits < m.get (CHN_TLOOP_ACQ_LEN n.val)
  let kp := m.get (if acq then CHN_TLOOP_ACQ_KP_SHIFT n.val else CHN_TLOOP_TRK_KP_SHIFT n.val)
  let ki := m.get (if acq then CHN_TLOOP_ACQ_KI_SHIFT n.val else CHN_TLOOP_TRK_KI_SHIFT n.val)
  let x := e * 2 ^ 24
  let freq := clampInt (-2147483) 2147483 (t.freq + x / 2 ^ ki)
  let calm := if e.natAbs ≤ 4 then t.calm + 1 else 0
  ⟨t.phase + x / 2 ^ kp + freq, freq, t.bits + 1, calm, t.lock || decide (32 ≤ calm)⟩

/-- SYNC_SEARCH_END (R56, R109–R113): the search of stream `n`'s oldest unframed capture ends. `bits` are the tracking path's
decisions from d = −24 on and `phases` its phase-detector outputs from the preamble's start on, in 1/64 UI: what the path
decides and detects the spec does not compute (log entry 129). -/
def syncSearchEnd (n : Stream) (bits : List Bool) (phases : List Int) (m : Mach) : Mach :=
  let a := (actOf n).val
  let k := (slotOf n).val
  match m.unframed n with
  | none => m
  | some i =>
    let r := syncSearch (m.get (LAD_SYNC_THRESH a)) (syncDists bits)
    let m := m.setSlot n i fun s => { s with framed := true, offset := r.best, found := r.found }
    let m := (((m.set (LAD_SYNCSTAT_VALID a k) 1).setFlag (LAD_SYNCSTAT_FOUND a k) r.found).set
      (LAD_SYNCSTAT_DIST a k) r.dist).setS (LAD_SYNCSTAT_OFFSET a k) r.best
    let m := m.setS (LAD_SYNCSTAT_FIRST a k) r.first
    let m := m.when (!r.found) (·.incSat (LAD_CNT_SYNC_BLIND a) 1)
    let m := m.when (r.found && r.best != r.first) (·.incSat (LAD_CNT_SYNC_LATE a) 1)
    let t := phases.foldl (m.timingBit n) ⟨0, 0, 0, 0, false⟩
    if t.lock then
      ((m.set (CHN_TSTAT_LOCK n.val) 1).set (CHN_TSTAT_PHASE n.val) (t.phase / 2 ^ 24 % 64).toNat).setS
        (CHN_TSTAT_FOFF n.val) (roundDiv (t.freq * 10000000) (2 ^ 30))
    else m

/-! ### The decoder pool (R63, R76–R78) -/

/-- Merge spans to at most four (R53). -/
def mergeSpans (spans : List Span) : List Span :=
  spans.foldl (fun acc s => match acc with
    | [a, b, c, d] => [a, b, c, ⟨min d.first s.first, max d.last s.last⟩]
    | _ => acc ++ [s]) []

/-- Sample `k` of a capture aligned by its framing offset. -/
def alignedAt (xs : Array Adc) (d k : Int) : Int :=
  let i := k + d
  if i < 0 then 0 else (xs.getD i.toNat 0).toInt

/-- The average of captures (R125): sums divided by the count, ties away from zero, saturated to 7 bits. -/
def averageOf (caps : List (List Adc × Int)) : Array Int :=
  let arrs := caps.map fun c => (c.1.toArray, c.2)
  ((List.range 37888).map fun (k : Nat) =>
    clampInt (-64) 63 (roundDiv (arrs.foldl (fun s c => s + alignedAt c.1 c.2 (k : Int)) 0) caps.length)).toArray

/-- A source of a decode: both readers' samples, the framing offset, the spans. -/
structure Source where
  x : Array Int
  y : Array Int
  d : Int
  spans : List Span

/-- The averaged source of a ladder accumulator (R125). -/
def averageSource (added : List (Samples × List Span × Int)) : Source :=
  { x := averageOf (added.map fun a => (a.1.x, a.2.2))
    y := averageOf (added.map fun a => (a.1.y, a.2.2))
    d := 0
    spans := mergeSpans (added.flatMap fun a => a.2.1.map fun s =>
      ⟨((s.first : Int) - a.2.2).toNat, ((s.last : Int) - a.2.2).toNat⟩) }

/-- The source in a slot. -/
def SampleSlot.source (s : SampleSlot) : Source :=
  ⟨(s.samples.x.map adcValue).toArray, (s.samples.y.map adcValue).toArray, s.offset, s.spans⟩

/-- The decode of a source: the codeword starts at sample 56 + d + o + 48 (R111, R121). A span erases the codeword bits of the
same sample numbers; the spec does not say whether the readers' delays move it, and the model leaves it where it was recorded
(DESIGN CHOICE, log entry 131). -/
def Mach.decodeSource (m : Mach) (n : Stream) (src : Source) (eqSet readers : Nat) (npDefault : Bool) (shift : Int)
    (sched : Sched) : DecodeRun :=
  let coef := m.media.chan[n].eq eqSet npDefault
  let z := combine coef readers (m.get (CHN_SKEW_DELAY_X n.val)) (m.get (CHN_SKEW_DELAY_Y n.val)) src.x src.y
  let base : Int := 56 + src.d + shift + 48
  let word := (List.range 37376).map fun (v : Nat) =>
    let k : Int := base + (v : Int)
    SampleTriple.mk (sampleAt z k) (sampleAt z (k - 1)) (sampleAt z (k - 2))
  let erased (v : Nat) : Bool := src.spans.any fun s => (s.first : Int) ≤ base + (v : Int) && base + (v : Int) ≤ (s.last : Int)
  let target : List Int := [m.getS (CHN_TARGET_G0 n.val), m.getS (CHN_TARGET_G1 n.val), m.getS (CHN_TARGET_G2 n.val)]
  decodeRun sched (xscaleNum (m.get (CHN_CTRL_XSCALE n.val))) ⟨target, coef.np.toArray⟩ word erased

namespace Mach

/-- Periods of the root PLL in a cycle of F-DEC (Table 16-1). -/
def decPeriods : Nat := 10

/-- The stream's replay front end is free (R63). -/
def replayFree (m : Mach) (n : Stream) : Bool := m.media.chan[n].replayEnd ≤ m.clock

/-- The buffer that a descriptor names is held (R76); a verify needs none. -/
def bufferHeld (m : Mach) (d : SectorDesc) : Bool :=
  d.op == 3 || m.buf.pools[(handlePool d.handle)].used.contains (handleIndex d.handle)

/-- The on-the-fly queue: framed captures, by capture time, ties to the lower stream (R76). -/
def otfWaiting (m : Mach) : List (Stream × SampleIdx) :=
  (allFin 8).flatMap fun n => ((allFin 64).filter fun i =>
    let s := m.media.chan[n].slots[i]
    s.state == .captured && s.framed && !s.ladder).map fun i => (n, i)

/-- The oldest eligible on-the-fly request. -/
def oldestOtf (m : Mach) : Option (Stream × SampleIdx) :=
  m.otfWaiting.foldl (fun (b : Option (Stream × SampleIdx)) q =>
    let s := m.media.chan[q.1].slots[q.2]
    if m.replayFree q.1 && m.bufferHeld s.desc then
      match b with
      | some p => if s.time / decPeriods < m.media.chan[p.1].slots[p.2].time / decPeriods then some q else b
      | none => some q
    else b) none

/-- A ladder request is eligible (R76). -/
def ladderEligible (m : Mach) (q : LadderReq) : Bool :=
  let framed := match q.slot with
    | some i => m.media.chan[q.stream].slots[i].framed
    | none => true
  m.replayFree q.stream && (!q.orphan.isEmpty || (framed && m.bufferHeld q.desc))

/-- The oldest eligible ladder request, ties to the lower actuator (R76). -/
def oldestLadder (m : Mach) : Option LadderReq :=
  m.media.dec.ladder.foldl (fun (b : Option LadderReq) q =>
    if m.ladderEligible q then
      match b with
      | some p =>
        if q.time / decPeriods < p.time / decPeriods ∨
            (q.time / decPeriods = p.time / decPeriods ∧ q.ref.act < p.ref.act) then some q else b
      | none => some q
    else b) none

/-- Engines on ladder decodes. -/
def ladderHeld (m : Mach) : Nat := (allFin 12).countP fun e => match m.media.dec.engines[e] with
  | some h => h.ladder.isSome
  | none => false

/-- LADDER_MAX within 1–4 (R77). -/
def ladderMax (m : Mach) : Nat := max 1 (min 4 (m.get DEC_CFG_LADDER_MAX))

/-- DEC_BUSY follows the engines; its queue lengths are computed when it is read. -/
def syncDec (m : Mach) : Mach :=
  let eng := (allFin 12).foldl (fun s e => if m.media.dec.engines[e].isSome then s + 2 ^ e.val else s) 0
  (m.set DEC_BUSY_ENG eng).set DEC_BUSY_LADDER_HELD m.ladderHeld

/-- What DEC_BUSY reads: with the eligible sectors of the on-the-fly queue and the eligible requests of the ladder queue
(R76). -/
def decBusyRead (m : Mach) : Word :=
  let otf := m.otfWaiting.countP fun q => m.replayFree q.1 && m.bufferHeld m.media.chan[q.1].slots[q.2].desc
  setBits (setBits (m.word DEC_BUSY_ENG.addr) DEC_BUSY_OTF_WAIT.lo DEC_BUSY_OTF_WAIT.w otf) DEC_BUSY_LADDER_WAIT.lo
    DEC_BUSY_LADDER_WAIT.w (m.media.dec.ladder.countP m.ladderEligible)

/-- Where a decode stands after `t` F-DEC cycles (Table 3-4): state, global and local iteration. `l` local iterations make a
global one, of 112 cycles each; 584 cycles of the back detector precede each global one but the first; `last` iterations run
in all. -/
def decodeProgress (l last t : Nat) : Nat × Nat × Nat :=
  if t < 1168 then (1, 0, 0)
  else
    let u := t - 1168
    let period := l * 112 + 584
    let g := u / period
    let k := min l (u % period / 112)
    if last ≤ g * l + k then (3, 0, 0) else (2, g + 1, min l (k + 1))

/-- What DEC_ENGn reads (R63, R72): the progress of the held sector at this instant. -/
def decEngRead (m : Mach) (e : Engine) : Word :=
  let w := m.word (DEC_ENG_STATE e.val).addr
  match m.media.dec.engines[e] with
  | none => w
  | some h =>
    let (st, g, k) := decodeProgress h.sched.iterations.2 (h.run.iter + 1) ((m.clock - h.since) / decPeriods)
    setBits (setBits (setBits w (DEC_ENG_STATE e.val).lo (DEC_ENG_STATE e.val).w st) (DEC_ENG_GLOBAL e.val).lo
      (DEC_ENG_GLOBAL e.val).w g) (DEC_ENG_LOCAL e.val).lo (DEC_ENG_LOCAL e.val).w k

/-- Update the pool. -/
def setDec (m : Mach) (f : DecPool → DecPool) : Mach := m.setMedia fun s => { s with dec := f s.dec }

/-- DEC_ENGn of an engine at its grant. -/
def engineLoad (m : Mach) (e : Engine) (h : EngineHold) : Mach :=
  let sched := match h.sched with | .otf => 0 | .ext => 1 | .max => 2
  ((m.set (DEC_ENG_STATE e.val) 1).set (DEC_ENG_SCHED e.val) sched).set (DEC_ENG_STREAM e.val) h.stream.val

/-- DEC_ENGn of an idle engine. -/
def engineIdle (m : Mach) (e : Engine) : Mach :=
  ((((m.set (DEC_ENG_STATE e.val) 0).set (DEC_ENG_SCHED e.val) 0).set (DEC_ENG_STREAM e.val) 0).set
    (DEC_ENG_GLOBAL e.val) 0).set (DEC_ENG_LOCAL e.val) 0

/-- An engine takes a sector; the stream's replay front end is busy for 1,168 F-DEC cycles (R63). -/
def startDecode (m : Mach) (e : Engine) (h : EngineHold) : Mach :=
  let m := m.setDec fun d => { d with engines := d.engines.set e (some h) }
  let m := m.setChan h.stream fun c => { c with replayEnd := m.clock + 11680 }
  (m.engineLoad e h).syncDec

end Mach

/-- The captures that a ladder request decodes, with their spans and framing offsets: the slot's, those that its job has
accumulated, or those kept after the job's end (R118). -/
def Mach.ladderCaptures (m : Mach) (q : LadderReq) : List (Samples × List Span × Int) :=
  if !q.orphan.isEmpty then q.orphan
  else match q.slot with
    | some i => let s := m.media.chan[q.stream].slots[i]; [(s.samples, s.spans, s.offset)]
    | none => match m.media.lad[q.ref.act].jobs with
      | j :: _ => if j.id = q.ref.job then j.added else []
      | [] => []

/-- The source of a ladder request: one capture as it was framed, or the average. -/
def Mach.ladderSource (m : Mach) (q : LadderReq) : Source :=
  match q.slot, m.ladderCaptures q with
  | some _, [(s, spans, d)] => ⟨(s.x.map adcValue).toArray, (s.y.map adcValue).toArray, d, spans⟩
  | _, cs => averageSource cs

/-- DECODER_GRANT (R25, R27, R28, R57–R59, R63–R65, R71, R76–R78): the lowest-numbered free engine takes the oldest
eligible ladder request while fewer than LADDER_MAX engines hold ladder decodes, else the oldest on-the-fly request. An
on-the-fly replay uses the set stored with the capture (R61), also where EQ_SET (R58) has changed since (DESIGN CHOICE, log
entry 132). An averaged source counts as framed on a detected mark, also where its captures were framed blind (DESIGN
CHOICE, log entry 133). -/
def decoderGrant (m : Mach) : Mach :=
  if m.get PWR_MODE_MODE = 4 then m else
  match (allFin 12).find? fun e => m.media.dec.engines[e].isNone with
  | none => m
  | some e =>
    let ladder := if m.ladderHeld < m.ladderMax then m.oldestLadder else none
    match ladder with
    | some q =>
      let src := m.ladderSource q
      let found := match q.slot with
        | some i => m.media.chan[q.stream].slots[i].found
        | none => true
      let run := m.decodeSource q.stream src q.eqSet.val q.readers q.npDefault q.shift q.sched
      let h : EngineHold := ⟨q.stream, q.slot, q.desc, q.sched, found, some q.ref, m.clock, run, none⟩
      let m := m.setDec fun d => { d with ladder := d.ladder.filter fun x => x.ref != q.ref }
      m.startDecode e h
    | none =>
      match m.oldestOtf with
      | none => m
      | some (n, i) =>
        let s := m.media.chan[n].slots[i]
        let run := m.decodeSource n s.source s.eqSet.val (m.get (CHN_CTRL_READERS n.val)) false 0 .otf
        let h : EngineHold := ⟨n, some i, s.desc, .otf, s.found, none, m.clock, run, s.copy⟩
        (m.setSlot n i fun s => { s with state := .decoding }).startDecode e h

/-! ### Results (R67, R68, R73–R75) -/

/-- The tag that an information block carries. -/
def blockTag (info : List Byte) : BitVec 64 := BitVec.ofNat 64 (ofBytesLE ((info.drop 4116).take 8))

/-- The checks after convergence (R68, R73): code and plaintext block. Decryption takes the block's own tag as tweak. -/
def checkBlock (key : BitVec 512) (expect : BitVec 64) (found : Bool) (info : List Byte) : Nat × List Byte :=
  let plain := decryptBlock key (blockTag info) info
  let code :=
    if ofBytesLE ((plain.drop 4112).take 4) ≠ sectorCrc (blockTag info).toNat plain then 3
    else if blockTag info ≠ expect then 4
    else if found then 0 else 1
  (code, plain)

/-- The result of an engine's sector (Table 3-6). -/
def Mach.decodeResult (m : Mach) (h : EngineHold) : Nat × List Byte :=
  if h.run.converged then checkBlock m.sec.slots[(Fin.ofNat 32 h.desc.key)] h.desc.tag h.found h.run.info else (2, [])

/-- Namespace identifier of a tag: index plus 1. -/
def tagNsid (t : BitVec 64) : Nat := bitsAt t 61 3 + 1
/-- LBA of a tag. -/
def tagLba (t : BitVec 64) : Nat := bitsAt t 0 56

/-- The copy covers the sector of a tag. -/
def SpecCopy.holds (s : SpecCopy) (t : BitVec 64) : Bool :=
  s.nsid == tagNsid t && decide (s.first ≤ tagLba t) && decide (tagLba t < s.first + s.sectors.length)

namespace Mach

/-- Update the command complex. -/
def setCmd (m : Mach) (f : CmdState → CmdState) : Mach := { m with cmd := f m.cmd }

/-- Update the speculative sector of a copy that holds a tag (R22, R24). -/
def setSpec (m : Mach) (copy : Option Nat) (t : BitVec 64) (f : SpecSector → SpecSector) : Mach :=
  let upd (s : SpecCopy) : SpecCopy :=
    if some s.id = copy ∧ s.holds t then { s with sectors := s.sectors.modify (tagLba t - s.first) f } else s
  m.setCmd fun c => { c with specs := c.specs.map upd }

/-- The speculative sector of a tag is of no use any more: it was discarded, or its copy freed (R21, R26). -/
def specDead (m : Mach) (copy : Option Nat) (t : BitVec 64) : Bool :=
  !m.cmd.specs.any fun s => some s.id == copy && s.holds t && s.sectors.getD (tagLba t - s.first) .discarded != .discarded

/-- The copy that a descriptor with SPEC = 1 fills: the latest one whose sector of that tag still fills (R22). -/
def specOf (m : Mach) (d : SectorDesc) : Option Nat :=
  if d.spec then
    (m.cmd.specs.reverse.find? fun s => s.holds d.tag &&
      (match s.sectors.getD (tagLba d.tag - s.first) .discarded with
       | .filling => true
       | .bound _ none => true
       | _ => false)).map (·.id)
  else none

/-- A speculative sector ends without data: it is marked absent (R24), a discarded one stays discarded (R21), and either way
its buffer returns to its pool. -/
def specFails (m : Mach) (copy : Option Nat) (d : SectorDesc) : Mach :=
  poolFree (BitVec.ofNat 24 d.handle) (m.setSpec copy d.tag fun s => if s == .discarded then s else .absent)

/-- A sector ends with a code other than OK or OK_BLIND on its first decode (R21, R24, R62, R75, R116). -/
def failSector (m : Mach) (n : Stream) (i : SampleIdx) (d : SectorDesc) (copy : Option Nat) (ring code : Nat) : Mach :=
  let m := m.itemStatus n ring 0 code
  if d.spec then (m.specFails copy d).freeSlot n i
  else if m.pinMax n ≤ m.countSlots n .pinned then (m.freeSlot n i).report (chnSource n 3)
  else (m.setSlot n i fun s => { s with state := .pinned }).syncSlots n

/-- Counters and events of an on-the-fly decode (DEC registers). -/
def countDecode (m : Mach) (code iter : Nat) (converged : Bool) : Mach :=
  let m := m.incSat DEC_CNT_OTF_COUNT 1
  let m := m.when converged fun m => m.incSat (DEC_ITERH_COUNT (Fin.ofNat 24 iter).val) 1
  if code = 2 then (m.incSat DEC_CNT_NOCONV_COUNT 1).report 416
  else if code = 3 then (m.incSat DEC_CNT_CRC_COUNT 1).report 417
  else if code = 4 then (m.incSat DEC_CNT_TAG_COUNT 1).report 418
  else m

/-- A ladder attempt's result reaches its job (R117, R433). -/
def attemptResult (m : Mach) (r : AttemptRef) (code unsat : Nat) (block : List Byte) : Mach :=
  m.setMedia fun s => { s with lad := updAt s.lad r.act fun l => { l with jobs := l.jobs.map fun j =>
    if j.id = r.job ∧ j.step = r.step then
      { j with attempts := j.attempts.map fun a =>
          if a.number = r.attempt then { a with result := some (code, unsat, block) } else a }
    else j } }

end Mach

/-- The write-back port of an actuator (Table 2-2). -/
def writeBackPort (a : Actuator) : Port := ⟨13 + a.val, by omega⟩

/-- The class of a write-back: the actuator's MEDRD, or SPEC for a descriptor with SPEC = 1 (R22, R73, Table 2-2). -/
def writeBackClass (a : Actuator) (d : SectorDesc) : FabClass := if d.spec then 10 else Fin.ofNat 16 (2 + a.val)

/-- A write-back starts: its port is asked for the bursts of the page and of the tail line (R73). -/
def Mach.startWriteBack (m : Mach) (n : Stream) (slot : Option SampleIdx) (d : SectorDesc) (block : List Byte)
    (copy : Option Nat) : Mach :=
  let a := actOf n
  let p := handlePool d.handle
  let i := handleIndex d.handle
  let keep := !(d.spec && m.specDead copy d.tag)
  let m := m.setDec fun s => { s with writeBacks := s.writeBacks ++ [WriteBack.mk n slot d block keep copy] }
  (m.demand (writeBackPort a) (writeBackClass a d) (m.pageAddr p i) 4096).demand (writeBackPort a) (writeBackClass a d)
    (m.tailAddr p i) 64

/-- The bursts of the `k`-th write-back in progress have moved: it is the oldest of its actuator, its port has no burst under
way, and what the port has still to offer belongs to the later ones, two demands each. -/
def Mach.writeBackMoved (m : Mach) (k : Nat) (w : WriteBack) : Bool :=
  let a := actOf w.stream
  let mine (x : WriteBack) : Bool := actOf x.stream == a
  let ws := m.media.dec.writeBacks
  !(ws.take k).any mine && m.cal.portIdle (writeBackPort a) &&
    decide (m.cal.demands.countP (·.port == writeBackPort a) ≤ 2 * (ws.drop (k + 1)).countP mine)

/-- DECODE_COMPLETE (R21, R24, R62, R67, R68, R72–R75, R116): the decode of engine `e` ends. A good first decode starts
its write-back, a verify needs none, and any other code pins or frees the slot. -/
def decodeComplete (e : Engine) (m : Mach) : Mach :=
  match m.media.dec.engines[e] with
  | none => m
  | some h =>
    let (code, block) := m.decodeResult h
    let m := m.setDec fun d => { d with engines := d.engines.set e none }
    let m := m.engineIdle e
    let m := match h.ladder with
      | some r => m.attemptResult r code h.run.unsat block
      | none =>
        let m := m.countDecode code h.run.iter h.run.converged
        match h.slot with
        | none => m
        | some i =>
          let ring := m.media.chan[h.stream].slots[i].ring
          if code ≤ 1 then
            if h.desc.op = 3 then (m.itemStatus h.stream ring 0 code).freeSlot h.stream i
            else m.startWriteBack h.stream (some i) h.desc block h.copy
          else m.failSector h.stream i h.desc h.copy ring code
    m.syncDec

/-- Write a block to the pool buffer and tail line that a descriptor names (R73, R221). -/
def Mach.storeBlock (m : Mach) (handle : Nat) (block : List Byte) : Mach :=
  let p := handlePool handle
  let i := handleIndex handle
  (m.writeBytes (m.pageAddr p i) (block.take 4096)).writeBytes (m.tailAddr p i) (block.drop 4096)

/-- WRITE_BACK_COMPLETE (R21, R62, R73): the `k`-th write-back in progress finishes once its bursts have moved; a discarded
speculative sector's buffer returns to its pool instead. -/
def writeBackComplete (k : Nat) (m : Mach) : Mach :=
  match m.media.dec.writeBacks[k]? with
  | none => m
  | some w =>
    if !m.writeBackMoved k w then m else
    let m := m.setDec fun d => { d with writeBacks := d.writeBacks.eraseIdx k }
    let keep := w.keep && !(w.desc.spec && m.specDead w.copy w.desc.tag)
    let m := if keep then m.storeBlock w.desc.handle w.block else poolFree (BitVec.ofNat 24 w.desc.handle) m
    let m := m.when (keep && w.desc.spec) fun m => m.setSpec w.copy w.desc.tag fun s => match s with
      | .filling => .decoded w.desc.handle
      | .bound f none => .bound f (some w.desc.handle)
      | s => s
    match w.slot with
    | some i =>
      let s := m.media.chan[w.stream].slots[i]
      (m.itemStatus w.stream s.ring 0 (if s.found then 0 else 1)).freeSlot w.stream i
    | none => m

/-! ### Register writes of the channel -/

/-- CHN_CDATA_WRITE (R81): the entry at ADDR is stored, or the write is ignored for the live set. With AUTOINC the address
advances after an ignored write too, which the spec does not say (DESIGN CHOICE, log entry 134). -/
def chnCdataWrite (n : Stream) (data : BitVec 10) (m : Mach) : Mach :=
  let a := m.get (CHN_CADDR_ADDR n.val)
  let live := m.is (CHN_CTRL_EN n.val) && a / 0x400 == m.get (CHN_CTRL_EQ_SET n.val)
  let m :=
    if live then m.flagEvent (CHN_SMEM_CWR_IGN n.val) (Mach.chnSource n 0)
    else if coefWidth (a % 0x400) = 0 then m
    else m.setChan n fun c => c.putCoef a data.toNat
  m.when (m.is (CHN_CADDR_AUTOINC n.val)) fun m => m.set (CHN_CADDR_ADDR n.val) (a + 1)

/-- CHN_EN_WRITE (R428): EN = 1 starts the stream; EN = 0 stops capture at the next sector boundary. -/
def chnEnWrite (n : Stream) (en : Bool) (m : Mach) : Mach :=
  let a := (actOf n).val
  let k := (slotOf n).val
  if en && !m.is (CHN_CTRL_EN n.val) then
    let m := (m.set (CHN_CTRL_EN n.val) 1).setChan n fun c => { c with capturing := true }
    m.setWord (REG_LAD_SYNCSTAT a k) 0
  else m.setFlag (CHN_CTRL_EN n.val) en

/-- CHN_CNTCLR (R81). -/
def chnCntclr (n : Stream) (m : Mach) : Mach :=
  (((m.set (CHN_CNT_SECT_CAPT n.val) 0).set (CHN_CNT_TA_SPANS n.val) 0).set (CHN_CNT_TA_MERGED n.val) 0).set
    (CHN_SMEM_HIGH n.val) (m.get (CHN_SMEM_USED n.val))

/-- DEC_CNTCLR (R72). -/
def decCntclr (m : Mach) : Mach :=
  let m := (((m.set DEC_CNT_OTF_COUNT 0).set DEC_CNT_NOCONV_COUNT 0).set DEC_CNT_CRC_COUNT 0).set DEC_CNT_TAG_COUNT 0
  (List.range 24).foldl (fun m n => m.set (DEC_ITERH_COUNT n) 0) m

/-! ### Block resets (R80) -/

/-- The channel is idle for a block reset. -/
def Mach.chanIdle (m : Mach) (n : Stream) : Bool :=
  !m.is (CHN_CTRL_EN n.val) && m.countSlots n .captured == 0 && m.countSlots n .decoding == 0 && m.replayFree n

/-- A channel leaves block reset with the defaults of Table 3-8 and every slot free. -/
def Mach.clearChan (m : Mach) (n : Stream) : Mach := m.setChan n fun _ => ChanState.initial

/-- The decoder pool leaves block reset idle. -/
def Mach.clearDec (m : Mach) : Mach := m.setDec fun _ => DecPool.initial

end Sys2Proof.Machine
end

