-- ==== Sys2Proof/Machine/HeadSeq.lean ====
section
/-! DEFINITION. The preamplifier link, head selects and gate frames of the head sequencers
(R172–R177 of spec/07_quadrille_and_actuators.md). -/
namespace Sys2Proof.Machine

namespace Mach

/-- Update a head sequencer's frame side. -/
def setHsq (m : Mach) (a : Actuator) (f : HsqState → HsqState) : Mach :=
  { m with motion := { m.motion with hsq := updAt m.motion.hsq a f } }

/-- Update a servo block. -/
def setSrv (m : Mach) (a : Actuator) (f : SrvState → SrvState) : Mach :=
  { m with motion := { m.motion with srv := updAt m.motion.srv a f } }

/-- Update a slot's demodulator. -/
def setSrvSlot (m : Mach) (a : Actuator) (k : HeadSlot) (f : SrvSlot → SrvSlot) : Mach :=
  m.setSrv a fun s => { s with slots := updAt s.slots k f }

/-- Update the engines. -/
def setEng (m : Mach) (f : EngState → EngState) : Mach := { m with eng := f m.eng }

/-- Update a sequencer. -/
def setSeq (m : Mach) (q : SeqId) (f : Seq → Seq) : Mach := m.setEng fun e => { e with seqs := updAt e.seqs q f }

/-- A general register of a sequencer; GP0 reads 0 (R354). -/
def gp (m : Mach) (q : SeqId) (r : Gp) : Word := if r = 0 then 0 else m.eng.seqs[q].gp[r]

/-- Write a general register; GP0 ignores writes (R354). -/
def setGp (m : Mach) (q : SeqId) (r : Gp) (x : Word) : Mach :=
  if r = 0 then m else m.setSeq q fun s => { s with gp := s.gp.set r x }

/-- A gate of the actuator is raised. -/
def gateUp (m : Mach) (a : Actuator) : Bool := m.is (HSQ_SEL_GATE a.val 0) || m.is (HSQ_SEL_GATE a.val 1)

/-- Periods of the root PLL in a cycle of F-PER, a clock of the link (Table 16-1). -/
def perPeriods : Nat := 56

/-- A frame goes onto the link (Table 7-2). -/
def emitFrame (m : Mach) (a : Actuator) (f : Frame) : Mach := m.emit (.frame a f f.wire)

/-- A register frame may start: the link is driven and free, no gate is raised, and the frame ends at least 2 clocks before
each scheduled gate frame starts, whose 8 clocks end at the gate moment (R172, R174, R176). -/
def linkOpen (m : Mach) (a : Actuator) (f : Frame) : Bool :=
  let s := m.motion.hsq[a]
  m.is (HSQ_CTRL_EN a.val) && s.frame.isNone && !m.gateUp a &&
    s.moments.all fun g => decide (m.clock + (f.clocks + 2 + 8) * perPeriods ≤ g.at_)

/-- The actuator's lead slot (R156). -/
def leadSlot (m : Mach) (a : Actuator) : HeadSlot := Fin.ofNat 2 (m.get (SRV_CFG_LEAD a.val))

/-- A slot holds a head: it is selected, it settles, or its select frame is on the link (R6). -/
def holdsHead (m : Mach) (a : Actuator) (k : HeadSlot) (h : Nat) : Bool :=
  (m.is (HSQ_SEL_VALID a.val k.val) && m.get (HSQ_SEL_HEAD a.val k.val) == h) ||
    m.motion.hsq[a].settling[k] == some h ||
    (match m.motion.hsq[a].frame with
     | some (.select k' h' _) => k' == k && h' == h
     | _ => false)

/-- What becomes of a select that is about to be sent (R173): refused for a depopulated head, refused for the lead slot of
loaded heads, waiting for the other slot, or sent. -/
inductive SelectFate where
  | depop | lead | waits | sent
  deriving DecidableEq, Repr

/-- The conditions of a head select (R6, R173). -/
def selectFate (m : Mach) (a : Actuator) (k : HeadSlot) (h : Nat) : SelectFate :=
  if m.bitAt (QDR_ACT_HEAD_DEPOP a.val) h then .depop
  else if k = m.leadSlot a ∧ ¬ m.is (QDR_ACT_PARKED a.val) then .lead
  else if m.holdsHead a (otherSlot k) h then .waits
  else .sent

/-- The oldest held frame: it starts once the link is open for it; a select is tested at this moment (R173). -/
def pumpOnce (m : Mach) (a : Actuator) : Mach :=
  match m.motion.hsq[a].queued with
  | [] => m
  | f :: rest =>
    if !m.linkOpen a f then m
    else
      let start (m : Mach) : Mach := (m.setHsq a fun s => { s with frame := some f, queued := rest }).emitFrame a f
      match f with
      | .select k h _ =>
        let m' := m.setHsq a fun s => { s with queued := rest }
        match m.selectFate a k h with
        | .depop => m'.flagEvent (HSQ_ERR_DEPOP_SEL a.val) (32 * (26 + a.val) + 12)
        | .lead => m'.flagEvent (HSQ_ERR_LEAD_SEL a.val) (32 * (26 + a.val) + 13)
        | .waits => m'.setHsq a fun s => { s with blocked := s.blocked ++ [f] }
        | .sent => start m
      | _ => start m

/-- The held frames are worked off until one is on the link. -/
def pumpLink (m : Mach) (a : Actuator) : Mach := (m.motion.hsq[a].queued).foldl (fun m _ => m.pumpOnce a) m

/-- Hand a register frame to the link. -/
def sendFrame (m : Mach) (a : Actuator) (f : Frame) : Mach :=
  (m.setHsq a fun s => { s with queued := s.queued ++ [f] }).pumpLink a

/-- A raise frame: the gate of the slot opens (R172). -/
def raiseGate (m : Mach) (a : Actuator) (k : HeadSlot) : Mach :=
  ((m.set (HSQ_SEL_GATE a.val k.val) 1).set (FMT_STAT_GATE (streamOf a k).val) 1).emitFrame a (.raise k)

/-- A lower frame: the gate of the slot closes (R172, R176). -/
def lowerGate (m : Mach) (a : Actuator) (k : HeadSlot) : Mach :=
  (((m.set (HSQ_SEL_GATE a.val k.val) 0).set (FMT_STAT_GATE (streamOf a k).val) 0).emitFrame a (.lower k)).pumpLink a

/-- The write-safe flag drops (R151, R152). -/
def dropWsafe (m : Mach) (a : Actuator) : Mach := m.set (SRV_STAT_WSAFE a.val) 0

/-- The WSLOT slot of an actuator (SRV_CTRL). -/
def wslot (m : Mach) (a : Actuator) : HeadSlot := Fin.ofNat 2 (m.get (SRV_CTRL_WSLOT a.val))

/-- Periods of the root PLL in a cycle of F-SEQ (Table 16-1). -/
def seqPeriods : Nat := 14

/-- A slot's target is written (R144, R152, R153): it is unconfirmed until it settles. The target before stays known for the
wedges that still use it. -/
def writeTarget (m : Mach) (a : Actuator) (k : HeadSlot) (v : Nat) : Mach :=
  let old := m.get (SRV_TARGET_TARGET a.val k.val)
  let m := m.set (SRV_TARGET_TARGET a.val k.val) v
  let m := (m.setBitAt (SRV_STAT_TRK_CONF a.val) k.val false).setBitAt (SRV_STAT_ONTRACK a.val) k.val false
  (m.setSrvSlot a k fun s =>
    { s with settle := 0, targets := (m.clock, old) :: s.targets.filter fun t => decide (m.clock ≤ t.1 + 32 * seqPeriods) }).when
    (k == m.wslot a) (·.dropWsafe a)

/-- The target that the wedge of a PES-ready now uses (R144): burst D ended 24 F-SEQ cycles ago, and a write counts that came at
least 8 cycles before. -/
def targetInUse (m : Mach) (a : Actuator) (k : HeadSlot) : Nat :=
  match ((m.motion.srv[a].slots[k].targets).filter fun t => decide (m.clock < t.1 + 32 * seqPeriods)).getLast? with
  | some t => t.2
  | none => m.get (SRV_TARGET_TARGET a.val k.val)

/-- The write-safe flag as the formatter of a slot reads it: 0 unless the slot is WSLOT (R151). -/
def slotSafe (m : Mach) (a : Actuator) (k : HeadSlot) : Nat := if k = m.wslot a then m.get (SRV_STAT_WSAFE a.val) else 0

end Mach

/-- The select frame of a primitive: slot from bit 28, head from bits 26:24, frame from bits 21:0 (Table 15-6). -/
def selectFrame (w : Word) : Frame := .select (Fin.ofNat 2 (getBits w 28 1)) (getBits w 24 3) (w.extractLsb' 0 22)

/-- SELECT (R6, R173): a head select is refused at once for a depopulated head and for the lead slot of loaded heads, waits
while the other slot holds the head, and is handed to the link otherwise; there it is tested again before it is sent. -/
def select (a : Actuator) (xreg : Gp) (m : Mach) : Mach :=
  let w := m.gp (seqHS a) xreg
  let f := selectFrame w
  match m.selectFate a (Fin.ofNat 2 (getBits w 28 1)) (getBits w 24 3) with
  | .depop => m.flagEvent (HSQ_ERR_DEPOP_SEL a.val) (32 * (26 + a.val) + 12)
  | .lead => m.flagEvent (HSQ_ERR_LEAD_SEL a.val) (32 * (26 + a.val) + 13)
  | .waits => m.setHsq a fun s => { s with blocked := s.blocked ++ [f] }
  | .sent => m.sendFrame a f

/-- WFRAME (R172): a register write, address and data from GP[XREG][21:0]. -/
def wframe (a : Actuator) (xreg : Gp) (m : Mach) : Mach :=
  m.sendFrame a (.write ((m.gp (seqHS a) xreg).extractLsb' 0 22))

/-- RFRAME (R172): a register read; its data reaches GP[XREG] when the frame ends. -/
def rframe (a : Actuator) (xreg : Gp) (m : Mach) : Mach :=
  m.sendFrame a (.read xreg ((m.gp (seqHS a) xreg).extractLsb' 0 22))

/-- The selects that waited for the other slot go back to the link; those that must wait on are blocked again there (R173). -/
def Mach.unblock (m : Mach) (a : Actuator) : Mach :=
  m.setHsq a fun s => { s with blocked := [], queued := s.blocked ++ s.queued }

/-- FRAMEDONE (R172, R173): the register frame on the link ends; `data` is what the preamplifier drove in a read. A select
frame's end makes the slot's selection invalid and its servo unlocked. The upper half of a read's register is free. -/
def framedone (a : Actuator) (data : BitVec 16) (m : Mach) : Mach :=
  match m.motion.hsq[a].frame with
  | none => m
  | some f =>
    let m := m.setHsq a fun s => { s with frame := none }
    let m := match f with
      | .read r _ => (m.setGp (seqHS a) r (BitVec.ofNat 16 m.free ++ data)).nextFree
      | .select k h _ =>
        let m := (m.set (HSQ_SEL_VALID a.val k.val) 0).set (HSQ_SEL_HEAD a.val k.val) 0
        let m := ((m.setBitAt (SRV_STAT_LOCK a.val) k.val false).setBitAt (SRV_STAT_TRK_CONF a.val) k.val false).setBitAt
          (SRV_STAT_ONTRACK a.val) k.val false
        (m.setHsq a fun s => { s with settling := s.settling.set k (some h) }).unblock a
      | _ => m
    m.pumpLink a

/-- HEAD_SELECT_SETTLE (R173): the settle time of the slot's select has passed. -/
def headSelectSettle (a : Actuator) (k : HeadSlot) (m : Mach) : Mach :=
  match m.motion.hsq[a].settling[k] with
  | some h =>
    let m := m.setHsq a fun s => { s with settling := s.settling.set k none }
    (m.set (HSQ_SEL_VALID a.val k.val) 1).set (HSQ_SEL_HEAD a.val k.val) h
  | none => m

/-- GATEARM (R174): the gate moment that the formatter has given passes to the frame timer. -/
def gatearm (a : Actuator) (m : Mach) : Mach :=
  match m.motion.hsq[a].due with
  | some g => m.setHsq a fun s => { s with due := none, moments := s.moments ++ [g] }
  | none => m

/-- PA_FAULT_ASSERT (R152, R177): PA_FAULT_N has been low for 20 ns. No row of the operation table is the release of the
input, so that once it has been asserted HSQ_FAULT.PIN reads a free value (DESIGN CHOICE, log entry 55). -/
def paFaultAssert (a : Actuator) (m : Mach) : Mach :=
  let m := (m.set (HSQ_FAULT_PIN a.val) 1).set (HSQ_FAULT_LATCH a.val) 1
  ((m.incSat (HSQ_FAULT_COUNT a.val) 1).report (32 * (26 + a.val) + 10)).dropWsafe a

/-- A head sequencer leaves block reset (R382): the link idle, no head selected. -/
def Mach.clearHsq (m : Mach) (a : Actuator) : Mach := m.setHsq a fun _ => HsqState.initial

end Sys2Proof.Machine
end

