-- ==== Sys2Proof/Machine/Format.lean ====
section
/-! DEFINITION. The formatters, the write path and the write gate (spec/04_write_path_and_format.md; R174–R176 of
spec/07_quadrille_and_actuators.md). -/
namespace Sys2Proof.Machine

/-- A defect entry's fields (Table 4-3). -/
def DefectEntry.key (e : DefectEntry) : Nat := bitsAt e 20 5 * 2 ^ 20 + bitsAt e 0 20
def DefectEntry.first (e : DefectEntry) : Nat := bitsAt e 25 11
def DefectEntry.len (e : DefectEntry) : Nat := bitsAt e 36 8 + 1
def DefectEntry.type (e : DefectEntry) : Nat := bitsAt e 44 2

/-- The position is covered by a TYPE-0 entry. -/
def slipped (ds : List DefectEntry) (p : Nat) : Bool :=
  ds.any fun e => e.type == 0 && decide (e.first ≤ p) && decide (p < e.first + e.len)

/-- The physical index of a logical index: counting from physical position 0 and skipping slips (R97); none beyond the
2,048 positions of a track. -/
def physIndex (ds : List DefectEntry) (logical : Nat) : Option Nat :=
  ((List.range 2048).filter fun p => !slipped ds p)[logical]?

/-- Global head number 6a + h of a descriptor of stream `n` (Table 4-3). -/
def SectorDesc.globalHead (d : SectorDesc) (n : Stream) : Nat := 6 * (actOf n).val + d.head

/-- The line buffer's first 32 bytes as a descriptor (Table 15-6). -/
def lineDesc (v : Vector Word 128) : SectorDesc :=
  v[7] ++ v[6] ++ v[5] ++ v[4] ++ v[3] ++ v[2] ++ v[1] ++ v[0]

/-- A descriptor from its 32 bytes. -/
def descOfBytes (bs : List Byte) : SectorDesc := BitVec.ofNat 256 (ofBytesLE bs)

/-- A command is live: its completion is not yet decided. -/
def Cmd.live (c : Cmd) : Bool := c.result.isNone

/-- One of a command's ranges holds an LBA. -/
def Cmd.touches (c : Cmd) (nsid lba : Nat) : Bool :=
  c.ranges.any fun r => r.nsid == nsid && decide (r.first ≤ lba) && decide (lba < r.first + r.count)

/-- A live reader with a number before `fsn` still needs an LBA (R20). -/
def Mach.readerBefore (m : Mach) (fsn nsid lba : Nat) : Bool :=
  m.cmd.table.any fun c => c.live && c.kind == some .read && fsnBefore c.fsn fsn && c.touches nsid lba

namespace Mach

/-- Update an actuator's write path. -/
def setWpath (m : Mach) (a : Actuator) (f : WritePath → WritePath) : Mach :=
  m.setMedia fun s => { s with wpath := updAt s.wpath a f }

/-- The loaded track is the descriptor's. -/
def onTrack (m : Mach) (n : Stream) (d : SectorDesc) : Bool := m.media.fmt[n].track == some (d.cyl, d.globalHead n)

/-- Once the track is loaded, the descriptor at a ring index has its physical index, or ends DMAP or BADDESC (R96–R98). -/
def place (m : Mach) (n : Stream) (i : FmtItem) : Mach :=
  if i.status.isSome || !m.onTrack n i.desc then m
  else if m.media.fmt[n].overflow then m.endDesc n i.ring 8
  else
    match physIndex m.media.fmt[n].defects i.desc.index with
    | some p =>
      if p < m.media.chan[n].force.spt then
        m.setFmt n fun f => { f with items := f.items.map fun x => if x.ring = i.ring then { x with phys := p } else x }
      else m.endDesc n i.ring 5
    | none => m.endDesc n i.ring 5

/-- The ring index after `r`. -/
def nextRing (m : Mach) (n : Stream) (r : Nat) : Nat := (r + 1) % m.fmtRingSize n

end Mach

/-- A write operation (Table 4-5). -/
def SectorDesc.writes (d : SectorDesc) : Bool := d.op == 1 || d.op == 2

/-- A read operation (Table 4-5). -/
def SectorDesc.reads (d : SectorDesc) : Bool := d.op == 0 || d.op == 3

/-- The descriptor's sector is the next one of the run that ended early: the run goes on from physical index to physical
index on one track. -/
def FmtState.continues (f : FmtState) (i : FmtItem) : Bool :=
  i.desc.writes && f.abandon == some (i.desc.cyl, i.desc.head, i.phys)

/-- A descriptor whose sector is placed goes on with the run that ended early, and then ends ABANDONED as the run's later
sectors do; another descriptor ends that (R103, R104). -/
def Mach.abandonNext (m : Mach) (n : Stream) (ring : Nat) : Mach :=
  match m.media.fmt[n].items.find? (·.ring == ring) with
  | none => m
  | some i =>
    if i.status.isSome || !m.onTrack n i.desc then m
    else if m.media.fmt[n].continues i then
      (m.setFmt n fun f => { f with abandon := some (i.desc.cyl, i.desc.head, i.phys + 1) }).endDesc n ring 9
    else m.setFmt n fun f => { f with abandon := none }

/-- Ibzin reserves the next generation for a kinetic save in KSV_GEN (R85, R319). -/
def Mach.reserveGen (m : Mach) : Mach :=
  (m.set KSV_GENLO_GEN (m.pwr.wgen + 1)).set KSV_GENHI_GEN ((m.pwr.wgen + 1) / 2 ^ 32)

/-- The write generation rises by 1; at a multiple of 2²⁰ it is recorded in flash (R85). While kinetic save is armed the one
reserved for it stays the next. -/
def Mach.raiseGen (m : Mach) : Mach :=
  let g := m.pwr.wgen + 1
  let m := { m with pwr := { m.pwr with wgen := g, wgenFlash := if g % 2 ^ 20 = 0 then g else m.pwr.wgenFlash } }
  m.when (m.is KSV_CTRL_ARM) (·.reserveGen)

/-- A destage pass starts with the first write descriptor that carries the next generation (R85): the model sees Ibzin's passes
in its descriptors only (DESIGN CHOICE, log entry 137). -/
def Mach.passStart (m : Mach) (d : SectorDesc) : Mach :=
  if d.writes ∧ d.wgen.toNat = m.pwr.wgen + 1 then m.raiseGen else m

/-- The datapath takes a descriptor (R90, R96–R98). A descriptor of a foreign zone ends ZONE also where its operation is not
valid; the spec does not order the two checks (DESIGN CHOICE, log entry 136). -/
def Mach.takeDesc (m : Mach) (n : Stream) (d : SectorDesc) : Mach :=
  let f := m.media.fmt[n]
  let item : FmtItem := { ring := f.nextRing, desc := d, phys := d.index, status := none, copy := m.specOf d }
  let next := m.nextRing n f.nextRing
  let m := (m.passStart d).setFmt n fun f => { f with items := f.items ++ [item], nextRing := next, loadWait := none }
  let m := m.when (m.get (FMT_STAT_STATE n.val) == 3) fun m => m.set (FMT_STAT_STATE n.val) 0
  if d.zone ≠ m.media.chan[n].force.zone then m.endDesc n item.ring 4
  else if 3 < d.op then m.endDesc n item.ring 5
  else
    let m := (m.place n item).abandonNext n item.ring
    if f.inRun ∨ m.pwr.runWait.contains n then m else { m with pwr := { m.pwr with runWait := m.pwr.runWait ++ [n] } }

/-- LOADDESC (R90, R96–R98, R106): the formatter hands the descriptor in its line buffer to the datapath. While the other
slot writes it waits, and is taken when that write run ends. -/
def loaddesc (n : Stream) (m : Mach) : Mach :=
  if !m.is (FMT_CTRL_EN n.val) then m
  else
    let d := lineDesc m.eng.seqs[seqFS n].line
    if m.otherWrites n then (m.setFmt n fun f => { f with loadWait := some d }).set (FMT_STAT_STATE n.val) 3
    else m.takeDesc n d

/-- LOADTRK (R96): the defect-map search for the track of the descriptor handed over last starts. -/
def loadtrk (n : Stream) (m : Mach) : Mach :=
  match m.media.fmt[n].items.getLast? with
  | some i =>
    let m := m.setFmt n fun f =>
      { f with searching := some (i.desc.cyl, i.desc.globalHead n), track := none, defects := [], overflow := false }
    (((m.set (FMT_STAT_TRACK_VALID n.val) 0).set (FMT_CUR_CYL n.val) 0).set (FMT_CUR_HEAD n.val) 0).set
      (FMT_CUR_DEFECTS n.val) 0
  | none => m

namespace Mach

/-- Entry `i` of the defect map. -/
def defectEntry (m : Mach) (n : Stream) (i : Nat) : DefectEntry :=
  BitVec.ofNat 64 (ofBytesLE ((List.range 8).map fun j => m.buf.mem.byte (8 * (m.get (FMT_DMAP_BASE_ADDR n.val) + i) + j)))

/-- Entries in the map (FMT_DMAP_COUNT). -/
def defectCount (m : Mach) (n : Stream) : Nat := min 1048576 (m.get (FMT_DMAP_COUNT_COUNT n.val))

/-- Bisection (R96): the first index in `[lo, hi)` whose entry is not below `key`, within `fuel` reads. -/
def bisect (m : Mach) (n : Stream) (key : Nat) : Nat → Nat → Nat → Nat
  | 0, lo, _ => lo
  | fuel + 1, lo, hi =>
    if hi ≤ lo then lo
    else
      let mid := (lo + hi) / 2
      if (m.defectEntry n mid).key < key then m.bisect n key fuel (mid + 1) hi else m.bisect n key fuel lo mid

/-- The entries of a track, at most 65. -/
def trackEntries (m : Mach) (n : Stream) (key : Nat) : List DefectEntry :=
  let lo := m.bisect n key 21 0 (m.defectCount n)
  (((List.range 65).filter fun i => lo + i < m.defectCount n).map fun i => m.defectEntry n (lo + i)).filter fun e =>
    e.key == key

end Mach

/-- TRACK_LOADED (R96–R98): the search ends; the track's entries are loaded, or more than 64 give DMAP. After such a track
TRACK_VALID reads 1 and FMT_CUR names it with 0 entries: the spec does not say what they read then (DESIGN CHOICE, log entry
53). -/
def trackLoaded (n : Stream) (m : Mach) : Mach :=
  match m.media.fmt[n].searching with
  | none => m
  | some (cyl, head) =>
    let es := m.trackEntries n (head * 2 ^ 20 + cyl)
    let full := decide (64 < es.length)
    let m := m.when (!full && es.any fun e => decide (2 ≤ e.type)) fun m =>
      m.flagEvent (FMT_ERR_DMAP_TYPE n.val) (Mach.fmtSource n 5)
    let keep := if full then [] else es.filter fun e => decide (e.type < 2)
    let m := m.setFmt n fun f =>
      { f with searching := none, track := some (cyl, head), defects := keep, overflow := full }
    let m := (((m.set (FMT_STAT_TRACK_VALID n.val) 1).set (FMT_CUR_CYL n.val) cyl).set (FMT_CUR_HEAD n.val) head).set
      (FMT_CUR_DEFECTS n.val) keep.length
    m.media.fmt[n].items.foldl (fun m i => (m.place n i).abandonNext n i.ring) m

namespace Mach

/-- The current sector: the descriptor handed over last, while nothing has ended it. -/
def curItem (m : Mach) (n : Stream) : Option FmtItem :=
  match m.media.fmt[n].items.getLast? with
  | some i => if i.status.isNone && m.onTrack n i.desc then some i else none
  | none => none

/-- A ladder capture is armed on the actuator (R123). -/
def ladderArmed (m : Mach) (a : Actuator) : Bool :=
  match m.media.lad[a].jobs with
  | j :: _ => j.armed
  | [] => false

end Mach

namespace Mach

/-- The offset and heater change that the running ladder job has put on its head are taken back (R124). -/
def restoreHead (m : Mach) (a : Actuator) : Mach :=
  match m.media.lad[a].jobs with
  | [] => m
  | j :: _ =>
    if j.offset = 0 ∧ j.heater = 0 then m
    else
      let m := m.when (j.offset != 0) fun m => m.writeTarget a j.ssel
        (((m.get (SRV_TARGET_TARGET a.val j.ssel.val) : Nat) : Int) - j.offset).toNat
      let m := m.setHsq a fun s => { s with heater := s.heater.set j.ssel 0 }
      m.setMedia fun s => { s with lad := updAt s.lad a fun l => { l with jobs := match l.jobs with
        | j :: js => { j with offset := 0, heater := 0, heaterOk := false } :: js
        | [] => [] } }

/-- Other work begins on a stream's head: a ladder change on it is taken back first, unless its capture is armed, which other
work of the head then waits for (R124). -/
def claimHead (m : Mach) (n : Stream) : Mach :=
  match m.media.lad[actOf n].jobs with
  | j :: _ => if j.ssel = slotOf n ∧ ¬ j.armed ∧ ¬ j.armWait then m.restoreHead (actOf n) else m
  | [] => m

end Mach

/-- CAPTURE (R7, R102, R124, R173, R311): arms the capture of the current sector in a read run. -/
def capture (n : Stream) (m : Mach) : Mach :=
  match m.curItem n with
  | none => m
  | some i =>
    if m.media.fmt[n].inRun && m.headValid n && i.desc.reads && !m.otherWrites n then
      (m.claimHead n).setFmt n fun f => { f with armedCap := some i.ring }
    else m

/-! ### Where a sector lies (R86) -/

namespace Mach

/-- Wedges per revolution, within 320–1,024 (SRV_CFG.NWEDGE). -/
def nWedge (m : Mach) (a : Actuator) : Nat := max 320 (min 1024 (m.get (SRV_CFG_NWEDGE a.val)))

/-- The start wedge of a track. -/
def startWedge (m : Mach) (n : Stream) (cyl head : Nat) : Nat :=
  let f := m.media.chan[n].force
  (cyl * f.cskew + head * f.hskew) % m.nWedge (actOf n)

/-- The data bit position of a physical sector on its track. -/
def sectorStart (m : Mach) (n : Stream) (phys : Nat) : Nat := m.media.chan[n].force.first + sectorLength * phys

/-- The wedge before the data interval in which a sector starts. -/
def sectorWedge (m : Mach) (n : Stream) (d : SectorDesc) (phys : Nat) : Nat :=
  (m.startWedge n d.cyl d.head + m.sectorStart n phys / m.media.chan[n].force.wedgeData) % m.nWedge (actOf n)

/-- The bit period of that data interval at which it starts. -/
def sectorOffset (m : Mach) (n : Stream) (phys : Nat) : Nat :=
  m.sectorStart n phys % m.media.chan[n].force.wedgeData

/-- Bit periods left in the data interval once `sent` bits of a sector have gone. -/
def intervalLeft (m : Mach) (n : Stream) (phys sent : Nat) : Nat :=
  let w := m.media.chan[n].force.wedgeData
  w - (m.sectorStart n phys + sent) % w

/-- HSQ_WGCFG.LEAD, 16 for less (R174). -/
def gateLead (m : Mach) (a : Actuator) : Nat := max 16 (m.get (HSQ_WGCFG_LEAD a.val))

/-- The gate moment of a sector that starts a run (R174): LEAD bit periods before its preamble, or the start of its data
interval where that is later. It lies at least 256 F-PER cycles ahead; how far is a free value. -/
def gateMomentOf (m : Mach) (n : Stream) (i : FmtItem) : GateMoment :=
  { slot := slotOf n, ring := i.ring, wedge := m.sectorWedge n i.desc i.phys
    bit := m.sectorOffset n i.phys - m.gateLead (actOf n), at_ := m.clock + (256 + m.free) * perPeriods }

/-- The formatter gives the head sequencer the gate moment of a sector that starts a run. -/
def giveMoment (m : Mach) (n : Stream) (i : FmtItem) : Mach :=
  let g := m.gateMomentOf n i
  (m.setHsq (actOf n) fun s => { s with due := some g }).nextFree

end Mach

/-- WRITE (R7, R103, R174, R311): arms the write of the current sector in a write run. Where no sector of the run is being
written or waits for its moment, its gate moment is given to the head sequencer. -/
def write (n : Stream) (m : Mach) : Mach :=
  match m.curItem n with
  | none => m
  | some i =>
    let f := m.media.fmt[n]
    if !(f.inRun && i.desc.writes) || m.otherWrites n then m
    else
      let m := m.setFmt n fun f => { f with armedWr := f.armedWr ++ [i.ring] }
      m.when (f.writing.isNone && f.armedWr.isEmpty) fun m => m.giveMoment n i

/-- RESULT, STATUS and OWN = 0 with the handle: word 3 of a completed descriptor (Table 4-5, R99). -/
def word3 (d : SectorDesc) (status result : Nat) : Nat :=
  d.handle + 2 ^ 24 * (if status = 0 ∧ (d.op = 0 ∨ d.op = 3) then result % 16 else 0) + 2 ^ 28 * status

/-- The unit that a written sector destages: same namespace, LBA and buffer. -/
def SectorDesc.destages (d : SectorDesc) (u : DirtyUnit) : Bool :=
  d.op == 1 && u.nsid == tagNsid d.tag && u.lba == tagLba d.tag && u.handle == d.handle

/-- The group of a parity member: its tag holds the LBA of data member 0, or the group number within the save region (R93). -/
def parityGroupOf (save : Bool) (d : SectorDesc) : GroupKey := ⟨save, bitsAt d.tag 61 3, bitsAt d.tag 0 56⟩

/-- A parity member is written: once all four cover every member written so far the group is closed, and a full group's
accumulator is released (R95). -/
def WritePath.coverParity (w : WritePath) (d : SectorDesc) : WritePath :=
  let put (g : GroupAcc) : GroupAcc :=
    if g.key = parityGroupOf false d ∧ g.encoded.getLsbD (d.member - 128) then
      { g with covered := g.covered ||| BitVec.ofNat 4 (2 ^ (d.member - 128)) }
    else g
  { w with groups := (w.groups.map put).filter fun g => !(g.covered == 15 && decide (128 ≤ g.members.length)) }

/-! ### Reallocation (R97, R105, R134) -/

/-- The TYPE-1 entry of a position (Table 4-3). -/
def reallocEntry (head cyl phys : Nat) : DefectEntry := BitVec.ofNat 64 (cyl + head * 2 ^ 20 + phys * 2 ^ 25 + 2 ^ 44)

namespace Mach

/-- Insert an entry into the defect map before the first entry that is above it, for every formatter that uses the map. -/
def insertDefect (m : Mach) (n : Stream) (e : DefectEntry) : Mach :=
  let base := m.get (FMT_DMAP_BASE_ADDR n.val)
  let c := m.defectCount n
  let es := (List.range c).map (m.defectEntry n)
  let below (x : DefectEntry) : Bool :=
    decide (x.key < e.key) || (x.key == e.key && decide (x.first ≤ e.first))
  let p := (es.takeWhile below).length
  let m := m.writeBytes (8 * (base + p)) (toBytesLE 8 e.toNat ++ (es.drop p).flatMap fun x => toBytesLE 8 x.toNat)
  (allFin 8).foldl (fun (m : Mach) k =>
    if m.get (FMT_DMAP_BASE_ADDR k.val) = base then m.set (FMT_DMAP_COUNT_COUNT k.val) (c + 1) else m) m

/-- An LBA is reallocated (R97, R105, R134): its position gets a TYPE-1 entry, and the LBA lives at a spare position. Where
that is, the configuration image says. The loaded list of the track follows, and Ibzin reports it (Table 18-1). -/
def reallocate (m : Mach) (n : Stream) (d : SectorDesc) (phys : Nat) : Mach :=
  let e := reallocEntry (d.globalHead n) d.cyl phys
  let m := (m.insertDefect n e).report (32 * 35 + 22)
  m.setMedia fun s =>
    { s with
      moved := if s.moved.contains d.tag then s.moved else s.moved ++ [d.tag]
      fmt := s.fmt.map fun f =>
        if f.track = some (d.cyl, d.globalHead n) ∧ ¬ f.overflow then { f with defects := f.defects ++ [e] } else f }

/-- The position of a descriptor, by global head, cylinder and physical index. -/
def positionOf (n : Stream) (i : FmtItem) : Nat × Nat × Nat := (i.desc.globalHead n, i.desc.cyl, i.phys)

/-- A write's result at its position (R105): the eighth TORN in a row reallocates the LBA; any other result ends the count. -/
def countTorn (m : Mach) (n : Stream) (i : FmtItem) (status : Nat) : Mach :=
  let p := positionOf n i
  let mine (x : Nat × Nat × Nat × Nat) : Bool := x.1 == p.1 && x.2.1 == p.2.1 && x.2.2.1 == p.2.2
  let had := match m.media.torn.find? mine with
    | some x => x.2.2.2
    | none => 0
  let drop (m : Mach) : Mach := m.setMedia fun s => { s with torn := s.torn.filter (!mine ·) }
  if status = 2 then
    if 8 ≤ had + 1 then (drop m).reallocate n i.desc i.phys
    else (drop m).setMedia fun s => { s with torn := s.torn ++ [(p.1, p.2.1, p.2.2, had + 1)] }
  else drop m

end Mach

/-- The candidate of a tag's LBA. -/
def Mach.candidateOf (m : Mach) (tag : BitVec 64) : Option Candidate :=
  m.cmd.cands.find? fun c => c.nsid == tagNsid tag && c.lba == tagLba tag

/-- Update or drop the candidate of a tag's LBA. -/
def Mach.setCandidate (m : Mach) (tag : BitVec 64) (f : Candidate → Option Candidate) : Mach :=
  let upd (x : Candidate) : Option Candidate :=
    if x.nsid = tagNsid tag ∧ x.lba = tagLba tag then f x else some x
  m.setCmd fun c => { c with cands := c.cands.filterMap upd }

/-- A submission entry's field: bits `lo + w − 1` to `lo` of double word `d`. -/
def Cmd.dw (c : Cmd) (d lo w : Nat) : Nat := bitsAt c.sqe (32 * d + lo) w

/-- The opcode of a command. -/
def Cmd.opcode (c : Cmd) : Nat := c.dw 0 0 8

/-- The command reads the LBA of a tag and has not ended (R128). -/
def Cmd.waitsFor (c : Cmd) (tag : BitVec 64) : Bool :=
  c.stage == .dispatched && c.result.isNone && c.kind == some .read && c.sqid != 0 &&
    c.ranges.any fun r => r.nsid == tagNsid tag && decide (r.first ≤ tagLba tag) && decide (tagLba tag < r.first + r.count)

/-- A write has passed the overlap checker and not ended, or data waits for its destage, at an LBA. -/
def Mach.hostWrites (m : Mach) (nsid lba : Nat) : Bool :=
  m.cmd.table.any (fun c => c.result.isNone && c.kind == some .write &&
    c.ranges.any fun r => r.nsid == nsid && decide (r.first ≤ lba) && decide (lba < r.first + r.count)) ||
    m.pwr.dirty.any fun u => !u.isMeta && u.nsid == nsid && u.lba == lba

/-- A candidate pass's read of a sector, one that no command waits for, has ended (R302): the pass rewrites the sector if it
was recovered and no write to it has passed the overlap checker meanwhile. The rewrite is a unit of the dirty list that does
not count against L (DESIGN CHOICE, log entry 142). -/
def Mach.passRead (m : Mach) (d : SectorDesc) (good : Bool) : Mach :=
  let k := (tagNsid d.tag, tagLba d.tag)
  match m.cmd.candPass with
  | none => m
  | some p =>
    if d.op ≠ 0 ∨ ¬ p.todo.contains k ∨ m.cmd.table.any (·.waitsFor d.tag) then m
    else
      let writes := good && !p.abort && !m.hostWrites k.1 k.2 && (m.candidateOf d.tag).any (!·.written)
      let p := { p with todo := p.todo.filter (· != k), rewrites := if writes then p.rewrites ++ [k] else p.rewrites }
      let m := m.setCmd fun c => { c with candPass := some p }
      if writes then { m with pwr := { m.pwr with dirty := ⟨k.1, k.2, none, d.handle, d.key, false, false⟩ :: m.pwr.dirty } }
      else m

/-- A candidate pass's rewrite of an LBA is on the medium, or discarded. -/
def Pass.settle (p : Pass) (nsid lba : Nat) : Pass := { p with rewrites := p.rewrites.filter (· != (nsid, lba)) }

/-- A candidate's sector has been written, and waits for its verify; or its verify, or its read by a candidate pass, has ended
well in its first decode (R134, R302). -/
def Mach.candidateSeen (m : Mach) (d : SectorDesc) (status result : Nat) : Mach :=
  if status ≠ 0 then m
  else if d.op = 1 then
    (m.setCandidate d.tag fun c => some { c with written := true }).setCmd fun c =>
      { c with candPass := c.candPass.map (·.settle (tagNsid d.tag) (tagLba d.tag)) }
  else if d.op = 3 ∧ result ≤ 1 then m.setCandidate d.tag fun c => if c.written then none else some c
  else if result ≤ 1 then m.passRead d true
  else m

/-- COMPLETE (R99, R105, R134): writes word 3 of the oldest descriptor with the datapath's status in one 64-bit write, and
advances HEAD. -/
def complete (n : Stream) (m : Mach) : Mach :=
  match m.media.fmt[n].items with
  | [] => m
  | i :: rest =>
    match i.status with
    | none => m
    | some (status, result) =>
      let m := m.setFmt n fun f => { f with items := rest }
      let m := m.writeBytes (32 * (m.get (FMT_RING_BASE_ADDR n.val) + i.ring) + 24) (toBytesLE 8 (word3 i.desc status result))
      let m := m.set (FMT_RING_HEAD_HEAD n.val) (m.nextRing n i.ring)
      let m := (m.when i.desc.writes fun m => m.countTorn n i status).candidateSeen i.desc status result
      let m := m.when (i.desc.spec && status != 0 && m.specDead i.copy i.desc.tag) fun m =>
        poolFree (BitVec.ofNat 24 i.desc.handle) m
      if status = 0 ∧ i.desc.writes then
        let m := m.incSat (FMT_CNT_WR_COUNT n.val) 1
        let m := m.when (i.desc.op == 2) fun m => m.setWpath (actOf n) fun w => w.coverParity i.desc
        { m with pwr := { m.pwr with dirty := m.pwr.dirty.filter fun u => !i.desc.destages u } }
      else m

/-! ### Track parity (R92–R94) -/

/-- The covered columns of a media form (R92). -/
def coveredOf (info : List Byte) : List Byte := info.take 4116 ++ (info.drop 4124).take 8

/-- Add `a · v` to a vector of columns. -/
def addScaled (s : List Byte) (a : Byte) (v : List Byte) : List Byte :=
  List.zipWith (fun x y => x ^^^ gfMul a y) s v

/-- A vector of zero columns. -/
def zeroColumns : List Byte := List.replicate 4124 0

/-- Sⱼ = Σ cᵢ · α^(i·j) over the listed members (R94). -/
def paritySum (members : List (Nat × List Byte)) (j : Nat) : List Byte :=
  members.foldl (fun s c => addScaled s (gfAlpha (c.1 * j)) c.2) zeroColumns

/-- Solve Σ cₖ · xₖʲ = Sⱼ (j = 0, 1, …) for distinct xₖ: eliminating the first point leaves the same form for the
others. -/
def solveColumns : List Byte → List (List Byte) → List (List Byte)
  | [], _ => []
  | x :: xs, ss =>
    let lower := List.zipWith (fun s t => addScaled t x s) ss (ss.drop 1)
    let rest := List.zipWith (fun y v => v.map (gfMul (gfInv (y ^^^ x)))) xs (solveColumns xs lower)
    (rest.foldl xorBytes (ss.headD zeroColumns)) :: rest

/-- The vectors of the erased members from the known ones (R92). -/
def rebuildMembers (known : List (Nat × List Byte)) (erased : List Nat) : List (List Byte) :=
  solveColumns (erased.map gfAlpha) ((List.range erased.length).map (paritySum known))

/-- The group of a data member of a zoned band, named by the LBA of its member 0 (R93). -/
def groupOf (d : SectorDesc) : GroupKey := ⟨false, bitsAt d.tag 61 3, bitsAt d.tag 0 56 - d.member⟩

/-- The parity vectors that an accumulator holds. -/
def WritePath.members (w : WritePath) (k : GroupKey) : List (Nat × List Byte) :=
  match w.groups.find? (·.key == k) with
  | some g => g.members
  | none => []

/-- Put a member's vector, or take it out. -/
def WritePath.putMember (w : WritePath) (k : GroupKey) (i : Nat) (v : Option (List Byte)) : WritePath :=
  let others := (w.members k).filter (·.1 != i)
  let ms := match v with
    | some v => others ++ [(i, v)]
    | none => others
  { w with groups := w.groups.filter (·.key != k) ++ [GroupAcc.mk k ms 0 0] }

/-- Parity member `i` of a group is encoded. -/
def WritePath.encodeParity (w : WritePath) (k : GroupKey) (i : Nat) : WritePath :=
  { w with groups := w.groups.map fun g => if g.key = k then { g with encoded := g.encoded ||| BitVec.ofNat 4 (2 ^ i) } else g }

/-- Data members that a group's parity covers (R93). -/
def memberCount (ms : List (Nat × List Byte)) : Nat := ms.foldl (fun n c => max n (c.1 + 1)) 0

/-- The plaintext information block of a parity member from its columns (R93). -/
def parityBlock (columns : List Byte) (count : Nat) (tag wgen : BitVec 64) : List Byte :=
  columns.take 4112 ++ [0, 0, 0, 0] ++ toBytesLE 8 tag.toNat ++ toBytesLE 8 wgen.toNat ++
    ((columns.drop 4112).take 4 ++ (columns.drop 4116).take 8 ++ toBytesLE 2 count ++ List.replicate 14 0)

/-- The plaintext information block of a data sector (R84). -/
def dataBlock (buffer : List Byte) (tag wgen : BitVec 64) : List Byte :=
  buffer.take 4112 ++ [0, 0, 0, 0] ++ toBytesLE 8 tag.toNat ++ toBytesLE 8 wgen.toNat ++ List.replicate 28 0

/-- Insert the CRC over the plaintext, then encrypt DATA and PI (R68, R84, R100). -/
def sealBlock (key : BitVec 512) (tag : BitVec 64) (plain : List Byte) : List Byte :=
  encryptBlock key tag (plain.take 4112 ++ toBytesLE 4 (sectorCrc tag.toNat plain) ++ plain.drop 4116)

namespace Mach

/-- The information block in the buffer and tail line of a handle (R221): bytes and whether a line failed its check. -/
def loadBlock (m : Mach) (handle : Nat) : (List Byte × Bool) × Mach :=
  let ((d, f), m) := m.readBytes (m.pageAddr (handlePool handle) (handleIndex handle)) 4096
  let ((t, g), m) := m.readBytes (m.tailAddr (handlePool handle) (handleIndex handle)) 64
  ((d ++ t, f || g), m)

/-- The destage of a unit waits: a read that came before the unit's write is not resolved (R20, R131). -/
def destageHeld (m : Mach) (d : SectorDesc) : Bool :=
  m.pwr.dirty.any fun u => d.destages u && (match u.fsn with
    | some f => m.readerBefore f u.nsid u.lba
    | none => false)

/-- The write descriptor of stream `n` that the write path works on next, unless its destage waits. -/
def nextFetch (m : Mach) (n : Stream) : Option FmtItem :=
  let w := m.media.wpath[actOf n]
  let writing (i : FmtItem) : Bool := match m.media.fmt[n].writing with
    | some x => x.ring == i.ring
    | none => false
  (m.media.fmt[n].items.find? fun i =>
    i.status.isNone && i.desc.writes && m.onTrack n i.desc && !writing i &&
    !(w.fifo.any fun c => c.stream == n && c.ring == i.ring)).filter fun i => !m.destageHeld i.desc

/-- The descriptors of a write run from one on: those that follow it in the ring and lie physically next to each other on its
track. -/
def runFrom : FmtItem → List FmtItem → List FmtItem
  | i, j :: rest =>
    if j.status.isNone ∧ j.desc.writes ∧ j.desc.cyl = i.desc.cyl ∧ j.desc.head = i.desc.head ∧ j.phys = i.phys + 1 then
      i :: runFrom j rest
    else [i]
  | i, [] => [i]

/-- The write path lets go of codewords whose descriptor has ended. -/
def dropCodewords (m : Mach) (n : Stream) : Mach :=
  let ended (c : Codeword) : Bool := c.stream == n &&
    (m.media.fmt[n].items.all fun i => i.ring != c.ring || i.status.isSome)
  m.setWpath (actOf n) fun w => { w with fifo := w.fifo.filter (!ended ·), encoding := w.encoding.filter (!ended ·.word) }

/-- A stream's write run is over (R106): a descriptor that waits at the other slot's formatter is taken. -/
def runOver (m : Mach) (n : Stream) : Mach :=
  let a := actOf n
  let m := m.setFmt n fun f => { f with writing := none, armedWr := [], inRun := false }
  let m := m.setWpath a fun w =>
    { w with
      writer := if w.writer == some (slotOf n) then none else w.writer
      split := w.split && w.writer != some (slotOf n) }
  let m := m.setHsq a fun s =>
    { s with moments := s.moments.filter (·.slot != slotOf n), due := s.due.filter (·.slot != slotOf n) }
  let m := m.set (FMT_STAT_STATE n.val) 0
  let m := m.setMedia fun s => { s with lad := updAt s.lad a fun l => { l with jobs := match l.jobs with
    | j :: js => (if j.armWait && j.heaterOk then { j with armed := true, armWait := false } else j) :: js
    | [] => [] } }
  let o := streamOf a (otherSlot (slotOf n))
  match m.media.fmt[o].loadWait with
  | some d => if m.is (FMT_CTRL_EN o.val) then m.takeDesc o d else m
  | none => m

/-- A stream's write run is over, and its further armed sectors wait to begin a run of their own (R311). -/
def nextRun (m : Mach) (n : Stream) : Mach :=
  let armed := m.media.fmt[n].armedWr
  let m := (m.runOver n).setFmt n fun f => { f with armedWr := armed }
  if armed.isEmpty ∨ m.pwr.runWait.contains n then m else { m with pwr := { m.pwr with runWait := m.pwr.runWait ++ [n] } }

/-- A gate moment of the stream waits. -/
def momentWaits (m : Mach) (n : Stream) : Bool :=
  let s := m.motion.hsq[actOf n]
  s.moments.any (·.slot == slotOf n) || s.due.any (·.slot == slotOf n)

/-- Sectors of the run that have not ended: being written, armed, or taken. -/
def runLeft (m : Mach) (n : Stream) : Bool :=
  m.media.fmt[n].writing.isSome || m.media.fmt[n].items.any fun i => i.status.isNone && i.desc.writes

/-- The sector at a ring index ends with `status` and the later sectors of its run end ABANDONED; earlier ones go on
(R101, R103, R104, Table 4-4). -/
def failFrom (m : Mach) (n : Stream) (ring status : Nat) : Mach :=
  match m.media.fmt[n].items.dropWhile (·.ring != ring) with
  | [] => m
  | i :: rest =>
    let run := runFrom i rest
    let last := run.getLastD i
    let m := m.endDesc n ring status
    let m := (run.drop 1).foldl (fun m j => m.endDesc n j.ring 9) m
    let m := m.setFmt n fun f =>
      { f with
        writing := f.writing.filter (·.ring != ring)
        armedWr := f.armedWr.filter fun r => !run.any (·.ring == r)
        abandon := some (last.desc.cyl, last.desc.head, last.phys + 1) }
    let m := m.dropCodewords n
    let m := m.setHsq (actOf n) fun s =>
      let gone (g : GateMoment) : Bool := g.slot == slotOf n && run.any (·.ring == g.ring)
      { s with moments := s.moments.filter (!gone ·), due := s.due.filter (!gone ·) }
    if m.media.fmt[n].writing.isSome ∨ m.momentWaits n then m
    else if m.media.fmt[n].armedWr.isEmpty ∧ m.runLeft n then m
    else m.nextRun n

end Mach

/-- The read port of an actuator's write path, and the class that Table 2-2 gives it. -/
def writePathPort (a : Actuator) : Port := ⟨17 + a.val, by omega⟩

/-- The class of an actuator's writes (Table 2-2). -/
def medwrClass (a : Actuator) : FabClass := Fin.ofNat 16 (6 + a.val)

/-- The write path asks its port for the 65 tokens of a handle's block (R100). -/
def Mach.demandBlock (m : Mach) (a : Actuator) (handle : Nat) : Mach :=
  let p := handlePool handle
  let i := handleIndex handle
  (m.demand (writePathPort a) (medwrClass a) (m.pageAddr p i) 4096).demand (writePathPort a) (medwrClass a) (m.tailAddr p i) 64

/-- WRITE_PATH_FETCH (R68, R84, R92–R94, R100): the write path of the stream's actuator fetches, checks, encrypts and
encodes the block of the stream's next write descriptor. `grouped`: the band has track parity. -/
def writePathFetch (n : Stream) (grouped : Bool) (m : Mach) : Mach :=
  let a := actOf n
  let w := m.media.wpath[a]
  if w.encoding.isSome ∨ 4 ≤ w.fifo.length then m else
  match m.nextFetch n with
  | none => m
  | some i =>
    let d := i.desc
    let ((buffer, fail), m) := (m.demandBlock a d.handle).loadBlock d.handle
    if fail then m.failFrom n i.ring 7
    else
      let wgen : BitVec 64 := d.wgen
      let key := m.sec.slots[(Fin.ofNat 32 d.key)]
      let plain :=
        if d.op = 2 then
          let ms := w.members (parityGroupOf false d)
          parityBlock ((rebuildMembers ms [128, 129, 130, 131]).getD (d.member - 128) zeroColumns) (memberCount ms) d.tag wgen
        else dataBlock buffer d.tag wgen
      let block := sealBlock key d.tag plain
      let k : Option GroupKey := if grouped && d.op == 1 then some (groupOf d) else none
      let before := match k with
        | some k => ((w.members k).find? (·.1 == d.member)).map (·.2)
        | none => none
      m.setWpath a fun w =>
        let w := match k with
          | some k => w.putMember k d.member (some (coveredOf block))
          | none => if d.op = 2 then w.encodeParity (parityGroupOf false d) (d.member - 128) else w
        { w with encoding := some ⟨⟨n, i.ring, block⟩, k, d.member, before⟩ }

/-- CODEWORD_READY (R101): encoding ends, once the block's bursts have moved. `bad`: the self-check found a non-zero
syndrome. -/
def codewordReady (a : Actuator) (bad : Bool) (m : Mach) : Mach :=
  match m.media.wpath[a].encoding with
  | none => m
  | some e =>
    if !m.portQuiet (writePathPort a) then m else
    let m := m.setWpath a fun w => { w with encoding := none }
    if bad then
      let m := m.setWpath a fun w => match e.key with
        | some k => w.putMember k e.member e.before
        | none => w
      m.failFrom e.word.stream e.word.ring 6
    else m.setWpath a fun w => { w with fifo := w.fifo ++ [e.word] }

/-! ### The medium side (R82, R83, R107) -/

/-- The bits of a number, the most significant first. -/
def bitsMsb (w x : Nat) : List Bool := (List.range w).map fun i => x.testBit (w - 1 - i)

/-- The channel bits of a sector (Table 4-1). -/
def sectorBits (block : List Byte) : List Bool :=
  bitsMsb 64 0xCCCCCCCCCCCCCCCC ++ bitsMsb 48 0xB8E533A94F0D ++
    ((ldpcEncode (infoBlocks block)).flatMap fun b => (List.range 512).map fun i => b.getLsbD i) ++ bitsMsb 16 0xCCCC

/-- Where each bit is a transition (R83); the first follows a 0. -/
def transitions : Bool → List Bool → List Bool
  | _, [] => []
  | p, b :: bs => (p != b) :: transitions b bs

/-- The delay of each bit's transition in 1/64 of a bit period (R107); none where the bit has no transition. `one`, `two`
tell of the bit periods before. -/
def precompDelays (pre1 pre2 : Nat) : Bool → Bool → List Bool → List (Option Nat)
  | _, _, [] => []
  | one, two, t :: ts =>
    (if t then some ((if one then pre1 else 0) + (if one && two then pre2 else 0)) else none) ::
      precompDelays pre1 pre2 t one ts

namespace Mach

/-- The serialiser has driven `k` bits of the current segment of the sector being written. -/
def driven (m : Mach) (n : Stream) (w : Writing) (k : Nat) : Mach :=
  let f := m.media.chan[n].force
  let bits := sectorBits w.block
  let delays := precompDelays f.pre1 f.pre2 false false (transitions false bits)
  if k = 0 then m
  else m.emit (.written n ((bits.drop w.sent).take k) (((delays.drop w.sent).take k).filterMap id))

/-- Bits of the current segment: up to the end of its data interval, or of the sector (R86). -/
def segment (w : Writing) : Nat := min w.left (sectorLength - w.sent)

/-- The serialiser starts the sector whose codeword is in the FIFO. -/
def startSector (m : Mach) (n : Stream) (i : FmtItem) (c : Codeword) : Mach :=
  let m := m.setFmt n fun f =>
    { f with writing := some ⟨c.ring, c.block, 0, m.intervalLeft n i.phys 0⟩, armedWr := f.armedWr.filter (· != c.ring) }
  m.setWpath (actOf n) fun w =>
    { w with writer := some (slotOf n), fifo := w.fifo.filter fun x => !(x.stream == n && x.ring == c.ring) }

/-- The codeword of a sector is in the FIFO (R103). -/
def codewordOf (m : Mach) (n : Stream) (ring : Nat) : Option Codeword :=
  m.media.wpath[actOf n].fifo.find? fun c => c.stream == n && c.ring == ring

/-- The descriptor at a ring index that has not ended. -/
def itemAt (m : Mach) (n : Stream) (ring : Nat) : Option FmtItem :=
  m.media.fmt[n].items.find? fun i => i.ring == ring && i.status.isNone

/-- R175: the head sequencer withholds the raise of a sector; one that has halted sends no raise (R361). -/
def raiseWithheld (m : Mach) (n : Stream) (d : SectorDesc) : Bool :=
  let a := (actOf n).val
  !m.headValid n || m.get (HSQ_SEL_HEAD a (slotOf n).val) != d.head || m.bitAt (QDR_ACT_HEAD_DEPOP a) d.head ||
    decide (2 ≤ m.get (QDR_ACT_STATE a)) || m.get (SEQ_STAT_STATE (16 + a)) == 3

/-- A raise is withheld: GATE_REFUSED and its event (R175). -/
def refuseGate (m : Mach) (a : Actuator) : Mach := m.flagEvent (HSQ_ERR_GATE_REFUSED a.val) (32 * (26 + a.val) + 11)

/-- The other slot of the actuator is idle: its formatter is in no run and no capture is armed (R7). -/
def otherIdle (m : Mach) (n : Stream) : Bool :=
  let o := streamOf (actOf n) (otherSlot (slotOf n))
  !m.media.fmt[o].inRun && m.media.fmt[o].armedCap.isNone && m.media.wpath[actOf n].writer != some (otherSlot (slotOf n)) &&
    !m.ladderArmed (actOf n)

end Mach

/-- GATE_MOMENT (R7, R103, R104, R123, R174, R175): the check instant of the actuator's next gate moment; a register frame on
the link ends first (R172). -/
def gateMoment (a : Actuator) (m : Mach) : Mach :=
  match m.motion.hsq[a].moments with
  | [] => m
  | g :: rest =>
    if m.motion.hsq[a].frame.isSome then m else
    let n := streamOf a g.slot
    let m := m.setHsq a fun s => { s with moments := rest }
    match m.itemAt n g.ring with
    | none => m.pumpLink a
    | some i =>
      let safe := m.slotSafe a g.slot
      let m := m.set (FMT_STAT_WSAFE n.val) safe
      if m.raiseWithheld n i.desc then ((m.refuseGate a).failFrom n g.ring 3).pumpLink a
      else
        match m.codewordOf n g.ring with
        | some c =>
          if safe = 1 ∧ m.is (HSQ_CTRL_EN a.val) ∧ m.otherIdle n then
            ((m.raiseGate a g.slot).startSector n i c).set (FMT_STAT_STATE n.val) 2
          else (m.failFrom n g.ring 3).pumpLink a
        | none => (m.failFrom n g.ring 3).pumpLink a

namespace Mach

/-- The end of the data interval inside the sector being written: its gate closes until the servo field has passed (R86, R88,
R176). -/
def splitGate (m : Mach) (n : Stream) : Mach :=
  match m.media.fmt[n].writing with
  | none => m
  | some w =>
    let k := segment w
    if m.is (FMT_STAT_GATE n.val) && decide (w.sent + k < sectorLength) then
      let m := (m.driven n w k).setFmt n fun f => { f with writing := some { w with sent := w.sent + k, left := 0 } }
      (m.lowerGate (actOf n) (slotOf n)).setWpath (actOf n) fun w => { w with split := true }
    else m

/-- A sector that is partly on the medium is torn: the serialiser stops after `bits` bits of the current segment, and an open
gate is lowered (R104, R176). -/
def tear (m : Mach) (n : Stream) (bits : Nat) : Mach :=
  match m.media.fmt[n].writing with
  | none => m
  | some w =>
    let up := m.is (FMT_STAT_GATE n.val)
    let m := m.when up fun m => m.driven n w (min bits (segment w))
    (m.when up fun m => m.lowerGate (actOf n) (slotOf n)).failFrom n w.ring 2

end Mach

/-- GATE_REOPEN (R7, R88, R104, R123, R175, R176): after the servo field of a split sector the gate reopens, or the sector is
torn. -/
def gateReopen (n : Stream) (m : Mach) : Mach :=
  let a := actOf n
  match m.media.fmt[n].writing with
  | none => m
  | some w =>
    if !(m.media.wpath[a].split && m.media.wpath[a].writer == some (slotOf n)) then m else
    let safe := m.slotSafe a (slotOf n)
    let m := m.set (FMT_STAT_WSAFE n.val) safe
    match m.itemAt n w.ring with
    | none => m
    | some i =>
      if safe = 0 ∨ ¬ m.otherIdle n then m.tear n 0
      else if m.raiseWithheld n i.desc then (m.refuseGate a).tear n 0
      else
        let m := m.setFmt n fun f => { f with writing := some { w with left := m.intervalLeft n i.phys w.sent } }
        (m.raiseGate a (slotOf n)).setWpath a fun w => { w with split := false }

/-- WSAFE_FALL (R104, R176): the flag is 0 while a gate of the actuator is open: the serialiser stops in the next bit period,
`bits` bits into its segment, a lower frame is sent, and the sector is torn. -/
def wsafeFall (a : Actuator) (bits : Nat) (m : Mach) : Mach :=
  if m.is (SRV_STAT_WSAFE a.val) then m else
  match m.media.wpath[a].writer with
  | none => m
  | some k =>
    let n := streamOf a k
    if m.is (FMT_STAT_GATE n.val) then (m.set (FMT_STAT_WSAFE n.val) 0).tear n bits else m

/-- The sector being written ends: its last bits are driven, and it is DONE. -/
def Mach.sectorDone (m : Mach) (n : Stream) (w : Writing) : Mach :=
  ((m.driven n w (segment w)).itemStatus n w.ring 0 0).setFmt n fun f => { f with writing := none }

/-- A further sector of the run is armed: it lies next to `i` on the track. -/
def Mach.runNext (m : Mach) (n : Stream) (i : FmtItem) : Option FmtItem :=
  match m.media.fmt[n].armedWr with
  | r :: _ => (m.itemAt n r).filter fun j => j.desc.cyl == i.desc.cyl && j.desc.head == i.desc.head && j.phys == i.phys + 1
  | [] => none

/-- The sector being written ends at its sector boundary: DONE; the next sector of the run starts where it is armed, lies next
to it and its codeword is in the FIFO, and otherwise the run ends UNDERRUN (R103, Table 4-6). -/
def Mach.writeBoundary (m : Mach) (n : Stream) : Mach :=
  match m.media.fmt[n].writing with
  | none => m
  | some w =>
    match m.itemAt n w.ring with
    | none => m
    | some i =>
      if !m.is (FMT_STAT_GATE n.val) then m else
      match m.runNext n i with
      | none => m
      | some j =>
        let m := m.sectorDone n w
        match m.codewordOf n j.ring with
        | some c => m.startSector n j c
        | none => ((m.lowerGate (actOf n) (slotOf n)).failFrom n j.ring 3)

/-- RUN_END (R106, R176, R311): the last postamble of the stream's write run passes: the sector is DONE, a lower frame is
sent, and the run is over. An armed sector that does not lie next to it starts a run of its own later. -/
def runEnd (n : Stream) (m : Mach) : Mach :=
  match m.media.fmt[n].writing with
  | none => m
  | some w =>
    match m.itemAt n w.ring with
    | none => m
    | some i =>
      if !m.is (FMT_STAT_GATE n.val) || (m.runNext n i).isSome then m else
      ((m.sectorDone n w).lowerGate (actOf n) (slotOf n)).nextRun n


/-- FMT_EN_WRITE (R428): EN = 1 starts the formatter; EN = 0 stops it after the descriptor in progress. -/
def fmtEnWrite (n : Stream) (en : Bool) (m : Mach) : Mach := m.setFlag (FMT_CTRL_EN n.val) en

/-- FMT_CNTCLR. -/
def fmtCntclr (n : Stream) (m : Mach) : Mach :=
  ((((m.set (FMT_CNT_WR_COUNT n.val) 0).set (FMT_CNT_ABORT_TORN n.val) 0).set (FMT_CNT_ABORT_UNDERRUN n.val) 0).set
    (FMT_CNT_MISS_MISSED n.val) 0).set (FMT_CNT_MISS_ENCERR n.val) 0

/-- Formatters in runs (R311). -/
def Mach.streamsInRuns (m : Mach) : Nat := (allFin 8).countP fun n => m.media.fmt[n].inRun

/-- PWR_CAP.STREAMS within 1–8. -/
def Mach.streamCap (m : Mach) : Nat := max 1 (min 8 (m.get PWR_CAP_STREAMS))

/-- The first sector of the run that a formatter waits to begin: armed already, or the current one. -/
def Mach.runItem (m : Mach) (n : Stream) : Option FmtItem :=
  match m.media.fmt[n].armedWr with
  | r :: _ => m.itemAt n r
  | [] => m.curItem n

/-- A waiting formatter may begin the run of its current sector: a write while the other slot is idle, a read while it does
not write (R7). -/
def Mach.runMayBegin (m : Mach) (n : Stream) : Bool :=
  match m.runItem n with
  | some i => if i.desc.writes then m.otherIdle n else !m.otherWrites n
  | none => false

/-- The first sector of a write run that was armed before the run began gets its gate moment now. -/
def Mach.momentOf (m : Mach) (n : Stream) : Mach :=
  match m.media.fmt[n].armedWr with
  | r :: _ => match m.itemAt n r with
    | some i => m.giveMoment n i
    | none => m
  | [] => m

/-- RUN_BEGIN (R7, R311): the earliest waiting formatter whose run may begin starts it, while fewer than STREAMS are in
runs. -/
def runBegin (m : Mach) : Mach :=
  if m.streamsInRuns < m.streamCap ∨ m.get PWR_MODE_MODE = 9 then
    match m.pwr.runWait.find? m.runMayBegin with
    | none => m
    | some n =>
      let m := { m with pwr := { m.pwr with runWait := m.pwr.runWait.filter (· != n) } }
      match m.runItem n with
      | some i =>
        let m := (m.setFmt n fun f => { f with inRun := true }).set (FMT_STAT_STATE n.val) (if i.desc.writes then 2 else 1)
        m.when i.desc.writes fun m => m.momentOf n
      | none => m
  else m

/-! ### Geometry in force (R89, R90) -/

namespace Mach

/-- A sector of the stream is in progress: it is being written, or its capture is armed. -/
def inSector (m : Mach) (n : Stream) : Bool :=
  m.media.fmt[n].writing.isSome || m.media.fmt[n].armedCap.isSome ||
    (match m.media.lad[actOf n].jobs with
     | j :: _ => j.armed && j.ssel == slotOf n
     | [] => false)

/-- Descriptors taken for another zone than the one in force end ZONE, and are disarmed (R90). -/
def dropForeign (m : Mach) (n : Stream) : Mach :=
  let zone := m.media.chan[n].force.zone
  let foreign := m.media.fmt[n].items.filter fun i => i.status.isNone && i.desc.zone != zone &&
    (match m.media.fmt[n].writing with
     | some w => w.ring != i.ring
     | none => true)
  let isForeign (r : Nat) : Bool := foreign.any (·.ring == r)
  if foreign.isEmpty then m
  else
    let m := foreign.foldl (fun m i => m.endDesc n i.ring 4) m
    let m := m.setFmt n fun f =>
      { f with armedCap := f.armedCap.filter (!isForeign ·), armedWr := f.armedWr.filter (!isForeign ·) }
    let m := m.dropCodewords n
    let m := m.setHsq (actOf n) fun s =>
      let gone (g : GateMoment) : Bool := g.slot == slotOf n && isForeign g.ring
      { s with moments := s.moments.filter (!gone ·), due := s.due.filter (!gone ·) }
    if m.get (FMT_STAT_STATE n.val) = 2 ∧ ¬ m.runLeft n then m.nextRun n else m.endReadRun n

/-- The written rate and geometry take effect (R89). -/
def takeGeometry (m : Mach) (n : Stream) : Mach :=
  let m' := m.setChan n fun s => { s with force := { s.force with
    rateM := rateOf (m.get (CHN_RATE_M n.val))
    wedgeData := m.get (FMT_GEOM_WEDGE_DATA n.val)
    spt := m.get (FMT_GEOM_SPT n.val)
    first := m.get (FMT_SKEW_FIRST n.val)
    cskew := m.get (FMT_SKEW_CSKEW n.val)
    hskew := m.get (FMT_SKEW_HSKEW n.val)
    pre1 := m.get (FMT_PRECOMP_PRE1 n.val)
    pre2 := m.get (FMT_PRECOMP_PRE2 n.val)
    zone := m.get (FMT_PRECOMP_ZONE n.val) } }
  m'.dropForeign n

/-- A register of the rate or the geometry has been written: it takes effect at once while no sector is in progress (R89). -/
def geometryWritten (m : Mach) (n : Stream) : Mach := if m.inSector n then m else m.takeGeometry n

end Mach

/-- SECTOR_BOUNDARY (R53–R56, R60, R81, R89): pending values of stream `n` take effect. -/
def sectorBoundary (n : Stream) (m : Mach) : Mach := (m.channelBoundary n).takeGeometry n

/-- The formatter is idle for a block reset (R108). -/
def Mach.fmtIdle (m : Mach) (n : Stream) : Bool := !m.is (FMT_CTRL_EN n.val) && m.get (FMT_STAT_STATE n.val) == 0

/-- A formatter leaves block reset (R108): no track, an empty defect list, ring head 0, nothing of its runs left, and no
geometry from before the reset. -/
def Mach.clearFmt (m : Mach) (n : Stream) : Mach :=
  let m := m.setFmt n fun _ => FmtState.initial
  let m := m.setWpath (actOf n) fun w =>
    { w with
      fifo := w.fifo.filter (·.stream != n)
      encoding := w.encoding.filter (·.word.stream != n) }
  let m := m.setChan n fun s => { s with force := { s.force with
    wedgeData := 0, spt := 0, first := 0, cskew := 0, hskew := 0, pre1 := 0, pre2 := 0, zone := 0 } }
  { m with pwr := { m.pwr with runWait := m.pwr.runWait.filter (· != n) } }

end Sys2Proof.Machine
end

