-- ==== Sys2Proof/Machine/Ladder.lean ====
section
/-! DEFINITION. The recovery ladder (R114–R135, R433 of spec/05_recovery_ladder.md). -/
namespace Sys2Proof.Machine

/-- Attempts of a step (Table 5-1). -/
def stepAttempts (s : Nat) : Nat :=
  if s = 2 then 16 else if s = 3 then 3 else if s = 4 ∨ s = 8 ∨ s = 9 then 2 else if s = 16 then 4 else 1

/-- Captures that a step averages; 0 where it does not average (Table 5-1). -/
def stepAverages (s : Nat) : Nat :=
  if s = 11 then 4 else if s = 12 ∨ s = 14 then 8 else if s = 16 then 16 else 0

/-- Schedule of a step's attempts (Table 5-1). -/
def stepSched (s : Nat) : Sched :=
  if s = 2 then .otf else if s = 6 ∨ s = 12 ∨ s = 14 ∨ s = 16 then .max else .ext

/-- The framing offset of attempt `k` of step 2: +1, −1, +2, −2, … (Table 5-1). -/
def frameShift (k : Nat) : Int := if k % 2 = 1 then (((k + 1) / 2 : Nat) : Int) else -((k / 2 : Nat) : Int)

/-- The hardware skips a step (R120). The rebuild of an uncovered member is skipped by REBUILD_DONE. -/
def LadJob.skips (j : LadJob) (s : Nat) : Bool :=
  (j.nosamp && decide (s ≤ 6)) || (s == 14 && !j.ran89) || (s == 15 && !j.parity)

/-- The first step at or after `s` that applies, up to 17. -/
def LadJob.firstFrom (j : LadJob) (s : Nat) : Nat :=
  match (List.range 17).find? fun i => decide (s ≤ i) && decide (1 ≤ i) && !j.skips i with
  | some i => i
  | none => 17

/-- The best offset for step 14 among the NOCONV attempts of steps 8 and 9 (R433). -/
def bestOffset (off1 : Int) (tried : List (Int × Nat)) : Int :=
  match tried with
  | [] => off1
  | t :: ts => (ts.foldl (fun b x => if x.2 < b.2 then x else b) t).1

/-- A command's own last step under the Read Recovery Level (R128). -/
def Cmd.lastStep (c : Cmd) (rrl : Nat) : Nat := if c.dw 12 31 1 = 1 then min 6 (16 - rrl) else 16 - rrl

namespace Mach

/-- Update a ladder. -/
def setLad (m : Mach) (a : Actuator) (f : LadState → LadState) : Mach :=
  m.setMedia fun s => { s with lad := updAt s.lad a f }

/-- The running job. -/
def ladJob (m : Mach) (a : Actuator) : Option LadJob := m.media.lad[a].jobs.head?

/-- Update the running job. -/
def setJob (m : Mach) (a : Actuator) (f : LadJob → LadJob) : Mach :=
  m.setLad a fun l => { l with jobs := match l.jobs with
    | j :: js => f j :: js
    | [] => [] }

/-- LAD_STAT follows the job queue. -/
def syncLad (m : Mach) (a : Actuator) : Mach :=
  let js := m.media.lad[a].jobs
  let m := m.set (LAD_STAT_JOBS a.val) js.length
  match js with
  | [] => ((m.set (LAD_STAT_STATE a.val) 0).set (LAD_STAT_STEP a.val) 0).set (LAD_STAT_SSEL a.val) 0
  | j :: _ =>
    let st := if j.rebuilding then 3 else if j.armed then 2 else if j.attempts.isEmpty then 0 else 1
    ((m.set (LAD_STAT_STATE a.val) st).set (LAD_STAT_STEP a.val) (min 16 j.step)).set (LAD_STAT_SSEL a.val) j.ssel.val

/-- Event source `b` of actuator `a`'s ladder (Table 18-1). -/
def ladSource (a : Actuator) (b : Nat) : Nat := 32 * (22 + a.val) + b

/-- The waiting commands whose own last step lies before `next` complete Unrecovered Read Error, with the sector's LBA as the
one that failed (R129, R130). -/
def commandsPassed (m : Mach) (tag : BitVec 64) (next : Nat) : Mach :=
  let rrl := m.cmd.feat.saved.rrl
  let end1 (x : Cmd) : Cmd :=
    if x.waitsFor tag && decide (x.lastStep rrl < next) then { x with result := some ⟨0x281, 0⟩, badLba := tagLba tag } else x
  m.setCmd fun c => { c with table := c.table.map end1 }

/-- Some command waits on the sector. -/
def hasWaiter (m : Mach) (tag : BitVec 64) : Bool := m.cmd.table.any (·.waitsFor tag)

/-- The job's slots return to free. -/
def freeJobSlots (m : Mach) (a : Actuator) (j : LadJob) : Mach :=
  let n := streamOf a j.ssel
  let m := match j.slot with
    | some i => m.freeSlot n i
    | none => m
  let m := match j.capSlot with
    | some i => m.freeSlot n i
    | none => m
  j.attempts.foldl (fun m t => match t.slot with
    | some i => m.freeSlot n i
    | none => m) m

/-- Requests of withdrawn jobs that no engine has taken leave the decoder pool's ladder queue (R132, R178). -/
def dropRequests (m : Mach) (a : Actuator) (p : LadJob → Bool) : Mach :=
  let hit := m.media.lad[a].jobs.filter p
  m.setDec fun d => { d with ladder := d.ladder.filter fun q =>
    !(q.ref.act == a && hit.any fun j => j.id == q.ref.job) }

/-- Attempts of an ending job that still wait keep their source and run to the end of their schedules; their results reach no
job any more (R118). -/
def orphanRequests (m : Mach) (a : Actuator) (j : LadJob) : Mach :=
  m.setDec fun d => { d with ladder := d.ladder.map fun q =>
    if q.ref.act = a ∧ q.ref.job = j.id then { q with orphan := m.ladderCaptures q } else q }

/-- The running job is to end; what it changed on the head is restored first (R124, R132), and its slots are freed
(R121, R123). -/
def endJob (m : Mach) (a : Actuator) (o : JobOutcome) (step : Nat) : Mach :=
  match m.ladJob a with
  | none => m
  | some j =>
    let m := (((m.restoreHead a).orphanRequests a j).freeJobSlots a j).syncDec
    m.setJob a fun j =>
      { j with ending := some (o, step), slot := none, capSlot := none, attempts := [], added := [], armed := false
               armWait := false, rebuilding := false, heaterOk := false }

/-- The hardware moves the job from step `s` to the next step that applies (R118, R120, R130). At the end of step L the
commands with an earlier last step of their own are reported; those of step L are reported at the job's end, and those of a
later step wait for a new job (R129, R130). -/
def nextStep (m : Mach) (a : Actuator) (s : Nat) : Mach :=
  match m.ladJob a with
  | none => m
  | some j =>
    let next := j.firstFrom (s + 1)
    if j.limit < next then
      (m.endJob a .unrecovered 0).commandsPassed j.desc.tag j.limit
    else
      let m := if s ≤ 6 ∧ 7 ≤ next then
        match j.slot with
        | some i => m.freeSlot (streamOf a j.ssel) i
        | none => m
      else m
      let m := (m.restoreHead a).setJob a fun j =>
        { j with step := next, attempts := [], added := [], armed := false, armWait := false, rebuilding := false
                 heaterOk := false, slot := if 7 ≤ next then none else j.slot }
      m.commandsPassed j.desc.tag next

end Mach

/-- A job at its start (R114, R115). -/
def LadJob.start (id ring : Nat) (desc : SectorDesc) (ssel : HeadSlot) (nosamp parity : Bool) (limit : Nat)
    (slot : Option SampleIdx) : LadJob :=
  { id := id, ring := ring, desc := desc, ssel := ssel, nosamp := nosamp, parity := parity, limit := limit
    step := if nosamp then 7 else 1, slot := slot, attempts := [], counted := 0, lastResult := 15, offsets := []
    ran89 := false, armed := false, capSlot := none, armWait := false, heaterOk := false, offset := 0, heater := 0, added := []
    rebuilding := false, ending := none, recorded := false, withdraw := false }

namespace Mach

/-- The pinned slot of a stream whose descriptor had this ring index. -/
def pinnedSlot (m : Mach) (n : Stream) (ring : Nat) : Option SampleIdx :=
  (allFin 64).find? fun i =>
    let s := m.media.chan[n].slots[i]
    s.state == .pinned && s.ring == ring

/-- The 32 bytes of a formatter descriptor in its ring. -/
def ringDesc (m : Mach) (n : Stream) (ring : Nat) : SectorDesc :=
  let base := 32 * (m.get (FMT_RING_BASE_ADDR n.val) + ring)
  descOfBytes ((List.range 32).map fun j => m.buf.mem.byte (base + j))

end Mach

/-- LAD_START (R114, R115, R122, R128, R130): a write of LAD_START starts a job, or is refused. -/
def ladStart (a : Actuator) (w : Word) (m : Mach) : Mach :=
  let ring := getBits w 0 12
  let ssel : HeadSlot := Fin.ofNat 2 (getBits w 12 1)
  let nosamp := getBits w 13 1 == 1
  let n := streamOf a ssel
  let jobs := m.media.lad[a].jobs
  let full := decide (16 ≤ jobs.length)
  let dup := jobs.any fun j => j.ring == ring && j.ssel == ssel
  let pinned := m.pinnedSlot n ring
  let bad := !nosamp && pinned.isNone
  if full || dup || bad then
    let m := m.when bad (·.flagEvent (LAD_ERR_START_BAD a.val) (Mach.ladSource a 1))
    let m := m.when dup (·.flagEvent (LAD_ERR_START_DUP a.val) (Mach.ladSource a 2))
    m.when full (·.flagEvent (LAD_ERR_START_FULL a.val) (Mach.ladSource a 3))
  else
    let d := m.ringDesc n ring
    let j := LadJob.start m.media.lad[a].nextId ring d ssel nosamp (getBits w 14 1 == 1) (getBits w 16 4 + 1) (if nosamp then none else pinned)
    let m := match nosamp, pinned with
      | true, some i => m.freeSlot n i
      | _, _ => m
    let m := m.setLad a fun l => { jobs := l.jobs ++ [if j.limit < j.step then
      { j with ending := some (.unrecovered, 0) } else j], nextId := l.nextId + 1 }
    (m.commandsPassed d.tag (min j.step (j.limit + 1))).syncLad a

/-- LAD_RAISE (R129). -/
def ladRaise (a : Actuator) (w : Word) (m : Mach) : Mach :=
  let ring := getBits w 0 12
  let ssel : HeadSlot := Fin.ofNat 2 (getBits w 12 1)
  let limit := getBits w 16 4 + 1
  let hit (j : LadJob) : Bool := j.ring == ring && j.ssel == ssel && j.ending.isNone && decide (j.limit ≤ limit)
  if m.media.lad[a].jobs.any hit then
    m.setLad a fun l => { l with jobs := l.jobs.map fun j => if hit j then { j with limit := limit } else j }
  else m.flagEvent (LAD_ERR_RAISE_BAD a.val) (Mach.ladSource a 4)

namespace Mach

/-- A primitive that names another step than the current one is not carried out (R119). -/
def orderError (m : Mach) (a : Actuator) : Mach := m.flagEvent (LAD_ERR_ORDER a.val) (ladSource a 0)

/-- The sequencer works on its running job: EN is 1, or the step in progress is being finished. -/
def ladWorks (m : Mach) (a : Actuator) (j : LadJob) : Bool :=
  (m.is (LAD_CTRL_EN a.val) || !j.attempts.isEmpty || j.armed || j.armWait || j.capSlot.isSome || !j.added.isEmpty) && j.ending.isNone

/-- The slot that an attempt of the current step decodes; `some none` for the average (Table 5-1). -/
def attemptSource (j : LadJob) : Option (Option SampleIdx) :=
  if j.step ≤ 6 then j.slot.map some
  else if stepAverages j.step = 0 then j.capSlot.map some
  else if j.added.length = stepAverages j.step then some none else none

/-- The equaliser set of attempt `k` (Table 5-1), counted from the set stored with the capture, or for an average from the set
in force at the attempt: the spec does not say which EQ_SET the table means (DESIGN CHOICE, log entry 143). -/
def attemptEq (m : Mach) (n : Stream) (j : LadJob) (src : Option SampleIdx) (k : Nat) : Fin 4 :=
  let base : Nat := match src with
    | some i => m.media.chan[n].slots[i].eqSet.val
    | none => m.media.chan[n].force.eqSet.val
  Fin.ofNat 4 (if j.step = 3 then base + k else if j.step = 16 then base + (k - 1) else base)

end Mach

/-- ATTEMPT (R58, R117, R119, R121): issues attempt GP[XREG][12:8] of step GP[XREG][4:0]; the attempts of a step in their
order, at most eight unfinished. Outside step 4 an attempt uses the readers of CHN_CTRL.READERS, which the spec says of tracking
and on-the-fly decodes only (DESIGN CHOICE, log entry 144). -/
def attempt (a : Actuator) (xreg : Gp) (m : Mach) : Mach :=
  match m.ladJob a with
  | none => m
  | some j =>
    let w := m.gp (seqLS a) xreg
    let k := getBits w 8 5
    if getBits w 0 5 ≠ j.step then m.orderError a
    else if !m.ladWorks a j ∨ k ≠ j.attempts.length + 1 ∨ stepAttempts j.step < k ∨ j.step = 15 ∨
        8 ≤ j.attempts.countP (·.result.isNone) then m
    else
      match Mach.attemptSource j with
      | none => m
      | some src =>
        let n := streamOf a j.ssel
        let req : LadderReq :=
          { ref := ⟨a, j.id, j.ring, j.ssel, j.step, k⟩, stream := n, slot := src, desc := j.desc, sched := stepSched j.step
            shift := if j.step = 2 then frameShift k else 0
            eqSet := m.attemptEq n j src k
            readers := if j.step = 4 then k else m.get (CHN_CTRL_READERS n.val)
            npDefault := j.step == 5
            time := m.clock, orphan := [] }
        let m := m.setDec fun d => { d with ladder := d.ladder ++ [req] }
        let m := m.setJob a fun j =>
          { j with
            attempts := j.attempts ++ [Attempt.mk k none (if j.step ≤ 6 then none else src)]
            capSlot := if stepAverages j.step = 0 then none else j.capSlot }
        (m.syncDec).syncLad a

namespace Mach

/-- The capture slots of attempts that have ended are released (R123). -/
def releaseEnded (m : Mach) (a : Actuator) (j : LadJob) : Mach :=
  let n := streamOf a j.ssel
  let m := j.attempts.foldl (fun m t => match t.result, t.slot with
    | some _, some i => m.freeSlot n i
    | _, _ => m) m
  m.setJob a fun j => { j with attempts := j.attempts.map fun t =>
    if t.result.isSome then { t with slot := none } else t }

/-- The winning attempt: the first in the step's order that ended OK or OK_BLIND, once all before it have ended
(R118). -/
def winner : List Attempt → Option (Nat × Nat × List Byte)
  | [] => none
  | t :: ts => match t.result with
    | none => none
    | some (code, _, block) => if code ≤ 1 then some (t.number, code, block) else winner ts

/-- The offset that attempt `k` of steps 8 and 9 reads at (Table 5-1). -/
def stepOffset (m : Mach) (a : Actuator) (s k : Nat) : Int :=
  let o : Int := (m.get (if s = 8 then LAD_PARAM_OFF1 a.val else LAD_PARAM_OFF2 a.val) : Nat)
  if k = 1 then o else -o

end Mach

/-- ATTEMPT_END (R118, R120, R121, R124, R130, R132, R433): an attempt of the running job has ended: the step succeeds,
goes on, or fails and the job moves to its next step. -/
def attemptEnd (a : Actuator) (m : Mach) : Mach :=
  match m.ladJob a with
  | none => m
  | some j =>
    if j.ending.isSome then m else
    let m := m.releaseEnded a j
    let m' : Mach :=
      match Mach.winner j.attempts with
      | some (k, code, block) =>
        let m := m.setJob a fun j => { j with counted := j.counted + k, lastResult := code }
        if j.withdraw then m.endJob a .withdrawn 0
        else
          (m.when (j.desc.op != 3) fun m => m.startWriteBack (streamOf a j.ssel) none j.desc block none).endJob a .recovered
            j.step
      | none =>
        let done := j.attempts.length = stepAttempts j.step ∧ j.attempts.all (·.result.isSome)
        if done then
          let noconv := j.attempts.filterMap fun t => match t.result with
            | some (2, u, _) => some (m.stepOffset a j.step t.number, u)
            | _ => none
          let last := match j.attempts.getLast? with
            | some ⟨_, some (c, _, _), _⟩ => c
            | _ => j.lastResult
          let m := m.setJob a fun j =>
            { j with counted := j.counted + j.attempts.length, lastResult := last
                     ran89 := j.ran89 || j.step == 8 || j.step == 9
                     offsets := if j.step = 8 ∨ j.step = 9 then j.offsets ++ noconv else j.offsets }
          if j.withdraw then m.endJob a .withdrawn 0 else m.nextStep a j.step
        else if j.withdraw ∧ j.attempts.isEmpty ∧ ¬ j.armed ∧ j.added.isEmpty ∧ j.capSlot.isNone ∧ ¬ j.rebuilding then
          m.endJob a .withdrawn 0
        else m
    m'.syncLad a

/-- The offset and heater change of a capture are put on the job's head, in place of those that are on it (R124). -/
def Mach.changeHead (m : Mach) (a : Actuator) (j : LadJob) (offset heater : Int) : Mach :=
  let m := m.when (offset != j.offset) fun m => m.writeTarget a j.ssel
    (((m.get (SRV_TARGET_TARGET a.val j.ssel.val) : Nat) : Int) - j.offset + offset).toNat
  let m := m.setHsq a fun s => { s with heater := s.heater.set j.ssel heater }
  m.setJob a fun j => { j with offset := offset, heater := heater }

/-- No write run is in progress on an actuator (R7). -/
def Mach.noWriteRun (m : Mach) (a : Actuator) : Bool :=
  m.media.wpath[a].writer.isNone && (allFin 2).all fun k =>
    !(m.media.fmt[streamOf a k].inRun && m.get (FMT_STAT_STATE (streamOf a k).val) == 2)

/-- ARMCAP (R7, R119, R123, R124): the step's offset or heater change is set and a capture for step GP[XREG][4:0] is armed: at
once, or after the settling revolution of a heater change, and after a write run of the actuator. -/
def armcap (a : Actuator) (xreg : Gp) (m : Mach) : Mach :=
  match m.ladJob a with
  | none => m
  | some j =>
    if getBits (m.gp (seqLS a) xreg) 0 5 ≠ j.step then m.orderError a
    else if !m.ladWorks a j ∨ j.step ≤ 6 ∨ j.step = 15 ∨ j.armed ∨ j.armWait ∨ j.capSlot.isSome then m
    else
      let off1 : Int := (m.get (LAD_PARAM_OFF1 a.val) : Nat)
      let offset : Int :=
        if j.step = 8 ∨ j.step = 9 then m.stepOffset a j.step (j.attempts.length + 1)
        else if j.step = 14 then bestOffset off1 j.offsets else 0
      let heater : Int :=
        if j.step = 10 then m.getS (LAD_PARAM_HEAT1 a.val) else if j.step = 13 then m.getS (LAD_PARAM_HEAT2 a.val) else 0
      let settled := heater == 0 || (heater == j.heater && j.heaterOk)
      let now := settled && m.noWriteRun a
      ((m.changeHead a j offset heater).setJob a fun j =>
        { j with armed := now, armWait := !now, heaterOk := settled }).syncLad a

/-- HEATER_SETTLE_END (R124): one revolution has passed since the heater change was set: the capture is armed. -/
def heaterSettleEnd (a : Actuator) (m : Mach) : Mach :=
  match m.ladJob a with
  | none => m
  | some j =>
    if j.armWait ∧ ¬ j.heaterOk then
      let now := m.noWriteRun a
      (m.setJob a fun j => { j with armed := now, armWait := !now, heaterOk := true }).syncLad a
    else m

/-- CAPTURE_TAKEN (R7, R122–R124, R153, R173, R311): the sector of the armed ladder capture passes under the head. Without a
confirmed track or a free slot, or where a run may not begin, the capture waits for a later revolution. -/
def captureTaken (a : Actuator) (samples : Samples) (m : Mach) : Mach :=
  match m.ladJob a with
  | none => m
  | some j =>
    let n := streamOf a j.ssel
    let confirmed := m.bitAt (SRV_STAT_TRK_CONF a.val) j.ssel.val && decide (m.get (QDR_ACT_STATE a.val) < 2)
    if j.armed && m.media.chan[n].capturing && m.headValid n && confirmed && m.noWriteRun a &&
        (m.media.fmt[n].inRun || decide (m.streamsInRuns < m.streamCap)) then
      match m.freeSlotOf n with
      | some i =>
        let m := m.fillSlot n i j.ring j.desc samples true none
        (m.setJob a fun j => { j with armed := false, capSlot := some i }).syncLad a
      | none => m
    else m

/-- AVGADD (R119, R125): adds the framed capture to the accumulator of an averaging step, and frees its slot. The primitive names
no step; in a step that averages nothing the model takes it for one that names another step (DESIGN CHOICE, log entry
145). -/
def avgadd (a : Actuator) (m : Mach) : Mach :=
  match m.ladJob a with
  | none => m
  | some j =>
    if stepAverages j.step = 0 then m.orderError a else
    match j.capSlot with
    | none => m
    | some i =>
      let n := streamOf a j.ssel
      let s := m.media.chan[n].slots[i]
      if s.framed ∧ j.added.length < stepAverages j.step then
        let m := m.setJob a fun j =>
          { j with added := j.added ++ [(s.samples, s.spans, s.offset)], capSlot := none }
        (m.freeSlot n i).syncLad a
      else m

/-- REBUILD (R119, R126): step 15 begins. -/
def rebuild (a : Actuator) (m : Mach) : Mach :=
  match m.ladJob a with
  | none => m
  | some j =>
    if j.step ≠ 15 then m.orderError a
    else if m.ladWorks a j then (m.setJob a fun j => { j with rebuilding := true }).syncLad a
    else m

/-- The member count of a decoded parity sector (R93). -/
def countField (info : List Byte) : Nat := ofBytesLE ((info.drop 4144).take 2)

/-- The parity vector of a group member from its media form (R92): parity members give the parity they carry. -/
def memberVector (key : BitVec 512) (i : Nat) (info : List Byte) : List Byte :=
  if i < 128 then coveredOf info
  else (decryptBlock key (blockTag info) info).take 4112 ++ (info.drop 4132).take 12

namespace Mach

/-- Logical sectors of a track of a stream's actuator (R92, R97). -/
def trackSectors (m : Mach) (n : Stream) (head cyl : Nat) : Nat :=
  let es := m.trackEntries n (head * 2 ^ 20 + cyl)
  (List.range m.media.chan[n].force.spt).countP fun p => !slipped es p

/-- The position `by_` places after logical sector `index` of a cylinder: positions run in order of cylinder, then sector
(R92). -/
def bandPlace (m : Mach) (n : Stream) (head : Nat) : Nat → Nat → Int → Option (Nat × Nat)
  | 0, _, _ => none
  | fuel + 1, cyl, index =>
    if index < 0 then
      if cyl = 0 then none else m.bandPlace n head fuel (cyl - 1) (index + (m.trackSectors n head (cyl - 1) : Nat))
    else if index.toNat < m.trackSectors n head cyl then some (cyl, index.toNat)
    else m.bandPlace n head fuel (cyl + 1) (index - (m.trackSectors n head cyl : Nat))

/-- Member `i` of a descriptor's group lies at a TYPE-1 position: it is a known erasure (R97, R126). -/
def memberMoved (m : Mach) (n : Stream) (d : SectorDesc) (i : Nat) : Bool :=
  let head := d.globalHead n
  match m.bandPlace n head 134 d.cyl ((d.index : Int) + (i : Int) - (d.member : Int)) with
  | none => false
  | some (cyl, index) =>
    let es := m.trackEntries n (head * 2 ^ 20 + cyl)
    match physIndex es index with
    | some p => es.any fun e => e.type == 1 && decide (e.first ≤ p) && decide (p < e.first + e.len)
    | none => false

/-- The expected tag of member `i` of a descriptor's group (R93). -/
def memberTag (d : SectorDesc) (i : Nat) : BitVec 64 :=
  let ns := bitsAt d.tag 61 3
  let lba0 := if d.member < 128 then tagLba d.tag - d.member else tagLba d.tag
  BitVec.ofNat 64 (if i < 128 then ns * 2 ^ 61 + lba0 + i else ns * 2 ^ 61 + 2 ^ 60 + (i - 128) * 2 ^ 58 + lba0)

/-- A position of the group decodes under the on-the-fly schedule or, from the same samples, under the extended one: its media
form where it ends OK or OK_BLIND (R126). -/
def memberDecode (m : Mach) (n : Stream) (d : SectorDesc) (i : Nat) (r : MemberRead) : Option (List Byte) :=
  let key := m.sec.slots[(Fin.ofNat 32 d.key)]
  let s := syncSearch (m.get (LAD_SYNC_THRESH (actOf n).val)) (syncDists r.bits)
  let src : Source := ⟨(r.samples.x.map adcValue).toArray, (r.samples.y.map adcValue).toArray, s.best, r.spans⟩
  let try_ (sched : Sched) : Option (List Byte) :=
    let run := m.decodeSource n src m.media.chan[n].force.eqSet.val (m.get (CHN_CTRL_READERS n.val)) false 0 sched
    if run.converged ∧ (checkBlock key (memberTag d i) s.found run.info).1 ≤ 1 then some run.info else none
  match try_ .otf with
  | some b => some b
  | none => try_ .ext

end Mach

/-- The rebuild of member `t` from the 132 positions of its group (R126, R127): none where the member is not covered;
otherwise the result code and the plaintext block. `got i` is the media form of a position that decoded OK. -/
def rebuildResult (key : BitVec 512) (tag : BitVec 64) (t : Nat) (got : Nat → Option (List Byte)) :
    Option (Nat × List Byte) :=
  let parity := [128, 129, 130, 131].filterMap fun i => (got i).map fun b => (i, b)
  let count := parity.foldl (fun n p => max n (countField p.2)) 0
  if parity ≠ [] ∧ t < 128 ∧ count ≤ t then none
  else
    let covered := if parity = [] then 128 else count
    let good (i : Nat) : Option (List Byte) := match got i with
      | some b =>
        if i = t then none
        else if i < 128 ∨ countField b = count then some b else none
      | none => none
    let members := (List.range 132).filter fun i => decide (i < covered) || decide (128 ≤ i)
    let erased := members.filter fun i => (good i).isNone
    if 4 < erased.length then some (2, [])
    else
      let known := members.filterMap fun i => (good i).map fun b => (i, memberVector key i b)
      let vectors := erased.zip (rebuildMembers known erased)
      match vectors.find? (·.1 == t) with
      | none => some (2, [])
      | some (_, v) =>
        let info := v.take 4116 ++ toBytesLE 8 tag.toNat ++ (v.drop 4116).take 8 ++ List.replicate 28 0
        some (checkBlock key tag true info)

/-- REBUILD_DONE (R97, R120, R126, R127): the reads of the group have ended. `group` gives what each of the 132 positions
delivered; none where a position could not be read. Each is decoded, and a TYPE-1 position counts as an erasure. -/
def rebuildDone (a : Actuator) (group : List (Option MemberRead)) (m : Mach) : Mach :=
  match m.ladJob a with
  | none => m
  | some j =>
    if !j.rebuilding then m else
    let n := streamOf a j.ssel
    let key := m.sec.slots[(Fin.ofNat 32 j.desc.key)]
    let got (i : Nat) : Option (List Byte) :=
      if m.memberMoved n j.desc i then none else (group.getD i none).bind (m.memberDecode n j.desc i)
    let m := m.setJob a fun j => { j with rebuilding := false }
    let m' : Mach := match rebuildResult key j.desc.tag j.desc.member got with
      | none => if j.withdraw then m.endJob a .withdrawn 0 else m.nextStep a 15
      | some (code, block) =>
        let m := m.setJob a fun j => { j with counted := j.counted + 1, lastResult := code }
        if j.withdraw then m.endJob a .withdrawn 0
        else if code ≤ 1 then
          (m.when (j.desc.op != 3) fun m => m.startWriteBack n none j.desc block none).endJob a .recovered 15
        else m.nextStep a 15
    m'.syncLad a

namespace Mach

/-- Records of a result ring (LAD_RING_CFG). -/
def ladRingSize (m : Mach) (a : Actuator) : Nat := 2 ^ max 4 (min 8 (m.get (LAD_RING_CFG_SIZE_LOG2 a.val)))

/-- The result ring has room (R133). -/
def ladRoom (m : Mach) (a : Actuator) : Bool :=
  (m.get (LAD_RING_HEAD_HEAD a.val) + 1) % m.ladRingSize a != m.get (LAD_RING_TAIL_TAIL a.val) % m.ladRingSize a

end Mach

/-- Outcome code of Table 5-2. -/
def JobOutcome.code : JobOutcome → Nat
  | .recovered => 0
  | .unrecovered => 1
  | .withdrawn => 2

/-- Word 1 of a result record (Table 5-2). -/
def recordWord (j : LadJob) (o : JobOutcome) (step : Nat) : Nat :=
  (if o = .recovered then step else 0) + 2 ^ 8 * o.code + 2 ^ 10 * j.ssel.val + 2 ^ 11 * bitNat j.nosamp +
    2 ^ 12 * j.lastResult + 2 ^ 16 * j.ring + 2 ^ 32 * min 65535 j.counted + 2 ^ 63

/-- RECORD (R133): writes the 16-byte record of the ending job, word 0 first, and advances HEAD. -/
def record (a : Actuator) (m : Mach) : Mach :=
  match m.ladJob a with
  | none => m
  | some j =>
    match j.ending with
    | none => m
    | some (o, step) =>
      if j.recorded || !m.ladRoom a then m
      else
        let base := 16 * (m.get (LAD_RING_BASE_ADDR a.val) + m.get (LAD_RING_HEAD_HEAD a.val) % m.ladRingSize a)
        let m := m.writeBytes base (toBytesLE 8 j.desc.tag.toNat)
        let m := m.writeBytes (base + 8) (toBytesLE 8 (recordWord j o step))
        let m := m.set (LAD_RING_HEAD_HEAD a.val) ((m.get (LAD_RING_HEAD_HEAD a.val) + 1) % m.ladRingSize a)
        m.setJob a fun j => { j with recorded := true }

namespace Mach

/-- CAND_STEP; 0 acts as 1 (R134). -/
def candStep (m : Mach) (a : Actuator) : Nat := max 1 (m.get (LAD_PARAM_CAND_STEP a.val))

/-- A sector becomes a reallocation candidate (R134). -/
def addCandidate (m : Mach) (tag : BitVec 64) : Mach :=
  m.setCmd fun c =>
    let x : Candidate := ⟨tagNsid tag, tagLba tag, false⟩
    if c.cands.any fun y => y.nsid == x.nsid && y.lba == x.lba then c else { c with cands := c.cands ++ [x] }

/-- A job of a written candidate's verify has ended (R134): where it needed step CAND_STEP or a later one, or failed, the LBA is
reallocated; otherwise the sector is sound. -/
def verifyEnded (m : Mach) (n : Stream) (d : SectorDesc) (good : Bool) : Mach :=
  if good then m.setCandidate d.tag fun _ => none
  else
    let es := m.trackEntries n (d.globalHead n * 2 ^ 20 + d.cyl)
    match physIndex es d.index with
    | some p => (m.reallocate n d p).setCandidate d.tag fun _ => none
    | none => m

/-- What a job's end means for the sector's candidate (R134). -/
def jobCandidate (m : Mach) (n : Stream) (d : SectorDesc) (bad : Bool) : Mach :=
  match m.candidateOf d.tag with
  | some c => if c.written ∧ d.op = 3 then m.verifyEnded n d (!bad) else m.when bad (·.addCandidate d.tag)
  | none => m.when bad (·.addCandidate d.tag)

end Mach

/-- JOB_END (R118, R132–R134): a recorded job leaves the queue; counters, events and candidates follow its outcome. -/
def jobEnd (a : Actuator) (m : Mach) : Mach :=
  match m.ladJob a with
  | none => m
  | some j =>
    if !j.recorded then m else
    match j.ending with
    | none => m
    | some (o, step) =>
      let m := m.setLad a fun l => { l with jobs := l.jobs.drop 1 }
      let n := streamOf a j.ssel
      let m := match o with
        | .recovered =>
          let m := m.incSat (LAD_CNT_STEP_COUNT a.val (Fin.ofNat 16 (step - 1)).val) 1
          let bad := decide (m.candStep a ≤ step)
          ((m.jobCandidate n j.desc bad).passRead j.desc true).when bad (·.report (Mach.ladSource a 6))
        | .unrecovered =>
          let m := (m.incSat (LAD_CNT_END_UNREC a.val) 1).commandsPassed j.desc.tag (j.limit + 1)
          ((m.jobCandidate n j.desc true).passRead j.desc false).report (Mach.ladSource a 5)
        | .withdrawn => m.incSat (LAD_CNT_END_WITHDRAWN a.val) 1
      m.syncLad a

namespace Mach

/-- A job ends WITHDRAWN without finishing the step in progress (R132, R178). -/
def withdrawNow (m : Mach) (a : Actuator) (p : LadJob → Bool) : Mach :=
  let hit := m.media.lad[a].jobs.filter fun j => p j && j.ending.isNone
  let m := match m.ladJob a with
    | some j => if p j && j.ending.isNone then m.restoreHead a else m
    | none => m
  let m := hit.foldl (fun m j => m.freeJobSlots a j) m
  let m := m.dropRequests a fun j => p j && j.ending.isNone
  let stop (j : LadJob) : LadJob :=
    if p j && j.ending.isNone then
      { j with ending := some (.withdrawn, 0), slot := none, capSlot := none, attempts := [], added := [], armed := false
               armWait := false, rebuilding := false, heaterOk := false }
    else j
  let m := m.setLad a fun l => { l with jobs := l.jobs.map stop }
  (m.syncDec).syncLad a

/-- At an actuator fault every job of the actuator ends WITHDRAWN (R178). -/
def withdrawAll (m : Mach) (a : Actuator) : Mach := m.withdrawNow a fun _ => true

/-- Every command that waits on a job's sector is among `gone`, and there is one. -/
def deserted (m : Mach) (gone : List Cmd) (j : LadJob) : Bool :=
  gone.any (·.waitsFor j.desc.tag) && !m.cmd.table.any (fun c => c.waitsFor j.desc.tag && !gone.contains c)

/-- Jobs whose waiting commands were all aborted are to end WITHDRAWN at the end of their step (R132): `gone` are the
aborted commands. -/
def withdrawAborted (m : Mach) (gone : List Cmd) : Mach :=
  let mark (j : LadJob) : LadJob := if m.deserted gone j then { j with withdraw := true } else j
  m.setMedia fun s => { s with lad := s.lad.map fun l => { l with jobs := l.jobs.map mark } }

/-- A controller reset ends the jobs whose waiting commands were all the controller's WITHDRAWN, without finishing the step in
progress (R132): `gone` are its commands. -/
def withdrawReset (m : Mach) (gone : List Cmd) : Mach :=
  (allFin 4).foldl (fun (s : Mach) a => s.withdrawNow a fun j => m.deserted gone j) m

end Mach

/-- LAD_EN_WRITE (R428): EN = 1 starts the sequencer; EN = 0 stops it after the step in progress. -/
def ladEnWrite (a : Actuator) (en : Bool) (m : Mach) : Mach := m.setFlag (LAD_CTRL_EN a.val) en

/-- LAD_CNTCLR (R135). -/
def ladCntclr (a : Actuator) (m : Mach) : Mach :=
  let m := (List.range 16).foldl (fun m k => m.set (LAD_CNT_STEP_COUNT a.val k) 0) m
  (((m.set (LAD_CNT_END_UNREC a.val) 0).set (LAD_CNT_END_WITHDRAWN a.val) 0).set (LAD_CNT_SYNC_BLIND a.val) 0).set
    (LAD_CNT_SYNC_LATE a.val) 0

/-- The ladder is idle for a block reset (R135). -/
def Mach.ladIdle (m : Mach) (a : Actuator) : Bool := !m.is (LAD_CTRL_EN a.val) && m.media.lad[a].jobs.isEmpty

/-- A ladder leaves block reset with an empty queue and accumulator (R135). -/
def Mach.clearLad (m : Mach) (a : Actuator) : Mach := m.setLad a fun l => ⟨[], l.nextId⟩

end Sys2Proof.Machine
end

