-- ==== Sys2Proof/Machine/Retract.lean ====
section
/-! DEFINITION. Retract, actuator states and actuator faults (R149, R178, R180, R208, R209). -/
namespace Sys2Proof.Machine

namespace Mach

/-- Update the power die. -/
def setDie (m : Mach) (f : PowerDie → PowerDie) : Mach := { m with die := f m.die }

/-- Update a profile channel. -/
def setPrg (m : Mach) (a : Actuator) (f : PrgState → PrgState) : Mach :=
  { m with motion := { m.motion with prg := updAt m.motion.prg a f } }

/-- Update Quadrille. -/
def setQdr (m : Mach) (f : QdrState → QdrState) : Mach :=
  { m with motion := { m.motion with qdr := f m.motion.qdr } }

/-- Event source `b` of actuator `a`'s motion group (Table 18-1). -/
def actSource (a : Actuator) (b : Nat) : Nat := 32 * (26 + a.val) + b

/-- QDR_ACTn.STATE: DEPOP before FAULTED before REQUAL (Table 7-3). -/
def syncAct (m : Mach) (a : Actuator) : Mach :=
  let st :=
    if m.is (QDR_ACT_DEPOP a.val) then 3
    else if m.motion.srv[a].faulted then 2
    else if m.is (QDR_ACT_RO a.val) then 1
    else 0
  (m.when (st != m.get (QDR_ACT_STATE a.val)) (·.report (actSource a 15))).set (QDR_ACT_STATE a.val) st

/-- The current sign toward the ramp (VCM_CTRL.RET_DIR). -/
def rampSign (m : Mach) (a : Actuator) : Int := if m.is (VCM_CTRL_RET_DIR a.val) then -1 else 1

/-- A bridge reference of `ma` mA toward the ramp, in 100 µA units. -/
def rampRef (m : Mach) (a : Actuator) (ma : Nat) : Int := m.rampSign a * ((10 * ma : Nat) : Int)

/-- PARKED as the power die reports it (VCM_STAT, QDR_ACT). -/
def setParked (m : Mach) (a : Actuator) (b : Bool) : Mach :=
  let m := m.setDie fun d => { d with parked := d.parked.set a b }
  ((m.setFlag (VCM_STAT_PARKED a.val) b).setFlag (QDR_ACT_PARKED a.val) b)

/-- Microactuator outputs; an output at 0 V is not at its current limit (R189). -/
def setMaRef (m : Mach) (a : Actuator) (v : Vector Int 2) : Mach :=
  let m := m.setDie fun d => { d with maRef := d.maRef.set a v }
  let m := m.when (v[(0 : Fin 2)] == 0) (·.set (VCM_MA_LIM0 a.val) 0)
  m.when (v[(1 : Fin 2)] == 0) (·.set (VCM_MA_LIM1 a.val) 0)

/-- A bridge that is not in servo mode has no clamp in force (R187, R188, R206). -/
def clearClips (m : Mach) (a : Actuator) : Mach :=
  let m := m.setDie fun d => { d with servo := d.servo.set a false, contClamp := d.contClamp.set a false }
  (((m.set (VCM_STAT_CLIP_PEAK a.val) 0).set (VCM_STAT_CLIP_CONT a.val) 0).set (VCM_STAT_CLIP_SUM a.val) 0).set
    (VCM_STAT_CLIP_OV a.val) 0

/-- The reference of the back-EMF loop at VEL_MV: `s` is the sign of the current that drives the coil the wanted way; the
magnitude is limited to RET_I (R209, R210). -/
def emfRef (m : Mach) (a : Actuator) (s : Int) : Int :=
  let lim : Int := ((10 * m.get VCM_RET0_RET_I : Nat) : Int)
  let err : Int := ((10000 * m.get VCM_RET0_VEL_MV : Nat) : Int) - s * m.die.emf[a]
  s * clampInt (-lim) lim (Config.emfLoop err)

/-- A retract request (R208, R209): no effect while the actuator retracts, is parked, has its bridge off for good, or while
every output is off at L3. It takes precedence over a load. -/
def startRetract (m : Mach) (a : Actuator) : Mach :=
  if m.die.retract[a] ≠ .none ∨ m.die.parked[a] ∨ m.die.bridgeOff[a] ∨ m.die.level = 4 then m
  else
    let m := m.setDie fun d =>
      { d with
        retract := d.retract.set a .velocity, loading := d.loading.set a false
        vcmRef := d.vcmRef.set a (m.emfRef a (m.rampSign a)) }
    ((m.clearClips a).setMaRef a (Vector.replicate 2 0)).set (VCM_STAT_MODE a.val) 3

/-- Every actuator that is not parked retracts (R208). -/
def retractAll (m : Mach) : Mach := (allFin 4).foldl (fun m a => m.startRetract a) m

/-- Quadrille applies nothing to a faulted or depopulated destination: its output reads 0 and its delay lines are held at zero
(R167). -/
def clearQdrOut (m : Mach) (a : Actuator) : Mach :=
  ((m.setQdr fun q => { q with lines := q.lines.set a (Vector.replicate 4 []) }).set (QDR_OUT_OUT a.val) 0).set
    (QDR_OUT_SAT a.val) 0

/-- Every channel profile of the actuator is to stop at the next apply instant (R161). -/
def abortProfile (m : Mach) (a : Actuator) : Mach :=
  let st := m.get (PRG_STAT_STATE a.val)
  if 1 ≤ st ∧ st ≤ 3 then m.setPrg a fun p => { p with aborting := true } else m

/-- Ibzin sets both formatters' EN of a faulted actuator to 0 and resets each block once its STATE is 0 (R178). -/
def stopFormatters (m : Mach) (a : Actuator) : Mach :=
  (allFin 2).foldl (fun (m : Mach) k =>
    (m.set (FMT_CTRL_EN (streamOf a k).val) 0).setFmt (streamOf a k) fun f => { f with resetDue := true }) m

/-- Faults of an actuator in the last 24 hours of power-on time (R179). -/
def recentFaults (m : Mach) (a : Actuator) : Nat :=
  m.motion.faultTimes[a].countP fun t => decide (m.evt.poh - t < 86400)

/-- DEPOP and HEAD_DEPOP as Ibzin's persistent state holds them (R183). -/
def restoreDepop (m : Mach) (a : Actuator) : Mach :=
  let m := m.when m.motion.depop[a] (·.set (QDR_ACT_DEPOP a.val) 1)
  m.set (QDR_ACT_HEAD_DEPOP a.val) (m.get (QDR_ACT_HEAD_DEPOP a.val) ||| m.motion.headDepop[a])

/-- What Ibzin does at an actuator's PARKED: it writes DEPOP and HEAD_DEPOP back (R183); it depopulates an actuator whose
requalification failed or whose faults reached the limit; it clears a fault that no DRV cause belongs to (R179). -/
def parkWork (m : Mach) (a : Actuator) : Mach :=
  if !m.rst.coresUp then m
  else
    let m := m.restoreDepop a
    let bits := m.get ⟨REG_SRV_FAULT a.val, 0, 4⟩
    let m :=
      if m.motion.depopDue[a] || (m.motion.srv[a].faulted && decide (3 < m.recentFaults a)) then
        let m := (m.when m.motion.depopDue[a] (·.report (32 * 35 + 23))).when (!m.is (QDR_ACT_DEPOP a.val))
          (·.report (32 * 35 + 25))
        let m := { m with motion := { m.motion with
          depop := m.motion.depop.set a true, depopDue := m.motion.depopDue.set a false } }
        (m.set (QDR_ACT_DEPOP a.val) 1).clearQdrOut a
      else if m.motion.srv[a].faulted && decide (bits < 8) then m.set ⟨REG_SRV_FAULT a.val, 0, 4⟩ 0
      else m
    m.syncAct a

/-- An actuator faults on a cause: 0 OVR, 1 LOCK, 2 RUNAWAY, 3 DRV (R149, R178, R182). Later causes are latched too. -/
def actuatorFault (m : Mach) (a : Actuator) (cause : Nat) : Mach :=
  let m := (m.set ⟨REG_SRV_FAULT a.val, cause, 1⟩ 1).report (actSource a 1)
  let m := { m with motion := { m.motion with
    lastFault := m.motion.lastFault.set a (BitVec.ofNat 4 (m.get ⟨REG_SRV_FAULT a.val, 0, 4⟩)) } }
  if m.motion.srv[a].faulted then m
  else
    let poh := m.evt.poh
    let m := { m with motion := { m.motion with
      faultTimes := updAt m.motion.faultTimes a (poh :: ·), tables := m.motion.tables.set a [] } }
    let m := (m.setSrv a fun s => { s with faulted := true }).dropWsafe a
    let m := m.setMaRef a (Vector.replicate 2 0)
    (((((m.startRetract a).abortProfile a).withdrawAll a).clearQdrOut a).stopFormatters a).syncAct a

end Mach

/-- RETRACT_START (R208, R209): a retract request for the actuator. -/
def retractStart (a : Actuator) (m : Mach) : Mach := m.startRetract a

/-- RETRACT_VELOCITY_END (R209): below 25 % of the target velocity for 2 ms at the current limit: the climb. -/
def retractVelocityEnd (a : Actuator) (m : Mach) : Mach :=
  if m.die.retract[a] = .velocity then
    m.setDie fun d => { d with
      retract := d.retract.set a .climb, vcmRef := d.vcmRef.set a (m.rampRef a (m.get VCM_RET1_CLIMB_I)) }
  else m

/-- The park phase begins (Table 8-6). -/
def Mach.parkPhase (m : Mach) (a : Actuator) : Mach :=
  m.setDie fun d => { d with
    retract := d.retract.set a .park, vcmRef := d.vcmRef.set a (m.rampRef a (m.get VCM_RET1_PARK_I)) }

/-- RETRACT_CLIMB_END (R209): the climb's 30 ms have passed. -/
def retractClimbEnd (a : Actuator) (m : Mach) : Mach := if m.die.retract[a] = .climb then m.parkPhase a else m

/-- RETRACT_TIMEOUT (R209): 250 ms without reaching Park. -/
def retractTimeout (a : Actuator) (m : Mach) : Mach :=
  if m.die.retract[a] = .velocity ∨ m.die.retract[a] = .climb then
    (m.parkPhase a).flagEvent (VCM_FAULT_RET_TO a.val) (Mach.actSource a 21)
  else m

/-- RETRACT_PARK_END (R209): the park's 50 ms have passed: PARKED. Parked heads read no servo field, so both slots are
unlocked. -/
def retractParkEnd (a : Actuator) (m : Mach) : Mach :=
  if m.die.retract[a] = .park then
    let m := m.setDie fun d => { d with retract := d.retract.set a .none, vcmRef := d.vcmRef.set a 0 }
    let m := (((m.clearClips a).setMaRef a (Vector.replicate 2 0)).set (VCM_STAT_MODE a.val) 0).setParked a true
    (((m.set (SRV_STAT_LOCK a.val) 0).set (SRV_STAT_TRK_CONF a.val) 0).set (SRV_STAT_ONTRACK a.val) 0).parkWork a
  else m

end Sys2Proof.Machine
end

