-- ==== Sys2Proof/Machine/Servo.lean ====
section
/-! DEFINITION. The servo demodulators, the post contract and the write-safe flag (spec/06_servo.md). -/
namespace Sys2Proof.Machine

/-! ### Position from one servo field (R136–R143) -/

/-- Binary value of a reflected Gray code of `w` bits. -/
def grayValue : Nat → Nat → Nat
  | 0, _ => 0
  | w + 1, g =>
    let hi := grayValue w (g / 2)
    2 * hi + (g + hi) % 2

/-- Even parity of the low `w` bits. -/
def evenParity (w x : Nat) : Bool := ((List.range w).countP fun i => x.testBit i) % 2 == 0

/-- The decoded servo track of an identity (Table 6-2). -/
def identTrack (i : BitVec 32) : Nat := grayValue 20 (bitsAt i 12 20)
/-- The wedge number of an identity (Table 6-2). -/
def identWedge (i : BitVec 32) : Nat := bitsAt i 2 10
/-- PG and PW are both even (R140). -/
def identParity (i : BitVec 32) : Bool :=
  evenParity 21 (bitsAt i 12 20 + 2 ^ 20 * bitsAt i 1 1) && evenParity 11 (bitsAt i 2 10 + 2 ^ 10 * bitsAt i 0 1)

/-! ### Reading a field (R136, R139–R141) -/

/-- The number that bits spell, the first the most significant. -/
def bitsNat (bs : List Bool) : Nat := bs.foldl (fun v b => 2 * v + bitNat b) 0

/-- The servo address mark (Table 6-1). -/
def samMark : List Bool := (List.range 16).map fun i => Nat.testBit 0x0B7F (15 - i)

/-- The first of the positions −8 to +8 at which the 16 bit decisions differ from the mark in at most `th` bits (R139). -/
def samSearch (th : Nat) (bits : List Bool) : Option Nat :=
  (List.range 17).find? fun p =>
    decide ((((bits.drop p).take 16).zipWith (· != ·) samMark).countP id + (16 - ((bits.drop p).take 16).length) ≤ th)

/-- SAM_TH; 3 acts as 2 (R139). -/
def Mach.samTh (m : Mach) (a : Actuator) : Nat := min 2 (m.get (SRV_CFG_SAM_TH a.val))

/-- The identity bits of dibits; none where a pair is neither 10 nor 01 (R136). -/
def dibits : List Bool → Option (List Bool)
  | [] => some []
  | true :: false :: r => (dibits r).map (true :: ·)
  | false :: true :: r => (dibits r).map (false :: ·)
  | _ => none

/-- The identity word of a field: the 64 servo bits behind the SAM (Tables 6-1 and 6-2); none for no SAM or a violation. -/
def fieldIdentity (th : Nat) (bits : List Bool) : Option (BitVec 32) :=
  match samSearch th bits with
  | none => none
  | some p =>
    match dibits ((bits.drop (p + 16)).take 64) with
    | some bs => if bs.length = 32 then some (BitVec.ofNat 32 (bitsNat bs)) else none
    | none => none

/-- The timestamps of the sign changes in samples from index `i` on: the index and the linear interpolation of the zero crossing,
in 1/256 sample. A sample of 0 counts as positive and the fraction is rounded down, which the spec leaves open (DESIGN CHOICE,
log entry 147). -/
def crossings : Nat → List Adc → List Nat
  | i, a :: b :: r =>
    let x := adcValue a
    let y := adcValue b
    if decide (x < 0) != decide (y < 0) then (256 * i + 256 * x.natAbs / (x - y).natAbs) :: crossings (i + 1) (b :: r)
    else crossings (i + 1) (b :: r)
  | _, _ => []

/-- The sum of the six timestamps of a burst; none where one was not found (R140, R141). -/
def burstSum (b : BurstRegion) : Option Nat :=
  let ts := crossings b.first b.samples
  if 6 ≤ ts.length then some ((ts.take 6).foldl (· + ·) 0) else none

/-- ΣA, ΣB, ΣC, ΣD when all 24 burst transitions were found (R140, R141). -/
def fieldBursts (r : ReaderField) : Option (Nat × Nat × Nat × Nat) :=
  match burstSum r.burstA, burstSum r.burstB, burstSum r.burstC, burstSum r.burstD with
  | some a, some b, some c, some d => some (a, b, c, d)
  | _, _, _, _ => none

/-- W = ΣD − ΣA (R141). -/
def burstW (b : Nat × Nat × Nat × Nat) : Int := (b.2.2.2 : Int) - (b.1 : Int)

/-- φq (R141), in 1/4,096 track. -/
def burstPhi (b : Nat × Nat × Nat × Nat) : Int :=
  let u : Int := (b.2.1 : Int) - (b.1 : Int)
  let v : Int := (b.2.2.2 : Int) - (b.2.2.1 : Int)
  clampInt (-8192) 8191 (roundDiv (61440 * (u - v)) (burstW b).toNat)

/-- A reader's absolute position from Gray track and φq (R142), 20.12 track. -/
def readerPos (g : Nat) (phi : Int) : Int :=
  (16384 * ((4096 * (g : Int) - phi + 8191) / 16384) + phi) % 4294967296

/-- `x` lies within ±1/32 of `ref`. -/
def within32 (x ref : Int) : Bool := decide (32 * (x - ref).natAbs ≤ ref.natAbs)

namespace Mach


/-- Slot enabled. -/
def slotEn (m : Mach) (a : Actuator) (k : HeadSlot) : Bool :=
  if k = 0 then m.is (SRV_CTRL_SLOT_EN0 a.val) else m.is (SRV_CTRL_SLOT_EN1 a.val)

/-- Slot locked. -/
def slotLocked (m : Mach) (a : Actuator) (k : HeadSlot) : Bool := m.bitAt (SRV_STAT_LOCK a.val) k.val

/-- The wedge number expected of a slot: the previous valid one plus the wedges since (R140). -/
def wedgeExpected (m : Mach) (a : Actuator) (k : HeadSlot) : Option Nat :=
  let s := m.motion.srv[a].slots[k]
  s.prevWedge.map fun p => (p + s.since + 1) % m.nWedge a

/-- A wedge is valid for a reader (R140): its identity and its bursts when it is. -/
def readerValid (m : Mach) (a : Actuator) (k : HeadSlot) (r : ReaderField) :
    Option (BitVec 32 × Nat × Nat × Nat × Nat) :=
  let s := m.motion.srv[a].slots[k]
  let locked := m.slotLocked a k
  match fieldIdentity (m.samTh a) r.bits, fieldBursts r with
  | some id, some b =>
    if identParity id && decide (0 < burstW b) && (!locked || m.wedgeExpected a k == some (identWedge id)) &&
        (!locked || within32 (burstW b) s.prevW) then some (id, b) else none
  | _, _ => none

/-- A reader's position from a valid field. -/
def fieldPos (f : BitVec 32 × Nat × Nat × Nat × Nat) : Int := readerPos (identTrack f.1) (burstPhi f.2)

/-- The demodulated wedge: position Y, source code, wedge number and W; none for a missed wedge (R140, R142). -/
def demodulate (m : Mach) (a : Actuator) (k : HeadSlot) (f : WedgeField) : Option (Int × Nat × Nat × Nat) :=
  let x := m.readerValid a k f.x
  let y := m.readerValid a k f.y
  let one (r : BitVec 32 × Nat × Nat × Nat × Nat) (ofs : Int) (src : Nat) : Int × Nat × Nat × Nat :=
    ((fieldPos r + ofs) % 4294967296, src, identWedge r.1, (burstW r.2).toNat)
  let onlyX := x.map fun r => one r (m.getS (SRV_ROFS_XOFS a.val k.val)) 1
  let onlyY := y.map fun r => one r (m.getS (SRV_ROFS_YOFS a.val k.val)) 2
  match m.get (SRV_CFG_SREADER a.val) with
  | 1 => onlyX
  | 2 => onlyY
  | _ =>
    match x, y with
    | some rx, some ry => some ((fieldPos rx + fieldPos ry) / 2, 0, identWedge rx.1, (burstW rx.2).toNat)
    | some _, none => onlyX
    | none, _ => onlyY

/-- The RRO entry of a wedge as stored; 0 while no row is valid (R145). -/
def rroCode (m : Mach) (a : Actuator) (k : HeadSlot) (wedge : Nat) : Nat :=
  if m.bitAt (SRV_STAT_RRO_VALID a.val) k.val then m.motion.srv[a].slots[k].rro.getD wedge 0 else 0

/-- The correction: 0x8000 is used as 0 (R145). -/
def rroValue (code : Nat) : Int := if code = 0x8000 then 0 else signedOf 16 code

/-- The profile of the actuator is idle (Table 6-4). -/
def profileIdle (m : Mach) (a : Actuator) : Bool :=
  let st := m.get (PRG_STAT_STATE a.val)
  !(1 ≤ st && st ≤ 3)

/-- The data interval starts after the PES-ready of its wedge (R150), with F-SEQ cycles per servo bit from T_est. -/
def dataAfterPes (m : Mach) (a : Actuator) : Bool :=
  decide (24 * 256 * 3200 < (max 192 (m.get (SRV_TIMING_DSTART a.val)) - 182) * m.get (SRV_TEST_TEST a.val))

/-- Table 6-4 for a valid wedge of the WSLOT slot with PES `pes` and RRO entry `rro`. -/
def writeSafe (m : Mach) (a : Actuator) (k : HeadSlot) (pes : Int) (rro : Nat) : Bool :=
  let s := m.motion.srv[a]
  decide (pes.natAbs ≤ m.get (SRV_LIMIT_WU_PES a.val)) &&
  (match s.slots[k].prevPes with
    | some p => decide ((pes - p).natAbs ≤ m.get (SRV_LIMIT_WU_DELTA a.val))
    | none => false) &&
  m.bitAt (SRV_STAT_ONTRACK a.val) k.val &&
  (match s.lastPost with
    | some p => p.wpermit
    | none => false) &&
  s.goodRun == 2 &&
  m.bitAt (SRV_STAT_RRO_VALID a.val) k.val && rro != 0x8000 &&
  m.profileIdle a &&
  m.get (SRV_STAT_MA_CLAMP a.val) == 0 &&
  !s.faulted && !m.is (QDR_ACT_RO a.val) &&
  !m.is SPN_STAT_INHIBIT &&
  m.dataAfterPes a

end Mach

/-- GATE_LEAD within 8 and up (R138). -/
def Mach.servoLead (m : Mach) (a : Actuator) : Nat := max 8 (m.get (SRV_TIMING_GATE_LEAD a.val))

/-- SERVO_GATE_OPEN (R88, R138, R176): a locked slot's servo gate opens GATE_LEAD servo bits before the predicted field start,
T_est after the last one; a write gate of the slot is closed for the servo field. -/
def servoGateOpen (a : Actuator) (k : HeadSlot) (m : Mach) : Mach :=
  if m.slotEn a k && m.slotLocked a k then
    let t := m.get (SRV_TEST_TEST a.val)
    (m.setSrvSlot a k fun s =>
      { s with gateOpen := true, gateAt := s.fieldAt + t - m.servoLead a * t / 3200 }).splitGate (streamOf a k)
  else m

/-- SAM_SEARCH_END (R139, R152): the search window ends with these bit decisions of the readers; a miss of every reader in use
on the WSLOT slot drops the flag. -/
def samSearchEnd (a : Actuator) (k : HeadSlot) (x y : List Bool) (m : Mach) : Mach :=
  let found := match m.get (SRV_CFG_SREADER a.val) with
    | 1 => (samSearch (m.samTh a) x).isSome
    | 2 => (samSearch (m.samTh a) y).isSome
    | _ => (samSearch (m.samTh a) x).isSome || (samSearch (m.samTh a) y).isSome
  if m.slotEn a k && !found && k == m.wslot a then m.dropWsafe a else m

namespace Mach

/-- T_est is seeded from the spindle speed before the slot first locks (R138). -/
def seedTest (m : Mach) (a : Actuator) : Mach :=
  let v := m.get SPN_SPEED_SPEED
  if m.get (SRV_TEST_TEST a.val) = 0 ∧ m.is SPN_SPEED_VALID ∧ 0 < v then
    m.set (SRV_TEST_TEST a.val) (48000000000 * 256 * 16 / (v * m.nWedge a))
  else m

/-- T_est ← T_est + (spacing − T_est) ÷ 16 (R138), once it is seeded. The model truncates the quotient toward zero, where the
rule's words may also mean the sum (DESIGN CHOICE, log entry 148). -/
def stepTest (m : Mach) (a : Actuator) (spacing : Nat) : Mach :=
  let t : Int := (m.get (SRV_TEST_TEST a.val) : Nat)
  if t = 0 then m else m.set (SRV_TEST_TEST a.val) (t + ((spacing : Int) - t).tdiv 16).toNat

/-- δ from the mean of the listed wedge periods against the target speed, in 2⁻²⁴, clamped to ±1 % (R55, R201). -/
def deltaOf (spacings : List Nat) (target n : Nat) : Int :=
  let sum := spacings.foldl (· + ·) 0
  let den := target * n * sum
  if den = 0 then 0
  else clampInt (-167772) 167772 (((48000000000 * 4096 * spacings.length * 16777216 / den : Nat) : Int) - 16777216)

/-- The lowest-numbered actuator whose lead slot is locked. -/
def deltaSource (m : Mach) : Option Actuator := (allFin 4).find? fun a => m.slotLocked a (m.leadSlot a)

/-- Give δ to every stream (R55). -/
def sendDelta (m : Mach) (d : Int) : Mach :=
  m.setMedia fun s => { s with chan := s.chan.map fun c => { c with deltaNext := d } }

/-- In RUN, a valid lead-slot wedge of the source actuator sends δ (R201). -/
def deltaAt (m : Mach) (a : Actuator) : Mach :=
  if m.get SPN_STAT_STATE = 5 ∧ m.deltaSource = some a then
    m.sendDelta (deltaOf m.motion.srv[a].spacings (m.get SPN_TARGET_TARGET) (m.nWedge a))
  else m

/-- A slot's demodulator learns of a valid wedge: lock, T_est, the counts for settling (R138, R153). -/
def validWedge (m : Mach) (a : Actuator) (k : HeadSlot) (spacing y : Nat) (wedge w : Nat) (pes : Int) : Mach :=
  let s := m.motion.srv[a].slots[k]
  let t : Int := (m.get (SRV_TEST_TEST a.val) : Nat)
  let pair := s.prevWedge.isSome && s.since == 0
  let follows := s.prevWedge == some ((wedge + m.nWedge a - 1) % m.nWedge a)
  let m := m.when (!m.slotLocked a k && pair && follows && within32 spacing t) fun m =>
    m.setBitAt (SRV_STAT_LOCK a.val) k.val true
  let m := m.when pair fun m => m.stepTest a spacing
  let m := m.when (pair && k == m.leadSlot a) fun m =>
    m.setSrv a fun s => { s with spacings := (spacing :: s.spacings).take 16 }
  let target := m.targetInUse a k
  let m := m.when (m.get (SRV_TARGET_TARGET a.val k.val) == target && y / 4096 == target / 4096 && decide (pes.natAbs < 2048)) fun m =>
    m.setBitAt (SRV_STAT_TRK_CONF a.val) k.val true
  let run := if pes.natAbs ≤ m.get (SRV_SETTLE_WIN a.val) ∧ m.profileIdle a then s.settle + 1 else 0
  let m := m.when (decide (max 1 (m.get (SRV_SETTLE_COUNT a.val)) ≤ run)) fun m =>
    m.setBitAt (SRV_STAT_ONTRACK a.val) k.val true
  let m := m.when (decide (m.get (SRV_SETTLE_HOLD a.val) < pes.natAbs)) fun m =>
    m.setBitAt (SRV_STAT_ONTRACK a.val) k.val false
  m.setSrvSlot a k fun s =>
    { s with prevWedge := some wedge, since := 0, prevW := w, settle := run, gateOpen := !m.slotLocked a k
             fieldAt := s.fieldAt + spacing }

/-- A slot's demodulator learns of a missed wedge (R140, R153). -/
def missedWedge (m : Mach) (a : Actuator) (k : HeadSlot) : Mach :=
  let m := (m.incSat (SRV_CNT_MISS a.val) 1).setBitAt (SRV_STAT_ONTRACK a.val) k.val false
  m.setSrvSlot a k fun s => { s with since := s.since + 1, settle := 0, gateOpen := false }

/-- The lead slot's faults LOCK and RUNAWAY (R149). -/
def leadFaults (m : Mach) (a : Actuator) (pes : Option Int) : Mach :=
  let loaded := !m.is (QDR_ACT_PARKED a.val)
  let miss := if pes.isNone ∧ loaded then m.motion.srv[a].missRun + 1 else 0
  let rail := match pes with
    | some p => if p.natAbs = 32767 ∧ m.get (PRG_STAT_STATE a.val) ≠ 3 then m.motion.srv[a].railRun + 1 else 0
    | none => m.motion.srv[a].railRun
  let m := m.setSrv a fun s => { s with missRun := miss, railRun := rail }
  let m := m.when (decide (max 1 (m.get (SRV_LIMIT_MISS_MAX a.val)) ≤ miss)) (·.actuatorFault a 1)
  m.when (decide (4 ≤ rail)) (·.actuatorFault a 2)

end Mach

/-- PES_READY (R138–R145, R149–R151, R153, R201): the servo field `f` of slot `k` has been demodulated. -/
def pesReady (a : Actuator) (k : HeadSlot) (f : WedgeField) (m : Mach) : Mach :=
  if !m.slotEn a k then m else
  let m := (m.seedTest a).report (Mach.actSource a (2 + k.val))
  let lead := k == m.leadSlot a
  let expected := m.wedgeExpected a k
  match m.demodulate a k f with
  | some (y, src, wedge, w) =>
    let code := m.rroCode a k wedge
    let pes := clampInt (-32767) 32767 (y - (m.targetInUse a k : Nat) - Mach.rroValue code)
    let m := (((m.setS (SRV_PES_PES a.val k.val) pes).set (SRV_PES_SEQ a.val k.val) (wedge % 256)).set
      (SRV_PES_VALID a.val k.val) 1).set (SRV_PES_SRC a.val k.val) src
    let m := m.set (SRV_POS_POS a.val k.val) y.toNat
    let m := m.validWedge a k f.spacing y.toNat wedge w pes
    let m := m.when (k == m.wslot a) fun m => m.setFlag (SRV_STAT_WSAFE a.val) (m.writeSafe a k pes code)
    let m := m.setSrvSlot a k fun s => { s with prevPes := some pes }
    m.when lead fun m =>
      let m := (m.set (SRV_STAT_WEDGE a.val) wedge).setSrv a fun s =>
        { s with curSeq := some (wedge % 256), closed := false, post := none }
      (m.deltaAt a).leadFaults a (some pes)
  | none =>
    let seq := match expected with
      | some w => w
      | none => m.free
    let m := m.when expected.isNone (·.nextFree)
    let m := (((m.set (SRV_PES_PES a.val k.val) 0).set (SRV_PES_SEQ a.val k.val) (seq % 256)).set
      (SRV_PES_VALID a.val k.val) 0).set (SRV_PES_SRC a.val k.val) 3
    let m := (m.set (SRV_POS_POS a.val k.val) 0).missedWedge a k
    let m := m.when (k == m.wslot a) (·.dropWsafe a)
    let m := m.setSrvSlot a k fun s => { s with prevPes := none }
    m.when lead fun m =>
      let m := m.setSrv a fun s => { s with curSeq := some (seq % 256), closed := false, post := none }
      m.leadFaults a none

/-! ### Posts (R147, R148) -/

/-- SRV_POST (R147–R149, R152): a write of SRV_POST posts the staged outputs. -/
def srvPost (a : Actuator) (seq : BitVec 8) (wpermit : Bool) (m : Mach) : Mach :=
  let s := m.motion.srv[a]
  if s.faulted then m.flagEvent (SRV_ERR_FAULTED a.val) (Mach.actSource a 7)
  else if s.curSeq ≠ some seq.toNat then m.flagEvent (SRV_ERR_SEQ a.val) (Mach.actSource a 4)
  else if s.post.isSome then m.flagEvent (SRV_ERR_DUP a.val) (Mach.actSource a 5)
  else if s.closed then m.flagEvent (SRV_ERR_LATE a.val) (Mach.actSource a 6)
  else
    let p : Post := ⟨seq.toNat, m.getS (SRV_OUT_VCM_CUR a.val), m.getS (SRV_OUT_MA_VOLT a.val 0),
      m.getS (SRV_OUT_MA_VOLT a.val 1), wpermit⟩
    let m := m.setSrv a fun s =>
      { s with post := some p, lastPost := some p, goodRun := min 2 (s.goodRun + 1) }
    (m.set (SRV_STAT_OVR_RUN a.val) 0).when (!wpermit) (·.dropWsafe a)

/-- POST_DEADLINE (R148, R149): A(k) − 16 is reached; without an on-time post the wedge is an overrun. -/
def postDeadline (a : Actuator) (m : Mach) : Mach :=
  let s := m.motion.srv[a]
  if s.curSeq.isNone ∨ s.closed then m
  else
    let m := m.setSrv a fun s => { s with closed := true }
    if s.post.isSome then m
    else
      let run := min 3 (m.get (SRV_STAT_OVR_RUN a.val) + 1)
      let m := ((m.dropWsafe a).incSat (SRV_CNT_OVR a.val) 1).set (SRV_STAT_OVR_RUN a.val) run
      let m := (m.setSrv a fun s => { s with goodRun := 0 }).report (Mach.actSource a 0)
      m.when (run == 3 && !s.faulted) (·.actuatorFault a 0)

/-! ### Register writes of the servo block -/

/-- SRV_TARGET_WRITE (R144, R152, R153). -/
def srvTargetWrite (a : Actuator) (k : HeadSlot) (w : Word) (m : Mach) : Mach :=
  m.writeTarget a k w.toNat

/-- A slot whose demodulator runs and is not locked has its gate open (R138); one whose demodulator does not run is unlocked,
and its microactuator is held at 0 V (R155). -/
def Mach.stopSlot (m : Mach) (a : Actuator) (k : HeadSlot) : Mach :=
  if m.slotEn a k then m.setSrvSlot a k fun s => { s with gateOpen := s.gateOpen || !m.slotLocked a k }
  else
    let m := m.setMaRef a (m.die.maRef[a].set k 0)
    let m := ((m.setBitAt (SRV_STAT_LOCK a.val) k.val false).setBitAt (SRV_STAT_TRK_CONF a.val) k.val false).setBitAt
      (SRV_STAT_ONTRACK a.val) k.val false
    m.setSrvSlot a k fun s =>
      { s with prevWedge := none, since := 0, prevPes := none, settle := 0, gateOpen := false }

/-- SRV_CTRL_WRITE (R151, R152): slots are enabled and WSLOT is written, which drops the flag. -/
def srvCtrlWrite (a : Actuator) (w : Word) (m : Mach) : Mach :=
  let m := ((m.set (SRV_CTRL_SLOT_EN0 a.val) (getBits w 0 1)).set (SRV_CTRL_SLOT_EN1 a.val) (getBits w 1 1)).set
    (SRV_CTRL_WSLOT a.val) (getBits w 2 1)
  ((m.dropWsafe a).stopSlot a 0).stopSlot a 1

/-- SRV_LEAD_WRITE (R156): accepted while the profile is idle and the new lead slot is locked; in effect at the next apply
instant. -/
def srvLeadWrite (a : Actuator) (k : HeadSlot) (m : Mach) : Mach :=
  if m.profileIdle a && m.slotLocked a k then m.setSrv a fun s => { s with leadNext := some k }
  else m.flagEvent (SRV_ERR_LEAD a.val) (Mach.actSource a 8)

/-- The fabric port of servo core SCn, and its class FW (Table 2-2). -/
def scPort (a : Actuator) : Port := ⟨8 + a.val, by omega⟩

/-- SRV_RRO_LOAD (R145): the row becomes invalid and its fetch starts, N × 2 bytes under class FW on the SCn port; a second load
replaces a running one. -/
def srvRroLoad (a : Actuator) (k : HeadSlot) (w : Word) (m : Mach) : Mach :=
  let addr := 64 * getBits w 0 30
  ((m.setBitAt (SRV_STAT_RRO_VALID a.val) k.val false).setSrvSlot a k fun s =>
    { s with rro := [], rroFetch := some addr }).demand (scPort a) 11 addr (2 * m.nWedge a)

/-- Little-endian 16-bit codes of bytes. -/
def codes16 : List Byte → List Nat
  | a :: b :: r => (a.toNat + 256 * b.toNat) :: codes16 r
  | _ => []

/-- RRO_FETCH_DONE (R145): the last token of the row has arrived, once the port's bursts have moved. -/
def rroFetchDone (a : Actuator) (k : HeadSlot) (m : Mach) : Mach :=
  match m.motion.srv[a].slots[k].rroFetch with
  | none => m
  | some addr =>
    if !m.portQuiet (scPort a) then m else
    let ((bs, _), m) := m.readBytes addr (2 * m.nWedge a)
    (m.setSrvSlot a k fun s => { s with rro := codes16 bs, rroFetch := none }).setBitAt (SRV_STAT_RRO_VALID a.val) k.val true

/-- The servo block is idle for a block reset (R163). -/
def Mach.srvIdle (m : Mach) (a : Actuator) : Bool := !m.slotEn a 0 && !m.slotEn a 1 && m.is (QDR_ACT_PARKED a.val)

/-- A servo block leaves block reset; a latched fault stays (R163). -/
def Mach.clearSrv (m : Mach) (a : Actuator) : Mach :=
  m.setSrv a fun s => { SrvState.initial with faulted := s.faulted }

end Sys2Proof.Machine
end

