-- ==== Sys2Proof/Machine/Profile.lean ====
section
/-! DEFINITION. The profile generator and Quadrille (R156–R171 of spec/06_servo.md and
spec/07_quadrille_and_actuators.md), and the apply instant (R146, R185–R189, R210). -/
namespace Sys2Proof.Machine

/-! ### Planning (R157) -/

/-- Limits of a plan in internal units of 2⁻³²: velocity, acceleration, jerk. -/
structure PlanLimits where
  v : Nat
  a : Nat
  j : Nat
  deriving DecidableEq, Repr

/-- Peak velocity for unit jerk (R157). -/
def peakV (nj na : Nat) : Nat := nj * nj + nj * na

/-- Distance for unit jerk (R157): each rise and its mirrored fall together cover the peak velocity times one ramp's samples. -/
def unitDist (nj na nc : Nat) : Nat := peakV nj na * (2 * nj + na + nc)

/-- The triple meets every limit for a distance (R157). -/
def planFits (d : Nat) (l : PlanLimits) (nj na nc : Nat) : Bool :=
  let j := d / unitDist nj na nc
  decide (1 ≤ j) && decide (j ≤ l.j) && decide (j * nj ≤ l.a) && decide (j * peakV nj na ≤ l.v)

/-- A triple of `total` samples that fits: the larger nj first, then the larger na (R157). -/
def planTotal (d : Nat) (l : PlanLimits) (total : Nat) : Option (Nat × Nat × Nat) :=
  (List.range (total / 4)).reverse.findSome? fun i =>
    let nj := i + 1
    (List.range ((total - 4 * nj) / 2 + 1)).reverse.findSome? fun na =>
      let nc := total - 4 * nj - 2 * na
      if planFits d l nj na nc then some (nj, na, nc) else none

/-- The triple with the smallest total of at most 4,095 samples (R157, R159). -/
def planTriple (d : Nat) (l : PlanLimits) : Option (Nat × Nat × Nat) := (List.range 4096).findSome? (planTotal d l)

/-- The plan of a move from `start` by `dist` (20.12 track). -/
def planMove (start dist : Int) (l : PlanLimits) : Option Profile :=
  let dInt := dist * 1048576
  (planTriple dInt.natAbs l).map fun t =>
    let j : Int := (dInt.natAbs / unitDist t.1 t.2.1 t.2.2 : Nat)
    { start := start, dInt := dInt, jerk := if dist < 0 then -j else j, nj := t.1, na := t.2.1, nc := t.2.2
      idx := 0, a := 0, v := 0, p := 0 }

/-- Samples of a plan (R157). -/
def Profile.total (p : Profile) : Nat := 4 * p.nj + 2 * p.na + p.nc

/-- Samples left. -/
def Profile.left (p : Profile) : Nat := p.total - p.idx

/-- Sign of the jerk at sample `i`: +1, 0, −1, 0, −1, 0, +1 over the seven segments (R157). -/
def Profile.sign (p : Profile) (i : Nat) : Int :=
  if i < p.nj then 1
  else if i < p.nj + p.na then 0
  else if i < 2 * p.nj + p.na then -1
  else if i < 2 * p.nj + p.na + p.nc then 0
  else if i < 3 * p.nj + p.na + p.nc then -1
  else if i < 3 * p.nj + 2 * p.na + p.nc then 0
  else 1

/-- One sample of the integrator (R157); a finished part stays where it ended. -/
def Profile.step (p : Profile) : Profile :=
  if p.total ≤ p.idx then p
  else
    let a := p.a + p.jerk * p.sign p.idx
    let v := p.v + a
    let pos := if p.idx + 1 = p.total then p.dInt else p.p + v
    { p with idx := p.idx + 1, a := a, v := v, p := pos }

/-- Peak acceleration of a plan, J* · nj (R169). -/
def Profile.peakA (p : Profile) : Nat := p.jerk.natAbs * p.nj

/-- Samples left of a summed profile. -/
def partsLeft (ps : List Profile) : Nat := ps.foldl (fun n p => max n p.left) 0

/-- The summed references: REFP (20.12), REFV (12.20), REFA (8.24); all 0 velocity and acceleration at the end
(R157, R160). -/
def partsRef (ps : List Profile) : Int × Int × Int :=
  let start : Int := match ps with
    | p :: _ => p.start
    | [] => 0
  let sum (f : Profile → Int) : Int := ps.foldl (fun s p => s + f p) 0
  if partsLeft ps = 0 then (start + sum (·.p) / 1048576, 0, 0)
  else (start + sum (·.p) / 1048576, sum (·.v) / 4096, sum (·.a) / 256)

/-- Largest magnitudes of velocity, acceleration and jerk over the remaining samples (R160). -/
def partsPeaks : Nat → List Profile → Nat × Nat × Nat
  | 0, _ => (0, 0, 0)
  | n + 1, ps =>
    let next := ps.map Profile.step
    let r := partsPeaks n next
    let sum (f : Profile → Int) : Nat := (ps.foldl (fun s p => s + f p) 0).natAbs
    let sumNext (f : Profile → Int) : Nat := (next.foldl (fun s p => s + f p) 0).natAbs
    (max r.1 (sumNext (·.v)), max r.2.1 (sumNext (·.a)),
      max r.2.2 (sum fun p => if p.idx < p.total then p.jerk * p.sign p.idx else 0))

namespace Mach

/-- The limits of a channel (Table 6-6); a negative VMAX or AMAX acts as 0. -/
def planLimits (m : Mach) (a : Actuator) : PlanLimits :=
  { v := (m.getS (PRG_VMAX_LIMIT a.val)).toNat * 4096
    a := (m.getS (PRG_AMAX_LIMIT a.val)).toNat * 256
    j := m.get (PRG_JMAX_LIMIT a.val) }

/-- The limits less what the running profile still uses; none where a headroom is below one eighth (R160). -/
def headroom (m : Mach) (a : Actuator) : Option PlanLimits :=
  let l := m.planLimits a
  let ps := m.motion.prg[a].parts
  let (v, acc, j) := partsPeaks (partsLeft ps) ps
  if 8 * (l.v - v) < l.v ∨ 8 * (l.a - acc) < l.a ∨ 8 * (l.j - j) < l.j then none
  else some ⟨l.v - v, l.a - acc, l.j - j⟩

/-- REFP, REFV and REFA of a channel. -/
def setRefs (m : Mach) (a : Actuator) (r : Int × Int × Int) : Mach :=
  ((m.setS (PRG_REFP_REF a.val) r.1).setS (PRG_REFV_REF a.val) r.2.1).setS (PRG_REFA_REF a.val) r.2.2

/-- QDR_TORQ.TOTAL, QDR_ADMIT and QDR_KACC.EST follow the channels (R169, R170). -/
def admitted (m : Mach) (a : Actuator) : Bool := m.motion.prg[a].admitted

/-- Sum of the estimates of the admitted channels (R169). -/
def admittedTotal (m : Mach) : Nat :=
  (allFin 4).foldl (fun s a => if m.admitted a then s + m.get (QDR_KACC_EST a.val) else s) 0

/-- The channel waits in ADMIT. -/
def inAdmit (m : Mach) (a : Actuator) : Bool := m.get (PRG_STAT_STATE a.val) == 2

/-- The oldest channel in ADMIT (R170). -/
def oldestAdmit (m : Mach) : Option Actuator :=
  (allFin 4).foldl (fun (b : Option Actuator) a =>
    if m.inAdmit a then
      match b with
      | some c => if m.motion.prg[a].age < m.motion.prg[c].age then some a else b
      | none => some a
    else b) none

/-- The status registers of Quadrille's admission. -/
def syncAdmit (m : Mach) : Mach :=
  let wait := (allFin 4).foldl (fun s a => if m.inAdmit a then s + 2 ^ a.val else s) 0
  let old := match m.oldestAdmit with
    | some a => a.val
    | none => 0
  ((m.set QDR_TORQ_TOTAL (min 16383 m.admittedTotal)).set QDR_ADMIT_WAIT wait).set QDR_ADMIT_OLDEST old

/-- ⌈x ÷ y⌉. -/
def ceilDiv (x y : Nat) : Nat := (x + y - 1) / y

/-- E of a plan with peak acceleration `p` (R169), mA. -/
def estimate (m : Mach) (a : Actuator) (p : Nat) : Nat := ceilDiv (m.get (QDR_KACC_KACC a.val) * p) (2 ^ 32)

/-- E of a summed profile: the full AMAX (R171), mA. -/
def fullEstimate (m : Mach) (a : Actuator) : Nat :=
  ceilDiv (m.get (QDR_KACC_KACC a.val) * (m.getS (PRG_AMAX_LIMIT a.val)).toNat) (2 ^ 24)

/-- The estimate of a summed profile fits under R170. -/
def fullFits (m : Mach) (a : Actuator) : Bool :=
  decide (m.admittedTotal - m.get (QDR_KACC_EST a.val) + m.fullEstimate a ≤ m.get QDR_TORQ_BUDGET) ||
    (allFin 4).all fun b => b == a || !m.admitted b

/-- The channel leaves RUN, PLAN or ADMIT for `state`: its estimate leaves the total (R169). A START that is still being planned
is not touched. -/
def endChannel (m : Mach) (a : Actuator) (state : Nat) : Mach :=
  let m := m.setPrg a fun p =>
    { p with parts := [], waiting := none, admitted := false, aborting := false }
  let m := (m.set (PRG_STAT_STATE a.val) state).set (PRG_STAT_LEFT a.val) 0
  (m.set (QDR_KACC_EST a.val) 0).syncAdmit

end Mach

/-! ### Commands of the generator -/

/-- A ladder capture that is armed on the actuator keeps it on the sector's cylinder (R123). -/
def Mach.ladderKeeps (m : Mach) (a : Actuator) (target : Nat) : Bool :=
  match m.media.lad[a].jobs with
  | j :: _ => j.armed && target / 4096 != j.desc.cyl
  | [] => false

/-- PRG_START (R123, R152, R158–R160): drops the write-safe flag and plans a move to PRG_TGTn; it abandons an anticipatory seek
(R26). While a ladder capture is armed the media scheduler starts no move to another cylinder. -/
def prgStart (a : Actuator) (m : Mach) : Mach :=
  let st := m.get (PRG_STAT_STATE a.val)
  let tgt : Nat := m.get (PRG_TGT_TARGET a.val)
  if m.ladderKeeps a tgt then m
  else
    let m := (m.dropWsafe a).setCmd fun c => { c with seeking := c.seeking.set a false }
    if st = 3 then m.setPrg a fun p => { p with planning := ((tgt : Int), true) :: p.planning }
    else
      let m := m.setPrg a fun p =>
        { p with planning := ((tgt : Int), false) :: p.planning, before := if st = 1 then p.before else st }
      ((m.set (PRG_STAT_STATE a.val) 1).set (QDR_KACC_EST a.val) 0).syncAdmit

namespace Mach

/-- A planned move from rest (R157, R158): none where no triple meets the limits. -/
def planRest (m : Mach) (a : Actuator) (target : Int) : Option Mach :=
  let start : Int := (m.get (PRG_REFP_REF a.val) : Nat)
  let m := m.set (PRG_STAT_ERR a.val) 0
  if target = start then
    some ((m.setPrg a fun p => { p with target := target, inForceP := target, inForceA := 0 }).endChannel a 4)
  else
    (planMove start (target - start) (m.planLimits a)).map fun plan =>
      let m := m.setPrg a fun p => { p with waiting := some plan, target := target, age := m.clock / seqPeriods }
      ((m.set (PRG_STAT_STATE a.val) 2).set (QDR_KACC_EST a.val) (min 65535 (m.estimate a plan.peakA))).syncAdmit

/-- A pending target starts from rest (R160). -/
def startPending (m : Mach) (a : Actuator) (before : Nat) : Mach :=
  match m.motion.prg[a].pending with
  | none => m
  | some t =>
    let m := m.setPrg a fun p => { p with pending := none, planning := [(t, false)], before := before }
    (((m.set (PRG_STAT_PENDING a.val) 0).set (PRG_STAT_STATE a.val) 1).dropWsafe a).syncAdmit

/-- A refused start (R159): 1 RANGE, 2 NOFIT. The channel goes back to the state before it: a START planned before is planned
on, and a profile that waited in ADMIT waits again. -/
def prgRefuse (m : Mach) (a : Actuator) (err : Nat) : Mach :=
  let m := (m.set (PRG_STAT_ERR a.val) err).report (actSource a 9)
  let m := m.setPrg a fun p => { p with planning := p.planning.drop 1 }
  let p := m.motion.prg[a]
  if m.get (PRG_STAT_STATE a.val) = 3 ∨ ¬ p.planning.isEmpty then m
  else
    let m := m.set (PRG_STAT_STATE a.val) p.before
    let m := match p.waiting with
      | some plan => m.set (QDR_KACC_EST a.val) (min 65535 (m.estimate a plan.peakA))
      | none => m
    m.syncAdmit.startPending a p.before

/-- The target waits until the running profile ends, in place of one that waited (R160, R171). -/
def prgPend (m : Mach) (a : Actuator) (target : Int) : Mach :=
  (m.setPrg a fun p => { p with planning := [], pending := some target }).set (PRG_STAT_PENDING a.val) 1

/-- The latest START is planned: earlier ones and a pending target are replaced (R160). -/
def prgPlanned (m : Mach) (a : Actuator) : Mach :=
  (m.setPrg a fun p => { p with planning := [], pending := none }).set (PRG_STAT_PENDING a.val) 0

/-- A second profile superposed on the running one (R158, R160, R171); the references follow at once. -/
def planSum (m : Mach) (a : Actuator) (target : Int) : Mach :=
  let old := m.motion.prg[a].target
  if target = old then (m.prgPlanned a).set (PRG_STAT_ERR a.val) 0
  else
    match m.headroom a with
    | none => m.prgPend a target
    | some l =>
      match planMove old (target - old) l with
      | none => m.prgRefuse a 2
      | some plan =>
        if m.fullFits a then
          let m := ((m.prgPlanned a).set (PRG_STAT_ERR a.val) 0).setPrg a fun p =>
            { p with parts := p.parts ++ [plan], target := target }
          let parts := m.motion.prg[a].parts
          let m := (m.set (PRG_STAT_LEFT a.val) (min 4095 (partsLeft parts))).setRefs a
            (partsRef (parts.map Profile.step))
          (m.set (QDR_KACC_EST a.val) (min 65535 (m.fullEstimate a))).syncAdmit
        else m.prgPend a target

end Mach

/-- PLAN_DONE (R157–R160, R169, R171): planning of the latest START ends. -/
def planDone (a : Actuator) (m : Mach) : Mach :=
  match m.motion.prg[a].planning with
  | [] => m
  | (target, running) :: _ =>
    if (m.get (PRG_MAXTRK_MAXTRK a.val) : Int) < target / 4096 then m.prgRefuse a 1
    else if running && m.get (PRG_STAT_STATE a.val) == 3 then m.planSum a target
    else
      match m.planRest a target with
      | some m => m.prgPlanned a
      | none => m.prgRefuse a 2

/-- PRG_ABORT (R161): the channel stops at the next apply instant. -/
def prgAbort (a : Actuator) (m : Mach) : Mach := m.abortProfile a

/-- QUADRILLE_ADMIT (R158, R170, Table 7-3): the oldest channel in ADMIT is admitted if its estimate fits; a faulted or
depopulated actuator's is not. -/
def quadrilleAdmit (m : Mach) : Mach :=
  match m.oldestAdmit with
  | none => m
  | some a =>
    match m.motion.prg[a].waiting with
    | none => m
    | some plan =>
      let e := m.get (QDR_KACC_EST a.val)
      let free := (allFin 4).all fun b => !m.admitted b
      if m.motion.srv[a].faulted || m.is (QDR_ACT_DEPOP a.val) || !(free || decide (e + m.admittedTotal ≤ m.get QDR_TORQ_BUDGET)) then m
      else
        let notBefore := m.clock + 256 * Mach.seqPeriods
        let m := m.setPrg a fun p =>
          { p with waiting := none, parts := [plan], admitted := true, notBefore := notBefore }
        let m := ((m.set (PRG_STAT_STATE a.val) 3).set (PRG_STAT_LEFT a.val) (min 4095 plan.total)).setRefs a
          (partsRef [plan.step])
        m.syncAdmit

namespace Mach

/-- One sample of the channel at an apply instant (R146, R157, R158, R160, R161). -/
def profileStep (m : Mach) (a : Actuator) : Mach :=
  let p := m.motion.prg[a]
  if p.aborting then
    let m := m.setRefs a (p.inForceP, 0, 0)
    let m := (m.setPrg a fun p =>
      { p with pending := none, planning := [], inForceA := 0, target := p.inForceP }).set (PRG_STAT_PENDING a.val) 0
    m.endChannel a 5
  else if m.get (PRG_STAT_STATE a.val) = 3 ∧ p.notBefore ≤ m.clock then
    let parts := p.parts.map Profile.step
    let now := partsRef parts
    let m := m.setPrg a fun p => { p with parts := parts, inForceP := now.1, inForceA := now.2.2 }
    let m := m.set (PRG_STAT_LEFT a.val) (min 4095 (partsLeft parts))
    if partsLeft parts = 0 then
      let m := (m.setRefs a (p.target, 0, 0)).endChannel a 4
      if p.planning.isEmpty then m.startPending a 4
      else (((m.setPrg a fun p => { p with before := 4 }).set (PRG_STAT_STATE a.val) 1).dropWsafe a).syncAdmit
    else m.setRefs a (partsRef (parts.map Profile.step))
  else m.setPrg a fun p => { p with inForceA := 0 }

/-! ### Quadrille (R164–R168) -/

/-- A destination to which nothing is applied (R167). -/
def outOfService (m : Mach) (a : Actuator) : Bool := m.motion.srv[a].faulted || m.is (QDR_ACT_DEPOP a.val)

/-- Coefficient c[a][b][i] of a bank (R168). -/
def qdrCoef (m : Mach) (bank : Nat) (a b : Actuator) (i : Nat) : Int :=
  signedOf 16 (getPair 0 (bank * 128 + a.val * 32 + b.val * 8 + i) m.motion.qdr.coef)

/-- The commanded acceleration of source `b` (R165). -/
def sourceAcc (m : Mach) (b : Actuator) : Int := if m.outOfService b then 0 else m.motion.prg[b].inForceA

/-- QDR_STAT.SWITCHED shows the destinations on bank BANK (R168). -/
def syncSwitched (m : Mach) : Mach :=
  m.set QDR_STAT_SWITCHED ((allFin 4).foldl (fun s a =>
    if m.motion.qdr.banks[a] = m.get QDR_CTRL_BANK then s + 2 ^ a.val else s) 0)

/-- QDR_OUT of a destination. -/
def setQdrOut (m : Mach) (a : Actuator) (out : Int) (sat : Bool) : Mach :=
  (m.setS (QDR_OUT_OUT a.val) out).setFlag (QDR_OUT_SAT a.val) sat

/-- The Quadrille output at an apply instant of destination `a` (R165–R168). -/
def quadrilleStep (m : Mach) (a : Actuator) : Int × Mach :=
  let m := (m.setQdr fun q => { q with banks := q.banks.set a (m.get QDR_CTRL_BANK) }).syncSwitched
  if m.outOfService a ∨ ¬ m.is QDR_CTRL_EN then
    (0, (m.setQdr fun q => { q with lines := q.lines.set a (Vector.replicate 4 []) }).setQdrOut a 0 false)
  else
    let lines : Vector (List Int) 4 := Vector.ofFn fun b => (m.sourceAcc b :: m.motion.qdr.lines[a][b]).take 8
    let bank := m.motion.qdr.banks[a]
    let q : Int := (allFin 4).foldl (fun s b =>
      (List.range 8).foldl (fun s i => s + m.qdrCoef bank a b i * lines[b].getD i 0) s) 0
    let raw := roundDiv q (2 ^ 28)
    let lim : Int := (m.get QDR_CTRL_LIM : Nat)
    let out := clampInt (-lim) lim raw
    (out, (m.setQdr fun q => { q with lines := q.lines.set a lines }).setQdrOut a out (out != raw))

/-- QDR_PHASEn (R164), F-SEQ cycles since A0's latest apply instant. -/
def phaseStep (m : Mach) (a : Actuator) : Mach :=
  let now := m.clock
  let m := m.setQdr fun q => { q with applied := q.applied.set a (some now) }
  match m.motion.qdr.applied[(0 : Fin 4)] with
  | some t => (m.set (QDR_PHASE_PHASE a.val) ((now - t) / seqPeriods)).set (QDR_PHASE_VALID a.val) 1
  | none => m

/-! ### The apply instant (R146–R148, R154, R155, R187–R189) -/

/-- A posted microactuator code within ±32,767 (R154). -/
def maCode (v : Int) : Int := max (-32767) v

/-- One microactuator at the apply instant: the drive in force and whether it was clamped (R155, R189). -/
def maApply (m : Mach) (a : Actuator) (k : HeadSlot) (cmd : Int) : Int × Bool :=
  if !m.slotEn a k || m.motion.srv[a].faulted || m.is (QDR_ACT_PARKED a.val) || m.die.level == 4 ||
      m.die.retract[a] != .none then (0, false)
  else
    let lim : Int := (m.get (if k = 0 then SRV_MALIM_LIM0 a.val else SRV_MALIM_LIM1 a.val) : Nat)
    let v := clampInt (-lim) lim (maCode cmd)
    (v, v != maCode cmd)

/-- The magnitudes of the other three references in force (R188). -/
def otherRefs (m : Mach) (a : Actuator) : Nat :=
  (allFin 4).foldl (fun s b => if b = a then s else s + m.die.vcmRef[b].natAbs) 0

/-- The continuous limit, 100 µA (R187). -/
def contLimit (m : Mach) (a : Actuator) : Nat := 10 * min 2000 (m.get (VCM_LIM_CONT a.val))

/-- The continuous clamp acts: from a mean of i² above CONT² until it falls below (0.9 × CONT)² (R187). -/
def contActs (m : Mach) (a : Actuator) : Bool :=
  let c := m.contLimit a
  if 20000 * (c * c) < m.die.meanSq[a] then true
  else if 100 * m.die.meanSq[a] < 20000 * (81 * (c * c)) then false
  else m.die.contClamp[a]

/-- The power die takes a VCM command (R187, R188, R206). -/
def vcmApply (m : Mach) (a : Actuator) (cmd : Int) : Mach :=
  if !m.die.servo[a] then m else
  let slow := decide (3 ≤ m.die.level)
  let peak : Int := ((10 * (if slow then min 1000 (min 3000 (m.get (VCM_LIM_PEAK a.val)))
    else min 3000 (m.get (VCM_LIM_PEAK a.val))) : Nat) : Int)
  let c1 := clampInt (-peak) peak cmd
  let acts := m.contActs a
  let lim : Int := (m.contLimit a : Nat)
  let c2 := if acts then clampInt (-lim) lim c1 else c1
  let others := m.otherRefs a
  let clipped := decide (60000 < c2.natAbs + others)
  let room : Int := ((60000 - others : Nat) : Int)
  let c3 := if clipped then clampInt (-room) room c2 else c2
  let c4 := if m.die.level = 4 then 0 else c3
  let m := m.setDie fun d => { d with vcmRef := d.vcmRef.set a c4, contClamp := d.contClamp.set a acts }
  (((m.setFlag (VCM_STAT_CLIP_PEAK a.val) (c1 != cmd)).setFlag (VCM_STAT_CLIP_CONT a.val) acts).setFlag
    (VCM_STAT_CLIP_SUM a.val) clipped).setFlag (VCM_STAT_CLIP_OV a.val) slow

/-- A load's bridge changes to servo mode once the lead slot is locked (R210). -/
def loadLock (m : Mach) (a : Actuator) : Mach :=
  if m.die.loading[a] && m.slotLocked a (m.leadSlot a) then
    (m.setDie fun d => { d with loading := d.loading.set a false, servo := d.servo.set a true }).set (VCM_STAT_MODE a.val) 1
  else m

end Mach

/-- A change of SRV_CFG.LEAD takes effect (R152). -/
def Mach.leadTake (m : Mach) (a : Actuator) : Mach :=
  match m.motion.srv[a].leadNext with
  | some k => (m.set (SRV_CFG_LEAD a.val) k.val).setSrv a fun s => { s with leadNext := none }
  | none => m

/-- The currents of an apply instant: the micro-actuators of the last post, then the VCM with the QUADRILLE's output (R146,
R187–R189). -/
def Mach.applyCurrents (m : Mach) (a : Actuator) (out : Int) : Mach :=
  let (vcm, ma0, ma1) : Int × Int × Int := match m.motion.srv[a].lastPost with
    | some p => (p.vcm, p.ma0, p.ma1)
    | none => (0, 0, 0)
  let (v0, c0) := m.maApply a 0 ma0
  let (v1, c1) := m.maApply a 1 ma1
  let m := m.setMaRef a #v[v0, v1]
  let m := m.set (SRV_STAT_MA_CLAMP a.val) (bitNat c0 + 2 * bitNat c1)
  let m := m.when (c0 || c1) (·.dropWsafe a)
  if m.outOfService a then m
  else m.vcmApply a (clampInt (-32767) 32767 (vcm + out))

/-- The sample of an actuator's apply instant, unless it has been taken with another instant of the same F-SEQ cycle (R165). -/
def Mach.ownStep (m : Mach) (a : Actuator) : Mach :=
  if m.motion.prg[a].ahead then m.setPrg a fun p => { p with ahead := false } else m.profileStep a

/-- Another actuator's apply instant falls into the same F-SEQ cycle: its profile is advanced now (R165). -/
def Mach.stepAhead (m : Mach) (b : Actuator) : Mach :=
  if m.motion.prg[b].ahead then m else (m.profileStep b).setPrg b fun p => { p with ahead := true }

/-- APPLY_INSTANT (R146, R148, R152, R155–R157, R161, R164–R168, R187–R189, R210). `same` are the actuators whose apply
instants fall into the same F-SEQ cycle and whose commands follow. -/
def applyInstant (a : Actuator) (same : BitVec 4) (m : Mach) : Mach :=
  let m := ((m.leadTake a).loadLock a).ownStep a
  let m := (allFin 4).foldl (fun (m : Mach) b => if same.getLsbD b.val && b != a then m.stepAhead b else m) m
  let (out, m) := (m.phaseStep a).quadrilleStep a
  m.applyCurrents a out

/-! ### Register writes of Quadrille -/

/-- QDR_BANK_WRITE (R167, R168): a write of QDR_CTRL; while EN is 0 every output is 0 and every delay line is held at
zero. -/
def qdrBankWrite (w : Word) (m : Mach) : Mach :=
  let m := ((m.set QDR_CTRL_EN (getBits w 0 1)).set QDR_CTRL_BANK (getBits w 1 1)).set QDR_CTRL_LIM (getBits w 16 15)
  let m := m.syncSwitched
  if m.is QDR_CTRL_EN then m
  else
    let m := m.setQdr fun q => { q with lines := Vector.replicate 4 (Vector.replicate 4 []) }
    (allFin 4).foldl (fun m a => m.setQdrOut a 0 false) m

/-- What QDR_COEF reads: the entry at ADDR (R168). -/
def Mach.qdrCoefRead (m : Mach) : Word :=
  let addr := m.get QDR_COEF_ADDR
  setBits (m.word QDR_COEF_ADDR.addr) 0 16 (getPair 0 addr m.motion.qdr.coef)

/-- QDR_COEF_WRITE (R168): stores DATA at ADDR, or is ignored for the live bank. -/
def qdrCoefWrite (w : Word) (m : Mach) : Mach :=
  let addr := getBits w 16 8
  let m := m.set QDR_COEF_ADDR addr
  if addr / 128 = m.get QDR_CTRL_BANK then m.flagEvent QDR_ERR_COEF_IGN (32 * 30 + 10)
  else m.setQdr fun q => { q with coef := putPair 0 addr (getBits w 0 16) q.coef }

/-! ### Actuator states (R179–R183) -/

/-- RO is set (R180). -/
def Mach.setRo (m : Mach) (a : Actuator) : Mach := (m.set (QDR_ACT_RO a.val) 1).syncAct a

/-- A write of 1 to QUAL (R181): ends requalification, or is ignored. -/
def qualWrite (a : Actuator) (m : Mach) : Mach :=
  let rro := (m.slotEn a 0 && !m.bitAt (SRV_STAT_RRO_VALID a.val) 0) || (m.slotEn a 1 && !m.bitAt (SRV_STAT_RRO_VALID a.val) 1)
  if !m.motion.srv[a].faulted && !m.is (QDR_ACT_DEPOP a.val) && m.slotLocked a (m.leadSlot a) && !rro then
    (m.set (QDR_ACT_RO a.val) 0).syncAct a
  else m.flagEvent QDR_ERR_QUAL (32 * 30 + 11)

/-- HEAD_DEPOP of a head, with the persistent copy (R183); a head newly depopulated is reported (Table 18-1). -/
def Mach.setHeadDepop (m : Mach) (a : Actuator) (h : Nat) (b : Bool) : Mach :=
  let m := m.when (b && !m.bitAt (QDR_ACT_HEAD_DEPOP a.val) h) (·.report (32 * 35 + 25))
  let m := m.setBitAt (QDR_ACT_HEAD_DEPOP a.val) h b
  { m with motion := { m.motion with headDepop := m.motion.headDepop.set a (m.get (QDR_ACT_HEAD_DEPOP a.val)) } }

/-- The tolerance of a table of Table 7-4 in generations: the configuration image's, or the default. -/
def tableTolerance (t : Nat) : Nat := (Config.tableTolerance t).getD ([4, 3, 1, 2].getD t 0)

/-- A table of a head is fresh (R182). -/
def Mach.tableFresh (m : Mach) (a : Actuator) (h t : Nat) : Bool :=
  match m.motion.tables[a].lookup (4 * h + t) with
  | some g => decide ((m.get (QDR_ACT_TDG a.val) + 65536 - g) % 65536 ≤ tableTolerance t)
  | none => false

/-- The actuator has the head. -/
def headExists (a : Actuator) (h : Nat) : Bool := h == 0 || decide (h < Config.headCount a.val)

/-- Test a table of a head (R182, R183): one that is not fresh is measured again, and its generation stored; `bad` holds the
outcomes of the measurements, bit 4h + t where that of table t of head h lies outside its range: the head is depopulated. -/
def Mach.testTable (a : Actuator) (bad : BitVec 24) (m : Mach) (h t : Nat) : Mach :=
  if !headExists a h || m.bitAt (QDR_ACT_HEAD_DEPOP a.val) h || m.tableFresh a h t then m
  else if bad.getLsbD (4 * h + t) then m.setHeadDepop a h true
  else
    let g := m.get (QDR_ACT_TDG a.val)
    { m with motion := { m.motion with
      tables := updAt m.motion.tables a fun l => insertPair (4 * h + t) g (l.filter (·.1 != 4 * h + t)) } }

/-- Every table of every head of the actuator is tested (Table 7-4). -/
def Mach.testTables (m : Mach) (a : Actuator) (bad : BitVec 24) : Mach :=
  (List.range 6).foldl (fun m h => (List.range 4).foldl (fun m t => m.testTable a bad h t) m) m

/-- Every head of the actuator has failed (R182). -/
def Mach.headsGone (m : Mach) (a : Actuator) : Bool :=
  (List.range 6).all fun h => !headExists a h || m.bitAt (QDR_ACT_HEAD_DEPOP a.val) h

/-- QUAL (R179, R181–R183): Ibzin tests every table of the loaded heads and then writes QUAL; when every head fails, the
requalification fails, and the actuator is retracted and depopulated. -/
def qual (a : Actuator) (bad : BitVec 24) (m : Mach) : Mach :=
  let m := m.testTables a bad
  if m.headsGone a then
    let m := { m with motion := { m.motion with depopDue := m.motion.depopDue.set a true } }
    if m.is (QDR_ACT_PARKED a.val) then m.parkWork a else m.startRetract a
  else qualWrite a m

/-- DEPOP_WRITE (R180, R183): depopulates a parked actuator, or reinstates it with RO set and every table not fresh. -/
def depopWrite (a : Actuator) (b : Bool) (m : Mach) : Mach :=
  if b then
    if m.is (QDR_ACT_PARKED a.val) then
      let m := m.when (!m.is (QDR_ACT_DEPOP a.val)) (·.report (32 * 35 + 25))
      let m := { m with motion := { m.motion with depop := m.motion.depop.set a true } }
      ((m.set (QDR_ACT_DEPOP a.val) 1).clearQdrOut a).syncAct a
    else m.flagEvent QDR_ERR_DEPOP (32 * 30 + 12)
  else
    let m := { m with motion := { m.motion with depop := m.motion.depop.set a false, tables := m.motion.tables.set a [] } }
    (m.set (QDR_ACT_DEPOP a.val) 0).setRo a

/-- FAULT_END (R179, R180): all fault bits are 0 and the heads are parked: RO is set. Beyond three faults in 24 hours Ibzin
depopulates the actuator. -/
def faultEnd (a : Actuator) (m : Mach) : Mach :=
  if m.motion.srv[a].faulted && m.get ⟨REG_SRV_FAULT a.val, 0, 4⟩ == 0 && m.is (QDR_ACT_PARKED a.val) then
    let m := (m.setSrv a fun s => { s with faulted := false, missRun := 0, railRun := 0 }).setRo a
    m.when (decide (3 < m.recentFaults a)) (depopWrite a true)
  else m

/-- PREAMP_TEMPERATURE_READ (R182): TDG advances when the temperature has moved 3 °C since its last advance. -/
def preampTemperatureRead (a : Actuator) (temp : Int) (m : Mach) : Mach :=
  let put (m : Mach) : Mach := { m with motion := { m.motion with tdgTemp := m.motion.tdgTemp.set a (some temp) } }
  match m.motion.tdgTemp[a] with
  | none => put m
  | some t => if 3 ≤ (temp - t).natAbs then put (m.incWrap (QDR_ACT_TDG a.val) 1) else m

/-- The generator is idle for a block reset (R163). -/
def Mach.prgIdle (m : Mach) : Bool := (allFin 4).all fun a => m.profileIdle a

/-- The generator leaves block reset (R161, R163). -/
def Mach.clearPrg (m : Mach) : Mach :=
  (allFin 4).foldl (fun m a => m.setPrg a fun _ => PrgState.initial) m

/-- Quadrille leaves block reset (R382). -/
def Mach.clearQdr (m : Mach) : Mach := m.setQdr fun _ => QdrState.initial

end Sys2Proof.Machine
end

