-- ==== Sys2Proof/Machine/Observer.lean ====
section
/-! DEFINITION. The arithmetic of the power stage: the hysteretic current engines, the two-axis transform, angles and
magnitudes (R185, R186, R194). -/
namespace Sys2Proof.Machine

/-! ### The current engines (R185, R186) -/

/-- What an engine works by: the reference and half the band in 100 µA, BLANK in F-PER cycles, the decay that it applies, and S
of its load. -/
structure EngineRef where
  ref   : Int
  half  : Nat
  blank : Nat
  decay : SwitchState
  slope : Nat
  deriving DecidableEq, Repr

/-- The largest distance of the current from the reference, B ÷ 2 + S · t_BLANK (R186). -/
def EngineRef.bound (r : EngineRef) : Nat := r.half + r.slope * r.blank / 1000

/-- The sample that an engine takes of the sensed current (R186). -/
def EngineRef.sampled (r : EngineRef) (i : Int) : Int := clampInt (r.ref - r.bound) (r.ref + r.bound) i

/-- The switch state that the comparator asks for: drive below the band, decay above it (R185). -/
def EngineRef.wanted (r : EngineRef) (sw : SwitchState) (i : Int) : SwitchState :=
  if i < r.ref - r.half then .drive else if r.ref + r.half < i then r.decay
  else if sw = .off then .drive else sw

/-- One F-PER cycle of an engine at the sensed current `i`: blanking holds the switch; a new edge before the eight cycles of the
sampling window have passed leaves the previous sample (R185, R186). -/
def CurEngine.cycle (r : EngineRef) (e : CurEngine) (i : Int) : CurEngine :=
  if 0 < e.blank then { e with blank := e.blank - 1, window := if e.blank = 1 then 8 else 0 }
  else
    let sw := r.wanted e.sw i
    if sw ≠ e.sw then { e with sw := sw, blank := r.blank, window := 0 }
    else if e.window = 1 then { e with window := 0, sample := r.sampled i }
    else { e with window := e.window - 1 }

/-- An engine over the F-PER cycles of one observer update, at most 1,000. -/
def CurEngine.run (e : CurEngine) (r : EngineRef) (is : List Int) : CurEngine := (is.take 1000).foldl (CurEngine.cycle r) e

/-- An engine whose bridge is off carries no current (R194). -/
def CurEngine.stop (e : CurEngine) : CurEngine := { e with sw := .off, blank := 0, window := 0, sample := 0 }

/-! ### Angles and magnitudes (R194) -/

/-- atan 2^−i in 2^−20 turn. -/
def atanTable : List Nat := [131072, 77376, 40884, 20753, 10417, 5213, 2607, 1304, 652, 326, 163, 81, 41, 20, 10, 5, 3, 1]

/-- Turn the vector (x, y) onto the axis; the third component is the angle turned, in 2^−20 turn. -/
def vectoring : List Nat → Nat → Int × Int × Int → Int
  | [], _, v => v.2.2
  | t :: ts, i, (x, y, z) =>
    if 0 < y then vectoring ts (i + 1) (x + y / 2 ^ i, y - x / 2 ^ i, z + t)
    else vectoring ts (i + 1) (x - y / 2 ^ i, y + x / 2 ^ i, z - t)

/-- The angle of a vector in 1/4,096 turn. -/
def angleOf (x y : Int) : Nat :=
  let z := if x < 0 then 524288 + vectoring atanTable 0 (-x * 65536, -y * 65536, 0)
    else vectoring atanTable 0 (x * 65536, y * 65536, 0)
  codeOf 12 ((z + 128) / 256)

/-- Turn the vector (x, y) by an angle of `z` in 2^−20 turn. -/
def rotating : List Nat → Nat → Int × Int × Int → Int × Int
  | [], _, v => (v.1, v.2.1)
  | t :: ts, i, (x, y, z) =>
    if 0 < z then rotating ts (i + 1) (x - y / 2 ^ i, y + x / 2 ^ i, z - t)
    else rotating ts (i + 1) (x + y / 2 ^ i, y - x / 2 ^ i, z + t)

/-- 2^30 times the cosine of an angle in 1/4,096 turn. -/
def cosine (a : Nat) : Int :=
  let a := a % 4096
  let c (r : Nat) : Int := (rotating atanTable 0 (652032874, 0, ((256 * r : Nat) : Int))).1
  if a ≤ 1024 then c a else if a ≤ 2048 then -c (2048 - a) else if a ≤ 3072 then -c (a - 2048) else c (4096 - a)

/-- The integer square root, bit by bit from `k`. -/
def rootFrom : Nat → Nat → Nat → Nat
  | 0, _, r => r
  | k + 1, n, r => rootFrom k n (if (r + 2 ^ k) * (r + 2 ^ k) ≤ n then r + 2 ^ k else r)

/-- The integer square root. -/
def rootOf (n : Nat) : Nat := rootFrom 48 n 0

/-- Three times the two-axis components of three phase quantities. -/
def twoAxis (u v w : Int) : Int × Int := (2 * u - v - w, (v - w) * 113512 / 65536)

/-- The difference of two angles in 1/4,096 turn, −2,048 to 2,047. -/
def angleDiff (a b : Nat) : Int := signedOf 12 (a + 4096 - b % 4096)

/-- The references of phases U, V and W for a current vector of `mag` mA at an angle, in 100 µA; W carries the negated sum of
the others (R185). -/
def phaseRefs (mag angle : Nat) : Vector Int 3 :=
  let u := 10 * (mag : Int) * cosine angle / 2 ^ 30
  let v := 10 * (mag : Int) * cosine (angle + 4096 - 1365) / 2 ^ 30
  #v[u, v, -(u + v)]

end Sys2Proof.Machine
end

