-- ==== Sys2Proof/Machine/Spindle.lean ====
section
/-! DEFINITION. The spindle, braking, the overvoltage ladder, driver protections, load and unload
(spec/08_motor_and_power_stage.md). -/
namespace Sys2Proof.Machine

namespace Mach

/-- Update the spindle controller. -/
def setSpn (m : Mach) (f : Spindle → Spindle) : Mach := { m with spn := f m.spn }

/-- SPN_STAT.STATE: 0 STOPPED, 1 LISTEN, 2 STOPBRAKE, 3 ALIGN, 4 RAMP, 5 RUN, 6 CATCH, 7 STOPPING, 8 FAULT. -/
def spnState (m : Mach) : Nat := m.get SPN_STAT_STATE

/-- Bridge action. -/
def setBridge (m : Mach) (b : BridgeState) : Mach := m.setDie fun d => { d with bridge := b }

/-- Event source `b` of EG30 (Table 18-1). -/
def spnSource (b : Nat) : Nat := 32 * 30 + b

/-- Pole pairs, within 2–8. -/
def polePairs (m : Mach) : Nat := max 2 (min 8 (m.get SPN_MOTOR_PP))

/-- HAND_RPM within 300–1,000, in 1/16 rpm. -/
def handSpeed (m : Mach) : Nat := 16 * max 300 (min 1000 (m.get SPN_PROM_HAND_RPM))

/-- Bridge action; while ladder level L2 or L3 holds the phases float in every state (R206). -/
def actBridge (m : Mach) (b : BridgeState) : Mach := m.setBridge (if 3 ≤ m.die.level then .float else b)

/-- The phases float; the observer's periods count anew (R191, R194, Table 8-3). -/
def floatPhases (m : Mach) : Mach :=
  let m := (m.setBridge .float).setSpn fun s =>
    { s with periods := 0, badRun := 0, prevSpeed := 0, phaseRef := Vector.replicate 3 0, rampIn := none
             obs := { s.obs with turn := 0, updates := 0, back := 0, load := none, sum := 0 } }
  (((m.set SPN_SPEED_VALID 0).set SPN_SPEED_SPEED 0).set SPN_OBS_ANGLE 0).set SPN_STAT_CONF 0

/-- The spindle write inhibit rises: the write-safe flags of all four actuators fall (R198, R200, Table 6-5). -/
def raiseInhibit (m : Mach) : Mach :=
  let m := (m.set SPN_STAT_INHIBIT 1).setSpn fun s => { s with cleanPeriods := 0 }
  (allFin 4).foldl (fun m a => m.dropWsafe a) m

/-- Enter a state; every state other than RUN has no target and holds the inhibit (R200). -/
def spnEnter (m : Mach) (st : Nat) : Mach :=
  let m := m.set SPN_STAT_STATE st
  if st = 5 then m else ((m.setSpn fun s => { s with attempt := false }).set SPN_TARGET_TARGET 0).raiseInhibit

/-- L_ON. -/
def levelOn (m : Mach) : Nat := m.get SPN_CURVE_CFG_L_ON

/-- L_OFF; L_ON − 1 where it is not below L_ON (R203). -/
def levelOff (m : Mach) : Nat :=
  if m.levelOn ≤ m.get SPN_CURVE_CFG_L_OFF then m.levelOn - 1 else m.get SPN_CURVE_CFG_L_OFF

/-- The valid points of the curve, level and speed in rpm, in order; a point that does not rise above the last valid one
is ignored (R202). -/
def curvePoints (m : Mach) : List (Nat × Nat) :=
  (List.range 16).foldl (fun ps k =>
    let l := m.get (SPN_CURVE_LEVEL k)
    let r := max 3600 (min 10000 (m.get (SPN_CURVE_RPM k)))
    match ps.getLast? with
    | some p => if p.1 < l then ps ++ [(l, r)] else ps
    | none => [(l, r)]) []

/-- The curve speed of a demand, 1/16 rpm (R202). -/
def curveSpeed : List (Nat × Nat) → Nat → Nat
  | [], _ => 0
  | [p], _ => 16 * p.2
  | p :: q :: ps, d =>
    if d ≤ p.1 then 16 * p.2
    else if d < q.1 then
      ((16 * (p.2 : Int) * ((q.1 : Int) - p.1) + 16 * ((q.2 : Int) - p.2) * ((d : Int) - p.1)) / ((q.1 : Int) - p.1)).toNat
    else curveSpeed (q :: ps) d

/-- Every actuator reports PARKED. -/
def allParked (m : Mach) : Bool := (allFin 4).all fun a => m.is (VCM_STAT_PARKED a.val)

/-- A chopper that is faulty and not acknowledged refuses stops (R207). -/
def stopRefused (m : Mach) : Bool := m.is SPN_BRK_FAULT && !m.is SPN_BRK_ACK

/-- A cause of the write inhibit holds in RUN (R200). -/
def inhibitCause (m : Mach) : Bool :=
  let v := m.get SPN_SPEED_SPEED
  let t := m.get SPN_TARGET_TARGET
  m.spnState != 5 || t != m.spn.goal || decide (3 ≤ m.die.level) ||
    decide (m.get SPN_INH_BAND * t < 10000 * ((v : Int) - t).natAbs)

/-- The write inhibit rises as soon as one of its causes holds (R200). -/
def inhibitNow (m : Mach) : Mach :=
  if !m.inhibitCause then m
  else if m.is SPN_STAT_INHIBIT then m.setSpn fun s => { s with cleanPeriods := 0 }
  else m.raiseInhibit

/-- The spindle acts on the demand and SPN_CTRL.EN (R191, R202–R204, R207). -/
def demandAct (m : Mach) : Mach :=
  let level := m.get SPN_DEMAND_LEVEL
  let on := m.is SPN_CTRL_EN && decide (m.levelOn ≤ level)
  let off := !m.is SPN_CTRL_EN || decide (level < m.levelOff)
  let pts := m.curvePoints
  let m := m.when (decide (pts.length < 16)) fun m => m.flagEvent SPN_ERR_CURVE (spnSource 5)
  let st := m.spnState
  if st = 0 then
    if on then
      let m := (m.spnEnter 1).setSpn fun s => { s with listenConf := 0, listenAll := true, selfTest := true, forceShort := false, emfPeak := 0 }
      (m.floatPhases).set SPN_STAT_ATTEMPT 0
    else m
  else if st = 5 then
    if off then
      if m.stopRefused then
        ((m.setSpn fun s => { s with stopDue := false }).set SPN_STAT_WAIT_PARK 0).set SPN_STAT_WAIT_ACK 1
      else
        ((m.setSpn fun s => { s with stopDue := true }).set SPN_STAT_WAIT_ACK 0).setFlag SPN_STAT_WAIT_PARK (!m.allParked)
    else
      let m := m.setSpn fun s => { s with stopDue := false, goal := curveSpeed pts level }
      ((m.set SPN_STAT_WAIT_PARK 0).set SPN_STAT_WAIT_ACK 0).inhibitNow
  else if st = 7 then
    if on then
      let m := m.floatPhases
      (m.spnEnter 1).setSpn fun s => { s with listenConf := 0, listenAll := true, forceShort := false, emfPeak := 0 }
    else m
  else m

/-- Commutation at the observer angle: RUN (R191, R198). The target starts from the measured speed and is slewed to the
curve's. -/
def enterRun (m : Mach) : Mach :=
  let m := (m.actBridge .drive).spnEnter 5
  let m := (m.set SPN_TARGET_TARGET (m.get SPN_SPEED_SPEED)).setSpn fun s =>
    { s with goal := m.get SPN_SPEED_SPEED, slewAcc := 0, cleanPeriods := 0, badRun := 0 }
  m.demandAct

/-- The current limit START, at most 4,000 mA. -/
def startLimit (m : Mach) : Nat := min 4000 (m.get SPN_ILIM_START)

/-- The current limit RUN, at most 4,000 mA. -/
def runLimit (m : Mach) : Nat := min 4000 (m.get SPN_ILIM_RUN)

/-- Step 5: the speed loop starts from ILIM.START, and the Promenade attempt is open until the write inhibit is released
(R191, R193). -/
def handOver (m : Mach) : Mach :=
  let i := m.startLimit
  (m.enterRun).setSpn fun s => { s with loop := i, rampIn := none, attempt := true }

/-- The spindle is re-caught: the current magnitude ramps from 0 (R198). -/
def recatch (m : Mach) : Mach := (m.enterRun).setSpn fun s => { s with rampIn := some 0 }

/-- The spindle enters CATCH with its timer started (R198, R206). -/
def enterCatch (m : Mach) : Mach := m.spnEnter 6

/-- Step 2 of Table 8-2: short brake. -/
def enterStopbrake (m : Mach) : Mach := (m.actBridge .short).spnEnter 2

/-- A Promenade attempt fails (R193). -/
def attemptFail (m : Mach) : Mach :=
  let n := min 3 (m.get SPN_STAT_ATTEMPT + 1)
  let m := (m.floatPhases).set SPN_STAT_ATTEMPT n
  if n = 3 then (m.flagEvent SPN_FAULT_SPIN_FAIL (spnSource 2)).spnEnter 8 else m.enterStopbrake

/-- A catch fails (R199): retract, short brake, and Promenade again with ATTEMPT at 0. -/
def catchFail (m : Mach) : Mach :=
  let m := (m.incSat SPN_CNT_CATCH_FAIL 1).report (spnSource 1)
  ((m.retractAll).set SPN_STAT_ATTEMPT 0).enterStopbrake

/-- Loss of synchronism: within a Promenade attempt that has handed over, the attempt fails (R193); otherwise, in RUN the write
inhibit rises at once and the next observer update floats the phases (R198); a stop continues by short brake (R199). -/
def syncLoss (m : Mach) : Mach :=
  let m := (m.incSat SPN_CNT_LOSS 1).report (spnSource 0)
  if m.spnState = 5 then
    if m.spn.attempt then m.attemptFail else (m.raiseInhibit).setSpn fun s => { s with lossDue := true }
  else (m.setSpn fun s => { s with forceShort := true }).actBridge .short

/-- Handover with the Ke check (R191, R197). -/
def handover (m : Mach) : Mach :=
  let h := m.spn.keHist.take 32
  let meas := h.foldl (· + ·) 0 / (1000 * max 1 h.length)
  let nom := m.get SPN_KE_NOM
  let m := m.set SPN_KE_MEAS (min 65535 meas)
  if m.is SPN_CTRL_KE_CHECK && decide (15 * nom < 100 * ((meas : Int) - nom).natAbs) then
    ((m.floatPhases).flagEvent SPN_FAULT_KE (spnSource 3)).spnEnter 8
  else m.handOver

/-- One electrical period for the write inhibit (R200). -/
def inhibitPeriod (m : Mach) : Mach :=
  if m.inhibitCause then m.inhibitNow else m.setSpn fun s => { s with cleanPeriods := s.cleanPeriods + 1 }

end Mach

/-! ### Promenade and the observer -/

/-- SPN_DEMAND_WRITE (R203). -/
def spnDemandWrite (level : BitVec 8) (m : Mach) : Mach := (m.set SPN_DEMAND_LEVEL level.toNat).demandAct

/-- SPN_CTRL_WRITE (R191, R204, R428). -/
def spnCtrlWrite (w : Word) (m : Mach) : Mach :=
  (((m.set SPN_CTRL_EN (getBits w 0 1)).set SPN_CTRL_BRAKE (getBits w 1 2)).set SPN_CTRL_KE_CHECK (getBits w 3 1)).demandAct

/-- Step 3 of Table 8-2: ILIM.START along electrical angle 0. -/
def Mach.enterAlign (m : Mach) : Mach :=
  let refs := phaseRefs m.startLimit 0
  ((m.actBridge .drive).spnEnter 3).setSpn fun s => { s with phaseRef := refs }

/-- LISTEN_END (R191): the 50 ms are over. -/
def listenEnd (m : Mach) : Mach :=
  if m.spnState ≠ 1 then m
  else if 2 ≤ m.spn.listenConf ∧ m.spn.listenAll ∧ m.handSpeed ≤ m.get SPN_SPEED_SPEED then m.enterCatch
  else if 50 ≤ m.spn.emfPeak then m.enterStopbrake
  else m.enterAlign

/-- STOPBRAKE_END (R191): back-EMF below 50 mV peak for 500 ms. -/
def stopbrakeEnd (m : Mach) : Mach := if m.spnState = 2 then m.enterAlign else m

/-- ALIGN_END (R191): the ramp starts from frequency 0; the observer's period count starts anew after the align. -/
def alignEnd (m : Mach) : Mach :=
  if m.spnState = 3 then
    let m := ((m.spnEnter 4).actBridge .drive).setSpn fun s =>
      { s with rampAcc := 0, openAngle := 0, periods := 0, keHist := [], prevSpeed := 0
               obs := { s.obs with turn := 0, updates := 0, back := 0, load := none, sum := 0 } }
    (((m.set SPN_SPEED_VALID 0).set SPN_SPEED_SPEED 0).set SPN_OBS_ANGLE 0).set SPN_STAT_CONF 0
  else m

/-- The ramp's reference has reached HAND_RPM (Table 8-2). -/
def Mach.rampAtHand (m : Mach) : Bool := decide (200000 * m.handSpeed ≤ m.spn.rampAcc)

/-- RAMP_TIMEOUT (R193): 2,000 ms after the reference reached HAND_RPM. -/
def rampTimeout (m : Mach) : Mach := if m.spnState = 4 ∧ m.rampAtHand then m.attemptFail else m

/-- SPIN_PHASE_OVERCURRENT (R193): a phase current above 5,000 mA during a Promenade attempt. -/
def spinPhaseOvercurrent (m : Mach) : Mach :=
  let st := m.spnState
  if 1 ≤ st ∧ st ≤ 4 then m.attemptFail else m

/-- The handover test of step 5 (R191, R192). -/
def Mach.tryHandover (m : Mach) : Mach :=
  if m.spnState = 4 ∧ m.rampAtHand ∧ 32 ≤ m.get SPN_STAT_CONF then m.handover else m

/-- One 5 µs step of the target slew (R203). -/
def Mach.slewStep (m : Mach) : Mach :=
  let t := m.get SPN_TARGET_TARGET
  if m.spnState ≠ 5 ∨ t = m.spn.goal then m
  else
    let acc := m.spn.slewAcc + 16 * max 1 (m.get SPN_CURVE_CFG_SLEW)
    let k := acc / 200000
    let t' := if t < m.spn.goal then min m.spn.goal (t + k) else max m.spn.goal (t - k)
    ((m.set SPN_TARGET_TARGET t').setSpn fun s => { s with slewAcc := acc % 200000 }).inhibitNow

/-! ### The currents (R185–R192, R209) -/

/-- What a coil's engine works by (R185); slow decay only at L2 (R206). -/
def Mach.coilRef (m : Mach) (a : Actuator) : EngineRef where
  ref := m.die.vcmRef[a]
  half := 5 * max 2 (min 64 (m.get (VCM_CTRL_BAND a.val)))
  blank := max 16 (m.get (VCM_CTRL_BLANK a.val))
  decay := if 3 ≤ m.die.level then .slow else .fast
  slope := Config.loadSlope a.val

/-- What the engine of phase U (0) or V (1) works by (R185). -/
def Mach.phaseEngineRef (m : Mach) (k : Fin 2) : EngineRef where
  ref := m.spn.phaseRef[k.castLE (by omega : 2 ≤ 3)]
  half := 50 * max 1 (min 50 (m.get SPN_IBAND_BAND))
  blank := max 16 (m.get SPN_IBAND_BLANK)
  decay := .fast
  slope := Config.loadSlope (4 + k.val)

/-- The coils over one observer update: engines, the mean of i² with its 100 ms time constant, the back-EMF as coil voltage less
i × RCOIL (R185–R187, R209), and the sampled current in VCM_STAT.CUR. -/
def Mach.coilStep (m : Mach) (x : Sensed) (a : Actuator) : Mach :=
  let e := if m.get (VCM_STAT_MODE a.val) = 0 then m.die.vcmEng[a].stop else m.die.vcmEng[a].run (m.coilRef a) x.coils[a]
  let i := e.sample
  let emf := 10000 * x.coilMv[a] - i * (m.get (VCM_RCOIL_RCOIL a.val) : Nat)
  let m := m.setDie fun d => { d with
    vcmEng := d.vcmEng.set a e, emf := d.emf.set a emf
    meanSq := updAt d.meanSq a fun q => q + i.natAbs * i.natAbs - q / 20000 }
  m.setS (VCM_STAT_CUR a.val) i

/-- The continuous clamp and the back-EMF loop on the reference in force (R187, R209, R210). -/
def Mach.loopStep (m : Mach) (a : Actuator) : Mach :=
  if m.die.level = 4 then m
  else if m.die.servo[a] then
    let acts := m.contActs a
    let lim : Int := (m.contLimit a : Nat)
    let m := m.setDie fun d => { d with
      contClamp := d.contClamp.set a acts, vcmRef := if acts then updAt d.vcmRef a (clampInt (-lim) lim) else d.vcmRef }
    m.setFlag (VCM_STAT_CLIP_CONT a.val) acts
  else if m.die.retract[a] = .velocity then
    m.setDie fun d => { d with vcmRef := d.vcmRef.set a (m.emfRef a (m.rampSign a)) }
  else if m.die.loading[a] then
    m.setDie fun d => { d with vcmRef := d.vcmRef.set a (m.emfRef a (-(m.rampSign a))) }
  else m

/-- VCM_MA.LIMs: the 100 mA limit acts on an output that its load would take beyond (R189). -/
def Mach.maStep (m : Mach) (x : Sensed) (a : Actuator) : Mach :=
  let lim (k : Fin 2) : Bool := m.die.maRef[a][k] != 0 && decide (1000 ≤ x.ma[a][k].natAbs)
  (m.setFlag (VCM_MA_LIM0 a.val) (lim 0)).setFlag (VCM_MA_LIM1 a.val) (lim 1)

/-- The junction temperature as the power die reports it (R190). -/
def Mach.reportTemp (m : Mach) : Mach :=
  (m.set VCM_TEMP_TEMP m.die.junction).setFlag VCM_TEMP_WARN (decide (135 ≤ m.die.junction))

/-- The currents of phases U, V and W that the observer works by: the engines' samples while they regulate, 0 while the phases
float, the sensed currents while the low sides are on (R185, R186, R194). -/
def Mach.phaseCurrents (m : Mach) (x : Sensed) : Vector Int 3 × Mach :=
  let b := m.die.bridge
  let e (k : Fin 2) : CurEngine :=
    if b = .drive ∨ b = .regen then m.spn.eng[k].run (m.phaseEngineRef k) x.phases[k]
    else if b = .float then m.spn.eng[k].stop
    else { m.spn.eng[k].stop with sample := x.phases[k].getLastD 0 }
  (#v[(e 0).sample, (e 1).sample, -((e 0).sample + (e 1).sample)], m.setSpn fun s => { s with eng := #v[e 0, e 1] })

/-- The limit in force: START until the handover, RUN from then on (Table 8-2, R192, R204). -/
def Mach.limitInForce (m : Mach) : Nat := if m.spnState = 5 ∨ m.spnState = 7 then m.runLimit else m.startLimit

/-- Widen a range by a value. -/
def widen (x : Int) : Option (Int × Int) → Int × Int
  | none => (x, x)
  | some r => (min x r.1, max x r.2)

/-- One observer update: ψ = ∫(v − RPH·i) dt − LPH·i over 5 µs on the two axes, its angle, and what the period accumulates
(R194, R195). -/
def Mach.fluxStep (m : Mach) (v i : Vector Int 3) : FluxObs :=
  let o := m.spn.obs
  let (va, vb) := twoAxis v[(0 : Fin 3)] v[(1 : Fin 3)] v[(2 : Fin 3)]
  let (ia, ib) := twoAxis i[(0 : Fin 3)] i[(1 : Fin 3)] i[(2 : Fin 3)]
  let r : Int := (m.get SPN_MOTOR_RPH : Nat)
  let l : Int := 200 * (m.get SPN_MOTOR_LPH : Nat)
  let a := o.intA + (10000 * va - r * ia)
  let b := o.intB + (10000 * vb - r * ib)
  let (x, y) := (a - l * ia, b - l * ib)
  let psi := rootOf (x.natAbs * x.natAbs + y.natAbs * y.natAbs)
  let angle := angleOf x y
  let step := angleDiff angle o.angle
  let cur := ia.natAbs * ia.natAbs + ib.natAbs * ib.natAbs
  let applies := decide ((3 * m.limitInForce) * (3 * m.limitInForce) ≤ cur) && decide (0 < cur)
  { intA := a, intB := b, angle := angle, turn := o.turn + step, updates := o.updates + 1
    least := if o.updates = 0 then psi else min o.least psi
    most := if o.updates = 0 then psi else max o.most psi
    sum := o.sum + psi
    back := max o.back (-step).toNat
    load := if applies then some (widen (angleDiff (angleOf ia ib) angle) o.load) else o.load }

/-- The speed loop's magnitude in RUN and in a regenerative stop: its law is Ibzin's, so that it is a free value, up to ILIM.RUN;
after a catch it ramps from 0 over 10 ms (R192, R198, R204). -/
def Mach.loopMagnitude (m : Mach) : Nat × Mach :=
  let lim := m.runLimit
  let cmd := min lim m.spn.loop
  let mag := match m.spn.rampIn with
    | some k => cmd * min 2000 k / 2000
    | none => cmd
  let v := m.free
  (mag, (m.nextFree).setSpn fun s => { s with
    loop := min lim v
    rampIn := match s.rampIn with
      | some k => if 2000 ≤ k + 1 then none else some (k + 1)
      | none => none })

/-- The references of the phases for the next 5 µs: along angle 0, along the ramp's open-loop angle, or 90° plus ADV ahead of the
flux in RUN; the opposite vector in a regenerative stop (R191, R192, R204). -/
def Mach.vectorStep (m : Mach) : Mach :=
  let lead := m.spn.obs.angle + 1024 + min 60 (m.get SPN_IBAND_ADV) * 4096 / 360
  let st := m.spnState
  let put (m : Mach) (r : Vector Int 3) : Mach := m.setSpn fun s => { s with phaseRef := r }
  if m.die.bridge ≠ .drive ∧ m.die.bridge ≠ .regen then put m (Vector.replicate 3 0)
  else if st = 3 then put m (phaseRefs m.startLimit 0)
  else if st = 4 then put m (phaseRefs m.startLimit (m.spn.openAngle / 2 ^ 32))
  else if st = 5 then
    let (mag, m) := m.loopMagnitude
    put m (phaseRefs mag lead)
  else if st = 7 then
    let (mag, m) := m.loopMagnitude
    put m (phaseRefs mag (lead + 2048))
  else m

/-- The ramp over one observer update: the reference rises at RAMP_RATE to HAND_RPM, and the open-loop angle advances at its
electrical frequency (Table 8-2). -/
def Mach.rampStep (m : Mach) : Mach :=
  if m.spnState ≠ 4 then m
  else
    let rate := 16 * max 100 (min 1000 (m.get SPN_PROM_RAMP_RATE))
    let acc := min (200000 * m.handSpeed) (m.spn.rampAcc + rate)
    let adv := acc * m.polePairs * 4096 * 2 ^ 32 / (200000 * 960 * 200000)
    m.setSpn fun s => { s with rampAcc := acc, openAngle := (s.openAngle + adv) % 2 ^ 44 }

/-- OBSERVER_UPDATE (R185–R187, R189–R192, R194, R198, R203, R209): the 5 µs update of the converters `x`. A loss declared before
floats the phases and enters CATCH; the engines, the flux observer, the ramp's reference, the target slew and the current
vector advance. -/
def observerUpdate (x : Sensed) (m : Mach) : Mach :=
  let m := if m.spn.lossDue then
      (m.setSpn fun s => { s with lossDue := false }).when (m.spnState == 5) fun m => (m.floatPhases).enterCatch
    else m
  let m := (allFin 4).foldl (fun m a => (((m.coilStep x a).loopStep a).maStep x a)) m
  let m := (m.setDie fun d => { d with junction := x.junction.toNat }).reportTemp
  let (i, m) := m.phaseCurrents x
  let o := m.fluxStep x.volts i
  let peak := (allFin 3).foldl (fun s k => max s x.volts[k].natAbs) 0
  let m := m.setSpn fun s => { s with obs := o, emfPeak := max s.emfPeak peak }
  let m := if m.is SPN_SPEED_VALID then m.set SPN_OBS_ANGLE o.angle else m
  ((m.rampStep).slewStep).tryHandover.vectorStep

/-- The bridge brakes: negative torque (Table 8-3, R196). -/
def PowerDie.braking (d : PowerDie) : Bool := d.bridge == .regen || d.bridge == .rectify || d.bridge == .short

/-- What the observer has measured over the period that ends: |ψ| as nV/rpm and the speed in 1/16 rpm, averaged over the period
(R194, R195); none before an update of the period. -/
def Mach.periodMeas (m : Mach) : Option PeriodMeas :=
  let o := m.spn.obs
  if o.updates = 0 then none
  else
    let ke (psi : Nat) : Nat := psi * m.polePairs * 355 / (113 * 180000)
    some ⟨ke o.least, ke o.most, ke (o.sum / o.updates),
      min 262143 (192000000 * o.turn.toNat / (4096 * m.polePairs * o.updates)), o.back, o.load⟩

/-- `x` in 1/4,096 turn lies between two angles in degrees. -/
def within (lo hi x : Int) : Bool := decide (4096 * lo ≤ 360 * x) && decide (360 * x ≤ 4096 * hi)

/-- Tests T1–T4 (Table 8-3); a test that does not apply passes. -/
def Mach.periodTests (m : Mach) (p : PeriodMeas) : Bool × Bool × Bool × Bool :=
  let nom := 1000 * m.get SPN_KE_NOM
  let v := p.speed
  let t1 := decide (0 < nom) && decide (75 * nom ≤ 100 * p.fluxMin) && decide (100 * p.fluxMax ≤ 125 * nom)
  let t2 := m.spn.periods == 0 || decide (100 * ((v : Int) - m.spn.prevSpeed).natAbs ≤ 5 * m.spn.prevSpeed)
  let t3 := decide (p.back ≤ 16)
  let t4 := match p.load with
    | none => true
    | some x => if m.die.braking then within (-150) (-30) x.1 && within (-150) (-30) x.2
      else within 30 150 x.1 && within 30 150 x.2
  (t1, t2, t3, t4)

/-- The load angle lies outside half a turn (R196). -/
def Mach.loadLost (m : Mach) (p : PeriodMeas) : Bool :=
  match p.load with
  | none => false
  | some x => if m.die.braking then !(within (-180) 0 x.1 && within (-180) 0 x.2)
    else !(within 0 180 x.1 && within 0 180 x.2)

/-- The tests of a period on CONF, the speed and the histories (R195–R197). -/
def Mach.periodTake (m : Mach) (p : PeriodMeas) : Mach :=
  let v := p.speed
  let (t1, t2, t3, t4) := m.periodTests p
  let good := t1 && t2 && t3 && t4
  let m := m.set SPN_OBS_PASS (bitNat t1 + 2 * bitNat t2 + 4 * bitNat t3 + 8 * bitNat t4)
  let m := m.set SPN_STAT_CONF (if good then min 63 (m.get SPN_STAT_CONF + 1) else 0)
  let m := (m.set SPN_SPEED_SPEED v).set SPN_SPEED_VALID 1
  m.setSpn fun s => { s with
    periods := s.periods + 1, badRun := if good then 0 else s.badRun + 1, prevSpeed := v
    keHist := if good then (p.fluxAvg :: s.keHist).take 32 else s.keHist
    listenConf := if good then s.listenConf + 1 else s.listenConf
    listenAll := s.listenAll && good
    obs := { s.obs with turn := 0, updates := 0, back := 0, load := none, sum := 0 } }

/-- ELECTRICAL_PERIOD_END (R191, R192, R195–R201, R204): tests, CONF and speed, loss, handover, re-catch, the write inhibit. -/
def electricalPeriodEnd (m : Mach) : Mach :=
  match m.periodMeas with
  | none => m
  | some p =>
  let v := p.speed
  let lost := !(m.periodTests p).2.2.1 || m.loadLost p
  let m := m.periodTake p
  let st := m.spnState
  if (st = 5 ∨ st = 7) ∧ (2 ≤ m.spn.badRun ∨ lost = true) then (if m.spn.lossDue then m else m.syncLoss)
  else if st = 4 then m.tryHandover
  else if st = 6 then
    if v < m.handSpeed then m.catchFail
    else if 32 ≤ m.get SPN_STAT_CONF then m.recatch else m
  else if st = 7 then
    if v < m.handSpeed ∧ m.die.bridge = .regen then m.actBridge .short else m
  else if st = 5 then
    let m := m.inhibitPeriod
    if m.deltaSource.isNone && !m.spn.lossDue then
      let t := m.get SPN_TARGET_TARGET
      m.sendDelta (if t = 0 then 0 else clampInt (-167772) 167772 (((v * 16777216 / t : Nat) : Int) - 16777216))
    else m
  else m

/-- CATCH_TIMEOUT (R199). -/
def catchTimeout (m : Mach) : Mach := if m.spnState = 6 then m.catchFail else m

/-- INHIBIT_RELEASE (R200): no cause has held for REVS revolutions of PP electrical periods. -/
def inhibitRelease (m : Mach) : Mach :=
  if !m.inhibitCause && decide (max 1 (m.get SPN_INH_REVS) * m.polePairs ≤ m.spn.cleanPeriods) then
    ((m.setSpn fun s => { s with attempt := false }).set SPN_STAT_INHIBIT 0).set SPN_STAT_ATTEMPT 0
  else m

/-! ### Stopping, the chopper and the ladder (R204–R207) -/

/-- STOPPING_BEGIN (R204, R207): with every actuator parked, the ordered stop begins. -/
def stoppingBegin (m : Mach) : Mach :=
  if m.spnState = 5 ∧ m.spn.stopDue ∧ m.allParked ∧ ¬ m.stopRefused then
    let brake := m.get SPN_CTRL_BRAKE
    let b : BridgeState :=
      if m.is SPN_BRK_FAULT ∨ brake = 1 then .short else if brake = 2 then .float else .regen
    let m := (m.setSpn fun s => { s with stopDue := false, forceShort := false }).set SPN_STAT_WAIT_PARK 0
    ((m.spnEnter 7).actBridge b).set SPN_STAT_WAIT_ACK 0
  else m

/-- STOPPED_DETECT (R204): back-EMF below 50 mV peak for 500 ms. -/
def stoppedDetect (m : Mach) : Mach :=
  if m.spnState = 7 then ((m.floatPhases).spnEnter 0).setSpn fun s => { s with forceShort := false } else m

namespace Mach

/-- Ladder level and rail reading in 25 mV units. -/
def setLevel (m : Mach) (level v12 : Nat) : Mach :=
  let m := ((m.setDie fun d => { d with level := level }).set SPN_RAIL_LEVEL level).set SPN_RAIL_V12 v12
  (allFin 4).foldl (fun m a => m.setFlag (VCM_STAT_CLIP_OV a.val) (m.die.servo[a] && decide (3 ≤ level))) m

/-- A stop under way continues by short brake (R206, R207). -/
def forceShort (m : Mach) : Mach :=
  if m.spnState = 7 then (m.setSpn fun s => { s with forceShort := true }).actBridge .short else m

/-- The chopper becomes faulty (R207): 1 OPEN, 2 SHORT, 3 OVERVOLT. -/
def chopperFault (m : Mach) (cause : Nat) : Mach :=
  let m := m.when (cause == 2) (·.setDie fun d => { d with shorted := true })
  if m.is SPN_BRK_FAULT then m
  else (((m.set SPN_BRK_FAULT 1).set SPN_BRK_CAUSE cause).report (spnSource 4)).forceShort

/-- The chopper may conduct: a shorted one stays off (R205). -/
def chopperMay (m : Mach) : Bool := !(m.is SPN_BRK_FAULT && m.die.shorted)

end Mach

/-- CHOPPER_ON (R205): the rail reads 13.8 V. -/
def chopperOn (m : Mach) : Mach :=
  let m := if m.die.level = 0 then m.setLevel 1 552 else m
  if m.chopperMay then m.set SPN_BRK_ON 1 else m

/-- CHOPPER_OFF (R205): the rail reads 13.2 V. -/
def chopperOff (m : Mach) : Mach :=
  let m := if m.die.level = 1 then m.setLevel 0 528 else m
  m.set SPN_BRK_ON 0

/-- CHOPPER_SELF_TEST (R205): a 20 µs pulse at the transition from STOPPED to LISTEN. -/
def chopperSelfTest (m : Mach) : Mach :=
  if m.spn.selfTest then
    let m := m.setSpn fun s => { s with selfTest := false }
    if m.chopperMay then
      let t := m.clock + 224000
      (m.setDie fun d => { d with pulseEnd := some t }).set SPN_BRK_ON 1
    else m
  else m

/-- CHOPPER_OPEN_CHECK (R205): the current in mA, 5 µs after turning on, against 25 % of 13.8 V ÷ RBRK. -/
def chopperOpenCheck (ma : Nat) (m : Mach) : Mach :=
  if m.is SPN_BRK_ON && decide (4 * ma * m.get SPN_BRK_RBRK < 138000) then m.chopperFault 1 else m

/-- CHOPPER_SHORT (R205): current above 6 A: off at once. -/
def chopperShort (m : Mach) : Mach :=
  if m.is SPN_BRK_ON then (m.chopperFault 2).set SPN_BRK_ON 0 else m

namespace Mach

/-- The actions of L1 (Table 8-5). -/
def ladderL1 (m : Mach) : Mach :=
  let m := if m.die.bridge = .regen then m.forceShort else m
  m.chopperFault 3

/-- The actions of L2 (Table 8-5). -/
def ladderL2 (m : Mach) : Mach := (m.floatPhases).raiseInhibit

end Mach

/-- LADDER_L1_ENTER (R206): 14.5 V. -/
def ladderL1Enter (m : Mach) : Mach :=
  if 2 ≤ m.die.level then m else ((m.setLevel 2 580).report (Mach.spnSource 6)).ladderL1

/-- LADDER_L1_LEAVE (R206): 14.0 V. -/
def ladderL1Leave (m : Mach) : Mach := if m.die.level = 2 then m.setLevel 1 560 else m

/-- LADDER_L2_ENTER (R206): 15.5 V; the actions of the lower levels are included. -/
def ladderL2Enter (m : Mach) : Mach :=
  if 3 ≤ m.die.level then m else (((m.setLevel 3 620).report (Mach.spnSource 7)).ladderL1).ladderL2

/-- LADDER_L2_LEAVE (R198, R206): 15.0 V. A spindle in RUN enters CATCH, a stop continues by short brake, and a Promenade step
goes on with its own bridge action. -/
def ladderL2Leave (m : Mach) : Mach :=
  if m.die.level ≠ 3 then m
  else
    let m := m.setLevel 2 600
    let st := m.spnState
    if st = 5 then (m.setSpn fun s => { s with lossDue := false }).enterCatch
    else if st = 2 then m.setBridge .short
    else if st = 3 ∨ st = 4 then m.setBridge .drive
    else m.forceShort

/-- LADDER_L3_ENTER (R206): 16.0 V: every power-stage output is off. -/
def ladderL3Enter (m : Mach) : Mach :=
  if m.die.level = 4 then m
  else
    let m := if m.die.level < 3 then m.ladderL1.ladderL2 else m
    let m := (m.setLevel 4 640).report (Mach.spnSource 8)
    let m := m.setDie fun d => { d with
      bridge := .float, retract := Vector.replicate 4 .none, loading := Vector.replicate 4 false
      vcmRef := Vector.replicate 4 0 }
    (allFin 4).foldl (fun m a =>
      ((m.clearClips a).setMaRef a (Vector.replicate 2 0)).set (VCM_STAT_MODE a.val) 0) m

/-- LADDER_L3_LEAVE (R206): every actuator that is not parked retracts at once; the spindle follows the rule for L2. -/
def ladderL3Leave (m : Mach) : Mach := if m.die.level = 4 then (m.setLevel 3 600).retractAll else m

/-- SPN_BRK_FAULT_CLEAR (R207). -/
def spnBrkFaultClear (m : Mach) : Mach :=
  let m := m.setDie fun d => { d with shorted := false }
  (((m.set SPN_BRK_FAULT 0).set SPN_BRK_CAUSE 0).set SPN_BRK_ACK 0).demandAct

/-- SPN_BRK_ACK (R207): stops are permitted, by short brake. -/
def spnBrkAck (m : Mach) : Mach := (m.set SPN_BRK_ACK 1).demandAct

/-! ### Status frames and driver faults (R184, R190) -/

/-- STATUS_FRAME (R184). -/
def statusFrame (m : Mach) : Mach :=
  let now := m.clock
  m.setDie fun d => { d with lastFrame := now }

/-- The power die floats the spindle and retracts every actuator that is not parked (R184). -/
def Mach.dieSafe (m : Mach) : Mach :=
  ((m.setBridge .float).setSpn fun s => { s with phaseRef := Vector.replicate 3 0 }).retractAll

/-- STATUS_FRAME_TIMEOUT (R184): no frame for 1 ms. -/
def statusFrameTimeout (m : Mach) : Mach := m.dieSafe

/-- Latch a driver cause in VCM_FAULTn with its event (Table 8-1). -/
def Mach.vcmFault (m : Mach) (a : Actuator) (l : Loc) (b : Nat) : Mach := m.flagEvent l (Mach.actSource a (16 + b))

/-- DRV_OC (R149, R190): bridge current above 3,600 mA: one retract attempt; a recurrence leaves the bridge off. -/
def drvOc (a : Actuator) (m : Mach) : Mach :=
  let m := m.vcmFault a (VCM_FAULT_OC a.val) 0
  if m.die.ocOnce[a] then
    let m := m.setDie fun d => { d with
      bridgeOff := d.bridgeOff.set a true, retract := d.retract.set a .none, vcmRef := d.vcmRef.set a 0
      loading := d.loading.set a false }
    ((m.clearClips a).set (VCM_STAT_MODE a.val) 0).actuatorFault a 3
  else (m.setDie fun d => { d with ocOnce := d.ocOnce.set a true }).actuatorFault a 3

/-- DRV_OPEN (R149, R190). -/
def drvOpen (a : Actuator) (m : Mach) : Mach :=
  ((m.vcmFault a (VCM_FAULT_OPEN a.val) 1).actuatorFault a 3).startRetract a

/-- DRV_MA_LIMIT (R149, R190): the slot's output goes to 0 V. -/
def drvMaLimit (a : Actuator) (k : HeadSlot) (m : Mach) : Mach :=
  let m := if k = 0 then m.vcmFault a (VCM_FAULT_MA0 a.val) 2 else m.vcmFault a (VCM_FAULT_MA1 a.val) 3
  let m := m.setMaRef a (m.die.maRef[a].set k 0)
  (m.actuatorFault a 3).startRetract a

/-- DRV_OT (R149, R190, R208): the junction reaches 150 °C. -/
def drvOt (m : Mach) : Mach :=
  let m := (m.setDie fun d => { d with ot := true, junction := 150 }).reportTemp
  let m := (allFin 4).foldl (fun m a =>
    ((m.vcmFault a (VCM_FAULT_OT a.val) 4).actuatorFault a 3).startRetract a) m
  (m.setBridge .float).setSpn fun s => { s with phaseRef := Vector.replicate 3 0 }

/-- POWER_DIE_WARN (R190): 135 °C. -/
def powerDieWarn (m : Mach) : Mach := ((m.setDie fun d => { d with junction := 135 }).reportTemp).report (Mach.spnSource 9)

/-! ### Load, unload, low speed (R208, R210) -/

/-- LOW_SPEED_RETRACT (R208): the measured speed is below MINRPM while heads are loaded. -/
def lowSpeedRetract (m : Mach) : Mach :=
  if m.is SPN_SPEED_VALID && decide (m.get SPN_SPEED_SPEED < 1600 * m.get VCM_RET1_MINRPM) && !m.allParked then m.retractAll
  else m

/-- LOAD (R180, R210): a load starts, or is ignored. -/
def load (a : Actuator) (m : Mach) : Mach :=
  if m.is (VCM_STAT_PARKED a.val) && m.headValid (streamOf a (m.leadSlot a)) && m.spnState == 5 &&
      !m.is SPN_STAT_INHIBIT && decide (m.get (QDR_ACT_STATE a.val) < 2) then
    let m := (m.setParked a false).setRo a
    let m := m.setDie fun d => { d with
      loading := d.loading.set a true, ocOnce := d.ocOnce.set a false, bridgeOff := d.bridgeOff.set a false
      vcmRef := d.vcmRef.set a (m.emfRef a (-(m.rampSign a))) }
    m.set (VCM_STAT_MODE a.val) 2
  else (m.setBitAt VCM_ERR_LOAD a.val true).report (Mach.actSource a 23)

/-- UNLOAD (R208, R210): ignored when PARKED is 1. -/
def unload (a : Actuator) (m : Mach) : Mach := if m.is (VCM_STAT_PARKED a.val) then m else m.startRetract a

/-- LOAD_TIMEOUT (R210): the lead slot has not locked within 200 ms. -/
def loadTimeout (a : Actuator) (m : Mach) : Mach :=
  if m.die.loading[a] && !m.slotLocked a (m.leadSlot a) then
    (m.vcmFault a (VCM_FAULT_LOAD_TO a.val) 6).startRetract a
  else m

/-- POWER_DIE_POWER_ON (R386): the supply inputs return after both were absent; SPN_BRK returns to its reset values. -/
def powerDiePowerOn (m : Mach) : Mach :=
  let m := (m.setDie fun _ => PowerDie.initial).setWord REG_SPN_BRK (resetWord REG_SPN_BRK)
  (allFin 4).foldl (fun m a => m.setParked a true) m

/-- Idle conditions of R211. -/
def Mach.spnIdle (m : Mach) : Bool := m.spnState == 0 && !m.is SPN_CTRL_EN

/-- The spindle controller leaves block reset (R211). -/
def Mach.clearSpn (m : Mach) : Mach := m.setSpn fun _ => Spindle.initial

/-- The current engines leave block reset without a reference (R211). -/
def Mach.clearVcm (m : Mach) : Mach :=
  m.setDie fun d => { d with
    vcmRef := Vector.replicate 4 0, contClamp := Vector.replicate 4 false
    vcmEng := Vector.replicate 4 CurEngine.initial }

end Sys2Proof.Machine
end

