-- ==== Sys2Proof/Machine/Reset.lean ====
section
/-! DEFINITION. The reset entry: what a request of any reset source does (R374, R375, R381, R385, Table 16-9). -/
namespace Sys2Proof.Machine

/-- `x` with the fields that satisfy `c` at their reset values, for index `i` of a row. -/
def resetClass (c : FieldRow → Bool) (fs : List FieldRow) (i : Nat) (x : Word) : Word :=
  fs.foldl (fun w f => if c f then setBits w f.lo f.w (f.reset i) else w) x

/-- The row and index of the register at an address in `at_` with a field that satisfies `c`. -/
def resetRow (c : FieldRow → Bool) (at_ : Nat → Bool) (a : Nat) : Option (RegRow × Nat) :=
  if at_ a then (findReg a regBlocks).filter fun r => r.1.fields.any c else none

/-- The listed words with the fields that satisfy `c` reset in registers whose address satisfies `at_` (R9, R382). -/
def resetFields (c : FieldRow → Bool) (at_ : Nat → Bool) : List (Nat × Word) → List (Nat × Word)
  | [] => []
  | (a, x) :: rs =>
    match resetRow c at_ a with
    | some (r, i) =>
      let y := resetClass c r.fields i x
      if y = resetWord a then resetFields c at_ rs else (a, y) :: resetFields c at_ rs
    | none => (a, x) :: resetFields c at_ rs

/-- A reset source (Table 16-3), by its bit of RST_CAUSE.SRC. -/
inductive ResetSource where
  | powerOn | brownOut | pin | coreWatchdog | fabricWatchdog | software | debug | clockFailure | lockUp
  deriving DecidableEq, Repr

/-- Bit of RST_CAUSE.SRC. -/
def ResetSource.bit : ResetSource → Nat
  | .powerOn => 0
  | .brownOut => 1
  | .pin => 2
  | .coreWatchdog => 3
  | .fabricWatchdog => 4
  | .software => 5
  | .debug => 6
  | .clockFailure => 7
  | .lockUp => 8

/-- Power-on and brown-out: the sources that clear class A and start at P0. -/
def ResetSource.cold : ResetSource → Bool
  | .powerOn | .brownOut => true
  | _ => false

/-- What RST_INFO records of a request: core, domain, kind (R375). -/
structure ResetInfo where
  core   : Nat
  domain : Nat
  kind   : Nat
  deriving DecidableEq, Repr

/-- Nothing to record. -/
def ResetInfo.none : ResetInfo := ⟨0, 0, 0⟩

namespace Mach

/-- F-AON time since power-on, µs (R367). -/
def aonTime (m : Mach) : Nat := (m.clock - m.rst.origin) / 11200

/-- Update the reset controller. -/
def setRst (m : Mach) (f : RstState → RstState) : Mach := { m with rst := f m.rst }

/-- An object locks as its LockOnReset says (R344). -/
def relock (o : LockObject) : LockObject :=
  if o.powerCycle then { o with readLocked := o.readEn, writeLocked := o.writeEn } else o

/-- Default values of the features that can be saved (Table 12-5): the fleet slot stands in option word 5. -/
def defaultFeatures (m : Mach) : SavedFeatures :=
  match m.sec.options[4]? with
  | some w => { SavedFeatures.default with slot := getBits w 0 14 }
  | none => SavedFeatures.default

/-- Features after a chip reset: the saved values where they exist, otherwise the defaults (R301). -/
def resetFeatures (m : Mach) : Mach :=
  let s := m.cmd.saved
  let d := m.defaultFeatures
  let f : SavedFeatures :=
    ⟨s.vwc.getD d.vwc, s.rrl.getD d.rrl, s.limit.getD d.limit, s.cap.getD d.cap, s.slot.getD d.slot⟩
  { m with cmd := { m.cmd with feat := { SubFeatures.default with saved := f } } }

/-- The state of every domain but AON after step 5 of the reset entry (Tables 16-4, 16-9); what stands in flash, on the
medium, in the power die and in the buffer stays. -/
def resetDomains (m : Mach) (cold : Bool) : Mach :=
  let m := { m with
    reports := [], cal := Caller.initial, media := { MediaState.initial with moved := m.media.moved }
    motion := { MotionState.initial with
      faultTimes := m.motion.faultTimes, lastFault := m.motion.lastFault, depop := m.motion.depop, headDepop := m.motion.headDepop }
    spn := Spindle.initial, dma := DmaState.initial
    buf := { BufState.initial with mem := m.buf.mem, selfRef := !cold, vsramOff := m.buf.vsramOff }
    eng := { m.eng with seqs := Vector.replicate 20 Seq.initial }
    host := { HostState.initial with ports := m.host.ports.map fun (p : HostPort) => { HostPort.initial with perst := p.perst } }
    pwr := { PowerMgr.initial with
      dirty := if cold then [] else m.pwr.dirty, retired := m.pwr.retired, wgen := m.pwr.wgenFlash
      wgenFlash := m.pwr.wgenFlash, pendingSaves := m.pwr.pendingSaves
      replayDue := cold || m.pwr.replayDue, backupFailed := !cold && m.pwr.backupFailed }
    cmd := { CmdState.initial with
      nss := m.cmd.nss, unc := m.cmd.unc, saved := m.cmd.saved, cands := m.cmd.cands }
    sec := { m.sec with
      slots := Vector.replicate 32 0, work := 0, noDus := false, rejects := 0, scope := 0, active := none
      vault := if cold then Vector.replicate 24 none else m.sec.vault
      objects := m.sec.objects.map relock }
    evt := { m.evt with ledger := [], op := none, fatalIrq := false } }
  m.resetFeatures

/-- Step 2: the power die floats the phases, retracts, and switches the preamplifier rails off (R184). -/
def resetDie (m : Mach) : Mach :=
  m.dieSafe.setDie fun d => { d with paOff := Vector.replicate 4 true }

/-- RST_CAUSE and RST_INFO of a new record. -/
def recordCause (m : Mach) (src : ResetSource) (info : ResetInfo) : Mach :=
  (((((m.set RST_CAUSE_SRC (2 ^ src.bit)).set RST_CAUSE_FIRST (src.bit + 1)).set RST_INFO_CORE info.core).set
    RST_INFO_DOMAIN info.domain).set RST_INFO_KIND info.kind)

/-- A further source of an entry in progress (R375): FIRST stays. -/
def addCause (m : Mach) (src : ResetSource) (info : ResetInfo) : Mach :=
  let seen := m.get RST_CAUSE_SRC
  let m := m.set RST_CAUSE_SRC (seen ||| 2 ^ src.bit)
  let m := m.when (src == .coreWatchdog || src == .lockUp) (·.set RST_INFO_CORE info.core)
  m.when (src == .clockFailure) fun m => (m.set RST_INFO_DOMAIN info.domain).set RST_INFO_KIND info.kind

/-- The storm count (R381). -/
def countStorm (m : Mach) (cold : Bool) : Mach :=
  if cold then m.setRst fun r => { r with history := [], stormHold := false }
  else
    let recent := (m.aonTime :: m.rst.history).filter fun t => m.aonTime - t < 1000000
    let m := m.incSat RST_CNT_RESETS 1
    if 8 ≤ recent.length then
      ((m.setRst fun r => { r with history := [], stormHold := true, stormed := true }).set RST_STAT_STORM 1).incSat RST_CNT_STORMS 1
    else m.setRst fun r => { r with history := recent }

/-- A request of a reset source is latched and the reset entry is carried out (R374, R375): during an entry it only adds
its cause, unless it is power-on or brown-out, which restarts at P0 and clears class A. SPN_BRK is held in the power die and
is never reached (R207, R386). -/
def requestReset (m : Mach) (src : ResetSource) (info : ResetInfo) : Mach :=
  let cold := src.cold
  if m.rst.entering && !cold then m.addCause src info
  else
    let now := m.clock
    let m := m.when (src == .powerOn) fun m => m.setRst fun r => { r with origin := now }
    let m := m.resetDie
    let m := { m with regs := resetFields (fun f => cold || f.cls != RstClass.A) (fun a => a != REG_SPN_BRK) m.regs }
    let m := m.resetDomains cold
    let m := (m.recordCause src info).countStorm cold
    m.setRst fun r =>
      { r with
        entering := true, fromP0 := cold, railsOff := false, waiting := [], pllOn := false, testEn := false, coresUp := false, kept := false
        inReset := (Vector.replicate 40 true).set 39 false
        coldBoot := cold, driven := Vector.replicate 8 false }

/-- Ibzin, or BC, requests a software reset (R377). -/
def softReset (m : Mach) : Mach := m.requestReset .software .none

end Mach

end Sys2Proof.Machine
end

