-- ==== Sys2Proof/Machine/Store.lean ====
section
/-! DEFINITION. Control stores and dispatch tables: their banks, loading and swapping (R362–R364). -/
namespace Sys2Proof.Machine

/-- The overlap class that an opcode's dispatch entry must carry (R20, R293; OVL of Table 15-9): 0 none, 1 read, 2 write,
3 write over the whole namespace. -/
def overlapOf (table opcode : Nat) : Nat :=
  if table = 1 then
    if opcode = 0x02 ∨ opcode = 0x05 ∨ opcode = 0x0C then 1
    else if opcode = 0x01 ∨ opcode = 0x04 ∨ opcode = 0x08 ∨ opcode = 0x09 ∨ opcode = 0x79 ∨ opcode = 0x7D then 2
    else 0
  else if opcode = 0x80 then 3 else 0

/-- BC's check of a dispatch entry (R362). -/
def entryOk (table opcode : Nat) (e : Word) : Bool :=
  getBits e 19 13 == 0 && decide (getBits e 4 3 < 6) && Config.handlerServes (getBits e 7 12) table opcode &&
    getBits e 1 2 == overlapOf table opcode

namespace Mach

/-- Update the engines. -/
def setEngine (m : Mach) (f : EngState → EngState) : Mach := { m with eng := f m.eng }

/-- The active bank of a sequencer's store. -/
def csBank (m : Mach) (q : SeqId) : Fin 2 := Fin.ofNat 2 (m.get (SEQ_STAT_BANK q.val))

/-- The active bank of the dispatch tables. -/
def dtBank (m : Mach) : Fin 2 := Fin.ofNat 2 (m.get QSQ_CSSWAP_BANK)

/-- The word at an address of a bank of a store. -/
def storeWord (m : Mach) (q : SeqId) (bank : Fin 2) (a : Nat) : BitVec 128 := getPair 0 a m.eng.stores[q][bank]

/-- Store a word into the shadow bank of a sequencer's store. -/
def putStore (m : Mach) (q : SeqId) (a : Nat) (w : BitVec 128) : Mach :=
  let bank : Fin 2 := 1 - m.csBank q
  if storeSize q ≤ a then m
  else m.setEngine fun e => { e with stores := updAt e.stores q fun s => updAt s bank (putPair 0 a w) }

/-- Load a dispatch entry into the shadow bank: a failed entry with VALID = 0, and QSQ_DTERR set (R362). -/
def putEntry (m : Mach) (table opcode : Nat) (w : Word) : Mach :=
  let bank : Fin 2 := 1 - m.dtBank
  let ok := entryOk table opcode w
  let w := if ok then w else w &&& ~~~1
  let m := m.setEngine fun e => { e with tables := updAt e.tables bank (putPair 0 (table * 256 + opcode) w) }
  m.when (!ok) (·.flagEvent QSQ_DTERR_BAD 140)

/-- The dispatch entry of an opcode in the active bank. -/
def dispatchEntry (m : Mach) (table opcode : Nat) : Word := getPair 0 (table * 256 + opcode) m.eng.tables[m.dtBank]

/-- A field that a configuration section can set (Table 19-2). -/
def configField (f : FieldRow) : Bool := f.acc == .rw || f.acc == .rwl || f.acc == .rws

/-- A configuration value is applied to the fields of its register that satisfy `sel` (R330, R337). -/
def configWrite (m : Mach) (sel : FieldRow → Bool) (a : Nat) (x : Word) : Mach :=
  match findReg a regBlocks with
  | some (r, _) =>
    m.setWord a (r.fields.foldl (fun w f =>
      if configField f && sel f then setBits w f.lo f.w (getBits x f.lo f.w) else w) (m.word a))
  | none => m

/-- The configuration sections of a bundle are applied to the fields that satisfy `sel`, in registers whose address
satisfies `at_`. -/
def applyConfig (m : Mach) (b : Bundle) (sel : FieldRow → Bool) (at_ : Nat → Bool) : Mach :=
  b.regs.foldl (fun m r => if at_ r.1 then m.configWrite sel r.1 r.2 else m) m

/-- Every sequencer's registers, LC, flags and line buffer are cleared and it restarts at address 0 (R364, R383). -/
def restartSeq (m : Mach) (q : SeqId) : Mach :=
  let m := m.setEngine fun e => { e with seqs := e.seqs.set q Seq.initial }
  let m := (m.set (SEQ_STAT_ADDR q.val) 0).set (SEQ_STAT_FOP_OUT q.val) 0
  (m.set (SEQ_STAT_STATE q.val) (m.get (SEQ_CTRL_RUN q.val))).set (SEQ_STAT_IDLE q.val) 0

/-- Steps 1 to 3 of an accepted swap (R364). -/
def flipBanks (m : Mach) : Mach :=
  let m := (allFin 20).foldl (fun m q => (m.set (SEQ_STAT_BANK q.val) (1 - m.get (SEQ_STAT_BANK q.val))).restartSeq q) m
  m.set QSQ_CSSWAP_BANK (1 - m.get QSQ_CSSWAP_BANK)

/-- A bundle's stores and tables are loaded into the shadow banks (R362). -/
def loadShadow (m : Mach) (b : Bundle) : Mach :=
  let m := b.code.foldl (fun m c => m.putStore c.1 c.2.1 c.2.2) m
  b.tables.foldl (fun m e => m.putEntry (e.1 / 256) (e.1 % 256) e.2) m

/-- A bundle's stores and tables are loaded, and the banks are swapped (R362). -/
def loadStores (m : Mach) (b : Bundle) : Mach := (m.loadShadow b).flipBanks

end Mach

end Sys2Proof.Machine
end

