-- ==== Sys2Proof/Machine/Command.lean ====
section
/-! DEFINITION. What the commands share: the fields of a submission entry, the statuses of Table 12-1, the command
table, where an LBA lies, dirty units, the uncorrectable table and asynchronous events. -/
namespace Sys2Proof.Machine

/-! ### Statuses (Table 12-1): SCT · 256 + SC -/

def stOk : Nat := 0x000
def stOpcode : Nat := 0x001
def stField : Nat := 0x002
def stTransfer : Nat := 0x004
def stInternal : Nat := 0x006
def stAbort : Nat := 0x007
def stSqDeleted : Nat := 0x008
def stNamespace : Nat := 0x00B
def stSequence : Nat := 0x00C
def stSglLength : Nat := 0x00F
def stSglType : Nat := 0x011
def stLbaRange : Nat := 0x080
def stCq : Nat := 0x100
def stQid : Nat := 0x101
def stQsize : Nat := 0x102
def stAbortLimit : Nat := 0x103
def stAerLimit : Nat := 0x105
def stFwSlot : Nat := 0x106
def stFwImage : Nat := 0x107
def stVector : Nat := 0x108
def stLogPage : Nat := 0x109
def stFormat : Nat := 0x10A
def stQueueDelete : Nat := 0x10C
def stNotSaveable : Nat := 0x10D
def stCapacity : Nat := 0x115
def stNsid : Nat := 0x116
def stAttached : Nat := 0x118
def stNotAttached : Nat := 0x11A
def stPi : Nat := 0x181
/-- Zoned statuses of the Zoned Namespace command set (0xB8–0xBF). -/
def stZoneBoundary : Nat := 0x1B8
def stZoneFull : Nat := 0x1B9
def stZoneReadOnly : Nat := 0x1BA
def stZoneOffline : Nat := 0x1BB
def stZoneWrite : Nat := 0x1BC
def stZoneActive : Nat := 0x1BD
def stZoneOpen : Nat := 0x1BE
def stZoneTransition : Nat := 0x1BF
def stActuator : Nat := 0x1C0
def stActState : Nat := 0x1C1
def stRequal : Nat := 0x1C2
def stNoBrake : Nat := 0x1C3
def stPass : Nat := 0x1C4
def stNotHalted : Nat := 0x1C5
def stLastAct : Nat := 0x1C6
def stUncFull : Nat := 0x1C7
def stUnrecovered : Nat := 0x281
/-- Guard, application-tag, reference-tag check errors by PIKIND 1, 2, 3 (R249). -/
def stPiCheck (kind : Nat) : Nat := 0x281 + max 1 kind
def stCompare : Nat := 0x285
def stDepop : Nat := 0x2C0
def stAnaLost : Nat := 0x301
def stAnaInaccessible : Nat := 0x302

/-- DNR of a status (R286). -/
def statusDnr (s : Nat) : Bool := !(s == stOk || s == stTransfer || s == stInternal || s == stAnaInaccessible)

/-! ### Fields of a submission entry -/

namespace Cmd

/-- The command identifier. -/
def cid (c : Cmd) : Nat := c.dw 0 16 16
def nsid (c : Cmd) : Nat := c.dw 1 0 32
/-- CDW10 to CDW15, and fields of them. -/
def cdw (c : Cmd) (k : Nat) : Nat := c.dw k 0 32
/-- The starting LBA of a data command. -/
def firstLba (c : Cmd) : Nat := c.dw 10 0 64
/-- The number of LBAs of a data command. -/
def lbas (c : Cmd) : Nat := c.dw 12 0 16 + 1
def fua (c : Cmd) : Bool := c.dw 12 30 1 == 1
/-- PRINFO: bits 2:0 PRCHK (bit 0 reference, 1 application, 2 guard), bit 3 PRACT. -/
def prinfo (c : Cmd) : Nat := c.dw 12 26 4
def deac (c : Cmd) : Bool := c.dw 12 25 1 == 1
/-- Initial (or expected initial) logical block reference tag: 32 bits in CDW14. -/
def refTag (c : Cmd) : Nat := c.dw 14 0 32
/-- An admin command. -/
def admin (c : Cmd) : Bool := c.sqid == 0
/-- The dispatch table that serves it. -/
def table (c : Cmd) : Nat := if c.admin then 0 else 1
/-- An I/O command with an opcode of this list. -/
def isIo (c : Cmd) (ops : List Nat) : Bool := !c.admin && ops.contains c.opcode
/-- A media I/O command: it reads or writes LBAs (R300, Table 12-1). -/
def mediaIo (c : Cmd) : Bool := c.isIo [0x01, 0x02, 0x04, 0x05, 0x08, 0x09, 0x0C, 0x7D]
/-- Read, Compare or Verify. -/
def readIo (c : Cmd) : Bool := c.isIo [0x02, 0x05, 0x0C]
end Cmd

/-- Two ranges overlap. -/
def LbaRange.meets (a b : LbaRange) : Bool :=
  a.nsid == b.nsid && decide (a.first < b.first + b.count) && decide (b.first < a.first + a.count)

/-- The LBAs of a range, rising. -/
def LbaRange.list (r : LbaRange) : List Nat := (List.range r.count).map (r.first + ·)

/-- The lowest key slot's object of a namespace's LBA, and so on. -/
def Namespace.actors (n : Namespace) : List Actuator := (allFin 4).filter fun a => n.group.testBit a.val

/-- The actuator that an LBA lies on (R296). -/
def Namespace.actorOf (n : Namespace) (lba : Nat) : Actuator :=
  let as := n.actors
  as.getD ((lba / (if n.zoned then 65536 else 4096)) % as.length) 0

/-- The zone of a number. -/
def Namespace.zone (n : Namespace) (z : Nat) : Zone := getPair Zone.initial z n.zones

/-- The namespace's zone count. -/
def Namespace.zoneCount (n : Namespace) : Nat := n.nsze / 65536

/-- Store a zone. -/
def Namespace.putZone (n : Namespace) (z : Nat) (x : Zone) : Namespace :=
  { n with zones := putPair Zone.initial z x n.zones }

/-- The unit's written bit (R295). -/
def Namespace.isWritten (n : Namespace) (u : Nat) : Bool := n.written.contains u

namespace Mach

/-! ### The command table -/

/-- Update the command complex. -/
def setCmdState (m : Mach) (f : CmdState → CmdState) : Mach := { m with cmd := f m.cmd }

/-- QSQ_CMDTAB follows the table. -/
def syncTable (m : Mach) : Mach :=
  let r := m.cmd.table.countP (·.reserve)
  (m.set QSQ_CMDTAB_USED m.cmd.table.length).set QSQ_CMDTAB_ADMIN r

/-- Replace the command table. -/
def setTable (m : Mach) (f : List Cmd → List Cmd) : Mach :=
  (m.setCmdState fun c => { c with table := f c.table }).syncTable

/-- The entry of a fetch sequence number. -/
def command (m : Mach) (fsn : Nat) : Option Cmd := m.cmd.table.find? (·.fsn == fsn)

/-- Update the entry of a fetch sequence number. -/
def setCommand (m : Mach) (fsn : Nat) (f : Cmd → Cmd) : Mach :=
  m.setTable fun t => t.map fun c => if c.fsn == fsn then f c else c

/-- A command's completion is decided. -/
def decide_ (m : Mach) (fsn status dw0 : Nat) : Mach :=
  m.setCommand fsn fun c => { c with stage := .ended, result := some ⟨status, dw0⟩ }

/-- A command completes with a status and DW0 = 0. -/
def finish (m : Mach) (fsn status : Nat) : Mach := m.decide_ fsn status 0

/-- The dispatched, undecided command of a number with an opcode of a table; none otherwise. -/
def running (m : Mach) (fsn table opcode : Nat) : Option Cmd :=
  m.cmd.table.find? fun c => c.fsn == fsn && c.stage == .dispatched && c.live && c.table == table && c.opcode == opcode

/-- `f` on the dispatched command of a number; nothing where there is none. -/
def withRunning (m : Mach) (fsn : BitVec 32) (table opcode : Nat) (f : Cmd → Mach) : Mach :=
  match m.running fsn.toNat table opcode with
  | some c => f c
  | none => m

/-- Invalid Field in Command, with the byte and bit of the first offending field (Table 18-3). -/
def invalid (m : Mach) (fsn byte bit : Nat) : Mach :=
  (m.setCommand fsn fun c => { c with loc := byte + 256 * bit }).finish fsn stField

/-- The status that a failed transfer gives a command, and the sector offset that it concerns; `write` selects what a
buffer-side error means (R286–R288). -/
def endStatus (write : Bool) : IoEnd → Option (Nat × Nat)
  | .ok => none
  | .hostErr s => some (stTransfer, s)
  | .sectorErr fs => some (if write then stInternal else stUnrecovered, fs.headD 0)
  | .piErr k s => some (stPiCheck k.val, s)
  | .sglLength => some (stSglLength, 0)
  | .sglType => some (stSglType, 0)
  | .unrecovered s => some (stUnrecovered, s)
  | .mismatch s => some (stCompare, s)

/-- A command whose transfer failed completes with its status; otherwise `f` is what it does. -/
def transferred (m : Mach) (c : Cmd) (write : Bool) (e : IoEnd) (f : Mach → Mach) : Mach :=
  match endStatus write e with
  | some (st, _) => m.finish c.fsn st
  | none => f m

/-! ### Namespaces -/

/-- The namespace of an identifier. -/
def nsOf (m : Mach) (nsid : Nat) : Option Namespace := m.cmd.nss.find? (·.nsid == nsid)

/-- The namespace is zoned. -/
def zonedNs (m : Mach) (nsid : Nat) : Bool := m.cmd.nss.any fun n => n.nsid == nsid && n.zoned

/-- Update a namespace. -/
def setNs (m : Mach) (nsid : Nat) (f : Namespace → Namespace) : Mach :=
  m.setCmdState fun c => { c with nss := c.nss.map fun n => if n.nsid == nsid then f n else n }

/-- The actuator of an LBA is depopulated, or its head is (R300). -/
def lbaDepop (m : Mach) (n : Namespace) (lba : Nat) : Bool :=
  let a := n.actorOf lba
  m.is (QDR_ACT_DEPOP a.val) || (m.get (QDR_ACT_HEAD_DEPOP a.val)).testBit (Config.headOf n.nsid lba % 6)

/-- Every actuator of the namespace's group is depopulated (R300). -/
def anaLost (m : Mach) (n : Namespace) : Bool := n.actors.all fun a => m.is (QDR_ACT_DEPOP a.val)

/-! ### Dirty data -/

/-- The handle of a unit whose buffer is Ibzin's own: a zero unit, or re-adopted data. -/
def ownHandle : Nat := 2 ^ 24

/-- Update power management. -/
def setPwr (m : Mach) (f : PowerMgr → PowerMgr) : Mach := { m with pwr := f m.pwr }

/-- The newest dirty unit of an LBA. -/
def dirtyUnit (m : Mach) (nsid lba : Nat) : Option DirtyUnit :=
  m.pwr.dirty.reverse.find? fun u => !u.isMeta && u.nsid == nsid && u.lba == lba

/-- Discard the dirty units that satisfy `p`. -/
def dropDirty (m : Mach) (p : DirtyUnit → Bool) : Mach := m.setPwr fun s => { s with dirty := s.dirty.filter (!p ·) }

/-- The key slot of an LBA: the locking range that covers it, otherwise the namespace's global range (Table 14-8). -/
def lockOf (m : Mach) (nsid lba : Nat) : LockId :=
  match (allFin 24).find? fun r => decide (8 ≤ r.val) &&
      (let o := m.sec.objects[r]; o.nsid == nsid && decide (o.first ≤ lba) && decide (lba < o.first + o.count)) with
  | some r => r
  | none => Fin.ofNat 24 (nsid - 1)

/-- A live reader of an LBA stands between a unit's write (`from_`, none: before every command) and the write `fsn` (R20). -/
def readerBetween (m : Mach) (from_ : Option Nat) (fsn nsid lba : Nat) : Bool :=
  m.cmd.table.any fun c => c.live && c.kind == some .read && fsnBefore c.fsn fsn && c.touches nsid lba &&
    (match from_ with
     | some f => fsnBefore f c.fsn
     | none => true)

/-- The unit is older than command `fsn`. -/
def unitBefore (u : DirtyUnit) (fsn : Nat) : Bool := match u.fsn with
  | some f => fsnBefore f fsn
  | none => true

/-- The dirty units older than command `fsn` that satisfy `p` are superseded by it: they leave the dirty list, and stay in
the buffer only for the readers that stand between (R20). -/
def retireUnits (m : Mach) (fsn : Nat) (p : DirtyUnit → Bool) : Mach :=
  let old (u : DirtyUnit) : Bool := !u.isMeta && p u && unitBefore u fsn
  let needed := (m.pwr.dirty.filter old).filter fun u => m.readerBetween u.fsn fsn u.nsid u.lba
  m.setPwr fun s => { s with dirty := s.dirty.filter (!old ·), kept := s.kept ++ needed.map (·, fsn) }

/-- Older units of an LBA are superseded by the unit that command `fsn` has just made dirty (R20). -/
def prune (m : Mach) (fsn nsid lba : Nat) : Mach := m.retireUnits fsn fun u => u.nsid == nsid && u.lba == lba

/-- Kept units whose readers have all ended are released (R20). -/
def sweepKept (m : Mach) : Mach :=
  m.setPwr fun s => { s with kept := s.kept.filter fun k => m.readerBetween k.1.fsn k.2 k.1.nsid k.1.lba }

/-- The unit that a command of number `fsn` sees at an LBA: the newest one older than the command that no write standing
before it has superseded (R16, R20). -/
def unitFor (m : Mach) (fsn nsid lba : Nat) : Option DirtyUnit :=
  let mine (u : DirtyUnit) : Bool := !u.isMeta && u.nsid == nsid && u.lba == lba && unitBefore u fsn
  match m.pwr.dirty.reverse.find? mine with
  | some u => some u
  | none =>
    ((m.pwr.kept.filter fun k => mine k.1 && !fsnBefore k.2 fsn).map (·.1)).foldl (fun (b : Option DirtyUnit) u =>
      match b, u.fsn with
      | some v, some f => if unitBefore v f then some u else b
      | some v, none => some v
      | none, _ => some u) none

/-- A unit of data joins the dirty list, in fetch sequence order (R319). -/
def addDirty (m : Mach) (u : DirtyUnit) : Mach :=
  let before (v : DirtyUnit) : Bool :=
    v.isMeta || (match v.fsn, u.fsn with
      | none, _ => true
      | some _, none => false
      | some a, some b => !fsnBefore b a)
  m.setPwr fun s => { s with dirty := s.dirty.takeWhile before ++ [u] ++ s.dirty.dropWhile before }

/-- Volatile metadata units that have changed since their last copy to flash (R315). -/
def metaCount (m : Mach) : Nat := m.pwr.dirty.countP (·.isMeta)

/-- The unit of volatile metadata of a namespace is uncopied. -/
def metaHeld (m : Mach) (nsid unit : Nat) : Bool := m.pwr.dirty.any fun u => u.isMeta && u.nsid == nsid && u.lba == unit

/-- Metadata units of a namespace change: each becomes a dirty unit (R315). One unit is the zone, or the written bit, of one
number (DESIGN CHOICE, log entry 152). -/
def metaChange (m : Mach) (nsid : Nat) (units : List Nat) : Mach :=
  units.foldl (fun m k => if m.metaHeld nsid k then m
    else m.setPwr fun s => { s with dirty := ⟨nsid, k, none, ownHandle, 31, true, true⟩ :: s.dirty }) m

/-- A command that would change more than 256 uncopied metadata units waits for the copy (R315). -/
def metaWaits (m : Mach) (nsid : Nat) (units : List Nat) : Bool :=
  decide (0 < m.metaCount) && decide (256 < m.metaCount + units.countP fun k => !m.metaHeld nsid k)

/-- Earlier writes whose data is still on its way leave a range out: command `fsn` has superseded it (R20). -/
def supersedeLate (m : Mach) (fsn : Nat) (r : LbaRange) : Mach :=
  m.setTable fun t => t.map fun c =>
    if c.live && c.kind == some .write && !c.inBuffer && fsnBefore c.fsn fsn && c.ranges.any r.meets then
      { c with superseded := c.superseded ++ [(fsn, r)] }
    else c

/-- A range of LBAs is superseded at the check of command `fsn`: dirty units in it are retired, and earlier writes whose
data is still on its way leave them out (R20, R293, R295). -/
def supersede (m : Mach) (fsn : Nat) (r : LbaRange) : Mach :=
  (m.retireUnits fsn fun u => u.nsid == r.nsid && decide (r.first ≤ u.lba) && decide (u.lba < r.first + r.count)).supersedeLate
    fsn r

/-- The first write that has superseded an LBA of a write whose data was late (R20). -/
def supersededBy (c : Cmd) (nsid lba : Nat) : Option Nat :=
  (c.superseded.find? fun x =>
    x.2.nsid == nsid && decide (x.2.first ≤ lba) && decide (lba < x.2.first + x.2.count)).map (·.1)

/-- A unit of a write becomes dirty and retires the older ones; where a later write has superseded it already, it stays in
the buffer only for the readers between the two (R20). -/
def placeUnit (m : Mach) (c : Cmd) (u : DirtyUnit) : Mach :=
  match supersededBy c u.nsid u.lba with
  | none => (m.addDirty u).prune c.fsn u.nsid u.lba
  | some g =>
    m.when (m.readerBetween (some c.fsn) g u.nsid u.lba) fun m => m.setPwr fun s => { s with kept := s.kept ++ [(u, g)] }

/-- Zero units of the units that a write is the first to write, at the LBAs that satisfy `p` (R295). -/
def addZeros (m : Mach) (c : Cmd) (counted : Bool) (p : Nat → Bool) : Mach :=
  (c.units.flatMap fun u => (List.range 4096).map (4096 * u + ·)).foldl (fun (m : Mach) l =>
    if p l then m.placeUnit c ⟨c.nsid, l, some c.fsn, ownHandle, (m.lockOf c.nsid l).val, false, counted⟩
    else m) m

/-- A write whose data never reached the buffer in full is withdrawn (R281, R288): it leaves the overlap checker; its
internal zero write stands for the whole of the units it was the first to write. -/
def withdrawWrite (m : Mach) (c : Cmd) : Mach :=
  (m.addZeros c true fun _ => true).setPwr fun s =>
    { s with waitL := s.waitL.filter (·.1 != c.fsn), admitted := s.admitted.filter (·.1 != c.fsn) }

/-! ### The uncorrectable table (R287, R294) -/

/-- An LBA is marked. -/
def marked (m : Mach) (nsid lba : Nat) : Bool :=
  m.cmd.unc.any fun e => e.nsid == nsid && e.block == lba / 256 && e.bits.getLsbD (lba % 256)

/-- Free general entries, and free reserved entries. -/
def uncFree (m : Mach) (reserved : Bool) : Nat :=
  let n := m.cmd.unc.countP (·.reserved == reserved)
  (if reserved then 64 else 4032) - n

/-- Replace the table. -/
def setUnc (m : Mach) (f : List UncEntry → List UncEntry) : Mach := m.setCmdState fun c => { c with unc := f c.unc }

/-- Mark an LBA in its block's entry, or in a free entry: a general one first, a reserved one where `reserve` allows;
none where no entry is free. -/
def markLba (m : Mach) (reserve : Bool) (nsid lba : Nat) : Option Mach :=
  let bit : BitVec 256 := BitVec.ofNat 256 (2 ^ (lba % 256))
  if m.cmd.unc.any fun e => e.nsid == nsid && e.block == lba / 256 then
    some (m.setUnc fun t => t.map fun e =>
      if e.nsid == nsid && e.block == lba / 256 then { e with bits := e.bits ||| bit } else e)
  else if 0 < m.uncFree false then some (m.setUnc (· ++ [⟨nsid, lba / 256, bit, false⟩]))
  else if reserve && decide (0 < m.uncFree true) then some (m.setUnc (· ++ [⟨nsid, lba / 256, bit, true⟩]))
  else none

/-- Mark the LBAs that fit, in the order given; where one does not fit, the fatal event of EG35 bit 20 (R287). -/
def markLost (m : Mach) (nsid : Nat) : List Nat → Mach
  | [] => m
  | l :: ls =>
    match m.markLba true nsid l with
    | some m => m.markLost nsid ls
    | none => m.report (32 * 35 + 20)

/-- Clear the marks of a range. -/
def clearMarks (m : Mach) (r : LbaRange) : Mach :=
  let clear (e : UncEntry) : UncEntry :=
    if e.nsid == r.nsid then
      let lo := min 256 (r.first - 256 * e.block)
      let hi := min 256 (r.first + r.count - 256 * e.block)
      { e with bits := e.bits &&& ~~~(BitVec.ofNat 256 (2 ^ hi - 1) &&& ~~~BitVec.ofNat 256 (2 ^ lo - 1)) }
    else e
  m.setUnc fun t => (t.map clear).filter (·.bits != 0)

/-! ### Asynchronous events (Table 12-7) -/

/-- Update a controller. -/
def setCtrl (m : Mach) (p : PortId) (f : Ctrl → Ctrl) : Mach := { m with host := { m.host with ctrls := updAt m.host.ctrls p f } }

/-- Update a port. -/
def setPort (m : Mach) (p : PortId) (f : HostPort → HostPort) : Mach :=
  { m with host := { m.host with ports := updAt m.host.ports p f } }

/-- Waiting events complete waiting requests, oldest first; the event's type is then masked. -/
def serveEvents (m : Mach) (p : PortId) : Mach :=
  let c := m.host.ctrls[p]
  match c.aers, c.events.find? (fun e => !c.masked.any (·.type == e.type)) with
  | f :: fs, some e =>
    let m := m.setCtrl p fun c => { c with aers := fs, events := c.events.erase e, masked := c.masked ++ [e] }
    m.decide_ f stOk (e.type + 256 * e.info + 65536 * e.lid)
  | _, _ => m

/-- An event of Table 12-7 for a controller; `bit` is the bit of Asynchronous Event Configuration that enables it, none
for an event that is always enabled. -/
def asyncEvent (m : Mach) (p : PortId) (bit : Option Nat) (type info lid : Nat) : Mach :=
  let on := match bit with
    | some b => m.host.ctrls[p].feat.aec.testBit b
    | none => true
  if on then
    let e : AsyncEvent := ⟨type, info, lid⟩
    (m.setCtrl p fun c => if c.events.contains e then c else { c with events := c.events ++ [e] }).serveEvents p
  else m

/-- An event of Table 12-7 for both controllers. -/
def asyncBoth (m : Mach) (bit : Option Nat) (type info lid : Nat) : Mach :=
  (m.asyncEvent 0 bit type info lid).asyncEvent 1 bit type info lid

/-- A Sceka notice (OAES bit 31). -/
def scekaNotice (m : Mach) (info lid : Nat) : Mach := m.asyncBoth (some 31) 7 info lid

/-- A namespace attribute changed (Notice 0x00): the Changed Namespace List takes it. -/
def nsChanged (m : Mach) (nsid : Nat) : Mach :=
  let m := (allFin 2).foldl (fun m p => m.setCtrl p fun c => { c with changedNs := insertNat nsid c.changedNs }) m
  m.asyncBoth (some 8) 2 0x00 0x04

/-- SMART critical-warning bits are raised (SMART / Health 0x00). -/
def criticalWarning (m : Mach) (bit : Nat) : Mach :=
  if m.cmd.critical.testBit bit then m
  else (m.setCmdState fun c => { c with critical := c.critical ||| 2 ^ bit }).asyncBoth (some bit) 1 0x00 0x02

/-! ### Modes -/

/-- The mode M0–M11 (PWR_MODE). -/
def mode (m : Mach) : Nat := m.get PWR_MODE_MODE

/-- The HQ8 enters a mode (R306, R261). -/
def enterMode (m : Mach) (k : Nat) : Mach :=
  if m.mode = k then m
  else
    let us := if k = 3 ∨ k = 4 then 20 else if k = 5 ∨ k = 6 then 1000 else if k = 7 then 10000 else 0
    let m := (m.set PWR_MODE_MODE k).report (32 * 31)
    if us = 0 then m
    else
      let send (m : Mach) (p : PortId) : Mach := m.when (m.is (HIF_LINK_UP p.val)) fun m =>
        (m.setPort p fun x => { x with ltr := us }).tlp p (.ltr p us)
      send (send m 0) 1

end Mach

end Sys2Proof.Machine
end

