-- ==== Sys2Proof/Machine/Host.lean ====
section
/-! DEFINITION. The host link, controller registers and resets, queues, fetch and completion
(spec/11_host_link_and_queues.md). -/
namespace Sys2Proof.Machine

/-- Whether the error is correctable, and its AER status bit. -/
def LinkError.aer : LinkError → Bool × Nat
  | .poisonedWrite => (false, 12)
  | .unsupported => (false, 20)
  | .malformed => (false, 18)
  | .ecrc => (false, 19)
  | .overflow => (false, 17)
  | .dataLink => (false, 4)
  | .unexpectedCompletion => (false, 16)
  | .receiver => (true, 0)
  | .badTlp => (true, 6)
  | .badDllp => (true, 7)
  | .replayRollover => (true, 8)
  | .replayTimeout => (true, 12)
  | .advisory => (true, 13)

namespace Mach

/-- Dual-port mode (R256). -/
def dual (m : Mach) : Bool := m.is HIF_MODE_DUAL

/-- The port may train (R259). -/
def mayTrain (m : Mach) (p : PortId) : Bool :=
  !m.host.ports[p].perst &&
    (if p = 0 then m.is HIF_CTRL_TRAIN_EN0 else m.is HIF_CTRL_TRAIN_EN1 && m.dual)

/-- Highest rate code (HIF_MODE.MAXSPEED). -/
def maxSpeed (m : Mach) : Nat :=
  let s := m.get HIF_MODE_MAXSPEED
  if s = 0 ∨ 5 < s then 5 else s

/-- CSTS.CFS of a controller. -/
def cfs (m : Mach) (p : PortId) : Bool := m.host.ctrls[p].cfsOwn || m.host.ctrls[p].cfsFatal

/-- HIF_CC and QSQ_ARB follow the controller. -/
def syncCtrl (m : Mach) (p : PortId) : Mach :=
  let c := m.host.ctrls[p]
  let m := (((m.setFlag (HIF_CC_EN p.val) (c.cc.getLsbD 0)).setFlag (HIF_CC_RDY p.val) c.rdy).setFlag (HIF_CC_CFS p.val)
    (m.cfs p)).set (HIF_CC_SHST p.val) c.shst
  let m := (m.set (QSQ_ARB_AB p.val) c.feat.ab).setFlag (QSQ_ARB_WRR p.val) (getBits c.cc 11 3 == 1)
  ((m.set (QSQ_ARB_LPW p.val) c.feat.lpw).set (QSQ_ARB_MPW p.val) c.feat.mpw).set (QSQ_ARB_HPW p.val) c.feat.hpw

/-- QSQ_HALT and QSQ_QHOE follow the queues of a controller. -/
def syncHalt (m : Mach) (p : PortId) : Mach :=
  let c := m.host.ctrls[p]
  let words (f : Nat → Bool) (k : Nat) : Nat :=
    (List.range 32).foldl (fun s b => if f (32 * k + b + 1) then s + 2 ^ b else s) 0
  (List.range 4).foldl (fun m k =>
    (m.set (QSQ_HALT_HALTED p.val k) (words (fun q => c.sqs.any fun s => s.id == q && s.halted.isSome) k)).set
      (QSQ_QHOE_ENABLED p.val k) (words (fun q => c.feat.qhoe.any (·.1 == q)) k)) m

/-- QSQ_STAT follows the grants and the entries before the overlap checker. -/
def syncFetch (m : Mach) : Mach :=
  let busy := (allFin 4).foldl (fun s k => if m.host.grants[k].isSome then s + 2 ^ k.val else s) 0
  let inflight (p : PortId) : Bool := m.cmd.table.any fun c => c.ctrl == p && (c.stage == .granted || c.stage == .fetched)
  ((m.set QSQ_STAT_BUSY busy).setFlag QSQ_STAT_INFLIGHT0 (inflight 0)).setFlag QSQ_STAT_INFLIGHT1 (inflight 1)

/-! ### Controller reset (R279–R281) -/

/-- Every unbound speculative sector is discarded, and those bound to a command of `gone` too; a copy left without a bound
sector is freed (R26). What its sectors still bring ends in no copy (R21). -/
def dropSpecs (m : Mach) (gone : List Nat) : Mach :=
  let drop (s : SpecSector) : Bool := match s with
    | .filling | .decoded _ | .absent => true
    | .bound f _ => gone.contains f
    | .discarded => false
  let handles := m.cmd.specs.flatMap fun c => c.sectors.filterMap fun s =>
    match s with
    | .decoded h => some h
    | .bound f (some h) => if gone.contains f then some h else none
    | _ => none
  let m := m.setCmdState fun c =>
    { c with specs := c.specs.filterMap fun k =>
        let ss := k.sectors.map fun s => if drop s then .discarded else s
        if ss.all (· == .discarded) then none else some { k with sectors := ss } }
  handles.foldl (fun m h => poolFree (BitVec.ofNat 24 h) m) m

/-- Commands end with an abort status; the ladder jobs that only they waited for are withdrawn (R132). -/
def abortCommands (m : Mach) (gone : List Cmd) (status : Nat) : Mach :=
  (gone.foldl (fun m d => m.finish d.fsn status) m).withdrawAborted gone

/-- Every command of a controller is abandoned: no completion is posted for it; a write whose data is wholly in the buffer
stands, any other leaves the overlap checker (R280, R281). -/
def abandonCommands (m : Mach) (p : PortId) : Mach :=
  let gone := m.cmd.table.filter (·.ctrl == p)
  let m := dmaBlockWrite (m.is DMA_CTRL_BLOCK0 || p == 0) (m.is DMA_CTRL_BLOCK1 || p == 1) m
  let m := m.withdrawReset gone
  let m := m.setTable fun t => t.filter (·.ctrl != p)
  let m := { m with host := { m.host with grants := m.host.grants.map fun (g : Option Grant) => g.filter (·.ctrl != p) } }
  let m := (gone.filter fun c => c.live && c.kind == some .write && !c.inBuffer).foldl (fun m c => m.withdrawWrite c) m
  let m := (m.dropSpecs (gone.map (·.fsn))).sweepKept
  let m := m.setFlag (if p = 0 then DMA_CTRL_BLOCK0 else DMA_CTRL_BLOCK1) (decide (m.mode = 11))
  m.syncFetch

/-- Sections of a pending bundle take effect at a reset of its class or a higher one (R334). -/
def applyPending (m : Mach) (cls : Nat) : Mach :=
  match m.sec.flash.pending with
  | none => m
  | some (slot, c) =>
    if cls < c then m
    else
      match (if slot = 2 then m.sec.flash.slot2 else m.sec.flash.slot3) with
      | none => m
      | some b =>
        let m := m.loadStores b
        let m := m.applyConfig b (fun _ => true) fun _ => true
        { m with sec := { m.sec with
            active := some b, svnDue := true, flash := { m.sec.flash with pending := none, active := slot } } }

/-- A reset of the controller of a port (R279, R280). `keep`: a write of CC.EN = 0 keeps AQA, ASQ, ACQ, INTMS and the other
fields of CC. In M10 and M11, and after CFS raised by a fatal event, Ibzin requests a software reset (R283, R307). -/
def controllerReset (m : Mach) (p : PortId) (keep : Bool) : Mach :=
  if m.mode = 10 ∨ m.mode = 11 ∨ m.host.ctrls[p].cfsFatal then m.softReset
  else
    let m := m.abandonCommands p
    let m := m.setCtrl p fun c =>
      let d := { Ctrl.initial with
        nssro := c.nssro, errors := c.errors, errorCount := c.errorCount
        changedNs := c.changedNs, changedZone := c.changedZone }
      if keep then { d with cc := c.cc &&& ~~~1, aqa := c.aqa, asq := c.asq, acq := c.acq, intms := c.intms } else d
    let m := m.applyPending 1
    ((m.syncCtrl p).syncHalt p).report (134 + p.val)

/-- The data link of a port is down. -/
def linkOff (m : Mach) (p : PortId) : Mach :=
  ((((m.set (HIF_LINK_UP p.val) 0).set (HIF_LINK_SPEED p.val) 0).set (HIF_LINK_WIDTH p.val) 0).set
    (HIF_LINK_PMSTATE p.val) 0).setPort p fun h => { h with d3hot := false }

/-- The configuration space of a function returns to its reset values. -/
def resetConfig (m : Mach) (p : PortId) : Mach :=
  m.setPort p fun h => { HostPort.initial with perst := h.perst }

/-- A link-down event (R279, R371). -/
def linkDownEvent (m : Mach) (p : PortId) : Mach :=
  ((((m.linkOff p).resetConfig p).set (HIF_RSTCAUSE_LINKDOWN p.val) 1).report (132 + p.val)).controllerReset p false

/-- The configurable ball is driven by its function (R392). -/
def drivePad (m : Mach) (i : PadId) : Mach := m.setRst fun r => { r with driven := r.driven.set i true }

end Mach

/-- TRAIN_EN_WRITE (R259, R392): HIF_CTRL is written; a written enable drives its CLKREQ_N ball, and a cleared one takes
the link down. -/
def trainEnWrite (en0 en1 : Bool) (m : Mach) : Mach :=
  let m := (m.setFlag HIF_CTRL_TRAIN_EN0 en0).setFlag HIF_CTRL_TRAIN_EN1 en1
  let m := (m.when en0 (·.drivePad 5)).when en1 (·.drivePad 6)
  let m := m.when (!en0 && m.is (HIF_LINK_UP 0)) (·.linkDownEvent 0)
  m.when (!en1 && m.is (HIF_LINK_UP 1)) (·.linkDownEvent 1)

/-- LINK_UP (R256): a port that may train comes up at a rate of its mode and a width of 1, 2 or 4 lanes. The LTSSM code is
a free value. -/
def linkUp (p : PortId) (speed : Fin 6) (width : Fin 5) (m : Mach) : Mach :=
  if m.mayTrain p ∧ ¬ m.is (HIF_LINK_UP p.val) ∧ 1 ≤ speed.val ∧ speed.val ≤ m.maxSpeed ∧
      (width.val = 1 ∨ width.val = 2 ∨ (width.val = 4 ∧ ¬ m.dual)) then
    let m := ((m.set (HIF_LINK_UP p.val) 1).set (HIF_LINK_SPEED p.val) speed.val).set (HIF_LINK_WIDTH p.val) width.val
    (m.set (HIF_LINK_LTSSM p.val) m.free).nextFree
  else m

/-- LINK_DOWN (R279). -/
def linkDown (p : PortId) (m : Mach) : Mach := if m.is (HIF_LINK_UP p.val) then m.linkDownEvent p else m

/-- PERST_ASSERT (R279). -/
def perstAssert (p : PortId) (m : Mach) : Mach :=
  if m.host.ports[p].perst then m
  else
    let m := (((m.linkOff p).resetConfig p).setPort p fun h => { h with perst := true }).set (HIF_RSTCAUSE_PERST p.val) 1
    m.controllerReset p false

/-- PERST_DEASSERT (R279): outside M8 the port may train again. -/
def perstDeassert (p : PortId) (m : Mach) : Mach := m.setPort p fun h => { h with perst := false }

/-- HOT_RESET (R279). -/
def hotReset (p : PortId) (m : Mach) : Mach :=
  if m.is (HIF_LINK_UP p.val) then ((m.resetConfig p).set (HIF_RSTCAUSE_HOT p.val) 1).controllerReset p false else m

/-- FUNCTION_LEVEL_RESET (R279). -/
def functionLevelReset (p : PortId) (m : Mach) : Mach :=
  if m.is (HIF_LINK_UP p.val) then ((m.resetConfig p).set (HIF_RSTCAUSE_FLR p.val) 1).controllerReset p false else m

/-- The values at enable lie within R264. -/
def Ctrl.enableOk (c : Ctrl) (cc : Word) : Bool :=
  let page := 2 ^ (12 + getBits cc 7 4)
  (getBits cc 4 3 == 0 || getBits cc 4 3 == 6) && decide (getBits cc 7 4 ≤ 3) && decide (getBits cc 11 3 ≤ 1) &&
    getBits cc 16 4 == 6 && getBits cc 20 4 == 4 &&
    decide (1 ≤ getBits c.aqa 0 12) && decide (1 ≤ getBits c.aqa 16 12) && c.asq % page == 0 && c.acq % page == 0

/-- CC_EN_SET (R264): CC is written with EN = 1: the controller becomes ready with its admin queues, or CFS rises. -/
def ccEnSet (p : PortId) (cc : Word) (m : Mach) : Mach :=
  let c := m.host.ctrls[p]
  let w := cc ||| 1
  if c.cc.getLsbD 0 then (m.setCtrl p fun c => { c with cc := w }).syncCtrl p
  else if !m.rst.coresUp then (m.setCtrl p fun c => { c with cc := w }).syncCtrl p
  else if c.enableOk w then
    let sq : SubQueue := ⟨0, getBits c.aqa 0 12 + 1, c.asq, 0, 0, 0, 0, 0, none, 0, false⟩
    let cq : CompQueue := ⟨0, getBits c.aqa 16 12 + 1, c.acq, 0, true, 0, 0, true⟩
    (m.setCtrl p fun c => { c with cc := w, rdy := true, sqs := [sq], cqs := [cq] }).syncCtrl p
  else (m.setCtrl p fun c => { c with cc := w, cfsOwn := true }).syncCtrl p

/-- CC_EN_CLEAR (R264, R279). -/
def ccEnClear (p : PortId) (m : Mach) : Mach :=
  if m.host.ctrls[p].cc.getLsbD 0 then (m.set (HIF_RSTCAUSE_CC_EN p.val) 1).controllerReset p true else m

/-- CC.SHN of a controller is written. -/
def Mach.shutdown (m : Mach) (p : PortId) (shn : Nat) : Mach :=
  (m.setCtrl p fun c => { c with cc := setBits c.cc 14 2 shn, shst := 1 }).syncCtrl p

/-- SHUTDOWN_NORMAL (R276). -/
def shutdownNormal (p : PortId) (m : Mach) : Mach := if m.host.ctrls[p].rdy then m.shutdown p 1 else m

/-- SHUTDOWN_ABRUPT (R276). -/
def shutdownAbrupt (p : PortId) (m : Mach) : Mach :=
  if m.host.ctrls[p].rdy then (m.abandonCommands p).shutdown p 2 else m

/-- Every dirty unit of the subsystem is destaged and every track-parity group closed. -/
def Mach.allDestaged (m : Mach) : Bool :=
  m.pwr.dirty.all (·.isMeta) && (allFin 4).all fun a => m.media.wpath[a].groups.all (·.covered == 15)

/-- An Asynchronous Event Request: it waits without end. -/
def Cmd.isAer (c : Cmd) : Bool := c.admin && c.opcode == 0x0C

/-- SHUTDOWN_COMPLETE (R276). -/
def shutdownComplete (p : PortId) (m : Mach) : Mach :=
  if m.host.ctrls[p].shst = 1 ∧ m.allDestaged ∧ ¬ m.cmd.table.any (fun c => c.ctrl == p && !c.isAer) then
    (m.setCtrl p fun c => { c with shst := 2 }).syncCtrl p
  else m

/-- The NVM subsystem reset (R282): both controllers are reset, patch classes deferred to it are applied, and both ports
retrain. -/
def Mach.subsystemReset (m : Mach) : Mach :=
  if m.mode = 10 ∨ m.mode = 11 ∨ m.host.ctrls[(0 : PortId)].cfsFatal ∨ m.host.ctrls[(1 : PortId)].cfsFatal then m.softReset
  else
    let one (m : Mach) (p : PortId) : Mach :=
      ((m.set (HIF_RSTCAUSE_NSSR p.val) 1).controllerReset p false).setCtrl p fun c => { c with nssro := true }
    let m := (one (one m 0) 1).applyPending 2
    (((m.linkOff 0).resetConfig 0).linkOff 1).resetConfig 1

/-- NSSR_WRITE (R282). -/
def nssrWrite (w : Word) (m : Mach) : Mach := if w = 0x4E564D65 then m.subsystemReset else m

/-- An ignored doorbell (R265). -/
def Mach.badDoorbell (m : Mach) (p : PortId) (value : Bool) : Mach :=
  if value then (m.flagEvent QSQ_ERR_DB_VALUE 129).asyncEvent p none 0 1 1
  else (m.flagEvent QSQ_ERR_DB_NOQ 128).asyncEvent p none 0 0 1

/-- SQ_TAIL_DOORBELL (R265). -/
def sqTailDoorbell (p : PortId) (qid v : BitVec 16) (m : Mach) : Mach :=
  match m.host.ctrls[p].sqs.find? (·.id == qid.toNat) with
  | none => m.badDoorbell p false
  | some q =>
    if q.size ≤ v.toNat then m.badDoorbell p true
    else m.setCtrl p fun c =>
      { c with sqs := c.sqs.map fun s => if s.id == qid.toNat then { s with tail := v.toNat } else s }

/-- CQ_HEAD_DOORBELL (R265, R272): the new head lies between the last reported head and the last posted entry. INTx of a
vector is deasserted once its queues are empty. -/
def cqHeadDoorbell (p : PortId) (qid v : BitVec 16) (m : Mach) : Mach :=
  match m.host.ctrls[p].cqs.find? (·.id == qid.toNat) with
  | none => m.badDoorbell p false
  | some q =>
    if q.size ≤ v.toNat ∨ (q.tail + q.size - q.head) % q.size < (v.toNat + q.size - q.head) % q.size then m.badDoorbell p true
    else m.setCtrl p fun c =>
      let cqs := c.cqs.map fun s => if s.id == qid.toNat then { s with head := v.toNat } else s
      { c with cqs := cqs, intx := c.intx.filter fun i => cqs.any fun s => s.vector == i && s.head != s.tail }

/-- RECEIVED_ERROR (R262): no TLP of it reaches the logic; it is logged in AER and counted. -/
def receivedError (p : PortId) (e : LinkError) (m : Mach) : Mach :=
  let (corr, bit) := e.aer
  if corr then m.aerCorrectable p bit else m.aerUncorr p bit

/-- ASPM_L1_ENTRY (R261): to L1, or to L1.1 or L1.2 where the host allows the substate; L1.2 only while the latency of the last
LTR message is at least the threshold. -/
def aspmL1Entry (p : PortId) (sub : Fin 3) (m : Mach) : Mach :=
  let h := m.host.ports[p]
  if h.aspmL1 ∧ m.is (HIF_LINK_UP p.val) ∧ m.get (HIF_LINK_PMSTATE p.val) = 0 ∧ (sub = 0 ∨ (sub = 1 ∧ h.l11) ∨ (sub = 2 ∧ h.l12 ∧ h.l12Thr ≤ 1000 * h.ltr)) then
    m.set (HIF_LINK_PMSTATE p.val) (1 + sub.val)
  else m

/-- ASPM_L1_EXIT (R261). -/
def aspmL1Exit (p : PortId) (m : Mach) : Mach :=
  let s := m.get (HIF_LINK_PMSTATE p.val)
  if 1 ≤ s ∧ s ≤ 3 then m.set (HIF_LINK_PMSTATE p.val) 0 else m

/-- D3HOT_TRANSITION (R261). -/
def d3hotTransition (p : PortId) (d3 : Bool) (m : Mach) : Mach :=
  (m.setPort p fun h => { h with d3hot := d3 }).set (HIF_LINK_PMSTATE p.val) (if d3 then 4 else 0)

/-- FETCH_EN_WRITE (R270). -/
def fetchEnWrite (en0 en1 : Bool) (m : Mach) : Mach := (m.setFlag QSQ_CTRL_FETCH_EN0 en0).setFlag QSQ_CTRL_FETCH_EN1 en1

/-! ### Arbitration and fetch (R268–R270) -/

/-- Unfetched entries of a queue. -/
def SubQueue.waiting (q : SubQueue) : Nat := (q.tail + q.size - q.head) % q.size

/-- The arbiter may grant from the queue: it has unfetched entries and is neither halted nor being deleted. -/
def SubQueue.ready (q : SubQueue) : Bool := decide (0 < q.waiting) && (q.halted.isNone || decide (0 < q.discard)) && !q.closing

/-- The queue served next after `last`, in the order of identifiers. -/
def rrQueue (last : Nat) (qs : List SubQueue) : Option SubQueue :=
  let ok := qs.filter (·.ready)
  let lowest (l : List SubQueue) : Option SubQueue :=
    l.foldl (fun b q => match b with
      | none => some q
      | some x => if q.id < x.id then some q else b) none
  match lowest (ok.filter fun q => last < q.id) with
  | some q => some q
  | none => lowest ok

/-- A choice of the arbiter: the queue, its class in `lastSq`, the commands its class may still fetch in the round, and the
shares after the classes with nothing to fetch gave theirs up. -/
structure ArbChoice where
  queue  : SubQueue
  cls    : Fin 5
  limit  : Nat
  shares : Vector Nat 3
  deriving DecidableEq, Repr

/-- The weighted classes in their order, with a share each (R268). -/
def Ctrl.weighted (c : Ctrl) (shares : Vector Nat 3) : Option ArbChoice :=
  let queue (k : Fin 3) : Option SubQueue :=
    rrQueue (c.lastSq.getD (2 + k.val) 0) (c.sqs.filter fun q => q.id != 0 && q.prio == 1 + k.val)
  let shares : Vector Nat 3 := Vector.ofFn fun k => if (queue k).isNone then 0 else shares[k]
  (allFin 3).findSome? fun k =>
    match queue k with
    | some q => if 0 < shares[k] then some ⟨q, Fin.ofNat 5 (2 + k.val), shares[k], shares⟩ else none
    | none => none

/-- The arbiter's choice (R268). -/
def Ctrl.choose (c : Ctrl) : Option ArbChoice :=
  if getBits c.cc 11 3 = 1 then
    match rrQueue 0 (c.sqs.filter (·.id == 0)) with
    | some q => some ⟨q, 0, 8, c.shares⟩
    | none =>
      match rrQueue (c.lastSq.getD 1 0) (c.sqs.filter fun q => q.id != 0 && q.prio == 0) with
      | some q => some ⟨q, 1, 8, c.shares⟩
      | none =>
        match c.weighted c.shares with
        | some x => some x
        | none => c.weighted #v[c.feat.hpw + 1, c.feat.mpw + 1, c.feat.lpw + 1]
  else (rrQueue (c.lastSq.getD 0 0) c.sqs).map fun q => ⟨q, 0, 8, c.shares⟩

/-- Shared table entries and reserve entries of each controller. -/
def sharedEntries : Nat := 4064
def reserveEntries : Nat := 16

namespace Mach

/-- Free shared entries. -/
def sharedFree (m : Mach) : Nat := sharedEntries - m.cmd.table.countP (!·.reserve)

/-- Free reserve entries of a controller. -/
def reserveFree (m : Mach) (p : PortId) : Nat := reserveEntries - m.cmd.table.countP fun c => c.reserve && c.ctrl == p

/-- The controller fetches (R261, R270, R276, R283, R306). -/
def fetches (m : Mach) (p : PortId) : Bool :=
  m.host.ctrls[p].rdy && !m.cfs p && m.is (if p = 0 then QSQ_CTRL_FETCH_EN0 else QSQ_CTRL_FETCH_EN1) &&
    m.host.ctrls[p].shst == 0 && !m.host.ports[p].d3hot && m.mode != 8 && m.mode != 9 && m.mode != 11

/-- The lowest idle queue sequencer that has not halted. -/
def idleQs (m : Mach) : Option (Fin 4) :=
  (allFin 4).find? fun k => m.host.grants[k].isNone && m.get (SEQ_STAT_STATE (seqQS k).val) != 3

/-- What a controller offers: its choice and the size of the grant; none where R270 stops the arbiter. While fewer than 8
shared entries are free only the admin queue is served, from shared and reserve entries together. -/
def offer (m : Mach) (p : PortId) : Option (ArbChoice × Nat) :=
  let c := m.host.ctrls[p]
  if !m.fetches p then none
  else
    let c := if m.sharedFree < 8 then { c with sqs := c.sqs.filter (·.id == 0) } else c
    match c.choose with
    | none => none
    | some x =>
      let size := min (min (min 8 (2 ^ c.feat.ab)) x.limit) x.queue.waiting
      let cover := m.sharedFree + (if x.queue.id = 0 then m.reserveFree p else 0)
      if size ≤ cover then some (x, size) else none

/-- The table entries of a grant: shared ones first, then reserve entries. -/
def grantCmds (m : Mach) (p : PortId) (q : SubQueue) (fsn k : Nat) : List Cmd :=
  (List.range k).map fun (i : Nat) =>
    { fsn := (fsn + i) % 2 ^ 32, ctrl := p, sqid := q.id, sqe := 0, stage := CmdStage.granted
      reserve := Nat.ble m.sharedFree i, kind := none, ranges := [], inBuffer := false, durable := false
      verdict := none, slba := 0, result := none, discard := Nat.blt i q.discard, units := [], core := 0
      target := none, begun := false, superseded := [], loc := 0xFFFF, badLba := 0, blank := [], shadow := [] }

/-- The grant of controller `p` is accepted (R16, R268, R269). -/
def acceptGrant (m : Mach) (p : PortId) (k : Fin 4) (x : ArbChoice) (size : Nat) : Mach :=
  let q := x.queue
  let first := (m.get QSQ_FSN_FSN + 1) % 2 ^ 32
  let cmds := m.grantCmds p q first size
  let m := m.setTable (· ++ cmds)
  let m := m.set QSQ_FSN_FSN (m.get QSQ_FSN_FSN + size)
  let m := m.setCtrl p fun c =>
    let shares := if 2 ≤ x.cls.val then
      Vector.ofFn (n := 3) fun i => if i.val + 2 = x.cls.val then x.shares[i] - size else x.shares[i]
      else x.shares
    { c with
      lastSq := c.lastSq.set x.cls q.id, shares := shares
      sqs := c.sqs.map fun s =>
        if s.id == q.id then { s with head := (s.head + size) % s.size, discard := s.discard - size } else s }
  let g : Grant := ⟨p, q.id, size, q.head, first, false, false⟩
  let m := { m with host := { m.host with grants := m.host.grants.set k (some g), lastCtrl := p } }
  m.syncFetch

end Mach

/-- ARBITER_GRANT (R16, R268–R270): the grant stage accepts one offer; when both controllers offer, the one that was not
accepted last. -/
def arbiterGrant (m : Mach) : Mach :=
  match m.idleQs with
  | none => m
  | some k =>
    match m.offer 0, m.offer 1 with
    | some (x, s), none => m.acceptGrant 0 k x s
    | none, some (x, s) => m.acceptGrant 1 k x s
    | some (x, s), some (y, t) => if m.host.lastCtrl = 1 then m.acceptGrant 0 k x s else m.acceptGrant 1 k y t
    | none, none => m

/-- The memory reads of `n` bytes at `a`: aligned to the request size (R244, R269). -/
def readsOf (mrrs : Nat) : Nat → Nat → Nat → List (Nat × Nat)
  | 0, _, _ => []
  | fuel + 1, a, n =>
    if n = 0 then [] else
    let k := min n (mrrs - a % mrrs)
    (a, k) :: readsOf mrrs fuel (a + k) (n - k)

/-- FETCH (R269): the sequencer reads the granted entries, in ring order. -/
def fetch (k : Fin 4) (m : Mach) : Mach :=
  match m.host.grants[k] with
  | none => m
  | some g =>
    match m.host.ctrls[g.ctrl].sqs.find? (·.id == g.sqid) with
    | none => m
    | some q =>
      if g.issued then m
      else
        let mrrs := max 128 (m.host.ports[g.ctrl].mrrs)
        let part (slot n : Nat) : List (Nat × Nat) := readsOf mrrs (64 * n) (q.base + 64 * slot) (64 * n)
        let n1 := min g.count (q.size - g.slot)
        let reads := part g.slot n1 ++ part 0 (g.count - n1)
        let m := reads.foldl (fun m r => m.tlp g.ctrl (.fetch .read g.ctrl r.1 r.2)) m
        { m with host := { m.host with grants := m.host.grants.set k (some { g with issued := true }) } }

/-- FETCH_COMPLETE (R262, R269): the entries arrive, or the read fails: it is made once more, and a second failure raises
CFS; its numbers then belong to no command. -/
def fetchComplete (k : Fin 4) (data : Option (List (BitVec 512))) (m : Mach) : Mach :=
  match m.host.grants[k] with
  | none => m
  | some g =>
    if !g.issued then m
    else
      let release (m : Mach) : Mach := { m with host := { m.host with grants := m.host.grants.set k none } }
      match data with
      | some sqes =>
        let put (c : Cmd) : Cmd :=
          let i := (c.fsn + 2 ^ 32 - g.fsn) % 2 ^ 32
          if i < g.count then { c with sqe := sqes.getD i 0, stage := .fetched } else c
        let m := m.setTable (·.map put)
        let m := m.setCtrl g.ctrl fun c =>
          { c with sqs := c.sqs.map fun s => if s.id == g.sqid then { s with fetched := (s.fetched + g.count) % s.size } else s }
        (release m).syncFetch
      | none =>
        let m := m.flagEvent QSQ_ERR_FETCH_FAIL 130
        if g.retried then
          let m := m.flagEvent QSQ_ERR_FETCH_FATAL 131
          let m := m.setTable fun t => t.filter fun c => !decide ((c.fsn + 2 ^ 32 - g.fsn) % 2 ^ 32 < g.count)
          let m := (m.setCtrl g.ctrl fun c => { c with cfsOwn := true }).syncCtrl g.ctrl
          (release m).syncFetch
        else
          { m with host := { m.host with grants := m.host.grants.set k (some { g with issued := false, retried := true }) } }

/-! ### Completion (R272, R273, R277, R286) -/

/-- Queue Halt on Error is in force for a command (R303). -/
def Mach.haltsOn (m : Mach) (c : Cmd) : Bool :=
  m.host.ctrls[c.ctrl].feat.qhoe.any fun q => q.1 == c.sqid && fsnBefore q.2 c.fsn

/-- The status field of a completion entry: SC, SCT, CRD 0, M, DNR (R286). -/
def statusField (s : Nat) : Nat := s + (if s = stOk then 0 else 2 ^ 13) + (if statusDnr s then 2 ^ 14 else 0)

/-- The 16 bytes of a completion entry. -/
def cqBytes (dw0 sqHead sqid cid : Nat) (phase : Bool) (status : Nat) : List Byte :=
  toBytesLE 8 dw0 ++ toBytesLE 2 sqHead ++ toBytesLE 2 sqid ++ toBytesLE 2 cid ++
    toBytesLE 2 (bitNat phase + 2 * statusField status)

/-- A track-parity group whose parity does not cover all its members touches a range (R95). -/
def Mach.groupOpen (m : Mach) (r : LbaRange) : Bool :=
  (allFin 4).any fun a => m.media.wpath[a].groups.any fun g =>
    !g.key.save && g.covered != 15 && g.key.ns + 1 == r.nsid && decide (g.key.first < r.first + r.count) && decide (r.first < g.key.first + 128)

/-- A command that must be durable is: none of its units is dirty and no group it touched is open (R274). -/
def Mach.isDurable (m : Mach) (c : Cmd) : Bool :=
  !c.durable || (!m.pwr.dirty.any (fun u => u.fsn == some c.fsn) && !c.ranges.any m.groupOpen)

namespace Mach

/-- The interrupt of a vector is sent: an MSI-X message, or INTx, which stays asserted and shows unless it is masked (R263,
R273). -/
def interrupt (m : Mach) (p : PortId) (v : Nat) : Mach :=
  if m.host.ports[p].msix then m.tlp p (.msix .plain p v)
  else
    let m := m.setCtrl p fun c => { c with intx := insertNat v c.intx }
    m.when (!(v < 32 && m.host.ctrls[p].intms.getLsbD v)) fun m => m.tlp p (.intx p v)

/-- INTMC unmasks vectors: those that are asserted show (R263). -/
def unmaskInt (m : Mach) (p : PortId) (w : Word) : Mach :=
  let shown := m.host.ctrls[p].intx.filter fun v => decide (v < 32) && w.getLsbD v && m.host.ctrls[p].intms.getLsbD v
  let m := m.setCtrl p fun c => { c with intms := c.intms &&& ~~~w }
  shown.foldl (fun m v => m.tlp p (.intx p v)) m

/-- The interrupt of a posted entry, which coalescing may delay (R273): only I/O queues whose vector allows it. -/
def postInterrupt (m : Mach) (p : PortId) (q : CompQueue) : Mach :=
  let f := m.host.ctrls[p].feat
  if !q.ien then m
  else if f.coalTime = 0 ∨ q.id = 0 ∨ f.vecCd.contains q.vector then m.interrupt p q.vector
  else
    let n := (getPair 0 q.vector m.host.ctrls[p].coalescing) + 1
    if f.coalThr < n then
      (m.setCtrl p fun c => { c with coalescing := putPair 0 q.vector 0 c.coalescing }).interrupt p q.vector
    else m.setCtrl p fun c => { c with coalescing := putPair 0 q.vector n c.coalescing }

/-- An Error Information entry is made (R413). -/
def errorEntry (m : Mach) (p : PortId) (sqid cid status loc lba nsid : Nat) (source : Option Nat) : Mach :=
  m.setCtrl p fun c =>
    { c with errorCount := c.errorCount + 1
             errors := (⟨c.errorCount + 1, sqid, cid, status, loc, lba, nsid, source, none⟩ :: c.errors).take 256 }

/-- A failed command of a halting queue halts its queue (R277). -/
def haltQueue (m : Mach) (c : Cmd) (status : Nat) : Mach :=
  let halted := m.host.ctrls[c.ctrl].sqs.any fun q => q.id == c.sqid && q.halted.isSome
  if m.haltsOn c && status != stOk && !halted && !c.discard then
    let m := m.setCtrl c.ctrl fun x =>
      { x with sqs := x.sqs.map fun q =>
          if q.id == c.sqid then { q with halted := some (c.cid, statusField status, c.fsn) } else q }
    ((m.syncHalt c.ctrl).report (142 + c.ctrl.val)).asyncEvent c.ctrl (some 31) 7 0xC0 0xC1
  else m

end Mach

/-- A speculative copy whose bound sectors belong to an ended read lets them go. -/
def Mach.releaseBound (m : Mach) (fsn : Nat) : Mach :=
  m.setCmdState fun c =>
    { c with specs := c.specs.filterMap fun k =>
        let ss := k.sectors.map fun s => match s with
          | .bound f _ => if f = fsn then .discarded else s
          | _ => s
        if ss.all (· == .discarded) then none else some { k with sectors := ss } }

/-- COMPLETION_POST (R261, R272–R274, R277, R283, R286, R413): the entry of a decided command is written once its
completion queue has room, and its interrupt sent; `ok` is false where the post fails, which raises CFS. -/
def completionPost (fsn : BitVec 32) (ok : Bool) (m : Mach) : Mach :=
  match m.command fsn.toNat with
  | none => m
  | some c =>
    match c.result with
    | none => m
    | some r =>
      let p := c.ctrl
      let x := m.host.ctrls[p]
      match x.sqs.find? (·.id == c.sqid) with
      | none => m
      | some sq =>
        match x.cqs.find? (·.id == sq.cq) with
        | none => m
        | some cq =>
          if m.cfs p ∨ m.host.ports[p].d3hot ∨ m.mode = 9 ∨ (cq.tail + 1) % cq.size = cq.head ∨ ¬ m.isDurable c then m
          else if !ok then (m.setCtrl p fun x => { x with cfsOwn := true }).syncCtrl p
          else
            let m := m.tlp p (.completion .plain p (cq.base + 16 * cq.tail) (cqBytes r.dw0 sq.fetched sq.id c.cid cq.phase r.status))
            let next := (cq.tail + 1) % cq.size
            let cq' := { cq with tail := next, phase := if next = 0 then !cq.phase else cq.phase }
            let m := m.setCtrl p fun x => { x with cqs := x.cqs.map fun q => if q.id == cq.id then cq' else q }
            let m := m.postInterrupt p cq
            let m := m.when (r.status != stOk) fun m =>
              m.errorEntry p c.sqid c.cid (bitNat cq.phase + 2 * statusField r.status)
                (if r.status = stField then c.loc else 0xFFFF) c.badLba (if c.nsid ≤ 8 then c.nsid else 0) none
            let m := m.haltQueue c r.status
            (((m.setTable fun t => t.filter (·.fsn != fsn.toNat)).releaseBound fsn.toNat).syncFetch)

/-- INTERRUPT_COALESCING_TIMEOUT (R273): the delayed interrupts of a port are sent. -/
def interruptCoalescingTimeout (p : PortId) (m : Mach) : Mach :=
  let vs := m.host.ctrls[p].coalescing.map (·.1)
  let m := m.setCtrl p fun c => { c with coalescing := [] }
  vs.foldl (fun m v => m.interrupt p v) m

/-- No command other than the commit is dispatched and incomplete, every formatter, ladder, queue and head sequencer is
idle, and no DMA channel holds a descriptor (R284). -/
def Mach.isQuiet (m : Mach) (commit : Nat) : Bool :=
  !m.cmd.table.any (fun c => c.fsn != commit && c.stage == .dispatched && !c.isAer) &&
    (allFin 8).all (fun n => m.get (FMT_STAT_STATE n.val) == 0) &&
    (allFin 4).all (fun a => m.media.lad[a].jobs.isEmpty) &&
    (allFin 4).all (fun k => m.host.grants[k].isNone) &&
    (allFin 4).all (fun a => m.motion.hsq[a].moments.isEmpty) &&
    (allFin 16).all (fun n => m.dma.chans[n].isNone)

/-- QUIET_POINT (R284): Ibzin sets CAL_CTRL.FREEZE. -/
def quietPoint (m : Mach) : Mach :=
  match m.cmd.quiet with
  | some (f, _) => if m.isQuiet f then calFreeze true m else m
  | none => m

end Sys2Proof.Machine
end

