-- ==== Sys2Proof/Machine/Check.lean ====
section
/-! DEFINITION. The overlap check, dispatch, read-ahead and speculative copies
(spec/01_invariant_outcome.md; R271, R277, R295, R296, R299, R343, R430). -/
namespace Sys2Proof.Machine

/-! ### Zones (R296) -/

namespace ZoneState

/-- The zone counts against the active limit. -/
def active : ZoneState → Bool
  | .implicitOpen | .explicitOpen | .closed => true
  | _ => false

/-- The zone counts against the open limit. -/
def isOpen : ZoneState → Bool
  | .implicitOpen | .explicitOpen => true
  | _ => false

end ZoneState

namespace Namespace

/-- Zones in a state that satisfies `p`. -/
def countZones (n : Namespace) (p : ZoneState → Bool) : Nat := n.zones.countP fun z => p z.2.state

/-- The implicitly opened zone whose last write has the lowest fetch sequence number. -/
def oldestImplicit (n : Namespace) : Option Nat :=
  let zs := n.zones.filter fun z => z.2.state == .implicitOpen
  let best := zs.foldl (fun (b : Option (Nat × Zone)) z => match b with
    | none => some z
    | some x => if fsnBefore z.2.last x.2.last then some z else some x) none
  best.map (·.1)

/-- Open zone `z` for a write or explicitly: room is made by closing an implicitly opened zone, or a status says that there
is none (R296). -/
def openZone (n : Namespace) (z : Nat) (dest : ZoneState) : Namespace × Option Nat :=
  let s := n.zone z
  if s.state.isOpen then (n.putZone z { s with state := if s.state = .explicitOpen then .explicitOpen else dest }, none)
  else if !s.state.active && decide (n.limit ≤ n.countZones ZoneState.active) then (n, some stZoneActive)
  else if n.countZones ZoneState.isOpen < n.limit then (n.putZone z { s with state := dest }, none)
  else
    match n.oldestImplicit with
    | some y => ((n.putZone y { n.zone y with state := .closed }).putZone z { s with state := dest }, none)
    | none => (n, some stZoneOpen)

/-- A write of `k` LBAs at offset `off` of zone `z`, with number `fsn`: the namespace after it, and the refusal of R296 if
any. -/
def writeZone (n : Namespace) (z off k fsn : Nat) : Namespace × Option Nat :=
  let s := n.zone z
  if s.state = .offline then (n, some stZoneOffline)
  else if s.state = .full then (n, some stZoneFull)
  else if 65536 < off + k then (n, some stZoneBoundary)
  else if off ≠ s.wp then (n, some stZoneWrite)
  else
    match n.openZone z .implicitOpen with
    | (n', some e) => (n', some e)
    | (n', none) =>
      let x := n'.zone z
      let wp := x.wp + k
      (n'.putZone z { state := if wp = 65536 then .full else x.state, wp := wp, last := fsn }, none)

end Namespace

/-! ### What a command's fields must satisfy -/

/-- Protection information type of a namespace, 0 none (DPS bits 2:0), and its tag width (Table 12-3). -/
def Namespace.piType (n : Namespace) : Nat := if n.flbas % 16 = 0 then 0 else n.dps % 8
def Namespace.tagBits (n : Namespace) : Nat := if n.flbas % 16 = 2 then 48 else 32

/-- The reference tag of a command: 48 bits from CDW3 and CDW14 where the format has them. -/
def Cmd.fullRefTag (c : Cmd) (n : Namespace) : Nat :=
  if n.tagBits = 48 then c.refTag + 2 ^ 32 * c.dw 3 0 16 else c.refTag

/-- The protection fields of a data command are refused (R299). -/
def Cmd.piBad (c : Cmd) (n : Namespace) : Bool :=
  if n.piType = 0 then c.prinfo != 0
  else
    (n.piType == 3 && c.prinfo % 2 == 1) ||
      (n.piType == 1 && c.fullRefTag n != c.firstLba % 2 ^ n.tagBits)

/-- The most LBAs an opcode accepts (Table 12-4). -/
def lbaLimit (opcode : Nat) : Nat :=
  if opcode = 0x7D then 256 else if opcode = 0x01 ∨ opcode = 0x02 ∨ opcode = 0x05 then 1024 else 65536

/-- The byte of the first offending field of a data command (Table 18-3): the NSID for a command that its namespace does not
take, the starting LBA for an append that names no zone, the length otherwise. -/
def Cmd.badByte (c : Cmd) (n : Namespace) : Nat :=
  if n.zoned && (c.opcode == 0x04 || c.opcode == 0x09) || (c.opcode == 0x7D && !n.zoned) then 4
  else if lbaLimit c.opcode < c.lbas ∧ c.opcode ≠ 0x09 then 48
  else 40

namespace Mach

/-- An earlier live Namespace Management Delete names the namespace (R291). -/
def beingDeleted (m : Mach) (c : Cmd) (nsid : Nat) : Bool :=
  m.cmd.table.any fun d => d.admin && d.opcode == 0x0D && d.dw 10 0 4 == 1 && d.live && d.nsid == nsid &&
    (d.stage == .checked || d.stage == .dispatched) && fsnBefore d.fsn c.fsn

/-- The namespace that a command names, attached to its controller. -/
def cmdNs (m : Mach) (c : Cmd) : Option Namespace :=
  (m.nsOf c.nsid).filter fun n => n.attached[c.ctrl] && !m.beingDeleted c n.nsid

/-- The MBR shadow answers reads of this LBA (R343). -/
def mbrAnswers (m : Mach) (nsid l : Nat) : Bool := nsid == 1 && decide (l < 32768) && m.sec.mbrEnable && !m.sec.mbrDone

/-- The locking object of some LBA of a range is locked for reads or writes (R343). The MBR shadow answers reads of
namespace 1 below 128 MiB. -/
def locked (m : Mach) (write : Bool) (r : LbaRange) : Bool :=
  r.list.any fun l =>
    let o := m.sec.objects[m.lockOf r.nsid l]
    if write then o.writeEn && o.writeLocked
    else o.readEn && o.readLocked && !m.mbrAnswers r.nsid l

/-- The status that a data command gets from its own fields, in this order: namespace, command set, length, LBA range,
protection, locks. -/
def fieldStatus (m : Mach) (c : Cmd) (ranges : List LbaRange) : Option Nat :=
  match m.cmdNs c with
  | none => some stNamespace
  | some n =>
    if n.zoned && (c.opcode == 0x04 || c.opcode == 0x09) then some stField
    else if c.opcode != 0x09 && decide (lbaLimit c.opcode < c.lbas) then some stField
    else if c.opcode == 0x7D && (!n.zoned || c.firstLba % 65536 != 0) then some stField
    else if ranges.any fun r => n.nsze < r.first + r.count then some stLbaRange
    else if c.opcode != 0x04 && c.opcode != 0x09 && c.piBad n then some stPi
    else if ranges.any fun r => m.locked (!c.readIo) r then some stSequence
    else if n.zoned && c.readIo && decide (c.firstLba / 65536 ≠ (c.firstLba + c.lbas - 1) / 65536) then some stZoneBoundary
    else none

/-! ### Ordering effects of a check (Table 1-3) -/

/-- A read binds the unbound speculative sectors that it overlaps (R23). -/
def bindSpecs (m : Mach) (fsn : Nat) (r : LbaRange) : Mach :=
  let bind (k : SpecCopy) (i : Nat) (s : SpecSector) : SpecSector :=
    if k.nsid == r.nsid && decide (r.first ≤ k.first + i) && decide (k.first + i < r.first + r.count) then
      match s with
      | .decoded h => .bound fsn (some h)
      | .filling => .bound fsn none
      | s => s
    else s
  m.setCmdState fun c =>
    { c with specs := c.specs.map fun k => { k with sectors := k.sectors.mapIdx fun i s => bind k i s } }

/-- A write discards the unbound speculative sectors that it overlaps, in the same step (R13, R21). -/
def discardSpecs (m : Mach) (r : LbaRange) : Mach :=
  let hit (k : SpecCopy) (i : Nat) : Bool :=
    k.nsid == r.nsid && decide (r.first ≤ k.first + i) && decide (k.first + i < r.first + r.count)
  let handles := m.cmd.specs.flatMap fun k => (k.sectors.mapIdx fun i s => match s with
    | .decoded h => if hit k i then [h] else []
    | _ => []).flatten
  let m := m.setCmdState fun c =>
    { c with specs := c.specs.map fun k => { k with sectors := k.sectors.mapIdx fun i s => match s with
        | .decoded _ | .filling | .absent => if hit k i then .discarded else s
        | s => s } }
  handles.foldl (fun m h => poolFree (BitVec.ofNat 24 h) m) m

/-- Units of 4,096 LBAs that a range covers whole, and the parts of it that lie in other units (R295). -/
def wholeUnits (r : LbaRange) : List Nat :=
  let a := (r.first + 4095) / 4096
  let b := (r.first + r.count) / 4096
  (List.range (b - a)).map (a + ·)

/-- LBAs of a range outside the units it covers whole. -/
def partLbas (r : LbaRange) : List Nat := r.list.filter fun l => !(wholeUnits r).contains (l / 4096)

/-- The first write into each unit of these LBAs sets its written bit (R295); the units are remembered in the command. -/
def firstWrites (m : Mach) (fsn nsid : Nat) (lbas : List Nat) : Mach :=
  match m.nsOf nsid with
  | none => m
  | some n =>
    if n.zoned then m
    else
      let us := (lbas.map (· / 4096)).eraseDups.filter fun u => !n.isWritten u
      let m := m.setNs nsid fun n => { n with written := us.foldl (fun w u => insertNat u w) n.written }
      (m.metaChange nsid us).setCommand fsn fun c => { c with units := us }

/-- Deallocation of a range (R295): units covered whole lose their written bit and the dirty data of earlier writes. -/
def deallocate (m : Mach) (fsn nsid : Nat) (r : LbaRange) : Mach :=
  let us := wholeUnits r
  let gone := match m.nsOf nsid with
    | some n => us.filter n.isWritten
    | none => []
  let m := (m.setNs nsid fun n => { n with written := n.written.filter fun u => !us.contains u }).metaChange nsid gone
  us.foldl (fun m u => m.supersede fsn ⟨nsid, 4096 * u, 4096⟩) m

/-- Ordering effects of a checked write on its ranges: speculative sectors are discarded and marks cleared. -/
def orderWrite (m : Mach) (rs : List LbaRange) : Mach := rs.foldl (fun m r => (m.discardSpecs r).clearMarks r) m

/-- The rewrites of a candidate pass in the ranges of a write that passes the overlap checker are discarded (R302). -/
def dropRewrites (m : Mach) (rs : List LbaRange) : Mach :=
  let hit (k : Nat × Nat) : Bool := rs.any fun r => r.nsid == k.1 && decide (r.first ≤ k.2) && decide (k.2 < r.first + r.count)
  match m.cmd.candPass with
  | none => m
  | some p =>
    let gone := p.rewrites.filter hit
    let m := m.setCmdState fun c => { c with candPass := some { p with rewrites := p.rewrites.filter (!hit ·) } }
    m.setPwr fun s => { s with dirty := s.dirty.filter fun u => u.isMeta || u.fsn.isSome || !gone.contains (u.nsid, u.lba) }

/-- A command passes the overlap checker: its stage, kind and ranges, and what was decided. -/
def passed (m : Mach) (fsn : Nat) (kind : Option RangeKind) (rs : List LbaRange) (verdict : Option Nat) : Mach :=
  let m := m.when (kind == some .write) (·.dropRewrites rs)
  (m.setCommand fsn fun c =>
    { c with stage := .checked, kind := kind, ranges := rs, verdict := verdict }).syncFetch

/-- The next command to be checked: the entry with the lowest number that has not passed, once it is fetched (R19,
R269). -/
def nextToCheck (m : Mach) : Option Cmd :=
  match m.cmd.table.find? fun c => c.stage == .granted || c.stage == .fetched with
  | some c => if c.stage = .fetched then some c else none
  | none => none

/-- The opcode has a valid dispatch entry (R271). -/
def opcodeValid (m : Mach) (c : Cmd) : Bool := (m.dispatchEntry c.table c.opcode).getLsbD 0

/-- A Write Uncorrectable marks its LBAs, or marks nothing when the general entries do not suffice (R294). -/
def markWrite (m : Mach) (r : LbaRange) : Option Mach :=
  r.list.foldl (fun (x : Option Mach) l => x.bind fun m => m.markLba false r.nsid l) (some m)

/-- The zones in which two states of a namespace differ. -/
def changedZones (n n' : Namespace) : List Nat :=
  (((n.zones ++ n'.zones).map (·.1)).eraseDups).filter fun z => n.zone z != n'.zone z

/-- Units of volatile metadata that a command's check changes: the zone it writes, or the written bits that change (R315). -/
def metaUnits (m : Mach) (c : Cmd) (dsm : List LbaRange) : List Nat :=
  match m.cmdNs c with
  | none => []
  | some n =>
    if !c.isIo [0x01, 0x08, 0x09, 0x7D] then []
    else if n.zoned then [c.firstLba / 65536]
    else
      let rs : List LbaRange :=
        if c.opcode = 0x09 then (if c.dw 11 2 1 = 1 then dsm else []) else [⟨c.nsid, c.firstLba, c.lbas⟩]
      let free := c.opcode == 0x09 || (c.opcode == 0x08 && c.deac)
      let cleared := if free then (rs.flatMap wholeUnits).filter n.isWritten else []
      let parts := if free then rs.flatMap partLbas else rs.flatMap LbaRange.list
      cleared ++ ((parts.map (· / 4096)).eraseDups.filter fun u => !n.isWritten u)

/-- The check of a data write that passed its fields: zones, marks, written bits, speculation. -/
def checkWrite (m : Mach) (c : Cmd) (n : Namespace) (rs : List LbaRange) : Mach :=
  if n.zoned then
    let z := c.firstLba / 65536
    let off := if c.opcode = 0x7D then (n.zone z).wp else c.firstLba % 65536
    match n.writeZone z off c.lbas c.fsn with
    | (_, some e) => m.passed c.fsn none [] (some e)
    | (n', none) =>
      let r : LbaRange := ⟨n.nsid, 65536 * z + off, c.lbas⟩
      let m := (m.setNs n.nsid fun _ => n').orderWrite [r]
      let m := m.metaChange n.nsid (changedZones n n')
      (m.passed c.fsn (some .write) [r] none).setCommand c.fsn fun x => { x with slba := r.first }
  else if c.opcode = 0x04 then
    match rs with
    | [r] =>
      match m.markWrite r with
      | some m => (m.passed c.fsn (some .write) rs none).discardSpecs r
      | none => m.passed c.fsn none [] (some stUncFull)
    | _ => m.passed c.fsn none [] (some stField)
  else
    let m := (m.passed c.fsn (some .write) rs none).orderWrite rs
    if c.opcode = 0x09 ∨ (c.opcode = 0x08 ∧ c.deac) then
      let m := rs.foldl (fun m r => m.deallocate c.fsn n.nsid r) m
      m.firstWrites c.fsn n.nsid (rs.flatMap partLbas)
    else m.firstWrites c.fsn n.nsid (rs.flatMap LbaRange.list)

/-- LBAs of a range that were never written, or lie at or above their zone's write pointer (R295, R296). -/
def blankLbas (n : Namespace) (r : LbaRange) : List Nat :=
  r.list.filter fun l => if n.zoned then decide ((n.zone (l / 65536)).wp ≤ l % 65536) else !n.isWritten (l / 4096)

/-- What a read will return is fixed at its overlap check (R20, R295): the zeros, the shadow, and the speculative sectors that it
binds. -/
def checkRead (m : Mach) (c : Cmd) (n : Namespace) (rs : List LbaRange) : Mach :=
  let m := (m.passed c.fsn (some .read) rs none).setCommand c.fsn fun x =>
    { x with blank := rs.flatMap (blankLbas n), shadow := (rs.flatMap LbaRange.list).filter (m.mbrAnswers n.nsid) }
  rs.foldl (fun m r => m.bindSpecs c.fsn r) m

/-- The check of an I/O command other than those whose own row is their check. -/
def checkIo (m : Mach) (c : Cmd) (dsm : List LbaRange) : Mach :=
  if c.opcode = 0x00 then
    let ok := c.nsid == 0xFFFFFFFF || (m.cmdNs c).isSome
    m.passed c.fsn none [] (if ok then none else some stNamespace)
  else
    let rs : List LbaRange :=
      if c.opcode = 0x09 then (if c.dw 11 2 1 = 1 then dsm else []) else [⟨c.nsid, c.firstLba, c.lbas⟩]
    match m.fieldStatus c rs, m.cmdNs c with
    | some e, n =>
      let loc := match n with
        | some n => if e = stField then c.badByte n else 0xFFFF
        | none => 0xFFFF
      (m.passed c.fsn none [] (some e)).setCommand c.fsn fun x => { x with loc := loc }
    | none, none => m.passed c.fsn none [] (some stNamespace)
    | none, some n =>
      if c.readIo then
        match (rs.flatMap LbaRange.list).find? (m.marked c.nsid ·) with
        | some l => (m.passed c.fsn none [] (some stUnrecovered)).setCommand c.fsn fun x => { x with badLba := l }
        | none => m.checkRead c n rs
      else m.checkWrite c n rs

/-- Commands whose own row of the operation table is their overlap check: Format NVM, Security Send, Abort, Queue Restart,
Zone Management Send and Receive. -/
def ownCheck (c : Cmd) : Bool :=
  if c.admin then [0x80, 0x81, 0x08, 0xCC].contains c.opcode else [0x79, 0x7A].contains c.opcode

/-- The command of number `fsn` when it is the next to be checked, its opcode is valid and is `opcode` of `table`. -/
def checking (m : Mach) (fsn table opcode : Nat) : Option Cmd :=
  m.nextToCheck.filter fun c =>
    c.fsn == fsn && c.table == table && c.opcode == opcode && !c.discard && m.opcodeValid c

end Mach

/-- CHECK (R13, R19–R23, R294–R296, R299, R343): the next fetched command, in fetch sequence order, is compared with every
live entry. `dsm` are the ranges that a Dataset Management names. An entry of a Discard restart, and an opcode without a
valid dispatch entry, only pass; one that would change too many uncopied metadata units waits (R315). -/
def check (dsm : List (Nat × Nat)) (m : Mach) : Mach :=
  match m.nextToCheck with
  | none => m
  | some c =>
    if c.discard then m.passed c.fsn none [] (some stAbort)
    else if !m.opcodeValid c then m.passed c.fsn none [] (some stOpcode)
    else if Mach.ownCheck c then m
    else if c.admin then m.passed c.fsn none [] none
    else
      let rs : List LbaRange := dsm.map fun r => ⟨c.nsid, r.1, r.2⟩
      if m.metaWaits c.nsid (m.metaUnits c rs) then m else m.checkIo c rs

namespace Mach

/-- An earlier undecided Actuator Management action holds the command (R430): its LBAs lie on the named actuator, or on the
named head. -/
def heldByAction (m : Mach) (c : Cmd) : Bool :=
  m.cmd.table.any fun d =>
    d.admin && d.opcode == 0xC8 && d.live && decide (1 ≤ d.dw 10 0 4 ∧ d.dw 10 0 4 ≤ 4) && fsnBefore d.fsn c.fsn && (d.stage == .checked || d.stage == .dispatched) &&
      c.ranges.any fun r => match m.nsOf r.nsid with
        | none => false
        | some n => r.list.any fun l =>
            (n.actorOf l).val == d.dw 10 4 2 &&
              (d.dw 10 0 4 ≤ 2 || Config.headOf n.nsid l % 6 == d.dw 10 8 3)

/-- The command core that an entry names (Table 15-9). -/
def pickCore (m : Mach) (e : Word) (sqid : Nat) : Nat :=
  let k := getBits e 4 3
  let load (i : Nat) : Nat := m.cmd.table.countP fun c => c.stage == .dispatched && c.live && c.core == i
  if k < 4 then k
  else if k = 4 then (List.range 4).foldl (fun b i => if load i < load b then i else b) 0
  else sqid % 4

/-- Kinetic save is armed (R315). -/
def armed (m : Mach) : Bool := m.cmd.feat.saved.limit != 0

/-- L in 4 KiB units (R315). -/
def limitUnits (m : Mach) : Nat := 256 * m.get KSV_LIMIT_LIMIT

/-- Units that a write makes dirty: its LBAs and the zero units of its first writes (R295, R315). -/
def writeUnits (m : Mach) (c : Cmd) : Nat :=
  let lbas :=
    if c.opcode == 0x09 || (c.opcode == 0x08 && c.deac && !m.zonedNs c.nsid) then c.ranges.flatMap partLbas else c.ranges.flatMap LbaRange.list
  lbas.length + c.units.foldl (fun s u => s + (4096 - lbas.countP fun l => l / 4096 == u)) 0

/-- A dispatched write joins the queue for room under L, or runs as with FUA when L could never hold it (R274, R315). -/
def admitWrite (m : Mach) (c : Cmd) : Mach :=
  if !c.isIo [0x01, 0x08, 0x09, 0x7D] then m
  else
    let k := m.writeUnits c
    let big := m.armed && decide (m.limitUnits < k)
    let durable := (c.opcode != 0x09 && c.fua) || !m.cmd.feat.saved.vwc || big
    let m := m.setCommand c.fsn fun x => { x with durable := durable }
    m.when (m.armed && !big) fun m => m.setPwr fun s => { s with waitL := s.waitL ++ [(c.fsn, k)] }

end Mach

/-- DISPATCH (R271, R277, R284, R300, R430, Table 15-9): a checked command goes to its command core, in fetch sequence order
within its queue; one whose outcome was decided at the check ends with it. A halted queue holds its commands; a halting
queue is dispatched in step; a media command waits for M3. -/
def dispatch (fsn : BitVec 32) (m : Mach) : Mach :=
  match m.command fsn.toNat with
  | none => m
  | some c =>
    let mates := m.cmd.table.filter fun d => d.ctrl == c.ctrl && d.sqid == c.sqid && d.fsn != c.fsn && fsnBefore d.fsn c.fsn
    let halted := m.host.ctrls[c.ctrl].sqs.any fun q => q.id == c.sqid && q.halted.isSome
    let behind := mates.any fun d => d.stage == .checked || d.stage == .fetched || d.stage == .granted
    if c.stage ≠ .checked ∨ ¬ c.live ∨ behind ∨ (halted && !c.discard) ∨ (m.haltsOn c && !mates.isEmpty) ∨ m.cmd.quiet.isSome then m
    else
      match c.verdict with
      | some v => m.finish c.fsn v
      | none =>
        let e := m.dispatchEntry c.table c.opcode
        if !e.getLsbD 0 then m.finish c.fsn stOpcode
        else if c.mediaIo && m.mode == 10 then m.finish c.fsn stAnaInaccessible
        else if c.mediaIo && (match m.nsOf c.nsid with | some n => m.anaLost n | none => false) then m.finish c.fsn stAnaLost
        else if m.heldByAction c ∨ (e.getLsbD 3 && m.mode != 3) then m
        else
          let core := m.pickCore e c.sqid
          (m.setCommand c.fsn fun x => { x with stage := .dispatched, core := core }).admitWrite c

/-! ### Read-ahead and anticipatory seeks (R22, R26) -/

/-- READ_AHEAD_ISSUE (R22, R340): a speculative copy of at most 256 sectors over a range that no dirty data and no in-flight
write overlaps, with the current fetch sequence number as its capture point. -/
def readAheadIssue (nsid : BitVec 4) (first : BitVec 40) (count : Fin 257) (m : Mach) : Mach :=
  let r : LbaRange := ⟨nsid.toNat, first.toNat, count.val⟩
  match m.nsOf r.nsid with
  | none => m
  | some n =>
    if r.count = 0 ∨ n.nsze < r.first + r.count ∨ 1024 ≤ m.cmd.specs.length ∨ m.cmd.quiet.isSome ∨
        m.pwr.dirty.any (fun u => u.nsid == r.nsid && decide (r.first ≤ u.lba) && decide (u.lba < r.first + r.count)) ∨
        m.cmd.table.any (fun c => c.live && c.kind == some .write && c.ranges.any r.meets) ∨
        r.list.any (fun l => !(m.get SEC_SLOTS_LOADED).testBit (m.lockOf r.nsid l).val) then m
    else m.setCmdState fun c =>
      { c with
        specs := c.specs ++ [⟨c.nextCopy, r.nsid, r.first, m.get QSQ_FSN_FSN, List.replicate r.count .filling, m.clock⟩]
        nextCopy := c.nextCopy + 1 }

/-- ANTICIPATORY_SEEK (R26): the media scheduler moves an actuator that no checked command's profile or write run holds toward a
predicted target; the next profile replaces it. -/
def anticipatorySeek (a : Actuator) (target : Word) (m : Mach) : Mach :=
  let st := m.get (PRG_STAT_STATE a.val)
  let moving := decide (1 ≤ st ∧ st ≤ 3) && !m.cmd.seeking[a]
  if m.motion.srv[a].faulted || m.is (QDR_ACT_DEPOP a.val) || m.is (QDR_ACT_PARKED a.val) || moving ||
      m.media.wpath[a].writer.isSome || m.ladderKeeps a target.toNat then m
  else
    (prgStart a (m.set (PRG_TGT_TARGET a.val) target.toNat)).setCmdState fun c => { c with seeking := c.seeking.set a true }

/-- SPEC_COPY_EXPIRE (R26): a copy whose sectors have been unbound for 500 ms is freed. -/
def specCopyExpire (k : Nat) (m : Mach) : Mach :=
  match m.cmd.specs[k]? with
  | none => m
  | some s =>
    if s.sectors.any (fun x => match x with | .bound _ _ => true | _ => false) ∨ m.clock < s.since + 5600000000 then m
    else
      let handles := s.sectors.filterMap fun x => match x with
        | .decoded h => some h
        | _ => none
      let m := m.setCmdState fun c => { c with specs := c.specs.eraseIdx k }
      handles.foldl (fun m h => poolFree (BitVec.ofNat 24 h) m) m

end Sys2Proof.Machine
end

