-- ==== Sys2Proof/Machine/Record.lean ====
section
/-! DEFINITION. The event recorder's records (R414, R415, R417–R419). -/
namespace Sys2Proof.Machine

/-- Bytes padded with zeros to, or cut at, a length. -/
def padTo (n : Nat) (bs : List Byte) : List Byte := (bs ++ List.replicate (n - bs.length) 0).take n

/-- The 256 bytes of a record (Table 18-5). -/
def recordBytes (type seq poh pcyc time : Nat) (body : List Byte) : List Byte :=
  let bs := toBytesLE 2 type ++ toBytesLE 2 1 ++ toBytesLE 4 seq ++ toBytesLE 4 poh ++ toBytesLE 4 pcyc ++
    toBytesLE 8 time ++ padTo 224 body
  bs ++ toBytesLE 4 (crc32cFrom 0xFFFFFFFF bs).toNat ++ toBytesLE 4 0x52454344

/-- The record is valid: MARK and CRC (R417). -/
def recordValid (bs : List Byte) : Bool :=
  decide (bs.length = 256) && ofBytesLE (bs.drop 252) == 0x52454344 &&
    ofBytesLE ((bs.drop 248).take 4) == (crc32cFrom 0xFFFFFFFF (bs.take 248)).toNat

namespace Mach

/-- Update events and recorder. -/
def setEvt (m : Mach) (f : EvtState → EvtState) : Mach := { m with evt := f m.evt }

/-- Put a slot; an erased slot is not listed. -/
def putSlot (m : Mach) (slot : Nat) (bs : List Byte) : Mach :=
  m.setEvt fun e => { e with slots := putPair [] slot bs e.slots }

/-- Program a slot; one that is not erased is abandoned (R416). -/
def putErased (m : Mach) (slot : Nat) (bs : List Byte) : Mach :=
  if m.evt.slots.any (·.1 == slot) then m else m.putSlot slot bs

/-- Erase the 4 KiB sector of recorder slots that holds `slot`. -/
def eraseSector (m : Mach) (slot : Nat) : Mach :=
  m.setEvt fun e => { e with slots := e.slots.filter fun s => s.1 / 16 != slot / 16 }

/-- A record is written into the next slot of the last area, with the sector after a newly begun one erased first, and,
where `first` and while it has room, into the first area with the same SEQ (R418). -/
def addRecord (m : Mach) (type : Nat) (body : List Byte) (first : Bool) : Mach :=
  let e := m.evt
  let bs := recordBytes type e.seq e.poh e.pcyc m.aonTime body
  let slot := e.nextLast
  let m := m.when (slot % 16 == 0) fun m => m.eraseSector (65536 + (slot - 65536 + 16) % 65536)
  let m := m.putErased slot bs
  let m := m.setEvt fun e => { e with seq := e.seq + 1, nextLast := 65536 + (slot - 65536 + 1) % 65536 }
  m.when (first && decide (e.nextFirst < 65536)) fun m =>
    (m.putErased e.nextFirst bs).setEvt fun e => { e with nextFirst := e.nextFirst + 1 }

end Mach

end Sys2Proof.Machine
end

