-- ==== Sys2Proof/Machine/Power.lean ====
section
/-! DEFINITION. Power states, modes, caps, staggered spin-up and kinetic save
(spec/13_power_modes_and_kinetic_save.md). -/
namespace Sys2Proof.Machine

/-- A row of Table 13-4: SCALE, STREAMS, BUDGET in mA. -/
def capRows : List (Nat × Nat × Nat) :=
  [(256, 8, 5200), (208, 6, 4000), (160, 4, 3000), (128, 3, 2400), (96, 2, 2000), (64, 1, 1200)]

/-- The row of Table 13-4 that contains a cap, in 0.1 W. -/
def capRow (p : Nat) : Nat :=
  if 250 ≤ p then 0 else if 210 ≤ p then 1 else if 180 ≤ p then 2 else if 150 ≤ p then 3 else if 130 ≤ p then 4 else 5

/-- The cap P0 of an operational power state, 0.1 W (Table 13-3). -/
def stateCap (ps : Nat) : Nat := if ps = 0 then 250 else if ps = 1 then 180 else 130

namespace Mach

/-! ### Caps (R310) -/

/-- The effective cap P, 0.1 W. -/
def effectiveCap (m : Mach) : Nat :=
  let p0 := stateCap m.pwr.lastOpPs
  if m.cmd.feat.saved.cap = 0 then p0 else min p0 m.cmd.feat.saved.cap

/-- Ibzin applies a row of Table 13-4: SCALE, STREAMS and BUDGET together (R310). -/
def applyCap (m : Mach) : Mach :=
  let row := if m.pwr.throttle then 4 else capRow m.effectiveCap
  let (scale, streams, budget) := capRows.getD row (64, 1, 1200)
  ((((m.set CAL_CAP_SCALE scale).set PWR_CAP_STREAMS streams).set QDR_TORQ_BUDGET budget).set PWR_CAP_ROW row).set
    PWR_CAP_CAPW m.effectiveCap

/-! ### Capacity and the protected-dirty limit (R314–R316) -/

/-- Actuators in ACTIVE. -/
def activeActs (m : Mach) : List Actuator := (allFin 4).filter fun a => m.get (QDR_ACT_STATE a.val) == 0

/-- END_RPM in 1/16 rpm, at least MINRPM + 200 rpm (R314). -/
def endSpeed (m : Mach) : Nat := 16 * max (100 * m.get KSV_CFG_END_RPM) (100 * m.get VCM_RET1_MINRPM + 200)

/-- The capacity C in MiB (R314), exact until it is rounded down: E in mJ and T in ms are quotients. -/
def capacity (m : Mach) : Nat :=
  let s := m.pwr
  let w0 := if m.spn.goal = 0 then s.w0 else min s.w0 m.spn.goal
  let we := m.endSpeed
  let w := m.activeActs.length
  let num := s.energyMj * (w0 ^ 2 - we ^ 2) * 1000 * 85
  let den := s.w0 ^ 2 * (85 * s.dragMw + 100 * (100 * m.get KSV_CFG_PLOAD))
  let tmax := 10 * m.get KSV_CFG_TMAX
  let (tn, td) := if num ≤ tmax * den then (num, den) else (tmax, 1)
  let ovh := m.get KSV_CFG_OVH * td
  if tn ≤ ovh ∨ td = 0 then 0
  else
    let moved := w * s.saveRate * 127 * 4096 * (tn - ovh) / (132 * 1000 * 1048576 * td)
    let groups := m.activeActs.foldl (fun n a => n + m.get (KSV_REG_ROOM a.val)) 0
    min 1024 (min moved (groups * 127 * 4096 / 1048576))

/-- SMART critical-warning bit 4 (R326). -/
def backupFail (m : Mach) : Mach := (m.setPwr fun s => { s with backupFailed := true }).criticalWarning 4

/-- C and L as Ibzin applies them (R314–R316, R326): 0 in M5–M7. At arming a generation is reserved for the save (R319). -/
def setLimit (m : Mach) : Mach :=
  let c := if 5 ≤ m.mode ∧ m.mode ≤ 7 then 0 else m.capacity
  let m := (m.set KSV_LIMIT_CAP c).set KSV_LIMIT_LIMIT (min m.cmd.feat.saved.limit c)
  let m := m.when (m.armed && !m.is KSV_CTRL_ARM) (·.reserveGen)
  let m := m.setFlag KSV_CTRL_ARM m.armed
  m.when (m.armed && (m.mode == 3 || m.mode == 4) && c == 0) (·.backupFail)

/-- Dirty data in 4 KiB units that counts against L, with the writes whose transfer was admitted (R315). -/
def dirtyCount (m : Mach) : Nat :=
  m.pwr.dirty.countP (·.counted) + m.pwr.admitted.foldl (fun s w => s + w.2) 0

/-! ### Modes (R306, R307) -/

/-- A media command is outstanding (R306): a live host command whose dispatch entry needs the medium. -/
def mediaCommand (m : Mach) : Bool :=
  m.cmd.table.any fun c =>
    c.live && c.stage != .granted && (m.dispatchEntry c.table c.opcode).getLsbD 0 && (m.dispatchEntry c.table c.opcode).getLsbD 3

/-- Media work (R307). -/
def mediaWork (m : Mach) : Bool :=
  m.mediaCommand || !m.allDestaged || m.cmd.scrub.isSome || m.cmd.candPass.isSome || m.cmd.scan.isSome ||
    (allFin 4).any fun a => !m.media.lad[a].jobs.isEmpty

/-- Every actuator unloads. -/
def unloadAll (m : Mach) : Mach := (allFin 4).foldl (fun m a => unload a m) m

/-- The drive enters M10, with every head parked (R8, R306); M9 and M11 are left only by a chip reset. -/
def enterSafe (m : Mach) : Mach :=
  if m.mode = 9 ∨ m.mode = 11 ∨ m.mode = 10 then m else (m.enterMode 10).retractAll

/-- Every actuator DEPOP leads to M10 (R306); C and L follow w (R314). -/
def actuatorsChanged (m : Mach) : Mach :=
  let m := if (allFin 4).all fun a => m.is (QDR_ACT_DEPOP a.val) then m.enterSafe else m
  m.when (m.get KSV_LIMIT_CAP != (if 5 ≤ m.mode ∧ m.mode ≤ 7 then 0 else m.capacity)) (·.setLimit)

/-- M7 to M2 (R306, R312): the spindle starts; the stagger delay served its one spin-up. -/
def spinUp (m : Mach) : Mach :=
  let m := (m.enterMode 2).setPwr fun s => { s with measured := false, firstSpin := false, wakeDue := false }
  spnDemandWrite (BitVec.ofNat 8 m.pwr.activeLevel) m

/-- Every loaded actuator has left REQUAL, and one is loaded. -/
def qualified (m : Mach) : Bool :=
  (allFin 4).any (fun a => !m.is (QDR_ACT_PARKED a.val)) &&
    (allFin 4).all fun a => m.is (QDR_ACT_PARKED a.val) || m.get (QDR_ACT_STATE a.val) != 1

/-- A power state is set (R309): PS0–PS2 become the last operational state and set the cap; in M7 they start the spin-up. -/
def setPowerState (m : Mach) (ps : Nat) : Mach :=
  let m := m.set PWR_MODE_PS ps
  if ps ≤ 2 then
    let m := (m.setPwr fun s => { s with lastOpPs := ps }).applyCap
    if m.mode = 7 ∧ m.is PWR_SPIN_ELIG then m.spinUp else m
  else m

end Mach

/-- The AFE lanes stop (R307): none is ready, and a span or gain hold in progress is lost. -/
def Mach.stopLanes (m : Mach) : Mach :=
  (allFin 16).foldl (fun (m : Mach) l =>
    ((m.set (AFE_LANE_STAT_READY l.val) 0).set (AFE_LANE_STAT_TA l.val) 0).setLane l fun _ => ⟨.off, 0⟩) m

/-- IDLE_T4_EXPIRY (R8, R306, R307): M4 begins with the lanes, replay front ends and decoder engines stopped; the servo loops go
on. -/
def idleT4Expiry (m : Mach) : Mach := if m.mode = 3 ∧ ¬ m.mediaWork then (m.enterMode 4).stopLanes else m

/-- IDLE_T5_EXPIRY (R306, R307, R309): once everything is destaged the heads unload and M5 begins; PS3 and PS4 lead here
from M3 too. -/
def idleT5Expiry (m : Mach) : Mach :=
  let low := decide (3 ≤ m.get PWR_MODE_PS)
  if (m.mode = 4 ∨ (low ∧ m.mode = 3)) ∧ (m.is PWR_IDLE_T5 ∨ low) ∧ ¬ m.mediaWork then
    (m.unloadAll.enterMode 5).setLimit
  else m

/-- IDLE_T6_EXPIRY (R307): the demand falls to the level of the configuration image. -/
def idleT6Expiry (m : Mach) : Mach :=
  if m.mode = 5 ∧ (m.is PWR_IDLE_T6 ∨ 3 ≤ m.get PWR_MODE_PS) ∧ ¬ m.mediaWork then
    spnDemandWrite (BitVec.ofNat 8 m.pwr.idleCLevel) (m.enterMode 6)
  else m

/-- IDLE_T7_EXPIRY (R307): the spindle is stopped under R204. -/
def idleT7Expiry (m : Mach) : Mach :=
  if m.mode = 6 ∧ (m.is PWR_IDLE_T7 ∨ m.get PWR_MODE_PS = 4) ∧ ¬ m.mediaWork then
    spnDemandWrite 0 (m.enterMode 7)
  else m

/-- An I/O command waits or runs. -/
def Mach.ioCommand (m : Mach) : Bool := m.cmd.table.any fun c => c.live && !c.admin && c.stage != .granted

/-- MEDIA_WAKE (R306, R309): an outstanding media command in M4 returns to M3; in M5 and M6 the speed rises and the heads
load first; in M7 spin-up begins once it is eligible. An I/O command in PS3 or PS4 returns the controller to its last
operational state. -/
def mediaWake (m : Mach) : Mach :=
  let m := if 3 ≤ m.get PWR_MODE_PS ∧ (m.mediaCommand ∨ m.ioCommand) then m.setPowerState m.pwr.lastOpPs else m
  if !m.mediaCommand then m
  else
    if m.mode = 4 then m.enterMode 3
    else if m.mode = 5 ∨ m.mode = 6 then
      let m := m.setPwr fun s => { s with wakeDue := true }
      let m := m.when (m.mode == 6) fun m => spnDemandWrite (BitVec.ofNat 8 m.pwr.activeLevel) m
      (allFin 4).foldl (fun m a =>
        if m.is (QDR_ACT_PARKED a.val) ∧ m.get (QDR_ACT_STATE a.val) < 2 ∧ m.spnState = 5 then load a m else m) m
    else if m.mode = 7 ∧ m.is PWR_SPIN_ELIG then m.spinUp
    else m

/-- The replayed units still exceed the new L (R323). -/
def Mach.replayDrains (m : Mach) : Bool := m.pwr.replayDrain && m.armed && decide (m.limitUnits < m.dirtyCount)

/-- SPIN_UP_COMPLETE (R306): spindle in RUN, capacity computed, replay ended, no loaded actuator in REQUAL: M2 enters M3, and
so does a wake from M5 or M6. -/
def spinUpComplete (m : Mach) : Mach :=
  if m.spnState = 5 ∧ m.qualified ∧ ((m.mode = 2 ∧ m.pwr.measured ∧ ¬ m.pwr.replayDue ∧ ¬ m.replayDrains) ∨
      (m.pwr.wakeDue ∧ (m.mode = 5 ∨ m.mode = 6))) then
    ((m.setPwr fun s => { s with wakeDue := false, replayDrain := false }).enterMode 3).setLimit
  else m

/-- CAPACITY_MEASURE (R314): at curve speed and before the heads load, the coast test of a spin-up gives P_drag at the speed ω₀;
C and L are computed. -/
def capacityMeasure (d : DragMeas) (m : Mach) : Mach :=
  if m.mode = 2 ∧ m.spnState = 5 ∧ m.allParked ∧ m.is SPN_SPEED_VALID ∧ m.spn.goal ≤ m.get SPN_SPEED_SPEED then
    (m.setPwr fun s =>
      { s with dragMw := d.dragMw, energyMj := d.energyMj, w0 := m.get SPN_SPEED_SPEED, measured := true }).setLimit
  else m

/-- WRITE_ADMISSION (R315, R316): in M3 and M4 the earliest waiting write begins its transfer once its units fit under L. -/
def writeAdmission (m : Mach) : Mach :=
  match m.pwr.waitL with
  | [] => m
  | w :: ws =>
    if m.mode ≠ 3 ∧ m.mode ≠ 4 then m else
    let first := ws.foldl (fun b x => if fsnBefore x.1 b.1 then x else b) w
    if m.dirtyCount + first.2 ≤ m.limitUnits then
      m.setPwr fun s => { s with waitL := s.waitL.filter (· != first), admitted := s.admitted ++ [first] }
    else m

/-- METADATA_FLUSH (R315): the changed metadata units are copied to flash and stop counting. -/
def metadataFlush (m : Mach) : Mach :=
  m.setPwr fun s => { s with dirty := s.dirty.filter (!·.isMeta) }

/-- THERMAL_THROTTLE (R310): at 110 °C the 13.0 W row applies. -/
def thermalThrottle (celsius : BitVec 8) (m : Mach) : Mach :=
  let m := m.set PWR_TEMP_LOGIC celsius.toNat
  if 110 ≤ celsius.toNat ∧ ¬ m.pwr.throttle then
    (((m.setPwr fun s => { s with throttle := true }).set PWR_TEMP_THROTTLE 1).report (32 * 31 + 3)).applyCap
  else m

/-- THERMAL_THROTTLE_END (R310): at 100 °C the row of P is restored. -/
def thermalThrottleEnd (celsius : BitVec 8) (m : Mach) : Mach :=
  let m := m.set PWR_TEMP_LOGIC celsius.toNat
  if celsius.toNat ≤ 100 ∧ m.pwr.throttle then
    ((m.setPwr fun s => { s with throttle := false }).set PWR_TEMP_THROTTLE 0).applyCap
  else m

/-- LOGIC_DIE_OVERTEMP (R306): 125 °C leads to M10. -/
def logicDieOvertemp (m : Mach) : Mach := ((m.set PWR_TEMP_LOGIC 125).report (32 * 31 + 4)).enterSafe

/-! ### Kinetic save (R317–R322) -/

/-- The LBATAG of a unit (Table 3-5). -/
def DirtyUnit.tag (u : DirtyUnit) : Nat := (u.nsid - 1) % 8 * 2 ^ 61 + u.lba % 2 ^ 56

/-- The list that a save walks: metadata units first, then in fetch sequence order, the newest copy of each LBA (R319). -/
def saveOrder (us : List DirtyUnit) : List DirtyUnit :=
  let newest := us.foldr (fun u acc =>
    if !u.isMeta && acc.any (fun v => !v.isMeta && v.nsid == u.nsid && v.lba == u.lba) then acc else u :: acc) []
  newest.filter (·.isMeta) ++ newest.filter (!·.isMeta)

namespace Mach

/-- The save generation in KSV_GEN. -/
def saveGen (m : Mach) : Nat := m.get KSV_GENLO_GEN + 2 ^ 32 * m.get KSV_GENHI_GEN

/-- The LBATAG of a save header (R322). -/
def headerTag (m : Mach) (a : Actuator) (pos : Nat) : Nat :=
  2 ^ 59 + m.saveGen % 2 ^ 24 * 2 ^ 32 + a.val * 2 ^ 30 + pos % 2 ^ 30

/-- The DATA bytes of a save header (Table 13-6). -/
def headerData (m : Mach) (a : Actuator) (w : SaveWriter) (last : Bool) : List Byte :=
  let writers := (allFin 4).foldl (fun s b => if m.pwr.writers[b].active then s + 2 ^ b.val else s) 0
  let flags := bitNat last + 16 * writers
  let entries := w.entries.flatMap fun e => toBytesLE 8 e.1.toNat ++ toBytesLE 1 e.2.1 ++ toBytesLE 1 (bitNat e.2.2) ++ toBytesLE 6 0
  padTo 4096 (toBytesLE 4 0x4B535648 ++ toBytesLE 2 1 ++ toBytesLE 2 w.open_ ++ toBytesLE 8 m.saveGen ++ toBytesLE 4 w.closed ++
    toBytesLE 4 flags ++ toBytesLE 4 (m.get (KSV_REG_START a.val)) ++
    toBytesLE 4 (if last then m.pwr.saveList.length else 0) ++ toBytesLE 32 0 ++ entries)

/-- The group of a save region at a position (R93). -/
def saveKey (a : Actuator) (pos : Nat) : GroupKey := ⟨true, a.val, pos⟩

/-- The LBATAG of a parity member of a save group (R93). -/
def saveParityTag (i pos : Nat) : Nat := 2 ^ 60 + i * 2 ^ 58 + pos % 2 ^ 56

/-- A data member of a writer's open group is written: it joins the accumulator and goes to the medium (R94, R319, R322). -/
def putSave (m : Mach) (a : Actuator) (pos member key tag : Nat) (buffer : List Byte) : Mach :=
  let t := BitVec.ofNat 64 tag
  let block := sealBlock m.sec.slots[(Fin.ofNat 32 key)] t (dataBlock buffer t (BitVec.ofNat 64 m.saveGen))
  let m := m.setWpath a fun w => w.putMember (saveKey a pos) member (some (coveredOf block))
  m.emit (.saveSector a pos member block)

/-- The four parity members of a save group are written, under key slot 31, and its accumulator is released (R93–R95, R320).
The spec names no key slot for them (DESIGN CHOICE, log entry 153). -/
def putSaveParity (m : Mach) (a : Actuator) (pos : Nat) : Mach :=
  let ms := m.media.wpath[a].members (saveKey a pos)
  let cols := rebuildMembers ms [128, 129, 130, 131]
  let m := (List.range 4).foldl (fun (m : Mach) i =>
    let t := BitVec.ofNat 64 (saveParityTag i pos)
    let plain := parityBlock (cols.getD i zeroColumns) (memberCount ms) t (BitVec.ofNat 64 m.saveGen)
    m.emit (.saveSector a pos (128 + i) (sealBlock m.sec.slots[(31 : Fin 32)] t plain))) m
  m.setWpath a fun w => { w with groups := w.groups.filter (·.key != saveKey a pos) }

/-- A writer closes its open group with its header, the member after its last unit, and its parity members (R320, R322). -/
def closeGroup (m : Mach) (a : Actuator) (last : Bool) : Mach :=
  let w := m.pwr.writers[a]
  let pos := m.get (KSV_REG_START a.val) + w.closed
  let data := m.headerData a w last
  let m := m.emit (.saveHeader a (m.headerTag a pos) data)
  let m := (m.putSave a pos w.open_ 31 (m.headerTag a pos) (data ++ List.replicate 16 0)).putSaveParity a pos
  m.setPwr fun s => { s with writers := s.writers.set a { w with open_ := 0, closed := w.closed + 1, entries := [], unit := none } }

/-- Every write and read run of the formatters ends after its current sector (R319): what has not begun is abandoned, and stays
dirty. -/
def endRuns (m : Mach) : Mach :=
  (allFin 8).foldl (fun (m : Mach) n =>
    let f := m.media.fmt[n]
    let m := (f.items.filter fun i => i.status.isNone && (match f.writing with
        | some w => w.ring != i.ring
        | none => true) && f.armedCap != some i.ring).foldl (fun m i => m.endDesc n i.ring 9) m
    let m := (m.setFmt n fun f => { f with armedWr := [] }).dropCodewords n
    let m := m.setHsq (actOf n) fun s =>
      { s with moments := s.moments.filter (·.slot != slotOf n), due := s.due.filter (·.slot != slotOf n) }
    let m := m.set (FMT_CTRL_EN n.val) 0
    m.when (f.writing.isNone && m.get (FMT_STAT_STATE n.val) == 2) (·.runOver n)) m

/-- An ACTIVE actuator seeks to its save region (R319). -/
def seekSave (m : Mach) (a : Actuator) : Mach :=
  let t := Config.saveTarget a.val (m.get (KSV_REG_START a.val))
  prgStart a ((m.set (PRG_TGT_TARGET a.val) t.toNat).writeTarget a (m.leadSlot a) t.toNat)

/-- Entry to M9 (R45, R85, R281, R319): fetching stops, uncompleted commands are abandoned, the save table becomes live at the
next figure boundary, runs end, ladder jobs end WITHDRAWN, and the writers of the ACTIVE actuators seek to their regions. The
write generation takes the value that was reserved for the save. -/
def startSave (m : Mach) : Mach :=
  let m := m.enterMode 9
  let m := (m.abandonCommands 0).abandonCommands 1
  let m := m.saveTableDue
  let m := m.endRuns
  let m := (allFin 4).foldl (fun m a => Mach.withdrawAll m a) m
  let gen := m.saveGen
  let m := m.setPwr fun s =>
    { s with
      wgen := gen, wgenFlash := if gen % 2 ^ 20 = 0 then gen else s.wgenFlash
      saveList := saveOrder s.dirty, nextUnit := 0, ended := false
      writers := Vector.ofFn fun a => ⟨m.get (QDR_ACT_STATE a.val) == 0, none, 0, 0, []⟩ }
  let m := m.set KSV_LIST_COUNT_VALUE m.pwr.saveList.length
  let m := (allFin 4).foldl (fun m a => m.when m.pwr.writers[a].active fun m => m.seekSave a) m
  (m.set KSV_STAT_STATE 1).set KSV_STAT_SAVED 0

/-- Writing ends (R318, R320): each writer closes its open group, and every actuator retracts. -/
def endSave (m : Mach) (close : Bool) : Mach :=
  let m := m.when close fun m => (allFin 4).foldl (fun m a =>
    if m.pwr.writers[a].active then m.closeGroup a true else m) m
  let m := m.setPwr fun s => { s with ended := true }
  ((m.set KSV_STAT_STATE 3).set KSV_STAT_WRITERS 0).retractAll

/-- The requester port of kinetic save (Table 2-2). -/
def savePort : Port := 24

/-- A writer asks for the buffer of the unit it has taken, under class SAVE; a unit without a pool buffer needs none. -/
def demandSave (m : Mach) (a : Actuator) (u : DirtyUnit) : Mach :=
  if ownHandle ≤ u.handle then m
  else
    let p := handlePool u.handle
    let i := handleIndex u.handle
    (m.demandAs a.val savePort 14 (m.pageAddr p i) 4096).demandAs a.val savePort 14 (m.tailAddr p i) 64

/-- The writer's buffer has been read. -/
def saveQuiet (m : Mach) (a : Actuator) : Bool := m.quietFor fun p o => p == savePort && o == a.val

end Mach

/-- SUPPLY_LOSS (R317, R319): the inputs have stood at `v12` and `v5` (25 mV units) for `us` µs. One that is below its threshold
for the filter time opens the isolation switches and starts rectification; in M3 and M4 while armed the HQ8 enters M9, a save in
progress goes on, and otherwise the power die retracts and the phases float. -/
def supplyLoss (v12 v5 us : BitVec 10) (m : Mach) : Mach :=
  let low12 := decide (v12.toNat < m.get KSV_TRIP_V12)
  let low5 := decide (v5.toNat < m.get KSV_TRIP_V5)
  if (!low12 && !low5) || decide (us.toNat < max 1 (m.get KSV_TRIP_FILT)) then m
  else
    let m := m.setDie fun d => { d with
      v12Ok := d.v12Ok && !low12, v5Ok := d.v5Ok && !low5, isolated := true, onBus := true, bridge := .rectify }
    let m := m.set PWR_RAILS_BUS 1
    if m.mode = 9 ∧ ¬ m.rst.entering then m
    else
      let m := (m.set KSV_STAT_CAUSE (bitNat low12 + 2 * bitNat low5)).report (32 * 31 + 1)
      if (m.mode = 3 ∨ m.mode = 4) ∧ m.is KSV_CTRL_ARM ∧ ¬ m.rst.entering then m.startSave
      else ((m.retractAll).setBridge .float).setSpn fun s => { s with phaseRef := Vector.replicate 3 0 }

/-- The unit that a writer has taken is written as the next data member of its group; one whose buffer fails its check is not
written (R319, R322). 127 units close the group. -/
def Mach.writeUnit (m : Mach) (a : Actuator) (u : DirtyUnit) : Mach :=
  let w := m.pwr.writers[a]
  let ((buffer, fail), m) :=
    if Mach.ownHandle ≤ u.handle then ((List.replicate 4160 0, false), m) else m.loadBlock u.handle
  let drop (m : Mach) : Mach := m.setPwr fun s => { s with writers := updAt s.writers a fun w => { w with unit := none } }
  if fail then drop m
  else
    let m := m.putSave a (m.get (KSV_REG_START a.val) + w.closed) w.open_ u.key u.tag buffer
    let w' := { w with unit := none, open_ := w.open_ + 1, entries := w.entries ++ [(BitVec.ofNat 64 u.tag, u.key, u.isMeta)] }
    let m := m.setPwr fun s => { s with writers := s.writers.set a w' }
    let m := ((m.set KSV_STAT_STATE 2).setBitAt KSV_STAT_WRITERS a.val true).set KSV_STAT_SAVED (m.get KSV_STAT_SAVED + 1)
    m.when (w'.open_ == 127) fun m => m.closeGroup a false

/-- SAVE_UNIT_WRITE (R319, R322): a writer whose actuator has settled in its save region takes the next unit of the list, and
once its buffer has been read under class SAVE writes it. -/
def saveUnitWrite (a : Actuator) (m : Mach) : Mach :=
  let w := m.pwr.writers[a]
  if m.mode ≠ 9 ∨ m.pwr.ended ∨ ¬ w.active ∨ ¬ m.bitAt (SRV_STAT_TRK_CONF a.val) (m.leadSlot a).val then m
  else match w.unit with
    | some u => if m.saveQuiet a then m.writeUnit a u else m
    | none =>
      match m.pwr.saveList[m.pwr.nextUnit]? with
      | none => m
      | some u =>
        (m.setPwr fun s =>
          { s with nextUnit := s.nextUnit + 1, writers := s.writers.set a { w with unit := some u } }).demandSave a u

/-- The body of a SAVE record (Table 18-6); bus minimum and duration are measured. -/
def Mach.saveRecord (m : Mach) (busMin us : Nat) : Mach :=
  m.addRecord 4 (toBytesLE 8 m.saveGen ++ toBytesLE 4 m.pwr.saveList.length ++ toBytesLE 4 (m.get KSV_STAT_SAVED) ++
    toBytesLE 1 (m.pwr.writers.toList.countP (·.active)) ++ toBytesLE 1 (m.get KSV_STAT_CAUSE) ++ toBytesLE 2 busMin ++
    toBytesLE 4 (m.get SPN_SPEED_SPEED) ++ toBytesLE 4 us) true

/-- BUS_UNDERVOLTAGE (R318): writing ends at once, the sector in progress is torn, and the retract begins. How far a torn sector
has come is a free value. -/
def busUndervoltage (m : Mach) : Mach :=
  if m.mode = 9 ∧ ¬ m.pwr.ended then
    (((allFin 8).foldl (fun m n => Mach.tear m n m.free) m).nextFree).endSave false
  else m

/-- The reason to end writing holds (R320): no unit is left, the speed has reached END_RPM, or TMAX has passed. -/
def Mach.saveMayStop (m : Mach) (stop : SaveStop) (us : Nat) : Bool :=
  match stop with
  | .exhausted => decide (m.pwr.saveList.length ≤ m.pwr.nextUnit) && m.pwr.writers.all (·.unit.isNone)
  | .slow => m.is SPN_SPEED_VALID && decide (m.get SPN_SPEED_SPEED ≤ m.endSpeed)
  | .timeout => decide (10000 * m.get KSV_CFG_TMAX ≤ us)

/-- SAVE_END (R320, R322): the list is exhausted, the speed reached END_RPM or TMAX passed: groups close, every actuator
retracts and the save summary is recorded. -/
def saveEnd (stop : SaveStop) (busMin : BitVec 16) (us : BitVec 32) (m : Mach) : Mach :=
  if m.mode = 9 ∧ ¬ m.pwr.ended ∧ m.saveMayStop stop us.toNat then
    ((m.endSave true).saveRecord busMin.toNat us.toNat).report (32 * 31 + 2)
  else m

/-- M0 (R306): no supply is left, and nothing runs until a power-on reset. -/
def Mach.powerOff (m : Mach) : Mach :=
  let m := (((m.set PWR_MODE_MODE 0).set CLK_GOOD0_GOOD 0).set CLK_GOOD1_GOOD 0).set PWR_RAILS_GOOD 0
  m.setRst fun r => { r with coresUp := false, pllOn := false, waiting := [], entering := true, fromP0 := true, railsOff := true }

/-- Once every actuator has parked after a save it is done (R321): if the supplies returned, Ibzin requests a software reset;
with both of them absent, M9 ends in M0 (R306). -/
def Mach.afterSave (m : Mach) : Mach :=
  if m.mode = 9 ∧ m.pwr.ended ∧ m.allParked then
    let m := m.set KSV_STAT_STATE 4
    if m.die.v12Ok ∧ m.die.v5Ok then m.softReset
    else if ¬ m.die.v12Ok ∧ ¬ m.die.v5Ok then m.powerOff
    else m
  else m

/-- SUPPLY_RETURN (R321): in M9 the save runs to its end all the same. -/
def supplyReturn (m : Mach) : Mach :=
  let m := m.setDie fun d => { d with v12Ok := true, v5Ok := true }
  if m.mode = 9 then m.afterSave
  else (m.setDie fun d => { d with isolated := false, onBus := false }).set PWR_RAILS_BUS 0

/-! ### Replay and re-adoption (R323–R326) -/

/-- The object of a key slot is locked: replay does not load its members (R324). -/
def Mach.keyLocked (m : Mach) (key : Nat) : Bool :=
  if h : key < 24 then
    let o := m.sec.objects[key]
    (o.readEn && o.readLocked) && (o.writeEn && o.writeLocked)
  else false

/-- Shortfall: SMART bit 4 and the event of EG35 bit 24 (R326). -/
def Mach.shortfall (m : Mach) : Mach := m.backupFail.report (32 * 35 + 24)

/-- A group position holds a record: one of its parity sectors ended OK or OK_BLIND (R429). -/
def GroupScan.held (g : GroupScan) : Bool := g.parity.any (·.isSome)

/-- Units of a scanned group: the data members that its parity counts, less the header, which is the last of them (R322,
R323). -/
def GroupScan.unitCount (g : GroupScan) : Nat :=
  match g.parity.toList.findSome? id with
  | some n => n.val - 1
  | none => 0

/-- The group is one of generation `gen`. -/
def GroupScan.inGen (g : GroupScan) (gen : Nat) : Bool := g.held && g.header.any (·.gen == gen)

/-- The units of a group: each entry of its header with the pool buffer it was loaded into, none where its member was not
recovered. -/
def GroupScan.members (g : GroupScan) : List ((BitVec 64 × Nat × Bool) × Option (BitVec 24)) :=
  match g.header with
  | some h => (h.entries.take g.unitCount).zipIdx.map fun x => (x.1, (g.units[x.2]?).join)
  | none => []

/-- The dirty unit of a header entry. -/
def entryUnit (e : BitVec 64 × Nat × Bool) (handle : Nat) : DirtyUnit :=
  ⟨tagNsid e.1, tagLba e.1, none, handle, e.2.1, e.2.2, true⟩

/-- The group positions that a generation holds in an actuator's region, from START on (R324). -/
def Mach.heldGroups (m : Mach) (scan : List GroupScan) (gen : Nat) : Vector Nat 4 :=
  Vector.ofFn fun a => (scan.filter fun g => g.act == a && g.inGen gen).foldl
    (fun n g => max n (g.pos + 1 - m.get (KSV_REG_START a.val))) 0

/-- New saves begin after, or again before, the groups that a pending generation holds (R324). -/
def Mach.shiftRegions (m : Mach) (held : Vector Nat 4) (take : Bool) : Mach :=
  (allFin 4).foldl (fun (m : Mach) a =>
    let s := m.get (KSV_REG_START a.val)
    let r := m.get (KSV_REG_ROOM a.val)
    if take then (m.set (KSV_REG_START a.val) (s + held[a])).set (KSV_REG_ROOM a.val) (r - held[a])
    else (m.set (KSV_REG_START a.val) (s - held[a])).set (KSV_REG_ROOM a.val) (r + held[a])) m

/-- Pending records that satisfy `p` are over; a generation without a pending record left gives its groups back (R324). -/
def Mach.dropPending (m : Mach) (p : PendingSave → Bool) : Mach :=
  let left := m.pwr.pendingSaves.filter (!p ·)
  let done := m.pwr.pendingSaves.filter fun x => p x && !left.any (·.gen == x.gen)
  let one := done.foldl (fun (acc : List PendingSave) x => if acc.any (·.gen == x.gen) then acc else acc ++ [x]) []
  let m := m.setPwr fun s => { s with pendingSaves := left }
  one.foldl (fun m x => m.shiftRegions x.held false) m

/-- REPLAY (R16, R323, R324, R326, R429): before the first M3 the scan of the save regions is evaluated. Positions without a good
parity sector hold no record. The members of the highest generation above RETIRED become dirty data that stands before every
command; unrecovered ones are marked uncorrectable, those of locked ranges stay pending, and the generation is retired. -/
def replay (scan : List GroupScan) (m : Mach) : Mach :=
  if m.mode ≠ 2 ∨ ¬ m.pwr.replayDue then m
  else
    let gen := (scan.filter (·.held)).foldl (fun n g => match g.header with
      | some h => max n h.gen
      | none => n) 0
    if gen ≤ m.pwr.retired then m.setPwr fun s => { s with replayDue := false }
    else
      let groups := scan.filter (·.inGen gen)
      let all := groups.flatMap (·.members)
      let pend := all.filter fun x => x.2.isSome && m.keyLocked x.1.2.1
      let rest := all.filter fun x => !(x.2.isSome && m.keyLocked x.1.2.1)
      let good := rest.filterMap fun x => x.2.map fun h => entryUnit x.1 h.toNat
      let bad := (rest.filter (·.2.isNone)).map fun x => entryUnit x.1 Mach.ownHandle
      let total := groups.foldl (fun n g => match g.header with
        | some h => if h.last then max n h.total else n
        | none => n) 0
      let noLast := groups.any fun g => !groups.any fun x => x.act == g.act && x.header.any (·.last)
      let held := m.heldGroups scan gen
      let m := good.foldl (fun m u => m.addDirty u) m
      let m := bad.foldl (fun m u => m.markLost u.nsid [u.lba]) m
      let saves := ((pend.map (·.1.2.1)).eraseDups).map fun k => PendingSave.mk gen k
        ((pend.filter (·.1.2.1 == k)).map fun x => entryUnit x.1 ((x.2.getD 0).toNat)) held
      let m := m.setPwr fun s =>
        { s with retired := gen, replayDue := false, replayDrain := true, pendingSaves := s.pendingSaves ++ saves }
      let m := m.when (!saves.isEmpty) fun m => m.shiftRegions held true
      let short := decide (good.length + pend.length < total) || noLast || !bad.isEmpty
      let m := m.addRecord 5 (toBytesLE 8 gen ++ toBytesLE 4 good.length ++ toBytesLE 4 pend.length ++
        toBytesLE 4 bad.length ++ toBytesLE 1 (bitNat short)) true
      m.when short (·.shortfall)

/-- The buffer of a dirty unit passes its line checks, its CRC and its tag (R325); a unit without a pool buffer has nothing to
fail. -/
def Mach.unitPasses (m : Mach) (u : DirtyUnit) : Bool × Mach :=
  if Mach.ownHandle ≤ u.handle then (true, m)
  else
    let ((block, fail), m) := m.loadBlock u.handle
    (!fail && ofBytesLE ((block.drop 4112).take 4) == sectorCrc u.tag block && ofBytesLE ((block.drop 4116).take 8) == u.tag, m)

/-- READOPT_DIRTY (R16, R325): after a reset that the buffer survived, the dirty list is walked: units whose checks pass stay
dirty, ahead of every command; the others are treated as unrecovered. -/
def readoptDirty (m : Mach) : Mach :=
  if !(m.rst.kept && m.rst.coresUp) then m else
  let m := m.setRst fun r => { r with kept := false }
  let (good, bad, m) := m.pwr.dirty.foldl (fun (x : List DirtyUnit × List DirtyUnit × Mach) u =>
    let (ok, m) := x.2.2.unitPasses u
    if ok then (x.1 ++ [{ u with fsn := none }], x.2.1, m) else (x.1, x.2.1 ++ [u], m)) ([], [], m)
  let m := m.setPwr fun s => { s with dirty := good }
  let m := bad.foldl (fun m u => m.markLost u.nsid [u.lba]) m
  m.when (!bad.isEmpty) (·.shortfall)

end Sys2Proof.Machine
end

