-- ==== Sys2Proof/Machine/Security.lean ====
section
/-! DEFINITION. Bundles, keys, Opal and Herug (spec/14_boot_images_security.md). -/
namespace Sys2Proof.Machine

/-! ### Bundles (R331–R336) -/

/-- The least activation class of a section type (Table 14-5). -/
def sectionClass (live : Bool) (type : Nat) : Nat :=
  if type = 1 then (if live then 0 else 3)
  else if type = 10 then 1
  else if type = 11 then 2
  else if 6 ≤ type ∧ type ≤ 9 ∨ type = 12 then 3
  else 0

/-- The bundle has a Sceka patch section. -/
def Bundle.patched (b : Bundle) : Bool := b.sections.contains 1

namespace Mach

/-- The anti-rollback test (R335). -/
def svnOk (m : Mach) (b : Bundle) : Bool :=
  decide (m.sec.fuses.cfg ≤ b.svnCfg) && (!b.patched || decide (m.sec.fuses.patch ≤ b.svnPatch))

/-- The trailer verifies under the configuration key of the lifecycle (R332). -/
def trailerOk (m : Mach) (b : Bundle) : Bool :=
  match m.sec.fuses.life with
  | 0 => b.sigSceka
  | 1 => b.sections.contains 0 && b.keyOk && b.sigOem
  | _ => false

/-- BC's test of a bundle in the order of R332: 0 accepted, 1 failed R332, 2 failed R335. -/
def verify (m : Mach) (b : Bundle) : Nat :=
  if !(b.formOk && decide (b.sections.length ≤ 16) && !b.sections.isEmpty && decide (b.cls ≤ 3)) then 1
  else if !m.trailerOk b then 1
  else if !m.svnOk b then 2
  else if !b.sections.all (fun t => sectionClass b.live t ≤ b.cls) then 1
  else if b.patched && !(b.patchSig && b.romX == m.get FUS_ROMVER_X && b.romY == m.get FUS_ROMVER_Y) then 1
  else if !b.gcmOk then 1
  else 0

/-- Update security. -/
def setSec (m : Mach) (f : SecState → SecState) : Mach := { m with sec := f m.sec }

/-- Update flash. -/
def setFlash (m : Mach) (f : Flash → Flash) : Mach := m.setSec fun s => { s with flash := f s.flash }

/-- The bundle of slot 2 or 3. -/
def slotBundle (m : Mach) (slot : Nat) : Option Bundle :=
  if slot = 2 then m.sec.flash.slot2 else if slot = 3 then m.sec.flash.slot3 else none

/-! ### Key slots (R340, R341) -/

/-- Put a key into a slot of the four engines, and into the vault. -/
def loadKey (m : Mach) (s : KeySlot) (k : BitVec 512) : Mach :=
  if m.mode = 11 then m
  else
    let m := (m.setSec fun x => { x with slots := x.slots.set s k }).setBitAt SEC_SLOTS_LOADED s.val true
    if h : s.val < 24 then
      (m.setSec fun x => { x with vault := x.vault.set s.val (some k) }).setBitAt SEC_VAULT_HELD s.val true
    else m

/-- Clear a slot and its copy in the vault. -/
def clearKey (m : Mach) (s : KeySlot) : Mach :=
  let m := (m.setSec fun x => { x with slots := x.slots.set s 0 }).setBitAt SEC_SLOTS_LOADED s.val false
  if h : s.val < 24 then
    (m.setSec fun x => { x with vault := x.vault.set s.val none }).setBitAt SEC_VAULT_HELD s.val false
  else m

/-- The ladder holds MEK(r) (R340): reads or writes of r are unlocked, or r has dirty units. -/
def needsKey (m : Mach) (r : LockId) : Bool :=
  let o := m.sec.objects[r]
  (m.nsOf o.nsid).isSome &&
    (!(o.readEn && o.readLocked) || !(o.writeEn && o.writeLocked) || m.pwr.dirty.any (·.key == r.val))

/-- An object would be unlocked after a power-on, which is when the key store holds a copy of its MEK under KKS (R339). -/
def openAtPowerOn (o : LockObject) : Bool := (!o.readEn && !o.writeEn) || !o.powerCycle

/-- The copies of MEK(r) in the key store: one under KAUTH(a) for each authority a that may unlock r, and one under KKS, named
`none`, while r would be unlocked after a power-on (R339). -/
def keyCopies (o : LockObject) : List (Option Nat) := o.auths.map some ++ if openAtPowerOn o then [none] else []

/-- The ladder loads and clears the slots of the locking objects (R340). -/
def refreshKeys (m : Mach) : Mach :=
  (allFin 24).foldl (fun m r =>
    let s : KeySlot := ⟨r.val, by omega⟩
    let loaded := (m.get SEC_SLOTS_LOADED).testBit r.val
    if m.needsKey r then (if loaded then m else m.loadKey s m.sec.objects[r].mek)
    else if loaded then m.clearKey s else m) m

/-- A step after which the ladder follows the locks and the dirty units (R340). -/
def keyed (f : Mach → Mach) (m : Mach) : Mach := (f m).refreshKeys

/-- Update a locking object. -/
def setLock (m : Mach) (r : LockId) (f : LockObject → LockObject) : Mach :=
  m.setSec fun s => { s with objects := updAt s.objects r f }

/-- MEK(r) is replaced by the DRBG (R345): a free value; r's dirty units and pending replay members go with the old key. -/
def replaceKey (m : Mach) (r : LockId) : Mach :=
  let k : BitVec 512 := BitVec.ofNat 512 m.free
  let m := (m.setLock r fun o => { o with mek := k }).nextFree
  let m := m.dropDirty (·.key == r.val)
  let m := m.dropPending (·.key == r.val)
  (m.clearKey ⟨r.val, by omega⟩).refreshKeys

/-- The objects of a namespace: its global range and the ranges bound to it. -/
def nsLocks (m : Mach) (nsid : Nat) : List LockId := (allFin 24).filter fun r => m.sec.objects[r].nsid == nsid

/-- The unlock of a range loads the members of a pending replay first (R324). -/
def loadPending (m : Mach) (r : LockId) : Mach :=
  let mine := m.pwr.pendingSaves.filter (·.key == r.val)
  let m := (mine.flatMap (·.units)).foldl (fun m u => m.addDirty u) m
  m.dropPending (·.key == r.val)

/-! ### Opal (R342–R345) -/

/-- Put bytes that are not 0 into a sparse table. -/
def putTable (t : List (Nat × Byte)) (offset : Nat) (bs : List Byte) : List (Nat × Byte) :=
  (bs.zipIdx).foldl (fun t (x : Byte × Nat) => putPair 0 (offset + x.2) x.1 t) t

/-- What a Security Send does to a drive that accepts it; parts that Table 14-9 leaves out change nothing. -/
def opal (m : Mach) (op : OpalOp) : Mach :=
  match op with
  | .lock r rd wr =>
    let m := m.setLock r fun o => { o with readLocked := rd, writeLocked := wr }
    (if rd && wr then m else m.loadPending r).refreshKeys
  | .enable r rd wr => (m.setLock r fun o => { o with readEn := rd, writeEn := wr }).refreshKeys
  | .lockOnReset r pc pg hw hp =>
    if hw || hp then m else m.setLock r fun o => { o with powerCycle := pc, programmatic := pg }
  | .range r nsid first count =>
    if r.val < 8 then m
    else
      let m := m.setLock r fun o => { o with nsid := nsid, first := first, count := count }
      m.replaceKey r
  | .authority r auth grant =>
    m.setLock r fun o => { o with auths := if grant then insertNat auth o.auths else removeNat auth o.auths }
  | .genKey r => m.replaceKey r
  | .revertLocking | .revertPsid =>
    let m := (allFin 24).foldl (fun m r => m.replaceKey r) m
    let m := (allFin 24).foldl (fun m r => m.setLock r fun o =>
      { LockObject.initial (if r.val < 8 then r.val + 1 else 0) with mek := o.mek }) m
    let m := m.setSec fun s => { s with
      mbrEnable := false, mbrDone := false, mbr := [], dataStore := []
      sidBlocked := if op = .revertPsid then false else s.sidBlocked }
    m.refreshKeys
  | .tperReset =>
    ((allFin 24).foldl (fun m r => m.setLock r fun o =>
      if o.programmatic then { o with readLocked := o.readEn, writeLocked := o.writeEn } else o) m).refreshKeys
  | .mbrControl e d => m.setSec fun s => { s with mbrEnable := e, mbrDone := d }
  | .mbrWrite off bs =>
    if off + bs.length ≤ 134217728 then m.setSec fun s => { s with mbr := putTable s.mbr off bs } else m
  | .dataStoreWrite off bs =>
    if off + bs.length ≤ 1048576 then m.setSec fun s => { s with dataStore := putTable s.dataStore off bs } else m
  | .blockSid => m.setSec fun s => { s with sidBlocked := true }
  | .unsupported => m

/-- A Level 0 Discovery feature descriptor: code, data. -/
def feature (code : Nat) (data : List Byte) : List Byte :=
  toBytesBE 2 code ++ [0x10] ++ toBytesBE 1 data.length ++ data

/-- Level 0 Discovery with the feature descriptors of Table 14-9. -/
def discovery (m : Mach) : List Byte :=
  let en := m.sec.objects.any fun o => o.readEn || o.writeEn
  let lk := m.sec.objects.any fun o => (o.readEn && o.readLocked) || (o.writeEn && o.writeLocked)
  let flags := 1 + 2 * bitNat en + 4 * bitNat lk + 8 + 16 * bitNat m.sec.mbrEnable + 32 * bitNat m.sec.mbrDone
  let fs :=
    feature 0x0001 (padTo 12 [0x11]) ++ feature 0x0002 (padTo 12 (toBytesLE 1 flags)) ++
      feature 0x0003 (padTo 28 ([0x01] ++ toBytesBE 7 0 ++ toBytesBE 4 4096 ++ toBytesBE 8 1 ++ toBytesBE 8 0)) ++
      feature 0x0203 (padTo 16 (toBytesBE 2 0x1000 ++ toBytesBE 2 1 ++ [0] ++ toBytesBE 2 4 ++ toBytesBE 2 16)) ++
      feature 0x0202 (padTo 12 (toBytesBE 2 0 ++ toBytesBE 2 1 ++ toBytesBE 4 1048576 ++ toBytesBE 4 1)) ++
      feature 0x0402 (padTo 12 (toBytesLE 1 (2 * bitNat m.sec.sidBlocked))) ++ feature 0x0403 (padTo 28 [0])
  toBytesBE 4 (44 + fs.length) ++ toBytesBE 4 1 ++ padTo 40 [] ++ fs

end Mach

/-- A field of the requester: only BC may write SEC_SEAL and SEC_KEYCMD (R337). -/
def Mach.notBc (m : Mach) : Mach := m.flagEvent SEC_ERR_NOTBC (32 * 32)

/-- KEY_LOAD_SLOT (R337, R340, Table 14-8): BC loads a slot from the working register; slots 24–30 stay empty. -/
def keyLoadSlot (req : Requester) (s : KeySlot) (m : Mach) : Mach :=
  if req ≠ .bc then m.notBc
  else if 24 ≤ s.val ∧ s.val ≤ 30 then m.flagEvent SEC_ERR_KEYOP (32 * 32 + 4)
  else m.loadKey s m.sec.work

/-- KEY_CLEAR_SLOT (R337, R340). -/
def keyClearSlot (req : Requester) (s : KeySlot) (m : Mach) : Mach := if req ≠ .bc then m.notBc else m.clearKey s

/-- KEY_CLEAR_ALL (R337): slots 0–30. -/
def keyClearAll (req : Requester) (m : Mach) : Mach :=
  if req ≠ .bc then m.notBc
  else (allFin 32).foldl (fun m s => if s.val = 31 then m else m.clearKey s) m

/-- SVN_RAISE (R336): on the first M3 after an activation the fuse counts reach the bundle's SVNs. -/
def svnRaise (m : Mach) : Mach :=
  match m.sec.active with
  | some b =>
    if m.sec.svnDue ∧ m.mode = 3 then
      m.setSec fun s =>
        { s with svnDue := false, fuses := { s.fuses with
            patch := if b.patched then max s.fuses.patch (min 64 b.svnPatch) else s.fuses.patch
            cfg := max s.fuses.cfg (min 64 b.svnCfg) } }
    else m
  | none => m

/-! ### Herug (R346–R351) -/

/-- The debug port answers the mailbox: option word 7 and the lifecycle allow it. -/
def Mach.mailboxOn (m : Mach) : Bool :=
  match m.sec.options[6]? with
  | some w => w.getLsbD 0
  | none => true

/-- DBG_NONCE shows a nonce, or 0. -/
def Mach.showNonce (m : Mach) (n : Nat) : Mach :=
  (List.range 4).foldl (fun m k => m.set (DBG_NONCE_NONCE k) (n / 2 ^ (32 * k))) m

/-- NONCE_REQUEST (R346): a nonce of the DRBG, a free value, is shown, unless three tokens were rejected. -/
def nonceRequest (m : Mach) : Mach :=
  if m.mailboxOn ∧ ¬ m.is DBG_STAT_LOCKED ∧ m.get DBG_STAT_STATE ≤ 1 then
    ((m.showNonce m.free).nextFree).set DBG_STAT_STATE 1
  else m

/-- TOKEN_SUBMIT (R346, R347): an attempt uses up the nonce; the token is accepted or rejected. -/
def tokenSubmit (t : Token) (m : Mach) : Mach :=
  if !(m.mailboxOn && m.get DBG_STAT_STATE == 1) then m
  else
    let nonce := (List.range 4).foldl (fun n k => n + 2 ^ (32 * k) * m.get (DBG_NONCE_NONCE k)) 0
    let m := (m.showNonce 0).set DBG_STAT_STATE 0
    let reject (m : Mach) (l : Loc) (b : Nat) : Mach :=
      let m := (m.flagEvent l (32 * 32 + 6 + b)).setSec fun s => { s with rejects := s.rejects + 1 }
      m.when (decide (3 ≤ m.sec.rejects)) (·.set DBG_STAT_LOCKED 1)
    let oem := m.sec.fuses.life == 1 && t.sigOem
    if !(t.sigSceka || oem) then reject m DBG_ERR_BADSIG 0
    else if t.serial ≠ m.sec.fuses.serial ∨ t.nonce.toNat ≠ nonce then reject m DBG_ERR_BADNONCE 1
    else if !t.sigSceka && (t.scope.getLsbD 1 || t.scope.getLsbD 3) then reject m DBG_ERR_SCOPE 2
    else
      let m := (m.set DBG_STAT_STATE 2).set DBG_STAT_SCOPE t.scope.toNat
      (m.setSec fun s => { s with scope := t.scope }).report (32 * 32 + 5)

/-- DBG_REFUSE (R347): DBG_GRANT.REFUSE in WAIT_GRANT. -/
def dbgRefuse (m : Mach) : Mach :=
  if m.get DBG_STAT_STATE ≠ 2 then m
  else
    let m := ((m.set DBG_STAT_STATE 0).set DBG_STAT_SCOPE 0).setSec fun s => { s with scope := 0 }
    m.flagEvent DBG_ERR_REFUSED (32 * 32 + 9)

/-- HERUG_PREPARE (R347): Ibzin clears FETCH_EN; once dispatched commands have completed and, unless FORCE is set, all data
is destaged, every actuator unloads. A request before the end of P6 waits. In M10 the spindle cannot reach M3 (R306), and
without FORCE Ibzin refuses. -/
def herugPrepare (m : Mach) : Mach :=
  if m.get DBG_STAT_STATE ≠ 2 ∨ ¬ m.rst.coresUp then m
  else if m.mode = 10 ∧ ¬ m.sec.scope.getLsbD 2 then dbgRefuse m
  else
    let m := (m.set QSQ_CTRL_FETCH_EN0 0).set QSQ_CTRL_FETCH_EN1 0
    if m.cmd.table.any (fun c => c.stage == .dispatched && !c.isAer) ∨ ¬ (m.sec.scope.getLsbD 2 ∨ m.allDestaged) then m
    else m.unloadAll

/-- DBG_GRANT (R348, R350): DBG_GRANT.GRANT in WAIT_GRANT freezes the fabric ports but 21 and 29, erases keys, core memories, cache and sample memories and starts the
fill of the buffer; with FORCE the dirty-unit count is kept first. -/
def dbgGrant (m : Mach) : Mach :=
  if m.get DBG_STAT_STATE ≠ 2 then m
  else
    let m := m.when (m.sec.scope.getLsbD 2) fun m => m.setFlash fun f => { f with forced := m.pwr.dirty.length }
    let m := dmaBlockWrite true true m
    let m := m.setCal fun c => { c with frozen := true }
    let m := m.setSec fun s =>
      { s with slots := Vector.replicate 32 0, vault := Vector.replicate 24 none, work := 0, noDus := true }
    let m := (m.set SEC_SLOTS_LOADED 0).set SEC_VAULT_HELD 0
    let m := m.clearCache
    let m := { m with media := { m.media with chan := m.media.chan.map fun (c : ChanState) =>
      { c with slots := ChanState.initial.slots } } }
    m.set DBG_STAT_STATE 3

/-- HERUG_OPEN (R348, R349): the fill ends: the buffer is zero, STATE is OPEN and the HQ8 is in M11; BC releases the frozen
ports, and the cores other than BC restart on the mask ROM, without patch and keys. -/
def herugOpen (m : Mach) : Mach :=
  if m.get DBG_STAT_STATE ≠ 3 then m
  else
    let m := m.setBuf fun b => { b with mem := BufMem.initial }
    let m := m.setPwr fun s => { s with dirty := [], waitL := [], admitted := [] }
    let m := (m.setSec fun s => { s with active := none }).setCal fun c => { c with frozen := false }
    let m := ((m.set DBG_STAT_STATE 4).incSat DBG_COUNT_OPENS 1).report (32 * 32 + 10)
    m.enterMode 11

/-- FUSE_PROGRAM (R351): under PROG in an open Herug, the blank drive-maker rows are written and SCEKA becomes OEM; or OEM
becomes RETURNED. -/
def fuseProgram (toReturned : Bool) (m : Mach) : Mach :=
  if m.get DBG_STAT_STATE ≠ 4 ∨ ¬ m.sec.scope.getLsbD 3 then m
  else m.setSec fun s =>
    let f := s.fuses
    { s with fuses :=
        if toReturned then (if f.life = 1 then { f with life := 2 } else f)
        else if !f.oemKey && f.life = 0 then { f with oemKey := true, life := 1 } else f }

end Sys2Proof.Machine
end

