-- ==== Sys2Proof/Machine/Admin.lean ====
section
/-! DEFINITION. Admin commands: queues, log pages, Identify, features, namespaces and firmware
(spec/12_command_set.md; R266, R267, R284, R285, R289–R293, R301, R432). -/
namespace Sys2Proof.Machine

/-- A structure of `n` bytes with parts at their offsets; bytes that the spec states no content for are free values of
`kind`. -/
def layout (kind n : Nat) (parts : List (Nat × List Byte)) : List Byte :=
  parts.foldl (fun bs p => bs.take p.1 ++ p.2 ++ bs.drop (p.1 + p.2.length)) ((List.range n).map (Config.imageByte kind))

/-- Zero bytes with parts at their offsets. -/
def zeroLayout (n : Nat) (parts : List (Nat × List Byte)) : List Byte :=
  parts.foldl (fun bs p => bs.take p.1 ++ p.2 ++ bs.drop (p.1 + p.2.length)) (List.replicate n 0)

/-- ASCII bytes of a decimal number. -/
def asciiNat (n : Nat) : List Byte := (Nat.repr n).toList.map fun c => BitVec.ofNat 8 c.toNat

/-! ### Requests (R289, R304) -/

/-- An answer: status, DW0, data, and where an offending field stands. -/
structure Answer where
  status : Nat
  dw0    : Nat
  data   : List Byte
  loc    : Nat
  deriving DecidableEq, Repr

/-- Success with data. -/
def Answer.ok (dw0 : Nat) (data : List Byte) : Answer := ⟨stOk, dw0, data, 0xFFFF⟩
/-- A refusal. -/
def Answer.err (status : Nat) : Answer := ⟨status, 0, [], 0xFFFF⟩
/-- Invalid Field at a byte and bit of the submission entry. -/
def Answer.field (byte bit : Nat) : Answer := ⟨stField, 0, [], byte + 256 * bit⟩

/-- Response Message Status of a request that the sleeping drive does not serve (R304). -/
def miAsleep : Nat := 0xE0

namespace Mach

/-- A sideband request is served: nothing before the end of P6, and only `polls` in M8 (R304). -/
def sideband (m : Mach) (poll : Bool) (f : Mach) : Mach :=
  if !m.rst.coresUp then m
  else if m.mode = 8 ∧ ¬ poll then m.emit (.mi miAsleep [])
  else f

/-- The answer of a tunnelled command: DW0, DW1 and DW3 of its completion, and its data. -/
def tunnelAnswer (m : Mach) (x : Answer) : Mach :=
  m.emit (.mi 0 (toBytesLE 8 x.dw0 ++ toBytesLE 4 (2 ^ 17 * statusField x.status) ++ x.data))

/-- An admin command from the host or the sideband. `allow` are the tunnelled forms that the sideband serves; any other
tunnelled command is an invalid opcode. A host command whose transfer ended in `e` other than OK gets that status. -/
def adminRequest (m : Mach) (r : AdminReq) (opcode : Nat) (e : IoEnd) (allow : Cmd → Bool) (f : Cmd → Mach × Answer) :
    Mach :=
  match r with
  | .host fsn =>
    m.withRunning fsn 0 opcode fun c =>
      m.transferred c true e fun _ =>
        let (m', x) := f c
        let m' := m'.when (!x.data.isEmpty) (·.emit (.returned c.fsn x.data))
        (m'.setCommand c.fsn fun y => { y with loc := x.loc }).decide_ c.fsn x.status x.dw0
  | .tunnel p sqe =>
    let c : Cmd :=
      { fsn := m.get QSQ_FSN_FSN, ctrl := p, sqid := 0, sqe := sqe, stage := .dispatched, reserve := false, kind := none
        ranges := [], inBuffer := false, durable := false, verdict := none, slba := 0, result := none, discard := false
        units := [], core := 0, target := none, begun := false, superseded := [], loc := 0xFFFF, badLba := 0
        blank := [], shadow := [] }
    m.sideband false <|
      if c.opcode = opcode ∧ allow c then
        let (m', x) := f c
        m'.tunnelAnswer x
      else m.tunnelAnswer (Answer.err stOpcode)

/-! ### I/O queues (R266, R267) -/

/-- The memory page size of a controller (CC.MPS). -/
def pageSize (m : Mach) (p : PortId) : Nat := 2 ^ (12 + getBits m.host.ctrls[p].cc 7 4)

/-- The refusal of a queue creation, as far as both kinds share it. -/
def queueRefused (c : Cmd) (used : Bool) : Option Answer :=
  let qid := c.dw 10 0 16
  let size := c.dw 10 16 16 + 1
  if qid = 0 ∨ 128 < qid ∨ used then some (Answer.err stQid)
  else if size < 2 ∨ 4096 < size then some (Answer.err stQsize)
  else if c.dw 11 0 1 = 0 then some (Answer.field 44 0)
  else none

/-- Finish a command with an answer. -/
def answer (m : Mach) (fsn : Nat) (x : Answer) : Mach :=
  (m.setCommand fsn fun c => { c with loc := x.loc }).decide_ fsn x.status x.dw0

end Mach

/-- CREATE_IO_SQ (R266). -/
def createIoSq (fsn : BitVec 32) (m : Mach) : Mach :=
  m.withRunning fsn 0 0x01 fun c =>
    let x := m.host.ctrls[c.ctrl]
    let qid := c.dw 10 0 16
    let cqid := c.dw 11 16 16
    match Mach.queueRefused c (x.sqs.any (·.id == qid)) with
    | some e => m.answer c.fsn e
    | none =>
      if ¬ x.cqs.any (fun q => q.id == cqid && q.id != 0) then m.finish c.fsn stCq
      else if c.dw 6 0 64 % m.pageSize c.ctrl ≠ 0 then m.invalid c.fsn 24 0
      else
        let q : SubQueue := ⟨qid, c.dw 10 16 16 + 1, c.dw 6 0 64, cqid, c.dw 11 1 2, 0, 0, 0, none, 0, false⟩
        (m.setCtrl c.ctrl fun x => { x with sqs := x.sqs ++ [q], queued := true }).finish c.fsn stOk

/-- CREATE_IO_CQ (R266). -/
def createIoCq (fsn : BitVec 32) (m : Mach) : Mach :=
  m.withRunning fsn 0 0x05 fun c =>
    let x := m.host.ctrls[c.ctrl]
    let qid := c.dw 10 0 16
    match Mach.queueRefused c (x.cqs.any (·.id == qid)) with
    | some e => m.answer c.fsn e
    | none =>
      if 128 < c.dw 11 16 16 then m.finish c.fsn stVector
      else if c.dw 6 0 64 % m.pageSize c.ctrl ≠ 0 then m.invalid c.fsn 24 0
      else
        let q : CompQueue := ⟨qid, c.dw 10 16 16 + 1, c.dw 6 0 64, c.dw 11 16 16, c.dw 11 1 1 == 1, 0, 0, true⟩
        (m.setCtrl c.ctrl fun x => { x with cqs := x.cqs ++ [q], queued := true }).finish c.fsn stOk

/-- DELETE_IO_CQ (R266). -/
def deleteIoCq (fsn : BitVec 32) (m : Mach) : Mach :=
  m.withRunning fsn 0 0x04 fun c =>
    let x := m.host.ctrls[c.ctrl]
    let qid := c.dw 10 0 16
    if qid = 0 ∨ ¬ x.cqs.any (·.id == qid) then m.finish c.fsn stQid
    else if x.sqs.any (·.cq == qid) then m.finish c.fsn stQueueDelete
    else (m.setCtrl c.ctrl fun x => { x with cqs := x.cqs.filter (·.id != qid) }).finish c.fsn stOk

/-- DELETE_IO_SQ (R267): fetching from the queue stops and its undispatched commands complete with status 0x08; once every
command of the queue has completed, the queue is gone, Queue Halt on Error with it, and the Delete completes. -/
def deleteIoSq (fsn : BitVec 32) (m : Mach) : Mach :=
  m.withRunning fsn 0 0x00 fun c =>
    let x := m.host.ctrls[c.ctrl]
    let qid := c.dw 10 0 16
    let mine (d : Cmd) : Bool := d.ctrl == c.ctrl && d.sqid == qid
    if qid = 0 ∨ ¬ x.sqs.any (·.id == qid) then m.finish c.fsn stQid
    else if m.cmd.table.any mine then
      let m := m.setCtrl c.ctrl fun x =>
        { x with sqs := x.sqs.map fun q => if q.id == qid then { q with closing := true } else q }
      let undone := m.cmd.table.filter fun d => mine d && d.live && (d.stage == .fetched || d.stage == .checked)
      m.abortCommands undone stSqDeleted
    else
      let m := m.setCtrl c.ctrl fun x =>
        { x with sqs := x.sqs.filter (·.id != qid), feat := { x.feat with qhoe := x.feat.qhoe.filter (·.1 != qid) } }
      (m.syncHalt c.ctrl).finish c.fsn stOk

/-! ### Log pages (Tables 12-6, 12-8, 12-12) -/

namespace Mach

/-- SMART critical warnings: bit 2 while any actuator or head is depopulated or the chopper is faulty (Table 12-6), bit 4
after a failed backup (R326), bit 1 while a temperature is beyond its threshold. -/
def warnings (m : Mach) : Nat :=
  let degraded := m.is SPN_BRK_FAULT || (allFin 4).any fun a => m.is (QDR_ACT_DEPOP a.val) || m.is (QDR_ACT_HEAD_DEPOP a.val)
  2 * bitNat (m.cmd.overTemp.any id) + 4 * bitNat degraded + 16 * bitNat m.pwr.backupFailed

/-- The ANA state of a namespace: 1 Optimized, 3 Inaccessible, 4 Persistent Loss (R300, Table 12-1). -/
def anaState (m : Mach) (n : Namespace) : Nat := if m.mode = 10 then 3 else if m.anaLost n then 4 else 1

/-- The Error Information log, newest first (R413, Table 18-3). -/
def errorLog (m : Mach) (p : PortId) : List Byte :=
  let one (e : ErrorEntry) : List Byte :=
    let own := match e.record, e.source with
      | some s, some n => [0xC0, 0, 0, 0] ++ toBytesLE 8 (s % 2 ^ 32 + 2 ^ 32 * n)
      | _, _ => List.replicate 12 0
    padTo 64 (toBytesLE 8 e.count ++ toBytesLE 2 e.sqid ++ toBytesLE 2 e.cid ++ toBytesLE 2 e.status ++ toBytesLE 2 e.loc ++
      toBytesLE 8 e.lba ++ toBytesLE 4 e.nsid ++ own)
  padTo (256 * 64) (m.host.ctrls[p].errors.flatMap one)

/-- The patch level of a bundle as Identify reports it (R334). -/
def patchLevel (b : Option Bundle) : Nat := match b with
  | some b => if b.patched then b.patchLvl else 0
  | none => 0

/-- A firmware revision: ASCII "x.y.z", padded with spaces. -/
def revision (m : Mach) (z : Nat) : List Byte :=
  let s := asciiNat (m.get FUS_ROMVER_X) ++ [0x2E] ++ asciiNat (m.get FUS_ROMVER_Y) ++ [0x2E] ++ asciiNat z
  (s ++ List.replicate 8 0x20).take 8

/-- The Firmware Slot Information log. -/
def slotLog (m : Mach) : List Byte :=
  let f := m.sec.flash
  let next := match f.pending with
    | some (s, _) => s
    | none => 0
  let rev (b : Option Bundle) : List Byte := match b with
    | some _ => m.revision (patchLevel b)
    | none => List.replicate 8 0
  zeroLayout 512 [(0, toBytesLE 1 (f.active + 16 * next)), (8, m.revision 0), (16, rev f.slot2), (24, rev f.slot3)]

/-- Opcodes of Tables 12-2 and 12-4. -/
def adminOpcodes : List Nat :=
  [0x00, 0x01, 0x02, 0x04, 0x05, 0x06, 0x08, 0x09, 0x0A, 0x0C, 0x0D, 0x10, 0x11, 0x15, 0x1D, 0x1E, 0x80, 0x81, 0x82, 0xC4,
    0xC8, 0xCC]
def ioOpcodes : List Nat := [0x00, 0x01, 0x02, 0x04, 0x05, 0x08, 0x09, 0x0C, 0x79, 0x7A, 0x7D]

/-- The Commands Supported and Effects log: CSUPP of each command; other bits of a supported command are free values. -/
def effectsLog : List Byte :=
  let entry (base : Nat) (ops : List Nat) (k : Nat) : List Byte :=
    if ops.contains k then
      (Config.imageByte 0x05 (base + 4 * k) ||| 1) :: (List.range 3).map fun i => Config.imageByte 0x05 (base + 4 * k + 1 + i)
    else [0, 0, 0, 0]
  padTo 4096 ((List.range 256).flatMap (entry 0 adminOpcodes) ++ (List.range 256).flatMap (entry 1024 ioOpcodes))

/-- The Asymmetric Namespace Access log: one group per namespace; change counts are free values. -/
def anaLog (m : Mach) (rgo : Bool) : List Byte :=
  let head := (List.range 8).map (Config.imageByte 0x0C) ++ toBytesLE 2 m.cmd.nss.length ++ List.replicate 6 0
  let one (n : Namespace) : List Byte :=
    toBytesLE 4 n.nsid ++ toBytesLE 4 (if rgo then 0 else 1) ++
      (List.range 8).map (fun i => Config.imageByte 0x0C (8 * n.nsid + i)) ++ toBytesLE 1 (m.anaState n) ++
      List.replicate 15 0 ++ (if rgo then [] else toBytesLE 4 n.nsid)
  head ++ m.cmd.nss.flatMap one

/-- Bytes of the recorder from an offset; erased bytes are 0xFF, the identity sector's are those of the first boot. -/
def recorderBytes (m : Mach) (offset n : Nat) : List Byte :=
  (List.range n).map fun i =>
    let a := offset + i
    if 2 ^ 25 ≤ a then 0
    else if a < 4096 ∧ m.evt.boots ≠ 0 then Config.imageByte 0xC0 a
    else match getPair [] (a / 256) m.evt.slots with
      | [] => 0xFF
      | bs => bs.getD (a % 256) 0xFF

/-- The Halted Queues log (Table 12-8). -/
def haltedLog (m : Mach) (p : PortId) : List Byte :=
  let qs := (m.host.ctrls[p].sqs.filter (·.halted.isSome)).mergeSort fun a b => a.id ≤ b.id
  let one (q : SubQueue) : List Byte := match q.halted with
    | some (cid, st, f) =>
      let held := m.cmd.table.countP fun c =>
        c.ctrl == p && c.sqid == q.id && c.live && (c.stage == .fetched || c.stage == .checked)
      padTo 32 (toBytesLE 2 q.id ++ toBytesLE 2 cid ++ toBytesLE 2 st ++ toBytesLE 2 0 ++ toBytesLE 4 held ++ toBytesLE 4 f)
    | none => []
  padTo 16 (toBytesLE 4 qs.length) ++ qs.flatMap one

/-- The Actuator Status log (R432, Table 12-12). -/
def actuatorLog (m : Mach) : List Byte :=
  let one (a : Actuator) : List Byte :=
    padTo 32 (toBytesLE 1 (m.get (QDR_ACT_STATE a.val)) ++ toBytesLE 1 (m.get (QDR_ACT_PARKED a.val)) ++
      toBytesLE 1 (m.get (QDR_ACT_HEAD_DEPOP a.val)) ++ toBytesLE 1 m.motion.lastFault[a].toNat ++
      toBytesLE 2 (min 65535 (m.recentFaults a)) ++ toBytesLE 2 (m.get (QDR_ACT_TDG a.val)))
  padTo 256 ((allFin 4).flatMap one ++ toBytesLE 1 (m.get SPN_BRK_FAULT) ++ toBytesLE 1 (m.get SPN_BRK_ACK) ++
    toBytesLE 1 (m.get SPN_BRK_CAUSE) ++ [0] ++ toBytesLE 2 (m.get SPN_BRK_RBRK))

/-- The Maintenance log (Table 12-6): the last scrub summary, and the candidate pass and media scan. -/
def maintenanceLog (m : Mach) : List Byte :=
  let report (p : Option Pass) (r : PassReport) : List Byte :=
    let r : PassReport := match p with
      | some p => ⟨1, p.count, p.figure, 0⟩
      | none => r
    padTo 64 (toBytesLE 4 r.state ++ toBytesLE 8 r.count ++ toBytesLE 4 r.startFig ++ toBytesLE 4 r.endFig)
  padTo 384 ((m.readBytes (256 * m.get SCB_SUMADDR_ADDR) 256).1.1 ++ report m.cmd.candPass m.cmd.reports[1] ++
    report m.cmd.scan m.cmd.reports[2])

/-- A page of Table 12-6 other than the recorder; none where the LID names none. -/
def logPage (m : Mach) (c : Cmd) : Option (List Byte) :=
  let p := c.ctrl
  match c.dw 10 0 8 with
  | 0x01 => some (m.errorLog p)
  | 0x02 => some (layout 0x02 512 [(0, toBytesLE 1 m.warnings)])
  | 0x03 => some m.slotLog
  | 0x04 => some (padTo 4096 (m.host.ctrls[p].changedNs.flatMap (toBytesLE 4)))
  | 0x05 => some effectsLog
  | 0x0C => some (m.anaLog (c.dw 10 8 1 == 1))
  | 0xBF =>
    let zs := (m.host.ctrls[p].changedZone.filter (·.1 == c.nsid)).take 511
    some (padTo 4096 (toBytesLE 8 zs.length ++ zs.flatMap fun z => toBytesLE 8 (65536 * z.2)))
  | 0xC1 => some (m.haltedLog p)
  | 0xC2 => some m.actuatorLog
  | 0xC3 => some m.maintenanceLog
  | _ => none

/-- Get Log Page (Table 12-6): without RAE the events of the page are unmasked. -/
def getLog (m : Mach) (c : Cmd) : Mach × Answer :=
  let n := 4 * (c.dw 10 16 16 + 65536 * c.dw 11 0 16 + 1)
  let lid := c.dw 10 0 8
  let lpo := c.dw 12 0 64
  let done (bs : List Byte) : Mach × Answer :=
    let m := if c.dw 10 15 1 = 1 then m
      else (m.setCtrl c.ctrl fun x => { x with masked := x.masked.filter (·.lid != lid) }).serveEvents c.ctrl
    (m, Answer.ok 0 bs)
  if lpo % 4 ≠ 0 then (m, Answer.field 48 0)
  else if 4194304 < n then (m, Answer.field 42 0)
  else if lid = 0x02 ∧ c.nsid ≠ 0xFFFFFFFF then (m, Answer.err stNamespace)
  else if lid = 0xC0 then done (m.recorderBytes lpo n)
  else
    match m.logPage c with
    | some page => done (padTo n (page.drop lpo))
    | none => (m, Answer.err stLogPage)

end Mach

/-- GET_LOG_PAGE (R289, R301, R304, R420, Table 12-6). -/
def getLogPage (r : AdminReq) (e : IoEnd) (m : Mach) : Mach :=
  m.adminRequest r 0x02 e (fun c => [0x01, 0x02, 0x03, 0x0C, 0xC0, 0xC2, 0xC3].contains (c.dw 10 0 8)) m.getLog

/-! ### Identify (Tables 12-3, 12-11, 13-3) -/

namespace Mach

/-- Power-state descriptors (Table 13-3): maximum power in 0.01 W, NOPS, ENLAT, EXLAT. -/
def powerStates : List (Nat × Bool × Nat × Nat) :=
  [(2500, false, 0, 0), (1800, false, 0, 0), (1300, false, 0, 0), (650, true, 1000000, 12000000), (250, true, 2000000, 30000000)]

/-- The descriptors as Identify Controller holds them. -/
def powerParts : List (Nat × List Byte) :=
  powerStates.zipIdx.flatMap fun (x : (Nat × Bool × Nat × Nat) × Nat) =>
    let base := 2048 + 32 * x.2
    [(base, toBytesLE 2 x.1.1), (base + 3, toBytesLE 1 (2 * bitNat x.1.2.1)), (base + 4, toBytesLE 4 x.1.2.2.1),
      (base + 8, toBytesLE 4 x.1.2.2.2)]

/-- Identify Controller (Table 12-11). -/
def idController (m : Mach) (p : PortId) : List Byte :=
  layout 0x1001 4096 ([
    (0, toBytesLE 2 0x1F2B), (2, toBytesLE 2 (m.get HIF_SUBSYS_SSVID)), (64, m.revision (patchLevel m.sec.active)), (72, [3]), (76, [0x0B]), (77, [10]),
    (78, toBytesLE 2 p.val), (80, toBytesLE 4 0x00020000), (92, toBytesLE 4 0x80000B00), (256, toBytesLE 2 0x004F),
    (258, [3]), (259, [3]), (260, [0x17]), (261, [0x06]), (262, [255]), (263, [4]), (264, [1]), (265, [0]),
    (266, toBytesLE 2 343), (268, toBytesLE 2 358), (270, toBytesLE 2 20), (319, [1]), (342, [10]), (343, [0x0D]),
    (344, toBytesLE 4 8), (348, toBytesLE 4 8), (512, [0x66]), (513, [0x44]), (514, toBytesLE 2 4096),
    (516, toBytesLE 4 8), (520, toBytesLE 2 0x009F), (522, toBytesLE 2 0), (524, [0x04]), (525, [0x07]),
    (526, toBytesLE 2 0), (528, toBytesLE 2 0), (530, [1]), (536, toBytesLE 4 0x00010001), (540, toBytesLE 4 8)]
    ++ powerParts)

/-- Identify Namespace (Tables 12-3, 12-11). -/
def idNamespace (n : Namespace) : List Byte :=
  layout 0x1000 4096 [
    (0, toBytesLE 8 n.nsze), (8, toBytesLE 8 n.nsze), (25, [2]), (26, toBytesLE 1 n.flbas), (27, [0x03]), (28, [0x1F]),
    (29, toBytesLE 1 n.dps), (33, [0x09]), (46, toBytesLE 2 (if n.zoned then 0 else 4096)), (92, toBytesLE 4 n.nsid),
    (128, toBytesLE 4 0x000C0000), (132, toBytesLE 4 0x000C0008), (136, toBytesLE 4 0x000C0010),
    (3072, toBytesLE 1 n.group), (3073, [0]), (3074, toBytesLE 2 n.limit)]

/-- Command-set-specific Identify Namespace. -/
def idNamespaceSet (n : Namespace) (csi : Nat) : List Byte :=
  if csi = 0 then layout 0x1005 4096 [(12, toBytesLE 4 0), (16, toBytesLE 4 0), (20, toBytesLE 4 0x100)]
  else
    layout 0x1205 4096 ([(0, toBytesLE 2 0), (2, toBytesLE 2 0), (4, toBytesLE 4 (n.limit - 1)), (8, toBytesLE 4 (n.limit - 1))]
      ++ (List.range 3).flatMap fun k => [(2816 + 16 * k, toBytesLE 8 65536), (2824 + 16 * k, [0])])

/-- Identifiers of namespaces above `after` that satisfy `p`, as a list of 4,096 bytes. -/
def nsList (m : Mach) (after : Nat) (p : Namespace → Bool) : List Byte :=
  let ids := ((m.cmd.nss.filter fun n => p n && decide (after < n.nsid)).map (·.nsid)).foldl (fun l i => insertNat i l) []
  padTo 4096 (ids.flatMap (toBytesLE 4))

/-- A controller list of 4,096 bytes. -/
def ctrlList (from_ : Nat) (p : PortId → Bool) : List Byte :=
  let ids := (allFin 2).filter fun c => p c && decide (from_ ≤ c.val)
  padTo 4096 (toBytesLE 2 ids.length ++ ids.flatMap fun c => toBytesLE 2 c.val)

/-- Identify (R289): the structure that the CNS selects. -/
def identifyData (m : Mach) (c : Cmd) : Answer :=
  let csi := c.dw 11 24 8
  let ok (bs : List Byte) : Answer := Answer.ok 0 bs
  let attached (n : Namespace) : Bool := n.attached[c.ctrl]
  let known := decide (1 ≤ c.nsid ∧ c.nsid ≤ 8)
  let csiOf (n : Namespace) : Nat := if n.zoned then 2 else 0
  match c.dw 10 0 8 with
  | 0x00 =>
    if !known then Answer.err stNamespace
    else match (m.nsOf c.nsid).filter attached with
      | some n => ok (idNamespace n)
      | none => ok (List.replicate 4096 0)
  | 0x01 => ok (m.idController c.ctrl)
  | 0x02 => if 0xFFFFFFFE ≤ c.nsid then Answer.err stNamespace else ok (m.nsList c.nsid attached)
  | 0x03 =>
    match (m.nsOf c.nsid).filter attached with
    | some n => ok (layout 0x1003 4096 [(0, [4, 1, 0, 0] ++ toBytesLE 1 (csiOf n))])
    | none => Answer.err stNamespace
  | 0x05 =>
    if csi ≠ 0 ∧ csi ≠ 2 then Answer.field 47 0
    else match (m.nsOf c.nsid).filter attached with
      | some n => if csi = 2 ∧ ¬ n.zoned then Answer.err stNamespace else ok (idNamespaceSet n csi)
      | none => if known then ok (List.replicate 4096 0) else Answer.err stNamespace
  | 0x06 =>
    if csi = 0 then ok (layout 0x1006 4096 [])
    else if csi = 2 then ok (layout 0x1206 4096 [(0, [8])])
    else Answer.field 47 0
  | 0x07 =>
    if csi ≠ 0 ∧ csi ≠ 2 then Answer.field 47 0
    else if 0xFFFFFFFE ≤ c.nsid then Answer.err stNamespace
    else ok (m.nsList c.nsid fun n => attached n && csiOf n == csi)
  | 0x10 => if 0xFFFFFFFE ≤ c.nsid then Answer.err stNamespace else ok (m.nsList c.nsid fun _ => true)
  | 0x11 =>
    if !known then Answer.err stNamespace
    else match m.nsOf c.nsid with
      | some n => ok (idNamespace n)
      | none => ok (List.replicate 4096 0)
  | 0x12 =>
    match m.nsOf c.nsid with
    | some n => ok (ctrlList (c.dw 10 16 16) fun p => n.attached[p])
    | none => Answer.err stNamespace
  | 0x13 => ok (ctrlList (c.dw 10 16 16) fun p => p == 0 || m.dual)
  | 0x1C => ok (padTo 4096 (toBytesLE 8 0x5))
  | _ => Answer.field 40 0

end Mach

/-- IDENTIFY (R289, R304, Table 12-11). -/
def identify (r : AdminReq) (e : IoEnd) (m : Mach) : Mach :=
  m.adminRequest r 0x06 e (fun _ => true) fun c => (m, m.identifyData c)

/-! ### Features (R301, R303, Table 12-5) -/

/-- The features, with whether they can be saved. -/
def featureSaves (fid : Nat) : Option Bool :=
  if [0x06, 0x12, 0xC1, 0xC2, 0xC3].contains fid then some true
  else if [0x01, 0x02, 0x04, 0x05, 0x07, 0x08, 0x09, 0x0B, 0xC0].contains fid then some false
  else none

namespace Mach

/-- The value of a feature: from controller features, subsystem features and saved ones. -/
def featureValue (m : Mach) (f : CtrlFeatures) (s : SubFeatures) (c : Cmd) : Nat :=
  match c.dw 10 0 8 with
  | 0x01 => f.ab + 2 ^ 8 * f.lpw + 2 ^ 16 * f.mpw + 2 ^ 24 * f.hpw
  | 0x02 => s.ps
  | 0x04 =>
    let t := c.dw 11 16 4
    if c.dw 11 20 2 = 0 then s.overT.toList.getD t 0 else s.underT.toList.getD t 0
  | 0x06 => bitNat s.saved.vwc
  | 0x07 => (f.nsq - 1) + 2 ^ 16 * (f.ncq - 1)
  | 0x08 => f.coalThr + 2 ^ 8 * f.coalTime
  | 0x09 => c.dw 11 0 16 + 2 ^ 16 * bitNat (f.vecCd.contains (c.dw 11 0 16))
  | 0x0B => f.aec
  | 0x12 => s.saved.rrl
  | 0xC0 => c.dw 11 0 16 + 2 ^ 31 * bitNat (f.qhoe.any (·.1 == c.dw 11 0 16))
  | 0xC1 => s.saved.limit + 2 ^ 16 * m.get KSV_LIMIT_CAP + 2 ^ 31 * bitNat m.armed
  | 0xC2 => s.saved.cap
  | 0xC3 => s.saved.slot
  | _ => 0

/-- The saved values, with the defaults where none was saved. -/
def savedFeatures (m : Mach) : SavedFeatures :=
  let s := m.cmd.saved
  let d := m.defaultFeatures
  ⟨s.vwc.getD d.vwc, s.rrl.getD d.rrl, s.limit.getD d.limit, s.cap.getD d.cap, s.slot.getD d.slot⟩

/-- Get Features: SEL 0 current, 1 default, 2 saved, 3 supported capabilities. -/
def getFeature (m : Mach) (c : Cmd) : Answer :=
  let fid := c.dw 10 0 8
  match featureSaves fid with
  | none => Answer.field 40 0
  | some saves =>
    let bad := (fid == 0x04 && (decide (2 < c.dw 11 16 4) || decide (1 < c.dw 11 20 2))) ||
      (fid == 0x09 && decide (128 < c.dw 11 0 16)) ||
      (fid == 0xC0 && (c.dw 11 0 16 == 0 || decide (128 < c.dw 11 0 16)))
    if bad then Answer.field 44 0
    else
      let cur := m.host.ctrls[c.ctrl].feat
      let dft : SubFeatures := { SubFeatures.default with saved := m.defaultFeatures }
      match c.dw 10 8 3 with
      | 0 => Answer.ok (m.featureValue cur m.cmd.feat c) []
      | 1 => Answer.ok (m.featureValue CtrlFeatures.default dft c) []
      | 2 => Answer.ok (m.featureValue CtrlFeatures.default { dft with saved := m.savedFeatures } c) []
      | 3 => Answer.ok (bitNat saves + 4 * bitNat (fid != 0x05)) []
      | _ => Answer.field 41 0

/-- Update the features of a controller. -/
def setFeat (m : Mach) (p : PortId) (f : CtrlFeatures → CtrlFeatures) : Mach :=
  m.setCtrl p fun c => { c with feat := f c.feat }

/-- Update the features of the subsystem, and the saved values where SV is 1. -/
def setSub (m : Mach) (f : SubFeatures → SubFeatures) : Mach := m.setCmdState fun c => { c with feat := f c.feat }

/-- Save a value in flash. -/
def save (m : Mach) (c : Cmd) (f : FlashFeatures → FlashFeatures) : Mach :=
  m.when (c.dw 10 31 1 == 1) fun m => m.setCmdState fun x => { x with saved := f x.saved }

/-- Set Features. -/
def setFeature (m : Mach) (c : Cmd) : Mach × Answer :=
  let fid := c.dw 10 0 8
  let v := c.cdw 11
  let p := c.ctrl
  let ok (m : Mach) : Mach × Answer := (m, Answer.ok 0 [])
  match featureSaves fid with
  | none => (m, Answer.field 40 0)
  | some saves =>
    if c.dw 10 31 1 = 1 ∧ ¬ saves then (m, Answer.err stNotSaveable)
    else
      match fid with
      | 0x01 =>
        ok ((m.setFeat p fun f =>
          { f with ab := c.dw 11 0 3, lpw := c.dw 11 8 8, mpw := c.dw 11 16 8, hpw := c.dw 11 24 8 }).syncCtrl p)
      | 0x02 =>
        if 4 < c.dw 11 0 5 ∨ c.dw 11 5 3 ≠ 0 then (m, Answer.field 44 0)
        else ok ((m.setSub fun s => { s with ps := c.dw 11 0 5 }).setPowerState (c.dw 11 0 5))
      | 0x04 =>
        if h : c.dw 11 16 4 < 3 then
          let t := c.dw 11 0 16
          if c.dw 11 20 2 = 0 then ok (m.setSub fun s => { s with overT := s.overT.set (c.dw 11 16 4) t })
          else if c.dw 11 20 2 = 1 then ok (m.setSub fun s => { s with underT := s.underT.set (c.dw 11 16 4) t })
          else (m, Answer.field 46 4)
        else (m, Answer.field 46 0)
      | 0x05 => if v = 0 then ok m else (m, Answer.field 44 0)
      | 0x06 =>
        let on := c.dw 11 0 1 == 1
        ok ((m.setSub fun s => { s with saved := { s.saved with vwc := on } }).save c fun s => { s with vwc := some on })
      | 0x07 =>
        if m.host.ctrls[p].queued then (m, Answer.err stSequence)
        else if 127 < c.dw 11 0 16 ∨ 127 < c.dw 11 16 16 then (m, Answer.field 44 0)
        else (m.setFeat p fun f => { f with nsq := c.dw 11 0 16 + 1, ncq := c.dw 11 16 16 + 1 }, Answer.ok v [])
      | 0x08 => ok (m.setFeat p fun f => { f with coalThr := c.dw 11 0 8, coalTime := c.dw 11 8 8 })
      | 0x09 =>
        let k := c.dw 11 0 16
        if 128 < k then (m, Answer.field 44 0)
        else ok (m.setFeat p fun f =>
          { f with vecCd := if c.dw 11 16 1 = 1 then insertNat k f.vecCd else removeNat k f.vecCd })
      | 0x0B => ok ((m.setFeat p fun f => { f with aec := v }))
      | 0x12 =>
        let k := c.dw 12 0 4
        ok ((m.setSub fun s => { s with saved := { s.saved with rrl := k } }).save c fun s => { s with rrl := some k })
      | 0xC0 =>
        let q := c.dw 11 0 16
        let halted := m.host.ctrls[p].sqs.any fun s => s.id == q && s.halted.isSome
        if q = 0 ∨ 128 < q then (m, Answer.field 44 0)
        else if c.dw 11 31 1 = 1 then
          ok ((m.setFeat p fun f => { f with qhoe := if f.qhoe.any (·.1 == q) then f.qhoe else f.qhoe ++ [(q, c.fsn)] }).syncHalt p)
        else if halted then (m, Answer.err stSequence)
        else ok ((m.setFeat p fun f => { f with qhoe := f.qhoe.filter (·.1 != q) }).syncHalt p)
      | 0xC1 =>
        let k := c.dw 11 0 11
        if 1024 < k then (m, Answer.field 44 0)
        else ok (((m.setSub fun s => { s with saved := { s.saved with limit := k } }).save c fun s =>
          { s with limit := some k }).setLimit)
      | 0xC2 =>
        let k := c.dw 11 0 16
        ok (((m.setSub fun s => { s with saved := { s.saved with cap := k } }).save c fun s => { s with cap := some k }).applyCap)
      | _ =>
        if 16383 < v then (m, Answer.field 44 0)
        else ok ((m.setSub fun s => { s with saved := { s.saved with slot := v } }).save c fun s => { s with slot := some v })

end Mach

/-- SET_FEATURES (R301, R303, R304): over the sideband only the power cap and the fleet slot. -/
def setFeatures (r : AdminReq) (m : Mach) : Mach :=
  m.adminRequest r 0x09 .ok (fun c => c.dw 10 0 8 == 0xC2 || c.dw 10 0 8 == 0xC3) m.setFeature

/-- GET_FEATURES (R301, R304). -/
def getFeatures (r : AdminReq) (m : Mach) : Mach :=
  m.adminRequest r 0x0A .ok (fun _ => true) fun c => (m, m.getFeature c)

/-- ASYNCHRONOUS_EVENT_REQUEST (R289): up to four wait, each for an event of Table 12-7. -/
def asynchronousEventRequest (fsn : BitVec 32) (m : Mach) : Mach :=
  m.withRunning fsn 0 0x0C fun c =>
    let x := m.host.ctrls[c.ctrl]
    if x.aers.contains c.fsn then m
    else if 4 ≤ x.aers.length then m.finish c.fsn stAerLimit
    else (m.setCtrl c.ctrl fun x => { x with aers := x.aers ++ [c.fsn] }).serveEvents c.ctrl

/-! ### Namespaces (R291) -/

namespace Mach

/-- The namespaces that Namespace Management or Attachment changed for a controller (Notice 0x00). -/
def nsChangedFor (m : Mach) (p : PortId) (nsid : Nat) : Mach :=
  (m.setCtrl p fun c => { c with changedNs := insertNat nsid c.changedNs }).asyncEvent p (some 8) 2 0x00 0x04

/-- Why a Create is refused (R291). -/
def createRefused (m : Mach) (zoned : Bool) (d : NsCreate) : Option Nat :=
  let as := (allFin 4).filter fun a => d.group.getLsbD a.val
  let g := as.length
  let limit := if d.limit = 0 then 64 else d.limit.toNat
  let unit := if zoned then 65536 else 4096
  let kind := bitNat zoned
  let used (a : Actuator) : Nat :=
    m.cmd.nss.foldl (fun s n => if n.zoned == zoned && n.group.testBit a.val then s + n.nsze / n.actors.length else s) 0
  let limits := m.cmd.nss.foldl (fun s n => if n.zoned then s + n.limit else s) 0
  if d.ncap ≠ d.nsze ∨ 2 < d.flbas.toNat % 16 ∨ 3 < d.dps.toNat % 8 then some stField
  else if g = 0 ∨ as.any (fun a => m.is (QDR_ACT_DEPOP a.val)) then some stField
  else if d.nsze.toNat % (g * unit) ≠ 0 then some stField
  else if zoned && decide (256 < limits + limit) then some stField
  else if 8 ≤ m.cmd.nss.length then some stNsid
  else if as.any fun a => Config.bandSectors a.val kind < used a + d.nsze.toNat / g then some stCapacity
  else none

/-- Accumulators of a namespace's open groups are discarded. -/
def dropGroups (m : Mach) (nsid : Nat) : Mach :=
  { m with media := { m.media with wpath := m.media.wpath.map fun (w : WritePath) =>
    { w with groups := w.groups.filter fun g => g.key.save || g.key.ns + 1 != nsid } } }

/-- The namespace is removed with its dirty data, keys, speculative copies, accumulators and marks (R291, R345). -/
def removeNs (m : Mach) (nsid : Nat) : Mach :=
  let m := (m.nsLocks nsid).foldl (fun m r => m.replaceKey r) m
  let m := m.dropDirty fun u => !u.isMeta && u.nsid == nsid
  let m := m.discardSpecs ⟨nsid, 0, 2 ^ 56⟩
  let m := m.dropGroups nsid
  let m := m.setCmdState fun c =>
    { c with nss := c.nss.filter (·.nsid != nsid), unc := c.unc.filter (·.nsid != nsid)
             cands := c.cands.filter (·.nsid != nsid) }
  let m := m.setSec fun s => { s with objects := s.objects.mapIdx fun i o =>
    if 8 ≤ i && o.nsid == nsid then { o with nsid := 0 } else o }
  m.refreshKeys

end Mach

/-- NAMESPACE_CREATE (R291): the lowest free NSID, detached, with its own key; SEL other than 0 and 1 is an invalid field. -/
def namespaceCreate (fsn : BitVec 32) (d : NsCreate) (e : IoEnd) (m : Mach) : Mach :=
  m.withRunning fsn 0 0x0D fun c =>
    let csi := c.dw 11 24 8
    if c.dw 10 0 4 = 1 then m
    else if c.dw 10 0 4 ≠ 0 then m.invalid c.fsn 40 0
    else m.transferred c true e fun m =>
      if csi ≠ 0 ∧ csi ≠ 2 then m.invalid c.fsn 47 0
      else
        let zoned := csi == 2
        match m.createRefused zoned d, (List.range 8).find? fun i => (m.nsOf (i + 1)).isNone with
        | some s, _ => m.finish c.fsn s
        | none, none => m.finish c.fsn stNsid
        | none, some i =>
          let n : Namespace :=
            { nsid := i + 1, zoned := zoned, nsze := d.nsze.toNat, flbas := d.flbas.toNat % 32, dps := d.dps.toNat % 8
              group := d.group.toNat, limit := if d.limit = 0 then 64 else d.limit.toNat
              attached := Vector.replicate 2 false, zones := [], written := [] }
          let m := m.setCmdState fun x => { x with nss := x.nss ++ [n] }
          (m.replaceKey (Fin.ofNat 24 i)).decide_ c.fsn stOk (i + 1)

/-- NAMESPACE_DELETE (R291): waits for every earlier command to the namespace; NSID 0xFFFF_FFFF names every namespace. -/
def namespaceDelete (fsn : BitVec 32) (m : Mach) : Mach :=
  m.withRunning fsn 0 0x0D fun c =>
    let ids := if c.nsid = 0xFFFFFFFF then m.cmd.nss.map (·.nsid) else [c.nsid]
    let busy := m.cmd.table.any fun d => fsnBefore d.fsn c.fsn && !d.isAer &&
      (ids.contains d.nsid || d.ranges.any fun r => ids.contains r.nsid)
    if c.dw 10 0 4 ≠ 1 then m
    else if ids.any fun i => (m.nsOf i).isNone then m.finish c.fsn stNamespace
    else if busy then m
    else
      let told := ids.flatMap fun i => match m.nsOf i with
        | some n => (allFin 2).filterMap fun p => if n.attached[p] then some (p, i) else none
        | none => []
      let m := ids.foldl (fun m i => m.removeNs i) m
      (told.foldl (fun m x => m.nsChangedFor x.1 x.2) m).finish c.fsn stOk

/-- NAMESPACE_ATTACH: to the listed controllers; SEL other than 0 and 1 is an invalid field. -/
def namespaceAttach (fsn : BitVec 32) (ctrls : BitVec 2) (e : IoEnd) (m : Mach) : Mach :=
  m.withRunning fsn 0 0x15 fun c =>
    let ps := (allFin 2).filter fun p => ctrls.getLsbD p.val
    if c.dw 10 0 4 = 1 then m
    else if c.dw 10 0 4 ≠ 0 then m.invalid c.fsn 40 0
    else m.transferred c true e fun m =>
      match m.nsOf c.nsid with
      | none => m.finish c.fsn stNamespace
      | some n =>
        if ps.any fun p => n.attached[p] then m.finish c.fsn stAttached
        else
          let m := m.setNs c.nsid fun n => { n with attached := Vector.ofFn fun p => n.attached[p] || ctrls.getLsbD p.val }
          (ps.foldl (fun m p => m.nsChangedFor p c.nsid) m).finish c.fsn stOk

/-- NAMESPACE_DETACH: from the listed controllers. -/
def namespaceDetach (fsn : BitVec 32) (ctrls : BitVec 2) (e : IoEnd) (m : Mach) : Mach :=
  m.withRunning fsn 0 0x15 fun c =>
    let ps := (allFin 2).filter fun p => ctrls.getLsbD p.val
    if c.dw 10 0 4 ≠ 1 then m
    else m.transferred c true e fun m =>
      match m.nsOf c.nsid with
      | none => m.finish c.fsn stNamespace
      | some n =>
        if ps.any fun p => !n.attached[p] then m.finish c.fsn stNotAttached
        else
          let m := m.setNs c.nsid fun n => { n with attached := Vector.ofFn fun p => n.attached[p] && !ctrls.getLsbD p.val }
          (ps.foldl (fun m p => m.nsChangedFor p c.nsid) m).finish c.fsn stOk

/-! ### Firmware (R284, R285, R292, R332, R334, R335) -/

/-- FIRMWARE_IMAGE_DOWNLOAD: 4 KiB granularity, an image up to 8 MiB. -/
def firmwareImageDownload (fsn : BitVec 32) (data : List Byte) (e : IoEnd) (m : Mach) : Mach :=
  m.withRunning fsn 0 0x11 fun c =>
    let n := 4 * (c.cdw 10 + 1)
    let at_ := 4 * c.cdw 11
    if n % 4096 ≠ 0 then m.invalid c.fsn 40 0
    else if at_ % 4096 ≠ 0 ∨ 8388608 < at_ + n then m.invalid c.fsn 44 0
    else m.transferred c true e fun m =>
      (m.setCtrl c.ctrl fun x => { x with download := x.download ++ [(at_, padTo n data)] }).finish c.fsn stOk

namespace Mach

/-- The slot that a commit names; slot 0 is the one that the next activation names: the pending slot, otherwise the one of
slots 2 and 3 that is not active. -/
def commitSlot (m : Mach) (fs : Nat) : Nat :=
  if fs ≠ 0 then fs
  else match m.sec.flash.pending with
    | some (s, _) => s
    | none => if m.sec.flash.active = 2 then 3 else 2

/-- The downloaded image `b` goes into a slot of flash. -/
def storeSlot (m : Mach) (p : PortId) (slot : Nat) (b : Bundle) : Mach :=
  (m.setFlash fun f => if slot = 2 then { f with slot2 := some b } else { f with slot3 := some b }).setCtrl p
    fun x => { x with download := [] }

/-- Firmware Commit with an image (CA 0b000, 0b001): `b` is the bundle that the downloaded parts make up, none where they make
up none. -/
def commitImage (m : Mach) (c : Cmd) (b : Option Bundle) (pend : Bool) : Mach :=
  let fs := c.dw 10 0 3
  let slot := m.commitSlot fs
  if 3 < fs ∨ slot = 1 then m.finish c.fsn stFwSlot
  else match b with
    | none => m.finish c.fsn stFwImage
    | some b =>
      if m.verify b ≠ 0 then m.finish c.fsn stFwImage
      else
        let m := m.storeSlot c.ctrl slot b
        (m.when pend fun m => m.setFlash fun f => { f with pending := some (slot, b.cls) }).finish c.fsn stOk

/-- The status that names the reset a class needs (Table 14-6). -/
def classStatus (cls : Nat) : Nat := if cls = 0 then stOk else if cls = 1 then 0x111 else if cls = 2 then 0x110 else 0x10B

/-- The activation of an existing slot (CA 0b010, 0b011). -/
def commitActivate (m : Mach) (c : Cmd) (now : Bool) : Mach :=
  let fs := c.dw 10 0 3
  let slot := m.commitSlot fs
  if 3 < fs then m.finish c.fsn stFwSlot
  else if slot = 1 then (m.setFlash fun f => { f with pending := some (1, 3) }).finish c.fsn 0x10B
  else match m.slotBundle slot with
    | none => m.finish c.fsn stFwImage
    | some b =>
      if m.verify b ≠ 0 then m.finish c.fsn stFwImage
      else if !now then (m.setFlash fun f => { f with pending := some (slot, b.cls) }).finish c.fsn stOk
      else if b.cls ≠ 0 then (m.setFlash fun f => { f with pending := some (slot, b.cls) }).finish c.fsn (classStatus b.cls)
      else if m.cmd.quiet.isSome then m
      else
        let m := m.loadShadow b
        let m := ((m.set QSQ_CTRL_FETCH_EN0 0).set QSQ_CTRL_FETCH_EN1 0).dropSpecs []
        (m.setCmdState fun x => { x with quiet := some (c.fsn, slot) }).asyncBoth (some 9) 2 0x01 0x03

end Mach

/-- FIRMWARE_COMMIT_REPLACE (R292): CA 0b000; a CA above 0b011 is an invalid field. -/
def firmwareCommitReplace (fsn : BitVec 32) (b : Option Bundle) (m : Mach) : Mach :=
  m.withRunning fsn 0 0x10 fun c =>
    let ca := c.dw 10 3 3
    if ca = 0 then m.commitImage c b false else if 3 < ca then m.invalid c.fsn 40 3 else m

/-- FIRMWARE_COMMIT_REPLACE_ACTIVATE (R292, R334): CA 0b001. -/
def firmwareCommitReplaceActivate (fsn : BitVec 32) (b : Option Bundle) (m : Mach) : Mach :=
  m.withRunning fsn 0 0x10 fun c => if c.dw 10 3 3 = 1 then m.commitImage c b true else m

/-- FIRMWARE_COMMIT_ACTIVATE (R292, R334): CA 0b010. -/
def firmwareCommitActivate (fsn : BitVec 32) (m : Mach) : Mach :=
  m.withRunning fsn 0 0x10 fun c => if c.dw 10 3 3 = 2 then m.commitActivate c false else m

/-- FIRMWARE_COMMIT_ACTIVATE_NOW (R284, R285, R292): CA 0b011; a class-0 bundle goes into the shadow banks, fetching stops and
the commit waits for the swap; any other is staged. -/
def firmwareCommitActivateNow (fsn : BitVec 32) (m : Mach) : Mach :=
  m.withRunning fsn 0 0x10 fun c => if c.dw 10 3 3 = 3 then m.commitActivate c true else m

end Sys2Proof.Machine
end

