-- ==== Sys2Proof/Machine/IoCmd.lean ====
section
/-! DEFINITION. I/O commands, zones, and the admin commands that take effect at their overlap check
(spec/12_command_set.md; R18, R267, R274, R275, R278, R287, R288, R290, R293–R297, R300, R342, R343). -/
namespace Sys2Proof.Machine

/-! ### Data commands -/

namespace Mach

/-- Some LBA lies on a depopulated actuator or head (R300). -/
def depopHit (m : Mach) (nsid : Nat) (lbas : List Nat) : Bool :=
  match m.nsOf nsid with
  | some n => lbas.any (m.lbaDepop n ·)
  | none => false

/-- A sector bound to the command is still filling: it has not passed its checks (R23). -/
def bindFills (m : Mach) (c : Cmd) : Bool := m.cmd.specs.any fun k => k.sectors.contains (.bound c.fsn none)

/-- Reads of an actuator's LBAs wait while it is FAULTED, and in REQUAL until TRK_CONF of its lead slot is 1 (R178,
Table 7-3). -/
def readHeld (m : Mach) (a : Actuator) : Bool :=
  m.motion.srv[a].faulted || (m.get (QDR_ACT_STATE a.val) == 1 && !m.bitAt (SRV_STAT_TRK_CONF a.val) (m.leadSlot a).val)

/-- The decoded sector of a speculative copy that is bound to a command at an LBA (R23). -/
def boundCopy (c : Cmd) (lba : Nat) (k : SpecCopy) : Option Nat :=
  if k.nsid = c.nsid ∧ k.first ≤ lba then
    match k.sectors[lba - k.first]? with
    | some (.bound f (some h)) => if f = c.fsn then some h else none
    | _ => none
  else none

/-- Where the data of an LBA of a read comes from (R20, R23, R295, R296, R343). -/
def sourceOf (m : Mach) (c : Cmd) (lba : Nat) : ReadSource :=
  if c.shadow.contains lba then .mbr
  else match m.unitFor c.fsn c.nsid lba with
    | some u => if u.handle = ownHandle then .zeros else .buffer u.handle
    | none =>
      if c.blank.contains lba then .zeros
      else match m.cmd.specs.findSome? (boundCopy c lba) with
        | some h => .copy h
        | none => .medium

/-- The LBA must come from the medium of an actuator whose reads wait (R178). -/
def readFaulted (m : Mach) (c : Cmd) (lba : Nat) : Bool :=
  m.sourceOf c lba == .medium && (match m.nsOf c.nsid with
    | some n => m.readHeld (n.actorOf lba) && !m.lbaDepop n lba
    | none => false)

/-- A read must wait (R20, R23, R178, Table 12-4): an earlier write to its LBAs has no data yet, a sector bound to it still
fills, an LBA must come from a faulted actuator, or with FUA some LBA is dirty. -/
def readWaits (m : Mach) (c : Cmd) : Bool :=
  m.cmd.table.any (fun d => d.live && d.kind == some .write && !d.inBuffer && fsnBefore d.fsn c.fsn &&
    d.ranges.any fun r => c.ranges.any r.meets) ||
  m.bindFills c || (c.ranges.flatMap LbaRange.list).any (m.readFaulted c) ||
  (c.opcode == 0x02 && c.fua && c.ranges.any fun r => r.list.any fun l => (m.unitFor c.fsn r.nsid l).isSome)

/-- The first LBA of a command. -/
def firstOf (c : Cmd) : Nat := match c.ranges with
  | r :: _ => r.first
  | [] => 0

/-- A command completes with a status about an LBA. -/
def finishAt (m : Mach) (fsn status lba : Nat) : Mach :=
  (m.setCommand fsn fun c => { c with badLba := lba }).finish fsn status

/-- The clean buffer copies of failing sectors are discarded, and the sectors are read again (R287). -/
def dropCopies (m : Mach) (c : Cmd) (lbas : List Nat) : Mach :=
  m.setCmdState fun x =>
    { x with specs := x.specs.map fun k =>
        { k with sectors := k.sectors.mapIdx fun i s => match s with
            | .bound f (some _) => if f = c.fsn ∧ k.nsid = c.nsid ∧ lbas.contains (k.first + i) then .discarded else s
            | s => s } }

/-- The end of a Read, Compare or Verify (R20, R23, R130, R287, R300): it waits for earlier writes and for bound sectors;
in M10 it ends Inaccessible (Table 12-1); LBAs out of service are refused unless all are dirty; buffer-side errors re-read clean copies and lose dirty ones. The units
that only this read needed are then released. -/
def endRead (m : Mach) (c : Cmd) (e : IoEnd) : Mach :=
  if m.mode = 10 then (m.finish c.fsn stAnaInaccessible).sweepKept
  else if m.readWaits c then m
  else
    let lbas := c.ranges.flatMap LbaRange.list
    let dirty (l : Nat) : Bool := (m.unitFor c.fsn c.nsid l).isSome
    if m.depopHit c.nsid lbas && (m.zonedNs c.nsid || !lbas.all dirty) then (m.finish c.fsn stDepop).sweepKept
    else
      match e with
      | .sectorErr failing =>
        let bad := (failing.map (firstOf c + ·)).filter lbas.contains
        let lost := bad.filter dirty
        match lost with
        | [] => m.dropCopies c bad
        | l :: _ =>
          let newest := lost.filter fun l => m.dirtyUnit c.nsid l == m.unitFor c.fsn c.nsid l
          let m := m.markLost c.nsid (newest.foldl (fun s l => insertNat l s) [])
          let m := m.dropDirty fun u => !u.isMeta && u.nsid == c.nsid && newest.contains u.lba
          (m.finishAt c.fsn stUnrecovered l).sweepKept
      | e =>
        match endStatus false e with
        | some (st, s) => (m.finishAt c.fsn st (firstOf c + s)).sweepKept
        | none =>
          let m := m.when (c.opcode == 0x02) (·.emit (.readFrom c.fsn (lbas.map fun l => (l, m.sourceOf c l))))
          (m.finish c.fsn stOk).sweepKept

/-- The data of a write is wholly in the buffer: its units, and the zero units of its first writes, are dirty (R274, R295,
R315). `handles` are the pool buffers of its LBAs in order, Ibzin's own where there are fewer. -/
def writeDone (m : Mach) (c : Cmd) (lbas : List Nat) (handles : List (BitVec 24)) (result : Nat) : Mach :=
  let counted := !(m.armed && decide (m.limitUnits < m.writeUnits c))
  let m := m.addZeros c counted fun l => !lbas.contains l
  let m := lbas.zipIdx.foldl (fun (m : Mach) (x : Nat × Nat) =>
      let h := match handles[x.2]? with
        | some h => h.toNat
        | none => ownHandle
      m.placeUnit c ⟨c.nsid, x.1, some c.fsn, h, (m.lockOf c.nsid x.1).val, false, counted⟩) m
  let m := c.ranges.foldl (fun (m : Mach) r => m.supersedeLate c.fsn r) m
  let m := m.setPwr fun s => { s with admitted := s.admitted.filter (·.1 != c.fsn) }
  (m.setCommand c.fsn fun x => { x with inBuffer := true }).decide_ c.fsn stOk result

/-- The end of a write's transfer (R274, R288, R300, R315): it waits for room under L; LBAs out of service are refused; a
failed transfer withdraws it. A write completes only in M3 and M4 (R316); in M10 it ends Inaccessible (Table 12-1). -/
def endWrite (m : Mach) (c : Cmd) (e : IoEnd) (lbas : List Nat) (handles : List (BitVec 24)) (result : Nat) : Mach :=
  if m.mode = 10 then (m.withdrawWrite c).finish c.fsn stAnaInaccessible
  else if m.pwr.waitL.any (·.1 == c.fsn) ∨ (m.mode ≠ 3 ∧ m.mode ≠ 4) then m
  else if m.depopHit c.nsid lbas then (m.withdrawWrite c).finish c.fsn stDepop
  else
    match Mach.endStatus true e with
    | some (st, s) => (m.withdrawWrite c).finishAt c.fsn st (firstOf c + s)
    | none => m.writeDone c lbas handles result

end Mach

/-- WRITE_COMMAND (R274, R288, R315). -/
def writeCommand (fsn : BitVec 32) (e : IoEnd) (handles : List (BitVec 24)) (m : Mach) : Mach :=
  m.withRunning fsn 1 0x01 fun c => m.endWrite c e (c.ranges.flatMap LbaRange.list) handles 0

/-- ZONE_APPEND (R18): DW0 and DW1 return the first LBA that the overlap check assigned. -/
def zoneAppend (fsn : BitVec 32) (e : IoEnd) (handles : List (BitVec 24)) (m : Mach) : Mach :=
  m.withRunning fsn 1 0x7D fun c => m.endWrite c e (c.ranges.flatMap LbaRange.list) handles c.slba

/-- WRITE_ZEROES (R295): no data is transferred; with DEAC the units that it covers whole are deallocated. -/
def writeZeroes (fsn : BitVec 32) (m : Mach) : Mach :=
  m.withRunning fsn 1 0x08 fun c =>
    let lbas := if c.deac && !m.zonedNs c.nsid then c.ranges.flatMap Mach.partLbas else c.ranges.flatMap LbaRange.list
    m.endWrite c .ok lbas [] 0

/-- DATASET_MANAGEMENT (R295): attribute AD deallocates; without it nothing happens. -/
def datasetManagement (fsn : BitVec 32) (m : Mach) : Mach :=
  m.withRunning fsn 1 0x09 fun c => m.endWrite c .ok (c.ranges.flatMap Mach.partLbas) [] 0

/-- WRITE_UNCORRECTABLE (R294): its LBAs were marked at the overlap check; the table is in flash before it completes. -/
def writeUncorrectable (fsn : BitVec 32) (m : Mach) : Mach :=
  m.withRunning fsn 1 0x04 fun c =>
    m.finish c.fsn (if m.mode = 10 then stAnaInaccessible
      else if m.depopHit c.nsid (c.ranges.flatMap LbaRange.list) then stDepop else stOk)

/-- READ (R287, R294, R300). -/
def read (fsn : BitVec 32) (e : IoEnd) (m : Mach) : Mach := m.withRunning fsn 1 0x02 fun c => m.endRead c e

/-- COMPARE (R294): a mismatch completes with Compare Failure. -/
def compare (fsn : BitVec 32) (e : IoEnd) (m : Mach) : Mach := m.withRunning fsn 1 0x05 fun c => m.endRead c e

/-- VERIFY (R294): reads and checks without transfer. -/
def verify (fsn : BitVec 32) (e : IoEnd) (m : Mach) : Mach := m.withRunning fsn 1 0x0C fun c => m.endRead c e

/-- FLUSH (R95, R275): completes once every earlier write of the namespace, or of all, has completed and been destaged, and
the parity of every group covers its members. -/
def flush (fsn : BitVec 32) (m : Mach) : Mach :=
  m.withRunning fsn 1 0x00 fun c =>
    let mine (nsid : Nat) : Bool := c.nsid == 0xFFFFFFFF || nsid == c.nsid
    let writes := m.cmd.table.any fun d => d.kind == some .write && fsnBefore d.fsn c.fsn && d.ranges.any fun r => mine r.nsid
    let dirty := m.pwr.dirty.any fun u => !u.isMeta && mine u.nsid && (match u.fsn with
      | some f => fsnBefore f c.fsn
      | none => true)
    let groups := m.cmd.nss.any fun n => mine n.nsid && m.groupOpen ⟨n.nsid, 0, n.nsze⟩
    if writes ∨ dirty ∨ groups then m else m.finish c.fsn stOk

/-! ### Zone Management (R297, R343) -/

/-- An action on one zone: the state after it, none where it is not allowed. -/
def zoneMove (action : Nat) (z : Zone) : Option Zone :=
  match action, z.state with
  | 1, .implicitOpen | 1, .explicitOpen | 1, .closed => some { z with state := .closed }
  | 2, .empty | 2, .implicitOpen | 2, .explicitOpen | 2, .closed | 2, .full => some { z with state := .full, wp := 65536 }
  | 4, .offline => none
  | 4, _ => some Zone.initial
  | 5, .offline => some z
  | _, _ => none

/-- The zones that Select All selects for an action: those that the action moves. -/
def selectsAll (action : Nat) (s : ZoneState) : Bool :=
  match action with
  | 1 => s.isOpen
  | 2 => s.active
  | 3 => s == .closed
  | 4 => s.active || s == .full
  | _ => s == .offline

namespace Mach

/-- One zone of a Zone Management Send: the namespace after it, or the refusal. -/
def zoneAct (n : Namespace) (action z : Nat) : Namespace × Option Nat :=
  if action = 3 then
    if (n.zone z).state = .full ∨ (n.zone z).state = .offline then (n, some stZoneTransition)
    else n.openZone z .explicitOpen
  else match zoneMove action (n.zone z) with
    | some x => (n.putZone z x, none)
    | none => (n, some stZoneTransition)

/-- What the reset of a zone discards: dirty data, speculative copies and accumulators (R95, R297). -/
def resetZone (m : Mach) (fsn nsid z : Nat) : Mach :=
  let r : LbaRange := ⟨nsid, 65536 * z, 65536⟩
  let m := (m.supersede fsn r).discardSpecs r
  { m with media := { m.media with wpath := m.media.wpath.map fun (w : WritePath) =>
    { w with groups := w.groups.filter fun g =>
        !(!g.key.save && g.key.ns + 1 == nsid && decide (r.first ≤ g.key.first) && decide (g.key.first < r.first + r.count)) } } }

/-- Zone Management Send at its overlap check: action 1 Close, 2 Finish, 3 Open, 4 Reset, 5 Offline; Select All takes every
zone that the action moves. -/
def zoneSend (m : Mach) (c : Cmd) (action : Nat) : Mach :=
  let fail (st : Nat) (m : Mach) : Mach := m.passed c.fsn none [] (some st)
  match m.cmdNs c with
  | none => fail stNamespace m
  | some n =>
    let all := c.dw 13 8 1 == 1
    let z := c.firstLba / 65536
    let zs := if all then (n.zones.filter fun x => selectsAll action x.2.state).map (·.1) else [z]
    if !n.zoned || (!all && c.firstLba % 65536 != 0) then
      (fail stField m).setCommand c.fsn fun x => { x with loc := if n.zoned then 40 else 4 }
    else if !all && decide (n.zoneCount ≤ z) then fail stLbaRange m
    else if zs.any fun z => m.locked true ⟨n.nsid, 65536 * z, 65536⟩ then fail stSequence m
    else if m.metaWaits n.nsid zs then m
    else
      let (n', bad) := zs.foldl (fun (x : Namespace × Option Nat) z => match x.2 with
        | some e => (x.1, some e)
        | none => zoneAct x.1 action z) (n, none)
      match bad with
      | some e => fail e m
      | none =>
        let rs := zs.map fun z => LbaRange.mk n.nsid (65536 * z) 65536
        let m := m.setNs n.nsid fun _ => n'
        let m := m.metaChange n.nsid (changedZones n n')
        let m := m.when (action == 4) fun m => zs.foldl (fun m z => m.resetZone c.fsn n.nsid z) m
        (m.passed c.fsn (some .write) rs (some stOk)).setCommand c.fsn fun x => { x with durable := action == 2 }

end Mach

/-- ZONE_CLOSE (R297). -/
def zoneClose (fsn : BitVec 32) (m : Mach) : Mach :=
  match m.checking fsn.toNat 1 0x79 with
  | some c => if c.dw 13 0 8 = 1 then m.zoneSend c 1 else m
  | none => m

/-- ZONE_FINISH (R95, R297): the zone's parity group is closed before the command completes. -/
def zoneFinish (fsn : BitVec 32) (m : Mach) : Mach :=
  match m.checking fsn.toNat 1 0x79 with
  | some c => if c.dw 13 0 8 = 2 then m.zoneSend c 2 else m
  | none => m

/-- ZONE_OPEN (R296, R297). -/
def zoneOpen (fsn : BitVec 32) (m : Mach) : Mach :=
  match m.checking fsn.toNat 1 0x79 with
  | some c => if c.dw 13 0 8 = 3 then m.zoneSend c 3 else m
  | none => m

/-- ZONE_RESET (R297). -/
def zoneReset (fsn : BitVec 32) (m : Mach) : Mach :=
  match m.checking fsn.toNat 1 0x79 with
  | some c => if c.dw 13 0 8 = 4 then m.zoneSend c 4 else m
  | none => m

/-- ZONE_OFFLINE (R297): accepted only on an Offline zone, without effect; any action beyond 5 is an invalid field. -/
def zoneOffline (fsn : BitVec 32) (m : Mach) : Mach :=
  match m.checking fsn.toNat 1 0x79 with
  | some c =>
    let a := c.dw 13 0 8
    if a = 5 then m.zoneSend c 5
    else if a = 0 ∨ 5 < a then (m.passed c.fsn none [] (some stField)).setCommand c.fsn fun x => { x with loc := 52 }
    else m
  | none => m

/-- The state code of a zone descriptor. -/
def ZoneState.code : ZoneState → Nat
  | .empty => 1
  | .implicitOpen => 2
  | .explicitOpen => 3
  | .closed => 4
  | .full => 14
  | .offline => 15

/-- The zone state that a reporting option selects; 0 selects all. -/
def reportSelects (option : Nat) (s : ZoneState) : Bool :=
  match option with
  | 0 => true
  | 1 => s == .empty
  | 2 => s == .implicitOpen
  | 3 => s == .explicitOpen
  | 4 => s == .closed
  | 5 => s == .full
  | 7 => s == .offline
  | _ => false

/-- A zone descriptor (R297). -/
def zoneDescriptor (z : Nat) (s : Zone) : List Byte :=
  padTo 64 (toBytesLE 1 2 ++ toBytesLE 1 (16 * s.state.code) ++ toBytesLE 6 0 ++ toBytesLE 8 65536 ++ toBytesLE 8 (65536 * z) ++
    toBytesLE 8 (65536 * z + s.wp))

/-- The zones from `z` on that a report selects. -/
def Namespace.reported (n : Namespace) (z option : Nat) : List Nat :=
  ((List.range (n.zoneCount - z)).map (z + ·)).filter fun k => reportSelects option (n.zone k).state

/-- REPORT_ZONES (R95, R297): every zone as it stands at the command's own overlap check, which waits until the parity of a
full zone's groups is written; Extended Report Zones is an invalid field. -/
def reportZones (fsn : BitVec 32) (e : IoEnd) (m : Mach) : Mach :=
  match m.checking fsn.toNat 1 0x7A with
  | none => m
  | some c =>
    let fail (st loc : Nat) : Mach := (m.passed c.fsn none [] (some st)).setCommand c.fsn fun x => { x with loc := loc }
    match m.cmdNs c with
    | none => fail stNamespace 0xFFFF
    | some n =>
      if !n.zoned then fail stField 4
      else if c.dw 13 0 8 ≠ 0 then fail stField 52
      else if 7 < c.dw 13 8 8 then fail stField 53
      else if n.nsze ≤ c.firstLba then fail stLbaRange 0xFFFF
      else
        match Mach.endStatus true e with
        | some (st, _) => fail st 0xFFFF
        | none =>
          let room := 4 * (c.cdw 12 + 1)
          let zs := n.reported ((c.firstLba + 65535) / 65536) (c.dw 13 8 8)
          if zs.any fun z => (n.zone z).state == .full && m.groupOpen ⟨n.nsid, 65536 * z, 65536⟩ then m else
          let fit := zs.take ((room - 64) / 64)
          let count := if c.dw 13 16 1 = 1 then fit.length else zs.length
          let bytes := padTo room (padTo 64 (toBytesLE 8 count) ++ fit.flatMap fun z => zoneDescriptor z (n.zone z))
          (m.passed c.fsn none [] (some stOk)).emit (.returned c.fsn bytes)

/-! ### Abort, Queue Restart (R278, R290) -/

/-- ABORT (R290): at its overlap check an Abort of a fetched, undispatched command of a halting queue waits until that
command is dispatched or held by a halt; every other Abort aborts nothing. -/
def abort (fsn : BitVec 32) (m : Mach) : Mach :=
  match m.checking fsn.toNat 0 0x08 with
  | some c =>
    let live := m.cmd.table.countP fun d => d.admin && d.opcode == 0x08 && d.ctrl == c.ctrl && d.live && d.fsn != c.fsn &&
      fsnBefore d.fsn c.fsn
    if 4 ≤ live then m.passed c.fsn none [] (some stAbortLimit)
    else
      let t := m.cmd.table.find? fun d => d.ctrl == c.ctrl && d.sqid == c.dw 10 0 16 && d.cid == c.dw 10 16 16 && d.live &&
        (d.stage == .fetched || d.stage == .checked) && m.haltsOn d
      (m.passed c.fsn none [] none).setCommand c.fsn fun x => { x with target := t.map (·.fsn) }
  | none =>
    m.withRunning fsn 0 0x08 fun c =>
      match c.target.bind m.command with
      | none => m.decide_ c.fsn stOk 1
      | some d =>
        let held := m.host.ctrls[d.ctrl].sqs.any fun q => q.id == d.sqid && q.halted.isSome
        if d.stage = .fetched ∨ d.stage = .checked then
          if held then (m.abortCommands [d] stAbort).decide_ c.fsn stOk 0 else m
        else m.decide_ c.fsn stOk 1

/-- A Queue Restart at its overlap check: absent queue, queue that is not halted, or `f`. -/
def Mach.restart (m : Mach) (fsn mode : Nat) (f : Cmd → SubQueue → Mach) : Mach :=
  match m.checking fsn 0 0xCC with
  | none => m
  | some c =>
    if c.dw 10 16 1 ≠ mode then m
    else match m.host.ctrls[c.ctrl].sqs.find? fun q => q.id == c.dw 10 0 16 && q.id != 0 with
      | none => m.passed c.fsn none [] (some stQid)
      | some q => if q.halted.isNone then m.passed c.fsn none [] (some stNotHalted) else f c q

/-- QUEUE_RESTART_RESUME (R278): the held commands are dispatched in order and fetching restarts. -/
def queueRestartResume (fsn : BitVec 32) (m : Mach) : Mach :=
  m.restart fsn.toNat 0 fun c q =>
    let m := m.setCtrl c.ctrl fun x => { x with sqs := x.sqs.map fun s => if s.id == q.id then { s with halted := none } else s }
    (m.syncHalt c.ctrl).passed c.fsn none [] (some stOk)

/-- QUEUE_RESTART_DISCARD (R278): held commands complete with status 0x07, and so do the entries submitted and not yet
fetched, each with its own number. -/
def queueRestartDiscard (fsn : BitVec 32) (m : Mach) : Mach :=
  m.restart fsn.toNat 1 fun c q =>
    let mine (d : Cmd) : Bool := d.ctrl == c.ctrl && d.sqid == q.id && d.live
    let m := m.setTable fun t => t.map fun d =>
      if mine d && (d.stage == .granted || d.stage == .fetched || d.stage == .checked) then { d with discard := true } else d
    let held := m.cmd.table.filter fun d => mine d && (d.stage == .fetched || d.stage == .checked)
    let m := m.abortCommands held stAbort
    let m := m.setCtrl c.ctrl fun x =>
      { x with sqs := x.sqs.map fun s => if s.id == q.id then { s with halted := none, discard := s.waiting } else s }
    (m.syncHalt c.ctrl).passed c.fsn none [] (some stOk)

/-! ### Format NVM (R293, R345) and Opal (R342, R343) -/

namespace Mach

/-- Zones on depopulated actuators and heads are Offline, and the Changed Zone List of each attached controller takes those
that became so; the others return to Empty or Closed by their write pointers (R298, R300). -/
def syncZones (m : Mach) : Mach :=
  m.cmd.nss.foldl (fun (m : Mach) n =>
    if !n.zoned then m
    else (List.range n.zoneCount).foldl (fun (m : Mach) z =>
      let s := n.zone z
      let out := m.lbaDepop n (65536 * z)
      if out && s.state != .offline then
        let m := m.setNs n.nsid fun n => n.putZone z { s with state := .offline }
        (allFin 2).foldl (fun (m : Mach) p => m.when n.attached[p] fun m => m.setCtrl p fun c =>
          { c with changedZone := if c.changedZone.contains (n.nsid, z) then c.changedZone else c.changedZone ++ [(n.nsid, z)] }) m
      else if !out && s.state == .offline then
        m.setNs n.nsid fun n => n.putZone z (if s.wp = 0 then Zone.initial else { s with state := .closed })
      else m) m) m

end Mach

/-- FORMAT_NVM (R293): at its overlap check, as a write over the whole namespace. -/
def formatNvm (fsn : BitVec 32) (m : Mach) : Mach :=
  match m.checking fsn.toNat 0 0x80 with
  | none => m
  | some c =>
    let lbaf := c.dw 10 0 4
    let pi := c.dw 10 5 3
    let ses := c.dw 10 9 3
    let fail (st loc : Nat) : Mach := (m.passed c.fsn none [] (some st)).setCommand c.fsn fun x => { x with loc := loc }
    match m.cmdNs c with
    | none => fail stNamespace 0xFFFF
    | some n =>
      if 2 < lbaf then fail stField 40
      else if 3 < pi then fail stField (40 + 256 * 5)
      else if 2 < ses then fail stField (41 + 256 * 1)
      else if 1 ≤ pi ∧ lbaf = 0 then fail stFormat 0xFFFF
      else
        let r : LbaRange := ⟨n.nsid, 0, n.nsze⟩
        let m := ((m.supersede c.fsn r).discardSpecs r).clearMarks r
        let m := m.dropGroups n.nsid
        let m := m.when (decide (1 ≤ ses)) fun m => (m.nsLocks n.nsid).foldl (fun m r => m.replaceKey r) m
        let flbas := lbaf + 16 * c.dw 10 4 1
        let m := m.setNs n.nsid fun n => { n with flbas := flbas, dps := pi, written := [], zones := [] }
        let m := (m.syncZones).metaChange n.nsid (n.written ++ n.zones.map (·.1))
        let m := m.when (n.flbas != flbas || n.dps != pi) fun m =>
          (allFin 2).foldl (fun (m : Mach) p => m.when n.attached[p] (·.nsChangedFor p n.nsid)) m
        m.passed c.fsn (some .write) [r] (some stOk)

namespace Mach

/-- Writes checked before command `fsn` whose data is still on its way leave out the LBAs of an erased key slot (R345). -/
def supersedeKey (m : Mach) (fsn : Nat) (r : LockId) : Mach :=
  m.setTable fun t => t.map fun c =>
    if c.live && c.kind == some .write && !c.inBuffer && fsnBefore c.fsn fsn then
      let mine := (c.ranges.flatMap LbaRange.list).filter fun l => m.lockOf c.nsid l == r
      { c with superseded := c.superseded ++ mine.map fun l => (fsn, LbaRange.mk c.nsid l 1) }
    else c

/-- The key slots that a Security Send erases. -/
def erasedKeys (op : OpalOp) : List LockId := match op with
  | .genKey r => [r]
  | .range r _ _ _ => if r.val < 8 then [] else [r]
  | .revertLocking | .revertPsid => allFin 24
  | _ => []

/-- The security protocol and ComID of a Security Send carry the operation (Table 14-9). -/
def carries (secp spsp : Nat) (op : OpalOp) : Bool :=
  if secp = 2 then op == .tperReset || op == .unsupported
  else secp == 1 && spsp == 0x1000 && op != .tperReset

end Mach

/-- SECURITY_SEND (R342–R345): takes effect at its overlap check. -/
def securitySend (fsn : BitVec 32) (op : OpalOp) (e : IoEnd) (m : Mach) : Mach :=
  match m.checking fsn.toNat 0 0x81 with
  | none => m
  | some c =>
    let secp := c.dw 10 24 8
    let spsp := c.dw 10 8 16
    let fail (st loc : Nat) : Mach := (m.passed c.fsn none [] (some st)).setCommand c.fsn fun x => { x with loc := loc }
    match Mach.endStatus true e with
    | some (st, _) => fail st 0xFFFF
    | none =>
      if secp ≠ 1 ∧ secp ≠ 2 then fail stField 43
      else if secp = 1 ∧ spsp ≠ 0x1000 then fail stField 41
      else if !Mach.carries secp spsp op then m.passed c.fsn none [] (some stOk)
      else
        let m := (Mach.erasedKeys op).foldl (fun (m : Mach) r => m.supersedeKey c.fsn r) m
        (m.opal op).passed c.fsn none [] (some stOk)

/-- SECURITY_RECEIVE (R342): the protocol list, Level 0 Discovery, or the response of the last Security Send, whose bytes
are free values. -/
def securityReceive (fsn : BitVec 32) (e : IoEnd) (m : Mach) : Mach :=
  m.withRunning fsn 0 0x82 fun c =>
    let secp := c.dw 10 24 8
    let spsp := c.dw 10 8 16
    let al := c.cdw 11
    let send (m : Mach) (bs : List Byte) : Mach := m.transferred c true e fun m =>
      (m.emit (.returned c.fsn (padTo al bs))).finish c.fsn stOk
    if secp = 0 ∧ spsp = 0 then send m (List.replicate 6 0 ++ toBytesBE 2 3 ++ [0x00, 0x01, 0x02])
    else if secp = 0 ∧ spsp = 1 then send m (List.replicate 4 0)
    else if secp = 1 ∧ spsp = 1 then send m m.discovery
    else if (secp = 1 ∧ spsp = 0x1000) ∨ secp = 2 then send m.nextFree (toBytesLE al m.free)
    else if 2 < secp then m.invalid c.fsn 43 0
    else m.invalid c.fsn 41 0

end Sys2Proof.Machine
end

