-- ==== Sys2Proof/Machine/BlockCore.lean ====
section
/-! DEFINITION. What a block reset does (R382, R383, Table 16-7), and the formatters' reset after an actuator fault (R178). -/
namespace Sys2Proof.Machine

namespace Mach

/-- The bit of a block in Table 16-7: 0–31 of RST_BLKRST0, 32 on of RST_BLKRST1. -/
def blockBusy (m : Mach) (b : Nat) : Bool :=
  if b < 32 then (m.get RST_BLKSTAT0_BUSY).testBit b else (m.get RST_BLKSTAT1_BUSY).testBit (b - 32)

/-- Set the BLKSTAT bit of a block. -/
def setBlockBusy (m : Mach) (b : Nat) (x : Bool) : Mach :=
  if b < 32 then m.setBitAt RST_BLKSTAT0_BUSY b x else m.setBitAt RST_BLKSTAT1_BUSY (b - 32) x

end Mach

/-- The address range of the block of a bit of Table 16-7: its window. -/
def blockBase (b : Nat) : Nat :=
  if b < 8 then 0x40100000 + 0x10000 * b
  else if b < 16 then 0x40200000 + 0x10000 * (b - 8)
  else if b < 20 then 0x40280000 + 0x10000 * (b - 16)
  else if b < 24 then 0x40300000 + 0x10000 * (b - 20)
  else if b < 28 then 0x40360000 + 0x10000 * (b - 24)
  else if b = 28 then 0x40190000
  else if b = 29 then 0x40340000
  else if b = 30 then 0x40350000
  else if b = 32 then 0x40400000
  else if b = 33 then 0x40410000
  else if b = 34 then 0x40080000
  else if b = 35 then 0x40060000
  else if b = 36 then 0x40520000
  else if b = 37 then 0x40090000
  else 0x400B0000

/-- The clock domain of the block (Table 16-1). -/
def blockDomain (b : Nat) : Nat :=
  if b < 8 then 14
  else if b < 16 then 15 + (b - 8) / 2
  else if b < 20 then b - 1
  else if b < 24 then b - 5
  else if b < 28 then b - 9
  else if b = 28 then 12
  else if b ≤ 30 then 20
  else if b ≤ 33 then 28
  else if b = 34 then 10
  else if b = 35 then 9
  else if b = 36 then 10
  else if b = 37 then 11
  else 19

/-- The sequencers of the block (R383). -/
def blockSeqs (b : Nat) : List SeqId :=
  if 8 ≤ b ∧ b < 16 then [Fin.ofNat 20 (b - 8)]
  else if 16 ≤ b ∧ b < 20 then [Fin.ofNat 20 (b - 8)]
  else if 24 ≤ b ∧ b < 28 then [Fin.ofNat 20 (b - 8)]
  else if b = 38 then [12, 13, 14, 15]
  else []

/-- The address lies in the window of the block. -/
def inBlock (b a : Nat) : Bool := decide (blockBase b ≤ a) && decide (a < blockBase b + 0x10000)

/-- A block-reset request (R382, R383): accepted while the block is idle and its sequencers are not halted; then its fields of
classes B and S, but for those of type RWS, return to their reset values, what else it holds is cleared, and its sequencers
restart. -/
def Mach.blockReset (m : Mach) (b : Nat) (idle : Bool) (clear : Mach → Mach) : Mach :=
  if m.blockBusy b || !idle || (blockSeqs b).any fun q => m.get (SEQ_STAT_STATE q.val) == 3 then
    m.flagEvent RST_ERR_BLK_BUSY (32 * 33 + 1)
  else
    let m := m.setBlockBusy b true
    let m := { m with
      regs := resetFields (fun f => (f.cls == RstClass.B || f.cls == RstClass.S) && f.acc != Access.rws) (inBlock b) m.regs }
    (blockSeqs b).foldl (fun m q => m.restartSeq q) (clear m)

/-- BLOCK_RESET_FMT (R108, R383). -/
def blockResetFmt (n : Stream) (m : Mach) : Mach := m.blockReset (8 + n.val) (m.fmtIdle n) fun m => m.clearFmt n

/-- Formatters of a faulted actuator that have reached STATE 0 are reset (R178). -/
def Mach.faultResets (m : Mach) : Mach :=
  (allFin 8).foldl (fun (m : Mach) n =>
    if m.media.fmt[n].resetDue && m.fmtIdle n then blockResetFmt n (m.setFmt n fun f => { f with resetDue := false }) else m) m

/-- A command after which a formatter may stand at STATE 0, with the reset that waits for it (R178). -/
def Mach.settled (f : Mach → Mach) (m : Mach) : Mach := (f m).faultResets

end Sys2Proof.Machine
end

