-- ==== Sys2Proof/Machine/Sceka.lean ====
section
/-! DEFINITION. Depopulation as the host sees it, Sceka Maintenance and Actuator Management, and temperature events
(spec/12_command_set.md; R179, R300–R303, R430). -/
namespace Sys2Proof.Machine

/-! ### What a change of service brings about (R179, R300, Tables 12-6, 12-7) -/

namespace Mach

/-- Some actuator or head is depopulated. -/
def anyDepop (m : Mach) : Bool := (allFin 4).any fun a => m.is (QDR_ACT_DEPOP a.val) || m.is (QDR_ACT_HEAD_DEPOP a.val)

/-- After a step from `m0` to `m` that changed DEPOP or HEAD_DEPOP: zones follow, the ANA and vendor notices are raised
where a state changed, and SMART bit 2. -/
def followService (m0 m : Mach) : Mach :=
  let hit := (allFin 4).any fun a => m0.get (QDR_ACT_DEPOP a.val) != m.get (QDR_ACT_DEPOP a.val) ||
    m0.get (QDR_ACT_HEAD_DEPOP a.val) != m.get (QDR_ACT_HEAD_DEPOP a.val)
  if !hit then m
  else
    let ana := m.cmd.nss.any fun n => m0.anaLost n != m.anaLost n
    let m := (m.syncZones).scekaNotice 0xC1 0xC2
    let m := m.when ana fun m => m.asyncBoth (some 11) 2 0x03 0x0C
    if m.anyDepop then m.criticalWarning 2
    else m.setCmdState fun c => { c with critical := c.critical &&& 0xFB }

/-- After a step in which the brake chopper became faulty: the vendor notice 0xC2 and SMART bit 2 (Table 12-7). -/
def followChopper (m0 m : Mach) : Mach :=
  if !m0.is SPN_BRK_FAULT && m.is SPN_BRK_FAULT then (m.scekaNotice 0xC2 0xC2).criticalWarning 2 else m

/-- A step that may change the state of an actuator or of the chopper, with what follows from it (R300, R306, R314). -/
def watched (f : Mach → Mach) (m : Mach) : Mach :=
  let m' := f m
  (followChopper m (followService m m').actuatorsChanged).faultResets

end Mach

/-! ### Sceka Maintenance (R302) -/

namespace Mach

/-- A dispatched Maintenance command whose action is `k`. -/
def maintain (m : Mach) (fsn : BitVec 32) (k : Nat) (f : Cmd → Mach) : Mach :=
  m.withRunning fsn 0 0xC4 fun c => if c.dw 10 0 4 = k then f c else m

/-- A pass that begins now. -/
def newPass (m : Mach) (nsid : Nat) : Pass := ⟨nsid, 0, m.get CAL_FIGNO_FIGURE, false, [], []⟩

/-- A running pass is to end. -/
def abortPass (p : Option Pass) : Option Pass := p.map fun x => { x with abort := true }

end Mach

/-- MAINTENANCE_START_SCRUB (R237, R302): a scrub over the whole data space. -/
def maintenanceStartScrub (fsn : BitVec 32) (m : Mach) : Mach :=
  m.maintain fsn 0 fun c =>
    if m.cmd.scrub.isSome ∨ m.is SCB_STAT_BUSY then m.finish c.fsn stPass
    else
      let m := scbGo ((m.set SCB_START_LINE 0).set SCB_LEN_LINES (bufEnd / 64))
      (m.setCmdState fun x => { x with scrub := some (m.newPass 0) }).finish c.fsn stOk

/-- MAINTENANCE_START_CANDIDATE (R302): a pass over the candidates as they stand. -/
def maintenanceStartCandidate (fsn : BitVec 32) (m : Mach) : Mach :=
  m.maintain fsn 1 fun c =>
    if m.cmd.candPass.isSome then m.finish c.fsn stPass
    else
      let p := { m.newPass 0 with todo := m.cmd.cands.map fun k => (k.nsid, k.lba) }
      (m.setCmdState fun x => { x with candPass := some p }).finish c.fsn stOk

/-- MAINTENANCE_START_SCAN (R302): of the named namespace. -/
def maintenanceStartScan (fsn : BitVec 32) (m : Mach) : Mach :=
  m.maintain fsn 2 fun c =>
    if (m.cmdNs c).isNone then m.finish c.fsn stNamespace
    else if m.cmd.scan.isSome then m.finish c.fsn stPass
    else (m.setCmdState fun x => { x with scan := some (m.newPass c.nsid) }).finish c.fsn stOk

/-- MAINTENANCE_ABORT (R302): actions 4 to 6; actions 3 and 7 to 15 are an invalid field. -/
def maintenanceAbort (fsn : BitVec 32) (m : Mach) : Mach :=
  m.withRunning fsn 0 0xC4 fun c =>
    let k := c.dw 10 0 4
    if k = 3 ∨ 6 < k then m.invalid c.fsn 40 0
    else if k = 4 then
      ((m.when m.cmd.scrub.isSome scbAbort).setCmdState fun x => { x with scrub := Mach.abortPass x.scrub }).finish c.fsn stOk
    else if k = 5 then (m.setCmdState fun x => { x with candPass := Mach.abortPass x.candPass }).finish c.fsn stOk
    else if k = 6 then (m.setCmdState fun x => { x with scan := Mach.abortPass x.scan }).finish c.fsn stOk
    else m

/-- A candidate pass may end: every candidate has been read, and every rewrite is on the medium and verified, or discarded
(R134, R302); an aborted one when its rewrites are over. -/
def Mach.candPassOver (m : Mach) (p : Pass) : Bool :=
  p.rewrites.isEmpty && (p.abort || (p.todo.isEmpty && !m.cmd.cands.any (·.written)))

/-- MAINTENANCE_PASS_END (R302): `count` is what the pass reached; a scrub ends with the scrubber's pass. -/
def maintenancePassEnd (k : PassKind) (count : Nat) (m : Mach) : Mach :=
  let running := match k with
    | .scrub => if m.is SCB_STAT_BUSY then none else m.cmd.scrub
    | .candidate => m.cmd.candPass.filter m.candPassOver
    | .scan => m.cmd.scan
  match running with
  | none => m
  | some p =>
    let r : PassReport := ⟨if p.abort then 3 else 2, count, p.figure, m.get CAL_FIGNO_FIGURE⟩
    let m := m.setCmdState fun x => match k with
      | .scrub => { x with scrub := none, reports := x.reports.set 0 r }
      | .candidate => { x with candPass := none, reports := x.reports.set 1 r }
      | .scan => { x with scan := none, reports := x.reports.set 2 r }
    m.scekaNotice 0xC3 0xC3

/-! ### Sceka Actuator Management (R183, R207, R300, R430, Table 12-9) -/

namespace Mach

/-- A dispatched Actuator Management command whose action is `k`. -/
def manage (m : Mach) (fsn : BitVec 32) (k : Nat) (f : Cmd → Actuator → Mach) : Mach :=
  m.withRunning fsn 0 0xC8 fun c => if c.dw 10 0 4 = k then f c (Fin.ofNat 4 (c.dw 10 4 2)) else m

/-- Data of writes checked before command `fsn` whose LBA satisfies `p` is not on the medium yet. -/
def undestaged (m : Mach) (fsn : Nat) (p : Namespace → Nat → Bool) : Bool :=
  let on (nsid lba : Nat) : Bool := match m.nsOf nsid with
    | some n => p n lba
    | none => false
  m.pwr.dirty.any (fun u => !u.isMeta && on u.nsid u.lba && (match u.fsn with
    | some f => fsnBefore f fsn
    | none => true)) ||
  m.cmd.table.any fun d => d.live && d.kind == some .write && fsnBefore d.fsn fsn &&
    d.ranges.any fun r => r.list.any fun l => on r.nsid l

/-- The action has begun. -/
def begin_ (m : Mach) (fsn : Nat) : Mach := m.setCommand fsn fun c => { c with begun := true }

end Mach

/-- DEPOPULATE_ACTUATOR (R183, R430, Table 12-9): destages unless the actuator is FAULTED, unloads, then sets DEPOP. An action
that the table does not list is an invalid field. -/
def depopulateActuator (fsn : BitVec 32) (m : Mach) : Mach :=
  m.withRunning fsn 0 0xC8 fun c =>
    let k := c.dw 10 0 4
    if k = 0 ∨ 5 < k then m.invalid c.fsn 40 0
    else m.manage fsn 1 fun c a =>
      if m.is (QDR_ACT_DEPOP a.val) then m.finish c.fsn stActState
      else if (allFin 4).all fun b => b == a || m.is (QDR_ACT_DEPOP b.val) then m.finish c.fsn stLastAct
      else if m.get (QDR_ACT_STATE a.val) ≠ 2 ∧ m.undestaged c.fsn (fun n l => n.actorOf l == a) then m.begin_ c.fsn
      else if !m.is (QDR_ACT_PARKED a.val) then unload a (m.begin_ c.fsn)
      else (Mach.watched (fun m => depopWrite a true m) m).finish c.fsn stOk

/-- REINSTATE_ACTUATOR (R183, Table 12-9): clears DEPOP; the command ends when requalification has, well or badly. -/
def reinstateActuator (fsn : BitVec 32) (m : Mach) : Mach :=
  m.manage fsn 2 fun c a =>
    let st := m.get (QDR_ACT_STATE a.val)
    if !c.begun then
      if !m.is (QDR_ACT_DEPOP a.val) then m.finish c.fsn stActState
      else Mach.watched (fun m => depopWrite a false m) (m.begin_ c.fsn)
    else if st = 3 then m.finish c.fsn stRequal
    else if st = 0 then m.finish c.fsn stOk
    else m

/-- DEPOPULATE_HEAD (R430, Table 12-9): destages the head's dirty data, then sets its HEAD_DEPOP bit. -/
def depopulateHead (fsn : BitVec 32) (m : Mach) : Mach :=
  m.manage fsn 3 fun c a =>
    let h := c.dw 10 8 3
    if Config.headCount a.val ≤ h ∨ 5 < h then m.finish c.fsn stActuator
    else if m.bitAt (QDR_ACT_HEAD_DEPOP a.val) h then m.finish c.fsn stActState
    else if m.get (QDR_ACT_STATE a.val) ≠ 2 ∧
        m.undestaged c.fsn (fun n l => n.actorOf l == a && Config.headOf n.nsid l % 6 == h) then m.begin_ c.fsn
    else (Mach.watched (fun m => m.setHeadDepop a h true) m).finish c.fsn stOk

/-- REINSTATE_HEAD (R182, Table 12-9): clears the bit and requalifies the actuator with tables not fresh; `failed`: the
requalification failed, and the bit is set again. -/
def reinstateHead (fsn : BitVec 32) (failed : Bool) (m : Mach) : Mach :=
  m.manage fsn 4 fun c a =>
    let h := c.dw 10 8 3
    if Config.headCount a.val ≤ h ∨ 5 < h then m.finish c.fsn stActuator
    else if !c.begun then
      if !m.bitAt (QDR_ACT_HEAD_DEPOP a.val) h then m.finish c.fsn stActState
      else Mach.watched (fun m =>
        let m := m.setHeadDepop a h false
        Mach.setRo { m with motion := { m.motion with tables := m.motion.tables.set a [] } } a) (m.begin_ c.fsn)
    else if failed ∨ m.get (QDR_ACT_STATE a.val) = 3 then
      (Mach.watched (fun m => (m.report (32 * 35 + 23)).setHeadDepop a h true) m).finish c.fsn stRequal
    else if m.get (QDR_ACT_STATE a.val) = 0 then m.finish c.fsn stOk
    else m

/-- ACKNOWLEDGE_BRAKE_FAULT (R207, Table 12-9). -/
def acknowledgeBrakeFault (fsn : BitVec 32) (m : Mach) : Mach :=
  m.manage fsn 5 fun c _ =>
    if m.is SPN_BRK_FAULT then (spnBrkAck m).finish c.fsn stOk else m.finish c.fsn stNoBrake

/-- TEMPERATURE_THRESHOLD_CROSSED (R301, Tables 12-5, 12-7): a measured temperature of the composite, logic-die or power-die
sensor, in kelvin, reaches its over threshold or falls to its under threshold, or returns between them. -/
def temperatureThresholdCrossed (sensor : Fin 3) (kelvin : BitVec 16) (m : Mach) : Mach :=
  let f := m.cmd.feat
  let beyond := decide (f.overT[sensor] ≤ kelvin.toNat) || decide (kelvin.toNat ≤ f.underT[sensor])
  let was := m.cmd.overTemp[sensor]
  let m := m.setCmdState fun c => { c with overTemp := c.overTemp.set sensor beyond }
  if beyond && !was then
    (m.setCmdState fun c => { c with critical := c.critical ||| 2 }).asyncBoth (some 1) 1 0x01 0x02
  else if !m.cmd.overTemp.any id then m.setCmdState fun c => { c with critical := c.critical &&& 0xFD }
  else m

end Sys2Proof.Machine
end

