-- ==== Sys2Proof/Machine/Sideband.lean ====
section
/-! DEFINITION. NVMe-MI over the sideband and in-band (R304, Table 12-10). -/
namespace Sys2Proof.Machine

/-- Response Message Statuses: Invalid Command Opcode, Invalid Parameter. -/
def miOpcode : Nat := 0x03
def miParameter : Nat := 0x04

namespace Mach

/-- Read NVMe-MI Data Structure, every type of NVMe-MI 1.2. -/
def miStructure (m : Mach) (type : Nat) : Nat × List Byte :=
  if 5 < type then (miParameter, [])
  else if type = 2 then
    (0, toBytesLE 2 (if m.dual then 2 else 1) ++ toBytesLE 2 0 ++ if m.dual then toBytesLE 2 1 else [])
  else (0, layout (0x3000 + type) 32 [])

/-- NVM Subsystem Health Status Poll: SMART warnings stand inverted in byte 1. -/
def miSubsystem (m : Mach) : List Byte := layout 0x3010 8 [(1, toBytesLE 1 (255 - m.warnings))]

/-- Controller Health Status Poll: 16 bytes for a controller, its number first. -/
def miController (m : Mach) (p : PortId) : List Byte := layout (0x3020 + p.val) 16 [(0, toBytesLE 2 p.val), (9, toBytesLE 1 m.warnings)]

/-- Configuration Set: SMBus frequency 1–3 (100 kHz, 400 kHz, 1 MHz), health status change, transmission unit. -/
def miSet (m : Mach) (id value : Nat) : Mach × Nat :=
  if id = 1 then
    if 1 ≤ value ∧ value ≤ 3 then (m.setCmdState fun c => { c with miFreq := value }, 0) else (m, miParameter)
  else if id = 2 then (m, 0)
  else if id = 3 then
    if 64 ≤ value ∧ value ≤ 256 then (m.setCmdState fun c => { c with miMtu := value }, 0) else (m, miParameter)
  else (m, miParameter)

/-- Configuration Get. -/
def miGet (m : Mach) (id : Nat) : Nat × List Byte :=
  if id = 1 then (0, toBytesLE 3 m.cmd.miFreq)
  else if id = 2 then (0, toBytesLE 3 0)
  else if id = 3 then (0, toBytesLE 3 m.cmd.miMtu)
  else (miParameter, [])

/-- VPD Read: bytes of the VPD in flash. -/
def miVpd (offset len : Nat) : Nat × List Byte :=
  if 256 < offset + len then (miParameter, [])
  else (0, (List.range len).map fun i => Config.imageByte 0x56 (offset + i))

/-- The answer of a sideband request. -/
def miAnswer (m : Mach) (x : Nat × List Byte) : Mach := m.emit (.mi x.1 x.2)

end Mach

/-- MI_READ_DATA_STRUCTURE (0x00). -/
def miReadDataStructure (type : BitVec 8) (m : Mach) : Mach := m.sideband false (m.miAnswer (m.miStructure type.toNat))

/-- MI_SUBSYSTEM_HEALTH_POLL (0x01): served in M8 too. -/
def miSubsystemHealthPoll (m : Mach) : Mach := m.sideband true (m.miAnswer (0, m.miSubsystem))

/-- MI_CONTROLLER_HEALTH_POLL (0x02). -/
def miControllerHealthPoll (p : PortId) (m : Mach) : Mach := m.sideband false (m.miAnswer (0, m.miController p))

/-- MI_CONFIGURATION_SET (0x03). -/
def miConfigurationSet (id : BitVec 8) (value : BitVec 16) (m : Mach) : Mach :=
  let (m', st) := m.miSet id.toNat value.toNat
  m.sideband false (m'.miAnswer (st, []))

/-- MI_CONFIGURATION_GET (0x04). -/
def miConfigurationGet (id : BitVec 8) (m : Mach) : Mach := m.sideband false (m.miAnswer (m.miGet id.toNat))

/-- MI_VPD_READ (0x05). -/
def miVpdRead (offset len : BitVec 16) (m : Mach) : Mach := m.sideband false (m.miAnswer (Mach.miVpd offset.toNat len.toNat))

/-- MI_RESET (0x07, R282): an NVM subsystem reset. -/
def miReset (m : Mach) : Mach := m.sideband false (m.subsystemReset.miAnswer (0, []))

/-- SMBUS_BASIC_MANAGEMENT (R304): served in M8 too; SMART warnings stand inverted in byte 2. -/
def smbusBasicManagement (m : Mach) : Mach :=
  m.sideband true (m.miAnswer (0, layout 0x3030 8 [(0, [6]), (2, toBytesLE 1 (255 - m.warnings))]))

/-- NVME_MI_SEND (R304): in-band, the MI opcode in CDW11 and its management dwords in CDW12 and CDW13; DW0 returns the
Response Message Status. -/
def nvmeMiSend (fsn : BitVec 32) (e : IoEnd) (m : Mach) : Mach :=
  m.withRunning fsn 0 0x1D fun c =>
    m.transferred c true e fun m =>
      let op := c.dw 11 0 8
      if op = 0x03 then
        let (m, st) := m.miSet (c.dw 12 0 8) (c.dw 13 0 16)
        m.decide_ c.fsn stOk st
      else if op = 0x07 then m.subsystemReset
      else m.decide_ c.fsn stOk miOpcode

/-- NVME_MI_RECEIVE (R304): in-band. -/
def nvmeMiReceive (fsn : BitVec 32) (e : IoEnd) (m : Mach) : Mach :=
  m.withRunning fsn 0 0x1E fun c =>
    m.transferred c true e fun m =>
      let op := c.dw 11 0 8
      let (st, bs) : Nat × List Byte :=
        if op = 0x00 then m.miStructure (c.dw 12 24 8)
        else if op = 0x01 then (0, m.miSubsystem)
        else if op = 0x02 then (0, m.miController c.ctrl)
        else if op = 0x04 then m.miGet (c.dw 12 0 8)
        else if op = 0x05 then Mach.miVpd (c.dw 12 0 16) (c.dw 13 0 16)
        else (miOpcode, [])
      (m.emit (.returned c.fsn bs)).decide_ c.fsn stOk st

end Sys2Proof.Machine
end

