-- ==== Sys2Proof/Machine/Event.lean ====
section
/-! DEFINITION. The event logic, the fault ledger and the event recorder (spec/18_events_errors_recorder.md). -/
namespace Sys2Proof.Machine

/-- The sources that Table 18-1 lists in each group, a bit for each. -/
def evtListed (g : Nat) : Nat :=
  if g = 0 then 0x1F else if g = 1 then 0xFF7F0F else if g = 2 then 0x3FF else if g = 3 then 0x3FFFFF
  else if g = 4 then 0xFFFF else if g ≤ 12 then 0xF else if g = 13 then 0x7 else if g ≤ 21 then 0x1FF
  else if g ≤ 25 then 0x7F else if g ≤ 29 then 0xFFFFFF else if g = 30 then 0x1FFF else if g = 31 then 0x3F
  else if g = 32 then 0x7FF else if g = 33 then 0x1F else if g ≤ 35 then 0xFFFFFFFF else 0

/-- The source is raised by something (R404). -/
def sourceListed (s : Nat) : Bool := (evtListed (s / 32)).testBit (s % 32)

/-- The class of a source: 0 NOTE, 1 ERROR, 2 FATAL (R404). -/
def sourceClass (s : Nat) : Nat := evtClassWords.getD (2 * (s / 32) + s % 32 / 16) 0 / 4 ^ (s % 16) % 4

/-- The counter of a source (R408). -/
def sourceCount (s : Nat) : Loc := if s % 2 = 0 then EVT_CNT_CNT0 (s / 2) else EVT_CNT_CNT1 (s / 2)

/-- Bytes that the spec does not state: free values. -/
def freeBytes (n v : Nat) : List Byte := toBytesLE n v

namespace Mach

/-- The first-fault latch takes a report while VALID is 0 (R409). -/
def latchFirst (m : Mach) (s : Nat) : Mach :=
  if m.is EVT_FIRST_VALID then m
  else ((((m.set EVT_FIRST_VALID 1).set EVT_FIRST_SOURCE s).set EVT_FIRST_CLASS (sourceClass s)).set EVT_FIRSTSEQ_SEQ
    (m.get EVT_SEQLO_SEQ))

/-- The 64-bit EVT_SEQ. -/
def evtSeq (m : Mach) : Nat := m.get EVT_SEQLO_SEQ + 2 ^ 32 * m.get EVT_SEQHI_SEQ

/-- EVT_SEQ advances (R405). -/
def advanceSeq (m : Mach) : Mach :=
  let n := m.evtSeq + 1
  (m.set EVT_SEQLO_SEQ n).set EVT_SEQHI_SEQ (n / 2 ^ 32)

/-- A ledger entry (Table 18-2). -/
def ledgerEntry (m : Mach) (s : Nat) : List Byte :=
  toBytesLE 2 (s % 2048 + 2048 * sourceClass s) ++ toBytesLE 2 (m.get (sourceCount s)) ++ toBytesLE 8 m.evtSeq ++
    toBytesLE 8 m.aonTime ++ toBytesLE 4 (m.get CAL_FIGNO_FIGURE) ++ toBytesLE 1 m.mode ++ toBytesLE 6 0 ++ [0x80]

/-- The buffer address of a ledger index. -/
def ledgerAddr (m : Mach) (i : Nat) : Nat := 32 * m.get EVT_LGR_BASE_ADDR + 32 * i

/-- The event recorder's port (Table 2-2). -/
def recorderPort : Port := 23

/-- The write of the oldest waiting entry goes out at index HEAD under class SCRUB (R410). -/
def offerLedger (m : Mach) : Mach :=
  if m.evt.ledger.isEmpty then m else m.demandAs 0 recorderPort 13 (m.ledgerAddr (m.get EVT_LGR_HEAD_INDEX)) 32

/-- An ERROR or FATAL report is queued to the ledger, or counted as lost (R410, R411). -/
def queueLedger (m : Mach) (s : Nat) : Mach :=
  if !m.is EVT_LGR_CTRL_EN then m.incSat EVT_LGR_STAT_EARLY 1
  else if (m.get EVT_LGR_HEAD_INDEX + m.evt.ledger.length + 1) % 4096 = m.get EVT_LGR_TAIL_INDEX then
    m.incSat EVT_LGR_STAT_OVR 1
  else
    let e := m.ledgerEntry s
    let first := m.evt.ledger.isEmpty
    (m.setEvt fun x => { x with ledger := x.ledger ++ [e] }).when first (·.offerLedger)

/-- The group's interrupt of a core, and in M11 its MSI-X message for a bit that rose (R405, R407). -/
def signalGroup (m : Mach) (s : Nat) (rose : Bool) : Mach :=
  let g := s / 32
  if (m.get (EVT_EN_EN g)).testBit (s % 32) && m.is (EVT_ROUTE_CEN g) then
    let c := m.get (EVT_ROUTE_CORE g)
    let m := m.emit (.irq (if 12 ≤ c then 0 else c) g)
    m.when (rose && m.mode == 11 && m.is (EVT_ROUTE_HOSTEN g) && m.host.ports[(0 : PortId)].msix)
      (·.emit (.msix .plain 0 (min 128 (m.get (EVT_ROUTE_VEC g)))))
  else m

/-- The event interrupt of a core is asserted (R405): a pending, enabled bit of a group that is routed to it. -/
def eventIrq (m : Mach) (core : Nat) : Bool :=
  (List.range 36).any fun g =>
    let c := m.get (EVT_ROUTE_CORE g)
    m.is (EVT_ROUTE_CEN g) && (if 12 ≤ c then 0 else c) == core &&
      (m.get (EVT_STAT_PEND g) &&& m.get (EVT_EN_EN g)) != 0

/-- The effects of a FATAL source (R283, R406, R413): CFS of both controllers, the fatal interrupts of CC0 and PC, M10 while
Ibzin runs, and an Error Information entry in both logs. -/
def fatalEvent (m : Mach) (s : Nat) : Mach :=
  let one (m : Mach) (p : PortId) : Mach :=
    ((m.setCtrl p fun c => { c with cfsFatal := true }).syncCtrl p).errorEntry p 0xFFFF 0xFFFF (2 * (6 + 2 ^ 13)) 0xFFFF 0 0
      (some s)
  let m := one (one m 0) 1
  let m := ((m.setEvt fun e => { e with fatalIrq := true }).emit (.fatal 0)).emit (.fatal 10)
  m.when m.rst.coresUp (·.enterSafe)

/-- A copy that no read has bound and whose buffers belong to a pool is freed when the pool is low (R26). -/
def dropPoolSpecs (m : Mach) (p : PoolId) : Mach :=
  let own (s : SpecSector) : List Nat := match s with
    | .decoded h => [h]
    | _ => []
  let bound (s : SpecSector) : Bool := match s with
    | .bound _ _ => true
    | _ => false
  let gone (c : SpecCopy) : Bool :=
    !c.sectors.any bound && (c.sectors.flatMap own).any fun h => handlePool h == p
  let hs := (m.cmd.specs.filter gone).flatMap fun c => c.sectors.flatMap own
  let m := m.setCmdState fun c => { c with specs := c.specs.filter (!gone ·) }
  hs.foldl (fun m h => poolFree (BitVec.ofNat 24 h) m) m

/-- What Ibzin does at a report: SPIN_FAIL and KE lead to M10 (R306); a pool's low event frees speculative copies (R26). -/
def answerEvent (m : Mach) (s : Nat) : Mach :=
  if !m.rst.coresUp then m
  else if s = 32 * 30 + 2 ∨ s = 32 * 30 + 3 then m.enterSafe
  else if 48 ≤ s ∧ s < 56 then m.dropPoolSpecs (Fin.ofNat 8 (s - 48))
  else m

/-- A source fires (R405). -/
def fire (m : Mach) (s : Nat) : Mach :=
  if !sourceListed s then m
  else
    let rose := !m.bitAt (EVT_STAT_PEND (s / 32)) (s % 32)
    let m := (m.setBitAt (EVT_STAT_PEND (s / 32)) (s % 32) true).incSat (sourceCount s) 1
    let m := m.when (1 ≤ sourceClass s) fun m => (m.advanceSeq.latchFirst s).queueLedger s
    let m := m.signalGroup s rose
    let m := m.when (sourceClass s == 2) (·.fatalEvent s)
    m.answerEvent s

end Mach

/-- EVENT_FIRE (R404–R409, R411): the report that arrived first is handled; or a source outside the modelled blocks fires. -/
def eventFire (src : Option (Fin 1152)) (m : Mach) : Mach :=
  match src, m.reports with
  | some s, _ => m.fire s.val
  | none, s :: rest => ({ m with reports := rest }).fire s
  | none, [] => m

namespace Mach

/-- A LOST record (R411, R418): reports that no record shows. -/
def recordLost (m : Mach) : Mach :=
  let ovr := m.get EVT_LGR_STAT_OVR
  let early := m.get EVT_LGR_STAT_EARLY
  let e := m.evt
  let value (now seen : Nat) : Nat := if now = 65535 then 65535 else now - seen
  if ovr = e.ovrSeen ∧ early = e.earlySeen ∧ e.found0 = 0 then m
  else
    (m.addRecord 6 (toBytesLE 4 (if ovr = e.ovrSeen then 0 else value ovr e.ovrSeen) ++
      toBytesLE 4 (if early = e.earlySeen then 0 else value early e.earlySeen) ++ toBytesLE 4 e.found0) false).setEvt
      fun e => { e with ovrSeen := ovr, earlySeen := early, found0 := 0 }

/-- The recorder record of a FATAL report is named in its Error Information entries (Table 18-3). -/
def nameRecord (m : Mach) (s seq : Nat) : Mach :=
  let name (e : ErrorEntry) : ErrorEntry := if e.source = some s ∧ e.record = none then { e with record := some seq } else e
  let one (m : Mach) (p : PortId) : Mach := m.setCtrl p fun c => { c with errors := c.errors.map name }
  one (one m 0) 1

/-- An EVENT record for a ledger entry; the first four reports of a source's life also go to the first area (R418). The
command fields and block registers, which Ibzin's record table names, are free values. -/
def recordEvent (m : Mach) (entry : List Byte) : Mach :=
  let s := ofBytesLE (entry.take 2) % 2048
  let n := getPair 0 s m.evt.firsts
  let seq := m.evt.seq
  let m := (m.addRecord 2 (entry ++ freeBytes 48 m.free) (decide (n < 4))).nextFree
  let m := m.setEvt fun e => { e with firsts := putPair 0 s (min 4 (n + 1)) e.firsts }
  m.nameRecord s seq

/-- Ibzin drains the entry at TAIL into the recorder (R410, R412, R418); one found with VALID = 0 counts as lost. -/
def drainOne (m : Mach) : Mach :=
  let tail := m.get EVT_LGR_TAIL_INDEX
  if tail = m.get EVT_LGR_HEAD_INDEX then m
  else
    let ((bs, _), m) := m.readBytes (m.ledgerAddr tail) 32
    let m := if bs.getD 31 0 = 0x80 then m.recordEvent bs else m.setEvt fun e => { e with found0 := e.found0 + 1 }
    (m.writeBytes (m.ledgerAddr tail + 31) [0]).set EVT_LGR_TAIL_INDEX (tail + 1)

/-- `n` entries are drained at most. -/
def drain : Nat → Mach → Mach
  | 0, m => m
  | n + 1, m => drain n m.drainOne

end Mach

/-- LEDGER_WRITE_DONE (R410, R411, R418): the oldest entry's write has gone out whole and HEAD advances; the next entry's
follows. Ibzin drains an entry, and records losses; in M9 it records nothing. -/
def ledgerWriteDone (m : Mach) : Mach :=
  match m.evt.ledger with
  | [] => m
  | e :: rest =>
    if !m.quietFor (fun p o => p == Mach.recorderPort && o == 0) then m else
    let head := m.get EVT_LGR_HEAD_INDEX
    let m := (m.writeBytes (m.ledgerAddr head) e).set EVT_LGR_HEAD_INDEX (head + 1)
    let m := (m.setEvt fun x => { x with ledger := rest }).offerLedger
    m.when (m.rst.coresUp && m.mode != 9) fun m => m.drainOne.recordLost

/-- The `n` register words from address `lo` on return to their reset values. -/
def Mach.clearWords (m : Mach) (lo n : Nat) : Mach :=
  { m with regs := m.regs.filter fun r => !(decide (lo ≤ r.1) && decide (r.1 < lo + 4 * n) && (r.1 - lo) % 4 == 0) }

/-- EVT_CNTCLR (R408). -/
def evtCntclr (m : Mach) : Mach := m.clearWords (REG_EVT_CNT 0) 576

/-- EVT_FIRST_CLEAR (R409): the latch is armed again. -/
def evtFirstClear (m : Mach) : Mach :=
  (((m.set EVT_FIRST_VALID 0).set EVT_FIRST_SOURCE 0).set EVT_FIRST_CLASS 0).set EVT_FIRSTSEQ_SEQ 0

/-- EVT_SWRAISE (R405): raises a source of EG35 from bit 20 on. -/
def evtSwraise (bit : BitVec 5) (m : Mach) : Mach :=
  if bit.toNat ≤ 19 then m.set EVT_ERR_SW_BAD 1 else m.report (32 * 35 + bit.toNat)

/-! ### The REC block (R416, R417) -/

/-- The operation starts: BUSY is 1, and RESULT reads 0. -/
def Mach.recStart (m : Mach) (op : RecOp) : Mach :=
  ((m.setEvt fun e => { e with op := some op }).set REC_STAT_BUSY 1).set REC_STAT_RESULT 0

/-- REC_PROGRAM (R416): a record, read through port 23, is programmed into an erased slot; another slot is refused. -/
def recProgram (m : Mach) : Mach :=
  if m.is REC_STAT_BUSY then m
  else
    let slot := m.get REC_DST_SLOT
    let ((bs, _), m) := m.readBytes (256 * m.get REC_SRC_ADDR) 256
    let body := bs.take 248
    let full := body ++ toBytesLE 4 (crc32cFrom 0xFFFFFFFF body).toNat ++ toBytesLE 4 0x52454344
    (m.demandAs 1 Mach.recorderPort 13 (256 * m.get REC_SRC_ADDR) 256).recStart ⟨true, slot, full, if m.evt.slots.any (·.1 == slot) then 3 else 0⟩

/-- REC_ERASE (R416): the sector of the last area that holds the slot; other sectors are refused. -/
def recErase (m : Mach) : Mach :=
  if m.is REC_STAT_BUSY then m
  else
    let slot := m.get REC_DST_SLOT
    m.recStart ⟨false, slot, [], if slot < 65536 then 3 else 0⟩

/-- A slot that a failed operation leaves: bytes 0–251 free values, MARK erased (R416, R417). -/
def Mach.spoilSlot (m : Mach) (slot : Nat) : Mach :=
  (m.putSlot slot (freeBytes 252 m.free ++ List.replicate 4 0xFF)).nextFree

/-- REC_DONE (R416): the operation, its record read, ends with 0 done, 1 read-back mismatch or 2 flash error, or with its
refusal. -/
def recDone (outcome : Fin 3) (m : Mach) : Mach :=
  match m.evt.op with
  | none => m
  | some op =>
    if !m.quietFor (fun p o => p == Mach.recorderPort && o == 1) then m else
    let m := (m.setEvt fun e => { e with op := none }).set REC_STAT_BUSY 0
    if op.result = 3 then m.set REC_STAT_RESULT 3
    else
      let m := m.set REC_STAT_RESULT outcome.val
      if outcome = 0 then (if op.program then m.putSlot op.slot op.bytes else m.eraseSector op.slot)
      else if op.program then m.spoilSlot op.slot
      else ((m.evt.slots.filter fun s => s.1 / 16 == op.slot / 16).map (·.1)).foldl (fun m s => m.spoilSlot s) m

/-! ### Snapshots and operating hours (R418, R419) -/

/-- The counters that a SNAPSHOT takes deltas of (Table 18-6). -/
def Mach.snapNow (m : Mach) : SnapBase where
  iters := (List.range 24).map fun k => m.get (DEC_ITERH_COUNT k)
  steps := (List.range 16).map fun k => (allFin 4).foldl (fun s a => s + m.get (LAD_CNT_STEP_COUNT a.val k)) 0
  others := ((allFin 4).map fun a => m.get (SRV_CNT_OVR a.val)) ++
    [m.get SPN_CNT_LOSS, m.get SPN_CNT_CATCH_FAIL, m.get BUF_CNT_CHECK]

/-- Differences of counters, where one cleared since then counts from 0. -/
def deltas (now base : List Nat) : List Nat :=
  now.zipIdx.map fun x => if x.1 < base.getD x.2 0 then x.1 else x.1 - base.getD x.2 0

/-- The body of a SNAPSHOT record; the extremes are measured, so they are free values. -/
def Mach.snapBody (m : Mach) : List Byte :=
  let now := m.snapNow
  let b := m.evt.base
  let o := deltas now.others b.others
  (deltas now.iters b.iters).flatMap (toBytesLE 4) ++ (deltas now.steps b.steps).flatMap (toBytesLE 4) ++
    freeBytes 16 m.free ++ (o.take 6).flatMap (toBytesLE 2) ++ toBytesLE 4 (o.getD 6 0)

/-- SNAPSHOT_TIMER (R418): 3,600 operating seconds have passed; every 24th record also goes to the first area. -/
def snapshotTimer (m : Mach) : Mach :=
  if !m.rst.coresUp || m.mode == 9 then m
  else
    let n := m.evt.snaps + 1
    let now := m.snapNow
    ((m.addRecord 3 m.snapBody (n % 24 == 0)).nextFree).setEvt fun e => { e with snaps := n, base := now }

/-- POH_STORE (R419): 60 operating seconds have passed, and POH is stored. -/
def pohStore (m : Mach) : Mach :=
  if !m.rst.coresUp then m else m.setEvt fun e => { e with poh := e.poh + 60, pohFlash := e.poh + 60 }

end Sys2Proof.Machine
end

