-- ==== Sys2Proof/Machine/Boot.lean ====
section
/-! DEFINITION. Reset requests, phases P0 to P7, clock domains, sleep and wake
(spec/16_clocks_and_reset.md, R327–R341 of spec/14_boot_images_security.md). -/
namespace Sys2Proof.Machine

/-! ### Requests of the reset sources (R373–R377) -/

/-- POWER_ON_RESET (R373): VAON rises. -/
def powerOnReset (m : Mach) : Mach := m.requestReset .powerOn .none

/-- BROWN_OUT_RESET (R305, R373): a rail, numbered as in Table 13-1, is out of its window for 10 µs; none resets in M9, and
VCORE, VSRAM, VANA and VDDQ are off by design in M8. -/
def brownOutReset (rail : Fin 7) (m : Mach) : Mach :=
  let off := m.mode == 8 && (decide (rail.val ≤ 2) || rail.val == 6)
  if off then m
  else
    let m := m.report (32 * 31 + 5)
    if m.mode = 9 then m else m.requestReset .brownOut .none

/-- RESET_N_ASSERT (R376). -/
def resetNAssert (m : Mach) : Mach := (m.requestReset .pin .none).setRst fun r => { r with pinLow := true }

/-- RESET_N_RELEASE (R376). -/
def resetNRelease (m : Mach) : Mach := m.setRst fun r => { r with pinLow := false }

/-- BAR2 writes are carried out (R349, R426). -/
def Mach.bar2Open (m : Mach) : Bool := m.mode == 11 && m.sec.scope.getLsbD 0

/-- RST_SWRST_WRITE (R373, R377): the key from a core, or through BAR2 in M11 under REGS; BAR2 writes that are not carried out
leave no trace. -/
def rstSwrstWrite (req : Requester) (w : Word) (m : Mach) : Mach :=
  let refused := m.flagEvent RST_ERR_SW_KEY (32 * 33 + 2)
  match req with
  | .bc | .core _ => if m.rst.entering then m else if w = 0x53575254 then m.softReset else refused
  | .bar2 => if !m.bar2Open then m else if w = 0x53575254 then m.softReset else refused
  | .seq _ | .bar0 _ | .config _ => refused

/-- CHIPRST (R373). -/
def chiprst (m : Mach) : Mach := if m.get DBG_STAT_STATE = 4 then m.requestReset .debug .none else m

/-- A core, numbered as RST_INFO.CORE, runs: BC from P1 on, the others from P6 on. -/
def Mach.coreRuns (m : Mach) (k : Nat) : Bool :=
  decide (k ≤ 11) && !m.rst.entering && m.mode != 8 && (m.rst.coresUp || k == 11)

/-- CORE_WATCHDOG_EXPIRY (R353, R373). -/
def coreWatchdogExpiry (k : Fin 12) (m : Mach) : Mach :=
  if m.coreRuns k.val then m.requestReset .coreWatchdog ⟨k.val, 0, 0⟩ else m

/-- CORE_LOCKUP (R353, R373): a double-bit error in a fetch or a TCM access, or a fault in the fault handler. -/
def coreLockup (k : Fin 12) (m : Mach) : Mach :=
  if m.coreRuns k.val then m.requestReset .lockUp ⟨k.val, 0, 0⟩ else m

/-- FABRIC_WATCHDOG_EXPIRY (R48): the stuck burst is latched and a chip reset requested. -/
def fabricWatchdogExpiry (m : Mach) : Mach :=
  if m.wdgRuns then m.wdgLatch.requestReset .fabricWatchdog .none else m

namespace Mach

/-- The clock-good of a domain (R368). -/
def clockGood (m : Mach) (d : Nat) : Bool :=
  if d < 32 then (m.get CLK_GOOD0_GOOD).testBit d else (m.get CLK_GOOD1_GOOD).testBit (d - 32)

/-- Set the clock-good of a domain. -/
def setGood (m : Mach) (d : Nat) (b : Bool) : Mach :=
  if d < 32 then m.setBitAt CLK_GOOD0_GOOD d b else m.setBitAt CLK_GOOD1_GOOD (d - 32) b

/-- The gate of a domain is open (R372). -/
def gateOpen (m : Mach) (d : Nat) : Bool :=
  if d < 32 then (m.get CLK_GATE0_OPEN).testBit d else (m.get CLK_GATE1_OPEN).testBit (d - 32)

/-- A block works only while its domain's clock is good and it is not in block reset (R368, R369, R374, R382). -/
def clocked (d b : Nat) (f : Mach → Mach) (m : Mach) : Mach :=
  if m.clockGood d && !(decide (b < 64) && m.blockBusy b) then f m else m

end Mach

/-- CLOCK_FAILURE (R370, Table 16-2): a running family, SMP or crystal clock without an edge (kind 0), a family clock off
frequency (1), or the root PLL out of lock (2). Domain 62 is the crystal and 63 the PLL. A crystal failure switches F-AON to
ROSC. The PCIe reference is not checked (R371). -/
def clockFailure (d : Fin 64) (kind : Fin 3) (m : Mach) : Mach :=
  let running := m.gateOpen d.val && m.clockGood d.val
  let applies :=
    if d.val = 62 then kind == 0 && m.rst.xtal
    else if d.val = 63 then kind == 2 && m.is CLK_STAT_RPLL_LOCK
    else if d.val ≤ 29 then (kind == 0 || kind == 1) && running
    else decide (d.val ≤ 37) && kind == 0 && running
  if !applies then m
  else
    let m := m.requestReset .clockFailure ⟨0, d.val, kind.val⟩
    if d.val = 62 then
      ((((m.setRst fun r => { r with xtal := false }).set CLK_STAT_XTAL_GOOD 0).set CLK_STAT_AON_SRC 1).setGood 39 true).report
        (32 * 33 + 4)
    else m

/-- CLOCK_GOOD_TIMEOUT (R369, R371): 100 µs after a release request; PCIE brings its ports down instead. -/
def clockGoodTimeout (d : Fin 40) (m : Mach) : Mach :=
  if !m.rst.waiting.contains d then m
  else if d.val = 38 then
    let down (m : Mach) (p : PortId) : Mach := m.when (m.is (HIF_LINK_UP p.val)) (·.linkDownEvent p)
    down (down m 0) 1
  else m.requestReset .clockFailure ⟨0, d.val, 3⟩

/-- STORM_HOLD_END (R381). -/
def stormHoldEnd (m : Mach) : Mach := m.setRst fun r => { r with stormHold := false }

/-! ### Phases P0 to P4 (R366, R378–R380) -/

/-- PHASE_P0 (R305, R306, R379): after a power-on or brown-out reset, with both supplies in range the rails ramp in order; VCORE to VAON are good. -/
def phaseP0 (m : Mach) : Mach :=
  if m.rst.entering ∧ m.rst.fromP0 ∧ ¬ m.rst.pinLow ∧ ¬ m.rst.stormHold ∧ m.die.v12Ok ∧ m.die.v5Ok ∧ m.mode ≠ 0 then
    (m.setRst fun r => { r with railsOff := false }).set PWR_RAILS_GOOD 0xFF
  else m

/-- RAIL_RAMP_TIMEOUT (R379): every logic rail but VAON is switched off, and P0 starts again. -/
def railRampTimeout (m : Mach) : Mach :=
  if m.rst.entering ∧ m.rst.fromP0 ∧ m.get PWR_RAILS_GOOD % 256 ≠ 0xFF then
    (m.setRst fun r => { r with railsOff := true }).set PWR_RAILS_GOOD 0x80
  else m

/-- CRYSTAL_GOOD (R365, R366). -/
def crystalGood (m : Mach) : Mach :=
  (((m.setRst fun r => { r with xtal := true }).set CLK_STAT_XTAL_GOOD 1).set CLK_STAT_AON_SRC 0).setGood 39 true

/-- PLL_LOCK (R366): the enabled PLL has stayed in its lock window for 2 µs. -/
def pllLock (m : Mach) : Mach := if m.rst.pllOn then m.set CLK_STAT_RPLL_LOCK 1 else m

/-- Fields of class F come from the fuses (R330, R392). -/
def Mach.loadFuses (m : Mach) : Mach :=
  let f := m.sec.fuses
  let m := (((m.set SEC_LIFE_LIFE f.life).setFlag SEC_LIFE_OEMKEY f.oemKey).set SEC_SVN_PATCH f.patch).set SEC_SVN_CFG f.cfg
  ((m.set FUS_SERLO_SERIAL f.serial.toNat).set FUS_SERHI_SERIAL (f.serial.toNat / 2 ^ 32)).setWord REG_FUS_PADMAP
    (BitVec.ofNat 32 f.padmap.toNat)

/-- FUSE_SENSE (R330, R378, R392, R399): P1 runs once the crystal and the rails are good and every hold has ended; it ends
the reset entry. FL_RST_N is driven. In lifecycle SCEKA, TEST_EN holds the HQ8 at the end of P1. -/
def fuseSense (testEn : Bool) (m : Mach) : Mach :=
  let ready := m.rst.entering && !m.rst.pinLow && !m.rst.stormHold && m.rst.xtal &&
    (!m.rst.fromP0 || m.get PWR_RAILS_GOOD % 256 == 0xFF)
  if !ready then m
  else
    let hold := testEn && m.sec.fuses.life == 0
    let m := (m.loadFuses).setRst fun r =>
      { r with entering := false, testEn := hold, inReset := (r.inReset.set 7 false), driven := r.driven.set 7 true }
    let m := ((m.set CLK_STAT_XTAL_GOOD 1).setGood 39 true).set PWR_RAILS_GOOD 0xFF
    m.set RST_PHASE_PHASE (if hold then 1 else 2)

/-- An option block is accepted: its magic, and the CRC-32C of words 0–62 in word 63 (R328). -/
def optionOk (ws : List Word) : Bool :=
  decide (ws.length = 64) && ws.getD 0 0 == 0x4F505457 &&
    ws.getD 63 0 == crc32cFrom 0xFFFFFFFF ((ws.take 63).flatMap fun w => toBytesLE 4 w.toNat)

/-- Option words 1–62 of Table 14-2's defaults: VERSION 1; MAXSPEED 5; AUTO 1, SPINGRP 63, SPINSTEP 5; DBG_PORT 1. -/
def optionDefaults : List Word :=
  ([1, 20, 0, 0, 0x143F4000, 0, 1] : List Word) ++ List.replicate 55 0

/-- The option words in force, loaded into their registers (Table 14-2). -/
def Mach.loadOptions (m : Mach) (ws : List Word) : Mach :=
  let m := m.setSec fun s => { s with options := ws }
  let w2 := ws.getD 1 0
  let m := ((m.set HIF_MODE_DUAL (getBits w2 0 1)).set HIF_MODE_SRIS (getBits w2 1 1)).set HIF_MODE_MAXSPEED (getBits w2 2 3)
  let m := (m.setWord REG_HIF_SUBSYS (ws.getD 2 0)).set BUF_CTRL_INIT_MODE (getBits (ws.getD 3 0) 0 1)
  let m := (m.setWord REG_PWR_FLEET (ws.getD 4 0)).resetFeatures
  let m := m.set PWR_FLEET_SLOT m.cmd.feat.saved.slot
  let side := getBits (ws.getD 5 0) 0 2
  m.setCmdState fun c => { c with miFreq := if side = 3 then 0 else side + 1 }

/-- OPTION_LOAD (R312, R328, R380): P2 reads block A, then B, then takes the defaults. -/
def optionLoad (m : Mach) : Mach :=
  if m.rst.entering ∨ m.rst.testEn ∨ m.get RST_PHASE_PHASE ≠ 2 then m
  else
    let f := m.sec.flash
    let m :=
      if optionOk f.optA then (m.set SEC_BOOT_OPTBLK 0).loadOptions ((f.optA.drop 1).take 62)
      else if optionOk f.optB then (m.set SEC_BOOT_OPTBLK 1).loadOptions ((f.optB.drop 1).take 62)
      else ((m.set SEC_BOOT_OPTBLK 2).flagEvent SEC_ERR_OPTCRC (32 * 32 + 3)).loadOptions optionDefaults
    m.set RST_PHASE_PHASE 3

/-- CLOCK_START (R378): P3 enables the root PLL, and every domain 0–38 with an open gate asks for its release. -/
def clockStart (m : Mach) : Mach :=
  if m.rst.entering ∨ m.get RST_PHASE_PHASE ≠ 3 ∨ m.rst.pllOn then m
  else
    let open_ := (allFin 40).filter fun d => decide (d.val ≤ 38) && m.gateOpen d.val
    m.setRst fun r => { r with pllOn := true, waiting := open_ }

/-- The power die reports PARKED and its modes (Table 16-5). -/
def Mach.dieReport (m : Mach) : Mach :=
  (allFin 4).foldl (fun m a =>
    (m.setParked a m.die.parked[a]).set (VCM_STAT_MODE a.val) (if m.die.retract[a] = .none then 0 else 3)) m.reportTemp

/-- DOMAIN_RELEASE (R29, R368, R369, R372, R378): a domain's clock-good rises and its blocks leave reset; in P3 in index
order. The Caller's first figure begins with domain 8. P3 ends with the last domain, after the power die's first report. -/
def domainRelease (d : Fin 40) (m : Mach) : Mach :=
  let p3 := m.get RST_PHASE_PHASE == 3
  let turn := if p3 then m.rst.waiting.head? == some d else m.rst.waiting.contains d
  let running := m.is CLK_STAT_RPLL_LOCK || (d.val == 38 && !m.is HIF_MODE_SRIS)
  if !(turn && running && m.gateOpen d.val) then m
  else
    let m := (m.setRst fun r => { r with waiting := r.waiting.filter (· != d), inReset := r.inReset.set d false }).setGood
      d.val true
    let m := m.when (d.val == 8 && !m.cal.running) (·.firstFigure)
    m.when (p3 && m.rst.waiting.isEmpty) fun m => (m.dieReport).set RST_PHASE_PHASE 4

/-- BUFFER_INIT (R218, R220, R380): P4 starts the fill, marks every page invalid, or takes the buffer out of self-refresh as
it stands; control stores and tables are cleared. -/
def bufferInit (m : Mach) : Mach :=
  if m.get RST_PHASE_PHASE ≠ 4 ∨ m.get BUF_STAT_INIT ≠ 0 then m
  else
    let m := m.setEngine fun e =>
      { e with stores := EngState.initial.stores, tables := EngState.initial.tables }
    let done (m : Mach) : Mach := ((m.set BUF_STAT_INIT 2).set RST_STAT_BUFOK 1).set RST_PHASE_PHASE 5
    if m.is RST_STAT_BUFOK then
      let off := m.buf.vsramOff
      let m := m.setBuf fun b =>
        { b with selfRef := false, vsramOff := false
                 mem := if off then { b.mem with pages := ⟨true, []⟩ } else b.mem }
      done (m.setRst fun r => { r with kept := true })
    else
      let m := m.setBuf fun b => { b with selfRef := false, vsramOff := false }
      if m.is BUF_CTRL_INIT_MODE then done (m.setMem fun _ => ⟨[], [], ⟨false, []⟩⟩)
      else (m.setMem fun b => { b with pages := ⟨true, []⟩ }).set BUF_STAT_INIT 1

/-! ### P5 (R329, R331, R332, R335, R362) -/

namespace Mach

/-- BC's verdict on the bundle of a slot (R331, R332): 0 passed, 1 VERIFY, 2 SVN. -/
def slotVerdict (m : Mach) (slot : Nat) : Nat :=
  match m.slotBundle slot with
  | some b => m.verify b
  | none => 1

/-- A bundle was rejected. -/
def rejectBundle (m : Mach) (l : Loc) (why : Nat) : Mach :=
  let m := m.set l 1
  if why = 2 then m.flagEvent SEC_ERR_SVN (32 * 32 + 2) else m.flagEvent SEC_ERR_VERIFY (32 * 32 + 1)

/-- A bundle is accepted: its stores are loaded and its option-word copy compared (R329, R362). -/
def takeBundle (m : Mach) (slot source : Nat) : Mach :=
  match m.slotBundle slot with
  | none => m
  | some b =>
    let differ := match b.options with
      | some ws => ws != m.sec.options
      | none => false
    let m := (m.loadStores b).setSec fun s => { s with active := some b }
    ((m.set SEC_BOOT_ACTIVE slot).set SEC_BOOT_SOURCE source).setFlag SEC_BOOT_OPTMIS differ

/-- No bundle: Ibzin runs from ROM (R331). -/
def noBundle (m : Mach) : Mach :=
  ((m.setSec fun s => { s with active := none }).set SEC_BOOT_ACTIVE 1).set SEC_BOOT_SOURCE 2

/-- The active slot of the boot state is tried, then none (R331). -/
def tryActive (m : Mach) : Mach :=
  let slot := m.sec.flash.active
  if slot = 1 then m.noBundle
  else
    let v := m.slotVerdict slot
    if v = 0 then m.takeBundle slot 1 else (m.rejectBundle SEC_BOOT_AFAIL v).noBundle

/-- The pending slot of the boot state is tried first (R331, R336). -/
def tryPending (m : Mach) : Mach :=
  match m.sec.flash.pending with
  | none => m.tryActive
  | some (slot, _) =>
    if slot = 1 then (m.setFlash fun f => { f with pending := none, active := 1 }).noBundle
    else
      let v := m.slotVerdict slot
      if v = 0 then
        ((m.setFlash fun f => { f with pending := none, active := slot }).setSec fun s => { s with svnDue := true }).takeBundle
          slot 0
      else (m.rejectBundle SEC_BOOT_PFAIL v).tryActive

end Mach

/-- BUNDLE_SELECT (R330–R332, R335): P5. -/
def bundleSelect (m : Mach) : Mach :=
  if m.get RST_PHASE_PHASE ≠ 5 then m else (m.tryPending.set SEC_BOOT_VALID 1).set RST_PHASE_PHASE 6

/-! ### P6 (R330, R337–R341, R412, R418, R419, R428) -/

namespace Mach

/-- The pool enables that a configuration holds start their pools. -/
def startPools (m : Mach) : Mach :=
  (allFin 8).foldl (fun m p =>
    if m.is (POOL_CFG_EN p.val) then poolEnWrite p true (m.set (POOL_CFG_EN p.val) 0) else m) m

/-- A configured figure table replaces the default one before P6 ends (R36): Ibzin arms the swap, and the boundary that
resolves it lies inside P6 (DESIGN CHOICE, log entry 128). -/
def startFigures (m : Mach) (b : Bundle) : Mach :=
  m.when (b.regs.any fun r => decide (REG_CAL_BACK 0 ≤ r.1) && decide (r.1 < REG_CAL_BACK 16)) fun m =>
    (m.set CAL_STATUS_SWAP_PENDING 1).swapValidate

/-- What Ibzin sets once the cores run, in P6 and at M8 wake: the media enables (R428), persistent depopulation (R183),
the preamplifier rails, PAP before PAN (R379), fetching and training (R259). -/
def ibzinStart (m : Mach) : Mach :=
  let m := (allFin 4).foldl (fun m a => ladEnWrite a true m) m
  let m := m.set SPN_CTRL_EN 1
  let m := (allFin 4).foldl (fun m a =>
    m.when m.die.parked[a] fun m => (m.restoreDepop a).syncAct a) m
  let m := (m.setDie fun d => { d with paOff := Vector.replicate 4 false }).set PWR_RAILS_GOOD 0xFFFF
  let m := fetchEnWrite true true m
  trainEnWrite true m.dual m

/-- Slot 31 and the slots of the locking objects are loaded (R338, R340, R341). -/
def runLadder (m : Mach) : Mach :=
  (m.loadKey 31 (Config.saveKey m.sec.fuses.life)).refreshKeys

/-- The highest SEQ among valid records, and the slot it stands in, over slots `lo` to `hi − 1`. -/
def lastRecord (m : Mach) (lo hi : Nat) : Option (Nat × Nat) :=
  let own := m.evt.slots.filter fun s => decide (lo ≤ s.1) && decide (s.1 < hi) && recordValid s.2
  own.foldl (fun best s =>
    let q := ofBytesLE ((s.2.drop 4).take 4)
    match best with
    | some (b, _) => if q ≤ b then best else some (q, s.1)
    | none => some (q, s.1)) none

/-- The first erased slot at or after `slot`, in the circle of `n` slots from `lo`. -/
def erasedFrom (m : Mach) (lo n : Nat) : Nat → Nat → Nat
  | 0, slot => slot
  | k + 1, slot =>
    if m.evt.slots.any (·.1 == slot) then m.erasedFrom lo n k (lo + (slot - lo + 1) % n) else slot

/-- Where the recorder goes on at boot (R419). -/
def resumeRecorder (m : Mach) : Mach :=
  let first := m.lastRecord 16 65536
  let last := m.lastRecord 65536 131072
  let after (r : Option (Nat × Nat)) (lo : Nat) : Nat := match r with
    | some (_, s) => s + 1
    | none => lo
  let seq := max (first.elim 0 (·.1)) (last.elim 0 (·.1)) + 1
  let n := m.evt.slots.length
  let nf := after first 16
  let nf := if 65536 ≤ nf then nf else (List.range n).foldl (fun s _ => if m.evt.slots.any (·.1 == s) then s + 1 else s) nf
  let nl := m.erasedFrom 65536 65536 n (65536 + (after last 65536 - 65536) % 65536)
  m.setEvt fun e => { e with seq := seq, nextFirst := min 65536 nf, nextLast := nl }

/-- The body of a BOOT record (Table 18-6). -/
def bootBody (m : Mach) : List Byte :=
  let w (a : Nat) : List Byte := toBytesLE 4 (m.word a).toNat
  w REG_RST_CAUSE ++ w REG_RST_INFO ++ w REG_FAB_WDG_LAST ++ w REG_RST_CNT ++ w REG_SEC_BOOT ++ w REG_DBG_COUNT ++
    w REG_EVT_FIRST ++ w REG_EVT_FIRSTSEQ ++ w REG_EVT_LGR_STAT ++
    [BitVec.ofNat 8 (m.get FUS_ROMVER_X), BitVec.ofNat 8 (m.get FUS_ROMVER_Y)] ++ toBytesLE 2 (patchLevel m.sec.active)

/-- The identity area, written at the first boot (Table 18-4). Where its fields stand there the spec does not say: free
values. -/
def writeIdentity (m : Mach) : Mach :=
  if m.evt.slots.any (·.1 == 0) then m else (m.putSlot 0 (freeBytes 256 m.free)).nextFree

/-- Recorder and ledger at boot (R412, R414, R418, R419). -/
def bootRecords (m : Mach) : Mach :=
  let cold := m.rst.coldBoot
  let m := m.writeIdentity
  let m := m.resumeRecorder.setEvt fun e =>
    let n := if cold then e.pcycFlash + 1 else e.pcycFlash
    { e with poh := e.pohFlash, pcyc := n, pcycFlash := n, boots := e.boots + 1 }
  let m := m.addRecord 1 m.bootBody (decide (m.evt.boots ≤ 1024))
  let m := m.when (!cold) fun m => m.drain 4095
  let now := m.snapNow
  let m := (m.recordLost.setEvt fun e => { e with base := now }).set EVT_LGR_CTRL_EN 1
  let m := m.when m.rst.stormed fun m => (m.setRst fun r => { r with stormed := false }).report (32 * 33 + 3)
  m.when (m.sec.flash.forced != 0) fun m => (m.setFlash fun f => { f with forced := 0 }).shortfall

/-- The staggered spin-up delay in ms (R312). -/
def spinDelay (m : Mach) : Nat :=
  if m.rst.coldBoot then m.get PWR_FLEET_SLOT % (m.get PWR_FLEET_SPINGRP + 1) * (50 * m.get PWR_FLEET_SPINSTEP) else 0

/-- A bundle's configuration sections are applied (R330): every field they hold. -/
def configure (m : Mach) (b : Bundle) : Mach :=
  let m := ((m.applyConfig b (fun _ => true) fun _ => true).startPools).startFigures b
  m.setPwr fun s => { s with idleCLevel := b.idleCLevel, activeLevel := b.activeLevel, saveRate := b.saveRate }

/-- Every sequencer starts at address 0 (R362). -/
def startSeqs (m : Mach) : Mach :=
  (allFin 20).foldl (fun m q => (m.set (SEQ_CTRL_RUN q.val) 1).restartSeq q) m

end Mach

/-- CONFIG_APPLY (R330): P6. The write generation goes on from the recorded value plus 2²⁰ (R85). Without a bundle, or with
option words that the image did not expect, the HQ8 enters M10, otherwise M7 (R306, R329, R331). -/
def configApply (m : Mach) : Mach :=
  if m.get RST_PHASE_PHASE ≠ 6 then m
  else
    let m := match m.sec.active with
      | some b => m.configure b
      | none => m
    let m := (m.set SEC_SEAL_SEALED 1).runLadder
    let m := m.startSeqs.setRst fun r => { r with coresUp := true }
    let m := m.ibzinStart
    let m := (List.range 5).foldl (fun m i => m.drivePad (Fin.ofNat 8 i)) m
    let m := m.bootRecords.setPwr fun s => { s with wgen := s.wgenFlash + 2 ^ 20, wgenFlash := s.wgenFlash + 2 ^ 20 }
    let m := ((m.set PWR_SPIN_DELAY (min 65535 m.spinDelay)).applyCap).set RST_PHASE_PHASE 7
    let m := m.enterMode (if m.sec.active.isNone || m.is SEC_BOOT_OPTMIS then 10 else 7)
    m.setLimit.actuatorsChanged

/-- SPIN_DELAY_END (R306, R312, R313): P7 ends; with AUTO the spindle starts. -/
def spinDelayEnd (m : Mach) : Mach :=
  if m.get RST_PHASE_PHASE ≠ 7 ∨ m.is RST_PHASE_DONE ∨ ¬ m.rst.coresUp then m
  else
    let m := ((m.set PWR_SPIN_DELAY 0).set PWR_SPIN_ELIG 1).set RST_PHASE_DONE 1
    if m.mode = 7 ∧ (m.is PWR_FLEET_AUTO ∨ m.mediaCommand) then m.spinUp else m

/-! ### Clock gates (R372) -/

/-- The domain of a core, numbered as RST_INFO.CORE. -/
def coreDomain (k : Nat) : Nat :=
  if k ≤ 3 then k else if k ≤ 7 then 4 else if k ≤ 9 then 5 else if k = 10 then 6 else 7

/-- The domain of a requester that writes registers. -/
def Requester.domain : Requester → Option Nat
  | .bc => some 7
  | .core k => some (coreDomain k.val)
  | .seq q => some (if q.val < 8 then 15 + q.val / 2 else if q.val < 12 then 7 + q.val else if q.val < 16 then 19 else q.val - 1)
  | .bar2 | .bar0 _ | .config _ => none

/-- The domain of a fabric port's requester (Tables 2-2, 16-1). -/
def portDomain (p : Nat) : List Nat :=
  if p ≤ 3 then [p] else if p ≤ 5 then [5] else if p = 6 then [6] else if p = 7 then [7] else if p ≤ 11 then [4]
  else if p = 12 then [11] else if p ≤ 16 then [12, 13, 14] else if p ≤ 20 then [14, p - 2] else if p ≤ 22 then [10]
  else if p = 23 then [26] else if p = 24 then [10] else if p ≤ 26 then [15, 16, 17, 18] else if p = 27 then [19]
  else if p = 28 then [15, 16, 17, 18] else [27]

/-- A closure of a domain's gate is refused (R372). Register accesses are whole in this model, so none is outstanding. -/
def Mach.closureRefused (m : Mach) (req : Requester) (d : Nat) : Bool :=
  [7, 8, 10, 24, 26, 27, 28, 39].contains d || req.domain == some d ||
    m.cal.flights.any (fun f => (portDomain f.port.val).contains d) ||
    (decide (15 ≤ d ∧ d ≤ 18) && !m.is (QDR_ACT_PARKED (d - 15))) ||
    ((d == 4 || d == 20 || d == 29) && (allFin 4).any fun a => !m.is (QDR_ACT_PARKED a.val))

/-- CLK_GATE_WRITE (R372): CLK_GATE0 or CLK_GATE1 is written; closed domains stop, reopened ones ask for their clock-good. -/
def clkGateWrite (req : Requester) (half : Fin 2) (w : Word) (m : Mach) : Mach :=
  let lo := 32 * half.val
  let n := if half = 0 then 32 else 8
  let ds := (List.range n).map (lo + ·)
  let want (d : Nat) : Bool := w.getLsbD (d - lo)
  let closing := ds.filter fun d => m.gateOpen d && !want d
  let opening := ds.filter fun d => !m.gateOpen d && want d
  if closing.any fun d => m.closureRefused req d then m.flagEvent CLK_ERR_GATE (32 * 33)
  else
    let m := if half = 0 then m.set CLK_GATE0_OPEN w.toNat else m.set CLK_GATE1_OPEN (w.toNat % 256)
    let m := closing.foldl (fun m d => m.setGood d false) m
    m.setRst fun r => { r with
      waiting := (r.waiting.filter fun d => !closing.contains d.val) ++ opening.map fun d => Fin.ofNat 40 d }

/-! ### Sleep and wake (R308, R384, Table 16-8) -/

/-- The sleep condition (R308). -/
def Mach.sleepReady (m : Mach) : Bool :=
  let down (p : PortId) : Bool := m.host.ctrls[p].shst == 2 && m.host.ports[p].d3hot
  m.mode == 7 && m.is PWR_FLEET_SLEEP_EN && down 0 && (!m.dual || down 1)

/-- SLEEP_ENTRY (R239, R308, R384): the blocks of the buffer act, the LPDDR5X enters self-refresh, every gate but AON's
closes, and VCORE, VSRAM, VANA, VDDQ and the preamplifier rails go off. -/
def sleepEntry (m : Mach) : Mach :=
  if !m.sleepReady then m
  else
    let m := m.bufSleep.setBuf fun b => { b with vsramOff := true }
    let m := ((m.set CLK_GOOD0_GOOD 0).set CLK_GOOD1_GOOD 0x80).set CLK_STAT_RPLL_LOCK 0
    let m := (m.setDie fun d => { d with paOff := Vector.replicate 4 true }).set PWR_RAILS_GOOD 0xB8
    let m := (m.linkOff 0).linkOff 1
    (m.setRst fun r => { r with coresUp := false, pllOn := false, waiting := [] }).enterMode 8

/-- Class-S fields and the state that stands with them return to their reset values at wake (R384, R385). -/
def Mach.wakeFields (m : Mach) : Mach :=
  let m := { m with regs := resetFields (fun f => f.cls == RstClass.S) (fun _ => true) m.regs }
  { m with
    cal := Caller.initial, dma := DmaState.initial, spn := Spindle.initial
    media := { MediaState.initial with moved := m.media.moved, torn := m.media.torn }
    motion := { MotionState.initial with
      srv := m.motion.srv.map fun s => { SrvState.initial with faulted := s.faulted }
      faultTimes := m.motion.faultTimes, lastFault := m.motion.lastFault, depop := m.motion.depop
      headDepop := m.motion.headDepop, depopDue := m.motion.depopDue, tables := m.motion.tables, tdgTemp := m.motion.tdgTemp }
    buf := { m.buf with
      cache := SysCache.initial, scrub := none, selfRef := false, vsramOff := false, frees := []
      pools := m.buf.pools.map fun p => { p with moving := none }
      mem := { m.buf.mem with pages := ⟨true, []⟩ } }
    eng := EngState.initial
    cmd := { m.cmd with specs := [] } }

/-- WAKE (R384, Table 16-8): PERST# of a port deasserts (`perst`), or a lane leaves electrical idle. Rails and clocks start,
BC verifies the active bundle, loads the stores and reapplies class-S fields; a failure requests a software reset; Ibzin
goes on in M7. -/
def wake (p : PortId) (perst : Bool) (m : Mach) : Mach :=
  if m.mode ≠ 8 ∨ m.rst.entering then m
  else
    let m := m.when perst fun m => m.setPort p fun h => { h with perst := false }
    let m := m.wakeFields.set PWR_RAILS_GOOD 0xFF
    let m := ((m.set CLK_GOOD0_GOOD (m.get CLK_GATE0_OPEN)).set CLK_GOOD1_GOOD (m.get CLK_GATE1_OPEN ||| 0x80)).set
      CLK_STAT_RPLL_LOCK 1
    let m := (m.setRst fun r => { r with pllOn := true }).firstFigure
    let slot := m.get SEC_BOOT_ACTIVE
    if slot ≠ 1 ∧ m.slotVerdict slot ≠ 0 then m.softReset
    else
      let m := match m.slotBundle slot with
        | some b => ((m.loadStores b).applyConfig b (fun f => f.cls == RstClass.S) fun _ => true).startFigures b
        | none => m
      let m := m.startSeqs.setRst fun r => { r with coresUp := true }
      let m := m.ibzinStart.applyCap.setLimit
      m.enterMode 7

end Sys2Proof.Machine
end

