-- ==== Sys2Proof/Machine/BlockReset.lean ====
section
/-! DEFINITION. Block resets (R382, R383, Table 16-7) and the preamplifier rails (R394). -/
namespace Sys2Proof.Machine

/-- BLOCK_RESET_CHN (R80). -/
def blockResetChn (n : Stream) (m : Mach) : Mach := m.blockReset n.val (m.chanIdle n) fun m => m.clearChan n

/-- BLOCK_RESET_LAD (R135, R383). -/
def blockResetLad (a : Actuator) (m : Mach) : Mach := m.blockReset (16 + a.val) (m.ladIdle a) fun m => m.clearLad a

/-- BLOCK_RESET_SRV (R163). -/
def blockResetSrv (a : Actuator) (m : Mach) : Mach := m.blockReset (20 + a.val) (m.srvIdle a) fun m => m.clearSrv a

/-- BLOCK_RESET_HSQ (R383, Table 16-7). -/
def blockResetHsq (a : Actuator) (m : Mach) : Mach :=
  m.blockReset (24 + a.val) (!m.is (HSQ_CTRL_EN a.val) && !m.gateUp a) fun m => m.clearHsq a

/-- BLOCK_RESET_DEC (R80). -/
def blockResetDec (m : Mach) : Mach := m.blockReset 28 (!m.is DEC_BUSY_ENG) Mach.clearDec

/-- BLOCK_RESET_PRG (R163). -/
def blockResetPrg (m : Mach) : Mach := m.blockReset 29 m.prgIdle Mach.clearPrg

/-- BLOCK_RESET_QDR (Table 16-7). -/
def blockResetQdr (m : Mach) : Mach := m.blockReset 30 (!m.is QDR_CTRL_EN && !m.is QDR_TORQ_TOTAL) Mach.clearQdr

/-- BLOCK_RESET_SPN (R211). -/
def blockResetSpn (m : Mach) : Mach := m.blockReset 32 m.spnIdle Mach.clearSpn

/-- BLOCK_RESET_VCM (R211). -/
def blockResetVcm (m : Mach) : Mach := m.blockReset 33 m.allParked Mach.clearVcm

/-- BLOCK_RESET_POOL (R240). -/
def blockResetPool (m : Mach) : Mach := m.blockReset 34 ((allFin 8).all fun p => !m.is (POOL_CFG_EN p.val)) Mach.clearPools

/-- BLOCK_RESET_CCH (R240). -/
def blockResetCch (m : Mach) : Mach := m.blockReset 35 (!m.is CCH_CTRL_EN && !m.is CCH_MOP_STAT_BUSY) Mach.clearCache

/-- BLOCK_RESET_SCB (R240). -/
def blockResetScb (m : Mach) : Mach := m.blockReset 36 (!m.is SCB_STAT_BUSY) Mach.clearScrub

/-- BLOCK_RESET_DMA (R255). -/
def blockResetDma (m : Mach) : Mach :=
  m.blockReset 37 (!m.is DMA_CTRL_EN && m.dma.chans.all (·.isNone)) Mach.clearDma

/-- BLOCK_RESET_QSQ (R383, Table 16-7): no command is held, so nothing else needs clearing. -/
def blockResetQsq (m : Mach) : Mach :=
  let idle := !m.is QSQ_CTRL_FETCH_EN0 && !m.is QSQ_CTRL_FETCH_EN1 && !m.is QSQ_STAT_BUSY && !m.is QSQ_STAT_INFLIGHT0 &&
    !m.is QSQ_STAT_INFLIGHT1 && m.cmd.table.isEmpty
  m.blockReset 38 idle fun m => { m with host := { m.host with grants := Vector.replicate 4 none } }

/-- BLOCK_RESET_RELEASE (R337, R369, R382): after 16 cycles of its domain the block is released once its clock is good, and BC
reapplies the configuration's RWL fields of the block; until then its release waits. -/
def blockResetRelease (b : Fin 39) (m : Mach) : Mach :=
  if !m.blockBusy b.val then m
  else if m.clockGood (blockDomain b.val) then
    let m := m.setBlockBusy b.val false
    match m.sec.active with
    | some x => m.applyConfig x (fun f => f.acc == Access.rwl && (f.cls == RstClass.B || f.cls == RstClass.S)) (inBlock b.val)
    | none => m
  else
    let d : Domain := Fin.ofNat 40 (blockDomain b.val)
    if m.rst.waiting.contains d then m else m.setRst fun r => { r with waiting := r.waiting ++ [d] }

/-- PREAMP_RAIL_LIMIT (R394): both rails of the actuator are switched off, and its PA_FAULT_N input is held low, which drops the
write-safe flag. -/
def preampRailLimit (a : Actuator) (m : Mach) : Mach :=
  if m.die.paOff[a] then m
  else
    let m := m.setDie fun d => { d with paOff := d.paOff.set a true }
    let m := (m.setBitAt PWR_RAILS_GOOD (8 + a.val) false).setBitAt PWR_RAILS_GOOD (12 + a.val) false
    paFaultAssert a (m.report (Mach.actSource a 14))

end Sys2Proof.Machine
end

