-- ==== Sys2Proof/Machine/Operands.lean ====
section
/-! DEFINITION. The microword: its fields, its check code, its operands, and the words that are illegal
(R355, R356, R360, Tables 15-3 to 15-8). -/
namespace Sys2Proof.Machine

/-! ### The check code (R356) -/

/-- Each bit of a microword with its code position: data bits 0–119 in ascending order on the positions that are no power of
two, CHECK[k] on position 2ᵏ, and CHECK[7] on none. -/
def bitPositions : List (Nat × Nat) :=
  (List.range 120).zip ((List.range 128).filter fun p => !([0, 1, 2, 4, 8, 16, 32, 64].contains p)) ++
    (List.range 7).map (fun k => (120 + k, 2 ^ k)) ++ [(127, 0)]

/-- The positions of the bits that are 1, added without carry: 0 when CHECK[6:0] agrees with the data. -/
def checkSyndrome (w : BitVec 128) : Nat :=
  bitPositions.foldl (fun s p => if w.getLsbD p.1 then s ^^^ p.2 else s) 0

/-- The parity of all 128 bits is odd. -/
def oddParity (w : BitVec 128) : Bool := bitPositions.foldl (fun s p => s != w.getLsbD p.1) false

/-- The check bits that Jorsa gives to the data of a microword. -/
def sealMicro (data : BitVec 120) : BitVec 128 :=
  let d : BitVec 128 := data.zeroExtend 128
  let w := d ||| (BitVec.ofNat 128 (checkSyndrome d) <<< 120)
  if oddParity w then w ||| (1 <<< 127) else w

/-- What a fetch reads: a good word, a word with one bit corrected, or a double-bit error. -/
inductive Fetched where
  | good (w : BitVec 128)
  | corrected (w : BitVec 128)
  | double
  deriving DecidableEq, Repr

/-- The fetch of a stored word (R356). -/
def fetchWord (w : BitVec 128) : Fetched :=
  let s := checkSyndrome w
  if oddParity w then
    match bitPositions.find? (·.2 == s) with
    | some p => .corrected (w ^^^ (1 <<< p.1))
    | none => .corrected w
  else if s = 0 then .good w
  else .double

/-! ### The fields (Table 15-3) -/

/-- The fields of a microword. -/
structure Micro where
  next  : Nat
  btgt  : Nat
  cond  : Nat
  cinv  : Bool
  wait  : Bool
  cls   : Fin 16
  fop   : Nat
  blen  : Fin 8
  areg  : Gp
  alu   : Nat
  dst   : Gp
  srca  : Gp
  srcb  : Gp
  bimm  : Bool
  imm   : BitVec 16
  xop   : Nat
  xreg  : Gp
  loop  : Nat
  idle  : Bool
  /-- Bits 119:99. -/
  rsvd  : Nat
  deriving DecidableEq, Repr

/-- The fields of a word. -/
def microOf (w : BitVec 128) : Micro where
  next := bitsAt w 0 12
  btgt := bitsAt w 12 12
  cond := bitsAt w 24 6
  cinv := w.getLsbD 30
  wait := w.getLsbD 31
  cls := Fin.ofNat 16 (bitsAt w 32 4)
  fop := bitsAt w 36 3
  blen := Fin.ofNat 8 (bitsAt w 39 3)
  areg := Fin.ofNat 32 (bitsAt w 42 5)
  alu := bitsAt w 47 4
  dst := Fin.ofNat 32 (bitsAt w 51 5)
  srca := Fin.ofNat 32 (bitsAt w 56 5)
  srcb := Fin.ofNat 32 (bitsAt w 61 5)
  bimm := w.getLsbD 66
  imm := w.extractLsb' 67 16
  xop := bitsAt w 83 8
  xreg := Fin.ofNat 32 (bitsAt w 91 5)
  loop := bitsAt w 96 2
  idle := w.getLsbD 98
  rsvd := bitsAt w 99 21

/-- Operand B: register SRCB, or IMM sign-extended. -/
def Micro.operandB (u : Micro) (srcb : Word) : Word := if u.bimm then u.imm.signExtend 32 else srcb

/-! ### What a word does, and illegal words -/

/-- The row of the operation table that a word belongs to: its primitive, else its FOP, else its ALU operation. -/
inductive WordKind where
  | nop | alu (op : Nat) | fop (op : Nat) | xop (op : Nat)
  deriving DecidableEq, Repr

/-- The kind of a word. -/
def Micro.kind (u : Micro) : WordKind :=
  if u.xop ≠ 0 then .xop u.xop else if u.fop ≠ 0 then .fop u.fop else if u.alu ≠ 0 then .alu u.alu else .nop

/-- The condition is listed for the kind of sequencer (Table 15-5). -/
def condLegal (k : SeqKind) (c : Nat) : Bool :=
  c ≤ 8 || (decide (16 ≤ c) && decide (c ≤ match k with
    | .fs => 23
    | .ls => 21
    | .qs => 20
    | .hs => 20))

/-- The primitive is listed for the kind of sequencer (Table 15-6); XREG 31 is illegal for MBREQ. -/
def xopLegal (k : SeqKind) (x : Nat) (xreg : Gp) : Bool :=
  (x ≤ 3 && !(x == 1 && xreg == 31)) || (decide (16 ≤ x) && decide (x ≤ match k with
    | .fs => 20
    | .ls => 20
    | .qs => 18
    | .hs => 19))

/-- The halt cause of a fetched word apart from cause 2, or 0 (Table 15-8): `areg` is GP[AREG], `b` operand B, `out` an
outstanding FOP. -/
def Micro.illegal (u : Micro) (k : SeqKind) (areg b : Word) (out : Bool) : Nat :=
  if u.rsvd ≠ 0 then 3
  else if 3 ≤ u.fop ∨ (u.fop ≠ 0 ∧ 7 < areg.toNat % 8 + u.blen.val) then 4
  else if 14 ≤ u.alu ∨ (u.alu = 13 ∧ 0xF000 ≤ 4 * b.toNat) then 5
  else if !condLegal k u.cond then 6
  else if !xopLegal k u.xop u.xreg then 7
  else if u.xop = 1 ∧ out then 8
  else 0

end Sys2Proof.Machine
end

