-- ==== Sys2Proof/Machine/Swap.lean ====
section
/-! DEFINITION. The registers of the control stores and dispatch tables: loading, starting and swapping (R362–R364). -/
namespace Sys2Proof.Machine

namespace Mach

/-- The stored word at a sequencer's address. -/
def storedWord (m : Mach) (q : SeqId) : BitVec 128 := m.storeWord q (m.csBank q) (m.get (SEQ_STAT_ADDR q.val))

/-- The word that a sequencer acts on, corrected. -/
def currentWord (m : Mach) (q : SeqId) : Micro :=
  match fetchWord (m.storedWord q) with
  | .good w => microOf w
  | .corrected w => microOf w
  | .double => microOf 0

/-- The last MBREQ of a sequencer has ended. -/
def mbEnded (m : Mach) (q : SeqId) : Bool :=
  match m.eng.seqs[q].mb with
  | some b => !m.is (POOL_MBSTAT_BUSY b.val)
  | none => true

/-- A running sequencer waits on a word with IDLE = 1, and its FOP and MBREQ have ended (R363). -/
def atQuietWord (m : Mach) (q : SeqId) : Bool :=
  let s := m.eng.seqs[q]
  m.is (SEQ_CTRL_RUN q.val) && s.held && s.fop.isNone && m.mbEnded q && (m.currentWord q).idle

/-- A sequencer is idle (R363). -/
def seqIdle (m : Mach) (q : SeqId) : Bool := !m.is (SEQ_CTRL_RUN q.val) || m.atQuietWord q

/-- The word of 128 bits that SEQ_CSDATA0–3 hold, with `w3` as the fourth. -/
def csData (m : Mach) (q : SeqId) (w3 : Word) : BitVec 128 :=
  w3 ++ m.word (REG_SEQ_CSDATA q.val 2) ++ m.word (REG_SEQ_CSDATA q.val 1) ++ m.word (REG_SEQ_CSDATA q.val 0)

/-- The activation without reset that the swap serves goes on: Ibzin clears FREEZE, sets FETCH_EN, and the commit completes
(R284). -/
def resumeActivation (m : Mach) : Mach :=
  match m.cmd.quiet with
  | none => m
  | some (fsn, slot) =>
    let m := calFreeze false m
    let m := (m.set QSQ_CTRL_FETCH_EN0 1).set QSQ_CTRL_FETCH_EN1 1
    let m := { m with sec := { m.sec with
      active := (match m.slotBundle slot with
        | some b => some b
        | none => m.sec.active)
      svnDue := true, flash := { m.sec.flash with active := slot, pending := none } } }
    ((m.set SEC_BOOT_ACTIVE slot).setCmdState fun c => { c with quiet := none }).finish fsn stOk

end Mach

/-- SEQ_CSDATA_WRITE (R362): a write of SEQ_CSDATAk; that of SEQ_CSDATA3 stores the four words into the shadow bank at ADDR,
which AUTOINC then advances, wrapping at the store size. -/
def seqCsdataWrite (req : Requester) (q : SeqId) (k : Fin 4) (w : Word) (m : Mach) : Mach :=
  if req ≠ .bc then m.notBc
  else if k ≠ 3 then m.setWord (REG_SEQ_CSDATA q.val k.val) w
  else
    let a := m.get (SEQ_CSADDR_ADDR q.val)
    let m := (m.putStore q a (m.csData q w)).setWord (REG_SEQ_CSDATA q.val 3) w
    m.when (m.is (SEQ_CSADDR_AUTOINC q.val)) fun m => m.set (SEQ_CSADDR_ADDR q.val) ((a + 1) % storeSize q)

/-- QSQ_DTDATA_WRITE (R362): the shadow entry at QSQ_DTADDR is loaded and checked. -/
def qsqDtdataWrite (req : Requester) (w : Word) (m : Mach) : Mach :=
  if req ≠ .bc then m.notBc
  else (m.putEntry (m.get QSQ_DTADDR_TABLE) (m.get QSQ_DTADDR_OPC) w).setWord REG_QSQ_DTDATA w

/-- SEQ_RUN_WRITE (R362): BC starts a sequencer at address 0; a write of 0 is ignored. -/
def seqRunWrite (req : Requester) (q : SeqId) (run : Bool) (m : Mach) : Mach :=
  if req ≠ .bc then m.notBc
  else if run && !m.is (SEQ_CTRL_RUN q.val) then (m.set (SEQ_CTRL_RUN q.val) 1).restartSeq q
  else m

/-- QSQ_CSSWAP (R284, R363, R364): the swap, refused while a sequencer is not idle, or one runs and the fabric is not
frozen. -/
def qsqCsswap (m : Mach) : Mach :=
  let running := (allFin 20).any fun q => m.is (SEQ_CTRL_RUN q.val)
  if ((allFin 20).all fun q => m.seqIdle q) && (!running || m.is CAL_STATUS_FROZEN) then
    (m.flipBanks.set QSQ_CSSWAP_BUSY 1).resumeActivation
  else m.flagEvent QSQ_CSSWAP_ERR 141

/-- SWAP_BUSY_END (R364): 2,400 F-SEQ cycles after a swap. -/
def swapBusyEnd (m : Mach) : Mach := m.set QSQ_CSSWAP_BUSY 0

end Sys2Proof.Machine
end

