-- ==== Sys2Proof/Machine/Bus.lean ====
section
/-! DEFINITION. The register space (spec/19_register_space.md): reads, writes by access type, and the registers whose
writes have a behaviour of their own (R421–R426). -/
namespace Sys2Proof.Machine

/-! ### Reads (R421, R424) -/

/-- The clock domain of the window of an address and its bit of Table 16-7 (64 where it has none). Windows of clocks,
resets, fuses, the host link and the power manager need no domain of their own. -/
def windowBlock (a : Nat) : Option (Nat × Nat) :=
  match (List.range 39).find? fun b => b != 31 && inBlock b a with
  | some b => some (blockDomain b, b)
  | none =>
    if 0x40030000 ≤ a ∧ a < 0x40040000 ∨ 0x40600000 ≤ a ∧ a < 0x40610000 then some (27, 64)
    else if 0x40040000 ≤ a ∧ a < 0x40060000 then some (8, 64)
    else if 0x40070000 ≤ a ∧ a < 0x40080000 then some (10, 64)
    else if 0x40500000 ≤ a ∧ a < 0x40520000 then some (26, 64)
    else none

/-- The index of `a` in a set of `n` registers from `base` on at distance `step`. -/
def indexAt (base step n a : Nat) : Option (Fin n) :=
  if h : base ≤ a ∧ (a - base) % step = 0 ∧ (a - base) / step < n then some ⟨(a - base) / step, h.2.2⟩ else none

/-- The sequencer whose register set holds `a`, with the offset there. -/
def seqAt (a : Nat) : Option (SeqId × Nat) :=
  ((allFin 20).find? fun q => decide (seqBase q.val ≤ a) && decide (a < seqBase q.val + 0x24)).map
    fun q => (q, a - seqBase q.val)

namespace Mach

/-- Bits 32k+31:32k of a word of a control store. -/
def csRead (m : Mach) (q : SeqId) (k : Nat) : Word :=
  let bank : Fin 2 := if m.is (SEQ_CSADDR_RBANK q.val) then m.csBank q else 1 - m.csBank q
  (m.storeWord q bank (m.get (SEQ_CSADDR_ADDR q.val))).extractLsb' (32 * k) 32

/-- The dispatch entry at QSQ_DTADDR. -/
def dtRead (m : Mach) : Word :=
  let bank : Fin 2 := if m.is QSQ_DTADDR_RBANK then m.dtBank else 1 - m.dtBank
  getPair 0 (m.get QSQ_DTADDR_TABLE * 256 + m.get QSQ_DTADDR_OPC) m.eng.tables[bank]

/-- FAB_STATUS with the age of the oldest burst in flight, in units of 64 F-FAB cycles (spec/02, Registers). -/
def fabStatus (m : Mach) : Word :=
  setBits (m.word REG_FAB_STATUS) 16 16 (match m.cal.flights with
    | f :: _ => min 65535 ((m.clock - f.since) / 512)
    | [] => 0)

/-- The value that a read of a register address returns (R421, R424); no read changes any state. -/
def busRead (m : Mach) (a : Nat) : Word :=
  let held := match windowBlock a with
    | some (_, b) => decide (b < 64) && m.blockBusy b
    | none => false
  if held then resetWord a
  else if a = REG_SEC_BOOT ∧ ¬ m.is SEC_BOOT_VALID then 0
  else if a = REG_QSQ_DTDATA then m.dtRead
  else if a = REG_FAB_STATUS then m.fabStatus
  else if a = REG_QDR_COEF then m.qdrCoefRead
  else if (indexAt (REG_HSQ_FAULT 0) 0x10000 4 a).isSome then
    (if (m.word a).getLsbD 0 then setBits (m.word a) 0 1 m.free else m.word a)
  else if a = REG_DEC_BUSY then m.decBusyRead
  else if let some e := indexAt (REG_DEC_ENG 0) 4 12 a then m.decEngRead e
  else if let some n := indexAt (REG_CHN_CDATA 0) 0x10000 8 a then
    BitVec.ofNat 32 (m.media.chan[n].coefAt (m.get (CHN_CADDR_ADDR n.val)))
  else match seqAt a with
    | some (q, o) =>
      if 0x14 ≤ o then m.csRead q ((o - 0x14) / 4)
      else if o = 4 then setBits (m.word a) 16 1 (bitNat (m.atQuietWord q))
      else m.word a
    | none => m.word a

/-! ### Writes by access type (R423, Table 19-2) -/

/-- The word that a register holds after a write of `w`, field by field: RWL fields only while they are not sealed, or
from BC. -/
def writtenWord (m : Mach) (bc : Bool) (fs : List FieldRow) (old w : Word) : Word :=
  fs.foldl (fun x f =>
    let v := getBits w f.lo f.w
    match f.acc with
    | .rw => setBits x f.lo f.w v
    | .rws => setBits x f.lo f.w v
    | .rwl => if bc || !m.is SEC_SEAL_SEALED then setBits x f.lo f.w v else x
    | .w1c => x &&& ~~~((BitVec.ofNat 32 v) <<< f.lo)
    | .ro => x
    | .wo => x) old

/-- A write of a register without behaviour of its own. -/
def plainWrite (m : Mach) (bc : Bool) (a : Nat) (w : Word) : Mach :=
  match findReg a regBlocks with
  | some (r, _) => m.setWord a (m.writtenWord bc r.fields (m.word a) w)
  | none => m

/-- `w` with a field replaced by the value the machine holds there, so that a plain write leaves that field alone. -/
def keep (m : Mach) (l : Loc) (w : Word) : Word := setBits w l.lo l.w (m.get l)

/-- A first-fault latch whose VALID a write clears reads 0 in every field. -/
def clearLatch (m : Mach) (valid : Loc) (others : List Nat) (w : Word) : Mach :=
  if getBits w valid.lo 1 = 1 then ((valid.addr :: others)).foldl (fun (m : Mach) a => m.setWord a 0) m else m

end Mach

/-! ### The registers with a behaviour of their own -/

/-- CAL_CTRL, CAL_BACK: SWAP_CANCEL overrides SWAP (R44). -/
def routeCal (a : Nat) (w : Word) (m : Mach) : Option Mach :=
  if a = REG_CAL_CTRL then
    let m := calFreeze (w.getLsbD 0) m
    some (if w.getLsbD 2 then calSwapCancel m else if w.getLsbD 1 then calSwap m else m)
  else (indexAt (REG_CAL_BACK 0) 4 16 a).map fun n => calBackWrite n w m

/-- Lanes that AFE_EN switches: their status reads 0 until they are ready (R50). -/
def Mach.afeEnWrite (m : Mach) (w : Word) : Mach :=
  let old := m.get AFE_EN_LANE_EN
  let new := getBits w 0 16
  let m := m.set AFE_EN_LANE_EN new
  (allFin 16).foldl (fun (m : Mach) (l : Lane) =>
    if old.testBit l.val = new.testBit l.val then m
    else { m.setWord (REG_AFE_LANE_STAT l.val) 0 with
      media := { m.media with lanes := m.media.lanes.set l ⟨.off, 0⟩ } }) m

/-- A lane that is ready holds VGA_MAN while AGC_EN is 0 (R51). -/
def Mach.holdGain (m : Mach) (l : Lane) : Mach :=
  if m.is (AFE_LANE_STAT_READY l.val) && !m.is (AFE_LANE_CFG_AGC_EN l.val) then
    m.set (AFE_LANE_STAT_VGA l.val) (m.get (AFE_LANE_CFG_VGA_MAN l.val))
  else m

/-- CHN, AFE and DEC. -/
def routeChannel (bc : Bool) (a : Nat) (w : Word) (m : Mach) : Option Mach :=
  if a = REG_AFE_EN then some (m.afeEnWrite w)
  else if let some l := indexAt (REG_AFE_LANE_CFG 0) 4 16 a then some ((m.plainWrite bc a w).holdGain l)
  else if a = REG_DEC_CNTCLR then some (if w.getLsbD 0 then decCntclr m else m)
  else match indexAt (REG_CHN_CTRL 0) 0x10000 8 a with
    | some n => some (chnEnWrite n (w.getLsbD 0) (m.plainWrite bc a (m.keep (CHN_CTRL_EN n.val) w)))
    | none =>
      match indexAt (REG_CHN_CDATA 0) 0x10000 8 a with
      | some n => some (chnCdataWrite n (w.extractLsb' 0 10) m)
      | none => (indexAt (REG_CHN_CNTCLR 0) 0x10000 8 a).map fun n => if w.getLsbD 0 then chnCntclr n m else m

/-- The stream whose rate or geometry the register at `a` holds (R89). -/
def geometryOf (a : Nat) : Option Stream :=
  (indexAt (REG_CHN_RATE 0) 0x10000 8 a).or <| (indexAt (REG_FMT_GEOM 0) 0x10000 8 a).or <|
    (indexAt (REG_FMT_SKEW 0) 0x10000 8 a).or (indexAt (REG_FMT_PRECOMP 0) 0x10000 8 a)

/-- FMT and LAD, and the rate of CHN, which takes effect with the geometry (R89). -/
def routeMedia (bc : Bool) (a : Nat) (w : Word) (m : Mach) : Option Mach :=
  if let some n := geometryOf a then some ((m.plainWrite bc a w).geometryWritten n) else
  match indexAt (REG_FMT_CTRL 0) 0x10000 8 a, indexAt (REG_FMT_CNTCLR 0) 0x10000 8 a with
  | some n, _ => some (fmtEnWrite n (w.getLsbD 0) m)
  | none, some n => some (if w.getLsbD 0 then fmtCntclr n m else m)
  | none, none =>
    match indexAt (REG_LAD_CTRL 0) 0x10000 4 a, indexAt (REG_LAD_START 0) 0x10000 4 a with
    | some x, _ => some (ladEnWrite x (w.getLsbD 0) m)
    | none, some x => some (ladStart x w m)
    | none, none =>
      match indexAt (REG_LAD_RAISE 0) 0x10000 4 a with
      | some x => some (ladRaise x w m)
      | none => (indexAt (REG_LAD_CNTCLR 0) 0x10000 4 a).map fun x => if w.getLsbD 0 then ladCntclr x m else m

/-- SRV_CFG: its other fields, and LEAD (R156). -/
def Mach.srvCfgWrite (m : Mach) (bc : Bool) (x : Actuator) (w : Word) : Mach :=
  let m := m.plainWrite bc (REG_SRV_CFG x.val) (m.keep (SRV_CFG_LEAD x.val) w)
  srvLeadWrite x (Fin.ofNat 2 (getBits w 0 1)) m

/-- SRV. -/
def routeServo (bc : Bool) (a : Nat) (w : Word) (m : Mach) : Option Mach :=
  if a < 0x40300000 ∨ 0x40340000 ≤ a then none
  else
    let x : Actuator := Fin.ofNat 4 ((a - 0x40300000) / 0x10000)
    match a % 0x10000 with
    | 0x00 => some (srvCtrlWrite x w m)
    | 0x04 => some (m.srvCfgWrite bc x w)
    | 0x20 => some (srvTargetWrite x 0 w m)
    | 0x24 => some (srvTargetWrite x 1 w m)
    | 0x4C => some (srvPost x (w.extractLsb' 0 8) (w.getLsbD 8) m)
    | 0x58 => some (srvRroLoad x 0 w m)
    | 0x5C => some (srvRroLoad x 1 w m)
    | _ => none

/-- QDR_ACT: QUAL and DEPOP act; HEAD_DEPOP and TDG are stored. -/
def Mach.qdrActWrite (m : Mach) (bc : Bool) (x : Actuator) (w : Word) : Mach :=
  let dep := m.is (QDR_ACT_DEPOP x.val)
  let m := m.plainWrite bc (REG_QDR_ACT x.val) (m.keep (QDR_ACT_DEPOP x.val) w)
  let m := { m with motion := { m.motion with headDepop := m.motion.headDepop.set x (m.get (QDR_ACT_HEAD_DEPOP x.val)) } }
  let m := m.when (w.getLsbD 1) (qualWrite x)
  m.when (w.getLsbD 2 != dep) (depopWrite x (w.getLsbD 2))

/-- PRG, QDR and HSQ. In one write of PRG_CMD, ABORT overrides START. -/
def routeMotion (bc : Bool) (a : Nat) (w : Word) (m : Mach) : Option Mach :=
  if a = REG_QDR_CTRL then some (qdrBankWrite w m)
  else if a = REG_QDR_COEF then some (qdrCoefWrite w m)
  else match indexAt (REG_PRG_CMD 0) 0x40 4 a with
    | some x => some (if w.getLsbD 1 then prgAbort x m else if w.getLsbD 0 then prgStart x m else m)
    | none =>
      match indexAt (REG_QDR_ACT 0) 4 4 a with
      | some x => some (m.qdrActWrite bc x w)
      | none =>
        (indexAt (REG_HSQ_CTRL 0) 0x10000 4 a).map fun x => (m.plainWrite bc a w).pumpLink x

/-- SPN_BRK: RBRK and ACK are stored, FAULT clears. -/
def Mach.spnBrkWrite (m : Mach) (bc : Bool) (w : Word) : Mach :=
  let m := (m.plainWrite bc REG_SPN_BRK (w &&& ~~~2)).demandAct
  if w.getLsbD 1 then spnBrkFaultClear m else m

/-- SPN_FAULT: the spindle stays in FAULT until the bit is cleared (R193). -/
def Mach.spnFaultWrite (m : Mach) (bc : Bool) (w : Word) : Mach :=
  let m := m.plainWrite bc REG_SPN_FAULT w
  if m.spnState = 8 ∧ m.word REG_SPN_FAULT = 0 then (m.spnEnter 0).demandAct else m

/-- SPN and VCM. -/
def routePower (bc : Bool) (a : Nat) (w : Word) (m : Mach) : Option Mach :=
  if a = REG_SPN_CTRL then some (spnCtrlWrite w m)
  else if a = REG_SPN_DEMAND then some (spnDemandWrite (w.extractLsb' 0 8) m)
  else if a = REG_SPN_BRK then some (m.spnBrkWrite bc w)
  else if a = REG_SPN_FAULT then some (m.spnFaultWrite bc w)
  else (indexAt (REG_VCM_CMD 0) 0x40 4 a).map fun x =>
    let m := m.when (w.getLsbD 0) (load x)
    m.when (w.getLsbD 1) (unload x)

/-- POOL_CFG: COUNT is stored only while EN is 0; then EN is written. -/
def Mach.poolCfgWrite (m : Mach) (bc : Bool) (p : PoolId) (w : Word) : Mach :=
  let m :=
    if m.is (POOL_CFG_EN p.val) then m else m.plainWrite bc (REG_POOL_CFG p.val) (m.keep (POOL_CFG_EN p.val) w)
  poolEnWrite p (w.getLsbD 0) m

/-- POOL. -/
def routePool (bc : Bool) (a : Nat) (w : Word) (m : Mach) : Option Mach :=
  if a = REG_POOL_FREE then some (poolFree (w.extractLsb' 0 24) m)
  else if a = REG_POOL_RETIRE then some (poolRetire (w.extractLsb' 0 24) m)
  else if a = REG_POOL_BANKRET0 then some (poolBankretWrite 0 w m)
  else if a = REG_POOL_BANKRET1 then some (poolBankretWrite 1 w m)
  else if a = REG_POOL_FIRST then some (m.clearLatch POOL_FIRST_VALID [] w)
  else match indexAt (REG_POOL_MB 0) 8 16 a with
    | some b => some (poolMbWrite b w m)
    | none =>
      if 0x40080000 ≤ a ∧ a < 0x40080200 then
        let p : PoolId := Fin.ofNat 8 ((a - 0x40080000) / 0x40)
        if a % 0x40 = 0 then some (m.poolCfgWrite bc p w)
        else if a % 0x40 ≤ 0x10 then some (if m.is (POOL_CFG_EN p.val) then m else m.plainWrite bc a w)
        else none
      else none

/-- CCH_MOP_CMD: OP, WAY and SET are stored, and GO starts the operation. -/
def Mach.mopCmdWrite (m : Mach) (bc : Bool) (w : Word) : Mach :=
  let m := m.plainWrite bc REG_CCH_MOP_CMD w
  let set : Fin 32768 := Fin.ofNat 32768 (getBits w 8 15)
  let way : Fin 16 := Fin.ofNat 16 (getBits w 4 4)
  if !w.getLsbD 3 then m
  else match getBits w 0 3 with
    | 1 => mopCleanRange m
    | 2 => mopInvalidateRange m
    | 3 => mopCleanInvalidateRange m
    | 4 => mopCleanSetWay set way m
    | 5 => mopInvalidateSetWay set way m
    | 6 => mopCleanInvalidateSetWay set way m
    | 7 => mopCleanInvalidateAll m
    | _ => m

/-- BUF, CCH and SCB. In one write of SCB_CMD, GO comes before ABORT. -/
def routeBuffer (bc : Bool) (a : Nat) (w : Word) (m : Mach) : Option Mach :=
  if a = REG_BUF_FIRST then some (m.clearLatch BUF_FIRST_VALID [] w)
  else if a = REG_CCH_CTRL then some (cchEnWrite (w.getLsbD 0) m)
  else if a = REG_CCH_MOP_CMD then some (m.mopCmdWrite bc w)
  else if a = REG_CCH_ERRLOC then some (m.clearLatch CCH_ERRLOC_VALID [] w)
  else if a = REG_SCB_CMD then some ((m.when (w.getLsbD 0) scbGo).when (w.getLsbD 1) scbAbort)
  else none

/-- DMA_CH_CFG: PRIO is written only while the channel is idle. -/
def Mach.chCfgWrite (m : Mach) (bc : Bool) (n : DmaCh) (w : Word) : Mach :=
  if m.dma.chans[n].isNone then m.plainWrite bc (REG_DMA_CH_CFG n.val) w
  else
    let moved := getBits w 1 2 != m.get (DMA_CH_CFG_PRIO n.val)
    let m := m.plainWrite bc (REG_DMA_CH_CFG n.val) (m.keep (DMA_CH_CFG_PRIO n.val) w)
    m.when moved (·.flagEvent DMA_ERR_CTRL_IGN 117)

/-- DMA. In one write of DMA_CH_CTRL, ABORT overrides RETRY. -/
def routeDma (bc : Bool) (a : Nat) (w : Word) (m : Mach) : Option Mach :=
  if a = REG_DMA_CTRL then some (dmaBlockWrite (w.getLsbD 1) (w.getLsbD 2) (dmaEnWrite (w.getLsbD 0) m))
  else match indexAt (REG_DMA_CH_CFG 0) 0x20 16 a with
    | some n => some (m.chCfgWrite bc n w)
    | none =>
      match indexAt (REG_DMA_CH_CTRL 0) 0x20 16 a with
      | some n => some (if w.getLsbD 0 then dmaChAbort n m else if w.getLsbD 1 then dmaChRetry n m else m)
      | none =>
        (indexAt (REG_DMA_CH_HALT 0) 0x20 16 a).map fun n =>
          m.clearLatch (DMA_CH_HALT_VALID n.val) [REG_DMA_CH_ADDRLO n.val, REG_DMA_CH_ADDRHI n.val] w

/-- SEC_KEYCMD (R337, R340). -/
def Mach.keyCmdWrite (m : Mach) (req : Requester) (w : Word) : Mach :=
  let s : KeySlot := Fin.ofNat 32 (getBits w 4 5)
  match getBits w 0 4 with
  | 1 => keyLoadSlot req s m
  | 2 => keyClearSlot req s m
  | 3 => keyClearAll req m
  | _ => if req ≠ .bc then m.notBc else m.flagEvent SEC_ERR_KEYOP (32 * 32 + 4)

/-- SEC, DBG, HIF and QSQ. -/
def routeSecurity (req : Requester) (a : Nat) (w : Word) (m : Mach) : Option Mach :=
  if a = REG_SEC_SEAL then
    some (if req ≠ .bc then m.notBc else if w.getLsbD 0 then m.set SEC_SEAL_SEALED 1 else m)
  else if a = REG_SEC_KEYCMD then some (m.keyCmdWrite req w)
  else if a = REG_DBG_GRANT then some (if w.getLsbD 0 then dbgGrant m else if w.getLsbD 1 then dbgRefuse m else m)
  else if a = REG_HIF_CTRL then some (trainEnWrite (w.getLsbD 0) (w.getLsbD 1) m)
  else if a = REG_QSQ_CTRL then some (fetchEnWrite (w.getLsbD 0) (w.getLsbD 1) m)
  else none

/-- The control stores and dispatch tables: only BC writes them (R362). -/
def routeStores (req : Requester) (a : Nat) (w : Word) (m : Mach) : Option Mach :=
  let bc := req == .bc
  if a = REG_QSQ_DTADDR then some (if bc then m.plainWrite true a w else m.notBc)
  else if a = REG_QSQ_DTDATA then some (qsqDtdataWrite req w m)
  else if a = REG_QSQ_CSSWAP then
    let m := m.plainWrite bc a w
    some (if w.getLsbD 0 then qsqCsswap m else m)
  else match seqAt a with
    | none => none
    | some (q, o) =>
      if o = 0 then some (seqRunWrite req q (w.getLsbD 0) m)
      else if o = 0x10 then some (if bc then m.plainWrite true a w else m.notBc)
      else if 0x14 ≤ o then some (seqCsdataWrite req q (Fin.ofNat 4 ((o - 0x14) / 4)) w m)
      else none

/-- A block reset by its bit of Table 16-7. -/
def blockResetBit (b : Nat) (m : Mach) : Mach :=
  if b < 8 then blockResetChn (Fin.ofNat 8 b) m
  else if b < 16 then blockResetFmt (Fin.ofNat 8 (b - 8)) m
  else if b < 20 then blockResetLad (Fin.ofNat 4 (b - 16)) m
  else if b < 24 then blockResetSrv (Fin.ofNat 4 (b - 20)) m
  else if b < 28 then blockResetHsq (Fin.ofNat 4 (b - 24)) m
  else match b with
    | 28 => blockResetDec m
    | 29 => blockResetPrg m
    | 30 => blockResetQdr m
    | 32 => blockResetSpn m
    | 33 => blockResetVcm m
    | 34 => blockResetPool m
    | 35 => blockResetCch m
    | 36 => blockResetScb m
    | 37 => blockResetDma m
    | 38 => blockResetQsq m
    | _ => m

/-- CLK, RST and EVT, REC. -/
def routeSystem (req : Requester) (bc : Bool) (a : Nat) (w : Word) (m : Mach) : Option Mach :=
  let blocks (lo : Nat) : Mach :=
    (List.range 32).foldl (fun (m : Mach) b => if w.getLsbD b then blockResetBit (lo + b) m else m) m
  if a = REG_CLK_GATE0 then some (clkGateWrite req 0 w m)
  else if a = REG_CLK_GATE1 then some (clkGateWrite req 1 w m)
  else if a = REG_RST_SWRST then some (rstSwrstWrite req w m)
  else if a = REG_RST_BLKRST0 then some (blocks 0)
  else if a = REG_RST_BLKRST1 then some (blocks 32)
  else if a = REG_EVT_FIRST then some (if w.getLsbD 0 then evtFirstClear m else m)
  else if a = REG_EVT_CNTCLR then some (if w.getLsbD 0 then evtCntclr m else m)
  else if a = REG_EVT_LGR_BASE then some (if m.is EVT_LGR_CTRL_EN then m else m.plainWrite bc a w)
  else if a = REG_EVT_SWRAISE then some (evtSwraise (w.extractLsb' 0 5) m)
  else if a = REG_REC_CMD then
    some (match getBits w 0 2 with
      | 1 => recProgram m
      | 2 => recErase m
      | _ => m)
  else none

/-- The effect of a register write: the register's own behaviour, else its access types. -/
def Mach.writeRegister (m : Mach) (req : Requester) (a : Nat) (w : Word) : Mach :=
  let bc := req == .bc
  let routes : List (Option Mach) :=
    [ routeCal a w m, routeChannel bc a w m, routeMedia bc a w m, routeServo bc a w m, routeMotion bc a w m,
      routePower bc a w m, routePool bc a w m, routeBuffer bc a w m, routeDma bc a w m, routeSecurity req a w m,
      routeStores req a w m, routeSystem req bc a w m ]
  match routes.findSome? id with
  | some m' => m'
  | none => m.plainWrite bc a w

/-- A whole, aligned write through the register bus (R421, R422): a block whose clock stands or that is in reset takes no
write. -/
def Mach.busWrite (m : Mach) (req : Requester) (a : Nat) (w : Word) : Mach :=
  if a % 4 ≠ 0 ∨ (findReg a regBlocks).isNone then m
  else match windowBlock a with
    | some (d, b) => Mach.clocked d b (fun m => m.writeRegister req a w) m
    | none => m.writeRegister req a w

/-! ### The NVMe registers and configuration space (R263, Table 11-3) -/

/-- A write of a controller's NVMe register at an offset of BAR0. CC.EN and CC.SHN are written by rows of their own. -/
def Mach.bar0Write (m : Mach) (p : PortId) (o : Nat) (w : Word) : Mach :=
  let low (x : Nat) : Nat := x / 2 ^ 32 * 2 ^ 32 + w.toNat
  let high (x : Nat) : Nat := x % 2 ^ 32 + w.toNat * 2 ^ 32
  let put (f : Ctrl → Ctrl) : Mach := m.setCtrl p f
  match o with
  | 0x0C => put fun c => { c with intms := c.intms ||| w }
  | 0x10 => m.unmaskInt p w
  | 0x14 =>
    let keepBits : Word := 0xC001
    (put fun c => { c with cc := (c.cc &&& keepBits) ||| (w &&& ~~~keepBits) }).syncCtrl p
  | 0x1C => if w.getLsbD 4 then put fun c => { c with nssro := false } else m
  | 0x24 => put fun c => { c with aqa := w &&& 0x0FFF0FFF }
  | 0x28 => put fun c => { c with asq := low c.asq }
  | 0x2C => put fun c => { c with asq := high c.asq }
  | 0x30 => put fun c => { c with acq := low c.acq }
  | 0x34 => put fun c => { c with acq := high c.acq }
  | _ => m

/-- The word that a controller's NVMe registers hold at an offset of BAR0 (R263, Table 11-3); doorbells and every register
that the table does not name and NVMe Base 2.0 marks optional read 0. -/
def Mach.bar0Read (m : Mach) (p : PortId) (o : Nat) : Word :=
  let c := m.host.ctrls[p]
  match o with
  | 0x00 => BitVec.ofNat 32 (0xFFF + 2 ^ 16 + 2 ^ 17 + 20 * 2 ^ 24)
  | 0x04 => BitVec.ofNat 32 (2 ^ 4 + 2 ^ 5 + 2 ^ 11 + 3 * 2 ^ 20)
  | 0x08 => 0x00020000
  | 0x0C | 0x10 => c.intms
  | 0x14 => c.cc
  | 0x1C => BitVec.ofNat 32 (bitNat c.rdy + 2 * bitNat (m.cfs p) + 4 * c.shst + 16 * bitNat c.nssro)
  | 0x24 => c.aqa
  | 0x28 => BitVec.ofNat 32 c.asq
  | 0x2C => BitVec.ofNat 32 (c.asq / 2 ^ 32)
  | 0x30 => BitVec.ofNat 32 c.acq
  | 0x34 => BitVec.ofNat 32 (c.acq / 2 ^ 32)
  | _ => 0

/-- A write of a function's configuration space, at the offsets that PCI Express capabilities are presumed to have. -/
def Mach.configSpaceWrite (m : Mach) (p : PortId) (o : Nat) (w : Word) : Mach :=
  match o with
  | 0x50 => m.setPort p fun h => { h with msix := w.getLsbD 31 }
  | 0x78 => m.setPort p fun h =>
      { h with mps := min 512 (128 * 2 ^ getBits w 5 3), mrrs := min 4096 (128 * 2 ^ getBits w 12 3), errEn := getBits w 0 3 }
  | 0x98 => m.setPort p fun h => { h with cto := getBits w 0 4 }
  | 0x80 => m.setPort p fun h => { h with aspmL1 := w.getLsbD 1 }
  | 0x104 => m.setPort p fun h => { h with aerUnc := h.aerUnc &&& (2 ^ 32 - 1 - w.toNat) }
  | 0x108 => m.setPort p fun h => { h with uncMask := w.toNat }
  | 0x10C => m.setPort p fun h => { h with uncSev := w.toNat }
  | 0x110 => m.setPort p fun h => { h with aerCorr := h.aerCorr &&& (2 ^ 32 - 1 - w.toNat) }
  | 0x114 => m.setPort p fun h => { h with corrMask := w.toNat }
  | 0x1F8 => m.setPort p fun h =>
      { h with l12 := w.getLsbD 2, l11 := w.getLsbD 3, l12Thr := getBits w 16 10 * 32 ^ getBits w 29 3 }
  | _ => m

/-- The address lies in a block window (Table 19-1). -/
def inWindow (a : Nat) : Bool :=
  let s := a / 0x10000
  (0x4000 ≤ s && s ≤ 0x400B) || (0x4010 ≤ s && s ≤ 0x4019) || (0x4020 ≤ s && s ≤ 0x402B) || (0x4030 ≤ s && s ≤ 0x4039) ||
    (0x4040 ≤ s && s ≤ 0x4043) || (0x4050 ≤ s && s ≤ 0x4052) || s == 0x4060

/-- REGISTER_WRITE (R421–R423, R425): `len` bytes at an address by a requester; fewer than 4 bytes are ignored, and a core
that leaves every window takes a bus error. A write through BAR2 has a row of its own. -/
def registerWrite (req : Requester) (a : BitVec 32) (len : Fin 5) (w : Word) (m : Mach) : Mach :=
  let coreNumber : Option Nat := match req with
    | .bc => some 11
    | .core k => some k.val
    | _ => none
  if coreNumber.isSome ∧ ¬ inWindow a.toNat then m.emit (.busError (coreNumber.getD 0))
  else if len ≠ 4 then m
  else match req with
    | .bar2 => m
    | .bar0 p => if a.toNat % 4 = 0 then m.bar0Write p a.toNat w else m
    | .config p => if a.toNat % 4 = 0 then m.configSpaceWrite p a.toNat w else m
    | _ => Mach.watched (fun m => m.busWrite req a.toNat w) m

/-- The base of the block window of a mirror slot (Table 19-1). -/
def slotBase (s : Nat) : Option Nat :=
  if s < 12 then some (0x40000000 + 0x10000 * s)
  else if s < 20 then some (0x40100000 + 0x10000 * (s - 12))
  else if s < 22 then some (0x40180000 + 0x10000 * (s - 20))
  else if s < 30 then some (0x40200000 + 0x10000 * (s - 22))
  else if s < 34 then some (0x40280000 + 0x10000 * (s - 30))
  else if s < 44 then some (0x40300000 + 0x10000 * (s - 34))
  else if s < 48 then some (0x40400000 + 0x10000 * (s - 44))
  else if s < 51 then some (0x40500000 + 0x10000 * (s - 48))
  else if s = 51 then some 0x40600000
  else none

/-- BAR2_WRITE (R349, R422, R426): carried out only in M11 under REGS, at the register that the mirror shows there;
otherwise discarded without a change. -/
def bar2Write (o : BitVec 22) (len : Fin 5) (w : Word) (m : Mach) : Mach :=
  if len ≠ 4 ∨ ¬ m.bar2Open then m
  else match slotBase (o.toNat / 0x10000) with
    | some b => Mach.watched (fun m => m.busWrite .bar2 (b + o.toNat % 0x10000) w) m
    | none => m

end Sys2Proof.Machine
end

