-- ==== Sys2Proof/Machine/Flags.lean ====
section
/-! DEFINITION. The arithmetic of the sequencers: result and flags of each ALU operation (Table 15-4). -/
namespace Sys2Proof.Machine

/-- A result with its flags; `carry` is none where Table 15-4 does not say what CARRY becomes. -/
structure AluResult where
  value : Word
  carry : Option Bool
  deriving DecidableEq, Repr

/-- ZERO of a result. -/
def AluResult.zero (r : AluResult) : Bool := r.value == 0

/-- NEG of a result: its sign bit. -/
def AluResult.neg (r : AluResult) : Bool := r.value.msb

/-- A + B: CARRY is the carry out of bit 31. -/
def aluAdd (a b : Word) : AluResult := ⟨a + b, some (decide (2 ^ 32 ≤ a.toNat + b.toNat))⟩

/-- A − B: the table does not say whether CARRY is a carry or a borrow. -/
def aluSub (a b : Word) : AluResult := ⟨a - b, none⟩

/-- AND, OR, XOR and move: CARRY is 0. -/
def aluLogic (v : Word) : AluResult := ⟨v, some false⟩

/-- A shifted left by B mod 32: CARRY is the last bit shifted out; a shift by 0 shifts no bit out. -/
def aluShl (a b : Word) : AluResult :=
  let n := b.toNat % 32
  ⟨a <<< n, if n = 0 then none else some (a.getLsbD (32 - n))⟩

/-- A shifted logically right by B mod 32. -/
def aluShr (a b : Word) : AluResult :=
  let n := b.toNat % 32
  ⟨a >>> n, if n = 0 then none else some (a.getLsbD (n - 1))⟩

/-- The operations 1–9 of Table 15-4 on operands A and B. -/
def aluResult (op : Nat) (a b : Word) : AluResult :=
  match op with
  | 1 => aluAdd a b
  | 2 => aluSub a b
  | 3 => aluLogic (a &&& b)
  | 4 => aluLogic (a ||| b)
  | 5 => aluLogic (a ^^^ b)
  | 6 => aluShl a b
  | 7 => aluShr a b
  | 8 => aluLogic b
  | _ => aluSub a b

end Sys2Proof.Machine
end

