-- ==== Sys2Proof/Machine/Engine.lean ====
section
/-! DEFINITION. The sequencers: a word of the active control store is fetched, checked and carried out, with its branch or
wait (R354–R361). A row of the operation table carries out the word that the sequencer is on when the word is of that row's
kind; `inp` is the value of a condition input that stands in no state. -/
namespace Sys2Proof.Machine

/-- The clock domain of a sequencer (Table 16-1). -/
def seqDomain (q : SeqId) : Nat :=
  if q.val < 8 then 15 + q.val / 2 else if q.val < 12 then 7 + q.val else if q.val < 16 then 19 else q.val - 1

/-- The bit of the sequencer's block in Table 16-7. -/
def seqBlock (q : SeqId) : Nat :=
  if q.val < 12 then 8 + q.val else if q.val < 16 then 38 else 8 + q.val

/-- The base of the block that a sequencer reaches (Table 15-2). -/
def ownBase (q : SeqId) : Nat := blockBase (seqBlock q)

/-- The fabric port of a sequencer, less 25 (Table 15-2). -/
def seqPort (q : SeqId) : Fin 4 := if q.val < 8 then 0 else if q.val < 12 then 1 else if q.val < 16 then 2 else 3

namespace Mach

/-! ### Conditions (Table 15-5) -/

/-- Conditions 16–23 of FSn. -/
def condFS (m : Mach) (n : Stream) (c : Nat) : Bool :=
  match c with
  | 16 => m.is (FMT_CTRL_EN n.val) && m.get (FMT_RING_HEAD_HEAD n.val) != m.get (FMT_RING_TAIL_TAIL n.val)
  | 17 => m.is (FMT_STAT_TRACK_VALID n.val)
  | 18 => (m.freeSlotOf n).isSome
  | 19 => (match m.curItem n with
    | some i => (m.codewordOf n i.ring).isSome
    | none => false)
  | 20 => m.slotSafe (actOf n) (slotOf n) == 1
  | 21 => m.otherWrites n
  | 22 => m.media.fmt[n].inRun
  | 23 => (match m.media.fmt[n].items with
    | i :: _ => i.status.isSome
    | [] => false)
  | _ => false

/-- Conditions 16–21 of LSa. -/
def condLS (m : Mach) (a : Actuator) (c : Nat) (inp : Bool) : Bool :=
  match m.ladJob a, c with
  | some _, 16 => true
  | some j, 17 => j.attempts.any (·.result.isSome)
  | some j, 18 => j.capSlot.isSome
  | some j, 20 => !j.rebuilding
  | _, 19 => inp
  | _, 21 => m.ladRoom a
  | _, _ => false

/-- The entry that CHECK passed on has passed the overlap checker. -/
def entryChecked (m : Mach) (q : SeqId) : Bool :=
  match m.eng.seqs[q].checked with
  | none => false
  | some f => match m.command f with
    | some c => c.stage != .granted && c.stage != .fetched
    | none => true

/-- HOLDQ: the queue of the entry that CHECK passed on is halting, and a command before it is incomplete (R277). -/
def holdsQueue (m : Mach) (q : SeqId) : Bool :=
  match m.eng.seqs[q].checked with
  | none => false
  | some f => match m.command f with
    | some c => m.haltsOn c && m.cmd.table.any fun d => d.ctrl == c.ctrl && d.sqid == c.sqid && fsnBefore d.fsn c.fsn
    | none => false

/-- Conditions 16–20 of QSk. A grant is held until its entries arrive, so that ENTRIES is its absence. -/
def condQS (m : Mach) (k : Fin 4) (c : Nat) (inp : Bool) : Bool :=
  match c with
  | 16 => m.host.grants[k].isSome
  | 17 => m.host.grants[k].isNone
  | 18 => m.entryChecked (seqQS k)
  | 19 => inp
  | 20 => m.holdsQueue (seqQS k)
  | _ => false

/-- Conditions 16–20 of HSa. Nothing tells when PA_FAULT_N rises again, so that `inp` gives FAULTPIN after its first fall. -/
def condHS (m : Mach) (a : Actuator) (c : Nat) (inp : Bool) : Bool :=
  let h := m.motion.hsq[a]
  match c with
  | 16 => inp
  | 17 => h.due.isSome
  | 18 => h.frame.isNone && h.queued.isEmpty && h.blocked.isEmpty
  | 19 => m.is (HSQ_FAULT_PIN a.val) && inp
  | 20 => inp
  | _ => false

/-- The condition of a word, before CINV. -/
def seqCondition (m : Mach) (q : SeqId) (c : Nat) (inp : Bool) : Bool :=
  let s := m.eng.seqs[q]
  let mb (l : Nat → Loc) : Bool := match s.mb with
    | some b => m.is (l b.val)
    | none => false
  match c with
  | 0 => true
  | 1 => s.zero
  | 2 => s.neg
  | 3 => s.carry
  | 4 => s.lc == 0
  | 5 => s.fdone
  | 6 => s.ferr
  | 7 => mb POOL_MBSTAT_DONE
  | 8 => mb POOL_MBSTAT_ERR
  | _ => match seqKind q with
    | .fs => m.condFS (Fin.ofNat 8 q.val) c
    | .ls => m.condLS (Fin.ofNat 4 (q.val - 8)) c inp
    | .qs => m.condQS (Fin.ofNat 4 (q.val - 12)) c inp
    | .hs => m.condHS (Fin.ofNat 4 (q.val - 16)) c inp

/-! ### Halts (R360, R361) -/

/-- The owning block is made safe (R361): the write of a formatter's stream stops, the spec does not say after how many bits,
and its gate is lowered; a head sequencer lowers its gates and sends nothing more. -/
def makeSafe (m : Mach) (q : SeqId) : Mach :=
  match seqKind q with
  | .fs =>
    let n : Stream := Fin.ofNat 8 q.val
    let m := m.setHsq (actOf n) fun s =>
      { s with moments := s.moments.filter (·.slot != slotOf n), due := s.due.filter (·.slot != slotOf n) }
    (m.tear n m.free).nextFree
  | .hs =>
    let a : Actuator := Fin.ofNat 4 (q.val - 16)
    let m := m.setHsq a fun s => { s with queued := [], moments := [], due := none, blocked := [] }
    (allFin 2).foldl (fun (m : Mach) k => if m.is (HSQ_SEL_GATE a.val k.val) then m.lowerGate a k else m) m
  | .ls => m
  | .qs => m

/-- A sequencer halts (R361). -/
def seqHalt (m : Mach) (q : SeqId) (cause : Nat) : Mach :=
  let a := m.get (SEQ_STAT_ADDR q.val)
  let m := ((m.set (SEQ_HALT_VALID q.val) 1).set (SEQ_HALT_CAUSE q.val) cause).set (SEQ_HALT_ADDR q.val) a
  ((m.set (SEQ_STAT_STATE q.val) 3).report (32 * 34 + q.val)).makeSafe q

/-! ### The parts of a word; operands are read in `m`, and the effect is on the state that follows -/

/-- The flags of a result; a CARRY that Table 15-4 leaves open is a free value. -/
def setFlags (m : Mach) (q : SeqId) (r : AluResult) : Mach :=
  let c := match r.carry with
    | some c => c
    | none => m.free % 2 == 1
  let m := m.setSeq q fun s => { s with zero := r.zero, neg := r.neg, carry := c }
  if r.carry.isNone then m.nextFree else m

/-- A register of the own block (ALU 12): offset 4B within the window. -/
def ownRead (m : Mach) (q : SeqId) (b : Word) : Word :=
  if 4 * b.toNat < 0x10000 then m.busRead (ownBase q + 4 * b.toNat) else 0

/-- The ALU operation of a word (Table 15-4). -/
def aluEffect (m : Mach) (q : SeqId) (u : Micro) (m' : Mach) : Mach :=
  let a := m.gp q u.srca
  let b := u.operandB (m.gp q u.srcb)
  let i := (a + b).toNat % 128
  match u.alu with
  | 0 => m'
  | 9 => m'.setFlags q (aluSub a b)
  | 10 => m'.setGp q u.dst (m.eng.seqs[q].line[Fin.ofNat 128 i])
  | 11 => m'.setSeq q fun s => { s with line := s.line.set (Fin.ofNat 128 i) (m.gp q u.dst) }
  | 12 => m'.setGp q u.dst (m.ownRead q b)
  | 13 => Mach.watched (fun m => m.busWrite (.seq q) (ownBase q + 4 * b.toNat) a) m'
  | op =>
    let r := aluResult op a b
    (m'.setGp q u.dst r.value).setFlags q r

/-- The FOP of a word (R355): it is outstanding from now on. -/
def fopEffect (m : Mach) (q : SeqId) (u : Micro) (m' : Mach) : Mach :=
  if u.fop = 0 then m'
  else
    let f : Fop := ⟨u.fop == 1, u.cls, (m.gp q u.areg).toNat, u.blen, false⟩
    (m'.setSeq q fun s => { s with fop := some f, fdone := false, ferr := false }).set (SEQ_STAT_FOP_OUT q.val) 1

/-- The LOOP field of a word. -/
def loopEffect (m : Mach) (q : SeqId) (u : Micro) (m' : Mach) : Mach :=
  match u.loop with
  | 1 => m'.setSeq q fun s => { s with lc := u.imm.extractLsb' 0 10 }
  | 2 => m'.setSeq q fun s => { s with lc := if s.lc = 0 then 0 else s.lc - 1 }
  | 3 => m'.setSeq q fun s => { s with lc := (m.gp q u.srca).extractLsb' 0 10 }
  | _ => m'

/-! ### One word (R357) -/

/-- The sequencer runs and has not halted. -/
def executing (m : Mach) (q : SeqId) : Bool := m.is (SEQ_CTRL_RUN q.val) && m.get (SEQ_STAT_STATE q.val) != 3

/-- The address goes to `next`. -/
def goTo (m : Mach) (q : SeqId) (next : Nat) : Mach :=
  ((m.setSeq q fun s => { s with held := false }).set (SEQ_STAT_ADDR q.val) next).set (SEQ_STAT_STATE q.val) 1

/-- The first cycle of a fetched word: an illegal word halts before it has any effect; a word of another kind is left for its
own row; a FOP waits for the one before it; otherwise every operation is applied once, and the word branches or waits. -/
def firstCycle (m : Mach) (kind : WordKind) (q : SeqId) (inp : Bool) (xop : Micro → Mach → Mach) (u : Micro)
    (fixed : Bool) : Mach :=
  let c := m.seqCondition q u.cond inp != u.cinv
  let next := if !u.wait && c then u.btgt else u.next
  let moves := !u.wait || c
  let out := m.eng.seqs[q].fop.isSome
  let cause :=
    if moves ∧ storeSize q ≤ next then 2
    else u.illegal (seqKind q) (m.gp q u.areg) (u.operandB (m.gp q u.srcb)) out
  let counted := m.when fixed (·.incSat (SEQ_CNT_CORR q.val) 1)
  if cause ≠ 0 then counted.seqHalt q cause
  else if u.kind ≠ kind ∨ (u.fop ≠ 0 ∧ out) then m
  else
    let m' := m.loopEffect q u (m.aluEffect q u (m.fopEffect q u (xop u counted)))
    if moves then m'.goTo q next
    else (m'.setSeq q fun s => { s with held := true }).set (SEQ_STAT_STATE q.val) 2

/-- The sequencer's word is carried out if it is of `kind`; `xop` is the effect of its primitive (R356, R357, R360). -/
def seqWord (kind : WordKind) (q : SeqId) (inp : Bool) (xop : Micro → Mach → Mach) (m : Mach) : Mach :=
  if !m.executing q || m.eng.seqs[q].held then m
  else match fetchWord (m.storedWord q) with
    | .good w => m.firstCycle kind q inp xop (microOf w) false
    | .corrected w => m.firstCycle kind q inp xop (microOf w) true
    | .double => m.seqHalt q 1

/-- A word without a primitive. -/
def noXop (_ : Micro) (m : Mach) : Mach := m

end Mach

/-! ### Rows of the operation table -/

/-- ALU_ADD. -/
def aluAddRow (q : SeqId) (inp : Bool) (m : Mach) : Mach := m.seqWord (.alu 1) q inp Mach.noXop
/-- ALU_SUB. -/
def aluSubRow (q : SeqId) (inp : Bool) (m : Mach) : Mach := m.seqWord (.alu 2) q inp Mach.noXop
/-- ALU_AND. -/
def aluAndRow (q : SeqId) (inp : Bool) (m : Mach) : Mach := m.seqWord (.alu 3) q inp Mach.noXop
/-- ALU_OR. -/
def aluOrRow (q : SeqId) (inp : Bool) (m : Mach) : Mach := m.seqWord (.alu 4) q inp Mach.noXop
/-- ALU_XOR. -/
def aluXorRow (q : SeqId) (inp : Bool) (m : Mach) : Mach := m.seqWord (.alu 5) q inp Mach.noXop
/-- ALU_SHIFT_LEFT. -/
def aluShiftLeft (q : SeqId) (inp : Bool) (m : Mach) : Mach := m.seqWord (.alu 6) q inp Mach.noXop
/-- ALU_SHIFT_RIGHT. -/
def aluShiftRight (q : SeqId) (inp : Bool) (m : Mach) : Mach := m.seqWord (.alu 7) q inp Mach.noXop
/-- ALU_MOVE. -/
def aluMove (q : SeqId) (inp : Bool) (m : Mach) : Mach := m.seqWord (.alu 8) q inp Mach.noXop
/-- ALU_COMPARE. -/
def aluCompare (q : SeqId) (inp : Bool) (m : Mach) : Mach := m.seqWord (.alu 9) q inp Mach.noXop
/-- ALU_LDR. -/
def aluLdr (q : SeqId) (inp : Bool) (m : Mach) : Mach := m.seqWord (.alu 10) q inp Mach.noXop
/-- ALU_STR. -/
def aluStr (q : SeqId) (inp : Bool) (m : Mach) : Mach := m.seqWord (.alu 11) q inp Mach.noXop
/-- ALU_REG_READ. -/
def aluRegRead (q : SeqId) (inp : Bool) (m : Mach) : Mach := m.seqWord (.alu 12) q inp Mach.noXop
/-- ALU_REG_WRITE. -/
def aluRegWrite (q : SeqId) (inp : Bool) (m : Mach) : Mach := m.seqWord (.alu 13) q inp Mach.noXop
/-- SEQ_NOP_WORD (R357): a word without primitive, FOP or ALU operation. -/
def seqNopWord (q : SeqId) (inp : Bool) (m : Mach) : Mach := m.seqWord .nop q inp Mach.noXop
/-- FOP_READ (R355, R358). -/
def fopRead (q : SeqId) (inp : Bool) (m : Mach) : Mach := m.seqWord (.fop 1) q inp Mach.noXop
/-- FOP_WRITE (R355, R358). -/
def fopWrite (q : SeqId) (inp : Bool) (m : Mach) : Mach := m.seqWord (.fop 2) q inp Mach.noXop

/-- SEQ_CONDITION_MET (R357): the condition of the word that a sequencer waits on holds, and it goes to NEXT. -/
def seqConditionMet (q : SeqId) (inp : Bool) (m : Mach) : Mach :=
  if !m.executing q || !m.eng.seqs[q].held then m
  else
    let u := m.currentWord q
    if m.seqCondition q u.cond inp = u.cinv then m
    else if storeSize q ≤ u.next then m.seqHalt q 2
    else m.goTo q u.next

/-- The pool request of a word (Table 15-6). -/
def Mach.mbreqEffect (q : SeqId) (u : Micro) (m : Mach) : Mach :=
  let x := m.gp q u.xreg
  let b : Mailbox := Fin.ofNat 16 (getBits x 0 4)
  let w := m.gp q (u.xreg + 1)
  let m := m.set (POOL_MBSTAT_K b.val) (getBits x 4 5)
  (poolMbWrite b w m).setSeq q fun s => { s with mb := some b }

/-- MBREQ (R223, R359). -/
def mbreq (q : SeqId) (inp : Bool) (m : Mach) : Mach := m.seqWord (.xop 1) q inp (Mach.mbreqEffect q)

/-- FREE (R225). -/
def free (q : SeqId) (inp : Bool) (m : Mach) : Mach :=
  m.seqWord (.xop 2) q inp fun u m => poolFree ((m.gp q u.xreg).extractLsb' 0 24) m

/-- EVENT (R404): the sequencer's microcode event, with its code. -/
def event (q : SeqId) (inp : Bool) (m : Mach) : Mach :=
  m.seqWord (.xop 3) q inp fun u m => (m.report (32 * 35 + q.val)).emit (.code q.val (u.imm.toNat % 256))

/-! ### FOPs on the fabric (R30, R355, R358) -/

namespace Mach

/-- The sequencer whose FOP a port offers next: round-robin by sequencer number. -/
def nextOffer (m : Mach) (p : Fin 4) : Option SeqId :=
  ((List.range 20).map fun i => (Fin.ofNat 20 (m.eng.last[p].val + 1 + i) : SeqId)).find? fun q =>
    seqPort q == p && (match m.eng.seqs[q].fop with
      | some f => !f.offered
      | none => false)

/-- A FOP joins the requests of the Caller, under the class tag of its word. -/
def offerFop (m : Mach) (p : Fin 4) (port : Port) : Mach :=
  match m.nextOffer p with
  | none => m
  | some q =>
    match m.eng.seqs[q].fop with
    | none => m
    | some f =>
      if m.cal.held.any (·.req.port == port) || m.cal.portFrozen port then m
      else
        let m := m.setSeq q fun s => { s with fop := some { f with offered := true } }
        (m.setEng fun e => { e with last := e.last.set p q }).enqueue (m.chargedClass port f.cls) ⟨port, f.less1, q.val⟩

/-- A burst of a sequencer's FOP has not ended. -/
def fopMoves (m : Mach) (q : SeqId) : Bool :=
  let port := 25 + (seqPort q).val
  m.cal.queues.any (·.any fun r => r.port.val == port && r.owner == q.val) ||
    m.cal.held.any (fun h => h.req.port.val == port && h.req.owner == q.val) ||
    m.cal.flights.any fun f => f.port.val == port && f.owner == q.val

/-- Line `i` of a line buffer, as bytes. -/
def lineBytes (s : Seq) (i : Nat) : List Byte :=
  (List.range 16).flatMap fun k => toBytesLE 4 (s.line[Fin.ofNat 128 (16 * i + k)]).toNat

/-- Line `i` of a line buffer is filled. -/
def fillWords (s : Seq) (i : Nat) (bs : List Byte) : Seq :=
  { s with line := (List.range 16).foldl (fun (v : Vector Word 128) k =>
      v.set (Fin.ofNat 128 (16 * i + k)) (BitVec.ofNat 32 (ofBytesLE ((bs.drop (4 * k)).take 4)))) s.line }

/-- The tokens of a FOP move. -/
def moveFop (m : Mach) (q : SeqId) (f : Fop) : Mach :=
  (List.range (f.less1.val + 1)).foldl (fun (m : Mach) i =>
    if f.read then
      let ((bs, fail), m) := m.fabRead (f.line + i)
      m.setSeq q fun s => { fillWords s i bs with ferr := s.ferr || fail }
    else m.fabWrite (f.line + i) (.whole (lineBytes m.eng.seqs[q] i))) m

end Mach

/-- A request at a fabric port: ports 25–28 offer the FOPs of their sequencers, with the class and the tokens of their words
(R30, R38, R39, R355, R358). -/
def portRequest (port : Port) (tag : FabClass) (less1 : Fin 8) (m : Mach) : Mach :=
  if h : 25 ≤ port.val ∧ port.val ≤ 28 then m.offerFop ⟨port.val - 25, by omega⟩ port
  else fabricRequest port tag less1 m

/-- FOP_COMPLETE (R355, R357): the burst of the sequencer's FOP has ended, and the FOP completes: FDONE. -/
def fopComplete (q : SeqId) (m : Mach) : Mach :=
  match m.eng.seqs[q].fop with
  | none => m
  | some f =>
    if f.offered && !m.fopMoves q then
      ((m.moveFop q f).setSeq q fun s => { s with fop := none, fdone := true }).set (SEQ_STAT_FOP_OUT q.val) 0
    else m

/-! ### Primitives of the kinds of sequencer (Table 15-6) -/

/-- LOADDESC by FSn. -/
def loaddescRow (n : Stream) (inp : Bool) (m : Mach) : Mach := m.seqWord (.xop 16) (seqFS n) inp fun _ => loaddesc n
/-- LOADTRK by FSn. -/
def loadtrkRow (n : Stream) (inp : Bool) (m : Mach) : Mach := m.seqWord (.xop 17) (seqFS n) inp fun _ => loadtrk n
/-- CAPTURE by FSn. -/
def captureRow (n : Stream) (inp : Bool) (m : Mach) : Mach := m.seqWord (.xop 18) (seqFS n) inp fun _ => capture n
/-- WRITE by FSn. -/
def writeRow (n : Stream) (inp : Bool) (m : Mach) : Mach := m.seqWord (.xop 19) (seqFS n) inp fun _ => write n
/-- COMPLETE by FSn (R99); a completed destage may let a key switch take place (R344). -/
def completeRow (n : Stream) (inp : Bool) (m : Mach) : Mach :=
  m.seqWord (.xop 20) (seqFS n) inp fun _ m => (complete n m).refreshKeys
/-- ATTEMPT by LSa. -/
def attemptRow (a : Actuator) (inp : Bool) (m : Mach) : Mach :=
  m.seqWord (.xop 16) (seqLS a) inp fun u => attempt a u.xreg
/-- ARMCAP by LSa. -/
def armcapRow (a : Actuator) (inp : Bool) (m : Mach) : Mach := m.seqWord (.xop 17) (seqLS a) inp fun u => armcap a u.xreg
/-- AVGADD by LSa. -/
def avgaddRow (a : Actuator) (inp : Bool) (m : Mach) : Mach := m.seqWord (.xop 18) (seqLS a) inp fun _ => avgadd a
/-- REBUILD by LSa. -/
def rebuildRow (a : Actuator) (inp : Bool) (m : Mach) : Mach := m.seqWord (.xop 19) (seqLS a) inp fun _ => rebuild a
/-- RECORD by LSa. -/
def recordRow (a : Actuator) (inp : Bool) (m : Mach) : Mach := m.seqWord (.xop 20) (seqLS a) inp fun _ => record a
/-- FETCH by QSk. -/
def fetchRow (k : Fin 4) (inp : Bool) (m : Mach) : Mach := m.seqWord (.xop 16) (seqQS k) inp fun _ => fetch k
/-- WFRAME by HSa. -/
def wframeRow (a : Actuator) (inp : Bool) (m : Mach) : Mach := m.seqWord (.xop 16) (seqHS a) inp fun u => wframe a u.xreg
/-- RFRAME by HSa. -/
def rframeRow (a : Actuator) (inp : Bool) (m : Mach) : Mach := m.seqWord (.xop 17) (seqHS a) inp fun u => rframe a u.xreg
/-- SELECT by HSa. -/
def selectRow (a : Actuator) (inp : Bool) (m : Mach) : Mach := m.seqWord (.xop 18) (seqHS a) inp fun u => select a u.xreg
/-- GATEARM by HSa. -/
def gatearmRow (a : Actuator) (inp : Bool) (m : Mach) : Mach := m.seqWord (.xop 19) (seqHS a) inp fun _ => gatearm a

/-- The entry that QSk hands to the overlap checker. -/
def Mach.handCheck (q : SeqId) (dsm : List (Nat × Nat)) (m : Mach) : Mach :=
  match m.nextToCheck with
  | some c => (check dsm m).setSeq q fun s => { s with checked := some c.fsn }
  | none => m

/-- CHECK by QSk: held until the next entry in fetch sequence order has been fetched. -/
def checkRow (k : Fin 4) (inp : Bool) (dsm : List (Nat × Nat)) (m : Mach) : Mach :=
  if m.nextToCheck.isNone then m else m.seqWord (.xop 17) (seqQS k) inp fun _ => Mach.handCheck (seqQS k) dsm

/-- The entry that QSk has checked goes to the dispatch. -/
def Mach.handDispatch (q : SeqId) (m : Mach) : Mach :=
  match m.eng.seqs[q].checked with
  | some f => dispatch (BitVec.ofNat 32 f) (m.setSeq q fun s => { s with checked := none })
  | none => m

/-- DISPATCH: by QSk, or of a command that a sequencer has passed on and that had to wait (R271). -/
def dispatchRow (k : Option (Fin 4)) (inp : Bool) (fsn : BitVec 32) (m : Mach) : Mach :=
  match k with
  | some k => m.seqWord (.xop 18) (seqQS k) inp fun _ => Mach.handDispatch (seqQS k)
  | none => if m.eng.seqs.any (·.checked == some fsn.toNat) then m else dispatch fsn m

end Sys2Proof.Machine
end

