-- ==== Sys2Proof/Machine/Pins.lean ====
section
/-! DEFINITION. What the balls show: a function of the state (R392, R393, R400 of spec/17_package_and_signals.md). -/
namespace Sys2Proof.Machine

/-- The conditions of Table 17-4. -/
inductive Condition where
  | unpowered | reset | boot | running | m8 | m9 | m11
  deriving DecidableEq, Repr

/-- The rows of Table 17-4. -/
inductive BallGroup where
  | peTx | peRx | inputs | smb | configurable | rd | wd | paLink | paFault | paRails | spindle | vcm | ma | brk | flash
  | crystal | diodes | debug
  deriving DecidableEq, Repr

/-- The entries of Table 17-4. -/
inductive BallState where
  | z | electricalIdle | link | unterminated | exitDetector | input | inputPerst | zNoAck | active | responder
  | fuseMapped | untilDriven | driven | statZ | ohms | afe | low | idleOrData | asPreamp | ignored | faultInput | off
  | discharged | enabled | untilRetract | asStation | floating | spindle | rectifying | retractOrOff | servo | saveThenRetract
  | zOrRetract | offOrChopper | viaResistor | zeroVolt | r189 | chopper | flashIdle | stopped | oscillating | passive | unlessShifting | asRunning
  deriving DecidableEq, Repr

/-- The condition in force (R393): a save, which runs on the back-EMF; neither supply input present; the reset entry with P0;
P1 to P6; then by mode. -/
def Mach.condition (m : Mach) : Condition :=
  if m.mode = 9 ∧ ¬ m.rst.entering then .m9
  else if !m.die.v12Ok && !m.die.v5Ok then .unpowered
  else if m.rst.entering then .reset
  else if m.mode = 8 then .m8
  else if m.mode = 11 then .m11
  else if m.rst.coresUp then .running
  else .boot

/-- Table 17-4. -/
def ballState (g : BallGroup) (c : Condition) : BallState :=
  match g, c with
  | .peTx, .unpowered | .peTx, .m8 => .z
  | .peTx, .running | .peTx, .m11 => .link
  | .peTx, _ => .electricalIdle
  | .peRx, .unpowered => .z
  | .peRx, .running | .peRx, .m11 => .link
  | .peRx, .m8 => .exitDetector
  | .peRx, _ => .unterminated
  | .inputs, .m8 => .inputPerst
  | .inputs, _ => .input
  | .smb, .reset => .zNoAck
  | .smb, .running | .smb, .m11 => .active
  | .smb, .m8 => .responder
  | .smb, _ => .z
  | .configurable, .unpowered | .configurable, .reset => .fuseMapped
  | .configurable, .boot => .untilDriven
  | .configurable, .m8 => .statZ
  | .configurable, _ => .driven
  | .rd, .boot => .ohms
  | .rd, .running | .rd, .m9 | .rd, .m11 => .afe
  | .rd, _ => .z
  | .wd, .unpowered => .z
  | .wd, .running => .idleOrData
  | .wd, .m9 | .wd, .m11 => .asRunning
  | .wd, _ => .low
  | .paLink, .unpowered => .z
  | .paLink, .running => .asPreamp
  | .paLink, .m9 | .paLink, .m11 => .asRunning
  | .paLink, _ => .low
  | .paFault, .unpowered => .z
  | .paFault, .running | .paFault, .m9 | .paFault, .m11 => .faultInput
  | .paFault, _ => .ignored
  | .paRails, .reset => .discharged
  | .paRails, .running => .enabled
  | .paRails, .m9 => .untilRetract
  | .paRails, .m11 => .asStation
  | .paRails, _ => .off
  | .spindle, .unpowered => .z
  | .spindle, .running => .spindle
  | .spindle, .m9 => .rectifying
  | .spindle, .m11 => .asStation
  | .spindle, _ => .floating
  | .vcm, .unpowered => .zOrRetract
  | .vcm, .reset | .vcm, .boot => .retractOrOff
  | .vcm, .running => .servo
  | .vcm, .m8 => .off
  | .vcm, .m9 => .saveThenRetract
  | .vcm, .m11 => .asStation
  | .ma, .unpowered => .viaResistor
  | .ma, .running | .ma, .m9 => .r189
  | .ma, .m11 => .asStation
  | .ma, _ => .zeroVolt
  | .brk, .unpowered => .offOrChopper
  | .brk, _ => .chopper
  | .flash, .unpowered => .z
  | .flash, .reset | .flash, .m8 => .flashIdle
  | .flash, _ => .active
  | .crystal, .unpowered => .stopped
  | .crystal, _ => .oscillating
  | .diodes, _ => .passive
  | .debug, .unpowered | .debug, .reset | .debug, .m8 => .z
  | .debug, .m11 => .active
  | .debug, _ => .unlessShifting

/-- What PA_SCLK, PA_SEN and PA_SDATA of an actuator show. -/
inductive PaLines where
  | z | low | senHigh | frames
  deriving DecidableEq, Repr

/-- The register link of an actuator (R393, R394): low while PAP is off, SEN high while HSQ_CTRL.EN is 0, and otherwise the
frames of R172. -/
def Mach.paLines (m : Mach) (a : Actuator) : PaLines :=
  match ballState .paLink m.condition with
  | .z => .z
  | .low => .low
  | _ => if m.die.paOff[a] then .low else if m.is (HSQ_CTRL_EN a.val) then .frames else .senHigh

/-- The pull-up of PA_FAULT_N is enabled: only while PAP is on (R394). -/
def Mach.faultPullUp (m : Mach) (a : Actuator) : Bool :=
  ballState .paFault m.condition == .faultInput && !m.die.paOff[a]

/-- What a configurable ball shows: nothing connected, held low by its clamp, or driven low or released by its function
(R392). -/
inductive PadLevel where
  | z | clampLow | driven
  deriving DecidableEq, Repr

/-- The state of a configurable ball (R392): fuse-mapped until its function drives it; in M8 the STAT balls are Z. -/
def Mach.padLevel (m : Mach) (i : PadId) : PadLevel :=
  if m.condition = .unpowered ∨ m.rst.entering ∨ ¬ m.rst.driven[i] then
    if m.sec.fuses.padmap.getLsbD i.val then .clampLow else .z
  else if m.mode = 8 ∧ i.val < 4 then .z
  else .driven

/-- The function of a STAT ball asserts it (R400). -/
def Mach.statActive (m : Mach) (k : Fin 4) : Bool :=
  match k with
  | 0 => m.host.ctrls[(0 : PortId)].rdy || m.host.ctrls[(1 : PortId)].rdy
  | 1 => m.mode == 10
  | 2 => m.mode == 9
  | 3 => m.die.parked.any (!·)

/-- A STAT ball is low (R392, R400). -/
def Mach.statLow (m : Mach) (k : Fin 4) : Bool :=
  match m.padLevel ⟨k.val, by omega⟩ with
  | .z => false
  | .clampLow => true
  | .driven => m.statActive k

end Sys2Proof.Machine
end

