-- ==== Sys2Proof/Machine/State.lean ====
section
/-! DEFINITION. The state of the machine, the reasons that a step can stop for, and the state after reset. -/
namespace Sys2Proof.Machine

/-- The block and the commands that wait, first in first out. -/
structure State where
  pending : List Instr
  m       : Mach
  deriving DecidableEq, Repr

/-- No step ends in a fault: what the spec calls an error is an effect on the state (an error flag, an event, a status).
Nothing raises one. -/
inductive Fault where
  deriving DecidableEq, Repr

/-- Why a command has no effect to give. -/
inductive Refusal where
  /-- The command has no meaning in this model, by its name in the operation table; raised by no command. Safe: the run
  stops. -/
  | notModelled (mnemonic : String)
  deriving DecidableEq, Repr

/-- The block right after power-on reset entry (R9, R373–R378): every register at its reset value, memories and queues
empty, and the phases of the boot still to come. -/
def Mach.atReset : Mach where
  clock := 0
  freeCtr := 0
  regs := []
  reports := []
  out := []
  cal := Caller.initial
  media := MediaState.initial
  motion := MotionState.initial
  die := PowerDie.initial
  spn := Spindle.initial
  pwr := PowerMgr.initial
  buf := BufState.initial
  dma := DmaState.initial
  host := HostState.initial
  cmd := CmdState.initial
  sec := SecState.initial
  eng := EngState.initial
  evt := EvtState.initial
  rst := RstState.initial

/-- The machine right after reset, with no command waiting. -/
def State.reset : State := ⟨[], Mach.atReset⟩

end Sys2Proof.Machine
end

