-- ==== Sys2Proof/Machine/Run.lean ====
section
/-! DEFINITION. How a meaning acts on the state: on everything but the queue. -/
namespace Sys2Proof.Machine

/-- A next state whose machine is the image of this one, and whose queue is the same. -/
def State.run (s : State) (f : Mach → Mach) : Host.Outcome State Fault Refusal := .next { s with m := f s.m }

/-- The block idles for one period of the root PLL (R365); the chopper's self-test pulse ends at its instant (R205). -/
def Mach.idle (m : Mach) : Mach :=
  let m := { m with clock := m.clock + 1 }
  match m.die.pulseEnd with
  | some t =>
    if t ≤ m.clock then
      let m := { m with die := { m.die with pulseEnd := none } }
      if m.die.level = 0 then m.set SPN_BRK_ON 0 else m
    else m
  | none => m

end Sys2Proof.Machine
end

