-- ==== Sys2Proof/Machine/ExecBuffer.lean ====
section
/-! DEFINITION. The meanings of the commands of buffer, pools, cache, scrubber and DMA (spec/09, spec/10). -/
namespace Sys2Proof.Machine

/-- BUFFER_LINE_ACCESS (R214): A fabric access to a buffer line reads or writes it with its check word. -/
def execBufferLineAccess (a : LineAccess) (decay : Bool) (s : State) : Host.Outcome State Fault Refusal :=
  s.run (Mach.clocked 10 64 (bufferLineAccess a decay))

/-- BUFFER_FILL_END (R218): The zero fill of the buffer ends and INIT becomes 2. -/
def execBufferFillEnd (s : State) : Host.Outcome State Fault Refusal :=
  s.run (Mach.clocked 10 64 (bufferFillEnd))

/-- POOL_EN_WRITE (R222): A write of POOL_CFGp.EN enables a pool and starts its ring fill, or disables it. -/
def execPoolEnWrite (p : PoolId) (en : Bool) (s : State) : Host.Outcome State Fault Refusal :=
  s.run (Mach.clocked 10 34 (poolEnWrite p en))

/-- POOL_RING_INIT_DONE (R222): The pool's ring has been written and INIT_BUSY falls. -/
def execPoolRingInitDone (p : PoolId) (s : State) : Host.Outcome State Fault Refusal :=
  s.run (Mach.clocked 10 34 (poolRingInitDone p))

/-- POOL_MB_WRITE (R223): A write to POOL_MBm submits an allocation request. -/
def execPoolMbWrite (mb : Mailbox) (w : Word) (s : State) : Host.Outcome State Fault Refusal :=
  s.run (Mach.clocked 10 34 (poolMbWrite mb w))

/-- POOL_GRANT (R224): A waiting request is granted all or nothing and its result line written. -/
def execPoolGrant (p : PoolId) (s : State) : Host.Outcome State Fault Refusal :=
  s.run (Mach.clocked 10 34 (poolGrant p))

/-- POOL_CACHE_REFILL (R222): A pool's handle cache reads or writes 64 handles to its ring. -/
def execPoolCacheRefill (p : PoolId) (s : State) : Host.Outcome State Fault Refusal :=
  s.run (Mach.clocked 10 34 (poolCacheRefill p))

/-- POOL_FREE (R225): A write to POOL_FREE returns a buffer, or is refused. -/
def execPoolFree (h : BitVec 24) (s : State) : Host.Outcome State Fault Refusal :=
  s.run (Mach.clocked 10 34 (poolFree h))

/-- POOL_RETIRE (R227): A write to POOL_RETIRE enters a handle in the retired table. -/
def execPoolRetire (h : BitVec 24) (s : State) : Host.Outcome State Fault Refusal :=
  s.run (Mach.clocked 10 34 (poolRetire h))

/-- POOL_BANKRET_WRITE (R228): Setting a POOL_BANKRET bit retires every buffer in that channel and bank. -/
def execPoolBankretWrite (half : Fin 2) (w : Word) (s : State) : Host.Outcome State Fault Refusal :=
  s.run (Mach.clocked 10 34 (poolBankretWrite half w))

/-- CACHE_ACCESS (R229): A cacheable access looks up the system cache. -/
def execCacheAccess (a : LineAccess) (ecc : EccResult) (tagBad : Option (Fin 16 × Bool)) (s : State) :
    Host.Outcome State Fault Refusal :=
  s.run (Mach.clocked 9 35 (cacheAccess a ecc tagBad))

/-- MISS_FILL_DONE (R234): A miss register's line fill completes the waiting accesses. -/
def execMissFillDone (k : Nat) (s : State) : Host.Outcome State Fault Refusal :=
  s.run (Mach.clocked 9 35 (missFillDone k))

/-- BUCKET_LEAK (R232): Every LEAK ms a bank's bucket loses 1. -/
def execBucketLeak (bank : Fin 16) (s : State) : Host.Outcome State Fault Refusal :=
  s.run (Mach.clocked 9 35 (bucketLeak bank))

/-- MOP_CLEAN_RANGE (R235): CCH_MOP_CMD.GO with OP 1 cleans a range. -/
def execMopCleanRange (s : State) : Host.Outcome State Fault Refusal :=
  s.run (Mach.clocked 9 35 (mopCleanRange))

/-- MOP_INVALIDATE_RANGE (R235): GO with OP 2 invalidates a range. -/
def execMopInvalidateRange (s : State) : Host.Outcome State Fault Refusal :=
  s.run (Mach.clocked 9 35 (mopInvalidateRange))

/-- MOP_CLEAN_INVALIDATE_RANGE (R235): GO with OP 3 cleans and invalidates a range. -/
def execMopCleanInvalidateRange (s : State) : Host.Outcome State Fault Refusal :=
  s.run (Mach.clocked 9 35 (mopCleanInvalidateRange))

/-- MOP_CLEAN_SET_WAY (R235): GO with OP 4 cleans one set and way. -/
def execMopCleanSetWay (set : Fin 32768) (way : Fin 16) (s : State) : Host.Outcome State Fault Refusal :=
  s.run (Mach.clocked 9 35 (mopCleanSetWay set way))

/-- MOP_INVALIDATE_SET_WAY (R235): GO with OP 5 invalidates one set and way. -/
def execMopInvalidateSetWay (set : Fin 32768) (way : Fin 16) (s : State) : Host.Outcome State Fault Refusal :=
  s.run (Mach.clocked 9 35 (mopInvalidateSetWay set way))

/-- MOP_CLEAN_INVALIDATE_SET_WAY (R235): GO with OP 6 cleans and invalidates one set and way. -/
def execMopCleanInvalidateSetWay (set : Fin 32768) (way : Fin 16) (s : State) : Host.Outcome State Fault Refusal :=
  s.run (Mach.clocked 9 35 (mopCleanInvalidateSetWay set way))

/-- MOP_CLEAN_INVALIDATE_ALL (R235): GO with OP 7 cleans and invalidates every line. -/
def execMopCleanInvalidateAll (s : State) : Host.Outcome State Fault Refusal :=
  s.run (Mach.clocked 9 35 (mopCleanInvalidateAll))

/-- MOP_DONE (R235): A maintenance operation's walk and write-backs end and BUSY falls. -/
def execMopDone (s : State) : Host.Outcome State Fault Refusal :=
  s.run (Mach.clocked 9 35 (mopDone))

/-- CCH_EN_WRITE (R236): A write changing CCH_CTRL.EN is accepted only when no line is valid. -/
def execCchEnWrite (en : Bool) (s : State) : Host.Outcome State Fault Refusal :=
  s.run (Mach.clocked 9 35 (cchEnWrite en))

/-- SCB_GO (R237): SCB_CMD.GO starts a scrub pass. -/
def execScbGo (s : State) : Host.Outcome State Fault Refusal :=
  s.run (Mach.clocked 10 36 (scbGo))

/-- SCB_ABORT (R238): SCB_CMD.ABORT ends a pass at its next burst boundary. -/
def execScbAbort (s : State) : Host.Outcome State Fault Refusal :=
  s.run (Mach.clocked 10 36 (scbAbort))

/-- SCRUB_PASS_END (R237): A scrub pass ends and writes its summary with VALID. -/
def execScrubPassEnd (s : State) : Host.Outcome State Fault Refusal :=
  s.run (Mach.clocked 10 36 (scrubPassEnd))

/-- DMA_DESC_TAKE (R241): An idle channel takes the descriptor at HEAD of its level's ring. -/
def execDmaDescTake (p : DmaLevel) (s : State) : Host.Outcome State Fault Refusal :=
  s.run (Mach.clocked 11 37 (dmaDescTake p))

/-- DMA_SECTOR_CHECK (R248): A sector's tokens are read and checked before its host bytes are sent. -/
def execDmaSectorCheck (s : State) : Host.Outcome State Fault Refusal :=
  s.run (Mach.clocked 11 37 (dmaSectorCheck))

/-- HOST_READ_COMPLETION (R252): A host read completion arrives for a DMA channel, or fails and halts it. -/
def execHostReadCompletion (n : DmaCh) (data : Option (List Byte)) (s : State) : Host.Outcome State Fault Refusal :=
  s.run (Mach.clocked 11 37 (hostReadCompletion n data))

/-- COMPLETION_TIMEOUT (R434): A DMA read or read-back times out at the selected range. -/
def execCompletionTimeout (n : DmaCh) (s : State) : Host.Outcome State Fault Refusal :=
  s.run (Mach.clocked 11 37 (completionTimeout n))

/-- READBACK_ISSUE (R250): After the last host write the channel issues a 4-byte read-back. -/
def execReadbackIssue (s : State) : Host.Outcome State Fault Refusal :=
  s.run (Mach.clocked 11 37 (readbackIssue))

/-- READBACK_COMPLETE (R250): The read-back completes and the descriptor status is written. -/
def execReadbackComplete (n : DmaCh) (ok : Bool) (s : State) : Host.Outcome State Fault Refusal :=
  s.run (Mach.clocked 11 37 (readbackComplete n ok))

/-- DMA_CH_ABORT (R253): DMA_CHn_CTRL.ABORT completes a halted or running channel's descriptor. -/
def execDmaChAbort (n : DmaCh) (s : State) : Host.Outcome State Fault Refusal :=
  s.run (Mach.clocked 11 37 (dmaChAbort n))

/-- DMA_CH_RETRY (R253): DMA_CHn_CTRL.RETRY restarts a host-side halted descriptor from its first byte. -/
def execDmaChRetry (n : DmaCh) (s : State) : Host.Outcome State Fault Refusal :=
  s.run (Mach.clocked 11 37 (dmaChRetry n))

/-- DMA_BLOCK_WRITE (R254): Setting DMA_CTRL.BLOCKp aborts every descriptor of port p. -/
def execDmaBlockWrite (b0 : Bool) (b1 : Bool) (s : State) : Host.Outcome State Fault Refusal :=
  s.run (Mach.clocked 11 37 (dmaBlockWrite b0 b1))

/-- DMA_EN_WRITE (R254): A write of DMA_CTRL.EN lets or stops the engine taking descriptors. -/
def execDmaEnWrite (en : Bool) (s : State) : Host.Outcome State Fault Refusal :=
  s.run (Mach.clocked 11 37 (dmaEnWrite en))

end Sys2Proof.Machine
end

