-- ==== Sys2Proof/Machine/ExecCaller.lean ====
section
/-! DEFINITION. The meanings of the commands of the Caller and the fabric (spec/02). -/
namespace Sys2Proof.Machine

/-- FIGURE_BOUNDARY (R32): Cycle 0 of a figure: unused tokens lapse, guaranteed counts, ceiling rooms and the shared
pool are rebuilt, and CAL_FIGNO advances. -/
def execFigureBoundary (s : State) : Host.Outcome State Fault Refusal :=
  s.run (Mach.clocked 8 64 (figureBoundary))

/-- RELEASE_CYCLE (R33): At the release cycle all remaining guaranteed tokens move into the shared pool. -/
def execReleaseCycle (s : State) : Host.Outcome State Fault Refusal :=
  s.run (Mach.clocked 8 64 (releaseCycleReached))

/-- FABRIC_REQUEST (R38): A requester port offers a burst request, which enters its class pending queue or holds the
port not-ready. -/
def execFabricRequest (port : Port) (tag : FabClass) (less1 : Fin 8) (s : State) : Host.Outcome State Fault Refusal :=
  s.run (Mach.clocked 8 64 (portRequest port tag less1))

/-- FABRIC_GRANT (R37): The arbiter grants at most one eligible burst in an F-FAB cycle. -/
def execFabricGrant (s : State) : Host.Outcome State Fault Refusal :=
  s.run (Mach.clocked 8 64 (fabricGrant))

/-- BURST_BOUNDARY (R41): The last token of a granted burst moves and the port may be granted again. -/
def execBurstBoundary (port : Port) (s : State) : Host.Outcome State Fault Refusal :=
  s.run (Mach.clocked 8 64 (burstBoundary port))

/-- CAL_FREEZE (R47): A write of CAL_CTRL.FREEZE stops or resumes all fabric grants. -/
def execCalFreeze (b : Bool) (s : State) : Host.Outcome State Fault Refusal :=
  s.run (Mach.clocked 8 64 (calFreeze b))

/-- CAL_SWAP (R43): A write of 1 to CAL_CTRL.SWAP arms a figure-table swap. -/
def execCalSwap (s : State) : Host.Outcome State Fault Refusal :=
  s.run (Mach.clocked 8 64 (calSwap))

/-- CAL_SWAP_CANCEL (R44): A write of 1 to CAL_CTRL.SWAP_CANCEL withdraws a pending swap. -/
def execCalSwapCancel (s : State) : Host.Outcome State Fault Refusal :=
  s.run (Mach.clocked 8 64 (calSwapCancel))

/-- CAL_BACK_WRITE (R43): A write to CAL_BACKn stores a back-table entry, or is ignored with BACK_LOCKED while a swap
is pending. -/
def execCalBackWrite (n : FabClass) (w : Word) (s : State) : Host.Outcome State Fault Refusal :=
  s.run (Mach.clocked 8 64 (calBackWrite n w))

/-- FABRIC_WATCHDOG_HALF (R48): The oldest in-flight burst reaches half the watchdog limit and an event is raised. -/
def execFabricWatchdogHalf (s : State) : Host.Outcome State Fault Refusal :=
  s.run (Mach.clocked 8 64 (fabricWatchdogHalf))

/-- FABRIC_WATCHDOG_EXPIRY (R48): The oldest in-flight burst reaches the watchdog limit; FAB_WDG_LAST is written and a
chip reset is requested. -/
def execFabricWatchdogExpiry (s : State) : Host.Outcome State Fault Refusal :=
  s.run (Mach.clocked 8 64 (fabricWatchdogExpiry))

end Sys2Proof.Machine
end

