-- ==== Sys2Proof/Machine/ExecCommand.lean ====
section
/-! DEFINITION. The meanings of the commands of the command complex: arbitration, checking and dispatch (spec/11, spec/01). -/
namespace Sys2Proof.Machine

/-- ARBITER_GRANT (R268): A controller's arbiter picks the next submission queue with unfetched entries and hands a
grant of up to eight entries to an idle queue sequencer. -/
def execArbiterGrant (s : State) : Host.Outcome State Fault Refusal :=
  s.run (Mach.clocked 19 38 (arbiterGrant))

/-- FETCH (R269): FETCH primitive: a queue sequencer reads the granted submission entries from host memory. -/
def execFetch (k : Fin 4) (inp : Bool) (s : State) : Host.Outcome State Fault Refusal :=
  s.run (Mach.clocked 19 38 (fetchRow k inp))

/-- FETCH_COMPLETE (R269): The read of fetched submission entries completes, or fails and is re-fetched once. -/
def execFetchComplete (k : Fin 4) (data : Option (List (BitVec 512))) (s : State) : Host.Outcome State Fault Refusal :=
  s.run (Mach.clocked 19 38 (fetchComplete k data))

/-- CHECK (R19): CHECK primitive: the next fetched entry, in fetch sequence order, passes to the overlap checker and
is compared against every live entry in one step. -/
def execCheck (k : Fin 4) (inp : Bool) (dsm : List (Nat × Nat)) (s : State) : Host.Outcome State Fault Refusal :=
  s.run (Mach.clocked 19 38 (Mach.keyed (checkRow k inp dsm)))

/-- DISPATCH (R271): DISPATCH primitive: a checked command is dispatched through the admin or I/O dispatch table to a
command core. -/
def execDispatch (k : Option (Fin 4)) (inp : Bool) (fsn : BitVec 32) (s : State) : Host.Outcome State Fault Refusal :=
  s.run (Mach.clocked 19 38 (dispatchRow k inp fsn))

/-- READ_AHEAD_ISSUE (R22): The media scheduler creates a speculative-copy entry and issues read-ahead over a range
that no dirty data or in-flight write overlaps. -/
def execReadAheadIssue (nsid : BitVec 4) (first : BitVec 40) (count : Fin 257) (s : State) :
    Host.Outcome State Fault Refusal :=
  s.run (readAheadIssue nsid first count)

/-- ANTICIPATORY_SEEK (R26): The media scheduler moves an actuator toward a predicted target without opening any write
gate. -/
def execAnticipatorySeek (a : Actuator) (target : Word) (s : State) : Host.Outcome State Fault Refusal :=
  s.run (anticipatorySeek a target)

/-- SPEC_COPY_EXPIRE (R26): A speculative copy whose sectors have been unbound for 500 ms is freed. -/
def execSpecCopyExpire (k : Nat) (s : State) : Host.Outcome State Fault Refusal :=
  s.run (specCopyExpire k)

end Sys2Proof.Machine
end

