-- ==== Sys2Proof/Machine/ExecEngine.lean ====
section
/-! DEFINITION. The meanings of the commands of the sequencers and their stores (spec/15). -/
namespace Sys2Proof.Machine

/-- ALU_ADD (R355): Microword ALU 1: DST = A + B. -/
def execAluAdd (q : SeqId) (inp : Bool) (s : State) : Host.Outcome State Fault Refusal :=
  s.run (Mach.clocked (seqDomain (q)) (seqBlock (q)) (aluAddRow q inp))

/-- ALU_SUB (R355): Microword ALU 2: DST = A - B. -/
def execAluSub (q : SeqId) (inp : Bool) (s : State) : Host.Outcome State Fault Refusal :=
  s.run (Mach.clocked (seqDomain (q)) (seqBlock (q)) (aluSubRow q inp))

/-- ALU_AND (R355): Microword ALU 3: AND. -/
def execAluAnd (q : SeqId) (inp : Bool) (s : State) : Host.Outcome State Fault Refusal :=
  s.run (Mach.clocked (seqDomain (q)) (seqBlock (q)) (aluAndRow q inp))

/-- ALU_OR (R355): Microword ALU 4: OR. -/
def execAluOr (q : SeqId) (inp : Bool) (s : State) : Host.Outcome State Fault Refusal :=
  s.run (Mach.clocked (seqDomain (q)) (seqBlock (q)) (aluOrRow q inp))

/-- ALU_XOR (R355): Microword ALU 5: XOR. -/
def execAluXor (q : SeqId) (inp : Bool) (s : State) : Host.Outcome State Fault Refusal :=
  s.run (Mach.clocked (seqDomain (q)) (seqBlock (q)) (aluXorRow q inp))

/-- ALU_SHIFT_LEFT (R355): Microword ALU 6: shift left. -/
def execAluShiftLeft (q : SeqId) (inp : Bool) (s : State) : Host.Outcome State Fault Refusal :=
  s.run (Mach.clocked (seqDomain (q)) (seqBlock (q)) (aluShiftLeft q inp))

/-- ALU_SHIFT_RIGHT (R355): Microword ALU 7: logical shift right. -/
def execAluShiftRight (q : SeqId) (inp : Bool) (s : State) : Host.Outcome State Fault Refusal :=
  s.run (Mach.clocked (seqDomain (q)) (seqBlock (q)) (aluShiftRight q inp))

/-- ALU_MOVE (R355): Microword ALU 8: DST = B. -/
def execAluMove (q : SeqId) (inp : Bool) (s : State) : Host.Outcome State Fault Refusal :=
  s.run (Mach.clocked (seqDomain (q)) (seqBlock (q)) (aluMove q inp))

/-- ALU_COMPARE (R355): Microword ALU 9: A - B setting flags only. -/
def execAluCompare (q : SeqId) (inp : Bool) (s : State) : Host.Outcome State Fault Refusal :=
  s.run (Mach.clocked (seqDomain (q)) (seqBlock (q)) (aluCompare q inp))

/-- ALU_LDR (R355): Microword ALU 10: load a line-buffer word. -/
def execAluLdr (q : SeqId) (inp : Bool) (s : State) : Host.Outcome State Fault Refusal :=
  s.run (Mach.clocked (seqDomain (q)) (seqBlock (q)) (aluLdr q inp))

/-- ALU_STR (R355): Microword ALU 11: store a line-buffer word. -/
def execAluStr (q : SeqId) (inp : Bool) (s : State) : Host.Outcome State Fault Refusal :=
  s.run (Mach.clocked (seqDomain (q)) (seqBlock (q)) (aluStr q inp))

/-- ALU_REG_READ (R355): Microword ALU 12: read an own-block register. -/
def execAluRegRead (q : SeqId) (inp : Bool) (s : State) : Host.Outcome State Fault Refusal :=
  s.run (Mach.clocked (seqDomain (q)) (seqBlock (q)) (aluRegRead q inp))

/-- ALU_REG_WRITE (R355): Microword ALU 13: write an own-block register. -/
def execAluRegWrite (q : SeqId) (inp : Bool) (s : State) : Host.Outcome State Fault Refusal :=
  s.run (Mach.clocked (seqDomain (q)) (seqBlock (q)) (aluRegWrite q inp))

/-- SEQ_NOP_WORD (R357): A microword with no operation executes its branch or wait. -/
def execSeqNopWord (q : SeqId) (inp : Bool) (s : State) : Host.Outcome State Fault Refusal :=
  s.run (Mach.clocked (seqDomain (q)) (seqBlock (q)) (seqNopWord q inp))

/-- SEQ_CONDITION_MET (R357): A waiting microword's condition holds and the sequencer moves to NEXT. -/
def execSeqConditionMet (q : SeqId) (inp : Bool) (s : State) : Host.Outcome State Fault Refusal :=
  s.run (Mach.clocked (seqDomain (q)) (seqBlock (q)) (seqConditionMet q inp))

/-- FOP_READ (R355): FOP READ moves tokens from the buffer into the line buffer. -/
def execFopRead (q : SeqId) (inp : Bool) (s : State) : Host.Outcome State Fault Refusal :=
  s.run (Mach.clocked (seqDomain (q)) (seqBlock (q)) (fopRead q inp))

/-- FOP_WRITE (R355): FOP WRITE moves line-buffer lines to the buffer. -/
def execFopWrite (q : SeqId) (inp : Bool) (s : State) : Host.Outcome State Fault Refusal :=
  s.run (Mach.clocked (seqDomain (q)) (seqBlock (q)) (fopWrite q inp))

/-- FOP_COMPLETE (R357): A sequencer's FOP completes and FDONE becomes true. -/
def execFopComplete (q : SeqId) (s : State) : Host.Outcome State Fault Refusal :=
  s.run (Mach.clocked (seqDomain (q)) (seqBlock (q)) (fopComplete q))

/-- MBREQ (R359): MBREQ primitive submits a pool mailbox request. -/
def execMbreq (q : SeqId) (inp : Bool) (s : State) : Host.Outcome State Fault Refusal :=
  s.run (Mach.clocked (seqDomain (q)) (seqBlock (q)) (mbreq q inp))

/-- FREE (R225): FREE primitive writes a handle to POOL_FREE. -/
def execFree (q : SeqId) (inp : Bool) (s : State) : Host.Outcome State Fault Refusal :=
  s.run (Mach.clocked (seqDomain (q)) (seqBlock (q)) (free q inp))

/-- EVENT (R404): EVENT primitive raises the sequencer's microcode event. -/
def execEvent (q : SeqId) (inp : Bool) (s : State) : Host.Outcome State Fault Refusal :=
  s.run (Mach.clocked (seqDomain (q)) (seqBlock (q)) (event q inp))

/-- SEQ_CSDATA_WRITE (R362): A BC write of SEQ_CSDATA3 stores a word into the shadow control store. -/
def execSeqCsdataWrite (req : Requester) (q : SeqId) (k : Fin 4) (w : Word) (s : State) :
    Host.Outcome State Fault Refusal :=
  s.run (Mach.clocked (seqDomain (q)) (seqBlock (q)) (seqCsdataWrite req q k w))

/-- QSQ_DTDATA_WRITE (R362): A BC write of QSQ_DTDATA loads and checks a shadow dispatch entry. -/
def execQsqDtdataWrite (req : Requester) (w : Word) (s : State) : Host.Outcome State Fault Refusal :=
  s.run (Mach.clocked 19 38 (qsqDtdataWrite req w))

/-- SEQ_RUN_WRITE (R362): A BC write of SEQ_CTRL.RUN starts a sequencer at address 0. -/
def execSeqRunWrite (req : Requester) (q : SeqId) (run : Bool) (s : State) : Host.Outcome State Fault Refusal :=
  s.run (Mach.clocked (seqDomain (q)) (seqBlock (q)) (seqRunWrite req q run))

/-- QSQ_CSSWAP (R364): QSQ_CSSWAP.SWAP flips every control-store and dispatch bank, or is refused. -/
def execQsqCsswap (s : State) : Host.Outcome State Fault Refusal :=
  s.run (Mach.clocked 19 38 (qsqCsswap))

/-- SWAP_BUSY_END (R364): 2,400 F-SEQ cycles after a swap BUSY falls. -/
def execSwapBusyEnd (s : State) : Host.Outcome State Fault Refusal :=
  s.run (Mach.clocked 19 38 (swapBusyEnd))

end Sys2Proof.Machine
end

