-- ==== Sys2Proof/Machine/ExecHost.lean ====
section
/-! DEFINITION. The meanings of the commands of host link, admin and I/O commands, sideband (spec/11, spec/12). -/
namespace Sys2Proof.Machine

/-- TRAIN_EN_WRITE (R259): Setting HIF_CTRL.TRAIN_EN lets a port train. -/
def execTrainEnWrite (en0 : Bool) (en1 : Bool) (s : State) : Host.Outcome State Fault Refusal :=
  s.run (trainEnWrite en0 en1)

/-- LINK_UP (R256): A port's data link comes up. -/
def execLinkUp (p : PortId) (speed : Fin 6) (width : Fin 5) (s : State) : Host.Outcome State Fault Refusal :=
  s.run (Mach.clocked 38 64 (linkUp p speed width))

/-- LINK_DOWN (R279): A port's link goes down, which is a controller reset. -/
def execLinkDown (p : PortId) (s : State) : Host.Outcome State Fault Refusal :=
  s.run (linkDown p)

/-- PERST_ASSERT (R279): A port's PERST# asserts and resets its controller. -/
def execPerstAssert (p : PortId) (s : State) : Host.Outcome State Fault Refusal :=
  s.run (perstAssert p)

/-- HOT_RESET (R279): A hot reset resets the port's controller. -/
def execHotReset (p : PortId) (s : State) : Host.Outcome State Fault Refusal :=
  s.run (hotReset p)

/-- FUNCTION_LEVEL_RESET (R279): FLR of the port's function resets its controller. -/
def execFunctionLevelReset (p : PortId) (s : State) : Host.Outcome State Fault Refusal :=
  s.run (functionLevelReset p)

/-- CC_EN_SET (R264): A write of CC.EN = 1 makes the controller ready, or sets CFS. -/
def execCcEnSet (p : PortId) (cc : Word) (s : State) : Host.Outcome State Fault Refusal :=
  s.run (Mach.clocked 38 64 (ccEnSet p cc))

/-- CC_EN_CLEAR (R279): A write of CC.EN from 1 to 0 resets the controller. -/
def execCcEnClear (p : PortId) (s : State) : Host.Outcome State Fault Refusal :=
  s.run (Mach.clocked 38 64 (ccEnClear p))

/-- SHUTDOWN_NORMAL (R276): CC.SHN = 0b01 stops fetching and lets commands complete. -/
def execShutdownNormal (p : PortId) (s : State) : Host.Outcome State Fault Refusal :=
  s.run (Mach.clocked 38 64 (shutdownNormal p))

/-- SHUTDOWN_ABRUPT (R276): CC.SHN = 0b10 stops fetching and abandons commands. -/
def execShutdownAbrupt (p : PortId) (s : State) : Host.Outcome State Fault Refusal :=
  s.run (Mach.clocked 38 64 (shutdownAbrupt p))

/-- SHUTDOWN_COMPLETE (R276): All dirty data is destaged and groups closed; SHST reads 0b10. -/
def execShutdownComplete (p : PortId) (s : State) : Host.Outcome State Fault Refusal :=
  s.run (shutdownComplete p)

/-- NSSR_WRITE (R282): A write of 0x4E56_4D65 to NSSR resets both controllers and retrains both ports. -/
def execNssrWrite (w : Word) (s : State) : Host.Outcome State Fault Refusal :=
  s.run (Mach.clocked 38 64 (nssrWrite w))

/-- SQ_TAIL_DOORBELL (R265): A submission queue tail doorbell write, or an invalid one raising an error event. -/
def execSqTailDoorbell (p : PortId) (qid : BitVec 16) (v : BitVec 16) (s : State) : Host.Outcome State Fault Refusal :=
  s.run (Mach.clocked 38 64 (sqTailDoorbell p qid v))

/-- CQ_HEAD_DOORBELL (R265): A completion queue head doorbell write frees room, or is ignored. -/
def execCqHeadDoorbell (p : PortId) (qid : BitVec 16) (v : BitVec 16) (s : State) : Host.Outcome State Fault Refusal :=
  s.run (Mach.clocked 38 64 (cqHeadDoorbell p qid v))

/-- RECEIVED_ERROR (R262): A received PCIe error is handled and logged in AER. -/
def execReceivedError (p : PortId) (e : LinkError) (s : State) : Host.Outcome State Fault Refusal :=
  s.run (Mach.clocked 38 64 (receivedError p e))

/-- ASPM_L1_ENTRY (R261): After 8 us with nothing to send the port enters ASPM L1. -/
def execAspmL1Entry (p : PortId) (sub : Fin 3) (s : State) : Host.Outcome State Fault Refusal :=
  s.run (Mach.clocked 38 64 (aspmL1Entry p sub))

/-- D3HOT_TRANSITION (R261): A PCI power-state change to D3hot or D0 stops or resumes fetching and posting. -/
def execD3hotTransition (p : PortId) (d3 : Bool) (s : State) : Host.Outcome State Fault Refusal :=
  s.run (Mach.clocked 38 64 (d3hotTransition p d3))

/-- COMPLETION_POST (R273): A command's completion entry is written and its interrupt sent once the CQ has room. -/
def execCompletionPost (fsn : BitVec 32) (ok : Bool) (s : State) : Host.Outcome State Fault Refusal :=
  s.run (Mach.clocked 19 38 (completionPost fsn ok))

/-- FETCH_EN_WRITE (R270): A write to QSQ_CTRL.FETCH_EN enables or stops a controller's grants. -/
def execFetchEnWrite (en0 : Bool) (en1 : Bool) (s : State) : Host.Outcome State Fault Refusal :=
  s.run (Mach.clocked 19 38 (fetchEnWrite en0 en1))

/-- QUIET_POINT (R284): The activation quiet point is reached and FREEZE is set. -/
def execQuietPoint (s : State) : Host.Outcome State Fault Refusal :=
  s.run (quietPoint)

/-- DELETE_IO_SQ (R267): Delete I/O Submission Queue. -/
def execDeleteIoSq (fsn : BitVec 32) (s : State) : Host.Outcome State Fault Refusal :=
  s.run (deleteIoSq fsn)

/-- CREATE_IO_SQ (R266): Create I/O Submission Queue. -/
def execCreateIoSq (fsn : BitVec 32) (s : State) : Host.Outcome State Fault Refusal :=
  s.run (createIoSq fsn)

/-- GET_LOG_PAGE (R289): Get Log Page returns a page of Table 12-6. -/
def execGetLogPage (r : AdminReq) (e : IoEnd) (s : State) : Host.Outcome State Fault Refusal :=
  s.run (getLogPage r e)

/-- DELETE_IO_CQ (R266): Delete I/O Completion Queue. -/
def execDeleteIoCq (fsn : BitVec 32) (s : State) : Host.Outcome State Fault Refusal :=
  s.run (deleteIoCq fsn)

/-- CREATE_IO_CQ (R266): Create I/O Completion Queue. -/
def execCreateIoCq (fsn : BitVec 32) (s : State) : Host.Outcome State Fault Refusal :=
  s.run (createIoCq fsn)

/-- IDENTIFY (R289): Identify returns a data structure for an accepted CNS. -/
def execIdentify (r : AdminReq) (e : IoEnd) (s : State) : Host.Outcome State Fault Refusal :=
  s.run (identify r e)

/-- ABORT (R290): Abort acts only on a fetched, undispatched command of a halting queue. -/
def execAbort (fsn : BitVec 32) (s : State) : Host.Outcome State Fault Refusal :=
  s.run (abort fsn)

/-- SET_FEATURES (R301): Set Features sets a supported feature. -/
def execSetFeatures (r : AdminReq) (s : State) : Host.Outcome State Fault Refusal :=
  s.run (setFeatures r)

/-- GET_FEATURES (R301): Get Features returns a feature value. -/
def execGetFeatures (r : AdminReq) (s : State) : Host.Outcome State Fault Refusal :=
  s.run (getFeatures r)

/-- ASYNCHRONOUS_EVENT_REQUEST (R289): An Asynchronous Event Request waits for an event of Table 12-7. -/
def execAsynchronousEventRequest (fsn : BitVec 32) (s : State) : Host.Outcome State Fault Refusal :=
  s.run (asynchronousEventRequest fsn)

/-- NAMESPACE_CREATE (R291): Namespace Management Create assigns the lowest free NSID. -/
def execNamespaceCreate (fsn : BitVec 32) (d : NsCreate) (e : IoEnd) (s : State) : Host.Outcome State Fault Refusal :=
  s.run (namespaceCreate fsn d e)

/-- NAMESPACE_DELETE (R291): Namespace Management Delete discards the namespace and its keys. -/
def execNamespaceDelete (fsn : BitVec 32) (s : State) : Host.Outcome State Fault Refusal :=
  s.run (Mach.keyed (namespaceDelete fsn))

/-- NAMESPACE_ATTACH (R289): Namespace Attachment attaches a namespace to controllers. -/
def execNamespaceAttach (fsn : BitVec 32) (ctrls : BitVec 2) (e : IoEnd) (s : State) :
    Host.Outcome State Fault Refusal :=
  s.run (namespaceAttach fsn ctrls e)

/-- NAMESPACE_DETACH (R289): Namespace Attachment detaches a namespace from controllers. -/
def execNamespaceDetach (fsn : BitVec 32) (ctrls : BitVec 2) (e : IoEnd) (s : State) :
    Host.Outcome State Fault Refusal :=
  s.run (namespaceDetach fsn ctrls e)

/-- FIRMWARE_IMAGE_DOWNLOAD (R289): Firmware Image Download receives part of an image. -/
def execFirmwareImageDownload (fsn : BitVec 32) (data : List Byte) (e : IoEnd) (s : State) :
    Host.Outcome State Fault Refusal :=
  s.run (firmwareImageDownload fsn data e)

/-- FIRMWARE_COMMIT_REPLACE (R292): Firmware Commit CA 0b000 verifies and stores an image in a slot. -/
def execFirmwareCommitReplace (fsn : BitVec 32) (b : Option Bundle) (s : State) : Host.Outcome State Fault Refusal :=
  s.run (firmwareCommitReplace fsn b)

/-- FIRMWARE_COMMIT_REPLACE_ACTIVATE (R334): Firmware Commit CA 0b001 stores an image and makes its slot pending. -/
def execFirmwareCommitReplaceActivate (fsn : BitVec 32) (b : Option Bundle) (s : State) :
    Host.Outcome State Fault Refusal :=
  s.run (firmwareCommitReplaceActivate fsn b)

/-- FIRMWARE_COMMIT_ACTIVATE (R334): Firmware Commit CA 0b010 makes an existing slot pending. -/
def execFirmwareCommitActivate (fsn : BitVec 32) (s : State) : Host.Outcome State Fault Refusal :=
  s.run (firmwareCommitActivate fsn)

/-- FIRMWARE_COMMIT_ACTIVATE_NOW (R284): Firmware Commit CA 0b011 activates without reset, or stages under R285. -/
def execFirmwareCommitActivateNow (fsn : BitVec 32) (s : State) : Host.Outcome State Fault Refusal :=
  s.run (firmwareCommitActivateNow fsn)

/-- NVME_MI_SEND (R304): NVMe-MI Send carries an MI command in-band. -/
def execNvmeMiSend (fsn : BitVec 32) (e : IoEnd) (s : State) : Host.Outcome State Fault Refusal :=
  s.run (nvmeMiSend fsn e)

/-- NVME_MI_RECEIVE (R304): NVMe-MI Receive carries an MI command in-band. -/
def execNvmeMiReceive (fsn : BitVec 32) (e : IoEnd) (s : State) : Host.Outcome State Fault Refusal :=
  s.run (nvmeMiReceive fsn e)

/-- FORMAT_NVM (R293): Format NVM reformats a namespace without writing the medium. -/
def execFormatNvm (fsn : BitVec 32) (s : State) : Host.Outcome State Fault Refusal :=
  s.run (Mach.keyed (formatNvm fsn))

/-- SECURITY_SEND (R343): Security Send takes effect at its overlap check. -/
def execSecuritySend (fsn : BitVec 32) (op : OpalOp) (e : IoEnd) (s : State) : Host.Outcome State Fault Refusal :=
  s.run (securitySend fsn op e)

/-- SECURITY_RECEIVE (R342): Security Receive returns Opal data. -/
def execSecurityReceive (fsn : BitVec 32) (e : IoEnd) (s : State) : Host.Outcome State Fault Refusal :=
  s.run (securityReceive fsn e)

/-- MAINTENANCE_START_SCRUB (R302): Sceka Maintenance action 0 starts a buffer scrub. -/
def execMaintenanceStartScrub (fsn : BitVec 32) (s : State) : Host.Outcome State Fault Refusal :=
  s.run (maintenanceStartScrub fsn)

/-- MAINTENANCE_START_CANDIDATE (R302): Sceka Maintenance action 1 starts a candidate pass. -/
def execMaintenanceStartCandidate (fsn : BitVec 32) (s : State) : Host.Outcome State Fault Refusal :=
  s.run (maintenanceStartCandidate fsn)

/-- MAINTENANCE_START_SCAN (R302): Sceka Maintenance action 2 starts a media scan. -/
def execMaintenanceStartScan (fsn : BitVec 32) (s : State) : Host.Outcome State Fault Refusal :=
  s.run (maintenanceStartScan fsn)

/-- MAINTENANCE_ABORT (R302): Sceka Maintenance actions 4-6 abort a running pass. -/
def execMaintenanceAbort (fsn : BitVec 32) (s : State) : Host.Outcome State Fault Refusal :=
  s.run (maintenanceAbort fsn)

/-- MAINTENANCE_PASS_END (R302): A background pass ends and raises vendor event 0xC3. -/
def execMaintenancePassEnd (k : PassKind) (count : Nat) (s : State) : Host.Outcome State Fault Refusal :=
  s.run (maintenancePassEnd k count)

/-- DEPOPULATE_ACTUATOR (R303): Actuator Management action 1 destages, unloads and sets DEPOP. -/
def execDepopulateActuator (fsn : BitVec 32) (s : State) : Host.Outcome State Fault Refusal :=
  s.run (depopulateActuator fsn)

/-- REINSTATE_ACTUATOR (R303): Actuator Management action 2 clears DEPOP and requalifies. -/
def execReinstateActuator (fsn : BitVec 32) (s : State) : Host.Outcome State Fault Refusal :=
  s.run (reinstateActuator fsn)

/-- DEPOPULATE_HEAD (R303): Actuator Management action 3 destages and sets a HEAD_DEPOP bit. -/
def execDepopulateHead (fsn : BitVec 32) (s : State) : Host.Outcome State Fault Refusal :=
  s.run (depopulateHead fsn)

/-- REINSTATE_HEAD (R303): Actuator Management action 4 clears the bit and requalifies. -/
def execReinstateHead (fsn : BitVec 32) (failed : Bool) (s : State) : Host.Outcome State Fault Refusal :=
  s.run (reinstateHead fsn failed)

/-- ACKNOWLEDGE_BRAKE_FAULT (R303): Actuator Management action 5 sets SPN_BRK.ACK. -/
def execAcknowledgeBrakeFault (fsn : BitVec 32) (s : State) : Host.Outcome State Fault Refusal :=
  s.run (acknowledgeBrakeFault fsn)

/-- QUEUE_RESTART_RESUME (R278): Queue Restart in mode Resume dispatches held commands and restarts fetching. -/
def execQueueRestartResume (fsn : BitVec 32) (s : State) : Host.Outcome State Fault Refusal :=
  s.run (queueRestartResume fsn)

/-- QUEUE_RESTART_DISCARD (R278): Queue Restart in mode Discard completes held and unfetched entries with 0x07. -/
def execQueueRestartDiscard (fsn : BitVec 32) (s : State) : Host.Outcome State Fault Refusal :=
  s.run (queueRestartDiscard fsn)

/-- FLUSH (R275): Flush completes when earlier writes are destaged and their groups closed. -/
def execFlush (fsn : BitVec 32) (s : State) : Host.Outcome State Fault Refusal :=
  s.run (flush fsn)

/-- WRITE_COMMAND (R274): Write moves data into the buffer and completes, destaging later or at once with FUA. -/
def execWriteCommand (fsn : BitVec 32) (e : IoEnd) (handles : List (BitVec 24)) (s : State) :
    Host.Outcome State Fault Refusal :=
  s.run (Mach.keyed (writeCommand fsn e handles))

/-- READ (R294): Read returns checked data from buffer or medium. -/
def execRead (fsn : BitVec 32) (e : IoEnd) (s : State) : Host.Outcome State Fault Refusal :=
  s.run (Mach.keyed (read fsn e))

/-- WRITE_UNCORRECTABLE (R294): Write Uncorrectable marks LBAs in the uncorrectable table. -/
def execWriteUncorrectable (fsn : BitVec 32) (s : State) : Host.Outcome State Fault Refusal :=
  s.run (Mach.keyed (writeUncorrectable fsn))

/-- COMPARE (R294): Compare checks media data against host data. -/
def execCompare (fsn : BitVec 32) (e : IoEnd) (s : State) : Host.Outcome State Fault Refusal :=
  s.run (Mach.keyed (compare fsn e))

/-- WRITE_ZEROES (R295): Write Zeroes writes zeros, or deallocates with DEAC. -/
def execWriteZeroes (fsn : BitVec 32) (s : State) : Host.Outcome State Fault Refusal :=
  s.run (Mach.keyed (writeZeroes fsn))

/-- DATASET_MANAGEMENT (R295): Dataset Management deallocates ranges. -/
def execDatasetManagement (fsn : BitVec 32) (s : State) : Host.Outcome State Fault Refusal :=
  s.run (Mach.keyed (datasetManagement fsn))

/-- VERIFY (R294): Verify reads and checks without transfer. -/
def execVerify (fsn : BitVec 32) (e : IoEnd) (s : State) : Host.Outcome State Fault Refusal :=
  s.run (Mach.keyed (verify fsn e))

/-- ZONE_CLOSE (R297): Zone Management Send Close. -/
def execZoneClose (fsn : BitVec 32) (s : State) : Host.Outcome State Fault Refusal :=
  s.run (zoneClose fsn)

/-- ZONE_FINISH (R297): Zone Management Send Finish closes the zone's parity group first. -/
def execZoneFinish (fsn : BitVec 32) (s : State) : Host.Outcome State Fault Refusal :=
  s.run (Mach.keyed (zoneFinish fsn))

/-- ZONE_OPEN (R297): Zone Management Send Open. -/
def execZoneOpen (fsn : BitVec 32) (s : State) : Host.Outcome State Fault Refusal :=
  s.run (zoneOpen fsn)

/-- ZONE_RESET (R297): Zone Management Send Reset discards accumulators without writing. -/
def execZoneReset (fsn : BitVec 32) (s : State) : Host.Outcome State Fault Refusal :=
  s.run (Mach.keyed (zoneReset fsn))

/-- ZONE_OFFLINE (R297): Zone Management Send Offline, accepted only on an Offline zone. -/
def execZoneOffline (fsn : BitVec 32) (s : State) : Host.Outcome State Fault Refusal :=
  s.run (Mach.keyed (zoneOffline fsn))

/-- REPORT_ZONES (R297): Zone Management Receive Report Zones reports zones at its overlap check. -/
def execReportZones (fsn : BitVec 32) (e : IoEnd) (s : State) : Host.Outcome State Fault Refusal :=
  s.run (reportZones fsn e)

/-- ZONE_APPEND (R18): Zone Append writes at LBAs assigned in fetch sequence order. -/
def execZoneAppend (fsn : BitVec 32) (e : IoEnd) (handles : List (BitVec 24)) (s : State) :
    Host.Outcome State Fault Refusal :=
  s.run (Mach.keyed (zoneAppend fsn e handles))

/-- MI_READ_DATA_STRUCTURE (R304): NVMe-MI Read NVMe-MI Data Structure. -/
def execMiReadDataStructure (type : BitVec 8) (s : State) : Host.Outcome State Fault Refusal :=
  s.run (miReadDataStructure type)

/-- MI_SUBSYSTEM_HEALTH_POLL (R304): NVMe-MI NVM Subsystem Health Status Poll. -/
def execMiSubsystemHealthPoll (s : State) : Host.Outcome State Fault Refusal :=
  s.run (miSubsystemHealthPoll)

/-- MI_CONTROLLER_HEALTH_POLL (R304): NVMe-MI Controller Health Status Poll. -/
def execMiControllerHealthPoll (p : PortId) (s : State) : Host.Outcome State Fault Refusal :=
  s.run (miControllerHealthPoll p)

/-- MI_CONFIGURATION_SET (R304): NVMe-MI Configuration Set. -/
def execMiConfigurationSet (id : BitVec 8) (value : BitVec 16) (s : State) : Host.Outcome State Fault Refusal :=
  s.run (miConfigurationSet id value)

/-- MI_CONFIGURATION_GET (R304): NVMe-MI Configuration Get. -/
def execMiConfigurationGet (id : BitVec 8) (s : State) : Host.Outcome State Fault Refusal :=
  s.run (miConfigurationGet id)

/-- MI_VPD_READ (R304): NVMe-MI VPD Read from flash. -/
def execMiVpdRead (offset : BitVec 16) (len : BitVec 16) (s : State) : Host.Outcome State Fault Refusal :=
  s.run (miVpdRead offset len)

/-- MI_RESET (R304): NVMe-MI Reset performs an NVM subsystem reset. -/
def execMiReset (s : State) : Host.Outcome State Fault Refusal :=
  s.run (miReset)

/-- SMBUS_BASIC_MANAGEMENT (R304): The SMBus basic management command at address 0x6A. -/
def execSmbusBasicManagement (s : State) : Host.Outcome State Fault Refusal :=
  s.run (smbusBasicManagement)

end Sys2Proof.Machine
end

