-- ==== Sys2Proof/Machine/ExecMedia.lean ====
section
/-! DEFINITION. The meanings of the commands of the read channel, the formatters and the ladder (spec/03–05). -/
namespace Sys2Proof.Machine

/-- The end of the sector being written, where the stream's formatter works. -/
def clockedFmt (n : Stream) (m : Mach) : Mach := Mach.clocked (15 + n.val / 2) (8 + n.val) (·.writeBoundary n) m

/-- LANE_READY (R50): An AFE lane produces valid samples 2.0 us after its LANE_EN bit is set. -/
def execLaneReady (l : Lane) (s : State) : Host.Outcome State Fault Refusal :=
  s.run (Mach.clocked (30 + l.val / 2) 64 (laneReady l))

/-- TA_SPAN_DETECT (R52): A lane sees TA_LEN consecutive saturated samples and starts a thermal-asperity span. -/
def execTaSpanDetect (l : Lane) (first : Nat) (s : State) : Host.Outcome State Fault Refusal :=
  s.run (Mach.clocked (30 + l.val / 2) 64 (taSpanDetect l first))

/-- TA_SPAN_END (R52): Sixty-four consecutive in-range samples end a thermal-asperity span. -/
def execTaSpanEnd (l : Lane) (last : Nat) (sat : Nat) (s : State) : Host.Outcome State Fault Refusal :=
  s.run (Mach.clocked (30 + l.val / 2) 64 (taSpanEnd l last sat))

/-- TA_GAIN_HOLD_END (R52): The gain hold that follows the end of a span ends 256 samples later. -/
def execTaGainHoldEnd (l : Lane) (s : State) : Host.Outcome State Fault Refusal :=
  s.run (Mach.clocked (30 + l.val / 2) 64 (taGainHoldEnd l))

/-- ADAPT_WINDOW_END (R60): At the end of an LMS window each tap whose sum exceeds the threshold moves by one code,
held aside until the next sector boundary. -/
def execAdaptWindowEnd (n : Stream) (w : Samples) (errors : List Int) (s : State) :
    Host.Outcome State Fault Refusal :=
  s.run (Mach.clocked 14 n.val (adaptWindowEnd n w errors))

/-- SECTOR_BOUNDARY (R89): At a stream's sector boundary, pending rate, geometry, delta, equaliser-set and adapted-tap
changes take effect. -/
def execSectorBoundary (n : Stream) (s : State) : Host.Outcome State Fault Refusal :=
  s.run (Mach.settled fun m => clockedFmt n (Mach.clocked 14 n.val (sectorBoundary n) m))

/-- SECTOR_CAPTURE (R61): The formatter captures a sector's samples into a free sample slot. -/
def execSectorCapture (n : Stream) (samples : Samples) (s : State) : Host.Outcome State Fault Refusal :=
  s.run (Mach.settled (Mach.clocked 14 n.val (sectorCapture n samples)))

/-- SYNC_SEARCH_END (R110): The sync-mark search ends, fixing the framing position or framing the sector blind. -/
def execSyncSearchEnd (n : Stream) (bits : List Bool) (phases : List Int) (s : State) :
    Host.Outcome State Fault Refusal :=
  s.run (Mach.clocked 14 n.val (syncSearchEnd n bits phases))

/-- DECODER_GRANT (R77): A free decoder engine is granted to the oldest eligible ladder or on-the-fly request. -/
def execDecoderGrant (s : State) : Host.Outcome State Fault Refusal :=
  s.run (Mach.clocked 12 28 (decoderGrant))

/-- DECODE_COMPLETE (R73): A decode ends; decryption, CRC and tag checks give a result code and the write-back starts
or the slot is pinned. -/
def execDecodeComplete (e : Engine) (s : State) : Host.Outcome State Fault Refusal :=
  s.run (Mach.clocked (if e.val < 6 then 12 else 13) 28 (decodeComplete e))

/-- WRITE_BACK_COMPLETE (R62): A decoded sector's write-back finishes and its slot returns to free. -/
def execWriteBackComplete (k : Nat) (s : State) : Host.Outcome State Fault Refusal :=
  s.run (Mach.clocked 12 28 (writeBackComplete k))

/-- CHN_CDATA_WRITE (R81): A write to CHN_CDATA stores a coefficient at ADDR, or is ignored for the live set while EN
is 1. -/
def execChnCdataWrite (n : Stream) (data : BitVec 10) (s : State) : Host.Outcome State Fault Refusal :=
  s.run (Mach.clocked 14 n.val (chnCdataWrite n data))

/-- CHN_EN_WRITE (R428): A write of CHN_CTRL.EN starts the stream, or stops capture at the next sector boundary. -/
def execChnEnWrite (n : Stream) (en : Bool) (s : State) : Host.Outcome State Fault Refusal :=
  s.run (Mach.clocked 14 n.val (chnEnWrite n en))

/-- CHN_CNTCLR (R81): A write to CHN_CNTCLR clears the channel counters and resets HIGH to USED. -/
def execChnCntclr (n : Stream) (s : State) : Host.Outcome State Fault Refusal :=
  s.run (Mach.clocked 14 n.val (chnCntclr n))

/-- DEC_CNTCLR (R72): A write to DEC_CNTCLR clears the decoder counters and histogram. -/
def execDecCntclr (s : State) : Host.Outcome State Fault Refusal :=
  s.run (Mach.clocked 12 28 (decCntclr))

/-- LOADDESC (R98): LOADDESC primitive: the formatter hands a descriptor to the datapath, which checks zone, index and
operation. -/
def execLoaddesc (n : Stream) (inp : Bool) (s : State) : Host.Outcome State Fault Refusal :=
  s.run (Mach.settled (Mach.clocked (seqDomain (seqFS n)) (seqBlock (seqFS n)) (loaddescRow n inp)))

/-- LOADTRK (R96): LOADTRK primitive: the formatter starts the defect-map bisection for a new track. -/
def execLoadtrk (n : Stream) (inp : Bool) (s : State) : Host.Outcome State Fault Refusal :=
  s.run (Mach.clocked (seqDomain (seqFS n)) (seqBlock (seqFS n)) (loadtrkRow n inp))

/-- TRACK_LOADED (R96): The defect-map search ends and the track's entries are loaded, or overflow gives DMAP. -/
def execTrackLoaded (n : Stream) (s : State) : Host.Outcome State Fault Refusal :=
  s.run (Mach.clocked (15 + n.val / 2) (8 + n.val) (trackLoaded n))

/-- CAPTURE (R102): CAPTURE primitive arms the capture of the current sector; with no free slot it completes MISSED. -/
def execCapture (n : Stream) (inp : Bool) (s : State) : Host.Outcome State Fault Refusal :=
  s.run (Mach.settled (Mach.clocked (seqDomain (seqFS n)) (seqBlock (seqFS n)) (captureRow n inp)))

/-- WRITE (R103): WRITE primitive arms the write of the current sector. -/
def execWrite (n : Stream) (inp : Bool) (s : State) : Host.Outcome State Fault Refusal :=
  s.run (Mach.settled (Mach.clocked (seqDomain (seqFS n)) (seqBlock (seqFS n)) (writeRow n inp)))

/-- COMPLETE (R99): COMPLETE primitive writes descriptor word 3 in one write and advances HEAD. -/
def execComplete (n : Stream) (inp : Bool) (s : State) : Host.Outcome State Fault Refusal :=
  s.run (Mach.settled (Mach.clocked (seqDomain (seqFS n)) (seqBlock (seqFS n)) (completeRow n inp)))

/-- WRITE_PATH_FETCH (R100): The write path fetches, checks, encrypts and encodes a write descriptor's information
block. -/
def execWritePathFetch (n : Stream) (grouped : Bool) (s : State) : Host.Outcome State Fault Refusal :=
  s.run (Mach.settled (Mach.clocked (15 + n.val / 2) (8 + n.val) (writePathFetch n grouped)))

/-- CODEWORD_READY (R101): Encoding ends and the syndrome self-check places the codeword in the FIFO or ends the
descriptor ENCERR. -/
def execCodewordReady (a : Actuator) (bad : Bool) (s : State) : Host.Outcome State Fault Refusal :=
  s.run (Mach.settled (Mach.clocked 14 64 (codewordReady a bad)))

/-- GATE_MOMENT (R174): At the check instant of a gate moment the raise frame is sent, or the sector ends UNDERRUN. -/
def execGateMoment (a : Actuator) (s : State) : Host.Outcome State Fault Refusal :=
  s.run (Mach.settled (Mach.clocked (15 + a.val) (24 + a.val) (gateMoment a)))

/-- GATE_REOPEN (R104): After a split sector's servo field the gate reopens if the write-safe flag is 1, otherwise the
sector ends TORN. -/
def execGateReopen (n : Stream) (s : State) : Host.Outcome State Fault Refusal :=
  s.run (Mach.settled (Mach.clocked (15 + n.val / 2) (8 + n.val) (gateReopen n)))

/-- WSAFE_FALL (R104): The write-safe flag falls while a gate is open; the serialiser stops and the sector ends TORN. -/
def execWsafeFall (a : Actuator) (bits : Nat) (s : State) : Host.Outcome State Fault Refusal :=
  s.run (Mach.settled (Mach.clocked (15 + a.val) 64 (wsafeFall a bits)))

/-- RUN_END (R176): The last postamble of a run passes and a lower frame is sent. -/
def execRunEnd (n : Stream) (s : State) : Host.Outcome State Fault Refusal :=
  s.run (Mach.settled (Mach.clocked (15 + n.val / 2) (8 + n.val) (runEnd n)))

/-- FMT_EN_WRITE (R428): A write of FMT_CTRL.EN starts the formatter, or makes it stop after the descriptor in
progress. -/
def execFmtEnWrite (n : Stream) (en : Bool) (s : State) : Host.Outcome State Fault Refusal :=
  s.run (Mach.settled (Mach.clocked (15 + n.val / 2) (8 + n.val) (fmtEnWrite n en)))

/-- FMT_CNTCLR (R108): A write to FMT_CNTCLR clears the formatter counters. -/
def execFmtCntclr (n : Stream) (s : State) : Host.Outcome State Fault Refusal :=
  s.run (Mach.clocked (15 + n.val / 2) (8 + n.val) (fmtCntclr n))

/-- LAD_START (R114): A write to LAD_START starts a ladder job, or is refused with a LAD_ERR bit. -/
def execLadStart (a : Actuator) (w : Word) (s : State) : Host.Outcome State Fault Refusal :=
  s.run (Mach.clocked (15 + a.val) (16 + a.val) (ladStart a w))

/-- LAD_RAISE (R129): A write to LAD_RAISE raises a running or queued job's last step. -/
def execLadRaise (a : Actuator) (w : Word) (s : State) : Host.Outcome State Fault Refusal :=
  s.run (Mach.clocked (15 + a.val) (16 + a.val) (ladRaise a w))

/-- ATTEMPT (R117): ATTEMPT primitive issues an attempt of the current ladder step, or sets ORDER if it names another
step. -/
def execAttempt (a : Actuator) (inp : Bool) (s : State) : Host.Outcome State Fault Refusal :=
  s.run (Mach.clocked (15 + a.val) (16 + a.val) (attemptRow a inp))

/-- ATTEMPT_END (R118): A ladder attempt ends with a result code; the step may succeed, fail or the job ends. -/
def execAttemptEnd (a : Actuator) (s : State) : Host.Outcome State Fault Refusal :=
  s.run (Mach.clocked (15 + a.val) (16 + a.val) (attemptEnd a))

/-- ARMCAP (R123): ARMCAP primitive arms a capture for a ladder step. -/
def execArmcap (a : Actuator) (inp : Bool) (s : State) : Host.Outcome State Fault Refusal :=
  s.run (Mach.clocked (15 + a.val) (16 + a.val) (armcapRow a inp))

/-- CAPTURE_TAKEN (R123): The armed ladder capture is taken when the sector next passes under the head. -/
def execCaptureTaken (a : Actuator) (samples : Samples) (s : State) : Host.Outcome State Fault Refusal :=
  s.run (Mach.clocked (15 + a.val) (16 + a.val) (captureTaken a samples))

/-- HEATER_SETTLE_END (R124): One revolution after a heater change the capture may be armed. -/
def execHeaterSettleEnd (a : Actuator) (s : State) : Host.Outcome State Fault Refusal :=
  s.run (Mach.clocked (15 + a.val) (16 + a.val) (heaterSettleEnd a))

/-- AVGADD (R125): AVGADD primitive adds a capture to the ladder accumulator. -/
def execAvgadd (a : Actuator) (inp : Bool) (s : State) : Host.Outcome State Fault Refusal :=
  s.run (Mach.clocked (15 + a.val) (16 + a.val) (avgaddRow a inp))

/-- REBUILD (R126): REBUILD primitive runs the track-parity rebuild of step 15. -/
def execRebuild (a : Actuator) (inp : Bool) (s : State) : Host.Outcome State Fault Refusal :=
  s.run (Mach.clocked (15 + a.val) (16 + a.val) (rebuildRow a inp))

/-- REBUILD_DONE (R127): The parity rebuild ends; the target passes its checks or the step fails. -/
def execRebuildDone (a : Actuator) (group : List (Option MemberRead)) (s : State) : Host.Outcome State Fault Refusal :=
  s.run (Mach.clocked (15 + a.val) (16 + a.val) (rebuildDone a group))

/-- RECORD (R133): RECORD primitive writes the 16-byte result record and advances HEAD. -/
def execRecord (a : Actuator) (inp : Bool) (s : State) : Host.Outcome State Fault Refusal :=
  s.run (Mach.clocked (15 + a.val) (16 + a.val) (recordRow a inp))

/-- JOB_END (R133): A job ends RECOVERED, UNRECOVERED or WITHDRAWN once the result ring has room. -/
def execJobEnd (a : Actuator) (s : State) : Host.Outcome State Fault Refusal :=
  s.run (Mach.keyed (Mach.clocked (15 + a.val) (16 + a.val) (jobEnd a)))

/-- LAD_EN_WRITE (R428): A write of LAD_CTRL.EN starts the sequencer, or stops it after the step in progress. -/
def execLadEnWrite (a : Actuator) (en : Bool) (s : State) : Host.Outcome State Fault Refusal :=
  s.run (Mach.clocked (15 + a.val) (16 + a.val) (ladEnWrite a en))

/-- LAD_CNTCLR (R135): A write to LAD_CNTCLR clears the ladder counters. -/
def execLadCntclr (a : Actuator) (s : State) : Host.Outcome State Fault Refusal :=
  s.run (Mach.clocked (15 + a.val) (16 + a.val) (ladCntclr a))

end Sys2Proof.Machine
end

