-- ==== Sys2Proof/Machine/ExecMotion.lean ====
section
/-! DEFINITION. The meanings of the commands of servo, profiles, Quadrille and head sequencers (spec/06, spec/07). -/
namespace Sys2Proof.Machine

/-- SERVO_GATE_OPEN (R138): A locked slot's servo gate opens GATE_LEAD servo bits before the predicted field start. -/
def execServoGateOpen (a : Actuator) (k : HeadSlot) (s : State) : Host.Outcome State Fault Refusal :=
  s.run (Mach.clocked (15 + a.val) (20 + a.val) (servoGateOpen a k))

/-- SAM_SEARCH_END (R139): The SAM search window ends, finding the mark or dropping the write-safe flag on a miss. -/
def execSamSearchEnd (a : Actuator) (k : HeadSlot) (x : List Bool) (y : List Bool) (s : State) : Host.Outcome State Fault Refusal :=
  s.run (Mach.clocked (15 + a.val) (20 + a.val) (samSearchEnd a k x y))

/-- PES_READY (R144): Twenty-four cycles after burst D the demodulator writes PES and POS, updates lock and T_est, and
evaluates the write-safe flag. -/
def execPesReady (a : Actuator) (k : HeadSlot) (f : WedgeField) (s : State) : Host.Outcome State Fault Refusal :=
  s.run (Mach.clocked (15 + a.val) (20 + a.val) (Mach.watched (pesReady a k f)))

/-- SRV_POST (R147): A write to SRV_POST posts the staged outputs for a wedge, or is ignored as late, duplicate or
wrong. -/
def execSrvPost (a : Actuator) (seq : BitVec 8) (wpermit : Bool) (s : State) : Host.Outcome State Fault Refusal :=
  s.run (Mach.clocked (15 + a.val) (20 + a.val) (srvPost a seq wpermit))

/-- POST_DEADLINE (R148): At A(k) - 16 with no on-time post the wedge is an overrun. -/
def execPostDeadline (a : Actuator) (s : State) : Host.Outcome State Fault Refusal :=
  s.run (Mach.clocked (15 + a.val) (20 + a.val) (Mach.watched (postDeadline a)))

/-- APPLY_INSTANT (R146): At the apply instant the VCM and microactuator commands are applied, profiles advance and
Quadrille steps. -/
def execApplyInstant (a : Actuator) (same : BitVec 4) (s : State) : Host.Outcome State Fault Refusal :=
  s.run (Mach.clocked (15 + a.val) (20 + a.val) (Mach.watched (applyInstant a same)))

/-- SRV_TARGET_WRITE (R144): A write to SRV_TARGETn sets the target and clears track confirmation. -/
def execSrvTargetWrite (a : Actuator) (k : HeadSlot) (w : Word) (s : State) : Host.Outcome State Fault Refusal :=
  s.run (Mach.clocked (15 + a.val) (20 + a.val) (srvTargetWrite a k w))

/-- SRV_CTRL_WRITE (R151): A write to SRV_CTRL enables slots or changes WSLOT, which drops the write-safe flag. -/
def execSrvCtrlWrite (a : Actuator) (w : Word) (s : State) : Host.Outcome State Fault Refusal :=
  s.run (Mach.clocked (15 + a.val) (20 + a.val) (srvCtrlWrite a w))

/-- SRV_LEAD_WRITE (R156): A write to SRV_CFG.LEAD changes the lead slot, or is ignored with SRV_ERR.LEAD. -/
def execSrvLeadWrite (a : Actuator) (k : HeadSlot) (s : State) : Host.Outcome State Fault Refusal :=
  s.run (Mach.clocked (15 + a.val) (20 + a.val) (srvLeadWrite a k))

/-- SRV_RRO_LOAD (R145): A write to SRV_RRO_LOADn invalidates the row and starts its fetch. -/
def execSrvRroLoad (a : Actuator) (k : HeadSlot) (w : Word) (s : State) : Host.Outcome State Fault Refusal :=
  s.run (Mach.clocked (15 + a.val) (20 + a.val) (srvRroLoad a k w))

/-- RRO_FETCH_DONE (R145): The RRO row's last token arrives and RRO_VALID returns to 1. -/
def execRroFetchDone (a : Actuator) (k : HeadSlot) (s : State) : Host.Outcome State Fault Refusal :=
  s.run (Mach.clocked (15 + a.val) (20 + a.val) (rroFetchDone a k))

/-- PRG_START (R158): PRG_CMD.START drops the write-safe flag and plans a profile, or superposes it on a running one. -/
def execPrgStart (a : Actuator) (s : State) : Host.Outcome State Fault Refusal :=
  s.run (Mach.clocked 20 29 (prgStart a))

/-- PLAN_DONE (R159): Planning ends; the channel enters ADMIT or the start is refused. -/
def execPlanDone (a : Actuator) (s : State) : Host.Outcome State Fault Refusal :=
  s.run (Mach.clocked 20 29 (planDone a))

/-- PRG_ABORT (R161): PRG_CMD.ABORT stops a channel at the next apply instant. -/
def execPrgAbort (a : Actuator) (s : State) : Host.Outcome State Fault Refusal :=
  s.run (Mach.clocked 20 29 (prgAbort a))

/-- QUADRILLE_ADMIT (R170): In a cycle, the oldest channel in ADMIT is admitted if its estimate fits the budget. -/
def execQuadrilleAdmit (s : State) : Host.Outcome State Fault Refusal :=
  s.run (Mach.clocked 20 30 (quadrilleAdmit))

/-- FAULT_END (R179): An actuator fault ends when all SRV_FAULT bits are 0 and PARKED is 1. -/
def execFaultEnd (a : Actuator) (s : State) : Host.Outcome State Fault Refusal :=
  s.run (Mach.watched (faultEnd a))

/-- QDR_BANK_WRITE (R168): A write to QDR_CTRL changes EN or the live bank, with destinations switching at their next
apply instants. -/
def execQdrBankWrite (w : Word) (s : State) : Host.Outcome State Fault Refusal :=
  s.run (Mach.clocked 20 30 (qdrBankWrite w))

/-- QDR_COEF_WRITE (R168): A write to QDR_COEF stores a coefficient, or is ignored for the live bank. -/
def execQdrCoefWrite (w : Word) (s : State) : Host.Outcome State Fault Refusal :=
  s.run (Mach.clocked 20 30 (qdrCoefWrite w))

/-- QUAL (R181): A write of QDR_ACTn.QUAL ends requalification, or is ignored with QDR_ERR.QUAL. -/
def execQual (a : Actuator) (bad : BitVec 24) (s : State) : Host.Outcome State Fault Refusal :=
  s.run (Mach.clocked 20 30 (Mach.watched (qual a bad)))

/-- DEPOP_WRITE (R183): A write to QDR_ACTn.DEPOP depopulates a parked actuator or reinstates it, setting RO. -/
def execDepopWrite (a : Actuator) (b : Bool) (s : State) : Host.Outcome State Fault Refusal :=
  s.run (Mach.clocked 20 30 (Mach.watched (depopWrite a b)))

/-- SELECT (R173): SELECT primitive sends a head-select frame when the head and slot are allowed. -/
def execSelect (a : Actuator) (inp : Bool) (s : State) : Host.Outcome State Fault Refusal :=
  s.run (Mach.clocked (15 + a.val) (24 + a.val) (selectRow a inp))

/-- HEAD_SELECT_SETTLE (R173): SETTLE F-PER cycles after a select frame VALID becomes 1 with the new head. -/
def execHeadSelectSettle (a : Actuator) (k : HeadSlot) (s : State) : Host.Outcome State Fault Refusal :=
  s.run (Mach.clocked (15 + a.val) (24 + a.val) (headSelectSettle a k))

/-- WFRAME (R172): WFRAME primitive sends a preamplifier register-write frame. -/
def execWframe (a : Actuator) (inp : Bool) (s : State) : Host.Outcome State Fault Refusal :=
  s.run (Mach.clocked (15 + a.val) (24 + a.val) (wframeRow a inp))

/-- RFRAME (R172): RFRAME primitive sends a preamplifier register-read frame. -/
def execRframe (a : Actuator) (inp : Bool) (s : State) : Host.Outcome State Fault Refusal :=
  s.run (Mach.clocked (15 + a.val) (24 + a.val) (rframeRow a inp))

/-- FRAMEDONE (R172): A serial frame to the preamplifier ends. -/
def execFramedone (a : Actuator) (data : BitVec 16) (s : State) : Host.Outcome State Fault Refusal :=
  s.run (Mach.clocked (15 + a.val) (24 + a.val) (framedone a data))

/-- GATEARM (R174): GATEARM primitive passes a gate moment to the frame timer. -/
def execGatearm (a : Actuator) (inp : Bool) (s : State) : Host.Outcome State Fault Refusal :=
  s.run (Mach.clocked (15 + a.val) (24 + a.val) (gatearmRow a inp))

/-- PA_FAULT_ASSERT (R177): PA_FAULT_N is low for 20 ns; HSQ_FAULT.LATCH is set and the write-safe flag drops. -/
def execPaFaultAssert (a : Actuator) (s : State) : Host.Outcome State Fault Refusal :=
  s.run (Mach.clocked (15 + a.val) (24 + a.val) (paFaultAssert a))

end Sys2Proof.Machine
end

