-- ==== Sys2Proof/Machine/ExecPower.lean ====
section
/-! DEFINITION. The meanings of the commands of power die, spindle and actuators (spec/08). -/
namespace Sys2Proof.Machine

/-- STATUS_FRAME (R184): The logic die sends its status frame to the power die. -/
def execStatusFrame (s : State) : Host.Outcome State Fault Refusal :=
  s.run (Mach.clocked 28 64 (statusFrame))

/-- STATUS_FRAME_TIMEOUT (R184): No status frame for 1 ms: the power die floats the spindle and retracts. -/
def execStatusFrameTimeout (s : State) : Host.Outcome State Fault Refusal :=
  s.run (statusFrameTimeout)

/-- DRV_OC (R190): A bridge current above 3,600 mA turns the bridge off and reports a DRV fault. -/
def execDrvOc (a : Actuator) (s : State) : Host.Outcome State Fault Refusal :=
  s.run (Mach.watched (drvOc a))

/-- DRV_OPEN (R190): Low current against a reference for 1 ms reports an OPEN fault and retracts. -/
def execDrvOpen (a : Actuator) (s : State) : Host.Outcome State Fault Refusal :=
  s.run (Mach.watched (drvOpen a))

/-- DRV_MA_LIMIT (R190): A microactuator limit held for 100 us reports a fault and retracts. -/
def execDrvMaLimit (a : Actuator) (k : HeadSlot) (s : State) : Host.Outcome State Fault Refusal :=
  s.run (Mach.watched (drvMaLimit a k))

/-- DRV_OT (R190): The power die reaches 150 C; all four actuators fault and retract. -/
def execDrvOt (s : State) : Host.Outcome State Fault Refusal :=
  s.run (Mach.watched (drvOt))

/-- POWER_DIE_WARN (R190): The power die reaches 135 C and raises an event. -/
def execPowerDieWarn (s : State) : Host.Outcome State Fault Refusal :=
  s.run (powerDieWarn)

/-- LISTEN_END (R191): The 50 ms LISTEN step ends and leads to CATCH, STOPBRAKE or ALIGN. -/
def execListenEnd (s : State) : Host.Outcome State Fault Refusal :=
  s.run (Mach.clocked 28 32 (listenEnd))

/-- STOPBRAKE_END (R191): Back-EMF below 50 mV for 500 ms ends STOPBRAKE. -/
def execStopbrakeEnd (s : State) : Host.Outcome State Fault Refusal :=
  s.run (Mach.clocked 28 32 (stopbrakeEnd))

/-- ALIGN_END (R191): ALIGN_MS expires and RAMP begins. -/
def execAlignEnd (s : State) : Host.Outcome State Fault Refusal :=
  s.run (Mach.clocked 28 32 (alignEnd))

/-- RAMP_TIMEOUT (R193): RAMP exceeds 2,000 ms after reaching HAND_RPM and the attempt fails. -/
def execRampTimeout (s : State) : Host.Outcome State Fault Refusal :=
  s.run (Mach.clocked 28 32 (rampTimeout))

/-- OBSERVER_UPDATE (R194): The flux observer integrates and updates angle and speed every 5 us. -/
def execObserverUpdate (x : Sensed) (s : State) : Host.Outcome State Fault Refusal :=
  s.run (Mach.clocked 28 32 (observerUpdate x))

/-- ELECTRICAL_PERIOD_END (R195): At the end of an electrical period the plausibility tests run and CONF and SPN_SPEED
update. -/
def execElectricalPeriodEnd (s : State) : Host.Outcome State Fault Refusal :=
  s.run (Mach.clocked 28 32 (electricalPeriodEnd))

/-- CATCH_TIMEOUT (R199): The 500 ms catch timer expires; the actuators retract and Promenade restarts. -/
def execCatchTimeout (s : State) : Host.Outcome State Fault Refusal :=
  s.run (Mach.clocked 28 32 (catchTimeout))

/-- INHIBIT_RELEASE (R200): The spindle write inhibit returns to 0 after REVS clean revolutions. -/
def execInhibitRelease (s : State) : Host.Outcome State Fault Refusal :=
  s.run (Mach.clocked 28 32 (inhibitRelease))

/-- SPN_DEMAND_WRITE (R203): A write to SPN_DEMAND.LEVEL starts, retargets or stops the spindle. -/
def execSpnDemandWrite (level : BitVec 8) (s : State) : Host.Outcome State Fault Refusal :=
  s.run (Mach.clocked 28 32 (spnDemandWrite level))

/-- SPN_CTRL_WRITE (R191): A write to SPN_CTRL enables the spindle or sets the brake mode. -/
def execSpnCtrlWrite (w : Word) (s : State) : Host.Outcome State Fault Refusal :=
  s.run (Mach.clocked 28 32 (spnCtrlWrite w))

/-- STOPPING_BEGIN (R204): With every actuator PARKED, a pending stop enters STOPPING. -/
def execStoppingBegin (s : State) : Host.Outcome State Fault Refusal :=
  s.run (Mach.clocked 28 32 (stoppingBegin))

/-- STOPPED_DETECT (R204): Back-EMF below 50 mV for 500 ms reports STOPPED. -/
def execStoppedDetect (s : State) : Host.Outcome State Fault Refusal :=
  s.run (Mach.clocked 28 32 (stoppedDetect))

/-- CHOPPER_ON (R205): The rail reaches 13.8 V and the chopper turns on. -/
def execChopperOn (s : State) : Host.Outcome State Fault Refusal :=
  s.run (chopperOn)

/-- CHOPPER_OFF (R205): The rail falls to 13.2 V and the chopper turns off. -/
def execChopperOff (s : State) : Host.Outcome State Fault Refusal :=
  s.run (chopperOff)

/-- CHOPPER_SELF_TEST (R205): At STOPPED to LISTEN the chopper pulses for 20 us. -/
def execChopperSelfTest (s : State) : Host.Outcome State Fault Refusal :=
  s.run (Mach.watched (chopperSelfTest))

/-- CHOPPER_OPEN_CHECK (R205): 5 us after turn-on a low chopper current makes it faulty with CAUSE OPEN. -/
def execChopperOpenCheck (ma : Nat) (s : State) : Host.Outcome State Fault Refusal :=
  s.run (Mach.watched (chopperOpenCheck ma))

/-- CHOPPER_SHORT (R205): Chopper current above 6 A makes it faulty with CAUSE SHORT. -/
def execChopperShort (s : State) : Host.Outcome State Fault Refusal :=
  s.run (Mach.watched (chopperShort))

/-- LADDER_L1_ENTER (R206): The rail reaches 14.5 V; the stop changes to short brake and the chopper is made faulty. -/
def execLadderL1Enter (s : State) : Host.Outcome State Fault Refusal :=
  s.run (Mach.watched (ladderL1Enter))

/-- LADDER_L2_ENTER (R206): The rail reaches 15.5 V; the phases float, writes are inhibited and VCMs use slow decay. -/
def execLadderL2Enter (s : State) : Host.Outcome State Fault Refusal :=
  s.run (Mach.watched (ladderL2Enter))

/-- LADDER_L2_LEAVE (R206): The rail falls to 15.0 V; a spindle that was in RUN enters CATCH. -/
def execLadderL2Leave (s : State) : Host.Outcome State Fault Refusal :=
  s.run (ladderL2Leave)

/-- LADDER_L3_ENTER (R206): The rail reaches 16.0 V; every power-stage output turns off. -/
def execLadderL3Enter (s : State) : Host.Outcome State Fault Refusal :=
  s.run (Mach.watched (ladderL3Enter))

/-- LADDER_L3_LEAVE (R206): The rail leaves L3 and every loaded actuator retracts at once. -/
def execLadderL3Leave (s : State) : Host.Outcome State Fault Refusal :=
  s.run (ladderL3Leave)

/-- SPN_BRK_FAULT_CLEAR (R207): Writing 1 to SPN_BRK.FAULT clears FAULT, CAUSE and ACK. -/
def execSpnBrkFaultClear (s : State) : Host.Outcome State Fault Refusal :=
  s.run (Mach.clocked 28 32 (spnBrkFaultClear))

/-- SPN_BRK_ACK (R207): A write of SPN_BRK.ACK = 1 permits stops by short brake. -/
def execSpnBrkAck (s : State) : Host.Outcome State Fault Refusal :=
  s.run (Mach.clocked 28 32 (spnBrkAck))

/-- RETRACT_START (R209): A retract request starts the velocity, climb and park sequence. -/
def execRetractStart (a : Actuator) (s : State) : Host.Outcome State Fault Refusal :=
  s.run (Mach.watched (retractStart a))

/-- RETRACT_VELOCITY_END (R209): Velocity below 25 % of target for 2 ms ends the velocity phase. -/
def execRetractVelocityEnd (a : Actuator) (s : State) : Host.Outcome State Fault Refusal :=
  s.run (retractVelocityEnd a)

/-- RETRACT_CLIMB_END (R209): The 30 ms climb phase ends and Park begins. -/
def execRetractClimbEnd (a : Actuator) (s : State) : Host.Outcome State Fault Refusal :=
  s.run (retractClimbEnd a)

/-- RETRACT_PARK_END (R209): The 50 ms park phase ends and PARKED becomes 1. -/
def execRetractParkEnd (a : Actuator) (s : State) : Host.Outcome State Fault Refusal :=
  s.run (Mach.watched (fun m => (retractParkEnd a m).afterSave))

/-- RETRACT_TIMEOUT (R209): 250 ms without reaching Park: the sequence jumps to Park and RET_TO is set. -/
def execRetractTimeout (a : Actuator) (s : State) : Host.Outcome State Fault Refusal :=
  s.run (Mach.watched (retractTimeout a))

/-- LOW_SPEED_RETRACT (R208): A measured speed below MINRPM with heads loaded retracts every actuator. -/
def execLowSpeedRetract (s : State) : Host.Outcome State Fault Refusal :=
  s.run (Mach.watched (lowSpeedRetract))

/-- LOAD (R210): VCM_CMDn.LOAD starts a head load, or is ignored with VCM_ERR.LOAD. -/
def execLoad (a : Actuator) (s : State) : Host.Outcome State Fault Refusal :=
  s.run (Mach.clocked 28 33 (Mach.watched (load a)))

/-- UNLOAD (R208): VCM_CMDn.UNLOAD retracts that actuator. -/
def execUnload (a : Actuator) (s : State) : Host.Outcome State Fault Refusal :=
  s.run (Mach.clocked 28 33 (Mach.watched (unload a)))

/-- LOAD_TIMEOUT (R210): No lock within 200 ms of load: the power die retracts and sets LOAD_TO. -/
def execLoadTimeout (a : Actuator) (s : State) : Host.Outcome State Fault Refusal :=
  s.run (Mach.clocked 28 33 (Mach.watched (loadTimeout a)))

end Sys2Proof.Machine
end

