-- ==== Sys2Proof/Machine/ExecSystem.lean ====
section
/-! DEFINITION. The meanings of the commands of power modes, save, boot, security, clocks, resets, events and registers (spec/13–19). -/
namespace Sys2Proof.Machine

/-- IDLE_T4_EXPIRY (R307): T4 without media work moves M3 to M4. -/
def execIdleT4Expiry (s : State) : Host.Outcome State Fault Refusal :=
  s.run (idleT4Expiry)

/-- IDLE_T5_EXPIRY (R307): T5 in M4 destages and unloads into M5. -/
def execIdleT5Expiry (s : State) : Host.Outcome State Fault Refusal :=
  s.run (idleT5Expiry)

/-- IDLE_T6_EXPIRY (R307): T6 moves M5 to M6 at reduced speed. -/
def execIdleT6Expiry (s : State) : Host.Outcome State Fault Refusal :=
  s.run (idleT6Expiry)

/-- IDLE_T7_EXPIRY (R307): T7 moves M6 to M7 and stops the spindle. -/
def execIdleT7Expiry (s : State) : Host.Outcome State Fault Refusal :=
  s.run (idleT7Expiry)

/-- MEDIA_WAKE (R306): A media command in M4-M7 starts the return to M3. -/
def execMediaWake (s : State) : Host.Outcome State Fault Refusal :=
  s.run (mediaWake)

/-- SPIN_UP_COMPLETE (R306): Spindle in RUN, capacity computed, replay ended and no actuator in REQUAL: M2 enters M3. -/
def execSpinUpComplete (s : State) : Host.Outcome State Fault Refusal :=
  s.run (spinUpComplete)

/-- CAPACITY_MEASURE (R314): After the 500 ms coast test the kinetic-save capacity C is computed. -/
def execCapacityMeasure (d : DragMeas) (s : State) : Host.Outcome State Fault Refusal :=
  s.run (capacityMeasure d)

/-- WRITE_ADMISSION (R315): The earliest waiting write's transfer begins once its units fit under L. -/
def execWriteAdmission (s : State) : Host.Outcome State Fault Refusal :=
  s.run (writeAdmission)

/-- METADATA_FLUSH (R315): Changed metadata units are copied to flash each second or at 256 uncopied units. -/
def execMetadataFlush (s : State) : Host.Outcome State Fault Refusal :=
  s.run (metadataFlush)

/-- THERMAL_THROTTLE (R310): The logic die reaches 110 C and the 13.0 W cap row is applied until 100 C. -/
def execThermalThrottle (celsius : BitVec 8) (s : State) : Host.Outcome State Fault Refusal :=
  s.run (thermalThrottle celsius)

/-- LOGIC_DIE_OVERTEMP (R306): The logic die reaches 125 C and the HQ8 enters M10. -/
def execLogicDieOvertemp (s : State) : Host.Outcome State Fault Refusal :=
  s.run (logicDieOvertemp)

/-- RUN_BEGIN (R311): A waiting formatter begins a run once fewer than STREAMS are in runs. -/
def execRunBegin (s : State) : Host.Outcome State Fault Refusal :=
  s.run (runBegin)

/-- SLEEP_ENTRY (R384): The sleep condition holds and the HQ8 enters M8. -/
def execSleepEntry (s : State) : Host.Outcome State Fault Refusal :=
  s.run (sleepEntry)

/-- WAKE (R384): PERST# deassertion or electrical-idle exit wakes M8 to M7. -/
def execWake (p : PortId) (perst : Bool) (s : State) : Host.Outcome State Fault Refusal :=
  s.run (wake p perst)

/-- SUPPLY_LOSS (R317): V12 or V5 below its threshold opens isolation and starts rectification, entering M9 if armed. -/
def execSupplyLoss (v12 : BitVec 10) (v5 : BitVec 10) (us : BitVec 10) (s : State) : Host.Outcome State Fault Refusal :=
  s.run (supplyLoss v12 v5 us)

/-- SAVE_UNIT_WRITE (R319): A writer takes the next dirty unit when its FIFO has room. -/
def execSaveUnitWrite (a : Actuator) (s : State) : Host.Outcome State Fault Refusal :=
  s.run (saveUnitWrite a)

/-- BUS_UNDERVOLTAGE (R318): The bus falls below 9.0 V, writing ends and retract begins. -/
def execBusUndervoltage (s : State) : Host.Outcome State Fault Refusal :=
  s.run (busUndervoltage)

/-- SAVE_END (R320): List exhausted, END_RPM or TMAX ends writing; groups close and actuators retract. -/
def execSaveEnd (stop : SaveStop) (busMin : BitVec 16) (us : BitVec 32) (s : State) :
    Host.Outcome State Fault Refusal :=
  s.run (saveEnd stop busMin us)

/-- SUPPLY_RETURN (R321): Supplies return in M9; the save completes, then a software reset is requested. -/
def execSupplyReturn (s : State) : Host.Outcome State Fault Refusal :=
  s.run (supplyReturn)

/-- REPLAY (R323): Before the first M3 after power-on the save region is replayed into dirty data. -/
def execReplay (scan : List GroupScan) (s : State) : Host.Outcome State Fault Refusal :=
  s.run (Mach.keyed (replay scan))

/-- READOPT_DIRTY (R325): After a non-power-on chip reset the dirty list is walked and units re-adopted. -/
def execReadoptDirty (s : State) : Host.Outcome State Fault Refusal :=
  s.run (Mach.keyed (readoptDirty))

/-- SVN_RAISE (R336): On first M3 after activation the SVN fuse counts are raised. -/
def execSvnRaise (s : State) : Host.Outcome State Fault Refusal :=
  s.run (svnRaise)

/-- POWER_ON_RESET (R373): VAON rises and a power-on reset is requested. -/
def execPowerOnReset (s : State) : Host.Outcome State Fault Refusal :=
  s.run (powerOnReset)

/-- BROWN_OUT_RESET (R305): A rail out of window for 10 us outside M9 requests a brown-out reset. -/
def execBrownOutReset (rail : Fin 7) (s : State) : Host.Outcome State Fault Refusal :=
  s.run (brownOutReset rail)

/-- RESET_N_ASSERT (R376): RESET_N low for 64 ROSC cycles requests a pin reset. -/
def execResetNAssert (s : State) : Host.Outcome State Fault Refusal :=
  s.run (resetNAssert)

/-- RESET_N_RELEASE (R376): RESET_N high for 64 ROSC cycles releases the hold. -/
def execResetNRelease (s : State) : Host.Outcome State Fault Refusal :=
  s.run (resetNRelease)

/-- RST_SWRST_WRITE (R377): A write of the key to RST_SWRST requests a software reset, or is ignored. -/
def execRstSwrstWrite (req : Requester) (w : Word) (s : State) : Host.Outcome State Fault Refusal :=
  s.run (rstSwrstWrite req w)

/-- CHIPRST (R373): Debug port CHIPRST in OPEN requests a debug reset. -/
def execChiprst (s : State) : Host.Outcome State Fault Refusal :=
  s.run (chiprst)

/-- CORE_WATCHDOG_EXPIRY (R353): A core watchdog expires and requests a chip reset. -/
def execCoreWatchdogExpiry (k : Fin 12) (s : State) : Host.Outcome State Fault Refusal :=
  s.run (coreWatchdogExpiry k)

/-- CORE_LOCKUP (R353): A core locks up and requests a chip reset. -/
def execCoreLockup (k : Fin 12) (s : State) : Host.Outcome State Fault Refusal :=
  s.run (coreLockup k)

/-- CLOCK_FAILURE (R370): A clock monitor detects a failure and requests a chip reset. -/
def execClockFailure (d : Fin 64) (kind : Fin 3) (s : State) : Host.Outcome State Fault Refusal :=
  s.run (clockFailure d kind)

/-- CLOCK_GOOD_TIMEOUT (R369): Clock-good has not risen 100 us after a release request. -/
def execClockGoodTimeout (d : Fin 40) (s : State) : Host.Outcome State Fault Refusal :=
  s.run (clockGoodTimeout d)

/-- STORM_HOLD_END (R381): The 100 ms storm hold ends. -/
def execStormHoldEnd (s : State) : Host.Outcome State Fault Refusal :=
  s.run (stormHoldEnd)

/-- PHASE_P0 (R379): The power die ramps the rails and starts the crystal. -/
def execPhaseP0 (s : State) : Host.Outcome State Fault Refusal :=
  s.run (phaseP0)

/-- RAIL_RAMP_TIMEOUT (R379): Rails not all good 20 ms after VAON: rails off, wait 100 ms, restart P0. -/
def execRailRampTimeout (s : State) : Host.Outcome State Fault Refusal :=
  s.run (railRampTimeout)

/-- CRYSTAL_GOOD (R366): 1,024 good crystal cycles make the crystal good. -/
def execCrystalGood (s : State) : Host.Outcome State Fault Refusal :=
  s.run (crystalGood)

/-- PLL_LOCK (R366): The root PLL reports lock. -/
def execPllLock (s : State) : Host.Outcome State Fault Refusal :=
  s.run (pllLock)

/-- FUSE_SENSE (R330): Phase P1: BC senses fuses and loads class-F fields. -/
def execFuseSense (testEn : Bool) (s : State) : Host.Outcome State Fault Refusal :=
  s.run (fuseSense testEn)

/-- OPTION_LOAD (R328): Phase P2: BC reads option block A or B, or applies defaults. -/
def execOptionLoad (s : State) : Host.Outcome State Fault Refusal :=
  s.run (optionLoad)

/-- CLOCK_START (R378): Phase P3: the PLL is enabled and domains are released. -/
def execClockStart (s : State) : Host.Outcome State Fault Refusal :=
  s.run (clockStart)

/-- DOMAIN_RELEASE (R369): A block leaves reset in a cycle in which its clock-good is 1. -/
def execDomainRelease (d : Fin 40) (s : State) : Host.Outcome State Fault Refusal :=
  s.run (domainRelease d)

/-- BUFFER_INIT (R218): Phase P4: LPDDR5X is initialised or leaves self-refresh and the buffer is initialised. -/
def execBufferInit (s : State) : Host.Outcome State Fault Refusal :=
  s.run (bufferInit)

/-- BUNDLE_SELECT (R331): Phase P5: BC selects, verifies and loads a bundle. -/
def execBundleSelect (s : State) : Host.Outcome State Fault Refusal :=
  s.run (bundleSelect)

/-- CONFIG_APPLY (R330): Phase P6: configuration applied, seal set, key ladder run and cores released. -/
def execConfigApply (s : State) : Host.Outcome State Fault Refusal :=
  s.run (configApply)

/-- SPIN_DELAY_END (R312): Phase P7: the staggered spin-up delay expires and spin-up becomes eligible. -/
def execSpinDelayEnd (s : State) : Host.Outcome State Fault Refusal :=
  s.run (spinDelayEnd)

/-- CLK_GATE_WRITE (R372): A write to CLK_GATE opens or closes domain gates, or is ignored. -/
def execClkGateWrite (req : Requester) (half : Fin 2) (w : Word) (s : State) : Host.Outcome State Fault Refusal :=
  s.run (clkGateWrite req half w)

/-- BLOCK_RESET_CHN (R80): RST_BLKRST0 bit for CHNn requests a channel block reset. -/
def execBlockResetChn (n : Stream) (s : State) : Host.Outcome State Fault Refusal :=
  s.run (blockResetChn n)

/-- BLOCK_RESET_FMT (R108): Block reset of FMTn and its sequencer. -/
def execBlockResetFmt (n : Stream) (s : State) : Host.Outcome State Fault Refusal :=
  s.run (blockResetFmt n)

/-- BLOCK_RESET_LAD (R135): Block reset of LADn and its sequencer. -/
def execBlockResetLad (a : Actuator) (s : State) : Host.Outcome State Fault Refusal :=
  s.run (blockResetLad a)

/-- BLOCK_RESET_SRV (R163): Block reset of SRVn. -/
def execBlockResetSrv (a : Actuator) (s : State) : Host.Outcome State Fault Refusal :=
  s.run (blockResetSrv a)

/-- BLOCK_RESET_HSQ (R383): Block reset of HSQn and its sequencer. -/
def execBlockResetHsq (a : Actuator) (s : State) : Host.Outcome State Fault Refusal :=
  s.run (blockResetHsq a)

/-- BLOCK_RESET_DEC (R80): Block reset of DEC. -/
def execBlockResetDec (s : State) : Host.Outcome State Fault Refusal :=
  s.run (blockResetDec)

/-- BLOCK_RESET_PRG (R163): Block reset of PRG, aborting its channels. -/
def execBlockResetPrg (s : State) : Host.Outcome State Fault Refusal :=
  s.run (blockResetPrg)

/-- BLOCK_RESET_QDR (R382): Block reset of QDR. -/
def execBlockResetQdr (s : State) : Host.Outcome State Fault Refusal :=
  s.run (blockResetQdr)

/-- BLOCK_RESET_SPN (R211): Block reset of SPN. -/
def execBlockResetSpn (s : State) : Host.Outcome State Fault Refusal :=
  s.run (blockResetSpn)

/-- BLOCK_RESET_VCM (R211): Block reset of VCM. -/
def execBlockResetVcm (s : State) : Host.Outcome State Fault Refusal :=
  s.run (blockResetVcm)

/-- BLOCK_RESET_POOL (R240): Block reset of POOL. -/
def execBlockResetPool (s : State) : Host.Outcome State Fault Refusal :=
  s.run (blockResetPool)

/-- BLOCK_RESET_CCH (R240): Block reset of CCH. -/
def execBlockResetCch (s : State) : Host.Outcome State Fault Refusal :=
  s.run (blockResetCch)

/-- BLOCK_RESET_SCB (R240): Block reset of SCB. -/
def execBlockResetScb (s : State) : Host.Outcome State Fault Refusal :=
  s.run (blockResetScb)

/-- BLOCK_RESET_DMA (R255): Block reset of DMA. -/
def execBlockResetDma (s : State) : Host.Outcome State Fault Refusal :=
  s.run (blockResetDma)

/-- BLOCK_RESET_QSQ (R383): Block reset of QSQ and its sequencers. -/
def execBlockResetQsq (s : State) : Host.Outcome State Fault Refusal :=
  s.run (blockResetQsq)

/-- BLOCK_RESET_RELEASE (R382): After 16 cycles a block in block reset is released. -/
def execBlockResetRelease (b : Fin 39) (s : State) : Host.Outcome State Fault Refusal :=
  s.run (blockResetRelease b)

/-- KEY_LOAD_SLOT (R340): SEC_KEYCMD OP 1 loads a key slot from the working register. -/
def execKeyLoadSlot (req : Requester) (slot : KeySlot) (s : State) : Host.Outcome State Fault Refusal :=
  s.run (Mach.clocked 27 64 (keyLoadSlot req slot))

/-- KEY_CLEAR_SLOT (R340): SEC_KEYCMD OP 2 clears a key slot. -/
def execKeyClearSlot (req : Requester) (slot : KeySlot) (s : State) : Host.Outcome State Fault Refusal :=
  s.run (Mach.clocked 27 64 (keyClearSlot req slot))

/-- KEY_CLEAR_ALL (R340): SEC_KEYCMD OP 3 clears slots 0-30. -/
def execKeyClearAll (req : Requester) (s : State) : Host.Outcome State Fault Refusal :=
  s.run (Mach.clocked 27 64 (keyClearAll req))

/-- NONCE_REQUEST (R346): A test station obtains a Herug nonce through the mailbox. -/
def execNonceRequest (s : State) : Host.Outcome State Fault Refusal :=
  s.run (Mach.clocked 27 64 (nonceRequest))

/-- TOKEN_SUBMIT (R346): A Herug token is checked and accepted or rejected. -/
def execTokenSubmit (t : Token) (s : State) : Host.Outcome State Fault Refusal :=
  s.run (Mach.clocked 27 64 (tokenSubmit t))

/-- HERUG_PREPARE (R347): After an accepted token Ibzin quiesces, destages and unloads. -/
def execHerugPrepare (s : State) : Host.Outcome State Fault Refusal :=
  s.run (Mach.clocked 27 64 (herugPrepare))

/-- DBG_GRANT (R348): DBG_GRANT.GRANT starts the erase before opening. -/
def execDbgGrant (s : State) : Host.Outcome State Fault Refusal :=
  s.run (Mach.clocked 27 64 (dbgGrant))

/-- DBG_REFUSE (R347): DBG_GRANT.REFUSE returns Herug to CLOSED. -/
def execDbgRefuse (s : State) : Host.Outcome State Fault Refusal :=
  s.run (Mach.clocked 27 64 (dbgRefuse))

/-- HERUG_OPEN (R348): The buffer fill ends and Herug opens into M11. -/
def execHerugOpen (s : State) : Host.Outcome State Fault Refusal :=
  s.run (Mach.clocked 27 64 (herugOpen))

/-- FUSE_PROGRAM (R351): Fuse programming under PROG writes key rows and advances the lifecycle. -/
def execFuseProgram (toReturned : Bool) (s : State) : Host.Outcome State Fault Refusal :=
  s.run (Mach.clocked 27 64 (fuseProgram toReturned))

/-- BAR2_WRITE (R426): A BAR2 write is carried out only in M11 with REGS, otherwise discarded. -/
def execBar2Write (o : BitVec 22) (len : Fin 5) (w : Word) (s : State) : Host.Outcome State Fault Refusal :=
  s.run (bar2Write o len w)

/-- PREAMP_RAIL_LIMIT (R394): A preamplifier rail in current limit for 100 us is switched off. -/
def execPreampRailLimit (a : Actuator) (s : State) : Host.Outcome State Fault Refusal :=
  s.run (preampRailLimit a)

/-- EVENT_FIRE (R405): An event report arrives; status, counter, first-fault latch and ledger update. -/
def execEventFire (src : Option (Fin 1152)) (s : State) : Host.Outcome State Fault Refusal :=
  s.run (Mach.clocked 26 64 (eventFire src))

/-- LEDGER_WRITE_DONE (R410): A ledger entry write completes and HEAD advances. -/
def execLedgerWriteDone (s : State) : Host.Outcome State Fault Refusal :=
  s.run (Mach.clocked 26 64 (ledgerWriteDone))

/-- EVT_CNTCLR (R408): A write to EVT_CNTCLR clears every event counter. -/
def execEvtCntclr (s : State) : Host.Outcome State Fault Refusal :=
  s.run (Mach.clocked 26 64 (evtCntclr))

/-- EVT_FIRST_CLEAR (R409): A write to EVT_FIRST.VALID re-arms the first-fault latch. -/
def execEvtFirstClear (s : State) : Host.Outcome State Fault Refusal :=
  s.run (Mach.clocked 26 64 (evtFirstClear))

/-- EVT_SWRAISE (R405): A write to EVT_SWRAISE raises an EG35 source, or is ignored with SW_BAD. -/
def execEvtSwraise (bit : BitVec 5) (s : State) : Host.Outcome State Fault Refusal :=
  s.run (Mach.clocked 26 64 (evtSwraise bit))

/-- REC_PROGRAM (R416): REC_CMD OP 1 programs a recorder record. -/
def execRecProgram (s : State) : Host.Outcome State Fault Refusal :=
  s.run (Mach.clocked 26 64 (recProgram))

/-- REC_ERASE (R416): REC_CMD OP 2 erases a last-area sector. -/
def execRecErase (s : State) : Host.Outcome State Fault Refusal :=
  s.run (Mach.clocked 26 64 (recErase))

/-- REC_DONE (R416): A recorder operation ends with its RESULT. -/
def execRecDone (outcome : Fin 3) (s : State) : Host.Outcome State Fault Refusal :=
  s.run (Mach.clocked 26 64 (recDone outcome))

/-- SNAPSHOT_TIMER (R418): Every 3,600 operating seconds a SNAPSHOT record is written. -/
def execSnapshotTimer (s : State) : Host.Outcome State Fault Refusal :=
  s.run (snapshotTimer)

/-- POH_STORE (R419): Every 60 operating seconds POH is stored. -/
def execPohStore (s : State) : Host.Outcome State Fault Refusal :=
  s.run (pohStore)

/-- REGISTER_WRITE (R423): A write to a register field without behaviour of its own, per its access type. -/
def execRegisterWrite (req : Requester) (a : BitVec 32) (len : Fin 5) (w : Word) (s : State) :
    Host.Outcome State Fault Refusal :=
  s.run (registerWrite req a len w)

/-- SPIN_PHASE_OVERCURRENT (R193): A spindle phase current above 5,000 mA fails the Promenade attempt, floats the
phases and leads to STOPBRAKE and a retry. -/
def execSpinPhaseOvercurrent (s : State) : Host.Outcome State Fault Refusal :=
  s.run (Mach.clocked 28 32 (spinPhaseOvercurrent))

/-- LADDER_L1_LEAVE (R206): The rail falls to 14.0 V and the overvoltage ladder leaves level L1. -/
def execLadderL1Leave (s : State) : Host.Outcome State Fault Refusal :=
  s.run (ladderL1Leave)

/-- THERMAL_THROTTLE_END (R310): The logic-die junction falls to 100 C and Ibzin leaves the 13.0 W thermal row,
restoring the cap row of P. -/
def execThermalThrottleEnd (celsius : BitVec 8) (s : State) : Host.Outcome State Fault Refusal :=
  s.run (thermalThrottleEnd celsius)

/-- ASPM_L1_EXIT (R261): A port in ASPM L1 or an L1 substate returns to L0 when either side has a TLP or DLLP to send. -/
def execAspmL1Exit (p : PortId) (s : State) : Host.Outcome State Fault Refusal :=
  s.run (Mach.clocked 38 64 (aspmL1Exit p))

/-- PERST_DEASSERT (R279): A port's PERST# deasserts outside M8 and the port may train again. -/
def execPerstDeassert (p : PortId) (s : State) : Host.Outcome State Fault Refusal :=
  s.run (perstDeassert p)

/-- INTERRUPT_COALESCING_TIMEOUT (R273): The interrupt coalescing time runs out and the delayed MSI-X message or INTx
is sent. -/
def execInterruptCoalescingTimeout (p : PortId) (s : State) : Host.Outcome State Fault Refusal :=
  s.run (interruptCoalescingTimeout p)

/-- POWER_DIE_POWER_ON (R386): Supply inputs return after both were absent and the power die powers on, returning
SPN_BRK to its reset values. -/
def execPowerDiePowerOn (s : State) : Host.Outcome State Fault Refusal :=
  s.run (powerDiePowerOn)

/-- PREAMP_TEMPERATURE_READ (R182): At least once per second Ibzin reads the preamplifier temperature and advances TDG
after a 3 C move. -/
def execPreampTemperatureRead (a : Actuator) (temp : Int) (s : State) : Host.Outcome State Fault Refusal :=
  s.run (preampTemperatureRead a temp)

/-- TEMPERATURE_THRESHOLD_CROSSED (R301): A measured temperature crosses the Temperature Threshold feature and a
SMART/Health asynchronous event is produced. -/
def execTemperatureThresholdCrossed (sensor : Fin 3) (kelvin : BitVec 16) (s : State) :
    Host.Outcome State Fault Refusal :=
  s.run (temperatureThresholdCrossed sensor kelvin)

end Sys2Proof.Machine
end

