-- ==== Sys2Proof/Machine/Dispatch.lean ====
section
/-! DEFINITION. The meaning of every command: one arm for each constructor of Instr. -/
namespace Sys2Proof.Machine

/-- The effect of a command on everything but the queue. -/
def exec (i : Instr) (s : State) : Host.Outcome State Fault Refusal :=
  match i with
  | .arbiterGrant => Sys2Proof.Machine.execArbiterGrant s
  | .fetch k inp => Sys2Proof.Machine.execFetch k inp s
  | .fetchComplete k data => Sys2Proof.Machine.execFetchComplete k data s
  | .check k inp dsm => Sys2Proof.Machine.execCheck k inp dsm s
  | .dispatch k inp fsn => Sys2Proof.Machine.execDispatch k inp fsn s
  | .readAheadIssue nsid first count => Sys2Proof.Machine.execReadAheadIssue nsid first count s
  | .anticipatorySeek a target => Sys2Proof.Machine.execAnticipatorySeek a target s
  | .specCopyExpire k => Sys2Proof.Machine.execSpecCopyExpire k s
  | .figureBoundary => Sys2Proof.Machine.execFigureBoundary s
  | .releaseCycle => Sys2Proof.Machine.execReleaseCycle s
  | .fabricRequest port tag less1 => Sys2Proof.Machine.execFabricRequest port tag less1 s
  | .fabricGrant => Sys2Proof.Machine.execFabricGrant s
  | .burstBoundary port => Sys2Proof.Machine.execBurstBoundary port s
  | .calFreeze b => Sys2Proof.Machine.execCalFreeze b s
  | .calSwap => Sys2Proof.Machine.execCalSwap s
  | .calSwapCancel => Sys2Proof.Machine.execCalSwapCancel s
  | .calBackWrite n w => Sys2Proof.Machine.execCalBackWrite n w s
  | .fabricWatchdogHalf => Sys2Proof.Machine.execFabricWatchdogHalf s
  | .fabricWatchdogExpiry => Sys2Proof.Machine.execFabricWatchdogExpiry s
  | .laneReady l => Sys2Proof.Machine.execLaneReady l s
  | .taSpanDetect l first => Sys2Proof.Machine.execTaSpanDetect l first s
  | .taSpanEnd l last sat => Sys2Proof.Machine.execTaSpanEnd l last sat s
  | .taGainHoldEnd l => Sys2Proof.Machine.execTaGainHoldEnd l s
  | .adaptWindowEnd n w errors => Sys2Proof.Machine.execAdaptWindowEnd n w errors s
  | .sectorBoundary n => Sys2Proof.Machine.execSectorBoundary n s
  | .sectorCapture n samples => Sys2Proof.Machine.execSectorCapture n samples s
  | .syncSearchEnd n bits phases => Sys2Proof.Machine.execSyncSearchEnd n bits phases s
  | .decoderGrant => Sys2Proof.Machine.execDecoderGrant s
  | .decodeComplete e => Sys2Proof.Machine.execDecodeComplete e s
  | .writeBackComplete k => Sys2Proof.Machine.execWriteBackComplete k s
  | .chnCdataWrite n data => Sys2Proof.Machine.execChnCdataWrite n data s
  | .chnEnWrite n en => Sys2Proof.Machine.execChnEnWrite n en s
  | .chnCntclr n => Sys2Proof.Machine.execChnCntclr n s
  | .decCntclr => Sys2Proof.Machine.execDecCntclr s
  | .loaddesc n inp => Sys2Proof.Machine.execLoaddesc n inp s
  | .loadtrk n inp => Sys2Proof.Machine.execLoadtrk n inp s
  | .trackLoaded n => Sys2Proof.Machine.execTrackLoaded n s
  | .capture n inp => Sys2Proof.Machine.execCapture n inp s
  | .write n inp => Sys2Proof.Machine.execWrite n inp s
  | .complete n inp => Sys2Proof.Machine.execComplete n inp s
  | .writePathFetch n grouped => Sys2Proof.Machine.execWritePathFetch n grouped s
  | .codewordReady a bad => Sys2Proof.Machine.execCodewordReady a bad s
  | .gateMoment a => Sys2Proof.Machine.execGateMoment a s
  | .gateReopen n => Sys2Proof.Machine.execGateReopen n s
  | .wsafeFall a bits => Sys2Proof.Machine.execWsafeFall a bits s
  | .runEnd n => Sys2Proof.Machine.execRunEnd n s
  | .fmtEnWrite n en => Sys2Proof.Machine.execFmtEnWrite n en s
  | .fmtCntclr n => Sys2Proof.Machine.execFmtCntclr n s
  | .ladStart a w => Sys2Proof.Machine.execLadStart a w s
  | .ladRaise a w => Sys2Proof.Machine.execLadRaise a w s
  | .attempt a inp => Sys2Proof.Machine.execAttempt a inp s
  | .attemptEnd a => Sys2Proof.Machine.execAttemptEnd a s
  | .armcap a inp => Sys2Proof.Machine.execArmcap a inp s
  | .captureTaken a samples => Sys2Proof.Machine.execCaptureTaken a samples s
  | .heaterSettleEnd a => Sys2Proof.Machine.execHeaterSettleEnd a s
  | .avgadd a inp => Sys2Proof.Machine.execAvgadd a inp s
  | .rebuild a inp => Sys2Proof.Machine.execRebuild a inp s
  | .rebuildDone a group => Sys2Proof.Machine.execRebuildDone a group s
  | .record a inp => Sys2Proof.Machine.execRecord a inp s
  | .jobEnd a => Sys2Proof.Machine.execJobEnd a s
  | .ladEnWrite a en => Sys2Proof.Machine.execLadEnWrite a en s
  | .ladCntclr a => Sys2Proof.Machine.execLadCntclr a s
  | .servoGateOpen a k => Sys2Proof.Machine.execServoGateOpen a k s
  | .samSearchEnd a k x y => Sys2Proof.Machine.execSamSearchEnd a k x y s
  | .pesReady a k f => Sys2Proof.Machine.execPesReady a k f s
  | .srvPost a seq wpermit => Sys2Proof.Machine.execSrvPost a seq wpermit s
  | .postDeadline a => Sys2Proof.Machine.execPostDeadline a s
  | .applyInstant a same => Sys2Proof.Machine.execApplyInstant a same s
  | .srvTargetWrite a k w => Sys2Proof.Machine.execSrvTargetWrite a k w s
  | .srvCtrlWrite a w => Sys2Proof.Machine.execSrvCtrlWrite a w s
  | .srvLeadWrite a k => Sys2Proof.Machine.execSrvLeadWrite a k s
  | .srvRroLoad a k w => Sys2Proof.Machine.execSrvRroLoad a k w s
  | .rroFetchDone a k => Sys2Proof.Machine.execRroFetchDone a k s
  | .prgStart a => Sys2Proof.Machine.execPrgStart a s
  | .planDone a => Sys2Proof.Machine.execPlanDone a s
  | .prgAbort a => Sys2Proof.Machine.execPrgAbort a s
  | .quadrilleAdmit => Sys2Proof.Machine.execQuadrilleAdmit s
  | .faultEnd a => Sys2Proof.Machine.execFaultEnd a s
  | .qdrBankWrite w => Sys2Proof.Machine.execQdrBankWrite w s
  | .qdrCoefWrite w => Sys2Proof.Machine.execQdrCoefWrite w s
  | .qual a bad => Sys2Proof.Machine.execQual a bad s
  | .depopWrite a b => Sys2Proof.Machine.execDepopWrite a b s
  | .select a inp => Sys2Proof.Machine.execSelect a inp s
  | .headSelectSettle a k => Sys2Proof.Machine.execHeadSelectSettle a k s
  | .wframe a inp => Sys2Proof.Machine.execWframe a inp s
  | .rframe a inp => Sys2Proof.Machine.execRframe a inp s
  | .framedone a data => Sys2Proof.Machine.execFramedone a data s
  | .gatearm a inp => Sys2Proof.Machine.execGatearm a inp s
  | .paFaultAssert a => Sys2Proof.Machine.execPaFaultAssert a s
  | .statusFrame => Sys2Proof.Machine.execStatusFrame s
  | .statusFrameTimeout => Sys2Proof.Machine.execStatusFrameTimeout s
  | .drvOc a => Sys2Proof.Machine.execDrvOc a s
  | .drvOpen a => Sys2Proof.Machine.execDrvOpen a s
  | .drvMaLimit a k => Sys2Proof.Machine.execDrvMaLimit a k s
  | .drvOt => Sys2Proof.Machine.execDrvOt s
  | .powerDieWarn => Sys2Proof.Machine.execPowerDieWarn s
  | .listenEnd => Sys2Proof.Machine.execListenEnd s
  | .stopbrakeEnd => Sys2Proof.Machine.execStopbrakeEnd s
  | .alignEnd => Sys2Proof.Machine.execAlignEnd s
  | .rampTimeout => Sys2Proof.Machine.execRampTimeout s
  | .observerUpdate x => Sys2Proof.Machine.execObserverUpdate x s
  | .electricalPeriodEnd => Sys2Proof.Machine.execElectricalPeriodEnd s
  | .catchTimeout => Sys2Proof.Machine.execCatchTimeout s
  | .inhibitRelease => Sys2Proof.Machine.execInhibitRelease s
  | .spnDemandWrite level => Sys2Proof.Machine.execSpnDemandWrite level s
  | .spnCtrlWrite w => Sys2Proof.Machine.execSpnCtrlWrite w s
  | .stoppingBegin => Sys2Proof.Machine.execStoppingBegin s
  | .stoppedDetect => Sys2Proof.Machine.execStoppedDetect s
  | .chopperOn => Sys2Proof.Machine.execChopperOn s
  | .chopperOff => Sys2Proof.Machine.execChopperOff s
  | .chopperSelfTest => Sys2Proof.Machine.execChopperSelfTest s
  | .chopperOpenCheck ma => Sys2Proof.Machine.execChopperOpenCheck ma s
  | .chopperShort => Sys2Proof.Machine.execChopperShort s
  | .ladderL1Enter => Sys2Proof.Machine.execLadderL1Enter s
  | .ladderL2Enter => Sys2Proof.Machine.execLadderL2Enter s
  | .ladderL2Leave => Sys2Proof.Machine.execLadderL2Leave s
  | .ladderL3Enter => Sys2Proof.Machine.execLadderL3Enter s
  | .ladderL3Leave => Sys2Proof.Machine.execLadderL3Leave s
  | .spnBrkFaultClear => Sys2Proof.Machine.execSpnBrkFaultClear s
  | .spnBrkAck => Sys2Proof.Machine.execSpnBrkAck s
  | .retractStart a => Sys2Proof.Machine.execRetractStart a s
  | .retractVelocityEnd a => Sys2Proof.Machine.execRetractVelocityEnd a s
  | .retractClimbEnd a => Sys2Proof.Machine.execRetractClimbEnd a s
  | .retractParkEnd a => Sys2Proof.Machine.execRetractParkEnd a s
  | .retractTimeout a => Sys2Proof.Machine.execRetractTimeout a s
  | .lowSpeedRetract => Sys2Proof.Machine.execLowSpeedRetract s
  | .load a => Sys2Proof.Machine.execLoad a s
  | .unload a => Sys2Proof.Machine.execUnload a s
  | .loadTimeout a => Sys2Proof.Machine.execLoadTimeout a s
  | .bufferLineAccess a decay => Sys2Proof.Machine.execBufferLineAccess a decay s
  | .bufferFillEnd => Sys2Proof.Machine.execBufferFillEnd s
  | .poolEnWrite p en => Sys2Proof.Machine.execPoolEnWrite p en s
  | .poolRingInitDone p => Sys2Proof.Machine.execPoolRingInitDone p s
  | .poolMbWrite mb w => Sys2Proof.Machine.execPoolMbWrite mb w s
  | .poolGrant p => Sys2Proof.Machine.execPoolGrant p s
  | .poolCacheRefill p => Sys2Proof.Machine.execPoolCacheRefill p s
  | .poolFree h => Sys2Proof.Machine.execPoolFree h s
  | .poolRetire h => Sys2Proof.Machine.execPoolRetire h s
  | .poolBankretWrite half w => Sys2Proof.Machine.execPoolBankretWrite half w s
  | .cacheAccess a ecc tagBad => Sys2Proof.Machine.execCacheAccess a ecc tagBad s
  | .missFillDone k => Sys2Proof.Machine.execMissFillDone k s
  | .bucketLeak bank => Sys2Proof.Machine.execBucketLeak bank s
  | .mopCleanRange => Sys2Proof.Machine.execMopCleanRange s
  | .mopInvalidateRange => Sys2Proof.Machine.execMopInvalidateRange s
  | .mopCleanInvalidateRange => Sys2Proof.Machine.execMopCleanInvalidateRange s
  | .mopCleanSetWay set way => Sys2Proof.Machine.execMopCleanSetWay set way s
  | .mopInvalidateSetWay set way => Sys2Proof.Machine.execMopInvalidateSetWay set way s
  | .mopCleanInvalidateSetWay set way => Sys2Proof.Machine.execMopCleanInvalidateSetWay set way s
  | .mopCleanInvalidateAll => Sys2Proof.Machine.execMopCleanInvalidateAll s
  | .mopDone => Sys2Proof.Machine.execMopDone s
  | .cchEnWrite en => Sys2Proof.Machine.execCchEnWrite en s
  | .scbGo => Sys2Proof.Machine.execScbGo s
  | .scbAbort => Sys2Proof.Machine.execScbAbort s
  | .scrubPassEnd => Sys2Proof.Machine.execScrubPassEnd s
  | .dmaDescTake p => Sys2Proof.Machine.execDmaDescTake p s
  | .dmaSectorCheck => Sys2Proof.Machine.execDmaSectorCheck s
  | .hostReadCompletion n data => Sys2Proof.Machine.execHostReadCompletion n data s
  | .completionTimeout n => Sys2Proof.Machine.execCompletionTimeout n s
  | .readbackIssue => Sys2Proof.Machine.execReadbackIssue s
  | .readbackComplete n ok => Sys2Proof.Machine.execReadbackComplete n ok s
  | .dmaChAbort n => Sys2Proof.Machine.execDmaChAbort n s
  | .dmaChRetry n => Sys2Proof.Machine.execDmaChRetry n s
  | .dmaBlockWrite b0 b1 => Sys2Proof.Machine.execDmaBlockWrite b0 b1 s
  | .dmaEnWrite en => Sys2Proof.Machine.execDmaEnWrite en s
  | .trainEnWrite en0 en1 => Sys2Proof.Machine.execTrainEnWrite en0 en1 s
  | .linkUp p speed width => Sys2Proof.Machine.execLinkUp p speed width s
  | .linkDown p => Sys2Proof.Machine.execLinkDown p s
  | .perstAssert p => Sys2Proof.Machine.execPerstAssert p s
  | .hotReset p => Sys2Proof.Machine.execHotReset p s
  | .functionLevelReset p => Sys2Proof.Machine.execFunctionLevelReset p s
  | .ccEnSet p cc => Sys2Proof.Machine.execCcEnSet p cc s
  | .ccEnClear p => Sys2Proof.Machine.execCcEnClear p s
  | .shutdownNormal p => Sys2Proof.Machine.execShutdownNormal p s
  | .shutdownAbrupt p => Sys2Proof.Machine.execShutdownAbrupt p s
  | .shutdownComplete p => Sys2Proof.Machine.execShutdownComplete p s
  | .nssrWrite w => Sys2Proof.Machine.execNssrWrite w s
  | .sqTailDoorbell p qid v => Sys2Proof.Machine.execSqTailDoorbell p qid v s
  | .cqHeadDoorbell p qid v => Sys2Proof.Machine.execCqHeadDoorbell p qid v s
  | .receivedError p e => Sys2Proof.Machine.execReceivedError p e s
  | .aspmL1Entry p sub => Sys2Proof.Machine.execAspmL1Entry p sub s
  | .d3hotTransition p d3 => Sys2Proof.Machine.execD3hotTransition p d3 s
  | .completionPost fsn ok => Sys2Proof.Machine.execCompletionPost fsn ok s
  | .fetchEnWrite en0 en1 => Sys2Proof.Machine.execFetchEnWrite en0 en1 s
  | .quietPoint => Sys2Proof.Machine.execQuietPoint s
  | .deleteIoSq fsn => Sys2Proof.Machine.execDeleteIoSq fsn s
  | .createIoSq fsn => Sys2Proof.Machine.execCreateIoSq fsn s
  | .getLogPage r e => Sys2Proof.Machine.execGetLogPage r e s
  | .deleteIoCq fsn => Sys2Proof.Machine.execDeleteIoCq fsn s
  | .createIoCq fsn => Sys2Proof.Machine.execCreateIoCq fsn s
  | .identify r e => Sys2Proof.Machine.execIdentify r e s
  | .abort fsn => Sys2Proof.Machine.execAbort fsn s
  | .setFeatures r => Sys2Proof.Machine.execSetFeatures r s
  | .getFeatures r => Sys2Proof.Machine.execGetFeatures r s
  | .asynchronousEventRequest fsn => Sys2Proof.Machine.execAsynchronousEventRequest fsn s
  | .namespaceCreate fsn d e => Sys2Proof.Machine.execNamespaceCreate fsn d e s
  | .namespaceDelete fsn => Sys2Proof.Machine.execNamespaceDelete fsn s
  | .namespaceAttach fsn ctrls e => Sys2Proof.Machine.execNamespaceAttach fsn ctrls e s
  | .namespaceDetach fsn ctrls e => Sys2Proof.Machine.execNamespaceDetach fsn ctrls e s
  | .firmwareImageDownload fsn data e => Sys2Proof.Machine.execFirmwareImageDownload fsn data e s
  | .firmwareCommitReplace fsn b => Sys2Proof.Machine.execFirmwareCommitReplace fsn b s
  | .firmwareCommitReplaceActivate fsn b => Sys2Proof.Machine.execFirmwareCommitReplaceActivate fsn b s
  | .firmwareCommitActivate fsn => Sys2Proof.Machine.execFirmwareCommitActivate fsn s
  | .firmwareCommitActivateNow fsn => Sys2Proof.Machine.execFirmwareCommitActivateNow fsn s
  | .nvmeMiSend fsn e => Sys2Proof.Machine.execNvmeMiSend fsn e s
  | .nvmeMiReceive fsn e => Sys2Proof.Machine.execNvmeMiReceive fsn e s
  | .formatNvm fsn => Sys2Proof.Machine.execFormatNvm fsn s
  | .securitySend fsn op e => Sys2Proof.Machine.execSecuritySend fsn op e s
  | .securityReceive fsn e => Sys2Proof.Machine.execSecurityReceive fsn e s
  | .maintenanceStartScrub fsn => Sys2Proof.Machine.execMaintenanceStartScrub fsn s
  | .maintenanceStartCandidate fsn => Sys2Proof.Machine.execMaintenanceStartCandidate fsn s
  | .maintenanceStartScan fsn => Sys2Proof.Machine.execMaintenanceStartScan fsn s
  | .maintenanceAbort fsn => Sys2Proof.Machine.execMaintenanceAbort fsn s
  | .maintenancePassEnd k count => Sys2Proof.Machine.execMaintenancePassEnd k count s
  | .depopulateActuator fsn => Sys2Proof.Machine.execDepopulateActuator fsn s
  | .reinstateActuator fsn => Sys2Proof.Machine.execReinstateActuator fsn s
  | .depopulateHead fsn => Sys2Proof.Machine.execDepopulateHead fsn s
  | .reinstateHead fsn failed => Sys2Proof.Machine.execReinstateHead fsn failed s
  | .acknowledgeBrakeFault fsn => Sys2Proof.Machine.execAcknowledgeBrakeFault fsn s
  | .queueRestartResume fsn => Sys2Proof.Machine.execQueueRestartResume fsn s
  | .queueRestartDiscard fsn => Sys2Proof.Machine.execQueueRestartDiscard fsn s
  | .flush fsn => Sys2Proof.Machine.execFlush fsn s
  | .writeCommand fsn e handles => Sys2Proof.Machine.execWriteCommand fsn e handles s
  | .read fsn e => Sys2Proof.Machine.execRead fsn e s
  | .writeUncorrectable fsn => Sys2Proof.Machine.execWriteUncorrectable fsn s
  | .compare fsn e => Sys2Proof.Machine.execCompare fsn e s
  | .writeZeroes fsn => Sys2Proof.Machine.execWriteZeroes fsn s
  | .datasetManagement fsn => Sys2Proof.Machine.execDatasetManagement fsn s
  | .verify fsn e => Sys2Proof.Machine.execVerify fsn e s
  | .zoneClose fsn => Sys2Proof.Machine.execZoneClose fsn s
  | .zoneFinish fsn => Sys2Proof.Machine.execZoneFinish fsn s
  | .zoneOpen fsn => Sys2Proof.Machine.execZoneOpen fsn s
  | .zoneReset fsn => Sys2Proof.Machine.execZoneReset fsn s
  | .zoneOffline fsn => Sys2Proof.Machine.execZoneOffline fsn s
  | .reportZones fsn e => Sys2Proof.Machine.execReportZones fsn e s
  | .zoneAppend fsn e handles => Sys2Proof.Machine.execZoneAppend fsn e handles s
  | .miReadDataStructure type => Sys2Proof.Machine.execMiReadDataStructure type s
  | .miSubsystemHealthPoll => Sys2Proof.Machine.execMiSubsystemHealthPoll s
  | .miControllerHealthPoll p => Sys2Proof.Machine.execMiControllerHealthPoll p s
  | .miConfigurationSet id value => Sys2Proof.Machine.execMiConfigurationSet id value s
  | .miConfigurationGet id => Sys2Proof.Machine.execMiConfigurationGet id s
  | .miVpdRead offset len => Sys2Proof.Machine.execMiVpdRead offset len s
  | .miReset => Sys2Proof.Machine.execMiReset s
  | .smbusBasicManagement => Sys2Proof.Machine.execSmbusBasicManagement s
  | .idleT4Expiry => Sys2Proof.Machine.execIdleT4Expiry s
  | .idleT5Expiry => Sys2Proof.Machine.execIdleT5Expiry s
  | .idleT6Expiry => Sys2Proof.Machine.execIdleT6Expiry s
  | .idleT7Expiry => Sys2Proof.Machine.execIdleT7Expiry s
  | .mediaWake => Sys2Proof.Machine.execMediaWake s
  | .spinUpComplete => Sys2Proof.Machine.execSpinUpComplete s
  | .capacityMeasure d => Sys2Proof.Machine.execCapacityMeasure d s
  | .writeAdmission => Sys2Proof.Machine.execWriteAdmission s
  | .metadataFlush => Sys2Proof.Machine.execMetadataFlush s
  | .thermalThrottle celsius => Sys2Proof.Machine.execThermalThrottle celsius s
  | .logicDieOvertemp => Sys2Proof.Machine.execLogicDieOvertemp s
  | .runBegin => Sys2Proof.Machine.execRunBegin s
  | .sleepEntry => Sys2Proof.Machine.execSleepEntry s
  | .wake p perst => Sys2Proof.Machine.execWake p perst s
  | .supplyLoss v12 v5 us => Sys2Proof.Machine.execSupplyLoss v12 v5 us s
  | .saveUnitWrite a => Sys2Proof.Machine.execSaveUnitWrite a s
  | .busUndervoltage => Sys2Proof.Machine.execBusUndervoltage s
  | .saveEnd stop busMin us => Sys2Proof.Machine.execSaveEnd stop busMin us s
  | .supplyReturn => Sys2Proof.Machine.execSupplyReturn s
  | .replay scan => Sys2Proof.Machine.execReplay scan s
  | .readoptDirty => Sys2Proof.Machine.execReadoptDirty s
  | .svnRaise => Sys2Proof.Machine.execSvnRaise s
  | .powerOnReset => Sys2Proof.Machine.execPowerOnReset s
  | .brownOutReset rail => Sys2Proof.Machine.execBrownOutReset rail s
  | .resetNAssert => Sys2Proof.Machine.execResetNAssert s
  | .resetNRelease => Sys2Proof.Machine.execResetNRelease s
  | .rstSwrstWrite req w => Sys2Proof.Machine.execRstSwrstWrite req w s
  | .chiprst => Sys2Proof.Machine.execChiprst s
  | .coreWatchdogExpiry k => Sys2Proof.Machine.execCoreWatchdogExpiry k s
  | .coreLockup k => Sys2Proof.Machine.execCoreLockup k s
  | .clockFailure d kind => Sys2Proof.Machine.execClockFailure d kind s
  | .clockGoodTimeout d => Sys2Proof.Machine.execClockGoodTimeout d s
  | .stormHoldEnd => Sys2Proof.Machine.execStormHoldEnd s
  | .phaseP0 => Sys2Proof.Machine.execPhaseP0 s
  | .railRampTimeout => Sys2Proof.Machine.execRailRampTimeout s
  | .crystalGood => Sys2Proof.Machine.execCrystalGood s
  | .pllLock => Sys2Proof.Machine.execPllLock s
  | .fuseSense testEn => Sys2Proof.Machine.execFuseSense testEn s
  | .optionLoad => Sys2Proof.Machine.execOptionLoad s
  | .clockStart => Sys2Proof.Machine.execClockStart s
  | .domainRelease d => Sys2Proof.Machine.execDomainRelease d s
  | .bufferInit => Sys2Proof.Machine.execBufferInit s
  | .bundleSelect => Sys2Proof.Machine.execBundleSelect s
  | .configApply => Sys2Proof.Machine.execConfigApply s
  | .spinDelayEnd => Sys2Proof.Machine.execSpinDelayEnd s
  | .clkGateWrite req half w => Sys2Proof.Machine.execClkGateWrite req half w s
  | .blockResetChn n => Sys2Proof.Machine.execBlockResetChn n s
  | .blockResetFmt n => Sys2Proof.Machine.execBlockResetFmt n s
  | .blockResetLad a => Sys2Proof.Machine.execBlockResetLad a s
  | .blockResetSrv a => Sys2Proof.Machine.execBlockResetSrv a s
  | .blockResetHsq a => Sys2Proof.Machine.execBlockResetHsq a s
  | .blockResetDec => Sys2Proof.Machine.execBlockResetDec s
  | .blockResetPrg => Sys2Proof.Machine.execBlockResetPrg s
  | .blockResetQdr => Sys2Proof.Machine.execBlockResetQdr s
  | .blockResetSpn => Sys2Proof.Machine.execBlockResetSpn s
  | .blockResetVcm => Sys2Proof.Machine.execBlockResetVcm s
  | .blockResetPool => Sys2Proof.Machine.execBlockResetPool s
  | .blockResetCch => Sys2Proof.Machine.execBlockResetCch s
  | .blockResetScb => Sys2Proof.Machine.execBlockResetScb s
  | .blockResetDma => Sys2Proof.Machine.execBlockResetDma s
  | .blockResetQsq => Sys2Proof.Machine.execBlockResetQsq s
  | .blockResetRelease b => Sys2Proof.Machine.execBlockResetRelease b s
  | .keyLoadSlot req slot => Sys2Proof.Machine.execKeyLoadSlot req slot s
  | .keyClearSlot req slot => Sys2Proof.Machine.execKeyClearSlot req slot s
  | .keyClearAll req => Sys2Proof.Machine.execKeyClearAll req s
  | .nonceRequest => Sys2Proof.Machine.execNonceRequest s
  | .tokenSubmit t => Sys2Proof.Machine.execTokenSubmit t s
  | .herugPrepare => Sys2Proof.Machine.execHerugPrepare s
  | .dbgGrant => Sys2Proof.Machine.execDbgGrant s
  | .dbgRefuse => Sys2Proof.Machine.execDbgRefuse s
  | .herugOpen => Sys2Proof.Machine.execHerugOpen s
  | .fuseProgram toReturned => Sys2Proof.Machine.execFuseProgram toReturned s
  | .bar2Write o len w => Sys2Proof.Machine.execBar2Write o len w s
  | .aluAdd q inp => Sys2Proof.Machine.execAluAdd q inp s
  | .aluSub q inp => Sys2Proof.Machine.execAluSub q inp s
  | .aluAnd q inp => Sys2Proof.Machine.execAluAnd q inp s
  | .aluOr q inp => Sys2Proof.Machine.execAluOr q inp s
  | .aluXor q inp => Sys2Proof.Machine.execAluXor q inp s
  | .aluShiftLeft q inp => Sys2Proof.Machine.execAluShiftLeft q inp s
  | .aluShiftRight q inp => Sys2Proof.Machine.execAluShiftRight q inp s
  | .aluMove q inp => Sys2Proof.Machine.execAluMove q inp s
  | .aluCompare q inp => Sys2Proof.Machine.execAluCompare q inp s
  | .aluLdr q inp => Sys2Proof.Machine.execAluLdr q inp s
  | .aluStr q inp => Sys2Proof.Machine.execAluStr q inp s
  | .aluRegRead q inp => Sys2Proof.Machine.execAluRegRead q inp s
  | .aluRegWrite q inp => Sys2Proof.Machine.execAluRegWrite q inp s
  | .seqNopWord q inp => Sys2Proof.Machine.execSeqNopWord q inp s
  | .seqConditionMet q inp => Sys2Proof.Machine.execSeqConditionMet q inp s
  | .fopRead q inp => Sys2Proof.Machine.execFopRead q inp s
  | .fopWrite q inp => Sys2Proof.Machine.execFopWrite q inp s
  | .fopComplete q => Sys2Proof.Machine.execFopComplete q s
  | .mbreq q inp => Sys2Proof.Machine.execMbreq q inp s
  | .free q inp => Sys2Proof.Machine.execFree q inp s
  | .event q inp => Sys2Proof.Machine.execEvent q inp s
  | .seqCsdataWrite req q k w => Sys2Proof.Machine.execSeqCsdataWrite req q k w s
  | .qsqDtdataWrite req w => Sys2Proof.Machine.execQsqDtdataWrite req w s
  | .seqRunWrite req q run => Sys2Proof.Machine.execSeqRunWrite req q run s
  | .qsqCsswap => Sys2Proof.Machine.execQsqCsswap s
  | .swapBusyEnd => Sys2Proof.Machine.execSwapBusyEnd s
  | .preampRailLimit a => Sys2Proof.Machine.execPreampRailLimit a s
  | .eventFire src => Sys2Proof.Machine.execEventFire src s
  | .ledgerWriteDone => Sys2Proof.Machine.execLedgerWriteDone s
  | .evtCntclr => Sys2Proof.Machine.execEvtCntclr s
  | .evtFirstClear => Sys2Proof.Machine.execEvtFirstClear s
  | .evtSwraise bit => Sys2Proof.Machine.execEvtSwraise bit s
  | .recProgram => Sys2Proof.Machine.execRecProgram s
  | .recErase => Sys2Proof.Machine.execRecErase s
  | .recDone outcome => Sys2Proof.Machine.execRecDone outcome s
  | .snapshotTimer => Sys2Proof.Machine.execSnapshotTimer s
  | .pohStore => Sys2Proof.Machine.execPohStore s
  | .registerWrite req a len w => Sys2Proof.Machine.execRegisterWrite req a len w s
  | .spinPhaseOvercurrent => Sys2Proof.Machine.execSpinPhaseOvercurrent s
  | .ladderL1Leave => Sys2Proof.Machine.execLadderL1Leave s
  | .thermalThrottleEnd celsius => Sys2Proof.Machine.execThermalThrottleEnd celsius s
  | .aspmL1Exit p => Sys2Proof.Machine.execAspmL1Exit p s
  | .perstDeassert p => Sys2Proof.Machine.execPerstDeassert p s
  | .interruptCoalescingTimeout p => Sys2Proof.Machine.execInterruptCoalescingTimeout p s
  | .powerDiePowerOn => Sys2Proof.Machine.execPowerDiePowerOn s
  | .preampTemperatureRead a temp => Sys2Proof.Machine.execPreampTemperatureRead a temp s
  | .temperatureThresholdCrossed sensor kelvin => Sys2Proof.Machine.execTemperatureThresholdCrossed sensor kelvin s

end Sys2Proof.Machine
end

