-- ==== Sys2Proof/Safety.lean ====
section
/-! DEFINITION. What counts as a safe state and a safe step, and the words in which the statements say what a command
does. -/
namespace Sys2Proof

open Machine

/-- The register words are in canonical form: rising addresses, no entry equal to its reset value. -/
def regsWf (l : List (Nat × Word)) : Bool :=
  decide ((l.map (·.1)).Pairwise (· < ·)) && l.all fun c => c.2 != resetWord c.1

/-- The sparse lists of the block are in canonical form. -/
def Canonical (m : Mach) : Prop := regsWf m.regs = true ∧ m.buf.mem.wf = true

/-- The canonical forms of a state. -/
def Safe (s : State) : Prop := Canonical s.m

/-- The parts of the block beside its clock and its register words; the fuses stand apart from the rest of the security
state. -/
inductive Part where
  | freeCtr | reports | out | cal | media | motion | die | spn | pwr | buf | dma | host | cmd | sec | fuses | eng | evt | rst
  deriving DecidableEq, Repr

/-- A part is as before. -/
def SamePart (p : Part) (m t : Mach) : Prop :=
  match p with
  | .freeCtr => t.freeCtr = m.freeCtr
  | .reports => t.reports = m.reports
  | .out => t.out = m.out
  | .cal => t.cal = m.cal
  | .media => t.media = m.media
  | .motion => t.motion = m.motion
  | .die => t.die = m.die
  | .spn => t.spn = m.spn
  | .pwr => t.pwr = m.pwr
  | .buf => t.buf = m.buf
  | .dma => t.dma = m.dma
  | .host => t.host = m.host
  | .cmd => t.cmd = m.cmd
  | .sec => t.sec = { m.sec with fuses := t.sec.fuses }
  | .fuses => t.sec.fuses = m.sec.fuses
  | .eng => t.eng = m.eng
  | .evt => t.evt = m.evt
  | .rst => t.rst = m.rst

/-- The frame of a command: every part but those of `ps`, every register word but those at the addresses of `rs`, and the
clock are as before. -/
def Frame (ps : List Part) (rs : List Nat) (m t : Mach) : Prop :=
  (∀ p, p ∉ ps → SamePart p m t) ∧ (∀ a, a ∉ rs → t.word a = m.word a) ∧ t.clock = m.clock

/-- The registers of a heading with `n` of them. -/
def each (r : Nat → Nat) (n : Nat) : List Nat := (List.range n).map r

/-- The registers of a heading with `n` times `k` of them. -/
def each2 (r : Nat → Nat → Nat) (n k : Nat) : List Nat := (List.range n).flatMap fun i => each (r i) k

/-- The registers of the window of the block of bit `b` of Table 16-7. -/
def window (b : Nat) : List Nat := (List.range 0x4000).map fun i => blockBase b + 4 * i

/-- The registers that the reset of formatter `n`'s block may change (R108, R383). -/
def fmtBlock (n : Nat) : List Nat :=
  [REG_RST_BLKSTAT0, REG_RST_ERR, REG_SEQ_STAT n, REG_FMT_CTRL n, REG_FMT_STAT n, REG_FMT_GEOM n, REG_FMT_SKEW n,
    REG_FMT_PRECOMP n, REG_FMT_RING_BASE n, REG_FMT_RING_CFG n, REG_FMT_RING_TAIL n, REG_FMT_RING_HEAD n, REG_FMT_DMAP_BASE n,
    REG_FMT_DMAP_COUNT n, REG_FMT_CUR n, REG_FMT_CNT_WR n, REG_FMT_CNT_ABORT n, REG_FMT_CNT_MISS n, REG_FMT_CNTCLR n,
    REG_FMT_ERR n]

/-- The registers of every formatter's block. -/
def fmtBlocks : List Nat := (List.range 8).flatMap fmtBlock

/-- The registers that a formatter reset waiting for STATE 0 may change after any step of its actuator (R178). -/
def dueRegs (m : Mach) : List Nat := (allFin 8).flatMap fun n => if m.media.fmt[n].resetDue then fmtBlock n.val else []

/-- The parts that such a reset changes. -/
def dueParts (m : Mach) : List Part :=
  if (allFin 8).any fun n => m.media.fmt[n].resetDue then [.reports, .media, .pwr, .eng] else []

/-- The command answers a next state with the same queue whose machine is exactly `t`. -/
def Yields (i : Instr) (s : State) (t : Mach) : Prop := exec i s = .next { s with m := t }

/-- The command answers a next state with the same queue, and `P` holds of its machine. -/
def Completes (i : Instr) (s : State) (P : Mach → Prop) : Prop := ∃ t, Yields i s t ∧ P t

/-- The clock of domain `d` is good, and the block of bit `b` of Table 16-7 (64: none) is not held in block reset. -/
def Running (d b : Nat) (m : Mach) : Prop := m.clockGood d = true ∧ (b < 64 → m.blockBusy b = false)

/-- No formatter waits for the block reset that follows an actuator fault. -/
def NoResetWaits (m : Mach) : Prop := ∀ n : Stream, (m.media.fmt[n]).resetDue = false

/-- Sequencer `q` runs, and its next word is the legal word `u`, which has not been applied, waits for nothing and holds no
FOP: under the condition input `inp` it goes on to `next`. -/
def AtWord (m : Mach) (q : SeqId) (inp : Bool) (u : Micro) (next : Nat) : Prop :=
  m.executing q = true ∧ m.eng.seqs[q].held = false ∧ (∃ w, fetchWord (m.storedWord q) = .good w ∧ microOf w = u) ∧
    u.wait = false ∧ u.fop = 0 ∧ u.loop = 0 ∧ next < storeSize q ∧
    next = (if (m.seqCondition q u.cond inp != u.cinv) = true then u.btgt else u.next) ∧
    u.illegal (seqKind q) (m.gp q u.areg) (u.operandB (m.gp q u.srcb)) m.eng.seqs[q].fop.isSome = 0

/-- Every register word is as before, but for those whose address satisfies `W`. -/
def RegsOutside (W : Nat → Prop) (m t : Mach) : Prop := ∀ a, ¬ W a → t.word a = m.word a

/-- The command of number `fsn` has ended with status `st`. -/
def Ended (m : Mach) (fsn st : Nat) : Prop :=
  ∃ c r, m.command fsn = some c ∧ c.stage = .ended ∧ c.result = some r ∧ r.status = st

/-- The command of number `fsn` has passed the overlap check with verdict `v`: none, or the status it is to end with. -/
def Passed (m : Mach) (fsn : Nat) (v : Option Nat) : Prop :=
  ∃ c, m.command fsn = some c ∧ c.stage = .checked ∧ c.verdict = v

/-- No fatal state stands between a reset of the controller and its effect: the mode is not M10 or M11, no fatal event has
raised CFS, and no bundle waits for a reset. -/
def Sound (m : Mach) (p : PortId) : Prop :=
  m.mode ≠ 10 ∧ m.mode ≠ 11 ∧ (m.host.ctrls[p]).cfsFatal = false ∧ m.sec.flash.pending = none

/-- The reset entry of a source has been carried out: its cause is recorded, the domains but AON are in reset, and what
they held has its reset values. -/
def ResetTaken (t : Mach) (src : ResetSource) : Prop :=
  t.rst.entering = true ∧ t.rst.fromP0 = src.cold ∧ t.rst.coresUp = false ∧
    (∀ d : Domain, d ≠ 39 → t.rst.inReset[d] = true) ∧
    t.get RST_CAUSE_SRC = 2 ^ src.bit ∧ t.get RST_CAUSE_FIRST = src.bit + 1 ∧
    t.mode = 1 ∧ t.get RST_PHASE_PHASE = 0 ∧ t.cal = Caller.initial ∧
    t.media = { MediaState.initial with moved := t.media.moved } ∧ t.dma = DmaState.initial

/-- The actuator can retract: it is loaded, its bridge works, and the power die is not in L3. -/
def CanRetract (m : Mach) (a : Actuator) : Prop :=
  m.die.retract[a] = .none ∧ m.die.parked[a] = false ∧ m.die.bridgeOff[a] = false ∧ m.die.level ≠ 4

end Sys2Proof
end

