-- ==== Sys2Proof/Certificates/Slice0/Obligations.lean ====
section
/-! DEFINITION. The statements about the block, for the provers. -/
open Sys2Proof Sys2Proof.Machine

/-- A step carries out the command at the front of the queue on the state with the queue's rest; with no command waiting
the block idles: its clock advances by one period of the root PLL (the model's choice of a tick, log entry 3). -/
def Obligations.StepRunsTheFrontCommand : Prop :=
  (∀ (s : State) (c : Instr) (rest : List Instr), s.pending = c :: rest → step s = exec c { s with pending := rest }) ∧
  ∀ s : State, s.pending = [] → ∃ t, step s = .next { s with m := t } ∧ t.clock = s.m.clock + 1 ∧
    Frame [.die] [REG_SPN_BRK] { s.m with clock := s.m.clock + 1 } t

/-- State.reset: no command waits; every register reads its reset value (R9; the registers that the spec gives no reset
value stand at the value of log entry 7); the reset entry is in progress in M1 before P0 and the cores are not released;
no report, output, host command, dirty unit, retired buffer, cache line, fabric request, burst or demand exists; no DMA
channel, decoder engine or write-back is at work; no formatter holds a descriptor, no write path a codeword, no ladder a
job and no controller a queue; the sequencers stand in their initial state, every key slot is zero, every byte of the
buffer is 0, and the state is Safe. -/
def Obligations.ResetLeaves : Prop :=
  State.reset.pending = [] ∧ Safe State.reset ∧ (∀ a, State.reset.m.word a = resetWord a) ∧
    State.reset.m.mode = 1 ∧ State.reset.m.get RST_PHASE_PHASE = 0 ∧ State.reset.m.rst.entering = true ∧
    State.reset.m.rst.coresUp = false ∧ State.reset.m.reports = [] ∧ State.reset.m.out = [] ∧
    State.reset.m.cmd.table = [] ∧ State.reset.m.pwr.dirty = [] ∧ State.reset.m.buf.retired = [] ∧
    (∀ a, State.reset.m.buf.mem.byte a = 0) ∧ State.reset.m.buf.cache.lines = [] ∧
    (∀ n : DmaCh, State.reset.m.dma.chans[n] = none) ∧ (∀ c : FabClass, State.reset.m.cal.queues[c] = []) ∧
    State.reset.m.cal.held = [] ∧ State.reset.m.cal.demands = [] ∧
    State.reset.m.cal.flights = [] ∧ (∀ e : Engine, State.reset.m.media.dec.engines[e] = none) ∧
    State.reset.m.media.dec.ladder = [] ∧ State.reset.m.media.dec.writeBacks = [] ∧
    (∀ n : Stream, (State.reset.m.media.fmt[n]).items = []) ∧
    (∀ a : Actuator, (State.reset.m.media.wpath[a]).fifo = [] ∧ (State.reset.m.media.wpath[a]).encoding = none ∧
      (State.reset.m.media.lad[a]).jobs = []) ∧
    (∀ p : PortId, (State.reset.m.host.ctrls[p]).sqs = [] ∧ (State.reset.m.host.ctrls[p]).cqs = []) ∧
    (∀ q : SeqId, State.reset.m.eng.seqs[q] = Seq.initial) ∧ ∀ k : KeySlot, State.reset.m.sec.slots[k] = 0

/-- R10: in the table of the registers every field of access type RWS carries class A or C. -/
def Obligations.RwsFieldsCarryClassAOrC : Prop :=
  ∀ b ∈ regBlocks, ∀ r ∈ b.rows, ∀ f ∈ r.fields, f.acc = .rws → f.cls = .A ∨ f.cls = .C

/-- The rows whose block has a clock: what a command does while its block's clock is stopped, or while the block is in
block reset, the spec does not say; the model leaves the state as it was (DESIGN CHOICE, log entry 2), but for what
follows any step: the reset that waits for a faulted actuator's formatter (R178), and the key ladder's upkeep (R340). -/
def Obligations.StoppedBlocks : Prop :=
  ∀ s : State,
    (∀ (k : Fin 4) (inp : Bool) (data : Option (List (BitVec 512))) (dsm : List (Nat × Nat)) (k1 : Option (Fin
      4)) (fsn : BitVec 32) (ok : Bool) (en0 : Bool) (en1 : Bool) (req : Requester) (w : Word), ¬ Running 19 38
      s.m → ∀ i ∈ [Instr.arbiterGrant, .fetch k inp, .fetchComplete k data, .check k inp dsm, .dispatch k1 inp
      fsn, .completionPost fsn ok, .fetchEnWrite en0 en1, .qsqDtdataWrite req w, .qsqCsswap, .swapBusyEnd],
      Yields i s s.m) ∧
    (∀ (port : Port) (tag : FabClass) (less1 : Fin 8) (b : Bool) (n : FabClass) (w : Word), ¬ Running 8 64 s.m →
      ∀ i ∈ [Instr.figureBoundary, .releaseCycle, .fabricRequest port tag less1, .fabricGrant, .burstBoundary
      port, .calFreeze b, .calSwap, .calSwapCancel, .calBackWrite n w, .fabricWatchdogHalf,
      .fabricWatchdogExpiry], Yields i s s.m) ∧
    (∀ (l : Lane) (first : Nat) (last : Nat) (sat : Nat), ¬ Running (30 + l.val / 2) 64 s.m → ∀ i ∈
      [Instr.laneReady l, .taSpanDetect l first, .taSpanEnd l last sat, .taGainHoldEnd l], Yields i s s.m) ∧
    (∀ (n : Stream) (w : Samples) (errors : List Int) (bits : List Bool) (phases : List Int) (data : BitVec 10)
      (en : Bool), ¬ Running 14 n.val s.m → ∀ i ∈ [Instr.adaptWindowEnd n w errors, .syncSearchEnd n bits
      phases, .chnCdataWrite n data, .chnEnWrite n en, .chnCntclr n], Yields i s s.m) ∧
    (∀ (n : Stream) (samples : Samples), ¬ Running 14 n.val s.m → ∀ i ∈ [Instr.sectorCapture n samples], Yields
      i s s.m.faultResets) ∧
    (∀ (k : Nat), ¬ Running 12 28 s.m → ∀ i ∈ [Instr.decoderGrant, .writeBackComplete k, .decCntclr], Yields i s
      s.m) ∧
    (∀ (e : Engine), ¬ Running (if e.val < 6 then 12 else 13) 28 s.m → ∀ i ∈ [Instr.decodeComplete e], Yields i
      s s.m) ∧
    (∀ (n : Stream) (inp : Bool), ¬ Running (seqDomain (seqFS n)) (seqBlock (seqFS n)) s.m → ∀ i ∈
      [Instr.loaddesc n inp, .capture n inp, .write n inp, .complete n inp], Yields i s s.m.faultResets) ∧
    (∀ (n : Stream) (inp : Bool), ¬ Running (seqDomain (seqFS n)) (seqBlock (seqFS n)) s.m → ∀ i ∈
      [Instr.loadtrk n inp], Yields i s s.m) ∧
    (∀ (n : Stream), ¬ Running (15 + n.val / 2) (8 + n.val) s.m → ∀ i ∈ [Instr.trackLoaded n, .fmtCntclr n],
      Yields i s s.m) ∧
    (∀ (n : Stream) (grouped : Bool) (en : Bool), ¬ Running (15 + n.val / 2) (8 + n.val) s.m → ∀ i ∈
      [Instr.writePathFetch n grouped, .gateReopen n, .runEnd n, .fmtEnWrite n en], Yields i s s.m.faultResets) ∧
    (∀ (a : Actuator) (bad : Bool), ¬ Running 14 64 s.m → ∀ i ∈ [Instr.codewordReady a bad], Yields i s
      s.m.faultResets) ∧
    (∀ (a : Actuator), ¬ Running (15 + a.val) (24 + a.val) s.m → ∀ i ∈ [Instr.gateMoment a], Yields i s
      s.m.faultResets) ∧
    (∀ (a : Actuator) (bits : Nat), ¬ Running (15 + a.val) 64 s.m → ∀ i ∈ [Instr.wsafeFall a bits], Yields i s
      s.m.faultResets) ∧
    (∀ (a : Actuator) (w : Word) (inp : Bool) (samples : Samples) (group : List (Option MemberRead)) (en :
      Bool), ¬ Running (15 + a.val) (16 + a.val) s.m → ∀ i ∈ [Instr.ladStart a w, .ladRaise a w, .attempt a inp,
      .attemptEnd a, .armcap a inp, .captureTaken a samples, .heaterSettleEnd a, .avgadd a inp, .rebuild a inp,
      .rebuildDone a group, .record a inp, .ladEnWrite a en, .ladCntclr a], Yields i s s.m) ∧
    (∀ (a : Actuator), ¬ Running (15 + a.val) (16 + a.val) s.m → ∀ i ∈ [Instr.jobEnd a], Yields i s
      s.m.refreshKeys) ∧
    (∀ (a : Actuator) (k : HeadSlot) (x : List Bool) (y : List Bool) (f : WedgeField) (seq : BitVec 8) (wpermit
      : Bool) (same : BitVec 4) (w : Word), ¬ Running (15 + a.val) (20 + a.val) s.m → ∀ i ∈ [Instr.servoGateOpen
      a k, .samSearchEnd a k x y, .pesReady a k f, .srvPost a seq wpermit, .postDeadline a, .applyInstant a
      same, .srvTargetWrite a k w, .srvCtrlWrite a w, .srvLeadWrite a k, .srvRroLoad a k w, .rroFetchDone a k],
      Yields i s s.m) ∧
    (∀ (a : Actuator), ¬ Running 20 29 s.m → ∀ i ∈ [Instr.prgStart a, .planDone a, .prgAbort a], Yields i s s.m) ∧
    (∀ (w : Word) (a : Actuator) (bad : BitVec 24) (b : Bool), ¬ Running 20 30 s.m → ∀ i ∈
      [Instr.quadrilleAdmit, .qdrBankWrite w, .qdrCoefWrite w, .qual a bad, .depopWrite a b], Yields i s s.m) ∧
    (∀ (a : Actuator) (inp : Bool) (k : HeadSlot) (data : BitVec 16), ¬ Running (15 + a.val) (24 + a.val) s.m →
      ∀ i ∈ [Instr.select a inp, .headSelectSettle a k, .wframe a inp, .rframe a inp, .framedone a data,
      .gatearm a inp, .paFaultAssert a], Yields i s s.m) ∧
    (¬ Running 28 64 s.m → ∀ i ∈ [Instr.statusFrame], Yields i s s.m) ∧
    (∀ (x : Sensed) (level : BitVec 8) (w : Word), ¬ Running 28 32 s.m → ∀ i ∈ [Instr.listenEnd, .stopbrakeEnd,
      .alignEnd, .rampTimeout, .observerUpdate x, .electricalPeriodEnd, .catchTimeout, .inhibitRelease,
      .spnDemandWrite level, .spnCtrlWrite w, .stoppingBegin, .stoppedDetect, .spnBrkFaultClear, .spnBrkAck,
      .spinPhaseOvercurrent], Yields i s s.m) ∧
    (∀ (a : Actuator), ¬ Running 28 33 s.m → ∀ i ∈ [Instr.load a, .unload a, .loadTimeout a], Yields i s s.m) ∧
    (∀ (a : LineAccess) (decay : Bool), ¬ Running 10 64 s.m → ∀ i ∈ [Instr.bufferLineAccess a decay,
      .bufferFillEnd], Yields i s s.m) ∧
    (∀ (p : PoolId) (en : Bool) (mb : Mailbox) (w : Word) (h : BitVec 24) (half : Fin 2), ¬ Running 10 34 s.m →
      ∀ i ∈ [Instr.poolEnWrite p en, .poolRingInitDone p, .poolMbWrite mb w, .poolGrant p, .poolCacheRefill p,
      .poolFree h, .poolRetire h, .poolBankretWrite half w], Yields i s s.m) ∧
    (∀ (a : LineAccess) (ecc : EccResult) (tagBad : Option (Fin 16 × Bool)) (k : Nat) (bank : Fin 16) (set : Fin
      32768) (way : Fin 16) (en : Bool), ¬ Running 9 35 s.m → ∀ i ∈ [Instr.cacheAccess a ecc tagBad,
      .missFillDone k, .bucketLeak bank, .mopCleanRange, .mopInvalidateRange, .mopCleanInvalidateRange,
      .mopCleanSetWay set way, .mopInvalidateSetWay set way, .mopCleanInvalidateSetWay set way,
      .mopCleanInvalidateAll, .mopDone, .cchEnWrite en], Yields i s s.m) ∧
    (¬ Running 10 36 s.m → ∀ i ∈ [Instr.scbGo, .scbAbort, .scrubPassEnd], Yields i s s.m) ∧
    (∀ (p : DmaLevel) (n : DmaCh) (data : Option (List Byte)) (ok : Bool) (b0 : Bool) (b1 : Bool) (en : Bool), ¬
      Running 11 37 s.m → ∀ i ∈ [Instr.dmaDescTake p, .dmaSectorCheck, .hostReadCompletion n data,
      .completionTimeout n, .readbackIssue, .readbackComplete n ok, .dmaChAbort n, .dmaChRetry n, .dmaBlockWrite
      b0 b1, .dmaEnWrite en], Yields i s s.m) ∧
    (∀ (p : PortId) (speed : Fin 6) (width : Fin 5) (cc : Word) (w : Word) (qid : BitVec 16) (v : BitVec 16) (e
      : LinkError) (sub : Fin 3) (d3 : Bool), ¬ Running 38 64 s.m → ∀ i ∈ [Instr.linkUp p speed width, .ccEnSet
      p cc, .ccEnClear p, .shutdownNormal p, .shutdownAbrupt p, .nssrWrite w, .sqTailDoorbell p qid v,
      .cqHeadDoorbell p qid v, .receivedError p e, .aspmL1Entry p sub, .d3hotTransition p d3, .aspmL1Exit p],
      Yields i s s.m) ∧
    (∀ (req : Requester) (slot : KeySlot) (t : Token) (toReturned : Bool), ¬ Running 27 64 s.m → ∀ i ∈
      [Instr.keyLoadSlot req slot, .keyClearSlot req slot, .keyClearAll req, .nonceRequest, .tokenSubmit t,
      .herugPrepare, .dbgGrant, .dbgRefuse, .herugOpen, .fuseProgram toReturned], Yields i s s.m) ∧
    (∀ (q : SeqId) (inp : Bool) (req : Requester) (k : Fin 4) (w : Word) (run : Bool), ¬ Running (seqDomain q)
      (seqBlock q) s.m → ∀ i ∈ [Instr.aluAdd q inp, .aluSub q inp, .aluAnd q inp, .aluOr q inp, .aluXor q inp,
      .aluShiftLeft q inp, .aluShiftRight q inp, .aluMove q inp, .aluCompare q inp, .aluLdr q inp, .aluStr q
      inp, .aluRegRead q inp, .aluRegWrite q inp, .seqNopWord q inp, .seqConditionMet q inp, .fopRead q inp,
      .fopWrite q inp, .fopComplete q, .mbreq q inp, .free q inp, .event q inp, .seqCsdataWrite req q k w,
      .seqRunWrite req q run], Yields i s s.m) ∧
    (∀ (src : Option (Fin 1152)) (bit : BitVec 5) (outcome : Fin 3), ¬ Running 26 64 s.m → ∀ i ∈
      [Instr.eventFire src, .ledgerWriteDone, .evtCntclr, .evtFirstClear, .evtSwraise bit, .recProgram,
      .recErase, .recDone outcome], Yields i s s.m) ∧
    (∀ n : Stream, ¬ Running 14 n.val s.m → ¬ Running (15 + n.val / 2) (8 + n.val) s.m → Yields (.sectorBoundary
      n) s s.m.faultResets)

/-- Every command of the table answers a next state with the same queue, at the same instant; and every step keeps the
state Safe: the register words and the buffer's sparse lists stay in their canonical forms. -/
def Obligations.EveryStepKeepsSafe : Prop :=
  (∀ (i : Instr) (s : State), Completes i s fun t => t.clock = s.m.clock ∧ (Canonical s.m → Canonical t)) ∧
  (∀ s t : State, Safe s → step s = .next t → Safe t) ∧ ∀ s : State, ∃ t, step s = .next t

/-- R344 and R386: power-on and brown-out resets, and every other chip reset, lock each object whose LockOnReset holds
Power Cycle as its enables say; a controller reset and a subsystem reset change no lock; none of these resets, nor the
block reset of SPN, reaches SPN_BRK, which returns to its reset value at the power die's own power-on. A reset request
that is not carried out leaves SPN_BRK alone as well. It concludes that exec answers a next state, with the effect of
the command itself, under conditions on the state and the operands alone, for: fabricWatchdogExpiry, linkDown,
perstAssert, hotReset, functionLevelReset, ccEnClear, nssrWrite, quietPoint, miReset, powerOnReset, brownOutReset,
resetNAssert, rstSwrstWrite, chiprst, coreWatchdogExpiry, coreLockup, clockFailure, clockGoodTimeout, blockResetSpn,
powerDiePowerOn. -/
def Obligations.WhatResetsReach : Prop :=
  ∀ s : State, Safe s →
    (∀ rail key k core d kind dom, ∀ i ∈ [Instr.powerOnReset, .brownOutReset rail, .resetNAssert, .rstSwrstWrite .bc key,
        .rstSwrstWrite (.core k) key, .rstSwrstWrite .bar2 key, .chiprst, .coreWatchdogExpiry core, .coreLockup core,
        .fabricWatchdogExpiry, .clockFailure d kind, .clockGoodTimeout dom, .quietPoint],
      Completes i s fun t =>
        t.word REG_SPN_BRK = s.m.word REG_SPN_BRK ∧
        (s.m.rst.entering = false → t.rst.entering = true → ∀ r : LockId, (s.m.sec.objects[r]).powerCycle = true →
          (t.sec.objects[r]).readLocked = (s.m.sec.objects[r]).readEn ∧
          (t.sec.objects[r]).writeLocked = (s.m.sec.objects[r]).writeEn)) ∧
    (∀ i ∈ [Instr.powerOnReset, .brownOutReset 3], s.m.mode ≠ 9 → Completes i s fun t =>
      ∀ r : LockId, (s.m.sec.objects[r]).powerCycle = true →
        (t.sec.objects[r]).readLocked = (s.m.sec.objects[r]).readEn ∧
        (t.sec.objects[r]).writeLocked = (s.m.sec.objects[r]).writeEn) ∧
    (∀ p : PortId, Sound s.m 0 → Sound s.m 1 →
      ∀ i ∈ [Instr.ccEnClear p, .functionLevelReset p, .hotReset p, .linkDown p, .perstAssert p, .nssrWrite 0x4E564D65,
          .miReset],
        Completes i s fun t => t.sec.objects = s.m.sec.objects ∧ t.word REG_SPN_BRK = s.m.word REG_SPN_BRK) ∧
    (Completes .blockResetSpn s fun t => t.word REG_SPN_BRK = s.m.word REG_SPN_BRK) ∧
    Completes .powerDiePowerOn s fun t => t.word REG_SPN_BRK = resetWord REG_SPN_BRK

/-- FIGURE_BOUNDARY and RELEASE_CYCLE (R29, R32, R33). A new figure starts with FIGNO advanced, each class's guaranteed
count reduced by its debt, its ceiling room by what the guarantee does not cover, and the shared pool by the guarantees
and by what they do not cover; the release cycle, once a figure, returns the unused guarantees to the pool. CAL_FREEZE,
CAL_SWAP, CAL_SWAP_CANCEL and CAL_BACK_WRITE (R43–R45, R47): the freeze shows once no burst is in flight, a swap is
armed (outside M9) and withdrawn, and the back table takes a write, or is locked while a swap is pending.
FABRIC_REQUEST, FABRIC_GRANT and BURST_BOUNDARY (R34, R37–R39, R41, R42, R47, R348). A port that is held or frozen
offers nothing. The port of one of the HQ8's own data paths offers the next burst of its oldest demand, a core's port or
the debug port the burst it is given; the request joins the queue of the class that Table 2-2 and the save table make of
its tag, or its port is held while that queue is full. A grant charges the whole burst to its class alone, and never
reaches a port with a burst in flight or a frozen one; a burst boundary ends the burst of its port, and charges nothing.
FABRIC_WATCHDOG_HALF (R48) reports once. It concludes that exec answers a next state, with the effect of the command
itself, under conditions on the state and the operands alone, for: figureBoundary, releaseCycle, fabricRequest,
fabricGrant, burstBoundary, calFreeze, calSwap, calSwapCancel, calBackWrite, fabricWatchdogHalf. -/
def Obligations.CallerAndFabric : Prop :=
  (∀ s : State, Running 8 64 s.m →
    (s.m.cal.running = true →
      Completes .figureBoundary s (fun t =>
        t.get CAL_FIGNO_FIGURE = (s.m.get CAL_FIGNO_FIGURE + 1) % 2 ^ 32 ∧
        (∀ c : FabClass, t.cal.guar[c] = t.liveG c - s.m.cal.debt[c] ∧
          t.cal.room[c] = (t.effectiveC c : Int) - (s.m.cal.debt[c] - t.liveG c : Nat) ∧
          t.cal.used[c] = 0 ∧ t.cal.debt[c] = 0 ∧ t.cal.ended[c] = false) ∧
        t.cal.pool = 2048 - (sumClasses t.liveG : Nat) - (sumClasses fun c => s.m.cal.debt[c] - t.liveG c : Nat) ∧
        t.cal.queues = s.m.cal.queues ∧ t.cal.flights = s.m.cal.flights ∧ t.cal.released = false) ∧
      Completes .releaseCycle s (fun t =>
        t.cal.released = true ∧
        (s.m.cal.released = false → (∀ c : FabClass, t.cal.guar[c] = 0) ∧
          t.cal.pool = s.m.cal.pool + (sumClasses fun c => s.m.cal.guar[c] : Nat)) ∧
        t = { s.m with cal := t.cal })) ∧
    (∀ b, Completes (.calFreeze b) s fun t =>
      t.is CAL_CTRL_FREEZE = b ∧ t.is CAL_STATUS_FROZEN = (b && s.m.cal.flights.isEmpty) ∧ t.cal = s.m.cal) ∧
    Yields .calSwap s (if s.m.get PWR_MODE_MODE = 9 then s.m else s.m.set CAL_STATUS_SWAP_PENDING 1) ∧
    Yields .calSwapCancel s (s.m.set CAL_STATUS_SWAP_PENDING 0) ∧
    (∀ n w, Completes (.calBackWrite n w) s fun t =>
      if s.m.is CAL_STATUS_SWAP_PENDING = true then
        t.is CAL_ERR_BACK_LOCKED = true ∧ t.reports = s.m.reports ++ [2] ∧
        t.word (REG_CAL_BACK n.val) = s.m.word (REG_CAL_BACK n.val)
      else
        t.get (CAL_BACK_GUAR n.val) = w.toNat % 4096 ∧ t.get (CAL_BACK_CEIL n.val) = w.toNat / 65536 % 4096 ∧
          t = { s.m with regs := t.regs } ∧ ∀ a, a ≠ REG_CAL_BACK n.val → t.word a = s.m.word a)) ∧
  (∀ s : State, Running 8 64 s.m →
    (∀ (port : Port) (tag : FabClass) (less1 : Fin 8),
      (s.m.cal.held.any (fun h => h.req.port == port) = true ∨ s.m.cal.portFrozen port = true →
        Yields (.fabricRequest port tag less1) s s.m) ∧
      (s.m.cal.held.any (fun h => h.req.port == port) = false → s.m.cal.portFrozen port = false →
        s.m.cal.demands.find? (fun d => d.port == port) = none →
        (12 ≤ port.val → port.val ≤ 24 → Yields (.fabricRequest port tag less1) s s.m) ∧
        (∀ p : Fin 4, port.val = 25 + p.val →
          (s.m.nextOffer p = none → Yields (.fabricRequest port tag less1) s s.m) ∧
          ∀ q f cls, s.m.nextOffer p = some q → (s.m.eng.seqs[q]).fop = some f → cls = s.m.chargedClass port f.cls →
            s.m.cal.queues[cls].length < 16 → Completes (.fabricRequest port tag less1) s fun t =>
              t.cal.queues[cls] = s.m.cal.queues[cls] ++ [⟨port, f.less1, q.val⟩] ∧
              (t.eng.seqs[q]).fop = some { f with offered := true } ∧ t.cal.flights = s.m.cal.flights ∧
              ∀ c, c ≠ cls → t.cal.queues[c] = s.m.cal.queues[c]) ∧
        (port.val < 12 ∨ 28 < port.val →
          ∀ cls, cls = s.m.chargedClass port (s.m.portTag port tag) →
            (s.m.cal.queues[cls].length < 16 →
              Completes (.fabricRequest port tag less1) s fun t =>
                t.cal.queues[cls] = s.m.cal.queues[cls] ++ [⟨port, less1, 0⟩] ∧ t.cal.held = s.m.cal.held ∧
                t.cal.flights = s.m.cal.flights ∧ ∀ c, c ≠ cls → t.cal.queues[c] = s.m.cal.queues[c]) ∧
            (16 ≤ s.m.cal.queues[cls].length →
              Yields (.fabricRequest port tag less1) s
                { s.m with cal := { s.m.cal with held := s.m.cal.held ++ [⟨cls, ⟨port, less1, 0⟩⟩] } }))) ∧
      (∀ d cls, s.m.cal.held.any (fun h => h.req.port == port) = false → s.m.cal.portFrozen port = false →
        port ≠ Mach.dmaPort → s.m.cal.demands.find? (fun d => d.port == port) = some d → port.val < 25 →
        cls = s.m.portTag port d.cls → s.m.cal.queues[cls].length < 16 →
        Completes (.fabricRequest port tag less1) s fun t =>
          t.cal.queues[cls] = s.m.cal.queues[cls] ++ [⟨port, Fin.ofNat 8 (d.tokens - 1), d.owner⟩] ∧
          t.cal.demands = offerNext port d.owner s.m.cal.demands ∧ t.cal.flights = s.m.cal.flights ∧
          ∀ c, c ≠ cls → t.cal.queues[c] = s.m.cal.queues[c])) ∧
    (s.m.cal.running = false ∨ s.m.is CAL_CTRL_FREEZE = true ∨ s.m.cal.choose = none → Yields .fabricGrant s s.m) ∧
    (∀ c g r rest, s.m.cal.running = true → s.m.is CAL_CTRL_FREEZE = false → s.m.cal.choose = some (c, g) →
      s.m.cal.queues[c] = r :: rest →
      s.m.cal.eligible c = true ∧ s.m.cal.flights.all (fun f => f.port != r.port) = true ∧
      s.m.cal.portFrozen r.port = false ∧
      Completes .fabricGrant s fun t =>
        t.cal.flights = s.m.cal.flights ++ [⟨r.port, c, r.tokens, s.m.clock, r.owner⟩] ∧
        t.cal.used[c] = s.m.cal.used[c] + r.tokens ∧
        t.cal.guar[c] = s.m.cal.guar[c] - min r.tokens s.m.cal.guar[c] ∧
        t.cal.room[c] = s.m.cal.room[c] - r.tokens ∧
        ∀ d, d ≠ c → t.cal.used[d] = s.m.cal.used[d] ∧ t.cal.guar[d] = s.m.cal.guar[d] ∧ t.cal.room[d] = s.m.cal.room[d] ∧
          t.cal.queues[d] = s.m.cal.queues[d]) ∧
    (∀ port, Completes (.burstBoundary port) s fun t =>
      t.cal.flights = s.m.cal.flights.filter (fun f => f.port != port) ∧ t.cal.queues = s.m.cal.queues ∧
      t.cal.held = s.m.cal.held ∧ t.cal.used = s.m.cal.used ∧ t.cal.guar = s.m.cal.guar ∧ t.cal.room = s.m.cal.room ∧
      t.cal.debt = s.m.cal.debt) ∧
    (Completes .fabricWatchdogHalf s fun t =>
      t.reports = (if s.m.wdgRuns = true ∧ s.m.cal.halfDone = false then s.m.reports ++ [4] else s.m.reports) ∧
      t.regs = s.m.regs ∧ t.cal.flights = s.m.cal.flights))

/-- LANE_READY, TA_SPAN_DETECT, TA_SPAN_END, TA_GAIN_HOLD_END and ADAPT_WINDOW_END (R50–R53, R60). Outside M4 a powered
lane becomes ready and takes the manual gain, or with AGC a free gain; an unpowered lane, or one in M4, changes nothing.
A span begins in a ready lane outside a span. The end of a span begins the gain hold and records the span with 16
samples on each side, or extends the last of four recorded ones; the end of the hold ends it. While the stream adapts,
each tap whose sum over the window exceeds the limit moves by one code toward the sum's sign, within 10 bits, and is
held aside; the live taps stay. It concludes that exec answers a next state, with the effect of the command itself,
under conditions on the state and the operands alone, for: laneReady, taSpanDetect, taSpanEnd, taGainHoldEnd,
adaptWindowEnd. -/
def Obligations.ReadFrontEnd : Prop :=
  ∀ s : State,
    (∀ l : Lane, Running (30 + l.val / 2) 64 s.m →
      (s.m.bitAt AFE_EN_LANE_EN l.val = false ∨ s.m.get PWR_MODE_MODE = 4 → Yields (.laneReady l) s s.m) ∧
      (s.m.bitAt AFE_EN_LANE_EN l.val = true → s.m.get PWR_MODE_MODE ≠ 4 → s.m.is (AFE_LANE_CFG_AGC_EN l.val) = false →
        Completes (.laneReady l) s fun t =>
          t.is (AFE_LANE_STAT_READY l.val) = true ∧ t.get (AFE_LANE_STAT_VGA l.val) = s.m.get (AFE_LANE_CFG_VGA_MAN l.val) ∧
          t = { s.m with regs := t.regs } ∧ ∀ a, a ≠ REG_AFE_LANE_STAT l.val → t.word a = s.m.word a) ∧
      (s.m.bitAt AFE_EN_LANE_EN l.val = true → s.m.get PWR_MODE_MODE ≠ 4 → s.m.is (AFE_LANE_CFG_AGC_EN l.val) = true →
        Completes (.laneReady l) s fun t =>
          t.is (AFE_LANE_STAT_READY l.val) = true ∧ t.get (AFE_LANE_STAT_VGA l.val) = s.m.free % 128 ∧
          t = { s.m with regs := t.regs, freeCtr := s.m.freeCtr + 1 } ∧
          ∀ a, a ≠ REG_AFE_LANE_STAT l.val → t.word a = s.m.word a) ∧
      (∀ first, s.m.is (AFE_LANE_STAT_READY l.val) = true → s.m.is (AFE_LANE_STAT_TA l.val) = false →
        Completes (.taSpanDetect l first) s fun t =>
          t.is (AFE_LANE_STAT_TA l.val) = true ∧ t.media.lanes[l] = ⟨.span, first⟩ ∧
          t = { s.m with regs := t.regs, media := { s.m.media with lanes := t.media.lanes } }) ∧
      (∀ first, s.m.is (AFE_LANE_STAT_READY l.val) = false ∨ s.m.is (AFE_LANE_STAT_TA l.val) = true →
        Yields (.taSpanDetect l first) s s.m) ∧
      (∀ last sat, s.m.is (AFE_LANE_STAT_TA l.val) = false → Yields (.taSpanEnd l last sat) s s.m) ∧
      (∀ last sat, s.m.is (AFE_LANE_STAT_TA l.val) = true → (s.m.media.chan[laneStream l]).spans.length < 4 →
        Completes (.taSpanEnd l last sat) s fun t =>
          t.is (AFE_LANE_STAT_TA l.val) = false ∧ (t.media.lanes[l]).hold = .after ∧
          (t.media.chan[laneStream l]).spans =
            (s.m.media.chan[laneStream l]).spans ++ [⟨(s.m.media.lanes[l]).spanFrom - 16, last + 16⟩] ∧
          t.reports = s.m.reports ++ [32 * (5 + (laneStream l).val) + 1]) ∧
      (∀ last sat p q r w, s.m.is (AFE_LANE_STAT_TA l.val) = true → (s.m.media.chan[laneStream l]).spans = [p, q, r, w] →
        Completes (.taSpanEnd l last sat) s fun t =>
          t.is (AFE_LANE_STAT_TA l.val) = false ∧ (t.media.lanes[l]).hold = .after ∧
          (t.media.chan[laneStream l]).spans = [p, q, r, ⟨w.first, max w.last (last + 16)⟩] ∧
          t.reports = s.m.reports ++ [32 * (5 + (laneStream l).val) + 2]) ∧
      Yields (.taGainHoldEnd l) s (if (s.m.media.lanes[l]).hold = .after then
        s.m.setLane l fun x => { x with hold := .off } else s.m)) ∧
    ∀ (n : Stream) (w : Samples) (errors : List Int), Running 14 n.val s.m →
      (s.m.is (CHN_CTRL_EN n.val) = false ∨ s.m.is (CHN_CTRL_ADAPT n.val) = false →
        Yields (.adaptWindowEnd n w errors) s s.m) ∧
      (s.m.is (CHN_CTRL_EN n.val) = true → s.m.is (CHN_CTRL_ADAPT n.val) = true →
        Completes (.adaptWindowEnd n w errors) s fun t =>
          t = { s.m with media := t.media } ∧ (t.media.chan[n]).coef = (s.m.media.chan[n]).coef ∧
          ∀ k, k < 64 →
            ∀ a sum cur, a = 0x400 * (s.m.media.chan[n]).force.eqSet.val + k →
              sum = s.m.adaptSum n w (errors.take (2 ^ s.m.adaptShift n)) k →
              cur = signedOf 10 (getPair ((s.m.media.chan[n]).coefAt a) a (s.m.media.chan[n]).heldTaps) →
              getPair (2 ^ 10) a (t.media.chan[n]).heldTaps =
                if 2 ^ (s.m.adaptShift n - 2) < sum.natAbs then
                  codeOf 10 (max (-512) (min 511 (if 0 < sum then cur + 1 else cur - 1)))
                else getPair (2 ^ 10) a (s.m.media.chan[n]).heldTaps)

/-- SECTOR_BOUNDARY, SECTOR_CAPTURE and SYNC_SEARCH_END (R7, R54, R55, R60–R62, R81, R89, R109–R112), while no formatter
waits for the reset of a fault. At a boundary the written equaliser set, rate, geometry and EN come into force, the
adapted taps enter their set, and spans that reach into the next sector stay, counted from its start. With the head
settled, the track confirmed, the actuator active and neither the other slot nor a ladder job in the way, a capture
fills the lowest free slot or ends its descriptor MISSED; where one of these is missing, or nothing is armed, nothing is
captured. The search frames the oldest unframed capture: where an offset of the first 49 is within the threshold the
mark is found, and otherwise it is framed blind at offset 0. It concludes that exec answers a next state, with the
effect of the command itself, under conditions on the state and the operands alone, for: sectorBoundary, sectorCapture,
syncSearchEnd. -/
def Obligations.SectorCaptures : Prop :=
  ∀ (s : State) (n : Stream), Running 14 n.val s.m → NoResetWaits s.m →
    (Completes (.sectorBoundary n) s fun t =>
      (t.media.chan[n]).force.eqSet.val = s.m.get (CHN_CTRL_EQ_SET n.val) ∧
      (t.media.chan[n]).force.rateM = max 23406 (min 65536 (s.m.get (CHN_RATE_M n.val))) ∧
      (t.media.chan[n]).force.wedgeData = s.m.get (FMT_GEOM_WEDGE_DATA n.val) ∧
      (t.media.chan[n]).force.spt = s.m.get (FMT_GEOM_SPT n.val) ∧
      (t.media.chan[n]).force.first = s.m.get (FMT_SKEW_FIRST n.val) ∧
      (t.media.chan[n]).force.cskew = s.m.get (FMT_SKEW_CSKEW n.val) ∧
      (t.media.chan[n]).force.hskew = s.m.get (FMT_SKEW_HSKEW n.val) ∧
      (t.media.chan[n]).force.zone = s.m.get (FMT_PRECOMP_ZONE n.val) ∧
      (s.m.is (CHN_TLOOP_FOLLOW n.val) = false → (t.media.chan[n]).force.delta = 0) ∧
      (s.m.is (CHN_TLOOP_FOLLOW n.val) = true → (t.media.chan[n]).force.delta = (s.m.media.chan[n]).deltaNext) ∧
      (t.media.chan[n]).heldTaps = [] ∧
      (t.media.chan[n]).coef = ((s.m.media.chan[n]).heldTaps.foldl (fun c x => c.putCoef x.1 x.2) (s.m.media.chan[n])).coef ∧
      (t.media.chan[n]).spans = (s.m.media.chan[n]).spans.filterMap nextSpan ∧
      (t.media.chan[n]).capturing = s.m.is (CHN_CTRL_EN n.val)) ∧
    (∀ samples, (s.m.media.fmt[n]).armedCap = none ∨ (s.m.media.chan[n]).capturing = false ∨ s.m.headValid n = false ∨
        s.m.bitAt (SRV_STAT_TRK_CONF (actOf n).val) (slotOf n).val = false ∨ s.m.otherWrites n = true ∨
        2 ≤ s.m.get (QDR_ACT_STATE (actOf n).val) →
      Yields (.sectorCapture n samples) s s.m) ∧
    (∀ samples ring item, (s.m.media.fmt[n]).armedCap = some ring →
      (s.m.media.fmt[n]).items.find? (·.ring == ring) = some item →
      (s.m.ladderHas n item.desc = true → Yields (.sectorCapture n samples) s s.m) ∧
      ((s.m.media.chan[n]).capturing = true → s.m.headValid n = true →
        s.m.bitAt (SRV_STAT_TRK_CONF (actOf n).val) (slotOf n).val = true → s.m.otherWrites n = false →
        s.m.ladderHas n item.desc = false → s.m.get (QDR_ACT_STATE (actOf n).val) < 2 →
        (∀ i, s.m.freeSlotOf n = some i →
          Completes (.sectorCapture n samples) s fun t =>
            (t.media.chan[n]).slots[i].state = .captured ∧ (t.media.chan[n]).slots[i].framed = false ∧
            (t.media.chan[n]).slots[i].samples =
              ⟨s.m.laneSamples (lanesOf n 0) samples.x, s.m.laneSamples (lanesOf n 1) samples.y⟩ ∧
            (t.media.chan[n]).slots[i].desc = item.desc ∧
            (t.media.chan[n]).slots[i].eqSet = (s.m.media.chan[n]).force.eqSet ∧ (t.media.fmt[n]).armedCap = none ∧
            ∀ j, j ≠ i → (t.media.chan[n]).slots[j] = (s.m.media.chan[n]).slots[j]) ∧
        (s.m.freeSlotOf n = none →
          Completes (.sectorCapture n samples) s fun t =>
            (t.media.chan[n]).slots = (s.m.media.chan[n]).slots ∧ (t.media.fmt[n]).armedCap = none ∧
            t.reports = s.m.reports ++ [32 * (14 + n.val) + 8]))) ∧
    (∀ bits phases, s.m.unframed n = none → Yields (.syncSearchEnd n bits phases) s s.m) ∧
    ∀ bits phases i, s.m.unframed n = some i →
      Completes (.syncSearchEnd n bits phases) s fun t =>
        (t.media.chan[n]).slots[i].framed = true ∧
        ((∀ k, k < 49 → s.m.get (LAD_SYNC_THRESH (actOf n).val) < (syncDists bits).getD k 48) →
          (t.media.chan[n]).slots[i].found = false ∧ (t.media.chan[n]).slots[i].offset = 0 ∧
          t.is (LAD_SYNCSTAT_FOUND (actOf n).val (slotOf n).val) = false) ∧
        (∀ k, k < 49 → (syncDists bits).getD k 48 ≤ s.m.get (LAD_SYNC_THRESH (actOf n).val) →
          (t.media.chan[n]).slots[i].found = true ∧ t.is (LAD_SYNCSTAT_FOUND (actOf n).val (slotOf n).val) = true) ∧
        ∀ j, j ≠ i → (t.media.chan[n]).slots[j] = (s.m.media.chan[n]).slots[j]

/-- CHN_CDATA_WRITE, CHN_EN_WRITE, CHN_CNTCLR and DEC_CNTCLR (R72, R81, R428). While EN is 1 a write to the set EQ_SET
is ignored with CWR_IGN; any other write to an entry that exists is stored at ADDR, which advances with AUTOINC; a
changed EQ_SET takes effect at the next sector boundary. EN is stored, and its start clears the sync status. Counters
are cleared, and HIGH restarts at USED. DECODER_GRANT, DECODE_COMPLETE and WRITE_BACK_COMPLETE (R62, R63, R72–R74,
R76–R78). Outside M4 the lowest-numbered free engine takes the oldest eligible ladder request while fewer than
LADDER_MAX engines hold one, else the oldest eligible on-the-fly capture, and the stream's replay front end is busy for
1,168 F-DEC cycles. The end of a decode frees its engine; a good on-the-fly decode that is no verify starts its
write-back. Once its bursts have moved, a write-back ends and frees its slot. It concludes that exec answers a next
state, with the effect of the command itself, under conditions on the state and the operands alone, for: sectorBoundary,
decoderGrant, decodeComplete, writeBackComplete, chnCdataWrite, chnEnWrite, chnCntclr, decCntclr. -/
def Obligations.DecodersAndChannelWrites : Prop :=
  (∀ (s : State) (n : Stream), Running 14 n.val s.m →
    (∀ data, s.m.is (CHN_CTRL_EN n.val) = true →
      s.m.get (CHN_CADDR_ADDR n.val) / 0x400 = s.m.get (CHN_CTRL_EQ_SET n.val) →
      Completes (.chnCdataWrite n data) s fun t =>
        t.is (CHN_SMEM_CWR_IGN n.val) = true ∧ t.media = s.m.media ∧ t.reports = s.m.reports ++ [32 * (5 + n.val)]) ∧
    (∀ data, ¬ (s.m.is (CHN_CTRL_EN n.val) = true ∧
        s.m.get (CHN_CADDR_ADDR n.val) / 0x400 = s.m.get (CHN_CTRL_EQ_SET n.val)) →
      coefWidth (s.m.get (CHN_CADDR_ADDR n.val) % 0x400) ≠ 0 →
      Completes (.chnCdataWrite n data) s fun t =>
        (t.media.chan[n]).coefAt (s.m.get (CHN_CADDR_ADDR n.val)) =
          data.toNat % 2 ^ coefWidth (s.m.get (CHN_CADDR_ADDR n.val) % 0x400) ∧
        (∀ a, a ≠ s.m.get (CHN_CADDR_ADDR n.val) → (t.media.chan[n]).coefAt a = (s.m.media.chan[n]).coefAt a) ∧
        t.get (CHN_CADDR_ADDR n.val) = (s.m.get (CHN_CADDR_ADDR n.val) +
          if s.m.is (CHN_CADDR_AUTOINC n.val) then 1 else 0) % 0x1000) ∧
    (NoResetWaits s.m →
      Completes (.sectorBoundary n) s fun t => (t.media.chan[n]).force.eqSet.val = s.m.get (CHN_CTRL_EQ_SET n.val)) ∧
    (s.m.is (CHN_CTRL_EN n.val) = false →
      Completes (.chnEnWrite n true) s fun t =>
        t.is (CHN_CTRL_EN n.val) = true ∧ (t.media.chan[n]).capturing = true ∧
        t.word (REG_LAD_SYNCSTAT (actOf n).val (slotOf n).val) = 0) ∧
    Yields (.chnEnWrite n false) s (s.m.setFlag (CHN_CTRL_EN n.val) false) ∧
    (s.m.is (CHN_CTRL_EN n.val) = true → Yields (.chnEnWrite n true) s (s.m.setFlag (CHN_CTRL_EN n.val) true)) ∧
    (Completes (.chnCntclr n) s fun t =>
      t.get (CHN_CNT_SECT_CAPT n.val) = 0 ∧ t.get (CHN_CNT_TA_SPANS n.val) = 0 ∧ t.get (CHN_CNT_TA_MERGED n.val) = 0 ∧
      t.get (CHN_SMEM_HIGH n.val) = s.m.get (CHN_SMEM_USED n.val) ∧ t = { s.m with regs := t.regs }) ∧
    (Running 12 28 s.m →
      Completes .decCntclr s fun t =>
        t.get DEC_CNT_OTF_COUNT = 0 ∧ t.get DEC_CNT_NOCONV_COUNT = 0 ∧ t.get DEC_CNT_CRC_COUNT = 0 ∧
        t.get DEC_CNT_TAG_COUNT = 0 ∧ (∀ k : Fin 24, t.get (DEC_ITERH_COUNT k.val) = 0) ∧ t = { s.m with regs := t.regs })) ∧
  (∀ s : State,
    (Running 12 28 s.m → (∀ e : Engine, (s.m.media.dec.engines[e]).isSome = true) ∨ s.m.get PWR_MODE_MODE = 4 →
      Yields .decoderGrant s s.m) ∧
    (∀ e : Engine, Running 12 28 s.m → s.m.get PWR_MODE_MODE ≠ 4 →
      (allFin 12).find? (fun x => (s.m.media.dec.engines[x]).isNone) = some e →
      (∀ q, s.m.ladderHeld < max 1 (min 4 (s.m.get DEC_CFG_LADDER_MAX)) → s.m.oldestLadder = some q →
        Completes .decoderGrant s fun t =>
          (∃ h, t.media.dec.engines[e] = some h ∧ h.ladder = some q.ref ∧ h.stream = q.stream ∧ h.slot = q.slot) ∧
          t.media.dec.ladder = s.m.media.dec.ladder.filter (fun x => x.ref != q.ref) ∧
          (t.media.chan[q.stream]).replayEnd = s.m.clock + 1168 * 10 ∧
          ∀ x, x ≠ e → t.media.dec.engines[x] = s.m.media.dec.engines[x]) ∧
      ((¬ s.m.ladderHeld < max 1 (min 4 (s.m.get DEC_CFG_LADDER_MAX)) ∨ s.m.oldestLadder = none) →
        (∀ n i, s.m.oldestOtf = some (n, i) →
          Completes .decoderGrant s fun t =>
            (∃ h, t.media.dec.engines[e] = some h ∧ h.ladder = none ∧ h.stream = n ∧ h.slot = some i ∧ h.sched = .otf) ∧
            (t.media.chan[n]).slots[i].state = .decoding ∧ t.media.dec.ladder = s.m.media.dec.ladder ∧
            (t.media.chan[n]).replayEnd = s.m.clock + 1168 * 10) ∧
        (s.m.oldestOtf = none → Yields .decoderGrant s s.m))) ∧
    (∀ e : Engine, Running (if e.val < 6 then 12 else 13) 28 s.m →
      (s.m.media.dec.engines[e] = none → Yields (.decodeComplete e) s s.m) ∧
      ∀ h, s.m.media.dec.engines[e] = some h →
        (Completes (.decodeComplete e) s fun t =>
          t.media.dec.engines[e] = none ∧ t.get (DEC_ENG_STATE e.val) = 0 ∧
          ∀ x, x ≠ e → t.media.dec.engines[x] = s.m.media.dec.engines[x]) ∧
        (∀ i, h.ladder = none → h.slot = some i → (s.m.decodeResult h).1 ≤ 1 → h.desc.op ≠ 3 →
          Completes (.decodeComplete e) s fun t =>
            ∃ w, t.media.dec.writeBacks = s.m.media.dec.writeBacks ++ [w] ∧ w.slot = some i ∧ w.block = (s.m.decodeResult h).2 ∧
              (t.media.chan[h.stream]).slots[i].state = (s.m.media.chan[h.stream]).slots[i].state)) ∧
    ∀ k, Running 12 28 s.m →
      (s.m.media.dec.writeBacks[k]? = none → Yields (.writeBackComplete k) s s.m) ∧
      ∀ w i, s.m.media.dec.writeBacks[k]? = some w → w.slot = some i →
        (s.m.writeBackMoved k w = false → Yields (.writeBackComplete k) s s.m) ∧
        (s.m.writeBackMoved k w = true →
        Completes (.writeBackComplete k) s fun t =>
          t.media.dec.writeBacks = s.m.media.dec.writeBacks.eraseIdx k ∧ (t.media.chan[w.stream]).slots[i].state = .free))

/-- LOADDESC, LOADTRK, CAPTURE, WRITE and COMPLETE (R96, R99, R102, R103, R106), while no formatter waits for the reset
of a fault. LOADDESC hands the descriptor of the line buffer to the datapath, or while the other slot writes keeps it
waiting at STATE 3; LOADTRK starts the search for the track of the descriptor handed over last; CAPTURE arms the capture
of the current sector in a read run; WRITE arms its write in a write run, and gives its gate moment where no other
sector of the run is written or armed; COMPLETE takes out the oldest descriptor and advances HEAD. The sequencer goes on
to its next word. It concludes that exec answers a next state, with the effect of the command itself, under conditions
on the state and the operands alone, for: loaddesc, loadtrk, capture, write, complete. -/
def Obligations.FormatterPrimitives : Prop :=
  ∀ (s : State) (n : Stream) (inp : Bool) (u : Micro) (next : Nat),
    Running (seqDomain (seqFS n)) (seqBlock (seqFS n)) s.m → AtWord s.m (seqFS n) inp u next → u.alu = 0 → NoResetWaits s.m →
    (u.xop = 16 → s.m.is (FMT_CTRL_EN n.val) = true →
      (s.m.otherWrites n = true →
        Completes (.loaddesc n inp) s fun t =>
          t.get (FMT_STAT_STATE n.val) = 3 ∧
          (t.media.fmt[n]).loadWait = some (lineDesc (s.m.eng.seqs[seqFS n]).line) ∧
          (t.media.fmt[n]).items = (s.m.media.fmt[n]).items ∧ t.get (SEQ_STAT_ADDR (seqFS n).val) = next) ∧
      (s.m.otherWrites n = false →
        Completes (.loaddesc n inp) s fun t =>
          ((t.media.fmt[n]).items.map fun i => (i.ring, i.desc)) =
            ((s.m.media.fmt[n]).items.map fun i => (i.ring, i.desc)) ++
              [((s.m.media.fmt[n]).nextRing, lineDesc (s.m.eng.seqs[seqFS n]).line)] ∧
          (t.media.fmt[n]).nextRing = ((s.m.media.fmt[n]).nextRing + 1) % s.m.fmtRingSize n ∧
          t.get (SEQ_STAT_ADDR (seqFS n).val) = next)) ∧
    (u.xop = 17 → ∀ i, (s.m.media.fmt[n]).items.getLast? = some i →
      Completes (.loadtrk n inp) s fun t =>
        (t.media.fmt[n]).searching = some (i.desc.cyl, i.desc.globalHead n) ∧ (t.media.fmt[n]).track = none ∧
        t.is (FMT_STAT_TRACK_VALID n.val) = false ∧ t.get (SEQ_STAT_ADDR (seqFS n).val) = next) ∧
    (u.xop = 18 → ∀ i, s.m.curItem n = some i → (s.m.media.fmt[n]).inRun = true → s.m.headValid n = true →
      i.desc.reads = true → s.m.otherWrites n = false →
      Completes (.capture n inp) s fun t =>
        (t.media.fmt[n]).armedCap = some i.ring ∧ (t.media.fmt[n]).items = (s.m.media.fmt[n]).items ∧
        t.get (SEQ_STAT_ADDR (seqFS n).val) = next) ∧
    (u.xop = 19 → ∀ i, s.m.curItem n = some i → (s.m.media.fmt[n]).inRun = true → i.desc.writes = true →
      s.m.otherWrites n = false →
      Completes (.write n inp) s fun t =>
        (t.media.fmt[n]).armedWr = (s.m.media.fmt[n]).armedWr ++ [i.ring] ∧
        (t.media.fmt[n]).items = (s.m.media.fmt[n]).items ∧
        ((s.m.media.fmt[n]).writing = none → (s.m.media.fmt[n]).armedWr = [] →
          (t.motion.hsq[actOf n]).due = ((s.m.setFmt n fun f =>
            { f with armedWr := [i.ring] }).giveMoment n i).motion.hsq[actOf n].due) ∧
        t.get (SEQ_STAT_ADDR (seqFS n).val) = next) ∧
    (u.xop = 20 → ∀ i rest st, (s.m.media.fmt[n]).items = i :: rest → i.status = some st →
      Completes (.complete n inp) s fun t =>
        (t.media.fmt[n]).items = rest ∧ t.get (FMT_RING_HEAD_HEAD n.val) = s.m.nextRing n i.ring % 4096 ∧
        t.get (SEQ_STAT_ADDR (seqFS n).val) = next)

/-- FMT_CNTCLR, FMT_EN_WRITE and RUN_BEGIN (R108, R311, R428), while no formatter waits for the reset of a fault. The
formatter's counters are cleared; EN is stored; the earliest waiting formatter that may begin its run begins it while
fewer than PWR_CAP.STREAMS streams are in runs, or in M9. TRACK_LOADED, WRITE_PATH_FETCH and CODEWORD_READY (R84, R96,
R97, R100, R101), while no formatter waits for the reset of a fault. A search ends with the track's entries of types 0
and 1 loaded, or with none where there are more than 64. A fetch does nothing while the encoder is busy, the FIFO holds
four codewords or no write waits; otherwise it encodes the next write's block, and a data block is sealed under the
descriptor's key. Once the block's bursts have moved, a good encoding enters the FIFO, and a bad one sets ENCERR and
puts none there. It concludes that exec answers a next state, with the effect of the command itself, under conditions on
the state and the operands alone, for: trackLoaded, writePathFetch, codewordReady, fmtEnWrite, fmtCntclr, runBegin. -/
def Obligations.WritePath : Prop :=
  (∀ s : State, NoResetWaits s.m →
    (∀ n : Stream, Running (15 + n.val / 2) (8 + n.val) s.m →
      (Completes (.fmtCntclr n) s fun t =>
        t.get (FMT_CNT_WR_COUNT n.val) = 0 ∧ t.get (FMT_CNT_ABORT_TORN n.val) = 0 ∧ t.get (FMT_CNT_ABORT_UNDERRUN n.val) = 0 ∧
        t.get (FMT_CNT_MISS_MISSED n.val) = 0 ∧ t.get (FMT_CNT_MISS_ENCERR n.val) = 0 ∧ t = { s.m with regs := t.regs }) ∧
      ∀ en, Yields (.fmtEnWrite n en) s (s.m.setFlag (FMT_CTRL_EN n.val) en)) ∧
    (s.m.pwr.runWait.find? s.m.runMayBegin = none → Yields .runBegin s s.m) ∧
    (s.m.streamCap ≤ s.m.streamsInRuns → s.m.get PWR_MODE_MODE ≠ 9 → Yields .runBegin s s.m) ∧
    ∀ n, s.m.pwr.runWait.find? s.m.runMayBegin = some n →
      (s.m.streamsInRuns < s.m.streamCap ∨ s.m.get PWR_MODE_MODE = 9) →
      Completes .runBegin s fun t =>
        t.pwr.runWait = s.m.pwr.runWait.filter (fun k => k != n) ∧
        (∀ i, s.m.runItem n = some i → (t.media.fmt[n]).inRun = true ∧
          t.get (FMT_STAT_STATE n.val) = if i.desc.writes = true then 2 else 1)) ∧
  (∀ s : State, NoResetWaits s.m →
    (∀ n : Stream, Running (15 + n.val / 2) (8 + n.val) s.m →
      ((s.m.media.fmt[n]).searching = none → Yields (.trackLoaded n) s s.m) ∧
      (∀ cyl head, (s.m.media.fmt[n]).searching = some (cyl, head) →
        Completes (.trackLoaded n) s fun t =>
          (t.media.fmt[n]).searching = none ∧ (t.media.fmt[n]).track = some (cyl, head) ∧
          (t.media.fmt[n]).overflow = decide (64 < (s.m.trackEntries n (head * 2 ^ 20 + cyl)).length) ∧
          (t.media.fmt[n]).defects =
            (if 64 < (s.m.trackEntries n (head * 2 ^ 20 + cyl)).length then []
              else (s.m.trackEntries n (head * 2 ^ 20 + cyl)).filter fun e => decide (e.type < 2)) ∧
          t.is (FMT_STAT_TRACK_VALID n.val) = true) ∧
      (∀ grouped, (s.m.media.wpath[actOf n]).encoding.isSome = true ∨ 4 ≤ (s.m.media.wpath[actOf n]).fifo.length ∨
          s.m.nextFetch n = none → Yields (.writePathFetch n grouped) s s.m) ∧
      ∀ grouped i, (s.m.media.wpath[actOf n]).encoding = none → (s.m.media.wpath[actOf n]).fifo.length < 4 →
        s.m.nextFetch n = some i → ((s.m.demandBlock (actOf n) i.desc.handle).loadBlock i.desc.handle).1.2 = false →
        Completes (.writePathFetch n grouped) s fun t =>
          (∃ e, (t.media.wpath[actOf n]).encoding = some e ∧ e.word.stream = n ∧ e.word.ring = i.ring ∧
            (i.desc.op ≠ 2 → e.word.block = sealBlock (s.m.sec.slots[(Fin.ofNat 32 i.desc.key)]) i.desc.tag
              (dataBlock ((s.m.demandBlock (actOf n) i.desc.handle).loadBlock i.desc.handle).1.1 i.desc.tag i.desc.wgen))) ∧
          (t.media.wpath[actOf n]).fifo = (s.m.media.wpath[actOf n]).fifo) ∧
    ∀ a : Actuator, Running 14 64 s.m →
      (∀ bad, (s.m.media.wpath[a]).encoding = none → Yields (.codewordReady a bad) s s.m) ∧
      (∀ e bad, (s.m.media.wpath[a]).encoding = some e → s.m.portQuiet (writePathPort a) = false →
        Yields (.codewordReady a bad) s s.m) ∧
      (∀ e, (s.m.media.wpath[a]).encoding = some e → s.m.portQuiet (writePathPort a) = true →
        (Completes (.codewordReady a false) s fun t =>
          (t.media.wpath[a]).fifo = (s.m.media.wpath[a]).fifo ++ [e.word] ∧ (t.media.wpath[a]).encoding = none ∧
          t = { s.m with media := { s.m.media with wpath := t.media.wpath } }) ∧
        ((s.m.media.fmt[e.word.stream]).items.any (fun i => i.ring == e.word.ring) = true →
          Completes (.codewordReady a true) s fun t =>
            t.is (FMT_ERR_ENCERR e.word.stream.val) = true ∧
            ∀ c ∈ (t.media.wpath[a]).fifo, c ∈ (s.m.media.wpath[a]).fifo)))

/-- GATE_MOMENT, GATE_REOPEN, WSAFE_FALL and RUN_END (R7, R88, R103, R104, R106, R174–R176), while no formatter waits
for the reset of a fault. A gate opens only at its moment, with no register frame on the link, while the flag is 1, the
codeword is in the FIFO, the head sequencer runs and the other slot and the ladder are idle; otherwise the sector is not
written and a lowered gate stays lowered, and a raise that the head sequencer withholds sets GATE_REFUSED. After a servo
field the gate of a split sector reopens while the flag is 1, or the sector is torn. A run whose next sector does not
follow ends with its gate lowered. A gate that is open when the flag has fallen is lowered, and its sector is torn. It
concludes that exec answers a next state, with the effect of the command itself, under conditions on the state and the
operands alone, for: gateMoment, gateReopen, wsafeFall, runEnd. -/
def Obligations.WriteGate : Prop :=
  ∀ s : State, NoResetWaits s.m →
    (∀ a : Actuator, Running (15 + a.val) (24 + a.val) s.m →
      ((s.m.motion.hsq[a]).moments = [] ∨ (s.m.motion.hsq[a]).frame.isSome = true → Yields (.gateMoment a) s s.m) ∧
      ∀ g rest i, (s.m.motion.hsq[a]).moments = g :: rest → (s.m.motion.hsq[a]).frame = none →
        s.m.itemAt (streamOf a g.slot) g.ring = some i →
        (s.m.raiseWithheld (streamOf a g.slot) i.desc = true →
          Completes (.gateMoment a) s fun t =>
            t.is (HSQ_ERR_GATE_REFUSED a.val) = true ∧
            (s.m.is (HSQ_SEL_GATE a.val g.slot.val) = false → t.is (HSQ_SEL_GATE a.val g.slot.val) = false)) ∧
        (s.m.raiseWithheld (streamOf a g.slot) i.desc = false →
          (∀ c, s.m.codewordOf (streamOf a g.slot) g.ring = some c → s.m.slotSafe a g.slot = 1 →
            s.m.is (HSQ_CTRL_EN a.val) = true → s.m.otherIdle (streamOf a g.slot) = true →
            Completes (.gateMoment a) s fun t =>
              t.is (HSQ_SEL_GATE a.val g.slot.val) = true ∧ t.is (FMT_STAT_GATE (streamOf a g.slot).val) = true ∧
              (∃ w, (t.media.fmt[streamOf a g.slot]).writing = some w ∧ w.ring = g.ring) ∧
              t.get (FMT_STAT_STATE (streamOf a g.slot).val) = 2) ∧
          (s.m.slotSafe a g.slot = 0 ∨ s.m.codewordOf (streamOf a g.slot) g.ring = none ∨
              s.m.is (HSQ_CTRL_EN a.val) = false ∨ s.m.otherIdle (streamOf a g.slot) = false →
            Completes (.gateMoment a) s fun t =>
              s.m.is (HSQ_SEL_GATE a.val g.slot.val) = false → t.is (HSQ_SEL_GATE a.val g.slot.val) = false))) ∧
    (∀ n : Stream, Running (15 + n.val / 2) (8 + n.val) s.m →
      ((s.m.media.fmt[n]).writing = none → Yields (.gateReopen n) s s.m ∧ Yields (.runEnd n) s s.m) ∧
      (∀ w i, (s.m.media.fmt[n]).writing = some w → s.m.itemAt n w.ring = some i →
        (s.m.media.wpath[actOf n]).split = true → (s.m.media.wpath[actOf n]).writer = some (slotOf n) →
        s.m.is (FMT_STAT_GATE n.val) = false →
        (s.m.slotSafe (actOf n) (slotOf n) = 0 →
          Completes (.gateReopen n) s fun t =>
            t.is (FMT_STAT_GATE n.val) = false ∧ (32 * (14 + n.val) + 6) ∈ t.reports) ∧
        (s.m.slotSafe (actOf n) (slotOf n) ≠ 0 → s.m.otherIdle n = true → s.m.raiseWithheld n i.desc = false →
          Completes (.gateReopen n) s fun t =>
            t.is (FMT_STAT_GATE n.val) = true ∧ (t.media.wpath[actOf n]).split = false ∧
            ∃ x, (t.media.fmt[n]).writing = some x ∧ x.ring = w.ring)) ∧
      (∀ w i, (s.m.media.fmt[n]).writing = some w → s.m.itemAt n w.ring = some i →
        (s.m.is (FMT_STAT_GATE n.val) = false ∨ (s.m.runNext n i).isSome = true → Yields (.runEnd n) s s.m) ∧
        (s.m.is (FMT_STAT_GATE n.val) = true → s.m.runNext n i = none →
          Completes (.runEnd n) s fun t =>
            t.is (FMT_STAT_GATE n.val) = false ∧ t.is (HSQ_SEL_GATE (actOf n).val (slotOf n).val) = false ∧
            (t.media.fmt[n]).writing = none))) ∧
    ∀ (a : Actuator) (bits : Nat), Running (15 + a.val) 64 s.m →
      (s.m.is (SRV_STAT_WSAFE a.val) = true → Yields (.wsafeFall a bits) s s.m) ∧
      ∀ k w i, s.m.is (SRV_STAT_WSAFE a.val) = false → (s.m.media.wpath[a]).writer = some k →
        (s.m.media.fmt[streamOf a k]).writing = some w → s.m.itemAt (streamOf a k) w.ring = some i →
        s.m.is (FMT_STAT_GATE (streamOf a k).val) = true →
        Completes (.wsafeFall a bits) s fun t =>
          t.is (FMT_STAT_GATE (streamOf a k).val) = false ∧ t.is (HSQ_SEL_GATE a.val k.val) = false ∧
          t.is (FMT_STAT_WSAFE (streamOf a k).val) = false ∧ (32 * (14 + (streamOf a k).val) + 6) ∈ t.reports

/-- ATTEMPT_END, HEATER_SETTLE_END, CAPTURE_TAKEN and REBUILD_DONE (R7, R97, R118, R120–R127, R132). The first attempt
in the step's order that decoded well ends its job RECOVERED, with a write-back unless the sector is verified; a step
whose attempts all failed moves the job to the next step that applies, or ends it past its limit. A capture that waits
only for the settling of a heater change is armed. An armed capture fills the lowest free slot where the head is
settled, the track confirmed, the actuator active and the writer at rest, and otherwise waits. A rebuild that yields the
sector ends its job RECOVERED; a TYPE-1 position is an erasure. LAD_START, LAD_RAISE, LAD_EN_WRITE, LAD_CNTCLR and
JOB_END (R114, R115, R128, R129, R132–R134). A start joins the queue, or is refused with its flags: queue full, a job of
the same ring index and slot, or no pinned slot. A raise of a job that stands lower sets its limit. EN is stored and the
counters are cleared. A recorded job that has ended leaves the queue: unrecovered, or recovered at step CAND_STEP or a
later one, it is reported and its sector becomes a candidate; withdrawn, it is neither. It concludes that exec answers a
next state, with the effect of the command itself, under conditions on the state and the operands alone, for: ladStart,
ladRaise, attemptEnd, captureTaken, heaterSettleEnd, rebuildDone, jobEnd, ladEnWrite, ladCntclr. -/
def Obligations.LadderJobsAndEvents : Prop :=
  (∀ (s : State) (a : Actuator) (j : LadJob) (n : Stream), Running (15 + a.val) (16 + a.val) s.m → s.m.ladJob a = some j →
    n = streamOf a j.ssel →
    (j.ending.isSome = true → Yields (.attemptEnd a) s s.m) ∧
    (j.ending = none → j.withdraw = false →
      (∀ k code block, Mach.winner j.attempts = some (k, code, block) →
        Completes (.attemptEnd a) s fun t =>
          (∃ j', t.ladJob a = some j' ∧ j'.ending = some (.recovered, j.step) ∧ j'.counted = j.counted + k ∧
            j'.lastResult = code ∧ j'.attempts = [] ∧ j'.slot = none ∧ j'.offset = 0 ∧ j'.heater = 0) ∧
          (j.desc.op ≠ 3 → ∃ w, w ∈ t.media.dec.writeBacks ∧ w.block = block ∧ w.stream = n)) ∧
      (Mach.winner j.attempts = none → j.attempts.length = stepAttempts j.step →
        j.attempts.all (fun x => x.result.isSome) = true →
        Completes (.attemptEnd a) s fun t =>
          ∃ j', t.ladJob a = some j' ∧ j'.counted = j.counted + j.attempts.length ∧ j'.attempts = [] ∧
            (j.limit < j.firstFrom (j.step + 1) → j'.ending = some (.unrecovered, 0) ∧ j'.step = j.step) ∧
            (j.firstFrom (j.step + 1) ≤ j.limit → j'.ending = none ∧ j'.step = j.firstFrom (j.step + 1)))) ∧
    (¬ (j.armWait = true ∧ j.heaterOk = false) → Yields (.heaterSettleEnd a) s s.m) ∧
    (j.armWait = true → j.heaterOk = false →
      Completes (.heaterSettleEnd a) s fun t =>
        t.ladJob a = some { j with armed := s.m.noWriteRun a, armWait := !s.m.noWriteRun a, heaterOk := true } ∧
        t.motion = s.m.motion) ∧
    (∀ samples, j.armed = false ∨ (s.m.media.chan[n]).capturing = false ∨ s.m.headValid n = false ∨
        s.m.bitAt (SRV_STAT_TRK_CONF a.val) j.ssel.val = false ∨ 2 ≤ s.m.get (QDR_ACT_STATE a.val) ∨
        s.m.noWriteRun a = false ∨ s.m.freeSlotOf n = none → Yields (.captureTaken a samples) s s.m) ∧
    (∀ samples i, j.armed = true → (s.m.media.chan[n]).capturing = true → s.m.headValid n = true →
      s.m.bitAt (SRV_STAT_TRK_CONF a.val) j.ssel.val = true → s.m.get (QDR_ACT_STATE a.val) < 2 →
      s.m.noWriteRun a = true → ((s.m.media.fmt[n]).inRun = true ∨ s.m.streamsInRuns < s.m.streamCap) →
      s.m.freeSlotOf n = some i →
      Completes (.captureTaken a samples) s fun t =>
        (t.media.chan[n]).slots[i].state = .captured ∧ (t.media.chan[n]).slots[i].framed = false ∧
        (t.media.chan[n]).slots[i].samples =
          ⟨s.m.laneSamples (lanesOf n 0) samples.x, s.m.laneSamples (lanesOf n 1) samples.y⟩ ∧
        (t.media.chan[n]).slots[i].ladder = true ∧
        ∃ j', t.ladJob a = some j' ∧ j'.armed = false ∧ j'.capSlot = some i) ∧
    (∀ group, j.rebuilding = false → Yields (.rebuildDone a group) s s.m) ∧
    ∀ group code block, j.rebuilding = true → j.withdraw = false →
      rebuildResult (s.m.sec.slots[(Fin.ofNat 32 j.desc.key)]) j.desc.tag j.desc.member
        (fun i => if s.m.memberMoved n j.desc i then none else (group.getD i none).bind (s.m.memberDecode n j.desc i)) =
        some (code, block) → code ≤ 1 →
      Completes (.rebuildDone a group) s fun t =>
        (∃ j', t.ladJob a = some j' ∧ j'.ending = some (.recovered, 15) ∧ j'.rebuilding = false ∧
          j'.counted = j.counted + 1 ∧ j'.lastResult = code) ∧
        (j.desc.op ≠ 3 → ∃ w, w ∈ t.media.dec.writeBacks ∧ w.block = block ∧ w.stream = n)) ∧
  (∀ (s : State) (a : Actuator), Running (15 + a.val) (16 + a.val) s.m →
    (∀ w : Word, 16 ≤ (s.m.media.lad[a]).jobs.length →
      Completes (.ladStart a w) s fun t => t.is (LAD_ERR_START_FULL a.val) = true ∧ t.media = s.m.media) ∧
    (∀ (w : Word) j, j ∈ (s.m.media.lad[a]).jobs → j.ring = getBits w 0 12 → j.ssel = Fin.ofNat 2 (getBits w 12 1) →
      Completes (.ladStart a w) s fun t => t.is (LAD_ERR_START_DUP a.val) = true ∧ t.media = s.m.media) ∧
    (∀ w : Word, getBits w 13 1 = 0 → s.m.pinnedSlot (streamOf a (Fin.ofNat 2 (getBits w 12 1))) (getBits w 0 12) = none →
      Completes (.ladStart a w) s fun t => t.is (LAD_ERR_START_BAD a.val) = true ∧ t.media = s.m.media) ∧
    (∀ w : Word, (s.m.media.lad[a]).jobs.length < 16 →
      (∀ j ∈ (s.m.media.lad[a]).jobs, ¬ (j.ring = getBits w 0 12 ∧ j.ssel = Fin.ofNat 2 (getBits w 12 1))) →
      (getBits w 13 1 = 1 ∨ (s.m.pinnedSlot (streamOf a (Fin.ofNat 2 (getBits w 12 1))) (getBits w 0 12)).isSome = true) →
      Completes (.ladStart a w) s fun t =>
        ∃ j, (t.media.lad[a]).jobs = (s.m.media.lad[a]).jobs ++ [j] ∧ j.ring = getBits w 0 12 ∧
          j.ssel = Fin.ofNat 2 (getBits w 12 1) ∧ j.limit = getBits w 16 4 + 1 ∧
          j.step = (if getBits w 13 1 = 1 then 7 else 1) ∧ j.counted = 0 ∧ j.lastResult = 15 ∧
          t.get (LAD_STAT_JOBS a.val) = ((s.m.media.lad[a]).jobs.length + 1) % 32) ∧
    (∀ w : Word, (∀ j ∈ (s.m.media.lad[a]).jobs, ¬ (j.ring = getBits w 0 12 ∧ j.ssel = Fin.ofNat 2 (getBits w 12 1) ∧
        j.ending = none ∧ j.limit ≤ getBits w 16 4 + 1)) →
      Completes (.ladRaise a w) s fun t => t.is (LAD_ERR_RAISE_BAD a.val) = true ∧ t.media = s.m.media) ∧
    (∀ (w : Word) j rest, (s.m.media.lad[a]).jobs = j :: rest → j.ring = getBits w 0 12 →
      j.ssel = Fin.ofNat 2 (getBits w 12 1) → j.ending = none → j.limit ≤ getBits w 16 4 + 1 →
      Completes (.ladRaise a w) s fun t =>
        (t.media.lad[a]).jobs.head? = some { j with limit := getBits w 16 4 + 1 } ∧
        t = { s.m with media := { s.m.media with lad := t.media.lad } }) ∧
    (∀ en, Yields (.ladEnWrite a en) s (s.m.setFlag (LAD_CTRL_EN a.val) en)) ∧
    (Completes (.ladCntclr a) s fun t =>
      (∀ k : Fin 16, t.get (LAD_CNT_STEP_COUNT a.val k.val) = 0) ∧ t.get (LAD_CNT_END_UNREC a.val) = 0 ∧
      t.get (LAD_CNT_END_WITHDRAWN a.val) = 0 ∧ t.get (LAD_CNT_SYNC_BLIND a.val) = 0 ∧
      t.get (LAD_CNT_SYNC_LATE a.val) = 0 ∧ t = { s.m with regs := t.regs }) ∧
    (∀ j, s.m.ladJob a = some j → j.recorded = false → Yields (.jobEnd a) s s.m.refreshKeys) ∧
    (s.m.ladJob a = none → Yields (.jobEnd a) s s.m.refreshKeys) ∧
    ∀ j rest o step, (s.m.media.lad[a]).jobs = j :: rest → j.recorded = true → j.ending = some (o, step) →
      Completes (.jobEnd a) s fun t =>
        (t.media.lad[a]).jobs = rest ∧
        (o = .unrecovered → t.reports.getLast? = some (32 * (22 + a.val) + 5)) ∧
        (o = .recovered → s.m.candStep a ≤ step → t.reports.getLast? = some (32 * (22 + a.val) + 6)) ∧
        (s.m.candidateOf j.desc.tag = none → o = .unrecovered ∨ (o = .recovered ∧ s.m.candStep a ≤ step) →
          (⟨tagNsid j.desc.tag, tagLba j.desc.tag, false⟩ : Candidate) ∈ t.cmd.cands) ∧
        (o = .withdrawn → t.cmd = s.m.cmd ∧ t.reports = s.m.reports))

/-- ATTEMPT, ARMCAP, AVGADD, REBUILD and RECORD (R117, R119, R121, R123–R126, R133). A primitive that names another step
is not carried out and sets LAD_ERR.ORDER; that AVGADD does so in a step that averages nothing is the model's choice
(log entry 145). An attempt in its order joins the decoder pool's ladder queue; ARMCAP arms a capture, which waits for a
write run of the actuator and for the settling of a heater change; AVGADD adds the framed capture and frees its slot;
REBUILD begins step 15; RECORD marks the ending job recorded and advances HEAD. It concludes that exec answers a next
state, with the effect of the command itself, under conditions on the state and the operands alone, for: attempt,
armcap, avgadd, rebuild, record. -/
def Obligations.LadderPrimitives : Prop :=
  ∀ (s : State) (a : Actuator) (inp : Bool) (u : Micro) (next : Nat) (j : LadJob),
    Running (15 + a.val) (16 + a.val) s.m → AtWord s.m (seqLS a) inp u next → u.alu = 0 → s.m.ladJob a = some j →
    (u.xop = 16 → getBits (s.m.gp (seqLS a) u.xreg) 0 5 ≠ j.step →
      Completes (.attempt a inp) s fun t =>
        t.is (LAD_ERR_ORDER a.val) = true ∧ t.media = s.m.media ∧ t.get (SEQ_STAT_ADDR (seqLS a).val) = next) ∧
    (∀ k i, u.xop = 16 → getBits (s.m.gp (seqLS a) u.xreg) 0 5 = j.step → getBits (s.m.gp (seqLS a) u.xreg) 8 5 = k →
      s.m.ladWorks a j = true → k = j.attempts.length + 1 → k ≤ stepAttempts j.step → j.step ≤ 6 → j.slot = some i →
      j.attempts.countP (fun x => x.result.isNone) < 8 →
      Completes (.attempt a inp) s fun t =>
        (∃ q, t.media.dec.ladder = s.m.media.dec.ladder ++ [q] ∧ q.ref = ⟨a, j.id, j.ring, j.ssel, j.step, k⟩ ∧
          q.slot = some i ∧ q.desc = j.desc ∧ q.time = s.m.clock) ∧
        t.get (SEQ_STAT_ADDR (seqLS a).val) = next) ∧
    (u.xop = 17 → getBits (s.m.gp (seqLS a) u.xreg) 0 5 ≠ j.step →
      Completes (.armcap a inp) s fun t =>
        t.is (LAD_ERR_ORDER a.val) = true ∧ t.media = s.m.media ∧ t.get (SEQ_STAT_ADDR (seqLS a).val) = next) ∧
    (u.xop = 17 → getBits (s.m.gp (seqLS a) u.xreg) 0 5 = j.step → s.m.ladWorks a j = true → 7 ≤ j.step → j.step ≠ 15 →
      j.armed = false → j.armWait = false → j.capSlot = none →
      (j.step ≠ 10 → j.step ≠ 13 →
        Completes (.armcap a inp) s fun t =>
          (∃ j', t.ladJob a = some j' ∧ j'.armed = s.m.noWriteRun a ∧ j'.armWait = !s.m.noWriteRun a ∧ j'.step = j.step ∧
            j'.heater = 0 ∧ (j.step ≠ 8 → j.step ≠ 9 → j.step ≠ 14 → j'.offset = 0)) ∧
          t.get (SEQ_STAT_ADDR (seqLS a).val) = next) ∧
      (∀ h, h ≠ 0 → j.heaterOk = false →
        (j.step = 10 ∧ h = s.m.getS (LAD_PARAM_HEAT1 a.val)) ∨ (j.step = 13 ∧ h = s.m.getS (LAD_PARAM_HEAT2 a.val)) →
        Completes (.armcap a inp) s fun t =>
          (∃ j', t.ladJob a = some j' ∧ j'.armed = false ∧ j'.armWait = true ∧ j'.step = j.step ∧ j'.heater = h ∧
            j'.offset = 0) ∧
          (t.motion.hsq[a]).heater[j.ssel] = h ∧ t.get (SEQ_STAT_ADDR (seqLS a).val) = next)) ∧
    (u.xop = 18 → stepAverages j.step = 0 →
      Completes (.avgadd a inp) s fun t =>
        t.is (LAD_ERR_ORDER a.val) = true ∧ t.media = s.m.media ∧ t.get (SEQ_STAT_ADDR (seqLS a).val) = next) ∧
    (∀ i, u.xop = 18 → stepAverages j.step ≠ 0 → j.capSlot = some i →
      (s.m.media.chan[streamOf a j.ssel]).slots[i].framed = true → j.added.length < stepAverages j.step →
      Completes (.avgadd a inp) s fun t =>
        (∃ j', t.ladJob a = some j' ∧ j'.added.length = j.added.length + 1 ∧ j'.capSlot = none) ∧
        (t.media.chan[streamOf a j.ssel]).slots[i].state = .free ∧ t.get (SEQ_STAT_ADDR (seqLS a).val) = next) ∧
    (u.xop = 19 → j.step ≠ 15 →
      Completes (.rebuild a inp) s fun t => t.is (LAD_ERR_ORDER a.val) = true ∧ t.media = s.m.media) ∧
    (u.xop = 19 → j.step = 15 → s.m.ladWorks a j = true →
      Completes (.rebuild a inp) s fun t =>
        t.ladJob a = some { j with rebuilding := true } ∧ t.get (LAD_STAT_STATE a.val) = 3 ∧
        t.get (SEQ_STAT_ADDR (seqLS a).val) = next) ∧
    (∀ o step, u.xop = 20 → j.ending = some (o, step) → j.recorded = false → s.m.ladRoom a = true →
      Completes (.record a inp) s fun t =>
        t.ladJob a = some { j with recorded := true } ∧
        t.get (LAD_RING_HEAD_HEAD a.val) = (s.m.get (LAD_RING_HEAD_HEAD a.val) + 1) % s.m.ladRingSize a ∧
        t.get (SEQ_STAT_ADDR (seqLS a).val) = next)

/-- SERVO_GATE_OPEN, SAM_SEARCH_END, PES_READY and RRO_FETCH_DONE (R88, R138–R145, R150–R153, R176). A locked, enabled
slot's gate opens, and closes a write gate that is open in the middle of a sector. A search in which no reader in use
finds the mark drops the flag of the WSLOT slot. A valid wedge gives the PES, position less target in use less the entry
of the RRO row, clamped to ±32,767, with its sequence and source; a missed wedge gives VALID 0, source 3 and a dropped
flag on the WSLOT slot. Once its bursts have moved, a fetched row becomes valid. It concludes that exec answers a next
state, with the effect of the command itself, under conditions on the state and the operands alone, for: servoGateOpen,
samSearchEnd, pesReady, rroFetchDone. -/
def Obligations.ServoWedges : Prop :=
  ∀ (s : State) (a : Actuator) (k : HeadSlot), Running (15 + a.val) (20 + a.val) s.m →
    (s.m.slotEn a k = false ∨ s.m.slotLocked a k = false → Yields (.servoGateOpen a k) s s.m) ∧
    (s.m.slotEn a k = true → s.m.slotLocked a k = true →
      Completes (.servoGateOpen a k) s fun t =>
        ((t.motion.srv[a]).slots[k]).gateOpen = true ∧
        ∀ w, (s.m.media.fmt[streamOf a k]).writing = some w → s.m.is (FMT_STAT_GATE (streamOf a k).val) = true →
          w.sent + Mach.segment w < sectorLength →
          t.is (FMT_STAT_GATE (streamOf a k).val) = false ∧ (t.media.wpath[a]).split = true) ∧
    (∀ x y, s.m.slotEn a k = true → k = s.m.wslot a →
      (s.m.get (SRV_CFG_SREADER a.val) ≠ 2 → samSearch (s.m.samTh a) x = none) →
      (s.m.get (SRV_CFG_SREADER a.val) ≠ 1 → samSearch (s.m.samTh a) y = none) →
      Yields (.samSearchEnd a k x y) s (s.m.set (SRV_STAT_WSAFE a.val) 0)) ∧
    (∀ x y, s.m.slotEn a k = false ∨ k ≠ s.m.wslot a ∨
        (s.m.get (SRV_CFG_SREADER a.val) ≠ 2 ∧ (samSearch (s.m.samTh a) x).isSome = true) ∨
        (s.m.get (SRV_CFG_SREADER a.val) ≠ 1 ∧ (samSearch (s.m.samTh a) y).isSome = true) →
      Yields (.samSearchEnd a k x y) s s.m) ∧
    (∀ f, s.m.slotEn a k = false → Yields (.pesReady a k f) s (Mach.watched id s.m)) ∧
    (∀ f y src wedge w, s.m.slotEn a k = true → s.m.demodulate a k f = some (y, src, wedge, w) →
      Completes (.pesReady a k f) s fun t =>
        t.getS (SRV_PES_PES a.val k.val) = clampInt (-32767) 32767
          (y - (s.m.targetInUse a k : Nat) - Mach.rroValue (s.m.rroCode a k wedge)) ∧
        t.get (SRV_PES_SRC a.val k.val) = src % 4 ∧
        t.get (SRV_PES_SEQ a.val k.val) = wedge % 256 ∧ t.is (SRV_PES_VALID a.val k.val) = true ∧
        ((t.motion.srv[a]).slots[k]).prevWedge = some wedge ∧ ((t.motion.srv[a]).slots[k]).since = 0 ∧
        (k = s.m.leadSlot a → (t.motion.srv[a]).curSeq = some (wedge % 256) ∧ (t.motion.srv[a]).closed = false ∧
          (t.motion.srv[a]).post = none)) ∧
    (∀ f, s.m.slotEn a k = true → s.m.demodulate a k f = none →
      Completes (.pesReady a k f) s fun t =>
        t.is (SRV_PES_VALID a.val k.val) = false ∧ t.get (SRV_PES_SRC a.val k.val) = 3 ∧
        t.get (SRV_PES_PES a.val k.val) = 0 ∧ ((t.motion.srv[a]).slots[k]).prevPes = none ∧
        ((t.motion.srv[a]).slots[k]).since = ((s.m.motion.srv[a]).slots[k]).since + 1 ∧
        (k = s.m.wslot a → t.is (SRV_STAT_WSAFE a.val) = false)) ∧
    (((s.m.motion.srv[a]).slots[k]).rroFetch = none → Yields (.rroFetchDone a k) s s.m) ∧
    (s.m.portQuiet (scPort a) = false → Yields (.rroFetchDone a k) s s.m) ∧
    ∀ addr, ((s.m.motion.srv[a]).slots[k]).rroFetch = some addr → s.m.portQuiet (scPort a) = true →
      Completes (.rroFetchDone a k) s fun t =>
        t.bitAt (SRV_STAT_RRO_VALID a.val) k.val = true ∧ ((t.motion.srv[a]).slots[k]).rroFetch = none ∧
        ((t.motion.srv[a]).slots[k]).rro = codes16 (s.m.readBytes addr (2 * s.m.nWedge a)).1.1

/-- APPLY_INSTANT (R146, R156, R161, R165, R167, R187–R189). At an apply instant a waiting lead change takes effect; an
aborted profile stops where it is, unless this sample was taken with another instant of the same cycle; and the
references in force never pass the limits, 3 A for the bridge and 6 A for the four bridges together. An actuator out of
service keeps its reference, and the other actuators keep theirs. SRV_POST and POST_DEADLINE (R147–R149, R152). The
on-time post for the wedge in force is taken; a post of a faulted actuator, of another wedge, a second one or a late one
is refused with its flag. A deadline without a post is an overrun, which drops the flag, and the third in a row faults
the actuator. It concludes that exec answers a next state, with the effect of the command itself, under conditions on
the state and the operands alone, for: srvPost, postDeadline, applyInstant. -/
def Obligations.ServoPostsAndInstants : Prop :=
  (∀ (s : State) (a : Actuator) (same : BitVec 4), Running (15 + a.val) (20 + a.val) s.m →
    (∀ k, (s.m.motion.srv[a]).leadNext = some k →
      Completes (.applyInstant a same) s fun t =>
        t.get (SRV_CFG_LEAD a.val) = k.val ∧ (t.motion.srv[a]).leadNext = none) ∧
    ((s.m.motion.prg[a]).aborting = true → (s.m.motion.prg[a]).ahead = false →
      Completes (.applyInstant a same) s fun t =>
        t.get (PRG_STAT_STATE a.val) = 5 ∧ (t.motion.prg[a]).parts = [] ∧ (t.motion.prg[a]).aborting = false ∧
        (t.motion.prg[a]).admitted = false ∧ t.get (QDR_KACC_EST a.val) = 0) ∧
    (s.m.outOfService a = true →
      Completes (.applyInstant a same) s fun t => t.die.vcmRef[a] = s.m.die.vcmRef[a]) ∧
    Completes (.applyInstant a same) s fun t =>
      (∀ b, b ≠ a → t.die.vcmRef[b] = s.m.die.vcmRef[b] ∧ t.die.maRef[b] = s.m.die.maRef[b]) ∧
      (t.die.vcmRef[a] = s.m.die.vcmRef[a] ∨
        ((t.die.vcmRef[a]).natAbs ≤ 30000 ∧ (t.die.vcmRef[a]).natAbs ≤ 60000 - s.m.otherRefs a))) ∧
  (∀ (s : State) (a : Actuator), Running (15 + a.val) (20 + a.val) s.m →
    (∀ seq wp, (s.m.motion.srv[a]).faulted = true →
      Completes (.srvPost a seq wp) s fun t => t.is (SRV_ERR_FAULTED a.val) = true ∧ t.motion = s.m.motion) ∧
    (∀ seq wp, (s.m.motion.srv[a]).faulted = false → (s.m.motion.srv[a]).curSeq ≠ some seq.toNat →
      Completes (.srvPost a seq wp) s fun t => t.is (SRV_ERR_SEQ a.val) = true ∧ t.motion = s.m.motion) ∧
    (∀ seq wp, (s.m.motion.srv[a]).faulted = false → (s.m.motion.srv[a]).curSeq = some seq.toNat →
      (s.m.motion.srv[a]).post.isSome = true →
      Completes (.srvPost a seq wp) s fun t => t.is (SRV_ERR_DUP a.val) = true ∧ t.motion = s.m.motion) ∧
    (∀ seq wp, (s.m.motion.srv[a]).faulted = false → (s.m.motion.srv[a]).curSeq = some seq.toNat →
      (s.m.motion.srv[a]).post = none → (s.m.motion.srv[a]).closed = true →
      Completes (.srvPost a seq wp) s fun t => t.is (SRV_ERR_LATE a.val) = true ∧ t.motion = s.m.motion) ∧
    (∀ seq wp, (s.m.motion.srv[a]).faulted = false → (s.m.motion.srv[a]).curSeq = some seq.toNat →
      (s.m.motion.srv[a]).post = none → (s.m.motion.srv[a]).closed = false →
      Completes (.srvPost a seq wp) s fun t =>
        (t.motion.srv[a]).lastPost = some ⟨seq.toNat, s.m.getS (SRV_OUT_VCM_CUR a.val), s.m.getS (SRV_OUT_MA_VOLT a.val 0),
          s.m.getS (SRV_OUT_MA_VOLT a.val 1), wp⟩ ∧ (t.motion.srv[a]).post = (t.motion.srv[a]).lastPost ∧
        t.get (SRV_STAT_OVR_RUN a.val) = 0 ∧ (wp = false → t.is (SRV_STAT_WSAFE a.val) = false) ∧
        t = { s.m with regs := t.regs, motion := { s.m.motion with srv := t.motion.srv } }) ∧
    ((s.m.motion.srv[a]).closed = true ∨ (s.m.motion.srv[a]).curSeq = none →
      Yields (.postDeadline a) s (Mach.watched id s.m)) ∧
    ((s.m.motion.srv[a]).closed = false → (s.m.motion.srv[a]).curSeq.isSome = true →
      (s.m.motion.srv[a]).post.isSome = true →
      Yields (.postDeadline a) s (Mach.watched (fun m => m.setSrv a fun x => { x with closed := true }) s.m)) ∧
    ((s.m.motion.srv[a]).closed = false → (s.m.motion.srv[a]).curSeq.isSome = true → (s.m.motion.srv[a]).post = none →
      Completes (.postDeadline a) s fun t =>
        (t.motion.srv[a]).closed = true ∧ t.get (SRV_STAT_OVR_RUN a.val) = min 3 (s.m.get (SRV_STAT_OVR_RUN a.val) + 1) ∧
        t.is (SRV_STAT_WSAFE a.val) = false ∧
        (t.motion.srv[a]).faulted = ((s.m.motion.srv[a]).faulted || decide (2 ≤ s.m.get (SRV_STAT_OVR_RUN a.val)))))

/-- SRV_TARGET_WRITE, SRV_CTRL_WRITE, SRV_LEAD_WRITE, SRV_RRO_LOAD, PRG_START, PLAN_DONE and PRG_ABORT (R144, R145,
R151–R153, R155–R161). A written target is not confirmed, and drops the flag of the WSLOT slot; a slot that is not
enabled unlocks and its microactuator stands at 0 V; a lead change waits for the apply instant or is refused; a row's
load begins its fetch. A START joins the planning, except while an armed ladder capture keeps the actuator on its
cylinder (DESIGN CHOICE, log entry 146). The end of planning refuses a target out of range, ends a move of no distance,
makes a plan from rest wait in ADMIT, and makes a superposition without headroom wait. An abort takes effect at the next
apply instant. It concludes that exec answers a next state, with the effect of the command itself, under conditions on
the state and the operands alone, for: srvTargetWrite, srvCtrlWrite, srvLeadWrite, srvRroLoad, prgStart, planDone,
prgAbort. -/
def Obligations.ServoWrites : Prop :=
  ∀ (s : State) (a : Actuator),
    (Running (15 + a.val) (20 + a.val) s.m →
      (∀ k w, Completes (.srvTargetWrite a k w) s fun t =>
        t.get (SRV_TARGET_TARGET a.val k.val) = w.toNat ∧ t.bitAt (SRV_STAT_TRK_CONF a.val) k.val = false ∧
        t.bitAt (SRV_STAT_ONTRACK a.val) k.val = false ∧ ((t.motion.srv[a]).slots[k]).settle = 0 ∧
        (k = s.m.wslot a → t.is (SRV_STAT_WSAFE a.val) = false)) ∧
      (∀ w, Completes (.srvCtrlWrite a w) s fun t =>
        t.get (SRV_CTRL_SLOT_EN0 a.val) = w.toNat % 2 ∧ t.get (SRV_CTRL_SLOT_EN1 a.val) = w.toNat / 2 % 2 ∧
        t.get (SRV_CTRL_WSLOT a.val) = w.toNat / 4 % 2 ∧ t.is (SRV_STAT_WSAFE a.val) = false ∧
        (w.toNat % 2 = 0 → t.bitAt (SRV_STAT_LOCK a.val) 0 = false ∧ (t.die.maRef[a])[(0 : Fin 2)] = 0) ∧
        (w.toNat / 2 % 2 = 0 → t.bitAt (SRV_STAT_LOCK a.val) 1 = false ∧ (t.die.maRef[a])[(1 : Fin 2)] = 0)) ∧
      (∀ k, s.m.profileIdle a = true → s.m.slotLocked a k = true →
        Yields (.srvLeadWrite a k) s (s.m.setSrv a fun x => { x with leadNext := some k })) ∧
      (∀ k, s.m.profileIdle a = false ∨ s.m.slotLocked a k = false →
        Yields (.srvLeadWrite a k) s ((s.m.set (SRV_ERR_LEAD a.val) 1).report (32 * (26 + a.val) + 8))) ∧
      ∀ k w, Completes (.srvRroLoad a k w) s fun t =>
        t.bitAt (SRV_STAT_RRO_VALID a.val) k.val = false ∧
        ((t.motion.srv[a]).slots[k]).rroFetch = some (64 * (w.toNat % 2 ^ 30)) ∧ ((t.motion.srv[a]).slots[k]).rro = []) ∧
    (Running 20 29 s.m →
      (s.m.ladderKeeps a (s.m.get (PRG_TGT_TARGET a.val)) = true → Yields (.prgStart a) s s.m) ∧
      (s.m.ladderKeeps a (s.m.get (PRG_TGT_TARGET a.val)) = false →
        Completes (.prgStart a) s fun t =>
          t.is (SRV_STAT_WSAFE a.val) = false ∧
          (t.motion.prg[a]).planning = (((s.m.get (PRG_TGT_TARGET a.val) : Nat) : Int),
            decide (s.m.get (PRG_STAT_STATE a.val) = 3)) :: (s.m.motion.prg[a]).planning ∧
          (s.m.get (PRG_STAT_STATE a.val) ≠ 3 → t.get (PRG_STAT_STATE a.val) = 1 ∧ t.get (QDR_KACC_EST a.val) = 0) ∧
          (s.m.get (PRG_STAT_STATE a.val) = 3 → t.get (PRG_STAT_STATE a.val) = 3)) ∧
      ((s.m.motion.prg[a]).planning = [] → Yields (.planDone a) s s.m) ∧
      (∀ tgt running rest, (s.m.motion.prg[a]).planning = (tgt, running) :: rest →
        ((s.m.get (PRG_MAXTRK_MAXTRK a.val) : Int) < tgt / 4096 →
          Completes (.planDone a) s fun t =>
            t.get (PRG_STAT_ERR a.val) = 1 ∧
            (rest ≠ [] ∨ s.m.get (PRG_STAT_STATE a.val) = 3 → (t.motion.prg[a]).planning = rest ∧
              t.get (PRG_STAT_STATE a.val) = s.m.get (PRG_STAT_STATE a.val)) ∧
            (rest = [] → s.m.get (PRG_STAT_STATE a.val) ≠ 3 → (s.m.motion.prg[a]).pending = none →
              (t.motion.prg[a]).planning = [] ∧ t.get (PRG_STAT_STATE a.val) = (s.m.motion.prg[a]).before % 8)) ∧
        (tgt / 4096 ≤ (s.m.get (PRG_MAXTRK_MAXTRK a.val) : Int) →
          running = false ∨ s.m.get (PRG_STAT_STATE a.val) ≠ 3 →
          (tgt = (s.m.get (PRG_REFP_REF a.val) : Int) →
            Completes (.planDone a) s fun t =>
              t.get (PRG_STAT_STATE a.val) = 4 ∧ t.get (PRG_STAT_ERR a.val) = 0 ∧ (t.motion.prg[a]).planning = []) ∧
          (∀ plan, tgt ≠ (s.m.get (PRG_REFP_REF a.val) : Int) →
            planMove (s.m.get (PRG_REFP_REF a.val) : Nat) (tgt - (s.m.get (PRG_REFP_REF a.val) : Nat)) (s.m.planLimits a) =
              some plan →
            Completes (.planDone a) s fun t =>
              t.get (PRG_STAT_STATE a.val) = 2 ∧ (t.motion.prg[a]).waiting = some plan ∧ (t.motion.prg[a]).target = tgt ∧
              (t.motion.prg[a]).planning = [] ∧ (t.motion.prg[a]).pending = none)) ∧
        (tgt / 4096 ≤ (s.m.get (PRG_MAXTRK_MAXTRK a.val) : Int) → running = true → s.m.get (PRG_STAT_STATE a.val) = 3 →
          tgt ≠ (s.m.motion.prg[a]).target → s.m.headroom a = none →
          Completes (.planDone a) s fun t =>
            (t.motion.prg[a]).pending = some tgt ∧ t.get (PRG_STAT_PENDING a.val) = 1 ∧
            (t.motion.prg[a]).parts = (s.m.motion.prg[a]).parts)) ∧
      Yields (.prgAbort a) s
        (if 1 ≤ s.m.get (PRG_STAT_STATE a.val) ∧ s.m.get (PRG_STAT_STATE a.val) ≤ 3 then
          s.m.setPrg a fun p => { p with aborting := true } else s.m))

/-- FAULT_END, PREAMP_TEMPERATURE_READ and PA_FAULT_ASSERT (R152, R177, R179, R180, R182). A fault ends when all its
bits are 0 and the heads are parked; RO is then set, and beyond three faults in 24 hours the actuator is depopulated.
TDG advances when the temperature has moved 3 °C. A preamplifier fault latches, is reported and drops the flag.
QUADRILLE_ADMIT, QDR_BANK_WRITE, QDR_COEF_WRITE, QUAL and DEPOP_WRITE (R167, R168, R170, R179–R183). The oldest waiting
channel of an actuator in service is admitted when its estimate fits the budget or no other channel is admitted. While
EN is 0 every output is 0. A coefficient of the live bank is not written. QUAL tests the tables that are not fresh, and
depopulates a head whose table lies outside its range; it ends the requalification of a sound actuator, and one that has
lost every head is depopulated. Only a parked actuator is depopulated by DEPOP; a reinstated one has no fresh table and
must requalify. It concludes that exec answers a next state, with the effect of the command itself, under conditions on
the state and the operands alone, for: quadrilleAdmit, faultEnd, qdrBankWrite, qdrCoefWrite, qual, depopWrite,
paFaultAssert, preampTemperatureRead. -/
def Obligations.QuadrilleAndActuators : Prop :=
  (∀ (s : State) (a : Actuator),
    ((s.m.motion.srv[a]).faulted = true → s.m.get ⟨REG_SRV_FAULT a.val, 0, 4⟩ = 0 → s.m.is (QDR_ACT_PARKED a.val) = true →
      Completes (.faultEnd a) s fun t =>
        (t.motion.srv[a]).faulted = false ∧ t.is (QDR_ACT_RO a.val) = true ∧
        (t.is (QDR_ACT_DEPOP a.val) = true ↔ s.m.is (QDR_ACT_DEPOP a.val) = true ∨ 3 < s.m.recentFaults a)) ∧
    ((s.m.motion.srv[a]).faulted = false ∨ s.m.get ⟨REG_SRV_FAULT a.val, 0, 4⟩ ≠ 0 ∨ s.m.is (QDR_ACT_PARKED a.val) = false →
      Yields (.faultEnd a) s (Mach.watched id s.m)) ∧
    (∀ temp, s.m.motion.tdgTemp[a] = none →
      Completes (.preampTemperatureRead a temp) s fun t =>
        t.motion.tdgTemp[a] = some temp ∧ t.get (QDR_ACT_TDG a.val) = s.m.get (QDR_ACT_TDG a.val)) ∧
    (∀ temp old, s.m.motion.tdgTemp[a] = some old → (temp - old).natAbs < 3 →
      Completes (.preampTemperatureRead a temp) s fun t => t.motion = s.m.motion ∧
        t.get (QDR_ACT_TDG a.val) = s.m.get (QDR_ACT_TDG a.val)) ∧
    (∀ temp old, s.m.motion.tdgTemp[a] = some old → 3 ≤ (temp - old).natAbs →
      Completes (.preampTemperatureRead a temp) s fun t => t.motion.tdgTemp[a] = some temp ∧
        t.get (QDR_ACT_TDG a.val) = (s.m.get (QDR_ACT_TDG a.val) + 1) % 2 ^ (QDR_ACT_TDG a.val).w) ∧
    (Running (15 + a.val) (24 + a.val) s.m →
      Completes (.paFaultAssert a) s fun t =>
        t.is (HSQ_FAULT_LATCH a.val) = true ∧ t.is (HSQ_FAULT_PIN a.val) = true ∧ t.is (SRV_STAT_WSAFE a.val) = false ∧
        t.reports = s.m.reports ++ [32 * (26 + a.val) + 10] ∧ t = { s.m with regs := t.regs, reports := t.reports })) ∧
  (∀ s : State, Running 20 30 s.m →
    (s.m.oldestAdmit = none → Yields .quadrilleAdmit s s.m) ∧
    (∀ a plan, s.m.oldestAdmit = some a → (s.m.motion.prg[a]).waiting = some plan → s.m.outOfService a = false →
      ((∀ b, s.m.admitted b = false) ∨ s.m.get (QDR_KACC_EST a.val) + s.m.admittedTotal ≤ s.m.get QDR_TORQ_BUDGET) →
      Completes .quadrilleAdmit s fun t =>
        t.get (PRG_STAT_STATE a.val) = 3 ∧ (t.motion.prg[a]).admitted = true ∧ (t.motion.prg[a]).parts = [plan] ∧
        (t.motion.prg[a]).waiting = none ∧ (t.motion.prg[a]).notBefore = s.m.clock + 256 * 14) ∧
    (∀ a plan b, s.m.oldestAdmit = some a → (s.m.motion.prg[a]).waiting = some plan → s.m.admitted b = true →
      s.m.get QDR_TORQ_BUDGET < s.m.get (QDR_KACC_EST a.val) + s.m.admittedTotal → Yields .quadrilleAdmit s s.m) ∧
    (∀ a, s.m.oldestAdmit = some a → s.m.outOfService a = true → Yields .quadrilleAdmit s s.m) ∧
    (∀ w, Completes (.qdrBankWrite w) s fun t =>
      t.get QDR_CTRL_EN = w.toNat % 2 ∧ t.get QDR_CTRL_BANK = w.toNat / 2 % 2 ∧
      t.get QDR_CTRL_LIM = w.toNat / 65536 % 32768 ∧
      (w.toNat % 2 = 0 → ∀ a : Actuator, t.get (QDR_OUT_OUT a.val) = 0 ∧
        t.motion.qdr.lines[a] = Vector.replicate 4 [])) ∧
    (∀ w : Word, getBits w 16 8 / 128 = s.m.get QDR_CTRL_BANK →
      Completes (.qdrCoefWrite w) s fun t => t.is QDR_ERR_COEF_IGN = true ∧ t.motion = s.m.motion) ∧
    (∀ w : Word, getBits w 16 8 / 128 ≠ s.m.get QDR_CTRL_BANK →
      Completes (.qdrCoefWrite w) s fun t =>
        getPair 0 (getBits w 16 8) t.motion.qdr.coef = w.toNat % 65536 ∧
        ∀ k, k ≠ getBits w 16 8 → getPair 0 k t.motion.qdr.coef = getPair 0 k s.m.motion.qdr.coef) ∧
    (∀ (a : Actuator) (bad : BitVec 24),
      (∀ h k, h < 6 → k < 4 → headExists a h = true → s.m.bitAt (QDR_ACT_HEAD_DEPOP a.val) h = false →
        s.m.tableFresh a h k = false → bad.getLsbD (4 * h + k) = true →
        Completes (.qual a bad) s fun t => t.bitAt (QDR_ACT_HEAD_DEPOP a.val) h = true) ∧
      ((s.m.testTables a bad).headsGone a = true →
        (s.m.is (QDR_ACT_PARKED a.val) = true → s.m.rst.coresUp = true → Completes (.qual a bad) s fun t => t.is (QDR_ACT_DEPOP a.val) = true) ∧
        (s.m.is (QDR_ACT_PARKED a.val) = false → Completes (.qual a bad) s fun t => t.motion.depopDue[a] = true)) ∧
      ((s.m.testTables a bad).headsGone a = false →
        ((s.m.motion.srv[a]).faulted = true ∨ s.m.is (QDR_ACT_DEPOP a.val) = true ∨
            s.m.slotLocked a (s.m.leadSlot a) = false ∨
            (∃ k, s.m.slotEn a k = true ∧ s.m.bitAt (SRV_STAT_RRO_VALID a.val) k.val = false) →
          Completes (.qual a bad) s fun t =>
            t.is QDR_ERR_QUAL = true ∧ t.is (QDR_ACT_RO a.val) = s.m.is (QDR_ACT_RO a.val)) ∧
        ((s.m.motion.srv[a]).faulted = false → s.m.is (QDR_ACT_DEPOP a.val) = false →
          s.m.slotLocked a (s.m.leadSlot a) = true →
          (∀ k, s.m.slotEn a k = true → s.m.bitAt (SRV_STAT_RRO_VALID a.val) k.val = true) →
          Completes (.qual a bad) s fun t => t.is (QDR_ACT_RO a.val) = false ∧ t.get (QDR_ACT_STATE a.val) = 0))) ∧
    (∀ a : Actuator, s.m.is (QDR_ACT_PARKED a.val) = true →
      Completes (.depopWrite a true) s fun t =>
        t.is (QDR_ACT_DEPOP a.val) = true ∧ t.motion.depop[a] = true ∧ t.get (QDR_ACT_STATE a.val) = 3) ∧
    (∀ a : Actuator, s.m.is (QDR_ACT_PARKED a.val) = false →
      Completes (.depopWrite a true) s fun t => t.is QDR_ERR_DEPOP = true ∧ t.motion = s.m.motion) ∧
    (∀ a : Actuator, Completes (.depopWrite a false) s fun t =>
      t.is (QDR_ACT_DEPOP a.val) = false ∧ t.motion.depop[a] = false ∧ t.motion.tables[a] = [] ∧
      t.is (QDR_ACT_RO a.val) = true))

/-- SELECT, WFRAME, RFRAME, GATEARM, FRAMEDONE and HEAD_SELECT_SETTLE (R6, R172–R174). A select of a depopulated head,
or of the lead slot of loaded heads, is refused; one of a head that the other slot holds waits. A frame starts when the
link is open for it, and is held while the link is busy, a gate is raised or EN is 0. A gate moment passes to the frame
timer. The end of a read frame gives its data; the end of a select makes the slot invalid until its settle time has
passed. It concludes that exec answers a next state, with the effect of the command itself, under conditions on the
state and the operands alone, for: select, headSelectSettle, wframe, rframe, framedone, gatearm. -/
def Obligations.HeadSequencer : Prop :=
  ∀ (s : State) (a : Actuator), Running (15 + a.val) (24 + a.val) s.m →
    (∀ inp u next, AtWord s.m (seqHS a) inp u next → u.alu = 0 →
      (u.xop = 18 → s.m.bitAt (QDR_ACT_HEAD_DEPOP a.val) (getBits (s.m.gp (seqHS a) u.xreg) 24 3) = true →
        Completes (.select a inp) s fun t =>
          t.is (HSQ_ERR_DEPOP_SEL a.val) = true ∧ t.motion = s.m.motion ∧ t.get (SEQ_STAT_ADDR (seqHS a).val) = next) ∧
      (u.xop = 18 → s.m.bitAt (QDR_ACT_HEAD_DEPOP a.val) (getBits (s.m.gp (seqHS a) u.xreg) 24 3) = false →
        s.m.leadSlot a = Fin.ofNat 2 (getBits (s.m.gp (seqHS a) u.xreg) 28 1) → s.m.is (QDR_ACT_PARKED a.val) = false →
        Completes (.select a inp) s fun t => t.is (HSQ_ERR_LEAD_SEL a.val) = true ∧ t.motion = s.m.motion) ∧
      (∀ h k, u.xop = 18 → h = getBits (s.m.gp (seqHS a) u.xreg) 24 3 →
        k = Fin.ofNat 2 (getBits (s.m.gp (seqHS a) u.xreg) 28 1) → s.m.bitAt (QDR_ACT_HEAD_DEPOP a.val) h = false →
        (s.m.leadSlot a ≠ k ∨ s.m.is (QDR_ACT_PARKED a.val) = true) →
        (s.m.holdsHead a (otherSlot k) h = true →
          Completes (.select a inp) s fun t =>
            (t.motion.hsq[a]).blocked = (s.m.motion.hsq[a]).blocked ++ [selectFrame (s.m.gp (seqHS a) u.xreg)] ∧
            (t.motion.hsq[a]).frame = (s.m.motion.hsq[a]).frame ∧ t.get (SEQ_STAT_ADDR (seqHS a).val) = next) ∧
        (s.m.holdsHead a (otherSlot k) h = false → (s.m.motion.hsq[a]).queued = [] →
          s.m.linkOpen a (selectFrame (s.m.gp (seqHS a) u.xreg)) = true →
          Completes (.select a inp) s fun t =>
            (t.motion.hsq[a]).frame = some (selectFrame (s.m.gp (seqHS a) u.xreg)) ∧
            t.get (SEQ_STAT_ADDR (seqHS a).val) = next)) ∧
      (∀ f, f = .write ((s.m.gp (seqHS a) u.xreg).extractLsb' 0 22) → u.xop = 16 → s.m.linkOpen a f = true →
        (s.m.motion.hsq[a]).queued = [] →
        Completes (.wframe a inp) s fun t =>
          (t.motion.hsq[a]).frame = some f ∧ (t.motion.hsq[a]).queued = [] ∧ t.get (SEQ_STAT_ADDR (seqHS a).val) = next) ∧
      (∀ f, f = .read u.xreg ((s.m.gp (seqHS a) u.xreg).extractLsb' 0 22) → u.xop = 17 →
        (s.m.motion.hsq[a]).frame.isSome = true ∨ s.m.is (HSQ_CTRL_EN a.val) = false ∨ s.m.gateUp a = true →
        Completes (.rframe a inp) s fun t =>
          (t.motion.hsq[a]).queued = (s.m.motion.hsq[a]).queued ++ [f] ∧
          (t.motion.hsq[a]).frame = (s.m.motion.hsq[a]).frame ∧ t.get (SEQ_STAT_ADDR (seqHS a).val) = next) ∧
      (∀ g, u.xop = 19 → (s.m.motion.hsq[a]).due = some g →
        Completes (.gatearm a inp) s fun t =>
          (t.motion.hsq[a]).moments = (s.m.motion.hsq[a]).moments ++ [g] ∧ (t.motion.hsq[a]).due = none ∧
          t.get (SEQ_STAT_ADDR (seqHS a).val) = next)) ∧
    (∀ data, (s.m.motion.hsq[a]).frame = none → Yields (.framedone a data) s s.m) ∧
    (∀ data r bits, (s.m.motion.hsq[a]).frame = some (.read r bits) → r ≠ 0 →
      Completes (.framedone a data) s fun t => (t.gp (seqHS a) r).extractLsb' 0 16 = data) ∧
    (∀ data k h bits, (s.m.motion.hsq[a]).frame = some (.select k h bits) →
      Completes (.framedone a data) s fun t =>
        t.is (HSQ_SEL_VALID a.val k.val) = false ∧ (t.motion.hsq[a]).settling[k] = some h ∧
        t.bitAt (SRV_STAT_LOCK a.val) k.val = false ∧ t.bitAt (SRV_STAT_ONTRACK a.val) k.val = false) ∧
    (∀ k, (s.m.motion.hsq[a]).settling[k] = none → Yields (.headSelectSettle a k) s s.m) ∧
    ∀ k h, (s.m.motion.hsq[a]).settling[k] = some h →
      Completes (.headSelectSettle a k) s fun t =>
        t.is (HSQ_SEL_VALID a.val k.val) = true ∧ t.get (HSQ_SEL_HEAD a.val k.val) = h % 8 ∧
        (t.motion.hsq[a]).settling[k] = none

/-- LISTEN_END, STOPBRAKE_END, ALIGN_END, RAMP_TIMEOUT, SPIN_PHASE_OVERCURRENT, OBSERVER_UPDATE, ELECTRICAL_PERIOD_END,
CATCH_TIMEOUT and INHIBIT_RELEASE (R189–R201, R203, R206). The steps of Promenade lead where Table 8-2 says, with their
bridge action below L2; a failed attempt counts and the third faults the spindle. An update takes over the junction
temperature and the limits of the microactuators, moves the target toward the curve's speed, never beyond it, hands a
ramp that may be handed over with the Ke check off to RUN at the measured speed, and after a declared loss floats the
phases and enters CATCH. A loss in RUN raises the inhibit, or fails the Promenade attempt that is still open; a catch
that is too slow fails and one of 32 good periods resumes RUN. It concludes that exec answers a next state, with the
effect of the command itself, under conditions on the state and the operands alone, for: listenEnd, stopbrakeEnd,
alignEnd, rampTimeout, observerUpdate, electricalPeriodEnd, catchTimeout, inhibitRelease, spinPhaseOvercurrent. -/
def Obligations.SpindleStart : Prop :=
  ∀ s : State, Running 28 32 s.m →
    (s.m.spnState ≠ 1 → Yields .listenEnd s s.m) ∧
    (s.m.spnState = 1 → Completes .listenEnd s fun t =>
      t.is SPN_STAT_INHIBIT = true ∧ t.get SPN_TARGET_TARGET = 0 ∧
      t.spnState = (if 2 ≤ s.m.spn.listenConf ∧ s.m.spn.listenAll = true ∧ s.m.handSpeed ≤ s.m.get SPN_SPEED_SPEED then 6
        else if 50 ≤ s.m.spn.emfPeak then 2 else 3)) ∧
    (s.m.spnState = 2 → Completes .stopbrakeEnd s fun t =>
      t.spnState = 3 ∧ t.die.bridge = if 3 ≤ s.m.die.level then .float else .drive) ∧
    (s.m.spnState = 3 → Completes .alignEnd s fun t =>
      t.spnState = 4 ∧ t.spn.rampAcc = 0 ∧ t.get SPN_STAT_CONF = 0 ∧ t.is SPN_SPEED_VALID = false) ∧
    (s.m.spnState = 4 → s.m.rampAtHand = true → Completes .rampTimeout s fun t =>
      t.get SPN_STAT_ATTEMPT = min 3 (s.m.get SPN_STAT_ATTEMPT + 1) ∧
      t.spnState = (if 2 ≤ s.m.get SPN_STAT_ATTEMPT then 8 else 2) ∧
      (2 ≤ s.m.get SPN_STAT_ATTEMPT → t.is SPN_FAULT_SPIN_FAIL = true)) ∧
    (1 ≤ s.m.spnState → s.m.spnState ≤ 4 → Completes .spinPhaseOvercurrent s fun t =>
      t.get SPN_STAT_ATTEMPT = min 3 (s.m.get SPN_STAT_ATTEMPT + 1) ∧
      t.spnState = (if 2 ≤ s.m.get SPN_STAT_ATTEMPT then 8 else 2)) ∧
    (∀ x, Completes (.observerUpdate x) s fun t =>
      t.die.junction = x.junction.toNat ∧ t.is VCM_TEMP_WARN = decide (135 ≤ x.junction.toNat) ∧
      ∀ a : Actuator,
        t.is (VCM_MA_LIM0 a.val) = (s.m.die.maRef[a][(0 : Fin 2)] != 0 && decide (1000 ≤ x.ma[a][(0 : Fin 2)].natAbs)) ∧
        t.is (VCM_MA_LIM1 a.val) = (s.m.die.maRef[a][(1 : Fin 2)] != 0 && decide (1000 ≤ x.ma[a][(1 : Fin 2)].natAbs))) ∧
    (∀ x, s.m.spnState ≠ 4 → s.m.spnState ≠ 5 → Completes (.observerUpdate x) s fun t => t.spnState = s.m.spnState) ∧
    (∀ x, s.m.spnState = 5 → s.m.spn.lossDue = true → Completes (.observerUpdate x) s fun t =>
      t.spnState = 6 ∧ t.die.bridge = .float ∧ t.is SPN_STAT_INHIBIT = true ∧ t.get SPN_STAT_CONF = 0) ∧
    (∀ x, s.m.spnState = 5 → s.m.spn.lossDue = false → s.m.spn.goal < 2 ^ 18 → Completes (.observerUpdate x) s fun t =>
      t.spnState = 5 ∧
      (s.m.get SPN_TARGET_TARGET ≤ s.m.spn.goal →
        s.m.get SPN_TARGET_TARGET ≤ t.get SPN_TARGET_TARGET ∧ t.get SPN_TARGET_TARGET ≤ s.m.spn.goal) ∧
      (s.m.spn.goal ≤ s.m.get SPN_TARGET_TARGET →
        s.m.spn.goal ≤ t.get SPN_TARGET_TARGET ∧ t.get SPN_TARGET_TARGET ≤ s.m.get SPN_TARGET_TARGET)) ∧
    (∀ x, s.m.spnState = 4 → s.m.rampAtHand = true → 32 ≤ s.m.get SPN_STAT_CONF → s.m.is SPN_CTRL_KE_CHECK = false →
      Completes (.observerUpdate x) s fun t =>
        t.spnState = 5 ∧ t.get SPN_TARGET_TARGET = s.m.get SPN_SPEED_SPEED ∧ t.spn.attempt = true ∧
        t.die.bridge = if 3 ≤ s.m.die.level then .float else .drive) ∧
    (s.m.periodMeas = none → Yields .electricalPeriodEnd s s.m) ∧
    (∀ p, s.m.periodMeas = some p → s.m.spnState = 5 → s.m.spn.lossDue = false → s.m.loadLost p = true ∨ 16 < p.back →
      (s.m.spn.attempt = false → Completes .electricalPeriodEnd s fun t =>
        t.spnState = 5 ∧ t.is SPN_STAT_INHIBIT = true ∧ t.spn.lossDue = true ∧
        ∀ a : Actuator, t.is (SRV_STAT_WSAFE a.val) = false) ∧
      (s.m.spn.attempt = true → Completes .electricalPeriodEnd s fun t =>
        t.get SPN_STAT_ATTEMPT = min 3 (s.m.get SPN_STAT_ATTEMPT + 1) ∧
        t.spnState = (if 2 ≤ s.m.get SPN_STAT_ATTEMPT then 8 else 2))) ∧
    (∀ p, s.m.periodMeas = some p → s.m.spnState = 6 → p.speed < s.m.handSpeed →
      Completes .electricalPeriodEnd s fun t =>
        t.spnState = 2 ∧ t.get SPN_STAT_ATTEMPT = 0 ∧ t.get SPN_SPEED_SPEED = p.speed ∧
        t.die.bridge = if 3 ≤ s.m.die.level then .float else .short) ∧
    (∀ p, s.m.periodMeas = some p → s.m.spnState = 6 → s.m.handSpeed ≤ p.speed →
      s.m.periodTests p = (true, true, true, true) → 31 ≤ s.m.get SPN_STAT_CONF →
      Completes .electricalPeriodEnd s fun t =>
        t.spnState = 5 ∧ t.get SPN_TARGET_TARGET = p.speed ∧ t.get SPN_OBS_PASS = 15 ∧ t.spn.rampIn = some 0) ∧
    (s.m.spnState ≠ 6 → Yields .catchTimeout s s.m) ∧
    (s.m.spnState = 6 → Completes .catchTimeout s fun t =>
      t.spnState = 2 ∧ t.get SPN_STAT_ATTEMPT = 0 ∧ t.die.bridge = if 3 ≤ s.m.die.level then .float else .short) ∧
    (s.m.inhibitCause = true → Yields .inhibitRelease s s.m) ∧
    (s.m.inhibitCause = false → max 1 (s.m.get SPN_INH_REVS) * s.m.polePairs ≤ s.m.spn.cleanPeriods →
      Completes .inhibitRelease s fun t => t.is SPN_STAT_INHIBIT = false ∧ t.spnState = s.m.spnState)

/-- SPN_DEMAND_WRITE, SPN_CTRL_WRITE, STOPPING_BEGIN, STOPPED_DETECT, SPN_BRK_FAULT_CLEAR and SPN_BRK_ACK (R191,
R202–R204, R207). A demand at or above L_ON starts a stopped spindle and recalls a stopping one; in RUN a demand below
L_OFF orders a stop, which waits for the acknowledgement of a faulty chopper and for every actuator to be parked; any
other demand retargets. It concludes that exec answers a next state, with the effect of the command itself, under
conditions on the state and the operands alone, for: spnDemandWrite, spnCtrlWrite, stoppingBegin, stoppedDetect,
spnBrkFaultClear, spnBrkAck. -/
def Obligations.SpindleDemand : Prop :=
  ∀ s : State, Running 28 32 s.m →
    (∀ level, Completes (.spnDemandWrite level) s fun t => t.get SPN_DEMAND_LEVEL = level.toNat) ∧
    (∀ level, s.m.spnState = 0 ∨ s.m.spnState = 7 → s.m.is SPN_CTRL_EN = true → s.m.levelOn ≤ level.toNat →
      Completes (.spnDemandWrite level) s fun t =>
        t.spnState = 1 ∧ t.die.bridge = .float ∧ t.is SPN_STAT_INHIBIT = true ∧ t.is SPN_SPEED_VALID = false) ∧
    (∀ level, s.m.spnState = 0 → level.toNat < s.m.levelOn →
      Completes (.spnDemandWrite level) s fun t => t.spnState = 0 ∧ t.die = s.m.die ∧ t.spn = s.m.spn) ∧
    (∀ level, s.m.spnState = 5 → level.toNat < s.m.levelOff → s.m.stopRefused = true →
      Completes (.spnDemandWrite level) s fun t =>
        t.spnState = 5 ∧ t.is SPN_STAT_WAIT_ACK = true ∧ t.spn = { s.m.spn with stopDue := false }) ∧
    (∀ level, s.m.spnState = 5 → level.toNat < s.m.levelOff → s.m.stopRefused = false →
      Completes (.spnDemandWrite level) s fun t =>
        t.spnState = 5 ∧ t.spn.stopDue = true ∧ t.is SPN_STAT_WAIT_ACK = false ∧
        t.is SPN_STAT_WAIT_PARK = !s.m.allParked) ∧
    (∀ level, s.m.spnState = 5 → s.m.levelOff ≤ level.toNat → s.m.is SPN_CTRL_EN = true →
      Completes (.spnDemandWrite level) s fun t =>
        t.spnState = 5 ∧ t.spn.stopDue = false ∧ t.spn.goal = Mach.curveSpeed s.m.curvePoints level.toNat) ∧
    (∀ w, Completes (.spnCtrlWrite w) s fun t =>
      t.get SPN_CTRL_EN = w.toNat % 2 ∧ t.get SPN_CTRL_BRAKE = w.toNat / 2 % 4 ∧ t.get SPN_CTRL_KE_CHECK = w.toNat / 8 % 2 ∧
      (s.m.spnState = 0 →
        t.spnState = if w.toNat % 2 = 1 ∧ s.m.levelOn ≤ s.m.get SPN_DEMAND_LEVEL then 1 else 0)) ∧
    (s.m.spnState = 5 → s.m.spn.stopDue = true → s.m.allParked = true → s.m.stopRefused = false →
      Completes .stoppingBegin s fun t =>
        t.spnState = 7 ∧ t.get SPN_TARGET_TARGET = 0 ∧ t.spn.stopDue = false ∧
        t.die.bridge = (if 3 ≤ s.m.die.level then .float
          else if s.m.is SPN_BRK_FAULT = true ∨ s.m.get SPN_CTRL_BRAKE = 1 then .short
          else if s.m.get SPN_CTRL_BRAKE = 2 then .float else .regen)) ∧
    (s.m.spnState ≠ 5 ∨ s.m.spn.stopDue = false ∨ s.m.allParked = false ∨ s.m.stopRefused = true → Yields .stoppingBegin s s.m) ∧
    (s.m.spnState ≠ 7 → Yields .stoppedDetect s s.m) ∧
    (s.m.spnState = 7 → Completes .stoppedDetect s fun t => t.spnState = 0 ∧ t.die.bridge = .float) ∧
    (Completes .spnBrkFaultClear s fun t =>
      t.is SPN_BRK_FAULT = false ∧ t.get SPN_BRK_CAUSE = 0 ∧ t.is SPN_BRK_ACK = false) ∧
    Completes .spnBrkAck s fun t => t.is SPN_BRK_ACK = true ∧ t.get SPN_BRK_CAUSE = s.m.get SPN_BRK_CAUSE

/-- STATUS_FRAME, STATUS_FRAME_TIMEOUT, DRV_OC, DRV_OPEN, DRV_MA_LIMIT, DRV_OT and POWER_DIE_WARN (R149, R184, R190).
Each driver cause latches its bit, faults the actuator with cause DRV and retracts it; a second overcurrent since the
last load turns the bridge off; overtemperature takes all four actuators and floats the spindle. CHOPPER_ON,
CHOPPER_OFF, CHOPPER_SELF_TEST, CHOPPER_OPEN_CHECK, CHOPPER_SHORT and the LADDER_* rows (R205–R207, Table 8-5). The
chopper turns on at 13.8 V unless it is shorted; each level of the overvoltage ladder takes its action and those below
it; leaving L2 from RUN enters CATCH, a stop continues by short brake, and a Promenade step resumes its bridge action
(DESIGN CHOICE, log entry 150); leaving L3 retracts what is not parked. It concludes that exec answers a next state,
with the effect of the command itself, under conditions on the state and the operands alone, for: statusFrame,
statusFrameTimeout, drvOc, drvOpen, drvMaLimit, drvOt, powerDieWarn, chopperOn, chopperOff, chopperSelfTest,
chopperOpenCheck, chopperShort, ladderL1Enter, ladderL2Enter, ladderL2Leave, ladderL3Enter, ladderL3Leave,
ladderL1Leave. -/
def Obligations.DriverFaultsAndOvervoltage : Prop :=
  (∀ s : State,
    (s.m.clockGood 28 = true →
      Yields .statusFrame s { s.m with die := { s.m.die with lastFrame := s.m.clock } }) ∧
    (Completes .statusFrameTimeout s fun t =>
      t.die.bridge = .float ∧ ∀ a : Actuator, s.m.die.parked[a] = false → s.m.die.retract[a] = .none →
        s.m.die.bridgeOff[a] = false → s.m.die.level ≠ 4 → t.die.retract[a] = .velocity) ∧
    (∀ a : Actuator, s.m.die.ocOnce[a] = false → Completes (.drvOc a) s fun t =>
      t.is (VCM_FAULT_OC a.val) = true ∧ (t.motion.srv[a]).faulted = true ∧ t.die.ocOnce[a] = true ∧
      t.is ⟨REG_SRV_FAULT a.val, 3, 1⟩ = true) ∧
    (∀ a : Actuator, s.m.die.ocOnce[a] = true → Completes (.drvOc a) s fun t =>
      t.is (VCM_FAULT_OC a.val) = true ∧ (t.motion.srv[a]).faulted = true ∧ t.die.bridgeOff[a] = true ∧
      t.die.vcmRef[a] = 0 ∧ t.die.retract[a] = .none ∧ t.get (VCM_STAT_MODE a.val) = 0) ∧
    (∀ a : Actuator, s.m.die.parked[a] = false → s.m.die.retract[a] = .none → s.m.die.bridgeOff[a] = false →
      s.m.die.level ≠ 4 → Completes (.drvOpen a) s fun t =>
        t.is (VCM_FAULT_OPEN a.val) = true ∧ (t.motion.srv[a]).faulted = true ∧ t.die.retract[a] = .velocity ∧
        t.is (SRV_STAT_WSAFE a.val) = (s.m.is (SRV_STAT_WSAFE a.val) && (s.m.motion.srv[a]).faulted)) ∧
    (∀ (a : Actuator) (k : HeadSlot), Completes (.drvMaLimit a k) s fun t =>
      t.is (if k = 0 then VCM_FAULT_MA0 a.val else VCM_FAULT_MA1 a.val) = true ∧
      (t.motion.srv[a]).faulted = true ∧ t.die.maRef[a][k] = 0) ∧
    (Completes .drvOt s fun t =>
      t.die.ot = true ∧ t.get VCM_TEMP_TEMP = 150 ∧ t.die.bridge = .float ∧
      ∀ a : Actuator, t.is (VCM_FAULT_OT a.val) = true ∧ (t.motion.srv[a]).faulted = true) ∧
    Completes .powerDieWarn s fun t => t.get VCM_TEMP_TEMP = 135 ∧ t.is VCM_TEMP_WARN = true ∧
      t.die = { s.m.die with junction := 135 } ∧ t.reports = s.m.reports ++ [32 * 30 + 9]) ∧
  (∀ s : State,
    (s.m.chopperMay = true → Completes .chopperOn s fun t =>
      t.is SPN_BRK_ON = true ∧ t.die.level = if s.m.die.level = 0 then 1 else s.m.die.level) ∧
    (s.m.chopperMay = false → Completes .chopperOn s fun t => t.is SPN_BRK_ON = s.m.is SPN_BRK_ON) ∧
    (Completes .chopperOff s fun t =>
      t.is SPN_BRK_ON = false ∧ t.die.level = if s.m.die.level = 1 then 0 else s.m.die.level) ∧
    (s.m.spn.selfTest = true → s.m.chopperMay = true → Completes .chopperSelfTest s fun t =>
      t.is SPN_BRK_ON = true ∧ t.spn.selfTest = false ∧ t.die.pulseEnd = some (s.m.clock + 224000)) ∧
    (∀ ma, s.m.is SPN_BRK_ON = true → 4 * ma * s.m.get SPN_BRK_RBRK < 138000 → s.m.is SPN_BRK_FAULT = false →
      Completes (.chopperOpenCheck ma) s fun t => t.is SPN_BRK_FAULT = true ∧ t.get SPN_BRK_CAUSE = 1) ∧
    (∀ ma, s.m.is SPN_BRK_ON = false ∨ 138000 ≤ 4 * ma * s.m.get SPN_BRK_RBRK →
      Completes (.chopperOpenCheck ma) s fun t => t.is SPN_BRK_FAULT = s.m.is SPN_BRK_FAULT ∧ t.die = s.m.die) ∧
    (s.m.is SPN_BRK_ON = true → Completes .chopperShort s fun t =>
      t.is SPN_BRK_FAULT = true ∧ t.die.shorted = true ∧ t.is SPN_BRK_ON = false ∧ t.chopperMay = false ∧
      (s.m.is SPN_BRK_FAULT = false → t.get SPN_BRK_CAUSE = 2)) ∧
    (s.m.is SPN_BRK_ON = false → Yields .chopperShort s (Mach.watched id s.m)) ∧
    (s.m.die.level < 2 → Completes .ladderL1Enter s fun t =>
      t.die.level = 2 ∧ t.get SPN_RAIL_LEVEL = 2 ∧ t.is SPN_BRK_FAULT = true ∧
      (s.m.is SPN_BRK_FAULT = false → t.get SPN_BRK_CAUSE = 3) ∧
      (s.m.spnState = 7 → s.m.die.bridge = .regen → t.die.bridge = .short)) ∧
    (Yields .ladderL1Leave s (if s.m.die.level = 2 then s.m.setLevel 1 560 else s.m)) ∧
    (s.m.die.level < 3 → Completes .ladderL2Enter s fun t =>
      t.die.level = 3 ∧ t.die.bridge = .float ∧ t.is SPN_STAT_INHIBIT = true ∧ t.is SPN_BRK_FAULT = true ∧
      ∀ a : Actuator, t.is (SRV_STAT_WSAFE a.val) = false) ∧
    (s.m.die.level = 3 → Completes .ladderL2Leave s fun t =>
      t.die.level = 2 ∧ (s.m.spnState = 5 → t.spnState = 6 ∧ t.is SPN_STAT_INHIBIT = true) ∧
      (s.m.spnState = 3 ∨ s.m.spnState = 4 → t.die.bridge = .drive) ∧
      (s.m.spnState = 2 ∨ s.m.spnState = 7 → t.die.bridge = .short)) ∧
    (s.m.die.level ≠ 3 → Yields .ladderL2Leave s s.m) ∧
    (s.m.die.level < 4 → Completes .ladderL3Enter s fun t =>
      t.die.level = 4 ∧ t.die.bridge = .float ∧ t.die.servo = Vector.replicate 4 false ∧
      t.die.vcmRef = Vector.replicate 4 0 ∧ t.die.maRef = Vector.replicate 4 (Vector.replicate 2 0) ∧
      ∀ a : Actuator, t.get (VCM_STAT_MODE a.val) = 0) ∧
    (s.m.die.level = 4 → Completes .ladderL3Leave s fun t =>
      t.die.level = 3 ∧ ∀ a : Actuator, s.m.die.parked[a] = false → s.m.die.retract[a] = .none →
        s.m.die.bridgeOff[a] = false → t.die.retract[a] = .velocity) ∧
    (s.m.die.level ≠ 4 → Yields .ladderL3Leave s s.m))

/-- RETRACT_START, RETRACT_VELOCITY_END, RETRACT_CLIMB_END, RETRACT_PARK_END, RETRACT_TIMEOUT, LOW_SPEED_RETRACT, LOAD,
UNLOAD and LOAD_TIMEOUT (R180, R208–R210). The three phases of a retract follow in order, the first under the back-EMF
loop and the others with the currents of VCM_RET1 toward the ramp, and its end reports PARKED; a timeout jumps to Park;
a load needs the spindle at speed, a selected lead head and a populated, sound actuator, and one that has not locked in
time retracts. It concludes that exec answers a next state, with the effect of the command itself, under conditions on
the state and the operands alone, for: retractStart, retractVelocityEnd, retractClimbEnd, retractParkEnd,
retractTimeout, lowSpeedRetract, load, unload, loadTimeout. -/
def Obligations.RetractAndLoad : Prop :=
  ∀ (s : State) (a : Actuator),
    (s.m.die.retract[a] = .none → s.m.die.parked[a] = false → s.m.die.bridgeOff[a] = false → s.m.die.level ≠ 4 →
      Completes (.retractStart a) s fun t =>
        t.die.retract[a] = .velocity ∧ t.die.vcmRef[a] = s.m.emfRef a (s.m.rampSign a) ∧
        t.die.servo[a] = false ∧ t.die.loading[a] = false ∧ t.get (VCM_STAT_MODE a.val) = 3) ∧
    (s.m.die.parked[a] = true → Completes (.retractStart a) s fun t => t.die = s.m.die) ∧
    (s.m.die.retract[a] = .velocity → Completes (.retractVelocityEnd a) s fun t =>
      t.die.retract[a] = .climb ∧ t.die.vcmRef[a] = s.m.rampRef a (s.m.get VCM_RET1_CLIMB_I)) ∧
    (s.m.die.retract[a] ≠ .velocity → Yields (.retractVelocityEnd a) s s.m) ∧
    (s.m.die.retract[a] = .climb → Completes (.retractClimbEnd a) s fun t =>
      t.die.retract[a] = .park ∧ t.die.vcmRef[a] = s.m.rampRef a (s.m.get VCM_RET1_PARK_I)) ∧
    (s.m.die.retract[a] ≠ .climb → Yields (.retractClimbEnd a) s s.m) ∧
    (s.m.die.retract[a] = .velocity ∨ s.m.die.retract[a] = .climb → Completes (.retractTimeout a) s fun t =>
      t.die.retract[a] = .park ∧ t.is (VCM_FAULT_RET_TO a.val) = true) ∧
    (s.m.die.retract[a] = .park → Completes (.retractParkEnd a) s fun t =>
      t.die.retract[a] = .none ∧ t.die.parked[a] = true ∧ t.die.vcmRef[a] = 0 ∧
      t.is (VCM_STAT_PARKED a.val) = true ∧ t.is (QDR_ACT_PARKED a.val) = true ∧ t.get (SRV_STAT_LOCK a.val) = 0) ∧
    (s.m.is SPN_SPEED_VALID = true → s.m.get SPN_SPEED_SPEED < 1600 * s.m.get VCM_RET1_MINRPM → s.m.allParked = false →
      s.m.die.parked[a] = false → s.m.die.retract[a] = .none → s.m.die.bridgeOff[a] = false → s.m.die.level ≠ 4 →
      Completes .lowSpeedRetract s fun t => t.die.retract[a] = .velocity) ∧
    (s.m.is SPN_SPEED_VALID = false ∨ 1600 * s.m.get VCM_RET1_MINRPM ≤ s.m.get SPN_SPEED_SPEED →
      Completes .lowSpeedRetract s fun t => t.die = s.m.die) ∧
    (Running 28 33 s.m →
      (s.m.is (VCM_STAT_PARKED a.val) = true → s.m.headValid (streamOf a (s.m.leadSlot a)) = true → s.m.spnState = 5 →
        s.m.is SPN_STAT_INHIBIT = false → s.m.get (QDR_ACT_STATE a.val) < 2 →
        Completes (.load a) s fun t =>
          t.die.parked[a] = false ∧ t.die.loading[a] = true ∧ t.is (QDR_ACT_RO a.val) = true ∧
          t.die.vcmRef[a] = s.m.emfRef a (-(s.m.rampSign a)) ∧ t.die.ocOnce[a] = false ∧
          t.get (VCM_STAT_MODE a.val) = 2) ∧
      (s.m.is (VCM_STAT_PARKED a.val) = false ∨ s.m.spnState ≠ 5 ∨ s.m.is SPN_STAT_INHIBIT = true ∨
        2 ≤ s.m.get (QDR_ACT_STATE a.val) ∨
        s.m.headValid (streamOf a (s.m.leadSlot a)) = false →
        Completes (.load a) s fun t => t.bitAt VCM_ERR_LOAD a.val = true ∧ t.die = s.m.die) ∧
      (s.m.is (VCM_STAT_PARKED a.val) = false → s.m.die.retract[a] = .none → s.m.die.parked[a] = false →
        s.m.die.bridgeOff[a] = false → s.m.die.level ≠ 4 →
        Completes (.unload a) s fun t => t.die.retract[a] = .velocity) ∧
      (s.m.is (VCM_STAT_PARKED a.val) = true → Completes (.unload a) s fun t => t.die = s.m.die) ∧
      (s.m.die.loading[a] = true → s.m.slotLocked a (s.m.leadSlot a) = false →
        Completes (.loadTimeout a) s fun t => t.is (VCM_FAULT_LOAD_TO a.val) = true ∧ t.die.loading[a] =
          (s.m.die.loading[a] && (decide (s.m.die.retract[a] ≠ .none) || s.m.die.parked[a] || s.m.die.bridgeOff[a] ||
            decide (s.m.die.level = 4)))))

/-- BUFFER_LINE_ACCESS, BUFFER_INIT and BUFFER_FILL_END (R213–R216, R218, R230). A read of a line that the cache does
not hold delivers the stored bytes with the failure flag of its check word; an address past the data space answers zeros
with the flag; a delivery with the flag ends a core's access in a bus error; a write of the whole line stores its 64
bytes with a correct check word and leaves every other byte as it was; a write of some bytes into a line that fails its
check leaves the line poisoned. The init clears the control stores and begins the fill of the memory, or with INIT_MODE
invalidates every page; a kept memory stays as it is; the end of the fill leaves zeros with correct check words. It
concludes that exec answers a next state, with the effect of the command itself, under conditions on the state and the
operands alone, for: bufferLineAccess, bufferFillEnd, bufferInit. -/
def Obligations.BufferLines : Prop :=
  ∀ (s : State) (p : Fin 30) (line : Nat),
    (s.m.clockGood 10 = true → s.m.buf.cache.find line = none → (∀ r ∈ s.m.buf.cache.misses, r.line ≠ line) →
      (∀ a ∈ s.m.buf.cache.queues[(Fin.ofNat 16 line)], a.line ≠ line) → ∀ errs : List Out,
      errs = (match Mach.portCore p with | some k => [.busError k] | none => []) →
      (bufEnd ≤ 64 * line → Completes (.bufferLineAccess ⟨p, line, none⟩ false) s fun t =>
        t.is BUF_ERR_RANGE = true ∧ t.out = errs ++ .line p line (List.replicate 64 0) true :: s.m.out ∧ t.buf = s.m.buf) ∧
      (64 * line < bufEnd → s.m.get BUF_STAT_INIT ≠ 1 → s.m.pageInvalid (line / 64) = false →
        (s.m.buf.mem.good line = true →
          Yields (.bufferLineAccess ⟨p, line, none⟩ false) s (s.m.emit (.line p line (s.m.buf.mem.line line) false))) ∧
        (s.m.buf.mem.good line = false →
          Completes (.bufferLineAccess ⟨p, line, none⟩ false) s fun t =>
            t.out = errs ++ .line p line (s.m.buf.mem.line line) true :: s.m.out ∧ t.is BUF_ERR_CHECK = true ∧
            t.is BUF_FIRST_VALID = true ∧ t.buf = s.m.buf ∧
            t.get BUF_CNT_CHECK = min (s.m.get BUF_CNT_CHECK + 1) (2 ^ BUF_CNT_CHECK.w - 1) ∧
            (s.m.is BUF_FIRST_VALID = true → t.get BUF_FIRST_ADDR = s.m.get BUF_FIRST_ADDR)) ∧
        (∀ w : LineWrite, w.full = true →
          Completes (.bufferLineAccess ⟨p, line, some w⟩ false) s fun t =>
            (∀ i, i < 64 → t.buf.mem.byte (64 * line + i) = w.data.getD i 0) ∧ t.buf.mem.good line = true ∧
            ∀ a, a / 64 ≠ line → t.buf.mem.byte a = s.m.buf.mem.byte a) ∧
        ∀ w : LineWrite, w.full = false →
          Completes (.bufferLineAccess ⟨p, line, some w⟩ false) s fun t =>
            (∀ i, i < 64 → t.buf.mem.byte (64 * line + i) =
              if w.enable.getLsbD i = true then w.data.getD i 0 else s.m.buf.mem.byte (64 * line + i)) ∧
            t.buf.mem.good line = s.m.buf.mem.good line ∧
            (s.m.buf.mem.good line = false → t.is BUF_ERR_POISON = true) ∧
            ∀ a, a / 64 ≠ line → t.buf.mem.byte a = s.m.buf.mem.byte a)) ∧
    (s.m.clockGood 10 = true → s.m.get BUF_STAT_INIT = 1 → Completes .bufferFillEnd s fun t =>
      t.get BUF_STAT_INIT = 2 ∧ t.get RST_PHASE_PHASE = 5 ∧ t.is RST_STAT_BUFOK = true ∧
      (∀ a, t.buf.mem.byte a = 0) ∧ ∀ l, t.buf.mem.good l = true) ∧
    (s.m.get RST_PHASE_PHASE = 4 → s.m.get BUF_STAT_INIT = 0 → s.m.is RST_STAT_BUFOK = false →
      Completes .bufferInit s fun t =>
        t.eng.stores = EngState.initial.stores ∧ t.buf.selfRef = false ∧
        (s.m.is BUF_CTRL_INIT_MODE = false → t.get BUF_STAT_INIT = 1 ∧ t.get RST_PHASE_PHASE = 4) ∧
        (s.m.is BUF_CTRL_INIT_MODE = true → t.get BUF_STAT_INIT = 2 ∧ t.get RST_PHASE_PHASE = 5 ∧
          ∀ pg, t.buf.mem.pages.test pg = false)) ∧
    (s.m.get RST_PHASE_PHASE = 4 → s.m.get BUF_STAT_INIT = 0 → s.m.is RST_STAT_BUFOK = true → s.m.buf.vsramOff = false →
      Completes .bufferInit s fun t => t.buf.mem = s.m.buf.mem ∧ t.get BUF_STAT_INIT = 2 ∧ t.rst.kept = true)

/-- POOL_FREE, FREE, POOL_RETIRE and POOL_BANKRET_WRITE (R222, R225, R227, R228). With no free waiting, a free that
finds the handle cache full waits; a free of a handle outside its pool or of a buffer that is not in use is refused and
latched; any other free returns its buffer to the pool unless it is retired. The primitive FREE does the same with the
handle of its register. A retirement enters the table once, up to 1,024 entries; the bits of a bank mark only become 1.
POOL_EN_WRITE, POOL_RING_INIT_DONE, POOL_MB_WRITE, POOL_GRANT and POOL_CACHE_REFILL (R222–R224). Enabling a pool needs a
legal configuration and starts its ring; disabling needs every buffer free and no request; a request of 0 or more than
16 buffers is answered at once with ERR; a grant takes its buffers from the handle cache, all or nothing, and none of
them is in use or retired; a cached handle that is in use is discarded with POOL_ERR.RING. Once its bursts have moved, a
refill brings up to 64 handles from the ring, or takes 64 to it. It concludes that exec answers a next state, with the
effect of the command itself, under conditions on the state and the operands alone, for: poolEnWrite, poolRingInitDone,
poolMbWrite, poolGrant, poolCacheRefill, poolFree, poolRetire, poolBankretWrite, free. -/
def Obligations.BufferPools : Prop :=
  ((∀ (s : State) (h : BitVec 24), Running 10 34 s.m → s.m.buf.frees = [] →
    (s.m.freeBlocked h.toNat = true → Yields (.poolFree h) s { s.m with buf := { s.m.buf with frees := [h.toNat] } }) ∧
    (s.m.is (POOL_CFG_EN (handlePool h.toNat).val) = false ∨ s.m.poolCount (handlePool h.toNat) ≤ handleIndex h.toNat →
      Completes (.poolFree h) s fun t =>
        t.is POOL_ERR_BAD_HANDLE = true ∧ t.is POOL_FIRST_VALID = true ∧ t.buf = s.m.buf ∧
        (s.m.is POOL_FIRST_VALID = false → t.get POOL_FIRST_HANDLE = h.toNat)) ∧
    (s.m.is (POOL_CFG_EN (handlePool h.toNat).val) = true → handleIndex h.toNat < s.m.poolCount (handlePool h.toNat) →
      (handleIndex h.toNat ∉ (s.m.buf.pools[(handlePool h.toNat)]).used →
        Completes (.poolFree h) s fun t => t.is POOL_ERR_DOUBLE_FREE = true ∧ t.buf = s.m.buf) ∧
      (handleIndex h.toNat ∈ (s.m.buf.pools[(handlePool h.toNat)]).used → s.m.freeBlocked h.toNat = false →
        Completes (.poolFree h) s fun t =>
          handleIndex h.toNat ∉ (t.buf.pools[(handlePool h.toNat)]).used ∧
          (t.buf.pools[(handlePool h.toNat)]).free = (s.m.buf.pools[(handlePool h.toNat)]).free +
            (if s.m.poolRetired (handlePool h.toNat) (handleIndex h.toNat) = true then 0 else 1) ∧
          ∀ q, q ≠ handlePool h.toNat → t.buf.pools[q] = s.m.buf.pools[q])) ∧
    (h.toNat ∈ s.m.buf.retired → Yields (.poolRetire h) s s.m) ∧
    (h.toNat ∉ s.m.buf.retired → 1024 ≤ s.m.buf.retired.length → Completes (.poolRetire h) s fun t =>
      t.is POOL_ERR_RET_FULL = true ∧ t.buf = s.m.buf) ∧
    (h.toNat ∉ s.m.buf.retired → s.m.buf.retired.length < 1024 → Completes (.poolRetire h) s fun t =>
      t.buf.retired = s.m.buf.retired ++ [h.toNat]) ∧
    ∀ w : Word,
      (Completes (.poolBankretWrite 0 w) s fun t =>
        t.get POOL_BANKRET0_BANKS = s.m.get POOL_BANKRET0_BANKS ||| w.toNat ∧
        t.get POOL_BANKRET1_BANKS = s.m.get POOL_BANKRET1_BANKS) ∧
      Completes (.poolBankretWrite 1 w) s fun t =>
        t.get POOL_BANKRET1_BANKS = s.m.get POOL_BANKRET1_BANKS ||| w.toNat ∧
        t.get POOL_BANKRET0_BANKS = s.m.get POOL_BANKRET0_BANKS) ∧
  ∀ (s : State) (q : SeqId) (inp : Bool) (u : Micro) (next : Nat),
    Running (seqDomain q) (seqBlock q) s.m → AtWord s.m q inp u next → u.alu = 0 → u.xop = 2 →
    Completes (.free q inp) s fun t =>
      t.buf = (poolFree ((s.m.gp q u.xreg).extractLsb' 0 24) s.m).buf ∧ t.get (SEQ_STAT_ADDR q.val) = next) ∧
  (∀ (s : State) (p : PoolId), Running 10 34 s.m →
    (s.m.is (POOL_CFG_EN p.val) = false → s.m.poolCfgOk p = true → Completes (.poolEnWrite p true) s fun t =>
      t.is (POOL_CFG_EN p.val) = true ∧ t.is (POOL_CFG_INIT_BUSY p.val) = true ∧ (t.buf.pools[p]).used = [] ∧
      (t.buf.pools[p]).inRing = s.m.poolCount p ∧ (t.buf.pools[p]).free = s.m.poolCount p - s.m.retiredCount p) ∧
    (s.m.is (POOL_CFG_EN p.val) = false → s.m.poolCfgOk p = false → Completes (.poolEnWrite p true) s fun t =>
      t.is POOL_ERR_CFG = true ∧ t.is (POOL_CFG_EN p.val) = false ∧ t.buf = s.m.buf) ∧
    (s.m.is (POOL_CFG_EN p.val) = true → (s.m.buf.pools[p]).waiting = [] →
      (s.m.buf.pools[p]).free = s.m.poolCount p - s.m.retiredCount p → Completes (.poolEnWrite p false) s fun t =>
        t.is (POOL_CFG_EN p.val) = false ∧ t.buf = s.m.buf) ∧
    (s.m.is (POOL_CFG_EN p.val) = true → (s.m.buf.pools[p]).waiting ≠ [] → Completes (.poolEnWrite p false) s fun t =>
      t.is POOL_ERR_BUSY = true ∧ t.is (POOL_CFG_EN p.val) = true) ∧
    (s.m.is (POOL_CFG_INIT_BUSY p.val) = false ∨ s.m.portQuiet poolPort = false → Yields (.poolRingInitDone p) s s.m) ∧
    (s.m.is (POOL_CFG_INIT_BUSY p.val) = true → s.m.portQuiet poolPort = true → Completes (.poolRingInitDone p) s fun t =>
      t.is (POOL_CFG_INIT_BUSY p.val) = false ∧ (t.buf.pools[p]).inRing = (s.m.buf.pools[p]).inRing ∧
      (t.buf.pools[p]).free = (s.m.buf.pools[p]).free ∧ (t.buf.pools[p]).used = (s.m.buf.pools[p]).used ∧
      (t.buf.pools[p]).cache = (s.m.buf.pools[p]).cache) ∧
    (∀ (mb : Mailbox) w, s.m.is (POOL_MBSTAT_BUSY mb.val) = true → Completes (.poolMbWrite mb w) s fun t =>
      t.is POOL_ERR_MB_BUSY = true ∧ t.buf = s.m.buf) ∧
    (∀ (mb : Mailbox) w, s.m.is (POOL_MBSTAT_BUSY mb.val) = false →
      s.m.get (POOL_MBSTAT_K mb.val) = 0 ∨ 16 < s.m.get (POOL_MBSTAT_K mb.val) →
      Completes (.poolMbWrite mb w) s fun t =>
        t.is (POOL_MBSTAT_DONE mb.val) = true ∧ t.is (POOL_MBSTAT_ERR mb.val) = true ∧ t.buf.pools = s.m.buf.pools) ∧
    (∀ (mb : Mailbox) (w : Word), s.m.is (POOL_MBSTAT_BUSY mb.val) = false → getBits w 27 3 = p.val →
      1 ≤ s.m.get (POOL_MBSTAT_K mb.val) → s.m.get (POOL_MBSTAT_K mb.val) ≤ 16 → s.m.is (POOL_CFG_EN p.val) = true →
      Completes (.poolMbWrite mb w) s fun t =>
        t.is (POOL_MBSTAT_BUSY mb.val) = true ∧ t.is (POOL_STAT_WAITING p.val) = true ∧
        (t.buf.pools[p]).waiting = (s.m.buf.pools[p]).waiting ++
          [⟨mb, s.m.get (POOL_MBSTAT_K mb.val), if getBits w 30 2 = 3 then 0 else getBits w 30 2, 64 * getBits w 0 27⟩]) ∧
    (s.m.poolServes p = false → Yields (.poolGrant p) s s.m) ∧
    (s.m.poolServes p = true → (∃ i ∈ (s.m.buf.pools[p]).cache, s.m.poolRetired p i = false ∧ i ∈ (s.m.buf.pools[p]).used) →
      Completes (.poolGrant p) s fun t => t.is POOL_ERR_RING = true) ∧
    (∀ r x, s.m.poolServes p = true → x = s.m.sweepCache p → x.nextReq p [] (x.buf.pools[p]).waiting = some r →
      r.count ≤ ((x.buf.pools[p]).cache).length →
      Completes (.poolGrant p) s fun t =>
        t.is (POOL_MBSTAT_DONE r.mb.val) = true ∧ t.is (POOL_MBSTAT_BUSY r.mb.val) = false ∧
        (t.buf.pools[p]).free = (x.buf.pools[p]).free - r.count ∧ r ∉ (t.buf.pools[p]).waiting ∧
        ∀ i ∈ ((x.buf.pools[p]).cache).take r.count,
          i ∈ (s.m.buf.pools[p]).cache ∧ s.m.poolRetired p i = false ∧ i ∉ (s.m.buf.pools[p]).used ∧
          i ∈ (t.buf.pools[p]).used) ∧
    (s.m.poolServes p = false ∨ s.m.portQuiet poolPort = false → Yields (.poolCacheRefill p) s s.m) ∧
    (s.m.poolServes p = true → s.m.portQuiet poolPort = true → s.m.buf.frees = [] →
      ((s.m.buf.pools[p]).moving = none → Yields (.poolCacheRefill p) s (s.m.ringMove p)) ∧
      ((s.m.buf.pools[p]).moving = some false → Completes (.poolCacheRefill p) s fun t =>
        (t.buf.pools[p]).inRing = (s.m.buf.pools[p]).inRing - min 64 (s.m.buf.pools[p]).inRing ∧
        (t.buf.pools[p]).used = (s.m.buf.pools[p]).used ∧
        ∀ i ∈ (t.buf.pools[p]).cache, i ∈ (s.m.buf.pools[p]).cache ∨ i ∉ (s.m.buf.pools[p]).used) ∧
      ((s.m.buf.pools[p]).moving = some true → 64 ≤ (s.m.buf.pools[p]).cache.length →
        Completes (.poolCacheRefill p) s fun t =>
          (t.buf.pools[p]).cache = (s.m.buf.pools[p]).cache.take ((s.m.buf.pools[p]).cache.length - 64) ∧
          (t.buf.pools[p]).inRing = (s.m.buf.pools[p]).inRing + 64)))

/-- CACHE_ACCESS, MISS_FILL_DONE, BUCKET_LEAK and CCH_EN_WRITE (R229–R234, R236). A clean read hit delivers the cached
bytes; a write hit merges and makes the line dirty; a read that meets a double error in a dirty line delivers with the
failure flag and loses the line; a miss takes one of 64 registers; a bucket counts corrected errors and reports its
overflow; EN changes only while no line is valid. It concludes that exec answers a next state, with the effect of the
command itself, under conditions on the state and the operands alone, for: cacheAccess, missFillDone, bucketLeak,
cchEnWrite. -/
def Obligations.CacheAccesses : Prop :=
  ∀ (s : State) (p : Fin 30) (line : Nat), Running 9 35 s.m →
    (s.m.is CCH_CTRL_EN = true → (s.m.buf.cache.queues[(Fin.ofNat 16 line)]) = [] →
      (∀ l, s.m.buf.cache.find line = some l →
        (Completes (.cacheAccess ⟨p, line, none⟩ .good none) s fun t =>
          t.out = .line p line l.data false :: s.m.out ∧ t.buf.cache.lines = s.m.buf.cache.lines ∧
          t.buf.mem = s.m.buf.mem) ∧
        (∀ w, Completes (.cacheAccess ⟨p, line, some w⟩ .good none) s fun t =>
          t.buf.mem = s.m.buf.mem ∧ t.regs = s.m.regs ∧
          t.buf.cache.lines = putCacheLine { l with data := w.merge l.data, dirty := true } s.m.buf.cache.lines) ∧
        (l.dirty = true → Completes (.cacheAccess ⟨p, line, none⟩ .double none) s fun t =>
          t.out = (match Mach.portCore p with | some k => [Out.busError k] | none => []) ++ .line p line l.data true :: s.m.out ∧
          t.is CCH_ERR_DED_DIRTY = true ∧ t.is CCH_ERRLOC_VALID = true ∧
          t.buf.cache.lines = s.m.buf.cache.lines.filter fun x => !(x.set == l.set && x.way == l.way)) ∧
        Completes (.cacheAccess ⟨p, line, none⟩ .single none) s fun t =>
          t.out = .line p line l.data false :: s.m.out ∧
          (s.m.bucketCap ≤ s.m.get (CCH_BUCKET_LEVEL (line % 16)) → t.is (CCH_BUCKET_OVF (line % 16)) = true)) ∧
      (s.m.buf.cache.find line = none → (∀ r ∈ s.m.buf.cache.misses, r.line ≠ line) →
        s.m.buf.cache.misses.length < 64 → ∀ w,
        Completes (.cacheAccess ⟨p, line, w⟩ .good none) s fun t =>
          t.buf.cache.misses = s.m.buf.cache.misses ++ [⟨line, [⟨p, line, w⟩]⟩] ∧
          t.get CCH_MISS_BUSY = s.m.buf.cache.misses.length + 1)) ∧
    (∀ k, s.m.buf.cache.misses[k]? = none → Yields (.missFillDone k) s s.m) ∧
    (∀ k, s.m.buf.cache.misses[k]? = some ⟨line, [⟨p, line, none⟩]⟩ → s.m.buf.cache.find line = none → 64 * line < bufEnd →
      s.m.get BUF_STAT_INIT ≠ 1 → s.m.pageInvalid (line / 64) = false → s.m.buf.mem.good line = true →
      (∀ v ∈ s.m.buf.cache.lines, v.dirty = false) → s.m.buf.cache.queues = Vector.replicate 16 [] →
      Completes (.missFillDone k) s fun t =>
        t.out = .line p line (s.m.buf.mem.line line) false :: s.m.out ∧
        t.buf.cache.misses = s.m.buf.cache.misses.eraseIdx k) ∧
    (∀ b : Fin 16, Completes (.bucketLeak b) s fun t =>
      t.get (CCH_BUCKET_LEVEL b.val) = s.m.get (CCH_BUCKET_LEVEL b.val) - 1 ∧ t = { s.m with regs := t.regs }) ∧
    ∀ en, Yields (.cchEnWrite en) s
      (if s.m.is CCH_CTRL_EN = en then s.m
       else if s.m.buf.cache.lines.isEmpty = true then s.m.setFlag CCH_CTRL_EN en
       else s.m.flagEvent CCH_ERR_EN_BUSY 69)

/-- The MOP_* rows and SCB_GO, SCB_ABORT and SCRUB_PASS_END (R235, R237, R238, Tables 9-2 and 9-3). A maintenance
operation that comes while one runs, or whose range is empty or leaves the space, is refused with its flag; a clean
makes the lines of its range clean; an invalidate drops them; operation 7 leaves no valid line. A pass numbers itself;
an aborted one offers no further burst; once its bursts have moved, its end clears BUSY and is reported. It concludes
that exec answers a next state, with the effect of the command itself, under conditions on the state and the operands
alone, for: mopCleanRange, mopInvalidateRange, mopCleanInvalidateRange, mopCleanSetWay, mopInvalidateSetWay,
mopCleanInvalidateSetWay, mopCleanInvalidateAll, mopDone, scbGo, scbAbort, scrubPassEnd. -/
def Obligations.CacheMaintenance : Prop :=
  ∀ s : State,
    (Running 9 35 s.m →
      (∀ i ∈ [Instr.mopCleanRange, .mopInvalidateRange, .mopCleanInvalidateRange, .mopCleanInvalidateAll],
        s.m.is CCH_MOP_STAT_BUSY = true → Completes i s fun t => t.is CCH_ERR_MOP_BUSY = true ∧ t.buf = s.m.buf) ∧
      (∀ i ∈ [Instr.mopCleanRange, .mopInvalidateRange, .mopCleanInvalidateRange],
        s.m.is CCH_MOP_STAT_BUSY = false →
        s.m.get CCH_MOP_LEN_LINES = 0 ∨ bufEnd < 64 * (s.m.get CCH_MOP_ADDR_LINE + s.m.get CCH_MOP_LEN_LINES) →
        Completes i s fun t => t.is CCH_ERR_MOP_RANGE = true ∧ t.buf = s.m.buf ∧ t.is CCH_MOP_STAT_BUSY = false) ∧
      (s.m.is CCH_MOP_STAT_BUSY = false → s.m.get CCH_MOP_LEN_LINES ≠ 0 →
        64 * (s.m.get CCH_MOP_ADDR_LINE + s.m.get CCH_MOP_LEN_LINES) ≤ bufEnd →
        (Completes .mopCleanRange s fun t =>
          t.is CCH_MOP_STAT_BUSY = true ∧ t.get CCH_MOP_CMD_OP = 1 ∧
          t.buf.cache.lines.map (fun l => (l.set, l.way, l.tag, l.data)) =
            s.m.buf.cache.lines.map (fun l => (l.set, l.way, l.tag, l.data)) ∧
          ∀ l ∈ t.buf.cache.lines, s.m.get CCH_MOP_ADDR_LINE ≤ l.line →
            l.line < s.m.get CCH_MOP_ADDR_LINE + s.m.get CCH_MOP_LEN_LINES → l.dirty = false) ∧
        (Completes .mopInvalidateRange s fun t =>
          t.is CCH_MOP_STAT_BUSY = true ∧ t.get CCH_MOP_CMD_OP = 2 ∧ t.buf.mem = s.m.buf.mem ∧
          t.buf.cache.lines = s.m.buf.cache.lines.filter fun l => !(decide (s.m.get CCH_MOP_ADDR_LINE ≤ l.line) &&
            decide (l.line < s.m.get CCH_MOP_ADDR_LINE + s.m.get CCH_MOP_LEN_LINES))) ∧
        Completes .mopCleanInvalidateRange s fun t =>
          t.is CCH_MOP_STAT_BUSY = true ∧ t.get CCH_MOP_CMD_OP = 3 ∧
          t.buf.cache.lines = s.m.buf.cache.lines.filter fun l => !(decide (s.m.get CCH_MOP_ADDR_LINE ≤ l.line) &&
            decide (l.line < s.m.get CCH_MOP_ADDR_LINE + s.m.get CCH_MOP_LEN_LINES))) ∧
      (∀ (set : Fin 32768) (way : Fin 16), s.m.is CCH_MOP_STAT_BUSY = false → set.val < 24576 →
        (Completes (.mopCleanSetWay set way) s fun t =>
          t.is CCH_MOP_STAT_BUSY = true ∧ t.get CCH_MOP_CMD_OP = 4 ∧ t.get CCH_MOP_CMD_SET = set.val ∧
          t.get CCH_MOP_CMD_WAY = way.val ∧ ∀ l ∈ t.buf.cache.lines, l.set = set.val → l.way = way → l.dirty = false) ∧
        (Completes (.mopInvalidateSetWay set way) s fun t =>
          t.is CCH_MOP_STAT_BUSY = true ∧ t.get CCH_MOP_CMD_OP = 5 ∧ t.buf.mem = s.m.buf.mem ∧
          t.buf.cache.lines = s.m.buf.cache.lines.filter fun l => !(l.set == set.val && l.way == way)) ∧
        Completes (.mopCleanInvalidateSetWay set way) s fun t =>
          t.is CCH_MOP_STAT_BUSY = true ∧ t.get CCH_MOP_CMD_OP = 6 ∧
          t.buf.cache.lines = s.m.buf.cache.lines.filter fun l => !(l.set == set.val && l.way == way)) ∧
      (s.m.is CCH_MOP_STAT_BUSY = false → Completes .mopCleanInvalidateAll s fun t =>
        t.buf.cache.lines = [] ∧ t.get CCH_MOP_CMD_OP = 7 ∧ t.is CCH_MOP_STAT_BUSY = true) ∧
      Completes .mopDone s fun t => t.is CCH_MOP_STAT_BUSY = false ∧ t = { s.m with regs := t.regs }) ∧
    (Running 10 36 s.m →
      (s.m.is SCB_STAT_BUSY = true ∨ s.m.get SCB_LEN_LINES = 0 ∨
        bufEnd < 64 * (s.m.get SCB_START_LINE + s.m.get SCB_LEN_LINES) →
        Completes .scbGo s fun t => t.is SCB_STAT_ERR = true ∧ t.buf = s.m.buf) ∧
      (s.m.is SCB_STAT_BUSY = false → s.m.get SCB_LEN_LINES ≠ 0 →
        64 * (s.m.get SCB_START_LINE + s.m.get SCB_LEN_LINES) ≤ bufEnd → Completes .scbGo s fun t =>
          t.is SCB_STAT_BUSY = true ∧ t.get SCB_PASS_PASS = (s.m.get SCB_PASS_PASS + 1) % 2 ^ SCB_PASS_PASS.w ∧
          ∃ x, t.buf.scrub = some x ∧ x.start = s.m.get SCB_START_LINE ∧ x.lines = s.m.get SCB_LEN_LINES ∧
            x.aborting = false) ∧
      (∀ x, s.m.buf.scrub = some x → Completes .scbAbort s fun t =>
        (∃ y, t.buf.scrub = some y ∧ y.aborting = true ∧ y.start = x.start ∧ y.lines ≤ x.lines) ∧
        (∀ d ∈ t.cal.demands, d.port ≠ scrubPort) ∧ t.regs = s.m.regs ∧ t.buf.mem = s.m.buf.mem) ∧
      (s.m.buf.scrub = none ∨ s.m.portQuiet scrubPort = false → Yields .scrubPassEnd s s.m) ∧
      ∀ x, s.m.buf.scrub = some x → s.m.portQuiet scrubPort = true → Completes .scrubPassEnd s fun t =>
        t.buf.scrub = none ∧ t.is SCB_STAT_BUSY = false ∧ t.reports.getLast? = some 72)

/-- DMA_CH_ABORT, DMA_CH_RETRY, DMA_BLOCK_WRITE and DMA_EN_WRITE (R252–R254). An abort of a channel whose descriptor
could not be read frees it; another halted or moving channel is to complete with the status of its abort, and one that
still reads its descriptor once it has come. A retry of a channel halted on a host error starts its descriptor again
from its first byte. Both are flagged where they do not apply. Blocking a port ends the descriptors of that port and no
other; EN is stored. DMA_DESC_TAKE (R241–R244, R254). While a channel of the level takes a descriptor, the command ends
that taking once the burst has come: HEAD advances; a descriptor whose line cannot be read halts its channel with cause
5; one that the engine does not own is flagged and leaves the channel free; one of a blocked port or an illegal one is
to be completed ABORTED or BADDESC; a legal one starts to move. Otherwise the lowest-numbered free channel of the level
asks for the descriptor at HEAD; with the engine off, the ring empty or no channel free nothing happens. That a taking
is two steps of the same command is the model's (log entry 158). It concludes that exec answers a next state, with the
effect of the command itself, under conditions on the state and the operands alone, for: dmaDescTake, dmaChAbort,
dmaChRetry, dmaBlockWrite, dmaEnWrite. -/
def Obligations.DmaRings : Prop :=
  (∀ (s : State) (n : DmaCh), Running 11 37 s.m →
    (s.m.dma.chans[n] = none → ∀ i ∈ [Instr.dmaChAbort n, .dmaChRetry n],
      Completes i s fun t => t.is DMA_ERR_CTRL_IGN = true ∧ t.dma = s.m.dma) ∧
    (∀ h, s.m.dma.chans[n] = some h →
      (h.step = .status → Completes (.dmaChAbort n) s fun t => t.is DMA_ERR_CTRL_IGN = true ∧ t.dma = s.m.dma) ∧
      (h.step = .taking → h.cause = 0 →
        Yields (.dmaChAbort n) s (s.m.setHold n fun x => { x with stop := some (.fin ⟨6, 0, 0⟩) })) ∧
      (h.step ≠ .status → h.cause = 5 → Completes (.dmaChAbort n) s fun t =>
        t.dma.chans[n] = none ∧ t.get (DMA_CH_STAT_STATE n.val) = 0 ∧ t.bitAt DMA_STAT_ACTIVE n.val = false ∧
        t.bitAt DMA_STAT_HALTED n.val = false ∧ t.get (DMA_CH_MOVED_MOVED n.val) = 0 ∧
        ∀ c, c ≠ n → t.dma.chans[c] = s.m.dma.chans[c]) ∧
      (h.step ≠ .status → h.cause ≠ 5 → (h.cause = 0 → h.step ≠ .taking) → Completes (.dmaChAbort n) s fun t =>
        (∃ x, t.dma.chans[n] = some x ∧ x.step = .status ∧
          x.fin = some ⟨if h.cause = 0 then 6 else if h.cause ≤ 2 then 7 else 8, 0, 0⟩) ∧
        t.get (DMA_CH_STAT_STATE n.val) = 5 ∧ t.bitAt DMA_STAT_HALTED n.val = false ∧
        ∀ c, c ≠ n → t.dma.chans[c] = s.m.dma.chans[c]) ∧
      (h.cause = 1 ∨ h.cause = 2 → Completes (.dmaChRetry n) s fun t =>
        t.get (DMA_CH_STAT_STATE n.val) = 2 ∧ t.bitAt DMA_STAT_HALTED n.val = false ∧ t.get (DMA_CH_MOVED_MOVED n.val) = 0 ∧
        ∃ x, t.dma.chans[n] = some x ∧ x.desc = h.desc ∧ x.moved = 0 ∧ x.last = none ∧ x.fin = none ∧ x.cause = 0) ∧
      (h.cause ≠ 1 → h.cause ≠ 2 → Completes (.dmaChRetry n) s fun t =>
        t.is DMA_ERR_CTRL_IGN = true ∧ t.dma = s.m.dma)) ∧
    (∀ b0 b1 h, s.m.dma.chans[n] = some h →
      ((h.step = .taking ∧ h.cause = 0) ∨ h.step = .status ∨ (if h.desc.port = 0 then b0 else b1) = false →
        Completes (.dmaBlockWrite b0 b1) s fun t => t.dma.chans[n] = some h) ∧
      (¬ (h.step = .taking ∧ h.cause = 0) → h.step ≠ .status → (if h.desc.port = 0 then b0 else b1) = true →
        (h.cause = 5 → Completes (.dmaBlockWrite b0 b1) s fun t => t.dma.chans[n] = none) ∧
        (h.cause ≠ 5 → Completes (.dmaBlockWrite b0 b1) s fun t =>
          ∃ x, t.dma.chans[n] = some x ∧ x.fin = some ⟨6, 0, 0⟩ ∧ x.step = .status))) ∧
    (∀ b0 b1, Completes (.dmaBlockWrite b0 b1) s fun t => t.is DMA_CTRL_BLOCK0 = b0 ∧ t.is DMA_CTRL_BLOCK1 = b1) ∧
    ∀ en, Yields (.dmaEnWrite en) s (s.m.setFlag DMA_CTRL_EN en)) ∧
  (∀ (s : State) (p : DmaLevel), Running 11 37 s.m →
    ((∀ (c : DmaCh) h, s.m.dma.chans[c] = some h → ¬ (h.step = .taking ∧ h.cause = 0 ∧ h.ring = p)) →
      (s.m.is DMA_CTRL_EN = false ∨ s.m.get (DMA_RING_HEAD_HEAD p.val) = s.m.get (DMA_RING_TAIL_TAIL p.val) →
        Yields (.dmaDescTake p) s s.m) ∧
      ((∀ c : DmaCh, s.m.is (DMA_CH_CFG_EN c.val) = true → s.m.dmaLevel c = p → s.m.chQuiet c = true →
          (s.m.dma.chans[c]).isSome = true) → Yields (.dmaDescTake p) s s.m) ∧
      ∀ n : DmaCh, s.m.is DMA_CTRL_EN = true → s.m.get (DMA_RING_HEAD_HEAD p.val) ≠ s.m.get (DMA_RING_TAIL_TAIL p.val) →
        s.m.is (DMA_CH_CFG_EN n.val) = true → s.m.dmaLevel n = p → s.m.dma.chans[n] = none → s.m.chQuiet n = true →
        (∀ c, c < n → s.m.is (DMA_CH_CFG_EN c.val) = true → s.m.dmaLevel c = p → s.m.chQuiet c = true →
          (s.m.dma.chans[c]).isSome = true) →
        Completes (.dmaDescTake p) s fun t =>
          t.get (DMA_CH_STAT_STATE n.val) = 1 ∧ t.bitAt DMA_STAT_ACTIVE n.val = true ∧
          t.get (DMA_RING_HEAD_HEAD p.val) = s.m.get (DMA_RING_HEAD_HEAD p.val) ∧
          (∃ h, t.dma.chans[n] = some h ∧ h.step = .taking ∧ h.ring = p ∧ h.slot = s.m.get (DMA_RING_HEAD_HEAD p.val)) ∧
          t.cal.demands = s.m.cal.demands ++
            [⟨Mach.dmaPort, 11, s.m.slotLine p (s.m.get (DMA_RING_HEAD_HEAD p.val)), 1, n.val⟩]) ∧
    ∀ (n : DmaCh) h, s.m.dma.chans[n] = some h → h.step = .taking → h.cause = 0 → h.ring = p →
      (∀ (c : DmaCh) g, c < n → s.m.dma.chans[c] = some g → ¬ (g.step = .taking ∧ g.cause = 0 ∧ g.ring = p)) →
      (s.m.chQuiet n = false → Yields (.dmaDescTake p) s s.m) ∧
      (s.m.chQuiet n = true →
        (∀ bs m', s.m.attrRead (s.m.is (DMA_RING_CFG_CACHE p.val)) (s.m.slotLine p h.slot) = ((bs, true), m') →
          Completes (.dmaDescTake p) s fun t =>
            t.get (DMA_CH_STAT_STATE n.val) = 4 ∧ t.bitAt DMA_STAT_HALTED n.val = true ∧
            (∃ x, t.dma.chans[n] = some x ∧ x.cause = 5) ∧
            t.get (DMA_RING_HEAD_HEAD p.val) = (h.slot + 1) % s.m.ringSlots p) ∧
        (∀ (d : DmaDesc) bs m',
          s.m.attrRead (s.m.is (DMA_RING_CFG_CACHE p.val)) (s.m.slotLine p h.slot) = ((bs, false), m') →
          d = BitVec.ofNat 512 (ofBytesLE bs) →
          (d.own = false → Completes (.dmaDescTake p) s fun t =>
            t.is DMA_ERR_NOTOWN = true ∧ t.dma.chans[n] = none ∧ t.get (DMA_CH_STAT_STATE n.val) = 0 ∧
            t.get (DMA_RING_HEAD_HEAD p.val) = (h.slot + 1) % s.m.ringSlots p) ∧
          (d.own = true → s.m.dmaBlocked d.port = true ∨ h.stop.isSome = true →
            Completes (.dmaDescTake p) s fun t =>
              t.get (DMA_CH_STAT_STATE n.val) = 5 ∧
              ∃ x, t.dma.chans[n] = some x ∧ x.desc = d ∧ x.fin = some ⟨6, 0, 0⟩ ∧ x.step = .status) ∧
          (d.own = true → s.m.dmaBlocked d.port = false → h.stop = none → d.isBad = true →
            Completes (.dmaDescTake p) s fun t =>
              t.get (DMA_CH_STAT_STATE n.val) = 5 ∧
              ∃ x, t.dma.chans[n] = some x ∧ x.desc = d ∧ x.fin = some ⟨5, 0, 0⟩ ∧ x.step = .status) ∧
          (d.own = true → s.m.dmaBlocked d.port = false → h.stop = none → d.isBad = false → h.fin = none →
            Completes (.dmaDescTake p) s fun t =>
              t.get (DMA_CH_STAT_STATE n.val) = 2 ∧
              t.get (DMA_RING_HEAD_HEAD p.val) = (h.slot + 1) % s.m.ringSlots p ∧
              ∃ x, t.dma.chans[n] = some x ∧ x.desc = d ∧ x.cause = 0 ∧ x.fin = none))))

/-- DMA_SECTOR_CHECK, HOST_READ_COMPLETION, READBACK_ISSUE, READBACK_COMPLETE and COMPLETION_TIMEOUT (R243, R246, R248,
R250–R252, R260, R434). A channel goes on only when its bursts have come. A lone channel's sector with a wrong CRC is to
end with status 3 and sends nothing; its host bytes outside sector mode go to the buffer. Status writes that have moved
free their channel. Host bytes complete the read that is outstanding, and a complete unit goes to the fabric; a failed
read halts the channel with cause 1. After the last write the dword of its last byte is read back; its completion leads
to the status writes, and its failure or its time-out halts the channel with cause 2. It concludes that exec answers a
next state, with the effect of the command itself, under conditions on the state and the operands alone, for:
dmaSectorCheck, hostReadCompletion, completionTimeout, readbackIssue, readbackComplete. -/
def Obligations.DmaMovement : Prop :=
  ∀ (s : State) (n : DmaCh), Running 11 37 s.m →
    ((∀ (c : DmaCh) h, s.m.dma.chans[c] = some h → h.cause ≠ 0 ∨ s.m.chQuiet c = false) → (∀ c, s.m.hostReady c = false) →
      Yields .dmaSectorCheck s s.m) ∧
    (∀ h k p i block, s.m.dma.chans[n] = some h → (∀ c, c ≠ n → s.m.dma.chans[c] = none) → h.step = .unit → h.cause = 0 →
      h.fin = none → s.m.chQuiet n = true → h.desc.dir = 1 → h.desc.bhdl = true → h.last = none →
      k = h.moved / h.desc.sectorSize → s.m.sectorBuffer h.desc k = ((some (p, i), none), s.m) →
      s.m.readSector p i = ((block, none), s.m) →
      ofBytesLE ((block.drop 4112).take 4) ≠ sectorCrc (ofBytesLE ((block.drop 4116).take 8)) block →
      Completes .dmaSectorCheck s fun t =>
        (∃ x, t.dma.chans[n] = some x ∧ x.fin = some ⟨3, 0, k⟩ ∧ x.step = .status) ∧
        t.get (DMA_CH_STAT_STATE n.val) = 5 ∧ t.out = s.m.out) ∧
    (∀ h, s.m.dma.chans[n] = some h → (∀ c, c ≠ n → s.m.dma.chans[c] = none) → h.step = .unit → h.cause = 0 →
      h.fin = none → h.stop = none → s.m.chQuiet n = true → h.desc.dir = 0 → h.desc.bhdl = false → h.desc.hidx = false →
      h.moved + h.arrived.length < h.desc.length →
      Completes .dmaSectorCheck s fun t =>
        (∃ x, t.dma.chans[n] = some x ∧ x.moved = h.moved + h.arrived.length ∧ x.fin = none ∧ x.cause = 0) ∧
        t.buf = (s.m.writeBytes (h.desc.baddr + h.moved) h.arrived).buf) ∧
    (∀ h e, s.m.dma.chans[n] = some h → h.step = .status → h.fin = some e → h.cause = 0 → s.m.chQuiet n = true →
      Completes .dmaSectorCheck s fun t =>
        t.dma.chans[n] = none ∧ t.get (DMA_CH_STAT_STATE n.val) = 0 ∧ t.bitAt DMA_STAT_ACTIVE n.val = false ∧
        (h.desc.irq = true → (112 + h.ring.val) ∈ t.reports)) ∧
    (∀ data, (∀ h, s.m.dma.chans[n] = some h → h.read = none) → Yields (.hostReadCompletion n data) s s.m) ∧
    (∀ h r, s.m.dma.chans[n] = some h → h.read = some r →
      (h.desc.bhdl = true ∨ h.arrived = [] → Completes (.hostReadCompletion n none) s fun t =>
        t.get (DMA_CH_STAT_STATE n.val) = 4 ∧ t.bitAt DMA_STAT_HALTED n.val = true ∧
        ∃ x, t.dma.chans[n] = some x ∧ x.cause = 1 ∧ x.arrived = [] ∧ x.read = none) ∧
      (∀ bs, bs.length < r.2 → Completes (.hostReadCompletion n (some bs)) s fun t =>
        t.dma.chans[n] = some { h with arrived := h.arrived ++ bs, read := some (r.1 + bs.length, r.2 - bs.length) } ∧
        t.buf = s.m.buf) ∧
      (∀ bs, r.2 ≤ bs.length → h.desc.unitSize h.moved ≤ h.arrived.length + r.2 →
        Completes (.hostReadCompletion n (some bs)) s fun t =>
          t.dma.chans[n] = some { h with arrived := h.arrived ++ bs.take r.2, read := none, step := .unit })) ∧
    (∀ r h, DmaRound.next s.m.dmaWeight (fun l c => s.m.dmaLevel c == l &&
        (s.m.get (DMA_CH_STAT_STATE c.val) == 2 && (match s.m.dma.chans[c] with
          | some h => h.fin.isSome && h.cause == 0 && h.step == .host
          | none => false))) 5 s.m.dma.host = some (n, r) → s.m.dma.chans[n] = some h →
      Completes .readbackIssue s fun t =>
        t.get (DMA_CH_STAT_STATE n.val) = 3 ∧ t.dma.chans[n] = some { h with since := s.m.clock } ∧
        (∀ c, c ≠ n → t.dma.chans[c] = s.m.dma.chans[c]) ∧
        t.out = .hostRead ⟨false, false, false⟩ h.desc.port (h.last.getD 0 / 4 * 4) 4 :: s.m.out) ∧
    (s.m.get (DMA_CH_STAT_STATE n.val) ≠ 3 → ∀ ok, Yields (.readbackComplete n ok) s s.m) ∧
    (∀ h e, s.m.get (DMA_CH_STAT_STATE n.val) = 3 → s.m.dma.chans[n] = some h → h.fin = some e →
      (Completes (.readbackComplete n true) s fun t =>
        t.get (DMA_CH_STAT_STATE n.val) = 5 ∧ ∃ x, t.dma.chans[n] = some x ∧ x.fin = some e ∧ x.step = .status) ∧
      Completes (.readbackComplete n false) s fun t =>
        t.get (DMA_CH_STAT_STATE n.val) = 4 ∧ ∃ x, t.dma.chans[n] = some x ∧ x.cause = 2 ∧ x.fin = some e) ∧
    (∀ h, s.m.dma.chans[n] = some h → 11200 * timeoutUs (s.m.host.ports[h.desc.port]).cto * 9 / 10 ≤ s.m.clock - h.since →
      h.since ≤ s.m.clock →
      (s.m.get (DMA_CH_STAT_STATE n.val) = 3 → Completes (.completionTimeout n) s fun t =>
        t.get (DMA_CH_STAT_STATE n.val) = 4 ∧ (∃ x, t.dma.chans[n] = some x ∧ x.cause = 2) ∧
        t.reports.getLast? = some (96 + n.val)) ∧
      (∀ r, s.m.get (DMA_CH_STAT_STATE n.val) ≠ 3 → h.read = some r → h.desc.bhdl = true ∨ h.arrived = [] →
        Completes (.completionTimeout n) s fun t =>
          t.get (DMA_CH_STAT_STATE n.val) = 4 ∧ (∃ x, t.dma.chans[n] = some x ∧ x.cause = 1) ∧
          t.reports.getLast? = some (96 + n.val))) ∧
    (∀ h, s.m.dma.chans[n] = some h → s.m.clock < h.since + timeoutUs (s.m.host.ports[h.desc.port]).cto * 11200 * 9 / 10 →
      Yields (.completionTimeout n) s s.m)

/-- TRAIN_EN_WRITE, LINK_UP, LINK_DOWN, PERST_ASSERT, PERST_DEASSERT, HOT_RESET, FUNCTION_LEVEL_RESET, RECEIVED_ERROR,
ASPM_L1_ENTRY, ASPM_L1_EXIT and D3HOT_TRANSITION (R256, R259, R261, R262, R279–R281). Training is enabled by port; a
link trains to a speed and width that the port supports. A reset of a port latches its cause, makes its controller not
ready and abandons its commands. A received error is logged and counted. L1 is entered where it is enabled, its
substates where they are too, L1.2 while the latency of the last LTR message is at least the threshold. It concludes
that exec answers a next state, with the effect of the command itself, under conditions on the state and the operands
alone, for: trainEnWrite, linkUp, linkDown, perstAssert, hotReset, functionLevelReset, receivedError, aspmL1Entry,
d3hotTransition, aspmL1Exit, perstDeassert. -/
def Obligations.HostLink : Prop :=
  ∀ (s : State) (p : PortId),
    (∀ en0 en1, (en0 = true ∨ s.m.is (HIF_LINK_UP 0) = false) → (en1 = true ∨ s.m.is (HIF_LINK_UP 1) = false) →
      Completes (.trainEnWrite en0 en1) s fun t =>
        t.is HIF_CTRL_TRAIN_EN0 = en0 ∧ t.is HIF_CTRL_TRAIN_EN1 = en1 ∧ t.host = s.m.host) ∧
    (s.m.clockGood 38 = true → ∀ (speed : Fin 6) (width : Fin 5), s.m.mayTrain p = true → s.m.is (HIF_LINK_UP p.val) = false →
      1 ≤ speed.val → speed.val ≤ s.m.maxSpeed → (width.val = 1 ∨ width.val = 2 ∨ (width.val = 4 ∧ s.m.dual = false)) →
      Completes (.linkUp p speed width) s fun t =>
        t.is (HIF_LINK_UP p.val) = true ∧ t.get (HIF_LINK_SPEED p.val) = speed.val ∧
        t.get (HIF_LINK_WIDTH p.val) = width.val) ∧
    (s.m.is (HIF_LINK_UP p.val) = true → Sound s.m p → Completes (.linkDown p) s fun t =>
      t.is (HIF_LINK_UP p.val) = false ∧ t.is (HIF_RSTCAUSE_LINKDOWN p.val) = true ∧
      (t.host.ctrls[p]).rdy = false ∧ (t.host.ctrls[p]).sqs = [] ∧ (t.host.ctrls[p]).cqs = [] ∧
      ∀ c ∈ t.cmd.table, c.ctrl ≠ p) ∧
    ((s.m.host.ports[p]).perst = false → Sound s.m p → Completes (.perstAssert p) s fun t =>
      (t.host.ports[p]).perst = true ∧ t.is (HIF_LINK_UP p.val) = false ∧ t.is (HIF_RSTCAUSE_PERST p.val) = true ∧
      (t.host.ctrls[p]).rdy = false ∧ (t.host.ctrls[p]).sqs = [] ∧ ∀ c ∈ t.cmd.table, c.ctrl ≠ p) ∧
    (Completes (.perstDeassert p) s fun t => (t.host.ports[p]).perst = false ∧ t.host.ctrls = s.m.host.ctrls ∧ t.regs = s.m.regs) ∧
    (s.m.is (HIF_LINK_UP p.val) = true → Sound s.m p →
      (Completes (.hotReset p) s fun t =>
        t.is (HIF_RSTCAUSE_HOT p.val) = true ∧ t.is (HIF_LINK_UP p.val) = true ∧ (t.host.ctrls[p]).rdy = false ∧
        (t.host.ports[p]).mps = 128 ∧ ∀ c ∈ t.cmd.table, c.ctrl ≠ p) ∧
      Completes (.functionLevelReset p) s fun t =>
        t.is (HIF_RSTCAUSE_FLR p.val) = true ∧ t.is (HIF_LINK_UP p.val) = true ∧ (t.host.ctrls[p]).rdy = false ∧
        (t.host.ports[p]).mps = 128 ∧ ∀ c ∈ t.cmd.table, c.ctrl ≠ p) ∧
    (s.m.is (HIF_LINK_UP p.val) = false → Yields (.linkDown p) s s.m ∧ Yields (.hotReset p) s s.m ∧
      Yields (.functionLevelReset p) s s.m) ∧
    (s.m.clockGood 38 = true →
      (∀ e : LinkError, Completes (.receivedError p e) s fun t =>
        (if e.aer.1 = true then
          (t.host.ports[p]).aerCorr = (s.m.host.ports[p]).aerCorr ||| 2 ^ e.aer.2 ∧
          t.get (HIF_AERCNT_CORR p.val) = min (s.m.get (HIF_AERCNT_CORR p.val) + 1) (2 ^ (HIF_AERCNT_CORR p.val).w - 1) ∧
          t.reports = s.m.reports ++ [138 + p.val]
        else
          (t.host.ports[p]).aerUnc = (s.m.host.ports[p]).aerUnc ||| 2 ^ e.aer.2 ∧
          t.get (HIF_AERCNT_UNCORR p.val) = min (s.m.get (HIF_AERCNT_UNCORR p.val) + 1) (2 ^ (HIF_AERCNT_UNCORR p.val).w - 1) ∧
          t.reports = s.m.reports ++ [136 + p.val]) ∧
        t.host.ctrls = s.m.host.ctrls) ∧
      (∀ sub : Fin 3, (s.m.host.ports[p]).aspmL1 = true → s.m.is (HIF_LINK_UP p.val) = true →
        s.m.get (HIF_LINK_PMSTATE p.val) = 0 → (sub = 1 → (s.m.host.ports[p]).l11 = true) →
        (sub = 2 → (s.m.host.ports[p]).l12 = true ∧ (s.m.host.ports[p]).l12Thr ≤ 1000 * (s.m.host.ports[p]).ltr) →
        Completes (.aspmL1Entry p sub) s fun t => t.get (HIF_LINK_PMSTATE p.val) = 1 + sub.val ∧ t.host = s.m.host) ∧
      (∀ sub : Fin 3, (s.m.host.ports[p]).aspmL1 = false ∨ (sub = 1 ∧ (s.m.host.ports[p]).l11 = false) ∨
          (sub = 2 ∧ ((s.m.host.ports[p]).l12 = false ∨ 1000 * (s.m.host.ports[p]).ltr < (s.m.host.ports[p]).l12Thr)) →
        Yields (.aspmL1Entry p sub) s s.m) ∧
      (1 ≤ s.m.get (HIF_LINK_PMSTATE p.val) → s.m.get (HIF_LINK_PMSTATE p.val) ≤ 3 →
        Completes (.aspmL1Exit p) s fun t => t.get (HIF_LINK_PMSTATE p.val) = 0 ∧ t.host = s.m.host) ∧
      ∀ d3, Completes (.d3hotTransition p d3) s fun t =>
        (t.host.ports[p]).d3hot = d3 ∧ t.get (HIF_LINK_PMSTATE p.val) = if d3 = true then 4 else 0)

/-- CC_EN_SET, CC_EN_CLEAR, SHUTDOWN_NORMAL, SHUTDOWN_ABRUPT, SHUTDOWN_COMPLETE, NSSR_WRITE, SQ_TAIL_DOORBELL,
CQ_HEAD_DOORBELL and FETCH_EN_WRITE (R264, R265, R270, R276, R279–R282). Enabling with legal values makes the controller
ready with its two admin queues, and with others raises CFS. A reset by CC.EN = 0 keeps AQA, ASQ and ACQ. A doorbell of
a queue that does not exist, or past its end, is flagged and moves nothing. It concludes that exec answers a next state,
with the effect of the command itself, under conditions on the state and the operands alone, for: ccEnSet, ccEnClear,
shutdownNormal, shutdownAbrupt, shutdownComplete, nssrWrite, sqTailDoorbell, cqHeadDoorbell, fetchEnWrite. -/
def Obligations.ControllerRegisters : Prop :=
  ∀ (s : State) (p : PortId), s.m.clockGood 38 = true →
    (∀ cc : Word, (s.m.host.ctrls[p]).cc.getLsbD 0 = false →
      (((s.m.host.ctrls[p]).enableOk (cc ||| 1) = true → s.m.rst.coresUp = true →
        Completes (.ccEnSet p cc) s fun t =>
          (t.host.ctrls[p]).rdy = true ∧ (t.host.ctrls[p]).cc = cc ||| 1 ∧ t.is (HIF_CC_RDY p.val) = true ∧
          (t.host.ctrls[p]).sqs.map (fun q => (q.id, q.size, q.base, q.tail, q.head)) =
            [(0, getBits (s.m.host.ctrls[p]).aqa 0 12 + 1, (s.m.host.ctrls[p]).asq, 0, 0)] ∧
          (t.host.ctrls[p]).cqs.map (fun q => (q.id, q.size, q.base, q.tail, q.head)) =
            [(0, getBits (s.m.host.ctrls[p]).aqa 16 12 + 1, (s.m.host.ctrls[p]).acq, 0, 0)])) ∧
      (s.m.rst.coresUp = false → Completes (.ccEnSet p cc) s fun t =>
        (t.host.ctrls[p]).cc = cc ||| 1 ∧ (t.host.ctrls[p]).rdy = (s.m.host.ctrls[p]).rdy ∧
        (t.host.ctrls[p]).sqs = (s.m.host.ctrls[p]).sqs) ∧
      ((s.m.host.ctrls[p]).enableOk (cc ||| 1) = false → s.m.rst.coresUp = true →
        Completes (.ccEnSet p cc) s fun t =>
          (t.host.ctrls[p]).cfsOwn = true ∧ (t.host.ctrls[p]).rdy = (s.m.host.ctrls[p]).rdy ∧ t.is (HIF_CC_CFS p.val) = true)) ∧
    ((s.m.host.ctrls[p]).cc.getLsbD 0 = true → Sound s.m p → Completes (.ccEnClear p) s fun t =>
      (t.host.ctrls[p]).cc = (s.m.host.ctrls[p]).cc &&& ~~~1 ∧ (t.host.ctrls[p]).rdy = false ∧
      (t.host.ctrls[p]).aqa = (s.m.host.ctrls[p]).aqa ∧ (t.host.ctrls[p]).asq = (s.m.host.ctrls[p]).asq ∧
      (t.host.ctrls[p]).acq = (s.m.host.ctrls[p]).acq ∧ (t.host.ctrls[p]).sqs = [] ∧
      t.is (HIF_RSTCAUSE_CC_EN p.val) = true ∧ ∀ c ∈ t.cmd.table, c.ctrl ≠ p) ∧
    ((s.m.host.ctrls[p]).rdy = true →
      (Completes (.shutdownNormal p) s fun t =>
        (t.host.ctrls[p]).shst = 1 ∧ t.get (HIF_CC_SHST p.val) = 1 ∧ t.cmd.table = s.m.cmd.table) ∧
      Completes (.shutdownAbrupt p) s fun t =>
        (t.host.ctrls[p]).shst = 1 ∧ t.get (HIF_CC_SHST p.val) = 1 ∧ ∀ c ∈ t.cmd.table, c.ctrl ≠ p) ∧
    ((s.m.host.ctrls[p]).shst = 1 → s.m.allDestaged = true → (∀ c ∈ s.m.cmd.table, c.ctrl = p → c.isAer = true) →
      Completes (.shutdownComplete p) s fun t => (t.host.ctrls[p]).shst = 2 ∧ t.get (HIF_CC_SHST p.val) = 2) ∧
    ((s.m.host.ctrls[p]).shst ≠ 1 ∨ s.m.allDestaged = false → Yields (.shutdownComplete p) s s.m) ∧
    (∀ w, w ≠ 0x4E564D65 → Yields (.nssrWrite w) s s.m) ∧
    (Sound s.m 0 → Sound s.m 1 → Completes (.nssrWrite 0x4E564D65) s fun t =>
      (t.host.ctrls[p]).nssro = true ∧ (t.host.ctrls[p]).rdy = false ∧ t.is (HIF_RSTCAUSE_NSSR p.val) = true ∧
      t.is (HIF_LINK_UP p.val) = false) ∧
    (∀ qid v : BitVec 16, (∀ q ∈ (s.m.host.ctrls[p]).sqs, q.id ≠ qid.toNat) →
      Completes (.sqTailDoorbell p qid v) s fun t => t.is QSQ_ERR_DB_NOQ = true ∧
        (t.host.ctrls[p]).sqs = (s.m.host.ctrls[p]).sqs) ∧
    (∀ (qid v : BitVec 16) q, (s.m.host.ctrls[p]).sqs.find? (·.id == qid.toNat) = some q →
      (q.size ≤ v.toNat → Completes (.sqTailDoorbell p qid v) s fun t => t.is QSQ_ERR_DB_VALUE = true ∧
        (t.host.ctrls[p]).sqs = (s.m.host.ctrls[p]).sqs) ∧
      (v.toNat < q.size → Completes (.sqTailDoorbell p qid v) s fun t =>
        (t.host.ctrls[p]).sqs = (s.m.host.ctrls[p]).sqs.map fun x => if x.id = qid.toNat then { x with tail := v.toNat } else x)) ∧
    (∀ qid v : BitVec 16, (∀ q ∈ (s.m.host.ctrls[p]).cqs, q.id ≠ qid.toNat) →
      Completes (.cqHeadDoorbell p qid v) s fun t => t.is QSQ_ERR_DB_NOQ = true ∧
        (t.host.ctrls[p]).cqs = (s.m.host.ctrls[p]).cqs) ∧
    (∀ (qid v : BitVec 16) q, (s.m.host.ctrls[p]).cqs.find? (·.id == qid.toNat) = some q → v.toNat < q.size →
      (v.toNat + q.size - q.head) % q.size ≤ (q.tail + q.size - q.head) % q.size →
      Completes (.cqHeadDoorbell p qid v) s fun t =>
        (t.host.ctrls[p]).cqs = (s.m.host.ctrls[p]).cqs.map fun x => if x.id = qid.toNat then { x with head := v.toNat } else x) ∧
    (Running 19 38 s.m → ∀ en0 en1, Completes (.fetchEnWrite en0 en1) s fun t =>
      t.is QSQ_CTRL_FETCH_EN0 = en0 ∧ t.is QSQ_CTRL_FETCH_EN1 = en1 ∧ t = { s.m with regs := t.regs })

/-- COMPLETION_POST, INTERRUPT_COALESCING_TIMEOUT, QUIET_POINT and FLUSH (R261, R272–R275, R284). A decided command's
entry goes to host memory at the tail of its completion queue, with its phase, and the command leaves the table; it
waits where the queue is full, a durable write is not destaged, the controller shows CFS, its port is in D3hot, or the
mode is M9; a failed post raises CFS. The end of a coalescing time sends the interrupts that were held. At a quiet point
the Caller freezes. A Flush ends once no dirty unit, write or open parity group is left, and waits while one is.
ARBITER_GRANT, FETCH and FETCH_COMPLETE (R16, R268–R270). The grant stage takes one offer, alternating between the
controllers when both offer, and numbers its entries; the entries that arrive belong to those numbers; a failed fetch is
made once more, and a second failure raises CFS. It concludes that exec answers a next state, with the effect of the
command itself, under conditions on the state and the operands alone, for: arbiterGrant, fetch, fetchComplete,
completionPost, quietPoint, flush, interruptCoalescingTimeout. -/
def Obligations.FetchAndCompletion : Prop :=
  (∀ (s : State) (fsn : BitVec 32),
    (Running 19 38 s.m → ∀ c r sq cq, s.m.command fsn.toNat = some c → c.result = some r →
      (s.m.host.ctrls[c.ctrl]).sqs.find? (·.id == c.sqid) = some sq →
      (s.m.host.ctrls[c.ctrl]).cqs.find? (·.id == sq.cq) = some cq →
      ((cq.tail + 1) % cq.size = cq.head ∨ s.m.isDurable c = false ∨ s.m.cfs c.ctrl = true ∨
          (s.m.host.ports[c.ctrl]).d3hot = true ∨ s.m.mode = 9 → ∀ ok, Yields (.completionPost fsn ok) s s.m) ∧
      ((cq.tail + 1) % cq.size ≠ cq.head → s.m.isDurable c = true → s.m.cfs c.ctrl = false →
        (s.m.host.ports[c.ctrl]).d3hot = false → s.m.mode ≠ 9 →
        (Completes (.completionPost fsn true) s fun t =>
          .completion ⟨false, false, false⟩ c.ctrl (cq.base + 16 * cq.tail) (cqBytes r.dw0 sq.fetched sq.id c.cid cq.phase r.status) ∈ t.out ∧
          (∀ d ∈ t.cmd.table, d.fsn ≠ fsn.toNat) ∧
          ∀ q ∈ (t.host.ctrls[c.ctrl]).cqs, q.id = cq.id → q.tail = (cq.tail + 1) % cq.size ∧
            q.phase = if (cq.tail + 1) % cq.size = 0 then !cq.phase else cq.phase) ∧
        Completes (.completionPost fsn false) s fun t =>
          (t.host.ctrls[c.ctrl]).cfsOwn = true ∧ t.is (HIF_CC_CFS c.ctrl.val) = true ∧ t.cmd = s.m.cmd)) ∧
    (∀ p : PortId, Completes (.interruptCoalescingTimeout p) s fun t =>
      (t.host.ctrls[p]).coalescing = [] ∧
      ((s.m.host.ports[p]).msix = true → ∀ v ∈ (s.m.host.ctrls[p]).coalescing, .msix ⟨false, false, false⟩ p v.1 ∈ t.out)) ∧
    (s.m.cmd.quiet = none → Yields .quietPoint s s.m) ∧
    (∀ f slot, s.m.cmd.quiet = some (f, slot) → s.m.isQuiet f = true →
      Completes .quietPoint s fun t => t.is CAL_CTRL_FREEZE = true ∧ t.cmd = s.m.cmd) ∧
    (∀ c, s.m.running fsn.toNat 1 0x00 = some c → s.m.pwr.dirty = [] → (∀ d ∈ s.m.cmd.table, d.kind ≠ some .write) →
      (∀ a : Actuator, (s.m.media.wpath[a]).groups = []) → Completes (.flush fsn) s fun t => Ended t c.fsn stOk) ∧
    (∀ c u, s.m.running fsn.toNat 1 0x00 = some c → c.nsid = 0xFFFFFFFF → u ∈ s.m.pwr.dirty → u.isMeta = false → u.fsn = none →
      Yields (.flush fsn) s s.m)) ∧
  (∀ (s : State) (k : Fin 4), Running 19 38 s.m →
    (s.m.idleQs = none ∨ (s.m.offer 0 = none ∧ s.m.offer 1 = none) → Yields .arbiterGrant s s.m) ∧
    (∀ (p : PortId) x n, s.m.idleQs = some k → s.m.offer p = some (x, n) →
      (s.m.offer (1 - p) = none ∨ s.m.host.lastCtrl ≠ p) →
      Completes .arbiterGrant s fun t =>
        t.get QSQ_FSN_FSN = (s.m.get QSQ_FSN_FSN + n) % 2 ^ 32 ∧ t.host.lastCtrl = p ∧
        t.host.grants[k] = some ⟨p, x.queue.id, n, x.queue.head, (s.m.get QSQ_FSN_FSN + 1) % 2 ^ 32, false, false⟩ ∧
        t.cmd.table = s.m.cmd.table ++ s.m.grantCmds p x.queue ((s.m.get QSQ_FSN_FSN + 1) % 2 ^ 32) n) ∧
    (∀ inp u next g q, AtWord s.m (seqQS k) inp u next → u.alu = 0 → u.xop = 16 → s.m.host.grants[k] = some g →
      (s.m.host.ctrls[g.ctrl]).sqs.find? (·.id == g.sqid) = some q → g.issued = false →
      Completes (.fetch k inp) s fun t =>
        t.host.grants[k] = some { g with issued := true } ∧ t.get (SEQ_STAT_ADDR (seqQS k).val) = next ∧
        (g.count = 1 → q.base % 64 = 0 → (s.m.host.ports[g.ctrl]).mrrs = 512 → g.slot < q.size →
          t.out = .fetch ⟨true, false, false⟩ g.ctrl (q.base + 64 * g.slot) 64 :: s.m.out)) ∧
    (∀ data, (s.m.host.grants[k] = none ∨ ∃ g, s.m.host.grants[k] = some g ∧ g.issued = false) →
      Yields (.fetchComplete k data) s s.m) ∧
    (∀ g, s.m.host.grants[k] = some g → g.issued = true →
      (∀ sqes, Completes (.fetchComplete k (some sqes)) s fun t =>
        t.host.grants[k] = none ∧
        ∀ c ∈ t.cmd.table, (c.fsn + 2 ^ 32 - g.fsn) % 2 ^ 32 < g.count →
          c.stage = .fetched ∧ c.sqe = sqes.getD ((c.fsn + 2 ^ 32 - g.fsn) % 2 ^ 32) 0) ∧
      (g.retried = false → Completes (.fetchComplete k none) s fun t =>
        t.is QSQ_ERR_FETCH_FAIL = true ∧ t.host.grants[k] = some { g with issued := false, retried := true } ∧
        t.cmd = s.m.cmd) ∧
      (g.retried = true → Completes (.fetchComplete k none) s fun t =>
        t.is QSQ_ERR_FETCH_FATAL = true ∧ t.host.grants[k] = none ∧ (t.host.ctrls[g.ctrl]).cfsOwn = true ∧
        ∀ c ∈ t.cmd.table, g.count ≤ (c.fsn + 2 ^ 32 - g.fsn) % 2 ^ 32)))

/-- CHECK, DISPATCH, READ_AHEAD_ISSUE, ANTICIPATORY_SEEK and SPEC_COPY_EXPIRE (R19, R20, R22, R26, R271, R277). Entries
pass in fetch sequence order; an opcode without a valid entry, or one that a restart discards, is decided at the check;
a read of a good range passes with that range; a command whose turn it is goes to its core, or ends with what the check
decided. A read-ahead makes a copy of a range that no dirty data and no live write meets; a copy whose sectors have been
unbound for 500 ms goes; an anticipatory seek moves only an actuator that no checked command moves. It concludes that
exec answers a next state, with the effect of the command itself, under conditions on the state and the operands alone,
for: check, dispatch, readAheadIssue, anticipatorySeek, specCopyExpire. -/
def Obligations.CheckAndDispatch : Prop :=
  ∀ (s : State) (k : Fin 4) (inp : Bool),
    (Running 19 38 s.m →
      (∀ dsm, s.m.nextToCheck = none → Yields (.check k inp dsm) s s.m.refreshKeys) ∧
      (∀ u next dsm c, AtWord s.m (seqQS k) inp u next → u.alu = 0 → u.xop = 17 → s.m.nextToCheck = some c →
        Completes (.check k inp dsm) s fun t =>
          (t.eng.seqs[seqQS k]).checked = some c.fsn ∧ t.get (SEQ_STAT_ADDR (seqQS k).val) = next ∧
          (c.discard = true → Passed t c.fsn (some stAbort)) ∧
          (c.discard = false → s.m.opcodeValid c = false → Passed t c.fsn (some stOpcode)) ∧
          (c.discard = false → s.m.opcodeValid c = true → Mach.ownCheck c = false → c.admin = true → Passed t c.fsn none) ∧
          (c.discard = false → s.m.opcodeValid c = true → c.admin = false → c.readIo = true →
            s.m.fieldStatus c [⟨c.nsid, c.firstLba, c.lbas⟩] = none →
            (∀ l, c.firstLba ≤ l → l < c.firstLba + c.lbas → s.m.marked c.nsid l = false) →
            Passed t c.fsn none ∧ ∃ d, t.command c.fsn = some d ∧ d.kind = some .read ∧
              d.ranges = [⟨c.nsid, c.firstLba, c.lbas⟩])) ∧
      (∀ (fsn : BitVec 32) c, s.m.command fsn.toNat = some c → (∀ q ∈ s.m.eng.seqs.toList, q.checked ≠ some fsn.toNat) →
        c.stage = .checked → c.live = true → s.m.cmd.quiet = none →
        (∀ d ∈ s.m.cmd.table, d.ctrl = c.ctrl → d.sqid = c.sqid → fsnBefore d.fsn c.fsn = false) →
        (∀ q ∈ (s.m.host.ctrls[c.ctrl]).sqs, q.id = c.sqid → q.halted = none) →
        (∀ v, c.verdict = some v → Completes (.dispatch none inp fsn) s fun t => Ended t c.fsn v) ∧
        (c.verdict = none → s.m.opcodeValid c = false →
          Completes (.dispatch none inp fsn) s fun t => Ended t c.fsn stOpcode) ∧
        (c.verdict = none → s.m.opcodeValid c = true → s.m.heldByAction c = false → s.m.mode = 3 →
          (∀ n, s.m.nsOf c.nsid = some n → s.m.anaLost n = false) →
          Completes (.dispatch none inp fsn) s fun t => ∃ d, t.command c.fsn = some d ∧ d.stage = .dispatched)) ∧
      ∀ u next fsn c v, AtWord s.m (seqQS k) inp u next → u.alu = 0 → u.xop = 18 →
        (s.m.eng.seqs[seqQS k]).checked = some c.fsn → s.m.command c.fsn = some c → c.fsn < 2 ^ 32 →
        c.stage = .checked → c.live = true → s.m.cmd.quiet = none → c.verdict = some v →
        (∀ d ∈ s.m.cmd.table, d.ctrl = c.ctrl → d.sqid = c.sqid → fsnBefore d.fsn c.fsn = false) →
        (∀ q ∈ (s.m.host.ctrls[c.ctrl]).sqs, q.id = c.sqid → q.halted = none) →
        Completes (.dispatch (some k) inp fsn) s fun t =>
          Ended t c.fsn v ∧ (t.eng.seqs[seqQS k]).checked = none ∧ t.get (SEQ_STAT_ADDR (seqQS k).val) = next) ∧
    (∀ (nsid : BitVec 4) (first : BitVec 40) (count : Fin 257) n, s.m.nsOf nsid.toNat = some n → 1 ≤ count.val →
      first.toNat + count.val ≤ n.nsze → s.m.cmd.specs.length < 1024 → s.m.cmd.quiet = none →
      (∀ u ∈ s.m.pwr.dirty, u.nsid ≠ nsid.toNat ∨ u.lba < first.toNat ∨ first.toNat + count.val ≤ u.lba) →
      (∀ c ∈ s.m.cmd.table, c.live = true → c.kind = some .write → ∀ r ∈ c.ranges,
        LbaRange.meets ⟨nsid.toNat, first.toNat, count.val⟩ r = false) →
      (∀ l, first.toNat ≤ l → l < first.toNat + count.val →
        (s.m.get SEC_SLOTS_LOADED).testBit (s.m.lockOf nsid.toNat l).val = true) →
      Completes (.readAheadIssue nsid first count) s fun t =>
        t.cmd.specs = s.m.cmd.specs ++
          [⟨s.m.cmd.nextCopy, nsid.toNat, first.toNat, s.m.get QSQ_FSN_FSN, List.replicate count.val .filling, s.m.clock⟩] ∧
        t = { s.m with cmd := t.cmd }) ∧
    (∀ nsid first count, s.m.nsOf (nsid : BitVec 4).toNat = none → Yields (.readAheadIssue nsid first count) s s.m) ∧
    (∀ (a : Actuator) (target : Word),
      ((s.m.motion.srv[a]).faulted = true ∨ s.m.is (QDR_ACT_DEPOP a.val) = true ∨ s.m.is (QDR_ACT_PARKED a.val) = true ∨
          (s.m.profileIdle a = false ∧ s.m.cmd.seeking[a] = false) ∨ (s.m.media.wpath[a]).writer.isSome = true ∨
          s.m.ladderKeeps a target.toNat = true → Yields (.anticipatorySeek a target) s s.m) ∧
      ((s.m.motion.srv[a]).faulted = false → s.m.is (QDR_ACT_DEPOP a.val) = false → s.m.is (QDR_ACT_PARKED a.val) = false →
        (s.m.profileIdle a = true ∨ s.m.cmd.seeking[a] = true) → (s.m.media.wpath[a]).writer = none →
        s.m.ladderKeeps a target.toNat = false → Completes (.anticipatorySeek a target) s fun t =>
          t.cmd.seeking[a] = true ∧ t.get (PRG_TGT_TARGET a.val) = target.toNat ∧ t.is (SRV_STAT_WSAFE a.val) = false ∧
          (t.motion.prg[a]).planning = ((target.toNat : Int), decide (s.m.get (PRG_STAT_STATE a.val) = 3)) ::
            (s.m.motion.prg[a]).planning)) ∧
    (∀ i, s.m.cmd.specs[i]? = none → Yields (.specCopyExpire i) s s.m) ∧
    (∀ i x, s.m.cmd.specs[i]? = some x → s.m.clock < x.since + 5600000000 → Yields (.specCopyExpire i) s s.m) ∧
    (∀ i x, s.m.cmd.specs[i]? = some x → (∀ f h, SpecSector.bound f h ∉ x.sectors) → x.since + 5600000000 ≤ s.m.clock →
      Completes (.specCopyExpire i) s fun t => t.cmd.specs = s.m.cmd.specs.eraseIdx i)

/-- CREATE_IO_SQ, CREATE_IO_CQ, DELETE_IO_SQ, DELETE_IO_CQ, QUEUE_RESTART_RESUME and QUEUE_RESTART_DISCARD (R266, R267,
R278). A creation with a taken or illegal identifier, size or completion queue is refused with its status; a completion
queue with submission queues is not deleted; a submission queue goes once its commands have ended; a restart releases a
halted queue. It concludes that exec answers a next state, with the effect of the command itself, under conditions on
the state and the operands alone, for: deleteIoSq, createIoSq, deleteIoCq, createIoCq, queueRestartResume,
queueRestartDiscard. -/
def Obligations.QueueCommands : Prop :=
  ∀ (s : State) (fsn : BitVec 32) (c : Cmd),
    (s.m.running fsn.toNat 0 0x01 = some c →
      (∀ x, Mach.queueRefused c ((s.m.host.ctrls[c.ctrl]).sqs.any (·.id == c.dw 10 0 16)) = some x →
        Completes (.createIoSq fsn) s fun t => Ended t c.fsn x.status ∧ t.host = s.m.host) ∧
      (Mach.queueRefused c ((s.m.host.ctrls[c.ctrl]).sqs.any (·.id == c.dw 10 0 16)) = none →
        ((∀ q ∈ (s.m.host.ctrls[c.ctrl]).cqs, q.id = 0 ∨ q.id ≠ c.dw 11 16 16) →
          Completes (.createIoSq fsn) s fun t => Ended t c.fsn stCq ∧ t.host = s.m.host) ∧
        ((∃ q ∈ (s.m.host.ctrls[c.ctrl]).cqs, q.id = c.dw 11 16 16 ∧ q.id ≠ 0) →
          c.dw 6 0 64 % s.m.pageSize c.ctrl = 0 → Completes (.createIoSq fsn) s fun t =>
            Ended t c.fsn stOk ∧ (t.host.ctrls[c.ctrl]).sqs = (s.m.host.ctrls[c.ctrl]).sqs ++
              [⟨c.dw 10 0 16, c.dw 10 16 16 + 1, c.dw 6 0 64, c.dw 11 16 16, c.dw 11 1 2, 0, 0, 0, none, 0, false⟩]))) ∧
    (s.m.running fsn.toNat 0 0x05 = some c →
      (∀ x, Mach.queueRefused c ((s.m.host.ctrls[c.ctrl]).cqs.any (·.id == c.dw 10 0 16)) = some x →
        Completes (.createIoCq fsn) s fun t => Ended t c.fsn x.status ∧ t.host = s.m.host) ∧
      (Mach.queueRefused c ((s.m.host.ctrls[c.ctrl]).cqs.any (·.id == c.dw 10 0 16)) = none → c.dw 11 16 16 ≤ 128 →
        c.dw 6 0 64 % s.m.pageSize c.ctrl = 0 → Completes (.createIoCq fsn) s fun t =>
          Ended t c.fsn stOk ∧ (t.host.ctrls[c.ctrl]).cqs = (s.m.host.ctrls[c.ctrl]).cqs ++
            [⟨c.dw 10 0 16, c.dw 10 16 16 + 1, c.dw 6 0 64, c.dw 11 16 16, c.dw 11 1 1 == 1, 0, 0, true⟩])) ∧
    (s.m.running fsn.toNat 0 0x04 = some c → c.dw 10 0 16 ≠ 0 → (∃ q ∈ (s.m.host.ctrls[c.ctrl]).cqs, q.id = c.dw 10 0 16) →
      ((∃ q ∈ (s.m.host.ctrls[c.ctrl]).sqs, q.cq = c.dw 10 0 16) →
        Completes (.deleteIoCq fsn) s fun t => Ended t c.fsn stQueueDelete ∧ t.host = s.m.host) ∧
      ((∀ q ∈ (s.m.host.ctrls[c.ctrl]).sqs, q.cq ≠ c.dw 10 0 16) →
        Completes (.deleteIoCq fsn) s fun t => Ended t c.fsn stOk ∧
          ∀ q, q ∈ (t.host.ctrls[c.ctrl]).cqs ↔ q ∈ (s.m.host.ctrls[c.ctrl]).cqs ∧ q.id ≠ c.dw 10 0 16)) ∧
    (s.m.running fsn.toNat 0 0x00 = some c → c.dw 10 0 16 ≠ 0 → (∃ q ∈ (s.m.host.ctrls[c.ctrl]).sqs, q.id = c.dw 10 0 16) →
      ((∀ d ∈ s.m.cmd.table, d.ctrl = c.ctrl → d.sqid ≠ c.dw 10 0 16) →
        Completes (.deleteIoSq fsn) s fun t => Ended t c.fsn stOk ∧
          ∀ q, q ∈ (t.host.ctrls[c.ctrl]).sqs ↔ q ∈ (s.m.host.ctrls[c.ctrl]).sqs ∧ q.id ≠ c.dw 10 0 16) ∧
      (∀ d, d ∈ s.m.cmd.table → d.ctrl = c.ctrl → d.sqid = c.dw 10 0 16 → d.live = true → d.stage = .checked →
        Completes (.deleteIoSq fsn) s fun t => Ended t d.fsn stSqDeleted ∧
          ∀ q ∈ (t.host.ctrls[c.ctrl]).sqs, q.id = c.dw 10 0 16 → q.closing = true)) ∧
    (s.m.checking fsn.toNat 0 0xCC = some c →
      (∀ q, c.dw 10 16 1 = 0 → (s.m.host.ctrls[c.ctrl]).sqs.find? (fun q => q.id == c.dw 10 0 16 && q.id != 0) = some q →
        (q.halted = none → Completes (.queueRestartResume fsn) s fun t => Passed t c.fsn (some stNotHalted)) ∧
        (q.halted.isSome = true → Completes (.queueRestartResume fsn) s fun t => Passed t c.fsn (some stOk) ∧
          ∀ x ∈ (t.host.ctrls[c.ctrl]).sqs, x.id = q.id → x.halted = none)) ∧
      (∀ q, c.dw 10 16 1 = 1 → (s.m.host.ctrls[c.ctrl]).sqs.find? (fun q => q.id == c.dw 10 0 16 && q.id != 0) = some q →
        q.halted.isSome = true → Completes (.queueRestartDiscard fsn) s fun t => Passed t c.fsn (some stOk) ∧
          ∀ x ∈ (t.host.ctrls[c.ctrl]).sqs, x.id = q.id → x.halted = none) ∧
      ((∀ q ∈ (s.m.host.ctrls[c.ctrl]).sqs, q.id = 0 ∨ q.id ≠ c.dw 10 0 16) →
        (c.dw 10 16 1 = 0 → Completes (.queueRestartResume fsn) s fun t => Passed t c.fsn (some stQid)) ∧
        (c.dw 10 16 1 = 1 → Completes (.queueRestartDiscard fsn) s fun t => Passed t c.fsn (some stQid))))

/-- GET_LOG_PAGE, IDENTIFY, SET_FEATURES, GET_FEATURES, ABORT and ASYNCHRONOUS_EVENT_REQUEST (R289, R290, R301, Tables
12-5, 12-6, 12-11). A page is returned from its offset, padded to the length asked for; an unknown page, structure or
feature is refused; a feature reads back as it was set; an Abort that finds no command of a halting queue reports that
it aborted nothing; a fifth event request is refused. It concludes that exec answers a next state, with the effect of
the command itself, under conditions on the state and the operands alone, for: getLogPage, identify, abort, setFeatures,
getFeatures, asynchronousEventRequest. -/
def Obligations.AdminRequests : Prop :=
  ∀ (s : State) (fsn : BitVec 32) (c : Cmd),
    (s.m.running fsn.toNat 0 0x02 = some c →
      (c.dw 12 0 64 % 4 ≠ 0 → Completes (.getLogPage (.host fsn) .ok) s fun t => Ended t c.fsn stField) ∧
      (c.dw 12 0 64 % 4 = 0 → 4 * (c.dw 10 16 16 + 65536 * c.dw 11 0 16 + 1) ≤ 4194304 → c.dw 10 0 8 ≠ 0x02 →
        c.dw 10 0 8 ≠ 0xC0 →
        (s.m.logPage c = none → Completes (.getLogPage (.host fsn) .ok) s fun t => Ended t c.fsn stLogPage) ∧
        ∀ page, s.m.logPage c = some page → Completes (.getLogPage (.host fsn) .ok) s fun t =>
          Ended t c.fsn stOk ∧ .returned c.fsn (padTo (4 * (c.dw 10 16 16 + 65536 * c.dw 11 0 16 + 1))
            (page.drop (c.dw 12 0 64))) ∈ t.out) ∧
      ∀ x, Completes (.getLogPage (.host fsn) (.hostErr x)) s fun t => Ended t c.fsn stTransfer ∧ t.out = s.m.out) ∧
    (s.m.running fsn.toNat 0 0x06 = some c →
      (c.dw 10 0 8 = 0x01 → Completes (.identify (.host fsn) .ok) s fun t =>
        Ended t c.fsn stOk ∧ t.out = .returned c.fsn (s.m.idController c.ctrl) :: s.m.out) ∧
      ((s.m.identifyData c).status = stField → Completes (.identify (.host fsn) .ok) s fun t => Ended t c.fsn stField)) ∧
    (s.m.running fsn.toNat 0 0x09 = some c →
      (featureSaves (c.dw 10 0 8) = none → Completes (.setFeatures (.host fsn)) s fun t =>
        Ended t c.fsn stField ∧ t.host = s.m.host ∧ t.cmd.feat = s.m.cmd.feat) ∧
      (c.dw 10 31 1 = 1 → featureSaves (c.dw 10 0 8) = some false → Completes (.setFeatures (.host fsn)) s fun t =>
        Ended t c.fsn stNotSaveable ∧ t.cmd.feat = s.m.cmd.feat) ∧
      (c.dw 10 0 8 = 0x0B → c.dw 10 31 1 = 0 → Completes (.setFeatures (.host fsn)) s fun t =>
        Ended t c.fsn stOk ∧ (t.host.ctrls[c.ctrl]).feat.aec = c.cdw 11) ∧
      (c.dw 10 0 8 = 0x06 → Completes (.setFeatures (.host fsn)) s fun t =>
        Ended t c.fsn stOk ∧ t.cmd.feat.saved.vwc = (c.dw 11 0 1 == 1) ∧
        t.cmd.saved.vwc = if c.dw 10 31 1 = 1 then some (c.dw 11 0 1 == 1) else s.m.cmd.saved.vwc) ∧
      (c.dw 10 0 8 = 0x07 → c.dw 10 31 1 = 0 → (s.m.host.ctrls[c.ctrl]).queued = true →
        Completes (.setFeatures (.host fsn)) s fun t => Ended t c.fsn stSequence ∧ t.host = s.m.host)) ∧
    (s.m.running fsn.toNat 0 0x0A = some c →
      (featureSaves (c.dw 10 0 8) = none → Completes (.getFeatures (.host fsn)) s fun t => Ended t c.fsn stField) ∧
      (c.dw 10 0 8 = 0x0B → c.dw 10 8 3 = 0 → Completes (.getFeatures (.host fsn)) s fun t =>
        ∃ d, t.command c.fsn = some d ∧ d.result = some ⟨stOk, (s.m.host.ctrls[c.ctrl]).feat.aec⟩)) ∧
    (s.m.checking fsn.toNat 0 0x08 = some c →
      (∀ n, n = (s.m.cmd.table.countP fun d => d.admin && d.opcode == 0x08 && d.ctrl == c.ctrl && d.live && d.fsn != c.fsn &&
          fsnBefore d.fsn c.fsn) →
        (4 ≤ n → Completes (.abort fsn) s fun t => Passed t c.fsn (some stAbortLimit)) ∧
        (n < 4 → Completes (.abort fsn) s fun t => Passed t c.fsn none))) ∧
    (s.m.checking fsn.toNat 0 0x08 = none → s.m.running fsn.toNat 0 0x08 = some c →
      (c.target = none → Completes (.abort fsn) s fun t =>
        ∃ d, t.command c.fsn = some d ∧ d.result = some ⟨stOk, 1⟩) ∧
      (∀ d, c.target = some d.fsn → s.m.command d.fsn = some d → d.fsn ≠ c.fsn → d.stage = .checked →
        (∃ q ∈ (s.m.host.ctrls[d.ctrl]).sqs, q.id = d.sqid ∧ q.halted.isSome = true) →
        Completes (.abort fsn) s fun t => Ended t d.fsn stAbort ∧
          ∃ e, t.command c.fsn = some e ∧ e.result = some ⟨stOk, 0⟩)) ∧
    (s.m.running fsn.toNat 0 0x0C = some c → c.fsn ∉ (s.m.host.ctrls[c.ctrl]).aers →
      (4 ≤ (s.m.host.ctrls[c.ctrl]).aers.length → Completes (.asynchronousEventRequest fsn) s fun t =>
        Ended t c.fsn stAerLimit ∧ t.host = s.m.host) ∧
      ((s.m.host.ctrls[c.ctrl]).aers.length < 4 → (s.m.host.ctrls[c.ctrl]).events = [] →
        Completes (.asynchronousEventRequest fsn) s fun t =>
          (t.host.ctrls[c.ctrl]).aers = (s.m.host.ctrls[c.ctrl]).aers ++ [c.fsn] ∧ t.cmd = s.m.cmd))

/-- NAMESPACE_CREATE, NAMESPACE_DELETE, NAMESPACE_ATTACH, NAMESPACE_DETACH and FORMAT_NVM (R291, R293). A creation takes
the lowest free identifier, detached; a refused one makes nothing; attachment changes the listed controllers alone; a
Format passes as a write over the whole namespace and leaves no unit written. It concludes that exec answers a next
state, with the effect of the command itself, under conditions on the state and the operands alone, for:
namespaceCreate, namespaceDelete, namespaceAttach, namespaceDetach, formatNvm. -/
def Obligations.Namespaces : Prop :=
  ∀ (s : State) (fsn : BitVec 32) (c : Cmd),
    (s.m.running fsn.toNat 0 0x0D = some c → c.dw 10 0 4 = 0 → (c.dw 11 24 8 = 0 ∨ c.dw 11 24 8 = 2) → ∀ d : NsCreate,
      (∀ st, s.m.createRefused (c.dw 11 24 8 == 2) d = some st → Completes (.namespaceCreate fsn d .ok) s fun t =>
        Ended t c.fsn st ∧ t.cmd.nss = s.m.cmd.nss) ∧
      (∀ i : Fin 8, s.m.createRefused (c.dw 11 24 8 == 2) d = none → s.m.nsOf (i.val + 1) = none →
        (∀ j : Fin 8, j < i → (s.m.nsOf (j.val + 1)).isSome = true) →
        Completes (.namespaceCreate fsn d .ok) s fun t =>
          (∃ x, t.command c.fsn = some x ∧ x.result = some ⟨stOk, i.val + 1⟩) ∧
          ∃ n, t.nsOf (i.val + 1) = some n ∧ n.nsze = d.nsze.toNat ∧ n.zoned = (c.dw 11 24 8 == 2) ∧
            n.attached = Vector.replicate 2 false ∧ n.written = [] ∧ n.zones = [])) ∧
    (s.m.running fsn.toNat 0 0x0D = some c → c.dw 10 0 4 = 1 → c.nsid ≠ 0xFFFFFFFF →
      (s.m.nsOf c.nsid = none → Completes (.namespaceDelete fsn) s fun t => Ended t c.fsn stNamespace ∧ t.cmd.nss = s.m.cmd.nss) ∧
      ((s.m.nsOf c.nsid).isSome = true → (∀ d ∈ s.m.cmd.table, fsnBefore d.fsn c.fsn = false) →
        Completes (.namespaceDelete fsn) s fun t => Ended t c.fsn stOk ∧ t.nsOf c.nsid = none ∧
          (∀ i, i ≠ c.nsid → t.nsOf i = s.m.nsOf i) ∧ ∀ e ∈ t.cmd.unc, e.nsid ≠ c.nsid)) ∧
    (s.m.running fsn.toNat 0 0x15 = some c → ∀ (ctrls : BitVec 2) n, s.m.nsOf c.nsid = some n →
      (c.dw 10 0 4 = 0 →
        ((∃ p : PortId, ctrls.getLsbD p.val = true ∧ n.attached[p] = true) →
          Completes (.namespaceAttach fsn ctrls .ok) s fun t => Ended t c.fsn stAttached ∧ t.cmd.nss = s.m.cmd.nss) ∧
        ((∀ p : PortId, ctrls.getLsbD p.val = true → n.attached[p] = false) →
          Completes (.namespaceAttach fsn ctrls .ok) s fun t => Ended t c.fsn stOk ∧ ∃ x, t.nsOf c.nsid = some x ∧
            ∀ p : PortId, x.attached[p] = (n.attached[p] || ctrls.getLsbD p.val))) ∧
      (c.dw 10 0 4 = 1 →
        ((∃ p : PortId, ctrls.getLsbD p.val = true ∧ n.attached[p] = false) →
          Completes (.namespaceDetach fsn ctrls .ok) s fun t => Ended t c.fsn stNotAttached ∧ t.cmd.nss = s.m.cmd.nss) ∧
        ((∀ p : PortId, ctrls.getLsbD p.val = true → n.attached[p] = true) →
          Completes (.namespaceDetach fsn ctrls .ok) s fun t => Ended t c.fsn stOk ∧ ∃ x, t.nsOf c.nsid = some x ∧
            ∀ p : PortId, x.attached[p] = (n.attached[p] && !ctrls.getLsbD p.val)))) ∧
    (s.m.checking fsn.toNat 0 0x80 = some c →
      (s.m.cmdNs c = none → Completes (.formatNvm fsn) s fun t => Passed t c.fsn (some stNamespace)) ∧
      ∀ n, s.m.cmdNs c = some n →
        (2 < c.dw 10 0 4 ∨ 3 < c.dw 10 5 3 ∨ 2 < c.dw 10 9 3 → Completes (.formatNvm fsn) s fun t =>
          Passed t c.fsn (some stField) ∧ t.cmd.nss = s.m.cmd.nss) ∧
        (c.dw 10 0 4 = 0 → 1 ≤ c.dw 10 5 3 → c.dw 10 5 3 ≤ 3 → c.dw 10 9 3 ≤ 2 → Completes (.formatNvm fsn) s fun t =>
          Passed t c.fsn (some stFormat) ∧ t.cmd.nss = s.m.cmd.nss) ∧
        (c.dw 10 0 4 ≤ 2 → c.dw 10 5 3 ≤ 3 → c.dw 10 9 3 ≤ 2 → (c.dw 10 5 3 = 0 ∨ c.dw 10 0 4 ≠ 0) →
          Completes (.formatNvm fsn) s fun t => Passed t c.fsn (some stOk) ∧
            (∃ d, t.command c.fsn = some d ∧ d.kind = some .write ∧ d.ranges = [⟨n.nsid, 0, n.nsze⟩]) ∧
            ∃ x, t.nsOf n.nsid = some x ∧ x.written = [] ∧ x.dps = c.dw 10 5 3 ∧
              x.flbas = c.dw 10 0 4 + 16 * c.dw 10 4 1))

/-- FIRMWARE_IMAGE_DOWNLOAD and the FIRMWARE_COMMIT_* rows (R284, R285, R289, R292, R332, R334). A part of an image is
kept at its offset; slot 1 is not written; a bundle that fails verification is refused; an activation names the pending
slot, and a class-0 bundle activated at once stops fetching until the quiet point. A bundle whose security versions lie
below the fuse counts is refused by every commit and passed over at boot. It concludes that exec answers a next state,
with the effect of the command itself, under conditions on the state and the operands alone, for: firmwareImageDownload,
firmwareCommitReplace, firmwareCommitReplaceActivate, firmwareCommitActivate, firmwareCommitActivateNow, bundleSelect.
-/
def Obligations.FirmwareSlots : Prop :=
  ∀ (s : State) (fsn : BitVec 32) (c : Cmd),
    (s.m.running fsn.toNat 0 0x11 = some c → ∀ data,
      (4 * (c.cdw 10 + 1) % 4096 ≠ 0 → Completes (.firmwareImageDownload fsn data .ok) s fun t => Ended t c.fsn stField) ∧
      (4 * (c.cdw 10 + 1) % 4096 = 0 → 4 * c.cdw 11 % 4096 = 0 → 4 * c.cdw 11 + 4 * (c.cdw 10 + 1) ≤ 8388608 →
        Completes (.firmwareImageDownload fsn data .ok) s fun t => Ended t c.fsn stOk ∧
          (t.host.ctrls[c.ctrl]).download = (s.m.host.ctrls[c.ctrl]).download ++
            [(4 * c.cdw 11, padTo (4 * (c.cdw 10 + 1)) data)])) ∧
    (s.m.running fsn.toNat 0 0x10 = some c →
      (∀ b, c.dw 10 3 3 = 0 →
        (c.dw 10 0 3 = 1 ∨ 3 < c.dw 10 0 3 → Completes (.firmwareCommitReplace fsn b) s fun t =>
          Ended t c.fsn stFwSlot ∧ t.sec = s.m.sec) ∧
        (c.dw 10 0 3 = 2 → (∀ x, b = some x → s.m.verify x ≠ 0) → Completes (.firmwareCommitReplace fsn b) s fun t =>
          Ended t c.fsn stFwImage ∧ t.sec = s.m.sec) ∧
        (∀ x, b = some x → s.m.verify x = 0 → c.dw 10 0 3 = 2 → Completes (.firmwareCommitReplace fsn b) s fun t =>
          Ended t c.fsn stOk ∧ t.sec.flash.slot2 = some x ∧ t.sec.flash.slot3 = s.m.sec.flash.slot3 ∧
          t.sec.flash.pending = s.m.sec.flash.pending)) ∧
      (∀ x, c.dw 10 3 3 = 1 → s.m.verify x = 0 → c.dw 10 0 3 = 3 →
        Completes (.firmwareCommitReplaceActivate fsn (some x)) s fun t =>
          Ended t c.fsn stOk ∧ t.sec.flash.slot3 = some x ∧ t.sec.flash.pending = some (3, x.cls)) ∧
      (∀ x, c.dw 10 3 3 = 2 → s.m.slotBundle 2 = some x → s.m.verify x = 0 → c.dw 10 0 3 = 2 →
        Completes (.firmwareCommitActivate fsn) s fun t =>
          Ended t c.fsn stOk ∧ t.sec.flash.pending = some (2, x.cls) ∧ t.sec.active = s.m.sec.active) ∧
      (∀ x, c.dw 10 3 3 = 3 → s.m.slotBundle 2 = some x → s.m.verify x = 0 → c.dw 10 0 3 = 2 →
        (x.cls ≠ 0 → Completes (.firmwareCommitActivateNow fsn) s fun t =>
          Ended t c.fsn (Mach.classStatus x.cls) ∧ t.sec.flash.pending = some (2, x.cls)) ∧
        (x.cls = 0 → s.m.cmd.quiet = none → Completes (.firmwareCommitActivateNow fsn) s fun t =>
          t.cmd.quiet = some (c.fsn, 2) ∧ t.is QSQ_CTRL_FETCH_EN0 = false ∧ t.is QSQ_CTRL_FETCH_EN1 = false))) ∧
    ∀ b : Bundle,
      (s.m.svnOk b = true ↔
        s.m.sec.fuses.cfg ≤ b.svnCfg ∧ (b.patched = true → s.m.sec.fuses.patch ≤ b.svnPatch)) ∧
      (s.m.svnOk b = false → s.m.verify b ≠ 0 ∧
        (s.m.running fsn.toNat 0 0x10 = some c → c.dw 10 0 3 = 2 ∨ c.dw 10 0 3 = 3 →
          (c.dw 10 3 3 = 0 → Completes (.firmwareCommitReplace fsn (some b)) s fun t =>
            Ended t c.fsn stFwImage ∧ t.sec = s.m.sec) ∧
          (c.dw 10 3 3 = 1 → Completes (.firmwareCommitReplaceActivate fsn (some b)) s fun t =>
            Ended t c.fsn stFwImage ∧ t.sec = s.m.sec) ∧
          (s.m.slotBundle (c.dw 10 0 3) = some b →
            (c.dw 10 3 3 = 2 → Completes (.firmwareCommitActivate fsn) s fun t =>
              Ended t c.fsn stFwImage ∧ t.sec = s.m.sec) ∧
            (c.dw 10 3 3 = 3 → Completes (.firmwareCommitActivateNow fsn) s fun t =>
              Ended t c.fsn stFwImage ∧ t.sec = s.m.sec))) ∧
        ∀ slot, slot = 2 ∨ slot = 3 → s.m.slotBundle slot = some b → s.m.get RST_PHASE_PHASE = 5 →
          (∀ k, s.m.sec.flash.pending = some (slot, k) → Completes .bundleSelect s fun t =>
            t.get SEC_BOOT_SOURCE ≠ 0 ∧ t.is SEC_BOOT_PFAIL = true) ∧
          (s.m.sec.flash.pending = none → s.m.sec.flash.active = slot → Completes .bundleSelect s fun t =>
            t.sec.active = none ∧ t.is SEC_BOOT_AFAIL = true))

/-- The MAINTENANCE_* rows, DEPOPULATE_ACTUATOR, REINSTATE_ACTUATOR, DEPOPULATE_HEAD, REINSTATE_HEAD and
ACKNOWLEDGE_BRAKE_FAULT (R183, R207, R302, R430, Table 12-9), and TEMPERATURE_THRESHOLD_CROSSED (R301). One pass of a
kind runs at a time; an abort marks it; its end is reported, and a candidate pass ends only when its reads and rewrites
are over. The last actuator is not depopulated, and a depopulated one is not depopulated again; a reinstated actuator or
head is requalified with no table fresh, and a head whose requalification fails is depopulated again. It concludes that
exec answers a next state, with the effect of the command itself, under conditions on the state and the operands alone,
for: maintenanceStartScrub, maintenanceStartCandidate, maintenanceStartScan, maintenanceAbort, maintenancePassEnd,
depopulateActuator, reinstateActuator, depopulateHead, reinstateHead, acknowledgeBrakeFault,
temperatureThresholdCrossed. -/
def Obligations.Maintenance : Prop :=
  ∀ (s : State) (fsn : BitVec 32) (c : Cmd),
    (s.m.running fsn.toNat 0 0xC4 = some c →
      (c.dw 10 0 4 = 0 → s.m.cmd.scrub = none → s.m.is SCB_STAT_BUSY = false →
        Completes (.maintenanceStartScrub fsn) s fun t =>
          Ended t c.fsn stOk ∧ t.is SCB_STAT_BUSY = true ∧ t.cmd.scrub = some ⟨0, 0, s.m.get CAL_FIGNO_FIGURE, false, [], []⟩) ∧
      (c.dw 10 0 4 = 1 → Completes (.maintenanceStartCandidate fsn) s fun t =>
        if s.m.cmd.candPass.isSome = true then Ended t c.fsn stPass ∧ t.cmd.candPass = s.m.cmd.candPass
        else Ended t c.fsn stOk ∧ t.cmd.candPass = some ⟨0, 0, s.m.get CAL_FIGNO_FIGURE, false,
          s.m.cmd.cands.map fun k => (k.nsid, k.lba), []⟩) ∧
      (c.dw 10 0 4 = 2 → (s.m.cmdNs c).isSome = true → s.m.cmd.scan = none →
        Completes (.maintenanceStartScan fsn) s fun t =>
          Ended t c.fsn stOk ∧ t.cmd.scan = some ⟨c.nsid, 0, s.m.get CAL_FIGNO_FIGURE, false, [], []⟩) ∧
      (c.dw 10 0 4 = 2 → s.m.cmdNs c = none → Completes (.maintenanceStartScan fsn) s fun t => Ended t c.fsn stNamespace) ∧
      (c.dw 10 0 4 = 3 ∨ 6 < c.dw 10 0 4 → Completes (.maintenanceAbort fsn) s fun t => Ended t c.fsn stField) ∧
      (∀ p, c.dw 10 0 4 = 5 → s.m.cmd.candPass = some p → Completes (.maintenanceAbort fsn) s fun t =>
        Ended t c.fsn stOk ∧ t.cmd.candPass = some { p with abort := true })) ∧
    (∀ n p, s.m.cmd.candPass = some p →
      (p.rewrites = [] → p.abort = true ∨ (p.todo = [] ∧ ∀ k ∈ s.m.cmd.cands, k.written = false) →
        Completes (.maintenancePassEnd .candidate n) s fun t =>
          t.cmd.candPass = none ∧
          t.cmd.reports[1] = ⟨if p.abort = true then 3 else 2, n, p.figure, s.m.get CAL_FIGNO_FIGURE⟩) ∧
      (p.rewrites ≠ [] ∨ (p.abort = false ∧ (p.todo ≠ [] ∨ ∃ k ∈ s.m.cmd.cands, k.written = true)) →
        Yields (.maintenancePassEnd .candidate n) s s.m)) ∧
    (∀ n, s.m.cmd.candPass = none → Yields (.maintenancePassEnd .candidate n) s s.m) ∧
    (s.m.running fsn.toNat 0 0xC8 = some c → ∀ a : Actuator, c.dw 10 4 2 = a.val →
      (c.dw 10 0 4 = 0 ∨ 5 < c.dw 10 0 4 → Completes (.depopulateActuator fsn) s fun t => Ended t c.fsn stField) ∧
      (c.dw 10 0 4 = 1 →
        (s.m.is (QDR_ACT_DEPOP a.val) = true → Completes (.depopulateActuator fsn) s fun t => Ended t c.fsn stActState) ∧
        (s.m.is (QDR_ACT_DEPOP a.val) = false → (∀ b : Actuator, b ≠ a → s.m.is (QDR_ACT_DEPOP b.val) = true) →
          Completes (.depopulateActuator fsn) s fun t => Ended t c.fsn stLastAct ∧ t.motion = s.m.motion) ∧
        (∀ b : Actuator, s.m.is (QDR_ACT_DEPOP a.val) = false → b ≠ a → s.m.is (QDR_ACT_DEPOP b.val) = false →
          s.m.get (QDR_ACT_STATE a.val) = 2 → s.m.is (QDR_ACT_PARKED a.val) = true →
          Completes (.depopulateActuator fsn) s fun t =>
            Ended t c.fsn stOk ∧ t.is (QDR_ACT_DEPOP a.val) = true ∧ t.motion.depop[a] = true)) ∧
      (c.dw 10 0 4 = 2 →
        (c.begun = false → s.m.is (QDR_ACT_DEPOP a.val) = false → Completes (.reinstateActuator fsn) s fun t =>
          Ended t c.fsn stActState) ∧
        (c.begun = false → s.m.is (QDR_ACT_DEPOP a.val) = true → Completes (.reinstateActuator fsn) s fun t =>
          t.is (QDR_ACT_DEPOP a.val) = false ∧ t.is (QDR_ACT_RO a.val) = true ∧ t.motion.tables[a] = []) ∧
        (c.begun = true → s.m.get (QDR_ACT_STATE a.val) = 0 → Completes (.reinstateActuator fsn) s fun t =>
          Ended t c.fsn stOk) ∧
        (c.begun = true → s.m.get (QDR_ACT_STATE a.val) = 3 → Completes (.reinstateActuator fsn) s fun t =>
          Ended t c.fsn stRequal)) ∧
      (c.dw 10 0 4 = 3 → c.dw 10 8 3 < Config.headCount a.val → c.dw 10 8 3 ≤ 5 →
        s.m.bitAt (QDR_ACT_HEAD_DEPOP a.val) (c.dw 10 8 3) = false → s.m.get (QDR_ACT_STATE a.val) = 2 →
        Completes (.depopulateHead fsn) s fun t =>
          Ended t c.fsn stOk ∧ t.bitAt (QDR_ACT_HEAD_DEPOP a.val) (c.dw 10 8 3) = true ∧
          t.motion.headDepop[a] = t.get (QDR_ACT_HEAD_DEPOP a.val)) ∧
      (c.dw 10 0 4 = 4 → c.dw 10 8 3 < Config.headCount a.val → c.dw 10 8 3 ≤ 5 →
        (c.begun = false → s.m.bitAt (QDR_ACT_HEAD_DEPOP a.val) (c.dw 10 8 3) = true → ∀ b,
          Completes (.reinstateHead fsn b) s fun t =>
            t.bitAt (QDR_ACT_HEAD_DEPOP a.val) (c.dw 10 8 3) = false ∧ t.is (QDR_ACT_RO a.val) = true ∧
            t.motion.tables[a] = []) ∧
        (∀ failed, c.begun = true → failed = true ∨ s.m.get (QDR_ACT_STATE a.val) = 3 →
          Completes (.reinstateHead fsn failed) s fun t =>
            Ended t c.fsn stRequal ∧ t.bitAt (QDR_ACT_HEAD_DEPOP a.val) (c.dw 10 8 3) = true) ∧
        (c.begun = true → s.m.get (QDR_ACT_STATE a.val) = 0 → Completes (.reinstateHead fsn false) s fun t =>
          Ended t c.fsn stOk ∧
          t.bitAt (QDR_ACT_HEAD_DEPOP a.val) (c.dw 10 8 3) = s.m.bitAt (QDR_ACT_HEAD_DEPOP a.val) (c.dw 10 8 3))) ∧
      (c.dw 10 0 4 = 5 → Completes (.acknowledgeBrakeFault fsn) s fun t =>
        if s.m.is SPN_BRK_FAULT = true then Ended t c.fsn stOk ∧ t.is SPN_BRK_ACK = true
        else Ended t c.fsn stNoBrake ∧ t.is SPN_BRK_ACK = s.m.is SPN_BRK_ACK)) ∧
    ∀ (k : Fin 3) (x : BitVec 16), Completes (.temperatureThresholdCrossed k x) s fun t =>
      t.cmd.overTemp[k] = (decide (s.m.cmd.feat.overT[k] ≤ x.toNat) || decide (x.toNat ≤ s.m.cmd.feat.underT[k])) ∧
      ((t.cmd.overTemp[k] = true ∧ s.m.cmd.overTemp[k] = false) → t.cmd.critical.testBit 1 = true)

/-- ZONE_CLOSE, ZONE_FINISH, ZONE_OPEN, ZONE_RESET, ZONE_OFFLINE and REPORT_ZONES (R296, R297). An action on one zone
moves it as the state machine allows and is otherwise refused with Invalid Zone State Transition; a report returns the
zones that its option selects as they stand, once the parity of the Full ones is written. READ, COMPARE, VERIFY,
WRITE_COMMAND, ZONE_APPEND, WRITE_ZEROES, DATASET_MANAGEMENT and WRITE_UNCORRECTABLE (R18, R274, R287, R288, R294, R295,
R300). A read waits for an earlier write to its LBAs whose data has not come and for a bound sector that still fills; a
transfer error ends the command with its status; LBAs out of service are refused; a completed write's LBAs are dirty
data of its number, but for those that a later write has superseded; an append returns the LBA that the check assigned.
In M10 each ends Inaccessible; a write completes in M3 and M4 only. It concludes that exec answers a next state, with
the effect of the command itself, under conditions on the state and the operands alone, for: writeCommand, read,
writeUncorrectable, compare, writeZeroes, datasetManagement, verify, zoneClose, zoneFinish, zoneOpen, zoneReset,
zoneOffline, reportZones, zoneAppend. -/
def Obligations.IoAndZones : Prop :=
  (∀ (s : State) (fsn : BitVec 32) (c : Cmd) (n : Namespace),
    (s.m.checking fsn.toNat 1 0x79 = some c → s.m.cmdNs c = some n → n.zoned = true → c.dw 13 8 1 = 0 →
      c.firstLba % 65536 = 0 → c.firstLba / 65536 < n.zoneCount →
      s.m.locked true ⟨n.nsid, 65536 * (c.firstLba / 65536), 65536⟩ = false →
      s.m.metaWaits n.nsid [c.firstLba / 65536] = false →
      (∀ k row, (k, row) ∈ [(1, Instr.zoneClose fsn), (2, .zoneFinish fsn), (4, .zoneReset fsn), (5, .zoneOffline fsn)] →
        c.dw 13 0 8 = k →
        (zoneMove k (n.zone (c.firstLba / 65536)) = none → Completes row s fun t =>
          Passed t c.fsn (some stZoneTransition) ∧ t.cmd.nss = s.m.cmd.nss) ∧
        ∀ z, zoneMove k (n.zone (c.firstLba / 65536)) = some z → Completes row s fun t =>
          Passed t c.fsn (some stOk) ∧ ∃ x, t.nsOf n.nsid = some x ∧ x.zone (c.firstLba / 65536) = z ∧
            ∀ y, y ≠ c.firstLba / 65536 → x.zone y = n.zone y) ∧
      (c.dw 13 0 8 = 3 → (n.zone (c.firstLba / 65536)).state = .full → Completes (.zoneOpen fsn) s fun t =>
        Passed t c.fsn (some stZoneTransition) ∧ t.cmd.nss = s.m.cmd.nss) ∧
      (c.dw 13 0 8 = 3 → (n.zone (c.firstLba / 65536)).state = .empty →
        n.countZones ZoneState.active < n.limit → n.countZones ZoneState.isOpen < n.limit →
        Completes (.zoneOpen fsn) s fun t =>
          Passed t c.fsn (some stOk) ∧ ∃ x, t.nsOf n.nsid = some x ∧
            x.zone (c.firstLba / 65536) = { n.zone (c.firstLba / 65536) with state := .explicitOpen }) ∧
      (c.dw 13 0 8 = 3 → (n.zone (c.firstLba / 65536)).state = .empty →
        n.limit ≤ n.countZones ZoneState.active → Completes (.zoneOpen fsn) s fun t =>
          Passed t c.fsn (some stZoneActive) ∧ t.cmd.nss = s.m.cmd.nss)) ∧
    (s.m.checking fsn.toNat 1 0x79 = some c → c.dw 13 0 8 = 0 ∨ 5 < c.dw 13 0 8 →
      Completes (.zoneOffline fsn) s fun t => Passed t c.fsn (some stField)) ∧
    (s.m.checking fsn.toNat 1 0x7A = some c → s.m.cmdNs c = some n →
      (n.zoned = false → ∀ e, Completes (.reportZones fsn e) s fun t => Passed t c.fsn (some stField)) ∧
      (n.zoned = true → c.dw 13 0 8 = 0 → c.dw 13 8 8 ≤ 7 → c.firstLba < n.nsze → c.dw 13 16 1 = 0 →
        (∀ a : Actuator, (s.m.media.wpath[a]).groups = []) → Completes (.reportZones fsn .ok) s fun t => Passed t c.fsn (some stOk) ∧ t.cmd.nss = s.m.cmd.nss ∧
          ∃ body, t.out = .returned c.fsn (padTo (4 * (c.cdw 12 + 1)) (padTo 64 (toBytesLE 8
            (n.reported ((c.firstLba + 65535) / 65536) (c.dw 13 8 8)).length) ++ body)) :: s.m.out))) ∧
  (∀ (s : State) (fsn : BitVec 32) (c : Cmd),
    (∀ op row, (op, row) ∈ [(0x02, Instr.read fsn), (0x05, Instr.compare fsn), (0x0C, Instr.verify fsn)] →
      s.m.running fsn.toNat 1 op = some c →
      (s.m.mode = 10 → ∀ e, Completes (row e) s fun t => Ended t c.fsn stAnaInaccessible ∧ t.pwr.dirty = s.m.pwr.dirty) ∧
      (s.m.mode ≠ 10 → s.m.readWaits c = true → ∀ e, Yields (row e) s s.m) ∧
      ((∃ d ∈ s.m.cmd.table, d.live = true ∧ d.kind = some .write ∧ d.inBuffer = false ∧ fsnBefore d.fsn c.fsn = true ∧
        ∃ r ∈ d.ranges, ∃ q ∈ c.ranges, r.meets q = true) → s.m.readWaits c = true) ∧
      ((∃ k ∈ s.m.cmd.specs, SpecSector.bound c.fsn none ∈ k.sectors) → s.m.readWaits c = true) ∧
      (s.m.mode ≠ 10 → s.m.readWaits c = false → s.m.depopHit c.nsid (c.ranges.flatMap LbaRange.list) = false →
        (Completes (row .ok) s fun t => Ended t c.fsn stOk ∧ t.pwr.dirty = s.m.pwr.dirty) ∧
        (∀ x, Completes (row (.hostErr x)) s fun t => Ended t c.fsn stTransfer ∧ t.pwr.dirty = s.m.pwr.dirty) ∧
        (∀ x, Completes (row (.unrecovered x)) s fun t => Ended t c.fsn stUnrecovered ∧
          ∃ d, t.command c.fsn = some d ∧ d.badLba = Mach.firstOf c + x) ∧
        (∀ x, Completes (row (.mismatch x)) s fun t => Ended t c.fsn stCompare)) ∧
      (s.m.mode ≠ 10 → s.m.readWaits c = false → s.m.depopHit c.nsid (c.ranges.flatMap LbaRange.list) = true →
        s.m.zonedNs c.nsid = true → ∀ e, Completes (row e) s fun t => Ended t c.fsn stDepop)) ∧
    (∀ op row, (op, row) ∈ [(0x01, Instr.writeCommand fsn), (0x7D, Instr.zoneAppend fsn)] →
      s.m.running fsn.toNat 1 op = some c → ∀ handles,
      (s.m.mode = 10 → ∀ e, Completes (row e handles) s fun t => Ended t c.fsn stAnaInaccessible) ∧
      (s.m.mode ≠ 10 → (∃ w ∈ s.m.pwr.waitL, w.1 = c.fsn) ∨ (s.m.mode ≠ 3 ∧ s.m.mode ≠ 4) →
        ∀ e, Yields (row e handles) s s.m) ∧
      (s.m.mode = 3 ∨ s.m.mode = 4 → (∀ w ∈ s.m.pwr.waitL, w.1 ≠ c.fsn) →
        s.m.depopHit c.nsid (c.ranges.flatMap LbaRange.list) = false →
        (Completes (row .ok handles) s fun t =>
          (∃ d, t.command c.fsn = some d ∧ d.inBuffer = true ∧
            d.result = some ⟨stOk, if op = 0x7D then c.slba else 0⟩) ∧
          ∀ l ∈ c.ranges.flatMap LbaRange.list, Mach.supersededBy c c.nsid l = none →
            ∃ u ∈ t.pwr.dirty, u.nsid = c.nsid ∧ u.lba = l ∧ u.fsn = some c.fsn) ∧
        ∀ x, Completes (row (.hostErr x) handles) s fun t => Ended t c.fsn stTransfer) ∧
      (s.m.mode = 3 ∨ s.m.mode = 4 → (∀ w ∈ s.m.pwr.waitL, w.1 ≠ c.fsn) →
        s.m.depopHit c.nsid (c.ranges.flatMap LbaRange.list) = true → ∀ e, Completes (row e handles) s fun t => Ended t c.fsn stDepop)) ∧
    (s.m.running fsn.toNat 1 0x08 = some c → (s.m.mode = 3 ∨ s.m.mode = 4) → (∀ w ∈ s.m.pwr.waitL, w.1 ≠ c.fsn) →
      (c.deac = false ∨ s.m.zonedNs c.nsid = true) → s.m.depopHit c.nsid (c.ranges.flatMap LbaRange.list) = false →
      Completes (.writeZeroes fsn) s fun t => Ended t c.fsn stOk ∧
        ∀ l ∈ c.ranges.flatMap LbaRange.list, Mach.supersededBy c c.nsid l = none →
          ∃ u ∈ t.pwr.dirty, u.nsid = c.nsid ∧ u.lba = l ∧ u.fsn = some c.fsn ∧ u.handle = Mach.ownHandle) ∧
    (∀ op row, (op, row) ∈ [(0x09, Instr.datasetManagement fsn), (0x08, Instr.writeZeroes fsn)] →
      s.m.running fsn.toNat 1 op = some c → (op = 0x08 → c.deac = true ∧ s.m.zonedNs c.nsid = false) →
      (s.m.mode = 3 ∨ s.m.mode = 4) → (∀ w ∈ s.m.pwr.waitL, w.1 ≠ c.fsn) →
      s.m.depopHit c.nsid (c.ranges.flatMap Mach.partLbas) = false →
      Completes row s fun t => Ended t c.fsn stOk ∧
        ∀ l ∈ c.ranges.flatMap Mach.partLbas, Mach.supersededBy c c.nsid l = none →
          ∃ u ∈ t.pwr.dirty, u.nsid = c.nsid ∧ u.lba = l ∧ u.fsn = some c.fsn ∧ u.handle = Mach.ownHandle) ∧
    (s.m.running fsn.toNat 1 0x04 = some c → Completes (.writeUncorrectable fsn) s fun t =>
      Ended t c.fsn (if s.m.mode = 10 then stAnaInaccessible
        else if s.m.depopHit c.nsid (c.ranges.flatMap LbaRange.list) = true then stDepop else stOk) ∧
      t.cmd.unc = s.m.cmd.unc))

/-- The MI_* rows, SMBUS_BASIC_MANAGEMENT, NVME_MI_SEND and NVME_MI_RECEIVE (R304, Table 12-10), and a tunnelled
Identify. No request is answered before the cores are up; in M8 only the polls and the basic management command are; a
configuration value reads back as it was set; an illegal one is refused; the same operations are served in-band. It
concludes that exec answers a next state, with the effect of the command itself, under conditions on the state and the
operands alone, for: identify, nvmeMiSend, nvmeMiReceive, miReadDataStructure, miSubsystemHealthPoll,
miControllerHealthPoll, miConfigurationSet, miConfigurationGet, miVpdRead, miReset, smbusBasicManagement. -/
def Obligations.Sideband : Prop :=
  (∀ (s : State) (id : BitVec 8) (v o l : BitVec 16) (p : PortId), s.m.rst.coresUp = false →
    ∀ i ∈ [Instr.miReadDataStructure id, .miSubsystemHealthPoll, .miControllerHealthPoll p, .miConfigurationSet id v,
      .miConfigurationGet id, .miVpdRead o l, .miReset, .smbusBasicManagement], Yields i s s.m) ∧
  (∀ (s : State) (id : BitVec 8) (v o l : BitVec 16) (p : PortId), s.m.rst.coresUp = true → s.m.mode = 8 →
    (∀ i ∈ [Instr.miReadDataStructure id, .miControllerHealthPoll p, .miConfigurationSet id v, .miConfigurationGet id,
      .miVpdRead o l, .miReset], Yields i s (s.m.emit (.mi 0xE0 [])))) ∧
  (∀ (s : State) (id : BitVec 8) (v o l : BitVec 16) (p : PortId), s.m.rst.coresUp = true →
    Yields .miSubsystemHealthPoll s (s.m.emit (.mi 0 s.m.miSubsystem)) ∧
    (Completes .smbusBasicManagement s fun t => ∃ bs, t = s.m.emit (.mi 0 bs) ∧ bs[0]? = some 6 ∧
      bs[2]? = some (BitVec.ofNat 8 (255 - s.m.warnings))) ∧
    (s.m.mode ≠ 8 →
      (id.toNat ≤ 5 → Completes (.miReadDataStructure id) s fun t => ∃ bs, t = s.m.emit (.mi 0 bs)) ∧
      (5 < id.toNat → Yields (.miReadDataStructure id) s (s.m.emit (.mi 4 []))) ∧
      (Completes (.miControllerHealthPoll p) s fun t => ∃ bs, t = s.m.emit (.mi 0 bs) ∧
        bs[0]? = some (BitVec.ofNat 8 p.val) ∧ bs[9]? = some (BitVec.ofNat 8 s.m.warnings)) ∧
      (id = 3 → 64 ≤ v.toNat → v.toNat ≤ 256 → Completes (.miConfigurationSet id v) s fun t =>
        t.cmd.miMtu = v.toNat ∧ t.out = .mi 0 [] :: s.m.out) ∧
      (id = 1 → v.toNat = 0 ∨ 3 < v.toNat → Yields (.miConfigurationSet id v) s (s.m.emit (.mi 4 []))) ∧
      (id = 3 → Yields (.miConfigurationGet id) s (s.m.emit (.mi 0 (toBytesLE 3 s.m.cmd.miMtu)))) ∧
      (256 < o.toNat + l.toNat → Yields (.miVpdRead o l) s (s.m.emit (.mi 4 []))) ∧
      (o.toNat + l.toNat ≤ 256 → Completes (.miVpdRead o l) s fun t => ∃ bs, bs.length = l.toNat ∧ t = s.m.emit (.mi 0 bs)) ∧
      (Sound s.m 0 → Sound s.m 1 → Completes .miReset s fun t =>
        (t.host.ctrls[p]).nssro = true ∧ (t.host.ctrls[p]).rdy = false ∧ .mi 0 [] ∈ t.out) ∧
      ∀ sqe : BitVec 512, bitsAt sqe 0 8 = 0x06 → bitsAt sqe 320 8 = 0x01 →
        Completes (.identify (.tunnel p sqe) .ok) s fun t => ∃ bs, t = s.m.emit (.mi 0 (bs ++ s.m.idController p)))) ∧
  ∀ (s : State) (fsn : BitVec 32) (c : Cmd),
    (s.m.running fsn.toNat 0 0x1D = some c →
      (c.dw 11 0 8 = 0x03 → c.dw 12 0 8 = 3 → 64 ≤ c.dw 13 0 16 → c.dw 13 0 16 ≤ 256 →
        Completes (.nvmeMiSend fsn .ok) s fun t => t.cmd.miMtu = c.dw 13 0 16 ∧ Ended t c.fsn stOk) ∧
      (c.dw 11 0 8 ≠ 0x03 → c.dw 11 0 8 ≠ 0x07 → Completes (.nvmeMiSend fsn .ok) s fun t =>
        ∃ d, t.command c.fsn = some d ∧ d.result = some ⟨stOk, 3⟩)) ∧
    (s.m.running fsn.toNat 0 0x1E = some c → c.dw 11 0 8 = 0x01 → Completes (.nvmeMiReceive fsn .ok) s fun t =>
      Ended t c.fsn stOk ∧ t.out = .returned c.fsn s.m.miSubsystem :: s.m.out)

/-- IDLE_T4_EXPIRY to IDLE_T7_EXPIRY, MEDIA_WAKE, SPIN_UP_COMPLETE, SPIN_DELAY_END and LOGIC_DIE_OVERTEMP (R306, R307,
R309, R312, R314). An expired timer leads to the next lower mode while no media work is outstanding; M4 stops the lanes;
M5 unloads the heads and sets C and L to 0; a media command leads back; M3 waits until the replayed units fit under L;
the end of the delay makes the spindle eligible. It concludes that exec answers a next state, with the effect of the
command itself, under conditions on the state and the operands alone, for: idleT4Expiry, idleT5Expiry, idleT6Expiry,
idleT7Expiry, mediaWake, spinUpComplete, logicDieOvertemp, spinDelayEnd. -/
def Obligations.PowerModes : Prop :=
  ∀ s : State,
    (¬ (s.m.mode = 3 ∧ s.m.mediaWork = false) → Yields .idleT4Expiry s s.m) ∧
    (s.m.mode = 3 → s.m.mediaWork = false → Completes .idleT4Expiry s fun t => t.mode = 4 ∧ t.die = s.m.die ∧ t.spn = s.m.spn ∧
      ∀ l : Fin 16, t.media.lanes[l] = ⟨.off, 0⟩ ∧ t.is (AFE_LANE_STAT_READY l.val) = false) ∧
    (s.m.mediaWork = true → ∀ i ∈ [Instr.idleT5Expiry, .idleT6Expiry, .idleT7Expiry], Yields i s s.m) ∧
    (s.m.mediaWork = false →
      (s.m.mode = 4 ∨ (s.m.mode = 3 ∧ 3 ≤ s.m.get PWR_MODE_PS)) → s.m.is PWR_IDLE_T5 = true ∨ 3 ≤ s.m.get PWR_MODE_PS →
        Completes .idleT5Expiry s fun t =>
          t.mode = 5 ∧ t.get KSV_LIMIT_CAP = 0 ∧ t.get KSV_LIMIT_LIMIT = 0 ∧ t.spn = s.m.spn ∧
          ∀ a : Actuator, s.m.is (VCM_STAT_PARKED a.val) = false → CanRetract s.m a → t.die.retract[a] = .velocity) ∧
    (s.m.mediaWork = false → s.m.mode = 5 → s.m.is PWR_IDLE_T6 = true ∨ 3 ≤ s.m.get PWR_MODE_PS →
      Completes .idleT6Expiry s fun t => t.mode = 6 ∧ t.get SPN_DEMAND_LEVEL = s.m.pwr.idleCLevel % 256) ∧
    (s.m.mediaWork = false → s.m.mode = 6 → s.m.is PWR_IDLE_T7 = true ∨ s.m.get PWR_MODE_PS = 4 →
      Completes .idleT7Expiry s fun t => t.mode = 7 ∧ t.get SPN_DEMAND_LEVEL = 0) ∧
    (s.m.mediaCommand = false → s.m.get PWR_MODE_PS < 3 ∨ s.m.ioCommand = false → Yields .mediaWake s s.m) ∧
    (s.m.mediaCommand = false → 3 ≤ s.m.get PWR_MODE_PS → s.m.ioCommand = true → Completes .mediaWake s fun t =>
      t.get PWR_MODE_PS = s.m.pwr.lastOpPs % 8) ∧
    (s.m.mediaCommand = true →
      (s.m.mode = 4 → Completes .mediaWake s fun t => t.mode = 3) ∧
      (s.m.mode = 5 ∨ s.m.mode = 6 → Completes .mediaWake s fun t =>
        t.mode = s.m.mode ∧ t.pwr.wakeDue = true ∧
        (s.m.mode = 6 → t.get SPN_DEMAND_LEVEL = s.m.pwr.activeLevel % 256)) ∧
      (s.m.mode = 7 → s.m.is PWR_SPIN_ELIG = true → Completes .mediaWake s fun t =>
        t.mode = 2 ∧ t.pwr.measured = false ∧ t.pwr.firstSpin = false ∧ t.get SPN_DEMAND_LEVEL = s.m.pwr.activeLevel % 256) ∧
      (s.m.mode = 7 → s.m.is PWR_SPIN_ELIG = false → s.m.get PWR_MODE_PS < 3 → Yields .mediaWake s s.m)) ∧
    (s.m.spnState ≠ 5 ∨ s.m.qualified = false → Yields .spinUpComplete s s.m) ∧
    (s.m.spnState = 5 → s.m.qualified = true →
      (s.m.mode = 2 ∧ s.m.pwr.measured = true ∧ s.m.pwr.replayDue = false ∧
          (s.m.pwr.replayDrain = false ∨ s.m.dirtyCount ≤ s.m.limitUnits)) ∨
        (s.m.pwr.wakeDue = true ∧ (s.m.mode = 5 ∨ s.m.mode = 6)) →
      Completes .spinUpComplete s fun t => t.mode = 3 ∧ t.pwr.wakeDue = false) ∧
    (s.m.mode = 2 → s.m.pwr.measured = false ∨ s.m.pwr.replayDue = true → s.m.pwr.wakeDue = false →
      Yields .spinUpComplete s s.m) ∧
    (s.m.get RST_PHASE_PHASE ≠ 7 ∨ s.m.is RST_PHASE_DONE = true ∨ s.m.rst.coresUp = false → Yields .spinDelayEnd s s.m) ∧
    (s.m.get RST_PHASE_PHASE = 7 → s.m.is RST_PHASE_DONE = false → s.m.rst.coresUp = true →
      Completes .spinDelayEnd s fun t =>
        t.get PWR_SPIN_DELAY = 0 ∧ t.is PWR_SPIN_ELIG = true ∧ t.is RST_PHASE_DONE = true ∧
        t.mode = (if s.m.mode = 7 ∧ (s.m.is PWR_FLEET_AUTO = true ∨ s.m.mediaCommand = true) then 2 else s.m.mode)) ∧
    (Completes .logicDieOvertemp s fun t =>
      t.get PWR_TEMP_LOGIC = 125 ∧ [996] <:+: t.reports ∧
      t.mode = if s.m.mode = 9 ∨ s.m.mode = 11 then s.m.mode else 10)

/-- CAPACITY_MEASURE, WRITE_ADMISSION, METADATA_FLUSH, THERMAL_THROTTLE and THERMAL_THROTTLE_END (R310, R314, R315). The
coast test of a spin-up, at curve speed with every head parked, gives the capacity C, and L is the smaller of C and the
feature's limit; the earliest waiting write is admitted, in M3 and M4, where its units fit under L; at 110 °C row 4 of
Table 13-4 is applied whole, and at 100 °C the row of the cap returns. It concludes that exec answers a next state, with
the effect of the command itself, under conditions on the state and the operands alone, for: capacityMeasure,
writeAdmission, metadataFlush, thermalThrottle, thermalThrottleEnd. -/
def Obligations.CapsAndLimits : Prop :=
  ∀ s : State,
    (∀ d, s.m.mode ≠ 2 ∨ s.m.spnState ≠ 5 ∨ s.m.allParked = false ∨ s.m.is SPN_SPEED_VALID = false ∨
      s.m.get SPN_SPEED_SPEED < s.m.spn.goal → Yields (.capacityMeasure d) s s.m) ∧
    (∀ d, s.m.mode = 2 → s.m.spnState = 5 → s.m.allParked = true → s.m.is SPN_SPEED_VALID = true →
      s.m.spn.goal ≤ s.m.get SPN_SPEED_SPEED → Completes (.capacityMeasure d) s fun t =>
      t.pwr.measured = true ∧ t.pwr.dragMw = d.dragMw ∧ t.pwr.energyMj = d.energyMj ∧ t.pwr.w0 = s.m.get SPN_SPEED_SPEED ∧
      (∀ c, c = Mach.capacity { s.m with pwr :=
          { s.m.pwr with dragMw := d.dragMw, energyMj := d.energyMj, w0 := s.m.get SPN_SPEED_SPEED, measured := true } } →
        t.get KSV_LIMIT_CAP = c ∧ t.get KSV_LIMIT_LIMIT = min s.m.cmd.feat.saved.limit c)) ∧
    ((∀ x ∈ s.m.pwr.waitL, s.m.limitUnits < s.m.dirtyCount + x.2) ∨ (s.m.mode ≠ 3 ∧ s.m.mode ≠ 4) →
      Yields .writeAdmission s s.m) ∧
    (Completes .writeAdmission s fun t =>
      t = s.m ∨ ∃ x ∈ s.m.pwr.waitL, s.m.dirtyCount + x.2 ≤ s.m.limitUnits ∧ t.pwr.admitted = s.m.pwr.admitted ++ [x] ∧
        t.pwr.waitL = s.m.pwr.waitL.filter (· != x) ∧ t = { s.m with pwr := t.pwr }) ∧
    (∀ x y, s.m.pwr.waitL = [x, y] ∨ s.m.pwr.waitL = [y, x] → fsnBefore x.1 y.1 = true → fsnBefore y.1 x.1 = false →
      s.m.mode = 3 ∨ s.m.mode = 4 →
      (s.m.dirtyCount + x.2 ≤ s.m.limitUnits → Completes .writeAdmission s fun t =>
        t.pwr.waitL = [y] ∧ t.pwr.admitted = s.m.pwr.admitted ++ [x]) ∧
      (s.m.limitUnits < s.m.dirtyCount + x.2 → Yields .writeAdmission s s.m)) ∧
    (∀ x, s.m.pwr.waitL = [x] → s.m.mode = 3 ∨ s.m.mode = 4 → s.m.dirtyCount + x.2 ≤ s.m.limitUnits → Completes .writeAdmission s fun t =>
      t.pwr.waitL = [] ∧ t.pwr.admitted = s.m.pwr.admitted ++ [x]) ∧
    (Completes .metadataFlush s fun t =>
      (∀ u ∈ t.pwr.dirty, u.isMeta = false) ∧
      (∀ u ∈ s.m.pwr.dirty, u.isMeta = false → u ∈ t.pwr.dirty) ∧ t = { s.m with pwr := t.pwr }) ∧
    (∀ c : BitVec 8,
      (c.toNat < 110 ∨ s.m.pwr.throttle = true → Yields (.thermalThrottle c) s (s.m.set PWR_TEMP_LOGIC c.toNat)) ∧
      (110 ≤ c.toNat → s.m.pwr.throttle = false → Completes (.thermalThrottle c) s fun t =>
        t.get PWR_TEMP_LOGIC = c.toNat ∧ t.is PWR_TEMP_THROTTLE = true ∧ t.pwr.throttle = true ∧ t.get CAL_CAP_SCALE = 96 ∧
        t.get PWR_CAP_STREAMS = 2 ∧ t.get QDR_TORQ_BUDGET = 2000 ∧ t.get PWR_CAP_ROW = 4 ∧
        t.reports = s.m.reports ++ [995]) ∧
      (100 < c.toNat ∨ s.m.pwr.throttle = false → Yields (.thermalThrottleEnd c) s (s.m.set PWR_TEMP_LOGIC c.toNat)) ∧
      (c.toNat ≤ 100 → s.m.pwr.throttle = true → Completes (.thermalThrottleEnd c) s fun t =>
        t.pwr.throttle = false ∧ t.is PWR_TEMP_THROTTLE = false ∧ t.get PWR_CAP_ROW = capRow s.m.effectiveCap ∧
        (t.get CAL_CAP_SCALE, t.get PWR_CAP_STREAMS, t.get QDR_TORQ_BUDGET) =
          capRows.getD (capRow s.m.effectiveCap) (64, 1, 1200)))

/-- REPLAY and READOPT_DIRTY (R16, R323–R326, R429). Group positions without a good parity sector hold no record. Where
the highest generation that a scan holds is not above RETIRED nothing is loaded; otherwise that generation is retired,
its recovered members are dirty data that stands before every command, those of a locked object stay pending, and a
shortfall raises the backup-failed warning. After a reset that the buffer survived, every unit that passes its check
stays dirty before every command, and one that fails is a shortfall. SUPPLY_LOSS, SAVE_UNIT_WRITE, BUS_UNDERVOLTAGE,
SAVE_END and SUPPLY_RETURN (R317–R322). A supply below its threshold for the filter time opens the isolation switches
and, while armed in M3 or M4, begins a save in M9 with one writer for each ACTIVE actuator; otherwise the heads retract
and the phases float. A writer whose actuator has settled takes the next unit of the list, reads its buffer under class
SAVE, and writes it; 127 units close a group. Writing ends on undervoltage, or when the list, the speed or the time is
at its end; a save runs to its end though the supplies return, and a software reset follows it. It concludes that exec
answers a next state, with the effect of the command itself, under conditions on the state and the operands alone, for:
supplyLoss, saveUnitWrite, busUndervoltage, saveEnd, supplyReturn, replay, readoptDirty. -/
def Obligations.SaveAndReplay : Prop :=
  (∀ s : State,
    (∀ scan, s.m.mode ≠ 2 ∨ s.m.pwr.replayDue = false → Completes (.replay scan) s fun t =>
      t.pwr = s.m.pwr ∧ t.evt = s.m.evt) ∧
    (∀ scan : List GroupScan, s.m.mode = 2 → s.m.pwr.replayDue = true →
      (∀ g ∈ scan, ∀ h, g.header = some h → (∃ i : Fin 4, (g.parity[i]).isSome = true) → h.gen ≤ s.m.pwr.retired) →
      Completes (.replay scan) s fun t => t.pwr = { s.m.pwr with replayDue := false } ∧ t.evt = s.m.evt) ∧
    (∀ (g : GroupScan) (h : SaveHeader) (n : Fin 129), s.m.mode = 2 → s.m.pwr.replayDue = true → g.header = some h →
      g.parity[(0 : Fin 4)] = some n → s.m.pwr.retired < h.gen → n.val = h.entries.length + 1 →
      Completes (.replay [g]) s fun t =>
        t.pwr.retired = h.gen ∧ t.pwr.replayDue = false ∧ t.pwr.replayDrain = true ∧ t.evt.seq = s.m.evt.seq + 1 ∧
        (h.last = false → t.pwr.backupFailed = true) ∧
        (h.entries.length < h.total → h.last = true → t.pwr.backupFailed = true) ∧
        ((∃ i : Nat, i < h.entries.length ∧ (g.units[i]?).join = none) → t.pwr.backupFailed = true) ∧
        ((∀ i, i < h.entries.length → (g.units[i]?).join.isSome = true) →
          (h.last = true → h.total ≤ h.entries.length → t.pwr.backupFailed = s.m.pwr.backupFailed) ∧
          ((∀ e ∈ h.entries, s.m.keyLocked e.2.1 = false) → t.pwr.pendingSaves = s.m.pwr.pendingSaves ∧
            ∀ (i : Nat) (e : BitVec 64 × Nat × Bool) (x : BitVec 24), h.entries[i]? = some e → g.units[i]? = some (some x) →
              ⟨tagNsid e.1, tagLba e.1, none, x.toNat, e.2.1, e.2.2, true⟩ ∈ t.pwr.dirty) ∧
          ((∀ e ∈ h.entries, s.m.keyLocked e.2.1 = true) → t.pwr.dirty = s.m.pwr.dirty ∧
            ∀ (i : Nat) (e : BitVec 64 × Nat × Bool) (x : BitVec 24), h.entries[i]? = some e → g.units[i]? = some (some x) →
              ∃ p ∈ t.pwr.pendingSaves, p.gen = h.gen ∧ p.key = e.2.1 ∧
                ∃ u ∈ p.units, u.nsid = tagNsid e.1 ∧ u.lba = tagLba e.1 ∧ u.handle = x.toNat))) ∧
    (s.m.rst.kept = false ∨ s.m.rst.coresUp = false → Completes .readoptDirty s fun t =>
      t.pwr = s.m.pwr ∧ t.rst = s.m.rst) ∧
    (s.m.rst.kept = true → s.m.rst.coresUp = true →
      ((∀ u ∈ s.m.pwr.dirty, Mach.ownHandle ≤ u.handle) → Completes .readoptDirty s fun t =>
        t.rst.kept = false ∧ t.pwr.dirty = s.m.pwr.dirty.map fun u => { u with fsn := none }) ∧
      (∀ u, s.m.pwr.dirty = [u] → (s.m.unitPasses u).1 = false → Completes .readoptDirty s fun t =>
        t.rst.kept = false ∧ t.pwr.dirty = [] ∧ t.pwr.backupFailed = true))) ∧
  (∀ s : State,
    (∀ v12 v5 us : BitVec 10,
      ((s.m.get KSV_TRIP_V12 ≤ v12.toNat ∧ s.m.get KSV_TRIP_V5 ≤ v5.toNat) ∨ us.toNat < max 1 (s.m.get KSV_TRIP_FILT) →
        Yields (.supplyLoss v12 v5 us) s s.m) ∧
      (v12.toNat < s.m.get KSV_TRIP_V12 ∨ v5.toNat < s.m.get KSV_TRIP_V5 → max 1 (s.m.get KSV_TRIP_FILT) ≤ us.toNat →
        (s.m.mode = 9 → s.m.rst.entering = false → Completes (.supplyLoss v12 v5 us) s fun t =>
          t.die.isolated = true ∧ t.die.bridge = .rectify ∧ t.is PWR_RAILS_BUS = true ∧ t.pwr = s.m.pwr ∧ t.mode = 9) ∧
        (s.m.mode ≠ 9 → Completes (.supplyLoss v12 v5 us) s fun t =>
          t.die.isolated = true ∧ t.die.onBus = true ∧ t.is PWR_RAILS_BUS = true ∧
          t.die.v12Ok = (s.m.die.v12Ok && decide (s.m.get KSV_TRIP_V12 ≤ v12.toNat)) ∧
          t.die.v5Ok = (s.m.die.v5Ok && decide (s.m.get KSV_TRIP_V5 ≤ v5.toNat)) ∧
          t.get KSV_STAT_CAUSE = bitNat (decide (v12.toNat < s.m.get KSV_TRIP_V12)) +
            2 * bitNat (decide (v5.toNat < s.m.get KSV_TRIP_V5)) ∧ [993] <:+: t.reports ∧
          if (s.m.mode = 3 ∨ s.m.mode = 4) ∧ s.m.is KSV_CTRL_ARM = true ∧ s.m.rst.entering = false then
            t.mode = 9 ∧ t.die.bridge = .rectify ∧ t.get KSV_STAT_STATE = 1 ∧ t.get KSV_STAT_SAVED = 0 ∧
            t.pwr.nextUnit = 0 ∧ t.pwr.ended = false ∧ t.cal.saveDue = true ∧ t.is CAL_STATUS_SWAP_PENDING = false ∧
            t.cmd.table = [] ∧ t.pwr.wgen = s.m.saveGen ∧ t.saveGen = s.m.saveGen ∧
            ∀ a : Actuator, t.pwr.writers[a] = ⟨s.m.get (QDR_ACT_STATE a.val) == 0, none, 0, 0, []⟩
          else
            t.mode = s.m.mode ∧ t.die.bridge = .float ∧ t.pwr = s.m.pwr ∧
            ∀ a : Actuator, CanRetract s.m a → t.die.retract[a] = .velocity))) ∧
    (∀ a : Actuator, s.m.mode ≠ 9 ∨ s.m.pwr.ended = true ∨ (s.m.pwr.writers[a]).active = false ∨
      s.m.bitAt (SRV_STAT_TRK_CONF a.val) (s.m.leadSlot a).val = false → Yields (.saveUnitWrite a) s s.m) ∧
    (∀ (a : Actuator) w, s.m.mode = 9 → s.m.pwr.ended = false → s.m.pwr.writers[a] = w → w.active = true →
      s.m.bitAt (SRV_STAT_TRK_CONF a.val) (s.m.leadSlot a).val = true →
      (w.unit = none → s.m.pwr.saveList[s.m.pwr.nextUnit]? = none → Yields (.saveUnitWrite a) s s.m) ∧
      (∀ u, w.unit = none → s.m.pwr.saveList[s.m.pwr.nextUnit]? = some u → Completes (.saveUnitWrite a) s fun t =>
        t.pwr.nextUnit = s.m.pwr.nextUnit + 1 ∧ t.pwr.writers[a] = { w with unit := some u } ∧ t.out = s.m.out ∧
        t.pwr.saveList = s.m.pwr.saveList ∧ (∀ b : Actuator, b ≠ a → t.pwr.writers[b] = s.m.pwr.writers[b])) ∧
      (∀ u, w.unit = some u → s.m.saveQuiet a = false → Yields (.saveUnitWrite a) s s.m) ∧
      (∀ u, w.unit = some u → s.m.saveQuiet a = true → Mach.ownHandle ≤ u.handle → Completes (.saveUnitWrite a) s fun t =>
        t.pwr.nextUnit = s.m.pwr.nextUnit ∧ t.get KSV_STAT_STATE = 2 ∧ t.bitAt KSV_STAT_WRITERS a.val = true ∧
        t.get KSV_STAT_SAVED = (s.m.get KSV_STAT_SAVED + 1) % 2 ^ 20 ∧ t.pwr.saveList = s.m.pwr.saveList ∧
        (w.open_ + 1 ≠ 127 → t.pwr.writers[a] =
          { w with unit := none, open_ := w.open_ + 1,
                   entries := w.entries ++ [(BitVec.ofNat 64 u.tag, u.key, u.isMeta)] } ∧
          ∃ block, t.out = .saveSector a (s.m.get (KSV_REG_START a.val) + w.closed) w.open_ block :: s.m.out) ∧
        (w.open_ + 1 = 127 →
          t.pwr.writers[a] = { w with unit := none, open_ := 0, closed := w.closed + 1, entries := [] } ∧
          ∃ data, .saveHeader a (s.m.headerTag a (s.m.get (KSV_REG_START a.val) + w.closed)) data ∈ t.out))) ∧
    (s.m.mode ≠ 9 ∨ s.m.pwr.ended = true → Yields .busUndervoltage s s.m) ∧
    (s.m.mode = 9 → s.m.pwr.ended = false → Completes .busUndervoltage s fun t =>
      t.get KSV_STAT_STATE = 3 ∧ t.get KSV_STAT_WRITERS = 0 ∧ t.pwr.ended = true ∧
      ∀ a : Actuator, CanRetract s.m a → t.die.retract[a] = .velocity) ∧
    (∀ stop busMin us,
      (s.m.saveMayStop stop us.toNat = match stop with
        | .exhausted => decide (s.m.pwr.saveList.length ≤ s.m.pwr.nextUnit) && s.m.pwr.writers.all (·.unit.isNone)
        | .slow => s.m.is SPN_SPEED_VALID && decide (s.m.get SPN_SPEED_SPEED ≤ s.m.endSpeed)
        | .timeout => decide (10000 * s.m.get KSV_CFG_TMAX ≤ us.toNat)) ∧
      (s.m.mode ≠ 9 ∨ s.m.pwr.ended = true ∨ s.m.saveMayStop stop us.toNat = false →
        Yields (.saveEnd stop busMin us) s s.m) ∧
      (s.m.mode = 9 → s.m.pwr.ended = false → s.m.saveMayStop stop us.toNat = true →
        Completes (.saveEnd stop busMin us) s fun t =>
          t.get KSV_STAT_STATE = 3 ∧ t.pwr.ended = true ∧ t.reports = s.m.reports ++ [994] ∧ t.evt.seq = s.m.evt.seq + 1 ∧
          (∀ a : Actuator, (s.m.pwr.writers[a]).active = true → (t.pwr.writers[a]).open_ = 0) ∧
          ∀ a : Actuator, CanRetract s.m a → t.die.retract[a] = .velocity)) ∧
    (s.m.mode ≠ 9 → Completes .supplyReturn s fun t =>
      t.die = { s.m.die with v12Ok := true, v5Ok := true, isolated := false, onBus := false } ∧ t.is PWR_RAILS_BUS = false) ∧
    (s.m.mode = 9 → s.m.pwr.ended = false ∨ s.m.allParked = false →
      Yields .supplyReturn s { s.m with die := { s.m.die with v12Ok := true, v5Ok := true } }) ∧
    (s.m.mode = 9 → s.m.pwr.ended = true → s.m.allParked = true → s.m.rst.entering = false →
      Completes .supplyReturn s fun t => ResetTaken t .software))

/-- FUSE_SENSE, OPTION_LOAD, BUNDLE_SELECT and CONFIG_APPLY (R328–R332, R335, R336, R378). Phases P1, P2, P5 and P6 act
in their own phase alone: the fuses are sensed once rails and crystal are good; the first option block that passes is
taken; the pending slot is tried before the active one; a boot without a bundle, or with options that differ, ends in
M10. It concludes that exec answers a next state, with the effect of the command itself, under conditions on the state
and the operands alone, for: fuseSense, optionLoad, bundleSelect, configApply. -/
def Obligations.BootLoading : Prop :=
  ∀ s : State,
    (s.m.rst.entering = false ∨ s.m.rst.pinLow = true ∨ s.m.rst.stormHold = true ∨ s.m.rst.xtal = false →
      ∀ te, Yields (.fuseSense te) s s.m) ∧
    (s.m.rst.entering = true → s.m.rst.pinLow = false → s.m.rst.stormHold = false → s.m.rst.xtal = true →
      (s.m.rst.fromP0 = false ∨ s.m.get PWR_RAILS_GOOD % 256 = 255) → ∀ te, Completes (.fuseSense te) s fun t =>
        t.rst.entering = false ∧ t.rst.inReset[(7 : Domain)] = false ∧ t.clockGood 39 = true ∧
        t.get SEC_LIFE_LIFE = s.m.sec.fuses.life % 4 ∧ t.get FUS_SERLO_SERIAL = s.m.sec.fuses.serial.toNat % 2 ^ 32 ∧
        t.get RST_PHASE_PHASE = (if te = true ∧ s.m.sec.fuses.life = 0 then 1 else 2)) ∧
    (s.m.rst.entering = true ∨ s.m.rst.testEn = true ∨ s.m.get RST_PHASE_PHASE ≠ 2 → Yields .optionLoad s s.m) ∧
    (s.m.rst.entering = false → s.m.rst.testEn = false → s.m.get RST_PHASE_PHASE = 2 → Completes .optionLoad s fun t =>
      t.get RST_PHASE_PHASE = 3 ∧
      (optionOk s.m.sec.flash.optA = true →
        t.get SEC_BOOT_OPTBLK = 0 ∧ t.sec.options = (s.m.sec.flash.optA.drop 1).take 62 ∧ t.reports = s.m.reports) ∧
      (optionOk s.m.sec.flash.optA = false → optionOk s.m.sec.flash.optB = true →
        t.get SEC_BOOT_OPTBLK = 1 ∧ t.sec.options = (s.m.sec.flash.optB.drop 1).take 62) ∧
      (optionOk s.m.sec.flash.optA = false → optionOk s.m.sec.flash.optB = false →
        t.get SEC_BOOT_OPTBLK = 2 ∧ t.sec.options = optionDefaults ∧ t.is SEC_ERR_OPTCRC = true ∧
        t.reports = s.m.reports ++ [1027])) ∧
    (s.m.get RST_PHASE_PHASE ≠ 5 → Yields .bundleSelect s s.m) ∧
    (s.m.get RST_PHASE_PHASE = 5 →
      (Completes .bundleSelect s fun t => t.get RST_PHASE_PHASE = 6 ∧ t.is SEC_BOOT_VALID = true) ∧
      (∀ slot k, s.m.sec.flash.pending = some (slot, k) → slot = 2 ∨ slot = 3 →
        (s.m.slotVerdict slot = 0 → Completes .bundleSelect s fun t =>
          t.get SEC_BOOT_ACTIVE = slot ∧ t.get SEC_BOOT_SOURCE = 0 ∧ t.sec.active = s.m.slotBundle slot ∧
          t.sec.flash.active = slot ∧ t.sec.flash.pending = none ∧ t.sec.svnDue = true) ∧
        (s.m.slotVerdict slot ≠ 0 → Completes .bundleSelect s fun t =>
          t.is SEC_BOOT_PFAIL = true ∧ t.sec.flash = s.m.sec.flash)) ∧
      (s.m.sec.flash.pending = none →
        (s.m.sec.flash.active = 2 ∨ s.m.sec.flash.active = 3 →
          (s.m.slotVerdict s.m.sec.flash.active = 0 → Completes .bundleSelect s fun t =>
            t.get SEC_BOOT_ACTIVE = s.m.sec.flash.active ∧ t.get SEC_BOOT_SOURCE = 1 ∧
            t.sec.active = s.m.slotBundle s.m.sec.flash.active) ∧
          (s.m.slotVerdict s.m.sec.flash.active ≠ 0 → Completes .bundleSelect s fun t =>
            t.is SEC_BOOT_AFAIL = true ∧ t.get SEC_BOOT_SOURCE = 2 ∧ t.sec.active = none)) ∧
        (s.m.sec.flash.active = 1 → Completes .bundleSelect s fun t =>
          t.get SEC_BOOT_ACTIVE = 1 ∧ t.get SEC_BOOT_SOURCE = 2 ∧ t.sec.active = none))) ∧
    (s.m.get RST_PHASE_PHASE ≠ 6 → Yields .configApply s s.m) ∧
    (s.m.get RST_PHASE_PHASE = 6 → s.m.is (HIF_LINK_UP 1) = false → Completes .configApply s fun t =>
      t.get RST_PHASE_PHASE = 7 ∧ t.rst.coresUp = true ∧ t.is SEC_SEAL_SEALED = true ∧
      t.pwr.wgen = s.m.pwr.wgenFlash + 2 ^ 20 ∧ (t.mode = 7 ∨ t.mode = 10) ∧
      (s.m.sec.active = none → t.mode = 10))

/-- KEY_LOAD_SLOT, KEY_CLEAR_SLOT and KEY_CLEAR_ALL (R337, R338, R340, Table 14-8). A requester other than BC is
refused, and so is a load of slots 24–30; a load puts the working key into the slot, and a clear removes it from the
slot and the vault; the clear of all slots leaves slot 31. SECURITY_SEND, SECURITY_RECEIVE and SVN_RAISE (R336,
R342–R345). A Security Send acts at its overlap check: protocols other than 1 and 2 are refused, a lock setting of a
range holds from then on; a Security Receive of protocol 0 lists the protocols; the fuse counts reach the bundle's
security versions on the first M3 after an activation. It concludes that exec answers a next state, with the effect of
the command itself, under conditions on the state and the operands alone, for: securitySend, securityReceive, svnRaise,
keyLoadSlot, keyClearSlot, keyClearAll. -/
def Obligations.KeysAndSecurityProtocols : Prop :=
  (∀ s : State, Running 27 64 s.m →
    (∀ (req : Requester) (k : KeySlot), req ≠ .bc →
      ∀ i ∈ [Instr.keyLoadSlot req k, .keyClearSlot req k, .keyClearAll req], Completes i s fun t =>
        t.is SEC_ERR_NOTBC = true ∧ t.reports = s.m.reports ++ [1024] ∧ t.sec = s.m.sec) ∧
    (∀ k : KeySlot,
      (24 ≤ k.val → k.val ≤ 30 → Completes (.keyLoadSlot .bc k) s fun t =>
        t.is SEC_ERR_KEYOP = true ∧ t.reports = s.m.reports ++ [1028] ∧ t.sec = s.m.sec) ∧
      (s.m.mode = 11 → (k.val < 24 ∨ k.val = 31) → Yields (.keyLoadSlot .bc k) s s.m) ∧
      (s.m.mode ≠ 11 → (k.val < 24 ∨ k.val = 31) → Completes (.keyLoadSlot .bc k) s fun t =>
        t.sec.slots[k] = s.m.sec.work ∧ t.bitAt SEC_SLOTS_LOADED k.val = true ∧
        (∀ h : k.val < 24, t.sec.vault[k.val] = some s.m.sec.work ∧ t.bitAt SEC_VAULT_HELD k.val = true) ∧
        ∀ j, j ≠ k → t.sec.slots[j] = s.m.sec.slots[j] ∧ t.bitAt SEC_SLOTS_LOADED j.val = s.m.bitAt SEC_SLOTS_LOADED j.val) ∧
      (Completes (.keyClearSlot .bc k) s fun t =>
        t.sec.slots[k] = 0 ∧ t.bitAt SEC_SLOTS_LOADED k.val = false ∧
        (∀ h : k.val < 24, t.sec.vault[k.val] = none ∧ t.bitAt SEC_VAULT_HELD k.val = false) ∧
        ∀ j, j ≠ k → t.sec.slots[j] = s.m.sec.slots[j] ∧ t.bitAt SEC_SLOTS_LOADED j.val = s.m.bitAt SEC_SLOTS_LOADED j.val)) ∧
    (Completes (.keyClearAll .bc) s fun t =>
      t.sec.vault = Vector.replicate 24 none ∧ t.sec.slots[(31 : KeySlot)] = s.m.sec.slots[(31 : KeySlot)] ∧
      t.bitAt SEC_SLOTS_LOADED 31 = s.m.bitAt SEC_SLOTS_LOADED 31 ∧
      ∀ k : KeySlot, k ≠ 31 → t.sec.slots[k] = 0 ∧ t.bitAt SEC_SLOTS_LOADED k.val = false)) ∧
  (∀ (s : State) (fsn : BitVec 32) (c : Cmd),
    (s.m.checking fsn.toNat 0 0x81 = none → ∀ op e, Yields (.securitySend fsn op e) s s.m) ∧
    (s.m.checking fsn.toNat 0 0x81 = some c →
      (∀ op x, Completes (.securitySend fsn op (.hostErr x)) s fun t => Passed t c.fsn (some stTransfer) ∧ t.sec = s.m.sec) ∧
      (∀ op, c.dw 10 24 8 ≠ 1 → c.dw 10 24 8 ≠ 2 → Completes (.securitySend fsn op .ok) s fun t =>
        Passed t c.fsn (some stField) ∧ t.sec = s.m.sec) ∧
      (∀ op, c.dw 10 24 8 = 1 → c.dw 10 8 16 ≠ 0x1000 → Completes (.securitySend fsn op .ok) s fun t =>
        Passed t c.fsn (some stField) ∧ t.sec = s.m.sec) ∧
      (c.dw 10 24 8 = 1 → c.dw 10 8 16 = 0x1000 →
        (∀ r rd wr, Completes (.securitySend fsn (.lock r rd wr) .ok) s fun t =>
          Passed t c.fsn (some stOk) ∧ (t.sec.objects[r]).readLocked = rd ∧ (t.sec.objects[r]).writeLocked = wr ∧
          ∀ q, q ≠ r → t.sec.objects[q] = s.m.sec.objects[q]) ∧
        (∀ en d, Completes (.securitySend fsn (.mbrControl en d) .ok) s fun t =>
          Passed t c.fsn (some stOk) ∧ t.sec = { s.m.sec with mbrEnable := en, mbrDone := d }) ∧
        (Completes (.securitySend fsn .tperReset .ok) s fun t => Passed t c.fsn (some stOk) ∧ t.sec = s.m.sec))) ∧
    (s.m.running fsn.toNat 0 0x82 = none → ∀ e, Yields (.securityReceive fsn e) s s.m) ∧
    (s.m.running fsn.toNat 0 0x82 = some c →
      (c.dw 10 24 8 = 0 → c.dw 10 8 16 = 0 → Completes (.securityReceive fsn .ok) s fun t =>
        Ended t c.fsn stOk ∧
        t.out = .returned c.fsn (padTo (c.cdw 11) [0, 0, 0, 0, 0, 0, 0, 3, 0, 1, 2]) :: s.m.out) ∧
      (c.dw 10 24 8 = 1 → c.dw 10 8 16 = 1 → Completes (.securityReceive fsn .ok) s fun t =>
        Ended t c.fsn stOk ∧ t.out = .returned c.fsn (padTo (c.cdw 11) s.m.discovery) :: s.m.out) ∧
      (2 < c.dw 10 24 8 → Completes (.securityReceive fsn .ok) s fun t => Ended t c.fsn stField ∧ t.out = s.m.out)) ∧
    (s.m.sec.active = none ∨ s.m.sec.svnDue = false ∨ s.m.mode ≠ 3 → Yields .svnRaise s s.m) ∧
    (∀ b, s.m.sec.active = some b → s.m.sec.svnDue = true → s.m.mode = 3 → Completes .svnRaise s fun t =>
      t.sec.svnDue = false ∧ t.sec.fuses.cfg = max s.m.sec.fuses.cfg (min 64 b.svnCfg) ∧
      t.sec.fuses.patch = (if b.patched = true then max s.m.sec.fuses.patch (min 64 b.svnPatch) else s.m.sec.fuses.patch) ∧
      t.sec.fuses.life = s.m.sec.fuses.life ∧ t = { s.m with sec := t.sec }))

/-- NONCE_REQUEST, TOKEN_SUBMIT, HERUG_PREPARE, DBG_GRANT, DBG_REFUSE, HERUG_OPEN and FUSE_PROGRAM (R346–R351). A nonce
serves one attempt; a token is refused for its signature, its nonce or its scope, and after three rejections the port is
locked; a grant erases the keys before anything opens; the opened state has an empty buffer and is M11; the fuses change
only in the open state under the PROG scope, and no command moves the lifecycle backward, lowers a security version or
blanks a row. It concludes that exec answers a next state, with the effect of the command itself, under conditions on
the state and the operands alone, for: nonceRequest, tokenSubmit, herugPrepare, dbgGrant, dbgRefuse, herugOpen,
fuseProgram. -/
def Obligations.Herug : Prop :=
  (∀ (i : Instr) (s : State), Completes i s fun t => s.m.sec.fuses.life ≤ t.sec.fuses.life ∧
    s.m.sec.fuses.cfg ≤ t.sec.fuses.cfg ∧ s.m.sec.fuses.patch ≤ t.sec.fuses.patch ∧
    (s.m.sec.fuses.oemKey = true → t.sec.fuses.oemKey = true)) ∧
  ∀ s : State, Running 27 64 s.m →
    (s.m.is DBG_STAT_LOCKED = true ∨ s.m.mailboxOn = false ∨ 1 < s.m.get DBG_STAT_STATE → Yields .nonceRequest s s.m) ∧
    (s.m.is DBG_STAT_LOCKED = false → s.m.mailboxOn = true → s.m.get DBG_STAT_STATE ≤ 1 →
      Completes .nonceRequest s fun t =>
        t.get DBG_STAT_STATE = 1 ∧ (∀ k : Fin 4, t.get (DBG_NONCE_NONCE k.val) = s.m.free / 2 ^ (32 * k.val) % 2 ^ 32) ∧
        t.freeCtr = s.m.freeCtr + 1 ∧ t.sec = s.m.sec) ∧
    (∀ tok, s.m.mailboxOn = false ∨ s.m.get DBG_STAT_STATE ≠ 1 → Yields (.tokenSubmit tok) s s.m) ∧
    (∀ tok : Token, s.m.mailboxOn = true → s.m.get DBG_STAT_STATE = 1 →
      (Completes (.tokenSubmit tok) s fun t =>
        (∀ k : Fin 4, t.get (DBG_NONCE_NONCE k.val) = 0) ∧ (t.get DBG_STAT_STATE = 0 ∨ t.get DBG_STAT_STATE = 2)) ∧
      (tok.sigSceka = false → (tok.sigOem = false ∨ s.m.sec.fuses.life ≠ 1) → Completes (.tokenSubmit tok) s fun t =>
        t.get DBG_STAT_STATE = 0 ∧ t.is DBG_ERR_BADSIG = true ∧ t.reports = s.m.reports ++ [1030] ∧
        t.sec.rejects = s.m.sec.rejects + 1 ∧ (2 ≤ s.m.sec.rejects → t.is DBG_STAT_LOCKED = true)) ∧
      (tok.sigSceka = true → tok.serial ≠ s.m.sec.fuses.serial → Completes (.tokenSubmit tok) s fun t =>
        t.get DBG_STAT_STATE = 0 ∧ t.is DBG_ERR_BADNONCE = true ∧ t.reports = s.m.reports ++ [1031]) ∧
      (tok.sigSceka = true → tok.serial = s.m.sec.fuses.serial →
        (∀ k : Fin 4, s.m.get (DBG_NONCE_NONCE k.val) = tok.nonce.toNat / 2 ^ (32 * k.val) % 2 ^ 32) →
        Completes (.tokenSubmit tok) s fun t =>
          t.get DBG_STAT_STATE = 2 ∧ t.get DBG_STAT_SCOPE = tok.scope.toNat % 256 ∧ t.sec.scope = tok.scope ∧
          t.reports = s.m.reports ++ [1029])) ∧
    (s.m.get DBG_STAT_STATE ≠ 2 → ∀ i ∈ [Instr.herugPrepare, .dbgGrant, .dbgRefuse], Yields i s s.m) ∧
    (s.m.get DBG_STAT_STATE = 2 →
      (s.m.rst.coresUp = true → Completes .herugPrepare s fun t =>
        t.is QSQ_CTRL_FETCH_EN0 = false ∧ t.is QSQ_CTRL_FETCH_EN1 = false ∧
        (s.m.cmd.table = [] → s.m.sec.scope.getLsbD 2 = true →
          ∀ a : Actuator, s.m.is (VCM_STAT_PARKED a.val) = false → CanRetract s.m a → t.die.retract[a] = .velocity)) ∧
      (Completes .dbgGrant s fun t =>
        t.get DBG_STAT_STATE = 3 ∧ t.sec.slots = Vector.replicate 32 0 ∧ t.sec.vault = Vector.replicate 24 none ∧
        t.get SEC_SLOTS_LOADED = 0 ∧ t.get SEC_VAULT_HELD = 0 ∧ t.is DMA_CTRL_BLOCK0 = true ∧ t.is DMA_CTRL_BLOCK1 = true ∧
        (s.m.sec.scope.getLsbD 2 = true → t.sec.flash.forced = s.m.pwr.dirty.length)) ∧
      (Completes .dbgRefuse s fun t =>
        t.get DBG_STAT_STATE = 0 ∧ t.get DBG_STAT_SCOPE = 0 ∧ t.is DBG_ERR_REFUSED = true ∧
        t.reports = s.m.reports ++ [1033] ∧ t.sec = { s.m.sec with scope := 0 })) ∧
    (s.m.get DBG_STAT_STATE ≠ 3 → Yields .herugOpen s s.m) ∧
    (s.m.get DBG_STAT_STATE = 3 → Completes .herugOpen s fun t =>
      t.mode = 11 ∧ t.get DBG_STAT_STATE = 4 ∧ t.buf.mem = BufMem.initial ∧ t.pwr.dirty = [] ∧
      t.get DBG_COUNT_OPENS = min 255 (s.m.get DBG_COUNT_OPENS + 1) ∧ [1034] <:+: t.reports) ∧
    (∀ ret, s.m.get DBG_STAT_STATE ≠ 4 ∨ s.m.sec.scope.getLsbD 3 = false → Yields (.fuseProgram ret) s s.m) ∧
    (∀ ret, s.m.get DBG_STAT_STATE = 4 → s.m.sec.scope.getLsbD 3 = true → Completes (.fuseProgram ret) s fun t =>
      (ret = true → s.m.sec.fuses.life = 1 → t.sec.fuses = { s.m.sec.fuses with life := 2 }) ∧
      (ret = false → s.m.sec.fuses.oemKey = false → s.m.sec.fuses.life = 0 →
        t.sec.fuses = { s.m.sec.fuses with oemKey := true, life := 1 }) ∧
      (ret = false → s.m.sec.fuses.oemKey = true → t = s.m) ∧
      (s.m.sec.fuses.life = 2 → t = s.m))

/-- FOP_READ, FOP_WRITE, FOP_COMPLETE, MBREQ and EVENT (R223, R355, R357, R359, R404). A word with a FOP makes it
outstanding and waits for the one before it; its completion clears FOP_OUT and sets FDONE; MBREQ names the mailbox that
the conditions test; EVENT reports the sequencer's source with its code. The ALU_* rows, SEQ_NOP_WORD and
SEQ_CONDITION_MET (R354, R355, R357, R360, Tables 15-4, 15-8). The word that a sequencer is on has the result and the
flags of its operation, GP0 stays 0, and the sequencer goes to the next address; a row leaves a word of another kind
alone; a waiting sequencer goes on when its condition holds; a word with reserved bits halts it. It concludes that exec
answers a next state, with the effect of the command itself, under conditions on the state and the operands alone, for:
aluAdd, aluSub, aluAnd, aluOr, aluXor, aluShiftLeft, aluShiftRight, aluMove, aluCompare, aluLdr, aluStr, aluRegRead,
aluRegWrite, seqNopWord, seqConditionMet, fopRead, fopWrite, fopComplete, mbreq, event. -/
def Obligations.SequencerWords : Prop :=
  (∀ (s : State) (q : SeqId) (inp : Bool) (u : Micro) (next : Nat), Running (seqDomain q) (seqBlock q) s.m →
    (∀ w c, s.m.executing q = true → (s.m.eng.seqs[q]).held = false → fetchWord (s.m.storedWord q) = .good w → microOf w = u →
      u.wait = false → u.xop = 0 → u.alu = 0 → u.loop = 0 → c = (s.m.seqCondition q u.cond inp != u.cinv) →
      next = (if c = true then u.btgt else u.next) → next < storeSize q →
      u.illegal (seqKind q) (s.m.gp q u.areg) (u.operandB (s.m.gp q u.srcb)) (s.m.eng.seqs[q]).fop.isSome = 0 →
      ∀ p ∈ [(1, Instr.fopRead q inp), (2, .fopWrite q inp)], u.fop = p.1 →
        ((s.m.eng.seqs[q]).fop ≠ none → Yields p.2 s s.m) ∧
        ((s.m.eng.seqs[q]).fop = none → Completes p.2 s fun t =>
          (t.eng.seqs[q]).fop = some ⟨u.fop == 1, u.cls, (s.m.gp q u.areg).toNat, u.blen, false⟩ ∧
          (t.eng.seqs[q]).fdone = false ∧ t.is (SEQ_STAT_FOP_OUT q.val) = true ∧ t.get (SEQ_STAT_ADDR q.val) = next ∧
          t.buf = s.m.buf)) ∧
    ((s.m.eng.seqs[q]).fop = none → Yields (.fopComplete q) s s.m) ∧
    (∀ f, (s.m.eng.seqs[q]).fop = some f →
      (f.offered = false ∨ s.m.fopMoves q = true → Yields (.fopComplete q) s s.m) ∧
      (f.offered = true → s.m.fopMoves q = false →
        Completes (.fopComplete q) s fun t =>
          (t.eng.seqs[q]).fop = none ∧ (t.eng.seqs[q]).fdone = true ∧ t.is (SEQ_STAT_FOP_OUT q.val) = false ∧
          (f.read = true → s.m.buf.cache.misses = [] → (∀ b : Fin 16, s.m.buf.cache.queues[b] = []) → t.buf = s.m.buf) ∧
          (f.read = false → (t.eng.seqs[q]).line = (s.m.eng.seqs[q]).line))) ∧
    (AtWord s.m q inp u next → u.alu = 0 →
      (u.xop = 1 → Completes (.mbreq q inp) s fun t =>
        (t.eng.seqs[q]).mb = some (Fin.ofNat 16 (getBits (s.m.gp q u.xreg) 0 4)) ∧ t.get (SEQ_STAT_ADDR q.val) = next ∧
        (∀ b : Mailbox, b = Fin.ofNat 16 (getBits (s.m.gp q u.xreg) 0 4) → s.m.is (POOL_MBSTAT_BUSY b.val) = true →
          t.is POOL_ERR_MB_BUSY = true ∧ t.buf = s.m.buf)) ∧
      (u.xop = 3 → Completes (.event q inp) s fun t =>
        t.reports = s.m.reports ++ [1120 + q.val] ∧ t.out = .code q.val (u.imm.toNat % 256) :: s.m.out ∧
        t.get (SEQ_STAT_ADDR q.val) = next))) ∧
  (∀ (s : State) (q : SeqId) (inp : Bool) (u : Micro) (next : Nat) (a b : Word), Running (seqDomain q) (seqBlock q) s.m →
    (AtWord s.m q inp u next → u.xop = 0 → a = s.m.gp q u.srca → b = u.operandB (s.m.gp q u.srcb) →
      (∀ p ∈ [(1, Instr.aluAdd q inp), (2, .aluSub q inp), (3, .aluAnd q inp), (4, .aluOr q inp), (5, .aluXor q inp),
          (6, .aluShiftLeft q inp), (7, .aluShiftRight q inp), (8, .aluMove q inp)],
        u.alu = p.1 → Completes p.2 s fun t =>
          t.gp q u.dst = (if u.dst = 0 then 0 else (aluResult p.1 a b).value) ∧ t.get (SEQ_STAT_ADDR q.val) = next ∧
          (t.eng.seqs[q]).zero = (aluResult p.1 a b).zero ∧ (t.eng.seqs[q]).neg = (aluResult p.1 a b).neg ∧
          (∀ c, (aluResult p.1 a b).carry = some c → (t.eng.seqs[q]).carry = c) ∧
          ∀ r, r ≠ u.dst → t.gp q r = s.m.gp q r) ∧
      (u.alu = 9 → Completes (.aluCompare q inp) s fun t =>
        (t.eng.seqs[q]).zero = (a == b) ∧ (t.eng.seqs[q]).neg = (a - b).msb ∧ (t.eng.seqs[q]).gp = (s.m.eng.seqs[q]).gp ∧
        t.get (SEQ_STAT_ADDR q.val) = next) ∧
      (u.alu = 10 → Completes (.aluLdr q inp) s fun t =>
        t.gp q u.dst = (if u.dst = 0 then 0 else (s.m.eng.seqs[q]).line[Fin.ofNat 128 ((a + b).toNat % 128)]) ∧
        (t.eng.seqs[q]).line = (s.m.eng.seqs[q]).line ∧ t.get (SEQ_STAT_ADDR q.val) = next) ∧
      (u.alu = 11 → Completes (.aluStr q inp) s fun t =>
        (t.eng.seqs[q]).line = (s.m.eng.seqs[q]).line.set (Fin.ofNat 128 ((a + b).toNat % 128)) (s.m.gp q u.dst) ∧
        (t.eng.seqs[q]).gp = (s.m.eng.seqs[q]).gp ∧ t.get (SEQ_STAT_ADDR q.val) = next) ∧
      (u.alu = 12 → Completes (.aluRegRead q inp) s fun t =>
        t.gp q u.dst = (if u.dst = 0 then 0 else if 4 * b.toNat < 0x10000 then s.m.busRead (ownBase q + 4 * b.toNat) else 0) ∧
        t.get (SEQ_STAT_ADDR q.val) = next) ∧
      (u.alu = 13 → Yields (.aluRegWrite q inp) s
        (((Mach.watched (fun m => m.busWrite (.seq q) (ownBase q + 4 * b.toNat) a)) s.m).goTo q next)) ∧
      (∀ i ∈ [Instr.aluAdd q inp, .aluSub q inp, .aluAnd q inp, .aluOr q inp, .aluXor q inp, .aluShiftLeft q inp,
          .aluShiftRight q inp, .aluMove q inp, .aluCompare q inp, .aluLdr q inp, .aluStr q inp, .aluRegRead q inp],
        Completes i s fun t => Frame [.freeCtr, .eng] [REG_SEQ_STAT q.val] s.m t ∧ t.eng.stores = s.m.eng.stores ∧
          t.eng.tables = s.m.eng.tables ∧ ∀ p, p ≠ q → t.eng.seqs[p] = s.m.eng.seqs[p]) ∧
      (u.alu = 0 → Yields (.seqNopWord q inp) s (s.m.goTo q next)) ∧
      (u.alu ≠ 0 → Yields (.seqNopWord q inp) s s.m)) ∧
    (s.m.executing q = true → (s.m.eng.seqs[q]).held = true → u = s.m.currentWord q →
      (s.m.seqCondition q u.cond inp = u.cinv → Yields (.seqConditionMet q inp) s s.m) ∧
      (s.m.seqCondition q u.cond inp ≠ u.cinv → u.next < storeSize q →
        Yields (.seqConditionMet q inp) s (s.m.goTo q u.next))) ∧
    (∀ w, s.m.executing q = true → (s.m.eng.seqs[q]).held = false → fetchWord (s.m.storedWord q) = .good w → microOf w = u →
      u.next < storeSize q → u.btgt < storeSize q → u.rsvd ≠ 0 → Completes (.seqNopWord q inp) s fun t =>
        t.get (SEQ_STAT_STATE q.val) = 3 ∧ t.is (SEQ_HALT_VALID q.val) = true ∧ t.get (SEQ_HALT_CAUSE q.val) = 3 ∧
        t.get (SEQ_HALT_ADDR q.val) = s.m.get (SEQ_STAT_ADDR q.val) ∧ [1088 + q.val] <:+: t.reports) ∧
    (s.m.executing q = true → (s.m.eng.seqs[q]).held = false → fetchWord (s.m.storedWord q) = .double →
      Completes (.seqNopWord q inp) s fun t =>
        t.get (SEQ_STAT_STATE q.val) = 3 ∧ t.get (SEQ_HALT_CAUSE q.val) = 1 ∧ [1088 + q.val] <:+: t.reports))

/-- SEQ_CSDATA_WRITE, QSQ_DTDATA_WRITE, SEQ_RUN_WRITE, QSQ_CSSWAP and SWAP_BUSY_END (R362–R364). Only BC loads stores
and tables and starts sequencers; a word goes into the shadow bank; a dispatch entry that fails BC's check is stored
invalid; a swap flips every bank and restarts every sequencer at address 0, and is refused while one of them is not
idle. It concludes that exec answers a next state, with the effect of the command itself, under conditions on the state
and the operands alone, for: seqCsdataWrite, qsqDtdataWrite, seqRunWrite, qsqCsswap, swapBusyEnd. -/
def Obligations.ControlStores : Prop :=
  ∀ (s : State) (q : SeqId),
    (Running (seqDomain q) (seqBlock q) s.m →
      (∀ req k w, req ≠ .bc → Completes (.seqCsdataWrite req q k w) s fun t =>
        t.is SEC_ERR_NOTBC = true ∧ t.reports = s.m.reports ++ [1024] ∧ t.eng = s.m.eng) ∧
      (∀ (k : Fin 4) w, k ≠ 3 → Completes (.seqCsdataWrite .bc q k w) s fun t =>
        t.word (REG_SEQ_CSDATA q.val k.val) = w ∧ t.eng = s.m.eng ∧
        ∀ a, a ≠ REG_SEQ_CSDATA q.val k.val → t.word a = s.m.word a) ∧
      (∀ w a, a = s.m.get (SEQ_CSADDR_ADDR q.val) → a < storeSize q → Completes (.seqCsdataWrite .bc q 3 w) s fun t =>
        t.storeWord q (1 - s.m.csBank q) a = s.m.csData q w ∧
        t.eng.stores[q][s.m.csBank q] = s.m.eng.stores[q][s.m.csBank q] ∧ t.eng.seqs = s.m.eng.seqs ∧
        t.get (SEQ_CSADDR_ADDR q.val) = (if s.m.is (SEQ_CSADDR_AUTOINC q.val) = true then (a + 1) % storeSize q else a)) ∧
      (∀ req run, req ≠ .bc → Completes (.seqRunWrite req q run) s fun t => t.is SEC_ERR_NOTBC = true ∧ t.eng = s.m.eng) ∧
      (Yields (.seqRunWrite .bc q false) s s.m) ∧
      (s.m.is (SEQ_CTRL_RUN q.val) = true → Yields (.seqRunWrite .bc q true) s s.m) ∧
      (s.m.is (SEQ_CTRL_RUN q.val) = false → Completes (.seqRunWrite .bc q true) s fun t =>
        t.is (SEQ_CTRL_RUN q.val) = true ∧ t.get (SEQ_STAT_ADDR q.val) = 0 ∧ t.get (SEQ_STAT_STATE q.val) = 1 ∧
        t.eng.seqs[q] = Seq.initial ∧ ∀ p, p ≠ q → t.eng.seqs[p] = s.m.eng.seqs[p])) ∧
    (Running 19 38 s.m →
      (∀ req w, req ≠ .bc → Completes (.qsqDtdataWrite req w) s fun t => t.is SEC_ERR_NOTBC = true ∧ t.eng = s.m.eng) ∧
      (∀ w, Completes (.qsqDtdataWrite .bc w) s fun t =>
        t.eng.tables[s.m.dtBank] = s.m.eng.tables[s.m.dtBank] ∧
        (entryOk (s.m.get QSQ_DTADDR_TABLE) (s.m.get QSQ_DTADDR_OPC) w = true →
          getPair 0 (s.m.get QSQ_DTADDR_TABLE * 256 + s.m.get QSQ_DTADDR_OPC) t.eng.tables[1 - s.m.dtBank] = w ∧
          t.reports = s.m.reports) ∧
        (entryOk (s.m.get QSQ_DTADDR_TABLE) (s.m.get QSQ_DTADDR_OPC) w = false →
          getPair 0 (s.m.get QSQ_DTADDR_TABLE * 256 + s.m.get QSQ_DTADDR_OPC) t.eng.tables[1 - s.m.dtBank] = w &&& ~~~1 ∧
          t.is QSQ_DTERR_BAD = true ∧ t.reports = s.m.reports ++ [140])) ∧
      ((∃ p : SeqId, s.m.seqIdle p = false) → Completes .qsqCsswap s fun t =>
        t.is QSQ_CSSWAP_ERR = true ∧ t.reports = s.m.reports ++ [141] ∧ t.eng = s.m.eng ∧
        t.get QSQ_CSSWAP_BANK = s.m.get QSQ_CSSWAP_BANK) ∧
      ((∀ p : SeqId, s.m.is (SEQ_CTRL_RUN p.val) = false) → s.m.cmd.quiet = none → Completes .qsqCsswap s fun t =>
        t.is QSQ_CSSWAP_BUSY = true ∧ t.get QSQ_CSSWAP_BANK = 1 - s.m.get QSQ_CSSWAP_BANK ∧ t.eng.stores = s.m.eng.stores ∧
        t.eng.tables = s.m.eng.tables ∧ t.eng.seqs = Vector.replicate 20 Seq.initial ∧
        t.get (SEQ_STAT_BANK q.val) = 1 - s.m.get (SEQ_STAT_BANK q.val) ∧ t.get (SEQ_STAT_ADDR q.val) = 0) ∧
      Completes .swapBusyEnd s fun t =>
        t.is QSQ_CSSWAP_BUSY = false ∧ t.get QSQ_CSSWAP_BANK = s.m.get QSQ_CSSWAP_BANK ∧ t.eng = s.m.eng)

/-- POWER_ON_RESET, BROWN_OUT_RESET, RESET_N_ASSERT, RESET_N_RELEASE, RST_SWRST_WRITE, CHIPRST, CORE_WATCHDOG_EXPIRY,
CORE_LOCKUP, FABRIC_WATCHDOG_EXPIRY, CLOCK_FAILURE, CLOCK_GOOD_TIMEOUT and STORM_HOLD_END (R48, R305, R353, R369–R377,
R381). Every source that applies takes the reset entry with its cause; one that arrives during an entry only adds its
cause, but for the cold ones; the eighth reset within a second begins the storm hold. It concludes that exec answers a
next state, with the effect of the command itself, under conditions on the state and the operands alone, for:
fabricWatchdogExpiry, powerOnReset, brownOutReset, resetNAssert, resetNRelease, rstSwrstWrite, chiprst,
coreWatchdogExpiry, coreLockup, clockFailure, clockGoodTimeout, stormHoldEnd. -/
def Obligations.ResetRequests : Prop :=
  ∀ s : State, Safe s →
    (Completes .powerOnReset s fun t => ResetTaken t .powerOn ∧ t.rst.origin = s.m.clock ∧ t.rst.history = []) ∧
    (∀ rail : Fin 7, s.m.mode = 8 → rail.val ≤ 2 ∨ rail.val = 6 → Yields (.brownOutReset rail) s s.m) ∧
    (∀ rail, s.m.mode = 9 → Yields (.brownOutReset rail) s (s.m.report 997)) ∧
    (∀ rail, s.m.mode ≠ 9 → (s.m.mode ≠ 8 ∨ (2 < rail.val ∧ rail.val ≠ 6)) →
      Completes (.brownOutReset rail) s fun t => ResetTaken t .brownOut) ∧
    (Completes .resetNRelease s fun t => t.rst.pinLow = false ∧ t = { s.m with rst := t.rst }) ∧
    (Completes .stormHoldEnd s fun t => t.rst.stormHold = false ∧ t = { s.m with rst := t.rst }) ∧
    (s.m.rst.entering = true →
      (Completes .resetNAssert s fun t =>
        t.rst.pinLow = true ∧ t.get RST_CAUSE_SRC = s.m.get RST_CAUSE_SRC ||| 4 ∧
        t.get RST_CAUSE_FIRST = s.m.get RST_CAUSE_FIRST ∧ t.rst.history = s.m.rst.history) ∧
      ∀ k, ∀ i ∈ [Instr.coreWatchdogExpiry k, .coreLockup k], Yields i s s.m) ∧
    (s.m.rst.entering = false →
      (Completes .resetNAssert s fun t => ResetTaken t .pin ∧ t.rst.pinLow = true) ∧
      (∀ k : Fin 16, ∀ req ∈ [Requester.bc, .core k],
        (Completes (.rstSwrstWrite req 0x53575254) s fun t => ResetTaken t .software) ∧
        ∀ w, w ≠ 0x53575254 → Completes (.rstSwrstWrite req w) s fun t =>
          t.is RST_ERR_SW_KEY = true ∧ t.reports = s.m.reports ++ [1058] ∧ t.rst = s.m.rst) ∧
      (s.m.bar2Open = true → Completes (.rstSwrstWrite .bar2 0x53575254) s fun t => ResetTaken t .software) ∧
      (s.m.bar2Open = false → ∀ w, Yields (.rstSwrstWrite .bar2 w) s s.m) ∧
      (∀ q w, Completes (.rstSwrstWrite (.seq q) w) s fun t => t.is RST_ERR_SW_KEY = true ∧ t.rst = s.m.rst) ∧
      (s.m.get DBG_STAT_STATE = 4 → Completes .chiprst s fun t => ResetTaken t .debug) ∧
      (s.m.get DBG_STAT_STATE ≠ 4 → Yields .chiprst s s.m) ∧
      (∀ k : Fin 12, s.m.coreRuns k.val = true →
        (Completes (.coreWatchdogExpiry k) s fun t => ResetTaken t .coreWatchdog ∧ t.get RST_INFO_CORE = k.val) ∧
        Completes (.coreLockup k) s fun t => ResetTaken t .lockUp ∧ t.get RST_INFO_CORE = k.val) ∧
      (∀ k : Fin 12, s.m.coreRuns k.val = false → Yields (.coreWatchdogExpiry k) s s.m ∧ Yields (.coreLockup k) s s.m) ∧
      (s.m.wdgRuns = false → Yields .fabricWatchdogExpiry s s.m) ∧
      (∀ f rest, s.m.wdgRuns = true → s.m.clockGood 8 = true → s.m.cal.flights = f :: rest → Completes .fabricWatchdogExpiry s fun t =>
        ResetTaken t .fabricWatchdog ∧ t.get FAB_WDG_LAST_PORT = f.port.val ∧ t.get FAB_WDG_LAST_CLASS = f.cls.val ∧
        t.is FAB_WDG_LAST_VALID = true ∧ t.get FAB_WDG_LAST_COUNT = min 255 (s.m.get FAB_WDG_LAST_COUNT + 1)) ∧
      (∀ (d : Fin 64) (k : Fin 3), d.val ≤ 37 →
        (s.m.gateOpen d.val = false ∨ s.m.clockGood d.val = false → Yields (.clockFailure d k) s s.m) ∧
        (s.m.gateOpen d.val = true → s.m.clockGood d.val = true → k = 0 → Completes (.clockFailure d k) s fun t =>
          ResetTaken t .clockFailure ∧ t.get RST_INFO_DOMAIN = d.val ∧ t.get RST_INFO_KIND = 0)) ∧
      (s.m.rst.xtal = true → Completes (.clockFailure 62 0) s fun t =>
        ResetTaken t .clockFailure ∧ t.rst.xtal = false ∧ t.get CLK_STAT_AON_SRC = 1 ∧ t.is CLK_STAT_XTAL_GOOD = false ∧
        t.reports = [1060]) ∧
      (∀ d : Domain, d ∉ s.m.rst.waiting → Yields (.clockGoodTimeout d) s s.m) ∧
      (∀ d : Domain, d ∈ s.m.rst.waiting → d.val ≠ 38 → Completes (.clockGoodTimeout d) s fun t =>
        ResetTaken t .clockFailure ∧ t.get RST_INFO_DOMAIN = d.val ∧ t.get RST_INFO_KIND = 3) ∧
      (7 ≤ (s.m.rst.history.filter fun x => decide (s.m.aonTime - x < 1000000)).length →
        Completes (.rstSwrstWrite .bc 0x53575254) s fun t =>
          t.rst.stormHold = true ∧ t.is RST_STAT_STORM = true ∧
          t.get RST_CNT_STORMS = min 255 (s.m.get RST_CNT_STORMS + 1)))

/-- PHASE_P0, RAIL_RAMP_TIMEOUT, CRYSTAL_GOOD, PLL_LOCK, CLOCK_START, DOMAIN_RELEASE, CLK_GATE_WRITE, SLEEP_ENTRY, WAKE,
POWER_DIE_POWER_ON and PREAMP_RAIL_LIMIT (R306, R308, R366–R372, R378, R379, R384, R386, R394). Each phase waits for
what it needs; a domain is released only while its gate is open; a gate that may not close is refused whole; sleep stops
every clock but F-AON's and wake leads to M7; a rail over its limit goes off with its pair. It concludes that exec
answers a next state, with the effect of the command itself, under conditions on the state and the operands alone, for:
sleepEntry, wake, phaseP0, railRampTimeout, crystalGood, pllLock, clockStart, domainRelease, clkGateWrite,
preampRailLimit, powerDiePowerOn. -/
def Obligations.ClocksAndSleep : Prop :=
  ∀ s : State, Safe s →
    (s.m.rst.entering = false ∨ s.m.rst.pinLow = true ∨ s.m.rst.stormHold = true ∨ s.m.die.v12Ok = false ∨
      s.m.die.v5Ok = false → Yields .phaseP0 s s.m) ∧
    (s.m.rst.entering = true → s.m.rst.fromP0 = true →
      (s.m.rst.pinLow = false → s.m.rst.stormHold = false → s.m.die.v12Ok = true → s.m.die.v5Ok = true →
        Completes .phaseP0 s fun t => t.get PWR_RAILS_GOOD = 255 ∧ t.rst.railsOff = false) ∧
      (s.m.get PWR_RAILS_GOOD % 256 ≠ 255 → Completes .railRampTimeout s fun t =>
        t.get PWR_RAILS_GOOD = 128 ∧ t.rst.railsOff = true)) ∧
    (s.m.rst.entering = false → Yields .railRampTimeout s s.m) ∧
    (Completes .crystalGood s fun t =>
      t.rst.xtal = true ∧ t.is CLK_STAT_XTAL_GOOD = true ∧ t.get CLK_STAT_AON_SRC = 0 ∧ t.clockGood 39 = true) ∧
    Yields .pllLock s (if s.m.rst.pllOn = true then s.m.set CLK_STAT_RPLL_LOCK 1 else s.m) ∧
    (s.m.rst.entering = true ∨ s.m.get RST_PHASE_PHASE ≠ 3 ∨ s.m.rst.pllOn = true → Yields .clockStart s s.m) ∧
    (s.m.rst.entering = false → s.m.get RST_PHASE_PHASE = 3 → s.m.rst.pllOn = false → Completes .clockStart s fun t =>
      t.rst.pllOn = true ∧ t = { s.m with rst := t.rst } ∧
      ∀ d : Domain, d ∈ t.rst.waiting ↔ (d.val ≤ 38 ∧ s.m.gateOpen d.val = true)) ∧
    (∀ d : Domain, s.m.gateOpen d.val = false ∨ d ∉ s.m.rst.waiting → Yields (.domainRelease d) s s.m) ∧
    (∀ d : Domain, s.m.gateOpen d.val = true → s.m.is CLK_STAT_RPLL_LOCK = true →
      (if s.m.get RST_PHASE_PHASE = 3 then s.m.rst.waiting.head? = some d else d ∈ s.m.rst.waiting) →
      Completes (.domainRelease d) s fun t =>
        t.clockGood d.val = true ∧ t.rst.inReset[d] = false ∧ d ∉ t.rst.waiting ∧
        (s.m.get RST_PHASE_PHASE = 3 → s.m.rst.waiting = [d] → t.get RST_PHASE_PHASE = 4)) ∧
    (∀ req (half : Fin 2) (w : Word),
      ((∃ d : Domain, 32 * half.val ≤ d.val ∧ d.val < 32 * half.val + 32 ∧ s.m.gateOpen d.val = true ∧
          w.getLsbD (d.val - 32 * half.val) = false ∧ s.m.closureRefused req d.val = true) →
        Completes (.clkGateWrite req half w) s fun t =>
          t.is CLK_ERR_GATE = true ∧ t.reports = s.m.reports ++ [1056] ∧ t.rst = s.m.rst ∧
          ∀ d : Domain, t.gateOpen d.val = s.m.gateOpen d.val) ∧
      ((∀ d : Domain, 32 * half.val ≤ d.val → d.val < 32 * half.val + 32 → s.m.gateOpen d.val = true →
          w.getLsbD (d.val - 32 * half.val) = false → s.m.closureRefused req d.val = false) →
        Completes (.clkGateWrite req half w) s fun t =>
          ∀ d : Domain, 32 * half.val ≤ d.val → d.val < 32 * half.val + 32 →
            t.gateOpen d.val = w.getLsbD (d.val - 32 * half.val) ∧
            (s.m.gateOpen d.val = true → t.gateOpen d.val = false → t.clockGood d.val = false) ∧
            (s.m.gateOpen d.val = false → t.gateOpen d.val = true → d ∈ t.rst.waiting))) ∧
    (s.m.sleepReady = false → Yields .sleepEntry s s.m) ∧
    (s.m.sleepReady = true → Completes .sleepEntry s fun t =>
      t.mode = 8 ∧ t.rst.coresUp = false ∧ t.is CLK_STAT_RPLL_LOCK = false ∧ t.get PWR_RAILS_GOOD = 184 ∧
      t.die.paOff = Vector.replicate 4 true ∧ t.buf.vsramOff = true ∧
      ∀ d : Domain, t.clockGood d.val = decide (d.val = 39)) ∧
    (∀ p perst, s.m.mode ≠ 8 ∨ s.m.rst.entering = true → Yields (.wake p perst) s s.m) ∧
    (∀ p perst, s.m.mode = 8 → s.m.rst.entering = false →
      (s.m.get SEC_BOOT_ACTIVE = 1 → s.m.is (HIF_LINK_UP 1) = false → Completes (.wake p perst) s fun t =>
        t.rst.coresUp = true ∧ t.is CLK_STAT_RPLL_LOCK = true ∧ t.cal.running = true ∧ t.mode = 7) ∧
      (s.m.get SEC_BOOT_ACTIVE ≠ 1 → s.m.slotVerdict (s.m.get SEC_BOOT_ACTIVE) ≠ 0 → Completes (.wake p perst) s fun t =>
        ResetTaken t .software)) ∧
    (Completes .powerDiePowerOn s fun t =>
      t.die = PowerDie.initial ∧ t.word REG_SPN_BRK = resetWord REG_SPN_BRK ∧
      ∀ a : Actuator, t.is (VCM_STAT_PARKED a.val) = true) ∧
    (∀ a : Actuator, s.m.die.paOff[a] = true → Yields (.preampRailLimit a) s s.m) ∧
    (∀ a : Actuator, s.m.die.paOff[a] = false → Completes (.preampRailLimit a) s fun t =>
      t.die.paOff[a] = true ∧ t.bitAt PWR_RAILS_GOOD (8 + a.val) = false ∧ t.bitAt PWR_RAILS_GOOD (12 + a.val) = false ∧
      t.is (SRV_STAT_WSAFE a.val) = false ∧ [Mach.actSource a 14] <:+: t.reports)

/-- Every BLOCK_RESET_* row and BLOCK_RESET_RELEASE (R80, R108, R135, R163, R211, R240, R255, R382, R383, Table 16-7). A
request is refused, with RST_ERR.BLK_BUSY and its event, while the block is in reset, is not idle, or has a halted
sequencer; otherwise the block is in reset, and no other block changes. The release waits for the clock of the block. It
concludes that exec answers a next state, with the effect of the command itself, under conditions on the state and the
operands alone, for: blockResetChn, blockResetFmt, blockResetLad, blockResetSrv, blockResetHsq, blockResetDec,
blockResetPrg, blockResetQdr, blockResetSpn, blockResetVcm, blockResetPool, blockResetCch, blockResetScb, blockResetDma,
blockResetQsq, blockResetRelease. -/
def Obligations.BlockResets : Prop :=
  ∀ (s : State) (n : Stream) (a : Actuator), Safe s →
    (∀ p ∈ [(Instr.blockResetChn n, n.val, s.m.chanIdle n), (.blockResetFmt n, 8 + n.val, s.m.fmtIdle n),
        (.blockResetLad a, 16 + a.val, s.m.ladIdle a), (.blockResetSrv a, 20 + a.val, s.m.srvIdle a),
        (.blockResetHsq a, 24 + a.val, !s.m.is (HSQ_CTRL_EN a.val) && !s.m.gateUp a),
        (.blockResetDec, 28, !s.m.is DEC_BUSY_ENG), (.blockResetPrg, 29, s.m.prgIdle),
        (.blockResetQdr, 30, !s.m.is QDR_CTRL_EN && !s.m.is QDR_TORQ_TOTAL), (.blockResetSpn, 32, s.m.spnIdle),
        (.blockResetVcm, 33, s.m.allParked), (.blockResetPool, 34, (allFin 8).all fun p => !s.m.is (POOL_CFG_EN p.val)),
        (.blockResetCch, 35, !s.m.is CCH_CTRL_EN && !s.m.is CCH_MOP_STAT_BUSY), (.blockResetScb, 36, !s.m.is SCB_STAT_BUSY),
        (.blockResetDma, 37, !s.m.is DMA_CTRL_EN && s.m.dma.chans.all (·.isNone)),
        (.blockResetQsq, 38, !s.m.is QSQ_CTRL_FETCH_EN0 && !s.m.is QSQ_CTRL_FETCH_EN1 && !s.m.is QSQ_STAT_BUSY &&
          !s.m.is QSQ_STAT_INFLIGHT0 && !s.m.is QSQ_STAT_INFLIGHT1 && s.m.cmd.table.isEmpty)],
      ((s.m.blockBusy p.2.1 = true ∨ p.2.2 = false ∨ ∃ q ∈ blockSeqs p.2.1, s.m.get (SEQ_STAT_STATE q.val) = 3) →
        Completes p.1 s fun t =>
          t.is RST_ERR_BLK_BUSY = true ∧ t.reports = s.m.reports ++ [1057] ∧
          t = { s.m with regs := t.regs, reports := t.reports } ∧ ∀ r, r ≠ REG_RST_ERR → t.word r = s.m.word r) ∧
      (s.m.blockBusy p.2.1 = false → p.2.2 = true → (∀ q ∈ blockSeqs p.2.1, s.m.get (SEQ_STAT_STATE q.val) ≠ 3) →
        Completes p.1 s fun t =>
          t.blockBusy p.2.1 = true ∧ t.reports = s.m.reports ∧
          (∀ b : Fin 39, b.val ≠ p.2.1 → t.blockBusy b.val = s.m.blockBusy b.val) ∧
          (∀ q ∈ blockSeqs p.2.1, t.eng.seqs[q] = Seq.initial ∧ t.get (SEQ_STAT_ADDR q.val) = 0) ∧
          ∀ q : SeqId, q ∉ blockSeqs p.2.1 → t.eng.seqs[q] = s.m.eng.seqs[q])) ∧
    (∀ b : Fin 39,
      (s.m.blockBusy b.val = false → Yields (.blockResetRelease b) s s.m) ∧
      (s.m.blockBusy b.val = true → s.m.clockGood (blockDomain b.val) = true → Completes (.blockResetRelease b) s fun t =>
        t.blockBusy b.val = false ∧ ∀ c : Fin 39, c ≠ b → t.blockBusy c.val = s.m.blockBusy c.val) ∧
      (s.m.blockBusy b.val = true → s.m.clockGood (blockDomain b.val) = false → Completes (.blockResetRelease b) s fun t =>
        t.blockBusy b.val = true ∧ Fin.ofNat 40 (blockDomain b.val) ∈ t.rst.waiting ∧ t = { s.m with rst := t.rst }))

/-- EVENT_FIRE, EVT_CNTCLR, EVT_FIRST_CLEAR and EVT_SWRAISE (R404–R409, R413). The report that arrived first is handled:
its pending bit is set, its counter counts and saturates, an ERROR or FATAL advances EVT_SEQ and takes the first-fault
latch while it is free, and a FATAL raises CFS on both controllers and leads to M10. It concludes that exec answers a
next state, with the effect of the command itself, under conditions on the state and the operands alone, for: eventFire,
evtCntclr, evtFirstClear, evtSwraise. -/
def Obligations.EventLogic : Prop :=
  ∀ s : State, Running 26 64 s.m →
    (s.m.reports = [] → Yields (.eventFire none) s s.m) ∧
    (∀ x rest, s.m.reports = x :: rest → sourceListed x = false →
      Yields (.eventFire none) s { s.m with reports := rest }) ∧
    (∀ x : Fin 1152, sourceListed x.val = false → Yields (.eventFire (some x)) s s.m) ∧
    (∀ x : Nat, sourceListed x = true → ∀ i, (i = .eventFire none ∧ s.m.reports.head? = some x) ∨
        (∃ y : Fin 1152, i = .eventFire (some y) ∧ y.val = x) →
      Completes i s fun t =>
        t.bitAt (EVT_STAT_PEND (x / 32)) (x % 32) = true ∧
        t.get (sourceCount x) = min 65535 (s.m.get (sourceCount x) + 1) ∧
        t.evtSeq = (if 1 ≤ sourceClass x then (s.m.evtSeq + 1) % 2 ^ 64 else s.m.evtSeq) ∧
        (1 ≤ sourceClass x → s.m.is EVT_FIRST_VALID = false →
          t.is EVT_FIRST_VALID = true ∧ t.get EVT_FIRST_SOURCE = x ∧ t.get EVT_FIRST_CLASS = sourceClass x) ∧
        (sourceClass x = 0 ∨ s.m.is EVT_FIRST_VALID = true → t.word REG_EVT_FIRST = s.m.word REG_EVT_FIRST) ∧
        (sourceClass x = 2 →
          (∀ p : PortId, (t.host.ctrls[p]).cfsFatal = true) ∧ t.evt.fatalIrq = true ∧
          (s.m.rst.coresUp = true → s.m.mode ≠ 9 → s.m.mode ≠ 11 → t.mode = 10))) ∧
    (Completes .evtCntclr s fun t =>
      (∀ k : Fin 576, t.get (EVT_CNT_CNT0 k.val) = 0 ∧ t.get (EVT_CNT_CNT1 k.val) = 0) ∧
      (∀ a, a < REG_EVT_CNT 0 ∨ REG_EVT_CNT 0 + 4 * 576 ≤ a → t.word a = s.m.word a) ∧ t = { s.m with regs := t.regs }) ∧
    (Completes .evtFirstClear s fun t =>
      t.is EVT_FIRST_VALID = false ∧ t.get EVT_FIRST_SOURCE = 0 ∧ t.get EVT_FIRST_CLASS = 0 ∧ t.get EVT_FIRSTSEQ_SEQ = 0 ∧
      ∀ a, a ≠ REG_EVT_FIRST → a ≠ REG_EVT_FIRSTSEQ → t.word a = s.m.word a) ∧
    (∀ b : BitVec 5, b.toNat ≤ 19 → Yields (.evtSwraise b) s (s.m.set EVT_ERR_SW_BAD 1)) ∧
    (∀ b : BitVec 5, 20 ≤ b.toNat → Yields (.evtSwraise b) s (s.m.report (1120 + b.toNat)))

/-- LEDGER_WRITE_DONE, REC_PROGRAM, REC_ERASE, REC_DONE, SNAPSHOT_TIMER and POH_STORE (R410–R412, R416–R419). The oldest
ledger entry is written at HEAD, which advances; a recorder operation is refused while one runs, and only an erased
slot, or a sector of the last area, is changed; a snapshot and the operating hours advance while the cores run. It
concludes that exec answers a next state, with the effect of the command itself, under conditions on the state and the
operands alone, for: ledgerWriteDone, recProgram, recErase, recDone, snapshotTimer, pohStore. -/
def Obligations.LedgerAndRecorder : Prop :=
  ∀ s : State,
    (Running 26 64 s.m →
      (s.m.evt.ledger = [] → Yields .ledgerWriteDone s s.m) ∧
      (∀ e rest, s.m.evt.ledger = e :: rest → (s.m.rst.coresUp = false ∨ s.m.mode = 9) → Completes .ledgerWriteDone s fun t =>
        t.evt = { s.m.evt with ledger := rest } ∧ t.get EVT_LGR_HEAD_INDEX = (s.m.get EVT_LGR_HEAD_INDEX + 1) % 4096 ∧
        t.get EVT_LGR_TAIL_INDEX = s.m.get EVT_LGR_TAIL_INDEX ∧
        t.buf = (s.m.writeBytes (s.m.ledgerAddr (s.m.get EVT_LGR_HEAD_INDEX)) e).buf) ∧
      (s.m.is REC_STAT_BUSY = true → Yields .recProgram s s.m ∧ Yields .recErase s s.m) ∧
      (s.m.is REC_STAT_BUSY = false →
        (Completes .recProgram s fun t =>
          t.is REC_STAT_BUSY = true ∧ t.get REC_STAT_RESULT = 0 ∧ t.evt.slots = s.m.evt.slots ∧
          ∃ op, t.evt.op = some op ∧ op.program = true ∧ op.slot = s.m.get REC_DST_SLOT ∧
            (op.result = 3 ↔ ∃ x ∈ s.m.evt.slots, x.1 = s.m.get REC_DST_SLOT)) ∧
        (Completes .recErase s fun t =>
          t.is REC_STAT_BUSY = true ∧ t.get REC_STAT_RESULT = 0 ∧ t.evt.slots = s.m.evt.slots ∧
          ∃ op, t.evt.op = some op ∧ op.program = false ∧ op.slot = s.m.get REC_DST_SLOT ∧
            (op.result = 3 ↔ s.m.get REC_DST_SLOT < 65536))) ∧
      (∀ k, s.m.evt.op = none → Yields (.recDone k) s s.m) ∧
      (∀ k, s.m.quietFor (fun p o => p == Mach.recorderPort && o == 1) = false → Yields (.recDone k) s s.m) ∧
      (∀ (k : Fin 3) op, s.m.evt.op = some op → s.m.quietFor (fun p o => p == Mach.recorderPort && o == 1) = true →
        Completes (.recDone k) s fun t =>
        t.evt.op = none ∧ t.is REC_STAT_BUSY = false ∧
        (op.result = 3 → t.get REC_STAT_RESULT = 3 ∧ t.evt.slots = s.m.evt.slots) ∧
        (op.result ≠ 3 → t.get REC_STAT_RESULT = k.val) ∧
        (op.result ≠ 3 → k = 0 → op.program = true → op.bytes ≠ [] → getPair [] op.slot t.evt.slots = op.bytes) ∧
        (op.result ≠ 3 → k = 0 → op.program = false → ∀ x ∈ t.evt.slots, x.1 / 16 ≠ op.slot / 16))) ∧
    (s.m.rst.coresUp = false ∨ s.m.mode = 9 → Yields .snapshotTimer s s.m) ∧
    (s.m.rst.coresUp = true → s.m.mode ≠ 9 → Completes .snapshotTimer s fun t =>
      t.evt.snaps = s.m.evt.snaps + 1 ∧ t.evt.seq = s.m.evt.seq + 1 ∧ t.evt.base = s.m.snapNow ∧
      t.freeCtr = s.m.freeCtr + 1) ∧
    (s.m.rst.coresUp = false → Yields .pohStore s s.m) ∧
    (s.m.rst.coresUp = true → Yields .pohStore s
      { s.m with evt := { s.m.evt with poh := s.m.evt.poh + 60, pohFlash := s.m.evt.poh + 60 } })

/-- REGISTER_WRITE and BAR2_WRITE (R349, R421–R426). An access of fewer than 4 bytes changes nothing; a core that leaves
every window takes a bus error; a field that is read-only keeps its value and one that is read-write takes the written
one; a sealed field takes a write from BC alone; BAR2 writes are carried out only in an open Herug under REGS. It
concludes that exec answers a next state, with the effect of the command itself, under conditions on the state and the
operands alone, for: bar2Write, registerWrite. -/
def Obligations.RegisterWrites : Prop :=
  ∀ (s : State) (w : Word),
    (∀ (k : Fin 16) (a : BitVec 32) len, inWindow a.toNat = false → Completes (.registerWrite (.core k) a len w) s fun t =>
      t = { s.m with out := .busError k.val :: s.m.out }) ∧
    (∀ (k : Fin 16) (a : BitVec 32) (len : Fin 5), inWindow a.toNat = true → len ≠ 4 →
      Yields (.registerWrite (.core k) a len w) s s.m) ∧
    (∀ a len, Yields (.registerWrite .bar2 a len w) s s.m) ∧
    (∀ o len, s.m.bar2Open = false ∨ len ≠ 4 → Yields (.bar2Write o len w) s s.m) ∧
    (∀ o b, s.m.bar2Open = true → slotBase (o.toNat / 0x10000) = some b → Yields (.bar2Write o 4 w) s
      (Mach.watched (fun m => m.busWrite .bar2 (b + o.toNat % 0x10000) w) s.m)) ∧
    (∀ (k : Fin 16) (a : BitVec 32), inWindow a.toNat = true → Yields (.registerWrite (.core k) a 4 w) s
      (Mach.watched (fun m => m.busWrite (.core k) a.toNat w) s.m)) ∧
    (∀ (req : Requester) (a : Nat), a % 4 ≠ 0 ∨ (findReg a regBlocks).isNone = true → s.m.busWrite req a w = s.m) ∧
    (∀ (req : Requester), s.m.busWrite req REG_FUS_PART w = s.m.setWord REG_FUS_PART (s.m.word REG_FUS_PART)) ∧
    (∀ (req : Requester), ((s.m.busWrite req REG_PWR_IDLE w).word REG_PWR_IDLE) = w) ∧
    (∀ (req : Requester), req ≠ .bc → s.m.is SEC_SEAL_SEALED = true →
      ((s.m.busWrite req REG_PWR_FLEET w).word REG_PWR_FLEET) = s.m.word REG_PWR_FLEET) ∧
    ((s.m.busWrite .bc REG_PWR_FLEET w).word REG_PWR_FLEET) = w ∧
    (∀ (p : PortId),
      (Completes (.registerWrite (.bar0 p) 0x0C 4 w) s fun t =>
        (t.host.ctrls[p]).intms = (s.m.host.ctrls[p]).intms ||| w ∧ t.regs = s.m.regs) ∧
      (Completes (.registerWrite (.bar0 p) 0x10 4 w) s fun t =>
        (t.host.ctrls[p]).intms = (s.m.host.ctrls[p]).intms &&& ~~~w ∧ t.regs = s.m.regs) ∧
      (Completes (.registerWrite (.bar0 p) 0x24 4 w) s fun t =>
        (t.host.ctrls[p]).aqa = w &&& 0x0FFF0FFF ∧ t.regs = s.m.regs))

/-- The frame of the 53 commands of the caller, the read channel, the formatters and the ladder (spec/02–05) named here:
each, where the condition before it holds, answers a next state in which every part of the block, every register word
and the clock are as before, but for the parts and the registers listed beside it, `dueParts` and `dueRegs` being those
of the formatter resets that wait (R178). -/
def Obligations.FrameOfMedia : Prop :=
  ∀ s : State,
    (Completes .figureBoundary s (Frame [.reports, .cal] ([REG_CAL_ERR, REG_CAL_FIGNO, REG_CAL_STATUS] ++ each
      REG_CAL_FRONT 16 ++ each REG_CAL_USE 16) s.m)) ∧
    (Completes .releaseCycle s (Frame [.cal] [] s.m)) ∧
    (∀ (port : Port) (tag : FabClass) (less1 : Fin 8), Completes (.fabricRequest port tag less1) s (Frame [.cal, .dma,
      .eng] ([REG_CAL_STATUS, REG_FAB_STATUS] ++ each REG_FAB_PEND 4) s.m)) ∧
    (∀ (port : Port), ∀ i ∈ [Instr.fabricGrant, .burstBoundary port], Completes i s (Frame [.cal] ([REG_CAL_STATUS,
      REG_FAB_STATUS] ++ each REG_FAB_PEND 4) s.m)) ∧
    (∀ (b : Bool), Completes (.calFreeze b) s (Frame [] ([REG_CAL_CTRL, REG_CAL_STATUS, REG_FAB_STATUS] ++ each
      REG_FAB_PEND 4) s.m)) ∧
    (∀ i ∈ [Instr.calSwap, .calSwapCancel], Completes i s (Frame [] [REG_CAL_STATUS] s.m)) ∧
    (∀ (n : FabClass) (w : Word), Completes (.calBackWrite n w) s (Frame [.reports] ([REG_CAL_ERR] ++ each REG_CAL_BACK
      16) s.m)) ∧
    (Completes .fabricWatchdogHalf s (Frame [.reports, .cal] [] s.m)) ∧
    (∀ (l : Lane), Completes (.laneReady l) s (Frame [.freeCtr] (each REG_AFE_LANE_STAT 16) s.m)) ∧
    (∀ (l : Lane) (first : Nat), Completes (.taSpanDetect l first) s (Frame [.media] (each REG_AFE_LANE_STAT 16) s.m)) ∧
    (∀ (l : Lane) (last : Nat) (sat : Nat), Completes (.taSpanEnd l last sat) s (Frame [.reports, .media] (each
      REG_AFE_LANE_STAT 16 ++ each REG_CHN_CNT_TA 8) s.m)) ∧
    (∀ (l : Lane) (n : Stream) (w : Samples) (errors : List Int), ∀ i ∈ [Instr.taGainHoldEnd l, .adaptWindowEnd n w
      errors], Completes i s (Frame [.media] [] s.m)) ∧
    (∀ (n : Stream), Completes (.sectorBoundary n) s (Frame ([.reports, .out, .media, .motion, .pwr, .eng] ++ dueParts
      s.m) ([REG_KSV_GENHI, REG_KSV_GENLO] ++ each REG_CHN_TSTAT 8 ++ each REG_FMT_CNT_ABORT 8 ++ each
      REG_FMT_CNT_MISS 8 ++ each REG_FMT_ERR 8 ++ each REG_FMT_STAT 8 ++ each REG_HSQ_ERR 4 ++ each2 REG_HSQ_SEL 4 2
      ++ dueRegs s.m) s.m)) ∧
    (∀ (n : Stream) (samples : Samples), Completes (.sectorCapture n samples) s (Frame ([.freeCtr, .reports, .media, .pwr,
      .eng] ++ dueParts s.m) (each REG_AFE_LANE_STAT 16 ++ each REG_CHN_CNT_SECT 8 ++ each REG_CHN_CNT_TA 8 ++ each
      REG_CHN_SMEM 8 ++ each REG_FMT_CNT_ABORT 8 ++ each REG_FMT_CNT_MISS 8 ++ each REG_FMT_ERR 8 ++ each REG_FMT_STAT
      8 ++ dueRegs s.m) s.m)) ∧
    (∀ (n : Stream) (bits : List Bool) (phases : List Int), Completes (.syncSearchEnd n bits phases) s (Frame [.media]
      (each REG_CHN_TSTAT 8 ++ each REG_LAD_CNT_SYNC 4 ++ each2 REG_LAD_SYNCSTAT 4 2) s.m)) ∧
    (Completes .decoderGrant s (Frame [.media] ([REG_DEC_BUSY] ++ each REG_DEC_ENG 12) s.m)) ∧
    (∀ (e : Engine), Completes (.decodeComplete e) s (Frame [.reports, .cal, .media, .buf, .cmd] ([REG_DEC_BUSY,
      REG_DEC_CNT_CRC, REG_DEC_CNT_NOCONV, REG_DEC_CNT_OTF, REG_DEC_CNT_TAG, REG_POOL_ERR, REG_POOL_FIRST] ++ each
      REG_CHN_SMEM 8 ++ each REG_DEC_ENG 12 ++ each REG_DEC_ITERH 24 ++ each REG_POOL_RETSTAT 8 ++ each REG_POOL_STAT
      8) s.m)) ∧
    (∀ (k : Nat), Completes (.writeBackComplete k) s (Frame [.reports, .out, .cal, .media, .buf, .cmd] ([REG_BUF_CNT,
      REG_BUF_ERR, REG_BUF_FIRST, REG_CCH_MISS, REG_POOL_ERR, REG_POOL_FIRST] ++ each REG_CHN_SMEM 8 ++ each
      REG_POOL_RETSTAT 8 ++ each REG_POOL_STAT 8) s.m)) ∧
    (∀ (n : Stream) (data : BitVec 10), Completes (.chnCdataWrite n data) s (Frame [.reports, .media] (each REG_CHN_CADDR
      8 ++ each REG_CHN_SMEM 8) s.m)) ∧
    (∀ (n : Stream) (en : Bool), Completes (.chnEnWrite n en) s (Frame [.media] (each REG_CHN_CTRL 8 ++ each2
      REG_LAD_SYNCSTAT 4 2) s.m)) ∧
    (∀ (n : Stream), Completes (.chnCntclr n) s (Frame [] (each REG_CHN_CNT_SECT 8 ++ each REG_CHN_CNT_TA 8 ++ each
      REG_CHN_SMEM 8) s.m)) ∧
    (Completes .decCntclr s (Frame [] ([REG_DEC_CNT_CRC, REG_DEC_CNT_NOCONV, REG_DEC_CNT_OTF, REG_DEC_CNT_TAG] ++ each
      REG_DEC_ITERH 24) s.m)) ∧
    (∀ (n : Stream) (inp : Bool), ∀ u next, AtWord s.m (seqFS n) inp u next → u.alu ≠ 13 → Completes (.loaddesc n inp) s
      (Frame ([.reports, .media, .pwr, .eng] ++ dueParts s.m) ([REG_KSV_GENHI, REG_KSV_GENLO] ++ each
      REG_FMT_CNT_ABORT 8 ++ each REG_FMT_CNT_MISS 8 ++ each REG_FMT_ERR 8 ++ each REG_FMT_STAT 8 ++ each REG_SEQ_STAT
      20 ++ dueRegs s.m) s.m)) ∧
    (∀ (n : Stream) (inp : Bool), ∀ u next, AtWord s.m (seqFS n) inp u next → u.alu ≠ 13 → Completes (.loadtrk n inp) s
      (Frame [.media, .eng] (each REG_FMT_CUR 8 ++ each REG_FMT_STAT 8 ++ each REG_SEQ_STAT 20) s.m)) ∧
    (∀ (n : Stream), Completes (.trackLoaded n) s (Frame [.reports, .media] (each REG_FMT_CNT_ABORT 8 ++ each
      REG_FMT_CNT_MISS 8 ++ each REG_FMT_CUR 8 ++ each REG_FMT_ERR 8 ++ each REG_FMT_STAT 8) s.m)) ∧
    (∀ (n : Stream) (inp : Bool), ∀ u next, AtWord s.m (seqFS n) inp u next → u.alu ≠ 13 → Completes (.capture n inp) s
      (Frame ([.media, .motion, .eng] ++ dueParts s.m) (each REG_SEQ_STAT 20 ++ each REG_SRV_STAT 4 ++ each2
      REG_SRV_TARGET 4 2 ++ dueRegs s.m) s.m)) ∧
    (∀ (n : Stream) (inp : Bool), ∀ u next, AtWord s.m (seqFS n) inp u next → u.alu ≠ 13 → Completes (.write n inp) s
      (Frame ([.freeCtr, .media, .motion, .eng] ++ dueParts s.m) (each REG_SEQ_STAT 20 ++ dueRegs s.m) s.m)) ∧
    (∀ (n : Stream) (inp : Bool), ∀ u next, AtWord s.m (seqFS n) inp u next → u.alu ≠ 13 → Completes (.complete n inp) s
      (Frame ([.reports, .out, .cal, .media, .pwr, .buf, .cmd, .sec, .eng] ++ dueParts s.m) ([REG_BUF_CNT,
      REG_BUF_ERR, REG_BUF_FIRST, REG_CCH_MISS, REG_POOL_ERR, REG_POOL_FIRST, REG_SEC_SLOTS, REG_SEC_VAULT] ++ each
      REG_FMT_CNT_WR 8 ++ each REG_FMT_DMAP_COUNT 8 ++ each REG_FMT_RING_HEAD 8 ++ each REG_POOL_RETSTAT 8 ++ each
      REG_POOL_STAT 8 ++ each REG_SEQ_STAT 20 ++ dueRegs s.m) s.m)) ∧
    (∀ (n : Stream) (grouped : Bool), Completes (.writePathFetch n grouped) s (Frame ([.reports, .out, .cal, .media,
      .motion, .pwr, .buf, .eng] ++ dueParts s.m) ([REG_BUF_CNT, REG_BUF_ERR, REG_BUF_FIRST, REG_CCH_MISS,
      REG_KSV_GENHI, REG_KSV_GENLO] ++ each REG_FMT_CNT_ABORT 8 ++ each REG_FMT_CNT_MISS 8 ++ each REG_FMT_ERR 8 ++
      each REG_FMT_STAT 8 ++ dueRegs s.m) s.m)) ∧
    (∀ (a : Actuator) (bad : Bool), Completes (.codewordReady a bad) s (Frame ([.reports, .media, .motion, .pwr, .eng] ++
      dueParts s.m) ([REG_KSV_GENHI, REG_KSV_GENLO] ++ each REG_FMT_CNT_ABORT 8 ++ each REG_FMT_CNT_MISS 8 ++ each
      REG_FMT_ERR 8 ++ each REG_FMT_STAT 8 ++ dueRegs s.m) s.m)) ∧
    (∀ (a : Actuator) (n : Stream) (bits : Nat), ∀ i ∈ [Instr.gateMoment a, .gateReopen n, .wsafeFall a bits, .runEnd n],
      Completes i s (Frame ([.reports, .out, .media, .motion, .pwr, .eng] ++ dueParts s.m) ([REG_KSV_GENHI,
      REG_KSV_GENLO] ++ each REG_FMT_CNT_ABORT 8 ++ each REG_FMT_CNT_MISS 8 ++ each REG_FMT_ERR 8 ++ each REG_FMT_STAT
      8 ++ each REG_HSQ_ERR 4 ++ each2 REG_HSQ_SEL 4 2 ++ dueRegs s.m) s.m)) ∧
    (∀ (n : Stream) (en : Bool), Completes (.fmtEnWrite n en) s (Frame ([.reports, .media, .pwr, .eng] ++ dueParts s.m)
      (each REG_FMT_CTRL 8 ++ dueRegs s.m) s.m)) ∧
    (∀ (n : Stream), Completes (.fmtCntclr n) s (Frame [] (each REG_FMT_CNT_ABORT 8 ++ each REG_FMT_CNT_MISS 8 ++ each
      REG_FMT_CNT_WR 8) s.m)) ∧
    (∀ (a : Actuator) (w : Word), Completes (.ladStart a w) s (Frame [.reports, .media, .cmd] (each REG_CHN_SMEM 8 ++ each
      REG_LAD_ERR 4 ++ each REG_LAD_STAT 4) s.m)) ∧
    (∀ (a : Actuator) (w : Word), Completes (.ladRaise a w) s (Frame [.reports, .media] (each REG_LAD_ERR 4) s.m)) ∧
    (∀ (a : Actuator) (inp : Bool), ∀ u next, AtWord s.m (seqLS a) inp u next → u.alu ≠ 13 → Completes (.attempt a inp) s
      (Frame [.reports, .media, .eng] ([REG_DEC_BUSY] ++ each REG_LAD_ERR 4 ++ each REG_LAD_STAT 4 ++ each
      REG_SEQ_STAT 20) s.m)) ∧
    (∀ (a : Actuator) (group : List (Option MemberRead)), ∀ i ∈ [Instr.attemptEnd a, .rebuildDone a group], Completes i s
      (Frame [.cal, .media, .motion, .cmd] ([REG_DEC_BUSY] ++ each REG_CHN_SMEM 8 ++ each REG_LAD_STAT 4 ++ each
      REG_SRV_STAT 4 ++ each2 REG_SRV_TARGET 4 2) s.m)) ∧
    (∀ (a : Actuator) (inp : Bool), ∀ u next, AtWord s.m (seqLS a) inp u next → u.alu ≠ 13 → Completes (.armcap a inp) s
      (Frame [.reports, .media, .motion, .eng] (each REG_LAD_ERR 4 ++ each REG_LAD_STAT 4 ++ each REG_SEQ_STAT 20 ++
      each REG_SRV_STAT 4 ++ each2 REG_SRV_TARGET 4 2) s.m)) ∧
    (∀ (a : Actuator) (samples : Samples), Completes (.captureTaken a samples) s (Frame [.freeCtr, .reports, .media] (each
      REG_AFE_LANE_STAT 16 ++ each REG_CHN_CNT_SECT 8 ++ each REG_CHN_CNT_TA 8 ++ each REG_CHN_SMEM 8 ++ each
      REG_LAD_STAT 4) s.m)) ∧
    (∀ (a : Actuator), Completes (.heaterSettleEnd a) s (Frame [.media] (each REG_LAD_STAT 4) s.m)) ∧
    (∀ (a : Actuator) (inp : Bool), ∀ u next, AtWord s.m (seqLS a) inp u next → u.alu ≠ 13 → Completes (.avgadd a inp) s
      (Frame [.reports, .media, .eng] (each REG_CHN_SMEM 8 ++ each REG_LAD_ERR 4 ++ each REG_LAD_STAT 4 ++ each
      REG_SEQ_STAT 20) s.m)) ∧
    (∀ (a : Actuator) (inp : Bool), ∀ u next, AtWord s.m (seqLS a) inp u next → u.alu ≠ 13 → Completes (.rebuild a inp) s
      (Frame [.reports, .media, .eng] (each REG_LAD_ERR 4 ++ each REG_LAD_STAT 4 ++ each REG_SEQ_STAT 20) s.m)) ∧
    (∀ (a : Actuator) (inp : Bool), ∀ u next, AtWord s.m (seqLS a) inp u next → u.alu ≠ 13 → Completes (.record a inp) s
      (Frame [.reports, .out, .media, .buf, .eng] ([REG_BUF_CNT, REG_BUF_ERR, REG_BUF_FIRST, REG_CCH_MISS] ++ each
      REG_LAD_RING_HEAD 4 ++ each REG_SEQ_STAT 20) s.m)) ∧
    (∀ (a : Actuator), Completes (.jobEnd a) s (Frame [.reports, .out, .media, .pwr, .buf, .cmd, .sec] ([REG_BUF_CNT,
      REG_BUF_ERR, REG_BUF_FIRST, REG_CCH_MISS, REG_SEC_SLOTS, REG_SEC_VAULT] ++ each REG_FMT_DMAP_COUNT 8 ++ each
      REG_LAD_CNT_END 4 ++ each2 REG_LAD_CNT_STEP 4 16 ++ each REG_LAD_STAT 4) s.m)) ∧
    (∀ (a : Actuator) (en : Bool), Completes (.ladEnWrite a en) s (Frame [] (each REG_LAD_CTRL 4) s.m)) ∧
    (∀ (a : Actuator), Completes (.ladCntclr a) s (Frame [] (each REG_LAD_CNT_END 4 ++ each2 REG_LAD_CNT_STEP 4 16 ++ each
      REG_LAD_CNT_SYNC 4) s.m))

/-- The frame of the 67 commands of the servo, the QUADRILLE, the head sequencers, the spindle and the power die
(spec/06–08) named here: each, where the condition before it holds, answers a next state in which every part of the
block, every register word and the clock are as before, but for the parts and the registers listed beside it, `dueParts`
and `dueRegs` being those of the formatter resets that wait (R178). -/
def Obligations.FrameOfMotion : Prop :=
  ∀ s : State,
    (∀ (a : Actuator) (k : HeadSlot), Completes (.servoGateOpen a k) s (Frame [.reports, .out, .media, .motion] (each
      REG_FMT_STAT 8 ++ each REG_HSQ_ERR 4 ++ each2 REG_HSQ_SEL 4 2) s.m)) ∧
    (∀ (a : Actuator) (k : HeadSlot) (x : List Bool) (y : List Bool), Completes (.samSearchEnd a k x y) s (Frame [] (each
      REG_SRV_STAT 4) s.m)) ∧
    (∀ (a : Actuator) (k : HeadSlot) (f : WedgeField), Completes (.pesReady a k f) s (Frame [.freeCtr, .reports, .out,
      .media, .motion, .die, .pwr, .host, .cmd, .eng] ([REG_DEC_BUSY, REG_KSV_CTRL, REG_KSV_GENHI, REG_KSV_GENLO,
      REG_KSV_LIMIT, REG_PWR_MODE, REG_QSQ_CMDTAB] ++ each REG_CHN_SMEM 8 ++ each REG_HIF_LINK 2 ++ each REG_LAD_STAT
      4 ++ each REG_QDR_ACT 4 ++ each REG_QDR_OUT 4 ++ each REG_SRV_CNT 4 ++ each REG_SRV_FAULT 4 ++ each2 REG_SRV_PES
      4 2 ++ each2 REG_SRV_POS 4 2 ++ each REG_SRV_STAT 4 ++ each2 REG_SRV_TARGET 4 2 ++ each REG_SRV_TEST 4 ++ each
      REG_VCM_MA 4 ++ each REG_VCM_STAT 4 ++ fmtBlocks) s.m)) ∧
    (∀ (a : Actuator) (seq : BitVec 8) (wpermit : Bool), Completes (.srvPost a seq wpermit) s (Frame [.reports, .motion]
      (each REG_SRV_ERR 4 ++ each REG_SRV_STAT 4) s.m)) ∧
    (∀ (a : Actuator), Completes (.postDeadline a) s (Frame [.reports, .out, .media, .motion, .die, .pwr, .host, .cmd,
      .eng] ([REG_DEC_BUSY, REG_KSV_CTRL, REG_KSV_GENHI, REG_KSV_GENLO, REG_KSV_LIMIT, REG_PWR_MODE, REG_QSQ_CMDTAB]
      ++ each REG_CHN_SMEM 8 ++ each REG_HIF_LINK 2 ++ each REG_LAD_STAT 4 ++ each REG_QDR_ACT 4 ++ each REG_QDR_OUT 4
      ++ each REG_SRV_CNT 4 ++ each REG_SRV_FAULT 4 ++ each REG_SRV_STAT 4 ++ each2 REG_SRV_TARGET 4 2 ++ each
      REG_VCM_MA 4 ++ each REG_VCM_STAT 4 ++ fmtBlocks) s.m)) ∧
    (∀ (a : Actuator) (same : BitVec 4), Completes (.applyInstant a same) s (Frame ([.reports, .out, .media, .motion,
      .die, .pwr, .host, .cmd, .eng] ++ dueParts s.m) ([REG_KSV_CTRL, REG_KSV_GENHI, REG_KSV_GENLO, REG_KSV_LIMIT,
      REG_PWR_MODE, REG_QDR_ADMIT, REG_QDR_STAT, REG_QDR_TORQ, REG_QSQ_CMDTAB] ++ each REG_HIF_LINK 2 ++ each
      REG_PRG_REFA 4 ++ each REG_PRG_REFP 4 ++ each REG_PRG_REFV 4 ++ each REG_PRG_STAT 4 ++ each REG_QDR_KACC 4 ++
      each REG_QDR_OUT 4 ++ each REG_QDR_PHASE 4 ++ each REG_SRV_CFG 4 ++ each REG_SRV_STAT 4 ++ each REG_VCM_MA 4 ++
      each REG_VCM_STAT 4 ++ dueRegs s.m) s.m)) ∧
    (∀ (a : Actuator) (k : HeadSlot) (w : Word), Completes (.srvTargetWrite a k w) s (Frame [.motion] (each REG_SRV_STAT 4
      ++ each2 REG_SRV_TARGET 4 2) s.m)) ∧
    (∀ (a : Actuator) (w : Word), Completes (.srvCtrlWrite a w) s (Frame [.motion, .die] (each REG_SRV_CTRL 4 ++ each
      REG_SRV_STAT 4 ++ each REG_VCM_MA 4) s.m)) ∧
    (∀ (a : Actuator) (k : HeadSlot), Completes (.srvLeadWrite a k) s (Frame [.reports, .motion] (each REG_SRV_ERR 4)
      s.m)) ∧
    (∀ (a : Actuator) (k : HeadSlot) (w : Word), Completes (.srvRroLoad a k w) s (Frame [.cal, .motion] (each REG_SRV_STAT
      4) s.m)) ∧
    (∀ (a : Actuator) (k : HeadSlot), Completes (.rroFetchDone a k) s (Frame [.reports, .out, .motion, .buf]
      ([REG_BUF_CNT, REG_BUF_ERR, REG_BUF_FIRST, REG_CCH_MISS] ++ each REG_SRV_STAT 4) s.m)) ∧
    (∀ (a : Actuator), Completes (.prgStart a) s (Frame [.motion, .cmd] ([REG_QDR_ADMIT, REG_QDR_TORQ] ++ each
      REG_PRG_STAT 4 ++ each REG_QDR_KACC 4 ++ each REG_SRV_STAT 4) s.m)) ∧
    (∀ (a : Actuator), Completes (.planDone a) s (Frame [.reports, .motion] ([REG_QDR_ADMIT, REG_QDR_TORQ] ++ each
      REG_PRG_REFA 4 ++ each REG_PRG_REFP 4 ++ each REG_PRG_REFV 4 ++ each REG_PRG_STAT 4 ++ each REG_QDR_KACC 4 ++
      each REG_SRV_STAT 4) s.m)) ∧
    (∀ (a : Actuator), Completes (.prgAbort a) s (Frame [.motion] [] s.m)) ∧
    (Completes .quadrilleAdmit s (Frame [.motion] ([REG_QDR_ADMIT, REG_QDR_TORQ] ++ each REG_PRG_REFA 4 ++ each
      REG_PRG_REFP 4 ++ each REG_PRG_REFV 4 ++ each REG_PRG_STAT 4) s.m)) ∧
    (∀ (a : Actuator) (b : Bool), ∀ i ∈ [Instr.faultEnd a, .depopWrite a b], Completes i s (Frame ([.reports, .out,
      .media, .motion, .die, .pwr, .host, .cmd, .eng] ++ dueParts s.m) ([REG_KSV_CTRL, REG_KSV_GENHI, REG_KSV_GENLO,
      REG_KSV_LIMIT, REG_PWR_MODE, REG_QDR_ERR, REG_QSQ_CMDTAB] ++ each REG_HIF_LINK 2 ++ each REG_QDR_ACT 4 ++ each
      REG_QDR_OUT 4 ++ each REG_VCM_MA 4 ++ each REG_VCM_STAT 4 ++ dueRegs s.m) s.m)) ∧
    (∀ (w : Word), Completes (.qdrBankWrite w) s (Frame [.motion] ([REG_QDR_CTRL, REG_QDR_STAT] ++ each REG_QDR_OUT 4)
      s.m)) ∧
    (∀ (w : Word), Completes (.qdrCoefWrite w) s (Frame [.reports, .motion] [REG_QDR_COEF, REG_QDR_ERR] s.m)) ∧
    (∀ (a : Actuator) (bad : BitVec 24), Completes (.qual a bad) s (Frame ([.reports, .out, .media, .motion, .die, .pwr,
      .host, .cmd, .eng] ++ dueParts s.m) ([REG_KSV_CTRL, REG_KSV_GENHI, REG_KSV_GENLO, REG_KSV_LIMIT, REG_PWR_MODE,
      REG_QDR_ERR, REG_QSQ_CMDTAB] ++ each REG_HIF_LINK 2 ++ each REG_QDR_ACT 4 ++ each REG_QDR_OUT 4 ++ each
      REG_SRV_FAULT 4 ++ each REG_VCM_MA 4 ++ each REG_VCM_STAT 4 ++ dueRegs s.m) s.m)) ∧
    (∀ (a : Actuator) (inp : Bool), ∀ u next, AtWord s.m (seqHS a) inp u next → u.alu ≠ 13 → ∀ i ∈ [Instr.select a inp,
      .wframe a inp, .rframe a inp], Completes i s (Frame [.reports, .out, .motion, .eng] (each REG_HSQ_ERR 4 ++ each
      REG_SEQ_STAT 20) s.m)) ∧
    (∀ (a : Actuator) (k : HeadSlot), Completes (.headSelectSettle a k) s (Frame [.motion] (each2 REG_HSQ_SEL 4 2) s.m)) ∧
    (∀ (a : Actuator) (data : BitVec 16), Completes (.framedone a data) s (Frame [.freeCtr, .reports, .out, .motion, .eng]
      (each REG_HSQ_ERR 4 ++ each2 REG_HSQ_SEL 4 2 ++ each REG_SRV_STAT 4) s.m)) ∧
    (∀ (a : Actuator) (inp : Bool), ∀ u next, AtWord s.m (seqHS a) inp u next → u.alu ≠ 13 → Completes (.gatearm a inp) s
      (Frame [.motion, .eng] (each REG_SEQ_STAT 20) s.m)) ∧
    (∀ (a : Actuator), Completes (.paFaultAssert a) s (Frame [.reports] (each REG_HSQ_FAULT 4 ++ each REG_SRV_STAT 4)
      s.m)) ∧
    (∀ (a : Actuator), ∀ i ∈ [Instr.statusFrame, .retractVelocityEnd a, .retractClimbEnd a], Completes i s (Frame [.die]
      [] s.m)) ∧
    (Completes .statusFrameTimeout s (Frame [.die, .spn] (each REG_VCM_MA 4 ++ each REG_VCM_STAT 4) s.m)) ∧
    (∀ (a : Actuator) (k : HeadSlot), ∀ i ∈ [Instr.drvOc a, .drvOpen a, .drvMaLimit a k], Completes i s (Frame [.reports,
      .out, .media, .motion, .die, .pwr, .host, .cmd, .eng] ([REG_DEC_BUSY, REG_KSV_CTRL, REG_KSV_GENHI,
      REG_KSV_GENLO, REG_KSV_LIMIT, REG_PWR_MODE, REG_QSQ_CMDTAB] ++ each REG_CHN_SMEM 8 ++ each REG_HIF_LINK 2 ++
      each REG_LAD_STAT 4 ++ each REG_QDR_ACT 4 ++ each REG_QDR_OUT 4 ++ each REG_SRV_FAULT 4 ++ each REG_SRV_STAT 4
      ++ each2 REG_SRV_TARGET 4 2 ++ each REG_VCM_FAULT 4 ++ each REG_VCM_MA 4 ++ each REG_VCM_STAT 4 ++ fmtBlocks)
      s.m)) ∧
    (Completes .drvOt s (Frame [.reports, .out, .media, .motion, .die, .spn, .pwr, .host, .cmd, .eng] ([REG_DEC_BUSY,
      REG_KSV_CTRL, REG_KSV_GENHI, REG_KSV_GENLO, REG_KSV_LIMIT, REG_PWR_MODE, REG_QSQ_CMDTAB, REG_VCM_TEMP] ++ each
      REG_CHN_SMEM 8 ++ each REG_HIF_LINK 2 ++ each REG_LAD_STAT 4 ++ each REG_QDR_ACT 4 ++ each REG_QDR_OUT 4 ++ each
      REG_SRV_FAULT 4 ++ each REG_SRV_STAT 4 ++ each2 REG_SRV_TARGET 4 2 ++ each REG_VCM_FAULT 4 ++ each REG_VCM_MA 4
      ++ each REG_VCM_STAT 4 ++ fmtBlocks) s.m)) ∧
    (Completes .powerDieWarn s (Frame [.reports, .die] [REG_VCM_TEMP] s.m)) ∧
    (∀ i ∈ [Instr.listenEnd, .stopbrakeEnd, .stoppingBegin], Completes i s (Frame [.die, .spn] ([REG_SPN_STAT,
      REG_SPN_TARGET] ++ each REG_SRV_STAT 4) s.m)) ∧
    (∀ i ∈ [Instr.alignEnd, .stoppedDetect], Completes i s (Frame [.die, .spn] ([REG_SPN_OBS, REG_SPN_SPEED, REG_SPN_STAT,
      REG_SPN_TARGET] ++ each REG_SRV_STAT 4) s.m)) ∧
    (Completes .rampTimeout s (Frame [.reports, .die, .spn] ([REG_SPN_FAULT, REG_SPN_OBS, REG_SPN_SPEED, REG_SPN_STAT,
      REG_SPN_TARGET] ++ each REG_SRV_STAT 4) s.m)) ∧
    (∀ (x : Sensed), Completes (.observerUpdate x) s (Frame [.freeCtr, .reports, .die, .spn] ([REG_SPN_ERR, REG_SPN_FAULT,
      REG_SPN_KE, REG_SPN_OBS, REG_SPN_SPEED, REG_SPN_STAT, REG_SPN_TARGET, REG_VCM_TEMP] ++ each REG_SRV_STAT 4 ++
      each REG_VCM_MA 4 ++ each REG_VCM_STAT 4) s.m)) ∧
    (Completes .electricalPeriodEnd s (Frame [.reports, .media, .die, .spn] ([REG_SPN_CNT, REG_SPN_ERR, REG_SPN_FAULT,
      REG_SPN_KE, REG_SPN_OBS, REG_SPN_SPEED, REG_SPN_STAT, REG_SPN_TARGET] ++ each REG_SRV_STAT 4 ++ each REG_VCM_MA
      4 ++ each REG_VCM_STAT 4) s.m)) ∧
    (Completes .catchTimeout s (Frame [.reports, .die, .spn] ([REG_SPN_CNT, REG_SPN_STAT, REG_SPN_TARGET] ++ each
      REG_SRV_STAT 4 ++ each REG_VCM_MA 4 ++ each REG_VCM_STAT 4) s.m)) ∧
    (Completes .inhibitRelease s (Frame [.spn] [REG_SPN_STAT] s.m)) ∧
    (∀ (level : BitVec 8), Completes (.spnDemandWrite level) s (Frame [.reports, .die, .spn] ([REG_SPN_DEMAND,
      REG_SPN_ERR, REG_SPN_OBS, REG_SPN_SPEED, REG_SPN_STAT, REG_SPN_TARGET] ++ each REG_SRV_STAT 4) s.m)) ∧
    (∀ (w : Word), Completes (.spnCtrlWrite w) s (Frame [.reports, .die, .spn] ([REG_SPN_CTRL, REG_SPN_ERR, REG_SPN_OBS,
      REG_SPN_SPEED, REG_SPN_STAT, REG_SPN_TARGET] ++ each REG_SRV_STAT 4) s.m)) ∧
    (∀ i ∈ [Instr.chopperOn, .chopperOff], Completes i s (Frame [.die] ([REG_SPN_BRK, REG_SPN_RAIL] ++ each REG_VCM_STAT
      4) s.m)) ∧
    (∀ (ma : Nat), ∀ i ∈ [Instr.chopperSelfTest, .chopperOpenCheck ma, .chopperShort], Completes i s (Frame ([.reports,
      .out, .media, .die, .spn, .pwr, .host, .cmd, .eng] ++ dueParts s.m) ([REG_KSV_CTRL, REG_KSV_GENHI,
      REG_KSV_GENLO, REG_KSV_LIMIT, REG_PWR_MODE, REG_QSQ_CMDTAB, REG_SPN_BRK] ++ each REG_HIF_LINK 2 ++ each
      REG_VCM_MA 4 ++ each REG_VCM_STAT 4 ++ dueRegs s.m) s.m)) ∧
    (Completes .ladderL1Enter s (Frame ([.reports, .out, .media, .die, .spn, .pwr, .host, .cmd, .eng] ++ dueParts s.m)
      ([REG_KSV_CTRL, REG_KSV_GENHI, REG_KSV_GENLO, REG_KSV_LIMIT, REG_PWR_MODE, REG_QSQ_CMDTAB, REG_SPN_BRK,
      REG_SPN_RAIL] ++ each REG_HIF_LINK 2 ++ each REG_VCM_MA 4 ++ each REG_VCM_STAT 4 ++ dueRegs s.m) s.m)) ∧
    (∀ i ∈ [Instr.ladderL2Enter, .ladderL3Enter], Completes i s (Frame ([.reports, .out, .media, .die, .spn, .pwr, .host,
      .cmd, .eng] ++ dueParts s.m) ([REG_KSV_CTRL, REG_KSV_GENHI, REG_KSV_GENLO, REG_KSV_LIMIT, REG_PWR_MODE,
      REG_QSQ_CMDTAB, REG_SPN_BRK, REG_SPN_OBS, REG_SPN_RAIL, REG_SPN_SPEED, REG_SPN_STAT] ++ each REG_HIF_LINK 2 ++
      each REG_SRV_STAT 4 ++ each REG_VCM_MA 4 ++ each REG_VCM_STAT 4 ++ dueRegs s.m) s.m)) ∧
    (Completes .ladderL2Leave s (Frame [.die, .spn] ([REG_SPN_RAIL, REG_SPN_STAT, REG_SPN_TARGET] ++ each REG_SRV_STAT 4
      ++ each REG_VCM_STAT 4) s.m)) ∧
    (Completes .ladderL3Leave s (Frame [.die] ([REG_SPN_RAIL] ++ each REG_VCM_MA 4 ++ each REG_VCM_STAT 4) s.m)) ∧
    (∀ i ∈ [Instr.spnBrkFaultClear, .spnBrkAck], Completes i s (Frame [.reports, .die, .spn] ([REG_SPN_BRK, REG_SPN_ERR,
      REG_SPN_OBS, REG_SPN_SPEED, REG_SPN_STAT, REG_SPN_TARGET] ++ each REG_SRV_STAT 4) s.m)) ∧
    (∀ (a : Actuator), ∀ i ∈ [Instr.retractStart a, .lowSpeedRetract, .unload a], Completes i s (Frame ([.reports, .out,
      .media, .die, .pwr, .host, .cmd, .eng] ++ dueParts s.m) ([REG_KSV_CTRL, REG_KSV_GENHI, REG_KSV_GENLO,
      REG_KSV_LIMIT, REG_PWR_MODE, REG_QSQ_CMDTAB] ++ each REG_HIF_LINK 2 ++ each REG_VCM_MA 4 ++ each REG_VCM_STAT 4
      ++ dueRegs s.m) s.m)) ∧
    (∀ (a : Actuator), s.m.mode ≠ 9 → Completes (.retractParkEnd a) s (Frame ([.reports, .out, .motion, .die, .pwr, .host,
      .cmd] ++ dueParts s.m) ([REG_KSV_CTRL, REG_KSV_GENHI, REG_KSV_GENLO, REG_KSV_LIMIT, REG_KSV_STAT, REG_PWR_MODE,
      REG_QSQ_CMDTAB] ++ each REG_HIF_LINK 2 ++ each REG_QDR_ACT 4 ++ each REG_QDR_OUT 4 ++ each REG_SRV_FAULT 4 ++
      each REG_SRV_STAT 4 ++ each REG_VCM_MA 4 ++ each REG_VCM_STAT 4 ++ dueRegs s.m) s.m)) ∧
    (∀ (a : Actuator), ∀ i ∈ [Instr.retractTimeout a, .loadTimeout a], Completes i s (Frame ([.reports, .out, .media,
      .die, .pwr, .host, .cmd, .eng] ++ dueParts s.m) ([REG_KSV_CTRL, REG_KSV_GENHI, REG_KSV_GENLO, REG_KSV_LIMIT,
      REG_PWR_MODE, REG_QSQ_CMDTAB] ++ each REG_HIF_LINK 2 ++ each REG_VCM_FAULT 4 ++ each REG_VCM_MA 4 ++ each
      REG_VCM_STAT 4 ++ dueRegs s.m) s.m)) ∧
    (∀ (a : Actuator), Completes (.load a) s (Frame ([.reports, .out, .media, .die, .pwr, .host, .cmd, .eng] ++ dueParts
      s.m) ([REG_KSV_CTRL, REG_KSV_GENHI, REG_KSV_GENLO, REG_KSV_LIMIT, REG_PWR_MODE, REG_QSQ_CMDTAB, REG_VCM_ERR] ++
      each REG_HIF_LINK 2 ++ each REG_QDR_ACT 4 ++ each REG_VCM_MA 4 ++ each REG_VCM_STAT 4 ++ dueRegs s.m) s.m))

/-- The frame of the 45 commands of the buffer, the pools, the cache, the DMA engine and the control stores (spec/09,
spec/10, spec/15) named here: each, where the condition before it holds, answers a next state in which every part of the
block, every register word and the clock are as before, but for the parts and the registers listed beside it, `dueParts`
and `dueRegs` being those of the formatter resets that wait (R178). -/
def Obligations.FrameOfBuffer : Prop :=
  ∀ s : State,
    (∀ (a : LineAccess) (decay : Bool) (k : Nat), ∀ i ∈ [Instr.bufferLineAccess a decay, .missFillDone k], Completes i s
      (Frame [.reports, .out, .buf] [REG_BUF_CNT, REG_BUF_ERR, REG_BUF_FIRST, REG_CCH_MISS] s.m)) ∧
    (Completes .bufferFillEnd s (Frame [.buf] [REG_BUF_STAT, REG_RST_PHASE, REG_RST_STAT] s.m)) ∧
    (∀ (p : PoolId) (en : Bool), Completes (.poolEnWrite p en) s (Frame [.reports, .cal, .buf] ([REG_POOL_ERR] ++ each
      REG_POOL_CFG 8 ++ each REG_POOL_RETSTAT 8 ++ each REG_POOL_STAT 8) s.m)) ∧
    (∀ (p : PoolId), Completes (.poolRingInitDone p) s (Frame [.reports, .out, .cal, .buf] ([REG_BUF_CNT, REG_BUF_ERR,
      REG_BUF_FIRST, REG_CCH_MISS] ++ each REG_POOL_CFG 8) s.m)) ∧
    (∀ (mb : Mailbox) (w : Word) (p : PoolId), ∀ i ∈ [Instr.poolMbWrite mb w, .poolGrant p], Completes i s (Frame
      [.reports, .out, .cal, .buf] ([REG_BUF_CNT, REG_BUF_ERR, REG_BUF_FIRST, REG_CCH_MISS, REG_POOL_ERR] ++ each
      REG_POOL_MBSTAT 16 ++ each REG_POOL_RETSTAT 8 ++ each REG_POOL_STAT 8) s.m)) ∧
    (∀ (p : PoolId), Completes (.poolCacheRefill p) s (Frame [.reports, .out, .cal, .buf] ([REG_BUF_CNT, REG_BUF_ERR,
      REG_BUF_FIRST, REG_CCH_MISS, REG_POOL_ERR, REG_POOL_FIRST] ++ each REG_POOL_RETSTAT 8 ++ each REG_POOL_STAT 8)
      s.m)) ∧
    (∀ (h : BitVec 24), Completes (.poolFree h) s (Frame [.reports, .cal, .buf] ([REG_POOL_ERR, REG_POOL_FIRST] ++ each
      REG_POOL_RETSTAT 8 ++ each REG_POOL_STAT 8) s.m)) ∧
    (∀ (h : BitVec 24), Completes (.poolRetire h) s (Frame [.reports, .buf] ([REG_POOL_ERR] ++ each REG_POOL_RETSTAT 8 ++
      each REG_POOL_STAT 8) s.m)) ∧
    (∀ (half : Fin 2) (w : Word), Completes (.poolBankretWrite half w) s (Frame [.reports, .buf] ([REG_POOL_BANKRET0,
      REG_POOL_BANKRET1] ++ each REG_POOL_RETSTAT 8 ++ each REG_POOL_STAT 8) s.m)) ∧
    (∀ (a : LineAccess) (ecc : EccResult) (tagBad : Option (Fin 16 × Bool)), Completes (.cacheAccess a ecc tagBad) s
      (Frame [.reports, .out, .buf] ([REG_BUF_CNT, REG_BUF_ERR, REG_BUF_FIRST, REG_CCH_CNT, REG_CCH_ERR,
      REG_CCH_ERRLOC, REG_CCH_MISS] ++ each REG_CCH_BUCKET 16) s.m)) ∧
    (∀ (bank : Fin 16), Completes (.bucketLeak bank) s (Frame [] (each REG_CCH_BUCKET 16) s.m)) ∧
    (∀ (set : Fin 32768) (way : Fin 16), ∀ i ∈ [Instr.mopCleanRange, .mopInvalidateRange, .mopCleanInvalidateRange,
      .mopCleanSetWay set way, .mopInvalidateSetWay set way, .mopCleanInvalidateSetWay set way,
      .mopCleanInvalidateAll], Completes i s (Frame [.reports, .buf] [REG_BUF_CNT, REG_BUF_ERR, REG_BUF_FIRST,
      REG_CCH_ERR, REG_CCH_MOP_CMD, REG_CCH_MOP_STAT] s.m)) ∧
    (Completes .mopDone s (Frame [] [REG_CCH_MOP_STAT] s.m)) ∧
    (∀ (en : Bool), Completes (.cchEnWrite en) s (Frame [.reports] [REG_CCH_CTRL, REG_CCH_ERR] s.m)) ∧
    (Completes .scbGo s (Frame [.reports, .out, .cal, .buf] [REG_BUF_CNT, REG_BUF_ERR, REG_BUF_FIRST, REG_CCH_MISS,
      REG_SCB_PASS, REG_SCB_STAT] s.m)) ∧
    (Completes .scbAbort s (Frame [.cal, .buf] [] s.m)) ∧
    (Completes .scrubPassEnd s (Frame [.reports, .out, .buf] [REG_BUF_CNT, REG_BUF_ERR, REG_BUF_FIRST, REG_CCH_MISS,
      REG_SCB_STAT] s.m)) ∧
    (∀ (p : DmaLevel), Completes (.dmaDescTake p) s (Frame [.reports, .out, .cal, .buf, .dma] ([REG_BUF_CNT, REG_BUF_ERR,
      REG_BUF_FIRST, REG_CCH_MISS, REG_DMA_ERR, REG_DMA_STAT] ++ each REG_DMA_CH_ADDRHI 16 ++ each REG_DMA_CH_ADDRLO
      16 ++ each REG_DMA_CH_HALT 16 ++ each REG_DMA_CH_MOVED 16 ++ each REG_DMA_CH_STAT 16 ++ each REG_DMA_RING_HEAD 4
      ++ each REG_HIF_LINK 2) s.m)) ∧
    (∀ (n : DmaCh) (data : Option (List Byte)), ∀ i ∈ [Instr.dmaSectorCheck, .hostReadCompletion n data], Completes i s
      (Frame [.reports, .out, .cal, .buf, .dma] ([REG_BUF_CNT, REG_BUF_ERR, REG_BUF_FIRST, REG_CCH_MISS, REG_DMA_STAT]
      ++ each REG_DMA_CH_ADDRHI 16 ++ each REG_DMA_CH_ADDRLO 16 ++ each REG_DMA_CH_HALT 16 ++ each REG_DMA_CH_MOVED 16
      ++ each REG_DMA_CH_STAT 16 ++ each REG_HIF_LINK 2) s.m)) ∧
    (∀ (n : DmaCh), Completes (.completionTimeout n) s (Frame [.reports, .out, .cal, .dma, .host] ([REG_DMA_STAT] ++ each
      REG_DMA_CH_ADDRHI 16 ++ each REG_DMA_CH_ADDRLO 16 ++ each REG_DMA_CH_HALT 16 ++ each REG_DMA_CH_STAT 16 ++ each
      REG_HIF_AERCNT 2 ++ each REG_HIF_LINK 2) s.m)) ∧
    (Completes .readbackIssue s (Frame [.out, .dma] (each REG_DMA_CH_STAT 16 ++ each REG_HIF_LINK 2) s.m)) ∧
    (∀ (n : DmaCh) (ok : Bool), Completes (.readbackComplete n ok) s (Frame [.reports, .cal, .dma] ([REG_DMA_STAT] ++ each
      REG_DMA_CH_ADDRHI 16 ++ each REG_DMA_CH_ADDRLO 16 ++ each REG_DMA_CH_HALT 16 ++ each REG_DMA_CH_STAT 16) s.m)) ∧
    (∀ (n : DmaCh), Completes (.dmaChAbort n) s (Frame [.reports, .cal, .dma] ([REG_DMA_ERR, REG_DMA_STAT] ++ each
      REG_DMA_CH_MOVED 16 ++ each REG_DMA_CH_STAT 16) s.m)) ∧
    (∀ (n : DmaCh), Completes (.dmaChRetry n) s (Frame [.reports, .out, .cal, .buf, .dma] ([REG_BUF_CNT, REG_BUF_ERR,
      REG_BUF_FIRST, REG_CCH_MISS, REG_DMA_ERR, REG_DMA_STAT] ++ each REG_DMA_CH_ADDRHI 16 ++ each REG_DMA_CH_ADDRLO
      16 ++ each REG_DMA_CH_HALT 16 ++ each REG_DMA_CH_MOVED 16 ++ each REG_DMA_CH_STAT 16 ++ each REG_HIF_LINK 2)
      s.m)) ∧
    (∀ (b0 : Bool) (b1 : Bool), Completes (.dmaBlockWrite b0 b1) s (Frame [.cal, .dma] ([REG_DMA_CTRL, REG_DMA_STAT] ++
      each REG_DMA_CH_MOVED 16 ++ each REG_DMA_CH_STAT 16) s.m)) ∧
    (∀ (en : Bool), Completes (.dmaEnWrite en) s (Frame [] [REG_DMA_CTRL] s.m)) ∧
    (∀ (q : SeqId) (inp : Bool), Completes (.seqConditionMet q inp) s (Frame [.freeCtr, .reports, .out, .media, .motion,
      .pwr, .eng] ([REG_KSV_GENHI, REG_KSV_GENLO] ++ each REG_FMT_CNT_ABORT 8 ++ each REG_FMT_CNT_MISS 8 ++ each
      REG_FMT_ERR 8 ++ each REG_FMT_STAT 8 ++ each REG_HSQ_ERR 4 ++ each2 REG_HSQ_SEL 4 2 ++ each REG_SEQ_HALT 20 ++
      each REG_SEQ_STAT 20) s.m)) ∧
    (∀ (q : SeqId), Completes (.fopComplete q) s (Frame [.reports, .out, .buf, .eng] ([REG_BUF_CNT, REG_BUF_ERR,
      REG_BUF_FIRST, REG_CCH_MISS] ++ each REG_SEQ_STAT 20) s.m)) ∧
    (∀ (q : SeqId) (inp : Bool), ∀ u next, AtWord s.m q inp u next → u.alu ≠ 13 → Completes (.mbreq q inp) s (Frame
      [.reports, .out, .cal, .buf, .eng] ([REG_BUF_CNT, REG_BUF_ERR, REG_BUF_FIRST, REG_CCH_MISS, REG_POOL_ERR] ++
      each REG_POOL_MBSTAT 16 ++ each REG_POOL_RETSTAT 8 ++ each REG_POOL_STAT 8 ++ each REG_SEQ_STAT 20) s.m)) ∧
    (∀ (q : SeqId) (inp : Bool), ∀ u next, AtWord s.m q inp u next → u.alu ≠ 13 → Completes (.free q inp) s (Frame
      [.reports, .cal, .buf, .eng] ([REG_POOL_ERR, REG_POOL_FIRST] ++ each REG_POOL_RETSTAT 8 ++ each REG_POOL_STAT 8
      ++ each REG_SEQ_STAT 20) s.m)) ∧
    (∀ (q : SeqId) (inp : Bool), ∀ u next, AtWord s.m q inp u next → u.alu ≠ 13 → Completes (.event q inp) s (Frame
      [.reports, .out, .eng] (each REG_SEQ_STAT 20) s.m)) ∧
    (∀ (req : Requester) (q : SeqId) (k : Fin 4) (w : Word), Completes (.seqCsdataWrite req q k w) s (Frame [.reports,
      .eng] ([REG_SEC_ERR] ++ each REG_SEQ_CSADDR 20 ++ each2 REG_SEQ_CSDATA 20 4) s.m)) ∧
    (∀ (req : Requester) (w : Word), Completes (.qsqDtdataWrite req w) s (Frame [.reports, .eng] [REG_QSQ_DTDATA,
      REG_QSQ_DTERR, REG_SEC_ERR] s.m)) ∧
    (∀ (req : Requester) (q : SeqId) (run : Bool), Completes (.seqRunWrite req q run) s (Frame [.reports, .eng]
      ([REG_SEC_ERR] ++ each REG_SEQ_CTRL 20 ++ each REG_SEQ_STAT 20) s.m)) ∧
    (Completes .qsqCsswap s (Frame [.reports, .cmd, .sec, .eng] ([REG_CAL_CTRL, REG_CAL_STATUS, REG_FAB_STATUS,
      REG_QSQ_CMDTAB, REG_QSQ_CSSWAP, REG_QSQ_CTRL, REG_SEC_BOOT] ++ each REG_FAB_PEND 4 ++ each REG_SEQ_STAT 20)
      s.m)) ∧
    (Completes .swapBusyEnd s (Frame [] [REG_QSQ_CSSWAP] s.m))

/-- The frame of the 87 commands of the host ports and the command set (spec/11, spec/12) named here: each, where the
condition before it holds, answers a next state in which every part of the block, every register word and the clock are
as before, but for the parts and the registers listed beside it, `dueParts` and `dueRegs` being those of the formatter
resets that wait (R178). -/
def Obligations.FrameOfHost : Prop :=
  ∀ s : State,
    (Completes .arbiterGrant s (Frame [.host, .cmd] [REG_QSQ_CMDTAB, REG_QSQ_FSN, REG_QSQ_STAT] s.m)) ∧
    (∀ (k : Fin 4) (inp : Bool), ∀ u next, AtWord s.m (seqQS k) inp u next → u.alu ≠ 13 → Completes (.fetch k inp) s
      (Frame [.out, .host, .eng] (each REG_HIF_LINK 2 ++ each REG_SEQ_STAT 20) s.m)) ∧
    (∀ (k : Fin 4) (data : Option (List (BitVec 512))), Completes (.fetchComplete k data) s (Frame [.reports, .host, .cmd]
      ([REG_QSQ_CMDTAB, REG_QSQ_ERR, REG_QSQ_STAT] ++ each REG_HIF_CC 2 ++ each REG_QSQ_ARB 2) s.m)) ∧
    (∀ (k : Fin 4) (inp : Bool) (dsm : List (Nat × Nat)), ∀ u next, AtWord s.m (seqQS k) inp u next → u.alu ≠ 13 →
      Completes (.check k inp dsm) s (Frame [.reports, .cal, .pwr, .buf, .cmd, .sec, .eng] ([REG_POOL_ERR,
      REG_POOL_FIRST, REG_QSQ_CMDTAB, REG_QSQ_STAT, REG_SEC_SLOTS, REG_SEC_VAULT] ++ each REG_POOL_RETSTAT 8 ++ each
      REG_POOL_STAT 8 ++ each REG_SEQ_STAT 20) s.m)) ∧
    (∀ (k : Option (Fin 4)) (inp : Bool) (fsn : BitVec 32), (∀ j, k = some j → ∃ u next, AtWord s.m (seqQS j) inp u next ∧
      u.alu ≠ 13) → Completes (.dispatch k inp fsn) s (Frame [.pwr, .cmd, .eng] ([REG_QSQ_CMDTAB] ++ each REG_SEQ_STAT
      20) s.m)) ∧
    (∀ (nsid : BitVec 4) (first : BitVec 40) (count : Fin 257), Completes (.readAheadIssue nsid first count) s (Frame
      [.cmd] [] s.m)) ∧
    (∀ (a : Actuator) (target : Word), Completes (.anticipatorySeek a target) s (Frame [.motion, .cmd] ([REG_QDR_ADMIT,
      REG_QDR_TORQ] ++ each REG_PRG_STAT 4 ++ each REG_PRG_TGT 4 ++ each REG_QDR_KACC 4 ++ each REG_SRV_STAT 4) s.m)) ∧
    (∀ (k : Nat), Completes (.specCopyExpire k) s (Frame [.reports, .cal, .buf, .cmd] ([REG_POOL_ERR, REG_POOL_FIRST] ++
      each REG_POOL_RETSTAT 8 ++ each REG_POOL_STAT 8) s.m)) ∧
    (∀ (en0 : Bool) (en1 : Bool), Sound s.m 0 → Sound s.m 1 → Completes (.trainEnWrite en0 en1) s (Frame [.reports, .cal,
      .media, .motion, .pwr, .buf, .dma, .host, .cmd, .rst] ([REG_DEC_BUSY, REG_DMA_CTRL, REG_DMA_STAT, REG_HIF_CTRL,
      REG_POOL_ERR, REG_POOL_FIRST, REG_QSQ_CMDTAB, REG_QSQ_STAT] ++ each REG_CHN_SMEM 8 ++ each REG_DMA_CH_MOVED 16
      ++ each REG_DMA_CH_STAT 16 ++ each REG_HIF_CC 2 ++ each REG_HIF_LINK 2 ++ each REG_HIF_RSTCAUSE 2 ++ each
      REG_LAD_STAT 4 ++ each REG_POOL_RETSTAT 8 ++ each REG_POOL_STAT 8 ++ each REG_QSQ_ARB 2 ++ each2 REG_QSQ_HALT 2
      4 ++ each2 REG_QSQ_QHOE 2 4 ++ each REG_SRV_STAT 4 ++ each2 REG_SRV_TARGET 4 2) s.m)) ∧
    (∀ (p : PortId) (speed : Fin 6) (width : Fin 5), Completes (.linkUp p speed width) s (Frame [.freeCtr] (each
      REG_HIF_LINK 2) s.m)) ∧
    (∀ (p : PortId) (w : Word) (fsn : BitVec 32) (e : IoEnd), Sound s.m 0 → Sound s.m 1 → ∀ i ∈ [Instr.linkDown p,
      .perstAssert p, .nssrWrite w, .nvmeMiSend fsn e], Completes i s (Frame [.reports, .cal, .media, .motion, .pwr,
      .buf, .dma, .host, .cmd] ([REG_DEC_BUSY, REG_DMA_CTRL, REG_DMA_STAT, REG_POOL_ERR, REG_POOL_FIRST,
      REG_QSQ_CMDTAB, REG_QSQ_STAT] ++ each REG_CHN_SMEM 8 ++ each REG_DMA_CH_MOVED 16 ++ each REG_DMA_CH_STAT 16 ++
      each REG_HIF_CC 2 ++ each REG_HIF_LINK 2 ++ each REG_HIF_RSTCAUSE 2 ++ each REG_LAD_STAT 4 ++ each
      REG_POOL_RETSTAT 8 ++ each REG_POOL_STAT 8 ++ each REG_QSQ_ARB 2 ++ each2 REG_QSQ_HALT 2 4 ++ each2 REG_QSQ_QHOE
      2 4 ++ each REG_SRV_STAT 4 ++ each2 REG_SRV_TARGET 4 2) s.m)) ∧
    (∀ (p : PortId), Sound s.m 0 → Sound s.m 1 → ∀ i ∈ [Instr.hotReset p, .functionLevelReset p, .ccEnClear p], Completes
      i s (Frame [.reports, .cal, .media, .motion, .pwr, .buf, .dma, .host, .cmd] ([REG_DEC_BUSY, REG_DMA_CTRL,
      REG_DMA_STAT, REG_POOL_ERR, REG_POOL_FIRST, REG_QSQ_CMDTAB, REG_QSQ_STAT] ++ each REG_CHN_SMEM 8 ++ each
      REG_DMA_CH_MOVED 16 ++ each REG_DMA_CH_STAT 16 ++ each REG_HIF_CC 2 ++ each REG_HIF_RSTCAUSE 2 ++ each
      REG_LAD_STAT 4 ++ each REG_POOL_RETSTAT 8 ++ each REG_POOL_STAT 8 ++ each REG_QSQ_ARB 2 ++ each2 REG_QSQ_HALT 2
      4 ++ each2 REG_QSQ_QHOE 2 4 ++ each REG_SRV_STAT 4 ++ each2 REG_SRV_TARGET 4 2) s.m)) ∧
    (∀ (p : PortId) (cc : Word), ∀ i ∈ [Instr.ccEnSet p cc, .shutdownNormal p, .shutdownComplete p], Completes i s (Frame
      [.host] (each REG_HIF_CC 2 ++ each REG_QSQ_ARB 2) s.m)) ∧
    (∀ (p : PortId), Completes (.shutdownAbrupt p) s (Frame [.reports, .cal, .media, .motion, .pwr, .buf, .dma, .host,
      .cmd] ([REG_DEC_BUSY, REG_DMA_CTRL, REG_DMA_STAT, REG_POOL_ERR, REG_POOL_FIRST, REG_QSQ_CMDTAB, REG_QSQ_STAT] ++
      each REG_CHN_SMEM 8 ++ each REG_DMA_CH_MOVED 16 ++ each REG_DMA_CH_STAT 16 ++ each REG_HIF_CC 2 ++ each
      REG_LAD_STAT 4 ++ each REG_POOL_RETSTAT 8 ++ each REG_POOL_STAT 8 ++ each REG_QSQ_ARB 2 ++ each REG_SRV_STAT 4
      ++ each2 REG_SRV_TARGET 4 2) s.m)) ∧
    (∀ (p : PortId) (qid : BitVec 16) (v : BitVec 16), ∀ i ∈ [Instr.sqTailDoorbell p qid v, .cqHeadDoorbell p qid v],
      Completes i s (Frame [.reports, .host, .cmd] [REG_QSQ_CMDTAB, REG_QSQ_ERR] s.m)) ∧
    (∀ (p : PortId) (e : LinkError), Completes (.receivedError p e) s (Frame [.reports, .out, .host] (each REG_HIF_AERCNT
      2 ++ each REG_HIF_LINK 2) s.m)) ∧
    (∀ (p : PortId) (sub : Fin 3), Completes (.aspmL1Entry p sub) s (Frame [] (each REG_HIF_LINK 2) s.m)) ∧
    (∀ (p : PortId) (d3 : Bool), Completes (.d3hotTransition p d3) s (Frame [.host] (each REG_HIF_LINK 2) s.m)) ∧
    (∀ (fsn : BitVec 32) (ok : Bool), Completes (.completionPost fsn ok) s (Frame [.reports, .out, .host, .cmd]
      ([REG_QSQ_CMDTAB, REG_QSQ_STAT] ++ each REG_HIF_CC 2 ++ each REG_HIF_LINK 2 ++ each REG_QSQ_ARB 2 ++ each2
      REG_QSQ_HALT 2 4 ++ each2 REG_QSQ_QHOE 2 4) s.m)) ∧
    (∀ (en0 : Bool) (en1 : Bool), Completes (.fetchEnWrite en0 en1) s (Frame [] [REG_QSQ_CTRL] s.m)) ∧
    (Completes .quietPoint s (Frame [] ([REG_CAL_CTRL, REG_CAL_STATUS, REG_FAB_STATUS] ++ each REG_FAB_PEND 4) s.m)) ∧
    (∀ (fsn : BitVec 32), Completes (.deleteIoSq fsn) s (Frame [.media, .host, .cmd] ([REG_QSQ_CMDTAB] ++ each2
      REG_QSQ_HALT 2 4 ++ each2 REG_QSQ_QHOE 2 4) s.m)) ∧
    (∀ (fsn : BitVec 32) (ctrls : BitVec 2) (e : IoEnd) (data : List Byte) (k : PassKind) (count : Nat), ∀ i ∈
      [Instr.createIoSq fsn, .deleteIoCq fsn, .createIoCq fsn, .asynchronousEventRequest fsn, .namespaceAttach fsn
      ctrls e, .namespaceDetach fsn ctrls e, .firmwareImageDownload fsn data e, .maintenancePassEnd k count],
      Completes i s (Frame [.host, .cmd] [REG_QSQ_CMDTAB] s.m)) ∧
    (∀ (r : AdminReq) (e : IoEnd), Completes (.getLogPage r e) s (Frame [.reports, .out, .buf, .host, .cmd]
      [REG_QSQ_CMDTAB] s.m)) ∧
    (∀ (r : AdminReq) (e : IoEnd) (fsn : BitVec 32), ∀ i ∈ [Instr.identify r e, .getFeatures r, .nvmeMiReceive fsn e],
      Completes i s (Frame [.out, .cmd] [REG_QSQ_CMDTAB] s.m)) ∧
    (∀ (fsn : BitVec 32), Completes (.abort fsn) s (Frame [.media, .pwr, .cmd] [REG_QSQ_CMDTAB, REG_QSQ_STAT] s.m)) ∧
    (∀ (r : AdminReq), Completes (.setFeatures r) s (Frame [.reports, .out, .die, .spn, .pwr, .host, .cmd] ([REG_CAL_CAP,
      REG_KSV_CTRL, REG_KSV_GENHI, REG_KSV_GENLO, REG_KSV_LIMIT, REG_PWR_CAP, REG_PWR_MODE, REG_QDR_TORQ,
      REG_QSQ_CMDTAB, REG_SPN_DEMAND, REG_SPN_ERR, REG_SPN_OBS, REG_SPN_SPEED, REG_SPN_STAT, REG_SPN_TARGET] ++ each
      REG_HIF_CC 2 ++ each REG_HIF_LINK 2 ++ each REG_QSQ_ARB 2 ++ each2 REG_QSQ_HALT 2 4 ++ each2 REG_QSQ_QHOE 2 4 ++
      each REG_SRV_STAT 4) s.m)) ∧
    (∀ (fsn : BitVec 32) (d : NsCreate) (e : IoEnd), Completes (.namespaceCreate fsn d e) s (Frame [.freeCtr, .pwr, .cmd,
      .sec] ([REG_QSQ_CMDTAB, REG_SEC_SLOTS, REG_SEC_VAULT] ++ each REG_KSV_REG 4) s.m)) ∧
    (∀ (fsn : BitVec 32), Completes (.namespaceDelete fsn) s (Frame [.freeCtr, .reports, .cal, .media, .pwr, .buf, .host,
      .cmd, .sec] ([REG_POOL_ERR, REG_POOL_FIRST, REG_QSQ_CMDTAB, REG_SEC_SLOTS, REG_SEC_VAULT] ++ each REG_KSV_REG 4
      ++ each REG_POOL_RETSTAT 8 ++ each REG_POOL_STAT 8) s.m)) ∧
    (∀ (fsn : BitVec 32) (b : Option Bundle), ∀ i ∈ [Instr.firmwareCommitReplace fsn b, .firmwareCommitReplaceActivate fsn
      b], Completes i s (Frame [.host, .cmd, .sec] [REG_QSQ_CMDTAB] s.m)) ∧
    (∀ (fsn : BitVec 32), ∀ i ∈ [Instr.firmwareCommitActivate fsn, .firmwareCommitActivateNow fsn], Completes i s (Frame
      [.reports, .cal, .buf, .host, .cmd, .sec, .eng] ([REG_POOL_ERR, REG_POOL_FIRST, REG_QSQ_CMDTAB, REG_QSQ_CTRL,
      REG_QSQ_DTERR] ++ each REG_POOL_RETSTAT 8 ++ each REG_POOL_STAT 8) s.m)) ∧
    (∀ (fsn : BitVec 32), Completes (.formatNvm fsn) s (Frame [.freeCtr, .reports, .cal, .media, .pwr, .buf, .host, .cmd,
      .sec] ([REG_POOL_ERR, REG_POOL_FIRST, REG_QSQ_CMDTAB, REG_QSQ_STAT, REG_SEC_SLOTS, REG_SEC_VAULT] ++ each
      REG_KSV_REG 4 ++ each REG_POOL_RETSTAT 8 ++ each REG_POOL_STAT 8) s.m)) ∧
    (∀ (fsn : BitVec 32) (op : OpalOp) (e : IoEnd), Completes (.securitySend fsn op e) s (Frame [.freeCtr, .pwr, .cmd,
      .sec] ([REG_QSQ_CMDTAB, REG_QSQ_STAT, REG_SEC_SLOTS, REG_SEC_VAULT] ++ each REG_KSV_REG 4) s.m)) ∧
    (∀ (fsn : BitVec 32) (e : IoEnd), Completes (.securityReceive fsn e) s (Frame [.freeCtr, .out, .cmd] [REG_QSQ_CMDTAB]
      s.m)) ∧
    (∀ (fsn : BitVec 32), Completes (.maintenanceStartScrub fsn) s (Frame [.reports, .out, .cal, .buf, .cmd] [REG_BUF_CNT,
      REG_BUF_ERR, REG_BUF_FIRST, REG_CCH_MISS, REG_QSQ_CMDTAB, REG_SCB_LEN, REG_SCB_PASS, REG_SCB_START,
      REG_SCB_STAT] s.m)) ∧
    (∀ (fsn : BitVec 32), ∀ i ∈ [Instr.maintenanceStartCandidate fsn, .maintenanceStartScan fsn, .flush fsn], Completes i
      s (Frame [.cmd] [REG_QSQ_CMDTAB] s.m)) ∧
    (∀ (fsn : BitVec 32), Completes (.maintenanceAbort fsn) s (Frame [.cal, .buf, .cmd] [REG_QSQ_CMDTAB] s.m)) ∧
    (∀ (fsn : BitVec 32), ∀ i ∈ [Instr.depopulateActuator fsn, .reinstateActuator fsn], Completes i s (Frame ([.reports,
      .out, .media, .motion, .die, .pwr, .host, .cmd, .eng] ++ dueParts s.m) ([REG_KSV_CTRL, REG_KSV_GENHI,
      REG_KSV_GENLO, REG_KSV_LIMIT, REG_PWR_MODE, REG_QDR_ERR, REG_QSQ_CMDTAB] ++ each REG_HIF_LINK 2 ++ each
      REG_QDR_ACT 4 ++ each REG_QDR_OUT 4 ++ each REG_VCM_MA 4 ++ each REG_VCM_STAT 4 ++ dueRegs s.m) s.m)) ∧
    (∀ (fsn : BitVec 32) (failed : Bool), ∀ i ∈ [Instr.depopulateHead fsn, .reinstateHead fsn failed], Completes i s
      (Frame ([.reports, .out, .media, .motion, .die, .pwr, .host, .cmd, .eng] ++ dueParts s.m) ([REG_KSV_CTRL,
      REG_KSV_GENHI, REG_KSV_GENLO, REG_KSV_LIMIT, REG_PWR_MODE, REG_QSQ_CMDTAB] ++ each REG_HIF_LINK 2 ++ each
      REG_QDR_ACT 4 ++ each REG_VCM_MA 4 ++ each REG_VCM_STAT 4 ++ dueRegs s.m) s.m)) ∧
    (∀ (fsn : BitVec 32), Completes (.acknowledgeBrakeFault fsn) s (Frame [.reports, .die, .spn, .cmd] ([REG_QSQ_CMDTAB,
      REG_SPN_BRK, REG_SPN_ERR, REG_SPN_OBS, REG_SPN_SPEED, REG_SPN_STAT, REG_SPN_TARGET] ++ each REG_SRV_STAT 4)
      s.m)) ∧
    (∀ (fsn : BitVec 32), Completes (.queueRestartResume fsn) s (Frame [.pwr, .host, .cmd] ([REG_QSQ_CMDTAB, REG_QSQ_STAT]
      ++ each2 REG_QSQ_HALT 2 4 ++ each2 REG_QSQ_QHOE 2 4) s.m)) ∧
    (∀ (fsn : BitVec 32), Completes (.queueRestartDiscard fsn) s (Frame [.media, .pwr, .host, .cmd] ([REG_QSQ_CMDTAB,
      REG_QSQ_STAT] ++ each2 REG_QSQ_HALT 2 4 ++ each2 REG_QSQ_QHOE 2 4) s.m)) ∧
    (∀ (fsn : BitVec 32) (e : IoEnd) (handles : List (BitVec 24)), ∀ i ∈ [Instr.writeCommand fsn e handles, .writeZeroes
      fsn, .datasetManagement fsn, .zoneAppend fsn e handles], Completes i s (Frame [.pwr, .cmd, .sec]
      [REG_QSQ_CMDTAB, REG_SEC_SLOTS, REG_SEC_VAULT] s.m)) ∧
    (∀ (fsn : BitVec 32) (e : IoEnd), ∀ i ∈ [Instr.read fsn e, .compare fsn e, .verify fsn e], Completes i s (Frame
      [.reports, .out, .pwr, .cmd, .sec] [REG_QSQ_CMDTAB, REG_SEC_SLOTS, REG_SEC_VAULT] s.m)) ∧
    (∀ (fsn : BitVec 32), Completes (.writeUncorrectable fsn) s (Frame [.cmd, .sec] [REG_QSQ_CMDTAB, REG_SEC_SLOTS,
      REG_SEC_VAULT] s.m)) ∧
    (∀ (fsn : BitVec 32), ∀ i ∈ [Instr.zoneClose fsn, .zoneOpen fsn], Completes i s (Frame [.reports, .cal, .media, .pwr,
      .buf, .cmd] ([REG_POOL_ERR, REG_POOL_FIRST, REG_QSQ_CMDTAB, REG_QSQ_STAT] ++ each REG_POOL_RETSTAT 8 ++ each
      REG_POOL_STAT 8) s.m)) ∧
    (∀ (fsn : BitVec 32), ∀ i ∈ [Instr.zoneFinish fsn, .zoneReset fsn, .zoneOffline fsn], Completes i s (Frame [.reports,
      .cal, .media, .pwr, .buf, .cmd, .sec] ([REG_POOL_ERR, REG_POOL_FIRST, REG_QSQ_CMDTAB, REG_QSQ_STAT,
      REG_SEC_SLOTS, REG_SEC_VAULT] ++ each REG_POOL_RETSTAT 8 ++ each REG_POOL_STAT 8) s.m)) ∧
    (∀ (fsn : BitVec 32) (e : IoEnd), Completes (.reportZones fsn e) s (Frame [.out, .pwr, .cmd] [REG_QSQ_CMDTAB,
      REG_QSQ_STAT] s.m)) ∧
    (∀ (type : BitVec 8) (p : PortId) (id : BitVec 8) (offset : BitVec 16) (len : BitVec 16), ∀ i ∈
      [Instr.miReadDataStructure type, .miSubsystemHealthPoll, .miControllerHealthPoll p, .miConfigurationGet id,
      .miVpdRead offset len, .smbusBasicManagement], Completes i s (Frame [.out] [] s.m)) ∧
    (∀ (id : BitVec 8) (value : BitVec 16), Completes (.miConfigurationSet id value) s (Frame [.out, .cmd] [] s.m)) ∧
    (Sound s.m 0 → Sound s.m 1 → Completes .miReset s (Frame [.reports, .out, .cal, .media, .motion, .pwr, .buf, .dma,
      .host, .cmd] ([REG_DEC_BUSY, REG_DMA_CTRL, REG_DMA_STAT, REG_POOL_ERR, REG_POOL_FIRST, REG_QSQ_CMDTAB,
      REG_QSQ_STAT] ++ each REG_CHN_SMEM 8 ++ each REG_DMA_CH_MOVED 16 ++ each REG_DMA_CH_STAT 16 ++ each REG_HIF_CC 2
      ++ each REG_HIF_LINK 2 ++ each REG_HIF_RSTCAUSE 2 ++ each REG_LAD_STAT 4 ++ each REG_POOL_RETSTAT 8 ++ each
      REG_POOL_STAT 8 ++ each REG_QSQ_ARB 2 ++ each2 REG_QSQ_HALT 2 4 ++ each2 REG_QSQ_QHOE 2 4 ++ each REG_SRV_STAT 4
      ++ each2 REG_SRV_TARGET 4 2) s.m))

/-- The frame of the 79 commands of power, save, security, reset and events (spec/13, spec/14, spec/16, spec/18,
spec/19) named here: each, where the condition before it holds, answers a next state in which every part of the block,
every register word and the clock are as before, but for the parts and the registers listed beside it, `dueParts` and
`dueRegs` being those of the formatter resets that wait (R178). -/
def Obligations.FrameOfSystem : Prop :=
  ∀ s : State,
    (Completes .idleT4Expiry s (Frame [.reports, .out, .media, .host] ([REG_PWR_MODE] ++ each REG_AFE_LANE_STAT 16 ++ each
      REG_HIF_LINK 2) s.m)) ∧
    (Completes .idleT5Expiry s (Frame [.reports, .out, .die, .pwr, .host, .cmd] ([REG_KSV_CTRL, REG_KSV_GENHI,
      REG_KSV_GENLO, REG_KSV_LIMIT, REG_PWR_MODE, REG_QSQ_CMDTAB] ++ each REG_HIF_LINK 2 ++ each REG_VCM_MA 4 ++ each
      REG_VCM_STAT 4) s.m)) ∧
    (∀ i ∈ [Instr.idleT6Expiry, .idleT7Expiry], Completes i s (Frame [.reports, .out, .die, .spn, .host] ([REG_PWR_MODE,
      REG_SPN_DEMAND, REG_SPN_ERR, REG_SPN_OBS, REG_SPN_SPEED, REG_SPN_STAT, REG_SPN_TARGET] ++ each REG_HIF_LINK 2 ++
      each REG_SRV_STAT 4) s.m)) ∧
    (Completes .mediaWake s (Frame [.reports, .out, .die, .spn, .pwr, .host] ([REG_CAL_CAP, REG_PWR_CAP, REG_PWR_MODE,
      REG_QDR_TORQ, REG_SPN_DEMAND, REG_SPN_ERR, REG_SPN_OBS, REG_SPN_SPEED, REG_SPN_STAT, REG_SPN_TARGET,
      REG_VCM_ERR] ++ each REG_HIF_LINK 2 ++ each REG_QDR_ACT 4 ++ each REG_SRV_STAT 4 ++ each REG_VCM_STAT 4) s.m)) ∧
    (Completes .spinUpComplete s (Frame [.reports, .out, .pwr, .host, .cmd] ([REG_KSV_CTRL, REG_KSV_GENHI, REG_KSV_GENLO,
      REG_KSV_LIMIT, REG_PWR_MODE, REG_QSQ_CMDTAB] ++ each REG_HIF_LINK 2) s.m)) ∧
    (∀ (d : DragMeas), Completes (.capacityMeasure d) s (Frame [.pwr, .host, .cmd] [REG_KSV_CTRL, REG_KSV_GENHI,
      REG_KSV_GENLO, REG_KSV_LIMIT, REG_QSQ_CMDTAB] s.m)) ∧
    (∀ i ∈ [Instr.writeAdmission, .metadataFlush], Completes i s (Frame [.pwr] [] s.m)) ∧
    (∀ (celsius : BitVec 8), Completes (.thermalThrottle celsius) s (Frame [.reports, .pwr] [REG_CAL_CAP, REG_PWR_CAP,
      REG_PWR_TEMP, REG_QDR_TORQ] s.m)) ∧
    (Completes .logicDieOvertemp s (Frame [.reports, .out, .die, .host] ([REG_PWR_MODE, REG_PWR_TEMP] ++ each REG_HIF_LINK
      2 ++ each REG_VCM_MA 4 ++ each REG_VCM_STAT 4) s.m)) ∧
    (Completes .runBegin s (Frame [.freeCtr, .media, .motion, .pwr] (each REG_FMT_STAT 8) s.m)) ∧
    (Completes .sleepEntry s (Frame [.reports, .out, .cal, .die, .buf, .host, .rst] ([REG_BUF_CNT, REG_BUF_ERR,
      REG_BUF_FIRST, REG_CCH_MISS, REG_CLK_GOOD0, REG_CLK_GOOD1, REG_CLK_STAT, REG_PWR_MODE, REG_PWR_RAILS,
      REG_SCB_STAT] ++ each REG_HIF_LINK 2 ++ each REG_POOL_RETSTAT 8 ++ each REG_POOL_STAT 8) s.m)) ∧
    (∀ (v12 : BitVec 10) (v5 : BitVec 10) (us : BitVec 10), Completes (.supplyLoss v12 v5 us) s (Frame [.reports, .out,
      .cal, .media, .motion, .die, .spn, .pwr, .buf, .dma, .host, .cmd] ([REG_CAL_STATUS, REG_DEC_BUSY, REG_DMA_CTRL,
      REG_DMA_STAT, REG_KSV_GENHI, REG_KSV_GENLO, REG_KSV_LIST_COUNT, REG_KSV_STAT, REG_POOL_ERR, REG_POOL_FIRST,
      REG_PWR_MODE, REG_PWR_RAILS, REG_QDR_ADMIT, REG_QDR_TORQ, REG_QSQ_CMDTAB, REG_QSQ_STAT] ++ each REG_CHN_SMEM 8
      ++ each REG_DMA_CH_MOVED 16 ++ each REG_DMA_CH_STAT 16 ++ each REG_FMT_CNT_ABORT 8 ++ each REG_FMT_CNT_MISS 8 ++
      each REG_FMT_CTRL 8 ++ each REG_FMT_ERR 8 ++ each REG_FMT_STAT 8 ++ each REG_HIF_LINK 2 ++ each REG_LAD_STAT 4
      ++ each REG_POOL_RETSTAT 8 ++ each REG_POOL_STAT 8 ++ each REG_PRG_STAT 4 ++ each REG_PRG_TGT 4 ++ each
      REG_QDR_KACC 4 ++ each REG_SRV_STAT 4 ++ each2 REG_SRV_TARGET 4 2 ++ each REG_VCM_MA 4 ++ each REG_VCM_STAT 4)
      s.m)) ∧
    (∀ (a : Actuator), Completes (.saveUnitWrite a) s (Frame [.reports, .out, .cal, .media, .pwr, .buf] [REG_BUF_CNT,
      REG_BUF_ERR, REG_BUF_FIRST, REG_CCH_MISS, REG_KSV_STAT] s.m)) ∧
    (Completes .busUndervoltage s (Frame [.freeCtr, .reports, .out, .media, .motion, .die, .pwr] ([REG_KSV_GENHI,
      REG_KSV_GENLO, REG_KSV_STAT] ++ each REG_FMT_CNT_ABORT 8 ++ each REG_FMT_CNT_MISS 8 ++ each REG_FMT_ERR 8 ++
      each REG_FMT_STAT 8 ++ each REG_HSQ_ERR 4 ++ each2 REG_HSQ_SEL 4 2 ++ each REG_VCM_MA 4 ++ each REG_VCM_STAT 4)
      s.m)) ∧
    (∀ (stop : SaveStop) (busMin : BitVec 16) (us : BitVec 32), Completes (.saveEnd stop busMin us) s (Frame [.reports,
      .out, .media, .die, .pwr, .evt] ([REG_KSV_STAT] ++ each REG_VCM_MA 4 ++ each REG_VCM_STAT 4) s.m)) ∧
    (∀ (scan : List GroupScan), Completes (.replay scan) s (Frame [.reports, .pwr, .host, .cmd, .sec, .evt]
      ([REG_QSQ_CMDTAB, REG_SEC_SLOTS, REG_SEC_VAULT] ++ each REG_KSV_REG 4) s.m)) ∧
    (Completes .readoptDirty s (Frame [.reports, .out, .pwr, .buf, .host, .cmd, .sec, .rst] [REG_BUF_CNT, REG_BUF_ERR,
      REG_BUF_FIRST, REG_CCH_MISS, REG_QSQ_CMDTAB, REG_SEC_SLOTS, REG_SEC_VAULT] s.m)) ∧
    (∀ (toReturned : Bool), ∀ i ∈ [Instr.svnRaise, .fuseProgram toReturned], Completes i s (Frame [.sec, .fuses] [] s.m)) ∧
    (∀ i ∈ [Instr.resetNRelease, .stormHoldEnd, .clockStart], Completes i s (Frame [.rst] [] s.m)) ∧
    (∀ i ∈ [Instr.phaseP0, .railRampTimeout], Completes i s (Frame [.rst] [REG_PWR_RAILS] s.m)) ∧
    (Completes .crystalGood s (Frame [.rst] [REG_CLK_GOOD0, REG_CLK_GOOD1, REG_CLK_STAT] s.m)) ∧
    (Completes .pllLock s (Frame [] [REG_CLK_STAT] s.m)) ∧
    (∀ (testEn : Bool), Completes (.fuseSense testEn) s (Frame [.rst] [REG_CLK_GOOD0, REG_CLK_GOOD1, REG_CLK_STAT,
      REG_FUS_PADMAP, REG_FUS_SERHI, REG_FUS_SERLO, REG_PWR_RAILS, REG_RST_PHASE, REG_SEC_LIFE, REG_SEC_SVN] s.m)) ∧
    (Completes .optionLoad s (Frame [.reports, .cmd, .sec] [REG_BUF_CTRL, REG_HIF_MODE, REG_HIF_SUBSYS, REG_PWR_FLEET,
      REG_RST_PHASE, REG_SEC_BOOT, REG_SEC_ERR] s.m)) ∧
    (∀ (d : Fin 40), Completes (.domainRelease d) s (Frame [.cal, .die, .rst] ([REG_CAL_FIGNO, REG_CLK_GOOD0,
      REG_CLK_GOOD1, REG_RST_PHASE, REG_VCM_TEMP] ++ each REG_QDR_ACT 4 ++ each REG_VCM_STAT 4) s.m)) ∧
    (Completes .bufferInit s (Frame [.buf, .eng, .rst] [REG_BUF_STAT, REG_RST_PHASE, REG_RST_STAT] s.m)) ∧
    (Completes .bundleSelect s (Frame [.reports, .sec, .eng] ([REG_QSQ_CSSWAP, REG_QSQ_DTERR, REG_RST_PHASE, REG_SEC_BOOT,
      REG_SEC_ERR] ++ each REG_SEQ_STAT 20) s.m)) ∧
    (Completes .spinDelayEnd s (Frame [.reports, .out, .die, .spn, .pwr, .host] ([REG_PWR_MODE, REG_PWR_SPIN,
      REG_RST_PHASE, REG_SPN_DEMAND, REG_SPN_ERR, REG_SPN_OBS, REG_SPN_SPEED, REG_SPN_STAT, REG_SPN_TARGET] ++ each
      REG_HIF_LINK 2 ++ each REG_SRV_STAT 4) s.m)) ∧
    (∀ (req : Requester) (half : Fin 2) (w : Word), Completes (.clkGateWrite req half w) s (Frame [.reports, .rst]
      [REG_CLK_ERR, REG_CLK_GATE0, REG_CLK_GATE1, REG_CLK_GOOD0, REG_CLK_GOOD1] s.m)) ∧
    (∀ (n : Stream), Completes (.blockResetChn n) s (Frame [.reports, .media] ([REG_RST_BLKSTAT0, REG_RST_BLKSTAT1,
      REG_RST_ERR] ++ window n.val) s.m)) ∧
    (∀ (n : Stream), Completes (.blockResetFmt n) s (Frame [.reports, .media, .pwr, .eng] ([REG_RST_BLKSTAT0,
      REG_RST_BLKSTAT1, REG_RST_ERR] ++ each REG_SEQ_STAT 20 ++ window (8 + n.val)) s.m)) ∧
    (∀ (a : Actuator), Completes (.blockResetLad a) s (Frame [.reports, .media, .eng] ([REG_RST_BLKSTAT0,
      REG_RST_BLKSTAT1, REG_RST_ERR] ++ each REG_SEQ_STAT 20 ++ window (16 + a.val)) s.m)) ∧
    (∀ (a : Actuator), Completes (.blockResetSrv a) s (Frame [.reports, .motion] ([REG_RST_BLKSTAT0, REG_RST_BLKSTAT1,
      REG_RST_ERR] ++ window (20 + a.val)) s.m)) ∧
    (∀ (a : Actuator), Completes (.blockResetHsq a) s (Frame [.reports, .motion, .eng] ([REG_RST_BLKSTAT0,
      REG_RST_BLKSTAT1, REG_RST_ERR] ++ each REG_SEQ_STAT 20 ++ window (24 + a.val)) s.m)) ∧
    (Completes .blockResetDec s (Frame [.reports, .media] ([REG_RST_BLKSTAT0, REG_RST_BLKSTAT1, REG_RST_ERR] ++ window 28)
      s.m)) ∧
    (Completes .blockResetPrg s (Frame [.reports, .motion] ([REG_RST_BLKSTAT0, REG_RST_BLKSTAT1, REG_RST_ERR] ++ window
      29) s.m)) ∧
    (Completes .blockResetQdr s (Frame [.reports, .motion] ([REG_RST_BLKSTAT0, REG_RST_BLKSTAT1, REG_RST_ERR] ++ window
      30) s.m)) ∧
    (Completes .blockResetSpn s (Frame [.reports, .spn] ([REG_RST_BLKSTAT0, REG_RST_BLKSTAT1, REG_RST_ERR] ++ window 32)
      s.m)) ∧
    (Completes .blockResetVcm s (Frame [.reports, .die] ([REG_RST_BLKSTAT0, REG_RST_BLKSTAT1, REG_RST_ERR] ++ window 33)
      s.m)) ∧
    (Completes .blockResetPool s (Frame [.reports, .cal, .buf] ([REG_RST_BLKSTAT0, REG_RST_BLKSTAT1, REG_RST_ERR] ++
      window 34) s.m)) ∧
    (Completes .blockResetCch s (Frame [.reports, .buf] ([REG_RST_BLKSTAT0, REG_RST_BLKSTAT1, REG_RST_ERR] ++ window 35)
      s.m)) ∧
    (Completes .blockResetScb s (Frame [.reports, .buf] ([REG_RST_BLKSTAT0, REG_RST_BLKSTAT1, REG_RST_ERR] ++ window 36)
      s.m)) ∧
    (Completes .blockResetDma s (Frame [.reports, .dma] ([REG_RST_BLKSTAT0, REG_RST_BLKSTAT1, REG_RST_ERR] ++ window 37)
      s.m)) ∧
    (Completes .blockResetQsq s (Frame [.reports, .host, .eng] ([REG_RST_BLKSTAT0, REG_RST_BLKSTAT1, REG_RST_ERR] ++ each
      REG_SEQ_STAT 20 ++ window 38) s.m)) ∧
    (∀ (req : Requester) (slot : KeySlot), ∀ i ∈ [Instr.keyLoadSlot req slot, .keyClearSlot req slot, .keyClearAll req],
      Completes i s (Frame [.reports, .sec] [REG_SEC_ERR, REG_SEC_SLOTS, REG_SEC_VAULT] s.m)) ∧
    (Completes .nonceRequest s (Frame [.freeCtr] ([REG_DBG_STAT] ++ each REG_DBG_NONCE 4) s.m)) ∧
    (∀ (t0 : Token), Completes (.tokenSubmit t0) s (Frame [.reports, .sec] ([REG_DBG_ERR, REG_DBG_STAT] ++ each
      REG_DBG_NONCE 4) s.m)) ∧
    (Completes .herugPrepare s (Frame [.reports, .die, .sec] ([REG_DBG_ERR, REG_DBG_STAT, REG_QSQ_CTRL] ++ each REG_VCM_MA
      4 ++ each REG_VCM_STAT 4) s.m)) ∧
    (Completes .dbgGrant s (Frame [.cal, .media, .buf, .dma, .sec] ([REG_DBG_STAT, REG_DMA_CTRL, REG_DMA_STAT,
      REG_SEC_SLOTS, REG_SEC_VAULT] ++ each REG_DMA_CH_MOVED 16 ++ each REG_DMA_CH_STAT 16) s.m)) ∧
    (Completes .dbgRefuse s (Frame [.reports, .sec] [REG_DBG_ERR, REG_DBG_STAT] s.m)) ∧
    (Completes .herugOpen s (Frame [.reports, .out, .cal, .pwr, .buf, .host, .sec] ([REG_DBG_COUNT, REG_DBG_STAT,
      REG_PWR_MODE] ++ each REG_HIF_LINK 2) s.m)) ∧
    (∀ (a : Actuator), Completes (.preampRailLimit a) s (Frame [.reports, .die] ([REG_PWR_RAILS] ++ each REG_HSQ_FAULT 4
      ++ each REG_SRV_STAT 4) s.m)) ∧
    (∀ (src : Option (Fin 1152)), Completes (.eventFire src) s (Frame [.reports, .out, .cal, .die, .buf, .host, .cmd,
      .evt] ([REG_EVT_FIRST, REG_EVT_FIRSTSEQ, REG_EVT_LGR_STAT, REG_EVT_SEQHI, REG_EVT_SEQLO, REG_POOL_ERR,
      REG_POOL_FIRST, REG_PWR_MODE] ++ each REG_EVT_CNT 576 ++ each REG_EVT_STAT 36 ++ each REG_HIF_CC 2 ++ each
      REG_HIF_LINK 2 ++ each REG_POOL_RETSTAT 8 ++ each REG_POOL_STAT 8 ++ each REG_QSQ_ARB 2 ++ each REG_VCM_MA 4 ++
      each REG_VCM_STAT 4) s.m)) ∧
    (Completes .ledgerWriteDone s (Frame [.freeCtr, .reports, .out, .cal, .buf, .host, .evt] [REG_BUF_CNT, REG_BUF_ERR,
      REG_BUF_FIRST, REG_CCH_MISS, REG_EVT_LGR_HEAD, REG_EVT_LGR_TAIL] s.m)) ∧
    (Completes .evtCntclr s (Frame [] (each REG_EVT_CNT 576) s.m)) ∧
    (Completes .evtFirstClear s (Frame [] [REG_EVT_FIRST, REG_EVT_FIRSTSEQ] s.m)) ∧
    (∀ (bit : BitVec 5), Completes (.evtSwraise bit) s (Frame [.reports] [REG_EVT_ERR] s.m)) ∧
    (Completes .recProgram s (Frame [.reports, .out, .cal, .buf, .evt] [REG_BUF_CNT, REG_BUF_ERR, REG_BUF_FIRST,
      REG_CCH_MISS, REG_REC_STAT] s.m)) ∧
    (Completes .recErase s (Frame [.evt] [REG_REC_STAT] s.m)) ∧
    (∀ (outcome : Fin 3), Completes (.recDone outcome) s (Frame [.freeCtr, .evt] [REG_REC_STAT] s.m)) ∧
    (Completes .snapshotTimer s (Frame [.freeCtr, .evt] [] s.m)) ∧
    (Completes .pohStore s (Frame [.evt] [] s.m)) ∧
    (Completes .spinPhaseOvercurrent s (Frame [.reports, .die, .spn] ([REG_SPN_FAULT, REG_SPN_OBS, REG_SPN_SPEED,
      REG_SPN_STAT, REG_SPN_TARGET] ++ each REG_SRV_STAT 4) s.m)) ∧
    (Completes .ladderL1Leave s (Frame [.die] ([REG_SPN_RAIL] ++ each REG_VCM_STAT 4) s.m)) ∧
    (∀ (celsius : BitVec 8), Completes (.thermalThrottleEnd celsius) s (Frame [.pwr] [REG_CAL_CAP, REG_PWR_CAP,
      REG_PWR_TEMP, REG_QDR_TORQ] s.m)) ∧
    (∀ (p : PortId), Completes (.aspmL1Exit p) s (Frame [] (each REG_HIF_LINK 2) s.m)) ∧
    (∀ (p : PortId), Completes (.perstDeassert p) s (Frame [.host] [] s.m)) ∧
    (∀ (p : PortId), Completes (.interruptCoalescingTimeout p) s (Frame [.out, .host] (each REG_HIF_LINK 2) s.m)) ∧
    (Completes .powerDiePowerOn s (Frame [.die] ([REG_SPN_BRK] ++ each REG_QDR_ACT 4 ++ each REG_VCM_STAT 4) s.m)) ∧
    (∀ (a : Actuator) (temp : Int), Completes (.preampTemperatureRead a temp) s (Frame [.motion] (each REG_QDR_ACT 4)
      s.m)) ∧
    (∀ (sensor : Fin 3) (kelvin : BitVec 16), Completes (.temperatureThresholdCrossed sensor kelvin) s (Frame [.host,
      .cmd] [REG_QSQ_CMDTAB] s.m))
end

