-- ==== Sys2Proof/Laws/Regs.lean ====
section
/-! SUPPORT. Reading a register field after writing one, and the canonical form of the sparse lists. -/
namespace Sys2Proof.Machine

/-! ### The sparse lists -/

theorem lookup_insert_self (a : Nat) (x : Word) (l : List (Nat × Word)) (h : ∀ c ∈ l, c.1 ≠ a) :
    regLookup a (insertPair a x l) = x := by
  induction l with
  | nil => simp [insertPair, regLookup]
  | cons c l ih =>
    simp only [insertPair]
    split
    · simp [regLookup]
    · simp only [regLookup]
      rw [if_neg (fun e => h c (by simp) e.symm)]
      exact ih fun c hc => h c (by simp [hc])

theorem lookup_insert_other {a b : Nat} (x : Word) (l : List (Nat × Word)) (h : a ≠ b) :
    regLookup a (insertPair b x l) = regLookup a l := by
  induction l with
  | nil => simp [insertPair, regLookup, h]
  | cons c l ih =>
    simp only [insertPair]
    split
    · simp [regLookup, h]
    · simp only [regLookup, ih]

theorem lookup_filter_self (a : Nat) (l : List (Nat × Word)) :
    regLookup a (l.filter fun c => c.1 != a) = resetWord a := by
  induction l with
  | nil => simp [regLookup]
  | cons c l ih =>
    by_cases h : c.1 = a
    · simpa [h] using ih
    · have h' : ¬ a = c.1 := fun e => h e.symm
      simp [h, regLookup, h', ih]

theorem lookup_filter_other {a b : Nat} (l : List (Nat × Word)) (h : a ≠ b) :
    regLookup a (l.filter fun c => c.1 != b) = regLookup a l := by
  induction l with
  | nil => simp [regLookup]
  | cons c l ih =>
    by_cases hc : c.1 = b
    · have h' : ¬ a = c.1 := fun e => h (e.trans hc)
      simp [hc, regLookup, h, ih]
    · by_cases ha : a = c.1 <;> simp [hc, regLookup, ha, ih]

theorem regLookup_regStore_self (a : Nat) (x : Word) (l : List (Nat × Word)) :
    regLookup a (regStore a x l) = x := by
  simp only [regStore]
  split
  · next h => rw [lookup_filter_self, h]
  · exact lookup_insert_self _ _ _ (by simp)

theorem regLookup_regStore_other {a b : Nat} (x : Word) (l : List (Nat × Word)) (h : a ≠ b) :
    regLookup a (regStore b x l) = regLookup a l := by
  simp only [regStore]
  split
  · exact lookup_filter_other _ h
  · rw [lookup_insert_other _ _ h, lookup_filter_other _ h]

theorem mem_insertPair {β : Type} {a : Nat} {x : β} {l : List (Nat × β)} {c : Nat × β} :
    c ∈ insertPair a x l ↔ c = (a, x) ∨ c ∈ l := by
  induction l with
  | nil => simp [insertPair]
  | cons d l ih =>
    simp only [insertPair]
    split
    · simp
    · simp only [List.mem_cons, ih]; constructor <;> rintro (h | h | h) <;> simp [h]

theorem rising_insertPair {β : Type} {a : Nat} {x : β} {l : List (Nat × β)}
    (h : (l.map (·.1)).Pairwise (· < ·)) (hn : ∀ c ∈ l, c.1 ≠ a) :
    ((insertPair a x l).map (·.1)).Pairwise (· < ·) := by
  induction l with
  | nil => simp [insertPair]
  | cons d l ih =>
    simp only [List.map_cons, List.pairwise_cons, List.mem_map, forall_exists_index, and_imp] at h
    have hd : d.1 ≠ a := hn d (by simp)
    simp only [insertPair]
    split
    · next hlt =>
      simp only [List.map_cons, List.pairwise_cons, List.mem_cons, List.mem_map]
      refine ⟨?_, ?_, h.2⟩
      · rintro b (rfl | ⟨c, hc, rfl⟩)
        · exact hlt
        · exact Nat.lt_trans hlt (h.1 _ c hc rfl)
      · rintro b ⟨c, hc, rfl⟩; exact h.1 _ c hc rfl
    · next hge =>
      simp only [List.map_cons, List.pairwise_cons, List.mem_map]
      refine ⟨?_, ih h.2 fun c hc => hn c (by simp [hc])⟩
      rintro b ⟨c, hc, rfl⟩
      rcases mem_insertPair.1 hc with rfl | hc
      · exact Nat.lt_of_le_of_ne (Nat.le_of_not_lt hge) hd
      · exact h.1 _ c hc rfl

theorem rising_filter {β : Type} {p : Nat × β → Bool} {l : List (Nat × β)}
    (h : (l.map (·.1)).Pairwise (· < ·)) : ((l.filter p).map (·.1)).Pairwise (· < ·) :=
  h.sublist (List.filter_sublist.map _)

theorem regStore_wf {a : Nat} {x : Word} {l : List (Nat × Word)} (h : regsWf l = true) :
    regsWf (regStore a x l) = true := by
  simp only [regsWf, Bool.and_eq_true, decide_eq_true_eq, List.all_eq_true, bne_iff_ne] at h ⊢
  simp only [regStore]
  split
  · exact ⟨rising_filter h.1, fun c hc => h.2 c ((List.mem_filter.1 hc).1)⟩
  · next hx =>
    refine ⟨rising_insertPair (rising_filter h.1) (by simp), fun c hc => ?_⟩
    rcases mem_insertPair.1 hc with rfl | hc
    · exact hx
    · exact h.2 c ((List.mem_filter.1 hc).1)

theorem BufMem.wf_iff {b : BufMem} : b.wf = true ↔
    (b.cells.map (·.1)).Pairwise (· < ·) ∧ ∀ c ∈ b.cells, c.1 < bufEnd ∧ c.2 ≠ 0 := by
  simp only [BufMem.wf, Bool.and_eq_true, List.all_eq_true, bne_iff_ne]
  exact ⟨fun h => ⟨of_decide_eq_true h.1, fun c hc => ⟨of_decide_eq_true (h.2 c hc).1, (h.2 c hc).2⟩⟩,
    fun h => ⟨decide_eq_true h.1, fun c hc => ⟨decide_eq_true (h.2 c hc).1, (h.2 c hc).2⟩⟩⟩

theorem putByte_wf {b : BufMem} {a : Nat} {x : Byte} (ha : a < bufEnd) (h : b.wf = true) : (b.putByte a x).wf = true := by
  rw [BufMem.wf_iff] at h ⊢
  simp only [BufMem.putByte, putPair]
  split
  · exact ⟨rising_filter h.1, fun c hc => h.2 c ((List.mem_filter.1 hc).1)⟩
  · next hx =>
    refine ⟨rising_insertPair (rising_filter h.1) (by simp), fun c hc => ?_⟩
    rcases mem_insertPair.1 hc with rfl | hc
    · exact ⟨ha, hx⟩
    · exact h.2 c ((List.mem_filter.1 hc).1)

theorem getPair_putPair_self {β : Type} [DecidableEq β] (d : β) (a : Nat) (x : β) (l : List (Nat × β)) :
    getPair d a (putPair d a x l) = x := by
  have hi : ∀ l : List (Nat × β), (∀ c ∈ l, c.1 ≠ a) → getPair d a (insertPair a x l) = x := by
    intro l hl
    induction l with
    | nil => simp [insertPair, getPair]
    | cons c l ih =>
      simp only [insertPair]
      split
      · simp [getPair]
      · simp only [getPair]
        rw [if_neg (fun e => hl c (by simp) e.symm)]
        exact ih fun c hc => hl c (by simp [hc])
  have hf : ∀ l : List (Nat × β), getPair d a (l.filter fun c => c.1 != a) = d := by
    intro l
    induction l with
    | nil => simp [getPair]
    | cons c l ih =>
      by_cases h : c.1 = a
      · simpa [h] using ih
      · have h' : ¬ a = c.1 := fun e => h e.symm
        simp [h, getPair, h', ih]
  simp only [putPair]
  split
  · next h => rw [hf, h]
  · exact hi _ (by simp)

theorem getPair_putPair_other {β : Type} [DecidableEq β] (d : β) {a b : Nat} (x : β) (l : List (Nat × β)) (h : a ≠ b) :
    getPair d a (putPair d b x l) = getPair d a l := by
  have hi : ∀ l : List (Nat × β), getPair d a (insertPair b x l) = getPair d a l := by
    intro l
    induction l with
    | nil => simp [insertPair, getPair, h]
    | cons c l ih =>
      simp only [insertPair]
      split
      · simp [getPair, h]
      · simp only [getPair, ih]
  have hf : getPair d a (l.filter fun c => c.1 != b) = getPair d a l := by
    induction l with
    | nil => simp [getPair]
    | cons c l ih =>
      by_cases hc : c.1 = b
      · simp [hc, getPair, h, ih]
      · by_cases ha : a = c.1
        · subst ha; simp [getPair, hc]
        · simp [hc, getPair, ha, ih]
  simp only [putPair]
  split
  · exact hf
  · rw [hi, hf]

/-! ### Bit fields -/

theorem getBits_lt (x : Word) (lo w : Nat) : getBits x lo w < 2 ^ w := Nat.mod_lt _ (Nat.two_pow_pos w)

theorem testBit_getBits (x : Word) (lo w i : Nat) :
    (getBits x lo w).testBit i = (decide (i < w) && x.getLsbD (lo + i)) := by
  simp [getBits, Nat.testBit_mod_two_pow, Nat.testBit_div_two_pow, BitVec.getLsbD, Nat.add_comm]

theorem getLsbD_setBits (x : Word) (lo w v i : Nat) :
    (setBits x lo w v).getLsbD i =
      if lo ≤ i ∧ i < lo + w then decide (i < 32) && v.testBit (i - lo) else x.getLsbD i := by
  have ho (n j : Nat) : (BitVec.ofNat 32 n).getLsbD j = (decide (j < 32) && n.testBit j) := BitVec.getLsbD_ofNat ..
  by_cases hi : i < 32
  · have hx : i - lo < 32 := by omega
    simp only [setBits, BitVec.getLsbD_or, BitVec.getLsbD_and, BitVec.getLsbD_not, BitVec.getLsbD_shiftLeft, ho,
      Nat.testBit_two_pow_sub_one, hi, hx, decide_true, Bool.true_and]
    by_cases hl : lo ≤ i
    · by_cases hw : i - lo < w
      · rw [if_pos ⟨hl, by omega⟩]
        simp [hw, Nat.not_lt.2 hl]
      · rw [if_neg (by omega)]
        simp [hw]
    · simp [hl, Nat.lt_of_not_le hl]
  · simp [BitVec.getLsbD_of_ge _ _ (Nat.le_of_not_lt hi), hi]

theorem getBits_setBits_self {lo w : Nat} (x : Word) (v : Nat) (h : lo + w ≤ 32) :
    getBits (setBits x lo w v) lo w = v % 2 ^ w := by
  apply Nat.eq_of_testBit_eq
  intro i
  rw [testBit_getBits, getLsbD_setBits, Nat.testBit_mod_two_pow]
  by_cases hi : i < w
  · simp [hi, (by omega : lo + i < 32)]
  · simp [hi]

theorem getBits_setBits_other {lo w lo' w' : Nat} (x : Word) (v : Nat) (h : lo' + w' ≤ lo ∨ lo + w ≤ lo') :
    getBits (setBits x lo w v) lo' w' = getBits x lo' w' := by
  apply Nat.eq_of_testBit_eq
  intro i
  rw [testBit_getBits, testBit_getBits, getLsbD_setBits]
  by_cases hi : i < w'
  · rw [if_neg (by omega)]
  · simp [hi]

/-! ### Register words and fields of the block -/

@[simp] theorem word_setWord_self (m : Mach) (a : Nat) (x : Word) : (m.setWord a x).word a = x :=
  regLookup_regStore_self _ _ _

theorem word_setWord_other (m : Mach) {a b : Nat} (x : Word) (h : a ≠ b) : (m.setWord b x).word a = m.word a :=
  regLookup_regStore_other _ _ h

theorem word_set_other (m : Mach) {a : Nat} {l : Loc} (v : Nat) (h : a ≠ l.addr) : (m.set l v).word a = m.word a :=
  word_setWord_other _ _ h

theorem get_set_self (m : Mach) {l : Loc} (v : Nat) (h : l.lo + l.w ≤ 32) : (m.set l v).get l = v % 2 ^ l.w := by
  simp [Mach.get, Mach.set, getBits_setBits_self, h]

theorem get_set_addr (m : Mach) {k l : Loc} (v : Nat) (h : k.addr ≠ l.addr) : (m.set l v).get k = m.get k := by
  simp [Mach.get, word_set_other _ _ h]

theorem get_set_bits (m : Mach) {k l : Loc} (v : Nat) (h : k.lo + k.w ≤ l.lo ∨ l.lo + l.w ≤ k.lo) :
    (m.set l v).get k = m.get k := by
  by_cases ha : k.addr = l.addr
  · simp [Mach.get, Mach.set, ha, getBits_setBits_other _ _ h]
  · exact get_set_addr _ _ ha

end Sys2Proof.Machine
end

