-- ==== Sys2Proof/Laws/State.lean ====
section
/-! SUPPORT. What each shared operation leaves of each field of the block, and register reads past it. -/
namespace Sys2Proof.Machine

@[simp] theorem setWord_clock (m : Mach) (a : Nat) (x : Word) : (m.setWord a x).clock = m.clock := rfl
@[simp] theorem setWord_freeCtr (m : Mach) (a : Nat) (x : Word) : (m.setWord a x).freeCtr = m.freeCtr := rfl
@[simp] theorem setWord_reports (m : Mach) (a : Nat) (x : Word) : (m.setWord a x).reports = m.reports := rfl
@[simp] theorem setWord_out (m : Mach) (a : Nat) (x : Word) : (m.setWord a x).out = m.out := rfl
@[simp] theorem setWord_cal (m : Mach) (a : Nat) (x : Word) : (m.setWord a x).cal = m.cal := rfl
@[simp] theorem setWord_media (m : Mach) (a : Nat) (x : Word) : (m.setWord a x).media = m.media := rfl
@[simp] theorem setWord_motion (m : Mach) (a : Nat) (x : Word) : (m.setWord a x).motion = m.motion := rfl
@[simp] theorem setWord_die (m : Mach) (a : Nat) (x : Word) : (m.setWord a x).die = m.die := rfl
@[simp] theorem setWord_spn (m : Mach) (a : Nat) (x : Word) : (m.setWord a x).spn = m.spn := rfl
@[simp] theorem setWord_pwr (m : Mach) (a : Nat) (x : Word) : (m.setWord a x).pwr = m.pwr := rfl
@[simp] theorem setWord_buf (m : Mach) (a : Nat) (x : Word) : (m.setWord a x).buf = m.buf := rfl
@[simp] theorem setWord_dma (m : Mach) (a : Nat) (x : Word) : (m.setWord a x).dma = m.dma := rfl
@[simp] theorem setWord_host (m : Mach) (a : Nat) (x : Word) : (m.setWord a x).host = m.host := rfl
@[simp] theorem setWord_cmd (m : Mach) (a : Nat) (x : Word) : (m.setWord a x).cmd = m.cmd := rfl
@[simp] theorem setWord_sec (m : Mach) (a : Nat) (x : Word) : (m.setWord a x).sec = m.sec := rfl
@[simp] theorem setWord_eng (m : Mach) (a : Nat) (x : Word) : (m.setWord a x).eng = m.eng := rfl
@[simp] theorem setWord_evt (m : Mach) (a : Nat) (x : Word) : (m.setWord a x).evt = m.evt := rfl
@[simp] theorem setWord_rst (m : Mach) (a : Nat) (x : Word) : (m.setWord a x).rst = m.rst := rfl
@[simp] theorem set_clock (m : Mach) (l : Loc) (v : Nat) : (m.set l v).clock = m.clock := rfl
@[simp] theorem set_freeCtr (m : Mach) (l : Loc) (v : Nat) : (m.set l v).freeCtr = m.freeCtr := rfl
@[simp] theorem set_reports (m : Mach) (l : Loc) (v : Nat) : (m.set l v).reports = m.reports := rfl
@[simp] theorem set_out (m : Mach) (l : Loc) (v : Nat) : (m.set l v).out = m.out := rfl
@[simp] theorem set_cal (m : Mach) (l : Loc) (v : Nat) : (m.set l v).cal = m.cal := rfl
@[simp] theorem set_media (m : Mach) (l : Loc) (v : Nat) : (m.set l v).media = m.media := rfl
@[simp] theorem set_motion (m : Mach) (l : Loc) (v : Nat) : (m.set l v).motion = m.motion := rfl
@[simp] theorem set_die (m : Mach) (l : Loc) (v : Nat) : (m.set l v).die = m.die := rfl
@[simp] theorem set_spn (m : Mach) (l : Loc) (v : Nat) : (m.set l v).spn = m.spn := rfl
@[simp] theorem set_pwr (m : Mach) (l : Loc) (v : Nat) : (m.set l v).pwr = m.pwr := rfl
@[simp] theorem set_buf (m : Mach) (l : Loc) (v : Nat) : (m.set l v).buf = m.buf := rfl
@[simp] theorem set_dma (m : Mach) (l : Loc) (v : Nat) : (m.set l v).dma = m.dma := rfl
@[simp] theorem set_host (m : Mach) (l : Loc) (v : Nat) : (m.set l v).host = m.host := rfl
@[simp] theorem set_cmd (m : Mach) (l : Loc) (v : Nat) : (m.set l v).cmd = m.cmd := rfl
@[simp] theorem set_sec (m : Mach) (l : Loc) (v : Nat) : (m.set l v).sec = m.sec := rfl
@[simp] theorem set_eng (m : Mach) (l : Loc) (v : Nat) : (m.set l v).eng = m.eng := rfl
@[simp] theorem set_evt (m : Mach) (l : Loc) (v : Nat) : (m.set l v).evt = m.evt := rfl
@[simp] theorem set_rst (m : Mach) (l : Loc) (v : Nat) : (m.set l v).rst = m.rst := rfl
@[simp] theorem setFlag_clock (m : Mach) (l : Loc) (b : Bool) : (m.setFlag l b).clock = m.clock := rfl
@[simp] theorem setFlag_freeCtr (m : Mach) (l : Loc) (b : Bool) : (m.setFlag l b).freeCtr = m.freeCtr := rfl
@[simp] theorem setFlag_reports (m : Mach) (l : Loc) (b : Bool) : (m.setFlag l b).reports = m.reports := rfl
@[simp] theorem setFlag_out (m : Mach) (l : Loc) (b : Bool) : (m.setFlag l b).out = m.out := rfl
@[simp] theorem setFlag_cal (m : Mach) (l : Loc) (b : Bool) : (m.setFlag l b).cal = m.cal := rfl
@[simp] theorem setFlag_media (m : Mach) (l : Loc) (b : Bool) : (m.setFlag l b).media = m.media := rfl
@[simp] theorem setFlag_motion (m : Mach) (l : Loc) (b : Bool) : (m.setFlag l b).motion = m.motion := rfl
@[simp] theorem setFlag_die (m : Mach) (l : Loc) (b : Bool) : (m.setFlag l b).die = m.die := rfl
@[simp] theorem setFlag_spn (m : Mach) (l : Loc) (b : Bool) : (m.setFlag l b).spn = m.spn := rfl
@[simp] theorem setFlag_pwr (m : Mach) (l : Loc) (b : Bool) : (m.setFlag l b).pwr = m.pwr := rfl
@[simp] theorem setFlag_buf (m : Mach) (l : Loc) (b : Bool) : (m.setFlag l b).buf = m.buf := rfl
@[simp] theorem setFlag_dma (m : Mach) (l : Loc) (b : Bool) : (m.setFlag l b).dma = m.dma := rfl
@[simp] theorem setFlag_host (m : Mach) (l : Loc) (b : Bool) : (m.setFlag l b).host = m.host := rfl
@[simp] theorem setFlag_cmd (m : Mach) (l : Loc) (b : Bool) : (m.setFlag l b).cmd = m.cmd := rfl
@[simp] theorem setFlag_sec (m : Mach) (l : Loc) (b : Bool) : (m.setFlag l b).sec = m.sec := rfl
@[simp] theorem setFlag_eng (m : Mach) (l : Loc) (b : Bool) : (m.setFlag l b).eng = m.eng := rfl
@[simp] theorem setFlag_evt (m : Mach) (l : Loc) (b : Bool) : (m.setFlag l b).evt = m.evt := rfl
@[simp] theorem setFlag_rst (m : Mach) (l : Loc) (b : Bool) : (m.setFlag l b).rst = m.rst := rfl
@[simp] theorem setS_clock (m : Mach) (l : Loc) (v : Int) : (m.setS l v).clock = m.clock := rfl
@[simp] theorem setS_freeCtr (m : Mach) (l : Loc) (v : Int) : (m.setS l v).freeCtr = m.freeCtr := rfl
@[simp] theorem setS_reports (m : Mach) (l : Loc) (v : Int) : (m.setS l v).reports = m.reports := rfl
@[simp] theorem setS_out (m : Mach) (l : Loc) (v : Int) : (m.setS l v).out = m.out := rfl
@[simp] theorem setS_cal (m : Mach) (l : Loc) (v : Int) : (m.setS l v).cal = m.cal := rfl
@[simp] theorem setS_media (m : Mach) (l : Loc) (v : Int) : (m.setS l v).media = m.media := rfl
@[simp] theorem setS_motion (m : Mach) (l : Loc) (v : Int) : (m.setS l v).motion = m.motion := rfl
@[simp] theorem setS_die (m : Mach) (l : Loc) (v : Int) : (m.setS l v).die = m.die := rfl
@[simp] theorem setS_spn (m : Mach) (l : Loc) (v : Int) : (m.setS l v).spn = m.spn := rfl
@[simp] theorem setS_pwr (m : Mach) (l : Loc) (v : Int) : (m.setS l v).pwr = m.pwr := rfl
@[simp] theorem setS_buf (m : Mach) (l : Loc) (v : Int) : (m.setS l v).buf = m.buf := rfl
@[simp] theorem setS_dma (m : Mach) (l : Loc) (v : Int) : (m.setS l v).dma = m.dma := rfl
@[simp] theorem setS_host (m : Mach) (l : Loc) (v : Int) : (m.setS l v).host = m.host := rfl
@[simp] theorem setS_cmd (m : Mach) (l : Loc) (v : Int) : (m.setS l v).cmd = m.cmd := rfl
@[simp] theorem setS_sec (m : Mach) (l : Loc) (v : Int) : (m.setS l v).sec = m.sec := rfl
@[simp] theorem setS_eng (m : Mach) (l : Loc) (v : Int) : (m.setS l v).eng = m.eng := rfl
@[simp] theorem setS_evt (m : Mach) (l : Loc) (v : Int) : (m.setS l v).evt = m.evt := rfl
@[simp] theorem setS_rst (m : Mach) (l : Loc) (v : Int) : (m.setS l v).rst = m.rst := rfl
@[simp] theorem incSat_clock (m : Mach) (l : Loc) (n : Nat) : (m.incSat l n).clock = m.clock := rfl
@[simp] theorem incSat_freeCtr (m : Mach) (l : Loc) (n : Nat) : (m.incSat l n).freeCtr = m.freeCtr := rfl
@[simp] theorem incSat_reports (m : Mach) (l : Loc) (n : Nat) : (m.incSat l n).reports = m.reports := rfl
@[simp] theorem incSat_out (m : Mach) (l : Loc) (n : Nat) : (m.incSat l n).out = m.out := rfl
@[simp] theorem incSat_cal (m : Mach) (l : Loc) (n : Nat) : (m.incSat l n).cal = m.cal := rfl
@[simp] theorem incSat_media (m : Mach) (l : Loc) (n : Nat) : (m.incSat l n).media = m.media := rfl
@[simp] theorem incSat_motion (m : Mach) (l : Loc) (n : Nat) : (m.incSat l n).motion = m.motion := rfl
@[simp] theorem incSat_die (m : Mach) (l : Loc) (n : Nat) : (m.incSat l n).die = m.die := rfl
@[simp] theorem incSat_spn (m : Mach) (l : Loc) (n : Nat) : (m.incSat l n).spn = m.spn := rfl
@[simp] theorem incSat_pwr (m : Mach) (l : Loc) (n : Nat) : (m.incSat l n).pwr = m.pwr := rfl
@[simp] theorem incSat_buf (m : Mach) (l : Loc) (n : Nat) : (m.incSat l n).buf = m.buf := rfl
@[simp] theorem incSat_dma (m : Mach) (l : Loc) (n : Nat) : (m.incSat l n).dma = m.dma := rfl
@[simp] theorem incSat_host (m : Mach) (l : Loc) (n : Nat) : (m.incSat l n).host = m.host := rfl
@[simp] theorem incSat_cmd (m : Mach) (l : Loc) (n : Nat) : (m.incSat l n).cmd = m.cmd := rfl
@[simp] theorem incSat_sec (m : Mach) (l : Loc) (n : Nat) : (m.incSat l n).sec = m.sec := rfl
@[simp] theorem incSat_eng (m : Mach) (l : Loc) (n : Nat) : (m.incSat l n).eng = m.eng := rfl
@[simp] theorem incSat_evt (m : Mach) (l : Loc) (n : Nat) : (m.incSat l n).evt = m.evt := rfl
@[simp] theorem incSat_rst (m : Mach) (l : Loc) (n : Nat) : (m.incSat l n).rst = m.rst := rfl
@[simp] theorem incWrap_clock (m : Mach) (l : Loc) (n : Nat) : (m.incWrap l n).clock = m.clock := rfl
@[simp] theorem incWrap_freeCtr (m : Mach) (l : Loc) (n : Nat) : (m.incWrap l n).freeCtr = m.freeCtr := rfl
@[simp] theorem incWrap_reports (m : Mach) (l : Loc) (n : Nat) : (m.incWrap l n).reports = m.reports := rfl
@[simp] theorem incWrap_out (m : Mach) (l : Loc) (n : Nat) : (m.incWrap l n).out = m.out := rfl
@[simp] theorem incWrap_cal (m : Mach) (l : Loc) (n : Nat) : (m.incWrap l n).cal = m.cal := rfl
@[simp] theorem incWrap_media (m : Mach) (l : Loc) (n : Nat) : (m.incWrap l n).media = m.media := rfl
@[simp] theorem incWrap_motion (m : Mach) (l : Loc) (n : Nat) : (m.incWrap l n).motion = m.motion := rfl
@[simp] theorem incWrap_die (m : Mach) (l : Loc) (n : Nat) : (m.incWrap l n).die = m.die := rfl
@[simp] theorem incWrap_spn (m : Mach) (l : Loc) (n : Nat) : (m.incWrap l n).spn = m.spn := rfl
@[simp] theorem incWrap_pwr (m : Mach) (l : Loc) (n : Nat) : (m.incWrap l n).pwr = m.pwr := rfl
@[simp] theorem incWrap_buf (m : Mach) (l : Loc) (n : Nat) : (m.incWrap l n).buf = m.buf := rfl
@[simp] theorem incWrap_dma (m : Mach) (l : Loc) (n : Nat) : (m.incWrap l n).dma = m.dma := rfl
@[simp] theorem incWrap_host (m : Mach) (l : Loc) (n : Nat) : (m.incWrap l n).host = m.host := rfl
@[simp] theorem incWrap_cmd (m : Mach) (l : Loc) (n : Nat) : (m.incWrap l n).cmd = m.cmd := rfl
@[simp] theorem incWrap_sec (m : Mach) (l : Loc) (n : Nat) : (m.incWrap l n).sec = m.sec := rfl
@[simp] theorem incWrap_eng (m : Mach) (l : Loc) (n : Nat) : (m.incWrap l n).eng = m.eng := rfl
@[simp] theorem incWrap_evt (m : Mach) (l : Loc) (n : Nat) : (m.incWrap l n).evt = m.evt := rfl
@[simp] theorem incWrap_rst (m : Mach) (l : Loc) (n : Nat) : (m.incWrap l n).rst = m.rst := rfl
@[simp] theorem report_clock (m : Mach) (s : Nat) : (m.report s).clock = m.clock := rfl
@[simp] theorem report_freeCtr (m : Mach) (s : Nat) : (m.report s).freeCtr = m.freeCtr := rfl
@[simp] theorem report_out (m : Mach) (s : Nat) : (m.report s).out = m.out := rfl
@[simp] theorem report_cal (m : Mach) (s : Nat) : (m.report s).cal = m.cal := rfl
@[simp] theorem report_media (m : Mach) (s : Nat) : (m.report s).media = m.media := rfl
@[simp] theorem report_motion (m : Mach) (s : Nat) : (m.report s).motion = m.motion := rfl
@[simp] theorem report_die (m : Mach) (s : Nat) : (m.report s).die = m.die := rfl
@[simp] theorem report_spn (m : Mach) (s : Nat) : (m.report s).spn = m.spn := rfl
@[simp] theorem report_pwr (m : Mach) (s : Nat) : (m.report s).pwr = m.pwr := rfl
@[simp] theorem report_buf (m : Mach) (s : Nat) : (m.report s).buf = m.buf := rfl
@[simp] theorem report_dma (m : Mach) (s : Nat) : (m.report s).dma = m.dma := rfl
@[simp] theorem report_host (m : Mach) (s : Nat) : (m.report s).host = m.host := rfl
@[simp] theorem report_cmd (m : Mach) (s : Nat) : (m.report s).cmd = m.cmd := rfl
@[simp] theorem report_sec (m : Mach) (s : Nat) : (m.report s).sec = m.sec := rfl
@[simp] theorem report_eng (m : Mach) (s : Nat) : (m.report s).eng = m.eng := rfl
@[simp] theorem report_evt (m : Mach) (s : Nat) : (m.report s).evt = m.evt := rfl
@[simp] theorem report_rst (m : Mach) (s : Nat) : (m.report s).rst = m.rst := rfl
@[simp] theorem flagEvent_clock (m : Mach) (l : Loc) (s : Nat) : (m.flagEvent l s).clock = m.clock := rfl
@[simp] theorem flagEvent_freeCtr (m : Mach) (l : Loc) (s : Nat) : (m.flagEvent l s).freeCtr = m.freeCtr := rfl
@[simp] theorem flagEvent_out (m : Mach) (l : Loc) (s : Nat) : (m.flagEvent l s).out = m.out := rfl
@[simp] theorem flagEvent_cal (m : Mach) (l : Loc) (s : Nat) : (m.flagEvent l s).cal = m.cal := rfl
@[simp] theorem flagEvent_media (m : Mach) (l : Loc) (s : Nat) : (m.flagEvent l s).media = m.media := rfl
@[simp] theorem flagEvent_motion (m : Mach) (l : Loc) (s : Nat) : (m.flagEvent l s).motion = m.motion := rfl
@[simp] theorem flagEvent_die (m : Mach) (l : Loc) (s : Nat) : (m.flagEvent l s).die = m.die := rfl
@[simp] theorem flagEvent_spn (m : Mach) (l : Loc) (s : Nat) : (m.flagEvent l s).spn = m.spn := rfl
@[simp] theorem flagEvent_pwr (m : Mach) (l : Loc) (s : Nat) : (m.flagEvent l s).pwr = m.pwr := rfl
@[simp] theorem flagEvent_buf (m : Mach) (l : Loc) (s : Nat) : (m.flagEvent l s).buf = m.buf := rfl
@[simp] theorem flagEvent_dma (m : Mach) (l : Loc) (s : Nat) : (m.flagEvent l s).dma = m.dma := rfl
@[simp] theorem flagEvent_host (m : Mach) (l : Loc) (s : Nat) : (m.flagEvent l s).host = m.host := rfl
@[simp] theorem flagEvent_cmd (m : Mach) (l : Loc) (s : Nat) : (m.flagEvent l s).cmd = m.cmd := rfl
@[simp] theorem flagEvent_sec (m : Mach) (l : Loc) (s : Nat) : (m.flagEvent l s).sec = m.sec := rfl
@[simp] theorem flagEvent_eng (m : Mach) (l : Loc) (s : Nat) : (m.flagEvent l s).eng = m.eng := rfl
@[simp] theorem flagEvent_evt (m : Mach) (l : Loc) (s : Nat) : (m.flagEvent l s).evt = m.evt := rfl
@[simp] theorem flagEvent_rst (m : Mach) (l : Loc) (s : Nat) : (m.flagEvent l s).rst = m.rst := rfl
@[simp] theorem emit_clock (m : Mach) (o : Out) : (m.emit o).clock = m.clock := rfl
@[simp] theorem emit_freeCtr (m : Mach) (o : Out) : (m.emit o).freeCtr = m.freeCtr := rfl
@[simp] theorem emit_reports (m : Mach) (o : Out) : (m.emit o).reports = m.reports := rfl
@[simp] theorem emit_cal (m : Mach) (o : Out) : (m.emit o).cal = m.cal := rfl
@[simp] theorem emit_media (m : Mach) (o : Out) : (m.emit o).media = m.media := rfl
@[simp] theorem emit_motion (m : Mach) (o : Out) : (m.emit o).motion = m.motion := rfl
@[simp] theorem emit_die (m : Mach) (o : Out) : (m.emit o).die = m.die := rfl
@[simp] theorem emit_spn (m : Mach) (o : Out) : (m.emit o).spn = m.spn := rfl
@[simp] theorem emit_pwr (m : Mach) (o : Out) : (m.emit o).pwr = m.pwr := rfl
@[simp] theorem emit_buf (m : Mach) (o : Out) : (m.emit o).buf = m.buf := rfl
@[simp] theorem emit_dma (m : Mach) (o : Out) : (m.emit o).dma = m.dma := rfl
@[simp] theorem emit_host (m : Mach) (o : Out) : (m.emit o).host = m.host := rfl
@[simp] theorem emit_cmd (m : Mach) (o : Out) : (m.emit o).cmd = m.cmd := rfl
@[simp] theorem emit_sec (m : Mach) (o : Out) : (m.emit o).sec = m.sec := rfl
@[simp] theorem emit_eng (m : Mach) (o : Out) : (m.emit o).eng = m.eng := rfl
@[simp] theorem emit_evt (m : Mach) (o : Out) : (m.emit o).evt = m.evt := rfl
@[simp] theorem emit_rst (m : Mach) (o : Out) : (m.emit o).rst = m.rst := rfl
@[simp] theorem nextFree_clock (m : Mach) : (m.nextFree).clock = m.clock := rfl
@[simp] theorem nextFree_reports (m : Mach) : (m.nextFree).reports = m.reports := rfl
@[simp] theorem nextFree_out (m : Mach) : (m.nextFree).out = m.out := rfl
@[simp] theorem nextFree_cal (m : Mach) : (m.nextFree).cal = m.cal := rfl
@[simp] theorem nextFree_media (m : Mach) : (m.nextFree).media = m.media := rfl
@[simp] theorem nextFree_motion (m : Mach) : (m.nextFree).motion = m.motion := rfl
@[simp] theorem nextFree_die (m : Mach) : (m.nextFree).die = m.die := rfl
@[simp] theorem nextFree_spn (m : Mach) : (m.nextFree).spn = m.spn := rfl
@[simp] theorem nextFree_pwr (m : Mach) : (m.nextFree).pwr = m.pwr := rfl
@[simp] theorem nextFree_buf (m : Mach) : (m.nextFree).buf = m.buf := rfl
@[simp] theorem nextFree_dma (m : Mach) : (m.nextFree).dma = m.dma := rfl
@[simp] theorem nextFree_host (m : Mach) : (m.nextFree).host = m.host := rfl
@[simp] theorem nextFree_cmd (m : Mach) : (m.nextFree).cmd = m.cmd := rfl
@[simp] theorem nextFree_sec (m : Mach) : (m.nextFree).sec = m.sec := rfl
@[simp] theorem nextFree_eng (m : Mach) : (m.nextFree).eng = m.eng := rfl
@[simp] theorem nextFree_evt (m : Mach) : (m.nextFree).evt = m.evt := rfl
@[simp] theorem nextFree_rst (m : Mach) : (m.nextFree).rst = m.rst := rfl
@[simp] theorem report_reports (m : Mach) (s : Nat) : (m.report s).reports = m.reports ++ [s] := rfl
@[simp] theorem flagEvent_reports (m : Mach) (l : Loc) (s : Nat) : (m.flagEvent l s).reports = m.reports ++ [s] := rfl
@[simp] theorem emit_out (m : Mach) (o : Out) : (m.emit o).out = o :: m.out := rfl
@[simp] theorem nextFree_freeCtr (m : Mach) : m.nextFree.freeCtr = m.freeCtr + 1 := rfl
@[simp] theorem report_regs (m : Mach) (s : Nat) : (m.report s).regs = m.regs := rfl
@[simp] theorem emit_regs (m : Mach) (o : Out) : (m.emit o).regs = m.regs := rfl
@[simp] theorem nextFree_regs (m : Mach) : m.nextFree.regs = m.regs := rfl

/-! ### Reads of a register -/

@[simp] theorem word_mk (m : Mach) (a b d e f g h i j k l n o p q r s t) (x : Nat) :
    (Mach.mk a b m.regs d e f g h i j k l n o p q r s t).word x = m.word x := rfl
@[simp] theorem get_mk (m : Mach) (a b d e f g h i j k l n o p q r s t) (x : Loc) :
    (Mach.mk a b m.regs d e f g h i j k l n o p q r s t).get x = m.get x := rfl
@[simp] theorem is_mk (m : Mach) (a b d e f g h i j k l n o p q r s t) (x : Loc) :
    (Mach.mk a b m.regs d e f g h i j k l n o p q r s t).is x = m.is x := rfl
@[simp] theorem word_report (m : Mach) (s : Nat) (x : Nat) : (m.report s).word x = m.word x := rfl
@[simp] theorem get_report (m : Mach) (s : Nat) (x : Loc) : (m.report s).get x = m.get x := rfl
@[simp] theorem is_report (m : Mach) (s : Nat) (x : Loc) : (m.report s).is x = m.is x := rfl
@[simp] theorem getS_report (m : Mach) (s : Nat) (x : Loc) : (m.report s).getS x = m.getS x := rfl
@[simp] theorem word_emit (m : Mach) (o : Out) (x : Nat) : (m.emit o).word x = m.word x := rfl
@[simp] theorem get_emit (m : Mach) (o : Out) (x : Loc) : (m.emit o).get x = m.get x := rfl
@[simp] theorem is_emit (m : Mach) (o : Out) (x : Loc) : (m.emit o).is x = m.is x := rfl
@[simp] theorem getS_emit (m : Mach) (o : Out) (x : Loc) : (m.emit o).getS x = m.getS x := rfl
@[simp] theorem word_nextFree (m : Mach) (x : Nat) : (m.nextFree).word x = m.word x := rfl
@[simp] theorem get_nextFree (m : Mach) (x : Loc) : (m.nextFree).get x = m.get x := rfl
@[simp] theorem is_nextFree (m : Mach) (x : Loc) : (m.nextFree).is x = m.is x := rfl
@[simp] theorem getS_nextFree (m : Mach) (x : Loc) : (m.nextFree).getS x = m.getS x := rfl

/-- The two fields do not overlap. -/
def Loc.apart (k l : Loc) : Bool := decide (k.lo + k.w ≤ l.lo) || decide (l.lo + l.w ≤ k.lo) || decide (k.addr ≠ l.addr)

theorem get_set (m : Mach) {k l : Loc} (v : Nat) (h : k.apart l = true) : (m.set l v).get k = m.get k := by
  simp only [Loc.apart, Bool.or_eq_true, decide_eq_true_eq] at h
  rcases h with (h | h) | h
  · exact get_set_bits _ _ (.inl h)
  · exact get_set_bits _ _ (.inr h)
  · exact get_set_addr _ _ h

theorem is_set (m : Mach) {k l : Loc} (v : Nat) (h : k.apart l = true) : (m.set l v).is k = m.is k := by
  simp only [Mach.is, get_set m v h]

theorem get_setFlag (m : Mach) {k l : Loc} (b : Bool) (h : k.apart l = true) : (m.setFlag l b).get k = m.get k := get_set m (bitNat b) h
theorem is_setFlag (m : Mach) {k l : Loc} (b : Bool) (h : k.apart l = true) : (m.setFlag l b).is k = m.is k := by
  simp only [Mach.is, get_setFlag m b h]
theorem get_setS (m : Mach) {k l : Loc} (v : Int) (h : k.apart l = true) : (m.setS l v).get k = m.get k := get_set m (codeOf l.w v) h
theorem get_incSat (m : Mach) {k l : Loc} (n : Nat) (h : k.apart l = true) : (m.incSat l n).get k = m.get k :=
  get_set m (min (m.get l + n) (2 ^ l.w - 1)) h
theorem get_incWrap (m : Mach) {k l : Loc} (n : Nat) (h : k.apart l = true) : (m.incWrap l n).get k = m.get k :=
  get_set m (m.get l + n) h
theorem get_flagEvent (m : Mach) {k l : Loc} (n : Nat) (h : k.apart l = true) : (m.flagEvent l n).get k = m.get k := by
  simp only [Mach.flagEvent, get_report, get_set m 1 h]
theorem is_flagEvent (m : Mach) {k l : Loc} (n : Nat) (h : k.apart l = true) : (m.flagEvent l n).is k = m.is k := by
  simp only [Mach.is, get_flagEvent m n h]

theorem is_setFlag_self (m : Mach) {l : Loc} (b : Bool) (h : l.lo + l.w ≤ 32) (hw : l.w = 1) : (m.setFlag l b).is l = b := by
  have := get_set_self m (bitNat b) h
  simp only [Mach.is, Mach.setFlag, this, hw]
  cases b <;> rfl

theorem is_flagEvent_self (m : Mach) {l : Loc} (s : Nat) (h : l.lo + l.w ≤ 32) (hw : l.w = 1) : (m.flagEvent l s).is l = true :=
  by simpa [Mach.is, Mach.flagEvent, Mach.setFlag, bitNat] using is_setFlag_self m true h hw

/-- A command of a running block has its effect. -/
theorem clocked_running {d b : Nat} {m : Mach} {f : Mach → Mach} (h : Running d b m) : Mach.clocked d b f m = f m := by
  simp only [Mach.clocked, h.1, Bool.true_and]
  by_cases hb : b < 64 <;> simp [hb, h.2]

theorem when_true {m : Mach} {c : Bool} {f : Mach → Mach} (h : c = true) : m.when c f = f m := by simp [Mach.when, h]
theorem when_false {m : Mach} {c : Bool} {f : Mach → Mach} (h : c = false) : m.when c f = m := by simp [Mach.when, h]

end Sys2Proof.Machine
end

