-- ==== Sys2Proof/Laws/KeptBase.lean ====
section
/-! SUPPORT. What a change of the block keeps (`Kept`): the parts it may touch, the registers it may write, and the canonical forms. -/
set_option Elab.async false
set_option linter.all false
namespace Sys2Proof.Machine
open Sys2Proof
/-- From `m0` to `m` nothing changes but the parts of `P` and the register words at the addresses of `R`, and the canonical
forms are kept. -/
def Kept (P : Part → Prop) (R : Nat → Prop) (m0 m : Mach) : Prop :=
  (∀ p, ¬ P p → SamePart p m0 m) ∧ (∀ a, ¬ R a → m.word a = m0.word a) ∧ m.clock = m0.clock ∧ (Canonical m0 → Canonical m)
variable {P : Part → Prop} {R : Nat → Prop} {m0 : Mach}
theorem regsWf_iff {l : List (Nat × Word)} : regsWf l = true ↔ (l.map (·.1)).Pairwise (· < ·) ∧ ∀ c ∈ l, c.2 ≠ resetWord c.1 := by
  simp only [regsWf, Bool.and_eq_true, decide_eq_true_eq, List.all_eq_true, bne_iff_ne]
theorem Kept.refl (m : Mach) : Kept P R m m :=
  ⟨fun p _ => by cases p <;> rfl, fun _ _ => rfl, rfl, id⟩
theorem setWord_kept {m : Mach} (a x) (h : Kept P R m0 m) (hr : R a) : Kept P R m0 (m.setWord a x) := by
  obtain ⟨h1, h2, h3, h4⟩ := h
  refine ⟨fun p hp => by cases p <;> exact h1 _ hp, fun b hb => ?_, h3, fun hs => ⟨regStore_wf (h4 hs).1, (h4 hs).2⟩⟩
  rw [word_setWord_other _ _ (fun e : b = a => hb (by rw [e]; exact hr))]; exact h2 _ hb
theorem set_kept {m : Mach} (l : Loc) (v) (h : Kept P R m0 m) (hr : R l.addr) : Kept P R m0 (m.set l v) := setWord_kept _ _ h hr
theorem setFlag_kept {m : Mach} (l : Loc) (v) (h : Kept P R m0 m) (hr : R l.addr) : Kept P R m0 (m.setFlag l v) := setWord_kept _ _ h hr
theorem setS_kept {m : Mach} (l : Loc) (v) (h : Kept P R m0 m) (hr : R l.addr) : Kept P R m0 (m.setS l v) := setWord_kept _ _ h hr
theorem incSat_kept {m : Mach} (l : Loc) (v) (h : Kept P R m0 m) (hr : R l.addr) : Kept P R m0 (m.incSat l v) := setWord_kept _ _ h hr
theorem incWrap_kept {m : Mach} (l : Loc) (v) (h : Kept P R m0 m) (hr : R l.addr) : Kept P R m0 (m.incWrap l v) := setWord_kept _ _ h hr
theorem foldl_kept {α : Type} {f : Mach → α → Mach} {l : List α} {m : Mach} (hf : ∀ m x, Kept P R m0 m → Kept P R m0 (f m x)) (h : Kept P R m0 m) : Kept P R m0 (l.foldl f m) := by
  induction l generalizing m with
  | nil => exact h
  | cons a l ih => exact ih (hf _ _ h)
theorem foldl_mem_kept {α : Type} {f : Mach → α → Mach} {l : List α} {m : Mach} (hf : ∀ m x, x ∈ l → Kept P R m0 m → Kept P R m0 (f m x)) (h : Kept P R m0 m) : Kept P R m0 (l.foldl f m) := by
  induction l generalizing m with
  | nil => exact h
  | cons a l ih => exact ih (fun m x hx => hf m x (List.mem_cons_of_mem _ hx)) (hf _ _ (List.mem_cons_self ..) h)
theorem foldl_pair_kept {α β : Type} {f : β × Mach → α → β × Mach} {l : List α} {m0 : Mach} {p : β × Mach} (hf : ∀ p x, Kept P R m0 p.2 → Kept P R m0 (f p x).2) (h : Kept P R m0 p.2) : Kept P R m0 (l.foldl f p).2 := by
  induction l generalizing p with
  | nil => exact h
  | cons a l ih => exact ih (hf _ _ h)
theorem ite_kept {m0 x y : Mach} {c : Prop} [Decidable c] (hx : Kept P R m0 x) (hy : Kept P R m0 y) : Kept P R m0 (if c then x else y) := by
  split <;> assumption
theorem mk_regs_kept {m : Mach} (regs : List (Nat × Word)) (h : Kept P R m0 m) (hw : regsWf m.regs = true → regsWf regs = true) (hr : ∀ a, ¬ R a → regLookup a regs = regLookup a m.regs) : Kept P R m0 { m with regs := regs } := by
  obtain ⟨h1, h2, h3, h4⟩ := h
  exact ⟨fun p hp => by cases p <;> exact h1 _ hp, fun a ha => (hr a ha).trans (h2 a ha), h3, fun hs => ⟨hw (h4 hs).1, (h4 hs).2⟩⟩
theorem resetFields_wf (c : FieldRow → Bool) (at_ : Nat → Bool) {l : List (Nat × Word)} (h : regsWf l = true) : regsWf (resetFields c at_ l) = true := by
  rw [regsWf_iff] at h ⊢
  refine ⟨h.1.sublist ?_, ?_⟩
  · clear h
    induction l with
    | nil => exact List.Sublist.refl _
    | cons d l ih =>
      obtain ⟨a, x⟩ := d
      simp only [resetFields]
      split
      · split
        · exact ih.cons _
        · exact ih.cons_cons _
      · exact ih.cons_cons _
  · replace h := h.2
    induction l with
    | nil => intro c hc; cases hc
    | cons d l ih =>
      obtain ⟨a, x⟩ := d
      replace ih := ih fun c hc => h c (List.mem_cons_of_mem _ hc)
      simp only [resetFields]
      intro c hc
      split at hc
      · split at hc
        · exact ih c hc
        · next hy =>
          rcases List.mem_cons.1 hc with rfl | hc
          · exact hy
          · exact ih c hc
      · rcases List.mem_cons.1 hc with rfl | hc
        · exact h _ (List.mem_cons_self ..)
        · exact ih c hc
theorem resetFields_lookup {c : FieldRow → Bool} {at_ : Nat → Bool} {a : Nat} (l : List (Nat × Word)) (h : resetRow c at_ a = none) :
    regLookup a (resetFields c at_ l) = regLookup a l := by
  induction l with
  | nil => rfl
  | cons d l ih =>
    obtain ⟨b, x⟩ := d
    by_cases e : a = b
    · subst e
      simp only [resetFields, h, regLookup, if_pos]
    · simp only [resetFields]
      split
      · split
        · rw [ih]; exact (if_neg e).symm
        · simp only [regLookup, if_neg e, ih]
      · simp only [regLookup, if_neg e, ih]
theorem when_kept {f : Mach → Mach} {m : Mach} (b) (hf : ∀ m, Kept P R m0 m → Kept P R m0 (f m)) (h : Kept P R m0 m) : Kept P R m0 (m.when b f) := by
  cases b
  · exact h
  · exact hf _ h
theorem putBytes_wf {b : BufMem} {a : Nat} {xs : List Byte} (ha : a + xs.length ≤ bufEnd) (h : b.wf = true) :
    (b.putBytes a xs).wf = true := by
  induction xs generalizing a b with
  | nil => exact h
  | cons x xs ih =>
    simp only [List.length_cons] at ha
    exact ih (by omega) (putByte_wf (by omega) h)
theorem filter_wf {b : BufMem} (p : Host.Cell → Bool) {bad pages} (h : b.wf = true) :
    (BufMem.mk (b.cells.filter p) bad pages).wf = true := by
  rw [BufMem.wf_iff] at h ⊢
  exact ⟨rising_filter h.1, fun c hc => h.2 c ((List.mem_filter.1 hc).1)⟩
theorem zeroPage_wf {b : BufMem} (page) (h : b.wf = true) : (b.zeroPage page).wf = true := filter_wf _ h
theorem poison_wf {b : BufMem} (l) (h : b.wf = true) : (b.poison l).wf = true := h
theorem heal_wf {b : BufMem} (l) (h : b.wf = true) : (b.heal l).wf = true := h
theorem same_wf {b : BufMem} {x y} (h : b.wf = true) : (BufMem.mk b.cells x y).wf = true := h
theorem nil_wf {x y} : (BufMem.mk [] x y).wf = true := by simp [BufMem.wf_iff]
theorem initial_wf : BufMem.initial.wf = true := nil_wf
theorem merge_length (w : LineWrite) (old : List Byte) : (w.merge old).length = 64 := by simp [LineWrite.merge]
theorem line_wf {b : BufMem} {l : Nat} {w : LineWrite} {old : List Byte} (hl : 64 * l < bufEnd) (h : b.wf = true) :
    (b.putBytes (64 * l) (w.merge old)).wf = true := by
  refine putBytes_wf ?_ h
  rw [merge_length]; unfold bufEnd at *; omega
theorem mk_buf_kept {m : Mach} (xbuf) (h : Kept P R m0 m) (pbuf : P .buf) (hb : m.buf.mem.wf = true → xbuf.mem.wf = true) : Kept P R m0 (Mach.mk m.clock m.freeCtr m.regs m.reports m.out m.cal m.media m.motion m.die m.spn m.pwr xbuf m.dma m.host m.cmd m.sec m.eng m.evt m.rst) := by
  obtain ⟨h1, h2, h3, h4⟩ := h
  exact ⟨fun p hp => by cases p <;> first | exact h1 _ hp | exact absurd ‹_› hp, h2, h3, fun hs => ⟨(h4 hs).1, hb (h4 hs).2⟩⟩
theorem mk_cal_kept {m : Mach} (xcal) (h : Kept P R m0 m) (pcal : P .cal) : Kept P R m0 (Mach.mk m.clock m.freeCtr m.regs m.reports m.out xcal m.media m.motion m.die m.spn m.pwr m.buf m.dma m.host m.cmd m.sec m.eng m.evt m.rst) := by
  obtain ⟨h1, h2, h3, h4⟩ := h
  exact ⟨fun p hp => by cases p <;> first | exact h1 _ hp | exact absurd ‹_› hp, h2, h3, fun hs => ⟨(h4 hs).1, (h4 hs).2⟩⟩
theorem mk_cal_media_motion_spn_buf_dma_cmd_eng_kept {m : Mach} (xcal xmedia xmotion xspn xbuf xdma xcmd xeng) (h : Kept P R m0 m) (pcal : P .cal) (pmedia : P .media) (pmotion : P .motion) (pspn : P .spn) (pbuf : P .buf) (pdma : P .dma) (pcmd : P .cmd) (peng : P .eng) (hb : m.buf.mem.wf = true → xbuf.mem.wf = true) : Kept P R m0 (Mach.mk m.clock m.freeCtr m.regs m.reports m.out xcal xmedia xmotion m.die xspn m.pwr xbuf xdma m.host xcmd m.sec xeng m.evt m.rst) := by
  obtain ⟨h1, h2, h3, h4⟩ := h
  exact ⟨fun p hp => by cases p <;> first | exact h1 _ hp | exact absurd ‹_› hp, h2, h3, fun hs => ⟨(h4 hs).1, hb (h4 hs).2⟩⟩
theorem mk_cmd_kept {m : Mach} (xcmd) (h : Kept P R m0 m) (pcmd : P .cmd) : Kept P R m0 (Mach.mk m.clock m.freeCtr m.regs m.reports m.out m.cal m.media m.motion m.die m.spn m.pwr m.buf m.dma m.host xcmd m.sec m.eng m.evt m.rst) := by
  obtain ⟨h1, h2, h3, h4⟩ := h
  exact ⟨fun p hp => by cases p <;> first | exact h1 _ hp | exact absurd ‹_› hp, h2, h3, fun hs => ⟨(h4 hs).1, (h4 hs).2⟩⟩
theorem mk_die_kept {m : Mach} (xdie) (h : Kept P R m0 m) (pdie : P .die) : Kept P R m0 (Mach.mk m.clock m.freeCtr m.regs m.reports m.out m.cal m.media m.motion xdie m.spn m.pwr m.buf m.dma m.host m.cmd m.sec m.eng m.evt m.rst) := by
  obtain ⟨h1, h2, h3, h4⟩ := h
  exact ⟨fun p hp => by cases p <;> first | exact h1 _ hp | exact absurd ‹_› hp, h2, h3, fun hs => ⟨(h4 hs).1, (h4 hs).2⟩⟩
theorem mk_dma_kept {m : Mach} (xdma) (h : Kept P R m0 m) (pdma : P .dma) : Kept P R m0 (Mach.mk m.clock m.freeCtr m.regs m.reports m.out m.cal m.media m.motion m.die m.spn m.pwr m.buf xdma m.host m.cmd m.sec m.eng m.evt m.rst) := by
  obtain ⟨h1, h2, h3, h4⟩ := h
  exact ⟨fun p hp => by cases p <;> first | exact h1 _ hp | exact absurd ‹_› hp, h2, h3, fun hs => ⟨(h4 hs).1, (h4 hs).2⟩⟩
theorem mk_eng_kept {m : Mach} (xeng) (h : Kept P R m0 m) (peng : P .eng) : Kept P R m0 (Mach.mk m.clock m.freeCtr m.regs m.reports m.out m.cal m.media m.motion m.die m.spn m.pwr m.buf m.dma m.host m.cmd m.sec xeng m.evt m.rst) := by
  obtain ⟨h1, h2, h3, h4⟩ := h
  exact ⟨fun p hp => by cases p <;> first | exact h1 _ hp | exact absurd ‹_› hp, h2, h3, fun hs => ⟨(h4 hs).1, (h4 hs).2⟩⟩
theorem mk_evt_kept {m : Mach} (xevt) (h : Kept P R m0 m) (pevt : P .evt) : Kept P R m0 (Mach.mk m.clock m.freeCtr m.regs m.reports m.out m.cal m.media m.motion m.die m.spn m.pwr m.buf m.dma m.host m.cmd m.sec m.eng xevt m.rst) := by
  obtain ⟨h1, h2, h3, h4⟩ := h
  exact ⟨fun p hp => by cases p <;> first | exact h1 _ hp | exact absurd ‹_› hp, h2, h3, fun hs => ⟨(h4 hs).1, (h4 hs).2⟩⟩
theorem mk_freeCtr_kept {m : Mach} (xfreeCtr) (h : Kept P R m0 m) (pfreeCtr : P .freeCtr) : Kept P R m0 (Mach.mk m.clock xfreeCtr m.regs m.reports m.out m.cal m.media m.motion m.die m.spn m.pwr m.buf m.dma m.host m.cmd m.sec m.eng m.evt m.rst) := by
  obtain ⟨h1, h2, h3, h4⟩ := h
  exact ⟨fun p hp => by cases p <;> first | exact h1 _ hp | exact absurd ‹_› hp, h2, h3, fun hs => ⟨(h4 hs).1, (h4 hs).2⟩⟩
theorem mk_host_kept {m : Mach} (xhost) (h : Kept P R m0 m) (phost : P .host) : Kept P R m0 (Mach.mk m.clock m.freeCtr m.regs m.reports m.out m.cal m.media m.motion m.die m.spn m.pwr m.buf m.dma xhost m.cmd m.sec m.eng m.evt m.rst) := by
  obtain ⟨h1, h2, h3, h4⟩ := h
  exact ⟨fun p hp => by cases p <;> first | exact h1 _ hp | exact absurd ‹_› hp, h2, h3, fun hs => ⟨(h4 hs).1, (h4 hs).2⟩⟩
theorem mk_media_kept {m : Mach} (xmedia) (h : Kept P R m0 m) (pmedia : P .media) : Kept P R m0 (Mach.mk m.clock m.freeCtr m.regs m.reports m.out m.cal xmedia m.motion m.die m.spn m.pwr m.buf m.dma m.host m.cmd m.sec m.eng m.evt m.rst) := by
  obtain ⟨h1, h2, h3, h4⟩ := h
  exact ⟨fun p hp => by cases p <;> first | exact h1 _ hp | exact absurd ‹_› hp, h2, h3, fun hs => ⟨(h4 hs).1, (h4 hs).2⟩⟩
theorem mk_motion_kept {m : Mach} (xmotion) (h : Kept P R m0 m) (pmotion : P .motion) : Kept P R m0 (Mach.mk m.clock m.freeCtr m.regs m.reports m.out m.cal m.media xmotion m.die m.spn m.pwr m.buf m.dma m.host m.cmd m.sec m.eng m.evt m.rst) := by
  obtain ⟨h1, h2, h3, h4⟩ := h
  exact ⟨fun p hp => by cases p <;> first | exact h1 _ hp | exact absurd ‹_› hp, h2, h3, fun hs => ⟨(h4 hs).1, (h4 hs).2⟩⟩
theorem mk_out_kept {m : Mach} (xout) (h : Kept P R m0 m) (pout : P .out) : Kept P R m0 (Mach.mk m.clock m.freeCtr m.regs m.reports xout m.cal m.media m.motion m.die m.spn m.pwr m.buf m.dma m.host m.cmd m.sec m.eng m.evt m.rst) := by
  obtain ⟨h1, h2, h3, h4⟩ := h
  exact ⟨fun p hp => by cases p <;> first | exact h1 _ hp | exact absurd ‹_› hp, h2, h3, fun hs => ⟨(h4 hs).1, (h4 hs).2⟩⟩
theorem mk_pwr_kept {m : Mach} (xpwr) (h : Kept P R m0 m) (ppwr : P .pwr) : Kept P R m0 (Mach.mk m.clock m.freeCtr m.regs m.reports m.out m.cal m.media m.motion m.die m.spn xpwr m.buf m.dma m.host m.cmd m.sec m.eng m.evt m.rst) := by
  obtain ⟨h1, h2, h3, h4⟩ := h
  exact ⟨fun p hp => by cases p <;> first | exact h1 _ hp | exact absurd ‹_› hp, h2, h3, fun hs => ⟨(h4 hs).1, (h4 hs).2⟩⟩
theorem mk_reports_cal_media_motion_spn_pwr_buf_dma_host_cmd_sec_eng_evt_kept {m : Mach} (xreports xcal xmedia xmotion xspn xpwr xbuf xdma xhost xcmd xsec xeng xevt) (h : Kept P R m0 m) (preports : P .reports) (pcal : P .cal) (pmedia : P .media) (pmotion : P .motion) (pspn : P .spn) (ppwr : P .pwr) (pbuf : P .buf) (pdma : P .dma) (phost : P .host) (pcmd : P .cmd) (psec : P .sec) (peng : P .eng) (pevt : P .evt) (hf : xsec.fuses = m.sec.fuses) (hb : m.buf.mem.wf = true → xbuf.mem.wf = true) : Kept P R m0 (Mach.mk m.clock m.freeCtr m.regs xreports m.out xcal xmedia xmotion m.die xspn xpwr xbuf xdma xhost xcmd xsec xeng xevt m.rst) := by
  obtain ⟨h1, h2, h3, h4⟩ := h
  exact ⟨fun p hp => by cases p <;> first | exact h1 _ hp | exact absurd ‹_› hp | exact hf.trans (h1 _ hp), h2, h3, fun hs => ⟨(h4 hs).1, hb (h4 hs).2⟩⟩
theorem mk_reports_kept {m : Mach} (xreports) (h : Kept P R m0 m) (preports : P .reports) : Kept P R m0 (Mach.mk m.clock m.freeCtr m.regs xreports m.out m.cal m.media m.motion m.die m.spn m.pwr m.buf m.dma m.host m.cmd m.sec m.eng m.evt m.rst) := by
  obtain ⟨h1, h2, h3, h4⟩ := h
  exact ⟨fun p hp => by cases p <;> first | exact h1 _ hp | exact absurd ‹_› hp, h2, h3, fun hs => ⟨(h4 hs).1, (h4 hs).2⟩⟩
theorem mk_rst_kept {m : Mach} (xrst) (h : Kept P R m0 m) (prst : P .rst) : Kept P R m0 (Mach.mk m.clock m.freeCtr m.regs m.reports m.out m.cal m.media m.motion m.die m.spn m.pwr m.buf m.dma m.host m.cmd m.sec m.eng m.evt xrst) := by
  obtain ⟨h1, h2, h3, h4⟩ := h
  exact ⟨fun p hp => by cases p <;> first | exact h1 _ hp | exact absurd ‹_› hp, h2, h3, fun hs => ⟨(h4 hs).1, (h4 hs).2⟩⟩
theorem mk_sec_kept {m : Mach} (xsec) (h : Kept P R m0 m) (psec : P .sec) (hf : xsec.fuses = m.sec.fuses) : Kept P R m0 (Mach.mk m.clock m.freeCtr m.regs m.reports m.out m.cal m.media m.motion m.die m.spn m.pwr m.buf m.dma m.host m.cmd xsec m.eng m.evt m.rst) := by
  obtain ⟨h1, h2, h3, h4⟩ := h
  exact ⟨fun p hp => by cases p <;> first | exact h1 _ hp | exact absurd ‹_› hp | exact hf.trans (h1 _ hp), h2, h3, fun hs => ⟨(h4 hs).1, (h4 hs).2⟩⟩
theorem mk_spn_kept {m : Mach} (xspn) (h : Kept P R m0 m) (pspn : P .spn) : Kept P R m0 (Mach.mk m.clock m.freeCtr m.regs m.reports m.out m.cal m.media m.motion m.die xspn m.pwr m.buf m.dma m.host m.cmd m.sec m.eng m.evt m.rst) := by
  obtain ⟨h1, h2, h3, h4⟩ := h
  exact ⟨fun p hp => by cases p <;> first | exact h1 _ hp | exact absurd ‹_› hp, h2, h3, fun hs => ⟨(h4 hs).1, (h4 hs).2⟩⟩
theorem report_kept {m : Mach} (s) (h : Kept P R m0 m) (p : P .reports) : Kept P R m0 (m.report s) := mk_reports_kept _ h p
theorem flagEvent_kept {m : Mach} (l : Loc) (s) (h : Kept P R m0 m) (p : P .reports) (r : R l.addr) : Kept P R m0 (m.flagEvent l s) := report_kept _ (set_kept _ _ h r) p
theorem emit_kept {m : Mach} (s) (h : Kept P R m0 m) (p : P .out) : Kept P R m0 (m.emit s) := mk_out_kept _ h p
theorem nextFree_kept {m : Mach} (h : Kept P R m0 m) (p : P .freeCtr) : Kept P R m0 m.nextFree := mk_freeCtr_kept _ h p
end Sys2Proof.Machine
end

