-- ==== Sys2Proof/Laws/KeptOps.lean ====
section
/-! SUPPORT. What the operations of Machine/Ops.lean keep: for each, the parts and the registers it may change. -/
set_option Elab.async false
set_option linter.all false
namespace Sys2Proof.Machine
open Sys2Proof
variable {P : Part → Prop} {R : Nat → Prop} {m0 : Mach}
theorem Mach.tlp_kept {m : Mach} (p : Fin 2) (o : Out) (pout : P .out) (rHIF_LINK : ∀ i, i < 2 → R (REG_HIF_LINK i)) (hm : Kept P R m0 m) : Kept P R m0 (Mach.tlp m p o) := by
  grind [Mach.tlp, HIF_LINK_PMSTATE, emit_kept, set_kept, foldl_kept]
theorem Mach.setCal_kept {m : Mach} (f : Caller → Caller) (pcal : P .cal) (hm : Kept P R m0 m) : Kept P R m0 (Mach.setCal m f) := by
  grind [Mach.setCal, mk_cal_kept, foldl_kept]
theorem Mach.demandAs_kept {m : Mach} (owner : Nat) (port : Port) (cls : FabClass) (addr : Nat) (bytes : Nat) (pcal : P .cal) (hm : Kept P R m0 m) : Kept P R m0 (Mach.demandAs m owner port cls addr bytes) := by
  grind [Mach.demandAs, Mach.setCal_kept, foldl_kept]
theorem Mach.demand_kept {m : Mach} (port : Port) (cls : FabClass) (addr : Nat) (bytes : Nat) (pcal : P .cal) (hm : Kept P R m0 m) : Kept P R m0 (Mach.demand m port cls addr bytes) := by
  grind [Mach.demand, Mach.demandAs_kept, foldl_kept]
end Sys2Proof.Machine
end

