-- ==== Sys2Proof/Laws/KeptBuffer.lean ====
section
/-! SUPPORT. What the operations of Machine/Buffer.lean keep: for each, the parts and the registers it may change. -/
set_option Elab.async false
set_option linter.all false
namespace Sys2Proof.Machine
open Sys2Proof
variable {P : Part → Prop} {R : Nat → Prop} {m0 : Mach}
theorem Mach.setBuf_kept {m : Mach} (f : BufState → BufState) (pbuf : P .buf) (hf : ∀ b, b.mem.wf = true → (f b).mem.wf = true) (hm : Kept P R m0 m) : Kept P R m0 (Mach.setBuf m f) :=
  mk_buf_kept _ hm pbuf (hf _)
theorem Mach.setMem_kept {m : Mach} (f : BufMem → BufMem) (pbuf : P .buf) (hf : ∀ b, b.wf = true → (f b).wf = true) (hm : Kept P R m0 m) : Kept P R m0 (Mach.setMem m f) :=
  Mach.setBuf_kept _ pbuf (fun _ h => hf _ h) hm
theorem Mach.checkFail_kept {m : Mach} (line : Nat) (preports : P .reports) (rBUF_CNT : R REG_BUF_CNT) (rBUF_ERR : R REG_BUF_ERR) (rBUF_FIRST : R REG_BUF_FIRST) (hm : Kept P R m0 m) : Kept P R m0 (Mach.checkFail m line) := by
  grind [Mach.checkFail, BUF_CNT_CHECK, BUF_FIRST_VALID, BUF_FIRST_ADDR, BUF_ERR_CHECK, incSat_kept, when_kept, set_kept, flagEvent_kept, foldl_kept]
theorem Mach.bufRead_kept {m : Mach} (line : Nat) (preports : P .reports) (rBUF_CNT : R REG_BUF_CNT) (rBUF_ERR : R REG_BUF_ERR) (rBUF_FIRST : R REG_BUF_FIRST) (hm : Kept P R m0 m) : Kept P R m0 (Mach.bufRead m line).2 := by
  grind [Mach.bufRead, BUF_ERR_RANGE, BUF_STAT_INIT, BUF_ERR_INIT_ACCESS, flagEvent_kept, Mach.checkFail_kept, foldl_kept]
theorem Mach.openPage_kept {m : Mach} (page : Nat) (pbuf : P .buf) (hm : Kept P R m0 m) : Kept P R m0 (Mach.openPage m page) := by
  exact when_kept _ (fun _ h => Mach.setMem_kept _ pbuf (fun _ hb => filter_wf _ hb) h) hm
theorem Mach.bufWrite_kept {m : Mach} (line : Nat) (w : LineWrite) (preports : P .reports) (pbuf : P .buf) (rBUF_CNT : R REG_BUF_CNT) (rBUF_ERR : R REG_BUF_ERR) (rBUF_FIRST : R REG_BUF_FIRST) (hm : Kept P R m0 m) : Kept P R m0 (Mach.bufWrite m line w) := by
  unfold Mach.bufWrite
  split
  · grind [flagEvent_kept, BUF_ERR_RANGE]
  split
  · grind [flagEvent_kept, BUF_ERR_INIT_ACCESS]
  · grind [flagEvent_kept, BUF_ERR_POISON, Mach.setMem_kept, Mach.openPage_kept, Mach.bufRead_kept, heal_wf, poison_wf, line_wf]
theorem Mach.bufWritePoisoned_kept {m : Mach} (line : Nat) (bs : List Byte) (preports : P .reports) (pbuf : P .buf) (rBUF_CNT : R REG_BUF_CNT) (rBUF_ERR : R REG_BUF_ERR) (rBUF_FIRST : R REG_BUF_FIRST) (hm : Kept P R m0 m) : Kept P R m0 (Mach.bufWritePoisoned m line bs) := by
  grind [Mach.bufWritePoisoned, BUF_ERR_POISON, flagEvent_kept, Mach.setMem_kept, filter_wf, poison_wf, heal_wf, same_wf, nil_wf, initial_wf, BufState.initial, Mach.bufWrite_kept, foldl_kept]
theorem Mach.setCache_kept {m : Mach} (f : SysCache → SysCache) (pbuf : P .buf) (hm : Kept P R m0 m) : Kept P R m0 (Mach.setCache m f) := by
  grind [Mach.setCache, Mach.setBuf_kept, filter_wf, poison_wf, heal_wf, same_wf, nil_wf, initial_wf, BufState.initial, foldl_kept]
theorem Mach.coreError_kept {m : Mach} (port : Fin 30) (fail : Bool) (pout : P .out) (hm : Kept P R m0 m) : Kept P R m0 (Mach.coreError m port fail) := by
  grind [Mach.coreError, when_kept, emit_kept, foldl_kept]
theorem Mach.deliver_kept {m : Mach} (port : Port) (line : Nat) (bs : List Byte) (fail : Bool) (pout : P .out) (hm : Kept P R m0 m) : Kept P R m0 (Mach.deliver m port line bs fail) := by
  grind [Mach.deliver, Mach.coreError_kept, emit_kept, foldl_kept]
theorem Mach.partialFail_kept {m : Mach} (port : Port) (line : Nat) (w : LineWrite) (preports : P .reports) (pout : P .out) (rBUF_CNT : R REG_BUF_CNT) (rBUF_ERR : R REG_BUF_ERR) (rBUF_FIRST : R REG_BUF_FIRST) (hm : Kept P R m0 m) : Kept P R m0 (Mach.partialFail m port line w) := by
  grind [Mach.partialFail, Mach.coreError_kept, Mach.bufRead_kept, foldl_kept]
theorem Mach.serveHit_kept {m : Mach} (l : CacheLine) (a : LineAccess) (pout : P .out) (pbuf : P .buf) (hm : Kept P R m0 m) : Kept P R m0 (Mach.serveHit m l a) := by
  grind [Mach.serveHit, Mach.setCache_kept, Mach.deliver_kept, foldl_kept]
theorem Mach.syncMiss_kept {m : Mach} (rCCH_MISS : R REG_CCH_MISS) (hm : Kept P R m0 m) : Kept P R m0 (Mach.syncMiss m) := by
  grind [Mach.syncMiss, CCH_MISS_BUSY, set_kept, foldl_kept]
theorem Mach.writeBack_kept {m : Mach} (l : CacheLine) (preports : P .reports) (pbuf : P .buf) (rBUF_CNT : R REG_BUF_CNT) (rBUF_ERR : R REG_BUF_ERR) (rBUF_FIRST : R REG_BUF_FIRST) (hm : Kept P R m0 m) : Kept P R m0 (Mach.writeBack m l) := by
  grind [Mach.writeBack, when_kept, Mach.bufWrite_kept, foldl_kept]
theorem Mach.installLine_kept {m : Mach} (line : Nat) (bs : List Byte) (preports : P .reports) (pbuf : P .buf) (rBUF_CNT : R REG_BUF_CNT) (rBUF_ERR : R REG_BUF_ERR) (rBUF_FIRST : R REG_BUF_FIRST) (hm : Kept P R m0 m) : Kept P R m0 (Mach.installLine m line bs) := by
  grind [Mach.installLine, Mach.writeBack_kept, Mach.setCache_kept, foldl_kept]
theorem Mach.fillLine_kept {m : Mach} (line : Nat) (accesses : List LineAccess) (preports : P .reports) (pout : P .out) (pbuf : P .buf) (rBUF_CNT : R REG_BUF_CNT) (rBUF_ERR : R REG_BUF_ERR) (rBUF_FIRST : R REG_BUF_FIRST) (hm : Kept P R m0 m) : Kept P R m0 (Mach.fillLine m line accesses) := by
  grind [Mach.fillLine, Mach.bufRead_kept, Mach.bufWrite_kept, Mach.partialFail_kept, Mach.deliver_kept, Mach.installLine_kept, Mach.serveHit_kept, foldl_kept]
theorem Mach.settleLine_kept {m : Mach} (line : Nat) (preports : P .reports) (pout : P .out) (pbuf : P .buf) (rBUF_CNT : R REG_BUF_CNT) (rBUF_ERR : R REG_BUF_ERR) (rBUF_FIRST : R REG_BUF_FIRST) (rCCH_MISS : R REG_CCH_MISS) (hm : Kept P R m0 m) : Kept P R m0 (Mach.settleLine m line) := by
  grind [Mach.settleLine, Mach.syncMiss_kept, Mach.setCache_kept, Mach.fillLine_kept, foldl_kept]
theorem Mach.fabRead_kept {m : Mach} (line : Nat) (preports : P .reports) (pout : P .out) (pbuf : P .buf) (rBUF_CNT : R REG_BUF_CNT) (rBUF_ERR : R REG_BUF_ERR) (rBUF_FIRST : R REG_BUF_FIRST) (rCCH_MISS : R REG_CCH_MISS) (hm : Kept P R m0 m) : Kept P R m0 (Mach.fabRead m line).2 := by
  grind [Mach.fabRead, Mach.settleLine_kept, Mach.bufRead_kept, foldl_kept]
theorem Mach.fabWrite_kept {m : Mach} (line : Nat) (w : LineWrite) (preports : P .reports) (pout : P .out) (pbuf : P .buf) (rBUF_CNT : R REG_BUF_CNT) (rBUF_ERR : R REG_BUF_ERR) (rBUF_FIRST : R REG_BUF_FIRST) (rCCH_MISS : R REG_CCH_MISS) (hm : Kept P R m0 m) : Kept P R m0 (Mach.fabWrite m line w) := by
  grind [Mach.fabWrite, Mach.settleLine_kept, Mach.setCache_kept, Mach.bufWrite_kept, foldl_kept]
theorem Mach.readBytes_kept {m : Mach} (a : Nat) (n : Nat) (preports : P .reports) (pout : P .out) (pbuf : P .buf) (rBUF_CNT : R REG_BUF_CNT) (rBUF_ERR : R REG_BUF_ERR) (rBUF_FIRST : R REG_BUF_FIRST) (rCCH_MISS : R REG_CCH_MISS) (hm : Kept P R m0 m) : Kept P R m0 (Mach.readBytes m a n).2 := by
  unfold Mach.readBytes
  split
  · exact hm
  · exact foldl_pair_kept (fun p x h => Mach.fabRead_kept _ preports pout pbuf rBUF_CNT rBUF_ERR rBUF_FIRST rCCH_MISS h) hm
theorem Mach.writeBytes_kept {m : Mach} (a : Nat) (bs : List Byte) (preports : P .reports) (pout : P .out) (pbuf : P .buf) (rBUF_CNT : R REG_BUF_CNT) (rBUF_ERR : R REG_BUF_ERR) (rBUF_FIRST : R REG_BUF_FIRST) (rCCH_MISS : R REG_CCH_MISS) (hm : Kept P R m0 m) : Kept P R m0 (Mach.writeBytes m a bs) := by
  grind [Mach.writeBytes, Mach.fabWrite_kept, foldl_kept]
theorem bufferLineAccess_kept (a : LineAccess) (decay : Bool) {m : Mach} (preports : P .reports) (pout : P .out) (pbuf : P .buf) (rBUF_CNT : R REG_BUF_CNT) (rBUF_ERR : R REG_BUF_ERR) (rBUF_FIRST : R REG_BUF_FIRST) (rCCH_MISS : R REG_CCH_MISS) (hm : Kept P R m0 m) : Kept P R m0 (bufferLineAccess a decay m) := by
  unfold bufferLineAccess
  repeat' (first | with_reducible assumption | split | with_reducible apply when_kept | with_reducible apply Mach.setMem_kept | with_reducible apply Mach.settleLine_kept | with_reducible apply Mach.fabWrite_kept | with_reducible apply Mach.partialFail_kept | with_reducible apply Mach.fabRead_kept | with_reducible apply Mach.deliver_kept | with_reducible apply foldl_kept | dsimp only | intro _ _ _ | intro _ _ | intro _ | grind [filter_wf, poison_wf, heal_wf, same_wf, nil_wf, initial_wf, BufState.initial])
theorem bufferFillEnd_kept {m : Mach} (pbuf : P .buf) (rBUF_STAT : R REG_BUF_STAT) (rRST_PHASE : R REG_RST_PHASE) (rRST_STAT : R REG_RST_STAT) (hm : Kept P R m0 m) : Kept P R m0 (bufferFillEnd m) := by
  grind [bufferFillEnd, BUF_STAT_INIT, RST_STAT_BUFOK, RST_PHASE_PHASE, set_kept, Mach.setMem_kept, filter_wf, poison_wf, heal_wf, same_wf, nil_wf, initial_wf, BufState.initial, foldl_kept]
theorem Mach.latchErrLoc_kept {m : Mach} (set : Nat) (way : Fin 16) (rCCH_ERRLOC : R REG_CCH_ERRLOC) (hm : Kept P R m0 m) : Kept P R m0 (Mach.latchErrLoc m set way) := by
  grind [Mach.latchErrLoc, CCH_ERRLOC_VALID, CCH_ERRLOC_SET, CCH_ERRLOC_WAY, when_kept, set_kept, foldl_kept]
theorem Mach.correctedError_kept {m : Mach} (bank : Nat) (preports : P .reports) (rCCH_BUCKET : R (REG_CCH_BUCKET bank)) (rCCH_CNT : R REG_CCH_CNT) (hm : Kept P R m0 m) : Kept P R m0 (Mach.correctedError m bank) := by
  grind [Mach.correctedError, CCH_CNT_SEC, CCH_BUCKET_LEVEL, CCH_BUCKET_OVF, incSat_kept, flagEvent_kept, set_kept, foldl_kept]
theorem Mach.miss_kept {m : Mach} (a : LineAccess) (pbuf : P .buf) (rCCH_MISS : R REG_CCH_MISS) (hm : Kept P R m0 m) : Kept P R m0 (Mach.miss m a) := by
  grind [Mach.miss, CCH_MISS_FULL, Mach.setCache_kept, incSat_kept, Mach.syncMiss_kept, foldl_kept]
theorem Mach.tagError_kept {m : Mach} (set : Nat) (way : Fin 16) (dirty : Bool) (preports : P .reports) (pbuf : P .buf) (rCCH_ERR : R REG_CCH_ERR) (rCCH_ERRLOC : R REG_CCH_ERRLOC) (hm : Kept P R m0 m) : Kept P R m0 (Mach.tagError m set way dirty) := by
  grind [Mach.tagError, CCH_ERR_TAG_DIRTY, CCH_ERR_TAG_CLEAN, Mach.setCache_kept, flagEvent_kept, Mach.latchErrLoc_kept, foldl_kept]
theorem cacheAccess_kept (a : LineAccess) (ecc : EccResult) (tagBad : Option (Fin 16 × Bool)) {m : Mach} (preports : P .reports) (pout : P .out) (pbuf : P .buf) (rBUF_CNT : R REG_BUF_CNT) (rBUF_ERR : R REG_BUF_ERR) (rBUF_FIRST : R REG_BUF_FIRST) (rCCH_BUCKET : ∀ i, i < 16 → R (REG_CCH_BUCKET i)) (rCCH_CNT : R REG_CCH_CNT) (rCCH_ERR : R REG_CCH_ERR) (rCCH_ERRLOC : R REG_CCH_ERRLOC) (rCCH_MISS : R REG_CCH_MISS) (hm : Kept P R m0 m) : Kept P R m0 (cacheAccess a ecc tagBad m) := by
  unfold cacheAccess
  split
  · exact bufferLineAccess_kept _ _ (by assumption) (by assumption) (by assumption) (by assumption) (by assumption) (by assumption) (by assumption) (hm)
  dsimp only
  split
  · exact hm
  split
  · exact incSat_kept _ _ (Mach.setCache_kept _ (by assumption) (hm)) rCCH_MISS
  split
  · exact Mach.miss_kept _ (by assumption) (by assumption) (Mach.tagError_kept _ _ _ (by assumption) (by assumption) (by assumption) (by assumption) (hm))
  split
  · exact Mach.miss_kept _ (by assumption) (by assumption) (hm)
  split
  · exact Mach.serveHit_kept _ _ (by assumption) (by assumption) (hm)
  · exact Mach.serveHit_kept _ _ (by assumption) (by assumption) (Mach.correctedError_kept _ (by first | assumption | exact rCCH_BUCKET _ (Fin.isLt _)) (by first | assumption | exact rCCH_BUCKET _ (Fin.isLt _)) (by first | assumption | exact rCCH_BUCKET _ (Fin.isLt _)) (hm))
  · split
    · split
      · exact Mach.deliver_kept _ _ _ _ (by assumption) (flagEvent_kept _ _ (Mach.latchErrLoc_kept _ _ (by assumption) (Mach.setCache_kept _ (by assumption) (Mach.bufWritePoisoned_kept _ _ (by assumption) (by assumption) (by assumption) (by assumption) (by assumption) (hm)))) preports rCCH_ERR)
      · exact Mach.miss_kept _ (by assumption) (by assumption) (flagEvent_kept _ _ (Mach.latchErrLoc_kept _ _ (by assumption) (Mach.setCache_kept _ (by assumption) (Mach.bufWritePoisoned_kept _ _ (by assumption) (by assumption) (by assumption) (by assumption) (by assumption) (hm)))) preports rCCH_ERR)
    · exact Mach.miss_kept _ (by assumption) (by assumption) (report_kept _ (incSat_kept _ _ (Mach.setCache_kept _ (by assumption) (hm)) rCCH_CNT) preports)
theorem Mach.drainQueue_kept {m : Mach} (bank : Fin 16) (pout : P .out) (pbuf : P .buf) (rCCH_MISS : R REG_CCH_MISS) (hm : Kept P R m0 m) : Kept P R m0 (Mach.drainQueue m bank) := by
  grind [Mach.drainQueue, Mach.setCache_kept, Mach.serveHit_kept, Mach.miss_kept, foldl_kept]
theorem Mach.cachedRead_kept {m : Mach} (line : Nat) (preports : P .reports) (pout : P .out) (pbuf : P .buf) (rBUF_CNT : R REG_BUF_CNT) (rBUF_ERR : R REG_BUF_ERR) (rBUF_FIRST : R REG_BUF_FIRST) (rCCH_MISS : R REG_CCH_MISS) (hm : Kept P R m0 m) : Kept P R m0 (Mach.cachedRead m line).2 := by
  grind [Mach.cachedRead, CCH_CTRL_EN, Mach.fabRead_kept, Mach.settleLine_kept, Mach.setCache_kept, Mach.bufRead_kept, Mach.installLine_kept, foldl_kept]
theorem Mach.cachedWrite_kept {m : Mach} (line : Nat) (w : LineWrite) (preports : P .reports) (pout : P .out) (pbuf : P .buf) (rBUF_CNT : R REG_BUF_CNT) (rBUF_ERR : R REG_BUF_ERR) (rBUF_FIRST : R REG_BUF_FIRST) (rCCH_MISS : R REG_CCH_MISS) (hm : Kept P R m0 m) : Kept P R m0 (Mach.cachedWrite m line w) := by
  grind [Mach.cachedWrite, CCH_CTRL_EN, Mach.fabWrite_kept, Mach.settleLine_kept, Mach.bufRead_kept, Mach.installLine_kept, Mach.setCache_kept, Mach.bufWrite_kept, foldl_kept]
theorem missFillDone_kept (k : Nat) {m : Mach} (preports : P .reports) (pout : P .out) (pbuf : P .buf) (rBUF_CNT : R REG_BUF_CNT) (rBUF_ERR : R REG_BUF_ERR) (rBUF_FIRST : R REG_BUF_FIRST) (rCCH_MISS : R REG_CCH_MISS) (hm : Kept P R m0 m) : Kept P R m0 (missFillDone k m) := by
  unfold missFillDone
  repeat' (first | with_reducible assumption | split | with_reducible apply Mach.syncMiss_kept | with_reducible apply Mach.setCache_kept | with_reducible apply Mach.drainQueue_kept | with_reducible apply Mach.fillLine_kept | with_reducible apply foldl_kept | with_reducible apply when_kept | dsimp only | intro _ _ _ | intro _ _ | intro _ | grind [])
theorem bucketLeak_kept (bank : Fin 16) {m : Mach} (rCCH_BUCKET : ∀ i, i < 16 → R (REG_CCH_BUCKET i)) (hm : Kept P R m0 m) : Kept P R m0 (bucketLeak bank m) := by
  grind [bucketLeak, CCH_BUCKET_LEVEL, set_kept, foldl_kept]
theorem Mach.mopWalk_kept {m : Mach} (sel : CacheLine → Bool) (clean : Bool) (inval : Bool) (preports : P .reports) (pbuf : P .buf) (rBUF_CNT : R REG_BUF_CNT) (rBUF_ERR : R REG_BUF_ERR) (rBUF_FIRST : R REG_BUF_FIRST) (hm : Kept P R m0 m) : Kept P R m0 (Mach.mopWalk m sel clean inval) := by
  grind [Mach.mopWalk, Mach.writeBack_kept, Mach.setCache_kept, foldl_kept]
theorem Mach.mopGo_kept {m : Mach} (op : Nat) (f : Mach → Mach) (preports : P .reports) (rCCH_ERR : R REG_CCH_ERR) (rCCH_MOP_CMD : R REG_CCH_MOP_CMD) (hm : Kept P R m0 m) (hf : ∀ (y0 : Mach), Kept P R m0 y0 → Kept P R m0 (f y0)) : Kept P R m0 (Mach.mopGo m op f) := by
  grind [Mach.mopGo, CCH_MOP_CMD_OP, CCH_MOP_STAT_BUSY, CCH_ERR_MOP_BUSY, set_kept, flagEvent_kept, foldl_kept]
theorem Mach.mopRange_kept {m : Mach} (op : Nat) (clean : Bool) (inval : Bool) (preports : P .reports) (pbuf : P .buf) (rBUF_CNT : R REG_BUF_CNT) (rBUF_ERR : R REG_BUF_ERR) (rBUF_FIRST : R REG_BUF_FIRST) (rCCH_ERR : R REG_CCH_ERR) (rCCH_MOP_CMD : R REG_CCH_MOP_CMD) (rCCH_MOP_STAT : R REG_CCH_MOP_STAT) (hm : Kept P R m0 m) : Kept P R m0 (Mach.mopRange m op clean inval) := by
  grind [Mach.mopRange, CCH_MOP_ADDR_LINE, CCH_MOP_LEN_LINES, CCH_ERR_MOP_RANGE, CCH_MOP_STAT_BUSY, Mach.mopGo_kept, flagEvent_kept, set_kept, Mach.mopWalk_kept, foldl_kept]
theorem Mach.mopSetWay_kept {m : Mach} (op : Nat) (set : Nat) (way : Fin 16) (clean : Bool) (inval : Bool) (preports : P .reports) (pbuf : P .buf) (rBUF_CNT : R REG_BUF_CNT) (rBUF_ERR : R REG_BUF_ERR) (rBUF_FIRST : R REG_BUF_FIRST) (rCCH_ERR : R REG_CCH_ERR) (rCCH_MOP_CMD : R REG_CCH_MOP_CMD) (rCCH_MOP_STAT : R REG_CCH_MOP_STAT) (hm : Kept P R m0 m) : Kept P R m0 (Mach.mopSetWay m op set way clean inval) := by
  grind [Mach.mopSetWay, CCH_MOP_CMD_SET, CCH_MOP_CMD_WAY, CCH_ERR_MOP_RANGE, CCH_MOP_STAT_BUSY, set_kept, Mach.mopGo_kept, flagEvent_kept, Mach.mopWalk_kept, foldl_kept]
theorem mopCleanRange_kept {m : Mach} (preports : P .reports) (pbuf : P .buf) (rBUF_CNT : R REG_BUF_CNT) (rBUF_ERR : R REG_BUF_ERR) (rBUF_FIRST : R REG_BUF_FIRST) (rCCH_ERR : R REG_CCH_ERR) (rCCH_MOP_CMD : R REG_CCH_MOP_CMD) (rCCH_MOP_STAT : R REG_CCH_MOP_STAT) (hm : Kept P R m0 m) : Kept P R m0 (mopCleanRange m) := by
  grind [mopCleanRange, Mach.mopRange_kept, foldl_kept]
theorem mopInvalidateRange_kept {m : Mach} (preports : P .reports) (pbuf : P .buf) (rBUF_CNT : R REG_BUF_CNT) (rBUF_ERR : R REG_BUF_ERR) (rBUF_FIRST : R REG_BUF_FIRST) (rCCH_ERR : R REG_CCH_ERR) (rCCH_MOP_CMD : R REG_CCH_MOP_CMD) (rCCH_MOP_STAT : R REG_CCH_MOP_STAT) (hm : Kept P R m0 m) : Kept P R m0 (mopInvalidateRange m) := by
  grind [mopInvalidateRange, Mach.mopRange_kept, foldl_kept]
theorem mopCleanInvalidateRange_kept {m : Mach} (preports : P .reports) (pbuf : P .buf) (rBUF_CNT : R REG_BUF_CNT) (rBUF_ERR : R REG_BUF_ERR) (rBUF_FIRST : R REG_BUF_FIRST) (rCCH_ERR : R REG_CCH_ERR) (rCCH_MOP_CMD : R REG_CCH_MOP_CMD) (rCCH_MOP_STAT : R REG_CCH_MOP_STAT) (hm : Kept P R m0 m) : Kept P R m0 (mopCleanInvalidateRange m) := by
  grind [mopCleanInvalidateRange, Mach.mopRange_kept, foldl_kept]
theorem mopCleanSetWay_kept (set : Fin 32768) (way : Fin 16) {m : Mach} (preports : P .reports) (pbuf : P .buf) (rBUF_CNT : R REG_BUF_CNT) (rBUF_ERR : R REG_BUF_ERR) (rBUF_FIRST : R REG_BUF_FIRST) (rCCH_ERR : R REG_CCH_ERR) (rCCH_MOP_CMD : R REG_CCH_MOP_CMD) (rCCH_MOP_STAT : R REG_CCH_MOP_STAT) (hm : Kept P R m0 m) : Kept P R m0 (mopCleanSetWay set way m) := by
  grind [mopCleanSetWay, Mach.mopSetWay_kept, foldl_kept]
theorem mopInvalidateSetWay_kept (set : Fin 32768) (way : Fin 16) {m : Mach} (preports : P .reports) (pbuf : P .buf) (rBUF_CNT : R REG_BUF_CNT) (rBUF_ERR : R REG_BUF_ERR) (rBUF_FIRST : R REG_BUF_FIRST) (rCCH_ERR : R REG_CCH_ERR) (rCCH_MOP_CMD : R REG_CCH_MOP_CMD) (rCCH_MOP_STAT : R REG_CCH_MOP_STAT) (hm : Kept P R m0 m) : Kept P R m0 (mopInvalidateSetWay set way m) := by
  grind [mopInvalidateSetWay, Mach.mopSetWay_kept, foldl_kept]
theorem mopCleanInvalidateSetWay_kept (set : Fin 32768) (way : Fin 16) {m : Mach} (preports : P .reports) (pbuf : P .buf) (rBUF_CNT : R REG_BUF_CNT) (rBUF_ERR : R REG_BUF_ERR) (rBUF_FIRST : R REG_BUF_FIRST) (rCCH_ERR : R REG_CCH_ERR) (rCCH_MOP_CMD : R REG_CCH_MOP_CMD) (rCCH_MOP_STAT : R REG_CCH_MOP_STAT) (hm : Kept P R m0 m) : Kept P R m0 (mopCleanInvalidateSetWay set way m) := by
  grind [mopCleanInvalidateSetWay, Mach.mopSetWay_kept, foldl_kept]
theorem Mach.mopAll_kept {m : Mach} (preports : P .reports) (pbuf : P .buf) (rBUF_CNT : R REG_BUF_CNT) (rBUF_ERR : R REG_BUF_ERR) (rBUF_FIRST : R REG_BUF_FIRST) (hm : Kept P R m0 m) : Kept P R m0 (Mach.mopAll m) := by
  grind [Mach.mopAll, Mach.mopWalk_kept, foldl_kept]
theorem mopCleanInvalidateAll_kept {m : Mach} (preports : P .reports) (pbuf : P .buf) (rBUF_CNT : R REG_BUF_CNT) (rBUF_ERR : R REG_BUF_ERR) (rBUF_FIRST : R REG_BUF_FIRST) (rCCH_ERR : R REG_CCH_ERR) (rCCH_MOP_CMD : R REG_CCH_MOP_CMD) (rCCH_MOP_STAT : R REG_CCH_MOP_STAT) (hm : Kept P R m0 m) : Kept P R m0 (mopCleanInvalidateAll m) := by
  grind [mopCleanInvalidateAll, CCH_MOP_STAT_BUSY, Mach.mopGo_kept, set_kept, Mach.mopAll_kept, foldl_kept]
theorem mopDone_kept {m : Mach} (rCCH_MOP_STAT : R REG_CCH_MOP_STAT) (hm : Kept P R m0 m) : Kept P R m0 (mopDone m) := by
  grind [mopDone, CCH_MOP_STAT_BUSY, set_kept, foldl_kept]
theorem cchEnWrite_kept (en : Bool) {m : Mach} (preports : P .reports) (rCCH_CTRL : R REG_CCH_CTRL) (rCCH_ERR : R REG_CCH_ERR) (hm : Kept P R m0 m) : Kept P R m0 (cchEnWrite en m) := by
  grind [cchEnWrite, CCH_CTRL_EN, CCH_ERR_EN_BUSY, setFlag_kept, flagEvent_kept, foldl_kept]
theorem Mach.setPool_kept {m : Mach} (p : PoolId) (f : Pool → Pool) (pbuf : P .buf) (hm : Kept P R m0 m) : Kept P R m0 (Mach.setPool m p f) := by
  grind [Mach.setPool, Mach.setBuf_kept, filter_wf, poison_wf, heal_wf, same_wf, nil_wf, initial_wf, BufState.initial, foldl_kept]
theorem Mach.syncPool_kept {m : Mach} (p : PoolId) (rPOOL_RETSTAT : ∀ i, i < 8 → R (REG_POOL_RETSTAT i)) (rPOOL_STAT : ∀ i, i < 8 → R (REG_POOL_STAT i)) (hm : Kept P R m0 m) : Kept P R m0 (Mach.syncPool m p) := by
  grind [Mach.syncPool, POOL_STAT_FREE, POOL_STAT_CACHED, POOL_STAT_WAITING, POOL_RETSTAT_RETIRED, set_kept, setFlag_kept, foldl_kept]
theorem Mach.lowEvent_kept {m : Mach} (p : PoolId) (before : Nat) (preports : P .reports) (hm : Kept P R m0 m) : Kept P R m0 (Mach.lowEvent m p before) := by
  grind [Mach.lowEvent, POOL_THR_LOW, when_kept, report_kept, foldl_kept]
theorem Mach.ringDemand_kept {m : Mach} (p : PoolId) (i : Nat) (n : Nat) (pcal : P .cal) (hm : Kept P R m0 m) : Kept P R m0 (Mach.ringDemand m p i n) := by
  grind [Mach.ringDemand, Mach.demand_kept, foldl_kept]
theorem Mach.ringMove_kept {m : Mach} (p : PoolId) (pcal : P .cal) (pbuf : P .buf) (hm : Kept P R m0 m) : Kept P R m0 (Mach.ringMove m p) := by
  grind [Mach.ringMove, Mach.ringDemand_kept, Mach.setPool_kept, foldl_kept]
theorem Mach.ringDiscard_kept {m : Mach} (p : PoolId) (preports : P .reports) (pbuf : P .buf) (rPOOL_ERR : R REG_POOL_ERR) (hm : Kept P R m0 m) : Kept P R m0 (Mach.ringDiscard m p) := by
  grind [Mach.ringDiscard, POOL_ERR_RING, Mach.lowEvent_kept, flagEvent_kept, Mach.setPool_kept, foldl_kept]
theorem poolEnWrite_kept (p : PoolId) (en : Bool) {m : Mach} (preports : P .reports) (pcal : P .cal) (pbuf : P .buf) (rPOOL_CFG : ∀ i, i < 8 → R (REG_POOL_CFG i)) (rPOOL_ERR : R REG_POOL_ERR) (rPOOL_RETSTAT : ∀ i, i < 8 → R (REG_POOL_RETSTAT i)) (rPOOL_STAT : ∀ i, i < 8 → R (REG_POOL_STAT i)) (hm : Kept P R m0 m) : Kept P R m0 (poolEnWrite p en m) := by
  grind [poolEnWrite, POOL_CFG_EN, POOL_CFG_INIT_BUSY, POOL_ERR_CFG, POOL_ERR_BUSY, set_kept, Mach.syncPool_kept, Mach.setPool_kept, Mach.ringDemand_kept, flagEvent_kept, foldl_kept]
theorem poolRingInitDone_kept (p : PoolId) {m : Mach} (preports : P .reports) (pout : P .out) (pcal : P .cal) (pbuf : P .buf) (rBUF_CNT : R REG_BUF_CNT) (rBUF_ERR : R REG_BUF_ERR) (rBUF_FIRST : R REG_BUF_FIRST) (rCCH_MISS : R REG_CCH_MISS) (rPOOL_CFG : ∀ i, i < 8 → R (REG_POOL_CFG i)) (hm : Kept P R m0 m) : Kept P R m0 (poolRingInitDone p m) := by
  grind [poolRingInitDone, POOL_CFG_INIT_BUSY, Mach.ringMove_kept, set_kept, Mach.writeBytes_kept, foldl_kept]
theorem Mach.ringTake_kept {m : Mach} (p : PoolId) (preports : P .reports) (pout : P .out) (pbuf : P .buf) (rBUF_CNT : R REG_BUF_CNT) (rBUF_ERR : R REG_BUF_ERR) (rBUF_FIRST : R REG_BUF_FIRST) (rCCH_MISS : R REG_CCH_MISS) (rPOOL_ERR : R REG_POOL_ERR) (hm : Kept P R m0 m) : Kept P R m0 (Mach.ringTake m p) := by
  grind [Mach.ringTake, Mach.readBytes_kept, Mach.setPool_kept, Mach.ringDiscard_kept, foldl_kept]
theorem Mach.ringPut_kept {m : Mach} (p : PoolId) (is : List Nat) (preports : P .reports) (pout : P .out) (pbuf : P .buf) (rBUF_CNT : R REG_BUF_CNT) (rBUF_ERR : R REG_BUF_ERR) (rBUF_FIRST : R REG_BUF_FIRST) (rCCH_MISS : R REG_CCH_MISS) (hm : Kept P R m0 m) : Kept P R m0 (Mach.ringPut m p is) := by
  grind [Mach.ringPut, Mach.writeBytes_kept, Mach.setPool_kept, foldl_kept]
theorem Mach.resultLine_kept {m : Mach} (addr : Nat) (handles : List Nat) (preports : P .reports) (pout : P .out) (pbuf : P .buf) (rBUF_CNT : R REG_BUF_CNT) (rBUF_ERR : R REG_BUF_ERR) (rBUF_FIRST : R REG_BUF_FIRST) (rCCH_MISS : R REG_CCH_MISS) (hm : Kept P R m0 m) : Kept P R m0 (Mach.resultLine m addr handles) := by
  grind [Mach.resultLine, Mach.fabWrite_kept, foldl_kept]
theorem Mach.sweepCache_kept {m : Mach} (p : PoolId) (preports : P .reports) (pbuf : P .buf) (rPOOL_ERR : R REG_POOL_ERR) (hm : Kept P R m0 m) : Kept P R m0 (Mach.sweepCache m p) := by
  grind [Mach.sweepCache, Mach.ringDiscard_kept, Mach.setPool_kept, foldl_kept]
theorem poolGrant_kept (p : PoolId) {m : Mach} (preports : P .reports) (pout : P .out) (pcal : P .cal) (pbuf : P .buf) (rBUF_CNT : R REG_BUF_CNT) (rBUF_ERR : R REG_BUF_ERR) (rBUF_FIRST : R REG_BUF_FIRST) (rCCH_MISS : R REG_CCH_MISS) (rPOOL_ERR : R REG_POOL_ERR) (rPOOL_MBSTAT : ∀ i, i < 16 → R (REG_POOL_MBSTAT i)) (rPOOL_RETSTAT : ∀ i, i < 8 → R (REG_POOL_RETSTAT i)) (rPOOL_STAT : ∀ i, i < 8 → R (REG_POOL_STAT i)) (hm : Kept P R m0 m) : Kept P R m0 (poolGrant p m) := by
  unfold poolGrant
  repeat' (first | with_reducible assumption | split | with_reducible apply Mach.sweepCache_kept | with_reducible apply Mach.syncPool_kept | with_reducible apply Mach.ringMove_kept | with_reducible apply Mach.setPool_kept | with_reducible apply Mach.demand_kept | with_reducible apply Mach.resultLine_kept | with_reducible apply set_kept | with_reducible apply Mach.lowEvent_kept | with_reducible apply foldl_kept | with_reducible apply when_kept | dsimp only | intro _ _ _ | intro _ _ | intro _ | grind [POOL_MBSTAT_DONE, POOL_MBSTAT_BUSY])
theorem mailboxRequest_kept (mb : Mailbox) (count : Nat) (p : PoolId) (prio : Nat) (result : Nat) {m : Mach} (preports : P .reports) (pout : P .out) (pcal : P .cal) (pbuf : P .buf) (rBUF_CNT : R REG_BUF_CNT) (rBUF_ERR : R REG_BUF_ERR) (rBUF_FIRST : R REG_BUF_FIRST) (rCCH_MISS : R REG_CCH_MISS) (rPOOL_ERR : R REG_POOL_ERR) (rPOOL_MBSTAT : ∀ i, i < 16 → R (REG_POOL_MBSTAT i)) (rPOOL_RETSTAT : ∀ i, i < 8 → R (REG_POOL_RETSTAT i)) (rPOOL_STAT : ∀ i, i < 8 → R (REG_POOL_STAT i)) (hm : Kept P R m0 m) : Kept P R m0 (mailboxRequest mb count p prio result m) := by
  grind [mailboxRequest, POOL_MBSTAT_BUSY, POOL_ERR_MB_BUSY, POOL_MBSTAT_DONE, POOL_MBSTAT_ERR, POOL_CFG_EN, flagEvent_kept, set_kept, Mach.demand_kept, Mach.resultLine_kept, Mach.syncPool_kept, Mach.setPool_kept, foldl_kept]
theorem poolMbWrite_kept (mb : Mailbox) (w : Word) {m : Mach} (preports : P .reports) (pout : P .out) (pcal : P .cal) (pbuf : P .buf) (rBUF_CNT : R REG_BUF_CNT) (rBUF_ERR : R REG_BUF_ERR) (rBUF_FIRST : R REG_BUF_FIRST) (rCCH_MISS : R REG_CCH_MISS) (rPOOL_ERR : R REG_POOL_ERR) (rPOOL_MBSTAT : ∀ i, i < 16 → R (REG_POOL_MBSTAT i)) (rPOOL_RETSTAT : ∀ i, i < 8 → R (REG_POOL_RETSTAT i)) (rPOOL_STAT : ∀ i, i < 8 → R (REG_POOL_STAT i)) (hm : Kept P R m0 m) : Kept P R m0 (poolMbWrite mb w m) := by
  grind [poolMbWrite, POOL_MBSTAT_K, mailboxRequest_kept, foldl_kept]
theorem Mach.freeRefused_kept {m : Mach} (h : Nat) (l : Loc) (s : Nat) (preports : P .reports) (rPOOL_FIRST : R REG_POOL_FIRST) (hm : Kept P R m0 m) (hl : R l.addr) : Kept P R m0 (Mach.freeRefused m h l s) := by
  grind [Mach.freeRefused, POOL_FIRST_VALID, POOL_FIRST_HANDLE, when_kept, set_kept, flagEvent_kept, foldl_kept]
theorem Mach.freeOne_kept {m : Mach} (h : Nat) (preports : P .reports) (pcal : P .cal) (pbuf : P .buf) (rPOOL_ERR : R REG_POOL_ERR) (rPOOL_FIRST : R REG_POOL_FIRST) (rPOOL_RETSTAT : ∀ i, i < 8 → R (REG_POOL_RETSTAT i)) (rPOOL_STAT : ∀ i, i < 8 → R (REG_POOL_STAT i)) (hm : Kept P R m0 m) : Kept P R m0 (Mach.freeOne m h) := by
  grind [Mach.freeOne, POOL_CFG_EN, POOL_ERR_BAD_HANDLE, POOL_ERR_DOUBLE_FREE, Mach.freeRefused_kept, Mach.setPool_kept, Mach.ringMove_kept, Mach.syncPool_kept, foldl_kept]
theorem Mach.drainFrees_kept (a : List Nat) {x1 : Mach} (preports : P .reports) (pcal : P .cal) (pbuf : P .buf) (rPOOL_ERR : R REG_POOL_ERR) (rPOOL_FIRST : R REG_POOL_FIRST) (rPOOL_RETSTAT : ∀ i, i < 8 → R (REG_POOL_RETSTAT i)) (rPOOL_STAT : ∀ i, i < 8 → R (REG_POOL_STAT i)) (hx1 : Kept P R m0 x1) : Kept P R m0 (Mach.drainFrees a x1) := by
  induction a generalizing x1 with
  | nil => unfold Mach.drainFrees; exact Mach.setBuf_kept _ pbuf (fun _ h => h) hx1
  | cons h hs ih =>
    unfold Mach.drainFrees
    split
    · exact Mach.setBuf_kept _ pbuf (fun _ h => h) hx1
    · exact ih (Mach.freeOne_kept _ (by assumption) (by assumption) (by assumption) (by assumption) (by assumption) (by assumption) (by assumption) hx1)
theorem poolFree_kept (h : BitVec 24) {m : Mach} (preports : P .reports) (pcal : P .cal) (pbuf : P .buf) (rPOOL_ERR : R REG_POOL_ERR) (rPOOL_FIRST : R REG_POOL_FIRST) (rPOOL_RETSTAT : ∀ i, i < 8 → R (REG_POOL_RETSTAT i)) (rPOOL_STAT : ∀ i, i < 8 → R (REG_POOL_STAT i)) (hm : Kept P R m0 m) : Kept P R m0 (poolFree h m) := by
  grind [poolFree, Mach.drainFrees_kept, foldl_kept]
theorem poolCacheRefill_kept (p : PoolId) {m : Mach} (preports : P .reports) (pout : P .out) (pcal : P .cal) (pbuf : P .buf) (rBUF_CNT : R REG_BUF_CNT) (rBUF_ERR : R REG_BUF_ERR) (rBUF_FIRST : R REG_BUF_FIRST) (rCCH_MISS : R REG_CCH_MISS) (rPOOL_ERR : R REG_POOL_ERR) (rPOOL_FIRST : R REG_POOL_FIRST) (rPOOL_RETSTAT : ∀ i, i < 8 → R (REG_POOL_RETSTAT i)) (rPOOL_STAT : ∀ i, i < 8 → R (REG_POOL_STAT i)) (hm : Kept P R m0 m) : Kept P R m0 (poolCacheRefill p m) := by
  unfold poolCacheRefill
  repeat' (first | with_reducible assumption | split | with_reducible apply Mach.ringMove_kept | with_reducible apply Mach.setPool_kept | with_reducible apply Mach.ringPut_kept | with_reducible apply Mach.ringTake_kept | with_reducible apply Mach.syncPool_kept | with_reducible apply Mach.drainFrees_kept | with_reducible apply foldl_kept | with_reducible apply when_kept | dsimp only | intro _ _ _ | intro _ _ | intro _ | grind [])
theorem poolRetire_kept (h : BitVec 24) {m : Mach} (preports : P .reports) (pbuf : P .buf) (rPOOL_ERR : R REG_POOL_ERR) (rPOOL_RETSTAT : ∀ i, i < 8 → R (REG_POOL_RETSTAT i)) (rPOOL_STAT : ∀ i, i < 8 → R (REG_POOL_STAT i)) (hm : Kept P R m0 m) : Kept P R m0 (poolRetire h m) := by
  grind [poolRetire, POOL_ERR_RET_FULL, POOL_CFG_EN, flagEvent_kept, Mach.setBuf_kept, filter_wf, poison_wf, heal_wf, same_wf, nil_wf, initial_wf, BufState.initial, when_kept, Mach.setPool_kept, Mach.lowEvent_kept, Mach.syncPool_kept, foldl_kept]
theorem poolBankretWrite_kept (half : Fin 2) (w : Word) {m : Mach} (preports : P .reports) (pbuf : P .buf) (rPOOL_BANKRET0 : R REG_POOL_BANKRET0) (rPOOL_BANKRET1 : R REG_POOL_BANKRET1) (rPOOL_RETSTAT : ∀ i, i < 8 → R (REG_POOL_RETSTAT i)) (rPOOL_STAT : ∀ i, i < 8 → R (REG_POOL_STAT i)) (hm : Kept P R m0 m) : Kept P R m0 (poolBankretWrite half w m) := by
  grind [poolBankretWrite, POOL_BANKRET0_BANKS, POOL_BANKRET1_BANKS, POOL_CFG_EN, set_kept, Mach.lowEvent_kept, Mach.syncPool_kept, Mach.setPool_kept, foldl_kept]
theorem Mach.scrubDemand_kept {m : Mach} (first : Nat) (n : Nat) (pcal : P .cal) (hm : Kept P R m0 m) : Kept P R m0 (Mach.scrubDemand m first n) := by
  grind [Mach.scrubDemand, BUF_CTRL_INIT_MODE, Mach.demand_kept, foldl_kept]
theorem scbGo_kept {m : Mach} (preports : P .reports) (pout : P .out) (pcal : P .cal) (pbuf : P .buf) (rBUF_CNT : R REG_BUF_CNT) (rBUF_ERR : R REG_BUF_ERR) (rBUF_FIRST : R REG_BUF_FIRST) (rCCH_MISS : R REG_CCH_MISS) (rSCB_PASS : R REG_SCB_PASS) (rSCB_STAT : R REG_SCB_STAT) (hm : Kept P R m0 m) : Kept P R m0 (scbGo m) := by
  grind [scbGo, SCB_START_LINE, SCB_LEN_LINES, SCB_STAT_BUSY, SCB_STAT_ERR, SCB_SUMADDR_ADDR, SCB_PASS_PASS, CAL_FIGNO_FIGURE, flagEvent_kept, Mach.writeBytes_kept, set_kept, incWrap_kept, Mach.scrubDemand_kept, Mach.setBuf_kept, filter_wf, poison_wf, heal_wf, same_wf, nil_wf, initial_wf, BufState.initial, foldl_kept]
theorem scbAbort_kept {m : Mach} (pcal : P .cal) (pbuf : P .buf) (hm : Kept P R m0 m) : Kept P R m0 (scbAbort m) := by
  grind [scbAbort, Mach.setCal_kept, Mach.setBuf_kept, filter_wf, poison_wf, heal_wf, same_wf, nil_wf, initial_wf, BufState.initial, foldl_kept]
theorem Mach.scrubEnd_kept {m : Mach} (preports : P .reports) (pout : P .out) (pbuf : P .buf) (rBUF_CNT : R REG_BUF_CNT) (rBUF_ERR : R REG_BUF_ERR) (rBUF_FIRST : R REG_BUF_FIRST) (rCCH_MISS : R REG_CCH_MISS) (rSCB_STAT : R REG_SCB_STAT) (hm : Kept P R m0 m) : Kept P R m0 (Mach.scrubEnd m) := by
  unfold Mach.scrubEnd
  repeat' (first | with_reducible assumption | split | with_reducible apply Mach.checkFail_kept | with_reducible apply Mach.writeBytes_kept | with_reducible apply report_kept | with_reducible apply Mach.setBuf_kept | with_reducible apply set_kept | with_reducible apply foldl_kept | with_reducible apply when_kept | dsimp only | intro _ _ _ | intro _ _ | intro _ | grind [SCB_PASS_PASS, CAL_FIGNO_FIGURE, SCB_STAT_BUSY, filter_wf, poison_wf, heal_wf, same_wf, nil_wf, initial_wf, BufState.initial])
theorem scrubPassEnd_kept {m : Mach} (preports : P .reports) (pout : P .out) (pbuf : P .buf) (rBUF_CNT : R REG_BUF_CNT) (rBUF_ERR : R REG_BUF_ERR) (rBUF_FIRST : R REG_BUF_FIRST) (rCCH_MISS : R REG_CCH_MISS) (rSCB_STAT : R REG_SCB_STAT) (hm : Kept P R m0 m) : Kept P R m0 (scrubPassEnd m) := by
  unfold scrubPassEnd
  repeat' (first | with_reducible assumption | split | with_reducible apply Mach.scrubEnd_kept | with_reducible apply foldl_kept | with_reducible apply when_kept | dsimp only | intro _ _ _ | intro _ _ | intro _ | grind [])
theorem Mach.poolSleep_kept {m : Mach} (p : PoolId) (preports : P .reports) (pout : P .out) (pbuf : P .buf) (rBUF_CNT : R REG_BUF_CNT) (rBUF_ERR : R REG_BUF_ERR) (rBUF_FIRST : R REG_BUF_FIRST) (rCCH_MISS : R REG_CCH_MISS) (rPOOL_RETSTAT : ∀ i, i < 8 → R (REG_POOL_RETSTAT i)) (rPOOL_STAT : ∀ i, i < 8 → R (REG_POOL_STAT i)) (hm : Kept P R m0 m) : Kept P R m0 (Mach.poolSleep m p) := by
  grind [Mach.poolSleep, POOL_CFG_EN, POOL_STBASE_ADDR, Mach.ringPut_kept, Mach.setPool_kept, Mach.syncPool_kept, Mach.writeBytes_kept, foldl_kept]
theorem Mach.bufSleep_kept {m : Mach} (preports : P .reports) (pout : P .out) (pcal : P .cal) (pbuf : P .buf) (rBUF_CNT : R REG_BUF_CNT) (rBUF_ERR : R REG_BUF_ERR) (rBUF_FIRST : R REG_BUF_FIRST) (rCCH_MISS : R REG_CCH_MISS) (rPOOL_RETSTAT : ∀ i, i < 8 → R (REG_POOL_RETSTAT i)) (rPOOL_STAT : ∀ i, i < 8 → R (REG_POOL_STAT i)) (rSCB_STAT : R REG_SCB_STAT) (hm : Kept P R m0 m) : Kept P R m0 (Mach.bufSleep m) := by
  grind [Mach.bufSleep, BUF_CTRL_INIT_MODE, Mach.scrubEnd_kept, scbAbort_kept, Mach.mopAll_kept, Mach.poolSleep_kept, when_kept, Mach.setMem_kept, filter_wf, poison_wf, heal_wf, same_wf, nil_wf, initial_wf, BufState.initial, Mach.setBuf_kept, foldl_kept]
theorem Mach.clearPools_kept {m : Mach} (pcal : P .cal) (pbuf : P .buf) (hm : Kept P R m0 m) : Kept P R m0 (Mach.clearPools m) := by
  grind [Mach.clearPools, Mach.setCal_kept, Mach.setBuf_kept, filter_wf, poison_wf, heal_wf, same_wf, nil_wf, initial_wf, BufState.initial, foldl_kept]
theorem Mach.clearCache_kept {m : Mach} (pbuf : P .buf) (hm : Kept P R m0 m) : Kept P R m0 (Mach.clearCache m) := by
  grind [Mach.clearCache, Mach.setCache_kept, foldl_kept]
theorem Mach.clearScrub_kept {m : Mach} (pbuf : P .buf) (hm : Kept P R m0 m) : Kept P R m0 (Mach.clearScrub m) := by
  grind [Mach.clearScrub, Mach.setBuf_kept, filter_wf, poison_wf, heal_wf, same_wf, nil_wf, initial_wf, BufState.initial, foldl_kept]
end Sys2Proof.Machine
end

