-- ==== Sys2Proof/Laws/KeptDma.lean ====
section
/-! SUPPORT. What the operations of Machine/Dma.lean keep: for each, the parts and the registers it may change. -/
set_option Elab.async false
set_option linter.all false
namespace Sys2Proof.Machine
open Sys2Proof
variable {P : Part → Prop} {R : Nat → Prop} {m0 : Mach}
theorem Mach.setDma_kept {m : Mach} (f : DmaState → DmaState) (pdma : P .dma) (hm : Kept P R m0 m) : Kept P R m0 (Mach.setDma m f) := by
  grind [Mach.setDma, mk_dma_kept, foldl_kept]
theorem Mach.setHold_kept {m : Mach} (n : DmaCh) (f : DmaHold → DmaHold) (pdma : P .dma) (hm : Kept P R m0 m) : Kept P R m0 (Mach.setHold m n f) := by
  grind [Mach.setHold, Mach.setDma_kept, foldl_kept]
theorem Mach.setBitAt_kept {m : Mach} (l : Loc) (i : Nat) (b : Bool) (hm : Kept P R m0 m) (hl : R l.addr) : Kept P R m0 (Mach.setBitAt m l i b) := by
  grind [Mach.setBitAt, set_kept, foldl_kept]
theorem Mach.attrRead_kept {m : Mach} (cache : Bool) (line : Nat) (preports : P .reports) (pout : P .out) (pbuf : P .buf) (rBUF_CNT : R REG_BUF_CNT) (rBUF_ERR : R REG_BUF_ERR) (rBUF_FIRST : R REG_BUF_FIRST) (rCCH_MISS : R REG_CCH_MISS) (hm : Kept P R m0 m) : Kept P R m0 (Mach.attrRead m cache line).2 := by
  grind [Mach.attrRead, Mach.cachedRead_kept, Mach.fabRead_kept, foldl_kept]
theorem Mach.listRead_kept {m : Mach} (cache : Bool) (a : Nat) (n : Nat) (preports : P .reports) (pout : P .out) (pbuf : P .buf) (rBUF_CNT : R REG_BUF_CNT) (rBUF_ERR : R REG_BUF_ERR) (rBUF_FIRST : R REG_BUF_FIRST) (rCCH_MISS : R REG_CCH_MISS) (hm : Kept P R m0 m) : Kept P R m0 (Mach.listRead m cache a n).2 := by
  grind [Mach.listRead, Mach.attrRead_kept, foldl_kept]
theorem Mach.chState_kept {m : Mach} (n : DmaCh) (v : Nat) (rDMA_CH_STAT : ∀ i, i < 16 → R (REG_DMA_CH_STAT i)) (hm : Kept P R m0 m) : Kept P R m0 (Mach.chState m n v) := by
  grind [Mach.chState, DMA_CH_STAT_STATE, set_kept, foldl_kept]
theorem Mach.chDemand_kept {m : Mach} (n : DmaCh) (cls : FabClass) (addr : Nat) (bytes : Nat) (pcal : P .cal) (hm : Kept P R m0 m) : Kept P R m0 (Mach.chDemand m n cls addr bytes) := by
  grind [Mach.chDemand, Mach.demandAs_kept, foldl_kept]
theorem Mach.chStop_kept {m : Mach} (n : DmaCh) (pcal : P .cal) (pdma : P .dma) (hm : Kept P R m0 m) : Kept P R m0 (Mach.chStop m n) := by
  grind [Mach.chStop, Mach.setHold_kept, Mach.setCal_kept, foldl_kept]
theorem Mach.chIdle_kept {m : Mach} (n : DmaCh) (pcal : P .cal) (pdma : P .dma) (rDMA_CH_MOVED : ∀ i, i < 16 → R (REG_DMA_CH_MOVED i)) (rDMA_CH_STAT : ∀ i, i < 16 → R (REG_DMA_CH_STAT i)) (rDMA_STAT : R REG_DMA_STAT) (hm : Kept P R m0 m) : Kept P R m0 (Mach.chIdle m n) := by
  unfold Mach.chIdle
  repeat' (first | with_reducible assumption | split | with_reducible apply Mach.setDma_kept | with_reducible apply Mach.chStop_kept | with_reducible apply set_kept | with_reducible apply Mach.chState_kept | with_reducible apply Mach.setBitAt_kept | with_reducible apply foldl_kept | with_reducible apply when_kept | dsimp only | intro _ _ _ | intro _ _ | intro _ | grind [DMA_CH_STAT_RING, DMA_CH_STAT_SLOT, DMA_CH_MOVED_MOVED, DMA_STAT_ACTIVE, DMA_STAT_HALTED])
theorem Mach.chComplete_kept {m : Mach} (n : DmaCh) (e : DmaEnd) (pcal : P .cal) (pdma : P .dma) (rDMA_CH_STAT : ∀ i, i < 16 → R (REG_DMA_CH_STAT i)) (rDMA_STAT : R REG_DMA_STAT) (hm : Kept P R m0 m) : Kept P R m0 (Mach.chComplete m n e) := by
  unfold Mach.chComplete
  repeat' (first | with_reducible assumption | split | with_reducible apply Mach.setHold_kept | with_reducible apply Mach.chStop_kept | with_reducible apply Mach.setBitAt_kept | with_reducible apply Mach.chState_kept | with_reducible apply Mach.chDemand_kept | with_reducible apply foldl_kept | with_reducible apply when_kept | dsimp only | intro _ _ _ | intro _ _ | intro _ | grind [DMA_STAT_HALTED])
theorem Mach.chStatus_kept {m : Mach} (n : DmaCh) (h : DmaHold) (e : DmaEnd) (preports : P .reports) (pout : P .out) (pcal : P .cal) (pbuf : P .buf) (pdma : P .dma) (rBUF_CNT : R REG_BUF_CNT) (rBUF_ERR : R REG_BUF_ERR) (rBUF_FIRST : R REG_BUF_FIRST) (rCCH_MISS : R REG_CCH_MISS) (rDMA_CH_MOVED : ∀ i, i < 16 → R (REG_DMA_CH_MOVED i)) (rDMA_CH_STAT : ∀ i, i < 16 → R (REG_DMA_CH_STAT i)) (rDMA_STAT : R REG_DMA_STAT) (hm : Kept P R m0 m) : Kept P R m0 (Mach.chStatus m n h e) := by
  grind [Mach.chStatus, DMA_RING_CFG_CACHE, Mach.cachedWrite_kept, Mach.fabWrite_kept, Mach.chIdle_kept, when_kept, report_kept, foldl_kept]
theorem Mach.chFinish_kept {m : Mach} (n : DmaCh) (e : DmaEnd) (pcal : P .cal) (pdma : P .dma) (rDMA_CH_STAT : ∀ i, i < 16 → R (REG_DMA_CH_STAT i)) (rDMA_STAT : R REG_DMA_STAT) (hm : Kept P R m0 m) : Kept P R m0 (Mach.chFinish m n e) := by
  grind [Mach.chFinish, Mach.setHold_kept, Mach.chStop_kept, Mach.chComplete_kept, foldl_kept]
theorem Mach.chHalt_kept {m : Mach} (n : DmaCh) (cause : Nat) (addr : Nat) (preports : P .reports) (pcal : P .cal) (pdma : P .dma) (rDMA_CH_ADDRHI : ∀ i, i < 16 → R (REG_DMA_CH_ADDRHI i)) (rDMA_CH_ADDRLO : ∀ i, i < 16 → R (REG_DMA_CH_ADDRLO i)) (rDMA_CH_HALT : ∀ i, i < 16 → R (REG_DMA_CH_HALT i)) (rDMA_CH_STAT : ∀ i, i < 16 → R (REG_DMA_CH_STAT i)) (rDMA_STAT : R REG_DMA_STAT) (hm : Kept P R m0 m) : Kept P R m0 (Mach.chHalt m n cause addr) := by
  unfold Mach.chHalt
  repeat' (first | with_reducible assumption | split | with_reducible apply Mach.chState_kept | with_reducible apply Mach.setHold_kept | with_reducible apply Mach.chStop_kept | with_reducible apply when_kept | with_reducible apply set_kept | with_reducible apply report_kept | with_reducible apply Mach.setBitAt_kept | with_reducible apply foldl_kept | dsimp only | intro _ _ _ | intro _ _ | intro _ | grind [DMA_CH_HALT_VALID, DMA_CH_HALT_CAUSE, DMA_CH_HALT_PORT, DMA_CH_ADDRLO_ADDR, DMA_CH_ADDRHI_ADDR, DMA_STAT_HALTED])
theorem Mach.chApply_kept {m : Mach} (n : DmaCh) (s : DmaStop) (preports : P .reports) (pcal : P .cal) (pdma : P .dma) (rDMA_CH_ADDRHI : ∀ i, i < 16 → R (REG_DMA_CH_ADDRHI i)) (rDMA_CH_ADDRLO : ∀ i, i < 16 → R (REG_DMA_CH_ADDRLO i)) (rDMA_CH_HALT : ∀ i, i < 16 → R (REG_DMA_CH_HALT i)) (rDMA_CH_STAT : ∀ i, i < 16 → R (REG_DMA_CH_STAT i)) (rDMA_STAT : R REG_DMA_STAT) (hm : Kept P R m0 m) : Kept P R m0 (Mach.chApply m n s) := by
  unfold Mach.chApply
  repeat' (first | with_reducible assumption | split | with_reducible apply Mach.chFinish_kept | with_reducible apply Mach.chHalt_kept | with_reducible apply foldl_kept | with_reducible apply when_kept | dsimp only | intro _ _ _ | intro _ _ | intro _ | grind [])
theorem Mach.chMoved_kept {m : Mach} (n : DmaCh) (k : Nat) (pdma : P .dma) (rDMA_CH_MOVED : ∀ i, i < 16 → R (REG_DMA_CH_MOVED i)) (hm : Kept P R m0 m) : Kept P R m0 (Mach.chMoved m n k) := by
  grind [Mach.chMoved, DMA_CH_MOVED_MOVED, set_kept, Mach.setHold_kept, foldl_kept]
theorem Mach.extentAt_kept (d : DmaDesc) (pos : Nat) (a : Nat) (x3 : Nat) (x4 : Nat) {x5 : Mach} (preports : P .reports) (pout : P .out) (pbuf : P .buf) (rBUF_CNT : R REG_BUF_CNT) (rBUF_ERR : R REG_BUF_ERR) (rBUF_FIRST : R REG_BUF_FIRST) (rCCH_MISS : R REG_CCH_MISS) (hx5 : Kept P R m0 x5) : Kept P R m0 (Mach.extentAt d pos a x3 x4 x5).2 := by
  induction a generalizing x3 x4 x5 with
  | zero => exact hx5
  | succ fuel ih =>
    have h1 := Mach.listRead_kept d.lcache (d.idxAddr + 8 * x3) 8 preports pout pbuf rBUF_CNT rBUF_ERR rBUF_FIRST rCCH_MISS hx5
    unfold Mach.extentAt
    grind
theorem Mach.hostAt_kept {m : Mach} (d : DmaDesc) (pos : Nat) (preports : P .reports) (pout : P .out) (pbuf : P .buf) (rBUF_CNT : R REG_BUF_CNT) (rBUF_ERR : R REG_BUF_ERR) (rBUF_FIRST : R REG_BUF_FIRST) (rCCH_MISS : R REG_CCH_MISS) (hm : Kept P R m0 m) : Kept P R m0 (Mach.hostAt m d pos).2 := by
  grind [Mach.hostAt, Mach.extentAt_kept, Mach.listRead_kept, foldl_kept]
theorem Mach.sectorBuffer_kept {m : Mach} (d : DmaDesc) (k : Nat) (preports : P .reports) (pout : P .out) (pbuf : P .buf) (rBUF_CNT : R REG_BUF_CNT) (rBUF_ERR : R REG_BUF_ERR) (rBUF_FIRST : R REG_BUF_FIRST) (rCCH_MISS : R REG_CCH_MISS) (hm : Kept P R m0 m) : Kept P R m0 (Mach.sectorBuffer m d k).2 := by
  grind [Mach.sectorBuffer, POOL_CFG_EN, Mach.listRead_kept, foldl_kept]
theorem Mach.readLines_kept {m : Mach} (line : Nat) (n : Nat) (preports : P .reports) (pout : P .out) (pbuf : P .buf) (rBUF_CNT : R REG_BUF_CNT) (rBUF_ERR : R REG_BUF_ERR) (rBUF_FIRST : R REG_BUF_FIRST) (rCCH_MISS : R REG_CCH_MISS) (hm : Kept P R m0 m) : Kept P R m0 (Mach.readLines m line n).2 := by
  unfold Mach.readLines
  exact foldl_pair_kept (fun p x h => Mach.fabRead_kept _ preports pout pbuf rBUF_CNT rBUF_ERR rBUF_FIRST rCCH_MISS h) hm
theorem Mach.readBytesAt_kept {m : Mach} (a : Nat) (n : Nat) (preports : P .reports) (pout : P .out) (pbuf : P .buf) (rBUF_CNT : R REG_BUF_CNT) (rBUF_ERR : R REG_BUF_ERR) (rBUF_FIRST : R REG_BUF_FIRST) (rCCH_MISS : R REG_CCH_MISS) (hm : Kept P R m0 m) : Kept P R m0 (Mach.readBytesAt m a n).2 := by
  grind [Mach.readBytesAt, Mach.readLines_kept, foldl_kept]
theorem Mach.readSector_kept {m : Mach} (p : PoolId) (i : Nat) (preports : P .reports) (pout : P .out) (pbuf : P .buf) (rBUF_CNT : R REG_BUF_CNT) (rBUF_ERR : R REG_BUF_ERR) (rBUF_FIRST : R REG_BUF_FIRST) (rCCH_MISS : R REG_CCH_MISS) (hm : Kept P R m0 m) : Kept P R m0 (Mach.readSector m p i).2 := by
  grind [Mach.readSector, Mach.readLines_kept, foldl_kept]
theorem Mach.askEntries_kept {m : Mach} (c : DmaCh) (d : DmaDesc) (pos : Nat) (n : Nat) (preports : P .reports) (pout : P .out) (pcal : P .cal) (pbuf : P .buf) (hm : Kept P R m0 m) : Kept P R m0 (Mach.askEntries m c d pos n) := by
  grind [Mach.askEntries, Mach.chDemand_kept, foldl_kept]
theorem Mach.askSector_kept {m : Mach} (c : DmaCh) (d : DmaDesc) (k : Nat) (preports : P .reports) (pout : P .out) (pcal : P .cal) (pbuf : P .buf) (rBUF_CNT : R REG_BUF_CNT) (rBUF_ERR : R REG_BUF_ERR) (rBUF_FIRST : R REG_BUF_FIRST) (rCCH_MISS : R REG_CCH_MISS) (hm : Kept P R m0 m) : Kept P R m0 (Mach.askSector m c d k) := by
  grind [Mach.askSector, Mach.chDemand_kept, Mach.sectorBuffer_kept, foldl_kept]
theorem Mach.beginUnit_kept {m : Mach} (n : DmaCh) (preports : P .reports) (pout : P .out) (pcal : P .cal) (pbuf : P .buf) (pdma : P .dma) (rBUF_CNT : R REG_BUF_CNT) (rBUF_ERR : R REG_BUF_ERR) (rBUF_FIRST : R REG_BUF_FIRST) (rCCH_MISS : R REG_CCH_MISS) (hm : Kept P R m0 m) : Kept P R m0 (Mach.beginUnit m n) := by
  grind [Mach.beginUnit, Mach.setHold_kept, Mach.askEntries_kept, Mach.chDemand_kept, Mach.askSector_kept, foldl_kept]
theorem Mach.unitDone_kept {m : Mach} (n : DmaCh) (preports : P .reports) (pout : P .out) (pcal : P .cal) (pbuf : P .buf) (pdma : P .dma) (rBUF_CNT : R REG_BUF_CNT) (rBUF_ERR : R REG_BUF_ERR) (rBUF_FIRST : R REG_BUF_FIRST) (rCCH_MISS : R REG_CCH_MISS) (rDMA_CH_STAT : ∀ i, i < 16 → R (REG_DMA_CH_STAT i)) (rDMA_STAT : R REG_DMA_STAT) (hm : Kept P R m0 m) : Kept P R m0 (Mach.unitDone m n) := by
  grind [Mach.unitDone, Mach.chFinish_kept, Mach.beginUnit_kept, foldl_kept]
theorem Mach.sendNext_kept {m : Mach} (n : DmaCh) (h : DmaHold) (preports : P .reports) (pout : P .out) (pcal : P .cal) (pbuf : P .buf) (pdma : P .dma) (rBUF_CNT : R REG_BUF_CNT) (rBUF_ERR : R REG_BUF_ERR) (rBUF_FIRST : R REG_BUF_FIRST) (rCCH_MISS : R REG_CCH_MISS) (rDMA_CH_ADDRHI : ∀ i, i < 16 → R (REG_DMA_CH_ADDRHI i)) (rDMA_CH_ADDRLO : ∀ i, i < 16 → R (REG_DMA_CH_ADDRLO i)) (rDMA_CH_HALT : ∀ i, i < 16 → R (REG_DMA_CH_HALT i)) (rDMA_CH_MOVED : ∀ i, i < 16 → R (REG_DMA_CH_MOVED i)) (rDMA_CH_STAT : ∀ i, i < 16 → R (REG_DMA_CH_STAT i)) (rDMA_STAT : R REG_DMA_STAT) (rHIF_LINK : ∀ i, i < 2 → R (REG_HIF_LINK i)) (hm : Kept P R m0 m) : Kept P R m0 (Mach.sendNext m n h) := by
  have h1 := Mach.hostAt_kept h.desc h.moved (by assumption) (by assumption) (by assumption) (by assumption) (by assumption) (by assumption) (by assumption) (hm)
  have h2 : ∀ (m : Mach) (k : Nat), Kept P R m0 m → Kept P R m0 ((m.setHold n fun h => { h with out := h.out.drop k }).chMoved n k) := fun m k h => Mach.chMoved_kept _ _ (by assumption) (by assumption) (Mach.setHold_kept _ _ (by assumption) (h))
  unfold Mach.sendNext
  dsimp only
  split
  · next he =>
    rw [he] at h1
    exact Mach.chFinish_kept _ _ (by assumption) (by assumption) (by assumption) (by assumption) (h1)
  · next he =>
    rw [he] at h1
    exact Mach.chHalt_kept _ _ _ (by assumption) (by assumption) (by assumption) (by assumption) (by assumption) (by assumption) (by assumption) (by assumption) (h1)
  · next he =>
    rw [he] at h1
    exact ite_kept (Mach.unitDone_kept _ (by assumption) (by assumption) (by assumption) (by assumption) (by assumption) (by assumption) (by assumption) (by assumption) (by assumption) (by assumption) (by assumption) (h2 _ _ h1)) (h2 _ _ h1)
  · next he =>
    rw [he] at h1
    exact ite_kept (Mach.unitDone_kept _ (by assumption) (by assumption) (by assumption) (by assumption) (by assumption) (by assumption) (by assumption) (by assumption) (by assumption) (by assumption) (by assumption) (h2 _ _ (Mach.setHold_kept _ _ (by assumption) (Mach.tlp_kept _ _ (by assumption) (by assumption) (h1))))) (h2 _ _ (Mach.setHold_kept _ _ (by assumption) (Mach.tlp_kept _ _ (by assumption) (by assumption) (h1))))
theorem Mach.stopAfter_kept {m : Mach} (n : DmaCh) (h : DmaHold) (s : DmaStop) (preports : P .reports) (pcal : P .cal) (pdma : P .dma) (rDMA_CH_ADDRHI : ∀ i, i < 16 → R (REG_DMA_CH_ADDRHI i)) (rDMA_CH_ADDRLO : ∀ i, i < 16 → R (REG_DMA_CH_ADDRLO i)) (rDMA_CH_HALT : ∀ i, i < 16 → R (REG_DMA_CH_HALT i)) (rDMA_CH_STAT : ∀ i, i < 16 → R (REG_DMA_CH_STAT i)) (rDMA_STAT : R REG_DMA_STAT) (hm : Kept P R m0 m) : Kept P R m0 (Mach.stopAfter m n h s) := by
  grind [Mach.stopAfter, Mach.chApply_kept, Mach.chDemand_kept, Mach.setHold_kept, foldl_kept]
theorem Mach.readNext_kept {m : Mach} (n : DmaCh) (h : DmaHold) (preports : P .reports) (pout : P .out) (pcal : P .cal) (pbuf : P .buf) (pdma : P .dma) (rBUF_CNT : R REG_BUF_CNT) (rBUF_ERR : R REG_BUF_ERR) (rBUF_FIRST : R REG_BUF_FIRST) (rCCH_MISS : R REG_CCH_MISS) (rDMA_CH_ADDRHI : ∀ i, i < 16 → R (REG_DMA_CH_ADDRHI i)) (rDMA_CH_ADDRLO : ∀ i, i < 16 → R (REG_DMA_CH_ADDRLO i)) (rDMA_CH_HALT : ∀ i, i < 16 → R (REG_DMA_CH_HALT i)) (rDMA_CH_STAT : ∀ i, i < 16 → R (REG_DMA_CH_STAT i)) (rDMA_STAT : R REG_DMA_STAT) (rHIF_LINK : ∀ i, i < 2 → R (REG_HIF_LINK i)) (hm : Kept P R m0 m) : Kept P R m0 (Mach.readNext m n h) := by
  grind [Mach.readNext, Mach.hostAt_kept, Mach.stopAfter_kept, Mach.setHold_kept, Mach.tlp_kept, foldl_kept]
theorem Mach.pumpHost_kept (a : Nat) {x1 : Mach} (preports : P .reports) (pout : P .out) (pcal : P .cal) (pbuf : P .buf) (pdma : P .dma) (rBUF_CNT : R REG_BUF_CNT) (rBUF_ERR : R REG_BUF_ERR) (rBUF_FIRST : R REG_BUF_FIRST) (rCCH_MISS : R REG_CCH_MISS) (rDMA_CH_ADDRHI : ∀ i, i < 16 → R (REG_DMA_CH_ADDRHI i)) (rDMA_CH_ADDRLO : ∀ i, i < 16 → R (REG_DMA_CH_ADDRLO i)) (rDMA_CH_HALT : ∀ i, i < 16 → R (REG_DMA_CH_HALT i)) (rDMA_CH_MOVED : ∀ i, i < 16 → R (REG_DMA_CH_MOVED i)) (rDMA_CH_STAT : ∀ i, i < 16 → R (REG_DMA_CH_STAT i)) (rDMA_STAT : R REG_DMA_STAT) (rHIF_LINK : ∀ i, i < 2 → R (REG_HIF_LINK i)) (hx1 : Kept P R m0 x1) : Kept P R m0 (Mach.pumpHost a x1) := by
  induction a generalizing x1 with
  | zero => unfold Mach.pumpHost; exact hx1
  | succ fuel ih =>
    unfold Mach.pumpHost
    split
    · exact hx1
    · dsimp only
      split
      · exact Mach.setDma_kept _ pdma hx1
      · refine ih ?_
        split
        · exact Mach.readNext_kept _ _ (by assumption) (by assumption) (by assumption) (by assumption) (by assumption) (by assumption) (by assumption) (by assumption) (by assumption) (by assumption) (by assumption) (by assumption) (by assumption) (by assumption) (by assumption) (Mach.setDma_kept _ pdma hx1)
        · exact Mach.sendNext_kept _ _ (by assumption) (by assumption) (by assumption) (by assumption) (by assumption) (by assumption) (by assumption) (by assumption) (by assumption) (by assumption) (by assumption) (by assumption) (by assumption) (by assumption) (by assumption) (by assumption) (Mach.setDma_kept _ pdma hx1)
theorem Mach.pump_kept {m : Mach} (preports : P .reports) (pout : P .out) (pcal : P .cal) (pbuf : P .buf) (pdma : P .dma) (rBUF_CNT : R REG_BUF_CNT) (rBUF_ERR : R REG_BUF_ERR) (rBUF_FIRST : R REG_BUF_FIRST) (rCCH_MISS : R REG_CCH_MISS) (rDMA_CH_ADDRHI : ∀ i, i < 16 → R (REG_DMA_CH_ADDRHI i)) (rDMA_CH_ADDRLO : ∀ i, i < 16 → R (REG_DMA_CH_ADDRLO i)) (rDMA_CH_HALT : ∀ i, i < 16 → R (REG_DMA_CH_HALT i)) (rDMA_CH_MOVED : ∀ i, i < 16 → R (REG_DMA_CH_MOVED i)) (rDMA_CH_STAT : ∀ i, i < 16 → R (REG_DMA_CH_STAT i)) (rDMA_STAT : R REG_DMA_STAT) (rHIF_LINK : ∀ i, i < 2 → R (REG_HIF_LINK i)) (hm : Kept P R m0 m) : Kept P R m0 (Mach.pump m) := by
  grind [Mach.pump, Mach.pumpHost_kept, foldl_kept]
theorem Mach.taken_kept {m : Mach} (n : DmaCh) (h : DmaHold) (preports : P .reports) (pout : P .out) (pcal : P .cal) (pbuf : P .buf) (pdma : P .dma) (rBUF_CNT : R REG_BUF_CNT) (rBUF_ERR : R REG_BUF_ERR) (rBUF_FIRST : R REG_BUF_FIRST) (rCCH_MISS : R REG_CCH_MISS) (rDMA_CH_ADDRHI : ∀ i, i < 16 → R (REG_DMA_CH_ADDRHI i)) (rDMA_CH_ADDRLO : ∀ i, i < 16 → R (REG_DMA_CH_ADDRLO i)) (rDMA_CH_HALT : ∀ i, i < 16 → R (REG_DMA_CH_HALT i)) (rDMA_CH_MOVED : ∀ i, i < 16 → R (REG_DMA_CH_MOVED i)) (rDMA_CH_STAT : ∀ i, i < 16 → R (REG_DMA_CH_STAT i)) (rDMA_ERR : R REG_DMA_ERR) (rDMA_RING_HEAD : ∀ i, i < 4 → R (REG_DMA_RING_HEAD i)) (rDMA_STAT : R REG_DMA_STAT) (hm : Kept P R m0 m) : Kept P R m0 (Mach.taken m n h) := by
  grind [Mach.taken, DMA_RING_CFG_CACHE, DMA_RING_HEAD_HEAD, DMA_ERR_NOTOWN, Mach.attrRead_kept, set_kept, Mach.chState_kept, Mach.setHold_kept, Mach.chHalt_kept, flagEvent_kept, Mach.chIdle_kept, Mach.chComplete_kept, Mach.beginUnit_kept, foldl_kept]
theorem dmaDescTake_kept (p : DmaLevel) {m : Mach} (preports : P .reports) (pout : P .out) (pcal : P .cal) (pbuf : P .buf) (pdma : P .dma) (rBUF_CNT : R REG_BUF_CNT) (rBUF_ERR : R REG_BUF_ERR) (rBUF_FIRST : R REG_BUF_FIRST) (rCCH_MISS : R REG_CCH_MISS) (rDMA_CH_ADDRHI : ∀ i, i < 16 → R (REG_DMA_CH_ADDRHI i)) (rDMA_CH_ADDRLO : ∀ i, i < 16 → R (REG_DMA_CH_ADDRLO i)) (rDMA_CH_HALT : ∀ i, i < 16 → R (REG_DMA_CH_HALT i)) (rDMA_CH_MOVED : ∀ i, i < 16 → R (REG_DMA_CH_MOVED i)) (rDMA_CH_STAT : ∀ i, i < 16 → R (REG_DMA_CH_STAT i)) (rDMA_ERR : R REG_DMA_ERR) (rDMA_RING_HEAD : ∀ i, i < 4 → R (REG_DMA_RING_HEAD i)) (rDMA_STAT : R REG_DMA_STAT) (rHIF_LINK : ∀ i, i < 2 → R (REG_HIF_LINK i)) (hm : Kept P R m0 m) : Kept P R m0 (dmaDescTake p m) := by
  unfold dmaDescTake
  repeat' (first | with_reducible assumption | split | with_reducible apply Mach.pump_kept | with_reducible apply Mach.taken_kept | with_reducible apply set_kept | with_reducible apply Mach.setDma_kept | with_reducible apply Mach.chDemand_kept | with_reducible apply Mach.chState_kept | with_reducible apply Mach.setBitAt_kept | with_reducible apply foldl_kept | with_reducible apply when_kept | dsimp only | intro _ _ _ | intro _ _ | intro _ | grind [DMA_RING_HEAD_HEAD, DMA_CH_CFG_EN, DMA_CTRL_EN, DMA_RING_TAIL_TAIL, DMA_CH_STAT_RING, DMA_CH_STAT_SLOT, DMA_STAT_ACTIVE])
theorem Mach.checkSector_kept {m : Mach} (n : DmaCh) (d : DmaDesc) (k : Nat) (preports : P .reports) (pout : P .out) (pcal : P .cal) (pbuf : P .buf) (pdma : P .dma) (rBUF_CNT : R REG_BUF_CNT) (rBUF_ERR : R REG_BUF_ERR) (rBUF_FIRST : R REG_BUF_FIRST) (rCCH_MISS : R REG_CCH_MISS) (rDMA_CH_ADDRHI : ∀ i, i < 16 → R (REG_DMA_CH_ADDRHI i)) (rDMA_CH_ADDRLO : ∀ i, i < 16 → R (REG_DMA_CH_ADDRLO i)) (rDMA_CH_HALT : ∀ i, i < 16 → R (REG_DMA_CH_HALT i)) (rDMA_CH_STAT : ∀ i, i < 16 → R (REG_DMA_CH_STAT i)) (rDMA_STAT : R REG_DMA_STAT) (hm : Kept P R m0 m) : Kept P R m0 (Mach.checkSector m n d k) := by
  grind [Mach.checkSector, Mach.sectorBuffer_kept, Mach.chHalt_kept, Mach.chFinish_kept, Mach.readSector_kept, Mach.setHold_kept, foldl_kept]
theorem Mach.readBurst_kept {m : Mach} (n : DmaCh) (d : DmaDesc) (moved : Nat) (preports : P .reports) (pout : P .out) (pcal : P .cal) (pbuf : P .buf) (pdma : P .dma) (rBUF_CNT : R REG_BUF_CNT) (rBUF_ERR : R REG_BUF_ERR) (rBUF_FIRST : R REG_BUF_FIRST) (rCCH_MISS : R REG_CCH_MISS) (rDMA_CH_ADDRHI : ∀ i, i < 16 → R (REG_DMA_CH_ADDRHI i)) (rDMA_CH_ADDRLO : ∀ i, i < 16 → R (REG_DMA_CH_ADDRLO i)) (rDMA_CH_HALT : ∀ i, i < 16 → R (REG_DMA_CH_HALT i)) (rDMA_CH_STAT : ∀ i, i < 16 → R (REG_DMA_CH_STAT i)) (rDMA_STAT : R REG_DMA_STAT) (hm : Kept P R m0 m) : Kept P R m0 (Mach.readBurst m n d moved) := by
  grind [Mach.readBurst, Mach.readBytesAt_kept, Mach.chHalt_kept, Mach.setHold_kept, foldl_kept]
theorem Mach.copyBurst_kept {m : Mach} (n : DmaCh) (d : DmaDesc) (moved : Nat) (preports : P .reports) (pout : P .out) (pcal : P .cal) (pbuf : P .buf) (pdma : P .dma) (rBUF_CNT : R REG_BUF_CNT) (rBUF_ERR : R REG_BUF_ERR) (rBUF_FIRST : R REG_BUF_FIRST) (rCCH_MISS : R REG_CCH_MISS) (rDMA_CH_ADDRHI : ∀ i, i < 16 → R (REG_DMA_CH_ADDRHI i)) (rDMA_CH_ADDRLO : ∀ i, i < 16 → R (REG_DMA_CH_ADDRLO i)) (rDMA_CH_HALT : ∀ i, i < 16 → R (REG_DMA_CH_HALT i)) (rDMA_CH_MOVED : ∀ i, i < 16 → R (REG_DMA_CH_MOVED i)) (rDMA_CH_STAT : ∀ i, i < 16 → R (REG_DMA_CH_STAT i)) (rDMA_STAT : R REG_DMA_STAT) (hm : Kept P R m0 m) : Kept P R m0 (Mach.copyBurst m n d moved) := by
  grind [Mach.copyBurst, Mach.readBytesAt_kept, Mach.chHalt_kept, Mach.unitDone_kept, Mach.chMoved_kept, Mach.writeBytes_kept, foldl_kept]
theorem Mach.storeSector_kept {m : Mach} (n : DmaCh) (d : DmaDesc) (k : Nat) (host : List Byte) (preports : P .reports) (pout : P .out) (pcal : P .cal) (pbuf : P .buf) (pdma : P .dma) (rBUF_CNT : R REG_BUF_CNT) (rBUF_ERR : R REG_BUF_ERR) (rBUF_FIRST : R REG_BUF_FIRST) (rCCH_MISS : R REG_CCH_MISS) (rDMA_CH_ADDRHI : ∀ i, i < 16 → R (REG_DMA_CH_ADDRHI i)) (rDMA_CH_ADDRLO : ∀ i, i < 16 → R (REG_DMA_CH_ADDRLO i)) (rDMA_CH_HALT : ∀ i, i < 16 → R (REG_DMA_CH_HALT i)) (rDMA_CH_MOVED : ∀ i, i < 16 → R (REG_DMA_CH_MOVED i)) (rDMA_CH_STAT : ∀ i, i < 16 → R (REG_DMA_CH_STAT i)) (rDMA_STAT : R REG_DMA_STAT) (hm : Kept P R m0 m) : Kept P R m0 (Mach.storeSector m n d k host) := by
  have h1 := Mach.sectorBuffer_kept d k preports pout pbuf rBUF_CNT rBUF_ERR rBUF_FIRST rCCH_MISS hm
  unfold Mach.storeSector
  generalize m.sectorBuffer d k = q at h1 ⊢
  obtain ⟨⟨o, f⟩, m⟩ := q
  replace h1 : Kept P R m0 m := h1
  cases f with
  | some a => repeat' (first | with_reducible assumption | split | with_reducible apply Mach.sectorBuffer_kept | with_reducible apply Mach.chHalt_kept | with_reducible apply Mach.chFinish_kept | with_reducible apply Mach.readLines_kept | with_reducible apply Mach.writeBytes_kept | with_reducible apply Mach.chMoved_kept | with_reducible apply Mach.setHold_kept | with_reducible apply Mach.unitDone_kept | with_reducible apply foldl_kept | with_reducible apply when_kept | dsimp only | intro _ _ | intro _ | grind [])
  | none =>
    cases o with
    | none => repeat' (first | with_reducible assumption | split | with_reducible apply Mach.sectorBuffer_kept | with_reducible apply Mach.chHalt_kept | with_reducible apply Mach.chFinish_kept | with_reducible apply Mach.readLines_kept | with_reducible apply Mach.writeBytes_kept | with_reducible apply Mach.chMoved_kept | with_reducible apply Mach.setHold_kept | with_reducible apply Mach.unitDone_kept | with_reducible apply foldl_kept | with_reducible apply when_kept | dsimp only | intro _ _ | intro _ | grind [])
    | some pi =>
      obtain ⟨p, i⟩ := pi
      dsimp only
      have h2 : Kept P R m0 (if d.piOnly = true then m.readLines (m.pageAddr p i / 64) 64 else (([], none), m)).2 := by
        split
        · exact Mach.readLines_kept _ _ preports pout pbuf rBUF_CNT rBUF_ERR rBUF_FIRST rCCH_MISS h1
        · exact h1
      generalize (if d.piOnly = true then m.readLines (m.pageAddr p i / 64) 64 else (([], none), m)) = q at h2 ⊢
      obtain ⟨⟨old, bad⟩, m⟩ := q
      replace h2 : Kept P R m0 m := h2
      cases bad
      all_goals dsimp only
      all_goals repeat' (first | with_reducible assumption | split | with_reducible apply Mach.sectorBuffer_kept | with_reducible apply Mach.chHalt_kept | with_reducible apply Mach.chFinish_kept | with_reducible apply Mach.readLines_kept | with_reducible apply Mach.writeBytes_kept | with_reducible apply Mach.chMoved_kept | with_reducible apply Mach.setHold_kept | with_reducible apply Mach.unitDone_kept | with_reducible apply foldl_kept | with_reducible apply when_kept | dsimp only | intro _ _ | intro _ | grind [])
theorem Mach.storeUnit_kept {m : Mach} (n : DmaCh) (h : DmaHold) (preports : P .reports) (pout : P .out) (pcal : P .cal) (pbuf : P .buf) (pdma : P .dma) (rBUF_CNT : R REG_BUF_CNT) (rBUF_ERR : R REG_BUF_ERR) (rBUF_FIRST : R REG_BUF_FIRST) (rCCH_MISS : R REG_CCH_MISS) (rDMA_CH_ADDRHI : ∀ i, i < 16 → R (REG_DMA_CH_ADDRHI i)) (rDMA_CH_ADDRLO : ∀ i, i < 16 → R (REG_DMA_CH_ADDRLO i)) (rDMA_CH_HALT : ∀ i, i < 16 → R (REG_DMA_CH_HALT i)) (rDMA_CH_MOVED : ∀ i, i < 16 → R (REG_DMA_CH_MOVED i)) (rDMA_CH_STAT : ∀ i, i < 16 → R (REG_DMA_CH_STAT i)) (rDMA_STAT : R REG_DMA_STAT) (hm : Kept P R m0 m) : Kept P R m0 (Mach.storeUnit m n h) := by
  grind [Mach.storeUnit, Mach.storeSector_kept, Mach.setHold_kept, Mach.chMoved_kept, Mach.writeBytes_kept, Mach.chApply_kept, Mach.unitDone_kept, foldl_kept]
theorem Mach.chStep_kept {m : Mach} (n : DmaCh) (preports : P .reports) (pout : P .out) (pcal : P .cal) (pbuf : P .buf) (pdma : P .dma) (rBUF_CNT : R REG_BUF_CNT) (rBUF_ERR : R REG_BUF_ERR) (rBUF_FIRST : R REG_BUF_FIRST) (rCCH_MISS : R REG_CCH_MISS) (rDMA_CH_ADDRHI : ∀ i, i < 16 → R (REG_DMA_CH_ADDRHI i)) (rDMA_CH_ADDRLO : ∀ i, i < 16 → R (REG_DMA_CH_ADDRLO i)) (rDMA_CH_HALT : ∀ i, i < 16 → R (REG_DMA_CH_HALT i)) (rDMA_CH_MOVED : ∀ i, i < 16 → R (REG_DMA_CH_MOVED i)) (rDMA_CH_STAT : ∀ i, i < 16 → R (REG_DMA_CH_STAT i)) (rDMA_STAT : R REG_DMA_STAT) (hm : Kept P R m0 m) : Kept P R m0 (Mach.chStep m n) := by
  grind [Mach.chStep, Mach.chStatus_kept, Mach.setHold_kept, Mach.storeUnit_kept, Mach.copyBurst_kept, Mach.checkSector_kept, Mach.readBurst_kept, foldl_kept]
theorem dmaSectorCheck_kept {m : Mach} (preports : P .reports) (pout : P .out) (pcal : P .cal) (pbuf : P .buf) (pdma : P .dma) (rBUF_CNT : R REG_BUF_CNT) (rBUF_ERR : R REG_BUF_ERR) (rBUF_FIRST : R REG_BUF_FIRST) (rCCH_MISS : R REG_CCH_MISS) (rDMA_CH_ADDRHI : ∀ i, i < 16 → R (REG_DMA_CH_ADDRHI i)) (rDMA_CH_ADDRLO : ∀ i, i < 16 → R (REG_DMA_CH_ADDRLO i)) (rDMA_CH_HALT : ∀ i, i < 16 → R (REG_DMA_CH_HALT i)) (rDMA_CH_MOVED : ∀ i, i < 16 → R (REG_DMA_CH_MOVED i)) (rDMA_CH_STAT : ∀ i, i < 16 → R (REG_DMA_CH_STAT i)) (rDMA_STAT : R REG_DMA_STAT) (rHIF_LINK : ∀ i, i < 2 → R (REG_HIF_LINK i)) (hm : Kept P R m0 m) : Kept P R m0 (dmaSectorCheck m) := by
  grind [dmaSectorCheck, Mach.pump_kept, Mach.chStep_kept, foldl_kept]
theorem Mach.hostReadFail_kept {m : Mach} (n : DmaCh) (h : DmaHold) (a : Nat) (preports : P .reports) (pcal : P .cal) (pdma : P .dma) (rDMA_CH_ADDRHI : ∀ i, i < 16 → R (REG_DMA_CH_ADDRHI i)) (rDMA_CH_ADDRLO : ∀ i, i < 16 → R (REG_DMA_CH_ADDRLO i)) (rDMA_CH_HALT : ∀ i, i < 16 → R (REG_DMA_CH_HALT i)) (rDMA_CH_STAT : ∀ i, i < 16 → R (REG_DMA_CH_STAT i)) (rDMA_STAT : R REG_DMA_STAT) (hm : Kept P R m0 m) : Kept P R m0 (Mach.hostReadFail m n h a) := by
  grind [Mach.hostReadFail, Mach.stopAfter_kept, foldl_kept]
theorem Mach.takeHost_kept {m : Mach} (n : DmaCh) (h : DmaHold) (a : Nat) (k : Nat) (bs : List Byte) (preports : P .reports) (pout : P .out) (pcal : P .cal) (pbuf : P .buf) (pdma : P .dma) (rBUF_CNT : R REG_BUF_CNT) (rBUF_ERR : R REG_BUF_ERR) (rBUF_FIRST : R REG_BUF_FIRST) (rCCH_MISS : R REG_CCH_MISS) (hm : Kept P R m0 m) : Kept P R m0 (Mach.takeHost m n h a k bs) := by
  grind [Mach.takeHost, Mach.setHold_kept, Mach.askSector_kept, Mach.chDemand_kept, foldl_kept]
theorem hostReadCompletion_kept (n : DmaCh) (data : Option (List Byte)) {m : Mach} (preports : P .reports) (pout : P .out) (pcal : P .cal) (pbuf : P .buf) (pdma : P .dma) (rBUF_CNT : R REG_BUF_CNT) (rBUF_ERR : R REG_BUF_ERR) (rBUF_FIRST : R REG_BUF_FIRST) (rCCH_MISS : R REG_CCH_MISS) (rDMA_CH_ADDRHI : ∀ i, i < 16 → R (REG_DMA_CH_ADDRHI i)) (rDMA_CH_ADDRLO : ∀ i, i < 16 → R (REG_DMA_CH_ADDRLO i)) (rDMA_CH_HALT : ∀ i, i < 16 → R (REG_DMA_CH_HALT i)) (rDMA_CH_MOVED : ∀ i, i < 16 → R (REG_DMA_CH_MOVED i)) (rDMA_CH_STAT : ∀ i, i < 16 → R (REG_DMA_CH_STAT i)) (rDMA_STAT : R REG_DMA_STAT) (rHIF_LINK : ∀ i, i < 2 → R (REG_HIF_LINK i)) (hm : Kept P R m0 m) : Kept P R m0 (hostReadCompletion n data m) := by
  unfold hostReadCompletion
  repeat' (first | with_reducible assumption | split | with_reducible apply Mach.pump_kept | with_reducible apply Mach.takeHost_kept | with_reducible apply Mach.hostReadFail_kept | with_reducible apply foldl_kept | with_reducible apply when_kept | dsimp only | intro _ _ _ | intro _ _ | intro _ | grind [])
theorem Mach.errMessage_kept {m : Mach} (p : PortId) (kind : Nat) (pout : P .out) (rHIF_LINK : ∀ i, i < 2 → R (REG_HIF_LINK i)) (hm : Kept P R m0 m) : Kept P R m0 (Mach.errMessage m p kind) := by
  grind [Mach.errMessage, when_kept, Mach.tlp_kept, foldl_kept]
theorem Mach.aerUncorr_kept {m : Mach} (p : PortId) (bit : Nat) (preports : P .reports) (pout : P .out) (phost : P .host) (rHIF_AERCNT : ∀ i, i < 2 → R (REG_HIF_AERCNT i)) (rHIF_LINK : ∀ i, i < 2 → R (REG_HIF_LINK i)) (hm : Kept P R m0 m) : Kept P R m0 (Mach.aerUncorr m p bit) := by
  grind [Mach.aerUncorr, HIF_AERCNT_UNCORR, when_kept, Mach.errMessage_kept, report_kept, incSat_kept, mk_host_kept, foldl_kept]
theorem Mach.aerCorrectable_kept {m : Mach} (p : PortId) (bit : Nat) (preports : P .reports) (pout : P .out) (phost : P .host) (rHIF_AERCNT : ∀ i, i < 2 → R (REG_HIF_AERCNT i)) (rHIF_LINK : ∀ i, i < 2 → R (REG_HIF_LINK i)) (hm : Kept P R m0 m) : Kept P R m0 (Mach.aerCorrectable m p bit) := by
  grind [Mach.aerCorrectable, HIF_AERCNT_CORR, when_kept, Mach.errMessage_kept, report_kept, incSat_kept, mk_host_kept, foldl_kept]
theorem completionTimeout_kept (n : DmaCh) {m : Mach} (preports : P .reports) (pout : P .out) (pcal : P .cal) (pdma : P .dma) (phost : P .host) (rDMA_CH_ADDRHI : ∀ i, i < 16 → R (REG_DMA_CH_ADDRHI i)) (rDMA_CH_ADDRLO : ∀ i, i < 16 → R (REG_DMA_CH_ADDRLO i)) (rDMA_CH_HALT : ∀ i, i < 16 → R (REG_DMA_CH_HALT i)) (rDMA_CH_STAT : ∀ i, i < 16 → R (REG_DMA_CH_STAT i)) (rDMA_STAT : R REG_DMA_STAT) (rHIF_AERCNT : ∀ i, i < 2 → R (REG_HIF_AERCNT i)) (rHIF_LINK : ∀ i, i < 2 → R (REG_HIF_LINK i)) (hm : Kept P R m0 m) : Kept P R m0 (completionTimeout n m) := by
  unfold completionTimeout
  repeat' (first | with_reducible assumption | split | with_reducible apply Mach.chHalt_kept | with_reducible apply Mach.aerUncorr_kept | with_reducible apply Mach.hostReadFail_kept | with_reducible apply foldl_kept | with_reducible apply when_kept | dsimp only | intro _ _ _ | intro _ _ | intro _ | grind [DMA_CH_STAT_STATE])
theorem readbackIssue_kept {m : Mach} (pout : P .out) (pdma : P .dma) (rDMA_CH_STAT : ∀ i, i < 16 → R (REG_DMA_CH_STAT i)) (rHIF_LINK : ∀ i, i < 2 → R (REG_HIF_LINK i)) (hm : Kept P R m0 m) : Kept P R m0 (readbackIssue m) := by
  unfold readbackIssue
  repeat' (first | with_reducible assumption | split | with_reducible apply Mach.setDma_kept | with_reducible apply Mach.setHold_kept | with_reducible apply Mach.chState_kept | with_reducible apply Mach.tlp_kept | with_reducible apply foldl_kept | with_reducible apply when_kept | dsimp only | intro _ _ _ | intro _ _ | intro _ | grind [DMA_CH_STAT_STATE])
theorem readbackComplete_kept (n : DmaCh) (ok : Bool) {m : Mach} (preports : P .reports) (pcal : P .cal) (pdma : P .dma) (rDMA_CH_ADDRHI : ∀ i, i < 16 → R (REG_DMA_CH_ADDRHI i)) (rDMA_CH_ADDRLO : ∀ i, i < 16 → R (REG_DMA_CH_ADDRLO i)) (rDMA_CH_HALT : ∀ i, i < 16 → R (REG_DMA_CH_HALT i)) (rDMA_CH_STAT : ∀ i, i < 16 → R (REG_DMA_CH_STAT i)) (rDMA_STAT : R REG_DMA_STAT) (hm : Kept P R m0 m) : Kept P R m0 (readbackComplete n ok m) := by
  grind [readbackComplete, DMA_CH_STAT_STATE, Mach.chComplete_kept, Mach.chHalt_kept, foldl_kept]
theorem Mach.ctrlIgnored_kept {m : Mach} (preports : P .reports) (rDMA_ERR : R REG_DMA_ERR) (hm : Kept P R m0 m) : Kept P R m0 (Mach.ctrlIgnored m) := by
  grind [Mach.ctrlIgnored, DMA_ERR_CTRL_IGN, flagEvent_kept, foldl_kept]
theorem Mach.chAbort_kept {m : Mach} (n : DmaCh) (h : DmaHold) (pcal : P .cal) (pdma : P .dma) (rDMA_CH_STAT : ∀ i, i < 16 → R (REG_DMA_CH_STAT i)) (rDMA_STAT : R REG_DMA_STAT) (hm : Kept P R m0 m) : Kept P R m0 (Mach.chAbort m n h) := by
  grind [Mach.chAbort, Mach.setHold_kept, Mach.chComplete_kept, foldl_kept]
theorem dmaChAbort_kept (n : DmaCh) {m : Mach} (preports : P .reports) (pcal : P .cal) (pdma : P .dma) (rDMA_CH_MOVED : ∀ i, i < 16 → R (REG_DMA_CH_MOVED i)) (rDMA_CH_STAT : ∀ i, i < 16 → R (REG_DMA_CH_STAT i)) (rDMA_ERR : R REG_DMA_ERR) (rDMA_STAT : R REG_DMA_STAT) (hm : Kept P R m0 m) : Kept P R m0 (dmaChAbort n m) := by
  grind [dmaChAbort, Mach.ctrlIgnored_kept, Mach.chAbort_kept, Mach.chIdle_kept, Mach.chComplete_kept, foldl_kept]
theorem dmaChRetry_kept (n : DmaCh) {m : Mach} (preports : P .reports) (pout : P .out) (pcal : P .cal) (pbuf : P .buf) (pdma : P .dma) (rBUF_CNT : R REG_BUF_CNT) (rBUF_ERR : R REG_BUF_ERR) (rBUF_FIRST : R REG_BUF_FIRST) (rCCH_MISS : R REG_CCH_MISS) (rDMA_CH_ADDRHI : ∀ i, i < 16 → R (REG_DMA_CH_ADDRHI i)) (rDMA_CH_ADDRLO : ∀ i, i < 16 → R (REG_DMA_CH_ADDRLO i)) (rDMA_CH_HALT : ∀ i, i < 16 → R (REG_DMA_CH_HALT i)) (rDMA_CH_MOVED : ∀ i, i < 16 → R (REG_DMA_CH_MOVED i)) (rDMA_CH_STAT : ∀ i, i < 16 → R (REG_DMA_CH_STAT i)) (rDMA_ERR : R REG_DMA_ERR) (rDMA_STAT : R REG_DMA_STAT) (rHIF_LINK : ∀ i, i < 2 → R (REG_HIF_LINK i)) (hm : Kept P R m0 m) : Kept P R m0 (dmaChRetry n m) := by
  unfold dmaChRetry
  repeat' (first | with_reducible assumption | split | with_reducible apply Mach.ctrlIgnored_kept | with_reducible apply Mach.setHold_kept | with_reducible apply Mach.pump_kept | with_reducible apply Mach.beginUnit_kept | with_reducible apply Mach.setBitAt_kept | with_reducible apply set_kept | with_reducible apply Mach.chState_kept | with_reducible apply foldl_kept | with_reducible apply when_kept | dsimp only | intro _ _ _ | intro _ _ | intro _ | grind [DMA_CH_MOVED_MOVED, DMA_STAT_HALTED])
theorem Mach.abortPort_kept {m : Mach} (p : Fin 2) (pcal : P .cal) (pdma : P .dma) (rDMA_CH_MOVED : ∀ i, i < 16 → R (REG_DMA_CH_MOVED i)) (rDMA_CH_STAT : ∀ i, i < 16 → R (REG_DMA_CH_STAT i)) (rDMA_STAT : R REG_DMA_STAT) (hm : Kept P R m0 m) : Kept P R m0 (Mach.abortPort m p) := by
  grind [Mach.abortPort, Mach.chIdle_kept, Mach.chComplete_kept, foldl_kept]
theorem dmaBlockWrite_kept (b0 : Bool) (b1 : Bool) {m : Mach} (pcal : P .cal) (pdma : P .dma) (rDMA_CH_MOVED : ∀ i, i < 16 → R (REG_DMA_CH_MOVED i)) (rDMA_CH_STAT : ∀ i, i < 16 → R (REG_DMA_CH_STAT i)) (rDMA_CTRL : R REG_DMA_CTRL) (rDMA_STAT : R REG_DMA_STAT) (hm : Kept P R m0 m) : Kept P R m0 (dmaBlockWrite b0 b1 m) := by
  grind [dmaBlockWrite, DMA_CTRL_BLOCK0, DMA_CTRL_BLOCK1, setFlag_kept, Mach.abortPort_kept, foldl_kept]
theorem dmaEnWrite_kept (en : Bool) {m : Mach} (rDMA_CTRL : R REG_DMA_CTRL) (hm : Kept P R m0 m) : Kept P R m0 (dmaEnWrite en m) := by
  grind [dmaEnWrite, DMA_CTRL_EN, setFlag_kept, foldl_kept]
theorem Mach.clearDma_kept {m : Mach} (pdma : P .dma) (hm : Kept P R m0 m) : Kept P R m0 (Mach.clearDma m) := by
  grind [Mach.clearDma, Mach.setDma_kept, foldl_kept]
end Sys2Proof.Machine
end

