-- ==== Sys2Proof/Laws/KeptFabric.lean ====
section
/-! SUPPORT. What the operations of Machine/Fabric.lean keep: for each, the parts and the registers it may change. -/
set_option Elab.async false
set_option linter.all false
namespace Sys2Proof.Machine
open Sys2Proof
variable {P : Part → Prop} {R : Nat → Prop} {m0 : Mach}
theorem Mach.syncFab_kept {m : Mach} (rCAL_STATUS : R REG_CAL_STATUS) (rFAB_PEND : ∀ i, i < 4 → R (REG_FAB_PEND i)) (rFAB_STATUS : R REG_FAB_STATUS) (hm : Kept P R m0 m) : Kept P R m0 (Mach.syncFab m) := by
  grind (splits := 30) (ematch := 12) (gen := 12) (instances := 8000) [Mach.syncFab, FAB_STATUS_INFLIGHT, FAB_STATUS_OLDEST_PORT, CAL_STATUS_FROZEN, CAL_CTRL_FREEZE, FAB_PEND_DEPTH0, FAB_PEND_DEPTH1, FAB_PEND_DEPTH2, FAB_PEND_DEPTH3, set_kept, setFlag_kept, foldl_mem_kept, List.mem_range]
theorem Mach.newFigure_kept {m : Mach} (debt : FabClass → Nat) (pcal : P .cal) (hm : Kept P R m0 m) : Kept P R m0 (Mach.newFigure m debt) := by
  grind [Mach.newFigure, Mach.setCal_kept, foldl_kept]
theorem Mach.makeLive_kept {m : Mach} (t : FabClass → Nat × Nat) (preports : P .reports) (rCAL_ERR : R REG_CAL_ERR) (rCAL_FRONT : ∀ i, i < 16 → R (REG_CAL_FRONT i)) (hm : Kept P R m0 m) : Kept P R m0 (Mach.makeLive m t) := by
  grind [Mach.makeLive, CAL_FRONT_GUAR, CAL_FRONT_CEIL, CAL_ERR_MAINT_FLOOR, set_kept, when_kept, flagEvent_kept, foldl_kept]
theorem Mach.swapValidate_kept {m : Mach} (preports : P .reports) (rCAL_ERR : R REG_CAL_ERR) (rCAL_FRONT : ∀ i, i < 16 → R (REG_CAL_FRONT i)) (rCAL_STATUS : R REG_CAL_STATUS) (hm : Kept P R m0 m) : Kept P R m0 (Mach.swapValidate m) := by
  grind [Mach.swapValidate, CAL_STATUS_SWAP_PENDING, CAL_BACK_GUAR, CAL_BACK_CEIL, CAL_ERR_SWAP_SUM, CAL_ERR_SWAP_ORDER, Mach.makeLive_kept, when_kept, flagEvent_kept, set_kept, foldl_kept]
theorem Mach.figureUse_kept {m : Mach} (rCAL_STATUS : R REG_CAL_STATUS) (rCAL_USE : ∀ i, i < 16 → R (REG_CAL_USE i)) (hm : Kept P R m0 m) : Kept P R m0 (Mach.figureUse m) := by
  grind [Mach.figureUse, CAL_USE_USED, CAL_USE_DEBT, CAL_USE_STARVED, CAL_STATUS_USE_VALID, set_kept, when_kept, incSat_kept, foldl_kept]
theorem Mach.firstFigure_kept {m : Mach} (pcal : P .cal) (rCAL_FIGNO : R REG_CAL_FIGNO) (hm : Kept P R m0 m) : Kept P R m0 (Mach.firstFigure m) := by
  grind [Mach.firstFigure, CAL_FIGNO_FIGURE, Mach.setCal_kept, Mach.newFigure_kept, set_kept, foldl_kept]
theorem figureBoundary_kept {m : Mach} (preports : P .reports) (pcal : P .cal) (rCAL_ERR : R REG_CAL_ERR) (rCAL_FIGNO : R REG_CAL_FIGNO) (rCAL_FRONT : ∀ i, i < 16 → R (REG_CAL_FRONT i)) (rCAL_STATUS : R REG_CAL_STATUS) (rCAL_USE : ∀ i, i < 16 → R (REG_CAL_USE i)) (hm : Kept P R m0 m) : Kept P R m0 (figureBoundary m) := by
  grind [figureBoundary, CAL_FIGNO_FIGURE, CAL_STATUS_SAVE_TABLE, Mach.figureUse_kept, incWrap_kept, Mach.makeLive_kept, set_kept, Mach.setCal_kept, Mach.swapValidate_kept, Mach.newFigure_kept, foldl_kept]
theorem releaseCycleReached_kept {m : Mach} (pcal : P .cal) (hm : Kept P R m0 m) : Kept P R m0 (releaseCycleReached m) := by
  grind [releaseCycleReached, Mach.setCal_kept, foldl_kept]
theorem Mach.enqueue_kept {m : Mach} (cls : FabClass) (r : BurstReq) (pcal : P .cal) (rCAL_STATUS : R REG_CAL_STATUS) (rFAB_PEND : ∀ i, i < 4 → R (REG_FAB_PEND i)) (rFAB_STATUS : R REG_FAB_STATUS) (hm : Kept P R m0 m) : Kept P R m0 (Mach.enqueue m cls r) := by
  grind [Mach.enqueue, Mach.syncFab_kept, Mach.setCal_kept, foldl_kept]
theorem fabricRequest_kept (port : Port) (tag : FabClass) (less1 : Fin 8) {m : Mach} (pcal : P .cal) (pdma : P .dma) (rCAL_STATUS : R REG_CAL_STATUS) (rFAB_PEND : ∀ i, i < 4 → R (REG_FAB_PEND i)) (rFAB_STATUS : R REG_FAB_STATUS) (hm : Kept P R m0 m) : Kept P R m0 (fabricRequest port tag less1 m) := by
  have h1 : ∀ d m', m.nextDemand port = some (d, m') → Kept P R m0 m' := by
    intro d m' h
    unfold Mach.nextDemand at h
    split at h
    · split at h
      · simp only [Option.map_eq_some_iff] at h
        obtain ⟨_, _, h⟩ := h
        injection h with _ h
        subst h
        exact Mach.setDma_kept _ pdma hm
      · cases h
    · simp only [Option.map_eq_some_iff] at h
      obtain ⟨_, _, h⟩ := h
      injection h with _ h
      subst h
      exact hm
  unfold fabricRequest
  split
  · exact hm
  · split
    · next d m' h => exact Mach.enqueue_kept _ _ (by assumption) (by assumption) (by assumption) (by assumption) (Mach.setCal_kept _ pcal (h1 _ _ h))
    · split
      · exact hm
      · exact Mach.enqueue_kept _ _ (by assumption) (by assumption) (by assumption) (by assumption) hm
theorem fabricGrant_kept {m : Mach} (pcal : P .cal) (rCAL_STATUS : R REG_CAL_STATUS) (rFAB_PEND : ∀ i, i < 4 → R (REG_FAB_PEND i)) (rFAB_STATUS : R REG_FAB_STATUS) (hm : Kept P R m0 m) : Kept P R m0 (fabricGrant m) := by
  grind [fabricGrant, CAL_CTRL_FREEZE, Mach.setCal_kept, Mach.syncFab_kept, foldl_kept]
theorem burstBoundary_kept (port : Port) {m : Mach} (pcal : P .cal) (rCAL_STATUS : R REG_CAL_STATUS) (rFAB_PEND : ∀ i, i < 4 → R (REG_FAB_PEND i)) (rFAB_STATUS : R REG_FAB_STATUS) (hm : Kept P R m0 m) : Kept P R m0 (burstBoundary port m) := by
  grind [burstBoundary, Mach.syncFab_kept, Mach.setCal_kept, foldl_kept]
theorem calFreeze_kept (b : Bool) {m : Mach} (rCAL_CTRL : R REG_CAL_CTRL) (rCAL_STATUS : R REG_CAL_STATUS) (rFAB_PEND : ∀ i, i < 4 → R (REG_FAB_PEND i)) (rFAB_STATUS : R REG_FAB_STATUS) (hm : Kept P R m0 m) : Kept P R m0 (calFreeze b m) := by
  grind [calFreeze, CAL_CTRL_FREEZE, Mach.syncFab_kept, setFlag_kept, foldl_kept]
theorem calSwap_kept {m : Mach} (rCAL_STATUS : R REG_CAL_STATUS) (hm : Kept P R m0 m) : Kept P R m0 (calSwap m) := by
  grind [calSwap, PWR_MODE_MODE, CAL_STATUS_SWAP_PENDING, set_kept, foldl_kept]
theorem calSwapCancel_kept {m : Mach} (rCAL_STATUS : R REG_CAL_STATUS) (hm : Kept P R m0 m) : Kept P R m0 (calSwapCancel m) := by
  grind [calSwapCancel, CAL_STATUS_SWAP_PENDING, set_kept, foldl_kept]
theorem calBackWrite_kept (n : FabClass) (w : Word) {m : Mach} (preports : P .reports) (rCAL_BACK : ∀ i, i < 16 → R (REG_CAL_BACK i)) (rCAL_ERR : R REG_CAL_ERR) (hm : Kept P R m0 m) : Kept P R m0 (calBackWrite n w m) := by
  grind [calBackWrite, CAL_STATUS_SWAP_PENDING, CAL_ERR_BACK_LOCKED, CAL_BACK_GUAR, CAL_BACK_CEIL, flagEvent_kept, set_kept, foldl_kept]
theorem fabricWatchdogHalf_kept {m : Mach} (preports : P .reports) (pcal : P .cal) (hm : Kept P R m0 m) : Kept P R m0 (fabricWatchdogHalf m) := by
  grind [fabricWatchdogHalf, report_kept, Mach.setCal_kept, foldl_kept]
theorem Mach.wdgLatch_kept {m : Mach} (rFAB_WDG_LAST : R REG_FAB_WDG_LAST) (hm : Kept P R m0 m) : Kept P R m0 (Mach.wdgLatch m) := by
  grind [Mach.wdgLatch, FAB_WDG_LAST_PORT, FAB_WDG_LAST_CLASS, FAB_WDG_LAST_VALID, FAB_WDG_LAST_COUNT, incSat_kept, set_kept, foldl_kept]
theorem Mach.saveTableDue_kept {m : Mach} (pcal : P .cal) (rCAL_STATUS : R REG_CAL_STATUS) (hm : Kept P R m0 m) : Kept P R m0 (Mach.saveTableDue m) := by
  grind [Mach.saveTableDue, CAL_STATUS_SWAP_PENDING, set_kept, Mach.setCal_kept, foldl_kept]
end Sys2Proof.Machine
end

