-- ==== Sys2Proof/Laws/KeptChannel.lean ====
section
/-! SUPPORT. What the operations of Machine/Channel.lean keep: for each, the parts and the registers it may change. -/
set_option Elab.async false
set_option linter.all false
namespace Sys2Proof.Machine
open Sys2Proof
variable {P : Part → Prop} {R : Nat → Prop} {m0 : Mach}
theorem Mach.setMedia_kept {m : Mach} (f : MediaState → MediaState) (pmedia : P .media) (hm : Kept P R m0 m) : Kept P R m0 (Mach.setMedia m f) := by
  grind [Mach.setMedia, mk_media_kept, foldl_kept]
theorem Mach.setChan_kept {m : Mach} (n : Stream) (f : ChanState → ChanState) (pmedia : P .media) (hm : Kept P R m0 m) : Kept P R m0 (Mach.setChan m n f) := by
  grind [Mach.setChan, Mach.setMedia_kept, foldl_kept]
theorem Mach.setSlot_kept {m : Mach} (n : Stream) (i : SampleIdx) (f : SampleSlot → SampleSlot) (pmedia : P .media) (hm : Kept P R m0 m) : Kept P R m0 (Mach.setSlot m n i f) := by
  grind [Mach.setSlot, Mach.setChan_kept, foldl_kept]
theorem Mach.syncSlots_kept {m : Mach} (n : Stream) (rCHN_SMEM : ∀ i, i < 8 → R (REG_CHN_SMEM i)) (hm : Kept P R m0 m) : Kept P R m0 (Mach.syncSlots m n) := by
  grind [Mach.syncSlots, CHN_SMEM_USED, CHN_SMEM_PINNED, CHN_SMEM_HIGH, set_kept, foldl_kept]
theorem Mach.freeSlot_kept {m : Mach} (n : Stream) (i : SampleIdx) (pmedia : P .media) (rCHN_SMEM : ∀ i, i < 8 → R (REG_CHN_SMEM i)) (hm : Kept P R m0 m) : Kept P R m0 (Mach.freeSlot m n i) := by
  grind [Mach.freeSlot, Mach.syncSlots_kept, Mach.setSlot_kept, foldl_kept]
theorem Mach.setLane_kept {m : Mach} (l : Lane) (f : LaneState → LaneState) (pmedia : P .media) (hm : Kept P R m0 m) : Kept P R m0 (Mach.setLane m l f) := by
  grind [Mach.setLane, Mach.setMedia_kept, foldl_kept]
theorem laneReady_kept (l : Lane) {m : Mach} (pfreeCtr : P .freeCtr) (rAFE_LANE_STAT : ∀ i, i < 16 → R (REG_AFE_LANE_STAT i)) (hm : Kept P R m0 m) : Kept P R m0 (laneReady l m) := by
  grind [laneReady, AFE_EN_LANE_EN, PWR_MODE_MODE, AFE_LANE_STAT_READY, AFE_LANE_CFG_AGC_EN, AFE_LANE_STAT_VGA, AFE_LANE_CFG_VGA_MAN, set_kept, nextFree_kept, foldl_kept]
theorem taSpanDetect_kept (l : Lane) (first : Nat) {m : Mach} (pmedia : P .media) (rAFE_LANE_STAT : ∀ i, i < 16 → R (REG_AFE_LANE_STAT i)) (hm : Kept P R m0 m) : Kept P R m0 (taSpanDetect l first m) := by
  grind [taSpanDetect, AFE_LANE_STAT_READY, AFE_LANE_STAT_TA, AFE_LANE_STAT_SATCNT, Mach.setLane_kept, set_kept, incSat_kept, foldl_kept]
theorem Mach.recordSpan_kept {m : Mach} (n : Stream) (first : Nat) (last : Nat) (preports : P .reports) (pmedia : P .media) (rCHN_CNT_TA : ∀ i, i < 8 → R (REG_CHN_CNT_TA i)) (hm : Kept P R m0 m) : Kept P R m0 (Mach.recordSpan m n first last) := by
  grind [Mach.recordSpan, CHN_CNT_TA_MERGED, CHN_CNT_TA_SPANS, Mach.setChan_kept, report_kept, incSat_kept, foldl_kept]
theorem taSpanEnd_kept (l : Lane) (last : Nat) (sat : Nat) {m : Mach} (preports : P .reports) (pmedia : P .media) (rAFE_LANE_STAT : ∀ i, i < 16 → R (REG_AFE_LANE_STAT i)) (rCHN_CNT_TA : ∀ i, i < 8 → R (REG_CHN_CNT_TA i)) (hm : Kept P R m0 m) : Kept P R m0 (taSpanEnd l last sat m) := by
  grind [taSpanEnd, AFE_LANE_STAT_TA, AFE_LANE_STAT_SATCNT, incSat_kept, set_kept, Mach.recordSpan_kept, Mach.setLane_kept, foldl_kept]
theorem taGainHoldEnd_kept (l : Lane) {m : Mach} (pmedia : P .media) (hm : Kept P R m0 m) : Kept P R m0 (taGainHoldEnd l m) := by
  grind [taGainHoldEnd, Mach.setLane_kept, foldl_kept]
theorem adaptWindowEnd_kept (n : Stream) (w : Samples) (errors : List Int) {m : Mach} (pmedia : P .media) (hm : Kept P R m0 m) : Kept P R m0 (adaptWindowEnd n w errors m) := by
  grind [adaptWindowEnd, CHN_CTRL_EN, CHN_CTRL_ADAPT, Mach.setChan_kept, foldl_kept]
theorem Mach.channelBoundary_kept {m : Mach} (n : Stream) (pmedia : P .media) (rCHN_TSTAT : ∀ i, i < 8 → R (REG_CHN_TSTAT i)) (hm : Kept P R m0 m) : Kept P R m0 (Mach.channelBoundary m n) := by
  grind [Mach.channelBoundary, CHN_CTRL_EN, CHN_CTRL_EQ_SET, CHN_TLOOP_FOLLOW, CHN_TSTAT_LOCK, CHN_TSTAT_PHASE, CHN_TSTAT_FOFF, Mach.setChan_kept, Mach.setLane_kept, set_kept, foldl_kept]
theorem Mach.recordOpen_kept {m : Mach} (n : Stream) (l : Lane) (preports : P .reports) (pmedia : P .media) (rCHN_CNT_TA : ∀ i, i < 8 → R (REG_CHN_CNT_TA i)) (hm : Kept P R m0 m) : Kept P R m0 (Mach.recordOpen m n l) := by
  grind [Mach.recordOpen, AFE_LANE_STAT_TA, Mach.recordSpan_kept, foldl_kept]
theorem Mach.gainLoop_kept {m : Mach} (l : Lane) (taps : Array Int) (delay : Nat) (xs : List Adc) (pfreeCtr : P .freeCtr) (rAFE_LANE_STAT : ∀ i, i < 16 → R (REG_AFE_LANE_STAT i)) (hm : Kept P R m0 m) : Kept P R m0 (Mach.gainLoop m l taps delay xs) := by
  grind [Mach.gainLoop, AFE_LANE_STAT_READY, AFE_LANE_CFG_AGC_EN, AFE_LANE_CFG_AGC_TARGET, AFE_LANE_STAT_VGA, nextFree_kept, set_kept, foldl_kept]
theorem Mach.fillSlot_kept {m : Mach} (n : Stream) (i : SampleIdx) (ring : Nat) (desc : SectorDesc) (samples : Samples) (ladder : Bool) (copy : Option Nat) (pfreeCtr : P .freeCtr) (preports : P .reports) (pmedia : P .media) (rAFE_LANE_STAT : ∀ i, i < 16 → R (REG_AFE_LANE_STAT i)) (rCHN_CNT_SECT : ∀ i, i < 8 → R (REG_CHN_CNT_SECT i)) (rCHN_CNT_TA : ∀ i, i < 8 → R (REG_CHN_CNT_TA i)) (rCHN_SMEM : ∀ i, i < 8 → R (REG_CHN_SMEM i)) (hm : Kept P R m0 m) : Kept P R m0 (Mach.fillSlot m n i ring desc samples ladder copy) := by
  unfold Mach.fillSlot
  repeat' (first | with_reducible assumption | split | with_reducible apply Mach.recordOpen_kept | with_reducible apply Mach.gainLoop_kept | with_reducible apply incSat_kept | with_reducible apply Mach.syncSlots_kept | with_reducible apply Mach.setSlot_kept | with_reducible apply foldl_kept | with_reducible apply when_kept | dsimp only | intro _ _ _ | intro _ _ | intro _ | grind [CHN_SKEW_DELAY_X, CHN_SKEW_DELAY_Y, AFE_LANE_STAT_SATCNT, CHN_CNT_SECT_CAPT])
theorem Mach.setFmt_kept {m : Mach} (n : Stream) (f : FmtState → FmtState) (pmedia : P .media) (hm : Kept P R m0 m) : Kept P R m0 (Mach.setFmt m n f) := by
  grind [Mach.setFmt, Mach.setMedia_kept, foldl_kept]
theorem Mach.itemStatus_kept {m : Mach} (n : Stream) (ring : Nat) (status : Nat) (result : Nat) (pmedia : P .media) (hm : Kept P R m0 m) : Kept P R m0 (Mach.itemStatus m n ring status result) := by
  grind [Mach.itemStatus, Mach.setFmt_kept, foldl_kept]
theorem Mach.endDesc_kept {m : Mach} (n : Stream) (ring : Nat) (status : Nat) (preports : P .reports) (pmedia : P .media) (rFMT_CNT_ABORT : ∀ i, i < 8 → R (REG_FMT_CNT_ABORT i)) (rFMT_CNT_MISS : ∀ i, i < 8 → R (REG_FMT_CNT_MISS i)) (rFMT_ERR : ∀ i, i < 8 → R (REG_FMT_ERR i)) (hm : Kept P R m0 m) : Kept P R m0 (Mach.endDesc m n ring status) := by
  unfold Mach.endDesc
  dsimp only
  repeat' split
  all_goals grind (splits := 30) (ematch := 12) (gen := 12) (instances := 8000) [FMT_CNT_MISS_MISSED, FMT_CNT_ABORT_TORN, FMT_CNT_ABORT_UNDERRUN, FMT_ERR_ZONE_MISMATCH, FMT_ERR_BADDESC, FMT_CNT_MISS_ENCERR, FMT_ERR_ENCERR, FMT_ERR_BUFERR, FMT_ERR_DMAP_OVF, Mach.itemStatus_kept, report_kept, incSat_kept, flagEvent_kept, foldl_kept]
theorem Mach.endReadRun_kept {m : Mach} (n : Stream) (pmedia : P .media) (rFMT_STAT : ∀ i, i < 8 → R (REG_FMT_STAT i)) (hm : Kept P R m0 m) : Kept P R m0 (Mach.endReadRun m n) := by
  grind [Mach.endReadRun, FMT_STAT_STATE, set_kept, Mach.setFmt_kept, foldl_kept]
theorem sectorCapture_kept (n : Stream) (samples : Samples) {m : Mach} (pfreeCtr : P .freeCtr) (preports : P .reports) (pmedia : P .media) (rAFE_LANE_STAT : ∀ i, i < 16 → R (REG_AFE_LANE_STAT i)) (rCHN_CNT_SECT : ∀ i, i < 8 → R (REG_CHN_CNT_SECT i)) (rCHN_CNT_TA : ∀ i, i < 8 → R (REG_CHN_CNT_TA i)) (rCHN_SMEM : ∀ i, i < 8 → R (REG_CHN_SMEM i)) (rFMT_CNT_ABORT : ∀ i, i < 8 → R (REG_FMT_CNT_ABORT i)) (rFMT_CNT_MISS : ∀ i, i < 8 → R (REG_FMT_CNT_MISS i)) (rFMT_ERR : ∀ i, i < 8 → R (REG_FMT_ERR i)) (rFMT_STAT : ∀ i, i < 8 → R (REG_FMT_STAT i)) (hm : Kept P R m0 m) : Kept P R m0 (sectorCapture n samples m) := by
  unfold sectorCapture
  dsimp only
  repeat' split
  all_goals grind (splits := 30) (ematch := 12) (gen := 12) (instances := 8000) [Mach.setFmt_kept, Mach.endReadRun_kept, Mach.fillSlot_kept, Mach.endDesc_kept, foldl_kept]
theorem syncSearchEnd_kept (n : Stream) (bits : List Bool) (phases : List Int) {m : Mach} (pmedia : P .media) (rCHN_TSTAT : ∀ i, i < 8 → R (REG_CHN_TSTAT i)) (rLAD_CNT_SYNC : ∀ i, i < 4 → R (REG_LAD_CNT_SYNC i)) (rLAD_SYNCSTAT : ∀ i j, i < 4 → j < 2 → R (REG_LAD_SYNCSTAT i j)) (hm : Kept P R m0 m) : Kept P R m0 (syncSearchEnd n bits phases m) := by
  grind (splits := 40) (ematch := 20) (gen := 20) (instances := 20000) [syncSearchEnd, LAD_SYNC_THRESH, LAD_SYNCSTAT_VALID, LAD_SYNCSTAT_FOUND, LAD_SYNCSTAT_DIST, LAD_SYNCSTAT_OFFSET, LAD_SYNCSTAT_FIRST, LAD_CNT_SYNC_BLIND, LAD_CNT_SYNC_LATE, CHN_TSTAT_LOCK, CHN_TSTAT_PHASE, CHN_TSTAT_FOFF, Mach.setSlot_kept, setS_kept, set_kept, setFlag_kept, when_kept, incSat_kept, foldl_kept]
theorem Mach.syncDec_kept {m : Mach} (rDEC_BUSY : R REG_DEC_BUSY) (hm : Kept P R m0 m) : Kept P R m0 (Mach.syncDec m) := by
  grind [Mach.syncDec, DEC_BUSY_ENG, DEC_BUSY_LADDER_HELD, set_kept, foldl_kept]
theorem Mach.setDec_kept {m : Mach} (f : DecPool → DecPool) (pmedia : P .media) (hm : Kept P R m0 m) : Kept P R m0 (Mach.setDec m f) := by
  grind [Mach.setDec, Mach.setMedia_kept, foldl_kept]
theorem Mach.engineLoad_kept {m : Mach} (e : Engine) (h : EngineHold) (rDEC_ENG : ∀ i, i < 12 → R (REG_DEC_ENG i)) (hm : Kept P R m0 m) : Kept P R m0 (Mach.engineLoad m e h) := by
  grind [Mach.engineLoad, DEC_ENG_STATE, DEC_ENG_SCHED, DEC_ENG_STREAM, set_kept, foldl_kept]
theorem Mach.engineIdle_kept {m : Mach} (e : Engine) (rDEC_ENG : ∀ i, i < 12 → R (REG_DEC_ENG i)) (hm : Kept P R m0 m) : Kept P R m0 (Mach.engineIdle m e) := by
  grind (splits := 40) (ematch := 20) (gen := 20) (instances := 20000) [Mach.engineIdle, DEC_ENG_STATE, DEC_ENG_SCHED, DEC_ENG_STREAM, DEC_ENG_GLOBAL, DEC_ENG_LOCAL, set_kept, foldl_kept]
theorem Mach.startDecode_kept {m : Mach} (e : Engine) (h : EngineHold) (pmedia : P .media) (rDEC_BUSY : R REG_DEC_BUSY) (rDEC_ENG : ∀ i, i < 12 → R (REG_DEC_ENG i)) (hm : Kept P R m0 m) : Kept P R m0 (Mach.startDecode m e h) := by
  grind [Mach.startDecode, Mach.setDec_kept, Mach.setChan_kept, Mach.syncDec_kept, Mach.engineLoad_kept, foldl_kept]
theorem decoderGrant_kept {m : Mach} (pmedia : P .media) (rDEC_BUSY : R REG_DEC_BUSY) (rDEC_ENG : ∀ i, i < 12 → R (REG_DEC_ENG i)) (hm : Kept P R m0 m) : Kept P R m0 (decoderGrant m) := by
  grind [decoderGrant, PWR_MODE_MODE, CHN_CTRL_READERS, Mach.setDec_kept, Mach.startDecode_kept, Mach.setSlot_kept, foldl_kept]
theorem Mach.setCmd_kept {m : Mach} (f : CmdState → CmdState) (pcmd : P .cmd) (hm : Kept P R m0 m) : Kept P R m0 (Mach.setCmd m f) := by
  grind [Mach.setCmd, mk_cmd_kept, foldl_kept]
theorem Mach.setSpec_kept {m : Mach} (copy : Option Nat) (t : BitVec 64) (f : SpecSector → SpecSector) (pcmd : P .cmd) (hm : Kept P R m0 m) : Kept P R m0 (Mach.setSpec m copy t f) := by
  grind [Mach.setSpec, Mach.setCmd_kept, foldl_kept]
theorem Mach.specFails_kept {m : Mach} (copy : Option Nat) (d : SectorDesc) (preports : P .reports) (pcal : P .cal) (pbuf : P .buf) (pcmd : P .cmd) (rPOOL_ERR : R REG_POOL_ERR) (rPOOL_FIRST : R REG_POOL_FIRST) (rPOOL_RETSTAT : ∀ i, i < 8 → R (REG_POOL_RETSTAT i)) (rPOOL_STAT : ∀ i, i < 8 → R (REG_POOL_STAT i)) (hm : Kept P R m0 m) : Kept P R m0 (Mach.specFails m copy d) := by
  grind [Mach.specFails, poolFree_kept, Mach.setSpec_kept, foldl_kept]
theorem Mach.failSector_kept {m : Mach} (n : Stream) (i : SampleIdx) (d : SectorDesc) (copy : Option Nat) (ring : Nat) (code : Nat) (preports : P .reports) (pcal : P .cal) (pmedia : P .media) (pbuf : P .buf) (pcmd : P .cmd) (rCHN_SMEM : ∀ i, i < 8 → R (REG_CHN_SMEM i)) (rPOOL_ERR : R REG_POOL_ERR) (rPOOL_FIRST : R REG_POOL_FIRST) (rPOOL_RETSTAT : ∀ i, i < 8 → R (REG_POOL_RETSTAT i)) (rPOOL_STAT : ∀ i, i < 8 → R (REG_POOL_STAT i)) (hm : Kept P R m0 m) : Kept P R m0 (Mach.failSector m n i d copy ring code) := by
  grind [Mach.failSector, Mach.itemStatus_kept, Mach.freeSlot_kept, Mach.specFails_kept, report_kept, Mach.syncSlots_kept, Mach.setSlot_kept, foldl_kept]
theorem Mach.countDecode_kept {m : Mach} (code : Nat) (iter : Nat) (converged : Bool) (preports : P .reports) (rDEC_CNT_CRC : R REG_DEC_CNT_CRC) (rDEC_CNT_NOCONV : R REG_DEC_CNT_NOCONV) (rDEC_CNT_OTF : R REG_DEC_CNT_OTF) (rDEC_CNT_TAG : R REG_DEC_CNT_TAG) (rDEC_ITERH : ∀ i, i < 24 → R (REG_DEC_ITERH i)) (hm : Kept P R m0 m) : Kept P R m0 (Mach.countDecode m code iter converged) := by
  grind [Mach.countDecode, DEC_CNT_OTF_COUNT, DEC_ITERH_COUNT, DEC_CNT_NOCONV_COUNT, DEC_CNT_CRC_COUNT, DEC_CNT_TAG_COUNT, incSat_kept, when_kept, report_kept, foldl_kept]
theorem Mach.attemptResult_kept {m : Mach} (r : AttemptRef) (code : Nat) (unsat : Nat) (block : List Byte) (pmedia : P .media) (hm : Kept P R m0 m) : Kept P R m0 (Mach.attemptResult m r code unsat block) := by
  grind [Mach.attemptResult, Mach.setMedia_kept, foldl_kept]
theorem Mach.startWriteBack_kept {m : Mach} (n : Stream) (slot : Option SampleIdx) (d : SectorDesc) (block : List Byte) (copy : Option Nat) (pcal : P .cal) (pmedia : P .media) (hm : Kept P R m0 m) : Kept P R m0 (Mach.startWriteBack m n slot d block copy) := by
  grind [Mach.startWriteBack, Mach.setDec_kept, Mach.demand_kept, foldl_kept]
theorem decodeComplete_kept (e : Engine) {m : Mach} (preports : P .reports) (pcal : P .cal) (pmedia : P .media) (pbuf : P .buf) (pcmd : P .cmd) (rCHN_SMEM : ∀ i, i < 8 → R (REG_CHN_SMEM i)) (rDEC_BUSY : R REG_DEC_BUSY) (rDEC_CNT_CRC : R REG_DEC_CNT_CRC) (rDEC_CNT_NOCONV : R REG_DEC_CNT_NOCONV) (rDEC_CNT_OTF : R REG_DEC_CNT_OTF) (rDEC_CNT_TAG : R REG_DEC_CNT_TAG) (rDEC_ENG : ∀ i, i < 12 → R (REG_DEC_ENG i)) (rDEC_ITERH : ∀ i, i < 24 → R (REG_DEC_ITERH i)) (rPOOL_ERR : R REG_POOL_ERR) (rPOOL_FIRST : R REG_POOL_FIRST) (rPOOL_RETSTAT : ∀ i, i < 8 → R (REG_POOL_RETSTAT i)) (rPOOL_STAT : ∀ i, i < 8 → R (REG_POOL_STAT i)) (hm : Kept P R m0 m) : Kept P R m0 (decodeComplete e m) := by
  unfold decodeComplete
  repeat' (first | with_reducible assumption | split | with_reducible apply Mach.setDec_kept | with_reducible apply Mach.engineIdle_kept | with_reducible apply Mach.attemptResult_kept | with_reducible apply Mach.countDecode_kept | with_reducible apply Mach.freeSlot_kept | with_reducible apply Mach.itemStatus_kept | with_reducible apply Mach.startWriteBack_kept | with_reducible apply Mach.failSector_kept | with_reducible apply Mach.syncDec_kept | with_reducible apply foldl_kept | with_reducible apply when_kept | dsimp only | intro _ _ _ | intro _ _ | intro _ | grind [])
theorem Mach.storeBlock_kept {m : Mach} (handle : Nat) (block : List Byte) (preports : P .reports) (pout : P .out) (pbuf : P .buf) (rBUF_CNT : R REG_BUF_CNT) (rBUF_ERR : R REG_BUF_ERR) (rBUF_FIRST : R REG_BUF_FIRST) (rCCH_MISS : R REG_CCH_MISS) (hm : Kept P R m0 m) : Kept P R m0 (Mach.storeBlock m handle block) := by
  grind [Mach.storeBlock, Mach.writeBytes_kept, foldl_kept]
theorem writeBackComplete_kept (k : Nat) {m : Mach} (preports : P .reports) (pout : P .out) (pcal : P .cal) (pmedia : P .media) (pbuf : P .buf) (pcmd : P .cmd) (rBUF_CNT : R REG_BUF_CNT) (rBUF_ERR : R REG_BUF_ERR) (rBUF_FIRST : R REG_BUF_FIRST) (rCCH_MISS : R REG_CCH_MISS) (rCHN_SMEM : ∀ i, i < 8 → R (REG_CHN_SMEM i)) (rPOOL_ERR : R REG_POOL_ERR) (rPOOL_FIRST : R REG_POOL_FIRST) (rPOOL_RETSTAT : ∀ i, i < 8 → R (REG_POOL_RETSTAT i)) (rPOOL_STAT : ∀ i, i < 8 → R (REG_POOL_STAT i)) (hm : Kept P R m0 m) : Kept P R m0 (writeBackComplete k m) := by
  unfold writeBackComplete
  dsimp only
  repeat' split
  all_goals grind (splits := 30) (ematch := 12) (gen := 12) (instances := 8000) [Mach.setDec_kept, Mach.storeBlock_kept, poolFree_kept, when_kept, Mach.setSpec_kept, Mach.freeSlot_kept, Mach.itemStatus_kept, foldl_kept]
theorem chnCdataWrite_kept (n : Stream) (data : BitVec 10) {m : Mach} (preports : P .reports) (pmedia : P .media) (rCHN_CADDR : ∀ i, i < 8 → R (REG_CHN_CADDR i)) (rCHN_SMEM : ∀ i, i < 8 → R (REG_CHN_SMEM i)) (hm : Kept P R m0 m) : Kept P R m0 (chnCdataWrite n data m) := by
  grind [chnCdataWrite, CHN_CADDR_ADDR, CHN_CTRL_EN, CHN_CTRL_EQ_SET, CHN_SMEM_CWR_IGN, CHN_CADDR_AUTOINC, flagEvent_kept, Mach.setChan_kept, when_kept, set_kept, foldl_kept]
theorem chnEnWrite_kept (n : Stream) (en : Bool) {m : Mach} (pmedia : P .media) (rCHN_CTRL : ∀ i, i < 8 → R (REG_CHN_CTRL i)) (rLAD_SYNCSTAT : ∀ i j, i < 4 → j < 2 → R (REG_LAD_SYNCSTAT i j)) (hm : Kept P R m0 m) : Kept P R m0 (chnEnWrite n en m) := by
  grind [chnEnWrite, CHN_CTRL_EN, Mach.setChan_kept, set_kept, setWord_kept, setFlag_kept, foldl_kept]
theorem chnCntclr_kept (n : Stream) {m : Mach} (rCHN_CNT_SECT : ∀ i, i < 8 → R (REG_CHN_CNT_SECT i)) (rCHN_CNT_TA : ∀ i, i < 8 → R (REG_CHN_CNT_TA i)) (rCHN_SMEM : ∀ i, i < 8 → R (REG_CHN_SMEM i)) (hm : Kept P R m0 m) : Kept P R m0 (chnCntclr n m) := by
  grind [chnCntclr, CHN_CNT_SECT_CAPT, CHN_CNT_TA_SPANS, CHN_CNT_TA_MERGED, CHN_SMEM_HIGH, CHN_SMEM_USED, set_kept, foldl_kept]
theorem decCntclr_kept {m : Mach} (rDEC_CNT_CRC : R REG_DEC_CNT_CRC) (rDEC_CNT_NOCONV : R REG_DEC_CNT_NOCONV) (rDEC_CNT_OTF : R REG_DEC_CNT_OTF) (rDEC_CNT_TAG : R REG_DEC_CNT_TAG) (rDEC_ITERH : ∀ i, i < 24 → R (REG_DEC_ITERH i)) (hm : Kept P R m0 m) : Kept P R m0 (decCntclr m) := by
  grind (splits := 30) (ematch := 12) (gen := 12) (instances := 8000) [decCntclr, DEC_CNT_OTF_COUNT, DEC_CNT_NOCONV_COUNT, DEC_CNT_CRC_COUNT, DEC_CNT_TAG_COUNT, DEC_ITERH_COUNT, set_kept, foldl_mem_kept, List.mem_range]
theorem Mach.clearChan_kept {m : Mach} (n : Stream) (pmedia : P .media) (hm : Kept P R m0 m) : Kept P R m0 (Mach.clearChan m n) := by
  grind [Mach.clearChan, Mach.setChan_kept, foldl_kept]
theorem Mach.clearDec_kept {m : Mach} (pmedia : P .media) (hm : Kept P R m0 m) : Kept P R m0 (Mach.clearDec m) := by
  grind [Mach.clearDec, Mach.setDec_kept, foldl_kept]
end Sys2Proof.Machine
end

