-- ==== Sys2Proof/Laws/KeptHeadSeq.lean ====
section
/-! SUPPORT. What the operations of Machine/HeadSeq.lean keep: for each, the parts and the registers it may change. -/
set_option Elab.async false
set_option linter.all false
namespace Sys2Proof.Machine
open Sys2Proof
variable {P : Part → Prop} {R : Nat → Prop} {m0 : Mach}
theorem Mach.setHsq_kept {m : Mach} (a : Actuator) (f : HsqState → HsqState) (pmotion : P .motion) (hm : Kept P R m0 m) : Kept P R m0 (Mach.setHsq m a f) := by
  grind [Mach.setHsq, mk_motion_kept, foldl_kept]
theorem Mach.setSrv_kept {m : Mach} (a : Actuator) (f : SrvState → SrvState) (pmotion : P .motion) (hm : Kept P R m0 m) : Kept P R m0 (Mach.setSrv m a f) := by
  grind [Mach.setSrv, mk_motion_kept, foldl_kept]
theorem Mach.setSrvSlot_kept {m : Mach} (a : Actuator) (k : HeadSlot) (f : SrvSlot → SrvSlot) (pmotion : P .motion) (hm : Kept P R m0 m) : Kept P R m0 (Mach.setSrvSlot m a k f) := by
  grind [Mach.setSrvSlot, Mach.setSrv_kept, foldl_kept]
theorem Mach.setEng_kept {m : Mach} (f : EngState → EngState) (peng : P .eng) (hm : Kept P R m0 m) : Kept P R m0 (Mach.setEng m f) := by
  grind [Mach.setEng, mk_eng_kept, foldl_kept]
theorem Mach.setSeq_kept {m : Mach} (q : SeqId) (f : Seq → Seq) (peng : P .eng) (hm : Kept P R m0 m) : Kept P R m0 (Mach.setSeq m q f) := by
  grind [Mach.setSeq, Mach.setEng_kept, foldl_kept]
theorem Mach.setGp_kept {m : Mach} (q : SeqId) (r : Gp) (x : Word) (peng : P .eng) (hm : Kept P R m0 m) : Kept P R m0 (Mach.setGp m q r x) := by
  grind [Mach.setGp, Mach.setSeq_kept, foldl_kept]
theorem Mach.emitFrame_kept {m : Mach} (a : Actuator) (f : Frame) (pout : P .out) (hm : Kept P R m0 m) : Kept P R m0 (Mach.emitFrame m a f) := by
  grind [Mach.emitFrame, emit_kept, foldl_kept]
theorem Mach.pumpOnce_kept {m : Mach} (a : Actuator) (preports : P .reports) (pout : P .out) (pmotion : P .motion) (rHSQ_ERR : ∀ i, i < 4 → R (REG_HSQ_ERR i)) (hm : Kept P R m0 m) : Kept P R m0 (Mach.pumpOnce m a) := by
  grind [Mach.pumpOnce, HSQ_ERR_DEPOP_SEL, HSQ_ERR_LEAD_SEL, Mach.emitFrame_kept, Mach.setHsq_kept, flagEvent_kept, foldl_kept]
theorem Mach.pumpLink_kept {m : Mach} (a : Actuator) (preports : P .reports) (pout : P .out) (pmotion : P .motion) (rHSQ_ERR : ∀ i, i < 4 → R (REG_HSQ_ERR i)) (hm : Kept P R m0 m) : Kept P R m0 (Mach.pumpLink m a) := by
  grind [Mach.pumpLink, Mach.pumpOnce_kept, foldl_kept]
theorem Mach.sendFrame_kept {m : Mach} (a : Actuator) (f : Frame) (preports : P .reports) (pout : P .out) (pmotion : P .motion) (rHSQ_ERR : ∀ i, i < 4 → R (REG_HSQ_ERR i)) (hm : Kept P R m0 m) : Kept P R m0 (Mach.sendFrame m a f) := by
  grind [Mach.sendFrame, Mach.pumpLink_kept, Mach.setHsq_kept, foldl_kept]
theorem Mach.raiseGate_kept {m : Mach} (a : Actuator) (k : HeadSlot) (pout : P .out) (rFMT_STAT : ∀ i, i < 8 → R (REG_FMT_STAT i)) (rHSQ_SEL : ∀ i j, i < 4 → j < 2 → R (REG_HSQ_SEL i j)) (hm : Kept P R m0 m) : Kept P R m0 (Mach.raiseGate m a k) := by
  grind [Mach.raiseGate, HSQ_SEL_GATE, FMT_STAT_GATE, Mach.emitFrame_kept, set_kept, foldl_kept]
theorem Mach.lowerGate_kept {m : Mach} (a : Actuator) (k : HeadSlot) (preports : P .reports) (pout : P .out) (pmotion : P .motion) (rFMT_STAT : ∀ i, i < 8 → R (REG_FMT_STAT i)) (rHSQ_ERR : ∀ i, i < 4 → R (REG_HSQ_ERR i)) (rHSQ_SEL : ∀ i j, i < 4 → j < 2 → R (REG_HSQ_SEL i j)) (hm : Kept P R m0 m) : Kept P R m0 (Mach.lowerGate m a k) := by
  grind [Mach.lowerGate, HSQ_SEL_GATE, FMT_STAT_GATE, Mach.pumpLink_kept, Mach.emitFrame_kept, set_kept, foldl_kept]
theorem Mach.dropWsafe_kept {m : Mach} (a : Actuator) (rSRV_STAT : ∀ i, i < 4 → R (REG_SRV_STAT i)) (hm : Kept P R m0 m) : Kept P R m0 (Mach.dropWsafe m a) := by
  grind [Mach.dropWsafe, SRV_STAT_WSAFE, set_kept, foldl_kept]
theorem Mach.writeTarget_kept {m : Mach} (a : Actuator) (k : HeadSlot) (v : Nat) (pmotion : P .motion) (rSRV_STAT : ∀ i, i < 4 → R (REG_SRV_STAT i)) (rSRV_TARGET : ∀ i j, i < 4 → j < 2 → R (REG_SRV_TARGET i j)) (hm : Kept P R m0 m) : Kept P R m0 (Mach.writeTarget m a k v) := by
  grind [Mach.writeTarget, SRV_TARGET_TARGET, SRV_STAT_TRK_CONF, SRV_STAT_ONTRACK, set_kept, Mach.setBitAt_kept, when_kept, Mach.setSrvSlot_kept, Mach.dropWsafe_kept, foldl_kept]
theorem select_kept (a : Actuator) (xreg : Gp) {m : Mach} (preports : P .reports) (pout : P .out) (pmotion : P .motion) (rHSQ_ERR : ∀ i, i < 4 → R (REG_HSQ_ERR i)) (hm : Kept P R m0 m) : Kept P R m0 (select a xreg m) := by
  grind [select, HSQ_ERR_DEPOP_SEL, HSQ_ERR_LEAD_SEL, flagEvent_kept, Mach.setHsq_kept, Mach.sendFrame_kept, foldl_kept]
theorem wframe_kept (a : Actuator) (xreg : Gp) {m : Mach} (preports : P .reports) (pout : P .out) (pmotion : P .motion) (rHSQ_ERR : ∀ i, i < 4 → R (REG_HSQ_ERR i)) (hm : Kept P R m0 m) : Kept P R m0 (wframe a xreg m) := by
  grind [wframe, Mach.sendFrame_kept, foldl_kept]
theorem rframe_kept (a : Actuator) (xreg : Gp) {m : Mach} (preports : P .reports) (pout : P .out) (pmotion : P .motion) (rHSQ_ERR : ∀ i, i < 4 → R (REG_HSQ_ERR i)) (hm : Kept P R m0 m) : Kept P R m0 (rframe a xreg m) := by
  grind [rframe, Mach.sendFrame_kept, foldl_kept]
theorem Mach.unblock_kept {m : Mach} (a : Actuator) (pmotion : P .motion) (hm : Kept P R m0 m) : Kept P R m0 (Mach.unblock m a) := by
  grind [Mach.unblock, Mach.setHsq_kept, foldl_kept]
theorem framedone_kept (a : Actuator) (data : BitVec 16) {m : Mach} (pfreeCtr : P .freeCtr) (preports : P .reports) (pout : P .out) (pmotion : P .motion) (peng : P .eng) (rHSQ_ERR : ∀ i, i < 4 → R (REG_HSQ_ERR i)) (rHSQ_SEL : ∀ i j, i < 4 → j < 2 → R (REG_HSQ_SEL i j)) (rSRV_STAT : ∀ i, i < 4 → R (REG_SRV_STAT i)) (hm : Kept P R m0 m) : Kept P R m0 (framedone a data m) := by
  grind (splits := 40) (ematch := 20) (gen := 20) (instances := 20000) [framedone, HSQ_SEL_VALID, HSQ_SEL_HEAD, SRV_STAT_LOCK, SRV_STAT_TRK_CONF, SRV_STAT_ONTRACK, Mach.setHsq_kept, nextFree_kept, Mach.setGp_kept, set_kept, Mach.setBitAt_kept, Mach.unblock_kept, Mach.pumpLink_kept, foldl_kept]
theorem headSelectSettle_kept (a : Actuator) (k : HeadSlot) {m : Mach} (pmotion : P .motion) (rHSQ_SEL : ∀ i j, i < 4 → j < 2 → R (REG_HSQ_SEL i j)) (hm : Kept P R m0 m) : Kept P R m0 (headSelectSettle a k m) := by
  grind [headSelectSettle, HSQ_SEL_VALID, HSQ_SEL_HEAD, Mach.setHsq_kept, set_kept, foldl_kept]
theorem gatearm_kept (a : Actuator) {m : Mach} (pmotion : P .motion) (hm : Kept P R m0 m) : Kept P R m0 (gatearm a m) := by
  grind [gatearm, Mach.setHsq_kept, foldl_kept]
theorem paFaultAssert_kept (a : Actuator) {m : Mach} (preports : P .reports) (rHSQ_FAULT : ∀ i, i < 4 → R (REG_HSQ_FAULT i)) (rSRV_STAT : ∀ i, i < 4 → R (REG_SRV_STAT i)) (hm : Kept P R m0 m) : Kept P R m0 (paFaultAssert a m) := by
  grind [paFaultAssert, HSQ_FAULT_PIN, HSQ_FAULT_LATCH, HSQ_FAULT_COUNT, set_kept, Mach.dropWsafe_kept, report_kept, incSat_kept, foldl_kept]
theorem Mach.clearHsq_kept {m : Mach} (a : Actuator) (pmotion : P .motion) (hm : Kept P R m0 m) : Kept P R m0 (Mach.clearHsq m a) := by
  grind [Mach.clearHsq, Mach.setHsq_kept, foldl_kept]
end Sys2Proof.Machine
end

