-- ==== Sys2Proof/Laws/KeptFormat.lean ====
section
/-! SUPPORT. What the operations of Machine/Format.lean keep: for each, the parts and the registers it may change. -/
set_option Elab.async false
set_option linter.all false
namespace Sys2Proof.Machine
open Sys2Proof
variable {P : Part → Prop} {R : Nat → Prop} {m0 : Mach}
theorem Mach.setWpath_kept {m : Mach} (a : Actuator) (f : WritePath → WritePath) (pmedia : P .media) (hm : Kept P R m0 m) : Kept P R m0 (Mach.setWpath m a f) := by
  grind [Mach.setWpath, Mach.setMedia_kept, foldl_kept]
theorem Mach.place_kept {m : Mach} (n : Stream) (i : FmtItem) (preports : P .reports) (pmedia : P .media) (rFMT_CNT_ABORT : ∀ i, i < 8 → R (REG_FMT_CNT_ABORT i)) (rFMT_CNT_MISS : ∀ i, i < 8 → R (REG_FMT_CNT_MISS i)) (rFMT_ERR : ∀ i, i < 8 → R (REG_FMT_ERR i)) (hm : Kept P R m0 m) : Kept P R m0 (Mach.place m n i) := by
  grind [Mach.place, Mach.endDesc_kept, Mach.setFmt_kept, foldl_kept]
theorem Mach.abandonNext_kept {m : Mach} (n : Stream) (ring : Nat) (preports : P .reports) (pmedia : P .media) (rFMT_CNT_ABORT : ∀ i, i < 8 → R (REG_FMT_CNT_ABORT i)) (rFMT_CNT_MISS : ∀ i, i < 8 → R (REG_FMT_CNT_MISS i)) (rFMT_ERR : ∀ i, i < 8 → R (REG_FMT_ERR i)) (hm : Kept P R m0 m) : Kept P R m0 (Mach.abandonNext m n ring) := by
  grind [Mach.abandonNext, Mach.endDesc_kept, Mach.setFmt_kept, foldl_kept]
theorem Mach.reserveGen_kept {m : Mach} (rKSV_GENHI : R REG_KSV_GENHI) (rKSV_GENLO : R REG_KSV_GENLO) (hm : Kept P R m0 m) : Kept P R m0 (Mach.reserveGen m) := by
  grind [Mach.reserveGen, KSV_GENLO_GEN, KSV_GENHI_GEN, set_kept, foldl_kept]
theorem Mach.raiseGen_kept {m : Mach} (ppwr : P .pwr) (rKSV_GENHI : R REG_KSV_GENHI) (rKSV_GENLO : R REG_KSV_GENLO) (hm : Kept P R m0 m) : Kept P R m0 (Mach.raiseGen m) := by
  grind [Mach.raiseGen, KSV_CTRL_ARM, when_kept, Mach.reserveGen_kept, mk_pwr_kept, foldl_kept]
theorem Mach.passStart_kept {m : Mach} (d : SectorDesc) (ppwr : P .pwr) (rKSV_GENHI : R REG_KSV_GENHI) (rKSV_GENLO : R REG_KSV_GENLO) (hm : Kept P R m0 m) : Kept P R m0 (Mach.passStart m d) := by
  grind [Mach.passStart, Mach.raiseGen_kept, foldl_kept]
theorem Mach.takeDesc_kept {m : Mach} (n : Stream) (d : SectorDesc) (preports : P .reports) (pmedia : P .media) (ppwr : P .pwr) (rFMT_CNT_ABORT : ∀ i, i < 8 → R (REG_FMT_CNT_ABORT i)) (rFMT_CNT_MISS : ∀ i, i < 8 → R (REG_FMT_CNT_MISS i)) (rFMT_ERR : ∀ i, i < 8 → R (REG_FMT_ERR i)) (rFMT_STAT : ∀ i, i < 8 → R (REG_FMT_STAT i)) (rKSV_GENHI : R REG_KSV_GENHI) (rKSV_GENLO : R REG_KSV_GENLO) (hm : Kept P R m0 m) : Kept P R m0 (Mach.takeDesc m n d) := by
  grind [Mach.takeDesc, FMT_STAT_STATE, Mach.setFmt_kept, Mach.passStart_kept, when_kept, set_kept, Mach.endDesc_kept, Mach.abandonNext_kept, Mach.place_kept, mk_pwr_kept, foldl_kept]
theorem loaddesc_kept (n : Stream) {m : Mach} (preports : P .reports) (pmedia : P .media) (ppwr : P .pwr) (rFMT_CNT_ABORT : ∀ i, i < 8 → R (REG_FMT_CNT_ABORT i)) (rFMT_CNT_MISS : ∀ i, i < 8 → R (REG_FMT_CNT_MISS i)) (rFMT_ERR : ∀ i, i < 8 → R (REG_FMT_ERR i)) (rFMT_STAT : ∀ i, i < 8 → R (REG_FMT_STAT i)) (rKSV_GENHI : R REG_KSV_GENHI) (rKSV_GENLO : R REG_KSV_GENLO) (hm : Kept P R m0 m) : Kept P R m0 (loaddesc n m) := by
  unfold loaddesc
  repeat' (first | with_reducible assumption | split | with_reducible apply set_kept | with_reducible apply Mach.setFmt_kept | with_reducible apply Mach.takeDesc_kept | with_reducible apply foldl_kept | with_reducible apply when_kept | dsimp only | intro _ _ _ | intro _ _ | intro _ | grind [FMT_CTRL_EN, FMT_STAT_STATE])
theorem loadtrk_kept (n : Stream) {m : Mach} (pmedia : P .media) (rFMT_CUR : ∀ i, i < 8 → R (REG_FMT_CUR i)) (rFMT_STAT : ∀ i, i < 8 → R (REG_FMT_STAT i)) (hm : Kept P R m0 m) : Kept P R m0 (loadtrk n m) := by
  grind (splits := 40) (ematch := 20) (gen := 20) (instances := 20000) [loadtrk, FMT_STAT_TRACK_VALID, FMT_CUR_CYL, FMT_CUR_HEAD, FMT_CUR_DEFECTS, Mach.setFmt_kept, set_kept, foldl_kept]
theorem trackLoaded_kept (n : Stream) {m : Mach} (preports : P .reports) (pmedia : P .media) (rFMT_CNT_ABORT : ∀ i, i < 8 → R (REG_FMT_CNT_ABORT i)) (rFMT_CNT_MISS : ∀ i, i < 8 → R (REG_FMT_CNT_MISS i)) (rFMT_CUR : ∀ i, i < 8 → R (REG_FMT_CUR i)) (rFMT_ERR : ∀ i, i < 8 → R (REG_FMT_ERR i)) (rFMT_STAT : ∀ i, i < 8 → R (REG_FMT_STAT i)) (hm : Kept P R m0 m) : Kept P R m0 (trackLoaded n m) := by
  unfold trackLoaded
  repeat' (first | with_reducible assumption | split | with_reducible apply when_kept | with_reducible apply flagEvent_kept | with_reducible apply Mach.setFmt_kept | with_reducible apply set_kept | with_reducible apply Mach.abandonNext_kept | with_reducible apply Mach.place_kept | with_reducible apply foldl_kept | dsimp only | intro _ _ _ | intro _ _ | intro _ | grind [FMT_ERR_DMAP_TYPE, FMT_STAT_TRACK_VALID, FMT_CUR_CYL, FMT_CUR_HEAD, FMT_CUR_DEFECTS])
theorem Mach.restoreHead_kept {m : Mach} (a : Actuator) (pmedia : P .media) (pmotion : P .motion) (rSRV_STAT : ∀ i, i < 4 → R (REG_SRV_STAT i)) (rSRV_TARGET : ∀ i j, i < 4 → j < 2 → R (REG_SRV_TARGET i j)) (hm : Kept P R m0 m) : Kept P R m0 (Mach.restoreHead m a) := by
  unfold Mach.restoreHead
  repeat' (first | with_reducible assumption | split | with_reducible apply when_kept | with_reducible apply Mach.writeTarget_kept | with_reducible apply Mach.setHsq_kept | with_reducible apply Mach.setMedia_kept | with_reducible apply foldl_kept | dsimp only | intro _ _ _ | intro _ _ | intro _ | grind [SRV_TARGET_TARGET])
theorem Mach.claimHead_kept {m : Mach} (n : Stream) (pmedia : P .media) (pmotion : P .motion) (rSRV_STAT : ∀ i, i < 4 → R (REG_SRV_STAT i)) (rSRV_TARGET : ∀ i j, i < 4 → j < 2 → R (REG_SRV_TARGET i j)) (hm : Kept P R m0 m) : Kept P R m0 (Mach.claimHead m n) := by
  grind [Mach.claimHead, Mach.restoreHead_kept, foldl_kept]
theorem capture_kept (n : Stream) {m : Mach} (pmedia : P .media) (pmotion : P .motion) (rSRV_STAT : ∀ i, i < 4 → R (REG_SRV_STAT i)) (rSRV_TARGET : ∀ i j, i < 4 → j < 2 → R (REG_SRV_TARGET i j)) (hm : Kept P R m0 m) : Kept P R m0 (capture n m) := by
  grind [capture, Mach.setFmt_kept, Mach.claimHead_kept, foldl_kept]
theorem Mach.giveMoment_kept {m : Mach} (n : Stream) (i : FmtItem) (pfreeCtr : P .freeCtr) (pmotion : P .motion) (hm : Kept P R m0 m) : Kept P R m0 (Mach.giveMoment m n i) := by
  grind [Mach.giveMoment, nextFree_kept, Mach.setHsq_kept, foldl_kept]
theorem write_kept (n : Stream) {m : Mach} (pfreeCtr : P .freeCtr) (pmedia : P .media) (pmotion : P .motion) (hm : Kept P R m0 m) : Kept P R m0 (write n m) := by
  grind [write, Mach.setFmt_kept, when_kept, Mach.giveMoment_kept, foldl_kept]
theorem Mach.insertDefect_kept {m : Mach} (n : Stream) (e : DefectEntry) (preports : P .reports) (pout : P .out) (pbuf : P .buf) (rBUF_CNT : R REG_BUF_CNT) (rBUF_ERR : R REG_BUF_ERR) (rBUF_FIRST : R REG_BUF_FIRST) (rCCH_MISS : R REG_CCH_MISS) (rFMT_DMAP_COUNT : ∀ i, i < 8 → R (REG_FMT_DMAP_COUNT i)) (hm : Kept P R m0 m) : Kept P R m0 (Mach.insertDefect m n e) := by
  grind [Mach.insertDefect, FMT_DMAP_BASE_ADDR, FMT_DMAP_COUNT_COUNT, Mach.writeBytes_kept, set_kept, foldl_kept]
theorem Mach.reallocate_kept {m : Mach} (n : Stream) (d : SectorDesc) (phys : Nat) (preports : P .reports) (pout : P .out) (pmedia : P .media) (pbuf : P .buf) (rBUF_CNT : R REG_BUF_CNT) (rBUF_ERR : R REG_BUF_ERR) (rBUF_FIRST : R REG_BUF_FIRST) (rCCH_MISS : R REG_CCH_MISS) (rFMT_DMAP_COUNT : ∀ i, i < 8 → R (REG_FMT_DMAP_COUNT i)) (hm : Kept P R m0 m) : Kept P R m0 (Mach.reallocate m n d phys) := by
  grind [Mach.reallocate, report_kept, Mach.insertDefect_kept, Mach.setMedia_kept, foldl_kept]
theorem Mach.countTorn_kept {m : Mach} (n : Stream) (i : FmtItem) (status : Nat) (preports : P .reports) (pout : P .out) (pmedia : P .media) (pbuf : P .buf) (rBUF_CNT : R REG_BUF_CNT) (rBUF_ERR : R REG_BUF_ERR) (rBUF_FIRST : R REG_BUF_FIRST) (rCCH_MISS : R REG_CCH_MISS) (rFMT_DMAP_COUNT : ∀ i, i < 8 → R (REG_FMT_DMAP_COUNT i)) (hm : Kept P R m0 m) : Kept P R m0 (Mach.countTorn m n i status) := by
  grind [Mach.countTorn, Mach.setMedia_kept, Mach.reallocate_kept, foldl_kept]
theorem Mach.setCandidate_kept {m : Mach} (tag : BitVec 64) (f : Candidate → Option Candidate) (pcmd : P .cmd) (hm : Kept P R m0 m) : Kept P R m0 (Mach.setCandidate m tag f) := by
  grind [Mach.setCandidate, Mach.setCmd_kept, foldl_kept]
theorem Mach.passRead_kept {m : Mach} (d : SectorDesc) (good : Bool) (ppwr : P .pwr) (pcmd : P .cmd) (hm : Kept P R m0 m) : Kept P R m0 (Mach.passRead m d good) := by
  grind [Mach.passRead, Mach.setCmd_kept, mk_pwr_kept, foldl_kept]
theorem Mach.candidateSeen_kept {m : Mach} (d : SectorDesc) (status : Nat) (result : Nat) (ppwr : P .pwr) (pcmd : P .cmd) (hm : Kept P R m0 m) : Kept P R m0 (Mach.candidateSeen m d status result) := by
  grind [Mach.candidateSeen, Mach.setCmd_kept, Mach.setCandidate_kept, Mach.passRead_kept, foldl_kept]
theorem complete_kept (n : Stream) {m : Mach} (preports : P .reports) (pout : P .out) (pcal : P .cal) (pmedia : P .media) (ppwr : P .pwr) (pbuf : P .buf) (pcmd : P .cmd) (rBUF_CNT : R REG_BUF_CNT) (rBUF_ERR : R REG_BUF_ERR) (rBUF_FIRST : R REG_BUF_FIRST) (rCCH_MISS : R REG_CCH_MISS) (rFMT_CNT_WR : ∀ i, i < 8 → R (REG_FMT_CNT_WR i)) (rFMT_DMAP_COUNT : ∀ i, i < 8 → R (REG_FMT_DMAP_COUNT i)) (rFMT_RING_HEAD : ∀ i, i < 8 → R (REG_FMT_RING_HEAD i)) (rPOOL_ERR : R REG_POOL_ERR) (rPOOL_FIRST : R REG_POOL_FIRST) (rPOOL_RETSTAT : ∀ i, i < 8 → R (REG_POOL_RETSTAT i)) (rPOOL_STAT : ∀ i, i < 8 → R (REG_POOL_STAT i)) (hm : Kept P R m0 m) : Kept P R m0 (complete n m) := by
  unfold complete
  repeat' (first | with_reducible assumption | split | with_reducible apply Mach.setFmt_kept | with_reducible apply Mach.writeBytes_kept | with_reducible apply set_kept | with_reducible apply Mach.candidateSeen_kept | with_reducible apply when_kept | with_reducible apply Mach.countTorn_kept | with_reducible apply poolFree_kept | with_reducible apply incSat_kept | with_reducible apply Mach.setWpath_kept | with_reducible apply mk_pwr_kept | with_reducible apply foldl_kept | dsimp only | intro _ _ _ | intro _ _ | intro _ | grind [FMT_RING_BASE_ADDR, FMT_RING_HEAD_HEAD, FMT_CNT_WR_COUNT])
theorem Mach.loadBlock_kept {m : Mach} (handle : Nat) (preports : P .reports) (pout : P .out) (pbuf : P .buf) (rBUF_CNT : R REG_BUF_CNT) (rBUF_ERR : R REG_BUF_ERR) (rBUF_FIRST : R REG_BUF_FIRST) (rCCH_MISS : R REG_CCH_MISS) (hm : Kept P R m0 m) : Kept P R m0 (Mach.loadBlock m handle).2 := by
  grind [Mach.loadBlock, Mach.readBytes_kept, foldl_kept]
theorem Mach.dropCodewords_kept {m : Mach} (n : Stream) (pmedia : P .media) (hm : Kept P R m0 m) : Kept P R m0 (Mach.dropCodewords m n) := by
  grind [Mach.dropCodewords, Mach.setWpath_kept, foldl_kept]
theorem Mach.runOver_kept {m : Mach} (n : Stream) (preports : P .reports) (pmedia : P .media) (pmotion : P .motion) (ppwr : P .pwr) (rFMT_CNT_ABORT : ∀ i, i < 8 → R (REG_FMT_CNT_ABORT i)) (rFMT_CNT_MISS : ∀ i, i < 8 → R (REG_FMT_CNT_MISS i)) (rFMT_ERR : ∀ i, i < 8 → R (REG_FMT_ERR i)) (rFMT_STAT : ∀ i, i < 8 → R (REG_FMT_STAT i)) (rKSV_GENHI : R REG_KSV_GENHI) (rKSV_GENLO : R REG_KSV_GENLO) (hm : Kept P R m0 m) : Kept P R m0 (Mach.runOver m n) := by
  unfold Mach.runOver
  repeat' (first | with_reducible assumption | split | with_reducible apply Mach.setFmt_kept | with_reducible apply Mach.setWpath_kept | with_reducible apply Mach.setHsq_kept | with_reducible apply set_kept | with_reducible apply Mach.setMedia_kept | with_reducible apply Mach.takeDesc_kept | with_reducible apply foldl_kept | with_reducible apply when_kept | dsimp only | intro _ _ _ | intro _ _ | intro _ | grind [FMT_STAT_STATE, FMT_CTRL_EN])
theorem Mach.nextRun_kept {m : Mach} (n : Stream) (preports : P .reports) (pmedia : P .media) (pmotion : P .motion) (ppwr : P .pwr) (rFMT_CNT_ABORT : ∀ i, i < 8 → R (REG_FMT_CNT_ABORT i)) (rFMT_CNT_MISS : ∀ i, i < 8 → R (REG_FMT_CNT_MISS i)) (rFMT_ERR : ∀ i, i < 8 → R (REG_FMT_ERR i)) (rFMT_STAT : ∀ i, i < 8 → R (REG_FMT_STAT i)) (rKSV_GENHI : R REG_KSV_GENHI) (rKSV_GENLO : R REG_KSV_GENLO) (hm : Kept P R m0 m) : Kept P R m0 (Mach.nextRun m n) := by
  grind [Mach.nextRun, Mach.setFmt_kept, Mach.runOver_kept, mk_pwr_kept, foldl_kept]
theorem Mach.failFrom_kept {m : Mach} (n : Stream) (ring : Nat) (status : Nat) (preports : P .reports) (pmedia : P .media) (pmotion : P .motion) (ppwr : P .pwr) (rFMT_CNT_ABORT : ∀ i, i < 8 → R (REG_FMT_CNT_ABORT i)) (rFMT_CNT_MISS : ∀ i, i < 8 → R (REG_FMT_CNT_MISS i)) (rFMT_ERR : ∀ i, i < 8 → R (REG_FMT_ERR i)) (rFMT_STAT : ∀ i, i < 8 → R (REG_FMT_STAT i)) (rKSV_GENHI : R REG_KSV_GENHI) (rKSV_GENLO : R REG_KSV_GENLO) (hm : Kept P R m0 m) : Kept P R m0 (Mach.failFrom m n ring status) := by
  unfold Mach.failFrom
  repeat' (first | with_reducible assumption | split | with_reducible apply Mach.endDesc_kept | with_reducible apply Mach.setFmt_kept | with_reducible apply Mach.dropCodewords_kept | with_reducible apply Mach.setHsq_kept | with_reducible apply Mach.nextRun_kept | with_reducible apply foldl_kept | with_reducible apply when_kept | dsimp only | intro _ _ _ | intro _ _ | intro _ | grind [])
theorem Mach.demandBlock_kept {m : Mach} (a : Actuator) (handle : Nat) (pcal : P .cal) (hm : Kept P R m0 m) : Kept P R m0 (Mach.demandBlock m a handle) := by
  grind [Mach.demandBlock, Mach.demand_kept, foldl_kept]
theorem writePathFetch_kept (n : Stream) (grouped : Bool) {m : Mach} (preports : P .reports) (pout : P .out) (pcal : P .cal) (pmedia : P .media) (pmotion : P .motion) (ppwr : P .pwr) (pbuf : P .buf) (rBUF_CNT : R REG_BUF_CNT) (rBUF_ERR : R REG_BUF_ERR) (rBUF_FIRST : R REG_BUF_FIRST) (rCCH_MISS : R REG_CCH_MISS) (rFMT_CNT_ABORT : ∀ i, i < 8 → R (REG_FMT_CNT_ABORT i)) (rFMT_CNT_MISS : ∀ i, i < 8 → R (REG_FMT_CNT_MISS i)) (rFMT_ERR : ∀ i, i < 8 → R (REG_FMT_ERR i)) (rFMT_STAT : ∀ i, i < 8 → R (REG_FMT_STAT i)) (rKSV_GENHI : R REG_KSV_GENHI) (rKSV_GENLO : R REG_KSV_GENLO) (hm : Kept P R m0 m) : Kept P R m0 (writePathFetch n grouped m) := by
  grind [writePathFetch, Mach.loadBlock_kept, Mach.demandBlock_kept, Mach.failFrom_kept, Mach.setWpath_kept, foldl_kept]
theorem codewordReady_kept (a : Actuator) (bad : Bool) {m : Mach} (preports : P .reports) (pmedia : P .media) (pmotion : P .motion) (ppwr : P .pwr) (rFMT_CNT_ABORT : ∀ i, i < 8 → R (REG_FMT_CNT_ABORT i)) (rFMT_CNT_MISS : ∀ i, i < 8 → R (REG_FMT_CNT_MISS i)) (rFMT_ERR : ∀ i, i < 8 → R (REG_FMT_ERR i)) (rFMT_STAT : ∀ i, i < 8 → R (REG_FMT_STAT i)) (rKSV_GENHI : R REG_KSV_GENHI) (rKSV_GENLO : R REG_KSV_GENLO) (hm : Kept P R m0 m) : Kept P R m0 (codewordReady a bad m) := by
  grind [codewordReady, Mach.setWpath_kept, Mach.failFrom_kept, foldl_kept]
theorem Mach.driven_kept {m : Mach} (n : Stream) (w : Writing) (k : Nat) (pout : P .out) (hm : Kept P R m0 m) : Kept P R m0 (Mach.driven m n w k) := by
  grind [Mach.driven, emit_kept, foldl_kept]
theorem Mach.startSector_kept {m : Mach} (n : Stream) (i : FmtItem) (c : Codeword) (pmedia : P .media) (hm : Kept P R m0 m) : Kept P R m0 (Mach.startSector m n i c) := by
  grind [Mach.startSector, Mach.setFmt_kept, Mach.setWpath_kept, foldl_kept]
theorem Mach.refuseGate_kept {m : Mach} (a : Actuator) (preports : P .reports) (rHSQ_ERR : ∀ i, i < 4 → R (REG_HSQ_ERR i)) (hm : Kept P R m0 m) : Kept P R m0 (Mach.refuseGate m a) := by
  grind [Mach.refuseGate, HSQ_ERR_GATE_REFUSED, flagEvent_kept, foldl_kept]
theorem gateMoment_kept (a : Actuator) {m : Mach} (preports : P .reports) (pout : P .out) (pmedia : P .media) (pmotion : P .motion) (ppwr : P .pwr) (rFMT_CNT_ABORT : ∀ i, i < 8 → R (REG_FMT_CNT_ABORT i)) (rFMT_CNT_MISS : ∀ i, i < 8 → R (REG_FMT_CNT_MISS i)) (rFMT_ERR : ∀ i, i < 8 → R (REG_FMT_ERR i)) (rFMT_STAT : ∀ i, i < 8 → R (REG_FMT_STAT i)) (rHSQ_ERR : ∀ i, i < 4 → R (REG_HSQ_ERR i)) (rHSQ_SEL : ∀ i j, i < 4 → j < 2 → R (REG_HSQ_SEL i j)) (rKSV_GENHI : R REG_KSV_GENHI) (rKSV_GENLO : R REG_KSV_GENLO) (hm : Kept P R m0 m) : Kept P R m0 (gateMoment a m) := by
  unfold gateMoment
  repeat' (first | with_reducible assumption | split | with_reducible apply Mach.setHsq_kept | with_reducible apply Mach.pumpLink_kept | with_reducible apply set_kept | with_reducible apply Mach.failFrom_kept | with_reducible apply Mach.refuseGate_kept | with_reducible apply Mach.startSector_kept | with_reducible apply Mach.raiseGate_kept | with_reducible apply foldl_kept | with_reducible apply when_kept | dsimp only | intro _ _ _ | intro _ _ | intro _ | grind [FMT_STAT_WSAFE, HSQ_CTRL_EN, FMT_STAT_STATE])
theorem Mach.splitGate_kept {m : Mach} (n : Stream) (preports : P .reports) (pout : P .out) (pmedia : P .media) (pmotion : P .motion) (rFMT_STAT : ∀ i, i < 8 → R (REG_FMT_STAT i)) (rHSQ_ERR : ∀ i, i < 4 → R (REG_HSQ_ERR i)) (rHSQ_SEL : ∀ i j, i < 4 → j < 2 → R (REG_HSQ_SEL i j)) (hm : Kept P R m0 m) : Kept P R m0 (Mach.splitGate m n) := by
  grind [Mach.splitGate, FMT_STAT_GATE, Mach.setFmt_kept, Mach.driven_kept, Mach.setWpath_kept, Mach.lowerGate_kept, foldl_kept]
theorem Mach.tear_kept {m : Mach} (n : Stream) (bits : Nat) (preports : P .reports) (pout : P .out) (pmedia : P .media) (pmotion : P .motion) (ppwr : P .pwr) (rFMT_CNT_ABORT : ∀ i, i < 8 → R (REG_FMT_CNT_ABORT i)) (rFMT_CNT_MISS : ∀ i, i < 8 → R (REG_FMT_CNT_MISS i)) (rFMT_ERR : ∀ i, i < 8 → R (REG_FMT_ERR i)) (rFMT_STAT : ∀ i, i < 8 → R (REG_FMT_STAT i)) (rHSQ_ERR : ∀ i, i < 4 → R (REG_HSQ_ERR i)) (rHSQ_SEL : ∀ i j, i < 4 → j < 2 → R (REG_HSQ_SEL i j)) (rKSV_GENHI : R REG_KSV_GENHI) (rKSV_GENLO : R REG_KSV_GENLO) (hm : Kept P R m0 m) : Kept P R m0 (Mach.tear m n bits) := by
  unfold Mach.tear
  repeat' (first | with_reducible assumption | split | with_reducible apply when_kept | with_reducible apply Mach.driven_kept | with_reducible apply Mach.failFrom_kept | with_reducible apply Mach.lowerGate_kept | with_reducible apply foldl_kept | dsimp only | intro _ _ _ | intro _ _ | intro _ | grind [FMT_STAT_GATE])
theorem gateReopen_kept (n : Stream) {m : Mach} (preports : P .reports) (pout : P .out) (pmedia : P .media) (pmotion : P .motion) (ppwr : P .pwr) (rFMT_CNT_ABORT : ∀ i, i < 8 → R (REG_FMT_CNT_ABORT i)) (rFMT_CNT_MISS : ∀ i, i < 8 → R (REG_FMT_CNT_MISS i)) (rFMT_ERR : ∀ i, i < 8 → R (REG_FMT_ERR i)) (rFMT_STAT : ∀ i, i < 8 → R (REG_FMT_STAT i)) (rHSQ_ERR : ∀ i, i < 4 → R (REG_HSQ_ERR i)) (rHSQ_SEL : ∀ i j, i < 4 → j < 2 → R (REG_HSQ_SEL i j)) (rKSV_GENHI : R REG_KSV_GENHI) (rKSV_GENLO : R REG_KSV_GENLO) (hm : Kept P R m0 m) : Kept P R m0 (gateReopen n m) := by
  unfold gateReopen
  dsimp only
  split
  · exact hm
  split
  · exact hm
  have h1 : Kept P R m0 (m.set (FMT_STAT_WSAFE n.val) (m.slotSafe (actOf n) (slotOf n))) := set_kept _ _ hm (rFMT_STAT _ n.isLt)
  generalize m.set (FMT_STAT_WSAFE n.val) (m.slotSafe (actOf n) (slotOf n)) = m1 at h1 ⊢
  split
  · exact h1
  split
  · repeat' (first | with_reducible assumption | with_reducible apply Mach.tear_kept | (intro _ _; rfl) | (intro _ _ _; solve_by_elim) | (intro _ _; solve_by_elim) | solve_by_elim | split | grind)
  split
  · repeat' (first | with_reducible assumption | with_reducible apply Mach.tear_kept | with_reducible apply Mach.refuseGate_kept | (intro _ _; rfl) | (intro _ _ _; solve_by_elim) | (intro _ _; solve_by_elim) | solve_by_elim | split | grind)
  · repeat' (first | with_reducible assumption | with_reducible apply Mach.setWpath_kept | with_reducible apply Mach.raiseGate_kept | with_reducible apply Mach.setFmt_kept | (intro _ _; rfl) | (intro _ _ _; solve_by_elim) | (intro _ _; solve_by_elim) | solve_by_elim | split | grind)
theorem wsafeFall_kept (a : Actuator) (bits : Nat) {m : Mach} (preports : P .reports) (pout : P .out) (pmedia : P .media) (pmotion : P .motion) (ppwr : P .pwr) (rFMT_CNT_ABORT : ∀ i, i < 8 → R (REG_FMT_CNT_ABORT i)) (rFMT_CNT_MISS : ∀ i, i < 8 → R (REG_FMT_CNT_MISS i)) (rFMT_ERR : ∀ i, i < 8 → R (REG_FMT_ERR i)) (rFMT_STAT : ∀ i, i < 8 → R (REG_FMT_STAT i)) (rHSQ_ERR : ∀ i, i < 4 → R (REG_HSQ_ERR i)) (rHSQ_SEL : ∀ i j, i < 4 → j < 2 → R (REG_HSQ_SEL i j)) (rKSV_GENHI : R REG_KSV_GENHI) (rKSV_GENLO : R REG_KSV_GENLO) (hm : Kept P R m0 m) : Kept P R m0 (wsafeFall a bits m) := by
  grind [wsafeFall, SRV_STAT_WSAFE, FMT_STAT_GATE, FMT_STAT_WSAFE, Mach.tear_kept, set_kept, foldl_kept]
theorem Mach.sectorDone_kept {m : Mach} (n : Stream) (w : Writing) (pout : P .out) (pmedia : P .media) (hm : Kept P R m0 m) : Kept P R m0 (Mach.sectorDone m n w) := by
  grind [Mach.sectorDone, Mach.setFmt_kept, Mach.itemStatus_kept, Mach.driven_kept, foldl_kept]
theorem Mach.writeBoundary_kept {m : Mach} (n : Stream) (preports : P .reports) (pout : P .out) (pmedia : P .media) (pmotion : P .motion) (ppwr : P .pwr) (rFMT_CNT_ABORT : ∀ i, i < 8 → R (REG_FMT_CNT_ABORT i)) (rFMT_CNT_MISS : ∀ i, i < 8 → R (REG_FMT_CNT_MISS i)) (rFMT_ERR : ∀ i, i < 8 → R (REG_FMT_ERR i)) (rFMT_STAT : ∀ i, i < 8 → R (REG_FMT_STAT i)) (rHSQ_ERR : ∀ i, i < 4 → R (REG_HSQ_ERR i)) (rHSQ_SEL : ∀ i j, i < 4 → j < 2 → R (REG_HSQ_SEL i j)) (rKSV_GENHI : R REG_KSV_GENHI) (rKSV_GENLO : R REG_KSV_GENLO) (hm : Kept P R m0 m) : Kept P R m0 (Mach.writeBoundary m n) := by
  unfold Mach.writeBoundary
  repeat' (first | with_reducible assumption | split | with_reducible apply Mach.sectorDone_kept | with_reducible apply Mach.startSector_kept | with_reducible apply Mach.failFrom_kept | with_reducible apply Mach.lowerGate_kept | with_reducible apply foldl_kept | with_reducible apply when_kept | dsimp only | intro _ _ _ | intro _ _ | intro _ | grind [FMT_STAT_GATE])
theorem runEnd_kept (n : Stream) {m : Mach} (preports : P .reports) (pout : P .out) (pmedia : P .media) (pmotion : P .motion) (ppwr : P .pwr) (rFMT_CNT_ABORT : ∀ i, i < 8 → R (REG_FMT_CNT_ABORT i)) (rFMT_CNT_MISS : ∀ i, i < 8 → R (REG_FMT_CNT_MISS i)) (rFMT_ERR : ∀ i, i < 8 → R (REG_FMT_ERR i)) (rFMT_STAT : ∀ i, i < 8 → R (REG_FMT_STAT i)) (rHSQ_ERR : ∀ i, i < 4 → R (REG_HSQ_ERR i)) (rHSQ_SEL : ∀ i j, i < 4 → j < 2 → R (REG_HSQ_SEL i j)) (rKSV_GENHI : R REG_KSV_GENHI) (rKSV_GENLO : R REG_KSV_GENLO) (hm : Kept P R m0 m) : Kept P R m0 (runEnd n m) := by
  unfold runEnd
  repeat' (first | with_reducible assumption | split | with_reducible apply Mach.nextRun_kept | with_reducible apply Mach.lowerGate_kept | with_reducible apply Mach.sectorDone_kept | with_reducible apply foldl_kept | with_reducible apply when_kept | dsimp only | intro _ _ _ | intro _ _ | intro _ | grind [FMT_STAT_GATE])
theorem fmtEnWrite_kept (n : Stream) (en : Bool) {m : Mach} (rFMT_CTRL : ∀ i, i < 8 → R (REG_FMT_CTRL i)) (hm : Kept P R m0 m) : Kept P R m0 (fmtEnWrite n en m) := by
  grind [fmtEnWrite, FMT_CTRL_EN, setFlag_kept, foldl_kept]
theorem fmtCntclr_kept (n : Stream) {m : Mach} (rFMT_CNT_ABORT : ∀ i, i < 8 → R (REG_FMT_CNT_ABORT i)) (rFMT_CNT_MISS : ∀ i, i < 8 → R (REG_FMT_CNT_MISS i)) (rFMT_CNT_WR : ∀ i, i < 8 → R (REG_FMT_CNT_WR i)) (hm : Kept P R m0 m) : Kept P R m0 (fmtCntclr n m) := by
  grind (splits := 40) (ematch := 20) (gen := 20) (instances := 20000) [fmtCntclr, FMT_CNT_WR_COUNT, FMT_CNT_ABORT_TORN, FMT_CNT_ABORT_UNDERRUN, FMT_CNT_MISS_MISSED, FMT_CNT_MISS_ENCERR, set_kept, foldl_kept]
theorem Mach.momentOf_kept {m : Mach} (n : Stream) (pfreeCtr : P .freeCtr) (pmotion : P .motion) (hm : Kept P R m0 m) : Kept P R m0 (Mach.momentOf m n) := by
  grind [Mach.momentOf, Mach.giveMoment_kept, foldl_kept]
theorem runBegin_kept {m : Mach} (pfreeCtr : P .freeCtr) (pmedia : P .media) (pmotion : P .motion) (ppwr : P .pwr) (rFMT_STAT : ∀ i, i < 8 → R (REG_FMT_STAT i)) (hm : Kept P R m0 m) : Kept P R m0 (runBegin m) := by
  unfold runBegin
  repeat' (first | with_reducible assumption | split | with_reducible apply set_kept | with_reducible apply Mach.setFmt_kept | with_reducible apply when_kept | with_reducible apply Mach.momentOf_kept | with_reducible apply mk_pwr_kept | with_reducible apply foldl_kept | dsimp only | intro _ _ _ | intro _ _ | intro _ | grind [PWR_MODE_MODE, FMT_STAT_STATE])
theorem Mach.dropForeign_kept {m : Mach} (n : Stream) (preports : P .reports) (pmedia : P .media) (pmotion : P .motion) (ppwr : P .pwr) (rFMT_CNT_ABORT : ∀ i, i < 8 → R (REG_FMT_CNT_ABORT i)) (rFMT_CNT_MISS : ∀ i, i < 8 → R (REG_FMT_CNT_MISS i)) (rFMT_ERR : ∀ i, i < 8 → R (REG_FMT_ERR i)) (rFMT_STAT : ∀ i, i < 8 → R (REG_FMT_STAT i)) (rKSV_GENHI : R REG_KSV_GENHI) (rKSV_GENLO : R REG_KSV_GENLO) (hm : Kept P R m0 m) : Kept P R m0 (Mach.dropForeign m n) := by
  unfold Mach.dropForeign
  repeat' (first | with_reducible assumption | split | with_reducible apply Mach.endDesc_kept | with_reducible apply Mach.setFmt_kept | with_reducible apply Mach.dropCodewords_kept | with_reducible apply Mach.setHsq_kept | with_reducible apply Mach.nextRun_kept | with_reducible apply Mach.endReadRun_kept | with_reducible apply foldl_kept | with_reducible apply when_kept | dsimp only | intro _ _ _ | intro _ _ | intro _ | grind [FMT_STAT_STATE])
theorem Mach.takeGeometry_kept {m : Mach} (n : Stream) (preports : P .reports) (pmedia : P .media) (pmotion : P .motion) (ppwr : P .pwr) (rFMT_CNT_ABORT : ∀ i, i < 8 → R (REG_FMT_CNT_ABORT i)) (rFMT_CNT_MISS : ∀ i, i < 8 → R (REG_FMT_CNT_MISS i)) (rFMT_ERR : ∀ i, i < 8 → R (REG_FMT_ERR i)) (rFMT_STAT : ∀ i, i < 8 → R (REG_FMT_STAT i)) (rKSV_GENHI : R REG_KSV_GENHI) (rKSV_GENLO : R REG_KSV_GENLO) (hm : Kept P R m0 m) : Kept P R m0 (Mach.takeGeometry m n) := by
  grind [Mach.takeGeometry, CHN_RATE_M, FMT_GEOM_WEDGE_DATA, FMT_GEOM_SPT, FMT_SKEW_FIRST, FMT_SKEW_CSKEW, FMT_SKEW_HSKEW, FMT_PRECOMP_PRE1, FMT_PRECOMP_PRE2, FMT_PRECOMP_ZONE, Mach.setChan_kept, Mach.dropForeign_kept, foldl_kept]
theorem Mach.geometryWritten_kept {m : Mach} (n : Stream) (preports : P .reports) (pmedia : P .media) (pmotion : P .motion) (ppwr : P .pwr) (rFMT_CNT_ABORT : ∀ i, i < 8 → R (REG_FMT_CNT_ABORT i)) (rFMT_CNT_MISS : ∀ i, i < 8 → R (REG_FMT_CNT_MISS i)) (rFMT_ERR : ∀ i, i < 8 → R (REG_FMT_ERR i)) (rFMT_STAT : ∀ i, i < 8 → R (REG_FMT_STAT i)) (rKSV_GENHI : R REG_KSV_GENHI) (rKSV_GENLO : R REG_KSV_GENLO) (hm : Kept P R m0 m) : Kept P R m0 (Mach.geometryWritten m n) := by
  grind [Mach.geometryWritten, Mach.takeGeometry_kept, foldl_kept]
theorem sectorBoundary_kept (n : Stream) {m : Mach} (preports : P .reports) (pmedia : P .media) (pmotion : P .motion) (ppwr : P .pwr) (rCHN_TSTAT : ∀ i, i < 8 → R (REG_CHN_TSTAT i)) (rFMT_CNT_ABORT : ∀ i, i < 8 → R (REG_FMT_CNT_ABORT i)) (rFMT_CNT_MISS : ∀ i, i < 8 → R (REG_FMT_CNT_MISS i)) (rFMT_ERR : ∀ i, i < 8 → R (REG_FMT_ERR i)) (rFMT_STAT : ∀ i, i < 8 → R (REG_FMT_STAT i)) (rKSV_GENHI : R REG_KSV_GENHI) (rKSV_GENLO : R REG_KSV_GENLO) (hm : Kept P R m0 m) : Kept P R m0 (sectorBoundary n m) := by
  grind [sectorBoundary, Mach.takeGeometry_kept, Mach.channelBoundary_kept, foldl_kept]
theorem Mach.clearFmt_kept {m : Mach} (n : Stream) (pmedia : P .media) (ppwr : P .pwr) (hm : Kept P R m0 m) : Kept P R m0 (Mach.clearFmt m n) := by
  grind [Mach.clearFmt, Mach.setFmt_kept, Mach.setWpath_kept, Mach.setChan_kept, mk_pwr_kept, foldl_kept]
end Sys2Proof.Machine
end

