-- ==== Sys2Proof/Laws/KeptLadder.lean ====
section
/-! SUPPORT. What the operations of Machine/Ladder.lean keep: for each, the parts and the registers it may change. -/
set_option Elab.async false
set_option linter.all false
namespace Sys2Proof.Machine
open Sys2Proof
variable {P : Part → Prop} {R : Nat → Prop} {m0 : Mach}
theorem Mach.setLad_kept {m : Mach} (a : Actuator) (f : LadState → LadState) (pmedia : P .media) (hm : Kept P R m0 m) : Kept P R m0 (Mach.setLad m a f) := by
  grind [Mach.setLad, Mach.setMedia_kept, foldl_kept]
theorem Mach.setJob_kept {m : Mach} (a : Actuator) (f : LadJob → LadJob) (pmedia : P .media) (hm : Kept P R m0 m) : Kept P R m0 (Mach.setJob m a f) := by
  grind [Mach.setJob, Mach.setLad_kept, foldl_kept]
theorem Mach.syncLad_kept {m : Mach} (a : Actuator) (rLAD_STAT : ∀ i, i < 4 → R (REG_LAD_STAT i)) (hm : Kept P R m0 m) : Kept P R m0 (Mach.syncLad m a) := by
  grind [Mach.syncLad, LAD_STAT_JOBS, LAD_STAT_STATE, LAD_STAT_STEP, LAD_STAT_SSEL, set_kept, foldl_kept]
theorem Mach.commandsPassed_kept {m : Mach} (tag : BitVec 64) (next : Nat) (pcmd : P .cmd) (hm : Kept P R m0 m) : Kept P R m0 (Mach.commandsPassed m tag next) := by
  grind [Mach.commandsPassed, Mach.setCmd_kept, foldl_kept]
theorem Mach.freeJobSlots_kept {m : Mach} (a : Actuator) (j : LadJob) (pmedia : P .media) (rCHN_SMEM : ∀ i, i < 8 → R (REG_CHN_SMEM i)) (hm : Kept P R m0 m) : Kept P R m0 (Mach.freeJobSlots m a j) := by
  grind [Mach.freeJobSlots, Mach.freeSlot_kept, foldl_kept]
theorem Mach.dropRequests_kept {m : Mach} (a : Actuator) (p : LadJob → Bool) (pmedia : P .media) (hm : Kept P R m0 m) : Kept P R m0 (Mach.dropRequests m a p) := by
  grind [Mach.dropRequests, Mach.setDec_kept, foldl_kept]
theorem Mach.orphanRequests_kept {m : Mach} (a : Actuator) (j : LadJob) (pmedia : P .media) (hm : Kept P R m0 m) : Kept P R m0 (Mach.orphanRequests m a j) := by
  grind [Mach.orphanRequests, Mach.setDec_kept, foldl_kept]
theorem Mach.endJob_kept {m : Mach} (a : Actuator) (o : JobOutcome) (step : Nat) (pmedia : P .media) (pmotion : P .motion) (rCHN_SMEM : ∀ i, i < 8 → R (REG_CHN_SMEM i)) (rDEC_BUSY : R REG_DEC_BUSY) (rSRV_STAT : ∀ i, i < 4 → R (REG_SRV_STAT i)) (rSRV_TARGET : ∀ i j, i < 4 → j < 2 → R (REG_SRV_TARGET i j)) (hm : Kept P R m0 m) : Kept P R m0 (Mach.endJob m a o step) := by
  unfold Mach.endJob
  repeat' (first | with_reducible assumption | split | with_reducible apply Mach.syncDec_kept | with_reducible apply Mach.freeJobSlots_kept | with_reducible apply Mach.orphanRequests_kept | with_reducible apply Mach.restoreHead_kept | with_reducible apply Mach.setJob_kept | with_reducible apply foldl_kept | with_reducible apply when_kept | dsimp only | intro _ _ _ | intro _ _ | intro _ | grind [])
theorem Mach.nextStep_kept {m : Mach} (a : Actuator) (s : Nat) (pmedia : P .media) (pmotion : P .motion) (pcmd : P .cmd) (rCHN_SMEM : ∀ i, i < 8 → R (REG_CHN_SMEM i)) (rDEC_BUSY : R REG_DEC_BUSY) (rSRV_STAT : ∀ i, i < 4 → R (REG_SRV_STAT i)) (rSRV_TARGET : ∀ i j, i < 4 → j < 2 → R (REG_SRV_TARGET i j)) (hm : Kept P R m0 m) : Kept P R m0 (Mach.nextStep m a s) := by
  unfold Mach.nextStep
  repeat' (first | with_reducible assumption | split | with_reducible apply Mach.commandsPassed_kept | with_reducible apply Mach.endJob_kept | with_reducible apply Mach.freeSlot_kept | with_reducible apply Mach.setJob_kept | with_reducible apply Mach.restoreHead_kept | with_reducible apply foldl_kept | with_reducible apply when_kept | dsimp only | intro _ _ _ | intro _ _ | intro _ | grind [])
theorem ladStart_kept (a : Actuator) (w : Word) {m : Mach} (preports : P .reports) (pmedia : P .media) (pcmd : P .cmd) (rCHN_SMEM : ∀ i, i < 8 → R (REG_CHN_SMEM i)) (rLAD_ERR : ∀ i, i < 4 → R (REG_LAD_ERR i)) (rLAD_STAT : ∀ i, i < 4 → R (REG_LAD_STAT i)) (hm : Kept P R m0 m) : Kept P R m0 (ladStart a w m) := by
  grind [ladStart, LAD_ERR_START_BAD, LAD_ERR_START_DUP, LAD_ERR_START_FULL, when_kept, flagEvent_kept, Mach.freeSlot_kept, Mach.setLad_kept, Mach.syncLad_kept, Mach.commandsPassed_kept, foldl_kept]
theorem ladRaise_kept (a : Actuator) (w : Word) {m : Mach} (preports : P .reports) (pmedia : P .media) (rLAD_ERR : ∀ i, i < 4 → R (REG_LAD_ERR i)) (hm : Kept P R m0 m) : Kept P R m0 (ladRaise a w m) := by
  grind [ladRaise, LAD_ERR_RAISE_BAD, Mach.setLad_kept, flagEvent_kept, foldl_kept]
theorem Mach.orderError_kept {m : Mach} (a : Actuator) (preports : P .reports) (rLAD_ERR : ∀ i, i < 4 → R (REG_LAD_ERR i)) (hm : Kept P R m0 m) : Kept P R m0 (Mach.orderError m a) := by
  grind [Mach.orderError, LAD_ERR_ORDER, flagEvent_kept, foldl_kept]
theorem attempt_kept (a : Actuator) (xreg : Gp) {m : Mach} (preports : P .reports) (pmedia : P .media) (rDEC_BUSY : R REG_DEC_BUSY) (rLAD_ERR : ∀ i, i < 4 → R (REG_LAD_ERR i)) (rLAD_STAT : ∀ i, i < 4 → R (REG_LAD_STAT i)) (hm : Kept P R m0 m) : Kept P R m0 (attempt a xreg m) := by
  grind (splits := 40) (ematch := 20) (gen := 20) (instances := 20000) [attempt, CHN_CTRL_READERS, Mach.orderError_kept, Mach.setDec_kept, Mach.setJob_kept, Mach.syncLad_kept, Mach.syncDec_kept, foldl_kept]
theorem Mach.releaseEnded_kept {m : Mach} (a : Actuator) (j : LadJob) (pmedia : P .media) (rCHN_SMEM : ∀ i, i < 8 → R (REG_CHN_SMEM i)) (hm : Kept P R m0 m) : Kept P R m0 (Mach.releaseEnded m a j) := by
  grind [Mach.releaseEnded, Mach.freeSlot_kept, Mach.setJob_kept, foldl_kept]
theorem attemptEnd_kept (a : Actuator) {m : Mach} (pcal : P .cal) (pmedia : P .media) (pmotion : P .motion) (pcmd : P .cmd) (rCHN_SMEM : ∀ i, i < 8 → R (REG_CHN_SMEM i)) (rDEC_BUSY : R REG_DEC_BUSY) (rLAD_STAT : ∀ i, i < 4 → R (REG_LAD_STAT i)) (rSRV_STAT : ∀ i, i < 4 → R (REG_SRV_STAT i)) (rSRV_TARGET : ∀ i j, i < 4 → j < 2 → R (REG_SRV_TARGET i j)) (hm : Kept P R m0 m) : Kept P R m0 (attemptEnd a m) := by
  unfold attemptEnd
  split
  · exact hm
  split
  · exact hm
  dsimp only
  refine Mach.syncLad_kept _ (by assumption) (?_)
  have h1 : ∀ j, Kept P R m0 (m.releaseEnded a j) := fun j => Mach.releaseEnded_kept _ _ (by assumption) (by assumption) (hm)
  split
  · have h2 : ∀ (m : Mach) f, Kept P R m0 m → Kept P R m0 (m.setJob a f) := fun m f h => Mach.setJob_kept _ _ (by assumption) (h)
    split
    · exact Mach.endJob_kept _ _ _ (by assumption) (by assumption) (by assumption) (by assumption) (by assumption) (by assumption) (h2 _ _ (h1 _))
    · refine Mach.endJob_kept _ _ _ (by assumption) (by assumption) (by assumption) (by assumption) (by assumption) (by assumption) (?_)
      exact when_kept _ (fun m h => Mach.startWriteBack_kept _ _ _ _ _ (by assumption) (by assumption) (h)) (h2 _ _ (h1 _))
  · split
    · split
      · exact Mach.endJob_kept _ _ _ (by assumption) (by assumption) (by assumption) (by assumption) (by assumption) (by assumption) (Mach.setJob_kept _ _ (by assumption) (h1 _))
      · exact Mach.nextStep_kept _ _ (by assumption) (by assumption) (by assumption) (by assumption) (by assumption) (by assumption) (by assumption) (Mach.setJob_kept _ _ (by assumption) (h1 _))
    · split
      · exact Mach.endJob_kept _ _ _ (by assumption) (by assumption) (by assumption) (by assumption) (by assumption) (by assumption) (h1 _)
      · exact h1 _
theorem Mach.changeHead_kept {m : Mach} (a : Actuator) (j : LadJob) (offset : Int) (heater : Int) (pmedia : P .media) (pmotion : P .motion) (rSRV_STAT : ∀ i, i < 4 → R (REG_SRV_STAT i)) (rSRV_TARGET : ∀ i j, i < 4 → j < 2 → R (REG_SRV_TARGET i j)) (hm : Kept P R m0 m) : Kept P R m0 (Mach.changeHead m a j offset heater) := by
  grind [Mach.changeHead, SRV_TARGET_TARGET, when_kept, Mach.writeTarget_kept, Mach.setHsq_kept, Mach.setJob_kept, foldl_kept]
theorem armcap_kept (a : Actuator) (xreg : Gp) {m : Mach} (preports : P .reports) (pmedia : P .media) (pmotion : P .motion) (rLAD_ERR : ∀ i, i < 4 → R (REG_LAD_ERR i)) (rLAD_STAT : ∀ i, i < 4 → R (REG_LAD_STAT i)) (rSRV_STAT : ∀ i, i < 4 → R (REG_SRV_STAT i)) (rSRV_TARGET : ∀ i j, i < 4 → j < 2 → R (REG_SRV_TARGET i j)) (hm : Kept P R m0 m) : Kept P R m0 (armcap a xreg m) := by
  grind [armcap, LAD_PARAM_OFF1, LAD_PARAM_HEAT1, LAD_PARAM_HEAT2, Mach.orderError_kept, Mach.syncLad_kept, Mach.setJob_kept, Mach.changeHead_kept, foldl_kept]
theorem heaterSettleEnd_kept (a : Actuator) {m : Mach} (pmedia : P .media) (rLAD_STAT : ∀ i, i < 4 → R (REG_LAD_STAT i)) (hm : Kept P R m0 m) : Kept P R m0 (heaterSettleEnd a m) := by
  grind [heaterSettleEnd, Mach.syncLad_kept, Mach.setJob_kept, foldl_kept]
theorem captureTaken_kept (a : Actuator) (samples : Samples) {m : Mach} (pfreeCtr : P .freeCtr) (preports : P .reports) (pmedia : P .media) (rAFE_LANE_STAT : ∀ i, i < 16 → R (REG_AFE_LANE_STAT i)) (rCHN_CNT_SECT : ∀ i, i < 8 → R (REG_CHN_CNT_SECT i)) (rCHN_CNT_TA : ∀ i, i < 8 → R (REG_CHN_CNT_TA i)) (rCHN_SMEM : ∀ i, i < 8 → R (REG_CHN_SMEM i)) (rLAD_STAT : ∀ i, i < 4 → R (REG_LAD_STAT i)) (hm : Kept P R m0 m) : Kept P R m0 (captureTaken a samples m) := by
  unfold captureTaken
  dsimp only
  repeat' split
  all_goals grind (splits := 30) (ematch := 12) (gen := 12) (instances := 8000) [SRV_STAT_TRK_CONF, Mach.fillSlot_kept, Mach.syncLad_kept, Mach.setJob_kept, foldl_kept]
theorem avgadd_kept (a : Actuator) {m : Mach} (preports : P .reports) (pmedia : P .media) (rCHN_SMEM : ∀ i, i < 8 → R (REG_CHN_SMEM i)) (rLAD_ERR : ∀ i, i < 4 → R (REG_LAD_ERR i)) (rLAD_STAT : ∀ i, i < 4 → R (REG_LAD_STAT i)) (hm : Kept P R m0 m) : Kept P R m0 (avgadd a m) := by
  grind [avgadd, Mach.orderError_kept, Mach.setJob_kept, Mach.syncLad_kept, Mach.freeSlot_kept, foldl_kept]
theorem rebuild_kept (a : Actuator) {m : Mach} (preports : P .reports) (pmedia : P .media) (rLAD_ERR : ∀ i, i < 4 → R (REG_LAD_ERR i)) (rLAD_STAT : ∀ i, i < 4 → R (REG_LAD_STAT i)) (hm : Kept P R m0 m) : Kept P R m0 (rebuild a m) := by
  grind [rebuild, Mach.orderError_kept, Mach.syncLad_kept, Mach.setJob_kept, foldl_kept]
theorem rebuildDone_kept (a : Actuator) (group : List (Option MemberRead)) {m : Mach} (pcal : P .cal) (pmedia : P .media) (pmotion : P .motion) (pcmd : P .cmd) (rCHN_SMEM : ∀ i, i < 8 → R (REG_CHN_SMEM i)) (rDEC_BUSY : R REG_DEC_BUSY) (rLAD_STAT : ∀ i, i < 4 → R (REG_LAD_STAT i)) (rSRV_STAT : ∀ i, i < 4 → R (REG_SRV_STAT i)) (rSRV_TARGET : ∀ i j, i < 4 → j < 2 → R (REG_SRV_TARGET i j)) (hm : Kept P R m0 m) : Kept P R m0 (rebuildDone a group m) := by
  unfold rebuildDone
  repeat' (first | with_reducible assumption | split | with_reducible apply Mach.setJob_kept | with_reducible apply Mach.endJob_kept | with_reducible apply Mach.nextStep_kept | with_reducible apply when_kept | with_reducible apply Mach.startWriteBack_kept | with_reducible apply Mach.syncLad_kept | with_reducible apply foldl_kept | dsimp only | intro _ _ _ | intro _ _ | intro _ | grind [])
theorem record_kept (a : Actuator) {m : Mach} (preports : P .reports) (pout : P .out) (pmedia : P .media) (pbuf : P .buf) (rBUF_CNT : R REG_BUF_CNT) (rBUF_ERR : R REG_BUF_ERR) (rBUF_FIRST : R REG_BUF_FIRST) (rCCH_MISS : R REG_CCH_MISS) (rLAD_RING_HEAD : ∀ i, i < 4 → R (REG_LAD_RING_HEAD i)) (hm : Kept P R m0 m) : Kept P R m0 (record a m) := by
  grind (splits := 40) (ematch := 20) (gen := 20) (instances := 20000) [record, LAD_RING_BASE_ADDR, LAD_RING_HEAD_HEAD, Mach.writeBytes_kept, set_kept, Mach.setJob_kept, foldl_kept]
theorem Mach.addCandidate_kept {m : Mach} (tag : BitVec 64) (pcmd : P .cmd) (hm : Kept P R m0 m) : Kept P R m0 (Mach.addCandidate m tag) := by
  grind [Mach.addCandidate, Mach.setCmd_kept, foldl_kept]
theorem Mach.verifyEnded_kept {m : Mach} (n : Stream) (d : SectorDesc) (good : Bool) (preports : P .reports) (pout : P .out) (pmedia : P .media) (pbuf : P .buf) (pcmd : P .cmd) (rBUF_CNT : R REG_BUF_CNT) (rBUF_ERR : R REG_BUF_ERR) (rBUF_FIRST : R REG_BUF_FIRST) (rCCH_MISS : R REG_CCH_MISS) (rFMT_DMAP_COUNT : ∀ i, i < 8 → R (REG_FMT_DMAP_COUNT i)) (hm : Kept P R m0 m) : Kept P R m0 (Mach.verifyEnded m n d good) := by
  grind [Mach.verifyEnded, Mach.setCandidate_kept, Mach.reallocate_kept, foldl_kept]
theorem Mach.jobCandidate_kept {m : Mach} (n : Stream) (d : SectorDesc) (bad : Bool) (preports : P .reports) (pout : P .out) (pmedia : P .media) (pbuf : P .buf) (pcmd : P .cmd) (rBUF_CNT : R REG_BUF_CNT) (rBUF_ERR : R REG_BUF_ERR) (rBUF_FIRST : R REG_BUF_FIRST) (rCCH_MISS : R REG_CCH_MISS) (rFMT_DMAP_COUNT : ∀ i, i < 8 → R (REG_FMT_DMAP_COUNT i)) (hm : Kept P R m0 m) : Kept P R m0 (Mach.jobCandidate m n d bad) := by
  grind [Mach.jobCandidate, Mach.verifyEnded_kept, when_kept, Mach.addCandidate_kept, foldl_kept]
theorem jobEnd_kept (a : Actuator) {m : Mach} (preports : P .reports) (pout : P .out) (pmedia : P .media) (ppwr : P .pwr) (pbuf : P .buf) (pcmd : P .cmd) (rBUF_CNT : R REG_BUF_CNT) (rBUF_ERR : R REG_BUF_ERR) (rBUF_FIRST : R REG_BUF_FIRST) (rCCH_MISS : R REG_CCH_MISS) (rFMT_DMAP_COUNT : ∀ i, i < 8 → R (REG_FMT_DMAP_COUNT i)) (rLAD_CNT_END : ∀ i, i < 4 → R (REG_LAD_CNT_END i)) (rLAD_CNT_STEP : ∀ i j, i < 4 → j < 16 → R (REG_LAD_CNT_STEP i j)) (rLAD_STAT : ∀ i, i < 4 → R (REG_LAD_STAT i)) (hm : Kept P R m0 m) : Kept P R m0 (jobEnd a m) := by
  unfold jobEnd
  repeat' (first | with_reducible assumption | split | with_reducible apply Mach.setLad_kept | with_reducible apply incSat_kept | with_reducible apply when_kept | with_reducible apply Mach.passRead_kept | with_reducible apply Mach.jobCandidate_kept | with_reducible apply report_kept | with_reducible apply Mach.commandsPassed_kept | with_reducible apply Mach.syncLad_kept | with_reducible apply foldl_kept | dsimp only | intro _ _ _ | intro _ _ | intro _ | grind [LAD_CNT_STEP_COUNT, LAD_CNT_END_UNREC, LAD_CNT_END_WITHDRAWN])
theorem Mach.withdrawNow_kept {m : Mach} (a : Actuator) (p : LadJob → Bool) (pmedia : P .media) (pmotion : P .motion) (rCHN_SMEM : ∀ i, i < 8 → R (REG_CHN_SMEM i)) (rDEC_BUSY : R REG_DEC_BUSY) (rLAD_STAT : ∀ i, i < 4 → R (REG_LAD_STAT i)) (rSRV_STAT : ∀ i, i < 4 → R (REG_SRV_STAT i)) (rSRV_TARGET : ∀ i j, i < 4 → j < 2 → R (REG_SRV_TARGET i j)) (hm : Kept P R m0 m) : Kept P R m0 (Mach.withdrawNow m a p) := by
  unfold Mach.withdrawNow
  repeat' (first | with_reducible assumption | split | with_reducible apply Mach.restoreHead_kept | with_reducible apply Mach.freeJobSlots_kept | with_reducible apply Mach.dropRequests_kept | with_reducible apply Mach.setLad_kept | with_reducible apply Mach.syncLad_kept | with_reducible apply Mach.syncDec_kept | with_reducible apply foldl_kept | with_reducible apply when_kept | dsimp only | intro _ _ _ | intro _ _ | intro _ | grind [])
theorem Mach.withdrawAll_kept {m : Mach} (a : Actuator) (pmedia : P .media) (pmotion : P .motion) (rCHN_SMEM : ∀ i, i < 8 → R (REG_CHN_SMEM i)) (rDEC_BUSY : R REG_DEC_BUSY) (rLAD_STAT : ∀ i, i < 4 → R (REG_LAD_STAT i)) (rSRV_STAT : ∀ i, i < 4 → R (REG_SRV_STAT i)) (rSRV_TARGET : ∀ i j, i < 4 → j < 2 → R (REG_SRV_TARGET i j)) (hm : Kept P R m0 m) : Kept P R m0 (Mach.withdrawAll m a) := by
  grind [Mach.withdrawAll, Mach.withdrawNow_kept, foldl_kept]
theorem Mach.withdrawAborted_kept {m : Mach} (gone : List Cmd) (pmedia : P .media) (hm : Kept P R m0 m) : Kept P R m0 (Mach.withdrawAborted m gone) := by
  grind [Mach.withdrawAborted, Mach.setMedia_kept, foldl_kept]
theorem Mach.withdrawReset_kept {m : Mach} (gone : List Cmd) (pmedia : P .media) (pmotion : P .motion) (rCHN_SMEM : ∀ i, i < 8 → R (REG_CHN_SMEM i)) (rDEC_BUSY : R REG_DEC_BUSY) (rLAD_STAT : ∀ i, i < 4 → R (REG_LAD_STAT i)) (rSRV_STAT : ∀ i, i < 4 → R (REG_SRV_STAT i)) (rSRV_TARGET : ∀ i j, i < 4 → j < 2 → R (REG_SRV_TARGET i j)) (hm : Kept P R m0 m) : Kept P R m0 (Mach.withdrawReset m gone) := by
  grind [Mach.withdrawReset, Mach.withdrawNow_kept, foldl_kept]
theorem ladEnWrite_kept (a : Actuator) (en : Bool) {m : Mach} (rLAD_CTRL : ∀ i, i < 4 → R (REG_LAD_CTRL i)) (hm : Kept P R m0 m) : Kept P R m0 (ladEnWrite a en m) := by
  grind [ladEnWrite, LAD_CTRL_EN, setFlag_kept, foldl_kept]
theorem ladCntclr_kept (a : Actuator) {m : Mach} (rLAD_CNT_END : ∀ i, i < 4 → R (REG_LAD_CNT_END i)) (rLAD_CNT_STEP : ∀ i j, i < 4 → j < 16 → R (REG_LAD_CNT_STEP i j)) (rLAD_CNT_SYNC : ∀ i, i < 4 → R (REG_LAD_CNT_SYNC i)) (hm : Kept P R m0 m) : Kept P R m0 (ladCntclr a m) := by
  grind (splits := 30) (ematch := 12) (gen := 12) (instances := 8000) [ladCntclr, LAD_CNT_STEP_COUNT, LAD_CNT_END_UNREC, LAD_CNT_END_WITHDRAWN, LAD_CNT_SYNC_BLIND, LAD_CNT_SYNC_LATE, set_kept, foldl_mem_kept, List.mem_range]
theorem Mach.clearLad_kept {m : Mach} (a : Actuator) (pmedia : P .media) (hm : Kept P R m0 m) : Kept P R m0 (Mach.clearLad m a) := by
  grind [Mach.clearLad, Mach.setLad_kept, foldl_kept]
end Sys2Proof.Machine
end

