-- ==== Sys2Proof/Laws/KeptRetract.lean ====
section
/-! SUPPORT. What the operations of Machine/Retract.lean keep: for each, the parts and the registers it may change. -/
set_option Elab.async false
set_option linter.all false
namespace Sys2Proof.Machine
open Sys2Proof
variable {P : Part → Prop} {R : Nat → Prop} {m0 : Mach}
theorem Mach.setDie_kept {m : Mach} (f : PowerDie → PowerDie) (pdie : P .die) (hm : Kept P R m0 m) : Kept P R m0 (Mach.setDie m f) := by
  grind [Mach.setDie, mk_die_kept, foldl_kept]
theorem Mach.setPrg_kept {m : Mach} (a : Actuator) (f : PrgState → PrgState) (pmotion : P .motion) (hm : Kept P R m0 m) : Kept P R m0 (Mach.setPrg m a f) := by
  grind [Mach.setPrg, mk_motion_kept, foldl_kept]
theorem Mach.setQdr_kept {m : Mach} (f : QdrState → QdrState) (pmotion : P .motion) (hm : Kept P R m0 m) : Kept P R m0 (Mach.setQdr m f) := by
  grind [Mach.setQdr, mk_motion_kept, foldl_kept]
theorem Mach.syncAct_kept {m : Mach} (a : Actuator) (preports : P .reports) (rQDR_ACT : ∀ i, i < 4 → R (REG_QDR_ACT i)) (hm : Kept P R m0 m) : Kept P R m0 (Mach.syncAct m a) := by
  grind [Mach.syncAct, QDR_ACT_DEPOP, QDR_ACT_RO, QDR_ACT_STATE, set_kept, when_kept, report_kept, foldl_kept]
theorem Mach.setParked_kept {m : Mach} (a : Actuator) (b : Bool) (pdie : P .die) (rQDR_ACT : ∀ i, i < 4 → R (REG_QDR_ACT i)) (rVCM_STAT : ∀ i, i < 4 → R (REG_VCM_STAT i)) (hm : Kept P R m0 m) : Kept P R m0 (Mach.setParked m a b) := by
  grind [Mach.setParked, VCM_STAT_PARKED, QDR_ACT_PARKED, Mach.setDie_kept, setFlag_kept, foldl_kept]
theorem Mach.setMaRef_kept {m : Mach} (a : Actuator) (v : Vector Int 2) (pdie : P .die) (rVCM_MA : ∀ i, i < 4 → R (REG_VCM_MA i)) (hm : Kept P R m0 m) : Kept P R m0 (Mach.setMaRef m a v) := by
  grind [Mach.setMaRef, VCM_MA_LIM0, VCM_MA_LIM1, Mach.setDie_kept, when_kept, set_kept, foldl_kept]
theorem Mach.clearClips_kept {m : Mach} (a : Actuator) (pdie : P .die) (rVCM_STAT : ∀ i, i < 4 → R (REG_VCM_STAT i)) (hm : Kept P R m0 m) : Kept P R m0 (Mach.clearClips m a) := by
  unfold Mach.clearClips
  repeat' (first | with_reducible assumption | split | with_reducible apply Mach.setDie_kept | with_reducible apply set_kept | with_reducible apply foldl_kept | with_reducible apply when_kept | dsimp only | intro _ _ _ | intro _ _ | intro _ | grind [VCM_STAT_CLIP_PEAK, VCM_STAT_CLIP_CONT, VCM_STAT_CLIP_SUM, VCM_STAT_CLIP_OV])
theorem Mach.startRetract_kept {m : Mach} (a : Actuator) (pdie : P .die) (rVCM_MA : ∀ i, i < 4 → R (REG_VCM_MA i)) (rVCM_STAT : ∀ i, i < 4 → R (REG_VCM_STAT i)) (hm : Kept P R m0 m) : Kept P R m0 (Mach.startRetract m a) := by
  grind [Mach.startRetract, VCM_STAT_MODE, Mach.setDie_kept, set_kept, Mach.setMaRef_kept, Mach.clearClips_kept, foldl_kept]
theorem Mach.retractAll_kept {m : Mach} (pdie : P .die) (rVCM_MA : ∀ i, i < 4 → R (REG_VCM_MA i)) (rVCM_STAT : ∀ i, i < 4 → R (REG_VCM_STAT i)) (hm : Kept P R m0 m) : Kept P R m0 (Mach.retractAll m) := by
  grind [Mach.retractAll, Mach.startRetract_kept, foldl_kept]
theorem Mach.clearQdrOut_kept {m : Mach} (a : Actuator) (pmotion : P .motion) (rQDR_OUT : ∀ i, i < 4 → R (REG_QDR_OUT i)) (hm : Kept P R m0 m) : Kept P R m0 (Mach.clearQdrOut m a) := by
  grind [Mach.clearQdrOut, QDR_OUT_OUT, QDR_OUT_SAT, set_kept, Mach.setQdr_kept, foldl_kept]
theorem Mach.abortProfile_kept {m : Mach} (a : Actuator) (pmotion : P .motion) (hm : Kept P R m0 m) : Kept P R m0 (Mach.abortProfile m a) := by
  grind [Mach.abortProfile, PRG_STAT_STATE, Mach.setPrg_kept, foldl_kept]
theorem Mach.stopFormatters_kept {m : Mach} (a : Actuator) (pmedia : P .media) (rFMT_CTRL : ∀ i, i < 8 → R (REG_FMT_CTRL i)) (hm : Kept P R m0 m) : Kept P R m0 (Mach.stopFormatters m a) := by
  grind [Mach.stopFormatters, FMT_CTRL_EN, Mach.setFmt_kept, set_kept, foldl_kept]
theorem Mach.restoreDepop_kept {m : Mach} (a : Actuator) (rQDR_ACT : ∀ i, i < 4 → R (REG_QDR_ACT i)) (hm : Kept P R m0 m) : Kept P R m0 (Mach.restoreDepop m a) := by
  grind [Mach.restoreDepop, QDR_ACT_DEPOP, QDR_ACT_HEAD_DEPOP, when_kept, set_kept, foldl_kept]
theorem Mach.parkWork_kept {m : Mach} (a : Actuator) (preports : P .reports) (pmotion : P .motion) (rQDR_ACT : ∀ i, i < 4 → R (REG_QDR_ACT i)) (rQDR_OUT : ∀ i, i < 4 → R (REG_QDR_OUT i)) (rSRV_FAULT : ∀ i, i < 4 → R (REG_SRV_FAULT i)) (hm : Kept P R m0 m) : Kept P R m0 (Mach.parkWork m a) := by
  unfold Mach.parkWork
  repeat' (first | with_reducible assumption | split | with_reducible apply Mach.restoreDepop_kept | with_reducible apply when_kept | with_reducible apply report_kept | with_reducible apply Mach.clearQdrOut_kept | with_reducible apply set_kept | with_reducible apply Mach.syncAct_kept | with_reducible apply mk_motion_kept | with_reducible apply foldl_kept | dsimp only | intro _ _ _ | intro _ _ | intro _ | grind [QDR_ACT_DEPOP])
theorem Mach.actuatorFault_kept {m : Mach} (a : Actuator) (cause : Nat) (preports : P .reports) (pmedia : P .media) (pmotion : P .motion) (pdie : P .die) (rCHN_SMEM : ∀ i, i < 8 → R (REG_CHN_SMEM i)) (rDEC_BUSY : R REG_DEC_BUSY) (rFMT_CTRL : ∀ i, i < 8 → R (REG_FMT_CTRL i)) (rLAD_STAT : ∀ i, i < 4 → R (REG_LAD_STAT i)) (rQDR_ACT : ∀ i, i < 4 → R (REG_QDR_ACT i)) (rQDR_OUT : ∀ i, i < 4 → R (REG_QDR_OUT i)) (rSRV_FAULT : ∀ i, i < 4 → R (REG_SRV_FAULT i)) (rSRV_STAT : ∀ i, i < 4 → R (REG_SRV_STAT i)) (rSRV_TARGET : ∀ i j, i < 4 → j < 2 → R (REG_SRV_TARGET i j)) (rVCM_MA : ∀ i, i < 4 → R (REG_VCM_MA i)) (rVCM_STAT : ∀ i, i < 4 → R (REG_VCM_STAT i)) (hm : Kept P R m0 m) : Kept P R m0 (Mach.actuatorFault m a cause) := by
  unfold Mach.actuatorFault
  repeat' (first | with_reducible assumption | split | with_reducible apply report_kept | with_reducible apply set_kept | with_reducible apply Mach.dropWsafe_kept | with_reducible apply Mach.setSrv_kept | with_reducible apply Mach.setMaRef_kept | with_reducible apply Mach.syncAct_kept | with_reducible apply Mach.stopFormatters_kept | with_reducible apply Mach.clearQdrOut_kept | with_reducible apply Mach.withdrawAll_kept | with_reducible apply Mach.abortProfile_kept | with_reducible apply Mach.startRetract_kept | with_reducible apply mk_motion_kept | with_reducible apply foldl_kept | with_reducible apply when_kept | dsimp only | intro _ _ _ | intro _ _ | intro _ | grind [])
theorem retractStart_kept (a : Actuator) {m : Mach} (pdie : P .die) (rVCM_MA : ∀ i, i < 4 → R (REG_VCM_MA i)) (rVCM_STAT : ∀ i, i < 4 → R (REG_VCM_STAT i)) (hm : Kept P R m0 m) : Kept P R m0 (retractStart a m) := by
  grind [retractStart, Mach.startRetract_kept, foldl_kept]
theorem retractVelocityEnd_kept (a : Actuator) {m : Mach} (pdie : P .die) (hm : Kept P R m0 m) : Kept P R m0 (retractVelocityEnd a m) := by
  grind [retractVelocityEnd, VCM_RET1_CLIMB_I, Mach.setDie_kept, foldl_kept]
theorem Mach.parkPhase_kept {m : Mach} (a : Actuator) (pdie : P .die) (hm : Kept P R m0 m) : Kept P R m0 (Mach.parkPhase m a) := by
  grind [Mach.parkPhase, VCM_RET1_PARK_I, Mach.setDie_kept, foldl_kept]
theorem retractClimbEnd_kept (a : Actuator) {m : Mach} (pdie : P .die) (hm : Kept P R m0 m) : Kept P R m0 (retractClimbEnd a m) := by
  grind [retractClimbEnd, Mach.parkPhase_kept, foldl_kept]
theorem retractTimeout_kept (a : Actuator) {m : Mach} (preports : P .reports) (pdie : P .die) (rVCM_FAULT : ∀ i, i < 4 → R (REG_VCM_FAULT i)) (hm : Kept P R m0 m) : Kept P R m0 (retractTimeout a m) := by
  grind [retractTimeout, VCM_FAULT_RET_TO, flagEvent_kept, Mach.parkPhase_kept, foldl_kept]
theorem retractParkEnd_kept (a : Actuator) {m : Mach} (preports : P .reports) (pmotion : P .motion) (pdie : P .die) (rQDR_ACT : ∀ i, i < 4 → R (REG_QDR_ACT i)) (rQDR_OUT : ∀ i, i < 4 → R (REG_QDR_OUT i)) (rSRV_FAULT : ∀ i, i < 4 → R (REG_SRV_FAULT i)) (rSRV_STAT : ∀ i, i < 4 → R (REG_SRV_STAT i)) (rVCM_MA : ∀ i, i < 4 → R (REG_VCM_MA i)) (rVCM_STAT : ∀ i, i < 4 → R (REG_VCM_STAT i)) (hm : Kept P R m0 m) : Kept P R m0 (retractParkEnd a m) := by
  unfold retractParkEnd
  repeat' (first | with_reducible assumption | split | with_reducible apply Mach.setDie_kept | with_reducible apply Mach.setParked_kept | with_reducible apply set_kept | with_reducible apply Mach.setMaRef_kept | with_reducible apply Mach.clearClips_kept | with_reducible apply Mach.parkWork_kept | with_reducible apply foldl_kept | with_reducible apply when_kept | dsimp only | intro _ _ _ | intro _ _ | intro _ | grind [VCM_STAT_MODE, SRV_STAT_LOCK, SRV_STAT_TRK_CONF, SRV_STAT_ONTRACK])
end Sys2Proof.Machine
end

