-- ==== Sys2Proof/Laws/KeptServo.lean ====
section
/-! SUPPORT. What the operations of Machine/Servo.lean keep: for each, the parts and the registers it may change. -/
set_option Elab.async false
set_option linter.all false
namespace Sys2Proof.Machine
open Sys2Proof
variable {P : Part → Prop} {R : Nat → Prop} {m0 : Mach}
theorem servoGateOpen_kept (a : Actuator) (k : HeadSlot) {m : Mach} (preports : P .reports) (pout : P .out) (pmedia : P .media) (pmotion : P .motion) (rFMT_STAT : ∀ i, i < 8 → R (REG_FMT_STAT i)) (rHSQ_ERR : ∀ i, i < 4 → R (REG_HSQ_ERR i)) (rHSQ_SEL : ∀ i j, i < 4 → j < 2 → R (REG_HSQ_SEL i j)) (hm : Kept P R m0 m) : Kept P R m0 (servoGateOpen a k m) := by
  grind [servoGateOpen, SRV_TEST_TEST, Mach.splitGate_kept, Mach.setSrvSlot_kept, foldl_kept]
theorem samSearchEnd_kept (a : Actuator) (k : HeadSlot) (x : List Bool) (y : List Bool) {m : Mach} (rSRV_STAT : ∀ i, i < 4 → R (REG_SRV_STAT i)) (hm : Kept P R m0 m) : Kept P R m0 (samSearchEnd a k x y m) := by
  grind [samSearchEnd, SRV_CFG_SREADER, Mach.dropWsafe_kept, foldl_kept]
theorem Mach.seedTest_kept {m : Mach} (a : Actuator) (rSRV_TEST : ∀ i, i < 4 → R (REG_SRV_TEST i)) (hm : Kept P R m0 m) : Kept P R m0 (Mach.seedTest m a) := by
  grind [Mach.seedTest, SPN_SPEED_SPEED, SRV_TEST_TEST, SPN_SPEED_VALID, set_kept, foldl_kept]
theorem Mach.stepTest_kept {m : Mach} (a : Actuator) (spacing : Nat) (rSRV_TEST : ∀ i, i < 4 → R (REG_SRV_TEST i)) (hm : Kept P R m0 m) : Kept P R m0 (Mach.stepTest m a spacing) := by
  grind [Mach.stepTest, SRV_TEST_TEST, set_kept, foldl_kept]
theorem Mach.sendDelta_kept {m : Mach} (d : Int) (pmedia : P .media) (hm : Kept P R m0 m) : Kept P R m0 (Mach.sendDelta m d) := by
  grind [Mach.sendDelta, Mach.setMedia_kept, foldl_kept]
theorem Mach.deltaAt_kept {m : Mach} (a : Actuator) (pmedia : P .media) (hm : Kept P R m0 m) : Kept P R m0 (Mach.deltaAt m a) := by
  grind [Mach.deltaAt, SPN_STAT_STATE, SPN_TARGET_TARGET, Mach.sendDelta_kept, foldl_kept]
theorem Mach.validWedge_kept {m : Mach} (a : Actuator) (k : HeadSlot) (spacing : Nat) (y : Nat) (wedge : Nat) (w : Nat) (pes : Int) (pmotion : P .motion) (rSRV_STAT : ∀ i, i < 4 → R (REG_SRV_STAT i)) (rSRV_TEST : ∀ i, i < 4 → R (REG_SRV_TEST i)) (hm : Kept P R m0 m) : Kept P R m0 (Mach.validWedge m a k spacing y wedge w pes) := by
  unfold Mach.validWedge
  dsimp only
  repeat' (first | assumption | (intro _ hx; exact hx) | split | with_reducible apply when_kept | with_reducible apply Mach.setBitAt_kept | with_reducible apply Mach.stepTest_kept | with_reducible apply Mach.setSrv_kept | with_reducible apply Mach.setSrvSlot_kept | with_reducible apply foldl_kept | (intro m hm))
  all_goals grind (splits := 30) (ematch := 12) (gen := 12) (instances := 8000) [SRV_TEST_TEST, SRV_STAT_LOCK, SRV_TARGET_TARGET, SRV_STAT_TRK_CONF, SRV_SETTLE_WIN, SRV_SETTLE_COUNT, SRV_STAT_ONTRACK, SRV_SETTLE_HOLD, when_kept, Mach.setBitAt_kept, Mach.stepTest_kept, Mach.setSrv_kept, Mach.setSrvSlot_kept, foldl_kept]
theorem Mach.missedWedge_kept {m : Mach} (a : Actuator) (k : HeadSlot) (pmotion : P .motion) (rSRV_CNT : ∀ i, i < 4 → R (REG_SRV_CNT i)) (rSRV_STAT : ∀ i, i < 4 → R (REG_SRV_STAT i)) (hm : Kept P R m0 m) : Kept P R m0 (Mach.missedWedge m a k) := by
  grind [Mach.missedWedge, SRV_CNT_MISS, SRV_STAT_ONTRACK, Mach.setBitAt_kept, incSat_kept, Mach.setSrvSlot_kept, foldl_kept]
theorem Mach.leadFaults_kept {m : Mach} (a : Actuator) (pes : Option Int) (preports : P .reports) (pmedia : P .media) (pmotion : P .motion) (pdie : P .die) (rCHN_SMEM : ∀ i, i < 8 → R (REG_CHN_SMEM i)) (rDEC_BUSY : R REG_DEC_BUSY) (rFMT_CTRL : ∀ i, i < 8 → R (REG_FMT_CTRL i)) (rLAD_STAT : ∀ i, i < 4 → R (REG_LAD_STAT i)) (rQDR_ACT : ∀ i, i < 4 → R (REG_QDR_ACT i)) (rQDR_OUT : ∀ i, i < 4 → R (REG_QDR_OUT i)) (rSRV_FAULT : ∀ i, i < 4 → R (REG_SRV_FAULT i)) (rSRV_STAT : ∀ i, i < 4 → R (REG_SRV_STAT i)) (rSRV_TARGET : ∀ i j, i < 4 → j < 2 → R (REG_SRV_TARGET i j)) (rVCM_MA : ∀ i, i < 4 → R (REG_VCM_MA i)) (rVCM_STAT : ∀ i, i < 4 → R (REG_VCM_STAT i)) (hm : Kept P R m0 m) : Kept P R m0 (Mach.leadFaults m a pes) := by
  unfold Mach.leadFaults
  dsimp only
  repeat' split
  all_goals grind (splits := 30) (ematch := 12) (gen := 12) (instances := 8000) [QDR_ACT_PARKED, SRV_LIMIT_MISS_MAX, Mach.setSrv_kept, when_kept, Mach.actuatorFault_kept, foldl_kept]
theorem pesReady_kept (a : Actuator) (k : HeadSlot) (f : WedgeField) {m : Mach} (pfreeCtr : P .freeCtr) (preports : P .reports) (pmedia : P .media) (pmotion : P .motion) (pdie : P .die) (rCHN_SMEM : ∀ i, i < 8 → R (REG_CHN_SMEM i)) (rDEC_BUSY : R REG_DEC_BUSY) (rFMT_CTRL : ∀ i, i < 8 → R (REG_FMT_CTRL i)) (rLAD_STAT : ∀ i, i < 4 → R (REG_LAD_STAT i)) (rQDR_ACT : ∀ i, i < 4 → R (REG_QDR_ACT i)) (rQDR_OUT : ∀ i, i < 4 → R (REG_QDR_OUT i)) (rSRV_CNT : ∀ i, i < 4 → R (REG_SRV_CNT i)) (rSRV_FAULT : ∀ i, i < 4 → R (REG_SRV_FAULT i)) (rSRV_PES : ∀ i j, i < 4 → j < 2 → R (REG_SRV_PES i j)) (rSRV_POS : ∀ i j, i < 4 → j < 2 → R (REG_SRV_POS i j)) (rSRV_STAT : ∀ i, i < 4 → R (REG_SRV_STAT i)) (rSRV_TARGET : ∀ i j, i < 4 → j < 2 → R (REG_SRV_TARGET i j)) (rSRV_TEST : ∀ i, i < 4 → R (REG_SRV_TEST i)) (rVCM_MA : ∀ i, i < 4 → R (REG_VCM_MA i)) (rVCM_STAT : ∀ i, i < 4 → R (REG_VCM_STAT i)) (hm : Kept P R m0 m) : Kept P R m0 (pesReady a k f m) := by
  unfold pesReady
  dsimp only
  repeat' (first | assumption | (intro _ hx; exact hx) | split | with_reducible apply report_kept | with_reducible apply Mach.seedTest_kept | with_reducible apply set_kept | with_reducible apply setS_kept | with_reducible apply Mach.validWedge_kept | with_reducible apply when_kept | with_reducible apply setFlag_kept | with_reducible apply Mach.setSrvSlot_kept | with_reducible apply Mach.setSrv_kept | with_reducible apply Mach.leadFaults_kept | with_reducible apply Mach.deltaAt_kept | with_reducible apply nextFree_kept | with_reducible apply Mach.missedWedge_kept | with_reducible apply Mach.dropWsafe_kept | with_reducible apply foldl_kept | (intro m hm))
  all_goals grind (splits := 30) (ematch := 12) (gen := 12) (instances := 8000) [SRV_TARGET_TARGET, SRV_PES_PES, SRV_PES_SEQ, SRV_PES_VALID, SRV_PES_SRC, SRV_POS_POS, SRV_STAT_WSAFE, SRV_STAT_WEDGE, report_kept, Mach.seedTest_kept, set_kept, setS_kept, Mach.validWedge_kept, when_kept, setFlag_kept, Mach.setSrvSlot_kept, Mach.setSrv_kept, Mach.leadFaults_kept, Mach.deltaAt_kept, nextFree_kept, Mach.missedWedge_kept, Mach.dropWsafe_kept, foldl_kept]
theorem srvPost_kept (a : Actuator) (seq : BitVec 8) (wpermit : Bool) {m : Mach} (preports : P .reports) (pmotion : P .motion) (rSRV_ERR : ∀ i, i < 4 → R (REG_SRV_ERR i)) (rSRV_STAT : ∀ i, i < 4 → R (REG_SRV_STAT i)) (hm : Kept P R m0 m) : Kept P R m0 (srvPost a seq wpermit m) := by
  grind [srvPost, SRV_ERR_FAULTED, SRV_ERR_SEQ, SRV_ERR_DUP, SRV_ERR_LATE, SRV_OUT_VCM_CUR, SRV_OUT_MA_VOLT, SRV_STAT_OVR_RUN, flagEvent_kept, Mach.setSrv_kept, when_kept, set_kept, Mach.dropWsafe_kept, foldl_kept]
theorem postDeadline_kept (a : Actuator) {m : Mach} (preports : P .reports) (pmedia : P .media) (pmotion : P .motion) (pdie : P .die) (rCHN_SMEM : ∀ i, i < 8 → R (REG_CHN_SMEM i)) (rDEC_BUSY : R REG_DEC_BUSY) (rFMT_CTRL : ∀ i, i < 8 → R (REG_FMT_CTRL i)) (rLAD_STAT : ∀ i, i < 4 → R (REG_LAD_STAT i)) (rQDR_ACT : ∀ i, i < 4 → R (REG_QDR_ACT i)) (rQDR_OUT : ∀ i, i < 4 → R (REG_QDR_OUT i)) (rSRV_CNT : ∀ i, i < 4 → R (REG_SRV_CNT i)) (rSRV_FAULT : ∀ i, i < 4 → R (REG_SRV_FAULT i)) (rSRV_STAT : ∀ i, i < 4 → R (REG_SRV_STAT i)) (rSRV_TARGET : ∀ i j, i < 4 → j < 2 → R (REG_SRV_TARGET i j)) (rVCM_MA : ∀ i, i < 4 → R (REG_VCM_MA i)) (rVCM_STAT : ∀ i, i < 4 → R (REG_VCM_STAT i)) (hm : Kept P R m0 m) : Kept P R m0 (postDeadline a m) := by
  unfold postDeadline
  repeat' (first | with_reducible assumption | split | with_reducible apply Mach.setSrv_kept | with_reducible apply set_kept | with_reducible apply incSat_kept | with_reducible apply Mach.dropWsafe_kept | with_reducible apply report_kept | with_reducible apply when_kept | with_reducible apply Mach.actuatorFault_kept | with_reducible apply foldl_kept | dsimp only | intro _ _ _ | intro _ _ | intro _ | grind [SRV_STAT_OVR_RUN, SRV_CNT_OVR])
theorem srvTargetWrite_kept (a : Actuator) (k : HeadSlot) (w : Word) {m : Mach} (pmotion : P .motion) (rSRV_STAT : ∀ i, i < 4 → R (REG_SRV_STAT i)) (rSRV_TARGET : ∀ i j, i < 4 → j < 2 → R (REG_SRV_TARGET i j)) (hm : Kept P R m0 m) : Kept P R m0 (srvTargetWrite a k w m) := by
  grind [srvTargetWrite, Mach.writeTarget_kept, foldl_kept]
theorem Mach.stopSlot_kept {m : Mach} (a : Actuator) (k : HeadSlot) (pmotion : P .motion) (pdie : P .die) (rSRV_STAT : ∀ i, i < 4 → R (REG_SRV_STAT i)) (rVCM_MA : ∀ i, i < 4 → R (REG_VCM_MA i)) (hm : Kept P R m0 m) : Kept P R m0 (Mach.stopSlot m a k) := by
  grind [Mach.stopSlot, SRV_STAT_LOCK, SRV_STAT_TRK_CONF, SRV_STAT_ONTRACK, Mach.setSrvSlot_kept, Mach.setMaRef_kept, Mach.setBitAt_kept, foldl_kept]
theorem srvCtrlWrite_kept (a : Actuator) (w : Word) {m : Mach} (pmotion : P .motion) (pdie : P .die) (rSRV_CTRL : ∀ i, i < 4 → R (REG_SRV_CTRL i)) (rSRV_STAT : ∀ i, i < 4 → R (REG_SRV_STAT i)) (rVCM_MA : ∀ i, i < 4 → R (REG_VCM_MA i)) (hm : Kept P R m0 m) : Kept P R m0 (srvCtrlWrite a w m) := by
  grind [srvCtrlWrite, SRV_CTRL_SLOT_EN0, SRV_CTRL_SLOT_EN1, SRV_CTRL_WSLOT, set_kept, Mach.stopSlot_kept, Mach.dropWsafe_kept, foldl_kept]
theorem srvLeadWrite_kept (a : Actuator) (k : HeadSlot) {m : Mach} (preports : P .reports) (pmotion : P .motion) (rSRV_ERR : ∀ i, i < 4 → R (REG_SRV_ERR i)) (hm : Kept P R m0 m) : Kept P R m0 (srvLeadWrite a k m) := by
  grind [srvLeadWrite, SRV_ERR_LEAD, Mach.setSrv_kept, flagEvent_kept, foldl_kept]
theorem srvRroLoad_kept (a : Actuator) (k : HeadSlot) (w : Word) {m : Mach} (pcal : P .cal) (pmotion : P .motion) (rSRV_STAT : ∀ i, i < 4 → R (REG_SRV_STAT i)) (hm : Kept P R m0 m) : Kept P R m0 (srvRroLoad a k w m) := by
  grind [srvRroLoad, SRV_STAT_RRO_VALID, Mach.demand_kept, Mach.setSrvSlot_kept, Mach.setBitAt_kept, foldl_kept]
theorem rroFetchDone_kept (a : Actuator) (k : HeadSlot) {m : Mach} (preports : P .reports) (pout : P .out) (pmotion : P .motion) (pbuf : P .buf) (rBUF_CNT : R REG_BUF_CNT) (rBUF_ERR : R REG_BUF_ERR) (rBUF_FIRST : R REG_BUF_FIRST) (rCCH_MISS : R REG_CCH_MISS) (rSRV_STAT : ∀ i, i < 4 → R (REG_SRV_STAT i)) (hm : Kept P R m0 m) : Kept P R m0 (rroFetchDone a k m) := by
  grind [rroFetchDone, SRV_STAT_RRO_VALID, Mach.readBytes_kept, Mach.setBitAt_kept, Mach.setSrvSlot_kept, foldl_kept]
theorem Mach.clearSrv_kept {m : Mach} (a : Actuator) (pmotion : P .motion) (hm : Kept P R m0 m) : Kept P R m0 (Mach.clearSrv m a) := by
  grind [Mach.clearSrv, Mach.setSrv_kept, foldl_kept]
end Sys2Proof.Machine
end

