-- ==== Sys2Proof/Laws/KeptProfile.lean ====
section
/-! SUPPORT. What the operations of Machine/Profile.lean keep: for each, the parts and the registers it may change. -/
set_option Elab.async false
set_option linter.all false
namespace Sys2Proof.Machine
open Sys2Proof
variable {P : Part → Prop} {R : Nat → Prop} {m0 : Mach}
theorem Mach.setRefs_kept {m : Mach} (a : Actuator) (r : Int × Int × Int) (rPRG_REFA : ∀ i, i < 4 → R (REG_PRG_REFA i)) (rPRG_REFP : ∀ i, i < 4 → R (REG_PRG_REFP i)) (rPRG_REFV : ∀ i, i < 4 → R (REG_PRG_REFV i)) (hm : Kept P R m0 m) : Kept P R m0 (Mach.setRefs m a r) := by
  grind [Mach.setRefs, PRG_REFP_REF, PRG_REFV_REF, PRG_REFA_REF, setS_kept, foldl_kept]
theorem Mach.syncAdmit_kept {m : Mach} (rQDR_ADMIT : R REG_QDR_ADMIT) (rQDR_TORQ : R REG_QDR_TORQ) (hm : Kept P R m0 m) : Kept P R m0 (Mach.syncAdmit m) := by
  grind [Mach.syncAdmit, QDR_TORQ_TOTAL, QDR_ADMIT_WAIT, QDR_ADMIT_OLDEST, set_kept, foldl_kept]
theorem Mach.endChannel_kept {m : Mach} (a : Actuator) (state : Nat) (pmotion : P .motion) (rPRG_STAT : ∀ i, i < 4 → R (REG_PRG_STAT i)) (rQDR_ADMIT : R REG_QDR_ADMIT) (rQDR_KACC : ∀ i, i < 4 → R (REG_QDR_KACC i)) (rQDR_TORQ : R REG_QDR_TORQ) (hm : Kept P R m0 m) : Kept P R m0 (Mach.endChannel m a state) := by
  grind (splits := 40) (ematch := 20) (gen := 20) (instances := 20000) [Mach.endChannel, PRG_STAT_STATE, PRG_STAT_LEFT, QDR_KACC_EST, Mach.setPrg_kept, set_kept, Mach.syncAdmit_kept, foldl_kept]
theorem prgStart_kept (a : Actuator) {m : Mach} (pmotion : P .motion) (pcmd : P .cmd) (rPRG_STAT : ∀ i, i < 4 → R (REG_PRG_STAT i)) (rQDR_ADMIT : R REG_QDR_ADMIT) (rQDR_KACC : ∀ i, i < 4 → R (REG_QDR_KACC i)) (rQDR_TORQ : R REG_QDR_TORQ) (rSRV_STAT : ∀ i, i < 4 → R (REG_SRV_STAT i)) (hm : Kept P R m0 m) : Kept P R m0 (prgStart a m) := by
  unfold prgStart
  repeat' (first | with_reducible assumption | split | with_reducible apply Mach.setCmd_kept | with_reducible apply Mach.dropWsafe_kept | with_reducible apply Mach.setPrg_kept | with_reducible apply Mach.syncAdmit_kept | with_reducible apply set_kept | with_reducible apply foldl_kept | with_reducible apply when_kept | dsimp only | intro _ _ _ | intro _ _ | intro _ | grind [PRG_STAT_STATE, PRG_TGT_TARGET, QDR_KACC_EST])
theorem Mach.planRest_kept {m : Mach} (a : Actuator) (target : Int) (pmotion : P .motion) (rPRG_STAT : ∀ i, i < 4 → R (REG_PRG_STAT i)) (rQDR_ADMIT : R REG_QDR_ADMIT) (rQDR_KACC : ∀ i, i < 4 → R (REG_QDR_KACC i)) (rQDR_TORQ : R REG_QDR_TORQ) (hm : Kept P R m0 m) : ∀ m', (Mach.planRest m a target) = some m' → Kept P R m0 m' := by
  unfold Mach.planRest
  intro m' h
  dsimp only at h
  split at h
  · injection h with h
    subst h
    repeat' (first | with_reducible assumption | split | with_reducible apply Mach.syncAdmit_kept | with_reducible apply set_kept | with_reducible apply Mach.endChannel_kept | with_reducible apply Mach.setPrg_kept | with_reducible apply foldl_kept | with_reducible apply when_kept | dsimp only | intro _ _ | intro _ | grind [PRG_REFP_REF, PRG_STAT_ERR, PRG_STAT_STATE, QDR_KACC_EST])
  · simp only [Option.map_eq_some_iff] at h
    obtain ⟨plan, _, h⟩ := h
    subst h
    repeat' (first | with_reducible assumption | split | with_reducible apply Mach.syncAdmit_kept | with_reducible apply set_kept | with_reducible apply Mach.endChannel_kept | with_reducible apply Mach.setPrg_kept | with_reducible apply foldl_kept | with_reducible apply when_kept | dsimp only | intro _ _ | intro _ | grind [PRG_REFP_REF, PRG_STAT_ERR, PRG_STAT_STATE, QDR_KACC_EST])
theorem Mach.startPending_kept {m : Mach} (a : Actuator) (before : Nat) (pmotion : P .motion) (rPRG_STAT : ∀ i, i < 4 → R (REG_PRG_STAT i)) (rQDR_ADMIT : R REG_QDR_ADMIT) (rQDR_TORQ : R REG_QDR_TORQ) (rSRV_STAT : ∀ i, i < 4 → R (REG_SRV_STAT i)) (hm : Kept P R m0 m) : Kept P R m0 (Mach.startPending m a before) := by
  grind [Mach.startPending, PRG_STAT_PENDING, PRG_STAT_STATE, Mach.setPrg_kept, Mach.syncAdmit_kept, Mach.dropWsafe_kept, set_kept, foldl_kept]
theorem Mach.prgRefuse_kept {m : Mach} (a : Actuator) (err : Nat) (preports : P .reports) (pmotion : P .motion) (rPRG_STAT : ∀ i, i < 4 → R (REG_PRG_STAT i)) (rQDR_ADMIT : R REG_QDR_ADMIT) (rQDR_KACC : ∀ i, i < 4 → R (REG_QDR_KACC i)) (rQDR_TORQ : R REG_QDR_TORQ) (rSRV_STAT : ∀ i, i < 4 → R (REG_SRV_STAT i)) (hm : Kept P R m0 m) : Kept P R m0 (Mach.prgRefuse m a err) := by
  grind [Mach.prgRefuse, PRG_STAT_ERR, PRG_STAT_STATE, QDR_KACC_EST, report_kept, set_kept, Mach.setPrg_kept, Mach.startPending_kept, Mach.syncAdmit_kept, foldl_kept]
theorem Mach.prgPend_kept {m : Mach} (a : Actuator) (target : Int) (pmotion : P .motion) (rPRG_STAT : ∀ i, i < 4 → R (REG_PRG_STAT i)) (hm : Kept P R m0 m) : Kept P R m0 (Mach.prgPend m a target) := by
  grind [Mach.prgPend, PRG_STAT_PENDING, set_kept, Mach.setPrg_kept, foldl_kept]
theorem Mach.prgPlanned_kept {m : Mach} (a : Actuator) (pmotion : P .motion) (rPRG_STAT : ∀ i, i < 4 → R (REG_PRG_STAT i)) (hm : Kept P R m0 m) : Kept P R m0 (Mach.prgPlanned m a) := by
  grind [Mach.prgPlanned, PRG_STAT_PENDING, set_kept, Mach.setPrg_kept, foldl_kept]
theorem Mach.planSum_kept {m : Mach} (a : Actuator) (target : Int) (preports : P .reports) (pmotion : P .motion) (rPRG_REFA : ∀ i, i < 4 → R (REG_PRG_REFA i)) (rPRG_REFP : ∀ i, i < 4 → R (REG_PRG_REFP i)) (rPRG_REFV : ∀ i, i < 4 → R (REG_PRG_REFV i)) (rPRG_STAT : ∀ i, i < 4 → R (REG_PRG_STAT i)) (rQDR_ADMIT : R REG_QDR_ADMIT) (rQDR_KACC : ∀ i, i < 4 → R (REG_QDR_KACC i)) (rQDR_TORQ : R REG_QDR_TORQ) (rSRV_STAT : ∀ i, i < 4 → R (REG_SRV_STAT i)) (hm : Kept P R m0 m) : Kept P R m0 (Mach.planSum m a target) := by
  unfold Mach.planSum
  repeat' (first | with_reducible assumption | split | with_reducible apply set_kept | with_reducible apply Mach.prgPlanned_kept | with_reducible apply Mach.prgPend_kept | with_reducible apply Mach.prgRefuse_kept | with_reducible apply Mach.setPrg_kept | with_reducible apply Mach.setRefs_kept | with_reducible apply Mach.syncAdmit_kept | with_reducible apply foldl_kept | with_reducible apply when_kept | dsimp only | intro _ _ _ | intro _ _ | intro _ | grind [PRG_STAT_ERR, PRG_STAT_LEFT, QDR_KACC_EST])
theorem planDone_kept (a : Actuator) {m : Mach} (preports : P .reports) (pmotion : P .motion) (rPRG_REFA : ∀ i, i < 4 → R (REG_PRG_REFA i)) (rPRG_REFP : ∀ i, i < 4 → R (REG_PRG_REFP i)) (rPRG_REFV : ∀ i, i < 4 → R (REG_PRG_REFV i)) (rPRG_STAT : ∀ i, i < 4 → R (REG_PRG_STAT i)) (rQDR_ADMIT : R REG_QDR_ADMIT) (rQDR_KACC : ∀ i, i < 4 → R (REG_QDR_KACC i)) (rQDR_TORQ : R REG_QDR_TORQ) (rSRV_STAT : ∀ i, i < 4 → R (REG_SRV_STAT i)) (hm : Kept P R m0 m) : Kept P R m0 (planDone a m) := by
  have h1 := fun t => Mach.planRest_kept a t (by assumption) (by assumption) (by assumption) (by assumption) (by assumption) hm
  unfold planDone
  split
  · exact hm
  split
  · exact Mach.prgRefuse_kept _ _ (by assumption) (by assumption) (by assumption) (by assumption) (by assumption) (by assumption) (by assumption) (hm)
  split
  · exact Mach.planSum_kept _ _ (by assumption) (by assumption) (by assumption) (by assumption) (by assumption) (by assumption) (by assumption) (by assumption) (by assumption) (by assumption) (hm)
  split
  · next m' h => exact Mach.prgPlanned_kept _ (by assumption) (by assumption) (h1 _ _ h)
  · exact Mach.prgRefuse_kept _ _ (by assumption) (by assumption) (by assumption) (by assumption) (by assumption) (by assumption) (by assumption) (hm)
theorem prgAbort_kept (a : Actuator) {m : Mach} (pmotion : P .motion) (hm : Kept P R m0 m) : Kept P R m0 (prgAbort a m) := by
  grind [prgAbort, Mach.abortProfile_kept, foldl_kept]
theorem quadrilleAdmit_kept {m : Mach} (pmotion : P .motion) (rPRG_REFA : ∀ i, i < 4 → R (REG_PRG_REFA i)) (rPRG_REFP : ∀ i, i < 4 → R (REG_PRG_REFP i)) (rPRG_REFV : ∀ i, i < 4 → R (REG_PRG_REFV i)) (rPRG_STAT : ∀ i, i < 4 → R (REG_PRG_STAT i)) (rQDR_ADMIT : R REG_QDR_ADMIT) (rQDR_TORQ : R REG_QDR_TORQ) (hm : Kept P R m0 m) : Kept P R m0 (quadrilleAdmit m) := by
  unfold quadrilleAdmit
  dsimp only
  repeat' split
  all_goals grind (splits := 30) (ematch := 12) (gen := 12) (instances := 8000) [QDR_KACC_EST, QDR_ACT_DEPOP, QDR_TORQ_BUDGET, PRG_STAT_STATE, PRG_STAT_LEFT, Mach.setPrg_kept, Mach.setRefs_kept, set_kept, Mach.syncAdmit_kept, foldl_kept]
theorem Mach.profileStep_kept {m : Mach} (a : Actuator) (pmotion : P .motion) (rPRG_REFA : ∀ i, i < 4 → R (REG_PRG_REFA i)) (rPRG_REFP : ∀ i, i < 4 → R (REG_PRG_REFP i)) (rPRG_REFV : ∀ i, i < 4 → R (REG_PRG_REFV i)) (rPRG_STAT : ∀ i, i < 4 → R (REG_PRG_STAT i)) (rQDR_ADMIT : R REG_QDR_ADMIT) (rQDR_KACC : ∀ i, i < 4 → R (REG_QDR_KACC i)) (rQDR_TORQ : R REG_QDR_TORQ) (rSRV_STAT : ∀ i, i < 4 → R (REG_SRV_STAT i)) (hm : Kept P R m0 m) : Kept P R m0 (Mach.profileStep m a) := by
  unfold Mach.profileStep
  repeat' (first | with_reducible assumption | split | with_reducible apply Mach.setRefs_kept | with_reducible apply set_kept | with_reducible apply Mach.setPrg_kept | with_reducible apply Mach.endChannel_kept | with_reducible apply Mach.startPending_kept | with_reducible apply Mach.syncAdmit_kept | with_reducible apply Mach.dropWsafe_kept | with_reducible apply foldl_kept | with_reducible apply when_kept | dsimp only | intro _ _ _ | intro _ _ | intro _ | grind [PRG_STAT_PENDING, PRG_STAT_STATE, PRG_STAT_LEFT])
theorem Mach.syncSwitched_kept {m : Mach} (rQDR_STAT : R REG_QDR_STAT) (hm : Kept P R m0 m) : Kept P R m0 (Mach.syncSwitched m) := by
  grind [Mach.syncSwitched, QDR_STAT_SWITCHED, QDR_CTRL_BANK, set_kept, foldl_kept]
theorem Mach.setQdrOut_kept {m : Mach} (a : Actuator) (out : Int) (sat : Bool) (rQDR_OUT : ∀ i, i < 4 → R (REG_QDR_OUT i)) (hm : Kept P R m0 m) : Kept P R m0 (Mach.setQdrOut m a out sat) := by
  grind [Mach.setQdrOut, QDR_OUT_OUT, QDR_OUT_SAT, setFlag_kept, setS_kept, foldl_kept]
theorem Mach.quadrilleStep_kept {m : Mach} (a : Actuator) (pmotion : P .motion) (rQDR_OUT : ∀ i, i < 4 → R (REG_QDR_OUT i)) (rQDR_STAT : R REG_QDR_STAT) (hm : Kept P R m0 m) : Kept P R m0 (Mach.quadrilleStep m a).2 := by
  grind [Mach.quadrilleStep, QDR_CTRL_BANK, QDR_CTRL_EN, QDR_CTRL_LIM, Mach.syncSwitched_kept, Mach.setQdr_kept, Mach.setQdrOut_kept, foldl_kept]
theorem Mach.phaseStep_kept {m : Mach} (a : Actuator) (pmotion : P .motion) (rQDR_PHASE : ∀ i, i < 4 → R (REG_QDR_PHASE i)) (hm : Kept P R m0 m) : Kept P R m0 (Mach.phaseStep m a) := by
  grind [Mach.phaseStep, QDR_PHASE_PHASE, QDR_PHASE_VALID, Mach.setQdr_kept, set_kept, foldl_kept]
theorem Mach.vcmApply_kept {m : Mach} (a : Actuator) (cmd : Int) (pdie : P .die) (rVCM_STAT : ∀ i, i < 4 → R (REG_VCM_STAT i)) (hm : Kept P R m0 m) : Kept P R m0 (Mach.vcmApply m a cmd) := by
  grind [Mach.vcmApply, VCM_LIM_PEAK, VCM_STAT_CLIP_PEAK, VCM_STAT_CLIP_CONT, VCM_STAT_CLIP_SUM, VCM_STAT_CLIP_OV, Mach.setDie_kept, setFlag_kept, foldl_kept]
theorem Mach.loadLock_kept {m : Mach} (a : Actuator) (pdie : P .die) (rVCM_STAT : ∀ i, i < 4 → R (REG_VCM_STAT i)) (hm : Kept P R m0 m) : Kept P R m0 (Mach.loadLock m a) := by
  grind [Mach.loadLock, VCM_STAT_MODE, set_kept, Mach.setDie_kept, foldl_kept]
theorem Mach.leadTake_kept {m : Mach} (a : Actuator) (pmotion : P .motion) (rSRV_CFG : ∀ i, i < 4 → R (REG_SRV_CFG i)) (hm : Kept P R m0 m) : Kept P R m0 (Mach.leadTake m a) := by
  grind [Mach.leadTake, SRV_CFG_LEAD, Mach.setSrv_kept, set_kept, foldl_kept]
theorem Mach.applyCurrents_kept {m : Mach} (a : Actuator) (out : Int) (pdie : P .die) (rSRV_STAT : ∀ i, i < 4 → R (REG_SRV_STAT i)) (rVCM_MA : ∀ i, i < 4 → R (REG_VCM_MA i)) (rVCM_STAT : ∀ i, i < 4 → R (REG_VCM_STAT i)) (hm : Kept P R m0 m) : Kept P R m0 (Mach.applyCurrents m a out) := by
  grind [Mach.applyCurrents, SRV_STAT_MA_CLAMP, Mach.setMaRef_kept, set_kept, when_kept, Mach.dropWsafe_kept, Mach.vcmApply_kept, foldl_kept]
theorem Mach.ownStep_kept {m : Mach} (a : Actuator) (pmotion : P .motion) (rPRG_REFA : ∀ i, i < 4 → R (REG_PRG_REFA i)) (rPRG_REFP : ∀ i, i < 4 → R (REG_PRG_REFP i)) (rPRG_REFV : ∀ i, i < 4 → R (REG_PRG_REFV i)) (rPRG_STAT : ∀ i, i < 4 → R (REG_PRG_STAT i)) (rQDR_ADMIT : R REG_QDR_ADMIT) (rQDR_KACC : ∀ i, i < 4 → R (REG_QDR_KACC i)) (rQDR_TORQ : R REG_QDR_TORQ) (rSRV_STAT : ∀ i, i < 4 → R (REG_SRV_STAT i)) (hm : Kept P R m0 m) : Kept P R m0 (Mach.ownStep m a) := by
  grind [Mach.ownStep, Mach.setPrg_kept, Mach.profileStep_kept, foldl_kept]
theorem Mach.stepAhead_kept {m : Mach} (b : Actuator) (pmotion : P .motion) (rPRG_REFA : ∀ i, i < 4 → R (REG_PRG_REFA i)) (rPRG_REFP : ∀ i, i < 4 → R (REG_PRG_REFP i)) (rPRG_REFV : ∀ i, i < 4 → R (REG_PRG_REFV i)) (rPRG_STAT : ∀ i, i < 4 → R (REG_PRG_STAT i)) (rQDR_ADMIT : R REG_QDR_ADMIT) (rQDR_KACC : ∀ i, i < 4 → R (REG_QDR_KACC i)) (rQDR_TORQ : R REG_QDR_TORQ) (rSRV_STAT : ∀ i, i < 4 → R (REG_SRV_STAT i)) (hm : Kept P R m0 m) : Kept P R m0 (Mach.stepAhead m b) := by
  grind [Mach.stepAhead, Mach.setPrg_kept, Mach.profileStep_kept, foldl_kept]
theorem applyInstant_kept (a : Actuator) (same : BitVec 4) {m : Mach} (pmotion : P .motion) (pdie : P .die) (rPRG_REFA : ∀ i, i < 4 → R (REG_PRG_REFA i)) (rPRG_REFP : ∀ i, i < 4 → R (REG_PRG_REFP i)) (rPRG_REFV : ∀ i, i < 4 → R (REG_PRG_REFV i)) (rPRG_STAT : ∀ i, i < 4 → R (REG_PRG_STAT i)) (rQDR_ADMIT : R REG_QDR_ADMIT) (rQDR_KACC : ∀ i, i < 4 → R (REG_QDR_KACC i)) (rQDR_OUT : ∀ i, i < 4 → R (REG_QDR_OUT i)) (rQDR_PHASE : ∀ i, i < 4 → R (REG_QDR_PHASE i)) (rQDR_STAT : R REG_QDR_STAT) (rQDR_TORQ : R REG_QDR_TORQ) (rSRV_CFG : ∀ i, i < 4 → R (REG_SRV_CFG i)) (rSRV_STAT : ∀ i, i < 4 → R (REG_SRV_STAT i)) (rVCM_MA : ∀ i, i < 4 → R (REG_VCM_MA i)) (rVCM_STAT : ∀ i, i < 4 → R (REG_VCM_STAT i)) (hm : Kept P R m0 m) : Kept P R m0 (applyInstant a same m) := by
  unfold applyInstant
  repeat' (first | with_reducible assumption | split | with_reducible apply Mach.ownStep_kept | with_reducible apply Mach.loadLock_kept | with_reducible apply Mach.leadTake_kept | with_reducible apply Mach.stepAhead_kept | with_reducible apply Mach.quadrilleStep_kept | with_reducible apply Mach.phaseStep_kept | with_reducible apply Mach.applyCurrents_kept | with_reducible apply foldl_kept | with_reducible apply when_kept | dsimp only | intro _ _ _ | intro _ _ | intro _ | grind [])
theorem qdrBankWrite_kept (w : Word) {m : Mach} (pmotion : P .motion) (rQDR_CTRL : R REG_QDR_CTRL) (rQDR_OUT : ∀ i, i < 4 → R (REG_QDR_OUT i)) (rQDR_STAT : R REG_QDR_STAT) (hm : Kept P R m0 m) : Kept P R m0 (qdrBankWrite w m) := by
  grind [qdrBankWrite, QDR_CTRL_EN, QDR_CTRL_BANK, QDR_CTRL_LIM, set_kept, Mach.syncSwitched_kept, Mach.setQdr_kept, Mach.setQdrOut_kept, foldl_kept]
theorem qdrCoefWrite_kept (w : Word) {m : Mach} (preports : P .reports) (pmotion : P .motion) (rQDR_COEF : R REG_QDR_COEF) (rQDR_ERR : R REG_QDR_ERR) (hm : Kept P R m0 m) : Kept P R m0 (qdrCoefWrite w m) := by
  grind [qdrCoefWrite, QDR_COEF_ADDR, QDR_CTRL_BANK, QDR_ERR_COEF_IGN, set_kept, flagEvent_kept, Mach.setQdr_kept, foldl_kept]
theorem Mach.setRo_kept {m : Mach} (a : Actuator) (preports : P .reports) (rQDR_ACT : ∀ i, i < 4 → R (REG_QDR_ACT i)) (hm : Kept P R m0 m) : Kept P R m0 (Mach.setRo m a) := by
  grind [Mach.setRo, QDR_ACT_RO, Mach.syncAct_kept, set_kept, foldl_kept]
theorem qualWrite_kept (a : Actuator) {m : Mach} (preports : P .reports) (rQDR_ACT : ∀ i, i < 4 → R (REG_QDR_ACT i)) (rQDR_ERR : R REG_QDR_ERR) (hm : Kept P R m0 m) : Kept P R m0 (qualWrite a m) := by
  grind [qualWrite, SRV_STAT_RRO_VALID, QDR_ACT_DEPOP, QDR_ACT_RO, QDR_ERR_QUAL, Mach.syncAct_kept, set_kept, flagEvent_kept, foldl_kept]
theorem Mach.setHeadDepop_kept {m : Mach} (a : Actuator) (h : Nat) (b : Bool) (preports : P .reports) (pmotion : P .motion) (rQDR_ACT : ∀ i, i < 4 → R (REG_QDR_ACT i)) (hm : Kept P R m0 m) : Kept P R m0 (Mach.setHeadDepop m a h b) := by
  grind [Mach.setHeadDepop, QDR_ACT_HEAD_DEPOP, when_kept, report_kept, Mach.setBitAt_kept, mk_motion_kept, foldl_kept]
theorem Mach.testTable_kept (a : Actuator) (bad : BitVec 24) {m : Mach} (h : Nat) (t : Nat) (preports : P .reports) (pmotion : P .motion) (rQDR_ACT : ∀ i, i < 4 → R (REG_QDR_ACT i)) (hm : Kept P R m0 m) : Kept P R m0 (Mach.testTable a bad m h t) := by
  grind [Mach.testTable, QDR_ACT_HEAD_DEPOP, QDR_ACT_TDG, Mach.setHeadDepop_kept, mk_motion_kept, foldl_kept]
theorem Mach.testTables_kept {m : Mach} (a : Actuator) (bad : BitVec 24) (preports : P .reports) (pmotion : P .motion) (rQDR_ACT : ∀ i, i < 4 → R (REG_QDR_ACT i)) (hm : Kept P R m0 m) : Kept P R m0 (Mach.testTables m a bad) := by
  grind [Mach.testTables, Mach.testTable_kept, foldl_kept]
theorem qual_kept (a : Actuator) (bad : BitVec 24) {m : Mach} (preports : P .reports) (pmotion : P .motion) (pdie : P .die) (rQDR_ACT : ∀ i, i < 4 → R (REG_QDR_ACT i)) (rQDR_ERR : R REG_QDR_ERR) (rQDR_OUT : ∀ i, i < 4 → R (REG_QDR_OUT i)) (rSRV_FAULT : ∀ i, i < 4 → R (REG_SRV_FAULT i)) (rVCM_MA : ∀ i, i < 4 → R (REG_VCM_MA i)) (rVCM_STAT : ∀ i, i < 4 → R (REG_VCM_STAT i)) (hm : Kept P R m0 m) : Kept P R m0 (qual a bad m) := by
  grind [qual, QDR_ACT_PARKED, Mach.testTables_kept, Mach.parkWork_kept, Mach.startRetract_kept, qualWrite_kept, mk_motion_kept, foldl_kept]
theorem depopWrite_kept (a : Actuator) (b : Bool) {m : Mach} (preports : P .reports) (pmotion : P .motion) (rQDR_ACT : ∀ i, i < 4 → R (REG_QDR_ACT i)) (rQDR_ERR : R REG_QDR_ERR) (rQDR_OUT : ∀ i, i < 4 → R (REG_QDR_OUT i)) (hm : Kept P R m0 m) : Kept P R m0 (depopWrite a b m) := by
  grind [depopWrite, QDR_ACT_PARKED, QDR_ACT_DEPOP, QDR_ERR_DEPOP, when_kept, report_kept, Mach.syncAct_kept, Mach.clearQdrOut_kept, set_kept, flagEvent_kept, Mach.setRo_kept, mk_motion_kept, foldl_kept]
theorem faultEnd_kept (a : Actuator) {m : Mach} (preports : P .reports) (pmotion : P .motion) (rQDR_ACT : ∀ i, i < 4 → R (REG_QDR_ACT i)) (rQDR_ERR : R REG_QDR_ERR) (rQDR_OUT : ∀ i, i < 4 → R (REG_QDR_OUT i)) (hm : Kept P R m0 m) : Kept P R m0 (faultEnd a m) := by
  grind [faultEnd, QDR_ACT_PARKED, Mach.setRo_kept, Mach.setSrv_kept, when_kept, depopWrite_kept, foldl_kept]
theorem preampTemperatureRead_kept (a : Actuator) (temp : Int) {m : Mach} (pmotion : P .motion) (rQDR_ACT : ∀ i, i < 4 → R (REG_QDR_ACT i)) (hm : Kept P R m0 m) : Kept P R m0 (preampTemperatureRead a temp m) := by
  grind [preampTemperatureRead, QDR_ACT_TDG, incWrap_kept, mk_motion_kept, foldl_kept]
theorem Mach.clearPrg_kept {m : Mach} (pmotion : P .motion) (hm : Kept P R m0 m) : Kept P R m0 (Mach.clearPrg m) := by
  grind [Mach.clearPrg, Mach.setPrg_kept, foldl_kept]
theorem Mach.clearQdr_kept {m : Mach} (pmotion : P .motion) (hm : Kept P R m0 m) : Kept P R m0 (Mach.clearQdr m) := by
  grind [Mach.clearQdr, Mach.setQdr_kept, foldl_kept]
end Sys2Proof.Machine
end

