-- ==== Sys2Proof/Laws/KeptSpindle.lean ====
section
/-! SUPPORT. What the operations of Machine/Spindle.lean keep: for each, the parts and the registers it may change. -/
set_option Elab.async false
set_option linter.all false
namespace Sys2Proof.Machine
open Sys2Proof
variable {P : Part → Prop} {R : Nat → Prop} {m0 : Mach}
theorem Mach.setSpn_kept {m : Mach} (f : Spindle → Spindle) (pspn : P .spn) (hm : Kept P R m0 m) : Kept P R m0 (Mach.setSpn m f) := by
  grind [Mach.setSpn, mk_spn_kept, foldl_kept]
theorem Mach.setBridge_kept {m : Mach} (b : BridgeState) (pdie : P .die) (hm : Kept P R m0 m) : Kept P R m0 (Mach.setBridge m b) := by
  grind [Mach.setBridge, Mach.setDie_kept, foldl_kept]
theorem Mach.actBridge_kept {m : Mach} (b : BridgeState) (pdie : P .die) (hm : Kept P R m0 m) : Kept P R m0 (Mach.actBridge m b) := by
  grind [Mach.actBridge, Mach.setBridge_kept, foldl_kept]
theorem Mach.floatPhases_kept {m : Mach} (pdie : P .die) (pspn : P .spn) (rSPN_OBS : R REG_SPN_OBS) (rSPN_SPEED : R REG_SPN_SPEED) (rSPN_STAT : R REG_SPN_STAT) (hm : Kept P R m0 m) : Kept P R m0 (Mach.floatPhases m) := by
  grind (splits := 40) (ematch := 20) (gen := 20) (instances := 20000) [Mach.floatPhases, SPN_SPEED_VALID, SPN_SPEED_SPEED, SPN_OBS_ANGLE, SPN_STAT_CONF, Mach.setSpn_kept, Mach.setBridge_kept, set_kept, foldl_kept]
theorem Mach.raiseInhibit_kept {m : Mach} (pspn : P .spn) (rSPN_STAT : R REG_SPN_STAT) (rSRV_STAT : ∀ i, i < 4 → R (REG_SRV_STAT i)) (hm : Kept P R m0 m) : Kept P R m0 (Mach.raiseInhibit m) := by
  grind [Mach.raiseInhibit, SPN_STAT_INHIBIT, Mach.setSpn_kept, set_kept, Mach.dropWsafe_kept, foldl_kept]
theorem Mach.spnEnter_kept {m : Mach} (st : Nat) (pspn : P .spn) (rSPN_STAT : R REG_SPN_STAT) (rSPN_TARGET : R REG_SPN_TARGET) (rSRV_STAT : ∀ i, i < 4 → R (REG_SRV_STAT i)) (hm : Kept P R m0 m) : Kept P R m0 (Mach.spnEnter m st) := by
  grind [Mach.spnEnter, SPN_STAT_STATE, SPN_TARGET_TARGET, set_kept, Mach.raiseInhibit_kept, Mach.setSpn_kept, foldl_kept]
theorem Mach.inhibitNow_kept {m : Mach} (pspn : P .spn) (rSPN_STAT : R REG_SPN_STAT) (rSRV_STAT : ∀ i, i < 4 → R (REG_SRV_STAT i)) (hm : Kept P R m0 m) : Kept P R m0 (Mach.inhibitNow m) := by
  grind [Mach.inhibitNow, SPN_STAT_INHIBIT, Mach.setSpn_kept, Mach.raiseInhibit_kept, foldl_kept]
theorem Mach.demandAct_kept {m : Mach} (preports : P .reports) (pdie : P .die) (pspn : P .spn) (rSPN_ERR : R REG_SPN_ERR) (rSPN_OBS : R REG_SPN_OBS) (rSPN_SPEED : R REG_SPN_SPEED) (rSPN_STAT : R REG_SPN_STAT) (rSPN_TARGET : R REG_SPN_TARGET) (rSRV_STAT : ∀ i, i < 4 → R (REG_SRV_STAT i)) (hm : Kept P R m0 m) : Kept P R m0 (Mach.demandAct m) := by
  grind [Mach.demandAct, SPN_DEMAND_LEVEL, SPN_CTRL_EN, SPN_ERR_CURVE, SPN_STAT_ATTEMPT, SPN_STAT_WAIT_PARK, SPN_STAT_WAIT_ACK, when_kept, flagEvent_kept, Mach.setSpn_kept, Mach.spnEnter_kept, set_kept, Mach.floatPhases_kept, setFlag_kept, Mach.inhibitNow_kept, foldl_kept]
theorem Mach.enterRun_kept {m : Mach} (preports : P .reports) (pdie : P .die) (pspn : P .spn) (rSPN_ERR : R REG_SPN_ERR) (rSPN_OBS : R REG_SPN_OBS) (rSPN_SPEED : R REG_SPN_SPEED) (rSPN_STAT : R REG_SPN_STAT) (rSPN_TARGET : R REG_SPN_TARGET) (rSRV_STAT : ∀ i, i < 4 → R (REG_SRV_STAT i)) (hm : Kept P R m0 m) : Kept P R m0 (Mach.enterRun m) := by
  unfold Mach.enterRun
  repeat' (first | with_reducible assumption | split | with_reducible apply Mach.spnEnter_kept | with_reducible apply Mach.actBridge_kept | with_reducible apply Mach.setSpn_kept | with_reducible apply set_kept | with_reducible apply Mach.demandAct_kept | with_reducible apply foldl_kept | with_reducible apply when_kept | dsimp only | intro _ _ _ | intro _ _ | intro _ | grind [SPN_TARGET_TARGET, SPN_SPEED_SPEED])
theorem Mach.handOver_kept {m : Mach} (preports : P .reports) (pdie : P .die) (pspn : P .spn) (rSPN_ERR : R REG_SPN_ERR) (rSPN_OBS : R REG_SPN_OBS) (rSPN_SPEED : R REG_SPN_SPEED) (rSPN_STAT : R REG_SPN_STAT) (rSPN_TARGET : R REG_SPN_TARGET) (rSRV_STAT : ∀ i, i < 4 → R (REG_SRV_STAT i)) (hm : Kept P R m0 m) : Kept P R m0 (Mach.handOver m) := by
  grind [Mach.handOver, Mach.setSpn_kept, Mach.enterRun_kept, foldl_kept]
theorem Mach.recatch_kept {m : Mach} (preports : P .reports) (pdie : P .die) (pspn : P .spn) (rSPN_ERR : R REG_SPN_ERR) (rSPN_OBS : R REG_SPN_OBS) (rSPN_SPEED : R REG_SPN_SPEED) (rSPN_STAT : R REG_SPN_STAT) (rSPN_TARGET : R REG_SPN_TARGET) (rSRV_STAT : ∀ i, i < 4 → R (REG_SRV_STAT i)) (hm : Kept P R m0 m) : Kept P R m0 (Mach.recatch m) := by
  grind [Mach.recatch, Mach.setSpn_kept, Mach.enterRun_kept, foldl_kept]
theorem Mach.enterCatch_kept {m : Mach} (pspn : P .spn) (rSPN_STAT : R REG_SPN_STAT) (rSPN_TARGET : R REG_SPN_TARGET) (rSRV_STAT : ∀ i, i < 4 → R (REG_SRV_STAT i)) (hm : Kept P R m0 m) : Kept P R m0 (Mach.enterCatch m) := by
  grind [Mach.enterCatch, Mach.spnEnter_kept, foldl_kept]
theorem Mach.enterStopbrake_kept {m : Mach} (pdie : P .die) (pspn : P .spn) (rSPN_STAT : R REG_SPN_STAT) (rSPN_TARGET : R REG_SPN_TARGET) (rSRV_STAT : ∀ i, i < 4 → R (REG_SRV_STAT i)) (hm : Kept P R m0 m) : Kept P R m0 (Mach.enterStopbrake m) := by
  grind [Mach.enterStopbrake, Mach.spnEnter_kept, Mach.actBridge_kept, foldl_kept]
theorem Mach.attemptFail_kept {m : Mach} (preports : P .reports) (pdie : P .die) (pspn : P .spn) (rSPN_FAULT : R REG_SPN_FAULT) (rSPN_OBS : R REG_SPN_OBS) (rSPN_SPEED : R REG_SPN_SPEED) (rSPN_STAT : R REG_SPN_STAT) (rSPN_TARGET : R REG_SPN_TARGET) (rSRV_STAT : ∀ i, i < 4 → R (REG_SRV_STAT i)) (hm : Kept P R m0 m) : Kept P R m0 (Mach.attemptFail m) := by
  grind [Mach.attemptFail, SPN_STAT_ATTEMPT, SPN_FAULT_SPIN_FAIL, set_kept, Mach.floatPhases_kept, Mach.spnEnter_kept, flagEvent_kept, Mach.enterStopbrake_kept, foldl_kept]
theorem Mach.catchFail_kept {m : Mach} (preports : P .reports) (pdie : P .die) (pspn : P .spn) (rSPN_CNT : R REG_SPN_CNT) (rSPN_STAT : R REG_SPN_STAT) (rSPN_TARGET : R REG_SPN_TARGET) (rSRV_STAT : ∀ i, i < 4 → R (REG_SRV_STAT i)) (rVCM_MA : ∀ i, i < 4 → R (REG_VCM_MA i)) (rVCM_STAT : ∀ i, i < 4 → R (REG_VCM_STAT i)) (hm : Kept P R m0 m) : Kept P R m0 (Mach.catchFail m) := by
  grind (splits := 40) (ematch := 20) (gen := 20) (instances := 20000) [Mach.catchFail, SPN_CNT_CATCH_FAIL, SPN_STAT_ATTEMPT, report_kept, incSat_kept, Mach.enterStopbrake_kept, set_kept, Mach.retractAll_kept, foldl_kept]
theorem Mach.syncLoss_kept {m : Mach} (preports : P .reports) (pdie : P .die) (pspn : P .spn) (rSPN_CNT : R REG_SPN_CNT) (rSPN_FAULT : R REG_SPN_FAULT) (rSPN_OBS : R REG_SPN_OBS) (rSPN_SPEED : R REG_SPN_SPEED) (rSPN_STAT : R REG_SPN_STAT) (rSPN_TARGET : R REG_SPN_TARGET) (rSRV_STAT : ∀ i, i < 4 → R (REG_SRV_STAT i)) (hm : Kept P R m0 m) : Kept P R m0 (Mach.syncLoss m) := by
  grind [Mach.syncLoss, SPN_CNT_LOSS, report_kept, incSat_kept, Mach.attemptFail_kept, Mach.setSpn_kept, Mach.raiseInhibit_kept, Mach.actBridge_kept, foldl_kept]
theorem Mach.handover_kept {m : Mach} (preports : P .reports) (pdie : P .die) (pspn : P .spn) (rSPN_ERR : R REG_SPN_ERR) (rSPN_FAULT : R REG_SPN_FAULT) (rSPN_KE : R REG_SPN_KE) (rSPN_OBS : R REG_SPN_OBS) (rSPN_SPEED : R REG_SPN_SPEED) (rSPN_STAT : R REG_SPN_STAT) (rSPN_TARGET : R REG_SPN_TARGET) (rSRV_STAT : ∀ i, i < 4 → R (REG_SRV_STAT i)) (hm : Kept P R m0 m) : Kept P R m0 (Mach.handover m) := by
  grind [Mach.handover, SPN_KE_NOM, SPN_KE_MEAS, SPN_CTRL_KE_CHECK, SPN_FAULT_KE, set_kept, Mach.spnEnter_kept, flagEvent_kept, Mach.floatPhases_kept, Mach.handOver_kept, foldl_kept]
theorem Mach.inhibitPeriod_kept {m : Mach} (pspn : P .spn) (rSPN_STAT : R REG_SPN_STAT) (rSRV_STAT : ∀ i, i < 4 → R (REG_SRV_STAT i)) (hm : Kept P R m0 m) : Kept P R m0 (Mach.inhibitPeriod m) := by
  grind [Mach.inhibitPeriod, Mach.inhibitNow_kept, Mach.setSpn_kept, foldl_kept]
theorem spnDemandWrite_kept (level : BitVec 8) {m : Mach} (preports : P .reports) (pdie : P .die) (pspn : P .spn) (rSPN_DEMAND : R REG_SPN_DEMAND) (rSPN_ERR : R REG_SPN_ERR) (rSPN_OBS : R REG_SPN_OBS) (rSPN_SPEED : R REG_SPN_SPEED) (rSPN_STAT : R REG_SPN_STAT) (rSPN_TARGET : R REG_SPN_TARGET) (rSRV_STAT : ∀ i, i < 4 → R (REG_SRV_STAT i)) (hm : Kept P R m0 m) : Kept P R m0 (spnDemandWrite level m) := by
  grind [spnDemandWrite, SPN_DEMAND_LEVEL, Mach.demandAct_kept, set_kept, foldl_kept]
theorem spnCtrlWrite_kept (w : Word) {m : Mach} (preports : P .reports) (pdie : P .die) (pspn : P .spn) (rSPN_CTRL : R REG_SPN_CTRL) (rSPN_ERR : R REG_SPN_ERR) (rSPN_OBS : R REG_SPN_OBS) (rSPN_SPEED : R REG_SPN_SPEED) (rSPN_STAT : R REG_SPN_STAT) (rSPN_TARGET : R REG_SPN_TARGET) (rSRV_STAT : ∀ i, i < 4 → R (REG_SRV_STAT i)) (hm : Kept P R m0 m) : Kept P R m0 (spnCtrlWrite w m) := by
  grind [spnCtrlWrite, SPN_CTRL_EN, SPN_CTRL_BRAKE, SPN_CTRL_KE_CHECK, Mach.demandAct_kept, set_kept, foldl_kept]
theorem Mach.enterAlign_kept {m : Mach} (pdie : P .die) (pspn : P .spn) (rSPN_STAT : R REG_SPN_STAT) (rSPN_TARGET : R REG_SPN_TARGET) (rSRV_STAT : ∀ i, i < 4 → R (REG_SRV_STAT i)) (hm : Kept P R m0 m) : Kept P R m0 (Mach.enterAlign m) := by
  grind [Mach.enterAlign, Mach.setSpn_kept, Mach.spnEnter_kept, Mach.actBridge_kept, foldl_kept]
theorem listenEnd_kept {m : Mach} (pdie : P .die) (pspn : P .spn) (rSPN_STAT : R REG_SPN_STAT) (rSPN_TARGET : R REG_SPN_TARGET) (rSRV_STAT : ∀ i, i < 4 → R (REG_SRV_STAT i)) (hm : Kept P R m0 m) : Kept P R m0 (listenEnd m) := by
  grind [listenEnd, SPN_SPEED_SPEED, Mach.enterCatch_kept, Mach.enterStopbrake_kept, Mach.enterAlign_kept, foldl_kept]
theorem stopbrakeEnd_kept {m : Mach} (pdie : P .die) (pspn : P .spn) (rSPN_STAT : R REG_SPN_STAT) (rSPN_TARGET : R REG_SPN_TARGET) (rSRV_STAT : ∀ i, i < 4 → R (REG_SRV_STAT i)) (hm : Kept P R m0 m) : Kept P R m0 (stopbrakeEnd m) := by
  grind [stopbrakeEnd, Mach.enterAlign_kept, foldl_kept]
theorem alignEnd_kept {m : Mach} (pdie : P .die) (pspn : P .spn) (rSPN_OBS : R REG_SPN_OBS) (rSPN_SPEED : R REG_SPN_SPEED) (rSPN_STAT : R REG_SPN_STAT) (rSPN_TARGET : R REG_SPN_TARGET) (rSRV_STAT : ∀ i, i < 4 → R (REG_SRV_STAT i)) (hm : Kept P R m0 m) : Kept P R m0 (alignEnd m) := by
  unfold alignEnd
  repeat' (first | with_reducible assumption | split | with_reducible apply Mach.setSpn_kept | with_reducible apply Mach.actBridge_kept | with_reducible apply Mach.spnEnter_kept | with_reducible apply set_kept | with_reducible apply foldl_kept | with_reducible apply when_kept | dsimp only | intro _ _ _ | intro _ _ | intro _ | grind [SPN_SPEED_VALID, SPN_SPEED_SPEED, SPN_OBS_ANGLE, SPN_STAT_CONF])
theorem rampTimeout_kept {m : Mach} (preports : P .reports) (pdie : P .die) (pspn : P .spn) (rSPN_FAULT : R REG_SPN_FAULT) (rSPN_OBS : R REG_SPN_OBS) (rSPN_SPEED : R REG_SPN_SPEED) (rSPN_STAT : R REG_SPN_STAT) (rSPN_TARGET : R REG_SPN_TARGET) (rSRV_STAT : ∀ i, i < 4 → R (REG_SRV_STAT i)) (hm : Kept P R m0 m) : Kept P R m0 (rampTimeout m) := by
  grind [rampTimeout, Mach.attemptFail_kept, foldl_kept]
theorem spinPhaseOvercurrent_kept {m : Mach} (preports : P .reports) (pdie : P .die) (pspn : P .spn) (rSPN_FAULT : R REG_SPN_FAULT) (rSPN_OBS : R REG_SPN_OBS) (rSPN_SPEED : R REG_SPN_SPEED) (rSPN_STAT : R REG_SPN_STAT) (rSPN_TARGET : R REG_SPN_TARGET) (rSRV_STAT : ∀ i, i < 4 → R (REG_SRV_STAT i)) (hm : Kept P R m0 m) : Kept P R m0 (spinPhaseOvercurrent m) := by
  grind [spinPhaseOvercurrent, Mach.attemptFail_kept, foldl_kept]
theorem Mach.tryHandover_kept {m : Mach} (preports : P .reports) (pdie : P .die) (pspn : P .spn) (rSPN_ERR : R REG_SPN_ERR) (rSPN_FAULT : R REG_SPN_FAULT) (rSPN_KE : R REG_SPN_KE) (rSPN_OBS : R REG_SPN_OBS) (rSPN_SPEED : R REG_SPN_SPEED) (rSPN_STAT : R REG_SPN_STAT) (rSPN_TARGET : R REG_SPN_TARGET) (rSRV_STAT : ∀ i, i < 4 → R (REG_SRV_STAT i)) (hm : Kept P R m0 m) : Kept P R m0 (Mach.tryHandover m) := by
  grind [Mach.tryHandover, SPN_STAT_CONF, Mach.handover_kept, foldl_kept]
theorem Mach.slewStep_kept {m : Mach} (pspn : P .spn) (rSPN_STAT : R REG_SPN_STAT) (rSPN_TARGET : R REG_SPN_TARGET) (rSRV_STAT : ∀ i, i < 4 → R (REG_SRV_STAT i)) (hm : Kept P R m0 m) : Kept P R m0 (Mach.slewStep m) := by
  grind [Mach.slewStep, SPN_TARGET_TARGET, SPN_CURVE_CFG_SLEW, Mach.inhibitNow_kept, Mach.setSpn_kept, set_kept, foldl_kept]
theorem Mach.coilStep_kept {m : Mach} (x : Sensed) (a : Actuator) (pdie : P .die) (rVCM_STAT : ∀ i, i < 4 → R (REG_VCM_STAT i)) (hm : Kept P R m0 m) : Kept P R m0 (Mach.coilStep m x a) := by
  grind [Mach.coilStep, VCM_STAT_MODE, VCM_RCOIL_RCOIL, VCM_STAT_CUR, Mach.setDie_kept, setS_kept, foldl_kept]
theorem Mach.loopStep_kept {m : Mach} (a : Actuator) (pdie : P .die) (rVCM_STAT : ∀ i, i < 4 → R (REG_VCM_STAT i)) (hm : Kept P R m0 m) : Kept P R m0 (Mach.loopStep m a) := by
  grind [Mach.loopStep, VCM_STAT_CLIP_CONT, Mach.setDie_kept, setFlag_kept, foldl_kept]
theorem Mach.maStep_kept {m : Mach} (x : Sensed) (a : Actuator) (rVCM_MA : ∀ i, i < 4 → R (REG_VCM_MA i)) (hm : Kept P R m0 m) : Kept P R m0 (Mach.maStep m x a) := by
  grind [Mach.maStep, VCM_MA_LIM0, VCM_MA_LIM1, setFlag_kept, foldl_kept]
theorem Mach.reportTemp_kept {m : Mach} (rVCM_TEMP : R REG_VCM_TEMP) (hm : Kept P R m0 m) : Kept P R m0 (Mach.reportTemp m) := by
  grind [Mach.reportTemp, VCM_TEMP_TEMP, VCM_TEMP_WARN, setFlag_kept, set_kept, foldl_kept]
theorem Mach.phaseCurrents_kept {m : Mach} (x : Sensed) (pspn : P .spn) (hm : Kept P R m0 m) : Kept P R m0 (Mach.phaseCurrents m x).2 := by
  grind [Mach.phaseCurrents, Mach.setSpn_kept, foldl_kept]
theorem Mach.loopMagnitude_kept {m : Mach} (pfreeCtr : P .freeCtr) (pspn : P .spn) (hm : Kept P R m0 m) : Kept P R m0 (Mach.loopMagnitude m).2 := by
  grind [Mach.loopMagnitude, Mach.setSpn_kept, nextFree_kept, foldl_kept]
theorem Mach.vectorStep_kept {m : Mach} (pfreeCtr : P .freeCtr) (pspn : P .spn) (hm : Kept P R m0 m) : Kept P R m0 (Mach.vectorStep m) := by
  grind [Mach.vectorStep, SPN_IBAND_ADV, Mach.setSpn_kept, Mach.loopMagnitude_kept, foldl_kept]
theorem Mach.rampStep_kept {m : Mach} (pspn : P .spn) (hm : Kept P R m0 m) : Kept P R m0 (Mach.rampStep m) := by
  grind [Mach.rampStep, SPN_PROM_RAMP_RATE, Mach.setSpn_kept, foldl_kept]
theorem observerUpdate_kept (x : Sensed) {m : Mach} (pfreeCtr : P .freeCtr) (preports : P .reports) (pdie : P .die) (pspn : P .spn) (rSPN_ERR : R REG_SPN_ERR) (rSPN_FAULT : R REG_SPN_FAULT) (rSPN_KE : R REG_SPN_KE) (rSPN_OBS : R REG_SPN_OBS) (rSPN_SPEED : R REG_SPN_SPEED) (rSPN_STAT : R REG_SPN_STAT) (rSPN_TARGET : R REG_SPN_TARGET) (rSRV_STAT : ∀ i, i < 4 → R (REG_SRV_STAT i)) (rVCM_MA : ∀ i, i < 4 → R (REG_VCM_MA i)) (rVCM_STAT : ∀ i, i < 4 → R (REG_VCM_STAT i)) (rVCM_TEMP : R REG_VCM_TEMP) (hm : Kept P R m0 m) : Kept P R m0 (observerUpdate x m) := by
  unfold observerUpdate
  repeat' (first | with_reducible assumption | split | with_reducible apply when_kept | with_reducible apply Mach.setSpn_kept | with_reducible apply Mach.enterCatch_kept | with_reducible apply Mach.floatPhases_kept | with_reducible apply Mach.maStep_kept | with_reducible apply Mach.loopStep_kept | with_reducible apply Mach.coilStep_kept | with_reducible apply Mach.reportTemp_kept | with_reducible apply Mach.setDie_kept | with_reducible apply Mach.phaseCurrents_kept | with_reducible apply set_kept | with_reducible apply Mach.vectorStep_kept | with_reducible apply Mach.tryHandover_kept | with_reducible apply Mach.slewStep_kept | with_reducible apply Mach.rampStep_kept | with_reducible apply foldl_kept | dsimp only | intro _ _ _ | intro _ _ | intro _ | grind [SPN_SPEED_VALID, SPN_OBS_ANGLE])
theorem Mach.periodTake_kept {m : Mach} (p : PeriodMeas) (pspn : P .spn) (rSPN_OBS : R REG_SPN_OBS) (rSPN_SPEED : R REG_SPN_SPEED) (rSPN_STAT : R REG_SPN_STAT) (hm : Kept P R m0 m) : Kept P R m0 (Mach.periodTake m p) := by
  grind [Mach.periodTake, SPN_OBS_PASS, SPN_STAT_CONF, SPN_SPEED_SPEED, SPN_SPEED_VALID, set_kept, Mach.setSpn_kept, foldl_kept]
theorem electricalPeriodEnd_kept {m : Mach} (preports : P .reports) (pmedia : P .media) (pdie : P .die) (pspn : P .spn) (rSPN_CNT : R REG_SPN_CNT) (rSPN_ERR : R REG_SPN_ERR) (rSPN_FAULT : R REG_SPN_FAULT) (rSPN_KE : R REG_SPN_KE) (rSPN_OBS : R REG_SPN_OBS) (rSPN_SPEED : R REG_SPN_SPEED) (rSPN_STAT : R REG_SPN_STAT) (rSPN_TARGET : R REG_SPN_TARGET) (rSRV_STAT : ∀ i, i < 4 → R (REG_SRV_STAT i)) (rVCM_MA : ∀ i, i < 4 → R (REG_VCM_MA i)) (rVCM_STAT : ∀ i, i < 4 → R (REG_VCM_STAT i)) (hm : Kept P R m0 m) : Kept P R m0 (electricalPeriodEnd m) := by
  grind [electricalPeriodEnd, SPN_STAT_CONF, SPN_TARGET_TARGET, Mach.periodTake_kept, Mach.syncLoss_kept, Mach.tryHandover_kept, Mach.catchFail_kept, Mach.recatch_kept, Mach.actBridge_kept, Mach.inhibitPeriod_kept, Mach.sendDelta_kept, foldl_kept]
theorem catchTimeout_kept {m : Mach} (preports : P .reports) (pdie : P .die) (pspn : P .spn) (rSPN_CNT : R REG_SPN_CNT) (rSPN_STAT : R REG_SPN_STAT) (rSPN_TARGET : R REG_SPN_TARGET) (rSRV_STAT : ∀ i, i < 4 → R (REG_SRV_STAT i)) (rVCM_MA : ∀ i, i < 4 → R (REG_VCM_MA i)) (rVCM_STAT : ∀ i, i < 4 → R (REG_VCM_STAT i)) (hm : Kept P R m0 m) : Kept P R m0 (catchTimeout m) := by
  grind [catchTimeout, Mach.catchFail_kept, foldl_kept]
theorem inhibitRelease_kept {m : Mach} (pspn : P .spn) (rSPN_STAT : R REG_SPN_STAT) (hm : Kept P R m0 m) : Kept P R m0 (inhibitRelease m) := by
  grind [inhibitRelease, SPN_INH_REVS, SPN_STAT_INHIBIT, SPN_STAT_ATTEMPT, set_kept, Mach.setSpn_kept, foldl_kept]
theorem stoppingBegin_kept {m : Mach} (pdie : P .die) (pspn : P .spn) (rSPN_STAT : R REG_SPN_STAT) (rSPN_TARGET : R REG_SPN_TARGET) (rSRV_STAT : ∀ i, i < 4 → R (REG_SRV_STAT i)) (hm : Kept P R m0 m) : Kept P R m0 (stoppingBegin m) := by
  grind [stoppingBegin, SPN_CTRL_BRAKE, SPN_BRK_FAULT, SPN_STAT_WAIT_PARK, SPN_STAT_WAIT_ACK, set_kept, Mach.setSpn_kept, Mach.actBridge_kept, Mach.spnEnter_kept, foldl_kept]
theorem stoppedDetect_kept {m : Mach} (pdie : P .die) (pspn : P .spn) (rSPN_OBS : R REG_SPN_OBS) (rSPN_SPEED : R REG_SPN_SPEED) (rSPN_STAT : R REG_SPN_STAT) (rSPN_TARGET : R REG_SPN_TARGET) (rSRV_STAT : ∀ i, i < 4 → R (REG_SRV_STAT i)) (hm : Kept P R m0 m) : Kept P R m0 (stoppedDetect m) := by
  grind [stoppedDetect, Mach.setSpn_kept, Mach.spnEnter_kept, Mach.floatPhases_kept, foldl_kept]
theorem Mach.setLevel_kept {m : Mach} (level : Nat) (v12 : Nat) (pdie : P .die) (rSPN_RAIL : R REG_SPN_RAIL) (rVCM_STAT : ∀ i, i < 4 → R (REG_VCM_STAT i)) (hm : Kept P R m0 m) : Kept P R m0 (Mach.setLevel m level v12) := by
  grind [Mach.setLevel, SPN_RAIL_LEVEL, SPN_RAIL_V12, VCM_STAT_CLIP_OV, set_kept, Mach.setDie_kept, setFlag_kept, foldl_kept]
theorem Mach.forceShort_kept {m : Mach} (pdie : P .die) (pspn : P .spn) (hm : Kept P R m0 m) : Kept P R m0 (Mach.forceShort m) := by
  grind [Mach.forceShort, Mach.actBridge_kept, Mach.setSpn_kept, foldl_kept]
theorem Mach.chopperFault_kept {m : Mach} (cause : Nat) (preports : P .reports) (pdie : P .die) (pspn : P .spn) (rSPN_BRK : R REG_SPN_BRK) (hm : Kept P R m0 m) : Kept P R m0 (Mach.chopperFault m cause) := by
  grind [Mach.chopperFault, SPN_BRK_FAULT, SPN_BRK_CAUSE, when_kept, Mach.setDie_kept, Mach.forceShort_kept, report_kept, set_kept, foldl_kept]
theorem chopperOn_kept {m : Mach} (pdie : P .die) (rSPN_BRK : R REG_SPN_BRK) (rSPN_RAIL : R REG_SPN_RAIL) (rVCM_STAT : ∀ i, i < 4 → R (REG_VCM_STAT i)) (hm : Kept P R m0 m) : Kept P R m0 (chopperOn m) := by
  grind [chopperOn, SPN_BRK_ON, Mach.setLevel_kept, set_kept, foldl_kept]
theorem chopperOff_kept {m : Mach} (pdie : P .die) (rSPN_BRK : R REG_SPN_BRK) (rSPN_RAIL : R REG_SPN_RAIL) (rVCM_STAT : ∀ i, i < 4 → R (REG_VCM_STAT i)) (hm : Kept P R m0 m) : Kept P R m0 (chopperOff m) := by
  grind [chopperOff, SPN_BRK_ON, Mach.setLevel_kept, set_kept, foldl_kept]
theorem chopperSelfTest_kept {m : Mach} (pdie : P .die) (pspn : P .spn) (rSPN_BRK : R REG_SPN_BRK) (hm : Kept P R m0 m) : Kept P R m0 (chopperSelfTest m) := by
  grind [chopperSelfTest, SPN_BRK_ON, Mach.setSpn_kept, set_kept, Mach.setDie_kept, foldl_kept]
theorem chopperOpenCheck_kept (ma : Nat) {m : Mach} (preports : P .reports) (pdie : P .die) (pspn : P .spn) (rSPN_BRK : R REG_SPN_BRK) (hm : Kept P R m0 m) : Kept P R m0 (chopperOpenCheck ma m) := by
  grind [chopperOpenCheck, SPN_BRK_ON, SPN_BRK_RBRK, Mach.chopperFault_kept, foldl_kept]
theorem chopperShort_kept {m : Mach} (preports : P .reports) (pdie : P .die) (pspn : P .spn) (rSPN_BRK : R REG_SPN_BRK) (hm : Kept P R m0 m) : Kept P R m0 (chopperShort m) := by
  grind [chopperShort, SPN_BRK_ON, set_kept, Mach.chopperFault_kept, foldl_kept]
theorem Mach.ladderL1_kept {m : Mach} (preports : P .reports) (pdie : P .die) (pspn : P .spn) (rSPN_BRK : R REG_SPN_BRK) (hm : Kept P R m0 m) : Kept P R m0 (Mach.ladderL1 m) := by
  grind [Mach.ladderL1, Mach.forceShort_kept, Mach.chopperFault_kept, foldl_kept]
theorem Mach.ladderL2_kept {m : Mach} (pdie : P .die) (pspn : P .spn) (rSPN_OBS : R REG_SPN_OBS) (rSPN_SPEED : R REG_SPN_SPEED) (rSPN_STAT : R REG_SPN_STAT) (rSRV_STAT : ∀ i, i < 4 → R (REG_SRV_STAT i)) (hm : Kept P R m0 m) : Kept P R m0 (Mach.ladderL2 m) := by
  grind [Mach.ladderL2, Mach.raiseInhibit_kept, Mach.floatPhases_kept, foldl_kept]
theorem ladderL1Enter_kept {m : Mach} (preports : P .reports) (pdie : P .die) (pspn : P .spn) (rSPN_BRK : R REG_SPN_BRK) (rSPN_RAIL : R REG_SPN_RAIL) (rVCM_STAT : ∀ i, i < 4 → R (REG_VCM_STAT i)) (hm : Kept P R m0 m) : Kept P R m0 (ladderL1Enter m) := by
  grind [ladderL1Enter, Mach.ladderL1_kept, report_kept, Mach.setLevel_kept, foldl_kept]
theorem ladderL1Leave_kept {m : Mach} (pdie : P .die) (rSPN_RAIL : R REG_SPN_RAIL) (rVCM_STAT : ∀ i, i < 4 → R (REG_VCM_STAT i)) (hm : Kept P R m0 m) : Kept P R m0 (ladderL1Leave m) := by
  grind [ladderL1Leave, Mach.setLevel_kept, foldl_kept]
theorem ladderL2Enter_kept {m : Mach} (preports : P .reports) (pdie : P .die) (pspn : P .spn) (rSPN_BRK : R REG_SPN_BRK) (rSPN_OBS : R REG_SPN_OBS) (rSPN_RAIL : R REG_SPN_RAIL) (rSPN_SPEED : R REG_SPN_SPEED) (rSPN_STAT : R REG_SPN_STAT) (rSRV_STAT : ∀ i, i < 4 → R (REG_SRV_STAT i)) (rVCM_STAT : ∀ i, i < 4 → R (REG_VCM_STAT i)) (hm : Kept P R m0 m) : Kept P R m0 (ladderL2Enter m) := by
  grind [ladderL2Enter, Mach.ladderL2_kept, Mach.ladderL1_kept, report_kept, Mach.setLevel_kept, foldl_kept]
theorem ladderL2Leave_kept {m : Mach} (pdie : P .die) (pspn : P .spn) (rSPN_RAIL : R REG_SPN_RAIL) (rSPN_STAT : R REG_SPN_STAT) (rSPN_TARGET : R REG_SPN_TARGET) (rSRV_STAT : ∀ i, i < 4 → R (REG_SRV_STAT i)) (rVCM_STAT : ∀ i, i < 4 → R (REG_VCM_STAT i)) (hm : Kept P R m0 m) : Kept P R m0 (ladderL2Leave m) := by
  grind [ladderL2Leave, Mach.setLevel_kept, Mach.enterCatch_kept, Mach.setSpn_kept, Mach.setBridge_kept, Mach.forceShort_kept, foldl_kept]
theorem ladderL3Enter_kept {m : Mach} (preports : P .reports) (pdie : P .die) (pspn : P .spn) (rSPN_BRK : R REG_SPN_BRK) (rSPN_OBS : R REG_SPN_OBS) (rSPN_RAIL : R REG_SPN_RAIL) (rSPN_SPEED : R REG_SPN_SPEED) (rSPN_STAT : R REG_SPN_STAT) (rSRV_STAT : ∀ i, i < 4 → R (REG_SRV_STAT i)) (rVCM_MA : ∀ i, i < 4 → R (REG_VCM_MA i)) (rVCM_STAT : ∀ i, i < 4 → R (REG_VCM_STAT i)) (hm : Kept P R m0 m) : Kept P R m0 (ladderL3Enter m) := by
  grind [ladderL3Enter, VCM_STAT_MODE, Mach.ladderL2_kept, Mach.ladderL1_kept, report_kept, Mach.setLevel_kept, Mach.setDie_kept, set_kept, Mach.setMaRef_kept, Mach.clearClips_kept, foldl_kept]
theorem ladderL3Leave_kept {m : Mach} (pdie : P .die) (rSPN_RAIL : R REG_SPN_RAIL) (rVCM_MA : ∀ i, i < 4 → R (REG_VCM_MA i)) (rVCM_STAT : ∀ i, i < 4 → R (REG_VCM_STAT i)) (hm : Kept P R m0 m) : Kept P R m0 (ladderL3Leave m) := by
  grind [ladderL3Leave, Mach.retractAll_kept, Mach.setLevel_kept, foldl_kept]
theorem spnBrkFaultClear_kept {m : Mach} (preports : P .reports) (pdie : P .die) (pspn : P .spn) (rSPN_BRK : R REG_SPN_BRK) (rSPN_ERR : R REG_SPN_ERR) (rSPN_OBS : R REG_SPN_OBS) (rSPN_SPEED : R REG_SPN_SPEED) (rSPN_STAT : R REG_SPN_STAT) (rSPN_TARGET : R REG_SPN_TARGET) (rSRV_STAT : ∀ i, i < 4 → R (REG_SRV_STAT i)) (hm : Kept P R m0 m) : Kept P R m0 (spnBrkFaultClear m) := by
  unfold spnBrkFaultClear
  repeat' (first | with_reducible assumption | split | with_reducible apply Mach.setDie_kept | with_reducible apply Mach.demandAct_kept | with_reducible apply set_kept | with_reducible apply foldl_kept | with_reducible apply when_kept | dsimp only | intro _ _ _ | intro _ _ | intro _ | grind [SPN_BRK_FAULT, SPN_BRK_CAUSE, SPN_BRK_ACK])
theorem spnBrkAck_kept {m : Mach} (preports : P .reports) (pdie : P .die) (pspn : P .spn) (rSPN_BRK : R REG_SPN_BRK) (rSPN_ERR : R REG_SPN_ERR) (rSPN_OBS : R REG_SPN_OBS) (rSPN_SPEED : R REG_SPN_SPEED) (rSPN_STAT : R REG_SPN_STAT) (rSPN_TARGET : R REG_SPN_TARGET) (rSRV_STAT : ∀ i, i < 4 → R (REG_SRV_STAT i)) (hm : Kept P R m0 m) : Kept P R m0 (spnBrkAck m) := by
  grind [spnBrkAck, SPN_BRK_ACK, Mach.demandAct_kept, set_kept, foldl_kept]
theorem statusFrame_kept {m : Mach} (pdie : P .die) (hm : Kept P R m0 m) : Kept P R m0 (statusFrame m) := by
  grind [statusFrame, Mach.setDie_kept, foldl_kept]
theorem Mach.dieSafe_kept {m : Mach} (pdie : P .die) (pspn : P .spn) (rVCM_MA : ∀ i, i < 4 → R (REG_VCM_MA i)) (rVCM_STAT : ∀ i, i < 4 → R (REG_VCM_STAT i)) (hm : Kept P R m0 m) : Kept P R m0 (Mach.dieSafe m) := by
  grind [Mach.dieSafe, Mach.retractAll_kept, Mach.setSpn_kept, Mach.setBridge_kept, foldl_kept]
theorem statusFrameTimeout_kept {m : Mach} (pdie : P .die) (pspn : P .spn) (rVCM_MA : ∀ i, i < 4 → R (REG_VCM_MA i)) (rVCM_STAT : ∀ i, i < 4 → R (REG_VCM_STAT i)) (hm : Kept P R m0 m) : Kept P R m0 (statusFrameTimeout m) := by
  grind [statusFrameTimeout, Mach.dieSafe_kept, foldl_kept]
theorem Mach.vcmFault_kept {m : Mach} (a : Actuator) (l : Loc) (b : Nat) (preports : P .reports) (hm : Kept P R m0 m) (hl : R l.addr) : Kept P R m0 (Mach.vcmFault m a l b) := by
  grind [Mach.vcmFault, flagEvent_kept, foldl_kept]
theorem drvOc_kept (a : Actuator) {m : Mach} (preports : P .reports) (pmedia : P .media) (pmotion : P .motion) (pdie : P .die) (rCHN_SMEM : ∀ i, i < 8 → R (REG_CHN_SMEM i)) (rDEC_BUSY : R REG_DEC_BUSY) (rFMT_CTRL : ∀ i, i < 8 → R (REG_FMT_CTRL i)) (rLAD_STAT : ∀ i, i < 4 → R (REG_LAD_STAT i)) (rQDR_ACT : ∀ i, i < 4 → R (REG_QDR_ACT i)) (rQDR_OUT : ∀ i, i < 4 → R (REG_QDR_OUT i)) (rSRV_FAULT : ∀ i, i < 4 → R (REG_SRV_FAULT i)) (rSRV_STAT : ∀ i, i < 4 → R (REG_SRV_STAT i)) (rSRV_TARGET : ∀ i j, i < 4 → j < 2 → R (REG_SRV_TARGET i j)) (rVCM_FAULT : ∀ i, i < 4 → R (REG_VCM_FAULT i)) (rVCM_MA : ∀ i, i < 4 → R (REG_VCM_MA i)) (rVCM_STAT : ∀ i, i < 4 → R (REG_VCM_STAT i)) (hm : Kept P R m0 m) : Kept P R m0 (drvOc a m) := by
  unfold drvOc
  repeat' (first | with_reducible assumption | split | with_reducible apply Mach.vcmFault_kept | with_reducible apply Mach.setDie_kept | with_reducible apply Mach.actuatorFault_kept | with_reducible apply set_kept | with_reducible apply Mach.clearClips_kept | with_reducible apply foldl_kept | with_reducible apply when_kept | dsimp only | intro _ _ _ | intro _ _ | intro _ | grind [VCM_FAULT_OC, VCM_STAT_MODE])
theorem drvOpen_kept (a : Actuator) {m : Mach} (preports : P .reports) (pmedia : P .media) (pmotion : P .motion) (pdie : P .die) (rCHN_SMEM : ∀ i, i < 8 → R (REG_CHN_SMEM i)) (rDEC_BUSY : R REG_DEC_BUSY) (rFMT_CTRL : ∀ i, i < 8 → R (REG_FMT_CTRL i)) (rLAD_STAT : ∀ i, i < 4 → R (REG_LAD_STAT i)) (rQDR_ACT : ∀ i, i < 4 → R (REG_QDR_ACT i)) (rQDR_OUT : ∀ i, i < 4 → R (REG_QDR_OUT i)) (rSRV_FAULT : ∀ i, i < 4 → R (REG_SRV_FAULT i)) (rSRV_STAT : ∀ i, i < 4 → R (REG_SRV_STAT i)) (rSRV_TARGET : ∀ i j, i < 4 → j < 2 → R (REG_SRV_TARGET i j)) (rVCM_FAULT : ∀ i, i < 4 → R (REG_VCM_FAULT i)) (rVCM_MA : ∀ i, i < 4 → R (REG_VCM_MA i)) (rVCM_STAT : ∀ i, i < 4 → R (REG_VCM_STAT i)) (hm : Kept P R m0 m) : Kept P R m0 (drvOpen a m) := by
  unfold drvOpen
  repeat' (first | with_reducible assumption | split | with_reducible apply Mach.startRetract_kept | with_reducible apply Mach.actuatorFault_kept | with_reducible apply Mach.vcmFault_kept | with_reducible apply foldl_kept | with_reducible apply when_kept | dsimp only | intro _ _ _ | intro _ _ | intro _ | grind [VCM_FAULT_OPEN])
theorem drvMaLimit_kept (a : Actuator) (k : HeadSlot) {m : Mach} (preports : P .reports) (pmedia : P .media) (pmotion : P .motion) (pdie : P .die) (rCHN_SMEM : ∀ i, i < 8 → R (REG_CHN_SMEM i)) (rDEC_BUSY : R REG_DEC_BUSY) (rFMT_CTRL : ∀ i, i < 8 → R (REG_FMT_CTRL i)) (rLAD_STAT : ∀ i, i < 4 → R (REG_LAD_STAT i)) (rQDR_ACT : ∀ i, i < 4 → R (REG_QDR_ACT i)) (rQDR_OUT : ∀ i, i < 4 → R (REG_QDR_OUT i)) (rSRV_FAULT : ∀ i, i < 4 → R (REG_SRV_FAULT i)) (rSRV_STAT : ∀ i, i < 4 → R (REG_SRV_STAT i)) (rSRV_TARGET : ∀ i j, i < 4 → j < 2 → R (REG_SRV_TARGET i j)) (rVCM_FAULT : ∀ i, i < 4 → R (REG_VCM_FAULT i)) (rVCM_MA : ∀ i, i < 4 → R (REG_VCM_MA i)) (rVCM_STAT : ∀ i, i < 4 → R (REG_VCM_STAT i)) (hm : Kept P R m0 m) : Kept P R m0 (drvMaLimit a k m) := by
  unfold drvMaLimit
  repeat' (first | with_reducible assumption | split | with_reducible apply Mach.vcmFault_kept | with_reducible apply Mach.setMaRef_kept | with_reducible apply Mach.startRetract_kept | with_reducible apply Mach.actuatorFault_kept | with_reducible apply foldl_kept | with_reducible apply when_kept | dsimp only | intro _ _ _ | intro _ _ | intro _ | grind [VCM_FAULT_MA0, VCM_FAULT_MA1])
theorem drvOt_kept {m : Mach} (preports : P .reports) (pmedia : P .media) (pmotion : P .motion) (pdie : P .die) (pspn : P .spn) (rCHN_SMEM : ∀ i, i < 8 → R (REG_CHN_SMEM i)) (rDEC_BUSY : R REG_DEC_BUSY) (rFMT_CTRL : ∀ i, i < 8 → R (REG_FMT_CTRL i)) (rLAD_STAT : ∀ i, i < 4 → R (REG_LAD_STAT i)) (rQDR_ACT : ∀ i, i < 4 → R (REG_QDR_ACT i)) (rQDR_OUT : ∀ i, i < 4 → R (REG_QDR_OUT i)) (rSRV_FAULT : ∀ i, i < 4 → R (REG_SRV_FAULT i)) (rSRV_STAT : ∀ i, i < 4 → R (REG_SRV_STAT i)) (rSRV_TARGET : ∀ i j, i < 4 → j < 2 → R (REG_SRV_TARGET i j)) (rVCM_FAULT : ∀ i, i < 4 → R (REG_VCM_FAULT i)) (rVCM_MA : ∀ i, i < 4 → R (REG_VCM_MA i)) (rVCM_STAT : ∀ i, i < 4 → R (REG_VCM_STAT i)) (rVCM_TEMP : R REG_VCM_TEMP) (hm : Kept P R m0 m) : Kept P R m0 (drvOt m) := by
  unfold drvOt
  repeat' (first | with_reducible assumption | split | with_reducible apply Mach.reportTemp_kept | with_reducible apply Mach.setDie_kept | with_reducible apply Mach.startRetract_kept | with_reducible apply Mach.actuatorFault_kept | with_reducible apply Mach.vcmFault_kept | with_reducible apply Mach.setSpn_kept | with_reducible apply Mach.setBridge_kept | with_reducible apply foldl_kept | with_reducible apply when_kept | dsimp only | intro _ _ _ | intro _ _ | intro _ | grind [VCM_FAULT_OT])
theorem powerDieWarn_kept {m : Mach} (preports : P .reports) (pdie : P .die) (rVCM_TEMP : R REG_VCM_TEMP) (hm : Kept P R m0 m) : Kept P R m0 (powerDieWarn m) := by
  grind [powerDieWarn, report_kept, Mach.reportTemp_kept, Mach.setDie_kept, foldl_kept]
theorem lowSpeedRetract_kept {m : Mach} (pdie : P .die) (rVCM_MA : ∀ i, i < 4 → R (REG_VCM_MA i)) (rVCM_STAT : ∀ i, i < 4 → R (REG_VCM_STAT i)) (hm : Kept P R m0 m) : Kept P R m0 (lowSpeedRetract m) := by
  grind [lowSpeedRetract, SPN_SPEED_VALID, SPN_SPEED_SPEED, VCM_RET1_MINRPM, Mach.retractAll_kept, foldl_kept]
theorem load_kept (a : Actuator) {m : Mach} (preports : P .reports) (pdie : P .die) (rQDR_ACT : ∀ i, i < 4 → R (REG_QDR_ACT i)) (rVCM_ERR : R REG_VCM_ERR) (rVCM_STAT : ∀ i, i < 4 → R (REG_VCM_STAT i)) (hm : Kept P R m0 m) : Kept P R m0 (load a m) := by
  grind [load, VCM_STAT_PARKED, SPN_STAT_INHIBIT, QDR_ACT_STATE, VCM_STAT_MODE, VCM_ERR_LOAD, Mach.setRo_kept, Mach.setParked_kept, Mach.setDie_kept, set_kept, report_kept, Mach.setBitAt_kept, foldl_kept]
theorem unload_kept (a : Actuator) {m : Mach} (pdie : P .die) (rVCM_MA : ∀ i, i < 4 → R (REG_VCM_MA i)) (rVCM_STAT : ∀ i, i < 4 → R (REG_VCM_STAT i)) (hm : Kept P R m0 m) : Kept P R m0 (unload a m) := by
  grind [unload, VCM_STAT_PARKED, Mach.startRetract_kept, foldl_kept]
theorem loadTimeout_kept (a : Actuator) {m : Mach} (preports : P .reports) (pdie : P .die) (rVCM_FAULT : ∀ i, i < 4 → R (REG_VCM_FAULT i)) (rVCM_MA : ∀ i, i < 4 → R (REG_VCM_MA i)) (rVCM_STAT : ∀ i, i < 4 → R (REG_VCM_STAT i)) (hm : Kept P R m0 m) : Kept P R m0 (loadTimeout a m) := by
  grind [loadTimeout, VCM_FAULT_LOAD_TO, Mach.startRetract_kept, Mach.vcmFault_kept, foldl_kept]
theorem powerDiePowerOn_kept {m : Mach} (pdie : P .die) (rQDR_ACT : ∀ i, i < 4 → R (REG_QDR_ACT i)) (rSPN_BRK : R REG_SPN_BRK) (rVCM_STAT : ∀ i, i < 4 → R (REG_VCM_STAT i)) (hm : Kept P R m0 m) : Kept P R m0 (powerDiePowerOn m) := by
  grind [powerDiePowerOn, setWord_kept, Mach.setDie_kept, Mach.setParked_kept, foldl_kept]
theorem Mach.clearSpn_kept {m : Mach} (pspn : P .spn) (hm : Kept P R m0 m) : Kept P R m0 (Mach.clearSpn m) := by
  grind [Mach.clearSpn, Mach.setSpn_kept, foldl_kept]
theorem Mach.clearVcm_kept {m : Mach} (pdie : P .die) (hm : Kept P R m0 m) : Kept P R m0 (Mach.clearVcm m) := by
  grind [Mach.clearVcm, Mach.setDie_kept, foldl_kept]
end Sys2Proof.Machine
end

