-- ==== Sys2Proof/Laws/KeptReset.lean ====
section
/-! SUPPORT. What the operations of Machine/Reset.lean keep: for each, the parts and the registers it may change. -/
set_option Elab.async false
set_option linter.all false
namespace Sys2Proof.Machine
open Sys2Proof
variable {P : Part → Prop} {R : Nat → Prop} {m0 : Mach}
theorem Mach.setRst_kept {m : Mach} (f : RstState → RstState) (prst : P .rst) (hm : Kept P R m0 m) : Kept P R m0 (Mach.setRst m f) := by
  grind [Mach.setRst, mk_rst_kept, foldl_kept]
theorem Mach.resetFeatures_kept {m : Mach} (pcmd : P .cmd) (hm : Kept P R m0 m) : Kept P R m0 (Mach.resetFeatures m) := by
  grind [Mach.resetFeatures, mk_cmd_kept, foldl_kept]
theorem Mach.resetDomains_kept {m : Mach} (cold : Bool) (preports : P .reports) (pcal : P .cal) (pmedia : P .media) (pmotion : P .motion) (pspn : P .spn) (ppwr : P .pwr) (pbuf : P .buf) (pdma : P .dma) (phost : P .host) (pcmd : P .cmd) (psec : P .sec) (peng : P .eng) (pevt : P .evt) (rall : ∀ a, R a) (hm : Kept P R m0 m) : Kept P R m0 (Mach.resetDomains m cold) := by
  grind [Mach.resetDomains, Mach.resetFeatures_kept, mk_reports_cal_media_motion_spn_pwr_buf_dma_host_cmd_sec_eng_evt_kept, foldl_kept]
theorem Mach.resetDie_kept {m : Mach} (pdie : P .die) (pspn : P .spn) (rVCM_MA : ∀ i, i < 4 → R (REG_VCM_MA i)) (rVCM_STAT : ∀ i, i < 4 → R (REG_VCM_STAT i)) (hm : Kept P R m0 m) : Kept P R m0 (Mach.resetDie m) := by
  grind [Mach.resetDie, Mach.setDie_kept, Mach.dieSafe_kept, foldl_kept]
theorem Mach.recordCause_kept {m : Mach} (src : ResetSource) (info : ResetInfo) (rRST_CAUSE : R REG_RST_CAUSE) (rRST_INFO : R REG_RST_INFO) (hm : Kept P R m0 m) : Kept P R m0 (Mach.recordCause m src info) := by
  grind [Mach.recordCause, RST_CAUSE_SRC, RST_CAUSE_FIRST, RST_INFO_CORE, RST_INFO_DOMAIN, RST_INFO_KIND, set_kept, foldl_kept]
theorem Mach.addCause_kept {m : Mach} (src : ResetSource) (info : ResetInfo) (rRST_CAUSE : R REG_RST_CAUSE) (rRST_INFO : R REG_RST_INFO) (hm : Kept P R m0 m) : Kept P R m0 (Mach.addCause m src info) := by
  grind [Mach.addCause, RST_CAUSE_SRC, RST_INFO_CORE, RST_INFO_DOMAIN, RST_INFO_KIND, set_kept, when_kept, foldl_kept]
theorem Mach.countStorm_kept {m : Mach} (cold : Bool) (prst : P .rst) (rRST_CNT : R REG_RST_CNT) (rRST_STAT : R REG_RST_STAT) (hm : Kept P R m0 m) : Kept P R m0 (Mach.countStorm m cold) := by
  grind [Mach.countStorm, RST_CNT_RESETS, RST_STAT_STORM, RST_CNT_STORMS, Mach.setRst_kept, incSat_kept, set_kept, foldl_kept]
theorem Mach.requestReset_kept {m : Mach} (src : ResetSource) (info : ResetInfo) (preports : P .reports) (pcal : P .cal) (pmedia : P .media) (pmotion : P .motion) (pdie : P .die) (pspn : P .spn) (ppwr : P .pwr) (pbuf : P .buf) (pdma : P .dma) (phost : P .host) (pcmd : P .cmd) (psec : P .sec) (peng : P .eng) (pevt : P .evt) (prst : P .rst) (rall : ∀ a, R a) (hm : Kept P R m0 m) : Kept P R m0 (Mach.requestReset m src info) := by
  unfold Mach.requestReset
  refine ite_kept (Mach.addCause_kept _ _ (rall _) (rall _) (hm)) (Mach.setRst_kept _ prst (Mach.countStorm_kept _ (by assumption) (rall _) (rall _) (Mach.recordCause_kept _ _ (rall _) (rall _) (Mach.resetDomains_kept _ (by assumption) (by assumption) (by assumption) (by assumption) (by assumption) (by assumption) (by assumption) (by assumption) (by assumption) (by assumption) (by assumption) (by assumption) (by assumption) rall (?_)))))
  exact mk_regs_kept _ (Mach.resetDie_kept (by assumption) (by assumption) (fun _ _ => rall _) (fun _ _ => rall _) (when_kept _ (fun _ h => Mach.setRst_kept _ prst h) hm)) (resetFields_wf _ _) (fun a h => absurd (rall a) h)
theorem Mach.softReset_kept {m : Mach} (preports : P .reports) (pcal : P .cal) (pmedia : P .media) (pmotion : P .motion) (pdie : P .die) (pspn : P .spn) (ppwr : P .pwr) (pbuf : P .buf) (pdma : P .dma) (phost : P .host) (pcmd : P .cmd) (psec : P .sec) (peng : P .eng) (pevt : P .evt) (prst : P .rst) (rall : ∀ a, R a) (hm : Kept P R m0 m) : Kept P R m0 (Mach.softReset m) := by
  grind [Mach.softReset, Mach.requestReset_kept, foldl_kept]
end Sys2Proof.Machine
end

