-- ==== Sys2Proof/Laws/KeptStore.lean ====
section
/-! SUPPORT. What the operations of Machine/Store.lean keep: for each, the parts and the registers it may change. -/
set_option Elab.async false
set_option linter.all false
namespace Sys2Proof.Machine
open Sys2Proof
variable {P : Part → Prop} {R : Nat → Prop} {m0 : Mach}
theorem Mach.setEngine_kept {m : Mach} (f : EngState → EngState) (peng : P .eng) (hm : Kept P R m0 m) : Kept P R m0 (Mach.setEngine m f) := by
  grind [Mach.setEngine, mk_eng_kept, foldl_kept]
theorem Mach.putStore_kept {m : Mach} (q : SeqId) (a : Nat) (w : BitVec 128) (peng : P .eng) (hm : Kept P R m0 m) : Kept P R m0 (Mach.putStore m q a w) := by
  grind [Mach.putStore, Mach.setEngine_kept, foldl_kept]
theorem Mach.putEntry_kept {m : Mach} (table : Nat) (opcode : Nat) (w : Word) (preports : P .reports) (peng : P .eng) (rQSQ_DTERR : R REG_QSQ_DTERR) (hm : Kept P R m0 m) : Kept P R m0 (Mach.putEntry m table opcode w) := by
  grind [Mach.putEntry, QSQ_DTERR_BAD, Mach.setEngine_kept, when_kept, flagEvent_kept, foldl_kept]
theorem Mach.configWrite_kept {m : Mach} (sel : FieldRow → Bool) (a : Nat) (x : Word) (rall : ∀ a, R a) (hm : Kept P R m0 m) : Kept P R m0 (Mach.configWrite m sel a x) := by
  grind [Mach.configWrite, setWord_kept, foldl_kept]
theorem Mach.applyConfig_kept {m : Mach} (b : Bundle) (sel : FieldRow → Bool) (at_ : Nat → Bool) (rall : ∀ a, R a) (hm : Kept P R m0 m) : Kept P R m0 (Mach.applyConfig m b sel at_) := by
  grind [Mach.applyConfig, Mach.configWrite_kept, foldl_kept]
theorem Mach.restartSeq_kept {m : Mach} (q : SeqId) (peng : P .eng) (rSEQ_STAT : ∀ i, i < 20 → R (REG_SEQ_STAT i)) (hm : Kept P R m0 m) : Kept P R m0 (Mach.restartSeq m q) := by
  unfold Mach.restartSeq
  dsimp only
  repeat' (first | assumption | (intro _ hx; exact hx) | split | with_reducible apply Mach.setEngine_kept | with_reducible apply set_kept | with_reducible apply foldl_kept | with_reducible apply when_kept | (intro m hm))
  all_goals grind (splits := 30) (ematch := 12) (gen := 12) (instances := 8000) [SEQ_STAT_ADDR, SEQ_STAT_FOP_OUT, SEQ_STAT_STATE, SEQ_CTRL_RUN, SEQ_STAT_IDLE, Mach.setEngine_kept, set_kept, foldl_kept]
theorem Mach.flipBanks_kept {m : Mach} (peng : P .eng) (rQSQ_CSSWAP : R REG_QSQ_CSSWAP) (rSEQ_STAT : ∀ i, i < 20 → R (REG_SEQ_STAT i)) (hm : Kept P R m0 m) : Kept P R m0 (Mach.flipBanks m) := by
  grind [Mach.flipBanks, SEQ_STAT_BANK, QSQ_CSSWAP_BANK, Mach.restartSeq_kept, set_kept, foldl_kept]
theorem Mach.loadShadow_kept {m : Mach} (b : Bundle) (preports : P .reports) (peng : P .eng) (rQSQ_DTERR : R REG_QSQ_DTERR) (hm : Kept P R m0 m) : Kept P R m0 (Mach.loadShadow m b) := by
  grind [Mach.loadShadow, Mach.putStore_kept, Mach.putEntry_kept, foldl_kept]
theorem Mach.loadStores_kept {m : Mach} (b : Bundle) (preports : P .reports) (peng : P .eng) (rQSQ_CSSWAP : R REG_QSQ_CSSWAP) (rQSQ_DTERR : R REG_QSQ_DTERR) (rSEQ_STAT : ∀ i, i < 20 → R (REG_SEQ_STAT i)) (hm : Kept P R m0 m) : Kept P R m0 (Mach.loadStores m b) := by
  grind [Mach.loadStores, Mach.flipBanks_kept, Mach.loadShadow_kept, foldl_kept]
end Sys2Proof.Machine
end

