-- ==== Sys2Proof/Laws/KeptCommand.lean ====
section
/-! SUPPORT. What the operations of Machine/Command.lean keep: for each, the parts and the registers it may change. -/
set_option Elab.async false
set_option linter.all false
namespace Sys2Proof.Machine
open Sys2Proof
variable {P : Part → Prop} {R : Nat → Prop} {m0 : Mach}
theorem Mach.setCmdState_kept {m : Mach} (f : CmdState → CmdState) (pcmd : P .cmd) (hm : Kept P R m0 m) : Kept P R m0 (Mach.setCmdState m f) := by
  grind [Mach.setCmdState, mk_cmd_kept, foldl_kept]
theorem Mach.syncTable_kept {m : Mach} (rQSQ_CMDTAB : R REG_QSQ_CMDTAB) (hm : Kept P R m0 m) : Kept P R m0 (Mach.syncTable m) := by
  grind [Mach.syncTable, QSQ_CMDTAB_USED, QSQ_CMDTAB_ADMIN, set_kept, foldl_kept]
theorem Mach.setTable_kept {m : Mach} (f : List Cmd → List Cmd) (pcmd : P .cmd) (rQSQ_CMDTAB : R REG_QSQ_CMDTAB) (hm : Kept P R m0 m) : Kept P R m0 (Mach.setTable m f) := by
  grind [Mach.setTable, Mach.syncTable_kept, Mach.setCmdState_kept, foldl_kept]
theorem Mach.setCommand_kept {m : Mach} (fsn : Nat) (f : Cmd → Cmd) (pcmd : P .cmd) (rQSQ_CMDTAB : R REG_QSQ_CMDTAB) (hm : Kept P R m0 m) : Kept P R m0 (Mach.setCommand m fsn f) := by
  grind [Mach.setCommand, Mach.setTable_kept, foldl_kept]
theorem Mach.decide__kept {m : Mach} (fsn : Nat) (status : Nat) (dw0 : Nat) (pcmd : P .cmd) (rQSQ_CMDTAB : R REG_QSQ_CMDTAB) (hm : Kept P R m0 m) : Kept P R m0 (Mach.decide_ m fsn status dw0) := by
  grind [Mach.decide_, Mach.setCommand_kept, foldl_kept]
theorem Mach.finish_kept {m : Mach} (fsn : Nat) (status : Nat) (pcmd : P .cmd) (rQSQ_CMDTAB : R REG_QSQ_CMDTAB) (hm : Kept P R m0 m) : Kept P R m0 (Mach.finish m fsn status) := by
  grind [Mach.finish, Mach.decide__kept, foldl_kept]
theorem Mach.withRunning_kept {m : Mach} (fsn : BitVec 32) (table : Nat) (opcode : Nat) (f : Cmd → Mach) (hm : Kept P R m0 m) (hf : ∀ (y0 : Cmd), Kept P R m0 (f y0)) : Kept P R m0 (Mach.withRunning m fsn table opcode f) := by
  grind [Mach.withRunning, foldl_kept]
theorem Mach.invalid_kept {m : Mach} (fsn : Nat) (byte : Nat) (bit : Nat) (pcmd : P .cmd) (rQSQ_CMDTAB : R REG_QSQ_CMDTAB) (hm : Kept P R m0 m) : Kept P R m0 (Mach.invalid m fsn byte bit) := by
  grind [Mach.invalid, Mach.finish_kept, Mach.setCommand_kept, foldl_kept]
theorem Mach.transferred_kept {m : Mach} (c : Cmd) (write : Bool) (e : IoEnd) (f : Mach → Mach) (pcmd : P .cmd) (rQSQ_CMDTAB : R REG_QSQ_CMDTAB) (hm : Kept P R m0 m) (hf : ∀ (y0 : Mach), Kept P R m0 y0 → Kept P R m0 (f y0)) : Kept P R m0 (Mach.transferred m c write e f) := by
  grind [Mach.transferred, Mach.finish_kept, foldl_kept]
theorem Mach.setNs_kept {m : Mach} (nsid : Nat) (f : Namespace → Namespace) (pcmd : P .cmd) (hm : Kept P R m0 m) : Kept P R m0 (Mach.setNs m nsid f) := by
  grind [Mach.setNs, Mach.setCmdState_kept, foldl_kept]
theorem Mach.setPwr_kept {m : Mach} (f : PowerMgr → PowerMgr) (ppwr : P .pwr) (hm : Kept P R m0 m) : Kept P R m0 (Mach.setPwr m f) := by
  grind [Mach.setPwr, mk_pwr_kept, foldl_kept]
theorem Mach.dropDirty_kept {m : Mach} (p : DirtyUnit → Bool) (ppwr : P .pwr) (hm : Kept P R m0 m) : Kept P R m0 (Mach.dropDirty m p) := by
  grind [Mach.dropDirty, Mach.setPwr_kept, foldl_kept]
theorem Mach.retireUnits_kept {m : Mach} (fsn : Nat) (p : DirtyUnit → Bool) (ppwr : P .pwr) (hm : Kept P R m0 m) : Kept P R m0 (Mach.retireUnits m fsn p) := by
  grind [Mach.retireUnits, Mach.setPwr_kept, foldl_kept]
theorem Mach.prune_kept {m : Mach} (fsn : Nat) (nsid : Nat) (lba : Nat) (ppwr : P .pwr) (hm : Kept P R m0 m) : Kept P R m0 (Mach.prune m fsn nsid lba) := by
  grind [Mach.prune, Mach.retireUnits_kept, foldl_kept]
theorem Mach.sweepKept_kept {m : Mach} (ppwr : P .pwr) (hm : Kept P R m0 m) : Kept P R m0 (Mach.sweepKept m) := by
  grind [Mach.sweepKept, Mach.setPwr_kept, foldl_kept]
theorem Mach.addDirty_kept {m : Mach} (u : DirtyUnit) (ppwr : P .pwr) (hm : Kept P R m0 m) : Kept P R m0 (Mach.addDirty m u) := by
  grind [Mach.addDirty, Mach.setPwr_kept, foldl_kept]
theorem Mach.metaChange_kept {m : Mach} (nsid : Nat) (units : List Nat) (ppwr : P .pwr) (hm : Kept P R m0 m) : Kept P R m0 (Mach.metaChange m nsid units) := by
  grind [Mach.metaChange, Mach.setPwr_kept, foldl_kept]
theorem Mach.supersedeLate_kept {m : Mach} (fsn : Nat) (r : LbaRange) (pcmd : P .cmd) (rQSQ_CMDTAB : R REG_QSQ_CMDTAB) (hm : Kept P R m0 m) : Kept P R m0 (Mach.supersedeLate m fsn r) := by
  grind [Mach.supersedeLate, Mach.setTable_kept, foldl_kept]
theorem Mach.supersede_kept {m : Mach} (fsn : Nat) (r : LbaRange) (ppwr : P .pwr) (pcmd : P .cmd) (rQSQ_CMDTAB : R REG_QSQ_CMDTAB) (hm : Kept P R m0 m) : Kept P R m0 (Mach.supersede m fsn r) := by
  grind [Mach.supersede, Mach.supersedeLate_kept, Mach.retireUnits_kept, foldl_kept]
theorem Mach.placeUnit_kept {m : Mach} (c : Cmd) (u : DirtyUnit) (ppwr : P .pwr) (hm : Kept P R m0 m) : Kept P R m0 (Mach.placeUnit m c u) := by
  grind [Mach.placeUnit, Mach.prune_kept, Mach.addDirty_kept, when_kept, Mach.setPwr_kept, foldl_kept]
theorem Mach.addZeros_kept {m : Mach} (c : Cmd) (counted : Bool) (p : Nat → Bool) (ppwr : P .pwr) (hm : Kept P R m0 m) : Kept P R m0 (Mach.addZeros m c counted p) := by
  grind [Mach.addZeros, Mach.placeUnit_kept, foldl_kept]
theorem Mach.withdrawWrite_kept {m : Mach} (c : Cmd) (ppwr : P .pwr) (hm : Kept P R m0 m) : Kept P R m0 (Mach.withdrawWrite m c) := by
  grind [Mach.withdrawWrite, Mach.setPwr_kept, Mach.addZeros_kept, foldl_kept]
theorem Mach.setUnc_kept {m : Mach} (f : List UncEntry → List UncEntry) (pcmd : P .cmd) (hm : Kept P R m0 m) : Kept P R m0 (Mach.setUnc m f) := by
  grind [Mach.setUnc, Mach.setCmdState_kept, foldl_kept]
theorem Mach.markLba_kept {m : Mach} (reserve : Bool) (nsid : Nat) (lba : Nat) (pcmd : P .cmd) (hm : Kept P R m0 m) : ∀ m', (Mach.markLba m reserve nsid lba) = some m' → Kept P R m0 m' := by
  grind [Mach.markLba, Mach.setUnc_kept, foldl_kept]
theorem Mach.markLost_kept {m : Mach} (nsid : Nat) (a : List Nat) (preports : P .reports) (pcmd : P .cmd) (hm : Kept P R m0 m) : Kept P R m0 (Mach.markLost m nsid a) := by
  induction a generalizing m with
  | nil => exact hm
  | cons l ls ih =>
    unfold Mach.markLost
    split
    · next h => exact ih (Mach.markLba_kept _ _ _ pcmd hm _ h)
    · exact report_kept _ hm preports
theorem Mach.clearMarks_kept {m : Mach} (r : LbaRange) (pcmd : P .cmd) (hm : Kept P R m0 m) : Kept P R m0 (Mach.clearMarks m r) := by
  grind [Mach.clearMarks, Mach.setUnc_kept, foldl_kept]
theorem Mach.setCtrl_kept {m : Mach} (p : PortId) (f : Ctrl → Ctrl) (phost : P .host) (hm : Kept P R m0 m) : Kept P R m0 (Mach.setCtrl m p f) := by
  grind [Mach.setCtrl, mk_host_kept, foldl_kept]
theorem Mach.setPort_kept {m : Mach} (p : PortId) (f : HostPort → HostPort) (phost : P .host) (hm : Kept P R m0 m) : Kept P R m0 (Mach.setPort m p f) := by
  grind [Mach.setPort, mk_host_kept, foldl_kept]
theorem Mach.serveEvents_kept {m : Mach} (p : PortId) (phost : P .host) (pcmd : P .cmd) (rQSQ_CMDTAB : R REG_QSQ_CMDTAB) (hm : Kept P R m0 m) : Kept P R m0 (Mach.serveEvents m p) := by
  grind [Mach.serveEvents, Mach.setCtrl_kept, Mach.decide__kept, foldl_kept]
theorem Mach.asyncEvent_kept {m : Mach} (p : PortId) (bit : Option Nat) (type : Nat) (info : Nat) (lid : Nat) (phost : P .host) (pcmd : P .cmd) (rQSQ_CMDTAB : R REG_QSQ_CMDTAB) (hm : Kept P R m0 m) : Kept P R m0 (Mach.asyncEvent m p bit type info lid) := by
  unfold Mach.asyncEvent
  dsimp only
  repeat' split
  all_goals grind (splits := 30) (ematch := 12) (gen := 12) (instances := 8000) [Mach.serveEvents_kept, Mach.setCtrl_kept, foldl_kept]
theorem Mach.asyncBoth_kept {m : Mach} (bit : Option Nat) (type : Nat) (info : Nat) (lid : Nat) (phost : P .host) (pcmd : P .cmd) (rQSQ_CMDTAB : R REG_QSQ_CMDTAB) (hm : Kept P R m0 m) : Kept P R m0 (Mach.asyncBoth m bit type info lid) := by
  grind [Mach.asyncBoth, Mach.asyncEvent_kept, foldl_kept]
theorem Mach.scekaNotice_kept {m : Mach} (info : Nat) (lid : Nat) (phost : P .host) (pcmd : P .cmd) (rQSQ_CMDTAB : R REG_QSQ_CMDTAB) (hm : Kept P R m0 m) : Kept P R m0 (Mach.scekaNotice m info lid) := by
  grind [Mach.scekaNotice, Mach.asyncBoth_kept, foldl_kept]
theorem Mach.nsChanged_kept {m : Mach} (nsid : Nat) (phost : P .host) (pcmd : P .cmd) (rQSQ_CMDTAB : R REG_QSQ_CMDTAB) (hm : Kept P R m0 m) : Kept P R m0 (Mach.nsChanged m nsid) := by
  grind [Mach.nsChanged, Mach.setCtrl_kept, Mach.asyncBoth_kept, foldl_kept]
theorem Mach.criticalWarning_kept {m : Mach} (bit : Nat) (phost : P .host) (pcmd : P .cmd) (rQSQ_CMDTAB : R REG_QSQ_CMDTAB) (hm : Kept P R m0 m) : Kept P R m0 (Mach.criticalWarning m bit) := by
  grind [Mach.criticalWarning, Mach.asyncBoth_kept, Mach.setCmdState_kept, foldl_kept]
theorem Mach.enterMode_kept {m : Mach} (k : Nat) (preports : P .reports) (pout : P .out) (phost : P .host) (rHIF_LINK : ∀ i, i < 2 → R (REG_HIF_LINK i)) (rPWR_MODE : R REG_PWR_MODE) (hm : Kept P R m0 m) : Kept P R m0 (Mach.enterMode m k) := by
  grind [Mach.enterMode, PWR_MODE_MODE, HIF_LINK_UP, report_kept, set_kept, when_kept, Mach.tlp_kept, Mach.setPort_kept, foldl_kept]
end Sys2Proof.Machine
end

