-- ==== Sys2Proof/Laws/KeptHost.lean ====
section
/-! SUPPORT. What the operations of Machine/Host.lean keep: for each, the parts and the registers it may change. -/
set_option Elab.async false
set_option linter.all false
namespace Sys2Proof.Machine
open Sys2Proof
variable {P : Part → Prop} {R : Nat → Prop} {m0 : Mach}
theorem Mach.syncCtrl_kept {m : Mach} (p : PortId) (rHIF_CC : ∀ i, i < 2 → R (REG_HIF_CC i)) (rQSQ_ARB : ∀ i, i < 2 → R (REG_QSQ_ARB i)) (hm : Kept P R m0 m) : Kept P R m0 (Mach.syncCtrl m p) := by
  grind (splits := 40) (ematch := 20) (gen := 20) (instances := 20000) [Mach.syncCtrl, HIF_CC_EN, HIF_CC_RDY, HIF_CC_CFS, HIF_CC_SHST, QSQ_ARB_AB, QSQ_ARB_WRR, QSQ_ARB_LPW, QSQ_ARB_MPW, QSQ_ARB_HPW, set_kept, setFlag_kept, foldl_kept]
theorem Mach.syncHalt_kept {m : Mach} (p : PortId) (rQSQ_HALT : ∀ i j, i < 2 → j < 4 → R (REG_QSQ_HALT i j)) (rQSQ_QHOE : ∀ i j, i < 2 → j < 4 → R (REG_QSQ_QHOE i j)) (hm : Kept P R m0 m) : Kept P R m0 (Mach.syncHalt m p) := by
  grind (splits := 30) (ematch := 12) (gen := 12) (instances := 8000) [Mach.syncHalt, QSQ_HALT_HALTED, QSQ_QHOE_ENABLED, set_kept, foldl_mem_kept, List.mem_range]
theorem Mach.syncFetch_kept {m : Mach} (rQSQ_STAT : R REG_QSQ_STAT) (hm : Kept P R m0 m) : Kept P R m0 (Mach.syncFetch m) := by
  grind [Mach.syncFetch, QSQ_STAT_BUSY, QSQ_STAT_INFLIGHT0, QSQ_STAT_INFLIGHT1, setFlag_kept, set_kept, foldl_kept]
theorem Mach.dropSpecs_kept {m : Mach} (gone : List Nat) (preports : P .reports) (pcal : P .cal) (pbuf : P .buf) (pcmd : P .cmd) (rPOOL_ERR : R REG_POOL_ERR) (rPOOL_FIRST : R REG_POOL_FIRST) (rPOOL_RETSTAT : ∀ i, i < 8 → R (REG_POOL_RETSTAT i)) (rPOOL_STAT : ∀ i, i < 8 → R (REG_POOL_STAT i)) (hm : Kept P R m0 m) : Kept P R m0 (Mach.dropSpecs m gone) := by
  grind [Mach.dropSpecs, Mach.setCmdState_kept, poolFree_kept, foldl_kept]
theorem Mach.abortCommands_kept {m : Mach} (gone : List Cmd) (status : Nat) (pmedia : P .media) (pcmd : P .cmd) (rQSQ_CMDTAB : R REG_QSQ_CMDTAB) (hm : Kept P R m0 m) : Kept P R m0 (Mach.abortCommands m gone status) := by
  grind [Mach.abortCommands, Mach.withdrawAborted_kept, Mach.finish_kept, foldl_kept]
theorem Mach.abandonCommands_kept {m : Mach} (p : PortId) (preports : P .reports) (pcal : P .cal) (pmedia : P .media) (pmotion : P .motion) (ppwr : P .pwr) (pbuf : P .buf) (pdma : P .dma) (phost : P .host) (pcmd : P .cmd) (rCHN_SMEM : ∀ i, i < 8 → R (REG_CHN_SMEM i)) (rDEC_BUSY : R REG_DEC_BUSY) (rDMA_CH_MOVED : ∀ i, i < 16 → R (REG_DMA_CH_MOVED i)) (rDMA_CH_STAT : ∀ i, i < 16 → R (REG_DMA_CH_STAT i)) (rDMA_CTRL : R REG_DMA_CTRL) (rDMA_STAT : R REG_DMA_STAT) (rLAD_STAT : ∀ i, i < 4 → R (REG_LAD_STAT i)) (rPOOL_ERR : R REG_POOL_ERR) (rPOOL_FIRST : R REG_POOL_FIRST) (rPOOL_RETSTAT : ∀ i, i < 8 → R (REG_POOL_RETSTAT i)) (rPOOL_STAT : ∀ i, i < 8 → R (REG_POOL_STAT i)) (rQSQ_CMDTAB : R REG_QSQ_CMDTAB) (rQSQ_STAT : R REG_QSQ_STAT) (rSRV_STAT : ∀ i, i < 4 → R (REG_SRV_STAT i)) (rSRV_TARGET : ∀ i j, i < 4 → j < 2 → R (REG_SRV_TARGET i j)) (hm : Kept P R m0 m) : Kept P R m0 (Mach.abandonCommands m p) := by
  unfold Mach.abandonCommands
  refine Mach.syncFetch_kept (by assumption) (?_)
  refine setFlag_kept _ _ (Mach.sweepKept_kept (by assumption) (?_)) ?_
  · refine Mach.dropSpecs_kept _ (by assumption) (by assumption) (by assumption) (by assumption) (by assumption) (by assumption) (by assumption) (by assumption) (?_)
    refine foldl_kept (fun m c h => Mach.withdrawWrite_kept _ (by assumption) (h)) ?_
    exact mk_host_kept _ (Mach.setTable_kept _ (by assumption) (by assumption) (Mach.withdrawReset_kept _ (by assumption) (by assumption) (by assumption) (by assumption) (by assumption) (by assumption) (by assumption) (dmaBlockWrite_kept _ _ (by assumption) (by assumption) (by assumption) (by assumption) (by assumption) (by assumption) (hm)))) phost
  · split <;> assumption
theorem Mach.applyPending_kept {m : Mach} (cls : Nat) (preports : P .reports) (psec : P .sec) (peng : P .eng) (rall : ∀ a, R a) (hm : Kept P R m0 m) : Kept P R m0 (Mach.applyPending m cls) := by
  unfold Mach.applyPending
  dsimp only
  repeat' split
  all_goals grind (splits := 30) (ematch := 12) (gen := 12) (instances := 8000) [Mach.loadStores_kept, Mach.applyConfig_kept, mk_sec_kept, foldl_kept]
theorem Mach.controllerReset_kept {m : Mach} (p : PortId) (keep : Bool) (preports : P .reports) (pcal : P .cal) (pmedia : P .media) (pmotion : P .motion) (pdie : P .die) (pspn : P .spn) (ppwr : P .pwr) (pbuf : P .buf) (pdma : P .dma) (phost : P .host) (pcmd : P .cmd) (psec : P .sec) (peng : P .eng) (pevt : P .evt) (prst : P .rst) (rall : ∀ a, R a) (hm : Kept P R m0 m) : Kept P R m0 (Mach.controllerReset m p keep) := by
  unfold Mach.controllerReset
  dsimp only
  repeat' split
  all_goals grind (splits := 30) (ematch := 12) (gen := 12) (instances := 8000) [Mach.softReset_kept, Mach.abandonCommands_kept, Mach.setCtrl_kept, Mach.applyPending_kept, report_kept, Mach.syncHalt_kept, Mach.syncCtrl_kept, foldl_kept]
theorem Mach.linkOff_kept {m : Mach} (p : PortId) (phost : P .host) (rHIF_LINK : ∀ i, i < 2 → R (REG_HIF_LINK i)) (hm : Kept P R m0 m) : Kept P R m0 (Mach.linkOff m p) := by
  grind (splits := 40) (ematch := 20) (gen := 20) (instances := 20000) [Mach.linkOff, HIF_LINK_UP, HIF_LINK_SPEED, HIF_LINK_WIDTH, HIF_LINK_PMSTATE, Mach.setPort_kept, set_kept, foldl_kept]
theorem Mach.resetConfig_kept {m : Mach} (p : PortId) (phost : P .host) (hm : Kept P R m0 m) : Kept P R m0 (Mach.resetConfig m p) := by
  grind [Mach.resetConfig, Mach.setPort_kept, foldl_kept]
theorem Mach.linkDownEvent_kept {m : Mach} (p : PortId) (preports : P .reports) (pcal : P .cal) (pmedia : P .media) (pmotion : P .motion) (pdie : P .die) (pspn : P .spn) (ppwr : P .pwr) (pbuf : P .buf) (pdma : P .dma) (phost : P .host) (pcmd : P .cmd) (psec : P .sec) (peng : P .eng) (pevt : P .evt) (prst : P .rst) (rall : ∀ a, R a) (hm : Kept P R m0 m) : Kept P R m0 (Mach.linkDownEvent m p) := by
  grind (splits := 40) (ematch := 20) (gen := 20) (instances := 20000) [Mach.linkDownEvent, HIF_RSTCAUSE_LINKDOWN, Mach.controllerReset_kept, report_kept, set_kept, Mach.resetConfig_kept, Mach.linkOff_kept, foldl_kept]
theorem Mach.drivePad_kept {m : Mach} (i : PadId) (prst : P .rst) (hm : Kept P R m0 m) : Kept P R m0 (Mach.drivePad m i) := by
  grind [Mach.drivePad, Mach.setRst_kept, foldl_kept]
theorem trainEnWrite_kept (en0 : Bool) (en1 : Bool) {m : Mach} (preports : P .reports) (pcal : P .cal) (pmedia : P .media) (pmotion : P .motion) (pdie : P .die) (pspn : P .spn) (ppwr : P .pwr) (pbuf : P .buf) (pdma : P .dma) (phost : P .host) (pcmd : P .cmd) (psec : P .sec) (peng : P .eng) (pevt : P .evt) (prst : P .rst) (rall : ∀ a, R a) (hm : Kept P R m0 m) : Kept P R m0 (trainEnWrite en0 en1 m) := by
  grind [trainEnWrite, HIF_CTRL_TRAIN_EN0, HIF_CTRL_TRAIN_EN1, HIF_LINK_UP, setFlag_kept, when_kept, Mach.drivePad_kept, Mach.linkDownEvent_kept, foldl_kept]
theorem linkUp_kept (p : PortId) (speed : Fin 6) (width : Fin 5) {m : Mach} (pfreeCtr : P .freeCtr) (rHIF_LINK : ∀ i, i < 2 → R (REG_HIF_LINK i)) (hm : Kept P R m0 m) : Kept P R m0 (linkUp p speed width m) := by
  grind [linkUp, HIF_LINK_UP, HIF_LINK_SPEED, HIF_LINK_WIDTH, HIF_LINK_LTSSM, set_kept, nextFree_kept, foldl_kept]
theorem linkDown_kept (p : PortId) {m : Mach} (preports : P .reports) (pcal : P .cal) (pmedia : P .media) (pmotion : P .motion) (pdie : P .die) (pspn : P .spn) (ppwr : P .pwr) (pbuf : P .buf) (pdma : P .dma) (phost : P .host) (pcmd : P .cmd) (psec : P .sec) (peng : P .eng) (pevt : P .evt) (prst : P .rst) (rall : ∀ a, R a) (hm : Kept P R m0 m) : Kept P R m0 (linkDown p m) := by
  grind [linkDown, HIF_LINK_UP, Mach.linkDownEvent_kept, foldl_kept]
theorem perstAssert_kept (p : PortId) {m : Mach} (preports : P .reports) (pcal : P .cal) (pmedia : P .media) (pmotion : P .motion) (pdie : P .die) (pspn : P .spn) (ppwr : P .pwr) (pbuf : P .buf) (pdma : P .dma) (phost : P .host) (pcmd : P .cmd) (psec : P .sec) (peng : P .eng) (pevt : P .evt) (prst : P .rst) (rall : ∀ a, R a) (hm : Kept P R m0 m) : Kept P R m0 (perstAssert p m) := by
  grind [perstAssert, HIF_RSTCAUSE_PERST, set_kept, Mach.setPort_kept, Mach.resetConfig_kept, Mach.linkOff_kept, Mach.controllerReset_kept, foldl_kept]
theorem perstDeassert_kept (p : PortId) {m : Mach} (phost : P .host) (hm : Kept P R m0 m) : Kept P R m0 (perstDeassert p m) := by
  grind [perstDeassert, Mach.setPort_kept, foldl_kept]
theorem hotReset_kept (p : PortId) {m : Mach} (preports : P .reports) (pcal : P .cal) (pmedia : P .media) (pmotion : P .motion) (pdie : P .die) (pspn : P .spn) (ppwr : P .pwr) (pbuf : P .buf) (pdma : P .dma) (phost : P .host) (pcmd : P .cmd) (psec : P .sec) (peng : P .eng) (pevt : P .evt) (prst : P .rst) (rall : ∀ a, R a) (hm : Kept P R m0 m) : Kept P R m0 (hotReset p m) := by
  grind [hotReset, HIF_LINK_UP, HIF_RSTCAUSE_HOT, Mach.controllerReset_kept, set_kept, Mach.resetConfig_kept, foldl_kept]
theorem functionLevelReset_kept (p : PortId) {m : Mach} (preports : P .reports) (pcal : P .cal) (pmedia : P .media) (pmotion : P .motion) (pdie : P .die) (pspn : P .spn) (ppwr : P .pwr) (pbuf : P .buf) (pdma : P .dma) (phost : P .host) (pcmd : P .cmd) (psec : P .sec) (peng : P .eng) (pevt : P .evt) (prst : P .rst) (rall : ∀ a, R a) (hm : Kept P R m0 m) : Kept P R m0 (functionLevelReset p m) := by
  grind [functionLevelReset, HIF_LINK_UP, HIF_RSTCAUSE_FLR, Mach.controllerReset_kept, set_kept, Mach.resetConfig_kept, foldl_kept]
theorem ccEnSet_kept (p : PortId) (cc : Word) {m : Mach} (phost : P .host) (rHIF_CC : ∀ i, i < 2 → R (REG_HIF_CC i)) (rQSQ_ARB : ∀ i, i < 2 → R (REG_QSQ_ARB i)) (hm : Kept P R m0 m) : Kept P R m0 (ccEnSet p cc m) := by
  grind [ccEnSet, Mach.syncCtrl_kept, Mach.setCtrl_kept, foldl_kept]
theorem ccEnClear_kept (p : PortId) {m : Mach} (preports : P .reports) (pcal : P .cal) (pmedia : P .media) (pmotion : P .motion) (pdie : P .die) (pspn : P .spn) (ppwr : P .pwr) (pbuf : P .buf) (pdma : P .dma) (phost : P .host) (pcmd : P .cmd) (psec : P .sec) (peng : P .eng) (pevt : P .evt) (prst : P .rst) (rall : ∀ a, R a) (hm : Kept P R m0 m) : Kept P R m0 (ccEnClear p m) := by
  grind [ccEnClear, HIF_RSTCAUSE_CC_EN, Mach.controllerReset_kept, set_kept, foldl_kept]
theorem Mach.shutdown_kept {m : Mach} (p : PortId) (shn : Nat) (phost : P .host) (rHIF_CC : ∀ i, i < 2 → R (REG_HIF_CC i)) (rQSQ_ARB : ∀ i, i < 2 → R (REG_QSQ_ARB i)) (hm : Kept P R m0 m) : Kept P R m0 (Mach.shutdown m p shn) := by
  grind [Mach.shutdown, Mach.syncCtrl_kept, Mach.setCtrl_kept, foldl_kept]
theorem shutdownNormal_kept (p : PortId) {m : Mach} (phost : P .host) (rHIF_CC : ∀ i, i < 2 → R (REG_HIF_CC i)) (rQSQ_ARB : ∀ i, i < 2 → R (REG_QSQ_ARB i)) (hm : Kept P R m0 m) : Kept P R m0 (shutdownNormal p m) := by
  grind [shutdownNormal, Mach.shutdown_kept, foldl_kept]
theorem shutdownAbrupt_kept (p : PortId) {m : Mach} (preports : P .reports) (pcal : P .cal) (pmedia : P .media) (pmotion : P .motion) (ppwr : P .pwr) (pbuf : P .buf) (pdma : P .dma) (phost : P .host) (pcmd : P .cmd) (rCHN_SMEM : ∀ i, i < 8 → R (REG_CHN_SMEM i)) (rDEC_BUSY : R REG_DEC_BUSY) (rDMA_CH_MOVED : ∀ i, i < 16 → R (REG_DMA_CH_MOVED i)) (rDMA_CH_STAT : ∀ i, i < 16 → R (REG_DMA_CH_STAT i)) (rDMA_CTRL : R REG_DMA_CTRL) (rDMA_STAT : R REG_DMA_STAT) (rHIF_CC : ∀ i, i < 2 → R (REG_HIF_CC i)) (rLAD_STAT : ∀ i, i < 4 → R (REG_LAD_STAT i)) (rPOOL_ERR : R REG_POOL_ERR) (rPOOL_FIRST : R REG_POOL_FIRST) (rPOOL_RETSTAT : ∀ i, i < 8 → R (REG_POOL_RETSTAT i)) (rPOOL_STAT : ∀ i, i < 8 → R (REG_POOL_STAT i)) (rQSQ_ARB : ∀ i, i < 2 → R (REG_QSQ_ARB i)) (rQSQ_CMDTAB : R REG_QSQ_CMDTAB) (rQSQ_STAT : R REG_QSQ_STAT) (rSRV_STAT : ∀ i, i < 4 → R (REG_SRV_STAT i)) (rSRV_TARGET : ∀ i j, i < 4 → j < 2 → R (REG_SRV_TARGET i j)) (hm : Kept P R m0 m) : Kept P R m0 (shutdownAbrupt p m) := by
  grind [shutdownAbrupt, Mach.shutdown_kept, Mach.abandonCommands_kept, foldl_kept]
theorem shutdownComplete_kept (p : PortId) {m : Mach} (phost : P .host) (rHIF_CC : ∀ i, i < 2 → R (REG_HIF_CC i)) (rQSQ_ARB : ∀ i, i < 2 → R (REG_QSQ_ARB i)) (hm : Kept P R m0 m) : Kept P R m0 (shutdownComplete p m) := by
  grind [shutdownComplete, Mach.syncCtrl_kept, Mach.setCtrl_kept, foldl_kept]
theorem Mach.subsystemReset_kept {m : Mach} (preports : P .reports) (pcal : P .cal) (pmedia : P .media) (pmotion : P .motion) (pdie : P .die) (pspn : P .spn) (ppwr : P .pwr) (pbuf : P .buf) (pdma : P .dma) (phost : P .host) (pcmd : P .cmd) (psec : P .sec) (peng : P .eng) (pevt : P .evt) (prst : P .rst) (rall : ∀ a, R a) (hm : Kept P R m0 m) : Kept P R m0 (Mach.subsystemReset m) := by
  unfold Mach.subsystemReset
  dsimp only
  repeat' (first | assumption | (intro _ hx; exact hx) | split | with_reducible apply Mach.softReset_kept | with_reducible apply Mach.setCtrl_kept | with_reducible apply Mach.controllerReset_kept | with_reducible apply set_kept | with_reducible apply Mach.applyPending_kept | with_reducible apply Mach.resetConfig_kept | with_reducible apply Mach.linkOff_kept | with_reducible apply foldl_kept | with_reducible apply when_kept | (intro m hm))
  all_goals grind (splits := 30) (ematch := 12) (gen := 12) (instances := 8000) [HIF_RSTCAUSE_NSSR, Mach.softReset_kept, Mach.setCtrl_kept, Mach.controllerReset_kept, set_kept, Mach.applyPending_kept, Mach.resetConfig_kept, Mach.linkOff_kept, foldl_kept]
theorem nssrWrite_kept (w : Word) {m : Mach} (preports : P .reports) (pcal : P .cal) (pmedia : P .media) (pmotion : P .motion) (pdie : P .die) (pspn : P .spn) (ppwr : P .pwr) (pbuf : P .buf) (pdma : P .dma) (phost : P .host) (pcmd : P .cmd) (psec : P .sec) (peng : P .eng) (pevt : P .evt) (prst : P .rst) (rall : ∀ a, R a) (hm : Kept P R m0 m) : Kept P R m0 (nssrWrite w m) := by
  grind [nssrWrite, Mach.subsystemReset_kept, foldl_kept]
theorem Mach.badDoorbell_kept {m : Mach} (p : PortId) (value : Bool) (preports : P .reports) (phost : P .host) (pcmd : P .cmd) (rQSQ_CMDTAB : R REG_QSQ_CMDTAB) (rQSQ_ERR : R REG_QSQ_ERR) (hm : Kept P R m0 m) : Kept P R m0 (Mach.badDoorbell m p value) := by
  grind [Mach.badDoorbell, QSQ_ERR_DB_VALUE, QSQ_ERR_DB_NOQ, Mach.asyncEvent_kept, flagEvent_kept, foldl_kept]
theorem sqTailDoorbell_kept (p : PortId) (qid : BitVec 16) (v : BitVec 16) {m : Mach} (preports : P .reports) (phost : P .host) (pcmd : P .cmd) (rQSQ_CMDTAB : R REG_QSQ_CMDTAB) (rQSQ_ERR : R REG_QSQ_ERR) (hm : Kept P R m0 m) : Kept P R m0 (sqTailDoorbell p qid v m) := by
  grind [sqTailDoorbell, Mach.badDoorbell_kept, Mach.setCtrl_kept, foldl_kept]
theorem cqHeadDoorbell_kept (p : PortId) (qid : BitVec 16) (v : BitVec 16) {m : Mach} (preports : P .reports) (phost : P .host) (pcmd : P .cmd) (rQSQ_CMDTAB : R REG_QSQ_CMDTAB) (rQSQ_ERR : R REG_QSQ_ERR) (hm : Kept P R m0 m) : Kept P R m0 (cqHeadDoorbell p qid v m) := by
  grind [cqHeadDoorbell, Mach.badDoorbell_kept, Mach.setCtrl_kept, foldl_kept]
theorem receivedError_kept (p : PortId) (e : LinkError) {m : Mach} (preports : P .reports) (pout : P .out) (phost : P .host) (rHIF_AERCNT : ∀ i, i < 2 → R (REG_HIF_AERCNT i)) (rHIF_LINK : ∀ i, i < 2 → R (REG_HIF_LINK i)) (hm : Kept P R m0 m) : Kept P R m0 (receivedError p e m) := by
  grind [receivedError, Mach.aerCorrectable_kept, Mach.aerUncorr_kept, foldl_kept]
theorem aspmL1Entry_kept (p : PortId) (sub : Fin 3) {m : Mach} (rHIF_LINK : ∀ i, i < 2 → R (REG_HIF_LINK i)) (hm : Kept P R m0 m) : Kept P R m0 (aspmL1Entry p sub m) := by
  grind [aspmL1Entry, HIF_LINK_UP, HIF_LINK_PMSTATE, set_kept, foldl_kept]
theorem aspmL1Exit_kept (p : PortId) {m : Mach} (rHIF_LINK : ∀ i, i < 2 → R (REG_HIF_LINK i)) (hm : Kept P R m0 m) : Kept P R m0 (aspmL1Exit p m) := by
  grind [aspmL1Exit, HIF_LINK_PMSTATE, set_kept, foldl_kept]
theorem d3hotTransition_kept (p : PortId) (d3 : Bool) {m : Mach} (phost : P .host) (rHIF_LINK : ∀ i, i < 2 → R (REG_HIF_LINK i)) (hm : Kept P R m0 m) : Kept P R m0 (d3hotTransition p d3 m) := by
  grind [d3hotTransition, HIF_LINK_PMSTATE, set_kept, Mach.setPort_kept, foldl_kept]
theorem fetchEnWrite_kept (en0 : Bool) (en1 : Bool) {m : Mach} (rQSQ_CTRL : R REG_QSQ_CTRL) (hm : Kept P R m0 m) : Kept P R m0 (fetchEnWrite en0 en1 m) := by
  grind [fetchEnWrite, QSQ_CTRL_FETCH_EN0, QSQ_CTRL_FETCH_EN1, setFlag_kept, foldl_kept]
theorem Mach.acceptGrant_kept {m : Mach} (p : PortId) (k : Fin 4) (x : ArbChoice) (size : Nat) (phost : P .host) (pcmd : P .cmd) (rQSQ_CMDTAB : R REG_QSQ_CMDTAB) (rQSQ_FSN : R REG_QSQ_FSN) (rQSQ_STAT : R REG_QSQ_STAT) (hm : Kept P R m0 m) : Kept P R m0 (Mach.acceptGrant m p k x size) := by
  grind (splits := 40) (ematch := 20) (gen := 20) (instances := 20000) [Mach.acceptGrant, QSQ_FSN_FSN, Mach.setTable_kept, set_kept, Mach.setCtrl_kept, Mach.syncFetch_kept, mk_host_kept, foldl_kept]
theorem arbiterGrant_kept {m : Mach} (phost : P .host) (pcmd : P .cmd) (rQSQ_CMDTAB : R REG_QSQ_CMDTAB) (rQSQ_FSN : R REG_QSQ_FSN) (rQSQ_STAT : R REG_QSQ_STAT) (hm : Kept P R m0 m) : Kept P R m0 (arbiterGrant m) := by
  grind [arbiterGrant, Mach.acceptGrant_kept, foldl_kept]
theorem fetch_kept (k : Fin 4) {m : Mach} (pout : P .out) (phost : P .host) (rHIF_LINK : ∀ i, i < 2 → R (REG_HIF_LINK i)) (hm : Kept P R m0 m) : Kept P R m0 (fetch k m) := by
  unfold fetch
  split
  · exact hm
  split
  · exact hm
  split
  · exact hm
  exact mk_host_kept _ (foldl_kept (fun m r h => Mach.tlp_kept _ _ (by assumption) (by assumption) (h)) hm) phost
theorem fetchComplete_kept (k : Fin 4) (data : Option (List (BitVec 512))) {m : Mach} (preports : P .reports) (phost : P .host) (pcmd : P .cmd) (rHIF_CC : ∀ i, i < 2 → R (REG_HIF_CC i)) (rQSQ_ARB : ∀ i, i < 2 → R (REG_QSQ_ARB i)) (rQSQ_CMDTAB : R REG_QSQ_CMDTAB) (rQSQ_ERR : R REG_QSQ_ERR) (rQSQ_STAT : R REG_QSQ_STAT) (hm : Kept P R m0 m) : Kept P R m0 (fetchComplete k data m) := by
  unfold fetchComplete
  dsimp only
  repeat' split
  all_goals grind (splits := 30) (ematch := 12) (gen := 12) (instances := 8000) [QSQ_ERR_FETCH_FAIL, QSQ_ERR_FETCH_FATAL, Mach.setTable_kept, Mach.setCtrl_kept, Mach.syncFetch_kept, flagEvent_kept, Mach.syncCtrl_kept, mk_host_kept, foldl_kept]
theorem Mach.interrupt_kept {m : Mach} (p : PortId) (v : Nat) (pout : P .out) (phost : P .host) (rHIF_LINK : ∀ i, i < 2 → R (REG_HIF_LINK i)) (hm : Kept P R m0 m) : Kept P R m0 (Mach.interrupt m p v) := by
  grind [Mach.interrupt, Mach.tlp_kept, Mach.setCtrl_kept, when_kept, foldl_kept]
theorem Mach.unmaskInt_kept {m : Mach} (p : PortId) (w : Word) (pout : P .out) (phost : P .host) (rHIF_LINK : ∀ i, i < 2 → R (REG_HIF_LINK i)) (hm : Kept P R m0 m) : Kept P R m0 (Mach.unmaskInt m p w) := by
  grind [Mach.unmaskInt, Mach.setCtrl_kept, Mach.tlp_kept, foldl_kept]
theorem Mach.postInterrupt_kept {m : Mach} (p : PortId) (q : CompQueue) (pout : P .out) (phost : P .host) (rHIF_LINK : ∀ i, i < 2 → R (REG_HIF_LINK i)) (hm : Kept P R m0 m) : Kept P R m0 (Mach.postInterrupt m p q) := by
  grind [Mach.postInterrupt, Mach.interrupt_kept, Mach.setCtrl_kept, foldl_kept]
theorem Mach.errorEntry_kept {m : Mach} (p : PortId) (sqid : Nat) (cid : Nat) (status : Nat) (loc : Nat) (lba : Nat) (nsid : Nat) (source : Option Nat) (phost : P .host) (hm : Kept P R m0 m) : Kept P R m0 (Mach.errorEntry m p sqid cid status loc lba nsid source) := by
  grind [Mach.errorEntry, Mach.setCtrl_kept, foldl_kept]
theorem Mach.haltQueue_kept {m : Mach} (c : Cmd) (status : Nat) (preports : P .reports) (phost : P .host) (pcmd : P .cmd) (rQSQ_CMDTAB : R REG_QSQ_CMDTAB) (rQSQ_HALT : ∀ i j, i < 2 → j < 4 → R (REG_QSQ_HALT i j)) (rQSQ_QHOE : ∀ i j, i < 2 → j < 4 → R (REG_QSQ_QHOE i j)) (hm : Kept P R m0 m) : Kept P R m0 (Mach.haltQueue m c status) := by
  grind [Mach.haltQueue, Mach.setCtrl_kept, Mach.asyncEvent_kept, report_kept, Mach.syncHalt_kept, foldl_kept]
theorem Mach.releaseBound_kept {m : Mach} (fsn : Nat) (pcmd : P .cmd) (hm : Kept P R m0 m) : Kept P R m0 (Mach.releaseBound m fsn) := by
  grind [Mach.releaseBound, Mach.setCmdState_kept, foldl_kept]
theorem completionPost_kept (fsn : BitVec 32) (ok : Bool) {m : Mach} (preports : P .reports) (pout : P .out) (phost : P .host) (pcmd : P .cmd) (rHIF_CC : ∀ i, i < 2 → R (REG_HIF_CC i)) (rHIF_LINK : ∀ i, i < 2 → R (REG_HIF_LINK i)) (rQSQ_ARB : ∀ i, i < 2 → R (REG_QSQ_ARB i)) (rQSQ_CMDTAB : R REG_QSQ_CMDTAB) (rQSQ_HALT : ∀ i j, i < 2 → j < 4 → R (REG_QSQ_HALT i j)) (rQSQ_QHOE : ∀ i j, i < 2 → j < 4 → R (REG_QSQ_QHOE i j)) (rQSQ_STAT : R REG_QSQ_STAT) (hm : Kept P R m0 m) : Kept P R m0 (completionPost fsn ok m) := by
  unfold completionPost
  repeat' (first | with_reducible assumption | split | with_reducible apply Mach.syncCtrl_kept | with_reducible apply Mach.setCtrl_kept | with_reducible apply Mach.tlp_kept | with_reducible apply Mach.postInterrupt_kept | with_reducible apply when_kept | with_reducible apply Mach.errorEntry_kept | with_reducible apply Mach.haltQueue_kept | with_reducible apply Mach.syncFetch_kept | with_reducible apply Mach.releaseBound_kept | with_reducible apply Mach.setTable_kept | with_reducible apply foldl_kept | dsimp only | intro _ _ _ | intro _ _ | intro _ | grind [])
theorem interruptCoalescingTimeout_kept (p : PortId) {m : Mach} (pout : P .out) (phost : P .host) (rHIF_LINK : ∀ i, i < 2 → R (REG_HIF_LINK i)) (hm : Kept P R m0 m) : Kept P R m0 (interruptCoalescingTimeout p m) := by
  grind [interruptCoalescingTimeout, Mach.setCtrl_kept, Mach.interrupt_kept, foldl_kept]
theorem quietPoint_kept {m : Mach} (rCAL_CTRL : R REG_CAL_CTRL) (rCAL_STATUS : R REG_CAL_STATUS) (rFAB_PEND : ∀ i, i < 4 → R (REG_FAB_PEND i)) (rFAB_STATUS : R REG_FAB_STATUS) (hm : Kept P R m0 m) : Kept P R m0 (quietPoint m) := by
  grind [quietPoint, calFreeze_kept, foldl_kept]
end Sys2Proof.Machine
end

