-- ==== Sys2Proof/Laws/KeptCheck.lean ====
section
/-! SUPPORT. What the operations of Machine/Check.lean keep: for each, the parts and the registers it may change. -/
set_option Elab.async false
set_option linter.all false
namespace Sys2Proof.Machine
open Sys2Proof
variable {P : Part → Prop} {R : Nat → Prop} {m0 : Mach}
theorem Mach.bindSpecs_kept {m : Mach} (fsn : Nat) (r : LbaRange) (pcmd : P .cmd) (hm : Kept P R m0 m) : Kept P R m0 (Mach.bindSpecs m fsn r) := by
  grind [Mach.bindSpecs, Mach.setCmdState_kept, foldl_kept]
theorem Mach.discardSpecs_kept {m : Mach} (r : LbaRange) (preports : P .reports) (pcal : P .cal) (pbuf : P .buf) (pcmd : P .cmd) (rPOOL_ERR : R REG_POOL_ERR) (rPOOL_FIRST : R REG_POOL_FIRST) (rPOOL_RETSTAT : ∀ i, i < 8 → R (REG_POOL_RETSTAT i)) (rPOOL_STAT : ∀ i, i < 8 → R (REG_POOL_STAT i)) (hm : Kept P R m0 m) : Kept P R m0 (Mach.discardSpecs m r) := by
  grind [Mach.discardSpecs, Mach.setCmdState_kept, poolFree_kept, foldl_kept]
theorem Mach.firstWrites_kept {m : Mach} (fsn : Nat) (nsid : Nat) (lbas : List Nat) (ppwr : P .pwr) (pcmd : P .cmd) (rQSQ_CMDTAB : R REG_QSQ_CMDTAB) (hm : Kept P R m0 m) : Kept P R m0 (Mach.firstWrites m fsn nsid lbas) := by
  grind [Mach.firstWrites, Mach.setNs_kept, Mach.setCommand_kept, Mach.metaChange_kept, foldl_kept]
theorem Mach.deallocate_kept {m : Mach} (fsn : Nat) (nsid : Nat) (r : LbaRange) (ppwr : P .pwr) (pcmd : P .cmd) (rQSQ_CMDTAB : R REG_QSQ_CMDTAB) (hm : Kept P R m0 m) : Kept P R m0 (Mach.deallocate m fsn nsid r) := by
  grind [Mach.deallocate, Mach.metaChange_kept, Mach.setNs_kept, Mach.supersede_kept, foldl_kept]
theorem Mach.orderWrite_kept {m : Mach} (rs : List LbaRange) (preports : P .reports) (pcal : P .cal) (pbuf : P .buf) (pcmd : P .cmd) (rPOOL_ERR : R REG_POOL_ERR) (rPOOL_FIRST : R REG_POOL_FIRST) (rPOOL_RETSTAT : ∀ i, i < 8 → R (REG_POOL_RETSTAT i)) (rPOOL_STAT : ∀ i, i < 8 → R (REG_POOL_STAT i)) (hm : Kept P R m0 m) : Kept P R m0 (Mach.orderWrite m rs) := by
  grind [Mach.orderWrite, Mach.clearMarks_kept, Mach.discardSpecs_kept, foldl_kept]
theorem Mach.dropRewrites_kept {m : Mach} (rs : List LbaRange) (ppwr : P .pwr) (pcmd : P .cmd) (hm : Kept P R m0 m) : Kept P R m0 (Mach.dropRewrites m rs) := by
  grind [Mach.dropRewrites, Mach.setCmdState_kept, Mach.setPwr_kept, foldl_kept]
theorem Mach.passed_kept {m : Mach} (fsn : Nat) (kind : Option RangeKind) (rs : List LbaRange) (verdict : Option Nat) (ppwr : P .pwr) (pcmd : P .cmd) (rQSQ_CMDTAB : R REG_QSQ_CMDTAB) (rQSQ_STAT : R REG_QSQ_STAT) (hm : Kept P R m0 m) : Kept P R m0 (Mach.passed m fsn kind rs verdict) := by
  grind [Mach.passed, when_kept, Mach.dropRewrites_kept, Mach.syncFetch_kept, Mach.setCommand_kept, foldl_kept]
theorem Mach.markWrite_kept {m : Mach} (r : LbaRange) (pcmd : P .cmd) (hm : Kept P R m0 m) : ∀ m', (Mach.markWrite m r) = some m' → Kept P R m0 m' := by
  intro m' h
  unfold Mach.markWrite at h
  have key : ∀ (l : List Nat) (x : Option Mach), (∀ m, x = some m → Kept P R m0 m) →
      ∀ m, (l.foldl (fun (x : Option Mach) l => x.bind fun m => m.markLba false r.nsid l) x) = some m → Kept P R m0 m := by
    intro l
    induction l with
    | nil => exact fun x hx => hx
    | cons a l ih =>
      intro x hx
      refine ih _ fun m hm => ?_
      cases x with
      | none => cases hm
      | some y => exact Mach.markLba_kept _ _ _ pcmd (hx _ rfl) _ hm
  exact key _ _ (fun m h => by cases h; exact hm) _ h
theorem Mach.checkWrite_kept {m : Mach} (c : Cmd) (n : Namespace) (rs : List LbaRange) (preports : P .reports) (pcal : P .cal) (ppwr : P .pwr) (pbuf : P .buf) (pcmd : P .cmd) (rPOOL_ERR : R REG_POOL_ERR) (rPOOL_FIRST : R REG_POOL_FIRST) (rPOOL_RETSTAT : ∀ i, i < 8 → R (REG_POOL_RETSTAT i)) (rPOOL_STAT : ∀ i, i < 8 → R (REG_POOL_STAT i)) (rQSQ_CMDTAB : R REG_QSQ_CMDTAB) (rQSQ_STAT : R REG_QSQ_STAT) (hm : Kept P R m0 m) : Kept P R m0 (Mach.checkWrite m c n rs) := by
  unfold Mach.checkWrite
  split
  · dsimp only
    split
    · exact Mach.passed_kept _ _ _ _ (by assumption) (by assumption) (by assumption) (by assumption) (hm)
    · exact Mach.setCommand_kept _ _ (by assumption) (by assumption) (Mach.passed_kept _ _ _ _ (by assumption) (by assumption) (by assumption) (by assumption) (Mach.metaChange_kept _ _ (by assumption) (Mach.orderWrite_kept _ (by assumption) (by assumption) (by assumption) (by assumption) (by assumption) (by assumption) (by assumption) (by assumption) (Mach.setNs_kept _ _ (by assumption) (hm)))))
  split
  · split
    · have h1 := fun r => Mach.markWrite_kept r pcmd hm
      split
      · next m' h => exact Mach.discardSpecs_kept _ (by assumption) (by assumption) (by assumption) (by assumption) (by assumption) (by assumption) (by assumption) (by assumption) (Mach.passed_kept _ _ _ _ (by assumption) (by assumption) (by assumption) (by assumption) (h1 _ _ h))
      · exact Mach.passed_kept _ _ _ _ (by assumption) (by assumption) (by assumption) (by assumption) (hm)
    · exact Mach.passed_kept _ _ _ _ (by assumption) (by assumption) (by assumption) (by assumption) (hm)
  · dsimp only
    split
    · exact Mach.firstWrites_kept _ _ _ (by assumption) (by assumption) (by assumption) (foldl_kept (fun m r h => Mach.deallocate_kept _ _ _ (by assumption) (by assumption) (by assumption) (h)) (Mach.orderWrite_kept _ (by assumption) (by assumption) (by assumption) (by assumption) (by assumption) (by assumption) (by assumption) (by assumption) (Mach.passed_kept _ _ _ _ (by assumption) (by assumption) (by assumption) (by assumption) (hm))))
    · exact Mach.firstWrites_kept _ _ _ (by assumption) (by assumption) (by assumption) (Mach.orderWrite_kept _ (by assumption) (by assumption) (by assumption) (by assumption) (by assumption) (by assumption) (by assumption) (by assumption) (Mach.passed_kept _ _ _ _ (by assumption) (by assumption) (by assumption) (by assumption) (hm)))
theorem Mach.checkRead_kept {m : Mach} (c : Cmd) (n : Namespace) (rs : List LbaRange) (ppwr : P .pwr) (pcmd : P .cmd) (rQSQ_CMDTAB : R REG_QSQ_CMDTAB) (rQSQ_STAT : R REG_QSQ_STAT) (hm : Kept P R m0 m) : Kept P R m0 (Mach.checkRead m c n rs) := by
  grind [Mach.checkRead, Mach.setCommand_kept, Mach.passed_kept, Mach.bindSpecs_kept, foldl_kept]
theorem Mach.checkIo_kept {m : Mach} (c : Cmd) (dsm : List LbaRange) (preports : P .reports) (pcal : P .cal) (ppwr : P .pwr) (pbuf : P .buf) (pcmd : P .cmd) (rPOOL_ERR : R REG_POOL_ERR) (rPOOL_FIRST : R REG_POOL_FIRST) (rPOOL_RETSTAT : ∀ i, i < 8 → R (REG_POOL_RETSTAT i)) (rPOOL_STAT : ∀ i, i < 8 → R (REG_POOL_STAT i)) (rQSQ_CMDTAB : R REG_QSQ_CMDTAB) (rQSQ_STAT : R REG_QSQ_STAT) (hm : Kept P R m0 m) : Kept P R m0 (Mach.checkIo m c dsm) := by
  grind [Mach.checkIo, Mach.passed_kept, Mach.setCommand_kept, Mach.checkRead_kept, Mach.checkWrite_kept, foldl_kept]
theorem check_kept (dsm : List (Nat × Nat)) {m : Mach} (preports : P .reports) (pcal : P .cal) (ppwr : P .pwr) (pbuf : P .buf) (pcmd : P .cmd) (rPOOL_ERR : R REG_POOL_ERR) (rPOOL_FIRST : R REG_POOL_FIRST) (rPOOL_RETSTAT : ∀ i, i < 8 → R (REG_POOL_RETSTAT i)) (rPOOL_STAT : ∀ i, i < 8 → R (REG_POOL_STAT i)) (rQSQ_CMDTAB : R REG_QSQ_CMDTAB) (rQSQ_STAT : R REG_QSQ_STAT) (hm : Kept P R m0 m) : Kept P R m0 (check dsm m) := by
  grind [check, Mach.passed_kept, Mach.checkIo_kept, foldl_kept]
theorem Mach.admitWrite_kept {m : Mach} (c : Cmd) (ppwr : P .pwr) (pcmd : P .cmd) (rQSQ_CMDTAB : R REG_QSQ_CMDTAB) (hm : Kept P R m0 m) : Kept P R m0 (Mach.admitWrite m c) := by
  grind [Mach.admitWrite, Mach.setCommand_kept, when_kept, Mach.setPwr_kept, foldl_kept]
theorem dispatch_kept (fsn : BitVec 32) {m : Mach} (ppwr : P .pwr) (pcmd : P .cmd) (rQSQ_CMDTAB : R REG_QSQ_CMDTAB) (hm : Kept P R m0 m) : Kept P R m0 (dispatch fsn m) := by
  grind [dispatch, Mach.finish_kept, Mach.admitWrite_kept, Mach.setCommand_kept, foldl_kept]
theorem readAheadIssue_kept (nsid : BitVec 4) (first : BitVec 40) (count : Fin 257) {m : Mach} (pcmd : P .cmd) (hm : Kept P R m0 m) : Kept P R m0 (readAheadIssue nsid first count m) := by
  grind [readAheadIssue, SEC_SLOTS_LOADED, QSQ_FSN_FSN, Mach.setCmdState_kept, foldl_kept]
theorem anticipatorySeek_kept (a : Actuator) (target : Word) {m : Mach} (pmotion : P .motion) (pcmd : P .cmd) (rPRG_STAT : ∀ i, i < 4 → R (REG_PRG_STAT i)) (rPRG_TGT : ∀ i, i < 4 → R (REG_PRG_TGT i)) (rQDR_ADMIT : R REG_QDR_ADMIT) (rQDR_KACC : ∀ i, i < 4 → R (REG_QDR_KACC i)) (rQDR_TORQ : R REG_QDR_TORQ) (rSRV_STAT : ∀ i, i < 4 → R (REG_SRV_STAT i)) (hm : Kept P R m0 m) : Kept P R m0 (anticipatorySeek a target m) := by
  grind [anticipatorySeek, PRG_STAT_STATE, QDR_ACT_DEPOP, QDR_ACT_PARKED, PRG_TGT_TARGET, Mach.setCmdState_kept, prgStart_kept, set_kept, foldl_kept]
theorem specCopyExpire_kept (k : Nat) {m : Mach} (preports : P .reports) (pcal : P .cal) (pbuf : P .buf) (pcmd : P .cmd) (rPOOL_ERR : R REG_POOL_ERR) (rPOOL_FIRST : R REG_POOL_FIRST) (rPOOL_RETSTAT : ∀ i, i < 8 → R (REG_POOL_RETSTAT i)) (rPOOL_STAT : ∀ i, i < 8 → R (REG_POOL_STAT i)) (hm : Kept P R m0 m) : Kept P R m0 (specCopyExpire k m) := by
  grind [specCopyExpire, Mach.setCmdState_kept, poolFree_kept, foldl_kept]
end Sys2Proof.Machine
end

