-- ==== Sys2Proof/Laws/KeptRecord.lean ====
section
/-! SUPPORT. What the operations of Machine/Record.lean keep: for each, the parts and the registers it may change. -/
set_option Elab.async false
set_option linter.all false
namespace Sys2Proof.Machine
open Sys2Proof
variable {P : Part → Prop} {R : Nat → Prop} {m0 : Mach}
theorem Mach.setEvt_kept {m : Mach} (f : EvtState → EvtState) (pevt : P .evt) (hm : Kept P R m0 m) : Kept P R m0 (Mach.setEvt m f) := by
  grind [Mach.setEvt, mk_evt_kept, foldl_kept]
theorem Mach.putSlot_kept {m : Mach} (slot : Nat) (bs : List Byte) (pevt : P .evt) (hm : Kept P R m0 m) : Kept P R m0 (Mach.putSlot m slot bs) := by
  grind [Mach.putSlot, Mach.setEvt_kept, foldl_kept]
theorem Mach.putErased_kept {m : Mach} (slot : Nat) (bs : List Byte) (pevt : P .evt) (hm : Kept P R m0 m) : Kept P R m0 (Mach.putErased m slot bs) := by
  grind [Mach.putErased, Mach.putSlot_kept, foldl_kept]
theorem Mach.eraseSector_kept {m : Mach} (slot : Nat) (pevt : P .evt) (hm : Kept P R m0 m) : Kept P R m0 (Mach.eraseSector m slot) := by
  grind [Mach.eraseSector, Mach.setEvt_kept, foldl_kept]
theorem Mach.addRecord_kept {m : Mach} (type : Nat) (body : List Byte) (first : Bool) (pevt : P .evt) (hm : Kept P R m0 m) : Kept P R m0 (Mach.addRecord m type body first) := by
  grind [Mach.addRecord, when_kept, Mach.eraseSector_kept, Mach.putErased_kept, Mach.setEvt_kept, foldl_kept]
end Sys2Proof.Machine
end

