-- ==== Sys2Proof/Laws/KeptPower.lean ====
section
/-! SUPPORT. What the operations of Machine/Power.lean keep: for each, the parts and the registers it may change. -/
set_option Elab.async false
set_option linter.all false
namespace Sys2Proof.Machine
open Sys2Proof
variable {P : Part → Prop} {R : Nat → Prop} {m0 : Mach}
theorem Mach.applyCap_kept {m : Mach} (rCAL_CAP : R REG_CAL_CAP) (rPWR_CAP : R REG_PWR_CAP) (rQDR_TORQ : R REG_QDR_TORQ) (hm : Kept P R m0 m) : Kept P R m0 (Mach.applyCap m) := by
  grind [Mach.applyCap, CAL_CAP_SCALE, PWR_CAP_STREAMS, QDR_TORQ_BUDGET, PWR_CAP_ROW, PWR_CAP_CAPW, set_kept, foldl_kept]
theorem Mach.backupFail_kept {m : Mach} (ppwr : P .pwr) (phost : P .host) (pcmd : P .cmd) (rQSQ_CMDTAB : R REG_QSQ_CMDTAB) (hm : Kept P R m0 m) : Kept P R m0 (Mach.backupFail m) := by
  grind [Mach.backupFail, Mach.criticalWarning_kept, Mach.setPwr_kept, foldl_kept]
theorem Mach.setLimit_kept {m : Mach} (ppwr : P .pwr) (phost : P .host) (pcmd : P .cmd) (rKSV_CTRL : R REG_KSV_CTRL) (rKSV_GENHI : R REG_KSV_GENHI) (rKSV_GENLO : R REG_KSV_GENLO) (rKSV_LIMIT : R REG_KSV_LIMIT) (rQSQ_CMDTAB : R REG_QSQ_CMDTAB) (hm : Kept P R m0 m) : Kept P R m0 (Mach.setLimit m) := by
  grind [Mach.setLimit, KSV_LIMIT_CAP, KSV_LIMIT_LIMIT, KSV_CTRL_ARM, set_kept, when_kept, Mach.reserveGen_kept, setFlag_kept, Mach.backupFail_kept, foldl_kept]
theorem Mach.unloadAll_kept {m : Mach} (pdie : P .die) (rVCM_MA : ∀ i, i < 4 → R (REG_VCM_MA i)) (rVCM_STAT : ∀ i, i < 4 → R (REG_VCM_STAT i)) (hm : Kept P R m0 m) : Kept P R m0 (Mach.unloadAll m) := by
  grind [Mach.unloadAll, unload_kept, foldl_kept]
theorem Mach.enterSafe_kept {m : Mach} (preports : P .reports) (pout : P .out) (pdie : P .die) (phost : P .host) (rHIF_LINK : ∀ i, i < 2 → R (REG_HIF_LINK i)) (rPWR_MODE : R REG_PWR_MODE) (rVCM_MA : ∀ i, i < 4 → R (REG_VCM_MA i)) (rVCM_STAT : ∀ i, i < 4 → R (REG_VCM_STAT i)) (hm : Kept P R m0 m) : Kept P R m0 (Mach.enterSafe m) := by
  grind [Mach.enterSafe, Mach.retractAll_kept, Mach.enterMode_kept, foldl_kept]
theorem Mach.actuatorsChanged_kept {m : Mach} (preports : P .reports) (pout : P .out) (pdie : P .die) (ppwr : P .pwr) (phost : P .host) (pcmd : P .cmd) (rHIF_LINK : ∀ i, i < 2 → R (REG_HIF_LINK i)) (rKSV_CTRL : R REG_KSV_CTRL) (rKSV_GENHI : R REG_KSV_GENHI) (rKSV_GENLO : R REG_KSV_GENLO) (rKSV_LIMIT : R REG_KSV_LIMIT) (rPWR_MODE : R REG_PWR_MODE) (rQSQ_CMDTAB : R REG_QSQ_CMDTAB) (rVCM_MA : ∀ i, i < 4 → R (REG_VCM_MA i)) (rVCM_STAT : ∀ i, i < 4 → R (REG_VCM_STAT i)) (hm : Kept P R m0 m) : Kept P R m0 (Mach.actuatorsChanged m) := by
  grind [Mach.actuatorsChanged, QDR_ACT_DEPOP, KSV_LIMIT_CAP, Mach.enterSafe_kept, when_kept, Mach.setLimit_kept, foldl_kept]
theorem Mach.spinUp_kept {m : Mach} (preports : P .reports) (pout : P .out) (pdie : P .die) (pspn : P .spn) (ppwr : P .pwr) (phost : P .host) (rHIF_LINK : ∀ i, i < 2 → R (REG_HIF_LINK i)) (rPWR_MODE : R REG_PWR_MODE) (rSPN_DEMAND : R REG_SPN_DEMAND) (rSPN_ERR : R REG_SPN_ERR) (rSPN_OBS : R REG_SPN_OBS) (rSPN_SPEED : R REG_SPN_SPEED) (rSPN_STAT : R REG_SPN_STAT) (rSPN_TARGET : R REG_SPN_TARGET) (rSRV_STAT : ∀ i, i < 4 → R (REG_SRV_STAT i)) (hm : Kept P R m0 m) : Kept P R m0 (Mach.spinUp m) := by
  grind [Mach.spinUp, Mach.setPwr_kept, Mach.enterMode_kept, spnDemandWrite_kept, foldl_kept]
theorem Mach.setPowerState_kept {m : Mach} (ps : Nat) (preports : P .reports) (pout : P .out) (pdie : P .die) (pspn : P .spn) (ppwr : P .pwr) (phost : P .host) (rCAL_CAP : R REG_CAL_CAP) (rHIF_LINK : ∀ i, i < 2 → R (REG_HIF_LINK i)) (rPWR_CAP : R REG_PWR_CAP) (rPWR_MODE : R REG_PWR_MODE) (rQDR_TORQ : R REG_QDR_TORQ) (rSPN_DEMAND : R REG_SPN_DEMAND) (rSPN_ERR : R REG_SPN_ERR) (rSPN_OBS : R REG_SPN_OBS) (rSPN_SPEED : R REG_SPN_SPEED) (rSPN_STAT : R REG_SPN_STAT) (rSPN_TARGET : R REG_SPN_TARGET) (rSRV_STAT : ∀ i, i < 4 → R (REG_SRV_STAT i)) (hm : Kept P R m0 m) : Kept P R m0 (Mach.setPowerState m ps) := by
  grind [Mach.setPowerState, PWR_MODE_PS, PWR_SPIN_ELIG, set_kept, Mach.applyCap_kept, Mach.setPwr_kept, Mach.spinUp_kept, foldl_kept]
theorem Mach.stopLanes_kept {m : Mach} (pmedia : P .media) (rAFE_LANE_STAT : ∀ i, i < 16 → R (REG_AFE_LANE_STAT i)) (hm : Kept P R m0 m) : Kept P R m0 (Mach.stopLanes m) := by
  grind [Mach.stopLanes, AFE_LANE_STAT_READY, AFE_LANE_STAT_TA, Mach.setLane_kept, set_kept, foldl_kept]
theorem idleT4Expiry_kept {m : Mach} (preports : P .reports) (pout : P .out) (pmedia : P .media) (phost : P .host) (rAFE_LANE_STAT : ∀ i, i < 16 → R (REG_AFE_LANE_STAT i)) (rHIF_LINK : ∀ i, i < 2 → R (REG_HIF_LINK i)) (rPWR_MODE : R REG_PWR_MODE) (hm : Kept P R m0 m) : Kept P R m0 (idleT4Expiry m) := by
  grind [idleT4Expiry, Mach.stopLanes_kept, Mach.enterMode_kept, foldl_kept]
theorem idleT5Expiry_kept {m : Mach} (preports : P .reports) (pout : P .out) (pdie : P .die) (ppwr : P .pwr) (phost : P .host) (pcmd : P .cmd) (rHIF_LINK : ∀ i, i < 2 → R (REG_HIF_LINK i)) (rKSV_CTRL : R REG_KSV_CTRL) (rKSV_GENHI : R REG_KSV_GENHI) (rKSV_GENLO : R REG_KSV_GENLO) (rKSV_LIMIT : R REG_KSV_LIMIT) (rPWR_MODE : R REG_PWR_MODE) (rQSQ_CMDTAB : R REG_QSQ_CMDTAB) (rVCM_MA : ∀ i, i < 4 → R (REG_VCM_MA i)) (rVCM_STAT : ∀ i, i < 4 → R (REG_VCM_STAT i)) (hm : Kept P R m0 m) : Kept P R m0 (idleT5Expiry m) := by
  grind [idleT5Expiry, PWR_MODE_PS, PWR_IDLE_T5, Mach.setLimit_kept, Mach.enterMode_kept, Mach.unloadAll_kept, foldl_kept]
theorem idleT6Expiry_kept {m : Mach} (preports : P .reports) (pout : P .out) (pdie : P .die) (pspn : P .spn) (phost : P .host) (rHIF_LINK : ∀ i, i < 2 → R (REG_HIF_LINK i)) (rPWR_MODE : R REG_PWR_MODE) (rSPN_DEMAND : R REG_SPN_DEMAND) (rSPN_ERR : R REG_SPN_ERR) (rSPN_OBS : R REG_SPN_OBS) (rSPN_SPEED : R REG_SPN_SPEED) (rSPN_STAT : R REG_SPN_STAT) (rSPN_TARGET : R REG_SPN_TARGET) (rSRV_STAT : ∀ i, i < 4 → R (REG_SRV_STAT i)) (hm : Kept P R m0 m) : Kept P R m0 (idleT6Expiry m) := by
  grind [idleT6Expiry, PWR_IDLE_T6, PWR_MODE_PS, spnDemandWrite_kept, Mach.enterMode_kept, foldl_kept]
theorem idleT7Expiry_kept {m : Mach} (preports : P .reports) (pout : P .out) (pdie : P .die) (pspn : P .spn) (phost : P .host) (rHIF_LINK : ∀ i, i < 2 → R (REG_HIF_LINK i)) (rPWR_MODE : R REG_PWR_MODE) (rSPN_DEMAND : R REG_SPN_DEMAND) (rSPN_ERR : R REG_SPN_ERR) (rSPN_OBS : R REG_SPN_OBS) (rSPN_SPEED : R REG_SPN_SPEED) (rSPN_STAT : R REG_SPN_STAT) (rSPN_TARGET : R REG_SPN_TARGET) (rSRV_STAT : ∀ i, i < 4 → R (REG_SRV_STAT i)) (hm : Kept P R m0 m) : Kept P R m0 (idleT7Expiry m) := by
  grind [idleT7Expiry, PWR_IDLE_T7, PWR_MODE_PS, spnDemandWrite_kept, Mach.enterMode_kept, foldl_kept]
theorem mediaWake_kept {m : Mach} (preports : P .reports) (pout : P .out) (pdie : P .die) (pspn : P .spn) (ppwr : P .pwr) (phost : P .host) (rCAL_CAP : R REG_CAL_CAP) (rHIF_LINK : ∀ i, i < 2 → R (REG_HIF_LINK i)) (rPWR_CAP : R REG_PWR_CAP) (rPWR_MODE : R REG_PWR_MODE) (rQDR_ACT : ∀ i, i < 4 → R (REG_QDR_ACT i)) (rQDR_TORQ : R REG_QDR_TORQ) (rSPN_DEMAND : R REG_SPN_DEMAND) (rSPN_ERR : R REG_SPN_ERR) (rSPN_OBS : R REG_SPN_OBS) (rSPN_SPEED : R REG_SPN_SPEED) (rSPN_STAT : R REG_SPN_STAT) (rSPN_TARGET : R REG_SPN_TARGET) (rSRV_STAT : ∀ i, i < 4 → R (REG_SRV_STAT i)) (rVCM_ERR : R REG_VCM_ERR) (rVCM_STAT : ∀ i, i < 4 → R (REG_VCM_STAT i)) (hm : Kept P R m0 m) : Kept P R m0 (mediaWake m) := by
  grind [mediaWake, PWR_MODE_PS, QDR_ACT_PARKED, QDR_ACT_STATE, PWR_SPIN_ELIG, Mach.setPowerState_kept, Mach.enterMode_kept, Mach.setPwr_kept, when_kept, spnDemandWrite_kept, load_kept, Mach.spinUp_kept, foldl_kept]
theorem spinUpComplete_kept {m : Mach} (preports : P .reports) (pout : P .out) (ppwr : P .pwr) (phost : P .host) (pcmd : P .cmd) (rHIF_LINK : ∀ i, i < 2 → R (REG_HIF_LINK i)) (rKSV_CTRL : R REG_KSV_CTRL) (rKSV_GENHI : R REG_KSV_GENHI) (rKSV_GENLO : R REG_KSV_GENLO) (rKSV_LIMIT : R REG_KSV_LIMIT) (rPWR_MODE : R REG_PWR_MODE) (rQSQ_CMDTAB : R REG_QSQ_CMDTAB) (hm : Kept P R m0 m) : Kept P R m0 (spinUpComplete m) := by
  grind [spinUpComplete, Mach.setLimit_kept, Mach.enterMode_kept, Mach.setPwr_kept, foldl_kept]
theorem capacityMeasure_kept (d : DragMeas) {m : Mach} (ppwr : P .pwr) (phost : P .host) (pcmd : P .cmd) (rKSV_CTRL : R REG_KSV_CTRL) (rKSV_GENHI : R REG_KSV_GENHI) (rKSV_GENLO : R REG_KSV_GENLO) (rKSV_LIMIT : R REG_KSV_LIMIT) (rQSQ_CMDTAB : R REG_QSQ_CMDTAB) (hm : Kept P R m0 m) : Kept P R m0 (capacityMeasure d m) := by
  grind [capacityMeasure, SPN_SPEED_VALID, SPN_SPEED_SPEED, Mach.setLimit_kept, Mach.setPwr_kept, foldl_kept]
theorem writeAdmission_kept {m : Mach} (ppwr : P .pwr) (hm : Kept P R m0 m) : Kept P R m0 (writeAdmission m) := by
  grind [writeAdmission, Mach.setPwr_kept, foldl_kept]
theorem metadataFlush_kept {m : Mach} (ppwr : P .pwr) (hm : Kept P R m0 m) : Kept P R m0 (metadataFlush m) := by
  grind [metadataFlush, Mach.setPwr_kept, foldl_kept]
theorem thermalThrottle_kept (celsius : BitVec 8) {m : Mach} (preports : P .reports) (ppwr : P .pwr) (rCAL_CAP : R REG_CAL_CAP) (rPWR_CAP : R REG_PWR_CAP) (rPWR_TEMP : R REG_PWR_TEMP) (rQDR_TORQ : R REG_QDR_TORQ) (hm : Kept P R m0 m) : Kept P R m0 (thermalThrottle celsius m) := by
  grind [thermalThrottle, PWR_TEMP_LOGIC, PWR_TEMP_THROTTLE, set_kept, Mach.applyCap_kept, report_kept, Mach.setPwr_kept, foldl_kept]
theorem thermalThrottleEnd_kept (celsius : BitVec 8) {m : Mach} (ppwr : P .pwr) (rCAL_CAP : R REG_CAL_CAP) (rPWR_CAP : R REG_PWR_CAP) (rPWR_TEMP : R REG_PWR_TEMP) (rQDR_TORQ : R REG_QDR_TORQ) (hm : Kept P R m0 m) : Kept P R m0 (thermalThrottleEnd celsius m) := by
  grind [thermalThrottleEnd, PWR_TEMP_LOGIC, PWR_TEMP_THROTTLE, set_kept, Mach.applyCap_kept, Mach.setPwr_kept, foldl_kept]
theorem logicDieOvertemp_kept {m : Mach} (preports : P .reports) (pout : P .out) (pdie : P .die) (phost : P .host) (rHIF_LINK : ∀ i, i < 2 → R (REG_HIF_LINK i)) (rPWR_MODE : R REG_PWR_MODE) (rPWR_TEMP : R REG_PWR_TEMP) (rVCM_MA : ∀ i, i < 4 → R (REG_VCM_MA i)) (rVCM_STAT : ∀ i, i < 4 → R (REG_VCM_STAT i)) (hm : Kept P R m0 m) : Kept P R m0 (logicDieOvertemp m) := by
  grind [logicDieOvertemp, PWR_TEMP_LOGIC, Mach.enterSafe_kept, report_kept, set_kept, foldl_kept]
theorem Mach.putSave_kept {m : Mach} (a : Actuator) (pos : Nat) (member : Nat) (key : Nat) (tag : Nat) (buffer : List Byte) (pout : P .out) (pmedia : P .media) (hm : Kept P R m0 m) : Kept P R m0 (Mach.putSave m a pos member key tag buffer) := by
  grind [Mach.putSave, Mach.setWpath_kept, emit_kept, foldl_kept]
theorem Mach.putSaveParity_kept {m : Mach} (a : Actuator) (pos : Nat) (pout : P .out) (pmedia : P .media) (hm : Kept P R m0 m) : Kept P R m0 (Mach.putSaveParity m a pos) := by
  grind [Mach.putSaveParity, emit_kept, Mach.setWpath_kept, foldl_kept]
theorem Mach.closeGroup_kept {m : Mach} (a : Actuator) (last : Bool) (pout : P .out) (pmedia : P .media) (ppwr : P .pwr) (hm : Kept P R m0 m) : Kept P R m0 (Mach.closeGroup m a last) := by
  grind [Mach.closeGroup, KSV_REG_START, emit_kept, Mach.putSaveParity_kept, Mach.putSave_kept, Mach.setPwr_kept, foldl_kept]
theorem Mach.endRuns_kept {m : Mach} (preports : P .reports) (pmedia : P .media) (pmotion : P .motion) (ppwr : P .pwr) (rFMT_CNT_ABORT : ∀ i, i < 8 → R (REG_FMT_CNT_ABORT i)) (rFMT_CNT_MISS : ∀ i, i < 8 → R (REG_FMT_CNT_MISS i)) (rFMT_CTRL : ∀ i, i < 8 → R (REG_FMT_CTRL i)) (rFMT_ERR : ∀ i, i < 8 → R (REG_FMT_ERR i)) (rFMT_STAT : ∀ i, i < 8 → R (REG_FMT_STAT i)) (rKSV_GENHI : R REG_KSV_GENHI) (rKSV_GENLO : R REG_KSV_GENLO) (hm : Kept P R m0 m) : Kept P R m0 (Mach.endRuns m) := by
  unfold Mach.endRuns
  repeat' (first | with_reducible assumption | split | with_reducible apply Mach.endDesc_kept | with_reducible apply Mach.dropCodewords_kept | with_reducible apply Mach.setFmt_kept | with_reducible apply Mach.setHsq_kept | with_reducible apply set_kept | with_reducible apply when_kept | with_reducible apply Mach.runOver_kept | with_reducible apply foldl_kept | dsimp only | intro _ _ _ | intro _ _ | intro _ | grind [FMT_CTRL_EN, FMT_STAT_STATE])
theorem Mach.seekSave_kept {m : Mach} (a : Actuator) (pmotion : P .motion) (pcmd : P .cmd) (rPRG_STAT : ∀ i, i < 4 → R (REG_PRG_STAT i)) (rPRG_TGT : ∀ i, i < 4 → R (REG_PRG_TGT i)) (rQDR_ADMIT : R REG_QDR_ADMIT) (rQDR_KACC : ∀ i, i < 4 → R (REG_QDR_KACC i)) (rQDR_TORQ : R REG_QDR_TORQ) (rSRV_STAT : ∀ i, i < 4 → R (REG_SRV_STAT i)) (rSRV_TARGET : ∀ i j, i < 4 → j < 2 → R (REG_SRV_TARGET i j)) (hm : Kept P R m0 m) : Kept P R m0 (Mach.seekSave m a) := by
  grind [Mach.seekSave, KSV_REG_START, PRG_TGT_TARGET, prgStart_kept, Mach.writeTarget_kept, set_kept, foldl_kept]
theorem Mach.startSave_kept {m : Mach} (preports : P .reports) (pout : P .out) (pcal : P .cal) (pmedia : P .media) (pmotion : P .motion) (ppwr : P .pwr) (pbuf : P .buf) (pdma : P .dma) (phost : P .host) (pcmd : P .cmd) (rCAL_STATUS : R REG_CAL_STATUS) (rCHN_SMEM : ∀ i, i < 8 → R (REG_CHN_SMEM i)) (rDEC_BUSY : R REG_DEC_BUSY) (rDMA_CH_MOVED : ∀ i, i < 16 → R (REG_DMA_CH_MOVED i)) (rDMA_CH_STAT : ∀ i, i < 16 → R (REG_DMA_CH_STAT i)) (rDMA_CTRL : R REG_DMA_CTRL) (rDMA_STAT : R REG_DMA_STAT) (rFMT_CNT_ABORT : ∀ i, i < 8 → R (REG_FMT_CNT_ABORT i)) (rFMT_CNT_MISS : ∀ i, i < 8 → R (REG_FMT_CNT_MISS i)) (rFMT_CTRL : ∀ i, i < 8 → R (REG_FMT_CTRL i)) (rFMT_ERR : ∀ i, i < 8 → R (REG_FMT_ERR i)) (rFMT_STAT : ∀ i, i < 8 → R (REG_FMT_STAT i)) (rHIF_LINK : ∀ i, i < 2 → R (REG_HIF_LINK i)) (rKSV_GENHI : R REG_KSV_GENHI) (rKSV_GENLO : R REG_KSV_GENLO) (rKSV_LIST_COUNT : R REG_KSV_LIST_COUNT) (rKSV_STAT : R REG_KSV_STAT) (rLAD_STAT : ∀ i, i < 4 → R (REG_LAD_STAT i)) (rPOOL_ERR : R REG_POOL_ERR) (rPOOL_FIRST : R REG_POOL_FIRST) (rPOOL_RETSTAT : ∀ i, i < 8 → R (REG_POOL_RETSTAT i)) (rPOOL_STAT : ∀ i, i < 8 → R (REG_POOL_STAT i)) (rPRG_STAT : ∀ i, i < 4 → R (REG_PRG_STAT i)) (rPRG_TGT : ∀ i, i < 4 → R (REG_PRG_TGT i)) (rPWR_MODE : R REG_PWR_MODE) (rQDR_ADMIT : R REG_QDR_ADMIT) (rQDR_KACC : ∀ i, i < 4 → R (REG_QDR_KACC i)) (rQDR_TORQ : R REG_QDR_TORQ) (rQSQ_CMDTAB : R REG_QSQ_CMDTAB) (rQSQ_STAT : R REG_QSQ_STAT) (rSRV_STAT : ∀ i, i < 4 → R (REG_SRV_STAT i)) (rSRV_TARGET : ∀ i j, i < 4 → j < 2 → R (REG_SRV_TARGET i j)) (hm : Kept P R m0 m) : Kept P R m0 (Mach.startSave m) := by
  unfold Mach.startSave
  repeat' (first | with_reducible assumption | split | with_reducible apply Mach.enterMode_kept | with_reducible apply Mach.abandonCommands_kept | with_reducible apply Mach.saveTableDue_kept | with_reducible apply Mach.endRuns_kept | with_reducible apply Mach.withdrawAll_kept | with_reducible apply Mach.setPwr_kept | with_reducible apply set_kept | with_reducible apply when_kept | with_reducible apply Mach.seekSave_kept | with_reducible apply foldl_kept | dsimp only | intro _ _ _ | intro _ _ | intro _ | grind [QDR_ACT_STATE, KSV_LIST_COUNT_VALUE, KSV_STAT_STATE, KSV_STAT_SAVED])
theorem Mach.endSave_kept {m : Mach} (close : Bool) (pout : P .out) (pmedia : P .media) (pdie : P .die) (ppwr : P .pwr) (rKSV_STAT : R REG_KSV_STAT) (rVCM_MA : ∀ i, i < 4 → R (REG_VCM_MA i)) (rVCM_STAT : ∀ i, i < 4 → R (REG_VCM_STAT i)) (hm : Kept P R m0 m) : Kept P R m0 (Mach.endSave m close) := by
  grind (splits := 40) (ematch := 20) (gen := 20) (instances := 20000) [Mach.endSave, KSV_STAT_STATE, KSV_STAT_WRITERS, when_kept, Mach.closeGroup_kept, Mach.setPwr_kept, Mach.retractAll_kept, set_kept, foldl_kept]
theorem Mach.demandSave_kept {m : Mach} (a : Actuator) (u : DirtyUnit) (pcal : P .cal) (hm : Kept P R m0 m) : Kept P R m0 (Mach.demandSave m a u) := by
  grind [Mach.demandSave, Mach.demandAs_kept, foldl_kept]
theorem supplyLoss_kept (v12 : BitVec 10) (v5 : BitVec 10) (us : BitVec 10) {m : Mach} (preports : P .reports) (pout : P .out) (pcal : P .cal) (pmedia : P .media) (pmotion : P .motion) (pdie : P .die) (pspn : P .spn) (ppwr : P .pwr) (pbuf : P .buf) (pdma : P .dma) (phost : P .host) (pcmd : P .cmd) (rCAL_STATUS : R REG_CAL_STATUS) (rCHN_SMEM : ∀ i, i < 8 → R (REG_CHN_SMEM i)) (rDEC_BUSY : R REG_DEC_BUSY) (rDMA_CH_MOVED : ∀ i, i < 16 → R (REG_DMA_CH_MOVED i)) (rDMA_CH_STAT : ∀ i, i < 16 → R (REG_DMA_CH_STAT i)) (rDMA_CTRL : R REG_DMA_CTRL) (rDMA_STAT : R REG_DMA_STAT) (rFMT_CNT_ABORT : ∀ i, i < 8 → R (REG_FMT_CNT_ABORT i)) (rFMT_CNT_MISS : ∀ i, i < 8 → R (REG_FMT_CNT_MISS i)) (rFMT_CTRL : ∀ i, i < 8 → R (REG_FMT_CTRL i)) (rFMT_ERR : ∀ i, i < 8 → R (REG_FMT_ERR i)) (rFMT_STAT : ∀ i, i < 8 → R (REG_FMT_STAT i)) (rHIF_LINK : ∀ i, i < 2 → R (REG_HIF_LINK i)) (rKSV_GENHI : R REG_KSV_GENHI) (rKSV_GENLO : R REG_KSV_GENLO) (rKSV_LIST_COUNT : R REG_KSV_LIST_COUNT) (rKSV_STAT : R REG_KSV_STAT) (rLAD_STAT : ∀ i, i < 4 → R (REG_LAD_STAT i)) (rPOOL_ERR : R REG_POOL_ERR) (rPOOL_FIRST : R REG_POOL_FIRST) (rPOOL_RETSTAT : ∀ i, i < 8 → R (REG_POOL_RETSTAT i)) (rPOOL_STAT : ∀ i, i < 8 → R (REG_POOL_STAT i)) (rPRG_STAT : ∀ i, i < 4 → R (REG_PRG_STAT i)) (rPRG_TGT : ∀ i, i < 4 → R (REG_PRG_TGT i)) (rPWR_MODE : R REG_PWR_MODE) (rPWR_RAILS : R REG_PWR_RAILS) (rQDR_ADMIT : R REG_QDR_ADMIT) (rQDR_KACC : ∀ i, i < 4 → R (REG_QDR_KACC i)) (rQDR_TORQ : R REG_QDR_TORQ) (rQSQ_CMDTAB : R REG_QSQ_CMDTAB) (rQSQ_STAT : R REG_QSQ_STAT) (rSRV_STAT : ∀ i, i < 4 → R (REG_SRV_STAT i)) (rSRV_TARGET : ∀ i j, i < 4 → j < 2 → R (REG_SRV_TARGET i j)) (rVCM_MA : ∀ i, i < 4 → R (REG_VCM_MA i)) (rVCM_STAT : ∀ i, i < 4 → R (REG_VCM_STAT i)) (hm : Kept P R m0 m) : Kept P R m0 (supplyLoss v12 v5 us m) := by
  unfold supplyLoss
  repeat' (first | with_reducible assumption | split | with_reducible apply Mach.setDie_kept | with_reducible apply set_kept | with_reducible apply report_kept | with_reducible apply Mach.startSave_kept | with_reducible apply Mach.setSpn_kept | with_reducible apply Mach.setBridge_kept | with_reducible apply Mach.retractAll_kept | with_reducible apply foldl_kept | with_reducible apply when_kept | dsimp only | intro _ _ _ | intro _ _ | intro _ | grind [KSV_TRIP_V12, KSV_TRIP_V5, KSV_TRIP_FILT, PWR_RAILS_BUS, KSV_STAT_CAUSE, KSV_CTRL_ARM])
theorem Mach.writeUnit_kept {m : Mach} (a : Actuator) (u : DirtyUnit) (preports : P .reports) (pout : P .out) (pmedia : P .media) (ppwr : P .pwr) (pbuf : P .buf) (rBUF_CNT : R REG_BUF_CNT) (rBUF_ERR : R REG_BUF_ERR) (rBUF_FIRST : R REG_BUF_FIRST) (rCCH_MISS : R REG_CCH_MISS) (rKSV_STAT : R REG_KSV_STAT) (hm : Kept P R m0 m) : Kept P R m0 (Mach.writeUnit m a u) := by
  grind [Mach.writeUnit, KSV_REG_START, KSV_STAT_STATE, KSV_STAT_WRITERS, KSV_STAT_SAVED, Mach.loadBlock_kept, Mach.setPwr_kept, Mach.putSave_kept, set_kept, Mach.setBitAt_kept, when_kept, Mach.closeGroup_kept, foldl_kept]
theorem saveUnitWrite_kept (a : Actuator) {m : Mach} (preports : P .reports) (pout : P .out) (pcal : P .cal) (pmedia : P .media) (ppwr : P .pwr) (pbuf : P .buf) (rBUF_CNT : R REG_BUF_CNT) (rBUF_ERR : R REG_BUF_ERR) (rBUF_FIRST : R REG_BUF_FIRST) (rCCH_MISS : R REG_CCH_MISS) (rKSV_STAT : R REG_KSV_STAT) (hm : Kept P R m0 m) : Kept P R m0 (saveUnitWrite a m) := by
  grind [saveUnitWrite, SRV_STAT_TRK_CONF, Mach.writeUnit_kept, Mach.demandSave_kept, Mach.setPwr_kept, foldl_kept]
theorem Mach.saveRecord_kept {m : Mach} (busMin : Nat) (us : Nat) (pevt : P .evt) (hm : Kept P R m0 m) : Kept P R m0 (Mach.saveRecord m busMin us) := by
  grind [Mach.saveRecord, KSV_STAT_SAVED, KSV_STAT_CAUSE, SPN_SPEED_SPEED, Mach.addRecord_kept, foldl_kept]
theorem busUndervoltage_kept {m : Mach} (pfreeCtr : P .freeCtr) (preports : P .reports) (pout : P .out) (pmedia : P .media) (pmotion : P .motion) (pdie : P .die) (ppwr : P .pwr) (rFMT_CNT_ABORT : ∀ i, i < 8 → R (REG_FMT_CNT_ABORT i)) (rFMT_CNT_MISS : ∀ i, i < 8 → R (REG_FMT_CNT_MISS i)) (rFMT_ERR : ∀ i, i < 8 → R (REG_FMT_ERR i)) (rFMT_STAT : ∀ i, i < 8 → R (REG_FMT_STAT i)) (rHSQ_ERR : ∀ i, i < 4 → R (REG_HSQ_ERR i)) (rHSQ_SEL : ∀ i j, i < 4 → j < 2 → R (REG_HSQ_SEL i j)) (rKSV_GENHI : R REG_KSV_GENHI) (rKSV_GENLO : R REG_KSV_GENLO) (rKSV_STAT : R REG_KSV_STAT) (rVCM_MA : ∀ i, i < 4 → R (REG_VCM_MA i)) (rVCM_STAT : ∀ i, i < 4 → R (REG_VCM_STAT i)) (hm : Kept P R m0 m) : Kept P R m0 (busUndervoltage m) := by
  unfold busUndervoltage
  repeat' (first | with_reducible assumption | split | with_reducible apply Mach.endSave_kept | with_reducible apply nextFree_kept | with_reducible apply Mach.tear_kept | with_reducible apply foldl_kept | with_reducible apply when_kept | dsimp only | intro _ _ _ | intro _ _ | intro _ | grind [])
theorem saveEnd_kept (stop : SaveStop) (busMin : BitVec 16) (us : BitVec 32) {m : Mach} (preports : P .reports) (pout : P .out) (pmedia : P .media) (pdie : P .die) (ppwr : P .pwr) (pevt : P .evt) (rKSV_STAT : R REG_KSV_STAT) (rVCM_MA : ∀ i, i < 4 → R (REG_VCM_MA i)) (rVCM_STAT : ∀ i, i < 4 → R (REG_VCM_STAT i)) (hm : Kept P R m0 m) : Kept P R m0 (saveEnd stop busMin us m) := by
  grind [saveEnd, report_kept, Mach.saveRecord_kept, Mach.endSave_kept, foldl_kept]
theorem Mach.powerOff_kept {m : Mach} (prst : P .rst) (rCLK_GOOD0 : R REG_CLK_GOOD0) (rCLK_GOOD1 : R REG_CLK_GOOD1) (rPWR_MODE : R REG_PWR_MODE) (rPWR_RAILS : R REG_PWR_RAILS) (hm : Kept P R m0 m) : Kept P R m0 (Mach.powerOff m) := by
  unfold Mach.powerOff
  repeat' (first | with_reducible assumption | split | with_reducible apply set_kept | with_reducible apply Mach.setRst_kept | with_reducible apply foldl_kept | with_reducible apply when_kept | dsimp only | intro _ _ _ | intro _ _ | intro _ | grind [PWR_MODE_MODE, CLK_GOOD0_GOOD, CLK_GOOD1_GOOD, PWR_RAILS_GOOD])
theorem Mach.afterSave_kept {m : Mach} (preports : P .reports) (pcal : P .cal) (pmedia : P .media) (pmotion : P .motion) (pdie : P .die) (pspn : P .spn) (ppwr : P .pwr) (pbuf : P .buf) (pdma : P .dma) (phost : P .host) (pcmd : P .cmd) (psec : P .sec) (peng : P .eng) (pevt : P .evt) (prst : P .rst) (rall : ∀ a, R a) (hm : Kept P R m0 m) : Kept P R m0 (Mach.afterSave m) := by
  grind [Mach.afterSave, KSV_STAT_STATE, set_kept, Mach.softReset_kept, Mach.powerOff_kept, foldl_kept]
theorem supplyReturn_kept {m : Mach} (preports : P .reports) (pcal : P .cal) (pmedia : P .media) (pmotion : P .motion) (pdie : P .die) (pspn : P .spn) (ppwr : P .pwr) (pbuf : P .buf) (pdma : P .dma) (phost : P .host) (pcmd : P .cmd) (psec : P .sec) (peng : P .eng) (pevt : P .evt) (prst : P .rst) (rall : ∀ a, R a) (hm : Kept P R m0 m) : Kept P R m0 (supplyReturn m) := by
  grind [supplyReturn, PWR_RAILS_BUS, Mach.setDie_kept, Mach.afterSave_kept, set_kept, foldl_kept]
theorem Mach.shortfall_kept {m : Mach} (preports : P .reports) (ppwr : P .pwr) (phost : P .host) (pcmd : P .cmd) (rQSQ_CMDTAB : R REG_QSQ_CMDTAB) (hm : Kept P R m0 m) : Kept P R m0 (Mach.shortfall m) := by
  grind [Mach.shortfall, report_kept, Mach.backupFail_kept, foldl_kept]
theorem Mach.shiftRegions_kept {m : Mach} (held : Vector Nat 4) (take : Bool) (rKSV_REG : ∀ i, i < 4 → R (REG_KSV_REG i)) (hm : Kept P R m0 m) : Kept P R m0 (Mach.shiftRegions m held take) := by
  grind [Mach.shiftRegions, KSV_REG_START, KSV_REG_ROOM, set_kept, foldl_kept]
theorem Mach.dropPending_kept {m : Mach} (p : PendingSave → Bool) (ppwr : P .pwr) (rKSV_REG : ∀ i, i < 4 → R (REG_KSV_REG i)) (hm : Kept P R m0 m) : Kept P R m0 (Mach.dropPending m p) := by
  grind [Mach.dropPending, Mach.setPwr_kept, Mach.shiftRegions_kept, foldl_kept]
theorem replay_kept (scan : List GroupScan) {m : Mach} (preports : P .reports) (ppwr : P .pwr) (phost : P .host) (pcmd : P .cmd) (pevt : P .evt) (rKSV_REG : ∀ i, i < 4 → R (REG_KSV_REG i)) (rQSQ_CMDTAB : R REG_QSQ_CMDTAB) (hm : Kept P R m0 m) : Kept P R m0 (replay scan m) := by
  unfold replay
  repeat' (first | with_reducible assumption | split | with_reducible apply Mach.setPwr_kept | with_reducible apply Mach.addDirty_kept | with_reducible apply Mach.markLost_kept | with_reducible apply when_kept | with_reducible apply Mach.shiftRegions_kept | with_reducible apply Mach.addRecord_kept | with_reducible apply Mach.shortfall_kept | with_reducible apply foldl_kept | dsimp only | intro _ _ _ | intro _ _ | intro _ | grind [])
theorem Mach.unitPasses_kept {m : Mach} (u : DirtyUnit) (preports : P .reports) (pout : P .out) (pbuf : P .buf) (rBUF_CNT : R REG_BUF_CNT) (rBUF_ERR : R REG_BUF_ERR) (rBUF_FIRST : R REG_BUF_FIRST) (rCCH_MISS : R REG_CCH_MISS) (hm : Kept P R m0 m) : Kept P R m0 (Mach.unitPasses m u).2 := by
  grind [Mach.unitPasses, Mach.loadBlock_kept, foldl_kept]
theorem readoptDirty_kept {m : Mach} (preports : P .reports) (pout : P .out) (ppwr : P .pwr) (pbuf : P .buf) (phost : P .host) (pcmd : P .cmd) (prst : P .rst) (rBUF_CNT : R REG_BUF_CNT) (rBUF_ERR : R REG_BUF_ERR) (rBUF_FIRST : R REG_BUF_FIRST) (rCCH_MISS : R REG_CCH_MISS) (rQSQ_CMDTAB : R REG_QSQ_CMDTAB) (hm : Kept P R m0 m) : Kept P R m0 (readoptDirty m) := by
  unfold readoptDirty
  split
  · exact hm
  dsimp only
  have h1 : ∀ (l : List DirtyUnit) (p : List DirtyUnit × List DirtyUnit × Mach), Kept P R m0 p.2.2 → Kept P R m0 (l.foldl (fun (x : List DirtyUnit × List DirtyUnit × Mach) u =>
      if (x.2.2.unitPasses u).1 = true then (x.1 ++ [{ u with fsn := none }], x.2.1, (x.2.2.unitPasses u).2) else (x.1, x.2.1 ++ [u], (x.2.2.unitPasses u).2)) p).2.2 := by
    intro l
    induction l with
    | nil => exact fun _ h => h
    | cons u us ih =>
      intro p h
      refine ih _ ?_
      have h2 := Mach.unitPasses_kept u (by assumption) (by assumption) (by assumption) (by assumption) (by assumption) (by assumption) (by assumption) (h)
      dsimp only
      split <;> exact h2
  have h3 := h1 m.pwr.dirty ([], [], m.setRst fun r => { r with kept := false }) (Mach.setRst_kept _ prst hm)
  refine when_kept _ (fun m h => Mach.shortfall_kept (by assumption) (by assumption) (by assumption) (by assumption) (by assumption) (h)) (foldl_kept (fun m u h => Mach.markLost_kept _ _ (by assumption) (by assumption) (h)) (Mach.setPwr_kept _ ppwr h3))
end Sys2Proof.Machine
end

