-- ==== Sys2Proof/Laws/KeptSecurity.lean ====
section
/-! SUPPORT. What the operations of Machine/Security.lean keep: for each, the parts and the registers it may change. -/
set_option Elab.async false
set_option linter.all false
namespace Sys2Proof.Machine
open Sys2Proof
variable {P : Part → Prop} {R : Nat → Prop} {m0 : Mach}
theorem Mach.setSec_kept {m : Mach} (f : SecState → SecState) (psec : P .sec) (hf : ∀ s, (f s).fuses = s.fuses) (hm : Kept P R m0 m) : Kept P R m0 (Mach.setSec m f) :=
  mk_sec_kept _ hm psec (hf _)
theorem Mach.setSec_fuses_kept {m : Mach} (f : SecState → SecState) (psec : P .sec) (pfuses : P .fuses) (hm : Kept P R m0 m) : Kept P R m0 (Mach.setSec m f) := by
  obtain ⟨h1, h2, h3, h4⟩ := hm
  exact ⟨fun p hp => by cases p <;> first | exact h1 _ hp | exact absurd ‹_› hp, h2, h3, fun hs => ⟨(h4 hs).1, (h4 hs).2⟩⟩
theorem Mach.setFlash_kept {m : Mach} (f : Flash → Flash) (psec : P .sec) (hm : Kept P R m0 m) : Kept P R m0 (Mach.setFlash m f) :=
  Mach.setSec_kept _ psec (fun _ => rfl) hm
theorem Mach.loadKey_kept {m : Mach} (s : KeySlot) (k : BitVec 512) (psec : P .sec) (rSEC_SLOTS : R REG_SEC_SLOTS) (rSEC_VAULT : R REG_SEC_VAULT) (hm : Kept P R m0 m) : Kept P R m0 (Mach.loadKey m s k) := by
  unfold Mach.loadKey
  split
  · exact hm
  · have h1 := Mach.setBitAt_kept SEC_SLOTS_LOADED s.val true (Mach.setSec_kept (fun x => { x with slots := x.slots.set s k }) psec (fun _ => rfl) hm) rSEC_SLOTS
    dsimp only
    split
    · exact Mach.setBitAt_kept _ _ _ (Mach.setSec_kept _ psec (fun _ => rfl) h1) rSEC_VAULT
    · exact h1
theorem Mach.clearKey_kept {m : Mach} (s : KeySlot) (psec : P .sec) (rSEC_SLOTS : R REG_SEC_SLOTS) (rSEC_VAULT : R REG_SEC_VAULT) (hm : Kept P R m0 m) : Kept P R m0 (Mach.clearKey m s) := by
  unfold Mach.clearKey
  have h1 := Mach.setBitAt_kept SEC_SLOTS_LOADED s.val false (Mach.setSec_kept (fun x => { x with slots := x.slots.set s 0 }) psec (fun _ => rfl) hm) rSEC_SLOTS
  dsimp only
  split
  · exact Mach.setBitAt_kept _ _ _ (Mach.setSec_kept _ psec (fun _ => rfl) h1) rSEC_VAULT
  · exact h1
theorem Mach.refreshKeys_kept {m : Mach} (psec : P .sec) (rSEC_SLOTS : R REG_SEC_SLOTS) (rSEC_VAULT : R REG_SEC_VAULT) (hm : Kept P R m0 m) : Kept P R m0 (Mach.refreshKeys m) := by
  grind [Mach.refreshKeys, SEC_SLOTS_LOADED, Mach.loadKey_kept, Mach.clearKey_kept, foldl_kept]
theorem Mach.keyed_kept (f : Mach → Mach) {m : Mach} (psec : P .sec) (rSEC_SLOTS : R REG_SEC_SLOTS) (rSEC_VAULT : R REG_SEC_VAULT) (hf : ∀ (y0 : Mach), Kept P R m0 y0 → Kept P R m0 (f y0)) (hm : Kept P R m0 m) : Kept P R m0 (Mach.keyed f m) := by
  grind [Mach.keyed, Mach.refreshKeys_kept, foldl_kept]
theorem Mach.setLock_kept {m : Mach} (r : LockId) (f : LockObject → LockObject) (psec : P .sec) (hm : Kept P R m0 m) : Kept P R m0 (Mach.setLock m r f) := by
  grind [Mach.setLock, Mach.setSec_kept, foldl_kept]
theorem Mach.replaceKey_kept {m : Mach} (r : LockId) (pfreeCtr : P .freeCtr) (ppwr : P .pwr) (psec : P .sec) (rKSV_REG : ∀ i, i < 4 → R (REG_KSV_REG i)) (rSEC_SLOTS : R REG_SEC_SLOTS) (rSEC_VAULT : R REG_SEC_VAULT) (hm : Kept P R m0 m) : Kept P R m0 (Mach.replaceKey m r) := by
  unfold Mach.replaceKey
  repeat' (first | with_reducible assumption | split | with_reducible apply nextFree_kept | with_reducible apply Mach.setLock_kept | with_reducible apply Mach.dropDirty_kept | with_reducible apply Mach.dropPending_kept | with_reducible apply Mach.refreshKeys_kept | with_reducible apply Mach.clearKey_kept | with_reducible apply foldl_kept | with_reducible apply when_kept | dsimp only | intro _ _ _ | intro _ _ | intro _ | grind [])
theorem Mach.loadPending_kept {m : Mach} (r : LockId) (ppwr : P .pwr) (rKSV_REG : ∀ i, i < 4 → R (REG_KSV_REG i)) (hm : Kept P R m0 m) : Kept P R m0 (Mach.loadPending m r) := by
  grind [Mach.loadPending, Mach.addDirty_kept, Mach.dropPending_kept, foldl_kept]
theorem Mach.opal_kept {m : Mach} (op : OpalOp) (pfreeCtr : P .freeCtr) (ppwr : P .pwr) (psec : P .sec) (rKSV_REG : ∀ i, i < 4 → R (REG_KSV_REG i)) (rSEC_SLOTS : R REG_SEC_SLOTS) (rSEC_VAULT : R REG_SEC_VAULT) (hm : Kept P R m0 m) : Kept P R m0 (Mach.opal m op) := by
  unfold Mach.opal
  dsimp only
  repeat' split
  all_goals grind (splits := 30) (ematch := 12) (gen := 12) (instances := 8000) [Mach.setLock_kept, Mach.refreshKeys_kept, Mach.loadPending_kept, Mach.replaceKey_kept, Mach.setSec_kept, foldl_kept]
theorem Mach.notBc_kept {m : Mach} (preports : P .reports) (rSEC_ERR : R REG_SEC_ERR) (hm : Kept P R m0 m) : Kept P R m0 (Mach.notBc m) := by
  grind [Mach.notBc, SEC_ERR_NOTBC, flagEvent_kept, foldl_kept]
theorem keyLoadSlot_kept (req : Requester) (s : KeySlot) {m : Mach} (preports : P .reports) (psec : P .sec) (rSEC_ERR : R REG_SEC_ERR) (rSEC_SLOTS : R REG_SEC_SLOTS) (rSEC_VAULT : R REG_SEC_VAULT) (hm : Kept P R m0 m) : Kept P R m0 (keyLoadSlot req s m) := by
  grind [keyLoadSlot, SEC_ERR_KEYOP, Mach.notBc_kept, flagEvent_kept, Mach.loadKey_kept, foldl_kept]
theorem keyClearSlot_kept (req : Requester) (s : KeySlot) {m : Mach} (preports : P .reports) (psec : P .sec) (rSEC_ERR : R REG_SEC_ERR) (rSEC_SLOTS : R REG_SEC_SLOTS) (rSEC_VAULT : R REG_SEC_VAULT) (hm : Kept P R m0 m) : Kept P R m0 (keyClearSlot req s m) := by
  grind [keyClearSlot, Mach.notBc_kept, Mach.clearKey_kept, foldl_kept]
theorem keyClearAll_kept (req : Requester) {m : Mach} (preports : P .reports) (psec : P .sec) (rSEC_ERR : R REG_SEC_ERR) (rSEC_SLOTS : R REG_SEC_SLOTS) (rSEC_VAULT : R REG_SEC_VAULT) (hm : Kept P R m0 m) : Kept P R m0 (keyClearAll req m) := by
  grind [keyClearAll, Mach.notBc_kept, Mach.clearKey_kept, foldl_kept]
theorem svnRaise_kept {m : Mach} (psec : P .sec) (pfuses : P .fuses) (hm : Kept P R m0 m) : Kept P R m0 (svnRaise m) := by
  unfold svnRaise
  split
  · split
    · exact Mach.setSec_fuses_kept _ psec pfuses hm
    · exact hm
  · exact hm
theorem Mach.showNonce_kept {m : Mach} (n : Nat) (rDBG_NONCE : ∀ i, i < 4 → R (REG_DBG_NONCE i)) (hm : Kept P R m0 m) : Kept P R m0 (Mach.showNonce m n) := by
  grind (splits := 30) (ematch := 12) (gen := 12) (instances := 8000) [Mach.showNonce, DBG_NONCE_NONCE, set_kept, foldl_mem_kept, List.mem_range]
theorem nonceRequest_kept {m : Mach} (pfreeCtr : P .freeCtr) (rDBG_NONCE : ∀ i, i < 4 → R (REG_DBG_NONCE i)) (rDBG_STAT : R REG_DBG_STAT) (hm : Kept P R m0 m) : Kept P R m0 (nonceRequest m) := by
  grind [nonceRequest, DBG_STAT_LOCKED, DBG_STAT_STATE, set_kept, nextFree_kept, Mach.showNonce_kept, foldl_kept]
theorem tokenSubmit_kept (t : Token) {m : Mach} (preports : P .reports) (psec : P .sec) (rDBG_ERR : R REG_DBG_ERR) (rDBG_NONCE : ∀ i, i < 4 → R (REG_DBG_NONCE i)) (rDBG_STAT : R REG_DBG_STAT) (hm : Kept P R m0 m) : Kept P R m0 (tokenSubmit t m) := by
  unfold tokenSubmit
  split
  · exact hm
  · have h1 := set_kept DBG_STAT_STATE 0 (Mach.showNonce_kept 0 rDBG_NONCE hm) rDBG_STAT
    generalize (m.showNonce 0).set DBG_STAT_STATE 0 = m1 at h1 ⊢
    have h2 : ∀ (l : Loc) (b : Nat), l.addr = REG_DBG_ERR → Kept P R m0 (((m1.flagEvent l (32 * 32 + 6 + b)).setSec fun s => { s with rejects := s.rejects + 1 }).when
        (decide (3 ≤ ((m1.flagEvent l (32 * 32 + 6 + b)).setSec fun s => { s with rejects := s.rejects + 1 }).sec.rejects)) (·.set DBG_STAT_LOCKED 1)) := by
      intro l b e
      refine when_kept _ (fun _ h => set_kept _ _ h rDBG_STAT) (Mach.setSec_kept _ psec (fun _ => rfl) (flagEvent_kept _ _ h1 preports ?_))
      rw [e]; exact rDBG_ERR
    exact ite_kept (h2 _ _ rfl) (ite_kept (h2 _ _ rfl) (ite_kept (h2 _ _ rfl)
      (report_kept _ (Mach.setSec_kept _ psec (fun _ => rfl) (set_kept _ _ (set_kept _ _ h1 rDBG_STAT) rDBG_STAT)) preports)))
theorem dbgRefuse_kept {m : Mach} (preports : P .reports) (psec : P .sec) (rDBG_ERR : R REG_DBG_ERR) (rDBG_STAT : R REG_DBG_STAT) (hm : Kept P R m0 m) : Kept P R m0 (dbgRefuse m) := by
  grind [dbgRefuse, DBG_STAT_STATE, DBG_STAT_SCOPE, DBG_ERR_REFUSED, Mach.setSec_kept, set_kept, flagEvent_kept, foldl_kept]
theorem herugPrepare_kept {m : Mach} (preports : P .reports) (pdie : P .die) (psec : P .sec) (rDBG_ERR : R REG_DBG_ERR) (rDBG_STAT : R REG_DBG_STAT) (rQSQ_CTRL : R REG_QSQ_CTRL) (rVCM_MA : ∀ i, i < 4 → R (REG_VCM_MA i)) (rVCM_STAT : ∀ i, i < 4 → R (REG_VCM_STAT i)) (hm : Kept P R m0 m) : Kept P R m0 (herugPrepare m) := by
  grind [herugPrepare, DBG_STAT_STATE, QSQ_CTRL_FETCH_EN0, QSQ_CTRL_FETCH_EN1, dbgRefuse_kept, set_kept, Mach.unloadAll_kept, foldl_kept]
theorem dbgGrant_kept {m : Mach} (pcal : P .cal) (pmedia : P .media) (pbuf : P .buf) (pdma : P .dma) (psec : P .sec) (rDBG_STAT : R REG_DBG_STAT) (rDMA_CH_MOVED : ∀ i, i < 16 → R (REG_DMA_CH_MOVED i)) (rDMA_CH_STAT : ∀ i, i < 16 → R (REG_DMA_CH_STAT i)) (rDMA_CTRL : R REG_DMA_CTRL) (rDMA_STAT : R REG_DMA_STAT) (rSEC_SLOTS : R REG_SEC_SLOTS) (rSEC_VAULT : R REG_SEC_VAULT) (hm : Kept P R m0 m) : Kept P R m0 (dbgGrant m) := by
  unfold dbgGrant
  repeat' (first | with_reducible assumption | split | with_reducible apply when_kept | with_reducible apply Mach.setFlash_kept | with_reducible apply dmaBlockWrite_kept | with_reducible apply Mach.setCal_kept | with_reducible apply Mach.setSec_kept | with_reducible apply set_kept | with_reducible apply Mach.clearCache_kept | with_reducible apply mk_media_kept | with_reducible apply foldl_kept | dsimp only | intro _ _ _ | intro _ _ | intro _ | grind [DBG_STAT_STATE, SEC_SLOTS_LOADED, SEC_VAULT_HELD])
theorem herugOpen_kept {m : Mach} (preports : P .reports) (pout : P .out) (pcal : P .cal) (ppwr : P .pwr) (pbuf : P .buf) (phost : P .host) (psec : P .sec) (rDBG_COUNT : R REG_DBG_COUNT) (rDBG_STAT : R REG_DBG_STAT) (rHIF_LINK : ∀ i, i < 2 → R (REG_HIF_LINK i)) (rPWR_MODE : R REG_PWR_MODE) (hm : Kept P R m0 m) : Kept P R m0 (herugOpen m) := by
  unfold herugOpen
  repeat' (first | with_reducible assumption | split | with_reducible apply Mach.setBuf_kept | with_reducible apply Mach.setPwr_kept | with_reducible apply Mach.setCal_kept | with_reducible apply Mach.setSec_kept | with_reducible apply report_kept | with_reducible apply incSat_kept | with_reducible apply set_kept | with_reducible apply Mach.enterMode_kept | with_reducible apply foldl_kept | with_reducible apply when_kept | dsimp only | intro _ _ _ | intro _ _ | intro _ | grind [DBG_STAT_STATE, DBG_COUNT_OPENS, filter_wf, poison_wf, heal_wf, same_wf, nil_wf, initial_wf, BufState.initial])
theorem fuseProgram_kept (toReturned : Bool) {m : Mach} (psec : P .sec) (pfuses : P .fuses) (hm : Kept P R m0 m) : Kept P R m0 (fuseProgram toReturned m) := by
  unfold fuseProgram
  split
  · exact hm
  · exact Mach.setSec_fuses_kept _ psec pfuses hm
end Sys2Proof.Machine
end

