-- ==== Sys2Proof/Laws/KeptAdmin.lean ====
section
/-! SUPPORT. What the operations of Machine/Admin.lean keep: for each, the parts and the registers it may change. -/
set_option Elab.async false
set_option linter.all false
namespace Sys2Proof.Machine
open Sys2Proof
variable {P : Part → Prop} {R : Nat → Prop} {m0 : Mach}
theorem Mach.sideband_kept {m : Mach} (poll : Bool) {f : Mach} (pout : P .out) (hm : Kept P R m0 m) (hf : Kept P R m0 f) : Kept P R m0 (Mach.sideband m poll f) := by
  grind [Mach.sideband, emit_kept, foldl_kept]
theorem Mach.tunnelAnswer_kept {m : Mach} (x : Answer) (pout : P .out) (hm : Kept P R m0 m) : Kept P R m0 (Mach.tunnelAnswer m x) := by
  grind [Mach.tunnelAnswer, emit_kept, foldl_kept]
theorem Mach.adminRequest_kept {m : Mach} (r : AdminReq) (opcode : Nat) (e : IoEnd) (allow : Cmd → Bool) (f : Cmd → Mach × Answer) (pout : P .out) (pcmd : P .cmd) (rQSQ_CMDTAB : R REG_QSQ_CMDTAB) (hm : Kept P R m0 m) (hf : ∀ (y0 : Cmd), Kept P R m0 (f y0).1) : Kept P R m0 (Mach.adminRequest m r opcode e allow f) := by
  unfold Mach.adminRequest
  dsimp only
  repeat' split
  all_goals grind (splits := 30) (ematch := 12) (gen := 12) (instances := 8000) [QSQ_FSN_FSN, Mach.withRunning_kept, Mach.transferred_kept, when_kept, emit_kept, Mach.decide__kept, Mach.setCommand_kept, Mach.sideband_kept, Mach.tunnelAnswer_kept, foldl_kept]
theorem Mach.answer_kept {m : Mach} (fsn : Nat) (x : Answer) (pcmd : P .cmd) (rQSQ_CMDTAB : R REG_QSQ_CMDTAB) (hm : Kept P R m0 m) : Kept P R m0 (Mach.answer m fsn x) := by
  grind [Mach.answer, Mach.decide__kept, Mach.setCommand_kept, foldl_kept]
theorem createIoSq_kept (fsn : BitVec 32) {m : Mach} (phost : P .host) (pcmd : P .cmd) (rQSQ_CMDTAB : R REG_QSQ_CMDTAB) (hm : Kept P R m0 m) : Kept P R m0 (createIoSq fsn m) := by
  grind [createIoSq, Mach.withRunning_kept, Mach.answer_kept, Mach.finish_kept, Mach.invalid_kept, Mach.setCtrl_kept, foldl_kept]
theorem createIoCq_kept (fsn : BitVec 32) {m : Mach} (phost : P .host) (pcmd : P .cmd) (rQSQ_CMDTAB : R REG_QSQ_CMDTAB) (hm : Kept P R m0 m) : Kept P R m0 (createIoCq fsn m) := by
  grind [createIoCq, Mach.withRunning_kept, Mach.answer_kept, Mach.finish_kept, Mach.invalid_kept, Mach.setCtrl_kept, foldl_kept]
theorem deleteIoCq_kept (fsn : BitVec 32) {m : Mach} (phost : P .host) (pcmd : P .cmd) (rQSQ_CMDTAB : R REG_QSQ_CMDTAB) (hm : Kept P R m0 m) : Kept P R m0 (deleteIoCq fsn m) := by
  grind [deleteIoCq, Mach.withRunning_kept, Mach.finish_kept, Mach.setCtrl_kept, foldl_kept]
theorem deleteIoSq_kept (fsn : BitVec 32) {m : Mach} (pmedia : P .media) (phost : P .host) (pcmd : P .cmd) (rQSQ_CMDTAB : R REG_QSQ_CMDTAB) (rQSQ_HALT : ∀ i j, i < 2 → j < 4 → R (REG_QSQ_HALT i j)) (rQSQ_QHOE : ∀ i j, i < 2 → j < 4 → R (REG_QSQ_QHOE i j)) (hm : Kept P R m0 m) : Kept P R m0 (deleteIoSq fsn m) := by
  grind [deleteIoSq, Mach.withRunning_kept, Mach.finish_kept, Mach.setCtrl_kept, Mach.abortCommands_kept, Mach.syncHalt_kept, foldl_kept]
theorem Mach.getLog_kept {m : Mach} (c : Cmd) (preports : P .reports) (pout : P .out) (pbuf : P .buf) (phost : P .host) (pcmd : P .cmd) (rQSQ_CMDTAB : R REG_QSQ_CMDTAB) (hm : Kept P R m0 m) : Kept P R m0 (Mach.getLog m c).1 := by
  grind [Mach.getLog, Mach.serveEvents_kept, Mach.setCtrl_kept, foldl_kept]
theorem getLogPage_kept (r : AdminReq) (e : IoEnd) {m : Mach} (preports : P .reports) (pout : P .out) (pbuf : P .buf) (phost : P .host) (pcmd : P .cmd) (rQSQ_CMDTAB : R REG_QSQ_CMDTAB) (hm : Kept P R m0 m) : Kept P R m0 (getLogPage r e m) := by
  grind [getLogPage, Mach.adminRequest_kept, Mach.getLog_kept, foldl_kept]
theorem identify_kept (r : AdminReq) (e : IoEnd) {m : Mach} (pout : P .out) (pcmd : P .cmd) (rQSQ_CMDTAB : R REG_QSQ_CMDTAB) (hm : Kept P R m0 m) : Kept P R m0 (identify r e m) := by
  grind [identify, Mach.adminRequest_kept, foldl_kept]
theorem Mach.setFeat_kept {m : Mach} (p : PortId) (f : CtrlFeatures → CtrlFeatures) (phost : P .host) (hm : Kept P R m0 m) : Kept P R m0 (Mach.setFeat m p f) := by
  grind [Mach.setFeat, Mach.setCtrl_kept, foldl_kept]
theorem Mach.setSub_kept {m : Mach} (f : SubFeatures → SubFeatures) (pcmd : P .cmd) (hm : Kept P R m0 m) : Kept P R m0 (Mach.setSub m f) := by
  grind [Mach.setSub, Mach.setCmdState_kept, foldl_kept]
theorem Mach.save_kept {m : Mach} (c : Cmd) (f : FlashFeatures → FlashFeatures) (pcmd : P .cmd) (hm : Kept P R m0 m) : Kept P R m0 (Mach.save m c f) := by
  grind [Mach.save, when_kept, Mach.setCmdState_kept, foldl_kept]
theorem Mach.setFeature_kept {m : Mach} (c : Cmd) (preports : P .reports) (pout : P .out) (pdie : P .die) (pspn : P .spn) (ppwr : P .pwr) (phost : P .host) (pcmd : P .cmd) (rCAL_CAP : R REG_CAL_CAP) (rHIF_CC : ∀ i, i < 2 → R (REG_HIF_CC i)) (rHIF_LINK : ∀ i, i < 2 → R (REG_HIF_LINK i)) (rKSV_CTRL : R REG_KSV_CTRL) (rKSV_GENHI : R REG_KSV_GENHI) (rKSV_GENLO : R REG_KSV_GENLO) (rKSV_LIMIT : R REG_KSV_LIMIT) (rPWR_CAP : R REG_PWR_CAP) (rPWR_MODE : R REG_PWR_MODE) (rQDR_TORQ : R REG_QDR_TORQ) (rQSQ_ARB : ∀ i, i < 2 → R (REG_QSQ_ARB i)) (rQSQ_CMDTAB : R REG_QSQ_CMDTAB) (rQSQ_HALT : ∀ i j, i < 2 → j < 4 → R (REG_QSQ_HALT i j)) (rQSQ_QHOE : ∀ i j, i < 2 → j < 4 → R (REG_QSQ_QHOE i j)) (rSPN_DEMAND : R REG_SPN_DEMAND) (rSPN_ERR : R REG_SPN_ERR) (rSPN_OBS : R REG_SPN_OBS) (rSPN_SPEED : R REG_SPN_SPEED) (rSPN_STAT : R REG_SPN_STAT) (rSPN_TARGET : R REG_SPN_TARGET) (rSRV_STAT : ∀ i, i < 4 → R (REG_SRV_STAT i)) (hm : Kept P R m0 m) : Kept P R m0 (Mach.setFeature m c).1 := by
  grind [Mach.setFeature, Mach.syncCtrl_kept, Mach.setFeat_kept, Mach.setPowerState_kept, Mach.setSub_kept, Mach.save_kept, Mach.syncHalt_kept, Mach.setLimit_kept, Mach.applyCap_kept, foldl_kept]
theorem setFeatures_kept (r : AdminReq) {m : Mach} (preports : P .reports) (pout : P .out) (pdie : P .die) (pspn : P .spn) (ppwr : P .pwr) (phost : P .host) (pcmd : P .cmd) (rCAL_CAP : R REG_CAL_CAP) (rHIF_CC : ∀ i, i < 2 → R (REG_HIF_CC i)) (rHIF_LINK : ∀ i, i < 2 → R (REG_HIF_LINK i)) (rKSV_CTRL : R REG_KSV_CTRL) (rKSV_GENHI : R REG_KSV_GENHI) (rKSV_GENLO : R REG_KSV_GENLO) (rKSV_LIMIT : R REG_KSV_LIMIT) (rPWR_CAP : R REG_PWR_CAP) (rPWR_MODE : R REG_PWR_MODE) (rQDR_TORQ : R REG_QDR_TORQ) (rQSQ_ARB : ∀ i, i < 2 → R (REG_QSQ_ARB i)) (rQSQ_CMDTAB : R REG_QSQ_CMDTAB) (rQSQ_HALT : ∀ i j, i < 2 → j < 4 → R (REG_QSQ_HALT i j)) (rQSQ_QHOE : ∀ i j, i < 2 → j < 4 → R (REG_QSQ_QHOE i j)) (rSPN_DEMAND : R REG_SPN_DEMAND) (rSPN_ERR : R REG_SPN_ERR) (rSPN_OBS : R REG_SPN_OBS) (rSPN_SPEED : R REG_SPN_SPEED) (rSPN_STAT : R REG_SPN_STAT) (rSPN_TARGET : R REG_SPN_TARGET) (rSRV_STAT : ∀ i, i < 4 → R (REG_SRV_STAT i)) (hm : Kept P R m0 m) : Kept P R m0 (setFeatures r m) := by
  grind [setFeatures, Mach.adminRequest_kept, Mach.setFeature_kept, foldl_kept]
theorem getFeatures_kept (r : AdminReq) {m : Mach} (pout : P .out) (pcmd : P .cmd) (rQSQ_CMDTAB : R REG_QSQ_CMDTAB) (hm : Kept P R m0 m) : Kept P R m0 (getFeatures r m) := by
  grind [getFeatures, Mach.adminRequest_kept, foldl_kept]
theorem asynchronousEventRequest_kept (fsn : BitVec 32) {m : Mach} (phost : P .host) (pcmd : P .cmd) (rQSQ_CMDTAB : R REG_QSQ_CMDTAB) (hm : Kept P R m0 m) : Kept P R m0 (asynchronousEventRequest fsn m) := by
  grind [asynchronousEventRequest, Mach.withRunning_kept, Mach.finish_kept, Mach.serveEvents_kept, Mach.setCtrl_kept, foldl_kept]
theorem Mach.nsChangedFor_kept {m : Mach} (p : PortId) (nsid : Nat) (phost : P .host) (pcmd : P .cmd) (rQSQ_CMDTAB : R REG_QSQ_CMDTAB) (hm : Kept P R m0 m) : Kept P R m0 (Mach.nsChangedFor m p nsid) := by
  grind [Mach.nsChangedFor, Mach.asyncEvent_kept, Mach.setCtrl_kept, foldl_kept]
theorem Mach.dropGroups_kept {m : Mach} (nsid : Nat) (pmedia : P .media) (hm : Kept P R m0 m) : Kept P R m0 (Mach.dropGroups m nsid) := by
  grind [Mach.dropGroups, mk_media_kept, foldl_kept]
theorem Mach.removeNs_kept {m : Mach} (nsid : Nat) (pfreeCtr : P .freeCtr) (preports : P .reports) (pcal : P .cal) (pmedia : P .media) (ppwr : P .pwr) (pbuf : P .buf) (pcmd : P .cmd) (psec : P .sec) (rKSV_REG : ∀ i, i < 4 → R (REG_KSV_REG i)) (rPOOL_ERR : R REG_POOL_ERR) (rPOOL_FIRST : R REG_POOL_FIRST) (rPOOL_RETSTAT : ∀ i, i < 8 → R (REG_POOL_RETSTAT i)) (rPOOL_STAT : ∀ i, i < 8 → R (REG_POOL_STAT i)) (rSEC_SLOTS : R REG_SEC_SLOTS) (rSEC_VAULT : R REG_SEC_VAULT) (hm : Kept P R m0 m) : Kept P R m0 (Mach.removeNs m nsid) := by
  unfold Mach.removeNs
  repeat' (first | with_reducible assumption | split | with_reducible apply Mach.replaceKey_kept | with_reducible apply Mach.dropDirty_kept | with_reducible apply Mach.discardSpecs_kept | with_reducible apply Mach.dropGroups_kept | with_reducible apply Mach.setCmdState_kept | with_reducible apply Mach.setSec_kept | with_reducible apply Mach.refreshKeys_kept | with_reducible apply foldl_kept | with_reducible apply when_kept | dsimp only | intro _ _ _ | intro _ _ | intro _ | grind [])
theorem namespaceCreate_kept (fsn : BitVec 32) (d : NsCreate) (e : IoEnd) {m : Mach} (pfreeCtr : P .freeCtr) (ppwr : P .pwr) (pcmd : P .cmd) (psec : P .sec) (rKSV_REG : ∀ i, i < 4 → R (REG_KSV_REG i)) (rQSQ_CMDTAB : R REG_QSQ_CMDTAB) (rSEC_SLOTS : R REG_SEC_SLOTS) (rSEC_VAULT : R REG_SEC_VAULT) (hm : Kept P R m0 m) : Kept P R m0 (namespaceCreate fsn d e m) := by
  grind [namespaceCreate, Mach.withRunning_kept, Mach.invalid_kept, Mach.transferred_kept, Mach.finish_kept, Mach.setCmdState_kept, Mach.decide__kept, Mach.replaceKey_kept, foldl_kept]
theorem namespaceDelete_kept (fsn : BitVec 32) {m : Mach} (pfreeCtr : P .freeCtr) (preports : P .reports) (pcal : P .cal) (pmedia : P .media) (ppwr : P .pwr) (pbuf : P .buf) (phost : P .host) (pcmd : P .cmd) (psec : P .sec) (rKSV_REG : ∀ i, i < 4 → R (REG_KSV_REG i)) (rPOOL_ERR : R REG_POOL_ERR) (rPOOL_FIRST : R REG_POOL_FIRST) (rPOOL_RETSTAT : ∀ i, i < 8 → R (REG_POOL_RETSTAT i)) (rPOOL_STAT : ∀ i, i < 8 → R (REG_POOL_STAT i)) (rQSQ_CMDTAB : R REG_QSQ_CMDTAB) (rSEC_SLOTS : R REG_SEC_SLOTS) (rSEC_VAULT : R REG_SEC_VAULT) (hm : Kept P R m0 m) : Kept P R m0 (namespaceDelete fsn m) := by
  unfold namespaceDelete
  repeat' (first | with_reducible assumption | split | with_reducible apply Mach.withRunning_kept | with_reducible apply Mach.finish_kept | with_reducible apply Mach.removeNs_kept | with_reducible apply Mach.nsChangedFor_kept | with_reducible apply foldl_kept | with_reducible apply when_kept | dsimp only | intro _ _ _ | intro _ _ | intro _ | grind [])
theorem namespaceAttach_kept (fsn : BitVec 32) (ctrls : BitVec 2) (e : IoEnd) {m : Mach} (phost : P .host) (pcmd : P .cmd) (rQSQ_CMDTAB : R REG_QSQ_CMDTAB) (hm : Kept P R m0 m) : Kept P R m0 (namespaceAttach fsn ctrls e m) := by
  grind [namespaceAttach, Mach.withRunning_kept, Mach.invalid_kept, Mach.transferred_kept, Mach.finish_kept, Mach.setNs_kept, Mach.nsChangedFor_kept, foldl_kept]
theorem namespaceDetach_kept (fsn : BitVec 32) (ctrls : BitVec 2) (e : IoEnd) {m : Mach} (phost : P .host) (pcmd : P .cmd) (rQSQ_CMDTAB : R REG_QSQ_CMDTAB) (hm : Kept P R m0 m) : Kept P R m0 (namespaceDetach fsn ctrls e m) := by
  grind [namespaceDetach, Mach.withRunning_kept, Mach.transferred_kept, Mach.finish_kept, Mach.setNs_kept, Mach.nsChangedFor_kept, foldl_kept]
theorem firmwareImageDownload_kept (fsn : BitVec 32) (data : List Byte) (e : IoEnd) {m : Mach} (phost : P .host) (pcmd : P .cmd) (rQSQ_CMDTAB : R REG_QSQ_CMDTAB) (hm : Kept P R m0 m) : Kept P R m0 (firmwareImageDownload fsn data e m) := by
  grind [firmwareImageDownload, Mach.withRunning_kept, Mach.invalid_kept, Mach.transferred_kept, Mach.finish_kept, Mach.setCtrl_kept, foldl_kept]
theorem Mach.storeSlot_kept {m : Mach} (p : PortId) (slot : Nat) (b : Bundle) (phost : P .host) (psec : P .sec) (hm : Kept P R m0 m) : Kept P R m0 (Mach.storeSlot m p slot b) := by
  grind [Mach.storeSlot, Mach.setCtrl_kept, Mach.setFlash_kept, foldl_kept]
theorem Mach.commitImage_kept {m : Mach} (c : Cmd) (b : Option Bundle) (pend : Bool) (phost : P .host) (pcmd : P .cmd) (psec : P .sec) (rQSQ_CMDTAB : R REG_QSQ_CMDTAB) (hm : Kept P R m0 m) : Kept P R m0 (Mach.commitImage m c b pend) := by
  unfold Mach.commitImage
  dsimp only
  repeat' split
  all_goals grind (splits := 30) (ematch := 12) (gen := 12) (instances := 8000) [Mach.finish_kept, Mach.storeSlot_kept, when_kept, Mach.setFlash_kept, foldl_kept]
theorem Mach.commitActivate_kept {m : Mach} (c : Cmd) (now : Bool) (preports : P .reports) (pcal : P .cal) (pbuf : P .buf) (phost : P .host) (pcmd : P .cmd) (psec : P .sec) (peng : P .eng) (rPOOL_ERR : R REG_POOL_ERR) (rPOOL_FIRST : R REG_POOL_FIRST) (rPOOL_RETSTAT : ∀ i, i < 8 → R (REG_POOL_RETSTAT i)) (rPOOL_STAT : ∀ i, i < 8 → R (REG_POOL_STAT i)) (rQSQ_CMDTAB : R REG_QSQ_CMDTAB) (rQSQ_CTRL : R REG_QSQ_CTRL) (rQSQ_DTERR : R REG_QSQ_DTERR) (hm : Kept P R m0 m) : Kept P R m0 (Mach.commitActivate m c now) := by
  grind (splits := 40) (ematch := 20) (gen := 20) (instances := 20000) [Mach.commitActivate, QSQ_CTRL_FETCH_EN0, QSQ_CTRL_FETCH_EN1, Mach.finish_kept, Mach.setFlash_kept, Mach.loadShadow_kept, Mach.dropSpecs_kept, set_kept, Mach.asyncBoth_kept, Mach.setCmdState_kept, foldl_kept]
theorem firmwareCommitReplace_kept (fsn : BitVec 32) (b : Option Bundle) {m : Mach} (phost : P .host) (pcmd : P .cmd) (psec : P .sec) (rQSQ_CMDTAB : R REG_QSQ_CMDTAB) (hm : Kept P R m0 m) : Kept P R m0 (firmwareCommitReplace fsn b m) := by
  grind [firmwareCommitReplace, Mach.withRunning_kept, Mach.commitImage_kept, Mach.invalid_kept, foldl_kept]
theorem firmwareCommitReplaceActivate_kept (fsn : BitVec 32) (b : Option Bundle) {m : Mach} (phost : P .host) (pcmd : P .cmd) (psec : P .sec) (rQSQ_CMDTAB : R REG_QSQ_CMDTAB) (hm : Kept P R m0 m) : Kept P R m0 (firmwareCommitReplaceActivate fsn b m) := by
  grind [firmwareCommitReplaceActivate, Mach.withRunning_kept, Mach.commitImage_kept, foldl_kept]
theorem firmwareCommitActivate_kept (fsn : BitVec 32) {m : Mach} (preports : P .reports) (pcal : P .cal) (pbuf : P .buf) (phost : P .host) (pcmd : P .cmd) (psec : P .sec) (peng : P .eng) (rPOOL_ERR : R REG_POOL_ERR) (rPOOL_FIRST : R REG_POOL_FIRST) (rPOOL_RETSTAT : ∀ i, i < 8 → R (REG_POOL_RETSTAT i)) (rPOOL_STAT : ∀ i, i < 8 → R (REG_POOL_STAT i)) (rQSQ_CMDTAB : R REG_QSQ_CMDTAB) (rQSQ_CTRL : R REG_QSQ_CTRL) (rQSQ_DTERR : R REG_QSQ_DTERR) (hm : Kept P R m0 m) : Kept P R m0 (firmwareCommitActivate fsn m) := by
  grind [firmwareCommitActivate, Mach.withRunning_kept, Mach.commitActivate_kept, foldl_kept]
theorem firmwareCommitActivateNow_kept (fsn : BitVec 32) {m : Mach} (preports : P .reports) (pcal : P .cal) (pbuf : P .buf) (phost : P .host) (pcmd : P .cmd) (psec : P .sec) (peng : P .eng) (rPOOL_ERR : R REG_POOL_ERR) (rPOOL_FIRST : R REG_POOL_FIRST) (rPOOL_RETSTAT : ∀ i, i < 8 → R (REG_POOL_RETSTAT i)) (rPOOL_STAT : ∀ i, i < 8 → R (REG_POOL_STAT i)) (rQSQ_CMDTAB : R REG_QSQ_CMDTAB) (rQSQ_CTRL : R REG_QSQ_CTRL) (rQSQ_DTERR : R REG_QSQ_DTERR) (hm : Kept P R m0 m) : Kept P R m0 (firmwareCommitActivateNow fsn m) := by
  grind [firmwareCommitActivateNow, Mach.withRunning_kept, Mach.commitActivate_kept, foldl_kept]
end Sys2Proof.Machine
end

