-- ==== Sys2Proof/Laws/KeptIoCmd.lean ====
section
/-! SUPPORT. What the operations of Machine/IoCmd.lean keep: for each, the parts and the registers it may change. -/
set_option Elab.async false
set_option linter.all false
namespace Sys2Proof.Machine
open Sys2Proof
variable {P : Part → Prop} {R : Nat → Prop} {m0 : Mach}
theorem Mach.finishAt_kept {m : Mach} (fsn : Nat) (status : Nat) (lba : Nat) (pcmd : P .cmd) (rQSQ_CMDTAB : R REG_QSQ_CMDTAB) (hm : Kept P R m0 m) : Kept P R m0 (Mach.finishAt m fsn status lba) := by
  grind [Mach.finishAt, Mach.finish_kept, Mach.setCommand_kept, foldl_kept]
theorem Mach.dropCopies_kept {m : Mach} (c : Cmd) (lbas : List Nat) (pcmd : P .cmd) (hm : Kept P R m0 m) : Kept P R m0 (Mach.dropCopies m c lbas) := by
  grind [Mach.dropCopies, Mach.setCmdState_kept, foldl_kept]
theorem Mach.endRead_kept {m : Mach} (c : Cmd) (e : IoEnd) (preports : P .reports) (pout : P .out) (ppwr : P .pwr) (pcmd : P .cmd) (rQSQ_CMDTAB : R REG_QSQ_CMDTAB) (hm : Kept P R m0 m) : Kept P R m0 (Mach.endRead m c e) := by
  unfold Mach.endRead
  repeat' (first | with_reducible assumption | split | with_reducible apply Mach.sweepKept_kept | with_reducible apply Mach.finish_kept | with_reducible apply Mach.dropCopies_kept | with_reducible apply Mach.markLost_kept | with_reducible apply Mach.dropDirty_kept | with_reducible apply Mach.finishAt_kept | with_reducible apply when_kept | with_reducible apply emit_kept | with_reducible apply foldl_kept | dsimp only | intro _ _ _ | intro _ _ | intro _ | grind [])
theorem Mach.writeDone_kept {m : Mach} (c : Cmd) (lbas : List Nat) (handles : List (BitVec 24)) (result : Nat) (ppwr : P .pwr) (pcmd : P .cmd) (rQSQ_CMDTAB : R REG_QSQ_CMDTAB) (hm : Kept P R m0 m) : Kept P R m0 (Mach.writeDone m c lbas handles result) := by
  grind [Mach.writeDone, Mach.addZeros_kept, Mach.placeUnit_kept, Mach.supersedeLate_kept, Mach.setPwr_kept, Mach.decide__kept, Mach.setCommand_kept, foldl_kept]
theorem Mach.endWrite_kept {m : Mach} (c : Cmd) (e : IoEnd) (lbas : List Nat) (handles : List (BitVec 24)) (result : Nat) (ppwr : P .pwr) (pcmd : P .cmd) (rQSQ_CMDTAB : R REG_QSQ_CMDTAB) (hm : Kept P R m0 m) : Kept P R m0 (Mach.endWrite m c e lbas handles result) := by
  grind [Mach.endWrite, Mach.finish_kept, Mach.withdrawWrite_kept, Mach.finishAt_kept, Mach.writeDone_kept, foldl_kept]
theorem writeCommand_kept (fsn : BitVec 32) (e : IoEnd) (handles : List (BitVec 24)) {m : Mach} (ppwr : P .pwr) (pcmd : P .cmd) (rQSQ_CMDTAB : R REG_QSQ_CMDTAB) (hm : Kept P R m0 m) : Kept P R m0 (writeCommand fsn e handles m) := by
  grind [writeCommand, Mach.withRunning_kept, Mach.endWrite_kept, foldl_kept]
theorem zoneAppend_kept (fsn : BitVec 32) (e : IoEnd) (handles : List (BitVec 24)) {m : Mach} (ppwr : P .pwr) (pcmd : P .cmd) (rQSQ_CMDTAB : R REG_QSQ_CMDTAB) (hm : Kept P R m0 m) : Kept P R m0 (zoneAppend fsn e handles m) := by
  grind [zoneAppend, Mach.withRunning_kept, Mach.endWrite_kept, foldl_kept]
theorem writeZeroes_kept (fsn : BitVec 32) {m : Mach} (ppwr : P .pwr) (pcmd : P .cmd) (rQSQ_CMDTAB : R REG_QSQ_CMDTAB) (hm : Kept P R m0 m) : Kept P R m0 (writeZeroes fsn m) := by
  grind [writeZeroes, Mach.withRunning_kept, Mach.endWrite_kept, foldl_kept]
theorem datasetManagement_kept (fsn : BitVec 32) {m : Mach} (ppwr : P .pwr) (pcmd : P .cmd) (rQSQ_CMDTAB : R REG_QSQ_CMDTAB) (hm : Kept P R m0 m) : Kept P R m0 (datasetManagement fsn m) := by
  grind [datasetManagement, Mach.withRunning_kept, Mach.endWrite_kept, foldl_kept]
theorem writeUncorrectable_kept (fsn : BitVec 32) {m : Mach} (pcmd : P .cmd) (rQSQ_CMDTAB : R REG_QSQ_CMDTAB) (hm : Kept P R m0 m) : Kept P R m0 (writeUncorrectable fsn m) := by
  grind [writeUncorrectable, Mach.withRunning_kept, Mach.finish_kept, foldl_kept]
theorem read_kept (fsn : BitVec 32) (e : IoEnd) {m : Mach} (preports : P .reports) (pout : P .out) (ppwr : P .pwr) (pcmd : P .cmd) (rQSQ_CMDTAB : R REG_QSQ_CMDTAB) (hm : Kept P R m0 m) : Kept P R m0 (read fsn e m) := by
  grind [read, Mach.withRunning_kept, Mach.endRead_kept, foldl_kept]
theorem compare_kept (fsn : BitVec 32) (e : IoEnd) {m : Mach} (preports : P .reports) (pout : P .out) (ppwr : P .pwr) (pcmd : P .cmd) (rQSQ_CMDTAB : R REG_QSQ_CMDTAB) (hm : Kept P R m0 m) : Kept P R m0 (compare fsn e m) := by
  grind [compare, Mach.withRunning_kept, Mach.endRead_kept, foldl_kept]
theorem verify_kept (fsn : BitVec 32) (e : IoEnd) {m : Mach} (preports : P .reports) (pout : P .out) (ppwr : P .pwr) (pcmd : P .cmd) (rQSQ_CMDTAB : R REG_QSQ_CMDTAB) (hm : Kept P R m0 m) : Kept P R m0 (verify fsn e m) := by
  grind [verify, Mach.withRunning_kept, Mach.endRead_kept, foldl_kept]
theorem flush_kept (fsn : BitVec 32) {m : Mach} (pcmd : P .cmd) (rQSQ_CMDTAB : R REG_QSQ_CMDTAB) (hm : Kept P R m0 m) : Kept P R m0 (flush fsn m) := by
  grind [flush, Mach.withRunning_kept, Mach.finish_kept, foldl_kept]
theorem Mach.resetZone_kept {m : Mach} (fsn : Nat) (nsid : Nat) (z : Nat) (preports : P .reports) (pcal : P .cal) (pmedia : P .media) (ppwr : P .pwr) (pbuf : P .buf) (pcmd : P .cmd) (rPOOL_ERR : R REG_POOL_ERR) (rPOOL_FIRST : R REG_POOL_FIRST) (rPOOL_RETSTAT : ∀ i, i < 8 → R (REG_POOL_RETSTAT i)) (rPOOL_STAT : ∀ i, i < 8 → R (REG_POOL_STAT i)) (rQSQ_CMDTAB : R REG_QSQ_CMDTAB) (hm : Kept P R m0 m) : Kept P R m0 (Mach.resetZone m fsn nsid z) := by
  grind [Mach.resetZone, Mach.discardSpecs_kept, Mach.supersede_kept, mk_media_kept, foldl_kept]
theorem Mach.zoneSend_kept {m : Mach} (c : Cmd) (action : Nat) (preports : P .reports) (pcal : P .cal) (pmedia : P .media) (ppwr : P .pwr) (pbuf : P .buf) (pcmd : P .cmd) (rPOOL_ERR : R REG_POOL_ERR) (rPOOL_FIRST : R REG_POOL_FIRST) (rPOOL_RETSTAT : ∀ i, i < 8 → R (REG_POOL_RETSTAT i)) (rPOOL_STAT : ∀ i, i < 8 → R (REG_POOL_STAT i)) (rQSQ_CMDTAB : R REG_QSQ_CMDTAB) (rQSQ_STAT : R REG_QSQ_STAT) (hm : Kept P R m0 m) : Kept P R m0 (Mach.zoneSend m c action) := by
  unfold Mach.zoneSend
  repeat' (first | with_reducible assumption | split | with_reducible apply Mach.passed_kept | with_reducible apply Mach.setCommand_kept | with_reducible apply Mach.setNs_kept | with_reducible apply Mach.metaChange_kept | with_reducible apply when_kept | with_reducible apply Mach.resetZone_kept | with_reducible apply foldl_kept | dsimp only | intro _ _ _ | intro _ _ | intro _ | grind [])
theorem zoneClose_kept (fsn : BitVec 32) {m : Mach} (preports : P .reports) (pcal : P .cal) (pmedia : P .media) (ppwr : P .pwr) (pbuf : P .buf) (pcmd : P .cmd) (rPOOL_ERR : R REG_POOL_ERR) (rPOOL_FIRST : R REG_POOL_FIRST) (rPOOL_RETSTAT : ∀ i, i < 8 → R (REG_POOL_RETSTAT i)) (rPOOL_STAT : ∀ i, i < 8 → R (REG_POOL_STAT i)) (rQSQ_CMDTAB : R REG_QSQ_CMDTAB) (rQSQ_STAT : R REG_QSQ_STAT) (hm : Kept P R m0 m) : Kept P R m0 (zoneClose fsn m) := by
  grind [zoneClose, Mach.zoneSend_kept, foldl_kept]
theorem zoneFinish_kept (fsn : BitVec 32) {m : Mach} (preports : P .reports) (pcal : P .cal) (pmedia : P .media) (ppwr : P .pwr) (pbuf : P .buf) (pcmd : P .cmd) (rPOOL_ERR : R REG_POOL_ERR) (rPOOL_FIRST : R REG_POOL_FIRST) (rPOOL_RETSTAT : ∀ i, i < 8 → R (REG_POOL_RETSTAT i)) (rPOOL_STAT : ∀ i, i < 8 → R (REG_POOL_STAT i)) (rQSQ_CMDTAB : R REG_QSQ_CMDTAB) (rQSQ_STAT : R REG_QSQ_STAT) (hm : Kept P R m0 m) : Kept P R m0 (zoneFinish fsn m) := by
  grind [zoneFinish, Mach.zoneSend_kept, foldl_kept]
theorem zoneOpen_kept (fsn : BitVec 32) {m : Mach} (preports : P .reports) (pcal : P .cal) (pmedia : P .media) (ppwr : P .pwr) (pbuf : P .buf) (pcmd : P .cmd) (rPOOL_ERR : R REG_POOL_ERR) (rPOOL_FIRST : R REG_POOL_FIRST) (rPOOL_RETSTAT : ∀ i, i < 8 → R (REG_POOL_RETSTAT i)) (rPOOL_STAT : ∀ i, i < 8 → R (REG_POOL_STAT i)) (rQSQ_CMDTAB : R REG_QSQ_CMDTAB) (rQSQ_STAT : R REG_QSQ_STAT) (hm : Kept P R m0 m) : Kept P R m0 (zoneOpen fsn m) := by
  grind [zoneOpen, Mach.zoneSend_kept, foldl_kept]
theorem zoneReset_kept (fsn : BitVec 32) {m : Mach} (preports : P .reports) (pcal : P .cal) (pmedia : P .media) (ppwr : P .pwr) (pbuf : P .buf) (pcmd : P .cmd) (rPOOL_ERR : R REG_POOL_ERR) (rPOOL_FIRST : R REG_POOL_FIRST) (rPOOL_RETSTAT : ∀ i, i < 8 → R (REG_POOL_RETSTAT i)) (rPOOL_STAT : ∀ i, i < 8 → R (REG_POOL_STAT i)) (rQSQ_CMDTAB : R REG_QSQ_CMDTAB) (rQSQ_STAT : R REG_QSQ_STAT) (hm : Kept P R m0 m) : Kept P R m0 (zoneReset fsn m) := by
  grind [zoneReset, Mach.zoneSend_kept, foldl_kept]
theorem zoneOffline_kept (fsn : BitVec 32) {m : Mach} (preports : P .reports) (pcal : P .cal) (pmedia : P .media) (ppwr : P .pwr) (pbuf : P .buf) (pcmd : P .cmd) (rPOOL_ERR : R REG_POOL_ERR) (rPOOL_FIRST : R REG_POOL_FIRST) (rPOOL_RETSTAT : ∀ i, i < 8 → R (REG_POOL_RETSTAT i)) (rPOOL_STAT : ∀ i, i < 8 → R (REG_POOL_STAT i)) (rQSQ_CMDTAB : R REG_QSQ_CMDTAB) (rQSQ_STAT : R REG_QSQ_STAT) (hm : Kept P R m0 m) : Kept P R m0 (zoneOffline fsn m) := by
  grind [zoneOffline, Mach.zoneSend_kept, Mach.setCommand_kept, Mach.passed_kept, foldl_kept]
theorem reportZones_kept (fsn : BitVec 32) (e : IoEnd) {m : Mach} (pout : P .out) (ppwr : P .pwr) (pcmd : P .cmd) (rQSQ_CMDTAB : R REG_QSQ_CMDTAB) (rQSQ_STAT : R REG_QSQ_STAT) (hm : Kept P R m0 m) : Kept P R m0 (reportZones fsn e m) := by
  grind (splits := 40) (ematch := 20) (gen := 20) (instances := 20000) [reportZones, Mach.setCommand_kept, Mach.passed_kept, emit_kept, foldl_kept]
theorem abort_kept (fsn : BitVec 32) {m : Mach} (pmedia : P .media) (ppwr : P .pwr) (pcmd : P .cmd) (rQSQ_CMDTAB : R REG_QSQ_CMDTAB) (rQSQ_STAT : R REG_QSQ_STAT) (hm : Kept P R m0 m) : Kept P R m0 (abort fsn m) := by
  grind [abort, Mach.passed_kept, Mach.setCommand_kept, Mach.withRunning_kept, Mach.decide__kept, Mach.abortCommands_kept, foldl_kept]
theorem Mach.restart_kept {m : Mach} (fsn : Nat) (mode : Nat) (f : Cmd → SubQueue → Mach) (ppwr : P .pwr) (pcmd : P .cmd) (rQSQ_CMDTAB : R REG_QSQ_CMDTAB) (rQSQ_STAT : R REG_QSQ_STAT) (hm : Kept P R m0 m) (hf : ∀ (y0 : Cmd) (y1 : SubQueue), Kept P R m0 (f y0 y1)) : Kept P R m0 (Mach.restart m fsn mode f) := by
  grind [Mach.restart, Mach.passed_kept, foldl_kept]
theorem queueRestartResume_kept (fsn : BitVec 32) {m : Mach} (ppwr : P .pwr) (phost : P .host) (pcmd : P .cmd) (rQSQ_CMDTAB : R REG_QSQ_CMDTAB) (rQSQ_HALT : ∀ i j, i < 2 → j < 4 → R (REG_QSQ_HALT i j)) (rQSQ_QHOE : ∀ i j, i < 2 → j < 4 → R (REG_QSQ_QHOE i j)) (rQSQ_STAT : R REG_QSQ_STAT) (hm : Kept P R m0 m) : Kept P R m0 (queueRestartResume fsn m) := by
  grind [queueRestartResume, Mach.restart_kept, Mach.setCtrl_kept, Mach.passed_kept, Mach.syncHalt_kept, foldl_kept]
theorem queueRestartDiscard_kept (fsn : BitVec 32) {m : Mach} (pmedia : P .media) (ppwr : P .pwr) (phost : P .host) (pcmd : P .cmd) (rQSQ_CMDTAB : R REG_QSQ_CMDTAB) (rQSQ_HALT : ∀ i j, i < 2 → j < 4 → R (REG_QSQ_HALT i j)) (rQSQ_QHOE : ∀ i j, i < 2 → j < 4 → R (REG_QSQ_QHOE i j)) (rQSQ_STAT : R REG_QSQ_STAT) (hm : Kept P R m0 m) : Kept P R m0 (queueRestartDiscard fsn m) := by
  grind [queueRestartDiscard, Mach.restart_kept, Mach.setTable_kept, Mach.abortCommands_kept, Mach.setCtrl_kept, Mach.passed_kept, Mach.syncHalt_kept, foldl_kept]
theorem Mach.syncZones_kept {m : Mach} (phost : P .host) (pcmd : P .cmd) (hm : Kept P R m0 m) : Kept P R m0 (Mach.syncZones m) := by
  grind [Mach.syncZones, Mach.setNs_kept, when_kept, Mach.setCtrl_kept, foldl_kept]
theorem formatNvm_kept (fsn : BitVec 32) {m : Mach} (pfreeCtr : P .freeCtr) (preports : P .reports) (pcal : P .cal) (pmedia : P .media) (ppwr : P .pwr) (pbuf : P .buf) (phost : P .host) (pcmd : P .cmd) (psec : P .sec) (rKSV_REG : ∀ i, i < 4 → R (REG_KSV_REG i)) (rPOOL_ERR : R REG_POOL_ERR) (rPOOL_FIRST : R REG_POOL_FIRST) (rPOOL_RETSTAT : ∀ i, i < 8 → R (REG_POOL_RETSTAT i)) (rPOOL_STAT : ∀ i, i < 8 → R (REG_POOL_STAT i)) (rQSQ_CMDTAB : R REG_QSQ_CMDTAB) (rQSQ_STAT : R REG_QSQ_STAT) (rSEC_SLOTS : R REG_SEC_SLOTS) (rSEC_VAULT : R REG_SEC_VAULT) (hm : Kept P R m0 m) : Kept P R m0 (formatNvm fsn m) := by
  unfold formatNvm
  repeat' (first | with_reducible assumption | split | with_reducible apply Mach.setCommand_kept | with_reducible apply Mach.passed_kept | with_reducible apply Mach.clearMarks_kept | with_reducible apply Mach.discardSpecs_kept | with_reducible apply Mach.supersede_kept | with_reducible apply Mach.dropGroups_kept | with_reducible apply when_kept | with_reducible apply Mach.replaceKey_kept | with_reducible apply Mach.setNs_kept | with_reducible apply Mach.metaChange_kept | with_reducible apply Mach.syncZones_kept | with_reducible apply Mach.nsChangedFor_kept | with_reducible apply foldl_kept | dsimp only | intro _ _ _ | intro _ _ | intro _ | grind [])
theorem Mach.supersedeKey_kept {m : Mach} (fsn : Nat) (r : LockId) (pcmd : P .cmd) (rQSQ_CMDTAB : R REG_QSQ_CMDTAB) (hm : Kept P R m0 m) : Kept P R m0 (Mach.supersedeKey m fsn r) := by
  grind [Mach.supersedeKey, Mach.setTable_kept, foldl_kept]
theorem securitySend_kept (fsn : BitVec 32) (op : OpalOp) (e : IoEnd) {m : Mach} (pfreeCtr : P .freeCtr) (ppwr : P .pwr) (pcmd : P .cmd) (psec : P .sec) (rKSV_REG : ∀ i, i < 4 → R (REG_KSV_REG i)) (rQSQ_CMDTAB : R REG_QSQ_CMDTAB) (rQSQ_STAT : R REG_QSQ_STAT) (rSEC_SLOTS : R REG_SEC_SLOTS) (rSEC_VAULT : R REG_SEC_VAULT) (hm : Kept P R m0 m) : Kept P R m0 (securitySend fsn op e m) := by
  unfold securitySend
  repeat' (first | with_reducible assumption | split | with_reducible apply Mach.setCommand_kept | with_reducible apply Mach.passed_kept | with_reducible apply Mach.supersedeKey_kept | with_reducible apply Mach.opal_kept | with_reducible apply foldl_kept | with_reducible apply when_kept | dsimp only | intro _ _ _ | intro _ _ | intro _ | grind [])
theorem securityReceive_kept (fsn : BitVec 32) (e : IoEnd) {m : Mach} (pfreeCtr : P .freeCtr) (pout : P .out) (pcmd : P .cmd) (rQSQ_CMDTAB : R REG_QSQ_CMDTAB) (hm : Kept P R m0 m) : Kept P R m0 (securityReceive fsn e m) := by
  grind [securityReceive, Mach.withRunning_kept, Mach.transferred_kept, Mach.finish_kept, emit_kept, nextFree_kept, Mach.invalid_kept, foldl_kept]
end Sys2Proof.Machine
end

