-- ==== Sys2Proof/Laws/KeptBlockCore.lean ====
section
/-! SUPPORT. What the operations of Machine/BlockCore.lean keep: for each, the parts and the registers it may change. -/
set_option Elab.async false
set_option linter.all false
namespace Sys2Proof.Machine
open Sys2Proof
variable {P : Part → Prop} {R : Nat → Prop} {m0 : Mach}
theorem Mach.setBlockBusy_kept {m : Mach} (b : Nat) (x : Bool) (rRST_BLKSTAT0 : R REG_RST_BLKSTAT0) (rRST_BLKSTAT1 : R REG_RST_BLKSTAT1) (hm : Kept P R m0 m) : Kept P R m0 (Mach.setBlockBusy m b x) := by
  grind [Mach.setBlockBusy, RST_BLKSTAT0_BUSY, RST_BLKSTAT1_BUSY, Mach.setBitAt_kept, foldl_kept]
theorem Mach.blockReset_kept {m : Mach} (b : Nat) (idle : Bool) (clear : Mach → Mach) (preports : P .reports) (peng : P .eng) (rall : ∀ a, R a) (hm : Kept P R m0 m) (hclear : ∀ (y0 : Mach), Kept P R m0 y0 → Kept P R m0 (clear y0)) : Kept P R m0 (Mach.blockReset m b idle clear) := by
  unfold Mach.blockReset
  refine ite_kept (flagEvent_kept _ _ hm preports (rall _)) (foldl_kept (fun m q h => Mach.restartSeq_kept _ peng (fun _ _ => rall _) h) (hclear _ ?_))
  exact mk_regs_kept _ (Mach.setBlockBusy_kept _ _ (rall _) (rall _) hm) (resetFields_wf _ _) (fun a h => absurd (rall a) h)
theorem blockResetFmt_kept (n : Stream) {m : Mach} (preports : P .reports) (pmedia : P .media) (ppwr : P .pwr) (peng : P .eng) (rall : ∀ a, R a) (hm : Kept P R m0 m) : Kept P R m0 (blockResetFmt n m) := by
  grind [blockResetFmt, Mach.blockReset_kept, Mach.clearFmt_kept, foldl_kept]
theorem findRow_some {a : Nat} {rs : List RegRow} {r : RegRow} {i : Nat} (h : findRow a rs = some (r, i)) :
    r ∈ rs ∧ r.index a = some i := by
  induction rs with
  | nil => cases h
  | cons x xs ih =>
    simp only [findRow] at h
    split at h
    · next hx =>
      cases h
      exact ⟨List.mem_cons_self .., hx⟩
    · exact ⟨List.mem_cons_of_mem _ (ih h).1, (ih h).2⟩
theorem findReg_some {a : Nat} {bs : List BlockRows} {r : RegRow} {i : Nat} (h : findReg a bs = some (r, i)) :
    ∃ b ∈ bs, r ∈ b.rows ∧ r.index a = some i := by
  induction bs with
  | nil => cases h
  | cons x xs ih =>
    simp only [findReg] at h
    split at h
    · exact ⟨x, List.mem_cons_self .., findRow_some h⟩
    · obtain ⟨b, hb, h⟩ := ih h
      exact ⟨b, List.mem_cons_of_mem _ hb, h⟩
theorem index_some {r : RegRow} {a i : Nat} (h : r.index a = some i) :
    ∃ j, j < r.n1 ∧ ∃ k, k < r.n2 ∧ a = r.base + r.s1 * j + r.s2 * k := by
  simp only [RegRow.index] at h
  split at h
  · cases h
  · next hb =>
    split at h
    · next hc =>
      refine ⟨_, hc.1, _, hc.2.1, ?_⟩
      have h1 := Nat.div_add_mod (a - r.base) r.s1
      have h2 := Nat.div_add_mod ((a - r.base) % r.s1) r.s2
      omega
    · cases h
/-- The fields that a block reset resets. -/
theorem fmt_rows : (regBlocks.all fun b => b.rows.all fun r =>
    !(r.fields.any fun f => (f.cls == RstClass.B || f.cls == RstClass.S) && f.acc != Access.rws) ||
      (List.range r.n1).all fun j => (List.range r.n2).all fun k =>
        let a := r.base + r.s1 * j + r.s2 * k
        Nat.blt a 0x40200000 || Nat.ble 0x40280000 a || (fmtBlock ((a - 0x40200000) / 0x10000)).contains a) = true := by
  decide +kernel
theorem resetRow_fmt {n : Stream} {a : Nat}
    (h : a ∉ fmtBlock n.val) : resetRow (fun f => (f.cls == RstClass.B || f.cls == RstClass.S) && f.acc != Access.rws) (inBlock (8 + n.val)) a = none := by
  cases hr : resetRow (fun f => (f.cls == RstClass.B || f.cls == RstClass.S) && f.acc != Access.rws) (inBlock (8 + n.val)) a with
  | none => rfl
  | some p =>
    obtain ⟨r, i⟩ := p
    refine absurd ?_ h
    simp only [resetRow] at hr
    split at hr
    · next hb =>
      rw [Option.filter_eq_some_iff] at hr
      obtain ⟨hr, hf⟩ := hr
      obtain ⟨b, hbm, hrm, hi⟩ := findReg_some hr
      obtain ⟨j, hj, k, hk, ha⟩ := index_some hi
      have h1 := List.all_eq_true.1 (List.all_eq_true.1 fmt_rows b hbm) r hrm
      rw [show (r.fields.any fun f => (f.cls == RstClass.B || f.cls == RstClass.S) && f.acc != Access.rws) = true from hf] at h1
      have h2 := List.all_eq_true.1 (List.all_eq_true.1 h1 j (List.mem_range.2 hj)) k (List.mem_range.2 hk)
      dsimp only at h2
      rw [← ha] at h2
      have hw : 0x40200000 + 0x10000 * n.val ≤ a ∧ a < 0x40200000 + 0x10000 * n.val + 0x10000 := by
        have e : blockBase (8 + n.val) = 0x40200000 + 0x10000 * n.val := by
          simp only [blockBase]
          rw [if_neg (by omega), if_pos (by omega)]
          omega
        simp only [inBlock, Bool.and_eq_true, decide_eq_true_eq, e] at hb
        exact hb
      have e : (a - 0x40200000) / 0x10000 = n.val := by omega
      rw [e] at h2
      simp only [Bool.or_eq_true, List.contains_iff_mem, Nat.blt_eq, Nat.ble_eq] at h2
      rcases h2 with (h2 | h2) | h2
      · omega
      · omega
      · exact h2
    · cases hr
theorem Mach.restartSeq_one_kept {m : Mach} (q : SeqId) (peng : P .eng) (r : R (REG_SEQ_STAT q.val)) (hm : Kept P R m0 m) : Kept P R m0 (Mach.restartSeq m q) := by
  unfold Mach.restartSeq
  exact set_kept _ _ (set_kept _ _ (set_kept _ _ (set_kept _ _ (Mach.setEngine_kept _ peng hm) r) r) r) r
theorem blockResetFmt_due_kept (n : Stream) {m : Mach} (preports : P .reports) (pmedia : P .media) (ppwr : P .pwr) (peng : P .eng) (rdue : ∀ r ∈ fmtBlock n.val, R r) (hm : Kept P R m0 m) : Kept P R m0 (blockResetFmt n m) := by
  unfold blockResetFmt Mach.blockReset
  refine ite_kept (flagEvent_kept _ _ hm preports (rdue _ (by simp [fmtBlock, RST_ERR_BLK_BUSY]))) ?_
  refine foldl_mem_kept (fun m q hq h => Mach.restartSeq_one_kept _ peng ?_ h) (Mach.clearFmt_kept n pmedia ppwr ?_)
  · have hb : blockSeqs (8 + n.val) = [Fin.ofNat 20 n.val] := by
      simp only [blockSeqs]
      rw [if_pos (by omega)]
      congr 2
      omega
    rw [hb, List.mem_singleton] at hq
    subst hq
    have e : (Fin.ofNat 20 n.val).val = n.val := Nat.mod_eq_of_lt (by omega)
    rw [e]
    exact rdue _ (by simp [fmtBlock])
  · refine mk_regs_kept _ ?_ (resetFields_wf _ _) (fun a h => resetFields_lookup _ (resetRow_fmt fun hc => h (rdue a hc)))
    unfold Mach.setBlockBusy
    rw [if_pos (by omega)]
    exact set_kept _ _ hm (rdue _ (by simp [fmtBlock, RST_BLKSTAT0_BUSY]))
theorem Mach.faultResets_kept {m : Mach} (preports : P .reports) (pmedia : P .media) (ppwr : P .pwr) (peng : P .eng) (rdue : ∀ n : Stream, ∀ r ∈ fmtBlock n.val, R r) (hm : Kept P R m0 m) : Kept P R m0 (Mach.faultResets m) := by
  unfold Mach.faultResets
  refine foldl_kept (fun m n h => ?_) hm
  split
  · exact blockResetFmt_due_kept _ preports pmedia ppwr peng (rdue n) (Mach.setFmt_kept _ _ pmedia h)
  · exact h
theorem Mach.settled_kept (f : Mach → Mach) {m : Mach} (preports : P .reports) (pmedia : P .media) (ppwr : P .pwr) (peng : P .eng) (rdue : ∀ n : Stream, ∀ r ∈ fmtBlock n.val, R r) (hf : ∀ (y0 : Mach), Kept P R m0 y0 → Kept P R m0 (f y0)) (hm : Kept P R m0 m) : Kept P R m0 (Mach.settled f m) := by
  grind [Mach.settled, Mach.faultResets_kept, foldl_kept]
end Sys2Proof.Machine
end

