-- ==== Sys2Proof/Laws/KeptSceka.lean ====
section
/-! SUPPORT. What the operations of Machine/Sceka.lean keep: for each, the parts and the registers it may change. -/
set_option Elab.async false
set_option linter.all false
namespace Sys2Proof.Machine
open Sys2Proof
variable {P : Part → Prop} {R : Nat → Prop} {m0 : Mach}
theorem Mach.followService_kept {x0 : Mach} {m : Mach} (phost : P .host) (pcmd : P .cmd) (rQSQ_CMDTAB : R REG_QSQ_CMDTAB) (hx0 : Kept P R m0 x0) (hm : Kept P R m0 m) : Kept P R m0 (Mach.followService x0 m) := by
  grind [Mach.followService, QDR_ACT_DEPOP, QDR_ACT_HEAD_DEPOP, Mach.scekaNotice_kept, Mach.syncZones_kept, when_kept, Mach.asyncBoth_kept, Mach.criticalWarning_kept, Mach.setCmdState_kept, foldl_kept]
theorem Mach.followChopper_kept {x0 : Mach} {m : Mach} (phost : P .host) (pcmd : P .cmd) (rQSQ_CMDTAB : R REG_QSQ_CMDTAB) (hx0 : Kept P R m0 x0) (hm : Kept P R m0 m) : Kept P R m0 (Mach.followChopper x0 m) := by
  grind [Mach.followChopper, SPN_BRK_FAULT, Mach.criticalWarning_kept, Mach.scekaNotice_kept, foldl_kept]
theorem Mach.watched_kept (f : Mach → Mach) {m : Mach} (preports : P .reports) (pout : P .out) (pmedia : P .media) (pdie : P .die) (ppwr : P .pwr) (phost : P .host) (pcmd : P .cmd) (peng : P .eng) (rdue : ∀ n : Stream, ∀ r ∈ fmtBlock n.val, R r) (rHIF_LINK : ∀ i, i < 2 → R (REG_HIF_LINK i)) (rKSV_CTRL : R REG_KSV_CTRL) (rKSV_GENHI : R REG_KSV_GENHI) (rKSV_GENLO : R REG_KSV_GENLO) (rKSV_LIMIT : R REG_KSV_LIMIT) (rPWR_MODE : R REG_PWR_MODE) (rQSQ_CMDTAB : R REG_QSQ_CMDTAB) (rVCM_MA : ∀ i, i < 4 → R (REG_VCM_MA i)) (rVCM_STAT : ∀ i, i < 4 → R (REG_VCM_STAT i)) (hf : ∀ (y0 : Mach), Kept P R m0 y0 → Kept P R m0 (f y0)) (hm : Kept P R m0 m) : Kept P R m0 (Mach.watched f m) := by
  grind [Mach.watched, Mach.faultResets_kept, Mach.followChopper_kept, Mach.actuatorsChanged_kept, Mach.followService_kept, foldl_kept]
theorem Mach.maintain_kept {m : Mach} (fsn : BitVec 32) (k : Nat) (f : Cmd → Mach) (hm : Kept P R m0 m) (hf : ∀ (y0 : Cmd), Kept P R m0 (f y0)) : Kept P R m0 (Mach.maintain m fsn k f) := by
  grind [Mach.maintain, Mach.withRunning_kept, foldl_kept]
theorem maintenanceStartScrub_kept (fsn : BitVec 32) {m : Mach} (preports : P .reports) (pout : P .out) (pcal : P .cal) (pbuf : P .buf) (pcmd : P .cmd) (rBUF_CNT : R REG_BUF_CNT) (rBUF_ERR : R REG_BUF_ERR) (rBUF_FIRST : R REG_BUF_FIRST) (rCCH_MISS : R REG_CCH_MISS) (rQSQ_CMDTAB : R REG_QSQ_CMDTAB) (rSCB_LEN : R REG_SCB_LEN) (rSCB_PASS : R REG_SCB_PASS) (rSCB_START : R REG_SCB_START) (rSCB_STAT : R REG_SCB_STAT) (hm : Kept P R m0 m) : Kept P R m0 (maintenanceStartScrub fsn m) := by
  grind [maintenanceStartScrub, SCB_STAT_BUSY, SCB_START_LINE, SCB_LEN_LINES, Mach.maintain_kept, Mach.finish_kept, scbGo_kept, set_kept, Mach.setCmdState_kept, foldl_kept]
theorem maintenanceStartCandidate_kept (fsn : BitVec 32) {m : Mach} (pcmd : P .cmd) (rQSQ_CMDTAB : R REG_QSQ_CMDTAB) (hm : Kept P R m0 m) : Kept P R m0 (maintenanceStartCandidate fsn m) := by
  grind [maintenanceStartCandidate, Mach.maintain_kept, Mach.finish_kept, Mach.setCmdState_kept, foldl_kept]
theorem maintenanceStartScan_kept (fsn : BitVec 32) {m : Mach} (pcmd : P .cmd) (rQSQ_CMDTAB : R REG_QSQ_CMDTAB) (hm : Kept P R m0 m) : Kept P R m0 (maintenanceStartScan fsn m) := by
  grind [maintenanceStartScan, Mach.maintain_kept, Mach.finish_kept, Mach.setCmdState_kept, foldl_kept]
theorem maintenanceAbort_kept (fsn : BitVec 32) {m : Mach} (pcal : P .cal) (pbuf : P .buf) (pcmd : P .cmd) (rQSQ_CMDTAB : R REG_QSQ_CMDTAB) (hm : Kept P R m0 m) : Kept P R m0 (maintenanceAbort fsn m) := by
  grind [maintenanceAbort, Mach.withRunning_kept, Mach.invalid_kept, Mach.finish_kept, Mach.setCmdState_kept, when_kept, scbAbort_kept, foldl_kept]
theorem maintenancePassEnd_kept (k : PassKind) (count : Nat) {m : Mach} (phost : P .host) (pcmd : P .cmd) (rQSQ_CMDTAB : R REG_QSQ_CMDTAB) (hm : Kept P R m0 m) : Kept P R m0 (maintenancePassEnd k count m) := by
  unfold maintenancePassEnd
  dsimp only
  repeat' split
  all_goals grind (splits := 30) (ematch := 12) (gen := 12) (instances := 8000) [SCB_STAT_BUSY, CAL_FIGNO_FIGURE, Mach.setCmdState_kept, Mach.scekaNotice_kept, foldl_kept]
theorem Mach.manage_kept {m : Mach} (fsn : BitVec 32) (k : Nat) (f : Cmd → Actuator → Mach) (hm : Kept P R m0 m) (hf : ∀ (y0 : Cmd) (y1 : Actuator), Kept P R m0 (f y0 y1)) : Kept P R m0 (Mach.manage m fsn k f) := by
  grind [Mach.manage, Mach.withRunning_kept, foldl_kept]
theorem Mach.begin__kept {m : Mach} (fsn : Nat) (pcmd : P .cmd) (rQSQ_CMDTAB : R REG_QSQ_CMDTAB) (hm : Kept P R m0 m) : Kept P R m0 (Mach.begin_ m fsn) := by
  grind [Mach.begin_, Mach.setCommand_kept, foldl_kept]
theorem depopulateActuator_kept (fsn : BitVec 32) {m : Mach} (preports : P .reports) (pout : P .out) (pmedia : P .media) (pmotion : P .motion) (pdie : P .die) (ppwr : P .pwr) (phost : P .host) (pcmd : P .cmd) (peng : P .eng) (rdue : ∀ n : Stream, ∀ r ∈ fmtBlock n.val, R r) (rHIF_LINK : ∀ i, i < 2 → R (REG_HIF_LINK i)) (rKSV_CTRL : R REG_KSV_CTRL) (rKSV_GENHI : R REG_KSV_GENHI) (rKSV_GENLO : R REG_KSV_GENLO) (rKSV_LIMIT : R REG_KSV_LIMIT) (rPWR_MODE : R REG_PWR_MODE) (rQDR_ACT : ∀ i, i < 4 → R (REG_QDR_ACT i)) (rQDR_ERR : R REG_QDR_ERR) (rQDR_OUT : ∀ i, i < 4 → R (REG_QDR_OUT i)) (rQSQ_CMDTAB : R REG_QSQ_CMDTAB) (rVCM_MA : ∀ i, i < 4 → R (REG_VCM_MA i)) (rVCM_STAT : ∀ i, i < 4 → R (REG_VCM_STAT i)) (hm : Kept P R m0 m) : Kept P R m0 (depopulateActuator fsn m) := by
  unfold depopulateActuator
  repeat' (first | with_reducible assumption | split | with_reducible apply Mach.withRunning_kept | with_reducible apply Mach.invalid_kept | with_reducible apply Mach.manage_kept | with_reducible apply Mach.finish_kept | with_reducible apply Mach.begin__kept | with_reducible apply unload_kept | with_reducible apply Mach.watched_kept | with_reducible apply depopWrite_kept | with_reducible apply foldl_kept | with_reducible apply when_kept | dsimp only | intro _ _ _ | intro _ _ | intro _ | grind [QDR_ACT_DEPOP, QDR_ACT_STATE, QDR_ACT_PARKED])
theorem reinstateActuator_kept (fsn : BitVec 32) {m : Mach} (preports : P .reports) (pout : P .out) (pmedia : P .media) (pmotion : P .motion) (pdie : P .die) (ppwr : P .pwr) (phost : P .host) (pcmd : P .cmd) (peng : P .eng) (rdue : ∀ n : Stream, ∀ r ∈ fmtBlock n.val, R r) (rHIF_LINK : ∀ i, i < 2 → R (REG_HIF_LINK i)) (rKSV_CTRL : R REG_KSV_CTRL) (rKSV_GENHI : R REG_KSV_GENHI) (rKSV_GENLO : R REG_KSV_GENLO) (rKSV_LIMIT : R REG_KSV_LIMIT) (rPWR_MODE : R REG_PWR_MODE) (rQDR_ACT : ∀ i, i < 4 → R (REG_QDR_ACT i)) (rQDR_ERR : R REG_QDR_ERR) (rQDR_OUT : ∀ i, i < 4 → R (REG_QDR_OUT i)) (rQSQ_CMDTAB : R REG_QSQ_CMDTAB) (rVCM_MA : ∀ i, i < 4 → R (REG_VCM_MA i)) (rVCM_STAT : ∀ i, i < 4 → R (REG_VCM_STAT i)) (hm : Kept P R m0 m) : Kept P R m0 (reinstateActuator fsn m) := by
  grind [reinstateActuator, QDR_ACT_STATE, QDR_ACT_DEPOP, Mach.manage_kept, Mach.finish_kept, Mach.watched_kept, depopWrite_kept, Mach.begin__kept, foldl_kept]
theorem depopulateHead_kept (fsn : BitVec 32) {m : Mach} (preports : P .reports) (pout : P .out) (pmedia : P .media) (pmotion : P .motion) (pdie : P .die) (ppwr : P .pwr) (phost : P .host) (pcmd : P .cmd) (peng : P .eng) (rdue : ∀ n : Stream, ∀ r ∈ fmtBlock n.val, R r) (rHIF_LINK : ∀ i, i < 2 → R (REG_HIF_LINK i)) (rKSV_CTRL : R REG_KSV_CTRL) (rKSV_GENHI : R REG_KSV_GENHI) (rKSV_GENLO : R REG_KSV_GENLO) (rKSV_LIMIT : R REG_KSV_LIMIT) (rPWR_MODE : R REG_PWR_MODE) (rQDR_ACT : ∀ i, i < 4 → R (REG_QDR_ACT i)) (rQSQ_CMDTAB : R REG_QSQ_CMDTAB) (rVCM_MA : ∀ i, i < 4 → R (REG_VCM_MA i)) (rVCM_STAT : ∀ i, i < 4 → R (REG_VCM_STAT i)) (hm : Kept P R m0 m) : Kept P R m0 (depopulateHead fsn m) := by
  grind [depopulateHead, QDR_ACT_HEAD_DEPOP, QDR_ACT_STATE, Mach.manage_kept, Mach.finish_kept, Mach.begin__kept, Mach.watched_kept, Mach.setHeadDepop_kept, foldl_kept]
theorem reinstateHead_kept (fsn : BitVec 32) (failed : Bool) {m : Mach} (preports : P .reports) (pout : P .out) (pmedia : P .media) (pmotion : P .motion) (pdie : P .die) (ppwr : P .pwr) (phost : P .host) (pcmd : P .cmd) (peng : P .eng) (rdue : ∀ n : Stream, ∀ r ∈ fmtBlock n.val, R r) (rHIF_LINK : ∀ i, i < 2 → R (REG_HIF_LINK i)) (rKSV_CTRL : R REG_KSV_CTRL) (rKSV_GENHI : R REG_KSV_GENHI) (rKSV_GENLO : R REG_KSV_GENLO) (rKSV_LIMIT : R REG_KSV_LIMIT) (rPWR_MODE : R REG_PWR_MODE) (rQDR_ACT : ∀ i, i < 4 → R (REG_QDR_ACT i)) (rQSQ_CMDTAB : R REG_QSQ_CMDTAB) (rVCM_MA : ∀ i, i < 4 → R (REG_VCM_MA i)) (rVCM_STAT : ∀ i, i < 4 → R (REG_VCM_STAT i)) (hm : Kept P R m0 m) : Kept P R m0 (reinstateHead fsn failed m) := by
  unfold reinstateHead
  repeat' (first | with_reducible assumption | split | with_reducible apply Mach.manage_kept | with_reducible apply Mach.finish_kept | with_reducible apply Mach.watched_kept | with_reducible apply Mach.setHeadDepop_kept | with_reducible apply Mach.setRo_kept | with_reducible apply Mach.begin__kept | with_reducible apply report_kept | with_reducible apply mk_motion_kept | with_reducible apply foldl_kept | with_reducible apply when_kept | dsimp only | intro _ _ _ | intro _ _ | intro _ | grind [QDR_ACT_HEAD_DEPOP, QDR_ACT_STATE])
theorem acknowledgeBrakeFault_kept (fsn : BitVec 32) {m : Mach} (preports : P .reports) (pdie : P .die) (pspn : P .spn) (pcmd : P .cmd) (rQSQ_CMDTAB : R REG_QSQ_CMDTAB) (rSPN_BRK : R REG_SPN_BRK) (rSPN_ERR : R REG_SPN_ERR) (rSPN_OBS : R REG_SPN_OBS) (rSPN_SPEED : R REG_SPN_SPEED) (rSPN_STAT : R REG_SPN_STAT) (rSPN_TARGET : R REG_SPN_TARGET) (rSRV_STAT : ∀ i, i < 4 → R (REG_SRV_STAT i)) (hm : Kept P R m0 m) : Kept P R m0 (acknowledgeBrakeFault fsn m) := by
  grind [acknowledgeBrakeFault, SPN_BRK_FAULT, Mach.manage_kept, Mach.finish_kept, spnBrkAck_kept, foldl_kept]
theorem temperatureThresholdCrossed_kept (sensor : Fin 3) (kelvin : BitVec 16) {m : Mach} (phost : P .host) (pcmd : P .cmd) (rQSQ_CMDTAB : R REG_QSQ_CMDTAB) (hm : Kept P R m0 m) : Kept P R m0 (temperatureThresholdCrossed sensor kelvin m) := by
  grind [temperatureThresholdCrossed, Mach.setCmdState_kept, Mach.asyncBoth_kept, foldl_kept]
end Sys2Proof.Machine
end

