-- ==== Sys2Proof/Laws/KeptSideband.lean ====
section
/-! SUPPORT. What the operations of Machine/Sideband.lean keep: for each, the parts and the registers it may change. -/
set_option Elab.async false
set_option linter.all false
namespace Sys2Proof.Machine
open Sys2Proof
variable {P : Part → Prop} {R : Nat → Prop} {m0 : Mach}
theorem Mach.miSet_kept {m : Mach} (id : Nat) (value : Nat) (pcmd : P .cmd) (hm : Kept P R m0 m) : Kept P R m0 (Mach.miSet m id value).1 := by
  grind [Mach.miSet, Mach.setCmdState_kept, foldl_kept]
theorem Mach.miAnswer_kept {m : Mach} (x : Nat × List Byte) (pout : P .out) (hm : Kept P R m0 m) : Kept P R m0 (Mach.miAnswer m x) := by
  grind [Mach.miAnswer, emit_kept, foldl_kept]
theorem miReadDataStructure_kept (type : BitVec 8) {m : Mach} (pout : P .out) (hm : Kept P R m0 m) : Kept P R m0 (miReadDataStructure type m) := by
  grind [miReadDataStructure, Mach.sideband_kept, Mach.miAnswer_kept, foldl_kept]
theorem miSubsystemHealthPoll_kept {m : Mach} (pout : P .out) (hm : Kept P R m0 m) : Kept P R m0 (miSubsystemHealthPoll m) := by
  grind [miSubsystemHealthPoll, Mach.sideband_kept, Mach.miAnswer_kept, foldl_kept]
theorem miControllerHealthPoll_kept (p : PortId) {m : Mach} (pout : P .out) (hm : Kept P R m0 m) : Kept P R m0 (miControllerHealthPoll p m) := by
  grind [miControllerHealthPoll, Mach.sideband_kept, Mach.miAnswer_kept, foldl_kept]
theorem miConfigurationSet_kept (id : BitVec 8) (value : BitVec 16) {m : Mach} (pout : P .out) (pcmd : P .cmd) (hm : Kept P R m0 m) : Kept P R m0 (miConfigurationSet id value m) := by
  grind [miConfigurationSet, Mach.miSet_kept, Mach.sideband_kept, Mach.miAnswer_kept, foldl_kept]
theorem miConfigurationGet_kept (id : BitVec 8) {m : Mach} (pout : P .out) (hm : Kept P R m0 m) : Kept P R m0 (miConfigurationGet id m) := by
  grind [miConfigurationGet, Mach.sideband_kept, Mach.miAnswer_kept, foldl_kept]
theorem miVpdRead_kept (offset : BitVec 16) (len : BitVec 16) {m : Mach} (pout : P .out) (hm : Kept P R m0 m) : Kept P R m0 (miVpdRead offset len m) := by
  grind [miVpdRead, Mach.sideband_kept, Mach.miAnswer_kept, foldl_kept]
theorem miReset_kept {m : Mach} (preports : P .reports) (pout : P .out) (pcal : P .cal) (pmedia : P .media) (pmotion : P .motion) (pdie : P .die) (pspn : P .spn) (ppwr : P .pwr) (pbuf : P .buf) (pdma : P .dma) (phost : P .host) (pcmd : P .cmd) (psec : P .sec) (peng : P .eng) (pevt : P .evt) (prst : P .rst) (rall : ∀ a, R a) (hm : Kept P R m0 m) : Kept P R m0 (miReset m) := by
  grind [miReset, Mach.sideband_kept, Mach.miAnswer_kept, Mach.subsystemReset_kept, foldl_kept]
theorem smbusBasicManagement_kept {m : Mach} (pout : P .out) (hm : Kept P R m0 m) : Kept P R m0 (smbusBasicManagement m) := by
  grind [smbusBasicManagement, Mach.sideband_kept, Mach.miAnswer_kept, foldl_kept]
theorem nvmeMiSend_kept (fsn : BitVec 32) (e : IoEnd) {m : Mach} (preports : P .reports) (pcal : P .cal) (pmedia : P .media) (pmotion : P .motion) (pdie : P .die) (pspn : P .spn) (ppwr : P .pwr) (pbuf : P .buf) (pdma : P .dma) (phost : P .host) (pcmd : P .cmd) (psec : P .sec) (peng : P .eng) (pevt : P .evt) (prst : P .rst) (rall : ∀ a, R a) (hm : Kept P R m0 m) : Kept P R m0 (nvmeMiSend fsn e m) := by
  grind [nvmeMiSend, Mach.withRunning_kept, Mach.transferred_kept, Mach.miSet_kept, Mach.decide__kept, Mach.subsystemReset_kept, foldl_kept]
theorem nvmeMiReceive_kept (fsn : BitVec 32) (e : IoEnd) {m : Mach} (pout : P .out) (pcmd : P .cmd) (rQSQ_CMDTAB : R REG_QSQ_CMDTAB) (hm : Kept P R m0 m) : Kept P R m0 (nvmeMiReceive fsn e m) := by
  grind [nvmeMiReceive, Mach.withRunning_kept, Mach.transferred_kept, Mach.decide__kept, emit_kept, foldl_kept]
end Sys2Proof.Machine
end

