-- ==== Sys2Proof/Laws/KeptEvent.lean ====
section
/-! SUPPORT. What the operations of Machine/Event.lean keep: for each, the parts and the registers it may change. -/
set_option Elab.async false
set_option linter.all false
namespace Sys2Proof.Machine
open Sys2Proof
variable {P : Part → Prop} {R : Nat → Prop} {m0 : Mach}
theorem Mach.latchFirst_kept {m : Mach} (s : Nat) (rEVT_FIRST : R REG_EVT_FIRST) (rEVT_FIRSTSEQ : R REG_EVT_FIRSTSEQ) (hm : Kept P R m0 m) : Kept P R m0 (Mach.latchFirst m s) := by
  grind [Mach.latchFirst, EVT_FIRST_VALID, EVT_FIRST_SOURCE, EVT_FIRST_CLASS, EVT_FIRSTSEQ_SEQ, EVT_SEQLO_SEQ, set_kept, foldl_kept]
theorem Mach.advanceSeq_kept {m : Mach} (rEVT_SEQHI : R REG_EVT_SEQHI) (rEVT_SEQLO : R REG_EVT_SEQLO) (hm : Kept P R m0 m) : Kept P R m0 (Mach.advanceSeq m) := by
  grind [Mach.advanceSeq, EVT_SEQLO_SEQ, EVT_SEQHI_SEQ, set_kept, foldl_kept]
theorem Mach.offerLedger_kept {m : Mach} (pcal : P .cal) (hm : Kept P R m0 m) : Kept P R m0 (Mach.offerLedger m) := by
  grind [Mach.offerLedger, EVT_LGR_HEAD_INDEX, Mach.demandAs_kept, foldl_kept]
theorem Mach.queueLedger_kept {m : Mach} (s : Nat) (pcal : P .cal) (pevt : P .evt) (rEVT_LGR_STAT : R REG_EVT_LGR_STAT) (hm : Kept P R m0 m) : Kept P R m0 (Mach.queueLedger m s) := by
  grind [Mach.queueLedger, EVT_LGR_CTRL_EN, EVT_LGR_STAT_EARLY, EVT_LGR_HEAD_INDEX, EVT_LGR_TAIL_INDEX, EVT_LGR_STAT_OVR, incSat_kept, when_kept, Mach.setEvt_kept, Mach.offerLedger_kept, foldl_kept]
theorem Mach.signalGroup_kept {m : Mach} (s : Nat) (rose : Bool) (pout : P .out) (hm : Kept P R m0 m) : Kept P R m0 (Mach.signalGroup m s rose) := by
  grind [Mach.signalGroup, EVT_EN_EN, EVT_ROUTE_CEN, EVT_ROUTE_CORE, EVT_ROUTE_HOSTEN, EVT_ROUTE_VEC, emit_kept, when_kept, foldl_kept]
theorem Mach.fatalEvent_kept {m : Mach} (s : Nat) (preports : P .reports) (pout : P .out) (pdie : P .die) (phost : P .host) (pevt : P .evt) (rHIF_CC : ∀ i, i < 2 → R (REG_HIF_CC i)) (rHIF_LINK : ∀ i, i < 2 → R (REG_HIF_LINK i)) (rPWR_MODE : R REG_PWR_MODE) (rQSQ_ARB : ∀ i, i < 2 → R (REG_QSQ_ARB i)) (rVCM_MA : ∀ i, i < 4 → R (REG_VCM_MA i)) (rVCM_STAT : ∀ i, i < 4 → R (REG_VCM_STAT i)) (hm : Kept P R m0 m) : Kept P R m0 (Mach.fatalEvent m s) := by
  unfold Mach.fatalEvent
  dsimp only
  repeat' split
  all_goals grind (splits := 30) (ematch := 12) (gen := 12) (instances := 8000) [Mach.errorEntry_kept, Mach.syncCtrl_kept, Mach.setCtrl_kept, emit_kept, Mach.setEvt_kept, when_kept, Mach.enterSafe_kept, foldl_kept]
theorem Mach.dropPoolSpecs_kept {m : Mach} (p : PoolId) (preports : P .reports) (pcal : P .cal) (pbuf : P .buf) (pcmd : P .cmd) (rPOOL_ERR : R REG_POOL_ERR) (rPOOL_FIRST : R REG_POOL_FIRST) (rPOOL_RETSTAT : ∀ i, i < 8 → R (REG_POOL_RETSTAT i)) (rPOOL_STAT : ∀ i, i < 8 → R (REG_POOL_STAT i)) (hm : Kept P R m0 m) : Kept P R m0 (Mach.dropPoolSpecs m p) := by
  grind [Mach.dropPoolSpecs, Mach.setCmdState_kept, poolFree_kept, foldl_kept]
theorem Mach.answerEvent_kept {m : Mach} (s : Nat) (preports : P .reports) (pout : P .out) (pcal : P .cal) (pdie : P .die) (pbuf : P .buf) (phost : P .host) (pcmd : P .cmd) (rHIF_LINK : ∀ i, i < 2 → R (REG_HIF_LINK i)) (rPOOL_ERR : R REG_POOL_ERR) (rPOOL_FIRST : R REG_POOL_FIRST) (rPOOL_RETSTAT : ∀ i, i < 8 → R (REG_POOL_RETSTAT i)) (rPOOL_STAT : ∀ i, i < 8 → R (REG_POOL_STAT i)) (rPWR_MODE : R REG_PWR_MODE) (rVCM_MA : ∀ i, i < 4 → R (REG_VCM_MA i)) (rVCM_STAT : ∀ i, i < 4 → R (REG_VCM_STAT i)) (hm : Kept P R m0 m) : Kept P R m0 (Mach.answerEvent m s) := by
  grind [Mach.answerEvent, Mach.enterSafe_kept, Mach.dropPoolSpecs_kept, foldl_kept]
theorem Mach.fire_kept {m : Mach} (s : Nat) (preports : P .reports) (pout : P .out) (pcal : P .cal) (pdie : P .die) (pbuf : P .buf) (phost : P .host) (pcmd : P .cmd) (pevt : P .evt) (rEVT_CNT : ∀ i, i < 576 → R (REG_EVT_CNT i)) (rEVT_FIRST : R REG_EVT_FIRST) (rEVT_FIRSTSEQ : R REG_EVT_FIRSTSEQ) (rEVT_LGR_STAT : R REG_EVT_LGR_STAT) (rEVT_SEQHI : R REG_EVT_SEQHI) (rEVT_SEQLO : R REG_EVT_SEQLO) (rEVT_STAT : ∀ i, i < 36 → R (REG_EVT_STAT i)) (rHIF_CC : ∀ i, i < 2 → R (REG_HIF_CC i)) (rHIF_LINK : ∀ i, i < 2 → R (REG_HIF_LINK i)) (rPOOL_ERR : R REG_POOL_ERR) (rPOOL_FIRST : R REG_POOL_FIRST) (rPOOL_RETSTAT : ∀ i, i < 8 → R (REG_POOL_RETSTAT i)) (rPOOL_STAT : ∀ i, i < 8 → R (REG_POOL_STAT i)) (rPWR_MODE : R REG_PWR_MODE) (rQSQ_ARB : ∀ i, i < 2 → R (REG_QSQ_ARB i)) (rVCM_MA : ∀ i, i < 4 → R (REG_VCM_MA i)) (rVCM_STAT : ∀ i, i < 4 → R (REG_VCM_STAT i)) (hm : Kept P R m0 m) : Kept P R m0 (Mach.fire m s) := by
  unfold Mach.fire
  split
  · exact hm
  · next hl =>
    have hlt : s / 32 < 36 := by
      simp only [Bool.not_eq_true', Bool.not_eq_false] at hl
      unfold sourceListed evtListed at hl
      refine Nat.lt_of_not_le fun hc => ?_
      have h1 : ¬ s / 32 = 0 ∧ ¬ s / 32 = 1 ∧ ¬ s / 32 = 2 ∧ ¬ s / 32 = 3 ∧ ¬ s / 32 = 4 ∧ ¬ s / 32 ≤ 12 ∧ ¬ s / 32 = 13 ∧ ¬ s / 32 ≤ 21 ∧ ¬ s / 32 ≤ 25 ∧ ¬ s / 32 ≤ 29 ∧ ¬ s / 32 = 30 ∧ ¬ s / 32 = 31 ∧ ¬ s / 32 = 32 ∧ ¬ s / 32 = 33 ∧ ¬ s / 32 ≤ 35 := by omega
      simp [h1] at hl
    have hcn : R (sourceCount s).addr := by
      unfold sourceCount
      split
      · exact rEVT_CNT _ (by omega)
      · exact rEVT_CNT _ (by omega)
    have hb : Kept P R m0 (m.setBitAt (EVT_STAT_PEND (s / 32)) (s % 32) true) := set_kept _ _ hm (rEVT_STAT _ hlt)
    have hn := incSat_kept (sourceCount s) 1 hb hcn
    refine Mach.answerEvent_kept _ (by assumption) (by assumption) (by assumption) (by assumption) (by assumption) (by assumption) (by assumption) (by assumption) (by assumption) (by assumption) (by assumption) (by assumption) (by assumption) (by assumption) (by assumption) (?_)
    refine when_kept _ (fun m h => Mach.fatalEvent_kept _ (by assumption) (by assumption) (by assumption) (by assumption) (by assumption) (by assumption) (by assumption) (by assumption) (by assumption) (by assumption) (by assumption) (h)) ?_
    refine Mach.signalGroup_kept _ _ (by assumption) (?_)
    exact when_kept _ (fun m h => Mach.queueLedger_kept _ (by assumption) (by assumption) (by assumption) (Mach.latchFirst_kept _ (by assumption) (by assumption) (Mach.advanceSeq_kept (by assumption) (by assumption) (h)))) hn
theorem eventFire_kept (src : Option (Fin 1152)) {m : Mach} (preports : P .reports) (pout : P .out) (pcal : P .cal) (pdie : P .die) (pbuf : P .buf) (phost : P .host) (pcmd : P .cmd) (pevt : P .evt) (rEVT_CNT : ∀ i, i < 576 → R (REG_EVT_CNT i)) (rEVT_FIRST : R REG_EVT_FIRST) (rEVT_FIRSTSEQ : R REG_EVT_FIRSTSEQ) (rEVT_LGR_STAT : R REG_EVT_LGR_STAT) (rEVT_SEQHI : R REG_EVT_SEQHI) (rEVT_SEQLO : R REG_EVT_SEQLO) (rEVT_STAT : ∀ i, i < 36 → R (REG_EVT_STAT i)) (rHIF_CC : ∀ i, i < 2 → R (REG_HIF_CC i)) (rHIF_LINK : ∀ i, i < 2 → R (REG_HIF_LINK i)) (rPOOL_ERR : R REG_POOL_ERR) (rPOOL_FIRST : R REG_POOL_FIRST) (rPOOL_RETSTAT : ∀ i, i < 8 → R (REG_POOL_RETSTAT i)) (rPOOL_STAT : ∀ i, i < 8 → R (REG_POOL_STAT i)) (rPWR_MODE : R REG_PWR_MODE) (rQSQ_ARB : ∀ i, i < 2 → R (REG_QSQ_ARB i)) (rVCM_MA : ∀ i, i < 4 → R (REG_VCM_MA i)) (rVCM_STAT : ∀ i, i < 4 → R (REG_VCM_STAT i)) (hm : Kept P R m0 m) : Kept P R m0 (eventFire src m) := by
  simp only [eventFire]
  repeat' split
  all_goals grind (splits := 30) (ematch := 12) (gen := 12) (instances := 8000) [Mach.fire_kept, mk_reports_kept, foldl_mem_kept, Fin.isLt]
theorem Mach.recordLost_kept {m : Mach} (pevt : P .evt) (hm : Kept P R m0 m) : Kept P R m0 (Mach.recordLost m) := by
  grind [Mach.recordLost, EVT_LGR_STAT_OVR, EVT_LGR_STAT_EARLY, Mach.setEvt_kept, Mach.addRecord_kept, foldl_kept]
theorem Mach.nameRecord_kept {m : Mach} (s : Nat) (seq : Nat) (phost : P .host) (hm : Kept P R m0 m) : Kept P R m0 (Mach.nameRecord m s seq) := by
  grind [Mach.nameRecord, Mach.setCtrl_kept, foldl_kept]
theorem Mach.recordEvent_kept {m : Mach} (entry : List Byte) (pfreeCtr : P .freeCtr) (phost : P .host) (pevt : P .evt) (hm : Kept P R m0 m) : Kept P R m0 (Mach.recordEvent m entry) := by
  grind [Mach.recordEvent, nextFree_kept, Mach.addRecord_kept, Mach.setEvt_kept, Mach.nameRecord_kept, foldl_kept]
theorem Mach.drainOne_kept {m : Mach} (pfreeCtr : P .freeCtr) (preports : P .reports) (pout : P .out) (pbuf : P .buf) (phost : P .host) (pevt : P .evt) (rBUF_CNT : R REG_BUF_CNT) (rBUF_ERR : R REG_BUF_ERR) (rBUF_FIRST : R REG_BUF_FIRST) (rCCH_MISS : R REG_CCH_MISS) (rEVT_LGR_TAIL : R REG_EVT_LGR_TAIL) (hm : Kept P R m0 m) : Kept P R m0 (Mach.drainOne m) := by
  grind [Mach.drainOne, EVT_LGR_TAIL_INDEX, EVT_LGR_HEAD_INDEX, Mach.readBytes_kept, Mach.recordEvent_kept, Mach.setEvt_kept, set_kept, Mach.writeBytes_kept, foldl_kept]
theorem Mach.drain_kept (a : Nat) {x1 : Mach} (pfreeCtr : P .freeCtr) (preports : P .reports) (pout : P .out) (pbuf : P .buf) (phost : P .host) (pevt : P .evt) (rBUF_CNT : R REG_BUF_CNT) (rBUF_ERR : R REG_BUF_ERR) (rBUF_FIRST : R REG_BUF_FIRST) (rCCH_MISS : R REG_CCH_MISS) (rEVT_LGR_TAIL : R REG_EVT_LGR_TAIL) (hx1 : Kept P R m0 x1) : Kept P R m0 (Mach.drain a x1) := by
  induction a generalizing x1 with
  | zero => unfold Mach.drain; exact hx1
  | succ n ih => unfold Mach.drain; exact ih (Mach.drainOne_kept (by assumption) (by assumption) (by assumption) (by assumption) (by assumption) (by assumption) (by assumption) (by assumption) (by assumption) (by assumption) (by assumption) (hx1))
theorem ledgerWriteDone_kept {m : Mach} (pfreeCtr : P .freeCtr) (preports : P .reports) (pout : P .out) (pcal : P .cal) (pbuf : P .buf) (phost : P .host) (pevt : P .evt) (rBUF_CNT : R REG_BUF_CNT) (rBUF_ERR : R REG_BUF_ERR) (rBUF_FIRST : R REG_BUF_FIRST) (rCCH_MISS : R REG_CCH_MISS) (rEVT_LGR_HEAD : R REG_EVT_LGR_HEAD) (rEVT_LGR_TAIL : R REG_EVT_LGR_TAIL) (hm : Kept P R m0 m) : Kept P R m0 (ledgerWriteDone m) := by
  grind [ledgerWriteDone, EVT_LGR_HEAD_INDEX, set_kept, Mach.writeBytes_kept, Mach.offerLedger_kept, Mach.setEvt_kept, when_kept, Mach.recordLost_kept, Mach.drainOne_kept, foldl_kept]
theorem Mach.clearWords_kept {m : Mach} (lo : Nat) (n : Nat) (rw_ : ∀ i, i < n → R (lo + 4 * i)) (hm : Kept P R m0 m) : Kept P R m0 (Mach.clearWords m lo n) := by
  refine mk_regs_kept _ hm (fun h => ?_) (fun a ha => ?_)
  · rw [regsWf_iff] at h ⊢
    exact ⟨rising_filter h.1, fun c hc => h.2 c (List.mem_filter.1 hc).1⟩
  · have hne : ¬ (lo ≤ a ∧ a < lo + 4 * n ∧ (a - lo) % 4 = 0) := fun h => ha (by
      have := rw_ ((a - lo) / 4) (by omega)
      rwa [show lo + 4 * ((a - lo) / 4) = a by omega] at this)
    generalize m.regs = l
    induction l with
    | nil => rfl
    | cons c l ih =>
      obtain ⟨b, x⟩ := c
      by_cases hb : a = b
      · subst hb
        have hf : (!(decide (lo ≤ a) && decide (a < lo + 4 * n) && (a - lo) % 4 == 0)) = true := by
          simp only [Bool.not_eq_true', ← Bool.not_eq_true, Bool.and_eq_true, decide_eq_true_eq, beq_iff_eq]
          exact fun h => hne ⟨h.1.1, h.1.2, h.2⟩
        rw [List.filter_cons_of_pos (by exact hf)]
        simp [regLookup]
      · by_cases hf : (!(decide (lo ≤ b) && decide (b < lo + 4 * n) && (b - lo) % 4 == 0)) = true
        · rw [List.filter_cons_of_pos (by exact hf)]
          simp only [regLookup]
          rw [if_neg hb, if_neg hb]
          exact ih
        · rw [List.filter_cons_of_neg (by exact hf)]
          simp only [regLookup]
          rw [if_neg hb]
          exact ih
theorem evtCntclr_kept {m : Mach} (rEVT_CNT : ∀ i, i < 576 → R (REG_EVT_CNT i)) (hm : Kept P R m0 m) : Kept P R m0 (evtCntclr m) := by
  refine Mach.clearWords_kept _ _ (fun i hi => ?_) hm
  have := rEVT_CNT i hi
  simpa [REG_EVT_CNT] using this
theorem evtFirstClear_kept {m : Mach} (rEVT_FIRST : R REG_EVT_FIRST) (rEVT_FIRSTSEQ : R REG_EVT_FIRSTSEQ) (hm : Kept P R m0 m) : Kept P R m0 (evtFirstClear m) := by
  grind [evtFirstClear, EVT_FIRST_VALID, EVT_FIRST_SOURCE, EVT_FIRST_CLASS, EVT_FIRSTSEQ_SEQ, set_kept, foldl_kept]
theorem evtSwraise_kept (bit : BitVec 5) {m : Mach} (preports : P .reports) (rEVT_ERR : R REG_EVT_ERR) (hm : Kept P R m0 m) : Kept P R m0 (evtSwraise bit m) := by
  grind [evtSwraise, EVT_ERR_SW_BAD, set_kept, report_kept, foldl_kept]
theorem Mach.recStart_kept {m : Mach} (op : RecOp) (pevt : P .evt) (rREC_STAT : R REG_REC_STAT) (hm : Kept P R m0 m) : Kept P R m0 (Mach.recStart m op) := by
  grind [Mach.recStart, REC_STAT_BUSY, REC_STAT_RESULT, set_kept, Mach.setEvt_kept, foldl_kept]
theorem recProgram_kept {m : Mach} (preports : P .reports) (pout : P .out) (pcal : P .cal) (pbuf : P .buf) (pevt : P .evt) (rBUF_CNT : R REG_BUF_CNT) (rBUF_ERR : R REG_BUF_ERR) (rBUF_FIRST : R REG_BUF_FIRST) (rCCH_MISS : R REG_CCH_MISS) (rREC_STAT : R REG_REC_STAT) (hm : Kept P R m0 m) : Kept P R m0 (recProgram m) := by
  grind [recProgram, REC_STAT_BUSY, REC_DST_SLOT, REC_SRC_ADDR, Mach.readBytes_kept, Mach.recStart_kept, Mach.demandAs_kept, foldl_kept]
theorem recErase_kept {m : Mach} (pevt : P .evt) (rREC_STAT : R REG_REC_STAT) (hm : Kept P R m0 m) : Kept P R m0 (recErase m) := by
  unfold recErase
  split
  · exact hm
  · exact Mach.recStart_kept _ pevt rREC_STAT hm
theorem Mach.spoilSlot_kept {m : Mach} (slot : Nat) (pfreeCtr : P .freeCtr) (pevt : P .evt) (hm : Kept P R m0 m) : Kept P R m0 (Mach.spoilSlot m slot) := by
  grind [Mach.spoilSlot, nextFree_kept, Mach.putSlot_kept, foldl_kept]
theorem recDone_kept (outcome : Fin 3) {m : Mach} (pfreeCtr : P .freeCtr) (pevt : P .evt) (rREC_STAT : R REG_REC_STAT) (hm : Kept P R m0 m) : Kept P R m0 (recDone outcome m) := by
  grind [recDone, REC_STAT_BUSY, REC_STAT_RESULT, set_kept, Mach.setEvt_kept, Mach.putSlot_kept, Mach.eraseSector_kept, Mach.spoilSlot_kept, foldl_kept]
theorem snapshotTimer_kept {m : Mach} (pfreeCtr : P .freeCtr) (pevt : P .evt) (hm : Kept P R m0 m) : Kept P R m0 (snapshotTimer m) := by
  grind [snapshotTimer, Mach.setEvt_kept, nextFree_kept, Mach.addRecord_kept, foldl_kept]
theorem pohStore_kept {m : Mach} (pevt : P .evt) (hm : Kept P R m0 m) : Kept P R m0 (pohStore m) := by
  grind [pohStore, Mach.setEvt_kept, foldl_kept]
end Sys2Proof.Machine
end

