-- ==== Sys2Proof/Laws/KeptBoot.lean ====
section
/-! SUPPORT. What the operations of Machine/Boot.lean keep: for each, the parts and the registers it may change. -/
set_option Elab.async false
set_option linter.all false
namespace Sys2Proof.Machine
open Sys2Proof
variable {P : Part → Prop} {R : Nat → Prop} {m0 : Mach}
theorem powerOnReset_kept {m : Mach} (preports : P .reports) (pcal : P .cal) (pmedia : P .media) (pmotion : P .motion) (pdie : P .die) (pspn : P .spn) (ppwr : P .pwr) (pbuf : P .buf) (pdma : P .dma) (phost : P .host) (pcmd : P .cmd) (psec : P .sec) (peng : P .eng) (pevt : P .evt) (prst : P .rst) (rall : ∀ a, R a) (hm : Kept P R m0 m) : Kept P R m0 (powerOnReset m) := by
  grind [powerOnReset, Mach.requestReset_kept, foldl_kept]
theorem brownOutReset_kept (rail : Fin 7) {m : Mach} (preports : P .reports) (pcal : P .cal) (pmedia : P .media) (pmotion : P .motion) (pdie : P .die) (pspn : P .spn) (ppwr : P .pwr) (pbuf : P .buf) (pdma : P .dma) (phost : P .host) (pcmd : P .cmd) (psec : P .sec) (peng : P .eng) (pevt : P .evt) (prst : P .rst) (rall : ∀ a, R a) (hm : Kept P R m0 m) : Kept P R m0 (brownOutReset rail m) := by
  grind [brownOutReset, report_kept, Mach.requestReset_kept, foldl_kept]
theorem resetNAssert_kept {m : Mach} (preports : P .reports) (pcal : P .cal) (pmedia : P .media) (pmotion : P .motion) (pdie : P .die) (pspn : P .spn) (ppwr : P .pwr) (pbuf : P .buf) (pdma : P .dma) (phost : P .host) (pcmd : P .cmd) (psec : P .sec) (peng : P .eng) (pevt : P .evt) (prst : P .rst) (rall : ∀ a, R a) (hm : Kept P R m0 m) : Kept P R m0 (resetNAssert m) := by
  grind [resetNAssert, Mach.setRst_kept, Mach.requestReset_kept, foldl_kept]
theorem resetNRelease_kept {m : Mach} (prst : P .rst) (hm : Kept P R m0 m) : Kept P R m0 (resetNRelease m) := by
  grind [resetNRelease, Mach.setRst_kept, foldl_kept]
theorem rstSwrstWrite_kept (req : Requester) (w : Word) {m : Mach} (preports : P .reports) (pcal : P .cal) (pmedia : P .media) (pmotion : P .motion) (pdie : P .die) (pspn : P .spn) (ppwr : P .pwr) (pbuf : P .buf) (pdma : P .dma) (phost : P .host) (pcmd : P .cmd) (psec : P .sec) (peng : P .eng) (pevt : P .evt) (prst : P .rst) (rall : ∀ a, R a) (hm : Kept P R m0 m) : Kept P R m0 (rstSwrstWrite req w m) := by
  unfold rstSwrstWrite
  dsimp only
  repeat' split
  all_goals grind (splits := 30) (ematch := 12) (gen := 12) (instances := 8000) [RST_ERR_SW_KEY, flagEvent_kept, Mach.softReset_kept, foldl_kept]
theorem chiprst_kept {m : Mach} (preports : P .reports) (pcal : P .cal) (pmedia : P .media) (pmotion : P .motion) (pdie : P .die) (pspn : P .spn) (ppwr : P .pwr) (pbuf : P .buf) (pdma : P .dma) (phost : P .host) (pcmd : P .cmd) (psec : P .sec) (peng : P .eng) (pevt : P .evt) (prst : P .rst) (rall : ∀ a, R a) (hm : Kept P R m0 m) : Kept P R m0 (chiprst m) := by
  grind [chiprst, DBG_STAT_STATE, Mach.requestReset_kept, foldl_kept]
theorem coreWatchdogExpiry_kept (k : Fin 12) {m : Mach} (preports : P .reports) (pcal : P .cal) (pmedia : P .media) (pmotion : P .motion) (pdie : P .die) (pspn : P .spn) (ppwr : P .pwr) (pbuf : P .buf) (pdma : P .dma) (phost : P .host) (pcmd : P .cmd) (psec : P .sec) (peng : P .eng) (pevt : P .evt) (prst : P .rst) (rall : ∀ a, R a) (hm : Kept P R m0 m) : Kept P R m0 (coreWatchdogExpiry k m) := by
  grind [coreWatchdogExpiry, Mach.requestReset_kept, foldl_kept]
theorem coreLockup_kept (k : Fin 12) {m : Mach} (preports : P .reports) (pcal : P .cal) (pmedia : P .media) (pmotion : P .motion) (pdie : P .die) (pspn : P .spn) (ppwr : P .pwr) (pbuf : P .buf) (pdma : P .dma) (phost : P .host) (pcmd : P .cmd) (psec : P .sec) (peng : P .eng) (pevt : P .evt) (prst : P .rst) (rall : ∀ a, R a) (hm : Kept P R m0 m) : Kept P R m0 (coreLockup k m) := by
  grind [coreLockup, Mach.requestReset_kept, foldl_kept]
theorem fabricWatchdogExpiry_kept {m : Mach} (preports : P .reports) (pcal : P .cal) (pmedia : P .media) (pmotion : P .motion) (pdie : P .die) (pspn : P .spn) (ppwr : P .pwr) (pbuf : P .buf) (pdma : P .dma) (phost : P .host) (pcmd : P .cmd) (psec : P .sec) (peng : P .eng) (pevt : P .evt) (prst : P .rst) (rall : ∀ a, R a) (hm : Kept P R m0 m) : Kept P R m0 (fabricWatchdogExpiry m) := by
  grind [fabricWatchdogExpiry, Mach.requestReset_kept, Mach.wdgLatch_kept, foldl_kept]
theorem Mach.setGood_kept {m : Mach} (d : Nat) (b : Bool) (rCLK_GOOD0 : R REG_CLK_GOOD0) (rCLK_GOOD1 : R REG_CLK_GOOD1) (hm : Kept P R m0 m) : Kept P R m0 (Mach.setGood m d b) := by
  grind [Mach.setGood, CLK_GOOD0_GOOD, CLK_GOOD1_GOOD, Mach.setBitAt_kept, foldl_kept]
theorem Mach.clocked_kept (d : Nat) (b : Nat) (f : Mach → Mach) {m : Mach} (hf : ∀ (y0 : Mach), Kept P R m0 y0 → Kept P R m0 (f y0)) (hm : Kept P R m0 m) : Kept P R m0 (Mach.clocked d b f m) := by
  grind [Mach.clocked, foldl_kept]
theorem clockFailure_kept (d : Fin 64) (kind : Fin 3) {m : Mach} (preports : P .reports) (pcal : P .cal) (pmedia : P .media) (pmotion : P .motion) (pdie : P .die) (pspn : P .spn) (ppwr : P .pwr) (pbuf : P .buf) (pdma : P .dma) (phost : P .host) (pcmd : P .cmd) (psec : P .sec) (peng : P .eng) (pevt : P .evt) (prst : P .rst) (rall : ∀ a, R a) (hm : Kept P R m0 m) : Kept P R m0 (clockFailure d kind m) := by
  unfold clockFailure
  dsimp only
  repeat' (first | assumption | (intro _ hx; exact hx) | split | with_reducible apply Mach.requestReset_kept | with_reducible apply report_kept | with_reducible apply Mach.setGood_kept | with_reducible apply set_kept | with_reducible apply Mach.setRst_kept | with_reducible apply foldl_kept | with_reducible apply when_kept | (intro m hm))
  all_goals grind (splits := 30) (ematch := 12) (gen := 12) (instances := 8000) [CLK_STAT_RPLL_LOCK, CLK_STAT_XTAL_GOOD, CLK_STAT_AON_SRC, Mach.requestReset_kept, report_kept, Mach.setGood_kept, set_kept, Mach.setRst_kept, foldl_kept]
theorem clockGoodTimeout_kept (d : Fin 40) {m : Mach} (preports : P .reports) (pcal : P .cal) (pmedia : P .media) (pmotion : P .motion) (pdie : P .die) (pspn : P .spn) (ppwr : P .pwr) (pbuf : P .buf) (pdma : P .dma) (phost : P .host) (pcmd : P .cmd) (psec : P .sec) (peng : P .eng) (pevt : P .evt) (prst : P .rst) (rall : ∀ a, R a) (hm : Kept P R m0 m) : Kept P R m0 (clockGoodTimeout d m) := by
  grind [clockGoodTimeout, HIF_LINK_UP, when_kept, Mach.linkDownEvent_kept, Mach.requestReset_kept, foldl_kept]
theorem stormHoldEnd_kept {m : Mach} (prst : P .rst) (hm : Kept P R m0 m) : Kept P R m0 (stormHoldEnd m) := by
  grind [stormHoldEnd, Mach.setRst_kept, foldl_kept]
theorem phaseP0_kept {m : Mach} (prst : P .rst) (rPWR_RAILS : R REG_PWR_RAILS) (hm : Kept P R m0 m) : Kept P R m0 (phaseP0 m) := by
  grind [phaseP0, PWR_RAILS_GOOD, set_kept, Mach.setRst_kept, foldl_kept]
theorem railRampTimeout_kept {m : Mach} (prst : P .rst) (rPWR_RAILS : R REG_PWR_RAILS) (hm : Kept P R m0 m) : Kept P R m0 (railRampTimeout m) := by
  grind [railRampTimeout, PWR_RAILS_GOOD, set_kept, Mach.setRst_kept, foldl_kept]
theorem crystalGood_kept {m : Mach} (prst : P .rst) (rCLK_GOOD0 : R REG_CLK_GOOD0) (rCLK_GOOD1 : R REG_CLK_GOOD1) (rCLK_STAT : R REG_CLK_STAT) (hm : Kept P R m0 m) : Kept P R m0 (crystalGood m) := by
  grind [crystalGood, CLK_STAT_XTAL_GOOD, CLK_STAT_AON_SRC, Mach.setGood_kept, set_kept, Mach.setRst_kept, foldl_kept]
theorem pllLock_kept {m : Mach} (rCLK_STAT : R REG_CLK_STAT) (hm : Kept P R m0 m) : Kept P R m0 (pllLock m) := by
  grind [pllLock, CLK_STAT_RPLL_LOCK, set_kept, foldl_kept]
theorem Mach.loadFuses_kept {m : Mach} (rFUS_PADMAP : R REG_FUS_PADMAP) (rFUS_SERHI : R REG_FUS_SERHI) (rFUS_SERLO : R REG_FUS_SERLO) (rSEC_LIFE : R REG_SEC_LIFE) (rSEC_SVN : R REG_SEC_SVN) (hm : Kept P R m0 m) : Kept P R m0 (Mach.loadFuses m) := by
  grind [Mach.loadFuses, SEC_LIFE_LIFE, SEC_LIFE_OEMKEY, SEC_SVN_PATCH, SEC_SVN_CFG, FUS_SERLO_SERIAL, FUS_SERHI_SERIAL, set_kept, setFlag_kept, setWord_kept, foldl_kept]
theorem fuseSense_kept (testEn : Bool) {m : Mach} (prst : P .rst) (rCLK_GOOD0 : R REG_CLK_GOOD0) (rCLK_GOOD1 : R REG_CLK_GOOD1) (rCLK_STAT : R REG_CLK_STAT) (rFUS_PADMAP : R REG_FUS_PADMAP) (rFUS_SERHI : R REG_FUS_SERHI) (rFUS_SERLO : R REG_FUS_SERLO) (rPWR_RAILS : R REG_PWR_RAILS) (rRST_PHASE : R REG_RST_PHASE) (rSEC_LIFE : R REG_SEC_LIFE) (rSEC_SVN : R REG_SEC_SVN) (hm : Kept P R m0 m) : Kept P R m0 (fuseSense testEn m) := by
  grind [fuseSense, PWR_RAILS_GOOD, CLK_STAT_XTAL_GOOD, RST_PHASE_PHASE, Mach.setRst_kept, Mach.loadFuses_kept, set_kept, Mach.setGood_kept, foldl_kept]
theorem Mach.loadOptions_kept {m : Mach} (ws : List Word) (pcmd : P .cmd) (psec : P .sec) (rBUF_CTRL : R REG_BUF_CTRL) (rHIF_MODE : R REG_HIF_MODE) (rHIF_SUBSYS : R REG_HIF_SUBSYS) (rPWR_FLEET : R REG_PWR_FLEET) (hm : Kept P R m0 m) : Kept P R m0 (Mach.loadOptions m ws) := by
  unfold Mach.loadOptions
  dsimp only
  repeat' split
  all_goals grind (splits := 30) (ematch := 12) (gen := 12) (instances := 8000) [HIF_MODE_DUAL, HIF_MODE_SRIS, HIF_MODE_MAXSPEED, BUF_CTRL_INIT_MODE, PWR_FLEET_SLOT, Mach.setSec_kept, set_kept, setWord_kept, Mach.resetFeatures_kept, Mach.setCmdState_kept, foldl_kept]
theorem optionLoad_kept {m : Mach} (preports : P .reports) (pcmd : P .cmd) (psec : P .sec) (rBUF_CTRL : R REG_BUF_CTRL) (rHIF_MODE : R REG_HIF_MODE) (rHIF_SUBSYS : R REG_HIF_SUBSYS) (rPWR_FLEET : R REG_PWR_FLEET) (rRST_PHASE : R REG_RST_PHASE) (rSEC_BOOT : R REG_SEC_BOOT) (rSEC_ERR : R REG_SEC_ERR) (hm : Kept P R m0 m) : Kept P R m0 (optionLoad m) := by
  grind [optionLoad, RST_PHASE_PHASE, SEC_BOOT_OPTBLK, SEC_ERR_OPTCRC, Mach.loadOptions_kept, set_kept, flagEvent_kept, foldl_kept]
theorem clockStart_kept {m : Mach} (prst : P .rst) (hm : Kept P R m0 m) : Kept P R m0 (clockStart m) := by
  grind [clockStart, RST_PHASE_PHASE, Mach.setRst_kept, foldl_kept]
theorem Mach.dieReport_kept {m : Mach} (pdie : P .die) (rQDR_ACT : ∀ i, i < 4 → R (REG_QDR_ACT i)) (rVCM_STAT : ∀ i, i < 4 → R (REG_VCM_STAT i)) (rVCM_TEMP : R REG_VCM_TEMP) (hm : Kept P R m0 m) : Kept P R m0 (Mach.dieReport m) := by
  grind [Mach.dieReport, VCM_STAT_MODE, set_kept, Mach.setParked_kept, Mach.reportTemp_kept, foldl_kept]
theorem domainRelease_kept (d : Fin 40) {m : Mach} (pcal : P .cal) (pdie : P .die) (prst : P .rst) (rCAL_FIGNO : R REG_CAL_FIGNO) (rCLK_GOOD0 : R REG_CLK_GOOD0) (rCLK_GOOD1 : R REG_CLK_GOOD1) (rQDR_ACT : ∀ i, i < 4 → R (REG_QDR_ACT i)) (rRST_PHASE : R REG_RST_PHASE) (rVCM_STAT : ∀ i, i < 4 → R (REG_VCM_STAT i)) (rVCM_TEMP : R REG_VCM_TEMP) (hm : Kept P R m0 m) : Kept P R m0 (domainRelease d m) := by
  grind [domainRelease, RST_PHASE_PHASE, CLK_STAT_RPLL_LOCK, HIF_MODE_SRIS, Mach.setGood_kept, Mach.setRst_kept, when_kept, Mach.firstFigure_kept, set_kept, Mach.dieReport_kept, foldl_kept]
theorem bufferInit_kept {m : Mach} (pbuf : P .buf) (peng : P .eng) (prst : P .rst) (rBUF_STAT : R REG_BUF_STAT) (rRST_PHASE : R REG_RST_PHASE) (rRST_STAT : R REG_RST_STAT) (hm : Kept P R m0 m) : Kept P R m0 (bufferInit m) := by
  have hp : ∀ {b : BufMem} {x}, b.wf = true → (BufMem.mk b.cells b.bad x).wf = true := fun h => h
  have hd : ∀ m, Kept P R m0 m → Kept P R m0 (((m.set BUF_STAT_INIT 2).set RST_STAT_BUFOK 1).set RST_PHASE_PHASE 5) :=
    fun m h => set_kept _ _ (set_kept _ _ (set_kept _ _ h rBUF_STAT) rRST_STAT) rRST_PHASE
  unfold bufferInit
  refine ite_kept hm (ite_kept (hd _ (Mach.setRst_kept _ prst (Mach.setBuf_kept _ pbuf ?_ (Mach.setEngine_kept _ peng hm)))) (ite_kept (hd _ (Mach.setMem_kept _ pbuf (fun _ _ => nil_wf) ?_)) (set_kept _ _ (Mach.setMem_kept _ pbuf (fun _ h => hp h) ?_) rBUF_STAT)))
  · intro b h
    show BufMem.wf (if m.buf.vsramOff then _ else _) = true
    split
    · exact h
    · exact h
  all_goals exact Mach.setBuf_kept _ pbuf (fun _ h => h) (Mach.setEngine_kept _ peng hm)
theorem Mach.rejectBundle_kept {m : Mach} (l : Loc) (why : Nat) (preports : P .reports) (rSEC_ERR : R REG_SEC_ERR) (hm : Kept P R m0 m) (hl : R l.addr) : Kept P R m0 (Mach.rejectBundle m l why) := by
  grind [Mach.rejectBundle, SEC_ERR_SVN, SEC_ERR_VERIFY, set_kept, flagEvent_kept, foldl_kept]
theorem Mach.takeBundle_kept {m : Mach} (slot : Nat) (source : Nat) (preports : P .reports) (psec : P .sec) (peng : P .eng) (rQSQ_CSSWAP : R REG_QSQ_CSSWAP) (rQSQ_DTERR : R REG_QSQ_DTERR) (rSEC_BOOT : R REG_SEC_BOOT) (rSEQ_STAT : ∀ i, i < 20 → R (REG_SEQ_STAT i)) (hm : Kept P R m0 m) : Kept P R m0 (Mach.takeBundle m slot source) := by
  unfold Mach.takeBundle
  dsimp only
  repeat' split
  all_goals grind (splits := 30) (ematch := 12) (gen := 12) (instances := 8000) [SEC_BOOT_ACTIVE, SEC_BOOT_SOURCE, SEC_BOOT_OPTMIS, Mach.setSec_kept, Mach.loadStores_kept, setFlag_kept, set_kept, foldl_kept]
theorem Mach.noBundle_kept {m : Mach} (psec : P .sec) (rSEC_BOOT : R REG_SEC_BOOT) (hm : Kept P R m0 m) : Kept P R m0 (Mach.noBundle m) := by
  grind [Mach.noBundle, SEC_BOOT_ACTIVE, SEC_BOOT_SOURCE, set_kept, Mach.setSec_kept, foldl_kept]
theorem Mach.tryActive_kept {m : Mach} (preports : P .reports) (psec : P .sec) (peng : P .eng) (rQSQ_CSSWAP : R REG_QSQ_CSSWAP) (rQSQ_DTERR : R REG_QSQ_DTERR) (rSEC_BOOT : R REG_SEC_BOOT) (rSEC_ERR : R REG_SEC_ERR) (rSEQ_STAT : ∀ i, i < 20 → R (REG_SEQ_STAT i)) (hm : Kept P R m0 m) : Kept P R m0 (Mach.tryActive m) := by
  grind [Mach.tryActive, SEC_BOOT_AFAIL, Mach.noBundle_kept, Mach.takeBundle_kept, Mach.rejectBundle_kept, foldl_kept]
theorem Mach.tryPending_kept {m : Mach} (preports : P .reports) (psec : P .sec) (peng : P .eng) (rQSQ_CSSWAP : R REG_QSQ_CSSWAP) (rQSQ_DTERR : R REG_QSQ_DTERR) (rSEC_BOOT : R REG_SEC_BOOT) (rSEC_ERR : R REG_SEC_ERR) (rSEQ_STAT : ∀ i, i < 20 → R (REG_SEQ_STAT i)) (hm : Kept P R m0 m) : Kept P R m0 (Mach.tryPending m) := by
  unfold Mach.tryPending
  split
  · repeat' (first | assumption | exact fun _ _ => rfl | exact fun _ => rfl | exact rall _ | exact fun _ _ => rall _ | with_reducible apply Mach.tryActive_kept | with_reducible apply Mach.noBundle_kept | with_reducible apply Mach.setFlash_kept | with_reducible apply Mach.takeBundle_kept | with_reducible apply Mach.setSec_kept | with_reducible apply Mach.rejectBundle_kept)
  split
  · repeat' (first | assumption | exact fun _ _ => rfl | exact fun _ => rfl | exact rall _ | exact fun _ _ => rall _ | with_reducible apply Mach.tryActive_kept | with_reducible apply Mach.noBundle_kept | with_reducible apply Mach.setFlash_kept | with_reducible apply Mach.takeBundle_kept | with_reducible apply Mach.setSec_kept | with_reducible apply Mach.rejectBundle_kept)
  · dsimp only
    split
    · repeat' (first | assumption | exact fun _ _ => rfl | exact fun _ => rfl | exact rall _ | exact fun _ _ => rall _ | with_reducible apply Mach.tryActive_kept | with_reducible apply Mach.noBundle_kept | with_reducible apply Mach.setFlash_kept | with_reducible apply Mach.takeBundle_kept | with_reducible apply Mach.setSec_kept | with_reducible apply Mach.rejectBundle_kept)
    · repeat' (first | assumption | exact fun _ _ => rfl | exact fun _ => rfl | exact rall _ | exact fun _ _ => rall _ | with_reducible apply Mach.tryActive_kept | with_reducible apply Mach.noBundle_kept | with_reducible apply Mach.setFlash_kept | with_reducible apply Mach.takeBundle_kept | with_reducible apply Mach.setSec_kept | with_reducible apply Mach.rejectBundle_kept)
theorem bundleSelect_kept {m : Mach} (preports : P .reports) (psec : P .sec) (peng : P .eng) (rQSQ_CSSWAP : R REG_QSQ_CSSWAP) (rQSQ_DTERR : R REG_QSQ_DTERR) (rRST_PHASE : R REG_RST_PHASE) (rSEC_BOOT : R REG_SEC_BOOT) (rSEC_ERR : R REG_SEC_ERR) (rSEQ_STAT : ∀ i, i < 20 → R (REG_SEQ_STAT i)) (hm : Kept P R m0 m) : Kept P R m0 (bundleSelect m) := by
  grind [bundleSelect, RST_PHASE_PHASE, SEC_BOOT_VALID, set_kept, Mach.tryPending_kept, foldl_kept]
theorem Mach.startPools_kept {m : Mach} (preports : P .reports) (pcal : P .cal) (pbuf : P .buf) (rPOOL_CFG : ∀ i, i < 8 → R (REG_POOL_CFG i)) (rPOOL_ERR : R REG_POOL_ERR) (rPOOL_RETSTAT : ∀ i, i < 8 → R (REG_POOL_RETSTAT i)) (rPOOL_STAT : ∀ i, i < 8 → R (REG_POOL_STAT i)) (hm : Kept P R m0 m) : Kept P R m0 (Mach.startPools m) := by
  grind [Mach.startPools, POOL_CFG_EN, poolEnWrite_kept, set_kept, foldl_kept]
theorem Mach.startFigures_kept {m : Mach} (b : Bundle) (preports : P .reports) (rCAL_ERR : R REG_CAL_ERR) (rCAL_FRONT : ∀ i, i < 16 → R (REG_CAL_FRONT i)) (rCAL_STATUS : R REG_CAL_STATUS) (hm : Kept P R m0 m) : Kept P R m0 (Mach.startFigures m b) := by
  grind [Mach.startFigures, CAL_STATUS_SWAP_PENDING, when_kept, Mach.swapValidate_kept, set_kept, foldl_kept]
theorem Mach.ibzinStart_kept {m : Mach} (preports : P .reports) (pcal : P .cal) (pmedia : P .media) (pmotion : P .motion) (pdie : P .die) (pspn : P .spn) (ppwr : P .pwr) (pbuf : P .buf) (pdma : P .dma) (phost : P .host) (pcmd : P .cmd) (psec : P .sec) (peng : P .eng) (pevt : P .evt) (prst : P .rst) (rall : ∀ a, R a) (hm : Kept P R m0 m) : Kept P R m0 (Mach.ibzinStart m) := by
  unfold Mach.ibzinStart
  repeat' (first | with_reducible assumption | split | with_reducible apply ladEnWrite_kept | with_reducible apply set_kept | with_reducible apply when_kept | with_reducible apply Mach.syncAct_kept | with_reducible apply Mach.restoreDepop_kept | with_reducible apply Mach.setDie_kept | with_reducible apply fetchEnWrite_kept | with_reducible apply trainEnWrite_kept | with_reducible apply foldl_kept | dsimp only | intro _ _ _ | intro _ _ | intro _ | grind [SPN_CTRL_EN, PWR_RAILS_GOOD])
theorem Mach.runLadder_kept {m : Mach} (psec : P .sec) (rSEC_SLOTS : R REG_SEC_SLOTS) (rSEC_VAULT : R REG_SEC_VAULT) (hm : Kept P R m0 m) : Kept P R m0 (Mach.runLadder m) := by
  grind [Mach.runLadder, Mach.refreshKeys_kept, Mach.loadKey_kept, foldl_kept]
theorem Mach.resumeRecorder_kept {m : Mach} (pevt : P .evt) (hm : Kept P R m0 m) : Kept P R m0 (Mach.resumeRecorder m) := by
  grind [Mach.resumeRecorder, Mach.setEvt_kept, foldl_kept]
theorem Mach.writeIdentity_kept {m : Mach} (pfreeCtr : P .freeCtr) (pevt : P .evt) (hm : Kept P R m0 m) : Kept P R m0 (Mach.writeIdentity m) := by
  grind [Mach.writeIdentity, nextFree_kept, Mach.putSlot_kept, foldl_kept]
theorem Mach.bootRecords_kept {m : Mach} (pfreeCtr : P .freeCtr) (preports : P .reports) (pout : P .out) (ppwr : P .pwr) (pbuf : P .buf) (phost : P .host) (pcmd : P .cmd) (psec : P .sec) (pevt : P .evt) (prst : P .rst) (rBUF_CNT : R REG_BUF_CNT) (rBUF_ERR : R REG_BUF_ERR) (rBUF_FIRST : R REG_BUF_FIRST) (rCCH_MISS : R REG_CCH_MISS) (rEVT_LGR_CTRL : R REG_EVT_LGR_CTRL) (rEVT_LGR_TAIL : R REG_EVT_LGR_TAIL) (rQSQ_CMDTAB : R REG_QSQ_CMDTAB) (hm : Kept P R m0 m) : Kept P R m0 (Mach.bootRecords m) := by
  unfold Mach.bootRecords
  repeat' (first | with_reducible assumption | split | with_reducible apply Mach.writeIdentity_kept | with_reducible apply Mach.setEvt_kept | with_reducible apply Mach.resumeRecorder_kept | with_reducible apply Mach.addRecord_kept | with_reducible apply when_kept | with_reducible apply Mach.drain_kept | with_reducible apply set_kept | with_reducible apply Mach.recordLost_kept | with_reducible apply report_kept | with_reducible apply Mach.setRst_kept | with_reducible apply Mach.shortfall_kept | with_reducible apply Mach.setFlash_kept | with_reducible apply foldl_kept | dsimp only | intro _ _ _ | intro _ _ | intro _ | grind [EVT_LGR_CTRL_EN])
theorem Mach.configure_kept {m : Mach} (b : Bundle) (preports : P .reports) (pcal : P .cal) (ppwr : P .pwr) (pbuf : P .buf) (rall : ∀ a, R a) (hm : Kept P R m0 m) : Kept P R m0 (Mach.configure m b) := by
  grind [Mach.configure, Mach.startFigures_kept, Mach.startPools_kept, Mach.applyConfig_kept, Mach.setPwr_kept, foldl_kept]
theorem Mach.startSeqs_kept {m : Mach} (peng : P .eng) (rSEQ_CTRL : ∀ i, i < 20 → R (REG_SEQ_CTRL i)) (rSEQ_STAT : ∀ i, i < 20 → R (REG_SEQ_STAT i)) (hm : Kept P R m0 m) : Kept P R m0 (Mach.startSeqs m) := by
  grind [Mach.startSeqs, SEQ_CTRL_RUN, Mach.restartSeq_kept, set_kept, foldl_kept]
theorem configApply_kept {m : Mach} (pall : ∀ p, p ≠ .fuses → P p) (rall : ∀ a, R a) (hm : Kept P R m0 m) : Kept P R m0 (configApply m) := by
  unfold configApply
  repeat' (first | with_reducible assumption | split | with_reducible apply Mach.configure_kept | with_reducible apply Mach.runLadder_kept | with_reducible apply set_kept | with_reducible apply Mach.setRst_kept | with_reducible apply Mach.startSeqs_kept | with_reducible apply Mach.ibzinStart_kept | with_reducible apply Mach.drivePad_kept | with_reducible apply Mach.setPwr_kept | with_reducible apply Mach.bootRecords_kept | with_reducible apply Mach.applyCap_kept | with_reducible apply Mach.enterMode_kept | with_reducible apply Mach.actuatorsChanged_kept | with_reducible apply Mach.setLimit_kept | with_reducible apply foldl_kept | with_reducible apply when_kept | dsimp only | intro _ _ _ | intro _ _ | intro _ | grind [RST_PHASE_PHASE, SEC_SEAL_SEALED, PWR_SPIN_DELAY, SEC_BOOT_OPTMIS])
theorem spinDelayEnd_kept {m : Mach} (preports : P .reports) (pout : P .out) (pdie : P .die) (pspn : P .spn) (ppwr : P .pwr) (phost : P .host) (rHIF_LINK : ∀ i, i < 2 → R (REG_HIF_LINK i)) (rPWR_MODE : R REG_PWR_MODE) (rPWR_SPIN : R REG_PWR_SPIN) (rRST_PHASE : R REG_RST_PHASE) (rSPN_DEMAND : R REG_SPN_DEMAND) (rSPN_ERR : R REG_SPN_ERR) (rSPN_OBS : R REG_SPN_OBS) (rSPN_SPEED : R REG_SPN_SPEED) (rSPN_STAT : R REG_SPN_STAT) (rSPN_TARGET : R REG_SPN_TARGET) (rSRV_STAT : ∀ i, i < 4 → R (REG_SRV_STAT i)) (hm : Kept P R m0 m) : Kept P R m0 (spinDelayEnd m) := by
  grind [spinDelayEnd, RST_PHASE_PHASE, RST_PHASE_DONE, PWR_SPIN_DELAY, PWR_SPIN_ELIG, PWR_FLEET_AUTO, set_kept, Mach.spinUp_kept, foldl_kept]
theorem clkGateWrite_kept (req : Requester) (half : Fin 2) (w : Word) {m : Mach} (preports : P .reports) (prst : P .rst) (rCLK_ERR : R REG_CLK_ERR) (rCLK_GATE0 : R REG_CLK_GATE0) (rCLK_GATE1 : R REG_CLK_GATE1) (rCLK_GOOD0 : R REG_CLK_GOOD0) (rCLK_GOOD1 : R REG_CLK_GOOD1) (hm : Kept P R m0 m) : Kept P R m0 (clkGateWrite req half w m) := by
  grind [clkGateWrite, CLK_ERR_GATE, CLK_GATE0_OPEN, CLK_GATE1_OPEN, flagEvent_kept, set_kept, Mach.setGood_kept, Mach.setRst_kept, foldl_kept]
theorem sleepEntry_kept {m : Mach} (preports : P .reports) (pout : P .out) (pcal : P .cal) (pdie : P .die) (pbuf : P .buf) (phost : P .host) (prst : P .rst) (rBUF_CNT : R REG_BUF_CNT) (rBUF_ERR : R REG_BUF_ERR) (rBUF_FIRST : R REG_BUF_FIRST) (rCCH_MISS : R REG_CCH_MISS) (rCLK_GOOD0 : R REG_CLK_GOOD0) (rCLK_GOOD1 : R REG_CLK_GOOD1) (rCLK_STAT : R REG_CLK_STAT) (rHIF_LINK : ∀ i, i < 2 → R (REG_HIF_LINK i)) (rPOOL_RETSTAT : ∀ i, i < 8 → R (REG_POOL_RETSTAT i)) (rPOOL_STAT : ∀ i, i < 8 → R (REG_POOL_STAT i)) (rPWR_MODE : R REG_PWR_MODE) (rPWR_RAILS : R REG_PWR_RAILS) (rSCB_STAT : R REG_SCB_STAT) (hm : Kept P R m0 m) : Kept P R m0 (sleepEntry m) := by
  unfold sleepEntry
  dsimp only
  repeat' (first | assumption | (intro _ hx; exact hx) | split | with_reducible apply Mach.setBuf_kept | with_reducible apply Mach.bufSleep_kept | with_reducible apply set_kept | with_reducible apply Mach.setDie_kept | with_reducible apply Mach.linkOff_kept | with_reducible apply Mach.enterMode_kept | with_reducible apply Mach.setRst_kept | with_reducible apply foldl_kept | with_reducible apply when_kept | (intro m hm))
  all_goals grind (splits := 30) (ematch := 12) (gen := 12) (instances := 8000) [CLK_GOOD0_GOOD, CLK_GOOD1_GOOD, CLK_STAT_RPLL_LOCK, PWR_RAILS_GOOD, Mach.setBuf_kept, filter_wf, poison_wf, heal_wf, same_wf, nil_wf, initial_wf, BufState.initial, Mach.bufSleep_kept, set_kept, Mach.setDie_kept, Mach.linkOff_kept, Mach.enterMode_kept, Mach.setRst_kept, foldl_kept]
theorem Mach.wakeFields_kept {m : Mach} (pcal : P .cal) (pmedia : P .media) (pmotion : P .motion) (pspn : P .spn) (pbuf : P .buf) (pdma : P .dma) (pcmd : P .cmd) (peng : P .eng) (rall : ∀ a, R a) (hm : Kept P R m0 m) : Kept P R m0 (Mach.wakeFields m) := by
  unfold Mach.wakeFields
  exact mk_cal_media_motion_spn_buf_dma_cmd_eng_kept _ _ _ _ _ _ _ _ (mk_regs_kept _ hm (resetFields_wf _ _) (fun a h => absurd (rall a) h)) pcal pmedia pmotion pspn pbuf pdma pcmd peng id
theorem wake_kept (p : PortId) (perst : Bool) {m : Mach} (preports : P .reports) (pout : P .out) (pcal : P .cal) (pmedia : P .media) (pmotion : P .motion) (pdie : P .die) (pspn : P .spn) (ppwr : P .pwr) (pbuf : P .buf) (pdma : P .dma) (phost : P .host) (pcmd : P .cmd) (psec : P .sec) (peng : P .eng) (pevt : P .evt) (prst : P .rst) (rall : ∀ a, R a) (hm : Kept P R m0 m) : Kept P R m0 (wake p perst m) := by
  unfold wake
  repeat' (first | with_reducible assumption | split | with_reducible apply when_kept | with_reducible apply Mach.setPort_kept | with_reducible apply set_kept | with_reducible apply Mach.wakeFields_kept | with_reducible apply Mach.firstFigure_kept | with_reducible apply Mach.setRst_kept | with_reducible apply Mach.softReset_kept | with_reducible apply Mach.startFigures_kept | with_reducible apply Mach.applyConfig_kept | with_reducible apply Mach.loadStores_kept | with_reducible apply Mach.startSeqs_kept | with_reducible apply Mach.setLimit_kept | with_reducible apply Mach.applyCap_kept | with_reducible apply Mach.ibzinStart_kept | with_reducible apply Mach.enterMode_kept | with_reducible apply foldl_kept | dsimp only | intro _ _ _ | intro _ _ | intro _ | grind [PWR_RAILS_GOOD, CLK_GOOD0_GOOD, CLK_GATE0_OPEN, CLK_GOOD1_GOOD, CLK_GATE1_OPEN, CLK_STAT_RPLL_LOCK, SEC_BOOT_ACTIVE])
end Sys2Proof.Machine
end

