-- ==== Sys2Proof/Laws/KeptBlockReset.lean ====
section
/-! SUPPORT. What the operations of Machine/BlockReset.lean keep: for each, the parts and the registers it may change. -/
set_option Elab.async false
set_option linter.all false
namespace Sys2Proof.Machine
open Sys2Proof
variable {P : Part → Prop} {R : Nat → Prop} {m0 : Mach}
theorem blockResetChn_kept (n : Stream) {m : Mach} (preports : P .reports) (pmedia : P .media) (peng : P .eng) (rall : ∀ a, R a) (hm : Kept P R m0 m) : Kept P R m0 (blockResetChn n m) := by
  grind [blockResetChn, Mach.blockReset_kept, Mach.clearChan_kept, foldl_kept]
theorem blockResetLad_kept (a : Actuator) {m : Mach} (preports : P .reports) (pmedia : P .media) (peng : P .eng) (rall : ∀ a, R a) (hm : Kept P R m0 m) : Kept P R m0 (blockResetLad a m) := by
  grind [blockResetLad, Mach.blockReset_kept, Mach.clearLad_kept, foldl_kept]
theorem blockResetSrv_kept (a : Actuator) {m : Mach} (preports : P .reports) (pmotion : P .motion) (peng : P .eng) (rall : ∀ a, R a) (hm : Kept P R m0 m) : Kept P R m0 (blockResetSrv a m) := by
  grind [blockResetSrv, Mach.blockReset_kept, Mach.clearSrv_kept, foldl_kept]
theorem blockResetHsq_kept (a : Actuator) {m : Mach} (preports : P .reports) (pmotion : P .motion) (peng : P .eng) (rall : ∀ a, R a) (hm : Kept P R m0 m) : Kept P R m0 (blockResetHsq a m) := by
  grind [blockResetHsq, HSQ_CTRL_EN, Mach.blockReset_kept, Mach.clearHsq_kept, foldl_kept]
theorem blockResetDec_kept {m : Mach} (preports : P .reports) (pmedia : P .media) (peng : P .eng) (rall : ∀ a, R a) (hm : Kept P R m0 m) : Kept P R m0 (blockResetDec m) := by
  grind [blockResetDec, DEC_BUSY_ENG, Mach.blockReset_kept, Mach.clearDec_kept, foldl_kept]
theorem blockResetPrg_kept {m : Mach} (preports : P .reports) (pmotion : P .motion) (peng : P .eng) (rall : ∀ a, R a) (hm : Kept P R m0 m) : Kept P R m0 (blockResetPrg m) := by
  grind [blockResetPrg, Mach.blockReset_kept, Mach.clearPrg_kept, foldl_kept]
theorem blockResetQdr_kept {m : Mach} (preports : P .reports) (pmotion : P .motion) (peng : P .eng) (rall : ∀ a, R a) (hm : Kept P R m0 m) : Kept P R m0 (blockResetQdr m) := by
  grind [blockResetQdr, QDR_CTRL_EN, QDR_TORQ_TOTAL, Mach.blockReset_kept, Mach.clearQdr_kept, foldl_kept]
theorem blockResetSpn_kept {m : Mach} (preports : P .reports) (pspn : P .spn) (peng : P .eng) (rall : ∀ a, R a) (hm : Kept P R m0 m) : Kept P R m0 (blockResetSpn m) := by
  grind [blockResetSpn, Mach.blockReset_kept, Mach.clearSpn_kept, foldl_kept]
theorem blockResetVcm_kept {m : Mach} (preports : P .reports) (pdie : P .die) (peng : P .eng) (rall : ∀ a, R a) (hm : Kept P R m0 m) : Kept P R m0 (blockResetVcm m) := by
  grind [blockResetVcm, Mach.blockReset_kept, Mach.clearVcm_kept, foldl_kept]
theorem blockResetPool_kept {m : Mach} (preports : P .reports) (pcal : P .cal) (pbuf : P .buf) (peng : P .eng) (rall : ∀ a, R a) (hm : Kept P R m0 m) : Kept P R m0 (blockResetPool m) := by
  grind [blockResetPool, POOL_CFG_EN, Mach.blockReset_kept, Mach.clearPools_kept, foldl_kept]
theorem blockResetCch_kept {m : Mach} (preports : P .reports) (pbuf : P .buf) (peng : P .eng) (rall : ∀ a, R a) (hm : Kept P R m0 m) : Kept P R m0 (blockResetCch m) := by
  grind [blockResetCch, CCH_CTRL_EN, CCH_MOP_STAT_BUSY, Mach.blockReset_kept, Mach.clearCache_kept, foldl_kept]
theorem blockResetScb_kept {m : Mach} (preports : P .reports) (pbuf : P .buf) (peng : P .eng) (rall : ∀ a, R a) (hm : Kept P R m0 m) : Kept P R m0 (blockResetScb m) := by
  grind [blockResetScb, SCB_STAT_BUSY, Mach.blockReset_kept, Mach.clearScrub_kept, foldl_kept]
theorem blockResetDma_kept {m : Mach} (preports : P .reports) (pdma : P .dma) (peng : P .eng) (rall : ∀ a, R a) (hm : Kept P R m0 m) : Kept P R m0 (blockResetDma m) := by
  grind [blockResetDma, DMA_CTRL_EN, Mach.blockReset_kept, Mach.clearDma_kept, foldl_kept]
theorem blockResetQsq_kept {m : Mach} (preports : P .reports) (phost : P .host) (peng : P .eng) (rall : ∀ a, R a) (hm : Kept P R m0 m) : Kept P R m0 (blockResetQsq m) := by
  grind [blockResetQsq, QSQ_CTRL_FETCH_EN0, QSQ_CTRL_FETCH_EN1, QSQ_STAT_BUSY, QSQ_STAT_INFLIGHT0, QSQ_STAT_INFLIGHT1, Mach.blockReset_kept, mk_host_kept, foldl_kept]
theorem blockResetRelease_kept (b : Fin 39) {m : Mach} (prst : P .rst) (rall : ∀ a, R a) (hm : Kept P R m0 m) : Kept P R m0 (blockResetRelease b m) := by
  grind [blockResetRelease, Mach.setBlockBusy_kept, Mach.applyConfig_kept, Mach.setRst_kept, foldl_kept]
theorem preampRailLimit_kept (a : Actuator) {m : Mach} (preports : P .reports) (pdie : P .die) (rHSQ_FAULT : ∀ i, i < 4 → R (REG_HSQ_FAULT i)) (rPWR_RAILS : R REG_PWR_RAILS) (rSRV_STAT : ∀ i, i < 4 → R (REG_SRV_STAT i)) (hm : Kept P R m0 m) : Kept P R m0 (preampRailLimit a m) := by
  grind [preampRailLimit, PWR_RAILS_GOOD, Mach.setDie_kept, Mach.setBitAt_kept, paFaultAssert_kept, report_kept, foldl_kept]
end Sys2Proof.Machine
end

