-- ==== Sys2Proof/Laws/KeptSwap.lean ====
section
/-! SUPPORT. What the operations of Machine/Swap.lean keep: for each, the parts and the registers it may change. -/
set_option Elab.async false
set_option linter.all false
namespace Sys2Proof.Machine
open Sys2Proof
variable {P : Part → Prop} {R : Nat → Prop} {m0 : Mach}
theorem Mach.resumeActivation_kept {m : Mach} (pcmd : P .cmd) (psec : P .sec) (rCAL_CTRL : R REG_CAL_CTRL) (rCAL_STATUS : R REG_CAL_STATUS) (rFAB_PEND : ∀ i, i < 4 → R (REG_FAB_PEND i)) (rFAB_STATUS : R REG_FAB_STATUS) (rQSQ_CMDTAB : R REG_QSQ_CMDTAB) (rQSQ_CTRL : R REG_QSQ_CTRL) (rSEC_BOOT : R REG_SEC_BOOT) (hm : Kept P R m0 m) : Kept P R m0 (Mach.resumeActivation m) := by
  unfold Mach.resumeActivation
  dsimp only
  repeat' split
  all_goals grind (splits := 30) (ematch := 12) (gen := 12) (instances := 8000) [QSQ_CTRL_FETCH_EN0, QSQ_CTRL_FETCH_EN1, SEC_BOOT_ACTIVE, calFreeze_kept, set_kept, Mach.finish_kept, Mach.setCmdState_kept, mk_sec_kept, foldl_kept]
theorem seqCsdataWrite_kept (req : Requester) (q : SeqId) (k : Fin 4) (w : Word) {m : Mach} (preports : P .reports) (peng : P .eng) (rSEC_ERR : R REG_SEC_ERR) (rSEQ_CSADDR : ∀ i, i < 20 → R (REG_SEQ_CSADDR i)) (rSEQ_CSDATA : ∀ i j, i < 20 → j < 4 → R (REG_SEQ_CSDATA i j)) (hm : Kept P R m0 m) : Kept P R m0 (seqCsdataWrite req q k w m) := by
  grind [seqCsdataWrite, SEQ_CSADDR_ADDR, SEQ_CSADDR_AUTOINC, Mach.notBc_kept, setWord_kept, Mach.putStore_kept, when_kept, set_kept, foldl_kept]
theorem qsqDtdataWrite_kept (req : Requester) (w : Word) {m : Mach} (preports : P .reports) (peng : P .eng) (rQSQ_DTDATA : R REG_QSQ_DTDATA) (rQSQ_DTERR : R REG_QSQ_DTERR) (rSEC_ERR : R REG_SEC_ERR) (hm : Kept P R m0 m) : Kept P R m0 (qsqDtdataWrite req w m) := by
  grind [qsqDtdataWrite, QSQ_DTADDR_TABLE, QSQ_DTADDR_OPC, Mach.notBc_kept, setWord_kept, Mach.putEntry_kept, foldl_kept]
theorem seqRunWrite_kept (req : Requester) (q : SeqId) (run : Bool) {m : Mach} (preports : P .reports) (peng : P .eng) (rSEC_ERR : R REG_SEC_ERR) (rSEQ_CTRL : ∀ i, i < 20 → R (REG_SEQ_CTRL i)) (rSEQ_STAT : ∀ i, i < 20 → R (REG_SEQ_STAT i)) (hm : Kept P R m0 m) : Kept P R m0 (seqRunWrite req q run m) := by
  grind [seqRunWrite, SEQ_CTRL_RUN, Mach.notBc_kept, Mach.restartSeq_kept, set_kept, foldl_kept]
theorem qsqCsswap_kept {m : Mach} (preports : P .reports) (pcmd : P .cmd) (psec : P .sec) (peng : P .eng) (rCAL_CTRL : R REG_CAL_CTRL) (rCAL_STATUS : R REG_CAL_STATUS) (rFAB_PEND : ∀ i, i < 4 → R (REG_FAB_PEND i)) (rFAB_STATUS : R REG_FAB_STATUS) (rQSQ_CMDTAB : R REG_QSQ_CMDTAB) (rQSQ_CSSWAP : R REG_QSQ_CSSWAP) (rQSQ_CTRL : R REG_QSQ_CTRL) (rSEC_BOOT : R REG_SEC_BOOT) (rSEQ_STAT : ∀ i, i < 20 → R (REG_SEQ_STAT i)) (hm : Kept P R m0 m) : Kept P R m0 (qsqCsswap m) := by
  grind [qsqCsswap, SEQ_CTRL_RUN, CAL_STATUS_FROZEN, QSQ_CSSWAP_BUSY, QSQ_CSSWAP_ERR, Mach.resumeActivation_kept, set_kept, Mach.flipBanks_kept, flagEvent_kept, foldl_kept]
theorem swapBusyEnd_kept {m : Mach} (rQSQ_CSSWAP : R REG_QSQ_CSSWAP) (hm : Kept P R m0 m) : Kept P R m0 (swapBusyEnd m) := by
  grind [swapBusyEnd, QSQ_CSSWAP_BUSY, set_kept, foldl_kept]
end Sys2Proof.Machine
end

