-- ==== Sys2Proof/Laws/KeptBus.lean ====
section
/-! SUPPORT. What the operations of Machine/Bus.lean keep: for each, the parts and the registers it may change. -/
set_option Elab.async false
set_option linter.all false
namespace Sys2Proof.Machine
open Sys2Proof
variable {P : Part → Prop} {R : Nat → Prop} {m0 : Mach}
theorem Mach.plainWrite_kept {m : Mach} (bc : Bool) (a : Nat) (w : Word) (rall : ∀ a, R a) (hm : Kept P R m0 m) : Kept P R m0 (Mach.plainWrite m bc a w) := by
  grind [Mach.plainWrite, setWord_kept, foldl_kept]
theorem Mach.clearLatch_kept {m : Mach} (valid : Loc) (others : List Nat) (w : Word) (hl : R valid.addr) (ho : ∀ a ∈ others, R a) (hm : Kept P R m0 m) : Kept P R m0 (Mach.clearLatch m valid others w) := by
  unfold Mach.clearLatch
  split
  · refine foldl_mem_kept (f := fun m a => m.setWord a 0) (fun m x hx h => setWord_kept _ _ h ?_) hm
    cases List.mem_cons.1 hx with
    | inl e => rw [e]; exact hl
    | inr e => exact ho _ e
  · exact hm
theorem routeCal_kept (a : Nat) (w : Word) {m : Mach} (preports : P .reports) (rCAL_BACK : ∀ i, i < 16 → R (REG_CAL_BACK i)) (rCAL_CTRL : R REG_CAL_CTRL) (rCAL_ERR : R REG_CAL_ERR) (rCAL_STATUS : R REG_CAL_STATUS) (rFAB_PEND : ∀ i, i < 4 → R (REG_FAB_PEND i)) (rFAB_STATUS : R REG_FAB_STATUS) (hm : Kept P R m0 m) : ∀ m', (routeCal a w m) = some m' → Kept P R m0 m' := by
  intro m' h
  unfold routeCal at h
  grind (splits := 30) [calFreeze_kept, calSwapCancel_kept, calSwap_kept, calBackWrite_kept, foldl_kept, Option.map_eq_some_iff]
theorem Mach.afeEnWrite_kept {m : Mach} (w : Word) (pmedia : P .media) (rAFE_EN : R REG_AFE_EN) (rAFE_LANE_STAT : ∀ i, i < 16 → R (REG_AFE_LANE_STAT i)) (hm : Kept P R m0 m) : Kept P R m0 (Mach.afeEnWrite m w) := by
  grind [Mach.afeEnWrite, AFE_EN_LANE_EN, set_kept, setWord_kept, mk_media_kept, foldl_kept]
theorem Mach.holdGain_kept {m : Mach} (l : Lane) (rAFE_LANE_STAT : ∀ i, i < 16 → R (REG_AFE_LANE_STAT i)) (hm : Kept P R m0 m) : Kept P R m0 (Mach.holdGain m l) := by
  grind [Mach.holdGain, AFE_LANE_STAT_READY, AFE_LANE_CFG_AGC_EN, AFE_LANE_STAT_VGA, AFE_LANE_CFG_VGA_MAN, set_kept, foldl_kept]
theorem routeChannel_kept (bc : Bool) (a : Nat) (w : Word) {m : Mach} (preports : P .reports) (pmedia : P .media) (rall : ∀ a, R a) (hm : Kept P R m0 m) : ∀ m', (routeChannel bc a w m) = some m' → Kept P R m0 m' := by
  intro m' h
  unfold routeChannel at h
  grind (splits := 30) [CHN_CTRL_EN, Mach.afeEnWrite_kept, Mach.holdGain_kept, Mach.plainWrite_kept, decCntclr_kept, chnEnWrite_kept, chnCdataWrite_kept, chnCntclr_kept, foldl_kept, Option.map_eq_some_iff]
theorem routeMedia_kept (bc : Bool) (a : Nat) (w : Word) {m : Mach} (preports : P .reports) (pmedia : P .media) (pmotion : P .motion) (ppwr : P .pwr) (pcmd : P .cmd) (rall : ∀ a, R a) (hm : Kept P R m0 m) : ∀ m', (routeMedia bc a w m) = some m' → Kept P R m0 m' := by
  intro m' h
  unfold routeMedia at h
  grind (splits := 30) [Mach.geometryWritten_kept, Mach.plainWrite_kept, fmtEnWrite_kept, fmtCntclr_kept, ladEnWrite_kept, ladStart_kept, ladRaise_kept, ladCntclr_kept, foldl_kept, Option.map_eq_some_iff]
theorem Mach.srvCfgWrite_kept {m : Mach} (bc : Bool) (x : Actuator) (w : Word) (preports : P .reports) (pmotion : P .motion) (rall : ∀ a, R a) (hm : Kept P R m0 m) : Kept P R m0 (Mach.srvCfgWrite m bc x w) := by
  grind [Mach.srvCfgWrite, SRV_CFG_LEAD, Mach.plainWrite_kept, srvLeadWrite_kept, foldl_kept]
theorem routeServo_kept (bc : Bool) (a : Nat) (w : Word) {m : Mach} (preports : P .reports) (pcal : P .cal) (pmotion : P .motion) (pdie : P .die) (rall : ∀ a, R a) (hm : Kept P R m0 m) : ∀ m', (routeServo bc a w m) = some m' → Kept P R m0 m' := by
  intro m' h
  unfold routeServo at h
  grind (splits := 30) [srvCtrlWrite_kept, Mach.srvCfgWrite_kept, srvTargetWrite_kept, srvPost_kept, srvRroLoad_kept, foldl_kept, Option.map_eq_some_iff]
theorem Mach.qdrActWrite_kept {m : Mach} (bc : Bool) (x : Actuator) (w : Word) (preports : P .reports) (pmotion : P .motion) (rall : ∀ a, R a) (hm : Kept P R m0 m) : Kept P R m0 (Mach.qdrActWrite m bc x w) := by
  grind [Mach.qdrActWrite, QDR_ACT_DEPOP, QDR_ACT_HEAD_DEPOP, Mach.plainWrite_kept, when_kept, qualWrite_kept, depopWrite_kept, mk_motion_kept, foldl_kept]
theorem routeMotion_kept (bc : Bool) (a : Nat) (w : Word) {m : Mach} (preports : P .reports) (pout : P .out) (pmotion : P .motion) (pcmd : P .cmd) (rall : ∀ a, R a) (hm : Kept P R m0 m) : ∀ m', (routeMotion bc a w m) = some m' → Kept P R m0 m' := by
  intro m' h
  unfold routeMotion at h
  grind (splits := 30) [qdrBankWrite_kept, qdrCoefWrite_kept, prgAbort_kept, prgStart_kept, Mach.qdrActWrite_kept, Mach.pumpLink_kept, Mach.plainWrite_kept, foldl_kept, Option.map_eq_some_iff]
theorem Mach.spnBrkWrite_kept {m : Mach} (bc : Bool) (w : Word) (preports : P .reports) (pdie : P .die) (pspn : P .spn) (rall : ∀ a, R a) (hm : Kept P R m0 m) : Kept P R m0 (Mach.spnBrkWrite m bc w) := by
  grind [Mach.spnBrkWrite, Mach.demandAct_kept, Mach.plainWrite_kept, spnBrkFaultClear_kept, foldl_kept]
theorem Mach.spnFaultWrite_kept {m : Mach} (bc : Bool) (w : Word) (preports : P .reports) (pdie : P .die) (pspn : P .spn) (rall : ∀ a, R a) (hm : Kept P R m0 m) : Kept P R m0 (Mach.spnFaultWrite m bc w) := by
  grind [Mach.spnFaultWrite, Mach.plainWrite_kept, Mach.demandAct_kept, Mach.spnEnter_kept, foldl_kept]
theorem routePower_kept (bc : Bool) (a : Nat) (w : Word) {m : Mach} (preports : P .reports) (pdie : P .die) (pspn : P .spn) (rall : ∀ a, R a) (hm : Kept P R m0 m) : ∀ m', (routePower bc a w m) = some m' → Kept P R m0 m' := by
  intro m' h
  unfold routePower at h
  grind (splits := 30) [spnCtrlWrite_kept, spnDemandWrite_kept, Mach.spnBrkWrite_kept, Mach.spnFaultWrite_kept, when_kept, load_kept, unload_kept, foldl_kept, Option.map_eq_some_iff]
theorem Mach.poolCfgWrite_kept {m : Mach} (bc : Bool) (p : PoolId) (w : Word) (preports : P .reports) (pcal : P .cal) (pbuf : P .buf) (rall : ∀ a, R a) (hm : Kept P R m0 m) : Kept P R m0 (Mach.poolCfgWrite m bc p w) := by
  grind [Mach.poolCfgWrite, POOL_CFG_EN, Mach.plainWrite_kept, poolEnWrite_kept, foldl_kept]
theorem routePool_kept (bc : Bool) (a : Nat) (w : Word) {m : Mach} (preports : P .reports) (pout : P .out) (pcal : P .cal) (pbuf : P .buf) (rall : ∀ a, R a) (hm : Kept P R m0 m) : ∀ m', (routePool bc a w m) = some m' → Kept P R m0 m' := by
  intro m' h
  unfold routePool at h
  grind (splits := 30) [POOL_FIRST_VALID, POOL_CFG_EN, poolFree_kept, poolRetire_kept, poolBankretWrite_kept, Mach.clearLatch_kept, poolMbWrite_kept, Mach.poolCfgWrite_kept, Mach.plainWrite_kept, foldl_kept, Option.map_eq_some_iff]
theorem Mach.mopCmdWrite_kept {m : Mach} (bc : Bool) (w : Word) (preports : P .reports) (pbuf : P .buf) (rall : ∀ a, R a) (hm : Kept P R m0 m) : Kept P R m0 (Mach.mopCmdWrite m bc w) := by
  grind [Mach.mopCmdWrite, Mach.plainWrite_kept, mopCleanRange_kept, mopInvalidateRange_kept, mopCleanInvalidateRange_kept, mopCleanSetWay_kept, mopInvalidateSetWay_kept, mopCleanInvalidateSetWay_kept, mopCleanInvalidateAll_kept, foldl_kept]
theorem routeBuffer_kept (bc : Bool) (a : Nat) (w : Word) {m : Mach} (preports : P .reports) (pout : P .out) (pcal : P .cal) (pbuf : P .buf) (rall : ∀ a, R a) (hm : Kept P R m0 m) : ∀ m', (routeBuffer bc a w m) = some m' → Kept P R m0 m' := by
  intro m' h
  unfold routeBuffer at h
  grind (splits := 30) [BUF_FIRST_VALID, CCH_ERRLOC_VALID, Mach.clearLatch_kept, cchEnWrite_kept, Mach.mopCmdWrite_kept, when_kept, scbGo_kept, scbAbort_kept, foldl_kept, Option.map_eq_some_iff]
theorem Mach.chCfgWrite_kept {m : Mach} (bc : Bool) (n : DmaCh) (w : Word) (preports : P .reports) (rall : ∀ a, R a) (hm : Kept P R m0 m) : Kept P R m0 (Mach.chCfgWrite m bc n w) := by
  grind [Mach.chCfgWrite, DMA_CH_CFG_PRIO, DMA_ERR_CTRL_IGN, Mach.plainWrite_kept, when_kept, flagEvent_kept, foldl_kept]
theorem routeDma_kept (bc : Bool) (a : Nat) (w : Word) {m : Mach} (preports : P .reports) (pout : P .out) (pcal : P .cal) (pbuf : P .buf) (pdma : P .dma) (rall : ∀ a, R a) (hm : Kept P R m0 m) : ∀ m', (routeDma bc a w m) = some m' → Kept P R m0 m' := by
  intro m' h
  unfold routeDma at h
  grind (splits := 30) [DMA_CH_HALT_VALID, dmaBlockWrite_kept, dmaEnWrite_kept, Mach.chCfgWrite_kept, dmaChAbort_kept, dmaChRetry_kept, Mach.clearLatch_kept, foldl_kept, Option.map_eq_some_iff]
theorem Mach.keyCmdWrite_kept {m : Mach} (req : Requester) (w : Word) (preports : P .reports) (psec : P .sec) (rSEC_ERR : R REG_SEC_ERR) (rSEC_SLOTS : R REG_SEC_SLOTS) (rSEC_VAULT : R REG_SEC_VAULT) (hm : Kept P R m0 m) : Kept P R m0 (Mach.keyCmdWrite m req w) := by
  grind [Mach.keyCmdWrite, SEC_ERR_KEYOP, keyLoadSlot_kept, keyClearSlot_kept, keyClearAll_kept, Mach.notBc_kept, flagEvent_kept, foldl_kept]
theorem routeSecurity_kept (req : Requester) (a : Nat) (w : Word) {m : Mach} (preports : P .reports) (pcal : P .cal) (pmedia : P .media) (pmotion : P .motion) (pdie : P .die) (pspn : P .spn) (ppwr : P .pwr) (pbuf : P .buf) (pdma : P .dma) (phost : P .host) (pcmd : P .cmd) (psec : P .sec) (peng : P .eng) (pevt : P .evt) (prst : P .rst) (rall : ∀ a, R a) (hm : Kept P R m0 m) : ∀ m', (routeSecurity req a w m) = some m' → Kept P R m0 m' := by
  intro m' h
  unfold routeSecurity at h
  grind (splits := 30) [SEC_SEAL_SEALED, Mach.notBc_kept, set_kept, Mach.keyCmdWrite_kept, dbgGrant_kept, dbgRefuse_kept, trainEnWrite_kept, fetchEnWrite_kept, foldl_kept, Option.map_eq_some_iff]
theorem routeStores_kept (req : Requester) (a : Nat) (w : Word) {m : Mach} (preports : P .reports) (pcmd : P .cmd) (psec : P .sec) (peng : P .eng) (rall : ∀ a, R a) (hm : Kept P R m0 m) : ∀ m', (routeStores req a w m) = some m' → Kept P R m0 m' := by
  intro m' h
  unfold routeStores at h
  grind (splits := 30) [Mach.plainWrite_kept, Mach.notBc_kept, qsqDtdataWrite_kept, qsqCsswap_kept, seqRunWrite_kept, seqCsdataWrite_kept, foldl_kept, Option.map_eq_some_iff]
theorem blockResetBit_kept (b : Nat) {m : Mach} (preports : P .reports) (pcal : P .cal) (pmedia : P .media) (pmotion : P .motion) (pdie : P .die) (pspn : P .spn) (ppwr : P .pwr) (pbuf : P .buf) (pdma : P .dma) (phost : P .host) (peng : P .eng) (rall : ∀ a, R a) (hm : Kept P R m0 m) : Kept P R m0 (blockResetBit b m) := by
  simp only [blockResetBit]
  repeat' split
  all_goals grind (splits := 30) (ematch := 12) (gen := 12) (instances := 8000) [blockResetChn_kept, blockResetFmt_kept, blockResetLad_kept, blockResetSrv_kept, blockResetHsq_kept, blockResetDec_kept, blockResetPrg_kept, blockResetQdr_kept, blockResetSpn_kept, blockResetVcm_kept, blockResetPool_kept, blockResetCch_kept, blockResetScb_kept, blockResetDma_kept, blockResetQsq_kept, foldl_mem_kept, Fin.isLt]
theorem routeSystem_kept (req : Requester) (bc : Bool) (a : Nat) (w : Word) {m : Mach} (preports : P .reports) (pout : P .out) (pcal : P .cal) (pmedia : P .media) (pmotion : P .motion) (pdie : P .die) (pspn : P .spn) (ppwr : P .pwr) (pbuf : P .buf) (pdma : P .dma) (phost : P .host) (pcmd : P .cmd) (psec : P .sec) (peng : P .eng) (pevt : P .evt) (prst : P .rst) (rall : ∀ a, R a) (hm : Kept P R m0 m) : ∀ m', (routeSystem req bc a w m) = some m' → Kept P R m0 m' := by
  intro m' h
  unfold routeSystem at h
  grind (splits := 30) [EVT_LGR_CTRL_EN, blockResetBit_kept, clkGateWrite_kept, rstSwrstWrite_kept, evtFirstClear_kept, evtCntclr_kept, Mach.plainWrite_kept, evtSwraise_kept, recProgram_kept, recErase_kept, foldl_kept, Option.map_eq_some_iff]
theorem Mach.writeRegister_kept {m : Mach} (req : Requester) (a : Nat) (w : Word) (preports : P .reports) (pout : P .out) (pcal : P .cal) (pmedia : P .media) (pmotion : P .motion) (pdie : P .die) (pspn : P .spn) (ppwr : P .pwr) (pbuf : P .buf) (pdma : P .dma) (phost : P .host) (pcmd : P .cmd) (psec : P .sec) (peng : P .eng) (pevt : P .evt) (prst : P .rst) (rall : ∀ a, R a) (hm : Kept P R m0 m) : Kept P R m0 (Mach.writeRegister m req a w) := by
  unfold Mach.writeRegister
  dsimp only
  split
  · next m' h =>
    obtain ⟨o, ho, he⟩ := List.exists_of_findSome?_eq_some h
    simp only [List.mem_cons, List.not_mem_nil, or_false] at ho
    replace he : o = some m' := he
    subst he
    rcases ho with ho | ho | ho | ho | ho | ho | ho | ho | ho | ho | ho | ho
    · apply routeCal_kept (m := m) <;> first | exact ho.symm | assumption | exact rall _ | exact fun _ _ => rall _ | exact fun _ _ _ _ => rall _
    · apply routeChannel_kept (m := m) <;> first | exact ho.symm | assumption | exact rall _ | exact fun _ _ => rall _ | exact fun _ _ _ _ => rall _
    · apply routeMedia_kept (m := m) <;> first | exact ho.symm | assumption | exact rall _ | exact fun _ _ => rall _ | exact fun _ _ _ _ => rall _
    · apply routeServo_kept (m := m) <;> first | exact ho.symm | assumption | exact rall _ | exact fun _ _ => rall _ | exact fun _ _ _ _ => rall _
    · apply routeMotion_kept (m := m) <;> first | exact ho.symm | assumption | exact rall _ | exact fun _ _ => rall _ | exact fun _ _ _ _ => rall _
    · apply routePower_kept (m := m) <;> first | exact ho.symm | assumption | exact rall _ | exact fun _ _ => rall _ | exact fun _ _ _ _ => rall _
    · apply routePool_kept (m := m) <;> first | exact ho.symm | assumption | exact rall _ | exact fun _ _ => rall _ | exact fun _ _ _ _ => rall _
    · apply routeBuffer_kept (m := m) <;> first | exact ho.symm | assumption | exact rall _ | exact fun _ _ => rall _ | exact fun _ _ _ _ => rall _
    · apply routeDma_kept (m := m) <;> first | exact ho.symm | assumption | exact rall _ | exact fun _ _ => rall _ | exact fun _ _ _ _ => rall _
    · apply routeSecurity_kept (m := m) <;> first | exact ho.symm | assumption | exact rall _ | exact fun _ _ => rall _ | exact fun _ _ _ _ => rall _
    · apply routeStores_kept (m := m) <;> first | exact ho.symm | assumption | exact rall _ | exact fun _ _ => rall _ | exact fun _ _ _ _ => rall _
    · apply routeSystem_kept (m := m) <;> first | exact ho.symm | assumption | exact rall _ | exact fun _ _ => rall _ | exact fun _ _ _ _ => rall _
  · exact Mach.plainWrite_kept _ _ _ rall hm
theorem Mach.busWrite_kept {m : Mach} (req : Requester) (a : Nat) (w : Word) (preports : P .reports) (pout : P .out) (pcal : P .cal) (pmedia : P .media) (pmotion : P .motion) (pdie : P .die) (pspn : P .spn) (ppwr : P .pwr) (pbuf : P .buf) (pdma : P .dma) (phost : P .host) (pcmd : P .cmd) (psec : P .sec) (peng : P .eng) (pevt : P .evt) (prst : P .rst) (rall : ∀ a, R a) (hm : Kept P R m0 m) : Kept P R m0 (Mach.busWrite m req a w) := by
  grind [Mach.busWrite, Mach.clocked_kept, Mach.writeRegister_kept, foldl_kept]
theorem Mach.bar0Write_kept {m : Mach} (p : PortId) (o : Nat) (w : Word) (pout : P .out) (phost : P .host) (rHIF_CC : ∀ i, i < 2 → R (REG_HIF_CC i)) (rHIF_LINK : ∀ i, i < 2 → R (REG_HIF_LINK i)) (rQSQ_ARB : ∀ i, i < 2 → R (REG_QSQ_ARB i)) (hm : Kept P R m0 m) : Kept P R m0 (Mach.bar0Write m p o w) := by
  unfold Mach.bar0Write
  repeat' (first | with_reducible assumption | split | with_reducible apply Mach.setCtrl_kept | with_reducible apply Mach.unmaskInt_kept | with_reducible apply Mach.syncCtrl_kept | with_reducible apply foldl_kept | with_reducible apply when_kept | dsimp only | intro _ _ _ | intro _ _ | intro _ | grind [])
theorem Mach.configSpaceWrite_kept {m : Mach} (p : PortId) (o : Nat) (w : Word) (phost : P .host) (hm : Kept P R m0 m) : Kept P R m0 (Mach.configSpaceWrite m p o w) := by
  simp only [Mach.configSpaceWrite]
  repeat' split
  all_goals grind (splits := 30) (ematch := 12) (gen := 12) (instances := 8000) [Mach.setPort_kept, foldl_mem_kept, Fin.isLt]
theorem registerWrite_kept (req : Requester) (a : BitVec 32) (len : Fin 5) (w : Word) {m : Mach} (preports : P .reports) (pout : P .out) (pcal : P .cal) (pmedia : P .media) (pmotion : P .motion) (pdie : P .die) (pspn : P .spn) (ppwr : P .pwr) (pbuf : P .buf) (pdma : P .dma) (phost : P .host) (pcmd : P .cmd) (psec : P .sec) (peng : P .eng) (pevt : P .evt) (prst : P .rst) (rall : ∀ a, R a) (hm : Kept P R m0 m) : Kept P R m0 (registerWrite req a len w m) := by
  unfold registerWrite
  dsimp only
  repeat' split
  all_goals grind (splits := 30) (ematch := 12) (gen := 12) (instances := 8000) [emit_kept, Mach.bar0Write_kept, Mach.configSpaceWrite_kept, Mach.watched_kept, Mach.busWrite_kept, foldl_kept]
theorem bar2Write_kept (o : BitVec 22) (len : Fin 5) (w : Word) {m : Mach} (preports : P .reports) (pout : P .out) (pcal : P .cal) (pmedia : P .media) (pmotion : P .motion) (pdie : P .die) (pspn : P .spn) (ppwr : P .pwr) (pbuf : P .buf) (pdma : P .dma) (phost : P .host) (pcmd : P .cmd) (psec : P .sec) (peng : P .eng) (pevt : P .evt) (prst : P .rst) (rall : ∀ a, R a) (hm : Kept P R m0 m) : Kept P R m0 (bar2Write o len w m) := by
  grind [bar2Write, Mach.watched_kept, Mach.busWrite_kept, foldl_kept]
end Sys2Proof.Machine
end

