-- ==== Sys2Proof/Laws/KeptEngine.lean ====
section
/-! SUPPORT. What the operations of Machine/Engine.lean keep: for each, the parts and the registers it may change. -/
set_option Elab.async false
set_option linter.all false
namespace Sys2Proof.Machine
open Sys2Proof
variable {P : Part → Prop} {R : Nat → Prop} {m0 : Mach}
theorem Mach.makeSafe_kept {m : Mach} (q : SeqId) (pfreeCtr : P .freeCtr) (preports : P .reports) (pout : P .out) (pmedia : P .media) (pmotion : P .motion) (ppwr : P .pwr) (rFMT_CNT_ABORT : ∀ i, i < 8 → R (REG_FMT_CNT_ABORT i)) (rFMT_CNT_MISS : ∀ i, i < 8 → R (REG_FMT_CNT_MISS i)) (rFMT_ERR : ∀ i, i < 8 → R (REG_FMT_ERR i)) (rFMT_STAT : ∀ i, i < 8 → R (REG_FMT_STAT i)) (rHSQ_ERR : ∀ i, i < 4 → R (REG_HSQ_ERR i)) (rHSQ_SEL : ∀ i j, i < 4 → j < 2 → R (REG_HSQ_SEL i j)) (rKSV_GENHI : R REG_KSV_GENHI) (rKSV_GENLO : R REG_KSV_GENLO) (hm : Kept P R m0 m) : Kept P R m0 (Mach.makeSafe m q) := by
  grind [Mach.makeSafe, HSQ_SEL_GATE, Mach.setHsq_kept, nextFree_kept, Mach.tear_kept, Mach.lowerGate_kept, foldl_kept]
theorem Mach.seqHalt_kept {m : Mach} (q : SeqId) (cause : Nat) (pfreeCtr : P .freeCtr) (preports : P .reports) (pout : P .out) (pmedia : P .media) (pmotion : P .motion) (ppwr : P .pwr) (rFMT_CNT_ABORT : ∀ i, i < 8 → R (REG_FMT_CNT_ABORT i)) (rFMT_CNT_MISS : ∀ i, i < 8 → R (REG_FMT_CNT_MISS i)) (rFMT_ERR : ∀ i, i < 8 → R (REG_FMT_ERR i)) (rFMT_STAT : ∀ i, i < 8 → R (REG_FMT_STAT i)) (rHSQ_ERR : ∀ i, i < 4 → R (REG_HSQ_ERR i)) (rHSQ_SEL : ∀ i j, i < 4 → j < 2 → R (REG_HSQ_SEL i j)) (rKSV_GENHI : R REG_KSV_GENHI) (rKSV_GENLO : R REG_KSV_GENLO) (rSEQ_HALT : ∀ i, i < 20 → R (REG_SEQ_HALT i)) (rSEQ_STAT : ∀ i, i < 20 → R (REG_SEQ_STAT i)) (hm : Kept P R m0 m) : Kept P R m0 (Mach.seqHalt m q cause) := by
  unfold Mach.seqHalt
  dsimp only
  repeat' (first | assumption | (intro _ hx; exact hx) | split | with_reducible apply set_kept | with_reducible apply Mach.makeSafe_kept | with_reducible apply report_kept | with_reducible apply foldl_kept | with_reducible apply when_kept | (intro m hm))
  all_goals grind (splits := 30) (ematch := 12) (gen := 12) (instances := 8000) [SEQ_STAT_ADDR, SEQ_HALT_VALID, SEQ_HALT_CAUSE, SEQ_HALT_ADDR, SEQ_STAT_STATE, set_kept, Mach.makeSafe_kept, report_kept, foldl_kept]
theorem Mach.setFlags_kept {m : Mach} (q : SeqId) (r : AluResult) (pfreeCtr : P .freeCtr) (peng : P .eng) (hm : Kept P R m0 m) : Kept P R m0 (Mach.setFlags m q r) := by
  grind [Mach.setFlags, Mach.setSeq_kept, nextFree_kept, foldl_kept]
theorem Mach.aluEffect_kept {m : Mach} (q : SeqId) (u : Micro) {m' : Mach} (pall : ∀ p, p ≠ .fuses → P p) (rall : ∀ a, R a) (hm : Kept P R m0 m) (hm' : Kept P R m0 m') : Kept P R m0 (Mach.aluEffect m q u m') := by
  grind [Mach.aluEffect, Mach.setFlags_kept, Mach.setGp_kept, Mach.setSeq_kept, Mach.watched_kept, Mach.busWrite_kept, foldl_kept]
theorem Mach.fopEffect_kept {m : Mach} (q : SeqId) (u : Micro) {m' : Mach} (peng : P .eng) (rSEQ_STAT : ∀ i, i < 20 → R (REG_SEQ_STAT i)) (hm : Kept P R m0 m) (hm' : Kept P R m0 m') : Kept P R m0 (Mach.fopEffect m q u m') := by
  grind [Mach.fopEffect, SEQ_STAT_FOP_OUT, set_kept, Mach.setSeq_kept, foldl_kept]
theorem Mach.loopEffect_kept {m : Mach} (q : SeqId) (u : Micro) {m' : Mach} (peng : P .eng) (hm : Kept P R m0 m) (hm' : Kept P R m0 m') : Kept P R m0 (Mach.loopEffect m q u m') := by
  grind [Mach.loopEffect, Mach.setSeq_kept, foldl_kept]
theorem Mach.goTo_kept {m : Mach} (q : SeqId) (next : Nat) (peng : P .eng) (rSEQ_STAT : ∀ i, i < 20 → R (REG_SEQ_STAT i)) (hm : Kept P R m0 m) : Kept P R m0 (Mach.goTo m q next) := by
  grind [Mach.goTo, SEQ_STAT_ADDR, SEQ_STAT_STATE, set_kept, Mach.setSeq_kept, foldl_kept]
theorem Mach.firstCycle_kept {m : Mach} (kind : WordKind) (q : SeqId) (inp : Bool) (xop : Micro → Mach → Mach) (u : Micro) (fixed : Bool) (pall : ∀ p, p ≠ .fuses → P p) (rall : ∀ a, R a) (hm : Kept P R m0 m) (hxop : ∀ (y0 : Micro) (y1 : Mach), Kept P R m0 y1 → Kept P R m0 (xop y0 y1)) : Kept P R m0 (Mach.firstCycle m kind q inp xop u fixed) := by
  grind (splits := 40) (ematch := 20) (gen := 20) (instances := 20000) [Mach.firstCycle, SEQ_CNT_CORR, SEQ_STAT_STATE, when_kept, incSat_kept, Mach.seqHalt_kept, Mach.loopEffect_kept, Mach.aluEffect_kept, Mach.fopEffect_kept, Mach.goTo_kept, set_kept, Mach.setSeq_kept, foldl_kept]
theorem Mach.seqWord_kept (kind : WordKind) (q : SeqId) (inp : Bool) (xop : Micro → Mach → Mach) {m : Mach} (pall : ∀ p, p ≠ .fuses → P p) (rall : ∀ a, R a) (hxop : ∀ (y0 : Micro) (y1 : Mach), Kept P R m0 y1 → Kept P R m0 (xop y0 y1)) (hm : Kept P R m0 m) : Kept P R m0 (Mach.seqWord kind q inp xop m) := by
  grind [Mach.seqWord, Mach.firstCycle_kept, Mach.seqHalt_kept, foldl_kept]
theorem Mach.noXop_kept (x : Micro) {m : Mach} (hm : Kept P R m0 m) : Kept P R m0 (Mach.noXop x m) := by
  grind [Mach.noXop, foldl_kept]
theorem aluAddRow_kept (q : SeqId) (inp : Bool) {m : Mach} (pall : ∀ p, p ≠ .fuses → P p) (rall : ∀ a, R a) (hm : Kept P R m0 m) : Kept P R m0 (aluAddRow q inp m) := by
  grind [aluAddRow, Mach.seqWord_kept, Mach.noXop_kept, foldl_kept]
theorem aluSubRow_kept (q : SeqId) (inp : Bool) {m : Mach} (pall : ∀ p, p ≠ .fuses → P p) (rall : ∀ a, R a) (hm : Kept P R m0 m) : Kept P R m0 (aluSubRow q inp m) := by
  grind [aluSubRow, Mach.seqWord_kept, Mach.noXop_kept, foldl_kept]
theorem aluAndRow_kept (q : SeqId) (inp : Bool) {m : Mach} (pall : ∀ p, p ≠ .fuses → P p) (rall : ∀ a, R a) (hm : Kept P R m0 m) : Kept P R m0 (aluAndRow q inp m) := by
  grind [aluAndRow, Mach.seqWord_kept, Mach.noXop_kept, foldl_kept]
theorem aluOrRow_kept (q : SeqId) (inp : Bool) {m : Mach} (pall : ∀ p, p ≠ .fuses → P p) (rall : ∀ a, R a) (hm : Kept P R m0 m) : Kept P R m0 (aluOrRow q inp m) := by
  grind [aluOrRow, Mach.seqWord_kept, Mach.noXop_kept, foldl_kept]
theorem aluXorRow_kept (q : SeqId) (inp : Bool) {m : Mach} (pall : ∀ p, p ≠ .fuses → P p) (rall : ∀ a, R a) (hm : Kept P R m0 m) : Kept P R m0 (aluXorRow q inp m) := by
  grind [aluXorRow, Mach.seqWord_kept, Mach.noXop_kept, foldl_kept]
theorem aluShiftLeft_kept (q : SeqId) (inp : Bool) {m : Mach} (pall : ∀ p, p ≠ .fuses → P p) (rall : ∀ a, R a) (hm : Kept P R m0 m) : Kept P R m0 (aluShiftLeft q inp m) := by
  grind [aluShiftLeft, Mach.seqWord_kept, Mach.noXop_kept, foldl_kept]
theorem aluShiftRight_kept (q : SeqId) (inp : Bool) {m : Mach} (pall : ∀ p, p ≠ .fuses → P p) (rall : ∀ a, R a) (hm : Kept P R m0 m) : Kept P R m0 (aluShiftRight q inp m) := by
  grind [aluShiftRight, Mach.seqWord_kept, Mach.noXop_kept, foldl_kept]
theorem aluMove_kept (q : SeqId) (inp : Bool) {m : Mach} (pall : ∀ p, p ≠ .fuses → P p) (rall : ∀ a, R a) (hm : Kept P R m0 m) : Kept P R m0 (aluMove q inp m) := by
  grind [aluMove, Mach.seqWord_kept, Mach.noXop_kept, foldl_kept]
theorem aluCompare_kept (q : SeqId) (inp : Bool) {m : Mach} (pall : ∀ p, p ≠ .fuses → P p) (rall : ∀ a, R a) (hm : Kept P R m0 m) : Kept P R m0 (aluCompare q inp m) := by
  grind [aluCompare, Mach.seqWord_kept, Mach.noXop_kept, foldl_kept]
theorem aluLdr_kept (q : SeqId) (inp : Bool) {m : Mach} (pall : ∀ p, p ≠ .fuses → P p) (rall : ∀ a, R a) (hm : Kept P R m0 m) : Kept P R m0 (aluLdr q inp m) := by
  grind [aluLdr, Mach.seqWord_kept, Mach.noXop_kept, foldl_kept]
theorem aluStr_kept (q : SeqId) (inp : Bool) {m : Mach} (pall : ∀ p, p ≠ .fuses → P p) (rall : ∀ a, R a) (hm : Kept P R m0 m) : Kept P R m0 (aluStr q inp m) := by
  grind [aluStr, Mach.seqWord_kept, Mach.noXop_kept, foldl_kept]
theorem aluRegRead_kept (q : SeqId) (inp : Bool) {m : Mach} (pall : ∀ p, p ≠ .fuses → P p) (rall : ∀ a, R a) (hm : Kept P R m0 m) : Kept P R m0 (aluRegRead q inp m) := by
  grind [aluRegRead, Mach.seqWord_kept, Mach.noXop_kept, foldl_kept]
theorem aluRegWrite_kept (q : SeqId) (inp : Bool) {m : Mach} (pall : ∀ p, p ≠ .fuses → P p) (rall : ∀ a, R a) (hm : Kept P R m0 m) : Kept P R m0 (aluRegWrite q inp m) := by
  grind [aluRegWrite, Mach.seqWord_kept, Mach.noXop_kept, foldl_kept]
theorem seqNopWord_kept (q : SeqId) (inp : Bool) {m : Mach} (pall : ∀ p, p ≠ .fuses → P p) (rall : ∀ a, R a) (hm : Kept P R m0 m) : Kept P R m0 (seqNopWord q inp m) := by
  grind [seqNopWord, Mach.seqWord_kept, Mach.noXop_kept, foldl_kept]
theorem fopRead_kept (q : SeqId) (inp : Bool) {m : Mach} (pall : ∀ p, p ≠ .fuses → P p) (rall : ∀ a, R a) (hm : Kept P R m0 m) : Kept P R m0 (fopRead q inp m) := by
  grind [fopRead, Mach.seqWord_kept, Mach.noXop_kept, foldl_kept]
theorem fopWrite_kept (q : SeqId) (inp : Bool) {m : Mach} (pall : ∀ p, p ≠ .fuses → P p) (rall : ∀ a, R a) (hm : Kept P R m0 m) : Kept P R m0 (fopWrite q inp m) := by
  grind [fopWrite, Mach.seqWord_kept, Mach.noXop_kept, foldl_kept]
theorem seqConditionMet_kept (q : SeqId) (inp : Bool) {m : Mach} (pfreeCtr : P .freeCtr) (preports : P .reports) (pout : P .out) (pmedia : P .media) (pmotion : P .motion) (ppwr : P .pwr) (peng : P .eng) (rFMT_CNT_ABORT : ∀ i, i < 8 → R (REG_FMT_CNT_ABORT i)) (rFMT_CNT_MISS : ∀ i, i < 8 → R (REG_FMT_CNT_MISS i)) (rFMT_ERR : ∀ i, i < 8 → R (REG_FMT_ERR i)) (rFMT_STAT : ∀ i, i < 8 → R (REG_FMT_STAT i)) (rHSQ_ERR : ∀ i, i < 4 → R (REG_HSQ_ERR i)) (rHSQ_SEL : ∀ i j, i < 4 → j < 2 → R (REG_HSQ_SEL i j)) (rKSV_GENHI : R REG_KSV_GENHI) (rKSV_GENLO : R REG_KSV_GENLO) (rSEQ_HALT : ∀ i, i < 20 → R (REG_SEQ_HALT i)) (rSEQ_STAT : ∀ i, i < 20 → R (REG_SEQ_STAT i)) (hm : Kept P R m0 m) : Kept P R m0 (seqConditionMet q inp m) := by
  grind [seqConditionMet, Mach.seqHalt_kept, Mach.goTo_kept, foldl_kept]
theorem Mach.mbreqEffect_kept (q : SeqId) (u : Micro) {m : Mach} (preports : P .reports) (pout : P .out) (pcal : P .cal) (pbuf : P .buf) (peng : P .eng) (rBUF_CNT : R REG_BUF_CNT) (rBUF_ERR : R REG_BUF_ERR) (rBUF_FIRST : R REG_BUF_FIRST) (rCCH_MISS : R REG_CCH_MISS) (rPOOL_ERR : R REG_POOL_ERR) (rPOOL_MBSTAT : ∀ i, i < 16 → R (REG_POOL_MBSTAT i)) (rPOOL_RETSTAT : ∀ i, i < 8 → R (REG_POOL_RETSTAT i)) (rPOOL_STAT : ∀ i, i < 8 → R (REG_POOL_STAT i)) (hm : Kept P R m0 m) : Kept P R m0 (Mach.mbreqEffect q u m) := by
  grind [Mach.mbreqEffect, POOL_MBSTAT_K, set_kept, Mach.setSeq_kept, poolMbWrite_kept, foldl_kept]
theorem mbreq_kept (q : SeqId) (inp : Bool) {m : Mach} (pall : ∀ p, p ≠ .fuses → P p) (rall : ∀ a, R a) (hm : Kept P R m0 m) : Kept P R m0 (mbreq q inp m) := by
  grind [mbreq, Mach.seqWord_kept, Mach.mbreqEffect_kept, foldl_kept]
theorem free_kept (q : SeqId) (inp : Bool) {m : Mach} (pall : ∀ p, p ≠ .fuses → P p) (rall : ∀ a, R a) (hm : Kept P R m0 m) : Kept P R m0 (free q inp m) := by
  grind [free, Mach.seqWord_kept, poolFree_kept, foldl_kept]
theorem event_kept (q : SeqId) (inp : Bool) {m : Mach} (pall : ∀ p, p ≠ .fuses → P p) (rall : ∀ a, R a) (hm : Kept P R m0 m) : Kept P R m0 (event q inp m) := by
  grind [event, Mach.seqWord_kept, emit_kept, report_kept, foldl_kept]
theorem Mach.offerFop_kept {m : Mach} (p : Fin 4) (port : Port) (pcal : P .cal) (peng : P .eng) (rCAL_STATUS : R REG_CAL_STATUS) (rFAB_PEND : ∀ i, i < 4 → R (REG_FAB_PEND i)) (rFAB_STATUS : R REG_FAB_STATUS) (hm : Kept P R m0 m) : Kept P R m0 (Mach.offerFop m p port) := by
  grind [Mach.offerFop, Mach.setSeq_kept, Mach.enqueue_kept, Mach.setEng_kept, foldl_kept]
theorem Mach.moveFop_kept {m : Mach} (q : SeqId) (f : Fop) (preports : P .reports) (pout : P .out) (pbuf : P .buf) (peng : P .eng) (rBUF_CNT : R REG_BUF_CNT) (rBUF_ERR : R REG_BUF_ERR) (rBUF_FIRST : R REG_BUF_FIRST) (rCCH_MISS : R REG_CCH_MISS) (hm : Kept P R m0 m) : Kept P R m0 (Mach.moveFop m q f) := by
  grind [Mach.moveFop, Mach.fabRead_kept, Mach.setSeq_kept, Mach.fabWrite_kept, foldl_kept]
theorem portRequest_kept (port : Port) (tag : FabClass) (less1 : Fin 8) {m : Mach} (pcal : P .cal) (pdma : P .dma) (peng : P .eng) (rCAL_STATUS : R REG_CAL_STATUS) (rFAB_PEND : ∀ i, i < 4 → R (REG_FAB_PEND i)) (rFAB_STATUS : R REG_FAB_STATUS) (hm : Kept P R m0 m) : Kept P R m0 (portRequest port tag less1 m) := by
  grind [portRequest, Mach.offerFop_kept, fabricRequest_kept, foldl_kept]
theorem fopComplete_kept (q : SeqId) {m : Mach} (preports : P .reports) (pout : P .out) (pbuf : P .buf) (peng : P .eng) (rBUF_CNT : R REG_BUF_CNT) (rBUF_ERR : R REG_BUF_ERR) (rBUF_FIRST : R REG_BUF_FIRST) (rCCH_MISS : R REG_CCH_MISS) (rSEQ_STAT : ∀ i, i < 20 → R (REG_SEQ_STAT i)) (hm : Kept P R m0 m) : Kept P R m0 (fopComplete q m) := by
  grind [fopComplete, SEQ_STAT_FOP_OUT, set_kept, Mach.setSeq_kept, Mach.moveFop_kept, foldl_kept]
theorem loaddescRow_kept (n : Stream) (inp : Bool) {m : Mach} (pall : ∀ p, p ≠ .fuses → P p) (rall : ∀ a, R a) (hm : Kept P R m0 m) : Kept P R m0 (loaddescRow n inp m) := by
  grind [loaddescRow, Mach.seqWord_kept, loaddesc_kept, foldl_kept]
theorem loadtrkRow_kept (n : Stream) (inp : Bool) {m : Mach} (pall : ∀ p, p ≠ .fuses → P p) (rall : ∀ a, R a) (hm : Kept P R m0 m) : Kept P R m0 (loadtrkRow n inp m) := by
  grind [loadtrkRow, Mach.seqWord_kept, loadtrk_kept, foldl_kept]
theorem captureRow_kept (n : Stream) (inp : Bool) {m : Mach} (pall : ∀ p, p ≠ .fuses → P p) (rall : ∀ a, R a) (hm : Kept P R m0 m) : Kept P R m0 (captureRow n inp m) := by
  grind [captureRow, Mach.seqWord_kept, capture_kept, foldl_kept]
theorem writeRow_kept (n : Stream) (inp : Bool) {m : Mach} (pall : ∀ p, p ≠ .fuses → P p) (rall : ∀ a, R a) (hm : Kept P R m0 m) : Kept P R m0 (writeRow n inp m) := by
  grind [writeRow, Mach.seqWord_kept, write_kept, foldl_kept]
theorem completeRow_kept (n : Stream) (inp : Bool) {m : Mach} (pall : ∀ p, p ≠ .fuses → P p) (rall : ∀ a, R a) (hm : Kept P R m0 m) : Kept P R m0 (completeRow n inp m) := by
  grind [completeRow, Mach.seqWord_kept, Mach.refreshKeys_kept, complete_kept, foldl_kept]
theorem attemptRow_kept (a : Actuator) (inp : Bool) {m : Mach} (pall : ∀ p, p ≠ .fuses → P p) (rall : ∀ a, R a) (hm : Kept P R m0 m) : Kept P R m0 (attemptRow a inp m) := by
  grind [attemptRow, Mach.seqWord_kept, attempt_kept, foldl_kept]
theorem armcapRow_kept (a : Actuator) (inp : Bool) {m : Mach} (pall : ∀ p, p ≠ .fuses → P p) (rall : ∀ a, R a) (hm : Kept P R m0 m) : Kept P R m0 (armcapRow a inp m) := by
  grind [armcapRow, Mach.seqWord_kept, armcap_kept, foldl_kept]
theorem avgaddRow_kept (a : Actuator) (inp : Bool) {m : Mach} (pall : ∀ p, p ≠ .fuses → P p) (rall : ∀ a, R a) (hm : Kept P R m0 m) : Kept P R m0 (avgaddRow a inp m) := by
  grind [avgaddRow, Mach.seqWord_kept, avgadd_kept, foldl_kept]
theorem rebuildRow_kept (a : Actuator) (inp : Bool) {m : Mach} (pall : ∀ p, p ≠ .fuses → P p) (rall : ∀ a, R a) (hm : Kept P R m0 m) : Kept P R m0 (rebuildRow a inp m) := by
  grind [rebuildRow, Mach.seqWord_kept, rebuild_kept, foldl_kept]
theorem recordRow_kept (a : Actuator) (inp : Bool) {m : Mach} (pall : ∀ p, p ≠ .fuses → P p) (rall : ∀ a, R a) (hm : Kept P R m0 m) : Kept P R m0 (recordRow a inp m) := by
  grind [recordRow, Mach.seqWord_kept, record_kept, foldl_kept]
theorem fetchRow_kept (k : Fin 4) (inp : Bool) {m : Mach} (pall : ∀ p, p ≠ .fuses → P p) (rall : ∀ a, R a) (hm : Kept P R m0 m) : Kept P R m0 (fetchRow k inp m) := by
  grind [fetchRow, Mach.seqWord_kept, fetch_kept, foldl_kept]
theorem wframeRow_kept (a : Actuator) (inp : Bool) {m : Mach} (pall : ∀ p, p ≠ .fuses → P p) (rall : ∀ a, R a) (hm : Kept P R m0 m) : Kept P R m0 (wframeRow a inp m) := by
  grind [wframeRow, Mach.seqWord_kept, wframe_kept, foldl_kept]
theorem rframeRow_kept (a : Actuator) (inp : Bool) {m : Mach} (pall : ∀ p, p ≠ .fuses → P p) (rall : ∀ a, R a) (hm : Kept P R m0 m) : Kept P R m0 (rframeRow a inp m) := by
  grind [rframeRow, Mach.seqWord_kept, rframe_kept, foldl_kept]
theorem selectRow_kept (a : Actuator) (inp : Bool) {m : Mach} (pall : ∀ p, p ≠ .fuses → P p) (rall : ∀ a, R a) (hm : Kept P R m0 m) : Kept P R m0 (selectRow a inp m) := by
  grind [selectRow, Mach.seqWord_kept, select_kept, foldl_kept]
theorem gatearmRow_kept (a : Actuator) (inp : Bool) {m : Mach} (pall : ∀ p, p ≠ .fuses → P p) (rall : ∀ a, R a) (hm : Kept P R m0 m) : Kept P R m0 (gatearmRow a inp m) := by
  grind [gatearmRow, Mach.seqWord_kept, gatearm_kept, foldl_kept]
theorem Mach.handCheck_kept (q : SeqId) (dsm : List (Nat × Nat)) {m : Mach} (preports : P .reports) (pcal : P .cal) (ppwr : P .pwr) (pbuf : P .buf) (pcmd : P .cmd) (peng : P .eng) (rPOOL_ERR : R REG_POOL_ERR) (rPOOL_FIRST : R REG_POOL_FIRST) (rPOOL_RETSTAT : ∀ i, i < 8 → R (REG_POOL_RETSTAT i)) (rPOOL_STAT : ∀ i, i < 8 → R (REG_POOL_STAT i)) (rQSQ_CMDTAB : R REG_QSQ_CMDTAB) (rQSQ_STAT : R REG_QSQ_STAT) (hm : Kept P R m0 m) : Kept P R m0 (Mach.handCheck q dsm m) := by
  grind [Mach.handCheck, Mach.setSeq_kept, check_kept, foldl_kept]
theorem checkRow_kept (k : Fin 4) (inp : Bool) (dsm : List (Nat × Nat)) {m : Mach} (pall : ∀ p, p ≠ .fuses → P p) (rall : ∀ a, R a) (hm : Kept P R m0 m) : Kept P R m0 (checkRow k inp dsm m) := by
  grind [checkRow, Mach.seqWord_kept, Mach.handCheck_kept, foldl_kept]
theorem Mach.handDispatch_kept (q : SeqId) {m : Mach} (ppwr : P .pwr) (pcmd : P .cmd) (peng : P .eng) (rQSQ_CMDTAB : R REG_QSQ_CMDTAB) (hm : Kept P R m0 m) : Kept P R m0 (Mach.handDispatch q m) := by
  grind [Mach.handDispatch, dispatch_kept, Mach.setSeq_kept, foldl_kept]
theorem dispatchRow_kept (k : Option (Fin 4)) (inp : Bool) (fsn : BitVec 32) {m : Mach} (pall : ∀ p, p ≠ .fuses → P p) (rall : ∀ a, R a) (hm : Kept P R m0 m) : Kept P R m0 (dispatchRow k inp fsn m) := by
  simp only [dispatchRow]
  repeat' split
  all_goals grind (splits := 30) (ematch := 12) (gen := 12) (instances := 8000) [Mach.seqWord_kept, Mach.handDispatch_kept, dispatch_kept, foldl_mem_kept, Fin.isLt]
end Sys2Proof.Machine
end

