-- ==== Sys2Proof/Laws/KeptExecMedia.lean ====
section
/-! SUPPORT. What the operations of Machine/ExecMedia.lean keep: for each, the parts and the registers it may change. -/
set_option Elab.async false
set_option linter.all false
namespace Sys2Proof.Machine
open Sys2Proof
variable {P : Part → Prop} {R : Nat → Prop} {m0 : Mach}
theorem clockedFmt_kept (n : Stream) {m : Mach} (preports : P .reports) (pout : P .out) (pmedia : P .media) (pmotion : P .motion) (ppwr : P .pwr) (rFMT_CNT_ABORT : ∀ i, i < 8 → R (REG_FMT_CNT_ABORT i)) (rFMT_CNT_MISS : ∀ i, i < 8 → R (REG_FMT_CNT_MISS i)) (rFMT_ERR : ∀ i, i < 8 → R (REG_FMT_ERR i)) (rFMT_STAT : ∀ i, i < 8 → R (REG_FMT_STAT i)) (rHSQ_ERR : ∀ i, i < 4 → R (REG_HSQ_ERR i)) (rHSQ_SEL : ∀ i j, i < 4 → j < 2 → R (REG_HSQ_SEL i j)) (rKSV_GENHI : R REG_KSV_GENHI) (rKSV_GENLO : R REG_KSV_GENLO) (hm : Kept P R m0 m) : Kept P R m0 (clockedFmt n m) := by
  grind [clockedFmt, Mach.clocked_kept, Mach.writeBoundary_kept, foldl_kept]
end Sys2Proof.Machine
end

