-- ==== Sys2Proof/Laws/RowsBuffer.lean ====
section
/-! SUPPORT. What each command of Machine/ExecBuffer.lean keeps, and that it answers a next state. -/
set_option Elab.async false
set_option linter.all false
namespace Sys2Proof.Machine
open Sys2Proof
variable {P : Part → Prop} {R : Nat → Prop} {m0 : Mach}
theorem execBufferLineAccess_kept (a : LineAccess) (decay : Bool) (s : State) (preports : P .reports) (pout : P .out) (pbuf : P .buf) (rBUF_CNT : R REG_BUF_CNT) (rBUF_ERR : R REG_BUF_ERR) (rBUF_FIRST : R REG_BUF_FIRST) (rCCH_MISS : R REG_CCH_MISS) :
    ∃ t, execBufferLineAccess a decay s = .next { s with m := t } ∧ Kept P R s.m t :=
  ⟨_, rfl, by repeat' (first | with_reducible exact Kept.refl _ | with_reducible assumption | with_reducible apply Mach.clocked_kept | with_reducible apply bufferLineAccess_kept | intro m h)⟩
theorem execBufferFillEnd_kept (s : State) (pbuf : P .buf) (rBUF_STAT : R REG_BUF_STAT) (rRST_PHASE : R REG_RST_PHASE) (rRST_STAT : R REG_RST_STAT) :
    ∃ t, execBufferFillEnd s = .next { s with m := t } ∧ Kept P R s.m t :=
  ⟨_, rfl, by repeat' (first | with_reducible exact Kept.refl _ | with_reducible assumption | with_reducible apply Mach.clocked_kept | with_reducible apply bufferFillEnd_kept | intro m h)⟩
theorem execPoolEnWrite_kept (p : PoolId) (en : Bool) (s : State) (preports : P .reports) (pcal : P .cal) (pbuf : P .buf) (rPOOL_CFG : ∀ i, i < 8 → R (REG_POOL_CFG i)) (rPOOL_ERR : R REG_POOL_ERR) (rPOOL_RETSTAT : ∀ i, i < 8 → R (REG_POOL_RETSTAT i)) (rPOOL_STAT : ∀ i, i < 8 → R (REG_POOL_STAT i)) :
    ∃ t, execPoolEnWrite p en s = .next { s with m := t } ∧ Kept P R s.m t :=
  ⟨_, rfl, by repeat' (first | with_reducible exact Kept.refl _ | with_reducible assumption | with_reducible apply Mach.clocked_kept | with_reducible apply poolEnWrite_kept | intro m h)⟩
theorem execPoolRingInitDone_kept (p : PoolId) (s : State) (preports : P .reports) (pout : P .out) (pcal : P .cal) (pbuf : P .buf) (rBUF_CNT : R REG_BUF_CNT) (rBUF_ERR : R REG_BUF_ERR) (rBUF_FIRST : R REG_BUF_FIRST) (rCCH_MISS : R REG_CCH_MISS) (rPOOL_CFG : ∀ i, i < 8 → R (REG_POOL_CFG i)) :
    ∃ t, execPoolRingInitDone p s = .next { s with m := t } ∧ Kept P R s.m t :=
  ⟨_, rfl, by repeat' (first | with_reducible exact Kept.refl _ | with_reducible assumption | with_reducible apply Mach.clocked_kept | with_reducible apply poolRingInitDone_kept | intro m h)⟩
theorem execPoolMbWrite_kept (mb : Mailbox) (w : Word) (s : State) (preports : P .reports) (pout : P .out) (pcal : P .cal) (pbuf : P .buf) (rBUF_CNT : R REG_BUF_CNT) (rBUF_ERR : R REG_BUF_ERR) (rBUF_FIRST : R REG_BUF_FIRST) (rCCH_MISS : R REG_CCH_MISS) (rPOOL_ERR : R REG_POOL_ERR) (rPOOL_MBSTAT : ∀ i, i < 16 → R (REG_POOL_MBSTAT i)) (rPOOL_RETSTAT : ∀ i, i < 8 → R (REG_POOL_RETSTAT i)) (rPOOL_STAT : ∀ i, i < 8 → R (REG_POOL_STAT i)) :
    ∃ t, execPoolMbWrite mb w s = .next { s with m := t } ∧ Kept P R s.m t :=
  ⟨_, rfl, by repeat' (first | with_reducible exact Kept.refl _ | with_reducible assumption | with_reducible apply Mach.clocked_kept | with_reducible apply poolMbWrite_kept | intro m h)⟩
theorem execPoolGrant_kept (p : PoolId) (s : State) (preports : P .reports) (pout : P .out) (pcal : P .cal) (pbuf : P .buf) (rBUF_CNT : R REG_BUF_CNT) (rBUF_ERR : R REG_BUF_ERR) (rBUF_FIRST : R REG_BUF_FIRST) (rCCH_MISS : R REG_CCH_MISS) (rPOOL_ERR : R REG_POOL_ERR) (rPOOL_MBSTAT : ∀ i, i < 16 → R (REG_POOL_MBSTAT i)) (rPOOL_RETSTAT : ∀ i, i < 8 → R (REG_POOL_RETSTAT i)) (rPOOL_STAT : ∀ i, i < 8 → R (REG_POOL_STAT i)) :
    ∃ t, execPoolGrant p s = .next { s with m := t } ∧ Kept P R s.m t :=
  ⟨_, rfl, by repeat' (first | with_reducible exact Kept.refl _ | with_reducible assumption | with_reducible apply Mach.clocked_kept | with_reducible apply poolGrant_kept | intro m h)⟩
theorem execPoolCacheRefill_kept (p : PoolId) (s : State) (preports : P .reports) (pout : P .out) (pcal : P .cal) (pbuf : P .buf) (rBUF_CNT : R REG_BUF_CNT) (rBUF_ERR : R REG_BUF_ERR) (rBUF_FIRST : R REG_BUF_FIRST) (rCCH_MISS : R REG_CCH_MISS) (rPOOL_ERR : R REG_POOL_ERR) (rPOOL_FIRST : R REG_POOL_FIRST) (rPOOL_RETSTAT : ∀ i, i < 8 → R (REG_POOL_RETSTAT i)) (rPOOL_STAT : ∀ i, i < 8 → R (REG_POOL_STAT i)) :
    ∃ t, execPoolCacheRefill p s = .next { s with m := t } ∧ Kept P R s.m t :=
  ⟨_, rfl, by repeat' (first | with_reducible exact Kept.refl _ | with_reducible assumption | with_reducible apply Mach.clocked_kept | with_reducible apply poolCacheRefill_kept | intro m h)⟩
theorem execPoolFree_kept (h : BitVec 24) (s : State) (preports : P .reports) (pcal : P .cal) (pbuf : P .buf) (rPOOL_ERR : R REG_POOL_ERR) (rPOOL_FIRST : R REG_POOL_FIRST) (rPOOL_RETSTAT : ∀ i, i < 8 → R (REG_POOL_RETSTAT i)) (rPOOL_STAT : ∀ i, i < 8 → R (REG_POOL_STAT i)) :
    ∃ t, execPoolFree h s = .next { s with m := t } ∧ Kept P R s.m t :=
  ⟨_, rfl, by repeat' (first | with_reducible exact Kept.refl _ | with_reducible assumption | with_reducible apply Mach.clocked_kept | with_reducible apply poolFree_kept | intro m h)⟩
theorem execPoolRetire_kept (h : BitVec 24) (s : State) (preports : P .reports) (pbuf : P .buf) (rPOOL_ERR : R REG_POOL_ERR) (rPOOL_RETSTAT : ∀ i, i < 8 → R (REG_POOL_RETSTAT i)) (rPOOL_STAT : ∀ i, i < 8 → R (REG_POOL_STAT i)) :
    ∃ t, execPoolRetire h s = .next { s with m := t } ∧ Kept P R s.m t :=
  ⟨_, rfl, by repeat' (first | with_reducible exact Kept.refl _ | with_reducible assumption | with_reducible apply Mach.clocked_kept | with_reducible apply poolRetire_kept | intro m h)⟩
theorem execPoolBankretWrite_kept (half : Fin 2) (w : Word) (s : State) (preports : P .reports) (pbuf : P .buf) (rPOOL_BANKRET0 : R REG_POOL_BANKRET0) (rPOOL_BANKRET1 : R REG_POOL_BANKRET1) (rPOOL_RETSTAT : ∀ i, i < 8 → R (REG_POOL_RETSTAT i)) (rPOOL_STAT : ∀ i, i < 8 → R (REG_POOL_STAT i)) :
    ∃ t, execPoolBankretWrite half w s = .next { s with m := t } ∧ Kept P R s.m t :=
  ⟨_, rfl, by repeat' (first | with_reducible exact Kept.refl _ | with_reducible assumption | with_reducible apply Mach.clocked_kept | with_reducible apply poolBankretWrite_kept | intro m h)⟩
theorem execCacheAccess_kept (a : LineAccess) (ecc : EccResult) (tagBad : Option (Fin 16 × Bool)) (s : State) (preports : P .reports) (pout : P .out) (pbuf : P .buf) (rBUF_CNT : R REG_BUF_CNT) (rBUF_ERR : R REG_BUF_ERR) (rBUF_FIRST : R REG_BUF_FIRST) (rCCH_BUCKET : ∀ i, i < 16 → R (REG_CCH_BUCKET i)) (rCCH_CNT : R REG_CCH_CNT) (rCCH_ERR : R REG_CCH_ERR) (rCCH_ERRLOC : R REG_CCH_ERRLOC) (rCCH_MISS : R REG_CCH_MISS) :
    ∃ t, execCacheAccess a ecc tagBad s = .next { s with m := t } ∧ Kept P R s.m t :=
  ⟨_, rfl, by repeat' (first | with_reducible exact Kept.refl _ | with_reducible assumption | with_reducible apply Mach.clocked_kept | with_reducible apply cacheAccess_kept | intro m h)⟩
theorem execMissFillDone_kept (k : Nat) (s : State) (preports : P .reports) (pout : P .out) (pbuf : P .buf) (rBUF_CNT : R REG_BUF_CNT) (rBUF_ERR : R REG_BUF_ERR) (rBUF_FIRST : R REG_BUF_FIRST) (rCCH_MISS : R REG_CCH_MISS) :
    ∃ t, execMissFillDone k s = .next { s with m := t } ∧ Kept P R s.m t :=
  ⟨_, rfl, by repeat' (first | with_reducible exact Kept.refl _ | with_reducible assumption | with_reducible apply Mach.clocked_kept | with_reducible apply missFillDone_kept | intro m h)⟩
theorem execBucketLeak_kept (bank : Fin 16) (s : State) (rCCH_BUCKET : ∀ i, i < 16 → R (REG_CCH_BUCKET i)) :
    ∃ t, execBucketLeak bank s = .next { s with m := t } ∧ Kept P R s.m t :=
  ⟨_, rfl, by repeat' (first | with_reducible exact Kept.refl _ | with_reducible assumption | with_reducible apply Mach.clocked_kept | with_reducible apply bucketLeak_kept | intro m h)⟩
theorem execMopCleanRange_kept (s : State) (preports : P .reports) (pbuf : P .buf) (rBUF_CNT : R REG_BUF_CNT) (rBUF_ERR : R REG_BUF_ERR) (rBUF_FIRST : R REG_BUF_FIRST) (rCCH_ERR : R REG_CCH_ERR) (rCCH_MOP_CMD : R REG_CCH_MOP_CMD) (rCCH_MOP_STAT : R REG_CCH_MOP_STAT) :
    ∃ t, execMopCleanRange s = .next { s with m := t } ∧ Kept P R s.m t :=
  ⟨_, rfl, by repeat' (first | with_reducible exact Kept.refl _ | with_reducible assumption | with_reducible apply Mach.clocked_kept | with_reducible apply mopCleanRange_kept | intro m h)⟩
theorem execMopInvalidateRange_kept (s : State) (preports : P .reports) (pbuf : P .buf) (rBUF_CNT : R REG_BUF_CNT) (rBUF_ERR : R REG_BUF_ERR) (rBUF_FIRST : R REG_BUF_FIRST) (rCCH_ERR : R REG_CCH_ERR) (rCCH_MOP_CMD : R REG_CCH_MOP_CMD) (rCCH_MOP_STAT : R REG_CCH_MOP_STAT) :
    ∃ t, execMopInvalidateRange s = .next { s with m := t } ∧ Kept P R s.m t :=
  ⟨_, rfl, by repeat' (first | with_reducible exact Kept.refl _ | with_reducible assumption | with_reducible apply Mach.clocked_kept | with_reducible apply mopInvalidateRange_kept | intro m h)⟩
theorem execMopCleanInvalidateRange_kept (s : State) (preports : P .reports) (pbuf : P .buf) (rBUF_CNT : R REG_BUF_CNT) (rBUF_ERR : R REG_BUF_ERR) (rBUF_FIRST : R REG_BUF_FIRST) (rCCH_ERR : R REG_CCH_ERR) (rCCH_MOP_CMD : R REG_CCH_MOP_CMD) (rCCH_MOP_STAT : R REG_CCH_MOP_STAT) :
    ∃ t, execMopCleanInvalidateRange s = .next { s with m := t } ∧ Kept P R s.m t :=
  ⟨_, rfl, by repeat' (first | with_reducible exact Kept.refl _ | with_reducible assumption | with_reducible apply Mach.clocked_kept | with_reducible apply mopCleanInvalidateRange_kept | intro m h)⟩
theorem execMopCleanSetWay_kept (set : Fin 32768) (way : Fin 16) (s : State) (preports : P .reports) (pbuf : P .buf) (rBUF_CNT : R REG_BUF_CNT) (rBUF_ERR : R REG_BUF_ERR) (rBUF_FIRST : R REG_BUF_FIRST) (rCCH_ERR : R REG_CCH_ERR) (rCCH_MOP_CMD : R REG_CCH_MOP_CMD) (rCCH_MOP_STAT : R REG_CCH_MOP_STAT) :
    ∃ t, execMopCleanSetWay set way s = .next { s with m := t } ∧ Kept P R s.m t :=
  ⟨_, rfl, by repeat' (first | with_reducible exact Kept.refl _ | with_reducible assumption | with_reducible apply Mach.clocked_kept | with_reducible apply mopCleanSetWay_kept | intro m h)⟩
theorem execMopInvalidateSetWay_kept (set : Fin 32768) (way : Fin 16) (s : State) (preports : P .reports) (pbuf : P .buf) (rBUF_CNT : R REG_BUF_CNT) (rBUF_ERR : R REG_BUF_ERR) (rBUF_FIRST : R REG_BUF_FIRST) (rCCH_ERR : R REG_CCH_ERR) (rCCH_MOP_CMD : R REG_CCH_MOP_CMD) (rCCH_MOP_STAT : R REG_CCH_MOP_STAT) :
    ∃ t, execMopInvalidateSetWay set way s = .next { s with m := t } ∧ Kept P R s.m t :=
  ⟨_, rfl, by repeat' (first | with_reducible exact Kept.refl _ | with_reducible assumption | with_reducible apply Mach.clocked_kept | with_reducible apply mopInvalidateSetWay_kept | intro m h)⟩
theorem execMopCleanInvalidateSetWay_kept (set : Fin 32768) (way : Fin 16) (s : State) (preports : P .reports) (pbuf : P .buf) (rBUF_CNT : R REG_BUF_CNT) (rBUF_ERR : R REG_BUF_ERR) (rBUF_FIRST : R REG_BUF_FIRST) (rCCH_ERR : R REG_CCH_ERR) (rCCH_MOP_CMD : R REG_CCH_MOP_CMD) (rCCH_MOP_STAT : R REG_CCH_MOP_STAT) :
    ∃ t, execMopCleanInvalidateSetWay set way s = .next { s with m := t } ∧ Kept P R s.m t :=
  ⟨_, rfl, by repeat' (first | with_reducible exact Kept.refl _ | with_reducible assumption | with_reducible apply Mach.clocked_kept | with_reducible apply mopCleanInvalidateSetWay_kept | intro m h)⟩
theorem execMopCleanInvalidateAll_kept (s : State) (preports : P .reports) (pbuf : P .buf) (rBUF_CNT : R REG_BUF_CNT) (rBUF_ERR : R REG_BUF_ERR) (rBUF_FIRST : R REG_BUF_FIRST) (rCCH_ERR : R REG_CCH_ERR) (rCCH_MOP_CMD : R REG_CCH_MOP_CMD) (rCCH_MOP_STAT : R REG_CCH_MOP_STAT) :
    ∃ t, execMopCleanInvalidateAll s = .next { s with m := t } ∧ Kept P R s.m t :=
  ⟨_, rfl, by repeat' (first | with_reducible exact Kept.refl _ | with_reducible assumption | with_reducible apply Mach.clocked_kept | with_reducible apply mopCleanInvalidateAll_kept | intro m h)⟩
theorem execMopDone_kept (s : State) (rCCH_MOP_STAT : R REG_CCH_MOP_STAT) :
    ∃ t, execMopDone s = .next { s with m := t } ∧ Kept P R s.m t :=
  ⟨_, rfl, by repeat' (first | with_reducible exact Kept.refl _ | with_reducible assumption | with_reducible apply Mach.clocked_kept | with_reducible apply mopDone_kept | intro m h)⟩
theorem execCchEnWrite_kept (en : Bool) (s : State) (preports : P .reports) (rCCH_CTRL : R REG_CCH_CTRL) (rCCH_ERR : R REG_CCH_ERR) :
    ∃ t, execCchEnWrite en s = .next { s with m := t } ∧ Kept P R s.m t :=
  ⟨_, rfl, by repeat' (first | with_reducible exact Kept.refl _ | with_reducible assumption | with_reducible apply Mach.clocked_kept | with_reducible apply cchEnWrite_kept | intro m h)⟩
theorem execScbGo_kept (s : State) (preports : P .reports) (pout : P .out) (pcal : P .cal) (pbuf : P .buf) (rBUF_CNT : R REG_BUF_CNT) (rBUF_ERR : R REG_BUF_ERR) (rBUF_FIRST : R REG_BUF_FIRST) (rCCH_MISS : R REG_CCH_MISS) (rSCB_PASS : R REG_SCB_PASS) (rSCB_STAT : R REG_SCB_STAT) :
    ∃ t, execScbGo s = .next { s with m := t } ∧ Kept P R s.m t :=
  ⟨_, rfl, by repeat' (first | with_reducible exact Kept.refl _ | with_reducible assumption | with_reducible apply Mach.clocked_kept | with_reducible apply scbGo_kept | intro m h)⟩
theorem execScbAbort_kept (s : State) (pcal : P .cal) (pbuf : P .buf) :
    ∃ t, execScbAbort s = .next { s with m := t } ∧ Kept P R s.m t :=
  ⟨_, rfl, by repeat' (first | with_reducible exact Kept.refl _ | with_reducible assumption | with_reducible apply Mach.clocked_kept | with_reducible apply scbAbort_kept | intro m h)⟩
theorem execScrubPassEnd_kept (s : State) (preports : P .reports) (pout : P .out) (pbuf : P .buf) (rBUF_CNT : R REG_BUF_CNT) (rBUF_ERR : R REG_BUF_ERR) (rBUF_FIRST : R REG_BUF_FIRST) (rCCH_MISS : R REG_CCH_MISS) (rSCB_STAT : R REG_SCB_STAT) :
    ∃ t, execScrubPassEnd s = .next { s with m := t } ∧ Kept P R s.m t :=
  ⟨_, rfl, by repeat' (first | with_reducible exact Kept.refl _ | with_reducible assumption | with_reducible apply Mach.clocked_kept | with_reducible apply scrubPassEnd_kept | intro m h)⟩
theorem execDmaDescTake_kept (p : DmaLevel) (s : State) (preports : P .reports) (pout : P .out) (pcal : P .cal) (pbuf : P .buf) (pdma : P .dma) (rBUF_CNT : R REG_BUF_CNT) (rBUF_ERR : R REG_BUF_ERR) (rBUF_FIRST : R REG_BUF_FIRST) (rCCH_MISS : R REG_CCH_MISS) (rDMA_CH_ADDRHI : ∀ i, i < 16 → R (REG_DMA_CH_ADDRHI i)) (rDMA_CH_ADDRLO : ∀ i, i < 16 → R (REG_DMA_CH_ADDRLO i)) (rDMA_CH_HALT : ∀ i, i < 16 → R (REG_DMA_CH_HALT i)) (rDMA_CH_MOVED : ∀ i, i < 16 → R (REG_DMA_CH_MOVED i)) (rDMA_CH_STAT : ∀ i, i < 16 → R (REG_DMA_CH_STAT i)) (rDMA_ERR : R REG_DMA_ERR) (rDMA_RING_HEAD : ∀ i, i < 4 → R (REG_DMA_RING_HEAD i)) (rDMA_STAT : R REG_DMA_STAT) (rHIF_LINK : ∀ i, i < 2 → R (REG_HIF_LINK i)) :
    ∃ t, execDmaDescTake p s = .next { s with m := t } ∧ Kept P R s.m t :=
  ⟨_, rfl, by repeat' (first | with_reducible exact Kept.refl _ | with_reducible assumption | with_reducible apply Mach.clocked_kept | with_reducible apply dmaDescTake_kept | intro m h)⟩
theorem execDmaSectorCheck_kept (s : State) (preports : P .reports) (pout : P .out) (pcal : P .cal) (pbuf : P .buf) (pdma : P .dma) (rBUF_CNT : R REG_BUF_CNT) (rBUF_ERR : R REG_BUF_ERR) (rBUF_FIRST : R REG_BUF_FIRST) (rCCH_MISS : R REG_CCH_MISS) (rDMA_CH_ADDRHI : ∀ i, i < 16 → R (REG_DMA_CH_ADDRHI i)) (rDMA_CH_ADDRLO : ∀ i, i < 16 → R (REG_DMA_CH_ADDRLO i)) (rDMA_CH_HALT : ∀ i, i < 16 → R (REG_DMA_CH_HALT i)) (rDMA_CH_MOVED : ∀ i, i < 16 → R (REG_DMA_CH_MOVED i)) (rDMA_CH_STAT : ∀ i, i < 16 → R (REG_DMA_CH_STAT i)) (rDMA_STAT : R REG_DMA_STAT) (rHIF_LINK : ∀ i, i < 2 → R (REG_HIF_LINK i)) :
    ∃ t, execDmaSectorCheck s = .next { s with m := t } ∧ Kept P R s.m t :=
  ⟨_, rfl, by repeat' (first | with_reducible exact Kept.refl _ | with_reducible assumption | with_reducible apply Mach.clocked_kept | with_reducible apply dmaSectorCheck_kept | intro m h)⟩
theorem execHostReadCompletion_kept (n : DmaCh) (data : Option (List Byte)) (s : State) (preports : P .reports) (pout : P .out) (pcal : P .cal) (pbuf : P .buf) (pdma : P .dma) (rBUF_CNT : R REG_BUF_CNT) (rBUF_ERR : R REG_BUF_ERR) (rBUF_FIRST : R REG_BUF_FIRST) (rCCH_MISS : R REG_CCH_MISS) (rDMA_CH_ADDRHI : ∀ i, i < 16 → R (REG_DMA_CH_ADDRHI i)) (rDMA_CH_ADDRLO : ∀ i, i < 16 → R (REG_DMA_CH_ADDRLO i)) (rDMA_CH_HALT : ∀ i, i < 16 → R (REG_DMA_CH_HALT i)) (rDMA_CH_MOVED : ∀ i, i < 16 → R (REG_DMA_CH_MOVED i)) (rDMA_CH_STAT : ∀ i, i < 16 → R (REG_DMA_CH_STAT i)) (rDMA_STAT : R REG_DMA_STAT) (rHIF_LINK : ∀ i, i < 2 → R (REG_HIF_LINK i)) :
    ∃ t, execHostReadCompletion n data s = .next { s with m := t } ∧ Kept P R s.m t :=
  ⟨_, rfl, by repeat' (first | with_reducible exact Kept.refl _ | with_reducible assumption | with_reducible apply Mach.clocked_kept | with_reducible apply hostReadCompletion_kept | intro m h)⟩
theorem execCompletionTimeout_kept (n : DmaCh) (s : State) (preports : P .reports) (pout : P .out) (pcal : P .cal) (pdma : P .dma) (phost : P .host) (rDMA_CH_ADDRHI : ∀ i, i < 16 → R (REG_DMA_CH_ADDRHI i)) (rDMA_CH_ADDRLO : ∀ i, i < 16 → R (REG_DMA_CH_ADDRLO i)) (rDMA_CH_HALT : ∀ i, i < 16 → R (REG_DMA_CH_HALT i)) (rDMA_CH_STAT : ∀ i, i < 16 → R (REG_DMA_CH_STAT i)) (rDMA_STAT : R REG_DMA_STAT) (rHIF_AERCNT : ∀ i, i < 2 → R (REG_HIF_AERCNT i)) (rHIF_LINK : ∀ i, i < 2 → R (REG_HIF_LINK i)) :
    ∃ t, execCompletionTimeout n s = .next { s with m := t } ∧ Kept P R s.m t :=
  ⟨_, rfl, by repeat' (first | with_reducible exact Kept.refl _ | with_reducible assumption | with_reducible apply Mach.clocked_kept | with_reducible apply completionTimeout_kept | intro m h)⟩
theorem execReadbackIssue_kept (s : State) (pout : P .out) (pdma : P .dma) (rDMA_CH_STAT : ∀ i, i < 16 → R (REG_DMA_CH_STAT i)) (rHIF_LINK : ∀ i, i < 2 → R (REG_HIF_LINK i)) :
    ∃ t, execReadbackIssue s = .next { s with m := t } ∧ Kept P R s.m t :=
  ⟨_, rfl, by repeat' (first | with_reducible exact Kept.refl _ | with_reducible assumption | with_reducible apply Mach.clocked_kept | with_reducible apply readbackIssue_kept | intro m h)⟩
theorem execReadbackComplete_kept (n : DmaCh) (ok : Bool) (s : State) (preports : P .reports) (pcal : P .cal) (pdma : P .dma) (rDMA_CH_ADDRHI : ∀ i, i < 16 → R (REG_DMA_CH_ADDRHI i)) (rDMA_CH_ADDRLO : ∀ i, i < 16 → R (REG_DMA_CH_ADDRLO i)) (rDMA_CH_HALT : ∀ i, i < 16 → R (REG_DMA_CH_HALT i)) (rDMA_CH_STAT : ∀ i, i < 16 → R (REG_DMA_CH_STAT i)) (rDMA_STAT : R REG_DMA_STAT) :
    ∃ t, execReadbackComplete n ok s = .next { s with m := t } ∧ Kept P R s.m t :=
  ⟨_, rfl, by repeat' (first | with_reducible exact Kept.refl _ | with_reducible assumption | with_reducible apply Mach.clocked_kept | with_reducible apply readbackComplete_kept | intro m h)⟩
theorem execDmaChAbort_kept (n : DmaCh) (s : State) (preports : P .reports) (pcal : P .cal) (pdma : P .dma) (rDMA_CH_MOVED : ∀ i, i < 16 → R (REG_DMA_CH_MOVED i)) (rDMA_CH_STAT : ∀ i, i < 16 → R (REG_DMA_CH_STAT i)) (rDMA_ERR : R REG_DMA_ERR) (rDMA_STAT : R REG_DMA_STAT) :
    ∃ t, execDmaChAbort n s = .next { s with m := t } ∧ Kept P R s.m t :=
  ⟨_, rfl, by repeat' (first | with_reducible exact Kept.refl _ | with_reducible assumption | with_reducible apply Mach.clocked_kept | with_reducible apply dmaChAbort_kept | intro m h)⟩
theorem execDmaChRetry_kept (n : DmaCh) (s : State) (preports : P .reports) (pout : P .out) (pcal : P .cal) (pbuf : P .buf) (pdma : P .dma) (rBUF_CNT : R REG_BUF_CNT) (rBUF_ERR : R REG_BUF_ERR) (rBUF_FIRST : R REG_BUF_FIRST) (rCCH_MISS : R REG_CCH_MISS) (rDMA_CH_ADDRHI : ∀ i, i < 16 → R (REG_DMA_CH_ADDRHI i)) (rDMA_CH_ADDRLO : ∀ i, i < 16 → R (REG_DMA_CH_ADDRLO i)) (rDMA_CH_HALT : ∀ i, i < 16 → R (REG_DMA_CH_HALT i)) (rDMA_CH_MOVED : ∀ i, i < 16 → R (REG_DMA_CH_MOVED i)) (rDMA_CH_STAT : ∀ i, i < 16 → R (REG_DMA_CH_STAT i)) (rDMA_ERR : R REG_DMA_ERR) (rDMA_STAT : R REG_DMA_STAT) (rHIF_LINK : ∀ i, i < 2 → R (REG_HIF_LINK i)) :
    ∃ t, execDmaChRetry n s = .next { s with m := t } ∧ Kept P R s.m t :=
  ⟨_, rfl, by repeat' (first | with_reducible exact Kept.refl _ | with_reducible assumption | with_reducible apply Mach.clocked_kept | with_reducible apply dmaChRetry_kept | intro m h)⟩
theorem execDmaBlockWrite_kept (b0 : Bool) (b1 : Bool) (s : State) (pcal : P .cal) (pdma : P .dma) (rDMA_CH_MOVED : ∀ i, i < 16 → R (REG_DMA_CH_MOVED i)) (rDMA_CH_STAT : ∀ i, i < 16 → R (REG_DMA_CH_STAT i)) (rDMA_CTRL : R REG_DMA_CTRL) (rDMA_STAT : R REG_DMA_STAT) :
    ∃ t, execDmaBlockWrite b0 b1 s = .next { s with m := t } ∧ Kept P R s.m t :=
  ⟨_, rfl, by repeat' (first | with_reducible exact Kept.refl _ | with_reducible assumption | with_reducible apply Mach.clocked_kept | with_reducible apply dmaBlockWrite_kept | intro m h)⟩
theorem execDmaEnWrite_kept (en : Bool) (s : State) (rDMA_CTRL : R REG_DMA_CTRL) :
    ∃ t, execDmaEnWrite en s = .next { s with m := t } ∧ Kept P R s.m t :=
  ⟨_, rfl, by repeat' (first | with_reducible exact Kept.refl _ | with_reducible assumption | with_reducible apply Mach.clocked_kept | with_reducible apply dmaEnWrite_kept | intro m h)⟩
end Sys2Proof.Machine
end

