-- ==== Sys2Proof/Laws/RowsCaller.lean ====
section
/-! SUPPORT. What each command of Machine/ExecCaller.lean keeps, and that it answers a next state. -/
set_option Elab.async false
set_option linter.all false
namespace Sys2Proof.Machine
open Sys2Proof
variable {P : Part → Prop} {R : Nat → Prop} {m0 : Mach}
theorem execFigureBoundary_kept (s : State) (preports : P .reports) (pcal : P .cal) (rCAL_ERR : R REG_CAL_ERR) (rCAL_FIGNO : R REG_CAL_FIGNO) (rCAL_FRONT : ∀ i, i < 16 → R (REG_CAL_FRONT i)) (rCAL_STATUS : R REG_CAL_STATUS) (rCAL_USE : ∀ i, i < 16 → R (REG_CAL_USE i)) :
    ∃ t, execFigureBoundary s = .next { s with m := t } ∧ Kept P R s.m t :=
  ⟨_, rfl, by repeat' (first | with_reducible exact Kept.refl _ | with_reducible assumption | with_reducible apply Mach.clocked_kept | with_reducible apply figureBoundary_kept | intro m h)⟩
theorem execReleaseCycle_kept (s : State) (pcal : P .cal) :
    ∃ t, execReleaseCycle s = .next { s with m := t } ∧ Kept P R s.m t :=
  ⟨_, rfl, by repeat' (first | with_reducible exact Kept.refl _ | with_reducible assumption | with_reducible apply Mach.clocked_kept | with_reducible apply releaseCycleReached_kept | intro m h)⟩
theorem execFabricRequest_kept (port : Port) (tag : FabClass) (less1 : Fin 8) (s : State) (pcal : P .cal) (pdma : P .dma) (peng : P .eng) (rCAL_STATUS : R REG_CAL_STATUS) (rFAB_PEND : ∀ i, i < 4 → R (REG_FAB_PEND i)) (rFAB_STATUS : R REG_FAB_STATUS) :
    ∃ t, execFabricRequest port tag less1 s = .next { s with m := t } ∧ Kept P R s.m t :=
  ⟨_, rfl, by repeat' (first | with_reducible exact Kept.refl _ | with_reducible assumption | with_reducible apply Mach.clocked_kept | with_reducible apply portRequest_kept | intro m h)⟩
theorem execFabricGrant_kept (s : State) (pcal : P .cal) (rCAL_STATUS : R REG_CAL_STATUS) (rFAB_PEND : ∀ i, i < 4 → R (REG_FAB_PEND i)) (rFAB_STATUS : R REG_FAB_STATUS) :
    ∃ t, execFabricGrant s = .next { s with m := t } ∧ Kept P R s.m t :=
  ⟨_, rfl, by repeat' (first | with_reducible exact Kept.refl _ | with_reducible assumption | with_reducible apply Mach.clocked_kept | with_reducible apply fabricGrant_kept | intro m h)⟩
theorem execBurstBoundary_kept (port : Port) (s : State) (pcal : P .cal) (rCAL_STATUS : R REG_CAL_STATUS) (rFAB_PEND : ∀ i, i < 4 → R (REG_FAB_PEND i)) (rFAB_STATUS : R REG_FAB_STATUS) :
    ∃ t, execBurstBoundary port s = .next { s with m := t } ∧ Kept P R s.m t :=
  ⟨_, rfl, by repeat' (first | with_reducible exact Kept.refl _ | with_reducible assumption | with_reducible apply Mach.clocked_kept | with_reducible apply burstBoundary_kept | intro m h)⟩
theorem execCalFreeze_kept (b : Bool) (s : State) (rCAL_CTRL : R REG_CAL_CTRL) (rCAL_STATUS : R REG_CAL_STATUS) (rFAB_PEND : ∀ i, i < 4 → R (REG_FAB_PEND i)) (rFAB_STATUS : R REG_FAB_STATUS) :
    ∃ t, execCalFreeze b s = .next { s with m := t } ∧ Kept P R s.m t :=
  ⟨_, rfl, by repeat' (first | with_reducible exact Kept.refl _ | with_reducible assumption | with_reducible apply Mach.clocked_kept | with_reducible apply calFreeze_kept | intro m h)⟩
theorem execCalSwap_kept (s : State) (rCAL_STATUS : R REG_CAL_STATUS) :
    ∃ t, execCalSwap s = .next { s with m := t } ∧ Kept P R s.m t :=
  ⟨_, rfl, by repeat' (first | with_reducible exact Kept.refl _ | with_reducible assumption | with_reducible apply Mach.clocked_kept | with_reducible apply calSwap_kept | intro m h)⟩
theorem execCalSwapCancel_kept (s : State) (rCAL_STATUS : R REG_CAL_STATUS) :
    ∃ t, execCalSwapCancel s = .next { s with m := t } ∧ Kept P R s.m t :=
  ⟨_, rfl, by repeat' (first | with_reducible exact Kept.refl _ | with_reducible assumption | with_reducible apply Mach.clocked_kept | with_reducible apply calSwapCancel_kept | intro m h)⟩
theorem execCalBackWrite_kept (n : FabClass) (w : Word) (s : State) (preports : P .reports) (rCAL_BACK : ∀ i, i < 16 → R (REG_CAL_BACK i)) (rCAL_ERR : R REG_CAL_ERR) :
    ∃ t, execCalBackWrite n w s = .next { s with m := t } ∧ Kept P R s.m t :=
  ⟨_, rfl, by repeat' (first | with_reducible exact Kept.refl _ | with_reducible assumption | with_reducible apply Mach.clocked_kept | with_reducible apply calBackWrite_kept | intro m h)⟩
theorem execFabricWatchdogHalf_kept (s : State) (preports : P .reports) (pcal : P .cal) :
    ∃ t, execFabricWatchdogHalf s = .next { s with m := t } ∧ Kept P R s.m t :=
  ⟨_, rfl, by repeat' (first | with_reducible exact Kept.refl _ | with_reducible assumption | with_reducible apply Mach.clocked_kept | with_reducible apply fabricWatchdogHalf_kept | intro m h)⟩
theorem execFabricWatchdogExpiry_kept (s : State) (preports : P .reports) (pcal : P .cal) (pmedia : P .media) (pmotion : P .motion) (pdie : P .die) (pspn : P .spn) (ppwr : P .pwr) (pbuf : P .buf) (pdma : P .dma) (phost : P .host) (pcmd : P .cmd) (psec : P .sec) (peng : P .eng) (pevt : P .evt) (prst : P .rst) (rall : ∀ a, R a) :
    ∃ t, execFabricWatchdogExpiry s = .next { s with m := t } ∧ Kept P R s.m t :=
  ⟨_, rfl, by repeat' (first | with_reducible exact Kept.refl _ | with_reducible assumption | exact rall _ | exact fun _ _ => rall _ | exact fun _ _ _ => rall _ | exact fun _ _ _ _ => rall _ | with_reducible apply Mach.clocked_kept | with_reducible apply fabricWatchdogExpiry_kept | intro m h)⟩
end Sys2Proof.Machine
end

