-- ==== Sys2Proof/Laws/RowsCommand.lean ====
section
/-! SUPPORT. What each command of Machine/ExecCommand.lean keeps, and that it answers a next state. -/
set_option Elab.async false
set_option linter.all false
namespace Sys2Proof.Machine
open Sys2Proof
variable {P : Part → Prop} {R : Nat → Prop} {m0 : Mach}
theorem execArbiterGrant_kept (s : State) (phost : P .host) (pcmd : P .cmd) (rQSQ_CMDTAB : R REG_QSQ_CMDTAB) (rQSQ_FSN : R REG_QSQ_FSN) (rQSQ_STAT : R REG_QSQ_STAT) :
    ∃ t, execArbiterGrant s = .next { s with m := t } ∧ Kept P R s.m t :=
  ⟨_, rfl, by repeat' (first | with_reducible exact Kept.refl _ | with_reducible assumption | with_reducible apply Mach.clocked_kept | with_reducible apply arbiterGrant_kept | intro m h)⟩
theorem execFetch_kept (k : Fin 4) (inp : Bool) (s : State) (pall : ∀ p, p ≠ .fuses → P p) (rall : ∀ a, R a) :
    ∃ t, execFetch k inp s = .next { s with m := t } ∧ Kept P R s.m t :=
  ⟨_, rfl, by repeat' (first | with_reducible exact Kept.refl _ | with_reducible assumption | exact pall _ (by decide) | exact rall _ | exact fun _ _ => rall _ | exact fun _ _ _ => rall _ | exact fun _ _ _ _ => rall _ | with_reducible apply Mach.clocked_kept | with_reducible apply fetchRow_kept | intro m h)⟩
theorem execFetchComplete_kept (k : Fin 4) (data : Option (List (BitVec 512))) (s : State) (preports : P .reports) (phost : P .host) (pcmd : P .cmd) (rHIF_CC : ∀ i, i < 2 → R (REG_HIF_CC i)) (rQSQ_ARB : ∀ i, i < 2 → R (REG_QSQ_ARB i)) (rQSQ_CMDTAB : R REG_QSQ_CMDTAB) (rQSQ_ERR : R REG_QSQ_ERR) (rQSQ_STAT : R REG_QSQ_STAT) :
    ∃ t, execFetchComplete k data s = .next { s with m := t } ∧ Kept P R s.m t :=
  ⟨_, rfl, by repeat' (first | with_reducible exact Kept.refl _ | with_reducible assumption | with_reducible apply Mach.clocked_kept | with_reducible apply fetchComplete_kept | intro m h)⟩
theorem execCheck_kept (k : Fin 4) (inp : Bool) (dsm : List (Nat × Nat)) (s : State) (pall : ∀ p, p ≠ .fuses → P p) (rall : ∀ a, R a) :
    ∃ t, execCheck k inp dsm s = .next { s with m := t } ∧ Kept P R s.m t :=
  ⟨_, rfl, by repeat' (first | with_reducible exact Kept.refl _ | with_reducible assumption | exact pall _ (by decide) | exact rall _ | exact fun _ _ => rall _ | exact fun _ _ _ => rall _ | exact fun _ _ _ _ => rall _ | with_reducible apply Mach.clocked_kept | with_reducible apply Mach.keyed_kept | with_reducible apply checkRow_kept | intro m h)⟩
theorem execDispatch_kept (k : Option (Fin 4)) (inp : Bool) (fsn : BitVec 32) (s : State) (pall : ∀ p, p ≠ .fuses → P p) (rall : ∀ a, R a) :
    ∃ t, execDispatch k inp fsn s = .next { s with m := t } ∧ Kept P R s.m t :=
  ⟨_, rfl, by repeat' (first | with_reducible exact Kept.refl _ | with_reducible assumption | exact pall _ (by decide) | exact rall _ | exact fun _ _ => rall _ | exact fun _ _ _ => rall _ | exact fun _ _ _ _ => rall _ | with_reducible apply Mach.clocked_kept | with_reducible apply dispatchRow_kept | intro m h)⟩
theorem execReadAheadIssue_kept (nsid : BitVec 4) (first : BitVec 40) (count : Fin 257) (s : State) (pcmd : P .cmd) :
    ∃ t, execReadAheadIssue nsid first count s = .next { s with m := t } ∧ Kept P R s.m t :=
  ⟨_, rfl, by repeat' (first | with_reducible exact Kept.refl _ | with_reducible assumption | with_reducible apply readAheadIssue_kept | intro m h)⟩
theorem execAnticipatorySeek_kept (a : Actuator) (target : Word) (s : State) (pmotion : P .motion) (pcmd : P .cmd) (rPRG_STAT : ∀ i, i < 4 → R (REG_PRG_STAT i)) (rPRG_TGT : ∀ i, i < 4 → R (REG_PRG_TGT i)) (rQDR_ADMIT : R REG_QDR_ADMIT) (rQDR_KACC : ∀ i, i < 4 → R (REG_QDR_KACC i)) (rQDR_TORQ : R REG_QDR_TORQ) (rSRV_STAT : ∀ i, i < 4 → R (REG_SRV_STAT i)) :
    ∃ t, execAnticipatorySeek a target s = .next { s with m := t } ∧ Kept P R s.m t :=
  ⟨_, rfl, by repeat' (first | with_reducible exact Kept.refl _ | with_reducible assumption | with_reducible apply anticipatorySeek_kept | intro m h)⟩
theorem execSpecCopyExpire_kept (k : Nat) (s : State) (preports : P .reports) (pcal : P .cal) (pbuf : P .buf) (pcmd : P .cmd) (rPOOL_ERR : R REG_POOL_ERR) (rPOOL_FIRST : R REG_POOL_FIRST) (rPOOL_RETSTAT : ∀ i, i < 8 → R (REG_POOL_RETSTAT i)) (rPOOL_STAT : ∀ i, i < 8 → R (REG_POOL_STAT i)) :
    ∃ t, execSpecCopyExpire k s = .next { s with m := t } ∧ Kept P R s.m t :=
  ⟨_, rfl, by repeat' (first | with_reducible exact Kept.refl _ | with_reducible assumption | with_reducible apply specCopyExpire_kept | intro m h)⟩
end Sys2Proof.Machine
end

