-- ==== Sys2Proof/Laws/RowsEngine.lean ====
section
/-! SUPPORT. What each command of Machine/ExecEngine.lean keeps, and that it answers a next state. -/
set_option Elab.async false
set_option linter.all false
namespace Sys2Proof.Machine
open Sys2Proof
variable {P : Part → Prop} {R : Nat → Prop} {m0 : Mach}
theorem execAluAdd_kept (q : SeqId) (inp : Bool) (s : State) (pall : ∀ p, p ≠ .fuses → P p) (rall : ∀ a, R a) :
    ∃ t, execAluAdd q inp s = .next { s with m := t } ∧ Kept P R s.m t :=
  ⟨_, rfl, by repeat' (first | with_reducible exact Kept.refl _ | with_reducible assumption | exact pall _ (by decide) | exact rall _ | exact fun _ _ => rall _ | exact fun _ _ _ => rall _ | exact fun _ _ _ _ => rall _ | with_reducible apply Mach.clocked_kept | with_reducible apply aluAddRow_kept | intro m h)⟩
theorem execAluSub_kept (q : SeqId) (inp : Bool) (s : State) (pall : ∀ p, p ≠ .fuses → P p) (rall : ∀ a, R a) :
    ∃ t, execAluSub q inp s = .next { s with m := t } ∧ Kept P R s.m t :=
  ⟨_, rfl, by repeat' (first | with_reducible exact Kept.refl _ | with_reducible assumption | exact pall _ (by decide) | exact rall _ | exact fun _ _ => rall _ | exact fun _ _ _ => rall _ | exact fun _ _ _ _ => rall _ | with_reducible apply Mach.clocked_kept | with_reducible apply aluSubRow_kept | intro m h)⟩
theorem execAluAnd_kept (q : SeqId) (inp : Bool) (s : State) (pall : ∀ p, p ≠ .fuses → P p) (rall : ∀ a, R a) :
    ∃ t, execAluAnd q inp s = .next { s with m := t } ∧ Kept P R s.m t :=
  ⟨_, rfl, by repeat' (first | with_reducible exact Kept.refl _ | with_reducible assumption | exact pall _ (by decide) | exact rall _ | exact fun _ _ => rall _ | exact fun _ _ _ => rall _ | exact fun _ _ _ _ => rall _ | with_reducible apply Mach.clocked_kept | with_reducible apply aluAndRow_kept | intro m h)⟩
theorem execAluOr_kept (q : SeqId) (inp : Bool) (s : State) (pall : ∀ p, p ≠ .fuses → P p) (rall : ∀ a, R a) :
    ∃ t, execAluOr q inp s = .next { s with m := t } ∧ Kept P R s.m t :=
  ⟨_, rfl, by repeat' (first | with_reducible exact Kept.refl _ | with_reducible assumption | exact pall _ (by decide) | exact rall _ | exact fun _ _ => rall _ | exact fun _ _ _ => rall _ | exact fun _ _ _ _ => rall _ | with_reducible apply Mach.clocked_kept | with_reducible apply aluOrRow_kept | intro m h)⟩
theorem execAluXor_kept (q : SeqId) (inp : Bool) (s : State) (pall : ∀ p, p ≠ .fuses → P p) (rall : ∀ a, R a) :
    ∃ t, execAluXor q inp s = .next { s with m := t } ∧ Kept P R s.m t :=
  ⟨_, rfl, by repeat' (first | with_reducible exact Kept.refl _ | with_reducible assumption | exact pall _ (by decide) | exact rall _ | exact fun _ _ => rall _ | exact fun _ _ _ => rall _ | exact fun _ _ _ _ => rall _ | with_reducible apply Mach.clocked_kept | with_reducible apply aluXorRow_kept | intro m h)⟩
theorem execAluShiftLeft_kept (q : SeqId) (inp : Bool) (s : State) (pall : ∀ p, p ≠ .fuses → P p) (rall : ∀ a, R a) :
    ∃ t, execAluShiftLeft q inp s = .next { s with m := t } ∧ Kept P R s.m t :=
  ⟨_, rfl, by repeat' (first | with_reducible exact Kept.refl _ | with_reducible assumption | exact pall _ (by decide) | exact rall _ | exact fun _ _ => rall _ | exact fun _ _ _ => rall _ | exact fun _ _ _ _ => rall _ | with_reducible apply Mach.clocked_kept | with_reducible apply aluShiftLeft_kept | intro m h)⟩
theorem execAluShiftRight_kept (q : SeqId) (inp : Bool) (s : State) (pall : ∀ p, p ≠ .fuses → P p) (rall : ∀ a, R a) :
    ∃ t, execAluShiftRight q inp s = .next { s with m := t } ∧ Kept P R s.m t :=
  ⟨_, rfl, by repeat' (first | with_reducible exact Kept.refl _ | with_reducible assumption | exact pall _ (by decide) | exact rall _ | exact fun _ _ => rall _ | exact fun _ _ _ => rall _ | exact fun _ _ _ _ => rall _ | with_reducible apply Mach.clocked_kept | with_reducible apply aluShiftRight_kept | intro m h)⟩
theorem execAluMove_kept (q : SeqId) (inp : Bool) (s : State) (pall : ∀ p, p ≠ .fuses → P p) (rall : ∀ a, R a) :
    ∃ t, execAluMove q inp s = .next { s with m := t } ∧ Kept P R s.m t :=
  ⟨_, rfl, by repeat' (first | with_reducible exact Kept.refl _ | with_reducible assumption | exact pall _ (by decide) | exact rall _ | exact fun _ _ => rall _ | exact fun _ _ _ => rall _ | exact fun _ _ _ _ => rall _ | with_reducible apply Mach.clocked_kept | with_reducible apply aluMove_kept | intro m h)⟩
theorem execAluCompare_kept (q : SeqId) (inp : Bool) (s : State) (pall : ∀ p, p ≠ .fuses → P p) (rall : ∀ a, R a) :
    ∃ t, execAluCompare q inp s = .next { s with m := t } ∧ Kept P R s.m t :=
  ⟨_, rfl, by repeat' (first | with_reducible exact Kept.refl _ | with_reducible assumption | exact pall _ (by decide) | exact rall _ | exact fun _ _ => rall _ | exact fun _ _ _ => rall _ | exact fun _ _ _ _ => rall _ | with_reducible apply Mach.clocked_kept | with_reducible apply aluCompare_kept | intro m h)⟩
theorem execAluLdr_kept (q : SeqId) (inp : Bool) (s : State) (pall : ∀ p, p ≠ .fuses → P p) (rall : ∀ a, R a) :
    ∃ t, execAluLdr q inp s = .next { s with m := t } ∧ Kept P R s.m t :=
  ⟨_, rfl, by repeat' (first | with_reducible exact Kept.refl _ | with_reducible assumption | exact pall _ (by decide) | exact rall _ | exact fun _ _ => rall _ | exact fun _ _ _ => rall _ | exact fun _ _ _ _ => rall _ | with_reducible apply Mach.clocked_kept | with_reducible apply aluLdr_kept | intro m h)⟩
theorem execAluStr_kept (q : SeqId) (inp : Bool) (s : State) (pall : ∀ p, p ≠ .fuses → P p) (rall : ∀ a, R a) :
    ∃ t, execAluStr q inp s = .next { s with m := t } ∧ Kept P R s.m t :=
  ⟨_, rfl, by repeat' (first | with_reducible exact Kept.refl _ | with_reducible assumption | exact pall _ (by decide) | exact rall _ | exact fun _ _ => rall _ | exact fun _ _ _ => rall _ | exact fun _ _ _ _ => rall _ | with_reducible apply Mach.clocked_kept | with_reducible apply aluStr_kept | intro m h)⟩
theorem execAluRegRead_kept (q : SeqId) (inp : Bool) (s : State) (pall : ∀ p, p ≠ .fuses → P p) (rall : ∀ a, R a) :
    ∃ t, execAluRegRead q inp s = .next { s with m := t } ∧ Kept P R s.m t :=
  ⟨_, rfl, by repeat' (first | with_reducible exact Kept.refl _ | with_reducible assumption | exact pall _ (by decide) | exact rall _ | exact fun _ _ => rall _ | exact fun _ _ _ => rall _ | exact fun _ _ _ _ => rall _ | with_reducible apply Mach.clocked_kept | with_reducible apply aluRegRead_kept | intro m h)⟩
theorem execAluRegWrite_kept (q : SeqId) (inp : Bool) (s : State) (pall : ∀ p, p ≠ .fuses → P p) (rall : ∀ a, R a) :
    ∃ t, execAluRegWrite q inp s = .next { s with m := t } ∧ Kept P R s.m t :=
  ⟨_, rfl, by repeat' (first | with_reducible exact Kept.refl _ | with_reducible assumption | exact pall _ (by decide) | exact rall _ | exact fun _ _ => rall _ | exact fun _ _ _ => rall _ | exact fun _ _ _ _ => rall _ | with_reducible apply Mach.clocked_kept | with_reducible apply aluRegWrite_kept | intro m h)⟩
theorem execSeqNopWord_kept (q : SeqId) (inp : Bool) (s : State) (pall : ∀ p, p ≠ .fuses → P p) (rall : ∀ a, R a) :
    ∃ t, execSeqNopWord q inp s = .next { s with m := t } ∧ Kept P R s.m t :=
  ⟨_, rfl, by repeat' (first | with_reducible exact Kept.refl _ | with_reducible assumption | exact pall _ (by decide) | exact rall _ | exact fun _ _ => rall _ | exact fun _ _ _ => rall _ | exact fun _ _ _ _ => rall _ | with_reducible apply Mach.clocked_kept | with_reducible apply seqNopWord_kept | intro m h)⟩
theorem execSeqConditionMet_kept (q : SeqId) (inp : Bool) (s : State) (pfreeCtr : P .freeCtr) (preports : P .reports) (pout : P .out) (pmedia : P .media) (pmotion : P .motion) (ppwr : P .pwr) (peng : P .eng) (rFMT_CNT_ABORT : ∀ i, i < 8 → R (REG_FMT_CNT_ABORT i)) (rFMT_CNT_MISS : ∀ i, i < 8 → R (REG_FMT_CNT_MISS i)) (rFMT_ERR : ∀ i, i < 8 → R (REG_FMT_ERR i)) (rFMT_STAT : ∀ i, i < 8 → R (REG_FMT_STAT i)) (rHSQ_ERR : ∀ i, i < 4 → R (REG_HSQ_ERR i)) (rHSQ_SEL : ∀ i j, i < 4 → j < 2 → R (REG_HSQ_SEL i j)) (rKSV_GENHI : R REG_KSV_GENHI) (rKSV_GENLO : R REG_KSV_GENLO) (rSEQ_HALT : ∀ i, i < 20 → R (REG_SEQ_HALT i)) (rSEQ_STAT : ∀ i, i < 20 → R (REG_SEQ_STAT i)) :
    ∃ t, execSeqConditionMet q inp s = .next { s with m := t } ∧ Kept P R s.m t :=
  ⟨_, rfl, by repeat' (first | with_reducible exact Kept.refl _ | with_reducible assumption | with_reducible apply Mach.clocked_kept | with_reducible apply seqConditionMet_kept | intro m h)⟩
theorem execFopRead_kept (q : SeqId) (inp : Bool) (s : State) (pall : ∀ p, p ≠ .fuses → P p) (rall : ∀ a, R a) :
    ∃ t, execFopRead q inp s = .next { s with m := t } ∧ Kept P R s.m t :=
  ⟨_, rfl, by repeat' (first | with_reducible exact Kept.refl _ | with_reducible assumption | exact pall _ (by decide) | exact rall _ | exact fun _ _ => rall _ | exact fun _ _ _ => rall _ | exact fun _ _ _ _ => rall _ | with_reducible apply Mach.clocked_kept | with_reducible apply fopRead_kept | intro m h)⟩
theorem execFopWrite_kept (q : SeqId) (inp : Bool) (s : State) (pall : ∀ p, p ≠ .fuses → P p) (rall : ∀ a, R a) :
    ∃ t, execFopWrite q inp s = .next { s with m := t } ∧ Kept P R s.m t :=
  ⟨_, rfl, by repeat' (first | with_reducible exact Kept.refl _ | with_reducible assumption | exact pall _ (by decide) | exact rall _ | exact fun _ _ => rall _ | exact fun _ _ _ => rall _ | exact fun _ _ _ _ => rall _ | with_reducible apply Mach.clocked_kept | with_reducible apply fopWrite_kept | intro m h)⟩
theorem execFopComplete_kept (q : SeqId) (s : State) (preports : P .reports) (pout : P .out) (pbuf : P .buf) (peng : P .eng) (rBUF_CNT : R REG_BUF_CNT) (rBUF_ERR : R REG_BUF_ERR) (rBUF_FIRST : R REG_BUF_FIRST) (rCCH_MISS : R REG_CCH_MISS) (rSEQ_STAT : ∀ i, i < 20 → R (REG_SEQ_STAT i)) :
    ∃ t, execFopComplete q s = .next { s with m := t } ∧ Kept P R s.m t :=
  ⟨_, rfl, by repeat' (first | with_reducible exact Kept.refl _ | with_reducible assumption | with_reducible apply Mach.clocked_kept | with_reducible apply fopComplete_kept | intro m h)⟩
theorem execMbreq_kept (q : SeqId) (inp : Bool) (s : State) (pall : ∀ p, p ≠ .fuses → P p) (rall : ∀ a, R a) :
    ∃ t, execMbreq q inp s = .next { s with m := t } ∧ Kept P R s.m t :=
  ⟨_, rfl, by repeat' (first | with_reducible exact Kept.refl _ | with_reducible assumption | exact pall _ (by decide) | exact rall _ | exact fun _ _ => rall _ | exact fun _ _ _ => rall _ | exact fun _ _ _ _ => rall _ | with_reducible apply Mach.clocked_kept | with_reducible apply mbreq_kept | intro m h)⟩
theorem execFree_kept (q : SeqId) (inp : Bool) (s : State) (pall : ∀ p, p ≠ .fuses → P p) (rall : ∀ a, R a) :
    ∃ t, execFree q inp s = .next { s with m := t } ∧ Kept P R s.m t :=
  ⟨_, rfl, by repeat' (first | with_reducible exact Kept.refl _ | with_reducible assumption | exact pall _ (by decide) | exact rall _ | exact fun _ _ => rall _ | exact fun _ _ _ => rall _ | exact fun _ _ _ _ => rall _ | with_reducible apply Mach.clocked_kept | with_reducible apply free_kept | intro m h)⟩
theorem execEvent_kept (q : SeqId) (inp : Bool) (s : State) (pall : ∀ p, p ≠ .fuses → P p) (rall : ∀ a, R a) :
    ∃ t, execEvent q inp s = .next { s with m := t } ∧ Kept P R s.m t :=
  ⟨_, rfl, by repeat' (first | with_reducible exact Kept.refl _ | with_reducible assumption | exact pall _ (by decide) | exact rall _ | exact fun _ _ => rall _ | exact fun _ _ _ => rall _ | exact fun _ _ _ _ => rall _ | with_reducible apply Mach.clocked_kept | with_reducible apply event_kept | intro m h)⟩
theorem execSeqCsdataWrite_kept (req : Requester) (q : SeqId) (k : Fin 4) (w : Word) (s : State) (preports : P .reports) (peng : P .eng) (rSEC_ERR : R REG_SEC_ERR) (rSEQ_CSADDR : ∀ i, i < 20 → R (REG_SEQ_CSADDR i)) (rSEQ_CSDATA : ∀ i j, i < 20 → j < 4 → R (REG_SEQ_CSDATA i j)) :
    ∃ t, execSeqCsdataWrite req q k w s = .next { s with m := t } ∧ Kept P R s.m t :=
  ⟨_, rfl, by repeat' (first | with_reducible exact Kept.refl _ | with_reducible assumption | with_reducible apply Mach.clocked_kept | with_reducible apply seqCsdataWrite_kept | intro m h)⟩
theorem execQsqDtdataWrite_kept (req : Requester) (w : Word) (s : State) (preports : P .reports) (peng : P .eng) (rQSQ_DTDATA : R REG_QSQ_DTDATA) (rQSQ_DTERR : R REG_QSQ_DTERR) (rSEC_ERR : R REG_SEC_ERR) :
    ∃ t, execQsqDtdataWrite req w s = .next { s with m := t } ∧ Kept P R s.m t :=
  ⟨_, rfl, by repeat' (first | with_reducible exact Kept.refl _ | with_reducible assumption | with_reducible apply Mach.clocked_kept | with_reducible apply qsqDtdataWrite_kept | intro m h)⟩
theorem execSeqRunWrite_kept (req : Requester) (q : SeqId) (run : Bool) (s : State) (preports : P .reports) (peng : P .eng) (rSEC_ERR : R REG_SEC_ERR) (rSEQ_CTRL : ∀ i, i < 20 → R (REG_SEQ_CTRL i)) (rSEQ_STAT : ∀ i, i < 20 → R (REG_SEQ_STAT i)) :
    ∃ t, execSeqRunWrite req q run s = .next { s with m := t } ∧ Kept P R s.m t :=
  ⟨_, rfl, by repeat' (first | with_reducible exact Kept.refl _ | with_reducible assumption | with_reducible apply Mach.clocked_kept | with_reducible apply seqRunWrite_kept | intro m h)⟩
theorem execQsqCsswap_kept (s : State) (preports : P .reports) (pcmd : P .cmd) (psec : P .sec) (peng : P .eng) (rCAL_CTRL : R REG_CAL_CTRL) (rCAL_STATUS : R REG_CAL_STATUS) (rFAB_PEND : ∀ i, i < 4 → R (REG_FAB_PEND i)) (rFAB_STATUS : R REG_FAB_STATUS) (rQSQ_CMDTAB : R REG_QSQ_CMDTAB) (rQSQ_CSSWAP : R REG_QSQ_CSSWAP) (rQSQ_CTRL : R REG_QSQ_CTRL) (rSEC_BOOT : R REG_SEC_BOOT) (rSEQ_STAT : ∀ i, i < 20 → R (REG_SEQ_STAT i)) :
    ∃ t, execQsqCsswap s = .next { s with m := t } ∧ Kept P R s.m t :=
  ⟨_, rfl, by repeat' (first | with_reducible exact Kept.refl _ | with_reducible assumption | with_reducible apply Mach.clocked_kept | with_reducible apply qsqCsswap_kept | intro m h)⟩
theorem execSwapBusyEnd_kept (s : State) (rQSQ_CSSWAP : R REG_QSQ_CSSWAP) :
    ∃ t, execSwapBusyEnd s = .next { s with m := t } ∧ Kept P R s.m t :=
  ⟨_, rfl, by repeat' (first | with_reducible exact Kept.refl _ | with_reducible assumption | with_reducible apply Mach.clocked_kept | with_reducible apply swapBusyEnd_kept | intro m h)⟩
end Sys2Proof.Machine
end

