-- ==== Sys2Proof/Laws/RowsHost.lean ====
section
/-! SUPPORT. What each command of Machine/ExecHost.lean keeps, and that it answers a next state. -/
set_option Elab.async false
set_option linter.all false
namespace Sys2Proof.Machine
open Sys2Proof
variable {P : Part → Prop} {R : Nat → Prop} {m0 : Mach}
theorem execTrainEnWrite_kept (en0 : Bool) (en1 : Bool) (s : State) (preports : P .reports) (pcal : P .cal) (pmedia : P .media) (pmotion : P .motion) (pdie : P .die) (pspn : P .spn) (ppwr : P .pwr) (pbuf : P .buf) (pdma : P .dma) (phost : P .host) (pcmd : P .cmd) (psec : P .sec) (peng : P .eng) (pevt : P .evt) (prst : P .rst) (rall : ∀ a, R a) :
    ∃ t, execTrainEnWrite en0 en1 s = .next { s with m := t } ∧ Kept P R s.m t :=
  ⟨_, rfl, by repeat' (first | with_reducible exact Kept.refl _ | with_reducible assumption | exact rall _ | exact fun _ _ => rall _ | exact fun _ _ _ => rall _ | exact fun _ _ _ _ => rall _ | with_reducible apply trainEnWrite_kept | intro m h)⟩
theorem execLinkUp_kept (p : PortId) (speed : Fin 6) (width : Fin 5) (s : State) (pfreeCtr : P .freeCtr) (rHIF_LINK : ∀ i, i < 2 → R (REG_HIF_LINK i)) :
    ∃ t, execLinkUp p speed width s = .next { s with m := t } ∧ Kept P R s.m t :=
  ⟨_, rfl, by repeat' (first | with_reducible exact Kept.refl _ | with_reducible assumption | with_reducible apply Mach.clocked_kept | with_reducible apply linkUp_kept | intro m h)⟩
theorem execLinkDown_kept (p : PortId) (s : State) (preports : P .reports) (pcal : P .cal) (pmedia : P .media) (pmotion : P .motion) (pdie : P .die) (pspn : P .spn) (ppwr : P .pwr) (pbuf : P .buf) (pdma : P .dma) (phost : P .host) (pcmd : P .cmd) (psec : P .sec) (peng : P .eng) (pevt : P .evt) (prst : P .rst) (rall : ∀ a, R a) :
    ∃ t, execLinkDown p s = .next { s with m := t } ∧ Kept P R s.m t :=
  ⟨_, rfl, by repeat' (first | with_reducible exact Kept.refl _ | with_reducible assumption | exact rall _ | exact fun _ _ => rall _ | exact fun _ _ _ => rall _ | exact fun _ _ _ _ => rall _ | with_reducible apply linkDown_kept | intro m h)⟩
theorem execPerstAssert_kept (p : PortId) (s : State) (preports : P .reports) (pcal : P .cal) (pmedia : P .media) (pmotion : P .motion) (pdie : P .die) (pspn : P .spn) (ppwr : P .pwr) (pbuf : P .buf) (pdma : P .dma) (phost : P .host) (pcmd : P .cmd) (psec : P .sec) (peng : P .eng) (pevt : P .evt) (prst : P .rst) (rall : ∀ a, R a) :
    ∃ t, execPerstAssert p s = .next { s with m := t } ∧ Kept P R s.m t :=
  ⟨_, rfl, by repeat' (first | with_reducible exact Kept.refl _ | with_reducible assumption | exact rall _ | exact fun _ _ => rall _ | exact fun _ _ _ => rall _ | exact fun _ _ _ _ => rall _ | with_reducible apply perstAssert_kept | intro m h)⟩
theorem execHotReset_kept (p : PortId) (s : State) (preports : P .reports) (pcal : P .cal) (pmedia : P .media) (pmotion : P .motion) (pdie : P .die) (pspn : P .spn) (ppwr : P .pwr) (pbuf : P .buf) (pdma : P .dma) (phost : P .host) (pcmd : P .cmd) (psec : P .sec) (peng : P .eng) (pevt : P .evt) (prst : P .rst) (rall : ∀ a, R a) :
    ∃ t, execHotReset p s = .next { s with m := t } ∧ Kept P R s.m t :=
  ⟨_, rfl, by repeat' (first | with_reducible exact Kept.refl _ | with_reducible assumption | exact rall _ | exact fun _ _ => rall _ | exact fun _ _ _ => rall _ | exact fun _ _ _ _ => rall _ | with_reducible apply hotReset_kept | intro m h)⟩
theorem execFunctionLevelReset_kept (p : PortId) (s : State) (preports : P .reports) (pcal : P .cal) (pmedia : P .media) (pmotion : P .motion) (pdie : P .die) (pspn : P .spn) (ppwr : P .pwr) (pbuf : P .buf) (pdma : P .dma) (phost : P .host) (pcmd : P .cmd) (psec : P .sec) (peng : P .eng) (pevt : P .evt) (prst : P .rst) (rall : ∀ a, R a) :
    ∃ t, execFunctionLevelReset p s = .next { s with m := t } ∧ Kept P R s.m t :=
  ⟨_, rfl, by repeat' (first | with_reducible exact Kept.refl _ | with_reducible assumption | exact rall _ | exact fun _ _ => rall _ | exact fun _ _ _ => rall _ | exact fun _ _ _ _ => rall _ | with_reducible apply functionLevelReset_kept | intro m h)⟩
theorem execCcEnSet_kept (p : PortId) (cc : Word) (s : State) (phost : P .host) (rHIF_CC : ∀ i, i < 2 → R (REG_HIF_CC i)) (rQSQ_ARB : ∀ i, i < 2 → R (REG_QSQ_ARB i)) :
    ∃ t, execCcEnSet p cc s = .next { s with m := t } ∧ Kept P R s.m t :=
  ⟨_, rfl, by repeat' (first | with_reducible exact Kept.refl _ | with_reducible assumption | with_reducible apply Mach.clocked_kept | with_reducible apply ccEnSet_kept | intro m h)⟩
theorem execCcEnClear_kept (p : PortId) (s : State) (preports : P .reports) (pcal : P .cal) (pmedia : P .media) (pmotion : P .motion) (pdie : P .die) (pspn : P .spn) (ppwr : P .pwr) (pbuf : P .buf) (pdma : P .dma) (phost : P .host) (pcmd : P .cmd) (psec : P .sec) (peng : P .eng) (pevt : P .evt) (prst : P .rst) (rall : ∀ a, R a) :
    ∃ t, execCcEnClear p s = .next { s with m := t } ∧ Kept P R s.m t :=
  ⟨_, rfl, by repeat' (first | with_reducible exact Kept.refl _ | with_reducible assumption | exact rall _ | exact fun _ _ => rall _ | exact fun _ _ _ => rall _ | exact fun _ _ _ _ => rall _ | with_reducible apply Mach.clocked_kept | with_reducible apply ccEnClear_kept | intro m h)⟩
theorem execShutdownNormal_kept (p : PortId) (s : State) (phost : P .host) (rHIF_CC : ∀ i, i < 2 → R (REG_HIF_CC i)) (rQSQ_ARB : ∀ i, i < 2 → R (REG_QSQ_ARB i)) :
    ∃ t, execShutdownNormal p s = .next { s with m := t } ∧ Kept P R s.m t :=
  ⟨_, rfl, by repeat' (first | with_reducible exact Kept.refl _ | with_reducible assumption | with_reducible apply Mach.clocked_kept | with_reducible apply shutdownNormal_kept | intro m h)⟩
theorem execShutdownAbrupt_kept (p : PortId) (s : State) (preports : P .reports) (pcal : P .cal) (pmedia : P .media) (pmotion : P .motion) (ppwr : P .pwr) (pbuf : P .buf) (pdma : P .dma) (phost : P .host) (pcmd : P .cmd) (rCHN_SMEM : ∀ i, i < 8 → R (REG_CHN_SMEM i)) (rDEC_BUSY : R REG_DEC_BUSY) (rDMA_CH_MOVED : ∀ i, i < 16 → R (REG_DMA_CH_MOVED i)) (rDMA_CH_STAT : ∀ i, i < 16 → R (REG_DMA_CH_STAT i)) (rDMA_CTRL : R REG_DMA_CTRL) (rDMA_STAT : R REG_DMA_STAT) (rHIF_CC : ∀ i, i < 2 → R (REG_HIF_CC i)) (rLAD_STAT : ∀ i, i < 4 → R (REG_LAD_STAT i)) (rPOOL_ERR : R REG_POOL_ERR) (rPOOL_FIRST : R REG_POOL_FIRST) (rPOOL_RETSTAT : ∀ i, i < 8 → R (REG_POOL_RETSTAT i)) (rPOOL_STAT : ∀ i, i < 8 → R (REG_POOL_STAT i)) (rQSQ_ARB : ∀ i, i < 2 → R (REG_QSQ_ARB i)) (rQSQ_CMDTAB : R REG_QSQ_CMDTAB) (rQSQ_STAT : R REG_QSQ_STAT) (rSRV_STAT : ∀ i, i < 4 → R (REG_SRV_STAT i)) (rSRV_TARGET : ∀ i j, i < 4 → j < 2 → R (REG_SRV_TARGET i j)) :
    ∃ t, execShutdownAbrupt p s = .next { s with m := t } ∧ Kept P R s.m t :=
  ⟨_, rfl, by repeat' (first | with_reducible exact Kept.refl _ | with_reducible assumption | with_reducible apply Mach.clocked_kept | with_reducible apply shutdownAbrupt_kept | intro m h)⟩
theorem execShutdownComplete_kept (p : PortId) (s : State) (phost : P .host) (rHIF_CC : ∀ i, i < 2 → R (REG_HIF_CC i)) (rQSQ_ARB : ∀ i, i < 2 → R (REG_QSQ_ARB i)) :
    ∃ t, execShutdownComplete p s = .next { s with m := t } ∧ Kept P R s.m t :=
  ⟨_, rfl, by repeat' (first | with_reducible exact Kept.refl _ | with_reducible assumption | with_reducible apply shutdownComplete_kept | intro m h)⟩
theorem execNssrWrite_kept (w : Word) (s : State) (preports : P .reports) (pcal : P .cal) (pmedia : P .media) (pmotion : P .motion) (pdie : P .die) (pspn : P .spn) (ppwr : P .pwr) (pbuf : P .buf) (pdma : P .dma) (phost : P .host) (pcmd : P .cmd) (psec : P .sec) (peng : P .eng) (pevt : P .evt) (prst : P .rst) (rall : ∀ a, R a) :
    ∃ t, execNssrWrite w s = .next { s with m := t } ∧ Kept P R s.m t :=
  ⟨_, rfl, by repeat' (first | with_reducible exact Kept.refl _ | with_reducible assumption | exact rall _ | exact fun _ _ => rall _ | exact fun _ _ _ => rall _ | exact fun _ _ _ _ => rall _ | with_reducible apply Mach.clocked_kept | with_reducible apply nssrWrite_kept | intro m h)⟩
theorem execSqTailDoorbell_kept (p : PortId) (qid : BitVec 16) (v : BitVec 16) (s : State) (preports : P .reports) (phost : P .host) (pcmd : P .cmd) (rQSQ_CMDTAB : R REG_QSQ_CMDTAB) (rQSQ_ERR : R REG_QSQ_ERR) :
    ∃ t, execSqTailDoorbell p qid v s = .next { s with m := t } ∧ Kept P R s.m t :=
  ⟨_, rfl, by repeat' (first | with_reducible exact Kept.refl _ | with_reducible assumption | with_reducible apply Mach.clocked_kept | with_reducible apply sqTailDoorbell_kept | intro m h)⟩
theorem execCqHeadDoorbell_kept (p : PortId) (qid : BitVec 16) (v : BitVec 16) (s : State) (preports : P .reports) (phost : P .host) (pcmd : P .cmd) (rQSQ_CMDTAB : R REG_QSQ_CMDTAB) (rQSQ_ERR : R REG_QSQ_ERR) :
    ∃ t, execCqHeadDoorbell p qid v s = .next { s with m := t } ∧ Kept P R s.m t :=
  ⟨_, rfl, by repeat' (first | with_reducible exact Kept.refl _ | with_reducible assumption | with_reducible apply Mach.clocked_kept | with_reducible apply cqHeadDoorbell_kept | intro m h)⟩
theorem execReceivedError_kept (p : PortId) (e : LinkError) (s : State) (preports : P .reports) (pout : P .out) (phost : P .host) (rHIF_AERCNT : ∀ i, i < 2 → R (REG_HIF_AERCNT i)) (rHIF_LINK : ∀ i, i < 2 → R (REG_HIF_LINK i)) :
    ∃ t, execReceivedError p e s = .next { s with m := t } ∧ Kept P R s.m t :=
  ⟨_, rfl, by repeat' (first | with_reducible exact Kept.refl _ | with_reducible assumption | with_reducible apply Mach.clocked_kept | with_reducible apply receivedError_kept | intro m h)⟩
theorem execAspmL1Entry_kept (p : PortId) (sub : Fin 3) (s : State) (rHIF_LINK : ∀ i, i < 2 → R (REG_HIF_LINK i)) :
    ∃ t, execAspmL1Entry p sub s = .next { s with m := t } ∧ Kept P R s.m t :=
  ⟨_, rfl, by repeat' (first | with_reducible exact Kept.refl _ | with_reducible assumption | with_reducible apply Mach.clocked_kept | with_reducible apply aspmL1Entry_kept | intro m h)⟩
theorem execD3hotTransition_kept (p : PortId) (d3 : Bool) (s : State) (phost : P .host) (rHIF_LINK : ∀ i, i < 2 → R (REG_HIF_LINK i)) :
    ∃ t, execD3hotTransition p d3 s = .next { s with m := t } ∧ Kept P R s.m t :=
  ⟨_, rfl, by repeat' (first | with_reducible exact Kept.refl _ | with_reducible assumption | with_reducible apply Mach.clocked_kept | with_reducible apply d3hotTransition_kept | intro m h)⟩
theorem execCompletionPost_kept (fsn : BitVec 32) (ok : Bool) (s : State) (preports : P .reports) (pout : P .out) (phost : P .host) (pcmd : P .cmd) (rHIF_CC : ∀ i, i < 2 → R (REG_HIF_CC i)) (rHIF_LINK : ∀ i, i < 2 → R (REG_HIF_LINK i)) (rQSQ_ARB : ∀ i, i < 2 → R (REG_QSQ_ARB i)) (rQSQ_CMDTAB : R REG_QSQ_CMDTAB) (rQSQ_HALT : ∀ i j, i < 2 → j < 4 → R (REG_QSQ_HALT i j)) (rQSQ_QHOE : ∀ i j, i < 2 → j < 4 → R (REG_QSQ_QHOE i j)) (rQSQ_STAT : R REG_QSQ_STAT) :
    ∃ t, execCompletionPost fsn ok s = .next { s with m := t } ∧ Kept P R s.m t :=
  ⟨_, rfl, by repeat' (first | with_reducible exact Kept.refl _ | with_reducible assumption | with_reducible apply Mach.clocked_kept | with_reducible apply completionPost_kept | intro m h)⟩
theorem execFetchEnWrite_kept (en0 : Bool) (en1 : Bool) (s : State) (rQSQ_CTRL : R REG_QSQ_CTRL) :
    ∃ t, execFetchEnWrite en0 en1 s = .next { s with m := t } ∧ Kept P R s.m t :=
  ⟨_, rfl, by repeat' (first | with_reducible exact Kept.refl _ | with_reducible assumption | with_reducible apply Mach.clocked_kept | with_reducible apply fetchEnWrite_kept | intro m h)⟩
theorem execQuietPoint_kept (s : State) (rCAL_CTRL : R REG_CAL_CTRL) (rCAL_STATUS : R REG_CAL_STATUS) (rFAB_PEND : ∀ i, i < 4 → R (REG_FAB_PEND i)) (rFAB_STATUS : R REG_FAB_STATUS) :
    ∃ t, execQuietPoint s = .next { s with m := t } ∧ Kept P R s.m t :=
  ⟨_, rfl, by repeat' (first | with_reducible exact Kept.refl _ | with_reducible assumption | with_reducible apply quietPoint_kept | intro m h)⟩
theorem execDeleteIoSq_kept (fsn : BitVec 32) (s : State) (pmedia : P .media) (phost : P .host) (pcmd : P .cmd) (rQSQ_CMDTAB : R REG_QSQ_CMDTAB) (rQSQ_HALT : ∀ i j, i < 2 → j < 4 → R (REG_QSQ_HALT i j)) (rQSQ_QHOE : ∀ i j, i < 2 → j < 4 → R (REG_QSQ_QHOE i j)) :
    ∃ t, execDeleteIoSq fsn s = .next { s with m := t } ∧ Kept P R s.m t :=
  ⟨_, rfl, by repeat' (first | with_reducible exact Kept.refl _ | with_reducible assumption | with_reducible apply deleteIoSq_kept | intro m h)⟩
theorem execCreateIoSq_kept (fsn : BitVec 32) (s : State) (phost : P .host) (pcmd : P .cmd) (rQSQ_CMDTAB : R REG_QSQ_CMDTAB) :
    ∃ t, execCreateIoSq fsn s = .next { s with m := t } ∧ Kept P R s.m t :=
  ⟨_, rfl, by repeat' (first | with_reducible exact Kept.refl _ | with_reducible assumption | with_reducible apply createIoSq_kept | intro m h)⟩
theorem execGetLogPage_kept (r : AdminReq) (e : IoEnd) (s : State) (preports : P .reports) (pout : P .out) (pbuf : P .buf) (phost : P .host) (pcmd : P .cmd) (rQSQ_CMDTAB : R REG_QSQ_CMDTAB) :
    ∃ t, execGetLogPage r e s = .next { s with m := t } ∧ Kept P R s.m t :=
  ⟨_, rfl, by repeat' (first | with_reducible exact Kept.refl _ | with_reducible assumption | with_reducible apply getLogPage_kept | intro m h)⟩
theorem execDeleteIoCq_kept (fsn : BitVec 32) (s : State) (phost : P .host) (pcmd : P .cmd) (rQSQ_CMDTAB : R REG_QSQ_CMDTAB) :
    ∃ t, execDeleteIoCq fsn s = .next { s with m := t } ∧ Kept P R s.m t :=
  ⟨_, rfl, by repeat' (first | with_reducible exact Kept.refl _ | with_reducible assumption | with_reducible apply deleteIoCq_kept | intro m h)⟩
theorem execCreateIoCq_kept (fsn : BitVec 32) (s : State) (phost : P .host) (pcmd : P .cmd) (rQSQ_CMDTAB : R REG_QSQ_CMDTAB) :
    ∃ t, execCreateIoCq fsn s = .next { s with m := t } ∧ Kept P R s.m t :=
  ⟨_, rfl, by repeat' (first | with_reducible exact Kept.refl _ | with_reducible assumption | with_reducible apply createIoCq_kept | intro m h)⟩
theorem execIdentify_kept (r : AdminReq) (e : IoEnd) (s : State) (pout : P .out) (pcmd : P .cmd) (rQSQ_CMDTAB : R REG_QSQ_CMDTAB) :
    ∃ t, execIdentify r e s = .next { s with m := t } ∧ Kept P R s.m t :=
  ⟨_, rfl, by repeat' (first | with_reducible exact Kept.refl _ | with_reducible assumption | with_reducible apply identify_kept | intro m h)⟩
theorem execAbort_kept (fsn : BitVec 32) (s : State) (pmedia : P .media) (ppwr : P .pwr) (pcmd : P .cmd) (rQSQ_CMDTAB : R REG_QSQ_CMDTAB) (rQSQ_STAT : R REG_QSQ_STAT) :
    ∃ t, execAbort fsn s = .next { s with m := t } ∧ Kept P R s.m t :=
  ⟨_, rfl, by repeat' (first | with_reducible exact Kept.refl _ | with_reducible assumption | with_reducible apply abort_kept | intro m h)⟩
theorem execSetFeatures_kept (r : AdminReq) (s : State) (preports : P .reports) (pout : P .out) (pdie : P .die) (pspn : P .spn) (ppwr : P .pwr) (phost : P .host) (pcmd : P .cmd) (rCAL_CAP : R REG_CAL_CAP) (rHIF_CC : ∀ i, i < 2 → R (REG_HIF_CC i)) (rHIF_LINK : ∀ i, i < 2 → R (REG_HIF_LINK i)) (rKSV_CTRL : R REG_KSV_CTRL) (rKSV_GENHI : R REG_KSV_GENHI) (rKSV_GENLO : R REG_KSV_GENLO) (rKSV_LIMIT : R REG_KSV_LIMIT) (rPWR_CAP : R REG_PWR_CAP) (rPWR_MODE : R REG_PWR_MODE) (rQDR_TORQ : R REG_QDR_TORQ) (rQSQ_ARB : ∀ i, i < 2 → R (REG_QSQ_ARB i)) (rQSQ_CMDTAB : R REG_QSQ_CMDTAB) (rQSQ_HALT : ∀ i j, i < 2 → j < 4 → R (REG_QSQ_HALT i j)) (rQSQ_QHOE : ∀ i j, i < 2 → j < 4 → R (REG_QSQ_QHOE i j)) (rSPN_DEMAND : R REG_SPN_DEMAND) (rSPN_ERR : R REG_SPN_ERR) (rSPN_OBS : R REG_SPN_OBS) (rSPN_SPEED : R REG_SPN_SPEED) (rSPN_STAT : R REG_SPN_STAT) (rSPN_TARGET : R REG_SPN_TARGET) (rSRV_STAT : ∀ i, i < 4 → R (REG_SRV_STAT i)) :
    ∃ t, execSetFeatures r s = .next { s with m := t } ∧ Kept P R s.m t :=
  ⟨_, rfl, by repeat' (first | with_reducible exact Kept.refl _ | with_reducible assumption | with_reducible apply setFeatures_kept | intro m h)⟩
theorem execGetFeatures_kept (r : AdminReq) (s : State) (pout : P .out) (pcmd : P .cmd) (rQSQ_CMDTAB : R REG_QSQ_CMDTAB) :
    ∃ t, execGetFeatures r s = .next { s with m := t } ∧ Kept P R s.m t :=
  ⟨_, rfl, by repeat' (first | with_reducible exact Kept.refl _ | with_reducible assumption | with_reducible apply getFeatures_kept | intro m h)⟩
theorem execAsynchronousEventRequest_kept (fsn : BitVec 32) (s : State) (phost : P .host) (pcmd : P .cmd) (rQSQ_CMDTAB : R REG_QSQ_CMDTAB) :
    ∃ t, execAsynchronousEventRequest fsn s = .next { s with m := t } ∧ Kept P R s.m t :=
  ⟨_, rfl, by repeat' (first | with_reducible exact Kept.refl _ | with_reducible assumption | with_reducible apply asynchronousEventRequest_kept | intro m h)⟩
theorem execNamespaceCreate_kept (fsn : BitVec 32) (d : NsCreate) (e : IoEnd) (s : State) (pfreeCtr : P .freeCtr) (ppwr : P .pwr) (pcmd : P .cmd) (psec : P .sec) (rKSV_REG : ∀ i, i < 4 → R (REG_KSV_REG i)) (rQSQ_CMDTAB : R REG_QSQ_CMDTAB) (rSEC_SLOTS : R REG_SEC_SLOTS) (rSEC_VAULT : R REG_SEC_VAULT) :
    ∃ t, execNamespaceCreate fsn d e s = .next { s with m := t } ∧ Kept P R s.m t :=
  ⟨_, rfl, by repeat' (first | with_reducible exact Kept.refl _ | with_reducible assumption | with_reducible apply namespaceCreate_kept | intro m h)⟩
theorem execNamespaceDelete_kept (fsn : BitVec 32) (s : State) (pfreeCtr : P .freeCtr) (preports : P .reports) (pcal : P .cal) (pmedia : P .media) (ppwr : P .pwr) (pbuf : P .buf) (phost : P .host) (pcmd : P .cmd) (psec : P .sec) (rKSV_REG : ∀ i, i < 4 → R (REG_KSV_REG i)) (rPOOL_ERR : R REG_POOL_ERR) (rPOOL_FIRST : R REG_POOL_FIRST) (rPOOL_RETSTAT : ∀ i, i < 8 → R (REG_POOL_RETSTAT i)) (rPOOL_STAT : ∀ i, i < 8 → R (REG_POOL_STAT i)) (rQSQ_CMDTAB : R REG_QSQ_CMDTAB) (rSEC_SLOTS : R REG_SEC_SLOTS) (rSEC_VAULT : R REG_SEC_VAULT) :
    ∃ t, execNamespaceDelete fsn s = .next { s with m := t } ∧ Kept P R s.m t :=
  ⟨_, rfl, by repeat' (first | with_reducible exact Kept.refl _ | with_reducible assumption | with_reducible apply Mach.keyed_kept | with_reducible apply namespaceDelete_kept | intro m h)⟩
theorem execNamespaceAttach_kept (fsn : BitVec 32) (ctrls : BitVec 2) (e : IoEnd) (s : State) (phost : P .host) (pcmd : P .cmd) (rQSQ_CMDTAB : R REG_QSQ_CMDTAB) :
    ∃ t, execNamespaceAttach fsn ctrls e s = .next { s with m := t } ∧ Kept P R s.m t :=
  ⟨_, rfl, by repeat' (first | with_reducible exact Kept.refl _ | with_reducible assumption | with_reducible apply namespaceAttach_kept | intro m h)⟩
theorem execNamespaceDetach_kept (fsn : BitVec 32) (ctrls : BitVec 2) (e : IoEnd) (s : State) (phost : P .host) (pcmd : P .cmd) (rQSQ_CMDTAB : R REG_QSQ_CMDTAB) :
    ∃ t, execNamespaceDetach fsn ctrls e s = .next { s with m := t } ∧ Kept P R s.m t :=
  ⟨_, rfl, by repeat' (first | with_reducible exact Kept.refl _ | with_reducible assumption | with_reducible apply namespaceDetach_kept | intro m h)⟩
theorem execFirmwareImageDownload_kept (fsn : BitVec 32) (data : List Byte) (e : IoEnd) (s : State) (phost : P .host) (pcmd : P .cmd) (rQSQ_CMDTAB : R REG_QSQ_CMDTAB) :
    ∃ t, execFirmwareImageDownload fsn data e s = .next { s with m := t } ∧ Kept P R s.m t :=
  ⟨_, rfl, by repeat' (first | with_reducible exact Kept.refl _ | with_reducible assumption | with_reducible apply firmwareImageDownload_kept | intro m h)⟩
theorem execFirmwareCommitReplace_kept (fsn : BitVec 32) (b : Option Bundle) (s : State) (phost : P .host) (pcmd : P .cmd) (psec : P .sec) (rQSQ_CMDTAB : R REG_QSQ_CMDTAB) :
    ∃ t, execFirmwareCommitReplace fsn b s = .next { s with m := t } ∧ Kept P R s.m t :=
  ⟨_, rfl, by repeat' (first | with_reducible exact Kept.refl _ | with_reducible assumption | with_reducible apply firmwareCommitReplace_kept | intro m h)⟩
theorem execFirmwareCommitReplaceActivate_kept (fsn : BitVec 32) (b : Option Bundle) (s : State) (phost : P .host) (pcmd : P .cmd) (psec : P .sec) (rQSQ_CMDTAB : R REG_QSQ_CMDTAB) :
    ∃ t, execFirmwareCommitReplaceActivate fsn b s = .next { s with m := t } ∧ Kept P R s.m t :=
  ⟨_, rfl, by repeat' (first | with_reducible exact Kept.refl _ | with_reducible assumption | with_reducible apply firmwareCommitReplaceActivate_kept | intro m h)⟩
theorem execFirmwareCommitActivate_kept (fsn : BitVec 32) (s : State) (preports : P .reports) (pcal : P .cal) (pbuf : P .buf) (phost : P .host) (pcmd : P .cmd) (psec : P .sec) (peng : P .eng) (rPOOL_ERR : R REG_POOL_ERR) (rPOOL_FIRST : R REG_POOL_FIRST) (rPOOL_RETSTAT : ∀ i, i < 8 → R (REG_POOL_RETSTAT i)) (rPOOL_STAT : ∀ i, i < 8 → R (REG_POOL_STAT i)) (rQSQ_CMDTAB : R REG_QSQ_CMDTAB) (rQSQ_CTRL : R REG_QSQ_CTRL) (rQSQ_DTERR : R REG_QSQ_DTERR) :
    ∃ t, execFirmwareCommitActivate fsn s = .next { s with m := t } ∧ Kept P R s.m t :=
  ⟨_, rfl, by repeat' (first | with_reducible exact Kept.refl _ | with_reducible assumption | with_reducible apply firmwareCommitActivate_kept | intro m h)⟩
theorem execFirmwareCommitActivateNow_kept (fsn : BitVec 32) (s : State) (preports : P .reports) (pcal : P .cal) (pbuf : P .buf) (phost : P .host) (pcmd : P .cmd) (psec : P .sec) (peng : P .eng) (rPOOL_ERR : R REG_POOL_ERR) (rPOOL_FIRST : R REG_POOL_FIRST) (rPOOL_RETSTAT : ∀ i, i < 8 → R (REG_POOL_RETSTAT i)) (rPOOL_STAT : ∀ i, i < 8 → R (REG_POOL_STAT i)) (rQSQ_CMDTAB : R REG_QSQ_CMDTAB) (rQSQ_CTRL : R REG_QSQ_CTRL) (rQSQ_DTERR : R REG_QSQ_DTERR) :
    ∃ t, execFirmwareCommitActivateNow fsn s = .next { s with m := t } ∧ Kept P R s.m t :=
  ⟨_, rfl, by repeat' (first | with_reducible exact Kept.refl _ | with_reducible assumption | with_reducible apply firmwareCommitActivateNow_kept | intro m h)⟩
theorem execNvmeMiSend_kept (fsn : BitVec 32) (e : IoEnd) (s : State) (preports : P .reports) (pcal : P .cal) (pmedia : P .media) (pmotion : P .motion) (pdie : P .die) (pspn : P .spn) (ppwr : P .pwr) (pbuf : P .buf) (pdma : P .dma) (phost : P .host) (pcmd : P .cmd) (psec : P .sec) (peng : P .eng) (pevt : P .evt) (prst : P .rst) (rall : ∀ a, R a) :
    ∃ t, execNvmeMiSend fsn e s = .next { s with m := t } ∧ Kept P R s.m t :=
  ⟨_, rfl, by repeat' (first | with_reducible exact Kept.refl _ | with_reducible assumption | exact rall _ | exact fun _ _ => rall _ | exact fun _ _ _ => rall _ | exact fun _ _ _ _ => rall _ | with_reducible apply nvmeMiSend_kept | intro m h)⟩
theorem execNvmeMiReceive_kept (fsn : BitVec 32) (e : IoEnd) (s : State) (pout : P .out) (pcmd : P .cmd) (rQSQ_CMDTAB : R REG_QSQ_CMDTAB) :
    ∃ t, execNvmeMiReceive fsn e s = .next { s with m := t } ∧ Kept P R s.m t :=
  ⟨_, rfl, by repeat' (first | with_reducible exact Kept.refl _ | with_reducible assumption | with_reducible apply nvmeMiReceive_kept | intro m h)⟩
theorem execFormatNvm_kept (fsn : BitVec 32) (s : State) (pfreeCtr : P .freeCtr) (preports : P .reports) (pcal : P .cal) (pmedia : P .media) (ppwr : P .pwr) (pbuf : P .buf) (phost : P .host) (pcmd : P .cmd) (psec : P .sec) (rKSV_REG : ∀ i, i < 4 → R (REG_KSV_REG i)) (rPOOL_ERR : R REG_POOL_ERR) (rPOOL_FIRST : R REG_POOL_FIRST) (rPOOL_RETSTAT : ∀ i, i < 8 → R (REG_POOL_RETSTAT i)) (rPOOL_STAT : ∀ i, i < 8 → R (REG_POOL_STAT i)) (rQSQ_CMDTAB : R REG_QSQ_CMDTAB) (rQSQ_STAT : R REG_QSQ_STAT) (rSEC_SLOTS : R REG_SEC_SLOTS) (rSEC_VAULT : R REG_SEC_VAULT) :
    ∃ t, execFormatNvm fsn s = .next { s with m := t } ∧ Kept P R s.m t :=
  ⟨_, rfl, by repeat' (first | with_reducible exact Kept.refl _ | with_reducible assumption | with_reducible apply Mach.keyed_kept | with_reducible apply formatNvm_kept | intro m h)⟩
theorem execSecuritySend_kept (fsn : BitVec 32) (op : OpalOp) (e : IoEnd) (s : State) (pfreeCtr : P .freeCtr) (ppwr : P .pwr) (pcmd : P .cmd) (psec : P .sec) (rKSV_REG : ∀ i, i < 4 → R (REG_KSV_REG i)) (rQSQ_CMDTAB : R REG_QSQ_CMDTAB) (rQSQ_STAT : R REG_QSQ_STAT) (rSEC_SLOTS : R REG_SEC_SLOTS) (rSEC_VAULT : R REG_SEC_VAULT) :
    ∃ t, execSecuritySend fsn op e s = .next { s with m := t } ∧ Kept P R s.m t :=
  ⟨_, rfl, by repeat' (first | with_reducible exact Kept.refl _ | with_reducible assumption | with_reducible apply securitySend_kept | intro m h)⟩
theorem execSecurityReceive_kept (fsn : BitVec 32) (e : IoEnd) (s : State) (pfreeCtr : P .freeCtr) (pout : P .out) (pcmd : P .cmd) (rQSQ_CMDTAB : R REG_QSQ_CMDTAB) :
    ∃ t, execSecurityReceive fsn e s = .next { s with m := t } ∧ Kept P R s.m t :=
  ⟨_, rfl, by repeat' (first | with_reducible exact Kept.refl _ | with_reducible assumption | with_reducible apply securityReceive_kept | intro m h)⟩
theorem execMaintenanceStartScrub_kept (fsn : BitVec 32) (s : State) (preports : P .reports) (pout : P .out) (pcal : P .cal) (pbuf : P .buf) (pcmd : P .cmd) (rBUF_CNT : R REG_BUF_CNT) (rBUF_ERR : R REG_BUF_ERR) (rBUF_FIRST : R REG_BUF_FIRST) (rCCH_MISS : R REG_CCH_MISS) (rQSQ_CMDTAB : R REG_QSQ_CMDTAB) (rSCB_LEN : R REG_SCB_LEN) (rSCB_PASS : R REG_SCB_PASS) (rSCB_START : R REG_SCB_START) (rSCB_STAT : R REG_SCB_STAT) :
    ∃ t, execMaintenanceStartScrub fsn s = .next { s with m := t } ∧ Kept P R s.m t :=
  ⟨_, rfl, by repeat' (first | with_reducible exact Kept.refl _ | with_reducible assumption | with_reducible apply maintenanceStartScrub_kept | intro m h)⟩
theorem execMaintenanceStartCandidate_kept (fsn : BitVec 32) (s : State) (pcmd : P .cmd) (rQSQ_CMDTAB : R REG_QSQ_CMDTAB) :
    ∃ t, execMaintenanceStartCandidate fsn s = .next { s with m := t } ∧ Kept P R s.m t :=
  ⟨_, rfl, by repeat' (first | with_reducible exact Kept.refl _ | with_reducible assumption | with_reducible apply maintenanceStartCandidate_kept | intro m h)⟩
theorem execMaintenanceStartScan_kept (fsn : BitVec 32) (s : State) (pcmd : P .cmd) (rQSQ_CMDTAB : R REG_QSQ_CMDTAB) :
    ∃ t, execMaintenanceStartScan fsn s = .next { s with m := t } ∧ Kept P R s.m t :=
  ⟨_, rfl, by repeat' (first | with_reducible exact Kept.refl _ | with_reducible assumption | with_reducible apply maintenanceStartScan_kept | intro m h)⟩
theorem execMaintenanceAbort_kept (fsn : BitVec 32) (s : State) (pcal : P .cal) (pbuf : P .buf) (pcmd : P .cmd) (rQSQ_CMDTAB : R REG_QSQ_CMDTAB) :
    ∃ t, execMaintenanceAbort fsn s = .next { s with m := t } ∧ Kept P R s.m t :=
  ⟨_, rfl, by repeat' (first | with_reducible exact Kept.refl _ | with_reducible assumption | with_reducible apply maintenanceAbort_kept | intro m h)⟩
theorem execMaintenancePassEnd_kept (k : PassKind) (count : Nat) (s : State) (phost : P .host) (pcmd : P .cmd) (rQSQ_CMDTAB : R REG_QSQ_CMDTAB) :
    ∃ t, execMaintenancePassEnd k count s = .next { s with m := t } ∧ Kept P R s.m t :=
  ⟨_, rfl, by repeat' (first | with_reducible exact Kept.refl _ | with_reducible assumption | with_reducible apply maintenancePassEnd_kept | intro m h)⟩
theorem execDepopulateActuator_kept (fsn : BitVec 32) (s : State) (preports : P .reports) (pout : P .out) (pmedia : P .media) (pmotion : P .motion) (pdie : P .die) (ppwr : P .pwr) (phost : P .host) (pcmd : P .cmd) (peng : P .eng) (rdue : ∀ n : Stream, ∀ r ∈ fmtBlock n.val, R r) (rHIF_LINK : ∀ i, i < 2 → R (REG_HIF_LINK i)) (rKSV_CTRL : R REG_KSV_CTRL) (rKSV_GENHI : R REG_KSV_GENHI) (rKSV_GENLO : R REG_KSV_GENLO) (rKSV_LIMIT : R REG_KSV_LIMIT) (rPWR_MODE : R REG_PWR_MODE) (rQDR_ACT : ∀ i, i < 4 → R (REG_QDR_ACT i)) (rQDR_ERR : R REG_QDR_ERR) (rQDR_OUT : ∀ i, i < 4 → R (REG_QDR_OUT i)) (rQSQ_CMDTAB : R REG_QSQ_CMDTAB) (rVCM_MA : ∀ i, i < 4 → R (REG_VCM_MA i)) (rVCM_STAT : ∀ i, i < 4 → R (REG_VCM_STAT i)) :
    ∃ t, execDepopulateActuator fsn s = .next { s with m := t } ∧ Kept P R s.m t :=
  ⟨_, rfl, by repeat' (first | with_reducible exact Kept.refl _ | with_reducible assumption | with_reducible apply depopulateActuator_kept | intro m h)⟩
theorem execReinstateActuator_kept (fsn : BitVec 32) (s : State) (preports : P .reports) (pout : P .out) (pmedia : P .media) (pmotion : P .motion) (pdie : P .die) (ppwr : P .pwr) (phost : P .host) (pcmd : P .cmd) (peng : P .eng) (rdue : ∀ n : Stream, ∀ r ∈ fmtBlock n.val, R r) (rHIF_LINK : ∀ i, i < 2 → R (REG_HIF_LINK i)) (rKSV_CTRL : R REG_KSV_CTRL) (rKSV_GENHI : R REG_KSV_GENHI) (rKSV_GENLO : R REG_KSV_GENLO) (rKSV_LIMIT : R REG_KSV_LIMIT) (rPWR_MODE : R REG_PWR_MODE) (rQDR_ACT : ∀ i, i < 4 → R (REG_QDR_ACT i)) (rQDR_ERR : R REG_QDR_ERR) (rQDR_OUT : ∀ i, i < 4 → R (REG_QDR_OUT i)) (rQSQ_CMDTAB : R REG_QSQ_CMDTAB) (rVCM_MA : ∀ i, i < 4 → R (REG_VCM_MA i)) (rVCM_STAT : ∀ i, i < 4 → R (REG_VCM_STAT i)) :
    ∃ t, execReinstateActuator fsn s = .next { s with m := t } ∧ Kept P R s.m t :=
  ⟨_, rfl, by repeat' (first | with_reducible exact Kept.refl _ | with_reducible assumption | with_reducible apply reinstateActuator_kept | intro m h)⟩
theorem execDepopulateHead_kept (fsn : BitVec 32) (s : State) (preports : P .reports) (pout : P .out) (pmedia : P .media) (pmotion : P .motion) (pdie : P .die) (ppwr : P .pwr) (phost : P .host) (pcmd : P .cmd) (peng : P .eng) (rdue : ∀ n : Stream, ∀ r ∈ fmtBlock n.val, R r) (rHIF_LINK : ∀ i, i < 2 → R (REG_HIF_LINK i)) (rKSV_CTRL : R REG_KSV_CTRL) (rKSV_GENHI : R REG_KSV_GENHI) (rKSV_GENLO : R REG_KSV_GENLO) (rKSV_LIMIT : R REG_KSV_LIMIT) (rPWR_MODE : R REG_PWR_MODE) (rQDR_ACT : ∀ i, i < 4 → R (REG_QDR_ACT i)) (rQSQ_CMDTAB : R REG_QSQ_CMDTAB) (rVCM_MA : ∀ i, i < 4 → R (REG_VCM_MA i)) (rVCM_STAT : ∀ i, i < 4 → R (REG_VCM_STAT i)) :
    ∃ t, execDepopulateHead fsn s = .next { s with m := t } ∧ Kept P R s.m t :=
  ⟨_, rfl, by repeat' (first | with_reducible exact Kept.refl _ | with_reducible assumption | with_reducible apply depopulateHead_kept | intro m h)⟩
theorem execReinstateHead_kept (fsn : BitVec 32) (failed : Bool) (s : State) (preports : P .reports) (pout : P .out) (pmedia : P .media) (pmotion : P .motion) (pdie : P .die) (ppwr : P .pwr) (phost : P .host) (pcmd : P .cmd) (peng : P .eng) (rdue : ∀ n : Stream, ∀ r ∈ fmtBlock n.val, R r) (rHIF_LINK : ∀ i, i < 2 → R (REG_HIF_LINK i)) (rKSV_CTRL : R REG_KSV_CTRL) (rKSV_GENHI : R REG_KSV_GENHI) (rKSV_GENLO : R REG_KSV_GENLO) (rKSV_LIMIT : R REG_KSV_LIMIT) (rPWR_MODE : R REG_PWR_MODE) (rQDR_ACT : ∀ i, i < 4 → R (REG_QDR_ACT i)) (rQSQ_CMDTAB : R REG_QSQ_CMDTAB) (rVCM_MA : ∀ i, i < 4 → R (REG_VCM_MA i)) (rVCM_STAT : ∀ i, i < 4 → R (REG_VCM_STAT i)) :
    ∃ t, execReinstateHead fsn failed s = .next { s with m := t } ∧ Kept P R s.m t :=
  ⟨_, rfl, by repeat' (first | with_reducible exact Kept.refl _ | with_reducible assumption | with_reducible apply reinstateHead_kept | intro m h)⟩
theorem execAcknowledgeBrakeFault_kept (fsn : BitVec 32) (s : State) (preports : P .reports) (pdie : P .die) (pspn : P .spn) (pcmd : P .cmd) (rQSQ_CMDTAB : R REG_QSQ_CMDTAB) (rSPN_BRK : R REG_SPN_BRK) (rSPN_ERR : R REG_SPN_ERR) (rSPN_OBS : R REG_SPN_OBS) (rSPN_SPEED : R REG_SPN_SPEED) (rSPN_STAT : R REG_SPN_STAT) (rSPN_TARGET : R REG_SPN_TARGET) (rSRV_STAT : ∀ i, i < 4 → R (REG_SRV_STAT i)) :
    ∃ t, execAcknowledgeBrakeFault fsn s = .next { s with m := t } ∧ Kept P R s.m t :=
  ⟨_, rfl, by repeat' (first | with_reducible exact Kept.refl _ | with_reducible assumption | with_reducible apply acknowledgeBrakeFault_kept | intro m h)⟩
theorem execQueueRestartResume_kept (fsn : BitVec 32) (s : State) (ppwr : P .pwr) (phost : P .host) (pcmd : P .cmd) (rQSQ_CMDTAB : R REG_QSQ_CMDTAB) (rQSQ_HALT : ∀ i j, i < 2 → j < 4 → R (REG_QSQ_HALT i j)) (rQSQ_QHOE : ∀ i j, i < 2 → j < 4 → R (REG_QSQ_QHOE i j)) (rQSQ_STAT : R REG_QSQ_STAT) :
    ∃ t, execQueueRestartResume fsn s = .next { s with m := t } ∧ Kept P R s.m t :=
  ⟨_, rfl, by repeat' (first | with_reducible exact Kept.refl _ | with_reducible assumption | with_reducible apply queueRestartResume_kept | intro m h)⟩
theorem execQueueRestartDiscard_kept (fsn : BitVec 32) (s : State) (pmedia : P .media) (ppwr : P .pwr) (phost : P .host) (pcmd : P .cmd) (rQSQ_CMDTAB : R REG_QSQ_CMDTAB) (rQSQ_HALT : ∀ i j, i < 2 → j < 4 → R (REG_QSQ_HALT i j)) (rQSQ_QHOE : ∀ i j, i < 2 → j < 4 → R (REG_QSQ_QHOE i j)) (rQSQ_STAT : R REG_QSQ_STAT) :
    ∃ t, execQueueRestartDiscard fsn s = .next { s with m := t } ∧ Kept P R s.m t :=
  ⟨_, rfl, by repeat' (first | with_reducible exact Kept.refl _ | with_reducible assumption | with_reducible apply queueRestartDiscard_kept | intro m h)⟩
theorem execFlush_kept (fsn : BitVec 32) (s : State) (pcmd : P .cmd) (rQSQ_CMDTAB : R REG_QSQ_CMDTAB) :
    ∃ t, execFlush fsn s = .next { s with m := t } ∧ Kept P R s.m t :=
  ⟨_, rfl, by repeat' (first | with_reducible exact Kept.refl _ | with_reducible assumption | with_reducible apply flush_kept | intro m h)⟩
theorem execWriteCommand_kept (fsn : BitVec 32) (e : IoEnd) (handles : List (BitVec 24)) (s : State) (ppwr : P .pwr) (pcmd : P .cmd) (psec : P .sec) (rQSQ_CMDTAB : R REG_QSQ_CMDTAB) (rSEC_SLOTS : R REG_SEC_SLOTS) (rSEC_VAULT : R REG_SEC_VAULT) :
    ∃ t, execWriteCommand fsn e handles s = .next { s with m := t } ∧ Kept P R s.m t :=
  ⟨_, rfl, by repeat' (first | with_reducible exact Kept.refl _ | with_reducible assumption | with_reducible apply Mach.keyed_kept | with_reducible apply writeCommand_kept | intro m h)⟩
theorem execRead_kept (fsn : BitVec 32) (e : IoEnd) (s : State) (preports : P .reports) (pout : P .out) (ppwr : P .pwr) (pcmd : P .cmd) (psec : P .sec) (rQSQ_CMDTAB : R REG_QSQ_CMDTAB) (rSEC_SLOTS : R REG_SEC_SLOTS) (rSEC_VAULT : R REG_SEC_VAULT) :
    ∃ t, execRead fsn e s = .next { s with m := t } ∧ Kept P R s.m t :=
  ⟨_, rfl, by repeat' (first | with_reducible exact Kept.refl _ | with_reducible assumption | with_reducible apply Mach.keyed_kept | with_reducible apply read_kept | intro m h)⟩
theorem execWriteUncorrectable_kept (fsn : BitVec 32) (s : State) (pcmd : P .cmd) (psec : P .sec) (rQSQ_CMDTAB : R REG_QSQ_CMDTAB) (rSEC_SLOTS : R REG_SEC_SLOTS) (rSEC_VAULT : R REG_SEC_VAULT) :
    ∃ t, execWriteUncorrectable fsn s = .next { s with m := t } ∧ Kept P R s.m t :=
  ⟨_, rfl, by repeat' (first | with_reducible exact Kept.refl _ | with_reducible assumption | with_reducible apply Mach.keyed_kept | with_reducible apply writeUncorrectable_kept | intro m h)⟩
theorem execCompare_kept (fsn : BitVec 32) (e : IoEnd) (s : State) (preports : P .reports) (pout : P .out) (ppwr : P .pwr) (pcmd : P .cmd) (psec : P .sec) (rQSQ_CMDTAB : R REG_QSQ_CMDTAB) (rSEC_SLOTS : R REG_SEC_SLOTS) (rSEC_VAULT : R REG_SEC_VAULT) :
    ∃ t, execCompare fsn e s = .next { s with m := t } ∧ Kept P R s.m t :=
  ⟨_, rfl, by repeat' (first | with_reducible exact Kept.refl _ | with_reducible assumption | with_reducible apply Mach.keyed_kept | with_reducible apply compare_kept | intro m h)⟩
theorem execWriteZeroes_kept (fsn : BitVec 32) (s : State) (ppwr : P .pwr) (pcmd : P .cmd) (psec : P .sec) (rQSQ_CMDTAB : R REG_QSQ_CMDTAB) (rSEC_SLOTS : R REG_SEC_SLOTS) (rSEC_VAULT : R REG_SEC_VAULT) :
    ∃ t, execWriteZeroes fsn s = .next { s with m := t } ∧ Kept P R s.m t :=
  ⟨_, rfl, by repeat' (first | with_reducible exact Kept.refl _ | with_reducible assumption | with_reducible apply Mach.keyed_kept | with_reducible apply writeZeroes_kept | intro m h)⟩
theorem execDatasetManagement_kept (fsn : BitVec 32) (s : State) (ppwr : P .pwr) (pcmd : P .cmd) (psec : P .sec) (rQSQ_CMDTAB : R REG_QSQ_CMDTAB) (rSEC_SLOTS : R REG_SEC_SLOTS) (rSEC_VAULT : R REG_SEC_VAULT) :
    ∃ t, execDatasetManagement fsn s = .next { s with m := t } ∧ Kept P R s.m t :=
  ⟨_, rfl, by repeat' (first | with_reducible exact Kept.refl _ | with_reducible assumption | with_reducible apply Mach.keyed_kept | with_reducible apply datasetManagement_kept | intro m h)⟩
theorem execVerify_kept (fsn : BitVec 32) (e : IoEnd) (s : State) (preports : P .reports) (pout : P .out) (ppwr : P .pwr) (pcmd : P .cmd) (psec : P .sec) (rQSQ_CMDTAB : R REG_QSQ_CMDTAB) (rSEC_SLOTS : R REG_SEC_SLOTS) (rSEC_VAULT : R REG_SEC_VAULT) :
    ∃ t, execVerify fsn e s = .next { s with m := t } ∧ Kept P R s.m t :=
  ⟨_, rfl, by repeat' (first | with_reducible exact Kept.refl _ | with_reducible assumption | with_reducible apply Mach.keyed_kept | with_reducible apply verify_kept | intro m h)⟩
theorem execZoneClose_kept (fsn : BitVec 32) (s : State) (preports : P .reports) (pcal : P .cal) (pmedia : P .media) (ppwr : P .pwr) (pbuf : P .buf) (pcmd : P .cmd) (rPOOL_ERR : R REG_POOL_ERR) (rPOOL_FIRST : R REG_POOL_FIRST) (rPOOL_RETSTAT : ∀ i, i < 8 → R (REG_POOL_RETSTAT i)) (rPOOL_STAT : ∀ i, i < 8 → R (REG_POOL_STAT i)) (rQSQ_CMDTAB : R REG_QSQ_CMDTAB) (rQSQ_STAT : R REG_QSQ_STAT) :
    ∃ t, execZoneClose fsn s = .next { s with m := t } ∧ Kept P R s.m t :=
  ⟨_, rfl, by repeat' (first | with_reducible exact Kept.refl _ | with_reducible assumption | with_reducible apply zoneClose_kept | intro m h)⟩
theorem execZoneFinish_kept (fsn : BitVec 32) (s : State) (preports : P .reports) (pcal : P .cal) (pmedia : P .media) (ppwr : P .pwr) (pbuf : P .buf) (pcmd : P .cmd) (psec : P .sec) (rPOOL_ERR : R REG_POOL_ERR) (rPOOL_FIRST : R REG_POOL_FIRST) (rPOOL_RETSTAT : ∀ i, i < 8 → R (REG_POOL_RETSTAT i)) (rPOOL_STAT : ∀ i, i < 8 → R (REG_POOL_STAT i)) (rQSQ_CMDTAB : R REG_QSQ_CMDTAB) (rQSQ_STAT : R REG_QSQ_STAT) (rSEC_SLOTS : R REG_SEC_SLOTS) (rSEC_VAULT : R REG_SEC_VAULT) :
    ∃ t, execZoneFinish fsn s = .next { s with m := t } ∧ Kept P R s.m t :=
  ⟨_, rfl, by repeat' (first | with_reducible exact Kept.refl _ | with_reducible assumption | with_reducible apply Mach.keyed_kept | with_reducible apply zoneFinish_kept | intro m h)⟩
theorem execZoneOpen_kept (fsn : BitVec 32) (s : State) (preports : P .reports) (pcal : P .cal) (pmedia : P .media) (ppwr : P .pwr) (pbuf : P .buf) (pcmd : P .cmd) (rPOOL_ERR : R REG_POOL_ERR) (rPOOL_FIRST : R REG_POOL_FIRST) (rPOOL_RETSTAT : ∀ i, i < 8 → R (REG_POOL_RETSTAT i)) (rPOOL_STAT : ∀ i, i < 8 → R (REG_POOL_STAT i)) (rQSQ_CMDTAB : R REG_QSQ_CMDTAB) (rQSQ_STAT : R REG_QSQ_STAT) :
    ∃ t, execZoneOpen fsn s = .next { s with m := t } ∧ Kept P R s.m t :=
  ⟨_, rfl, by repeat' (first | with_reducible exact Kept.refl _ | with_reducible assumption | with_reducible apply zoneOpen_kept | intro m h)⟩
theorem execZoneReset_kept (fsn : BitVec 32) (s : State) (preports : P .reports) (pcal : P .cal) (pmedia : P .media) (ppwr : P .pwr) (pbuf : P .buf) (pcmd : P .cmd) (psec : P .sec) (rPOOL_ERR : R REG_POOL_ERR) (rPOOL_FIRST : R REG_POOL_FIRST) (rPOOL_RETSTAT : ∀ i, i < 8 → R (REG_POOL_RETSTAT i)) (rPOOL_STAT : ∀ i, i < 8 → R (REG_POOL_STAT i)) (rQSQ_CMDTAB : R REG_QSQ_CMDTAB) (rQSQ_STAT : R REG_QSQ_STAT) (rSEC_SLOTS : R REG_SEC_SLOTS) (rSEC_VAULT : R REG_SEC_VAULT) :
    ∃ t, execZoneReset fsn s = .next { s with m := t } ∧ Kept P R s.m t :=
  ⟨_, rfl, by repeat' (first | with_reducible exact Kept.refl _ | with_reducible assumption | with_reducible apply Mach.keyed_kept | with_reducible apply zoneReset_kept | intro m h)⟩
theorem execZoneOffline_kept (fsn : BitVec 32) (s : State) (preports : P .reports) (pcal : P .cal) (pmedia : P .media) (ppwr : P .pwr) (pbuf : P .buf) (pcmd : P .cmd) (psec : P .sec) (rPOOL_ERR : R REG_POOL_ERR) (rPOOL_FIRST : R REG_POOL_FIRST) (rPOOL_RETSTAT : ∀ i, i < 8 → R (REG_POOL_RETSTAT i)) (rPOOL_STAT : ∀ i, i < 8 → R (REG_POOL_STAT i)) (rQSQ_CMDTAB : R REG_QSQ_CMDTAB) (rQSQ_STAT : R REG_QSQ_STAT) (rSEC_SLOTS : R REG_SEC_SLOTS) (rSEC_VAULT : R REG_SEC_VAULT) :
    ∃ t, execZoneOffline fsn s = .next { s with m := t } ∧ Kept P R s.m t :=
  ⟨_, rfl, by repeat' (first | with_reducible exact Kept.refl _ | with_reducible assumption | with_reducible apply Mach.keyed_kept | with_reducible apply zoneOffline_kept | intro m h)⟩
theorem execReportZones_kept (fsn : BitVec 32) (e : IoEnd) (s : State) (pout : P .out) (ppwr : P .pwr) (pcmd : P .cmd) (rQSQ_CMDTAB : R REG_QSQ_CMDTAB) (rQSQ_STAT : R REG_QSQ_STAT) :
    ∃ t, execReportZones fsn e s = .next { s with m := t } ∧ Kept P R s.m t :=
  ⟨_, rfl, by repeat' (first | with_reducible exact Kept.refl _ | with_reducible assumption | with_reducible apply reportZones_kept | intro m h)⟩
theorem execZoneAppend_kept (fsn : BitVec 32) (e : IoEnd) (handles : List (BitVec 24)) (s : State) (ppwr : P .pwr) (pcmd : P .cmd) (psec : P .sec) (rQSQ_CMDTAB : R REG_QSQ_CMDTAB) (rSEC_SLOTS : R REG_SEC_SLOTS) (rSEC_VAULT : R REG_SEC_VAULT) :
    ∃ t, execZoneAppend fsn e handles s = .next { s with m := t } ∧ Kept P R s.m t :=
  ⟨_, rfl, by repeat' (first | with_reducible exact Kept.refl _ | with_reducible assumption | with_reducible apply Mach.keyed_kept | with_reducible apply zoneAppend_kept | intro m h)⟩
theorem execMiReadDataStructure_kept (type : BitVec 8) (s : State) (pout : P .out) :
    ∃ t, execMiReadDataStructure type s = .next { s with m := t } ∧ Kept P R s.m t :=
  ⟨_, rfl, by repeat' (first | with_reducible exact Kept.refl _ | with_reducible assumption | with_reducible apply miReadDataStructure_kept | intro m h)⟩
theorem execMiSubsystemHealthPoll_kept (s : State) (pout : P .out) :
    ∃ t, execMiSubsystemHealthPoll s = .next { s with m := t } ∧ Kept P R s.m t :=
  ⟨_, rfl, by repeat' (first | with_reducible exact Kept.refl _ | with_reducible assumption | with_reducible apply miSubsystemHealthPoll_kept | intro m h)⟩
theorem execMiControllerHealthPoll_kept (p : PortId) (s : State) (pout : P .out) :
    ∃ t, execMiControllerHealthPoll p s = .next { s with m := t } ∧ Kept P R s.m t :=
  ⟨_, rfl, by repeat' (first | with_reducible exact Kept.refl _ | with_reducible assumption | with_reducible apply miControllerHealthPoll_kept | intro m h)⟩
theorem execMiConfigurationSet_kept (id : BitVec 8) (value : BitVec 16) (s : State) (pout : P .out) (pcmd : P .cmd) :
    ∃ t, execMiConfigurationSet id value s = .next { s with m := t } ∧ Kept P R s.m t :=
  ⟨_, rfl, by repeat' (first | with_reducible exact Kept.refl _ | with_reducible assumption | with_reducible apply miConfigurationSet_kept | intro m h)⟩
theorem execMiConfigurationGet_kept (id : BitVec 8) (s : State) (pout : P .out) :
    ∃ t, execMiConfigurationGet id s = .next { s with m := t } ∧ Kept P R s.m t :=
  ⟨_, rfl, by repeat' (first | with_reducible exact Kept.refl _ | with_reducible assumption | with_reducible apply miConfigurationGet_kept | intro m h)⟩
theorem execMiVpdRead_kept (offset : BitVec 16) (len : BitVec 16) (s : State) (pout : P .out) :
    ∃ t, execMiVpdRead offset len s = .next { s with m := t } ∧ Kept P R s.m t :=
  ⟨_, rfl, by repeat' (first | with_reducible exact Kept.refl _ | with_reducible assumption | with_reducible apply miVpdRead_kept | intro m h)⟩
theorem execMiReset_kept (s : State) (preports : P .reports) (pout : P .out) (pcal : P .cal) (pmedia : P .media) (pmotion : P .motion) (pdie : P .die) (pspn : P .spn) (ppwr : P .pwr) (pbuf : P .buf) (pdma : P .dma) (phost : P .host) (pcmd : P .cmd) (psec : P .sec) (peng : P .eng) (pevt : P .evt) (prst : P .rst) (rall : ∀ a, R a) :
    ∃ t, execMiReset s = .next { s with m := t } ∧ Kept P R s.m t :=
  ⟨_, rfl, by repeat' (first | with_reducible exact Kept.refl _ | with_reducible assumption | exact rall _ | exact fun _ _ => rall _ | exact fun _ _ _ => rall _ | exact fun _ _ _ _ => rall _ | with_reducible apply miReset_kept | intro m h)⟩
theorem execSmbusBasicManagement_kept (s : State) (pout : P .out) :
    ∃ t, execSmbusBasicManagement s = .next { s with m := t } ∧ Kept P R s.m t :=
  ⟨_, rfl, by repeat' (first | with_reducible exact Kept.refl _ | with_reducible assumption | with_reducible apply smbusBasicManagement_kept | intro m h)⟩
end Sys2Proof.Machine
end

