-- ==== Sys2Proof/Laws/RowsMedia.lean ====
section
/-! SUPPORT. What each command of Machine/ExecMedia.lean keeps, and that it answers a next state. -/
set_option Elab.async false
set_option linter.all false
namespace Sys2Proof.Machine
open Sys2Proof
variable {P : Part → Prop} {R : Nat → Prop} {m0 : Mach}
theorem execLaneReady_kept (l : Lane) (s : State) (pfreeCtr : P .freeCtr) (rAFE_LANE_STAT : ∀ i, i < 16 → R (REG_AFE_LANE_STAT i)) :
    ∃ t, execLaneReady l s = .next { s with m := t } ∧ Kept P R s.m t :=
  ⟨_, rfl, by repeat' (first | with_reducible exact Kept.refl _ | with_reducible assumption | with_reducible apply Mach.clocked_kept | with_reducible apply laneReady_kept | intro m h)⟩
theorem execTaSpanDetect_kept (l : Lane) (first : Nat) (s : State) (pmedia : P .media) (rAFE_LANE_STAT : ∀ i, i < 16 → R (REG_AFE_LANE_STAT i)) :
    ∃ t, execTaSpanDetect l first s = .next { s with m := t } ∧ Kept P R s.m t :=
  ⟨_, rfl, by repeat' (first | with_reducible exact Kept.refl _ | with_reducible assumption | with_reducible apply Mach.clocked_kept | with_reducible apply taSpanDetect_kept | intro m h)⟩
theorem execTaSpanEnd_kept (l : Lane) (last : Nat) (sat : Nat) (s : State) (preports : P .reports) (pmedia : P .media) (rAFE_LANE_STAT : ∀ i, i < 16 → R (REG_AFE_LANE_STAT i)) (rCHN_CNT_TA : ∀ i, i < 8 → R (REG_CHN_CNT_TA i)) :
    ∃ t, execTaSpanEnd l last sat s = .next { s with m := t } ∧ Kept P R s.m t :=
  ⟨_, rfl, by repeat' (first | with_reducible exact Kept.refl _ | with_reducible assumption | with_reducible apply Mach.clocked_kept | with_reducible apply taSpanEnd_kept | intro m h)⟩
theorem execTaGainHoldEnd_kept (l : Lane) (s : State) (pmedia : P .media) :
    ∃ t, execTaGainHoldEnd l s = .next { s with m := t } ∧ Kept P R s.m t :=
  ⟨_, rfl, by repeat' (first | with_reducible exact Kept.refl _ | with_reducible assumption | with_reducible apply Mach.clocked_kept | with_reducible apply taGainHoldEnd_kept | intro m h)⟩
theorem execAdaptWindowEnd_kept (n : Stream) (w : Samples) (errors : List Int) (s : State) (pmedia : P .media) :
    ∃ t, execAdaptWindowEnd n w errors s = .next { s with m := t } ∧ Kept P R s.m t :=
  ⟨_, rfl, by repeat' (first | with_reducible exact Kept.refl _ | with_reducible assumption | with_reducible apply Mach.clocked_kept | with_reducible apply adaptWindowEnd_kept | intro m h)⟩
theorem execSectorBoundary_kept (n : Stream) (s : State) (preports : P .reports) (pout : P .out) (pmedia : P .media) (pmotion : P .motion) (ppwr : P .pwr) (peng : P .eng) (rdue : ∀ n : Stream, ∀ r ∈ fmtBlock n.val, R r) (rCHN_TSTAT : ∀ i, i < 8 → R (REG_CHN_TSTAT i)) (rFMT_CNT_ABORT : ∀ i, i < 8 → R (REG_FMT_CNT_ABORT i)) (rFMT_CNT_MISS : ∀ i, i < 8 → R (REG_FMT_CNT_MISS i)) (rFMT_ERR : ∀ i, i < 8 → R (REG_FMT_ERR i)) (rFMT_STAT : ∀ i, i < 8 → R (REG_FMT_STAT i)) (rHSQ_ERR : ∀ i, i < 4 → R (REG_HSQ_ERR i)) (rHSQ_SEL : ∀ i j, i < 4 → j < 2 → R (REG_HSQ_SEL i j)) (rKSV_GENHI : R REG_KSV_GENHI) (rKSV_GENLO : R REG_KSV_GENLO) :
    ∃ t, execSectorBoundary n s = .next { s with m := t } ∧ Kept P R s.m t :=
  ⟨_, rfl, by repeat' (first | with_reducible exact Kept.refl _ | with_reducible assumption | with_reducible apply Mach.settled_kept | with_reducible apply clockedFmt_kept | with_reducible apply Mach.clocked_kept | with_reducible apply sectorBoundary_kept | intro m h)⟩
theorem execSectorCapture_kept (n : Stream) (samples : Samples) (s : State) (pfreeCtr : P .freeCtr) (preports : P .reports) (pmedia : P .media) (ppwr : P .pwr) (peng : P .eng) (rdue : ∀ n : Stream, ∀ r ∈ fmtBlock n.val, R r) (rAFE_LANE_STAT : ∀ i, i < 16 → R (REG_AFE_LANE_STAT i)) (rCHN_CNT_SECT : ∀ i, i < 8 → R (REG_CHN_CNT_SECT i)) (rCHN_CNT_TA : ∀ i, i < 8 → R (REG_CHN_CNT_TA i)) (rCHN_SMEM : ∀ i, i < 8 → R (REG_CHN_SMEM i)) (rFMT_CNT_ABORT : ∀ i, i < 8 → R (REG_FMT_CNT_ABORT i)) (rFMT_CNT_MISS : ∀ i, i < 8 → R (REG_FMT_CNT_MISS i)) (rFMT_ERR : ∀ i, i < 8 → R (REG_FMT_ERR i)) (rFMT_STAT : ∀ i, i < 8 → R (REG_FMT_STAT i)) :
    ∃ t, execSectorCapture n samples s = .next { s with m := t } ∧ Kept P R s.m t :=
  ⟨_, rfl, by repeat' (first | with_reducible exact Kept.refl _ | with_reducible assumption | with_reducible apply Mach.settled_kept | with_reducible apply Mach.clocked_kept | with_reducible apply sectorCapture_kept | intro m h)⟩
theorem execSyncSearchEnd_kept (n : Stream) (bits : List Bool) (phases : List Int) (s : State) (pmedia : P .media) (rCHN_TSTAT : ∀ i, i < 8 → R (REG_CHN_TSTAT i)) (rLAD_CNT_SYNC : ∀ i, i < 4 → R (REG_LAD_CNT_SYNC i)) (rLAD_SYNCSTAT : ∀ i j, i < 4 → j < 2 → R (REG_LAD_SYNCSTAT i j)) :
    ∃ t, execSyncSearchEnd n bits phases s = .next { s with m := t } ∧ Kept P R s.m t :=
  ⟨_, rfl, by repeat' (first | with_reducible exact Kept.refl _ | with_reducible assumption | with_reducible apply Mach.clocked_kept | with_reducible apply syncSearchEnd_kept | intro m h)⟩
theorem execDecoderGrant_kept (s : State) (pmedia : P .media) (rDEC_BUSY : R REG_DEC_BUSY) (rDEC_ENG : ∀ i, i < 12 → R (REG_DEC_ENG i)) :
    ∃ t, execDecoderGrant s = .next { s with m := t } ∧ Kept P R s.m t :=
  ⟨_, rfl, by repeat' (first | with_reducible exact Kept.refl _ | with_reducible assumption | with_reducible apply Mach.clocked_kept | with_reducible apply decoderGrant_kept | intro m h)⟩
theorem execDecodeComplete_kept (e : Engine) (s : State) (preports : P .reports) (pcal : P .cal) (pmedia : P .media) (pbuf : P .buf) (pcmd : P .cmd) (rCHN_SMEM : ∀ i, i < 8 → R (REG_CHN_SMEM i)) (rDEC_BUSY : R REG_DEC_BUSY) (rDEC_CNT_CRC : R REG_DEC_CNT_CRC) (rDEC_CNT_NOCONV : R REG_DEC_CNT_NOCONV) (rDEC_CNT_OTF : R REG_DEC_CNT_OTF) (rDEC_CNT_TAG : R REG_DEC_CNT_TAG) (rDEC_ENG : ∀ i, i < 12 → R (REG_DEC_ENG i)) (rDEC_ITERH : ∀ i, i < 24 → R (REG_DEC_ITERH i)) (rPOOL_ERR : R REG_POOL_ERR) (rPOOL_FIRST : R REG_POOL_FIRST) (rPOOL_RETSTAT : ∀ i, i < 8 → R (REG_POOL_RETSTAT i)) (rPOOL_STAT : ∀ i, i < 8 → R (REG_POOL_STAT i)) :
    ∃ t, execDecodeComplete e s = .next { s with m := t } ∧ Kept P R s.m t :=
  ⟨_, rfl, by repeat' (first | with_reducible exact Kept.refl _ | with_reducible assumption | with_reducible apply Mach.clocked_kept | with_reducible apply decodeComplete_kept | intro m h)⟩
theorem execWriteBackComplete_kept (k : Nat) (s : State) (preports : P .reports) (pout : P .out) (pcal : P .cal) (pmedia : P .media) (pbuf : P .buf) (pcmd : P .cmd) (rBUF_CNT : R REG_BUF_CNT) (rBUF_ERR : R REG_BUF_ERR) (rBUF_FIRST : R REG_BUF_FIRST) (rCCH_MISS : R REG_CCH_MISS) (rCHN_SMEM : ∀ i, i < 8 → R (REG_CHN_SMEM i)) (rPOOL_ERR : R REG_POOL_ERR) (rPOOL_FIRST : R REG_POOL_FIRST) (rPOOL_RETSTAT : ∀ i, i < 8 → R (REG_POOL_RETSTAT i)) (rPOOL_STAT : ∀ i, i < 8 → R (REG_POOL_STAT i)) :
    ∃ t, execWriteBackComplete k s = .next { s with m := t } ∧ Kept P R s.m t :=
  ⟨_, rfl, by repeat' (first | with_reducible exact Kept.refl _ | with_reducible assumption | with_reducible apply Mach.clocked_kept | with_reducible apply writeBackComplete_kept | intro m h)⟩
theorem execChnCdataWrite_kept (n : Stream) (data : BitVec 10) (s : State) (preports : P .reports) (pmedia : P .media) (rCHN_CADDR : ∀ i, i < 8 → R (REG_CHN_CADDR i)) (rCHN_SMEM : ∀ i, i < 8 → R (REG_CHN_SMEM i)) :
    ∃ t, execChnCdataWrite n data s = .next { s with m := t } ∧ Kept P R s.m t :=
  ⟨_, rfl, by repeat' (first | with_reducible exact Kept.refl _ | with_reducible assumption | with_reducible apply Mach.clocked_kept | with_reducible apply chnCdataWrite_kept | intro m h)⟩
theorem execChnEnWrite_kept (n : Stream) (en : Bool) (s : State) (pmedia : P .media) (rCHN_CTRL : ∀ i, i < 8 → R (REG_CHN_CTRL i)) (rLAD_SYNCSTAT : ∀ i j, i < 4 → j < 2 → R (REG_LAD_SYNCSTAT i j)) :
    ∃ t, execChnEnWrite n en s = .next { s with m := t } ∧ Kept P R s.m t :=
  ⟨_, rfl, by repeat' (first | with_reducible exact Kept.refl _ | with_reducible assumption | with_reducible apply Mach.clocked_kept | with_reducible apply chnEnWrite_kept | intro m h)⟩
theorem execChnCntclr_kept (n : Stream) (s : State) (rCHN_CNT_SECT : ∀ i, i < 8 → R (REG_CHN_CNT_SECT i)) (rCHN_CNT_TA : ∀ i, i < 8 → R (REG_CHN_CNT_TA i)) (rCHN_SMEM : ∀ i, i < 8 → R (REG_CHN_SMEM i)) :
    ∃ t, execChnCntclr n s = .next { s with m := t } ∧ Kept P R s.m t :=
  ⟨_, rfl, by repeat' (first | with_reducible exact Kept.refl _ | with_reducible assumption | with_reducible apply Mach.clocked_kept | with_reducible apply chnCntclr_kept | intro m h)⟩
theorem execDecCntclr_kept (s : State) (rDEC_CNT_CRC : R REG_DEC_CNT_CRC) (rDEC_CNT_NOCONV : R REG_DEC_CNT_NOCONV) (rDEC_CNT_OTF : R REG_DEC_CNT_OTF) (rDEC_CNT_TAG : R REG_DEC_CNT_TAG) (rDEC_ITERH : ∀ i, i < 24 → R (REG_DEC_ITERH i)) :
    ∃ t, execDecCntclr s = .next { s with m := t } ∧ Kept P R s.m t :=
  ⟨_, rfl, by repeat' (first | with_reducible exact Kept.refl _ | with_reducible assumption | with_reducible apply Mach.clocked_kept | with_reducible apply decCntclr_kept | intro m h)⟩
theorem execLoaddesc_kept (n : Stream) (inp : Bool) (s : State) (pall : ∀ p, p ≠ .fuses → P p) (rall : ∀ a, R a) :
    ∃ t, execLoaddesc n inp s = .next { s with m := t } ∧ Kept P R s.m t :=
  ⟨_, rfl, by repeat' (first | with_reducible exact Kept.refl _ | with_reducible assumption | exact pall _ (by decide) | exact rall _ | exact fun _ _ => rall _ | exact fun _ _ _ => rall _ | exact fun _ _ _ _ => rall _ | with_reducible apply Mach.settled_kept | with_reducible apply Mach.clocked_kept | with_reducible apply loaddescRow_kept | intro m h)⟩
theorem execLoadtrk_kept (n : Stream) (inp : Bool) (s : State) (pall : ∀ p, p ≠ .fuses → P p) (rall : ∀ a, R a) :
    ∃ t, execLoadtrk n inp s = .next { s with m := t } ∧ Kept P R s.m t :=
  ⟨_, rfl, by repeat' (first | with_reducible exact Kept.refl _ | with_reducible assumption | exact pall _ (by decide) | exact rall _ | exact fun _ _ => rall _ | exact fun _ _ _ => rall _ | exact fun _ _ _ _ => rall _ | with_reducible apply Mach.clocked_kept | with_reducible apply loadtrkRow_kept | intro m h)⟩
theorem execTrackLoaded_kept (n : Stream) (s : State) (preports : P .reports) (pmedia : P .media) (rFMT_CNT_ABORT : ∀ i, i < 8 → R (REG_FMT_CNT_ABORT i)) (rFMT_CNT_MISS : ∀ i, i < 8 → R (REG_FMT_CNT_MISS i)) (rFMT_CUR : ∀ i, i < 8 → R (REG_FMT_CUR i)) (rFMT_ERR : ∀ i, i < 8 → R (REG_FMT_ERR i)) (rFMT_STAT : ∀ i, i < 8 → R (REG_FMT_STAT i)) :
    ∃ t, execTrackLoaded n s = .next { s with m := t } ∧ Kept P R s.m t :=
  ⟨_, rfl, by repeat' (first | with_reducible exact Kept.refl _ | with_reducible assumption | with_reducible apply Mach.clocked_kept | with_reducible apply trackLoaded_kept | intro m h)⟩
theorem execCapture_kept (n : Stream) (inp : Bool) (s : State) (pall : ∀ p, p ≠ .fuses → P p) (rall : ∀ a, R a) :
    ∃ t, execCapture n inp s = .next { s with m := t } ∧ Kept P R s.m t :=
  ⟨_, rfl, by repeat' (first | with_reducible exact Kept.refl _ | with_reducible assumption | exact pall _ (by decide) | exact rall _ | exact fun _ _ => rall _ | exact fun _ _ _ => rall _ | exact fun _ _ _ _ => rall _ | with_reducible apply Mach.settled_kept | with_reducible apply Mach.clocked_kept | with_reducible apply captureRow_kept | intro m h)⟩
theorem execWrite_kept (n : Stream) (inp : Bool) (s : State) (pall : ∀ p, p ≠ .fuses → P p) (rall : ∀ a, R a) :
    ∃ t, execWrite n inp s = .next { s with m := t } ∧ Kept P R s.m t :=
  ⟨_, rfl, by repeat' (first | with_reducible exact Kept.refl _ | with_reducible assumption | exact pall _ (by decide) | exact rall _ | exact fun _ _ => rall _ | exact fun _ _ _ => rall _ | exact fun _ _ _ _ => rall _ | with_reducible apply Mach.settled_kept | with_reducible apply Mach.clocked_kept | with_reducible apply writeRow_kept | intro m h)⟩
theorem execComplete_kept (n : Stream) (inp : Bool) (s : State) (pall : ∀ p, p ≠ .fuses → P p) (rall : ∀ a, R a) :
    ∃ t, execComplete n inp s = .next { s with m := t } ∧ Kept P R s.m t :=
  ⟨_, rfl, by repeat' (first | with_reducible exact Kept.refl _ | with_reducible assumption | exact pall _ (by decide) | exact rall _ | exact fun _ _ => rall _ | exact fun _ _ _ => rall _ | exact fun _ _ _ _ => rall _ | with_reducible apply Mach.settled_kept | with_reducible apply Mach.clocked_kept | with_reducible apply completeRow_kept | intro m h)⟩
theorem execWritePathFetch_kept (n : Stream) (grouped : Bool) (s : State) (preports : P .reports) (pout : P .out) (pcal : P .cal) (pmedia : P .media) (pmotion : P .motion) (ppwr : P .pwr) (pbuf : P .buf) (peng : P .eng) (rdue : ∀ n : Stream, ∀ r ∈ fmtBlock n.val, R r) (rBUF_CNT : R REG_BUF_CNT) (rBUF_ERR : R REG_BUF_ERR) (rBUF_FIRST : R REG_BUF_FIRST) (rCCH_MISS : R REG_CCH_MISS) (rFMT_CNT_ABORT : ∀ i, i < 8 → R (REG_FMT_CNT_ABORT i)) (rFMT_CNT_MISS : ∀ i, i < 8 → R (REG_FMT_CNT_MISS i)) (rFMT_ERR : ∀ i, i < 8 → R (REG_FMT_ERR i)) (rFMT_STAT : ∀ i, i < 8 → R (REG_FMT_STAT i)) (rKSV_GENHI : R REG_KSV_GENHI) (rKSV_GENLO : R REG_KSV_GENLO) :
    ∃ t, execWritePathFetch n grouped s = .next { s with m := t } ∧ Kept P R s.m t :=
  ⟨_, rfl, by repeat' (first | with_reducible exact Kept.refl _ | with_reducible assumption | with_reducible apply Mach.settled_kept | with_reducible apply Mach.clocked_kept | with_reducible apply writePathFetch_kept | intro m h)⟩
theorem execCodewordReady_kept (a : Actuator) (bad : Bool) (s : State) (preports : P .reports) (pmedia : P .media) (pmotion : P .motion) (ppwr : P .pwr) (peng : P .eng) (rdue : ∀ n : Stream, ∀ r ∈ fmtBlock n.val, R r) (rFMT_CNT_ABORT : ∀ i, i < 8 → R (REG_FMT_CNT_ABORT i)) (rFMT_CNT_MISS : ∀ i, i < 8 → R (REG_FMT_CNT_MISS i)) (rFMT_ERR : ∀ i, i < 8 → R (REG_FMT_ERR i)) (rFMT_STAT : ∀ i, i < 8 → R (REG_FMT_STAT i)) (rKSV_GENHI : R REG_KSV_GENHI) (rKSV_GENLO : R REG_KSV_GENLO) :
    ∃ t, execCodewordReady a bad s = .next { s with m := t } ∧ Kept P R s.m t :=
  ⟨_, rfl, by repeat' (first | with_reducible exact Kept.refl _ | with_reducible assumption | with_reducible apply Mach.settled_kept | with_reducible apply Mach.clocked_kept | with_reducible apply codewordReady_kept | intro m h)⟩
theorem execGateMoment_kept (a : Actuator) (s : State) (preports : P .reports) (pout : P .out) (pmedia : P .media) (pmotion : P .motion) (ppwr : P .pwr) (peng : P .eng) (rdue : ∀ n : Stream, ∀ r ∈ fmtBlock n.val, R r) (rFMT_CNT_ABORT : ∀ i, i < 8 → R (REG_FMT_CNT_ABORT i)) (rFMT_CNT_MISS : ∀ i, i < 8 → R (REG_FMT_CNT_MISS i)) (rFMT_ERR : ∀ i, i < 8 → R (REG_FMT_ERR i)) (rFMT_STAT : ∀ i, i < 8 → R (REG_FMT_STAT i)) (rHSQ_ERR : ∀ i, i < 4 → R (REG_HSQ_ERR i)) (rHSQ_SEL : ∀ i j, i < 4 → j < 2 → R (REG_HSQ_SEL i j)) (rKSV_GENHI : R REG_KSV_GENHI) (rKSV_GENLO : R REG_KSV_GENLO) :
    ∃ t, execGateMoment a s = .next { s with m := t } ∧ Kept P R s.m t :=
  ⟨_, rfl, by repeat' (first | with_reducible exact Kept.refl _ | with_reducible assumption | with_reducible apply Mach.settled_kept | with_reducible apply Mach.clocked_kept | with_reducible apply gateMoment_kept | intro m h)⟩
theorem execGateReopen_kept (n : Stream) (s : State) (preports : P .reports) (pout : P .out) (pmedia : P .media) (pmotion : P .motion) (ppwr : P .pwr) (peng : P .eng) (rdue : ∀ n : Stream, ∀ r ∈ fmtBlock n.val, R r) (rFMT_CNT_ABORT : ∀ i, i < 8 → R (REG_FMT_CNT_ABORT i)) (rFMT_CNT_MISS : ∀ i, i < 8 → R (REG_FMT_CNT_MISS i)) (rFMT_ERR : ∀ i, i < 8 → R (REG_FMT_ERR i)) (rFMT_STAT : ∀ i, i < 8 → R (REG_FMT_STAT i)) (rHSQ_ERR : ∀ i, i < 4 → R (REG_HSQ_ERR i)) (rHSQ_SEL : ∀ i j, i < 4 → j < 2 → R (REG_HSQ_SEL i j)) (rKSV_GENHI : R REG_KSV_GENHI) (rKSV_GENLO : R REG_KSV_GENLO) :
    ∃ t, execGateReopen n s = .next { s with m := t } ∧ Kept P R s.m t :=
  ⟨_, rfl, by repeat' (first | with_reducible exact Kept.refl _ | with_reducible assumption | with_reducible apply Mach.settled_kept | with_reducible apply Mach.clocked_kept | with_reducible apply gateReopen_kept | intro m h)⟩
theorem execWsafeFall_kept (a : Actuator) (bits : Nat) (s : State) (preports : P .reports) (pout : P .out) (pmedia : P .media) (pmotion : P .motion) (ppwr : P .pwr) (peng : P .eng) (rdue : ∀ n : Stream, ∀ r ∈ fmtBlock n.val, R r) (rFMT_CNT_ABORT : ∀ i, i < 8 → R (REG_FMT_CNT_ABORT i)) (rFMT_CNT_MISS : ∀ i, i < 8 → R (REG_FMT_CNT_MISS i)) (rFMT_ERR : ∀ i, i < 8 → R (REG_FMT_ERR i)) (rFMT_STAT : ∀ i, i < 8 → R (REG_FMT_STAT i)) (rHSQ_ERR : ∀ i, i < 4 → R (REG_HSQ_ERR i)) (rHSQ_SEL : ∀ i j, i < 4 → j < 2 → R (REG_HSQ_SEL i j)) (rKSV_GENHI : R REG_KSV_GENHI) (rKSV_GENLO : R REG_KSV_GENLO) :
    ∃ t, execWsafeFall a bits s = .next { s with m := t } ∧ Kept P R s.m t :=
  ⟨_, rfl, by repeat' (first | with_reducible exact Kept.refl _ | with_reducible assumption | with_reducible apply Mach.settled_kept | with_reducible apply Mach.clocked_kept | with_reducible apply wsafeFall_kept | intro m h)⟩
theorem execRunEnd_kept (n : Stream) (s : State) (preports : P .reports) (pout : P .out) (pmedia : P .media) (pmotion : P .motion) (ppwr : P .pwr) (peng : P .eng) (rdue : ∀ n : Stream, ∀ r ∈ fmtBlock n.val, R r) (rFMT_CNT_ABORT : ∀ i, i < 8 → R (REG_FMT_CNT_ABORT i)) (rFMT_CNT_MISS : ∀ i, i < 8 → R (REG_FMT_CNT_MISS i)) (rFMT_ERR : ∀ i, i < 8 → R (REG_FMT_ERR i)) (rFMT_STAT : ∀ i, i < 8 → R (REG_FMT_STAT i)) (rHSQ_ERR : ∀ i, i < 4 → R (REG_HSQ_ERR i)) (rHSQ_SEL : ∀ i j, i < 4 → j < 2 → R (REG_HSQ_SEL i j)) (rKSV_GENHI : R REG_KSV_GENHI) (rKSV_GENLO : R REG_KSV_GENLO) :
    ∃ t, execRunEnd n s = .next { s with m := t } ∧ Kept P R s.m t :=
  ⟨_, rfl, by repeat' (first | with_reducible exact Kept.refl _ | with_reducible assumption | with_reducible apply Mach.settled_kept | with_reducible apply Mach.clocked_kept | with_reducible apply runEnd_kept | intro m h)⟩
theorem execFmtEnWrite_kept (n : Stream) (en : Bool) (s : State) (preports : P .reports) (pmedia : P .media) (ppwr : P .pwr) (peng : P .eng) (rdue : ∀ n : Stream, ∀ r ∈ fmtBlock n.val, R r) (rFMT_CTRL : ∀ i, i < 8 → R (REG_FMT_CTRL i)) :
    ∃ t, execFmtEnWrite n en s = .next { s with m := t } ∧ Kept P R s.m t :=
  ⟨_, rfl, by repeat' (first | with_reducible exact Kept.refl _ | with_reducible assumption | with_reducible apply Mach.settled_kept | with_reducible apply Mach.clocked_kept | with_reducible apply fmtEnWrite_kept | intro m h)⟩
theorem execFmtCntclr_kept (n : Stream) (s : State) (rFMT_CNT_ABORT : ∀ i, i < 8 → R (REG_FMT_CNT_ABORT i)) (rFMT_CNT_MISS : ∀ i, i < 8 → R (REG_FMT_CNT_MISS i)) (rFMT_CNT_WR : ∀ i, i < 8 → R (REG_FMT_CNT_WR i)) :
    ∃ t, execFmtCntclr n s = .next { s with m := t } ∧ Kept P R s.m t :=
  ⟨_, rfl, by repeat' (first | with_reducible exact Kept.refl _ | with_reducible assumption | with_reducible apply Mach.clocked_kept | with_reducible apply fmtCntclr_kept | intro m h)⟩
theorem execLadStart_kept (a : Actuator) (w : Word) (s : State) (preports : P .reports) (pmedia : P .media) (pcmd : P .cmd) (rCHN_SMEM : ∀ i, i < 8 → R (REG_CHN_SMEM i)) (rLAD_ERR : ∀ i, i < 4 → R (REG_LAD_ERR i)) (rLAD_STAT : ∀ i, i < 4 → R (REG_LAD_STAT i)) :
    ∃ t, execLadStart a w s = .next { s with m := t } ∧ Kept P R s.m t :=
  ⟨_, rfl, by repeat' (first | with_reducible exact Kept.refl _ | with_reducible assumption | with_reducible apply Mach.clocked_kept | with_reducible apply ladStart_kept | intro m h)⟩
theorem execLadRaise_kept (a : Actuator) (w : Word) (s : State) (preports : P .reports) (pmedia : P .media) (rLAD_ERR : ∀ i, i < 4 → R (REG_LAD_ERR i)) :
    ∃ t, execLadRaise a w s = .next { s with m := t } ∧ Kept P R s.m t :=
  ⟨_, rfl, by repeat' (first | with_reducible exact Kept.refl _ | with_reducible assumption | with_reducible apply Mach.clocked_kept | with_reducible apply ladRaise_kept | intro m h)⟩
theorem execAttempt_kept (a : Actuator) (inp : Bool) (s : State) (pall : ∀ p, p ≠ .fuses → P p) (rall : ∀ a, R a) :
    ∃ t, execAttempt a inp s = .next { s with m := t } ∧ Kept P R s.m t :=
  ⟨_, rfl, by repeat' (first | with_reducible exact Kept.refl _ | with_reducible assumption | exact pall _ (by decide) | exact rall _ | exact fun _ _ => rall _ | exact fun _ _ _ => rall _ | exact fun _ _ _ _ => rall _ | with_reducible apply Mach.clocked_kept | with_reducible apply attemptRow_kept | intro m h)⟩
theorem execAttemptEnd_kept (a : Actuator) (s : State) (pcal : P .cal) (pmedia : P .media) (pmotion : P .motion) (pcmd : P .cmd) (rCHN_SMEM : ∀ i, i < 8 → R (REG_CHN_SMEM i)) (rDEC_BUSY : R REG_DEC_BUSY) (rLAD_STAT : ∀ i, i < 4 → R (REG_LAD_STAT i)) (rSRV_STAT : ∀ i, i < 4 → R (REG_SRV_STAT i)) (rSRV_TARGET : ∀ i j, i < 4 → j < 2 → R (REG_SRV_TARGET i j)) :
    ∃ t, execAttemptEnd a s = .next { s with m := t } ∧ Kept P R s.m t :=
  ⟨_, rfl, by repeat' (first | with_reducible exact Kept.refl _ | with_reducible assumption | with_reducible apply Mach.clocked_kept | with_reducible apply attemptEnd_kept | intro m h)⟩
theorem execArmcap_kept (a : Actuator) (inp : Bool) (s : State) (pall : ∀ p, p ≠ .fuses → P p) (rall : ∀ a, R a) :
    ∃ t, execArmcap a inp s = .next { s with m := t } ∧ Kept P R s.m t :=
  ⟨_, rfl, by repeat' (first | with_reducible exact Kept.refl _ | with_reducible assumption | exact pall _ (by decide) | exact rall _ | exact fun _ _ => rall _ | exact fun _ _ _ => rall _ | exact fun _ _ _ _ => rall _ | with_reducible apply Mach.clocked_kept | with_reducible apply armcapRow_kept | intro m h)⟩
theorem execCaptureTaken_kept (a : Actuator) (samples : Samples) (s : State) (pfreeCtr : P .freeCtr) (preports : P .reports) (pmedia : P .media) (rAFE_LANE_STAT : ∀ i, i < 16 → R (REG_AFE_LANE_STAT i)) (rCHN_CNT_SECT : ∀ i, i < 8 → R (REG_CHN_CNT_SECT i)) (rCHN_CNT_TA : ∀ i, i < 8 → R (REG_CHN_CNT_TA i)) (rCHN_SMEM : ∀ i, i < 8 → R (REG_CHN_SMEM i)) (rLAD_STAT : ∀ i, i < 4 → R (REG_LAD_STAT i)) :
    ∃ t, execCaptureTaken a samples s = .next { s with m := t } ∧ Kept P R s.m t :=
  ⟨_, rfl, by repeat' (first | with_reducible exact Kept.refl _ | with_reducible assumption | with_reducible apply Mach.clocked_kept | with_reducible apply captureTaken_kept | intro m h)⟩
theorem execHeaterSettleEnd_kept (a : Actuator) (s : State) (pmedia : P .media) (rLAD_STAT : ∀ i, i < 4 → R (REG_LAD_STAT i)) :
    ∃ t, execHeaterSettleEnd a s = .next { s with m := t } ∧ Kept P R s.m t :=
  ⟨_, rfl, by repeat' (first | with_reducible exact Kept.refl _ | with_reducible assumption | with_reducible apply Mach.clocked_kept | with_reducible apply heaterSettleEnd_kept | intro m h)⟩
theorem execAvgadd_kept (a : Actuator) (inp : Bool) (s : State) (pall : ∀ p, p ≠ .fuses → P p) (rall : ∀ a, R a) :
    ∃ t, execAvgadd a inp s = .next { s with m := t } ∧ Kept P R s.m t :=
  ⟨_, rfl, by repeat' (first | with_reducible exact Kept.refl _ | with_reducible assumption | exact pall _ (by decide) | exact rall _ | exact fun _ _ => rall _ | exact fun _ _ _ => rall _ | exact fun _ _ _ _ => rall _ | with_reducible apply Mach.clocked_kept | with_reducible apply avgaddRow_kept | intro m h)⟩
theorem execRebuild_kept (a : Actuator) (inp : Bool) (s : State) (pall : ∀ p, p ≠ .fuses → P p) (rall : ∀ a, R a) :
    ∃ t, execRebuild a inp s = .next { s with m := t } ∧ Kept P R s.m t :=
  ⟨_, rfl, by repeat' (first | with_reducible exact Kept.refl _ | with_reducible assumption | exact pall _ (by decide) | exact rall _ | exact fun _ _ => rall _ | exact fun _ _ _ => rall _ | exact fun _ _ _ _ => rall _ | with_reducible apply Mach.clocked_kept | with_reducible apply rebuildRow_kept | intro m h)⟩
theorem execRebuildDone_kept (a : Actuator) (group : List (Option MemberRead)) (s : State) (pcal : P .cal) (pmedia : P .media) (pmotion : P .motion) (pcmd : P .cmd) (rCHN_SMEM : ∀ i, i < 8 → R (REG_CHN_SMEM i)) (rDEC_BUSY : R REG_DEC_BUSY) (rLAD_STAT : ∀ i, i < 4 → R (REG_LAD_STAT i)) (rSRV_STAT : ∀ i, i < 4 → R (REG_SRV_STAT i)) (rSRV_TARGET : ∀ i j, i < 4 → j < 2 → R (REG_SRV_TARGET i j)) :
    ∃ t, execRebuildDone a group s = .next { s with m := t } ∧ Kept P R s.m t :=
  ⟨_, rfl, by repeat' (first | with_reducible exact Kept.refl _ | with_reducible assumption | with_reducible apply Mach.clocked_kept | with_reducible apply rebuildDone_kept | intro m h)⟩
theorem execRecord_kept (a : Actuator) (inp : Bool) (s : State) (pall : ∀ p, p ≠ .fuses → P p) (rall : ∀ a, R a) :
    ∃ t, execRecord a inp s = .next { s with m := t } ∧ Kept P R s.m t :=
  ⟨_, rfl, by repeat' (first | with_reducible exact Kept.refl _ | with_reducible assumption | exact pall _ (by decide) | exact rall _ | exact fun _ _ => rall _ | exact fun _ _ _ => rall _ | exact fun _ _ _ _ => rall _ | with_reducible apply Mach.clocked_kept | with_reducible apply recordRow_kept | intro m h)⟩
theorem execJobEnd_kept (a : Actuator) (s : State) (preports : P .reports) (pout : P .out) (pmedia : P .media) (ppwr : P .pwr) (pbuf : P .buf) (pcmd : P .cmd) (psec : P .sec) (rBUF_CNT : R REG_BUF_CNT) (rBUF_ERR : R REG_BUF_ERR) (rBUF_FIRST : R REG_BUF_FIRST) (rCCH_MISS : R REG_CCH_MISS) (rFMT_DMAP_COUNT : ∀ i, i < 8 → R (REG_FMT_DMAP_COUNT i)) (rLAD_CNT_END : ∀ i, i < 4 → R (REG_LAD_CNT_END i)) (rLAD_CNT_STEP : ∀ i j, i < 4 → j < 16 → R (REG_LAD_CNT_STEP i j)) (rLAD_STAT : ∀ i, i < 4 → R (REG_LAD_STAT i)) (rSEC_SLOTS : R REG_SEC_SLOTS) (rSEC_VAULT : R REG_SEC_VAULT) :
    ∃ t, execJobEnd a s = .next { s with m := t } ∧ Kept P R s.m t :=
  ⟨_, rfl, by repeat' (first | with_reducible exact Kept.refl _ | with_reducible assumption | with_reducible apply Mach.keyed_kept | with_reducible apply Mach.clocked_kept | with_reducible apply jobEnd_kept | intro m h)⟩
theorem execLadEnWrite_kept (a : Actuator) (en : Bool) (s : State) (rLAD_CTRL : ∀ i, i < 4 → R (REG_LAD_CTRL i)) :
    ∃ t, execLadEnWrite a en s = .next { s with m := t } ∧ Kept P R s.m t :=
  ⟨_, rfl, by repeat' (first | with_reducible exact Kept.refl _ | with_reducible assumption | with_reducible apply Mach.clocked_kept | with_reducible apply ladEnWrite_kept | intro m h)⟩
theorem execLadCntclr_kept (a : Actuator) (s : State) (rLAD_CNT_END : ∀ i, i < 4 → R (REG_LAD_CNT_END i)) (rLAD_CNT_STEP : ∀ i j, i < 4 → j < 16 → R (REG_LAD_CNT_STEP i j)) (rLAD_CNT_SYNC : ∀ i, i < 4 → R (REG_LAD_CNT_SYNC i)) :
    ∃ t, execLadCntclr a s = .next { s with m := t } ∧ Kept P R s.m t :=
  ⟨_, rfl, by repeat' (first | with_reducible exact Kept.refl _ | with_reducible assumption | with_reducible apply Mach.clocked_kept | with_reducible apply ladCntclr_kept | intro m h)⟩
end Sys2Proof.Machine
end

