-- ==== Sys2Proof/Laws/RowsMotion.lean ====
section
/-! SUPPORT. What each command of Machine/ExecMotion.lean keeps, and that it answers a next state. -/
set_option Elab.async false
set_option linter.all false
namespace Sys2Proof.Machine
open Sys2Proof
variable {P : Part → Prop} {R : Nat → Prop} {m0 : Mach}
theorem execServoGateOpen_kept (a : Actuator) (k : HeadSlot) (s : State) (preports : P .reports) (pout : P .out) (pmedia : P .media) (pmotion : P .motion) (rFMT_STAT : ∀ i, i < 8 → R (REG_FMT_STAT i)) (rHSQ_ERR : ∀ i, i < 4 → R (REG_HSQ_ERR i)) (rHSQ_SEL : ∀ i j, i < 4 → j < 2 → R (REG_HSQ_SEL i j)) :
    ∃ t, execServoGateOpen a k s = .next { s with m := t } ∧ Kept P R s.m t :=
  ⟨_, rfl, by repeat' (first | with_reducible exact Kept.refl _ | with_reducible assumption | with_reducible apply Mach.clocked_kept | with_reducible apply servoGateOpen_kept | intro m h)⟩
theorem execSamSearchEnd_kept (a : Actuator) (k : HeadSlot) (x : List Bool) (y : List Bool) (s : State) (rSRV_STAT : ∀ i, i < 4 → R (REG_SRV_STAT i)) :
    ∃ t, execSamSearchEnd a k x y s = .next { s with m := t } ∧ Kept P R s.m t :=
  ⟨_, rfl, by repeat' (first | with_reducible exact Kept.refl _ | with_reducible assumption | with_reducible apply Mach.clocked_kept | with_reducible apply samSearchEnd_kept | intro m h)⟩
theorem execPesReady_kept (a : Actuator) (k : HeadSlot) (f : WedgeField) (s : State) (pfreeCtr : P .freeCtr) (preports : P .reports) (pout : P .out) (pmedia : P .media) (pmotion : P .motion) (pdie : P .die) (ppwr : P .pwr) (phost : P .host) (pcmd : P .cmd) (peng : P .eng) (rFMT : ∀ r ∈ fmtBlocks, R r) (rCHN_SMEM : ∀ i, i < 8 → R (REG_CHN_SMEM i)) (rDEC_BUSY : R REG_DEC_BUSY) (rHIF_LINK : ∀ i, i < 2 → R (REG_HIF_LINK i)) (rKSV_CTRL : R REG_KSV_CTRL) (rKSV_GENHI : R REG_KSV_GENHI) (rKSV_GENLO : R REG_KSV_GENLO) (rKSV_LIMIT : R REG_KSV_LIMIT) (rLAD_STAT : ∀ i, i < 4 → R (REG_LAD_STAT i)) (rPWR_MODE : R REG_PWR_MODE) (rQDR_ACT : ∀ i, i < 4 → R (REG_QDR_ACT i)) (rQDR_OUT : ∀ i, i < 4 → R (REG_QDR_OUT i)) (rQSQ_CMDTAB : R REG_QSQ_CMDTAB) (rSRV_CNT : ∀ i, i < 4 → R (REG_SRV_CNT i)) (rSRV_FAULT : ∀ i, i < 4 → R (REG_SRV_FAULT i)) (rSRV_PES : ∀ i j, i < 4 → j < 2 → R (REG_SRV_PES i j)) (rSRV_POS : ∀ i j, i < 4 → j < 2 → R (REG_SRV_POS i j)) (rSRV_STAT : ∀ i, i < 4 → R (REG_SRV_STAT i)) (rSRV_TARGET : ∀ i j, i < 4 → j < 2 → R (REG_SRV_TARGET i j)) (rSRV_TEST : ∀ i, i < 4 → R (REG_SRV_TEST i)) (rVCM_MA : ∀ i, i < 4 → R (REG_VCM_MA i)) (rVCM_STAT : ∀ i, i < 4 → R (REG_VCM_STAT i)) :
    ∃ t, execPesReady a k f s = .next { s with m := t } ∧ Kept P R s.m t :=
  ⟨_, rfl, by repeat' (first | with_reducible exact Kept.refl _ | with_reducible assumption | exact fun n r hr => rFMT r (List.mem_flatMap.2 ⟨n.val, List.mem_range.2 n.isLt, hr⟩) | exact fun i hi => rFMT _ (List.mem_flatMap.2 ⟨i, List.mem_range.2 hi, by simp [fmtBlock]⟩) | with_reducible apply Mach.clocked_kept | with_reducible apply Mach.watched_kept | with_reducible apply pesReady_kept | intro m h)⟩
theorem execSrvPost_kept (a : Actuator) (seq : BitVec 8) (wpermit : Bool) (s : State) (preports : P .reports) (pmotion : P .motion) (rSRV_ERR : ∀ i, i < 4 → R (REG_SRV_ERR i)) (rSRV_STAT : ∀ i, i < 4 → R (REG_SRV_STAT i)) :
    ∃ t, execSrvPost a seq wpermit s = .next { s with m := t } ∧ Kept P R s.m t :=
  ⟨_, rfl, by repeat' (first | with_reducible exact Kept.refl _ | with_reducible assumption | with_reducible apply Mach.clocked_kept | with_reducible apply srvPost_kept | intro m h)⟩
theorem execPostDeadline_kept (a : Actuator) (s : State) (preports : P .reports) (pout : P .out) (pmedia : P .media) (pmotion : P .motion) (pdie : P .die) (ppwr : P .pwr) (phost : P .host) (pcmd : P .cmd) (peng : P .eng) (rFMT : ∀ r ∈ fmtBlocks, R r) (rCHN_SMEM : ∀ i, i < 8 → R (REG_CHN_SMEM i)) (rDEC_BUSY : R REG_DEC_BUSY) (rHIF_LINK : ∀ i, i < 2 → R (REG_HIF_LINK i)) (rKSV_CTRL : R REG_KSV_CTRL) (rKSV_GENHI : R REG_KSV_GENHI) (rKSV_GENLO : R REG_KSV_GENLO) (rKSV_LIMIT : R REG_KSV_LIMIT) (rLAD_STAT : ∀ i, i < 4 → R (REG_LAD_STAT i)) (rPWR_MODE : R REG_PWR_MODE) (rQDR_ACT : ∀ i, i < 4 → R (REG_QDR_ACT i)) (rQDR_OUT : ∀ i, i < 4 → R (REG_QDR_OUT i)) (rQSQ_CMDTAB : R REG_QSQ_CMDTAB) (rSRV_CNT : ∀ i, i < 4 → R (REG_SRV_CNT i)) (rSRV_FAULT : ∀ i, i < 4 → R (REG_SRV_FAULT i)) (rSRV_STAT : ∀ i, i < 4 → R (REG_SRV_STAT i)) (rSRV_TARGET : ∀ i j, i < 4 → j < 2 → R (REG_SRV_TARGET i j)) (rVCM_MA : ∀ i, i < 4 → R (REG_VCM_MA i)) (rVCM_STAT : ∀ i, i < 4 → R (REG_VCM_STAT i)) :
    ∃ t, execPostDeadline a s = .next { s with m := t } ∧ Kept P R s.m t :=
  ⟨_, rfl, by repeat' (first | with_reducible exact Kept.refl _ | with_reducible assumption | exact fun n r hr => rFMT r (List.mem_flatMap.2 ⟨n.val, List.mem_range.2 n.isLt, hr⟩) | exact fun i hi => rFMT _ (List.mem_flatMap.2 ⟨i, List.mem_range.2 hi, by simp [fmtBlock]⟩) | with_reducible apply Mach.clocked_kept | with_reducible apply Mach.watched_kept | with_reducible apply postDeadline_kept | intro m h)⟩
theorem execApplyInstant_kept (a : Actuator) (same : BitVec 4) (s : State) (preports : P .reports) (pout : P .out) (pmedia : P .media) (pmotion : P .motion) (pdie : P .die) (ppwr : P .pwr) (phost : P .host) (pcmd : P .cmd) (peng : P .eng) (rdue : ∀ n : Stream, ∀ r ∈ fmtBlock n.val, R r) (rHIF_LINK : ∀ i, i < 2 → R (REG_HIF_LINK i)) (rKSV_CTRL : R REG_KSV_CTRL) (rKSV_GENHI : R REG_KSV_GENHI) (rKSV_GENLO : R REG_KSV_GENLO) (rKSV_LIMIT : R REG_KSV_LIMIT) (rPRG_REFA : ∀ i, i < 4 → R (REG_PRG_REFA i)) (rPRG_REFP : ∀ i, i < 4 → R (REG_PRG_REFP i)) (rPRG_REFV : ∀ i, i < 4 → R (REG_PRG_REFV i)) (rPRG_STAT : ∀ i, i < 4 → R (REG_PRG_STAT i)) (rPWR_MODE : R REG_PWR_MODE) (rQDR_ADMIT : R REG_QDR_ADMIT) (rQDR_KACC : ∀ i, i < 4 → R (REG_QDR_KACC i)) (rQDR_OUT : ∀ i, i < 4 → R (REG_QDR_OUT i)) (rQDR_PHASE : ∀ i, i < 4 → R (REG_QDR_PHASE i)) (rQDR_STAT : R REG_QDR_STAT) (rQDR_TORQ : R REG_QDR_TORQ) (rQSQ_CMDTAB : R REG_QSQ_CMDTAB) (rSRV_CFG : ∀ i, i < 4 → R (REG_SRV_CFG i)) (rSRV_STAT : ∀ i, i < 4 → R (REG_SRV_STAT i)) (rVCM_MA : ∀ i, i < 4 → R (REG_VCM_MA i)) (rVCM_STAT : ∀ i, i < 4 → R (REG_VCM_STAT i)) :
    ∃ t, execApplyInstant a same s = .next { s with m := t } ∧ Kept P R s.m t :=
  ⟨_, rfl, by repeat' (first | with_reducible exact Kept.refl _ | with_reducible assumption | with_reducible apply Mach.clocked_kept | with_reducible apply Mach.watched_kept | with_reducible apply applyInstant_kept | intro m h)⟩
theorem execSrvTargetWrite_kept (a : Actuator) (k : HeadSlot) (w : Word) (s : State) (pmotion : P .motion) (rSRV_STAT : ∀ i, i < 4 → R (REG_SRV_STAT i)) (rSRV_TARGET : ∀ i j, i < 4 → j < 2 → R (REG_SRV_TARGET i j)) :
    ∃ t, execSrvTargetWrite a k w s = .next { s with m := t } ∧ Kept P R s.m t :=
  ⟨_, rfl, by repeat' (first | with_reducible exact Kept.refl _ | with_reducible assumption | with_reducible apply Mach.clocked_kept | with_reducible apply srvTargetWrite_kept | intro m h)⟩
theorem execSrvCtrlWrite_kept (a : Actuator) (w : Word) (s : State) (pmotion : P .motion) (pdie : P .die) (rSRV_CTRL : ∀ i, i < 4 → R (REG_SRV_CTRL i)) (rSRV_STAT : ∀ i, i < 4 → R (REG_SRV_STAT i)) (rVCM_MA : ∀ i, i < 4 → R (REG_VCM_MA i)) :
    ∃ t, execSrvCtrlWrite a w s = .next { s with m := t } ∧ Kept P R s.m t :=
  ⟨_, rfl, by repeat' (first | with_reducible exact Kept.refl _ | with_reducible assumption | with_reducible apply Mach.clocked_kept | with_reducible apply srvCtrlWrite_kept | intro m h)⟩
theorem execSrvLeadWrite_kept (a : Actuator) (k : HeadSlot) (s : State) (preports : P .reports) (pmotion : P .motion) (rSRV_ERR : ∀ i, i < 4 → R (REG_SRV_ERR i)) :
    ∃ t, execSrvLeadWrite a k s = .next { s with m := t } ∧ Kept P R s.m t :=
  ⟨_, rfl, by repeat' (first | with_reducible exact Kept.refl _ | with_reducible assumption | with_reducible apply Mach.clocked_kept | with_reducible apply srvLeadWrite_kept | intro m h)⟩
theorem execSrvRroLoad_kept (a : Actuator) (k : HeadSlot) (w : Word) (s : State) (pcal : P .cal) (pmotion : P .motion) (rSRV_STAT : ∀ i, i < 4 → R (REG_SRV_STAT i)) :
    ∃ t, execSrvRroLoad a k w s = .next { s with m := t } ∧ Kept P R s.m t :=
  ⟨_, rfl, by repeat' (first | with_reducible exact Kept.refl _ | with_reducible assumption | with_reducible apply Mach.clocked_kept | with_reducible apply srvRroLoad_kept | intro m h)⟩
theorem execRroFetchDone_kept (a : Actuator) (k : HeadSlot) (s : State) (preports : P .reports) (pout : P .out) (pmotion : P .motion) (pbuf : P .buf) (rBUF_CNT : R REG_BUF_CNT) (rBUF_ERR : R REG_BUF_ERR) (rBUF_FIRST : R REG_BUF_FIRST) (rCCH_MISS : R REG_CCH_MISS) (rSRV_STAT : ∀ i, i < 4 → R (REG_SRV_STAT i)) :
    ∃ t, execRroFetchDone a k s = .next { s with m := t } ∧ Kept P R s.m t :=
  ⟨_, rfl, by repeat' (first | with_reducible exact Kept.refl _ | with_reducible assumption | with_reducible apply Mach.clocked_kept | with_reducible apply rroFetchDone_kept | intro m h)⟩
theorem execPrgStart_kept (a : Actuator) (s : State) (pmotion : P .motion) (pcmd : P .cmd) (rPRG_STAT : ∀ i, i < 4 → R (REG_PRG_STAT i)) (rQDR_ADMIT : R REG_QDR_ADMIT) (rQDR_KACC : ∀ i, i < 4 → R (REG_QDR_KACC i)) (rQDR_TORQ : R REG_QDR_TORQ) (rSRV_STAT : ∀ i, i < 4 → R (REG_SRV_STAT i)) :
    ∃ t, execPrgStart a s = .next { s with m := t } ∧ Kept P R s.m t :=
  ⟨_, rfl, by repeat' (first | with_reducible exact Kept.refl _ | with_reducible assumption | with_reducible apply Mach.clocked_kept | with_reducible apply prgStart_kept | intro m h)⟩
theorem execPlanDone_kept (a : Actuator) (s : State) (preports : P .reports) (pmotion : P .motion) (rPRG_REFA : ∀ i, i < 4 → R (REG_PRG_REFA i)) (rPRG_REFP : ∀ i, i < 4 → R (REG_PRG_REFP i)) (rPRG_REFV : ∀ i, i < 4 → R (REG_PRG_REFV i)) (rPRG_STAT : ∀ i, i < 4 → R (REG_PRG_STAT i)) (rQDR_ADMIT : R REG_QDR_ADMIT) (rQDR_KACC : ∀ i, i < 4 → R (REG_QDR_KACC i)) (rQDR_TORQ : R REG_QDR_TORQ) (rSRV_STAT : ∀ i, i < 4 → R (REG_SRV_STAT i)) :
    ∃ t, execPlanDone a s = .next { s with m := t } ∧ Kept P R s.m t :=
  ⟨_, rfl, by repeat' (first | with_reducible exact Kept.refl _ | with_reducible assumption | with_reducible apply Mach.clocked_kept | with_reducible apply planDone_kept | intro m h)⟩
theorem execPrgAbort_kept (a : Actuator) (s : State) (pmotion : P .motion) :
    ∃ t, execPrgAbort a s = .next { s with m := t } ∧ Kept P R s.m t :=
  ⟨_, rfl, by repeat' (first | with_reducible exact Kept.refl _ | with_reducible assumption | with_reducible apply Mach.clocked_kept | with_reducible apply prgAbort_kept | intro m h)⟩
theorem execQuadrilleAdmit_kept (s : State) (pmotion : P .motion) (rPRG_REFA : ∀ i, i < 4 → R (REG_PRG_REFA i)) (rPRG_REFP : ∀ i, i < 4 → R (REG_PRG_REFP i)) (rPRG_REFV : ∀ i, i < 4 → R (REG_PRG_REFV i)) (rPRG_STAT : ∀ i, i < 4 → R (REG_PRG_STAT i)) (rQDR_ADMIT : R REG_QDR_ADMIT) (rQDR_TORQ : R REG_QDR_TORQ) :
    ∃ t, execQuadrilleAdmit s = .next { s with m := t } ∧ Kept P R s.m t :=
  ⟨_, rfl, by repeat' (first | with_reducible exact Kept.refl _ | with_reducible assumption | with_reducible apply Mach.clocked_kept | with_reducible apply quadrilleAdmit_kept | intro m h)⟩
theorem execFaultEnd_kept (a : Actuator) (s : State) (preports : P .reports) (pout : P .out) (pmedia : P .media) (pmotion : P .motion) (pdie : P .die) (ppwr : P .pwr) (phost : P .host) (pcmd : P .cmd) (peng : P .eng) (rdue : ∀ n : Stream, ∀ r ∈ fmtBlock n.val, R r) (rHIF_LINK : ∀ i, i < 2 → R (REG_HIF_LINK i)) (rKSV_CTRL : R REG_KSV_CTRL) (rKSV_GENHI : R REG_KSV_GENHI) (rKSV_GENLO : R REG_KSV_GENLO) (rKSV_LIMIT : R REG_KSV_LIMIT) (rPWR_MODE : R REG_PWR_MODE) (rQDR_ACT : ∀ i, i < 4 → R (REG_QDR_ACT i)) (rQDR_ERR : R REG_QDR_ERR) (rQDR_OUT : ∀ i, i < 4 → R (REG_QDR_OUT i)) (rQSQ_CMDTAB : R REG_QSQ_CMDTAB) (rVCM_MA : ∀ i, i < 4 → R (REG_VCM_MA i)) (rVCM_STAT : ∀ i, i < 4 → R (REG_VCM_STAT i)) :
    ∃ t, execFaultEnd a s = .next { s with m := t } ∧ Kept P R s.m t :=
  ⟨_, rfl, by repeat' (first | with_reducible exact Kept.refl _ | with_reducible assumption | with_reducible apply Mach.watched_kept | with_reducible apply faultEnd_kept | intro m h)⟩
theorem execQdrBankWrite_kept (w : Word) (s : State) (pmotion : P .motion) (rQDR_CTRL : R REG_QDR_CTRL) (rQDR_OUT : ∀ i, i < 4 → R (REG_QDR_OUT i)) (rQDR_STAT : R REG_QDR_STAT) :
    ∃ t, execQdrBankWrite w s = .next { s with m := t } ∧ Kept P R s.m t :=
  ⟨_, rfl, by repeat' (first | with_reducible exact Kept.refl _ | with_reducible assumption | with_reducible apply Mach.clocked_kept | with_reducible apply qdrBankWrite_kept | intro m h)⟩
theorem execQdrCoefWrite_kept (w : Word) (s : State) (preports : P .reports) (pmotion : P .motion) (rQDR_COEF : R REG_QDR_COEF) (rQDR_ERR : R REG_QDR_ERR) :
    ∃ t, execQdrCoefWrite w s = .next { s with m := t } ∧ Kept P R s.m t :=
  ⟨_, rfl, by repeat' (first | with_reducible exact Kept.refl _ | with_reducible assumption | with_reducible apply Mach.clocked_kept | with_reducible apply qdrCoefWrite_kept | intro m h)⟩
theorem execQual_kept (a : Actuator) (bad : BitVec 24) (s : State) (preports : P .reports) (pout : P .out) (pmedia : P .media) (pmotion : P .motion) (pdie : P .die) (ppwr : P .pwr) (phost : P .host) (pcmd : P .cmd) (peng : P .eng) (rdue : ∀ n : Stream, ∀ r ∈ fmtBlock n.val, R r) (rHIF_LINK : ∀ i, i < 2 → R (REG_HIF_LINK i)) (rKSV_CTRL : R REG_KSV_CTRL) (rKSV_GENHI : R REG_KSV_GENHI) (rKSV_GENLO : R REG_KSV_GENLO) (rKSV_LIMIT : R REG_KSV_LIMIT) (rPWR_MODE : R REG_PWR_MODE) (rQDR_ACT : ∀ i, i < 4 → R (REG_QDR_ACT i)) (rQDR_ERR : R REG_QDR_ERR) (rQDR_OUT : ∀ i, i < 4 → R (REG_QDR_OUT i)) (rQSQ_CMDTAB : R REG_QSQ_CMDTAB) (rSRV_FAULT : ∀ i, i < 4 → R (REG_SRV_FAULT i)) (rVCM_MA : ∀ i, i < 4 → R (REG_VCM_MA i)) (rVCM_STAT : ∀ i, i < 4 → R (REG_VCM_STAT i)) :
    ∃ t, execQual a bad s = .next { s with m := t } ∧ Kept P R s.m t :=
  ⟨_, rfl, by repeat' (first | with_reducible exact Kept.refl _ | with_reducible assumption | with_reducible apply Mach.clocked_kept | with_reducible apply Mach.watched_kept | with_reducible apply qual_kept | intro m h)⟩
theorem execDepopWrite_kept (a : Actuator) (b : Bool) (s : State) (preports : P .reports) (pout : P .out) (pmedia : P .media) (pmotion : P .motion) (pdie : P .die) (ppwr : P .pwr) (phost : P .host) (pcmd : P .cmd) (peng : P .eng) (rdue : ∀ n : Stream, ∀ r ∈ fmtBlock n.val, R r) (rHIF_LINK : ∀ i, i < 2 → R (REG_HIF_LINK i)) (rKSV_CTRL : R REG_KSV_CTRL) (rKSV_GENHI : R REG_KSV_GENHI) (rKSV_GENLO : R REG_KSV_GENLO) (rKSV_LIMIT : R REG_KSV_LIMIT) (rPWR_MODE : R REG_PWR_MODE) (rQDR_ACT : ∀ i, i < 4 → R (REG_QDR_ACT i)) (rQDR_ERR : R REG_QDR_ERR) (rQDR_OUT : ∀ i, i < 4 → R (REG_QDR_OUT i)) (rQSQ_CMDTAB : R REG_QSQ_CMDTAB) (rVCM_MA : ∀ i, i < 4 → R (REG_VCM_MA i)) (rVCM_STAT : ∀ i, i < 4 → R (REG_VCM_STAT i)) :
    ∃ t, execDepopWrite a b s = .next { s with m := t } ∧ Kept P R s.m t :=
  ⟨_, rfl, by repeat' (first | with_reducible exact Kept.refl _ | with_reducible assumption | with_reducible apply Mach.clocked_kept | with_reducible apply Mach.watched_kept | with_reducible apply depopWrite_kept | intro m h)⟩
theorem execSelect_kept (a : Actuator) (inp : Bool) (s : State) (pall : ∀ p, p ≠ .fuses → P p) (rall : ∀ a, R a) :
    ∃ t, execSelect a inp s = .next { s with m := t } ∧ Kept P R s.m t :=
  ⟨_, rfl, by repeat' (first | with_reducible exact Kept.refl _ | with_reducible assumption | exact pall _ (by decide) | exact rall _ | exact fun _ _ => rall _ | exact fun _ _ _ => rall _ | exact fun _ _ _ _ => rall _ | with_reducible apply Mach.clocked_kept | with_reducible apply selectRow_kept | intro m h)⟩
theorem execHeadSelectSettle_kept (a : Actuator) (k : HeadSlot) (s : State) (pmotion : P .motion) (rHSQ_SEL : ∀ i j, i < 4 → j < 2 → R (REG_HSQ_SEL i j)) :
    ∃ t, execHeadSelectSettle a k s = .next { s with m := t } ∧ Kept P R s.m t :=
  ⟨_, rfl, by repeat' (first | with_reducible exact Kept.refl _ | with_reducible assumption | with_reducible apply Mach.clocked_kept | with_reducible apply headSelectSettle_kept | intro m h)⟩
theorem execWframe_kept (a : Actuator) (inp : Bool) (s : State) (pall : ∀ p, p ≠ .fuses → P p) (rall : ∀ a, R a) :
    ∃ t, execWframe a inp s = .next { s with m := t } ∧ Kept P R s.m t :=
  ⟨_, rfl, by repeat' (first | with_reducible exact Kept.refl _ | with_reducible assumption | exact pall _ (by decide) | exact rall _ | exact fun _ _ => rall _ | exact fun _ _ _ => rall _ | exact fun _ _ _ _ => rall _ | with_reducible apply Mach.clocked_kept | with_reducible apply wframeRow_kept | intro m h)⟩
theorem execRframe_kept (a : Actuator) (inp : Bool) (s : State) (pall : ∀ p, p ≠ .fuses → P p) (rall : ∀ a, R a) :
    ∃ t, execRframe a inp s = .next { s with m := t } ∧ Kept P R s.m t :=
  ⟨_, rfl, by repeat' (first | with_reducible exact Kept.refl _ | with_reducible assumption | exact pall _ (by decide) | exact rall _ | exact fun _ _ => rall _ | exact fun _ _ _ => rall _ | exact fun _ _ _ _ => rall _ | with_reducible apply Mach.clocked_kept | with_reducible apply rframeRow_kept | intro m h)⟩
theorem execFramedone_kept (a : Actuator) (data : BitVec 16) (s : State) (pfreeCtr : P .freeCtr) (preports : P .reports) (pout : P .out) (pmotion : P .motion) (peng : P .eng) (rHSQ_ERR : ∀ i, i < 4 → R (REG_HSQ_ERR i)) (rHSQ_SEL : ∀ i j, i < 4 → j < 2 → R (REG_HSQ_SEL i j)) (rSRV_STAT : ∀ i, i < 4 → R (REG_SRV_STAT i)) :
    ∃ t, execFramedone a data s = .next { s with m := t } ∧ Kept P R s.m t :=
  ⟨_, rfl, by repeat' (first | with_reducible exact Kept.refl _ | with_reducible assumption | with_reducible apply Mach.clocked_kept | with_reducible apply framedone_kept | intro m h)⟩
theorem execGatearm_kept (a : Actuator) (inp : Bool) (s : State) (pall : ∀ p, p ≠ .fuses → P p) (rall : ∀ a, R a) :
    ∃ t, execGatearm a inp s = .next { s with m := t } ∧ Kept P R s.m t :=
  ⟨_, rfl, by repeat' (first | with_reducible exact Kept.refl _ | with_reducible assumption | exact pall _ (by decide) | exact rall _ | exact fun _ _ => rall _ | exact fun _ _ _ => rall _ | exact fun _ _ _ _ => rall _ | with_reducible apply Mach.clocked_kept | with_reducible apply gatearmRow_kept | intro m h)⟩
theorem execPaFaultAssert_kept (a : Actuator) (s : State) (preports : P .reports) (rHSQ_FAULT : ∀ i, i < 4 → R (REG_HSQ_FAULT i)) (rSRV_STAT : ∀ i, i < 4 → R (REG_SRV_STAT i)) :
    ∃ t, execPaFaultAssert a s = .next { s with m := t } ∧ Kept P R s.m t :=
  ⟨_, rfl, by repeat' (first | with_reducible exact Kept.refl _ | with_reducible assumption | with_reducible apply Mach.clocked_kept | with_reducible apply paFaultAssert_kept | intro m h)⟩
end Sys2Proof.Machine
end

