-- ==== Sys2Proof/Laws/RowsPower.lean ====
section
/-! SUPPORT. What each command of Machine/ExecPower.lean keeps, and that it answers a next state. -/
set_option Elab.async false
set_option linter.all false
namespace Sys2Proof.Machine
open Sys2Proof
variable {P : Part → Prop} {R : Nat → Prop} {m0 : Mach}
theorem execStatusFrame_kept (s : State) (pdie : P .die) :
    ∃ t, execStatusFrame s = .next { s with m := t } ∧ Kept P R s.m t :=
  ⟨_, rfl, by repeat' (first | with_reducible exact Kept.refl _ | with_reducible assumption | with_reducible apply Mach.clocked_kept | with_reducible apply statusFrame_kept | intro m h)⟩
theorem execStatusFrameTimeout_kept (s : State) (pdie : P .die) (pspn : P .spn) (rVCM_MA : ∀ i, i < 4 → R (REG_VCM_MA i)) (rVCM_STAT : ∀ i, i < 4 → R (REG_VCM_STAT i)) :
    ∃ t, execStatusFrameTimeout s = .next { s with m := t } ∧ Kept P R s.m t :=
  ⟨_, rfl, by repeat' (first | with_reducible exact Kept.refl _ | with_reducible assumption | with_reducible apply statusFrameTimeout_kept | intro m h)⟩
theorem execDrvOc_kept (a : Actuator) (s : State) (preports : P .reports) (pout : P .out) (pmedia : P .media) (pmotion : P .motion) (pdie : P .die) (ppwr : P .pwr) (phost : P .host) (pcmd : P .cmd) (peng : P .eng) (rFMT : ∀ r ∈ fmtBlocks, R r) (rCHN_SMEM : ∀ i, i < 8 → R (REG_CHN_SMEM i)) (rDEC_BUSY : R REG_DEC_BUSY) (rHIF_LINK : ∀ i, i < 2 → R (REG_HIF_LINK i)) (rKSV_CTRL : R REG_KSV_CTRL) (rKSV_GENHI : R REG_KSV_GENHI) (rKSV_GENLO : R REG_KSV_GENLO) (rKSV_LIMIT : R REG_KSV_LIMIT) (rLAD_STAT : ∀ i, i < 4 → R (REG_LAD_STAT i)) (rPWR_MODE : R REG_PWR_MODE) (rQDR_ACT : ∀ i, i < 4 → R (REG_QDR_ACT i)) (rQDR_OUT : ∀ i, i < 4 → R (REG_QDR_OUT i)) (rQSQ_CMDTAB : R REG_QSQ_CMDTAB) (rSRV_FAULT : ∀ i, i < 4 → R (REG_SRV_FAULT i)) (rSRV_STAT : ∀ i, i < 4 → R (REG_SRV_STAT i)) (rSRV_TARGET : ∀ i j, i < 4 → j < 2 → R (REG_SRV_TARGET i j)) (rVCM_FAULT : ∀ i, i < 4 → R (REG_VCM_FAULT i)) (rVCM_MA : ∀ i, i < 4 → R (REG_VCM_MA i)) (rVCM_STAT : ∀ i, i < 4 → R (REG_VCM_STAT i)) :
    ∃ t, execDrvOc a s = .next { s with m := t } ∧ Kept P R s.m t :=
  ⟨_, rfl, by repeat' (first | with_reducible exact Kept.refl _ | with_reducible assumption | exact fun n r hr => rFMT r (List.mem_flatMap.2 ⟨n.val, List.mem_range.2 n.isLt, hr⟩) | exact fun i hi => rFMT _ (List.mem_flatMap.2 ⟨i, List.mem_range.2 hi, by simp [fmtBlock]⟩) | with_reducible apply Mach.watched_kept | with_reducible apply drvOc_kept | intro m h)⟩
theorem execDrvOpen_kept (a : Actuator) (s : State) (preports : P .reports) (pout : P .out) (pmedia : P .media) (pmotion : P .motion) (pdie : P .die) (ppwr : P .pwr) (phost : P .host) (pcmd : P .cmd) (peng : P .eng) (rFMT : ∀ r ∈ fmtBlocks, R r) (rCHN_SMEM : ∀ i, i < 8 → R (REG_CHN_SMEM i)) (rDEC_BUSY : R REG_DEC_BUSY) (rHIF_LINK : ∀ i, i < 2 → R (REG_HIF_LINK i)) (rKSV_CTRL : R REG_KSV_CTRL) (rKSV_GENHI : R REG_KSV_GENHI) (rKSV_GENLO : R REG_KSV_GENLO) (rKSV_LIMIT : R REG_KSV_LIMIT) (rLAD_STAT : ∀ i, i < 4 → R (REG_LAD_STAT i)) (rPWR_MODE : R REG_PWR_MODE) (rQDR_ACT : ∀ i, i < 4 → R (REG_QDR_ACT i)) (rQDR_OUT : ∀ i, i < 4 → R (REG_QDR_OUT i)) (rQSQ_CMDTAB : R REG_QSQ_CMDTAB) (rSRV_FAULT : ∀ i, i < 4 → R (REG_SRV_FAULT i)) (rSRV_STAT : ∀ i, i < 4 → R (REG_SRV_STAT i)) (rSRV_TARGET : ∀ i j, i < 4 → j < 2 → R (REG_SRV_TARGET i j)) (rVCM_FAULT : ∀ i, i < 4 → R (REG_VCM_FAULT i)) (rVCM_MA : ∀ i, i < 4 → R (REG_VCM_MA i)) (rVCM_STAT : ∀ i, i < 4 → R (REG_VCM_STAT i)) :
    ∃ t, execDrvOpen a s = .next { s with m := t } ∧ Kept P R s.m t :=
  ⟨_, rfl, by repeat' (first | with_reducible exact Kept.refl _ | with_reducible assumption | exact fun n r hr => rFMT r (List.mem_flatMap.2 ⟨n.val, List.mem_range.2 n.isLt, hr⟩) | exact fun i hi => rFMT _ (List.mem_flatMap.2 ⟨i, List.mem_range.2 hi, by simp [fmtBlock]⟩) | with_reducible apply Mach.watched_kept | with_reducible apply drvOpen_kept | intro m h)⟩
theorem execDrvMaLimit_kept (a : Actuator) (k : HeadSlot) (s : State) (preports : P .reports) (pout : P .out) (pmedia : P .media) (pmotion : P .motion) (pdie : P .die) (ppwr : P .pwr) (phost : P .host) (pcmd : P .cmd) (peng : P .eng) (rFMT : ∀ r ∈ fmtBlocks, R r) (rCHN_SMEM : ∀ i, i < 8 → R (REG_CHN_SMEM i)) (rDEC_BUSY : R REG_DEC_BUSY) (rHIF_LINK : ∀ i, i < 2 → R (REG_HIF_LINK i)) (rKSV_CTRL : R REG_KSV_CTRL) (rKSV_GENHI : R REG_KSV_GENHI) (rKSV_GENLO : R REG_KSV_GENLO) (rKSV_LIMIT : R REG_KSV_LIMIT) (rLAD_STAT : ∀ i, i < 4 → R (REG_LAD_STAT i)) (rPWR_MODE : R REG_PWR_MODE) (rQDR_ACT : ∀ i, i < 4 → R (REG_QDR_ACT i)) (rQDR_OUT : ∀ i, i < 4 → R (REG_QDR_OUT i)) (rQSQ_CMDTAB : R REG_QSQ_CMDTAB) (rSRV_FAULT : ∀ i, i < 4 → R (REG_SRV_FAULT i)) (rSRV_STAT : ∀ i, i < 4 → R (REG_SRV_STAT i)) (rSRV_TARGET : ∀ i j, i < 4 → j < 2 → R (REG_SRV_TARGET i j)) (rVCM_FAULT : ∀ i, i < 4 → R (REG_VCM_FAULT i)) (rVCM_MA : ∀ i, i < 4 → R (REG_VCM_MA i)) (rVCM_STAT : ∀ i, i < 4 → R (REG_VCM_STAT i)) :
    ∃ t, execDrvMaLimit a k s = .next { s with m := t } ∧ Kept P R s.m t :=
  ⟨_, rfl, by repeat' (first | with_reducible exact Kept.refl _ | with_reducible assumption | exact fun n r hr => rFMT r (List.mem_flatMap.2 ⟨n.val, List.mem_range.2 n.isLt, hr⟩) | exact fun i hi => rFMT _ (List.mem_flatMap.2 ⟨i, List.mem_range.2 hi, by simp [fmtBlock]⟩) | with_reducible apply Mach.watched_kept | with_reducible apply drvMaLimit_kept | intro m h)⟩
theorem execDrvOt_kept (s : State) (preports : P .reports) (pout : P .out) (pmedia : P .media) (pmotion : P .motion) (pdie : P .die) (pspn : P .spn) (ppwr : P .pwr) (phost : P .host) (pcmd : P .cmd) (peng : P .eng) (rFMT : ∀ r ∈ fmtBlocks, R r) (rCHN_SMEM : ∀ i, i < 8 → R (REG_CHN_SMEM i)) (rDEC_BUSY : R REG_DEC_BUSY) (rHIF_LINK : ∀ i, i < 2 → R (REG_HIF_LINK i)) (rKSV_CTRL : R REG_KSV_CTRL) (rKSV_GENHI : R REG_KSV_GENHI) (rKSV_GENLO : R REG_KSV_GENLO) (rKSV_LIMIT : R REG_KSV_LIMIT) (rLAD_STAT : ∀ i, i < 4 → R (REG_LAD_STAT i)) (rPWR_MODE : R REG_PWR_MODE) (rQDR_ACT : ∀ i, i < 4 → R (REG_QDR_ACT i)) (rQDR_OUT : ∀ i, i < 4 → R (REG_QDR_OUT i)) (rQSQ_CMDTAB : R REG_QSQ_CMDTAB) (rSRV_FAULT : ∀ i, i < 4 → R (REG_SRV_FAULT i)) (rSRV_STAT : ∀ i, i < 4 → R (REG_SRV_STAT i)) (rSRV_TARGET : ∀ i j, i < 4 → j < 2 → R (REG_SRV_TARGET i j)) (rVCM_FAULT : ∀ i, i < 4 → R (REG_VCM_FAULT i)) (rVCM_MA : ∀ i, i < 4 → R (REG_VCM_MA i)) (rVCM_STAT : ∀ i, i < 4 → R (REG_VCM_STAT i)) (rVCM_TEMP : R REG_VCM_TEMP) :
    ∃ t, execDrvOt s = .next { s with m := t } ∧ Kept P R s.m t :=
  ⟨_, rfl, by repeat' (first | with_reducible exact Kept.refl _ | with_reducible assumption | exact fun n r hr => rFMT r (List.mem_flatMap.2 ⟨n.val, List.mem_range.2 n.isLt, hr⟩) | exact fun i hi => rFMT _ (List.mem_flatMap.2 ⟨i, List.mem_range.2 hi, by simp [fmtBlock]⟩) | with_reducible apply Mach.watched_kept | with_reducible apply drvOt_kept | intro m h)⟩
theorem execPowerDieWarn_kept (s : State) (preports : P .reports) (pdie : P .die) (rVCM_TEMP : R REG_VCM_TEMP) :
    ∃ t, execPowerDieWarn s = .next { s with m := t } ∧ Kept P R s.m t :=
  ⟨_, rfl, by repeat' (first | with_reducible exact Kept.refl _ | with_reducible assumption | with_reducible apply powerDieWarn_kept | intro m h)⟩
theorem execListenEnd_kept (s : State) (pdie : P .die) (pspn : P .spn) (rSPN_STAT : R REG_SPN_STAT) (rSPN_TARGET : R REG_SPN_TARGET) (rSRV_STAT : ∀ i, i < 4 → R (REG_SRV_STAT i)) :
    ∃ t, execListenEnd s = .next { s with m := t } ∧ Kept P R s.m t :=
  ⟨_, rfl, by repeat' (first | with_reducible exact Kept.refl _ | with_reducible assumption | with_reducible apply Mach.clocked_kept | with_reducible apply listenEnd_kept | intro m h)⟩
theorem execStopbrakeEnd_kept (s : State) (pdie : P .die) (pspn : P .spn) (rSPN_STAT : R REG_SPN_STAT) (rSPN_TARGET : R REG_SPN_TARGET) (rSRV_STAT : ∀ i, i < 4 → R (REG_SRV_STAT i)) :
    ∃ t, execStopbrakeEnd s = .next { s with m := t } ∧ Kept P R s.m t :=
  ⟨_, rfl, by repeat' (first | with_reducible exact Kept.refl _ | with_reducible assumption | with_reducible apply Mach.clocked_kept | with_reducible apply stopbrakeEnd_kept | intro m h)⟩
theorem execAlignEnd_kept (s : State) (pdie : P .die) (pspn : P .spn) (rSPN_OBS : R REG_SPN_OBS) (rSPN_SPEED : R REG_SPN_SPEED) (rSPN_STAT : R REG_SPN_STAT) (rSPN_TARGET : R REG_SPN_TARGET) (rSRV_STAT : ∀ i, i < 4 → R (REG_SRV_STAT i)) :
    ∃ t, execAlignEnd s = .next { s with m := t } ∧ Kept P R s.m t :=
  ⟨_, rfl, by repeat' (first | with_reducible exact Kept.refl _ | with_reducible assumption | with_reducible apply Mach.clocked_kept | with_reducible apply alignEnd_kept | intro m h)⟩
theorem execRampTimeout_kept (s : State) (preports : P .reports) (pdie : P .die) (pspn : P .spn) (rSPN_FAULT : R REG_SPN_FAULT) (rSPN_OBS : R REG_SPN_OBS) (rSPN_SPEED : R REG_SPN_SPEED) (rSPN_STAT : R REG_SPN_STAT) (rSPN_TARGET : R REG_SPN_TARGET) (rSRV_STAT : ∀ i, i < 4 → R (REG_SRV_STAT i)) :
    ∃ t, execRampTimeout s = .next { s with m := t } ∧ Kept P R s.m t :=
  ⟨_, rfl, by repeat' (first | with_reducible exact Kept.refl _ | with_reducible assumption | with_reducible apply Mach.clocked_kept | with_reducible apply rampTimeout_kept | intro m h)⟩
theorem execObserverUpdate_kept (x : Sensed) (s : State) (pfreeCtr : P .freeCtr) (preports : P .reports) (pdie : P .die) (pspn : P .spn) (rSPN_ERR : R REG_SPN_ERR) (rSPN_FAULT : R REG_SPN_FAULT) (rSPN_KE : R REG_SPN_KE) (rSPN_OBS : R REG_SPN_OBS) (rSPN_SPEED : R REG_SPN_SPEED) (rSPN_STAT : R REG_SPN_STAT) (rSPN_TARGET : R REG_SPN_TARGET) (rSRV_STAT : ∀ i, i < 4 → R (REG_SRV_STAT i)) (rVCM_MA : ∀ i, i < 4 → R (REG_VCM_MA i)) (rVCM_STAT : ∀ i, i < 4 → R (REG_VCM_STAT i)) (rVCM_TEMP : R REG_VCM_TEMP) :
    ∃ t, execObserverUpdate x s = .next { s with m := t } ∧ Kept P R s.m t :=
  ⟨_, rfl, by repeat' (first | with_reducible exact Kept.refl _ | with_reducible assumption | with_reducible apply Mach.clocked_kept | with_reducible apply observerUpdate_kept | intro m h)⟩
theorem execElectricalPeriodEnd_kept (s : State) (preports : P .reports) (pmedia : P .media) (pdie : P .die) (pspn : P .spn) (rSPN_CNT : R REG_SPN_CNT) (rSPN_ERR : R REG_SPN_ERR) (rSPN_FAULT : R REG_SPN_FAULT) (rSPN_KE : R REG_SPN_KE) (rSPN_OBS : R REG_SPN_OBS) (rSPN_SPEED : R REG_SPN_SPEED) (rSPN_STAT : R REG_SPN_STAT) (rSPN_TARGET : R REG_SPN_TARGET) (rSRV_STAT : ∀ i, i < 4 → R (REG_SRV_STAT i)) (rVCM_MA : ∀ i, i < 4 → R (REG_VCM_MA i)) (rVCM_STAT : ∀ i, i < 4 → R (REG_VCM_STAT i)) :
    ∃ t, execElectricalPeriodEnd s = .next { s with m := t } ∧ Kept P R s.m t :=
  ⟨_, rfl, by repeat' (first | with_reducible exact Kept.refl _ | with_reducible assumption | with_reducible apply Mach.clocked_kept | with_reducible apply electricalPeriodEnd_kept | intro m h)⟩
theorem execCatchTimeout_kept (s : State) (preports : P .reports) (pdie : P .die) (pspn : P .spn) (rSPN_CNT : R REG_SPN_CNT) (rSPN_STAT : R REG_SPN_STAT) (rSPN_TARGET : R REG_SPN_TARGET) (rSRV_STAT : ∀ i, i < 4 → R (REG_SRV_STAT i)) (rVCM_MA : ∀ i, i < 4 → R (REG_VCM_MA i)) (rVCM_STAT : ∀ i, i < 4 → R (REG_VCM_STAT i)) :
    ∃ t, execCatchTimeout s = .next { s with m := t } ∧ Kept P R s.m t :=
  ⟨_, rfl, by repeat' (first | with_reducible exact Kept.refl _ | with_reducible assumption | with_reducible apply Mach.clocked_kept | with_reducible apply catchTimeout_kept | intro m h)⟩
theorem execInhibitRelease_kept (s : State) (pspn : P .spn) (rSPN_STAT : R REG_SPN_STAT) :
    ∃ t, execInhibitRelease s = .next { s with m := t } ∧ Kept P R s.m t :=
  ⟨_, rfl, by repeat' (first | with_reducible exact Kept.refl _ | with_reducible assumption | with_reducible apply Mach.clocked_kept | with_reducible apply inhibitRelease_kept | intro m h)⟩
theorem execSpnDemandWrite_kept (level : BitVec 8) (s : State) (preports : P .reports) (pdie : P .die) (pspn : P .spn) (rSPN_DEMAND : R REG_SPN_DEMAND) (rSPN_ERR : R REG_SPN_ERR) (rSPN_OBS : R REG_SPN_OBS) (rSPN_SPEED : R REG_SPN_SPEED) (rSPN_STAT : R REG_SPN_STAT) (rSPN_TARGET : R REG_SPN_TARGET) (rSRV_STAT : ∀ i, i < 4 → R (REG_SRV_STAT i)) :
    ∃ t, execSpnDemandWrite level s = .next { s with m := t } ∧ Kept P R s.m t :=
  ⟨_, rfl, by repeat' (first | with_reducible exact Kept.refl _ | with_reducible assumption | with_reducible apply Mach.clocked_kept | with_reducible apply spnDemandWrite_kept | intro m h)⟩
theorem execSpnCtrlWrite_kept (w : Word) (s : State) (preports : P .reports) (pdie : P .die) (pspn : P .spn) (rSPN_CTRL : R REG_SPN_CTRL) (rSPN_ERR : R REG_SPN_ERR) (rSPN_OBS : R REG_SPN_OBS) (rSPN_SPEED : R REG_SPN_SPEED) (rSPN_STAT : R REG_SPN_STAT) (rSPN_TARGET : R REG_SPN_TARGET) (rSRV_STAT : ∀ i, i < 4 → R (REG_SRV_STAT i)) :
    ∃ t, execSpnCtrlWrite w s = .next { s with m := t } ∧ Kept P R s.m t :=
  ⟨_, rfl, by repeat' (first | with_reducible exact Kept.refl _ | with_reducible assumption | with_reducible apply Mach.clocked_kept | with_reducible apply spnCtrlWrite_kept | intro m h)⟩
theorem execStoppingBegin_kept (s : State) (pdie : P .die) (pspn : P .spn) (rSPN_STAT : R REG_SPN_STAT) (rSPN_TARGET : R REG_SPN_TARGET) (rSRV_STAT : ∀ i, i < 4 → R (REG_SRV_STAT i)) :
    ∃ t, execStoppingBegin s = .next { s with m := t } ∧ Kept P R s.m t :=
  ⟨_, rfl, by repeat' (first | with_reducible exact Kept.refl _ | with_reducible assumption | with_reducible apply Mach.clocked_kept | with_reducible apply stoppingBegin_kept | intro m h)⟩
theorem execStoppedDetect_kept (s : State) (pdie : P .die) (pspn : P .spn) (rSPN_OBS : R REG_SPN_OBS) (rSPN_SPEED : R REG_SPN_SPEED) (rSPN_STAT : R REG_SPN_STAT) (rSPN_TARGET : R REG_SPN_TARGET) (rSRV_STAT : ∀ i, i < 4 → R (REG_SRV_STAT i)) :
    ∃ t, execStoppedDetect s = .next { s with m := t } ∧ Kept P R s.m t :=
  ⟨_, rfl, by repeat' (first | with_reducible exact Kept.refl _ | with_reducible assumption | with_reducible apply Mach.clocked_kept | with_reducible apply stoppedDetect_kept | intro m h)⟩
theorem execChopperOn_kept (s : State) (pdie : P .die) (rSPN_BRK : R REG_SPN_BRK) (rSPN_RAIL : R REG_SPN_RAIL) (rVCM_STAT : ∀ i, i < 4 → R (REG_VCM_STAT i)) :
    ∃ t, execChopperOn s = .next { s with m := t } ∧ Kept P R s.m t :=
  ⟨_, rfl, by repeat' (first | with_reducible exact Kept.refl _ | with_reducible assumption | with_reducible apply chopperOn_kept | intro m h)⟩
theorem execChopperOff_kept (s : State) (pdie : P .die) (rSPN_BRK : R REG_SPN_BRK) (rSPN_RAIL : R REG_SPN_RAIL) (rVCM_STAT : ∀ i, i < 4 → R (REG_VCM_STAT i)) :
    ∃ t, execChopperOff s = .next { s with m := t } ∧ Kept P R s.m t :=
  ⟨_, rfl, by repeat' (first | with_reducible exact Kept.refl _ | with_reducible assumption | with_reducible apply chopperOff_kept | intro m h)⟩
theorem execChopperSelfTest_kept (s : State) (preports : P .reports) (pout : P .out) (pmedia : P .media) (pdie : P .die) (pspn : P .spn) (ppwr : P .pwr) (phost : P .host) (pcmd : P .cmd) (peng : P .eng) (rdue : ∀ n : Stream, ∀ r ∈ fmtBlock n.val, R r) (rHIF_LINK : ∀ i, i < 2 → R (REG_HIF_LINK i)) (rKSV_CTRL : R REG_KSV_CTRL) (rKSV_GENHI : R REG_KSV_GENHI) (rKSV_GENLO : R REG_KSV_GENLO) (rKSV_LIMIT : R REG_KSV_LIMIT) (rPWR_MODE : R REG_PWR_MODE) (rQSQ_CMDTAB : R REG_QSQ_CMDTAB) (rSPN_BRK : R REG_SPN_BRK) (rVCM_MA : ∀ i, i < 4 → R (REG_VCM_MA i)) (rVCM_STAT : ∀ i, i < 4 → R (REG_VCM_STAT i)) :
    ∃ t, execChopperSelfTest s = .next { s with m := t } ∧ Kept P R s.m t :=
  ⟨_, rfl, by repeat' (first | with_reducible exact Kept.refl _ | with_reducible assumption | with_reducible apply Mach.watched_kept | with_reducible apply chopperSelfTest_kept | intro m h)⟩
theorem execChopperOpenCheck_kept (ma : Nat) (s : State) (preports : P .reports) (pout : P .out) (pmedia : P .media) (pdie : P .die) (pspn : P .spn) (ppwr : P .pwr) (phost : P .host) (pcmd : P .cmd) (peng : P .eng) (rdue : ∀ n : Stream, ∀ r ∈ fmtBlock n.val, R r) (rHIF_LINK : ∀ i, i < 2 → R (REG_HIF_LINK i)) (rKSV_CTRL : R REG_KSV_CTRL) (rKSV_GENHI : R REG_KSV_GENHI) (rKSV_GENLO : R REG_KSV_GENLO) (rKSV_LIMIT : R REG_KSV_LIMIT) (rPWR_MODE : R REG_PWR_MODE) (rQSQ_CMDTAB : R REG_QSQ_CMDTAB) (rSPN_BRK : R REG_SPN_BRK) (rVCM_MA : ∀ i, i < 4 → R (REG_VCM_MA i)) (rVCM_STAT : ∀ i, i < 4 → R (REG_VCM_STAT i)) :
    ∃ t, execChopperOpenCheck ma s = .next { s with m := t } ∧ Kept P R s.m t :=
  ⟨_, rfl, by repeat' (first | with_reducible exact Kept.refl _ | with_reducible assumption | with_reducible apply Mach.watched_kept | with_reducible apply chopperOpenCheck_kept | intro m h)⟩
theorem execChopperShort_kept (s : State) (preports : P .reports) (pout : P .out) (pmedia : P .media) (pdie : P .die) (pspn : P .spn) (ppwr : P .pwr) (phost : P .host) (pcmd : P .cmd) (peng : P .eng) (rdue : ∀ n : Stream, ∀ r ∈ fmtBlock n.val, R r) (rHIF_LINK : ∀ i, i < 2 → R (REG_HIF_LINK i)) (rKSV_CTRL : R REG_KSV_CTRL) (rKSV_GENHI : R REG_KSV_GENHI) (rKSV_GENLO : R REG_KSV_GENLO) (rKSV_LIMIT : R REG_KSV_LIMIT) (rPWR_MODE : R REG_PWR_MODE) (rQSQ_CMDTAB : R REG_QSQ_CMDTAB) (rSPN_BRK : R REG_SPN_BRK) (rVCM_MA : ∀ i, i < 4 → R (REG_VCM_MA i)) (rVCM_STAT : ∀ i, i < 4 → R (REG_VCM_STAT i)) :
    ∃ t, execChopperShort s = .next { s with m := t } ∧ Kept P R s.m t :=
  ⟨_, rfl, by repeat' (first | with_reducible exact Kept.refl _ | with_reducible assumption | with_reducible apply Mach.watched_kept | with_reducible apply chopperShort_kept | intro m h)⟩
theorem execLadderL1Enter_kept (s : State) (preports : P .reports) (pout : P .out) (pmedia : P .media) (pdie : P .die) (pspn : P .spn) (ppwr : P .pwr) (phost : P .host) (pcmd : P .cmd) (peng : P .eng) (rdue : ∀ n : Stream, ∀ r ∈ fmtBlock n.val, R r) (rHIF_LINK : ∀ i, i < 2 → R (REG_HIF_LINK i)) (rKSV_CTRL : R REG_KSV_CTRL) (rKSV_GENHI : R REG_KSV_GENHI) (rKSV_GENLO : R REG_KSV_GENLO) (rKSV_LIMIT : R REG_KSV_LIMIT) (rPWR_MODE : R REG_PWR_MODE) (rQSQ_CMDTAB : R REG_QSQ_CMDTAB) (rSPN_BRK : R REG_SPN_BRK) (rSPN_RAIL : R REG_SPN_RAIL) (rVCM_MA : ∀ i, i < 4 → R (REG_VCM_MA i)) (rVCM_STAT : ∀ i, i < 4 → R (REG_VCM_STAT i)) :
    ∃ t, execLadderL1Enter s = .next { s with m := t } ∧ Kept P R s.m t :=
  ⟨_, rfl, by repeat' (first | with_reducible exact Kept.refl _ | with_reducible assumption | with_reducible apply Mach.watched_kept | with_reducible apply ladderL1Enter_kept | intro m h)⟩
theorem execLadderL2Enter_kept (s : State) (preports : P .reports) (pout : P .out) (pmedia : P .media) (pdie : P .die) (pspn : P .spn) (ppwr : P .pwr) (phost : P .host) (pcmd : P .cmd) (peng : P .eng) (rdue : ∀ n : Stream, ∀ r ∈ fmtBlock n.val, R r) (rHIF_LINK : ∀ i, i < 2 → R (REG_HIF_LINK i)) (rKSV_CTRL : R REG_KSV_CTRL) (rKSV_GENHI : R REG_KSV_GENHI) (rKSV_GENLO : R REG_KSV_GENLO) (rKSV_LIMIT : R REG_KSV_LIMIT) (rPWR_MODE : R REG_PWR_MODE) (rQSQ_CMDTAB : R REG_QSQ_CMDTAB) (rSPN_BRK : R REG_SPN_BRK) (rSPN_OBS : R REG_SPN_OBS) (rSPN_RAIL : R REG_SPN_RAIL) (rSPN_SPEED : R REG_SPN_SPEED) (rSPN_STAT : R REG_SPN_STAT) (rSRV_STAT : ∀ i, i < 4 → R (REG_SRV_STAT i)) (rVCM_MA : ∀ i, i < 4 → R (REG_VCM_MA i)) (rVCM_STAT : ∀ i, i < 4 → R (REG_VCM_STAT i)) :
    ∃ t, execLadderL2Enter s = .next { s with m := t } ∧ Kept P R s.m t :=
  ⟨_, rfl, by repeat' (first | with_reducible exact Kept.refl _ | with_reducible assumption | with_reducible apply Mach.watched_kept | with_reducible apply ladderL2Enter_kept | intro m h)⟩
theorem execLadderL2Leave_kept (s : State) (pdie : P .die) (pspn : P .spn) (rSPN_RAIL : R REG_SPN_RAIL) (rSPN_STAT : R REG_SPN_STAT) (rSPN_TARGET : R REG_SPN_TARGET) (rSRV_STAT : ∀ i, i < 4 → R (REG_SRV_STAT i)) (rVCM_STAT : ∀ i, i < 4 → R (REG_VCM_STAT i)) :
    ∃ t, execLadderL2Leave s = .next { s with m := t } ∧ Kept P R s.m t :=
  ⟨_, rfl, by repeat' (first | with_reducible exact Kept.refl _ | with_reducible assumption | with_reducible apply ladderL2Leave_kept | intro m h)⟩
theorem execLadderL3Enter_kept (s : State) (preports : P .reports) (pout : P .out) (pmedia : P .media) (pdie : P .die) (pspn : P .spn) (ppwr : P .pwr) (phost : P .host) (pcmd : P .cmd) (peng : P .eng) (rdue : ∀ n : Stream, ∀ r ∈ fmtBlock n.val, R r) (rHIF_LINK : ∀ i, i < 2 → R (REG_HIF_LINK i)) (rKSV_CTRL : R REG_KSV_CTRL) (rKSV_GENHI : R REG_KSV_GENHI) (rKSV_GENLO : R REG_KSV_GENLO) (rKSV_LIMIT : R REG_KSV_LIMIT) (rPWR_MODE : R REG_PWR_MODE) (rQSQ_CMDTAB : R REG_QSQ_CMDTAB) (rSPN_BRK : R REG_SPN_BRK) (rSPN_OBS : R REG_SPN_OBS) (rSPN_RAIL : R REG_SPN_RAIL) (rSPN_SPEED : R REG_SPN_SPEED) (rSPN_STAT : R REG_SPN_STAT) (rSRV_STAT : ∀ i, i < 4 → R (REG_SRV_STAT i)) (rVCM_MA : ∀ i, i < 4 → R (REG_VCM_MA i)) (rVCM_STAT : ∀ i, i < 4 → R (REG_VCM_STAT i)) :
    ∃ t, execLadderL3Enter s = .next { s with m := t } ∧ Kept P R s.m t :=
  ⟨_, rfl, by repeat' (first | with_reducible exact Kept.refl _ | with_reducible assumption | with_reducible apply Mach.watched_kept | with_reducible apply ladderL3Enter_kept | intro m h)⟩
theorem execLadderL3Leave_kept (s : State) (pdie : P .die) (rSPN_RAIL : R REG_SPN_RAIL) (rVCM_MA : ∀ i, i < 4 → R (REG_VCM_MA i)) (rVCM_STAT : ∀ i, i < 4 → R (REG_VCM_STAT i)) :
    ∃ t, execLadderL3Leave s = .next { s with m := t } ∧ Kept P R s.m t :=
  ⟨_, rfl, by repeat' (first | with_reducible exact Kept.refl _ | with_reducible assumption | with_reducible apply ladderL3Leave_kept | intro m h)⟩
theorem execSpnBrkFaultClear_kept (s : State) (preports : P .reports) (pdie : P .die) (pspn : P .spn) (rSPN_BRK : R REG_SPN_BRK) (rSPN_ERR : R REG_SPN_ERR) (rSPN_OBS : R REG_SPN_OBS) (rSPN_SPEED : R REG_SPN_SPEED) (rSPN_STAT : R REG_SPN_STAT) (rSPN_TARGET : R REG_SPN_TARGET) (rSRV_STAT : ∀ i, i < 4 → R (REG_SRV_STAT i)) :
    ∃ t, execSpnBrkFaultClear s = .next { s with m := t } ∧ Kept P R s.m t :=
  ⟨_, rfl, by repeat' (first | with_reducible exact Kept.refl _ | with_reducible assumption | with_reducible apply Mach.clocked_kept | with_reducible apply spnBrkFaultClear_kept | intro m h)⟩
theorem execSpnBrkAck_kept (s : State) (preports : P .reports) (pdie : P .die) (pspn : P .spn) (rSPN_BRK : R REG_SPN_BRK) (rSPN_ERR : R REG_SPN_ERR) (rSPN_OBS : R REG_SPN_OBS) (rSPN_SPEED : R REG_SPN_SPEED) (rSPN_STAT : R REG_SPN_STAT) (rSPN_TARGET : R REG_SPN_TARGET) (rSRV_STAT : ∀ i, i < 4 → R (REG_SRV_STAT i)) :
    ∃ t, execSpnBrkAck s = .next { s with m := t } ∧ Kept P R s.m t :=
  ⟨_, rfl, by repeat' (first | with_reducible exact Kept.refl _ | with_reducible assumption | with_reducible apply Mach.clocked_kept | with_reducible apply spnBrkAck_kept | intro m h)⟩
theorem execRetractStart_kept (a : Actuator) (s : State) (preports : P .reports) (pout : P .out) (pmedia : P .media) (pdie : P .die) (ppwr : P .pwr) (phost : P .host) (pcmd : P .cmd) (peng : P .eng) (rdue : ∀ n : Stream, ∀ r ∈ fmtBlock n.val, R r) (rHIF_LINK : ∀ i, i < 2 → R (REG_HIF_LINK i)) (rKSV_CTRL : R REG_KSV_CTRL) (rKSV_GENHI : R REG_KSV_GENHI) (rKSV_GENLO : R REG_KSV_GENLO) (rKSV_LIMIT : R REG_KSV_LIMIT) (rPWR_MODE : R REG_PWR_MODE) (rQSQ_CMDTAB : R REG_QSQ_CMDTAB) (rVCM_MA : ∀ i, i < 4 → R (REG_VCM_MA i)) (rVCM_STAT : ∀ i, i < 4 → R (REG_VCM_STAT i)) :
    ∃ t, execRetractStart a s = .next { s with m := t } ∧ Kept P R s.m t :=
  ⟨_, rfl, by repeat' (first | with_reducible exact Kept.refl _ | with_reducible assumption | with_reducible apply Mach.watched_kept | with_reducible apply retractStart_kept | intro m h)⟩
theorem execRetractVelocityEnd_kept (a : Actuator) (s : State) (pdie : P .die) :
    ∃ t, execRetractVelocityEnd a s = .next { s with m := t } ∧ Kept P R s.m t :=
  ⟨_, rfl, by repeat' (first | with_reducible exact Kept.refl _ | with_reducible assumption | with_reducible apply retractVelocityEnd_kept | intro m h)⟩
theorem execRetractClimbEnd_kept (a : Actuator) (s : State) (pdie : P .die) :
    ∃ t, execRetractClimbEnd a s = .next { s with m := t } ∧ Kept P R s.m t :=
  ⟨_, rfl, by repeat' (first | with_reducible exact Kept.refl _ | with_reducible assumption | with_reducible apply retractClimbEnd_kept | intro m h)⟩
theorem execRetractParkEnd_kept (a : Actuator) (s : State) (preports : P .reports) (pout : P .out) (pcal : P .cal) (pmedia : P .media) (pmotion : P .motion) (pdie : P .die) (pspn : P .spn) (ppwr : P .pwr) (pbuf : P .buf) (pdma : P .dma) (phost : P .host) (pcmd : P .cmd) (psec : P .sec) (peng : P .eng) (pevt : P .evt) (prst : P .rst) (rall : ∀ a, R a) :
    ∃ t, execRetractParkEnd a s = .next { s with m := t } ∧ Kept P R s.m t :=
  ⟨_, rfl, by repeat' (first | with_reducible exact Kept.refl _ | with_reducible assumption | exact rall _ | exact fun _ _ => rall _ | exact fun _ _ _ => rall _ | exact fun _ _ _ _ => rall _ | with_reducible apply Mach.watched_kept | with_reducible apply Mach.afterSave_kept | with_reducible apply retractParkEnd_kept | intro m h)⟩
theorem execRetractTimeout_kept (a : Actuator) (s : State) (preports : P .reports) (pout : P .out) (pmedia : P .media) (pdie : P .die) (ppwr : P .pwr) (phost : P .host) (pcmd : P .cmd) (peng : P .eng) (rdue : ∀ n : Stream, ∀ r ∈ fmtBlock n.val, R r) (rHIF_LINK : ∀ i, i < 2 → R (REG_HIF_LINK i)) (rKSV_CTRL : R REG_KSV_CTRL) (rKSV_GENHI : R REG_KSV_GENHI) (rKSV_GENLO : R REG_KSV_GENLO) (rKSV_LIMIT : R REG_KSV_LIMIT) (rPWR_MODE : R REG_PWR_MODE) (rQSQ_CMDTAB : R REG_QSQ_CMDTAB) (rVCM_FAULT : ∀ i, i < 4 → R (REG_VCM_FAULT i)) (rVCM_MA : ∀ i, i < 4 → R (REG_VCM_MA i)) (rVCM_STAT : ∀ i, i < 4 → R (REG_VCM_STAT i)) :
    ∃ t, execRetractTimeout a s = .next { s with m := t } ∧ Kept P R s.m t :=
  ⟨_, rfl, by repeat' (first | with_reducible exact Kept.refl _ | with_reducible assumption | with_reducible apply Mach.watched_kept | with_reducible apply retractTimeout_kept | intro m h)⟩
theorem execLowSpeedRetract_kept (s : State) (preports : P .reports) (pout : P .out) (pmedia : P .media) (pdie : P .die) (ppwr : P .pwr) (phost : P .host) (pcmd : P .cmd) (peng : P .eng) (rdue : ∀ n : Stream, ∀ r ∈ fmtBlock n.val, R r) (rHIF_LINK : ∀ i, i < 2 → R (REG_HIF_LINK i)) (rKSV_CTRL : R REG_KSV_CTRL) (rKSV_GENHI : R REG_KSV_GENHI) (rKSV_GENLO : R REG_KSV_GENLO) (rKSV_LIMIT : R REG_KSV_LIMIT) (rPWR_MODE : R REG_PWR_MODE) (rQSQ_CMDTAB : R REG_QSQ_CMDTAB) (rVCM_MA : ∀ i, i < 4 → R (REG_VCM_MA i)) (rVCM_STAT : ∀ i, i < 4 → R (REG_VCM_STAT i)) :
    ∃ t, execLowSpeedRetract s = .next { s with m := t } ∧ Kept P R s.m t :=
  ⟨_, rfl, by repeat' (first | with_reducible exact Kept.refl _ | with_reducible assumption | with_reducible apply Mach.watched_kept | with_reducible apply lowSpeedRetract_kept | intro m h)⟩
theorem execLoad_kept (a : Actuator) (s : State) (preports : P .reports) (pout : P .out) (pmedia : P .media) (pdie : P .die) (ppwr : P .pwr) (phost : P .host) (pcmd : P .cmd) (peng : P .eng) (rdue : ∀ n : Stream, ∀ r ∈ fmtBlock n.val, R r) (rHIF_LINK : ∀ i, i < 2 → R (REG_HIF_LINK i)) (rKSV_CTRL : R REG_KSV_CTRL) (rKSV_GENHI : R REG_KSV_GENHI) (rKSV_GENLO : R REG_KSV_GENLO) (rKSV_LIMIT : R REG_KSV_LIMIT) (rPWR_MODE : R REG_PWR_MODE) (rQDR_ACT : ∀ i, i < 4 → R (REG_QDR_ACT i)) (rQSQ_CMDTAB : R REG_QSQ_CMDTAB) (rVCM_ERR : R REG_VCM_ERR) (rVCM_MA : ∀ i, i < 4 → R (REG_VCM_MA i)) (rVCM_STAT : ∀ i, i < 4 → R (REG_VCM_STAT i)) :
    ∃ t, execLoad a s = .next { s with m := t } ∧ Kept P R s.m t :=
  ⟨_, rfl, by repeat' (first | with_reducible exact Kept.refl _ | with_reducible assumption | with_reducible apply Mach.clocked_kept | with_reducible apply Mach.watched_kept | with_reducible apply load_kept | intro m h)⟩
theorem execUnload_kept (a : Actuator) (s : State) (preports : P .reports) (pout : P .out) (pmedia : P .media) (pdie : P .die) (ppwr : P .pwr) (phost : P .host) (pcmd : P .cmd) (peng : P .eng) (rdue : ∀ n : Stream, ∀ r ∈ fmtBlock n.val, R r) (rHIF_LINK : ∀ i, i < 2 → R (REG_HIF_LINK i)) (rKSV_CTRL : R REG_KSV_CTRL) (rKSV_GENHI : R REG_KSV_GENHI) (rKSV_GENLO : R REG_KSV_GENLO) (rKSV_LIMIT : R REG_KSV_LIMIT) (rPWR_MODE : R REG_PWR_MODE) (rQSQ_CMDTAB : R REG_QSQ_CMDTAB) (rVCM_MA : ∀ i, i < 4 → R (REG_VCM_MA i)) (rVCM_STAT : ∀ i, i < 4 → R (REG_VCM_STAT i)) :
    ∃ t, execUnload a s = .next { s with m := t } ∧ Kept P R s.m t :=
  ⟨_, rfl, by repeat' (first | with_reducible exact Kept.refl _ | with_reducible assumption | with_reducible apply Mach.clocked_kept | with_reducible apply Mach.watched_kept | with_reducible apply unload_kept | intro m h)⟩
theorem execLoadTimeout_kept (a : Actuator) (s : State) (preports : P .reports) (pout : P .out) (pmedia : P .media) (pdie : P .die) (ppwr : P .pwr) (phost : P .host) (pcmd : P .cmd) (peng : P .eng) (rdue : ∀ n : Stream, ∀ r ∈ fmtBlock n.val, R r) (rHIF_LINK : ∀ i, i < 2 → R (REG_HIF_LINK i)) (rKSV_CTRL : R REG_KSV_CTRL) (rKSV_GENHI : R REG_KSV_GENHI) (rKSV_GENLO : R REG_KSV_GENLO) (rKSV_LIMIT : R REG_KSV_LIMIT) (rPWR_MODE : R REG_PWR_MODE) (rQSQ_CMDTAB : R REG_QSQ_CMDTAB) (rVCM_FAULT : ∀ i, i < 4 → R (REG_VCM_FAULT i)) (rVCM_MA : ∀ i, i < 4 → R (REG_VCM_MA i)) (rVCM_STAT : ∀ i, i < 4 → R (REG_VCM_STAT i)) :
    ∃ t, execLoadTimeout a s = .next { s with m := t } ∧ Kept P R s.m t :=
  ⟨_, rfl, by repeat' (first | with_reducible exact Kept.refl _ | with_reducible assumption | with_reducible apply Mach.clocked_kept | with_reducible apply Mach.watched_kept | with_reducible apply loadTimeout_kept | intro m h)⟩
end Sys2Proof.Machine
end

