-- ==== Sys2Proof/Laws/RowsSystem.lean ====
section
/-! SUPPORT. What each command of Machine/ExecSystem.lean keeps, and that it answers a next state. -/
set_option Elab.async false
set_option linter.all false
namespace Sys2Proof.Machine
open Sys2Proof
variable {P : Part → Prop} {R : Nat → Prop} {m0 : Mach}
theorem execIdleT4Expiry_kept (s : State) (preports : P .reports) (pout : P .out) (pmedia : P .media) (phost : P .host) (rAFE_LANE_STAT : ∀ i, i < 16 → R (REG_AFE_LANE_STAT i)) (rHIF_LINK : ∀ i, i < 2 → R (REG_HIF_LINK i)) (rPWR_MODE : R REG_PWR_MODE) :
    ∃ t, execIdleT4Expiry s = .next { s with m := t } ∧ Kept P R s.m t :=
  ⟨_, rfl, by repeat' (first | with_reducible exact Kept.refl _ | with_reducible assumption | with_reducible apply idleT4Expiry_kept | intro m h)⟩
theorem execIdleT5Expiry_kept (s : State) (preports : P .reports) (pout : P .out) (pdie : P .die) (ppwr : P .pwr) (phost : P .host) (pcmd : P .cmd) (rHIF_LINK : ∀ i, i < 2 → R (REG_HIF_LINK i)) (rKSV_CTRL : R REG_KSV_CTRL) (rKSV_GENHI : R REG_KSV_GENHI) (rKSV_GENLO : R REG_KSV_GENLO) (rKSV_LIMIT : R REG_KSV_LIMIT) (rPWR_MODE : R REG_PWR_MODE) (rQSQ_CMDTAB : R REG_QSQ_CMDTAB) (rVCM_MA : ∀ i, i < 4 → R (REG_VCM_MA i)) (rVCM_STAT : ∀ i, i < 4 → R (REG_VCM_STAT i)) :
    ∃ t, execIdleT5Expiry s = .next { s with m := t } ∧ Kept P R s.m t :=
  ⟨_, rfl, by repeat' (first | with_reducible exact Kept.refl _ | with_reducible assumption | with_reducible apply idleT5Expiry_kept | intro m h)⟩
theorem execIdleT6Expiry_kept (s : State) (preports : P .reports) (pout : P .out) (pdie : P .die) (pspn : P .spn) (phost : P .host) (rHIF_LINK : ∀ i, i < 2 → R (REG_HIF_LINK i)) (rPWR_MODE : R REG_PWR_MODE) (rSPN_DEMAND : R REG_SPN_DEMAND) (rSPN_ERR : R REG_SPN_ERR) (rSPN_OBS : R REG_SPN_OBS) (rSPN_SPEED : R REG_SPN_SPEED) (rSPN_STAT : R REG_SPN_STAT) (rSPN_TARGET : R REG_SPN_TARGET) (rSRV_STAT : ∀ i, i < 4 → R (REG_SRV_STAT i)) :
    ∃ t, execIdleT6Expiry s = .next { s with m := t } ∧ Kept P R s.m t :=
  ⟨_, rfl, by repeat' (first | with_reducible exact Kept.refl _ | with_reducible assumption | with_reducible apply idleT6Expiry_kept | intro m h)⟩
theorem execIdleT7Expiry_kept (s : State) (preports : P .reports) (pout : P .out) (pdie : P .die) (pspn : P .spn) (phost : P .host) (rHIF_LINK : ∀ i, i < 2 → R (REG_HIF_LINK i)) (rPWR_MODE : R REG_PWR_MODE) (rSPN_DEMAND : R REG_SPN_DEMAND) (rSPN_ERR : R REG_SPN_ERR) (rSPN_OBS : R REG_SPN_OBS) (rSPN_SPEED : R REG_SPN_SPEED) (rSPN_STAT : R REG_SPN_STAT) (rSPN_TARGET : R REG_SPN_TARGET) (rSRV_STAT : ∀ i, i < 4 → R (REG_SRV_STAT i)) :
    ∃ t, execIdleT7Expiry s = .next { s with m := t } ∧ Kept P R s.m t :=
  ⟨_, rfl, by repeat' (first | with_reducible exact Kept.refl _ | with_reducible assumption | with_reducible apply idleT7Expiry_kept | intro m h)⟩
theorem execMediaWake_kept (s : State) (preports : P .reports) (pout : P .out) (pdie : P .die) (pspn : P .spn) (ppwr : P .pwr) (phost : P .host) (rCAL_CAP : R REG_CAL_CAP) (rHIF_LINK : ∀ i, i < 2 → R (REG_HIF_LINK i)) (rPWR_CAP : R REG_PWR_CAP) (rPWR_MODE : R REG_PWR_MODE) (rQDR_ACT : ∀ i, i < 4 → R (REG_QDR_ACT i)) (rQDR_TORQ : R REG_QDR_TORQ) (rSPN_DEMAND : R REG_SPN_DEMAND) (rSPN_ERR : R REG_SPN_ERR) (rSPN_OBS : R REG_SPN_OBS) (rSPN_SPEED : R REG_SPN_SPEED) (rSPN_STAT : R REG_SPN_STAT) (rSPN_TARGET : R REG_SPN_TARGET) (rSRV_STAT : ∀ i, i < 4 → R (REG_SRV_STAT i)) (rVCM_ERR : R REG_VCM_ERR) (rVCM_STAT : ∀ i, i < 4 → R (REG_VCM_STAT i)) :
    ∃ t, execMediaWake s = .next { s with m := t } ∧ Kept P R s.m t :=
  ⟨_, rfl, by repeat' (first | with_reducible exact Kept.refl _ | with_reducible assumption | with_reducible apply mediaWake_kept | intro m h)⟩
theorem execSpinUpComplete_kept (s : State) (preports : P .reports) (pout : P .out) (ppwr : P .pwr) (phost : P .host) (pcmd : P .cmd) (rHIF_LINK : ∀ i, i < 2 → R (REG_HIF_LINK i)) (rKSV_CTRL : R REG_KSV_CTRL) (rKSV_GENHI : R REG_KSV_GENHI) (rKSV_GENLO : R REG_KSV_GENLO) (rKSV_LIMIT : R REG_KSV_LIMIT) (rPWR_MODE : R REG_PWR_MODE) (rQSQ_CMDTAB : R REG_QSQ_CMDTAB) :
    ∃ t, execSpinUpComplete s = .next { s with m := t } ∧ Kept P R s.m t :=
  ⟨_, rfl, by repeat' (first | with_reducible exact Kept.refl _ | with_reducible assumption | with_reducible apply spinUpComplete_kept | intro m h)⟩
theorem execCapacityMeasure_kept (d : DragMeas) (s : State) (ppwr : P .pwr) (phost : P .host) (pcmd : P .cmd) (rKSV_CTRL : R REG_KSV_CTRL) (rKSV_GENHI : R REG_KSV_GENHI) (rKSV_GENLO : R REG_KSV_GENLO) (rKSV_LIMIT : R REG_KSV_LIMIT) (rQSQ_CMDTAB : R REG_QSQ_CMDTAB) :
    ∃ t, execCapacityMeasure d s = .next { s with m := t } ∧ Kept P R s.m t :=
  ⟨_, rfl, by repeat' (first | with_reducible exact Kept.refl _ | with_reducible assumption | with_reducible apply capacityMeasure_kept | intro m h)⟩
theorem execWriteAdmission_kept (s : State) (ppwr : P .pwr) :
    ∃ t, execWriteAdmission s = .next { s with m := t } ∧ Kept P R s.m t :=
  ⟨_, rfl, by repeat' (first | with_reducible exact Kept.refl _ | with_reducible assumption | with_reducible apply writeAdmission_kept | intro m h)⟩
theorem execMetadataFlush_kept (s : State) (ppwr : P .pwr) :
    ∃ t, execMetadataFlush s = .next { s with m := t } ∧ Kept P R s.m t :=
  ⟨_, rfl, by repeat' (first | with_reducible exact Kept.refl _ | with_reducible assumption | with_reducible apply metadataFlush_kept | intro m h)⟩
theorem execThermalThrottle_kept (celsius : BitVec 8) (s : State) (preports : P .reports) (ppwr : P .pwr) (rCAL_CAP : R REG_CAL_CAP) (rPWR_CAP : R REG_PWR_CAP) (rPWR_TEMP : R REG_PWR_TEMP) (rQDR_TORQ : R REG_QDR_TORQ) :
    ∃ t, execThermalThrottle celsius s = .next { s with m := t } ∧ Kept P R s.m t :=
  ⟨_, rfl, by repeat' (first | with_reducible exact Kept.refl _ | with_reducible assumption | with_reducible apply thermalThrottle_kept | intro m h)⟩
theorem execLogicDieOvertemp_kept (s : State) (preports : P .reports) (pout : P .out) (pdie : P .die) (phost : P .host) (rHIF_LINK : ∀ i, i < 2 → R (REG_HIF_LINK i)) (rPWR_MODE : R REG_PWR_MODE) (rPWR_TEMP : R REG_PWR_TEMP) (rVCM_MA : ∀ i, i < 4 → R (REG_VCM_MA i)) (rVCM_STAT : ∀ i, i < 4 → R (REG_VCM_STAT i)) :
    ∃ t, execLogicDieOvertemp s = .next { s with m := t } ∧ Kept P R s.m t :=
  ⟨_, rfl, by repeat' (first | with_reducible exact Kept.refl _ | with_reducible assumption | with_reducible apply logicDieOvertemp_kept | intro m h)⟩
theorem execRunBegin_kept (s : State) (pfreeCtr : P .freeCtr) (pmedia : P .media) (pmotion : P .motion) (ppwr : P .pwr) (rFMT_STAT : ∀ i, i < 8 → R (REG_FMT_STAT i)) :
    ∃ t, execRunBegin s = .next { s with m := t } ∧ Kept P R s.m t :=
  ⟨_, rfl, by repeat' (first | with_reducible exact Kept.refl _ | with_reducible assumption | with_reducible apply runBegin_kept | intro m h)⟩
theorem execSleepEntry_kept (s : State) (preports : P .reports) (pout : P .out) (pcal : P .cal) (pdie : P .die) (pbuf : P .buf) (phost : P .host) (prst : P .rst) (rBUF_CNT : R REG_BUF_CNT) (rBUF_ERR : R REG_BUF_ERR) (rBUF_FIRST : R REG_BUF_FIRST) (rCCH_MISS : R REG_CCH_MISS) (rCLK_GOOD0 : R REG_CLK_GOOD0) (rCLK_GOOD1 : R REG_CLK_GOOD1) (rCLK_STAT : R REG_CLK_STAT) (rHIF_LINK : ∀ i, i < 2 → R (REG_HIF_LINK i)) (rPOOL_RETSTAT : ∀ i, i < 8 → R (REG_POOL_RETSTAT i)) (rPOOL_STAT : ∀ i, i < 8 → R (REG_POOL_STAT i)) (rPWR_MODE : R REG_PWR_MODE) (rPWR_RAILS : R REG_PWR_RAILS) (rSCB_STAT : R REG_SCB_STAT) :
    ∃ t, execSleepEntry s = .next { s with m := t } ∧ Kept P R s.m t :=
  ⟨_, rfl, by repeat' (first | with_reducible exact Kept.refl _ | with_reducible assumption | with_reducible apply sleepEntry_kept | intro m h)⟩
theorem execWake_kept (p : PortId) (perst : Bool) (s : State) (preports : P .reports) (pout : P .out) (pcal : P .cal) (pmedia : P .media) (pmotion : P .motion) (pdie : P .die) (pspn : P .spn) (ppwr : P .pwr) (pbuf : P .buf) (pdma : P .dma) (phost : P .host) (pcmd : P .cmd) (psec : P .sec) (peng : P .eng) (pevt : P .evt) (prst : P .rst) (rall : ∀ a, R a) :
    ∃ t, execWake p perst s = .next { s with m := t } ∧ Kept P R s.m t :=
  ⟨_, rfl, by repeat' (first | with_reducible exact Kept.refl _ | with_reducible assumption | exact rall _ | exact fun _ _ => rall _ | exact fun _ _ _ => rall _ | exact fun _ _ _ _ => rall _ | with_reducible apply wake_kept | intro m h)⟩
theorem execSupplyLoss_kept (v12 : BitVec 10) (v5 : BitVec 10) (us : BitVec 10) (s : State) (preports : P .reports) (pout : P .out) (pcal : P .cal) (pmedia : P .media) (pmotion : P .motion) (pdie : P .die) (pspn : P .spn) (ppwr : P .pwr) (pbuf : P .buf) (pdma : P .dma) (phost : P .host) (pcmd : P .cmd) (rCAL_STATUS : R REG_CAL_STATUS) (rCHN_SMEM : ∀ i, i < 8 → R (REG_CHN_SMEM i)) (rDEC_BUSY : R REG_DEC_BUSY) (rDMA_CH_MOVED : ∀ i, i < 16 → R (REG_DMA_CH_MOVED i)) (rDMA_CH_STAT : ∀ i, i < 16 → R (REG_DMA_CH_STAT i)) (rDMA_CTRL : R REG_DMA_CTRL) (rDMA_STAT : R REG_DMA_STAT) (rFMT_CNT_ABORT : ∀ i, i < 8 → R (REG_FMT_CNT_ABORT i)) (rFMT_CNT_MISS : ∀ i, i < 8 → R (REG_FMT_CNT_MISS i)) (rFMT_CTRL : ∀ i, i < 8 → R (REG_FMT_CTRL i)) (rFMT_ERR : ∀ i, i < 8 → R (REG_FMT_ERR i)) (rFMT_STAT : ∀ i, i < 8 → R (REG_FMT_STAT i)) (rHIF_LINK : ∀ i, i < 2 → R (REG_HIF_LINK i)) (rKSV_GENHI : R REG_KSV_GENHI) (rKSV_GENLO : R REG_KSV_GENLO) (rKSV_LIST_COUNT : R REG_KSV_LIST_COUNT) (rKSV_STAT : R REG_KSV_STAT) (rLAD_STAT : ∀ i, i < 4 → R (REG_LAD_STAT i)) (rPOOL_ERR : R REG_POOL_ERR) (rPOOL_FIRST : R REG_POOL_FIRST) (rPOOL_RETSTAT : ∀ i, i < 8 → R (REG_POOL_RETSTAT i)) (rPOOL_STAT : ∀ i, i < 8 → R (REG_POOL_STAT i)) (rPRG_STAT : ∀ i, i < 4 → R (REG_PRG_STAT i)) (rPRG_TGT : ∀ i, i < 4 → R (REG_PRG_TGT i)) (rPWR_MODE : R REG_PWR_MODE) (rPWR_RAILS : R REG_PWR_RAILS) (rQDR_ADMIT : R REG_QDR_ADMIT) (rQDR_KACC : ∀ i, i < 4 → R (REG_QDR_KACC i)) (rQDR_TORQ : R REG_QDR_TORQ) (rQSQ_CMDTAB : R REG_QSQ_CMDTAB) (rQSQ_STAT : R REG_QSQ_STAT) (rSRV_STAT : ∀ i, i < 4 → R (REG_SRV_STAT i)) (rSRV_TARGET : ∀ i j, i < 4 → j < 2 → R (REG_SRV_TARGET i j)) (rVCM_MA : ∀ i, i < 4 → R (REG_VCM_MA i)) (rVCM_STAT : ∀ i, i < 4 → R (REG_VCM_STAT i)) :
    ∃ t, execSupplyLoss v12 v5 us s = .next { s with m := t } ∧ Kept P R s.m t :=
  ⟨_, rfl, by repeat' (first | with_reducible exact Kept.refl _ | with_reducible assumption | with_reducible apply supplyLoss_kept | intro m h)⟩
theorem execSaveUnitWrite_kept (a : Actuator) (s : State) (preports : P .reports) (pout : P .out) (pcal : P .cal) (pmedia : P .media) (ppwr : P .pwr) (pbuf : P .buf) (rBUF_CNT : R REG_BUF_CNT) (rBUF_ERR : R REG_BUF_ERR) (rBUF_FIRST : R REG_BUF_FIRST) (rCCH_MISS : R REG_CCH_MISS) (rKSV_STAT : R REG_KSV_STAT) :
    ∃ t, execSaveUnitWrite a s = .next { s with m := t } ∧ Kept P R s.m t :=
  ⟨_, rfl, by repeat' (first | with_reducible exact Kept.refl _ | with_reducible assumption | with_reducible apply saveUnitWrite_kept | intro m h)⟩
theorem execBusUndervoltage_kept (s : State) (pfreeCtr : P .freeCtr) (preports : P .reports) (pout : P .out) (pmedia : P .media) (pmotion : P .motion) (pdie : P .die) (ppwr : P .pwr) (rFMT_CNT_ABORT : ∀ i, i < 8 → R (REG_FMT_CNT_ABORT i)) (rFMT_CNT_MISS : ∀ i, i < 8 → R (REG_FMT_CNT_MISS i)) (rFMT_ERR : ∀ i, i < 8 → R (REG_FMT_ERR i)) (rFMT_STAT : ∀ i, i < 8 → R (REG_FMT_STAT i)) (rHSQ_ERR : ∀ i, i < 4 → R (REG_HSQ_ERR i)) (rHSQ_SEL : ∀ i j, i < 4 → j < 2 → R (REG_HSQ_SEL i j)) (rKSV_GENHI : R REG_KSV_GENHI) (rKSV_GENLO : R REG_KSV_GENLO) (rKSV_STAT : R REG_KSV_STAT) (rVCM_MA : ∀ i, i < 4 → R (REG_VCM_MA i)) (rVCM_STAT : ∀ i, i < 4 → R (REG_VCM_STAT i)) :
    ∃ t, execBusUndervoltage s = .next { s with m := t } ∧ Kept P R s.m t :=
  ⟨_, rfl, by repeat' (first | with_reducible exact Kept.refl _ | with_reducible assumption | with_reducible apply busUndervoltage_kept | intro m h)⟩
theorem execSaveEnd_kept (stop : SaveStop) (busMin : BitVec 16) (us : BitVec 32) (s : State) (preports : P .reports) (pout : P .out) (pmedia : P .media) (pdie : P .die) (ppwr : P .pwr) (pevt : P .evt) (rKSV_STAT : R REG_KSV_STAT) (rVCM_MA : ∀ i, i < 4 → R (REG_VCM_MA i)) (rVCM_STAT : ∀ i, i < 4 → R (REG_VCM_STAT i)) :
    ∃ t, execSaveEnd stop busMin us s = .next { s with m := t } ∧ Kept P R s.m t :=
  ⟨_, rfl, by repeat' (first | with_reducible exact Kept.refl _ | with_reducible assumption | with_reducible apply saveEnd_kept | intro m h)⟩
theorem execSupplyReturn_kept (s : State) (preports : P .reports) (pcal : P .cal) (pmedia : P .media) (pmotion : P .motion) (pdie : P .die) (pspn : P .spn) (ppwr : P .pwr) (pbuf : P .buf) (pdma : P .dma) (phost : P .host) (pcmd : P .cmd) (psec : P .sec) (peng : P .eng) (pevt : P .evt) (prst : P .rst) (rall : ∀ a, R a) :
    ∃ t, execSupplyReturn s = .next { s with m := t } ∧ Kept P R s.m t :=
  ⟨_, rfl, by repeat' (first | with_reducible exact Kept.refl _ | with_reducible assumption | exact rall _ | exact fun _ _ => rall _ | exact fun _ _ _ => rall _ | exact fun _ _ _ _ => rall _ | with_reducible apply supplyReturn_kept | intro m h)⟩
theorem execReplay_kept (scan : List GroupScan) (s : State) (preports : P .reports) (ppwr : P .pwr) (phost : P .host) (pcmd : P .cmd) (psec : P .sec) (pevt : P .evt) (rKSV_REG : ∀ i, i < 4 → R (REG_KSV_REG i)) (rQSQ_CMDTAB : R REG_QSQ_CMDTAB) (rSEC_SLOTS : R REG_SEC_SLOTS) (rSEC_VAULT : R REG_SEC_VAULT) :
    ∃ t, execReplay scan s = .next { s with m := t } ∧ Kept P R s.m t :=
  ⟨_, rfl, by repeat' (first | with_reducible exact Kept.refl _ | with_reducible assumption | with_reducible apply Mach.keyed_kept | with_reducible apply replay_kept | intro m h)⟩
theorem execReadoptDirty_kept (s : State) (preports : P .reports) (pout : P .out) (ppwr : P .pwr) (pbuf : P .buf) (phost : P .host) (pcmd : P .cmd) (psec : P .sec) (prst : P .rst) (rBUF_CNT : R REG_BUF_CNT) (rBUF_ERR : R REG_BUF_ERR) (rBUF_FIRST : R REG_BUF_FIRST) (rCCH_MISS : R REG_CCH_MISS) (rQSQ_CMDTAB : R REG_QSQ_CMDTAB) (rSEC_SLOTS : R REG_SEC_SLOTS) (rSEC_VAULT : R REG_SEC_VAULT) :
    ∃ t, execReadoptDirty s = .next { s with m := t } ∧ Kept P R s.m t :=
  ⟨_, rfl, by repeat' (first | with_reducible exact Kept.refl _ | with_reducible assumption | with_reducible apply Mach.keyed_kept | with_reducible apply readoptDirty_kept | intro m h)⟩
theorem execSvnRaise_kept (s : State) (psec : P .sec) (pfuses : P .fuses) :
    ∃ t, execSvnRaise s = .next { s with m := t } ∧ Kept P R s.m t :=
  ⟨_, rfl, by repeat' (first | with_reducible exact Kept.refl _ | with_reducible assumption | with_reducible apply svnRaise_kept | intro m h)⟩
theorem execPowerOnReset_kept (s : State) (preports : P .reports) (pcal : P .cal) (pmedia : P .media) (pmotion : P .motion) (pdie : P .die) (pspn : P .spn) (ppwr : P .pwr) (pbuf : P .buf) (pdma : P .dma) (phost : P .host) (pcmd : P .cmd) (psec : P .sec) (peng : P .eng) (pevt : P .evt) (prst : P .rst) (rall : ∀ a, R a) :
    ∃ t, execPowerOnReset s = .next { s with m := t } ∧ Kept P R s.m t :=
  ⟨_, rfl, by repeat' (first | with_reducible exact Kept.refl _ | with_reducible assumption | exact rall _ | exact fun _ _ => rall _ | exact fun _ _ _ => rall _ | exact fun _ _ _ _ => rall _ | with_reducible apply powerOnReset_kept | intro m h)⟩
theorem execBrownOutReset_kept (rail : Fin 7) (s : State) (preports : P .reports) (pcal : P .cal) (pmedia : P .media) (pmotion : P .motion) (pdie : P .die) (pspn : P .spn) (ppwr : P .pwr) (pbuf : P .buf) (pdma : P .dma) (phost : P .host) (pcmd : P .cmd) (psec : P .sec) (peng : P .eng) (pevt : P .evt) (prst : P .rst) (rall : ∀ a, R a) :
    ∃ t, execBrownOutReset rail s = .next { s with m := t } ∧ Kept P R s.m t :=
  ⟨_, rfl, by repeat' (first | with_reducible exact Kept.refl _ | with_reducible assumption | exact rall _ | exact fun _ _ => rall _ | exact fun _ _ _ => rall _ | exact fun _ _ _ _ => rall _ | with_reducible apply brownOutReset_kept | intro m h)⟩
theorem execResetNAssert_kept (s : State) (preports : P .reports) (pcal : P .cal) (pmedia : P .media) (pmotion : P .motion) (pdie : P .die) (pspn : P .spn) (ppwr : P .pwr) (pbuf : P .buf) (pdma : P .dma) (phost : P .host) (pcmd : P .cmd) (psec : P .sec) (peng : P .eng) (pevt : P .evt) (prst : P .rst) (rall : ∀ a, R a) :
    ∃ t, execResetNAssert s = .next { s with m := t } ∧ Kept P R s.m t :=
  ⟨_, rfl, by repeat' (first | with_reducible exact Kept.refl _ | with_reducible assumption | exact rall _ | exact fun _ _ => rall _ | exact fun _ _ _ => rall _ | exact fun _ _ _ _ => rall _ | with_reducible apply resetNAssert_kept | intro m h)⟩
theorem execResetNRelease_kept (s : State) (prst : P .rst) :
    ∃ t, execResetNRelease s = .next { s with m := t } ∧ Kept P R s.m t :=
  ⟨_, rfl, by repeat' (first | with_reducible exact Kept.refl _ | with_reducible assumption | with_reducible apply resetNRelease_kept | intro m h)⟩
theorem execRstSwrstWrite_kept (req : Requester) (w : Word) (s : State) (preports : P .reports) (pcal : P .cal) (pmedia : P .media) (pmotion : P .motion) (pdie : P .die) (pspn : P .spn) (ppwr : P .pwr) (pbuf : P .buf) (pdma : P .dma) (phost : P .host) (pcmd : P .cmd) (psec : P .sec) (peng : P .eng) (pevt : P .evt) (prst : P .rst) (rall : ∀ a, R a) :
    ∃ t, execRstSwrstWrite req w s = .next { s with m := t } ∧ Kept P R s.m t :=
  ⟨_, rfl, by repeat' (first | with_reducible exact Kept.refl _ | with_reducible assumption | exact rall _ | exact fun _ _ => rall _ | exact fun _ _ _ => rall _ | exact fun _ _ _ _ => rall _ | with_reducible apply rstSwrstWrite_kept | intro m h)⟩
theorem execChiprst_kept (s : State) (preports : P .reports) (pcal : P .cal) (pmedia : P .media) (pmotion : P .motion) (pdie : P .die) (pspn : P .spn) (ppwr : P .pwr) (pbuf : P .buf) (pdma : P .dma) (phost : P .host) (pcmd : P .cmd) (psec : P .sec) (peng : P .eng) (pevt : P .evt) (prst : P .rst) (rall : ∀ a, R a) :
    ∃ t, execChiprst s = .next { s with m := t } ∧ Kept P R s.m t :=
  ⟨_, rfl, by repeat' (first | with_reducible exact Kept.refl _ | with_reducible assumption | exact rall _ | exact fun _ _ => rall _ | exact fun _ _ _ => rall _ | exact fun _ _ _ _ => rall _ | with_reducible apply chiprst_kept | intro m h)⟩
theorem execCoreWatchdogExpiry_kept (k : Fin 12) (s : State) (preports : P .reports) (pcal : P .cal) (pmedia : P .media) (pmotion : P .motion) (pdie : P .die) (pspn : P .spn) (ppwr : P .pwr) (pbuf : P .buf) (pdma : P .dma) (phost : P .host) (pcmd : P .cmd) (psec : P .sec) (peng : P .eng) (pevt : P .evt) (prst : P .rst) (rall : ∀ a, R a) :
    ∃ t, execCoreWatchdogExpiry k s = .next { s with m := t } ∧ Kept P R s.m t :=
  ⟨_, rfl, by repeat' (first | with_reducible exact Kept.refl _ | with_reducible assumption | exact rall _ | exact fun _ _ => rall _ | exact fun _ _ _ => rall _ | exact fun _ _ _ _ => rall _ | with_reducible apply coreWatchdogExpiry_kept | intro m h)⟩
theorem execCoreLockup_kept (k : Fin 12) (s : State) (preports : P .reports) (pcal : P .cal) (pmedia : P .media) (pmotion : P .motion) (pdie : P .die) (pspn : P .spn) (ppwr : P .pwr) (pbuf : P .buf) (pdma : P .dma) (phost : P .host) (pcmd : P .cmd) (psec : P .sec) (peng : P .eng) (pevt : P .evt) (prst : P .rst) (rall : ∀ a, R a) :
    ∃ t, execCoreLockup k s = .next { s with m := t } ∧ Kept P R s.m t :=
  ⟨_, rfl, by repeat' (first | with_reducible exact Kept.refl _ | with_reducible assumption | exact rall _ | exact fun _ _ => rall _ | exact fun _ _ _ => rall _ | exact fun _ _ _ _ => rall _ | with_reducible apply coreLockup_kept | intro m h)⟩
theorem execClockFailure_kept (d : Fin 64) (kind : Fin 3) (s : State) (preports : P .reports) (pcal : P .cal) (pmedia : P .media) (pmotion : P .motion) (pdie : P .die) (pspn : P .spn) (ppwr : P .pwr) (pbuf : P .buf) (pdma : P .dma) (phost : P .host) (pcmd : P .cmd) (psec : P .sec) (peng : P .eng) (pevt : P .evt) (prst : P .rst) (rall : ∀ a, R a) :
    ∃ t, execClockFailure d kind s = .next { s with m := t } ∧ Kept P R s.m t :=
  ⟨_, rfl, by repeat' (first | with_reducible exact Kept.refl _ | with_reducible assumption | exact rall _ | exact fun _ _ => rall _ | exact fun _ _ _ => rall _ | exact fun _ _ _ _ => rall _ | with_reducible apply clockFailure_kept | intro m h)⟩
theorem execClockGoodTimeout_kept (d : Fin 40) (s : State) (preports : P .reports) (pcal : P .cal) (pmedia : P .media) (pmotion : P .motion) (pdie : P .die) (pspn : P .spn) (ppwr : P .pwr) (pbuf : P .buf) (pdma : P .dma) (phost : P .host) (pcmd : P .cmd) (psec : P .sec) (peng : P .eng) (pevt : P .evt) (prst : P .rst) (rall : ∀ a, R a) :
    ∃ t, execClockGoodTimeout d s = .next { s with m := t } ∧ Kept P R s.m t :=
  ⟨_, rfl, by repeat' (first | with_reducible exact Kept.refl _ | with_reducible assumption | exact rall _ | exact fun _ _ => rall _ | exact fun _ _ _ => rall _ | exact fun _ _ _ _ => rall _ | with_reducible apply clockGoodTimeout_kept | intro m h)⟩
theorem execStormHoldEnd_kept (s : State) (prst : P .rst) :
    ∃ t, execStormHoldEnd s = .next { s with m := t } ∧ Kept P R s.m t :=
  ⟨_, rfl, by repeat' (first | with_reducible exact Kept.refl _ | with_reducible assumption | with_reducible apply stormHoldEnd_kept | intro m h)⟩
theorem execPhaseP0_kept (s : State) (prst : P .rst) (rPWR_RAILS : R REG_PWR_RAILS) :
    ∃ t, execPhaseP0 s = .next { s with m := t } ∧ Kept P R s.m t :=
  ⟨_, rfl, by repeat' (first | with_reducible exact Kept.refl _ | with_reducible assumption | with_reducible apply phaseP0_kept | intro m h)⟩
theorem execRailRampTimeout_kept (s : State) (prst : P .rst) (rPWR_RAILS : R REG_PWR_RAILS) :
    ∃ t, execRailRampTimeout s = .next { s with m := t } ∧ Kept P R s.m t :=
  ⟨_, rfl, by repeat' (first | with_reducible exact Kept.refl _ | with_reducible assumption | with_reducible apply railRampTimeout_kept | intro m h)⟩
theorem execCrystalGood_kept (s : State) (prst : P .rst) (rCLK_GOOD0 : R REG_CLK_GOOD0) (rCLK_GOOD1 : R REG_CLK_GOOD1) (rCLK_STAT : R REG_CLK_STAT) :
    ∃ t, execCrystalGood s = .next { s with m := t } ∧ Kept P R s.m t :=
  ⟨_, rfl, by repeat' (first | with_reducible exact Kept.refl _ | with_reducible assumption | with_reducible apply crystalGood_kept | intro m h)⟩
theorem execPllLock_kept (s : State) (rCLK_STAT : R REG_CLK_STAT) :
    ∃ t, execPllLock s = .next { s with m := t } ∧ Kept P R s.m t :=
  ⟨_, rfl, by repeat' (first | with_reducible exact Kept.refl _ | with_reducible assumption | with_reducible apply pllLock_kept | intro m h)⟩
theorem execFuseSense_kept (testEn : Bool) (s : State) (prst : P .rst) (rCLK_GOOD0 : R REG_CLK_GOOD0) (rCLK_GOOD1 : R REG_CLK_GOOD1) (rCLK_STAT : R REG_CLK_STAT) (rFUS_PADMAP : R REG_FUS_PADMAP) (rFUS_SERHI : R REG_FUS_SERHI) (rFUS_SERLO : R REG_FUS_SERLO) (rPWR_RAILS : R REG_PWR_RAILS) (rRST_PHASE : R REG_RST_PHASE) (rSEC_LIFE : R REG_SEC_LIFE) (rSEC_SVN : R REG_SEC_SVN) :
    ∃ t, execFuseSense testEn s = .next { s with m := t } ∧ Kept P R s.m t :=
  ⟨_, rfl, by repeat' (first | with_reducible exact Kept.refl _ | with_reducible assumption | with_reducible apply fuseSense_kept | intro m h)⟩
theorem execOptionLoad_kept (s : State) (preports : P .reports) (pcmd : P .cmd) (psec : P .sec) (rBUF_CTRL : R REG_BUF_CTRL) (rHIF_MODE : R REG_HIF_MODE) (rHIF_SUBSYS : R REG_HIF_SUBSYS) (rPWR_FLEET : R REG_PWR_FLEET) (rRST_PHASE : R REG_RST_PHASE) (rSEC_BOOT : R REG_SEC_BOOT) (rSEC_ERR : R REG_SEC_ERR) :
    ∃ t, execOptionLoad s = .next { s with m := t } ∧ Kept P R s.m t :=
  ⟨_, rfl, by repeat' (first | with_reducible exact Kept.refl _ | with_reducible assumption | with_reducible apply optionLoad_kept | intro m h)⟩
theorem execClockStart_kept (s : State) (prst : P .rst) :
    ∃ t, execClockStart s = .next { s with m := t } ∧ Kept P R s.m t :=
  ⟨_, rfl, by repeat' (first | with_reducible exact Kept.refl _ | with_reducible assumption | with_reducible apply clockStart_kept | intro m h)⟩
theorem execDomainRelease_kept (d : Fin 40) (s : State) (pcal : P .cal) (pdie : P .die) (prst : P .rst) (rCAL_FIGNO : R REG_CAL_FIGNO) (rCLK_GOOD0 : R REG_CLK_GOOD0) (rCLK_GOOD1 : R REG_CLK_GOOD1) (rQDR_ACT : ∀ i, i < 4 → R (REG_QDR_ACT i)) (rRST_PHASE : R REG_RST_PHASE) (rVCM_STAT : ∀ i, i < 4 → R (REG_VCM_STAT i)) (rVCM_TEMP : R REG_VCM_TEMP) :
    ∃ t, execDomainRelease d s = .next { s with m := t } ∧ Kept P R s.m t :=
  ⟨_, rfl, by repeat' (first | with_reducible exact Kept.refl _ | with_reducible assumption | with_reducible apply domainRelease_kept | intro m h)⟩
theorem execBufferInit_kept (s : State) (pbuf : P .buf) (peng : P .eng) (prst : P .rst) (rBUF_STAT : R REG_BUF_STAT) (rRST_PHASE : R REG_RST_PHASE) (rRST_STAT : R REG_RST_STAT) :
    ∃ t, execBufferInit s = .next { s with m := t } ∧ Kept P R s.m t :=
  ⟨_, rfl, by repeat' (first | with_reducible exact Kept.refl _ | with_reducible assumption | with_reducible apply bufferInit_kept | intro m h)⟩
theorem execBundleSelect_kept (s : State) (preports : P .reports) (psec : P .sec) (peng : P .eng) (rQSQ_CSSWAP : R REG_QSQ_CSSWAP) (rQSQ_DTERR : R REG_QSQ_DTERR) (rRST_PHASE : R REG_RST_PHASE) (rSEC_BOOT : R REG_SEC_BOOT) (rSEC_ERR : R REG_SEC_ERR) (rSEQ_STAT : ∀ i, i < 20 → R (REG_SEQ_STAT i)) :
    ∃ t, execBundleSelect s = .next { s with m := t } ∧ Kept P R s.m t :=
  ⟨_, rfl, by repeat' (first | with_reducible exact Kept.refl _ | with_reducible assumption | with_reducible apply bundleSelect_kept | intro m h)⟩
theorem execConfigApply_kept (s : State) (pall : ∀ p, p ≠ .fuses → P p) (rall : ∀ a, R a) :
    ∃ t, execConfigApply s = .next { s with m := t } ∧ Kept P R s.m t :=
  ⟨_, rfl, by repeat' (first | with_reducible exact Kept.refl _ | with_reducible assumption | exact pall _ (by decide) | exact rall _ | exact fun _ _ => rall _ | exact fun _ _ _ => rall _ | exact fun _ _ _ _ => rall _ | with_reducible apply configApply_kept | intro m h)⟩
theorem execSpinDelayEnd_kept (s : State) (preports : P .reports) (pout : P .out) (pdie : P .die) (pspn : P .spn) (ppwr : P .pwr) (phost : P .host) (rHIF_LINK : ∀ i, i < 2 → R (REG_HIF_LINK i)) (rPWR_MODE : R REG_PWR_MODE) (rPWR_SPIN : R REG_PWR_SPIN) (rRST_PHASE : R REG_RST_PHASE) (rSPN_DEMAND : R REG_SPN_DEMAND) (rSPN_ERR : R REG_SPN_ERR) (rSPN_OBS : R REG_SPN_OBS) (rSPN_SPEED : R REG_SPN_SPEED) (rSPN_STAT : R REG_SPN_STAT) (rSPN_TARGET : R REG_SPN_TARGET) (rSRV_STAT : ∀ i, i < 4 → R (REG_SRV_STAT i)) :
    ∃ t, execSpinDelayEnd s = .next { s with m := t } ∧ Kept P R s.m t :=
  ⟨_, rfl, by repeat' (first | with_reducible exact Kept.refl _ | with_reducible assumption | with_reducible apply spinDelayEnd_kept | intro m h)⟩
theorem execClkGateWrite_kept (req : Requester) (half : Fin 2) (w : Word) (s : State) (preports : P .reports) (prst : P .rst) (rCLK_ERR : R REG_CLK_ERR) (rCLK_GATE0 : R REG_CLK_GATE0) (rCLK_GATE1 : R REG_CLK_GATE1) (rCLK_GOOD0 : R REG_CLK_GOOD0) (rCLK_GOOD1 : R REG_CLK_GOOD1) :
    ∃ t, execClkGateWrite req half w s = .next { s with m := t } ∧ Kept P R s.m t :=
  ⟨_, rfl, by repeat' (first | with_reducible exact Kept.refl _ | with_reducible assumption | with_reducible apply clkGateWrite_kept | intro m h)⟩
theorem execBlockResetChn_kept (n : Stream) (s : State) (preports : P .reports) (pmedia : P .media) (peng : P .eng) (rall : ∀ a, R a) :
    ∃ t, execBlockResetChn n s = .next { s with m := t } ∧ Kept P R s.m t :=
  ⟨_, rfl, by repeat' (first | with_reducible exact Kept.refl _ | with_reducible assumption | exact rall _ | exact fun _ _ => rall _ | exact fun _ _ _ => rall _ | exact fun _ _ _ _ => rall _ | with_reducible apply blockResetChn_kept | intro m h)⟩
theorem execBlockResetFmt_kept (n : Stream) (s : State) (preports : P .reports) (pmedia : P .media) (ppwr : P .pwr) (peng : P .eng) (rall : ∀ a, R a) :
    ∃ t, execBlockResetFmt n s = .next { s with m := t } ∧ Kept P R s.m t :=
  ⟨_, rfl, by repeat' (first | with_reducible exact Kept.refl _ | with_reducible assumption | exact rall _ | exact fun _ _ => rall _ | exact fun _ _ _ => rall _ | exact fun _ _ _ _ => rall _ | with_reducible apply blockResetFmt_kept | intro m h)⟩
theorem execBlockResetLad_kept (a : Actuator) (s : State) (preports : P .reports) (pmedia : P .media) (peng : P .eng) (rall : ∀ a, R a) :
    ∃ t, execBlockResetLad a s = .next { s with m := t } ∧ Kept P R s.m t :=
  ⟨_, rfl, by repeat' (first | with_reducible exact Kept.refl _ | with_reducible assumption | exact rall _ | exact fun _ _ => rall _ | exact fun _ _ _ => rall _ | exact fun _ _ _ _ => rall _ | with_reducible apply blockResetLad_kept | intro m h)⟩
theorem execBlockResetSrv_kept (a : Actuator) (s : State) (preports : P .reports) (pmotion : P .motion) (peng : P .eng) (rall : ∀ a, R a) :
    ∃ t, execBlockResetSrv a s = .next { s with m := t } ∧ Kept P R s.m t :=
  ⟨_, rfl, by repeat' (first | with_reducible exact Kept.refl _ | with_reducible assumption | exact rall _ | exact fun _ _ => rall _ | exact fun _ _ _ => rall _ | exact fun _ _ _ _ => rall _ | with_reducible apply blockResetSrv_kept | intro m h)⟩
theorem execBlockResetHsq_kept (a : Actuator) (s : State) (preports : P .reports) (pmotion : P .motion) (peng : P .eng) (rall : ∀ a, R a) :
    ∃ t, execBlockResetHsq a s = .next { s with m := t } ∧ Kept P R s.m t :=
  ⟨_, rfl, by repeat' (first | with_reducible exact Kept.refl _ | with_reducible assumption | exact rall _ | exact fun _ _ => rall _ | exact fun _ _ _ => rall _ | exact fun _ _ _ _ => rall _ | with_reducible apply blockResetHsq_kept | intro m h)⟩
theorem execBlockResetDec_kept (s : State) (preports : P .reports) (pmedia : P .media) (peng : P .eng) (rall : ∀ a, R a) :
    ∃ t, execBlockResetDec s = .next { s with m := t } ∧ Kept P R s.m t :=
  ⟨_, rfl, by repeat' (first | with_reducible exact Kept.refl _ | with_reducible assumption | exact rall _ | exact fun _ _ => rall _ | exact fun _ _ _ => rall _ | exact fun _ _ _ _ => rall _ | with_reducible apply blockResetDec_kept | intro m h)⟩
theorem execBlockResetPrg_kept (s : State) (preports : P .reports) (pmotion : P .motion) (peng : P .eng) (rall : ∀ a, R a) :
    ∃ t, execBlockResetPrg s = .next { s with m := t } ∧ Kept P R s.m t :=
  ⟨_, rfl, by repeat' (first | with_reducible exact Kept.refl _ | with_reducible assumption | exact rall _ | exact fun _ _ => rall _ | exact fun _ _ _ => rall _ | exact fun _ _ _ _ => rall _ | with_reducible apply blockResetPrg_kept | intro m h)⟩
theorem execBlockResetQdr_kept (s : State) (preports : P .reports) (pmotion : P .motion) (peng : P .eng) (rall : ∀ a, R a) :
    ∃ t, execBlockResetQdr s = .next { s with m := t } ∧ Kept P R s.m t :=
  ⟨_, rfl, by repeat' (first | with_reducible exact Kept.refl _ | with_reducible assumption | exact rall _ | exact fun _ _ => rall _ | exact fun _ _ _ => rall _ | exact fun _ _ _ _ => rall _ | with_reducible apply blockResetQdr_kept | intro m h)⟩
theorem execBlockResetSpn_kept (s : State) (preports : P .reports) (pspn : P .spn) (peng : P .eng) (rall : ∀ a, R a) :
    ∃ t, execBlockResetSpn s = .next { s with m := t } ∧ Kept P R s.m t :=
  ⟨_, rfl, by repeat' (first | with_reducible exact Kept.refl _ | with_reducible assumption | exact rall _ | exact fun _ _ => rall _ | exact fun _ _ _ => rall _ | exact fun _ _ _ _ => rall _ | with_reducible apply blockResetSpn_kept | intro m h)⟩
theorem execBlockResetVcm_kept (s : State) (preports : P .reports) (pdie : P .die) (peng : P .eng) (rall : ∀ a, R a) :
    ∃ t, execBlockResetVcm s = .next { s with m := t } ∧ Kept P R s.m t :=
  ⟨_, rfl, by repeat' (first | with_reducible exact Kept.refl _ | with_reducible assumption | exact rall _ | exact fun _ _ => rall _ | exact fun _ _ _ => rall _ | exact fun _ _ _ _ => rall _ | with_reducible apply blockResetVcm_kept | intro m h)⟩
theorem execBlockResetPool_kept (s : State) (preports : P .reports) (pcal : P .cal) (pbuf : P .buf) (peng : P .eng) (rall : ∀ a, R a) :
    ∃ t, execBlockResetPool s = .next { s with m := t } ∧ Kept P R s.m t :=
  ⟨_, rfl, by repeat' (first | with_reducible exact Kept.refl _ | with_reducible assumption | exact rall _ | exact fun _ _ => rall _ | exact fun _ _ _ => rall _ | exact fun _ _ _ _ => rall _ | with_reducible apply blockResetPool_kept | intro m h)⟩
theorem execBlockResetCch_kept (s : State) (preports : P .reports) (pbuf : P .buf) (peng : P .eng) (rall : ∀ a, R a) :
    ∃ t, execBlockResetCch s = .next { s with m := t } ∧ Kept P R s.m t :=
  ⟨_, rfl, by repeat' (first | with_reducible exact Kept.refl _ | with_reducible assumption | exact rall _ | exact fun _ _ => rall _ | exact fun _ _ _ => rall _ | exact fun _ _ _ _ => rall _ | with_reducible apply blockResetCch_kept | intro m h)⟩
theorem execBlockResetScb_kept (s : State) (preports : P .reports) (pbuf : P .buf) (peng : P .eng) (rall : ∀ a, R a) :
    ∃ t, execBlockResetScb s = .next { s with m := t } ∧ Kept P R s.m t :=
  ⟨_, rfl, by repeat' (first | with_reducible exact Kept.refl _ | with_reducible assumption | exact rall _ | exact fun _ _ => rall _ | exact fun _ _ _ => rall _ | exact fun _ _ _ _ => rall _ | with_reducible apply blockResetScb_kept | intro m h)⟩
theorem execBlockResetDma_kept (s : State) (preports : P .reports) (pdma : P .dma) (peng : P .eng) (rall : ∀ a, R a) :
    ∃ t, execBlockResetDma s = .next { s with m := t } ∧ Kept P R s.m t :=
  ⟨_, rfl, by repeat' (first | with_reducible exact Kept.refl _ | with_reducible assumption | exact rall _ | exact fun _ _ => rall _ | exact fun _ _ _ => rall _ | exact fun _ _ _ _ => rall _ | with_reducible apply blockResetDma_kept | intro m h)⟩
theorem execBlockResetQsq_kept (s : State) (preports : P .reports) (phost : P .host) (peng : P .eng) (rall : ∀ a, R a) :
    ∃ t, execBlockResetQsq s = .next { s with m := t } ∧ Kept P R s.m t :=
  ⟨_, rfl, by repeat' (first | with_reducible exact Kept.refl _ | with_reducible assumption | exact rall _ | exact fun _ _ => rall _ | exact fun _ _ _ => rall _ | exact fun _ _ _ _ => rall _ | with_reducible apply blockResetQsq_kept | intro m h)⟩
theorem execBlockResetRelease_kept (b : Fin 39) (s : State) (prst : P .rst) (rall : ∀ a, R a) :
    ∃ t, execBlockResetRelease b s = .next { s with m := t } ∧ Kept P R s.m t :=
  ⟨_, rfl, by repeat' (first | with_reducible exact Kept.refl _ | with_reducible assumption | exact rall _ | exact fun _ _ => rall _ | exact fun _ _ _ => rall _ | exact fun _ _ _ _ => rall _ | with_reducible apply blockResetRelease_kept | intro m h)⟩
theorem execKeyLoadSlot_kept (req : Requester) (slot : KeySlot) (s : State) (preports : P .reports) (psec : P .sec) (rSEC_ERR : R REG_SEC_ERR) (rSEC_SLOTS : R REG_SEC_SLOTS) (rSEC_VAULT : R REG_SEC_VAULT) :
    ∃ t, execKeyLoadSlot req slot s = .next { s with m := t } ∧ Kept P R s.m t :=
  ⟨_, rfl, by repeat' (first | with_reducible exact Kept.refl _ | with_reducible assumption | with_reducible apply Mach.clocked_kept | with_reducible apply keyLoadSlot_kept | intro m h)⟩
theorem execKeyClearSlot_kept (req : Requester) (slot : KeySlot) (s : State) (preports : P .reports) (psec : P .sec) (rSEC_ERR : R REG_SEC_ERR) (rSEC_SLOTS : R REG_SEC_SLOTS) (rSEC_VAULT : R REG_SEC_VAULT) :
    ∃ t, execKeyClearSlot req slot s = .next { s with m := t } ∧ Kept P R s.m t :=
  ⟨_, rfl, by repeat' (first | with_reducible exact Kept.refl _ | with_reducible assumption | with_reducible apply Mach.clocked_kept | with_reducible apply keyClearSlot_kept | intro m h)⟩
theorem execKeyClearAll_kept (req : Requester) (s : State) (preports : P .reports) (psec : P .sec) (rSEC_ERR : R REG_SEC_ERR) (rSEC_SLOTS : R REG_SEC_SLOTS) (rSEC_VAULT : R REG_SEC_VAULT) :
    ∃ t, execKeyClearAll req s = .next { s with m := t } ∧ Kept P R s.m t :=
  ⟨_, rfl, by repeat' (first | with_reducible exact Kept.refl _ | with_reducible assumption | with_reducible apply Mach.clocked_kept | with_reducible apply keyClearAll_kept | intro m h)⟩
theorem execNonceRequest_kept (s : State) (pfreeCtr : P .freeCtr) (rDBG_NONCE : ∀ i, i < 4 → R (REG_DBG_NONCE i)) (rDBG_STAT : R REG_DBG_STAT) :
    ∃ t, execNonceRequest s = .next { s with m := t } ∧ Kept P R s.m t :=
  ⟨_, rfl, by repeat' (first | with_reducible exact Kept.refl _ | with_reducible assumption | with_reducible apply Mach.clocked_kept | with_reducible apply nonceRequest_kept | intro m h)⟩
theorem execTokenSubmit_kept (t0 : Token) (s : State) (preports : P .reports) (psec : P .sec) (rDBG_ERR : R REG_DBG_ERR) (rDBG_NONCE : ∀ i, i < 4 → R (REG_DBG_NONCE i)) (rDBG_STAT : R REG_DBG_STAT) :
    ∃ t, execTokenSubmit t0 s = .next { s with m := t } ∧ Kept P R s.m t :=
  ⟨_, rfl, by repeat' (first | with_reducible exact Kept.refl _ | with_reducible assumption | with_reducible apply Mach.clocked_kept | with_reducible apply tokenSubmit_kept | intro m h)⟩
theorem execHerugPrepare_kept (s : State) (preports : P .reports) (pdie : P .die) (psec : P .sec) (rDBG_ERR : R REG_DBG_ERR) (rDBG_STAT : R REG_DBG_STAT) (rQSQ_CTRL : R REG_QSQ_CTRL) (rVCM_MA : ∀ i, i < 4 → R (REG_VCM_MA i)) (rVCM_STAT : ∀ i, i < 4 → R (REG_VCM_STAT i)) :
    ∃ t, execHerugPrepare s = .next { s with m := t } ∧ Kept P R s.m t :=
  ⟨_, rfl, by repeat' (first | with_reducible exact Kept.refl _ | with_reducible assumption | with_reducible apply Mach.clocked_kept | with_reducible apply herugPrepare_kept | intro m h)⟩
theorem execDbgGrant_kept (s : State) (pcal : P .cal) (pmedia : P .media) (pbuf : P .buf) (pdma : P .dma) (psec : P .sec) (rDBG_STAT : R REG_DBG_STAT) (rDMA_CH_MOVED : ∀ i, i < 16 → R (REG_DMA_CH_MOVED i)) (rDMA_CH_STAT : ∀ i, i < 16 → R (REG_DMA_CH_STAT i)) (rDMA_CTRL : R REG_DMA_CTRL) (rDMA_STAT : R REG_DMA_STAT) (rSEC_SLOTS : R REG_SEC_SLOTS) (rSEC_VAULT : R REG_SEC_VAULT) :
    ∃ t, execDbgGrant s = .next { s with m := t } ∧ Kept P R s.m t :=
  ⟨_, rfl, by repeat' (first | with_reducible exact Kept.refl _ | with_reducible assumption | with_reducible apply Mach.clocked_kept | with_reducible apply dbgGrant_kept | intro m h)⟩
theorem execDbgRefuse_kept (s : State) (preports : P .reports) (psec : P .sec) (rDBG_ERR : R REG_DBG_ERR) (rDBG_STAT : R REG_DBG_STAT) :
    ∃ t, execDbgRefuse s = .next { s with m := t } ∧ Kept P R s.m t :=
  ⟨_, rfl, by repeat' (first | with_reducible exact Kept.refl _ | with_reducible assumption | with_reducible apply Mach.clocked_kept | with_reducible apply dbgRefuse_kept | intro m h)⟩
theorem execHerugOpen_kept (s : State) (preports : P .reports) (pout : P .out) (pcal : P .cal) (ppwr : P .pwr) (pbuf : P .buf) (phost : P .host) (psec : P .sec) (rDBG_COUNT : R REG_DBG_COUNT) (rDBG_STAT : R REG_DBG_STAT) (rHIF_LINK : ∀ i, i < 2 → R (REG_HIF_LINK i)) (rPWR_MODE : R REG_PWR_MODE) :
    ∃ t, execHerugOpen s = .next { s with m := t } ∧ Kept P R s.m t :=
  ⟨_, rfl, by repeat' (first | with_reducible exact Kept.refl _ | with_reducible assumption | with_reducible apply Mach.clocked_kept | with_reducible apply herugOpen_kept | intro m h)⟩
theorem execFuseProgram_kept (toReturned : Bool) (s : State) (psec : P .sec) (pfuses : P .fuses) :
    ∃ t, execFuseProgram toReturned s = .next { s with m := t } ∧ Kept P R s.m t :=
  ⟨_, rfl, by repeat' (first | with_reducible exact Kept.refl _ | with_reducible assumption | with_reducible apply Mach.clocked_kept | with_reducible apply fuseProgram_kept | intro m h)⟩
theorem execBar2Write_kept (o : BitVec 22) (len : Fin 5) (w : Word) (s : State) (preports : P .reports) (pout : P .out) (pcal : P .cal) (pmedia : P .media) (pmotion : P .motion) (pdie : P .die) (pspn : P .spn) (ppwr : P .pwr) (pbuf : P .buf) (pdma : P .dma) (phost : P .host) (pcmd : P .cmd) (psec : P .sec) (peng : P .eng) (pevt : P .evt) (prst : P .rst) (rall : ∀ a, R a) :
    ∃ t, execBar2Write o len w s = .next { s with m := t } ∧ Kept P R s.m t :=
  ⟨_, rfl, by repeat' (first | with_reducible exact Kept.refl _ | with_reducible assumption | exact rall _ | exact fun _ _ => rall _ | exact fun _ _ _ => rall _ | exact fun _ _ _ _ => rall _ | with_reducible apply bar2Write_kept | intro m h)⟩
theorem execPreampRailLimit_kept (a : Actuator) (s : State) (preports : P .reports) (pdie : P .die) (rHSQ_FAULT : ∀ i, i < 4 → R (REG_HSQ_FAULT i)) (rPWR_RAILS : R REG_PWR_RAILS) (rSRV_STAT : ∀ i, i < 4 → R (REG_SRV_STAT i)) :
    ∃ t, execPreampRailLimit a s = .next { s with m := t } ∧ Kept P R s.m t :=
  ⟨_, rfl, by repeat' (first | with_reducible exact Kept.refl _ | with_reducible assumption | with_reducible apply preampRailLimit_kept | intro m h)⟩
theorem execEventFire_kept (src : Option (Fin 1152)) (s : State) (preports : P .reports) (pout : P .out) (pcal : P .cal) (pdie : P .die) (pbuf : P .buf) (phost : P .host) (pcmd : P .cmd) (pevt : P .evt) (rEVT_CNT : ∀ i, i < 576 → R (REG_EVT_CNT i)) (rEVT_FIRST : R REG_EVT_FIRST) (rEVT_FIRSTSEQ : R REG_EVT_FIRSTSEQ) (rEVT_LGR_STAT : R REG_EVT_LGR_STAT) (rEVT_SEQHI : R REG_EVT_SEQHI) (rEVT_SEQLO : R REG_EVT_SEQLO) (rEVT_STAT : ∀ i, i < 36 → R (REG_EVT_STAT i)) (rHIF_CC : ∀ i, i < 2 → R (REG_HIF_CC i)) (rHIF_LINK : ∀ i, i < 2 → R (REG_HIF_LINK i)) (rPOOL_ERR : R REG_POOL_ERR) (rPOOL_FIRST : R REG_POOL_FIRST) (rPOOL_RETSTAT : ∀ i, i < 8 → R (REG_POOL_RETSTAT i)) (rPOOL_STAT : ∀ i, i < 8 → R (REG_POOL_STAT i)) (rPWR_MODE : R REG_PWR_MODE) (rQSQ_ARB : ∀ i, i < 2 → R (REG_QSQ_ARB i)) (rVCM_MA : ∀ i, i < 4 → R (REG_VCM_MA i)) (rVCM_STAT : ∀ i, i < 4 → R (REG_VCM_STAT i)) :
    ∃ t, execEventFire src s = .next { s with m := t } ∧ Kept P R s.m t :=
  ⟨_, rfl, by repeat' (first | with_reducible exact Kept.refl _ | with_reducible assumption | with_reducible apply Mach.clocked_kept | with_reducible apply eventFire_kept | intro m h)⟩
theorem execLedgerWriteDone_kept (s : State) (pfreeCtr : P .freeCtr) (preports : P .reports) (pout : P .out) (pcal : P .cal) (pbuf : P .buf) (phost : P .host) (pevt : P .evt) (rBUF_CNT : R REG_BUF_CNT) (rBUF_ERR : R REG_BUF_ERR) (rBUF_FIRST : R REG_BUF_FIRST) (rCCH_MISS : R REG_CCH_MISS) (rEVT_LGR_HEAD : R REG_EVT_LGR_HEAD) (rEVT_LGR_TAIL : R REG_EVT_LGR_TAIL) :
    ∃ t, execLedgerWriteDone s = .next { s with m := t } ∧ Kept P R s.m t :=
  ⟨_, rfl, by repeat' (first | with_reducible exact Kept.refl _ | with_reducible assumption | with_reducible apply Mach.clocked_kept | with_reducible apply ledgerWriteDone_kept | intro m h)⟩
theorem execEvtCntclr_kept (s : State) (rEVT_CNT : ∀ i, i < 576 → R (REG_EVT_CNT i)) :
    ∃ t, execEvtCntclr s = .next { s with m := t } ∧ Kept P R s.m t :=
  ⟨_, rfl, by repeat' (first | with_reducible exact Kept.refl _ | with_reducible assumption | with_reducible apply Mach.clocked_kept | with_reducible apply evtCntclr_kept | intro m h)⟩
theorem execEvtFirstClear_kept (s : State) (rEVT_FIRST : R REG_EVT_FIRST) (rEVT_FIRSTSEQ : R REG_EVT_FIRSTSEQ) :
    ∃ t, execEvtFirstClear s = .next { s with m := t } ∧ Kept P R s.m t :=
  ⟨_, rfl, by repeat' (first | with_reducible exact Kept.refl _ | with_reducible assumption | with_reducible apply Mach.clocked_kept | with_reducible apply evtFirstClear_kept | intro m h)⟩
theorem execEvtSwraise_kept (bit : BitVec 5) (s : State) (preports : P .reports) (rEVT_ERR : R REG_EVT_ERR) :
    ∃ t, execEvtSwraise bit s = .next { s with m := t } ∧ Kept P R s.m t :=
  ⟨_, rfl, by repeat' (first | with_reducible exact Kept.refl _ | with_reducible assumption | with_reducible apply Mach.clocked_kept | with_reducible apply evtSwraise_kept | intro m h)⟩
theorem execRecProgram_kept (s : State) (preports : P .reports) (pout : P .out) (pcal : P .cal) (pbuf : P .buf) (pevt : P .evt) (rBUF_CNT : R REG_BUF_CNT) (rBUF_ERR : R REG_BUF_ERR) (rBUF_FIRST : R REG_BUF_FIRST) (rCCH_MISS : R REG_CCH_MISS) (rREC_STAT : R REG_REC_STAT) :
    ∃ t, execRecProgram s = .next { s with m := t } ∧ Kept P R s.m t :=
  ⟨_, rfl, by repeat' (first | with_reducible exact Kept.refl _ | with_reducible assumption | with_reducible apply Mach.clocked_kept | with_reducible apply recProgram_kept | intro m h)⟩
theorem execRecErase_kept (s : State) (pevt : P .evt) (rREC_STAT : R REG_REC_STAT) :
    ∃ t, execRecErase s = .next { s with m := t } ∧ Kept P R s.m t :=
  ⟨_, rfl, by repeat' (first | with_reducible exact Kept.refl _ | with_reducible assumption | with_reducible apply Mach.clocked_kept | with_reducible apply recErase_kept | intro m h)⟩
theorem execRecDone_kept (outcome : Fin 3) (s : State) (pfreeCtr : P .freeCtr) (pevt : P .evt) (rREC_STAT : R REG_REC_STAT) :
    ∃ t, execRecDone outcome s = .next { s with m := t } ∧ Kept P R s.m t :=
  ⟨_, rfl, by repeat' (first | with_reducible exact Kept.refl _ | with_reducible assumption | with_reducible apply Mach.clocked_kept | with_reducible apply recDone_kept | intro m h)⟩
theorem execSnapshotTimer_kept (s : State) (pfreeCtr : P .freeCtr) (pevt : P .evt) :
    ∃ t, execSnapshotTimer s = .next { s with m := t } ∧ Kept P R s.m t :=
  ⟨_, rfl, by repeat' (first | with_reducible exact Kept.refl _ | with_reducible assumption | with_reducible apply snapshotTimer_kept | intro m h)⟩
theorem execPohStore_kept (s : State) (pevt : P .evt) :
    ∃ t, execPohStore s = .next { s with m := t } ∧ Kept P R s.m t :=
  ⟨_, rfl, by repeat' (first | with_reducible exact Kept.refl _ | with_reducible assumption | with_reducible apply pohStore_kept | intro m h)⟩
theorem execRegisterWrite_kept (req : Requester) (a : BitVec 32) (len : Fin 5) (w : Word) (s : State) (preports : P .reports) (pout : P .out) (pcal : P .cal) (pmedia : P .media) (pmotion : P .motion) (pdie : P .die) (pspn : P .spn) (ppwr : P .pwr) (pbuf : P .buf) (pdma : P .dma) (phost : P .host) (pcmd : P .cmd) (psec : P .sec) (peng : P .eng) (pevt : P .evt) (prst : P .rst) (rall : ∀ a, R a) :
    ∃ t, execRegisterWrite req a len w s = .next { s with m := t } ∧ Kept P R s.m t :=
  ⟨_, rfl, by repeat' (first | with_reducible exact Kept.refl _ | with_reducible assumption | exact rall _ | exact fun _ _ => rall _ | exact fun _ _ _ => rall _ | exact fun _ _ _ _ => rall _ | with_reducible apply registerWrite_kept | intro m h)⟩
theorem execSpinPhaseOvercurrent_kept (s : State) (preports : P .reports) (pdie : P .die) (pspn : P .spn) (rSPN_FAULT : R REG_SPN_FAULT) (rSPN_OBS : R REG_SPN_OBS) (rSPN_SPEED : R REG_SPN_SPEED) (rSPN_STAT : R REG_SPN_STAT) (rSPN_TARGET : R REG_SPN_TARGET) (rSRV_STAT : ∀ i, i < 4 → R (REG_SRV_STAT i)) :
    ∃ t, execSpinPhaseOvercurrent s = .next { s with m := t } ∧ Kept P R s.m t :=
  ⟨_, rfl, by repeat' (first | with_reducible exact Kept.refl _ | with_reducible assumption | with_reducible apply Mach.clocked_kept | with_reducible apply spinPhaseOvercurrent_kept | intro m h)⟩
theorem execLadderL1Leave_kept (s : State) (pdie : P .die) (rSPN_RAIL : R REG_SPN_RAIL) (rVCM_STAT : ∀ i, i < 4 → R (REG_VCM_STAT i)) :
    ∃ t, execLadderL1Leave s = .next { s with m := t } ∧ Kept P R s.m t :=
  ⟨_, rfl, by repeat' (first | with_reducible exact Kept.refl _ | with_reducible assumption | with_reducible apply ladderL1Leave_kept | intro m h)⟩
theorem execThermalThrottleEnd_kept (celsius : BitVec 8) (s : State) (ppwr : P .pwr) (rCAL_CAP : R REG_CAL_CAP) (rPWR_CAP : R REG_PWR_CAP) (rPWR_TEMP : R REG_PWR_TEMP) (rQDR_TORQ : R REG_QDR_TORQ) :
    ∃ t, execThermalThrottleEnd celsius s = .next { s with m := t } ∧ Kept P R s.m t :=
  ⟨_, rfl, by repeat' (first | with_reducible exact Kept.refl _ | with_reducible assumption | with_reducible apply thermalThrottleEnd_kept | intro m h)⟩
theorem execAspmL1Exit_kept (p : PortId) (s : State) (rHIF_LINK : ∀ i, i < 2 → R (REG_HIF_LINK i)) :
    ∃ t, execAspmL1Exit p s = .next { s with m := t } ∧ Kept P R s.m t :=
  ⟨_, rfl, by repeat' (first | with_reducible exact Kept.refl _ | with_reducible assumption | with_reducible apply Mach.clocked_kept | with_reducible apply aspmL1Exit_kept | intro m h)⟩
theorem execPerstDeassert_kept (p : PortId) (s : State) (phost : P .host) :
    ∃ t, execPerstDeassert p s = .next { s with m := t } ∧ Kept P R s.m t :=
  ⟨_, rfl, by repeat' (first | with_reducible exact Kept.refl _ | with_reducible assumption | with_reducible apply perstDeassert_kept | intro m h)⟩
theorem execInterruptCoalescingTimeout_kept (p : PortId) (s : State) (pout : P .out) (phost : P .host) (rHIF_LINK : ∀ i, i < 2 → R (REG_HIF_LINK i)) :
    ∃ t, execInterruptCoalescingTimeout p s = .next { s with m := t } ∧ Kept P R s.m t :=
  ⟨_, rfl, by repeat' (first | with_reducible exact Kept.refl _ | with_reducible assumption | with_reducible apply interruptCoalescingTimeout_kept | intro m h)⟩
theorem execPowerDiePowerOn_kept (s : State) (pdie : P .die) (rQDR_ACT : ∀ i, i < 4 → R (REG_QDR_ACT i)) (rSPN_BRK : R REG_SPN_BRK) (rVCM_STAT : ∀ i, i < 4 → R (REG_VCM_STAT i)) :
    ∃ t, execPowerDiePowerOn s = .next { s with m := t } ∧ Kept P R s.m t :=
  ⟨_, rfl, by repeat' (first | with_reducible exact Kept.refl _ | with_reducible assumption | with_reducible apply powerDiePowerOn_kept | intro m h)⟩
theorem execPreampTemperatureRead_kept (a : Actuator) (temp : Int) (s : State) (pmotion : P .motion) (rQDR_ACT : ∀ i, i < 4 → R (REG_QDR_ACT i)) :
    ∃ t, execPreampTemperatureRead a temp s = .next { s with m := t } ∧ Kept P R s.m t :=
  ⟨_, rfl, by repeat' (first | with_reducible exact Kept.refl _ | with_reducible assumption | with_reducible apply preampTemperatureRead_kept | intro m h)⟩
theorem execTemperatureThresholdCrossed_kept (sensor : Fin 3) (kelvin : BitVec 16) (s : State) (phost : P .host) (pcmd : P .cmd) (rQSQ_CMDTAB : R REG_QSQ_CMDTAB) :
    ∃ t, execTemperatureThresholdCrossed sensor kelvin s = .next { s with m := t } ∧ Kept P R s.m t :=
  ⟨_, rfl, by repeat' (first | with_reducible exact Kept.refl _ | with_reducible assumption | with_reducible apply temperatureThresholdCrossed_kept | intro m h)⟩
end Sys2Proof.Machine
end

