-- ==== Sys2Proof/WellFormed.lean ====
section
/-! DEFINITION. Well-formed commands: operands that the operand types admit and the hardware does not. No meaning depends
on these checks; a sender that passes them presents what the hardware can present. -/
namespace Sys2Proof

open Machine

/-- A line write carries the 64 bytes of its line (R216). -/
def lineAccessOk (a : LineAccess) : Bool := a.write.all fun w => w.data.length == 64

/-- Both readers of a sector deliver the samples of a slot (R61). -/
def samplesOk (s : Samples) : Bool := s.x.length == 37888 && s.y.length == 37888

/-- A register write moves 1, 2 or 4 bytes (R422). -/
def lengthOk (n : Fin 5) : Bool := n == 1 || n == 2 || n == 4

/-- The domains of Table 16-1, with 62 for the crystal and 63 for the PLL (Table 16-2). -/
def clockOk (d : Fin 64) : Bool := decide (d.val < 38) || decide (62 ≤ d.val)

/-- The operands of a command lie in the ranges that the hardware gives them. -/
def Instr.wf : Instr → Bool
  | .check _ _ dsm => decide (dsm.length ≤ 256)
  | .fetchComplete _ data => data.all fun es => decide (1 ≤ es.length) && decide (es.length ≤ 8)
  | .readAheadIssue _ _ count => count != 0
  | .adaptWindowEnd _ w errors =>
    w.x.length == errors.length && w.y.length == errors.length && decide (errors.length ≤ 32768)
  | .sectorCapture _ samples => samplesOk samples
  | .captureTaken _ samples => samplesOk samples
  | .syncSearchEnd _ bits _ => bits.length == 159
  | .rebuildDone _ group => decide (group.length ≤ 132) && group.all fun r => r.all fun x => samplesOk x.samples
  | .wsafeFall _ bits => decide (bits ≤ 37504)
  | .replay scan => scan.all fun g => decide (g.units.length ≤ 128)
  | .bufferLineAccess a _ => lineAccessOk a
  | .cacheAccess a _ _ => lineAccessOk a
  | .hostReadCompletion _ data => data.all fun bs => decide (1 ≤ bs.length) && decide (bs.length ≤ 4096)
  | .linkUp _ speed width => speed != 0 && (width == 1 || width == 2 || width == 4)
  | .clockFailure d _ => clockOk d
  | .blockResetRelease b => b != 31
  | .registerWrite _ _ len _ => lengthOk len
  | .bar2Write _ len _ => lengthOk len
  | _ => true

end Sys2Proof
end

