-- ==== Sys2Proof/Tests/Slice0.lean ====
section
/-! SUPPORT. Tests: for each statement with hypotheses, states and operands that meet the hypotheses of each of its clauses
(test_hyps_<the statement>); ill-formed commands that Instr.wf refuses; and small tests of one step, whose expected results
come from the spec. -/

set_option Elab.async false

namespace Sys2Proof.Machine

/-- A running block: every clock good, mode M3, the cores released, the Caller in its first figure. -/
def up : Mach :=
  let m := ((Mach.atReset.set CLK_GOOD0_GOOD 0xFFFFFFFF).set CLK_GOOD1_GOOD 0xFF).set PWR_MODE_MODE 3
  { m with rst := { m.rst with entering := false, fromP0 := false, coresUp := true },
           cal := { m.cal with running := true } }

/-- A word with its check bits (R356): CHECK[6:0] is the syndrome of the data, CHECK[7] makes the parity even. -/
def sealWord (d : Nat) : BitVec 128 :=
  let w := BitVec.ofNat 128 d
  let w := w ||| (BitVec.ofNat 128 (checkSyndrome w) <<< 120)
  if oddParity w then w ||| (1 <<< 127) else w

/-- A word with an ALU operation on GP1 and GP2 into GP3, and a primitive on GP1; it goes on to word 0. -/
def wd (alu xop : Nat) : BitVec 128 :=
  sealWord (2 ^ 42 + alu * 2 ^ 47 + 3 * 2 ^ 51 + 2 ^ 56 + 2 * 2 ^ 61 + xop * 2 ^ 83 + 2 ^ 91)

/-- The sequencer runs and its next word is `w`. -/
def Mach.holdsWord (m : Mach) (q : SeqId) (w : BitVec 128) : Mach :=
  (m.setEngine fun e => { e with stores := updAt e.stores q fun b => updAt b 0 fun _ => [(0, w)] }).set
    (SEQ_CTRL_RUN q.val) 1

/-- A sector descriptor with an operation and a pool 0 handle. -/
def sdesc (op h : Nat) : SectorDesc := BitVec.ofNat 256 (op * 2 ^ 168 + h * 2 ^ 192)

/-- A descriptor with the formatter, and one that has ended. -/
def item (op : Nat) : FmtItem := ⟨5, sdesc op 0, 0, none, none⟩
def itemDone (op : Nat) : FmtItem := ⟨5, sdesc op 0, 0, some (0, 0), none⟩

/-- Stream 0 holds a descriptor, on its loaded track. -/
def Mach.withItem (m : Mach) (i : FmtItem) : Mach :=
  m.setFmt 0 fun f => { f with items := [i], track := some (0, 0) }

/-- A ladder job of stream 0 at a step. -/
def job (step : Nat) : LadJob :=
  { id := 1, ring := 5, desc := sdesc 0 0, ssel := 0, nosamp := false, parity := false, limit := 16, step := step, slot := some 0,
    attempts := [], counted := 0, lastResult := 0, offsets := [], ran89 := false, armed := false, capSlot := none, armWait := false,
    heaterOk := true, offset := 0, heater := 0, added := [], rebuilding := false, ending := none, recorded := false,
    withdraw := false }

def Mach.withJob (m : Mach) (j : LadJob) : Mach := m.setLad 0 fun l => { l with jobs := [j] }

/-- A sample slot of stream 0 in a state. -/
def Mach.withSlot (m : Mach) (i : SampleIdx) (st : SlotState) (framed : Bool) : Mach :=
  m.setSlot 0 i fun s => { s with state := st, framed := framed, desc := sdesc 0 0, samples := ⟨[], []⟩ }

/-- The buffer of handle 0 is handed out. -/
def Mach.withBuffer (m : Mach) : Mach := m.setPool 0 fun p => { p with used := [0] }

/-- A sector held by a decoder engine. -/
def hold : EngineHold := ⟨0, some 0, sdesc 0 0, .otf, true, none, 0, ⟨false, 0, 0, []⟩, none⟩
def Mach.held (m : Mach) (e : Engine) (h : EngineHold) : Mach :=
  m.setDec fun d => { d with engines := updAt d.engines e fun _ => some h }

/-- A ladder request without a slot. -/
def ladReq : LadderReq := ⟨⟨0, 5, 0, 1, 1, 1⟩, 0, none, sdesc 0 0, .ext, 0, 0, 0, false, 0, []⟩
def writeBack : WriteBack := ⟨0, some 0, sdesc 0 0, [], true, none⟩
def codeword : Codeword := ⟨0, 5, []⟩
def encoding : Encoding := ⟨codeword, none, 0, none⟩
def moment : GateMoment := ⟨0, 5, 0, 0, 0⟩

/-- A planned profile. -/
def profile : Profile := ⟨0, 0, 0, 1, 0, 0, 0, 0, 0, 0⟩

/-- A command entry: number 7 of admin queue (`sqid` 0) or I/O queue of controller 0, with the words of its entry. -/
def cmdOf (sqid : Nat) (sqe : Nat) (st : CmdStage) : Cmd :=
  { fsn := 7, ctrl := 0, sqid := sqid, sqe := BitVec.ofNat 512 sqe, stage := st, reserve := false, kind := none,
    ranges := [], inBuffer := true, durable := true, verdict := none, slba := 0, result := none, discard := false,
    units := [], core := 0, target := none, begun := false, superseded := [], loc := 0xFFFF, badLba := 0, blank := [], shadow := [] }

/-- A submission entry: opcode, NSID and double words 10 to 13. -/
def sqe (op nsid d10 d11 d12 d13 : Nat) : Nat :=
  op + nsid * 2 ^ 32 + d10 * 2 ^ 320 + d11 * 2 ^ 352 + d12 * 2 ^ 384 + d13 * 2 ^ 416

def Mach.withCmd (m : Mach) (c : Cmd) : Mach := m.setCmdState fun s => { s with table := [c] }

/-- A namespace attached to both controllers. -/
def ns (zoned : Bool) : Namespace :=
  ⟨1, zoned, 0x100000, 0, 0, 1, 4, #v[true, true], [], []⟩
def Mach.withNs (m : Mach) (n : Namespace) : Mach := m.setCmdState fun s => { s with nss := [n] }

def subQueue : SubQueue := ⟨0, 8, 0, 0, 1, 0, 0, 0, none, 0, false⟩
def compQueue : CompQueue := ⟨0, 8, 0, 0, true, 0, 0, true⟩
def Mach.withQueues (m : Mach) (q : SubQueue) (c : CompQueue) : Mach :=
  m.setCtrl 0 fun x => { x with cc := 0x460001, rdy := true, sqs := [q], cqs := [c] }

/-- A dirty unit of namespace 1. -/
def dirtyUnit : DirtyUnit := ⟨1, 0, none, 0, 0, false, true⟩

/-- A DMA descriptor in the hands of channel 0. -/
def dmaHold : DmaHold := ⟨0, 0, 0, 0, [], none, none, 0, .unit, [], none, 0, none⟩
def Mach.withHold (m : Mach) (h : DmaHold) : Mach :=
  m.setDma fun d => { d with chans := updAt d.chans 0 fun _ => some h }

/-- The dispatch entry of an opcode is valid and needs the medium. -/
def Mach.valid (m : Mach) (table op : Nat) : Mach :=
  m.setEngine fun e => { e with tables := Vector.replicate 2 [(table * 256 + op, 9)] }

/-- A command of queue `sqid` runs; is the next to be checked. -/
def Mach.runs (m : Mach) (sqid entry : Nat) : Mach := m.withCmd (cmdOf sqid entry .dispatched)
def Mach.checks (m : Mach) (sqid entry : Nat) : Mach :=
  (m.withCmd (cmdOf sqid entry .fetched)).valid (if sqid = 0 then 0 else 1) (entry % 256)

/-- Change of the commands in the table. -/
def Mach.cmds (m : Mach) (f : Cmd → Cmd) : Mach := m.setCmdState fun s => { s with table := s.table.map f }

/-- A further command before the others. -/
def Mach.earlier (m : Mach) (c : Cmd) : Mach := m.setCmdState fun s => { s with table := { c with fsn := 6 } :: s.table }

/-- A bundle that passes R332, of a class. -/
def bundle (cls : Nat) : Bundle :=
  { formOk := true, cls := cls, svnCfg := 64, svnPatch := 64, romX := 0, romY := 0, patchLvl := 0, sections := [2], live := false,
    sigSceka := true, sigOem := true, keyOk := true, patchSig := true, gcmOk := true, options := none, regs := [], code := [],
    tables := [], idleCLevel := 0, activeLevel := 0, saveRate := 0 }

/-- Ways to change parts of the machine. -/
def Mach.rstf (m : Mach) (f : RstState → RstState) : Mach := { m with rst := f m.rst }
def Mach.atMode (m : Mach) (v : Nat) : Mach := m.set PWR_MODE_MODE v
def Mach.parkAll (m : Mach) : Mach := (allFin 4).foldl (fun m a => m.setParked a true) m
def specCopy : SpecCopy := ⟨1, 1, 0, 0, [.decoded 0], 0⟩
def demand : Demand := ⟨0, 0, 0, 1, 0⟩
def saveWriter (u : Option DirtyUnit) : SaveWriter := ⟨true, u, 0, 0, []⟩
def ownUnit : DirtyUnit := { dirtyUnit with handle := Mach.ownHandle }
def fop (offered : Bool) : Fop := ⟨true, 0, 0, 0, offered⟩

/-- What holds of the value of an option that holds one holds of whatever it is equal to. -/
theorem all_some {α : Type} {o : Option α} {p : α → Prop} [DecidablePred p] (h : (o.all fun x => decide (p x)) = true) :
    ∀ x, o = some x → p x := by
  intro x hx
  subst hx
  simpa using h

theorem all_fin {n : Nat} {α : Type} {o : Fin n → Option α} {p : Fin n → α → Prop} [∀ c, DecidablePred (p c)]
    (h : (∀ c, ((o c).all fun x => decide (p c x)) = true)) : ∀ c x, o c = some x → p c x :=
  fun c => all_some (h c)

theorem all_fin_lt {n : Nat} {k : Fin n} {α : Type} {o : Fin n → Option α} {p : Fin n → α → Prop} [∀ c, DecidablePred (p c)]
    (h : (∀ c, c < k → ((o c).all fun x => decide (p c x)) = true)) : ∀ c x, c < k → o c = some x → p c x :=
  fun c x hc => all_some (h c hc) x

theorem atWord_of {m : Mach} {q : SeqId} {inp : Bool} {u : Micro} {next : Nat} (w : BitVec 128)
    (h : m.executing q = true ∧ m.eng.seqs[q].held = false ∧ (fetchWord (m.storedWord q) = .good w ∧ microOf w = u) ∧
      u.wait = false ∧ u.fop = 0 ∧ u.loop = 0 ∧ next < storeSize q ∧
      next = (if (m.seqCondition q u.cond inp != u.cinv) = true then u.btgt else u.next) ∧
      u.illegal (seqKind q) (m.gp q u.areg) (u.operandB (m.gp q u.srcb)) m.eng.seqs[q].fop.isSome = 0) : AtWord m q inp u next :=
  ⟨h.1, h.2.1, ⟨w, h.2.2.1⟩, h.2.2.2⟩

theorem pair_eq {α β : Type} {b : Bool} {x : (α × Bool) × β} (h : x.1.2 = b) : x = ((x.1.1, b), x.2) := by
  subst h; rfl

/-- A unit in whose block a line fails its check does not pass (R325). -/
theorem unitPasses_false {m : Mach} {u : DirtyUnit} (hh : u.handle < Mach.ownHandle) (h : (m.loadBlock u.handle).1.2 = true) :
    (m.unitPasses u).1 = false := by
  unfold Mach.unitPasses
  rw [if_neg (Nat.not_le.mpr hh)]
  revert h
  generalize m.loadBlock u.handle = x
  obtain ⟨⟨block, fail⟩, m'⟩ := x
  rintro rfl
  rfl

theorem lt_of_eq_zero {a b : Nat} (h : a = 0) (hb : 0 < b) : a < b := h ▸ hb

/-- Nothing is locked for writes where no locking object is. -/
theorem locked_false {m : Mach} {r : LbaRange} (h : ∀ i : LockId, (m.sec.objects[i]).writeLocked = false) :
    m.locked true r = false := by
  unfold Mach.locked
  refine List.any_eq_false.mpr fun l _ => ?_
  have := h (m.lockOf r.nsid l)
  simp_all

/-- With every head depopulated no table is tested. -/
theorem headsGone_depop {m : Mach} {a : Actuator} {bad : BitVec 24}
    (h : (List.range 6).all (fun h => m.bitAt (QDR_ACT_HEAD_DEPOP a.val) h) = true) :
    (m.testTables a bad).headsGone a = true := by
  have key : m.testTables a bad = m := by
    have t : ∀ h' < 6, ∀ t, m.testTable a bad h' t = m := by
      intro h' hh t
      have := List.all_eq_true.mp h h' (List.mem_range.mpr hh)
      simp [Mach.testTable, this]
    simp only [Mach.testTables]
    simp [List.range, List.range.loop, t]
  rw [key]
  simp only [Mach.headsGone, List.all_eq_true] at h ⊢
  intro x hx
  simp [h x hx]

/-- Measurements that find nothing depopulate no head. -/
theorem headsGone_kept {m : Mach} {a : Actuator} (h : m.bitAt (QDR_ACT_HEAD_DEPOP a.val) 0 = false) :
    (m.testTables a 0).headsGone a = false := by
  have t : ∀ (m : Mach) h' t, (m.testTable a 0 h' t).regs = m.regs := by
    intro m h' t
    simp only [Mach.testTable]
    split
    · rfl
    · simp
  have f : ∀ (l : List Nat) (m : Mach) h', (l.foldl (fun m t => m.testTable a 0 h' t) m).regs = m.regs := by
    intro l
    induction l with
    | nil => intros; rfl
    | cons x l ih => intro m h'; rw [List.foldl_cons, ih, t]
  have g : ∀ (l : List Nat) (m : Mach), (l.foldl (fun m h' => (List.range 4).foldl (fun m t => m.testTable a 0 h' t) m) m).regs = m.regs := by
    intro l
    induction l with
    | nil => intros; rfl
    | cons x l ih => intro m; simp only [List.foldl_cons]; rw [ih, f]
  have r : (m.testTables a 0).regs = m.regs := g _ _
  have b : (m.testTables a 0).bitAt (QDR_ACT_HEAD_DEPOP a.val) 0 = false := by
    have : ∀ m' : Mach, m'.regs = m.regs → m'.bitAt (QDR_ACT_HEAD_DEPOP a.val) 0 = m.bitAt (QDR_ACT_HEAD_DEPOP a.val) 0 := by
      intro m' e; simp [Mach.bitAt, Mach.get, Mach.word, e]
    rw [this _ r, h]
  simp only [Mach.headsGone, List.all_eq_false]
  exact ⟨0, by simp, by rw [b]; simp [headExists]⟩

theorem ofBytesLE_toBytesLE (n v : Nat) (h : v < 256 ^ n) : ofBytesLE (toBytesLE n v) = v := by
  induction n generalizing v with
  | zero => simp at h; simp [toBytesLE, ofBytesLE, h]
  | succ n ih =>
    rw [toBytesLE, ofBytesLE, ih _ (by rw [Nat.pow_succ] at h; omega)]
    simp
    omega

theorem toBytesLE_length (n v : Nat) : (toBytesLE n v).length = n := by
  induction n generalizing v with
  | zero => rfl
  | succ n ih => simp [toBytesLE, ih]

theorem sectorCrc_congr {tag : Nat} {x y : List Byte}
    (h : x.take 4112 ++ (x.drop 4116).take 44 = y.take 4112 ++ (y.drop 4116).take 44) : sectorCrc tag x = sectorCrc tag y := by
  unfold sectorCrc
  rw [h]

/-- The block that decrypts to plaintext with its CRC, under key 0 and tag 0. -/
def goodData : List Byte := List.replicate 4112 0
def goodCrc : Nat := sectorCrc 0 (xtsDecrypt 0 0 goodData ++ List.replicate 48 0)
def goodInfo : List Byte := goodData ++ (toBytesLE 4 goodCrc ++ List.replicate 44 0)

theorem xtsDecrypt_goodData_length : (xtsDecrypt 0 0 goodData).length = 4112 := by decide +kernel

theorem checkBlock_goodInfo : (checkBlock 0 0 true goodInfo).1 = 0 := by
  have hl : goodData.length = 4112 := List.length_replicate ..
  have h4 : (toBytesLE 4 goodCrc).length = 4 := toBytesLE_length 4 _
  have hd : goodInfo.drop 4112 = toBytesLE 4 goodCrc ++ List.replicate 44 0 := by
    rw [goodInfo, List.drop_append_of_le_length (by omega), List.drop_of_length_le (by omega), List.nil_append]
  have ht : goodInfo.take 4112 = goodData := by
    rw [goodInfo, List.take_append_of_le_length (by omega), List.take_of_length_le (by omega)]
  have hd6 : goodInfo.drop 4116 = List.replicate 44 0 := by
    rw [show 4116 = 4112 + 4 from rfl, ← List.drop_drop, hd, List.drop_append_of_le_length (by omega),
      List.drop_of_length_le (by omega), List.nil_append]
  have htag : blockTag goodInfo = 0 := by rw [blockTag, hd6]; decide +kernel
  have hp : decryptBlock 0 0 goodInfo = xtsDecrypt 0 0 goodData ++ (toBytesLE 4 goodCrc ++ List.replicate 44 0) := by
    rw [decryptBlock, ht, hd]
  have hx := xtsDecrypt_goodData_length
  have hc : goodCrc < 256 ^ 4 := by unfold goodCrc sectorCrc; exact BitVec.isLt _
  unfold checkBlock
  rw [htag, hp]
  generalize hX : xtsDecrypt 0 0 goodData = X at hx ⊢
  have e : sectorCrc (0 : BitVec 64).toNat (X ++ (toBytesLE 4 goodCrc ++ List.replicate 44 0)) = goodCrc := by
    have g : goodCrc = sectorCrc 0 (X ++ List.replicate 48 0) := by unfold goodCrc; rw [hX]
    refine Eq.trans ?_ g.symm
    clear g
    have a1 : ∀ Y : List Byte, (X ++ Y).take 4112 = X := fun Y => by
      rw [List.take_append_of_le_length (by omega), List.take_of_length_le (by omega)]
    have a2 : ∀ Y : List Byte, (X ++ Y).drop 4116 = Y.drop 4 := fun Y => by
      rw [show 4116 = X.length + 4 from by omega, List.drop_length_add_append]
    refine sectorCrc_congr ?_
    rw [a1, a1, a2, a2, List.drop_append_of_le_length (by omega), List.drop_of_length_le (by omega), List.nil_append,
      List.drop_replicate]
  have f : ofBytesLE (((X ++ (toBytesLE 4 goodCrc ++ List.replicate 44 0)).drop 4112).take 4) = goodCrc := by
    rw [List.drop_append_of_le_length (by omega), List.drop_of_length_le (by omega), List.nil_append,
      List.take_append_of_le_length (by omega), List.take_of_length_le (by omega), ofBytesLE_toBytesLE _ _ hc]
  simp only [e, f, ne_eq, not_true_eq_false, if_false, if_true]
def goodHold : EngineHold := { hold with found := true, run := ⟨true, 0, 0, goodInfo⟩ }
theorem decodeResult_goodHold : ((up.held 0 goodHold).decodeResult goodHold).1 ≤ 1 := by
  have e : (up.held 0 goodHold).decodeResult goodHold = checkBlock 0 0 true goodInfo := by
    have k : (up.held 0 goodHold).sec.slots[(Fin.ofNat 32 goodHold.desc.key)] = 0 := by decide +kernel
    have t : goodHold.desc.tag = 0 := by decide +kernel
    unfold Mach.decodeResult
    rw [k, t]
    rfl
  rw [e, checkBlock_goodInfo]
  decide
/-- A line is read as it stands, and nothing changes, with an empty cache and no bad line. -/
theorem fabRead_plain {m : Mach} {line : Nat} (hm : m.buf.cache.misses = []) (hq : ∀ b : Fin 16, m.buf.cache.queues[b] = [])
    (hl : m.buf.cache.lines = []) (hi : m.get BUF_STAT_INIT ≠ 1) (hv : m.is BUF_CTRL_INIT_MODE = false)
    (hb : m.buf.mem.bad = []) (hr : 64 * line < bufEnd) : m.fabRead line = ((m.buf.mem.line line, false), m) := by
  have hs : m.settleLine line = m := by simp [Mach.settleLine, hm, hq]
  have hf : m.buf.cache.find line = none := by simp [SysCache.find, hl]
  have hg : m.buf.mem.good line = true := by simp [BufMem.good, BufMem.checkWord, hb]
  simp [Mach.fabRead, hs, hf, Mach.bufRead, Nat.not_le.mpr hr, hi, Mach.pageInvalid, hv, hg]

theorem readLines_plain {m : Mach} {line n : Nat} (h : ∀ i < n, m.fabRead (line + i) = ((m.buf.mem.line (line + i), false), m)) :
    m.readLines line n = (((List.range n).flatMap fun i => m.buf.mem.line (line + i), none), m) := by
  unfold Mach.readLines
  induction n with
  | zero => rfl
  | succ n ih =>
    rw [List.range_succ, List.foldl_append, ih fun i hi => h i (by omega)]
    simp [h n (by omega)]

def piHold : DmaHold := { dmaHold with desc := 2 + 2 ^ 5 + 4096 * 2 ^ 32 }
def piMach (x : Byte) : Mach :=
  ((((up.withHold piHold).set (POOL_CFG_EN 0) 1).set (POOL_CFG_COUNT 0) 4).set (POOL_TAILBASE_ADDR 0) 0x10000).setBuf fun b =>
    { b with mem := b.mem.putBytes 0x40010 [x] }
def piBlock (x : Byte) : List Byte := List.replicate 4096 0 ++ (List.replicate 16 0 ++ x :: List.replicate 47 0)

theorem piMach_fab {x : Byte} (hx : x = 0 ∨ x = 1) {l : Nat} (hr : 64 * l < bufEnd) :
    (piMach x).fabRead l = (((piMach x).buf.mem.line l, false), piMach x) := by
  rcases hx with rfl | rfl <;>
  exact fabRead_plain (by decide +kernel) (by decide +kernel) (by decide +kernel) (by decide +kernel) (by decide +kernel) (by decide +kernel) hr
set_option maxRecDepth 20000 in
theorem piMach_read {x : Byte} (hx : x = 0 ∨ x = 1) : (piMach x).readSector 0 0 = ((piBlock x, none), piMach x) := by
  have e1 : (piMach x).readLines ((piMach x).pageAddr 0 0 / 64) 64 = ((List.replicate 4096 0, none), piMach x) := by
    have a : (piMach x).pageAddr 0 0 / 64 = 0 := by rcases hx with rfl | rfl <;> decide +kernel
    have b : ((List.range 64).flatMap fun i => (piMach x).buf.mem.line (0 + i)) = List.replicate 4096 0 := by
      rcases hx with rfl | rfl <;> decide +kernel
    rw [a, readLines_plain fun i hi => piMach_fab hx (by simp [bufEnd]; omega), b]
  have e2 : (piMach x).readLines ((piMach x).tailAddr 0 0 / 64) 1 = ((List.replicate 16 0 ++ x :: List.replicate 47 0, none), piMach x) := by
    have a : (piMach x).tailAddr 0 0 / 64 = 0x1000 := by rcases hx with rfl | rfl <;> decide +kernel
    have b : ((List.range 1).flatMap fun i => (piMach x).buf.mem.line (0x1000 + i)) = List.replicate 16 0 ++ x :: List.replicate 47 0 := by
      rcases hx with rfl | rfl <;> decide +kernel
    rw [a, readLines_plain fun i hi => piMach_fab hx (by simp [bufEnd]; omega), b]
  unfold Mach.readSector
  rw [e1]
  dsimp only
  rw [e2]
  rfl

theorem crc_differs : ∃ x : Byte, (x = 0 ∨ x = 1) ∧
    ofBytesLE (List.take 4 (List.drop 4112 (piBlock x))) ≠ sectorCrc (ofBytesLE (List.take 8 (List.drop 4116 (piBlock x)))) (piBlock x) := by
  have hl : (List.replicate 4096 (0 : Byte)).length = 4096 := List.length_replicate ..
  have hd : ∀ (x : Byte) (k : Nat), (piBlock x).drop (4096 + k) = (List.replicate 16 0 ++ x :: List.replicate 47 0).drop k := fun x k => by
    have := List.drop_length_add_append (l₁ := List.replicate 4096 (0 : Byte)) (l₂ := List.replicate 16 0 ++ x :: List.replicate 47 0) (i := k)
    rwa [hl] at this
  have ht : ∀ x : Byte, (piBlock x).take (4096 + 16) = List.replicate 4096 0 ++ List.replicate 16 0 := fun x => by
    have := List.take_length_add_append (l₁ := List.replicate 4096 (0 : Byte)) (l₂ := List.replicate 16 0 ++ x :: List.replicate 47 0) (i := 16)
    rw [hl] at this
    rw [piBlock, this]
    rfl
  have hc : ∀ t, sectorCrc t (piBlock 1) = sectorCrc t (piBlock 0) := fun t => sectorCrc_congr (by
    rw [ht, ht, hd 0 20, hd 1 20]
    rfl)
  have tag : ∀ x : Byte, ofBytesLE (List.take 8 (List.drop 4116 (piBlock x))) = 0 := fun x => by
    rw [hd x 20]
    rfl
  have v : ∀ x : Byte, ofBytesLE (List.take 4 (List.drop 4112 (piBlock x))) = x.toNat := fun x => by
    rw [hd x 16]
    simp [ofBytesLE]
  by_cases h : sectorCrc 0 (piBlock 0) = 0
  · exact ⟨1, .inr rfl, by rw [v, tag, hc, h]; decide⟩
  · exact ⟨0, .inl rfl, by rw [v, tag]; exact Ne.symm h⟩
theorem exists_bad_crc : ∃ (s : State) (n : DmaCh) (h : DmaHold) (k : Nat) (p : PoolId) (i : Nat) (block : List Byte), Running 11 37 s.m ∧ s.m.dma.chans[n] = some h ∧ (∀ (c : DmaCh), c ≠ n → s.m.dma.chans[c] = none) ∧ h.step = DmaStep.unit ∧ h.cause = 0 ∧ h.fin = none ∧ s.m.chQuiet n = true ∧ h.desc.dir = 1 ∧ h.desc.bhdl = true ∧ h.last = none ∧ k = h.moved / h.desc.sectorSize ∧ s.m.sectorBuffer h.desc k = ((some (p, i), none), s.m) ∧ s.m.readSector p i = ((block, none), s.m) ∧ ofBytesLE (List.take 4 (List.drop 4112 block)) ≠ sectorCrc (ofBytesLE (List.take 8 (List.drop 4116 block))) block := by
  obtain ⟨x, hx, hc⟩ := crc_differs
  refine ⟨⟨[], piMach x⟩, 0, piHold, 0, 0, 0, piBlock x, ?_, ?_, ?_, rfl, rfl, rfl, ?_, ?_, ?_, rfl, ?_, ?_, piMach_read hx, hc⟩ <;>
    rcases hx with rfl | rfl <;> first | decide +kernel | (delta Running; decide +kernel)

/-- A burst with six sign changes, and a servo field of track 0 at wedge 0. -/
def burst (first : Nat) : BurstRegion := ⟨first, [100, 30, 100, 30, 100, 30, 100]⟩
def wedgeField : ReaderField :=
  ⟨List.replicate 8 false ++ samMark ++ (List.range 64).map (fun i => i % 2 == 1), burst 0, burst 1, burst 1, burst 2⟩

/-! ### What meets the hypotheses of the statements -/


theorem test_hyps_WhatResetsReach :
    (∃ (s : State), s.m.mode ≠ 9) ∧
    (∃ (s : State), Sound s.m 0 ∧ Sound s.m 1) :=
  ⟨⟨⟨[], up⟩, by decide +kernel⟩,
   ⟨⟨[], up⟩, by delta Sound; decide +kernel⟩⟩

def callerAndFabric0 : Mach := (up.setCal fun c => { c with held := [⟨0, ⟨0, 0, 0⟩⟩] })
def callerAndFabric3 : Mach := (up.setEngine fun e => { e with seqs := updAt e.seqs 0 fun q => { q with fop := some (fop false) } })
def callerAndFabric5 : Mach := (up.setCal fun c => { c with queues := updAt c.queues 0 fun _ => List.replicate 16 ⟨0, 0, 0⟩ })
def callerAndFabric6 : Mach := (up.setCal fun c => { c with demands := [demand] })
def callerAndFabric8 : Mach := (up.setCal fun c => { c with queues := updAt c.queues 0 fun _ => [⟨0, 0, 0⟩], guar := Vector.replicate 16 5, room := Vector.replicate 16 5, pool := 5 })
theorem test_hyps_CallerAndFabric :
    (∃ (s : State) (port : Port), Running 8 64 s.m ∧
      ((s.m.cal.held.any fun h => h.req.port == port) = true ∨ s.m.cal.portFrozen port = true)) ∧
    (∃ (s : State) (port : Port), Running 8 64 s.m ∧ (s.m.cal.held.any fun h => h.req.port == port) = false ∧
      s.m.cal.portFrozen port = false ∧ List.find? (fun d => d.port == port) s.m.cal.demands = none ∧ 12 ≤ port.val ∧
      port.val ≤ 24) ∧
    (∃ (s : State) (port : Port) (p : Fin 4), Running 8 64 s.m ∧ (s.m.cal.held.any fun h => h.req.port == port) = false ∧
      s.m.cal.portFrozen port = false ∧ List.find? (fun d => d.port == port) s.m.cal.demands = none ∧ port.val = 25 + p.val ∧
      s.m.nextOffer p = none) ∧
    (∃ (s : State) (port : Port) (p : Fin 4) (q : SeqId) (f : Fop) (cls : FabClass), Running 8 64 s.m ∧
      (s.m.cal.held.any fun h => h.req.port == port) = false ∧ s.m.cal.portFrozen port = false ∧
      List.find? (fun d => d.port == port) s.m.cal.demands = none ∧ port.val = 25 + p.val ∧ s.m.nextOffer p = some q ∧
      s.m.eng.seqs[q].fop = some f ∧ cls = s.m.chargedClass port f.cls ∧ s.m.cal.queues[cls].length < 16) ∧
    (∃ (s : State) (port : Port) (tag : FabClass) (cls : FabClass), Running 8 64 s.m ∧
      (s.m.cal.held.any fun h => h.req.port == port) = false ∧ s.m.cal.portFrozen port = false ∧
      List.find? (fun d => d.port == port) s.m.cal.demands = none ∧ (port.val < 12 ∨ 28 < port.val) ∧
      cls = s.m.chargedClass port (s.m.portTag port tag) ∧ s.m.cal.queues[cls].length < 16) ∧
    (∃ (s : State) (port : Port) (tag : FabClass) (cls : FabClass), Running 8 64 s.m ∧
      (s.m.cal.held.any fun h => h.req.port == port) = false ∧ s.m.cal.portFrozen port = false ∧
      List.find? (fun d => d.port == port) s.m.cal.demands = none ∧ (port.val < 12 ∨ 28 < port.val) ∧
      cls = s.m.chargedClass port (s.m.portTag port tag) ∧ 16 ≤ s.m.cal.queues[cls].length) ∧
    (∃ (s : State) (port : Port) (d : Demand) (cls : FabClass), Running 8 64 s.m ∧
      (s.m.cal.held.any fun h => h.req.port == port) = false ∧ s.m.cal.portFrozen port = false ∧ port ≠ Mach.dmaPort ∧
      List.find? (fun d9 => d9.port == port) s.m.cal.demands = some d ∧ port.val < 25 ∧ cls = s.m.portTag port d.cls ∧
      s.m.cal.queues[cls].length < 16) ∧
    (∃ (s : State), Running 8 64 s.m ∧ (s.m.cal.running = false ∨ s.m.is CAL_CTRL_FREEZE = true ∨ s.m.cal.choose = none)) ∧
    (∃ (s : State) (c : FabClass) (g : Fin 3) (r : BurstReq) (rest : List BurstReq), Running 8 64 s.m ∧
      s.m.cal.running = true ∧ s.m.is CAL_CTRL_FREEZE = false ∧ s.m.cal.choose = some (c, g) ∧
      s.m.cal.queues[c] = r :: rest) :=
  ⟨⟨⟨[], callerAndFabric0⟩, 0, by delta Running; decide +kernel⟩,
   ⟨⟨[], up⟩, 12, by delta Running; decide +kernel⟩,
   ⟨⟨[], up⟩, 25, 0, by delta Running; decide +kernel⟩,
   ⟨⟨[], callerAndFabric3⟩, 25, 0, ((callerAndFabric3.nextOffer 0).getD 0), (fop false),
     (callerAndFabric3.chargedClass 25 0), by delta Running; decide +kernel⟩,
   ⟨⟨[], up⟩, 0, 0, 0, by delta Running; decide +kernel⟩,
   ⟨⟨[], callerAndFabric5⟩, 0, 0, 0, by delta Running; decide +kernel⟩,
   ⟨⟨[], callerAndFabric6⟩, 0, ((List.find? (fun d9 => d9.port == 0) callerAndFabric6.cal.demands).getD demand),
     (callerAndFabric6.portTag 0 ((List.find? (fun d9 => d9.port == 0) callerAndFabric6.cal.demands).getD demand).cls : FabClass),
     by delta Running; decide +kernel⟩,
   ⟨⟨[], up⟩, by delta Running; decide +kernel⟩,
   ⟨⟨[], callerAndFabric8⟩, (callerAndFabric8.cal.choose.getD (0, 0)).1, (callerAndFabric8.cal.choose.getD (0, 0)).2,
     ((callerAndFabric8.cal.queues[((callerAndFabric8.cal.choose.getD (0, 0)).1)]).headD (⟨0, 0, 0⟩)),
     (callerAndFabric8.cal.queues[((callerAndFabric8.cal.choose.getD (0, 0)).1)]).tail, by delta Running; decide +kernel⟩⟩

def readFrontEnd1 : Mach := ((up.set AFE_EN_LANE_EN 1).set (AFE_LANE_CFG_AGC_EN 0) 0)
def readFrontEnd2 : Mach := (up.set AFE_EN_LANE_EN 1)
def readFrontEnd3 : Mach := (up.set (AFE_LANE_STAT_READY 0) 1)
def readFrontEnd5 : Mach := (up.set (AFE_LANE_STAT_TA 0) 1)
def readFrontEnd6 : Mach := ((up.setChan 0 fun c => { c with spans := List.replicate 4 ⟨0, 1⟩ }).set (AFE_LANE_STAT_TA 0) 1)
def readFrontEnd8 : Mach := ((up.set (CHN_CTRL_EN 0) 1).set (CHN_CTRL_ADAPT 0) 1)
theorem test_hyps_ReadFrontEnd :
    (∃ (s : State) (l : Lane), Running (30 + l.val / 2) 64 s.m ∧
      (s.m.bitAt AFE_EN_LANE_EN l.val = false ∨ s.m.get PWR_MODE_MODE = 4)) ∧
    (∃ (s : State) (l : Lane), Running (30 + l.val / 2) 64 s.m ∧ s.m.bitAt AFE_EN_LANE_EN l.val = true ∧
      s.m.get PWR_MODE_MODE ≠ 4 ∧ s.m.is (AFE_LANE_CFG_AGC_EN l.val) = false) ∧
    (∃ (s : State) (l : Lane), Running (30 + l.val / 2) 64 s.m ∧ s.m.bitAt AFE_EN_LANE_EN l.val = true ∧
      s.m.get PWR_MODE_MODE ≠ 4 ∧ s.m.is (AFE_LANE_CFG_AGC_EN l.val) = true) ∧
    (∃ (s : State) (l : Lane), Running (30 + l.val / 2) 64 s.m ∧ s.m.is (AFE_LANE_STAT_READY l.val) = true ∧
      s.m.is (AFE_LANE_STAT_TA l.val) = false) ∧
    (∃ (s : State) (l : Lane), Running (30 + l.val / 2) 64 s.m ∧
      (s.m.is (AFE_LANE_STAT_READY l.val) = false ∨ s.m.is (AFE_LANE_STAT_TA l.val) = true)) ∧
    (∃ (s : State) (l : Lane), Running (30 + l.val / 2) 64 s.m ∧ s.m.is (AFE_LANE_STAT_TA l.val) = true ∧
      s.m.media.chan[laneStream l].spans.length < 4) ∧
    (∃ (s : State) (l : Lane) (p : Span) (q : Span) (r : Span) (w : Span), Running (30 + l.val / 2) 64 s.m ∧
      s.m.is (AFE_LANE_STAT_TA l.val) = true ∧ s.m.media.chan[laneStream l].spans = [p, q, r, w]) ∧
    (∃ (s : State) (n : Stream), Running 14 n.val s.m ∧
      (s.m.is (CHN_CTRL_EN n.val) = false ∨ s.m.is (CHN_CTRL_ADAPT n.val) = false)) ∧
    (∃ (s : State) (n : Stream), Running 14 n.val s.m ∧ s.m.is (CHN_CTRL_EN n.val) = true ∧
      s.m.is (CHN_CTRL_ADAPT n.val) = true) :=
  ⟨⟨⟨[], up⟩, 0, by delta Running; decide +kernel⟩,
   ⟨⟨[], readFrontEnd1⟩, 0, by delta Running; decide +kernel⟩,
   ⟨⟨[], readFrontEnd2⟩, 0, by delta Running; decide +kernel⟩,
   ⟨⟨[], readFrontEnd3⟩, 0, by delta Running; decide +kernel⟩,
   ⟨⟨[], up⟩, 0, by delta Running; decide +kernel⟩,
   ⟨⟨[], readFrontEnd5⟩, 0, by delta Running; decide +kernel⟩,
   ⟨⟨[], readFrontEnd6⟩, 0, ((readFrontEnd6.media.chan[laneStream 0].spans).getD 0 (⟨0, 1⟩)),
     ((readFrontEnd6.media.chan[laneStream 0].spans).getD 1 (⟨0, 1⟩)),
     ((readFrontEnd6.media.chan[laneStream 0].spans).getD 2 (⟨0, 1⟩)),
     ((readFrontEnd6.media.chan[laneStream 0].spans).getD 3 (⟨0, 1⟩)), by delta Running; decide +kernel⟩,
   ⟨⟨[], up⟩, 0, by delta Running; decide +kernel⟩,
   ⟨⟨[], readFrontEnd8⟩, 0, by delta Running; decide +kernel⟩⟩

def sectorCaptures1 : Mach := ((up.setFmt 0 fun f => { f with armedCap := some 5, items := [item 0] }).withJob { job 11 with armed := true })
def sectorCaptures2 : Mach := ((((up.setFmt 0 fun f => { f with armedCap := some 5, items := [item 0] }).setChan 0 fun c => { c with capturing := true }).set (SRV_STAT_TRK_CONF 0) 1).set (HSQ_SEL_VALID 0 0) 1)
def sectorCaptures3 : Mach := ((((up.setFmt 0 fun f => { f with armedCap := some 5, items := [item 0] }).setChan 0 fun c => { c with capturing := true, slots := c.slots.map fun s => { s with state := .captured } }).set (SRV_STAT_TRK_CONF 0) 1).set (HSQ_SEL_VALID 0 0) 1)
def sectorCaptures5 : Mach := (up.setChan 0 fun c => { c with capturing := true, slots := c.slots.map fun s => { s with state := .captured } })
theorem test_hyps_SectorCaptures :
    (∃ (s : State) (n : Stream), Running 14 n.val s.m ∧ NoResetWaits s.m ∧
      (s.m.media.fmt[n].armedCap = none ∨ s.m.media.chan[n].capturing = false ∨ s.m.headValid n = false ∨ s.m.bitAt (SRV_STAT_TRK_CONF ↑(actOf n)) ↑(slotOf n) = false ∨ s.m.otherWrites n = true ∨ 2 ≤ s.m.get (QDR_ACT_STATE ↑(actOf n)))) ∧
    (∃ (s : State) (n : Stream) (ring : Nat) (item : FmtItem), Running 14 n.val s.m ∧ NoResetWaits s.m ∧
      s.m.media.fmt[n].armedCap = some ring ∧ List.find? (fun x => x.ring == ring) s.m.media.fmt[n].items = some item ∧
      s.m.ladderHas n item.desc = true) ∧
    (∃ (s : State) (n : Stream) (ring : Nat) (item : FmtItem) (i : SampleIdx), Running 14 n.val s.m ∧ NoResetWaits s.m ∧
      s.m.media.fmt[n].armedCap = some ring ∧ List.find? (fun x => x.ring == ring) s.m.media.fmt[n].items = some item ∧
      s.m.media.chan[n].capturing = true ∧ s.m.headValid n = true ∧
      s.m.bitAt (SRV_STAT_TRK_CONF ↑(actOf n)) ↑(slotOf n) = true ∧ s.m.otherWrites n = false ∧
      s.m.ladderHas n item.desc = false ∧ s.m.get (QDR_ACT_STATE ↑(actOf n)) < 2 ∧ s.m.freeSlotOf n = some i) ∧
    (∃ (s : State) (n : Stream) (ring : Nat) (item : FmtItem), Running 14 n.val s.m ∧ NoResetWaits s.m ∧
      s.m.media.fmt[n].armedCap = some ring ∧ List.find? (fun x => x.ring == ring) s.m.media.fmt[n].items = some item ∧
      s.m.media.chan[n].capturing = true ∧ s.m.headValid n = true ∧
      s.m.bitAt (SRV_STAT_TRK_CONF ↑(actOf n)) ↑(slotOf n) = true ∧ s.m.otherWrites n = false ∧
      s.m.ladderHas n item.desc = false ∧ s.m.get (QDR_ACT_STATE ↑(actOf n)) < 2 ∧ s.m.freeSlotOf n = none) ∧
    (∃ (s : State) (n : Stream), Running 14 n.val s.m ∧ NoResetWaits s.m ∧ s.m.unframed n = none) ∧
    (∃ (s : State) (n : Stream) (i : SampleIdx), Running 14 n.val s.m ∧ NoResetWaits s.m ∧ s.m.unframed n = some i) :=
  ⟨⟨⟨[], up⟩, 0, by delta Running NoResetWaits; decide +kernel⟩,
   ⟨⟨[], sectorCaptures1⟩, 0, (sectorCaptures1.media.fmt[0].armedCap.getD (0)),
     ((List.find? (fun x => x.ring == (sectorCaptures1.media.fmt[0].armedCap.getD (0))) sectorCaptures1.media.fmt[0].items).getD (item 0)),
     by delta Running NoResetWaits; decide +kernel⟩,
   ⟨⟨[], sectorCaptures2⟩, 0, (sectorCaptures2.media.fmt[0].armedCap.getD (0)),
     ((List.find? (fun x => x.ring == (sectorCaptures2.media.fmt[0].armedCap.getD (0))) sectorCaptures2.media.fmt[0].items).getD (item 0)),
     ((sectorCaptures2.freeSlotOf 0).getD (0)), by delta Running NoResetWaits; decide +kernel⟩,
   ⟨⟨[], sectorCaptures3⟩, 0, (sectorCaptures3.media.fmt[0].armedCap.getD (0)),
     ((List.find? (fun x => x.ring == (sectorCaptures3.media.fmt[0].armedCap.getD (0))) sectorCaptures3.media.fmt[0].items).getD (item 0)),
     by delta Running NoResetWaits; decide +kernel⟩,
   ⟨⟨[], up⟩, 0, by delta Running NoResetWaits; decide +kernel⟩,
   ⟨⟨[], sectorCaptures5⟩, 0, ((sectorCaptures5.unframed 0).getD (0)), by delta Running NoResetWaits; decide +kernel⟩⟩

def decodersAndChannelWrites0 : Mach := (up.set (CHN_CTRL_EN 0) 1)
def decodersAndChannelWrites5 : Mach := (up.setDec fun d => { d with engines := Vector.replicate 12 (some hold) })
def decodersAndChannelWrites6 : Mach := (up.withBuffer.setDec fun d => { d with ladder := [ladReq] })
def decodersAndChannelWrites7 : Mach := (up.withBuffer.withSlot 0 .captured true)
def decodersAndChannelWrites11 : Mach := (up.setDec (fun d => { d with writeBacks := [writeBack] }) |>.setCal fun c => { c with demands := (List.range 100).map fun o => ⟨13, 0, 0, 1, o⟩ })
def decodersAndChannelWrites12 : Mach := (up.setDec fun d => { d with writeBacks := [writeBack] })
theorem test_hyps_DecodersAndChannelWrites :
    (∃ (s : State) (n : Stream), Running 14 n.val s.m ∧ s.m.is (CHN_CTRL_EN n.val) = true ∧
      s.m.get (CHN_CADDR_ADDR n.val) / 1024 = s.m.get (CHN_CTRL_EQ_SET n.val)) ∧
    (∃ (s : State) (n : Stream), Running 14 n.val s.m ∧ ¬(s.m.is (CHN_CTRL_EN n.val) = true ∧
      s.m.get (CHN_CADDR_ADDR n.val) / 1024 = s.m.get (CHN_CTRL_EQ_SET n.val)) ∧
      coefWidth (s.m.get (CHN_CADDR_ADDR n.val) % 1024) ≠ 0) ∧
    (∃ (s : State) (n : Stream), Running 14 n.val s.m ∧ NoResetWaits s.m) ∧
    (∃ (s : State) (n : Stream), Running 14 n.val s.m ∧ s.m.is (CHN_CTRL_EN n.val) = false) ∧
    (∃ (s : State) (n : Stream), Running 14 n.val s.m ∧ Running 12 28 s.m) ∧
    (∃ (s : State), Running 12 28 s.m ∧ ((∀ (e : Engine),
      s.m.media.dec.engines[e].isSome = true) ∨ s.m.get PWR_MODE_MODE = 4)) ∧
    (∃ (s : State) (e : Engine) (q : LadderReq), Running 12 28 s.m ∧ s.m.get PWR_MODE_MODE ≠ 4 ∧
      List.find? (fun (x : Engine) => s.m.media.dec.engines[x].isNone) (allFin 12) = some e ∧
      s.m.ladderHeld < max 1 (min 4 (s.m.get DEC_CFG_LADDER_MAX)) ∧ s.m.oldestLadder = some q) ∧
    (∃ (s : State) (e : Engine) (n : Stream) (i : SampleIdx), Running 12 28 s.m ∧ s.m.get PWR_MODE_MODE ≠ 4 ∧
      List.find? (fun (x : Engine) => s.m.media.dec.engines[x].isNone) (allFin 12) = some e ∧
      (¬s.m.ladderHeld < max 1 (min 4 (s.m.get DEC_CFG_LADDER_MAX)) ∨ s.m.oldestLadder = none) ∧ s.m.oldestOtf = some (n,
      i)) ∧
    (∃ (s : State) (e : Engine), Running 12 28 s.m ∧ s.m.get PWR_MODE_MODE ≠ 4 ∧
      List.find? (fun (x : Engine) => s.m.media.dec.engines[x].isNone) (allFin 12) = some e ∧
      (¬s.m.ladderHeld < max 1 (min 4 (s.m.get DEC_CFG_LADDER_MAX)) ∨ s.m.oldestLadder = none) ∧ s.m.oldestOtf = none) ∧
    (∃ (s : State) (e : Engine), (Running (if e.val < 6 then 12 else 13) 28 s.m) ∧ s.m.media.dec.engines[e] = none) ∧
    (∃ (s : State) (k : Nat), Running 12 28 s.m ∧ s.m.media.dec.writeBacks[k]? = none) ∧
    (∃ (s : State) (k : Nat) (w : WriteBack) (i : SampleIdx), Running 12 28 s.m ∧ s.m.media.dec.writeBacks[k]? = some w ∧
      w.slot = some i ∧ s.m.writeBackMoved k w = false) ∧
    (∃ (s : State) (k : Nat) (w : WriteBack) (i : SampleIdx), Running 12 28 s.m ∧ s.m.media.dec.writeBacks[k]? = some w ∧
      w.slot = some i ∧ s.m.writeBackMoved k w = true) ∧
    (∃ (s : State) (e : Engine) (h : EngineHold) (i : SampleIdx), (Running (if e.val < 6 then 12 else 13) 28 s.m) ∧
      s.m.media.dec.engines[e] = some h ∧ h.ladder = none ∧ h.slot = some i ∧ (s.m.decodeResult h).fst ≤ 1 ∧
      h.desc.op ≠ 3) :=
  ⟨⟨⟨[], decodersAndChannelWrites0⟩, 0, by delta Running; decide +kernel⟩,
   ⟨⟨[], up⟩, 0, by delta Running; decide +kernel⟩,
   ⟨⟨[], up⟩, 0, by delta Running NoResetWaits; decide +kernel⟩,
   ⟨⟨[], up⟩, 0, by delta Running; decide +kernel⟩,
   ⟨⟨[], up⟩, 0, by delta Running; decide +kernel⟩,
   ⟨⟨[], decodersAndChannelWrites5⟩, by delta Running; decide +kernel⟩,
   ⟨⟨[], decodersAndChannelWrites6⟩,
     ((List.find? (fun (x : Engine) => decodersAndChannelWrites6.media.dec.engines[x].isNone) (allFin 12)).getD (0)),
     (decodersAndChannelWrites6.oldestLadder.getD ladReq), by delta Running; decide +kernel⟩,
   ⟨⟨[], decodersAndChannelWrites7⟩,
     ((List.find? (fun (x : Engine) => decodersAndChannelWrites7.media.dec.engines[x].isNone) (allFin 12)).getD (0)),
     (decodersAndChannelWrites7.oldestOtf.getD (0, 0)).1, (decodersAndChannelWrites7.oldestOtf.getD (0, 0)).2,
     by delta Running; decide +kernel⟩,
   ⟨⟨[], up⟩, ((List.find? (fun (x : Engine) => up.media.dec.engines[x].isNone) (allFin 12)).getD (0)),
     by delta Running; decide +kernel⟩,
   ⟨⟨[], up⟩, 0, by delta Running; decide +kernel⟩,
   ⟨⟨[], up⟩, 0, by delta Running; decide +kernel⟩,
   ⟨⟨[], decodersAndChannelWrites11⟩, 0, (decodersAndChannelWrites11.media.dec.writeBacks[0]?.getD writeBack),
     (((decodersAndChannelWrites11.media.dec.writeBacks[0]?.getD writeBack).slot).getD (0)),
     by delta Running; decide +kernel⟩,
   ⟨⟨[], decodersAndChannelWrites12⟩, 0, (decodersAndChannelWrites12.media.dec.writeBacks[0]?.getD writeBack),
     (((decodersAndChannelWrites12.media.dec.writeBacks[0]?.getD writeBack).slot).getD (0)),
     by delta Running; decide +kernel⟩,
   ⟨⟨[], up.held 0 goodHold⟩, 0, goodHold, 0, by delta Running; decide +kernel, rfl, by decide +kernel, by decide +kernel,
     decodeResult_goodHold, by decide +kernel⟩⟩

def formatterPrimitives0 : Mach := (((up.setWpath 0 fun w => { w with writer := some 1 }).holdsWord 0 (wd 0 16)).set (FMT_CTRL_EN 0) 1)
def formatterPrimitives1 : Mach := ((up.holdsWord 0 (wd 0 16)).set (FMT_CTRL_EN 0) 1)
def formatterPrimitives2 : Mach := ((up.withItem (item 0)).holdsWord 0 (wd 0 17))
def formatterPrimitives3 : Mach := ((((up.withItem (item 0)).setFmt 0 fun f => { f with inRun := true }).holdsWord 0 (wd 0 18)).set (HSQ_SEL_VALID 0 0) 1)
def formatterPrimitives4 : Mach := (((up.withItem (item 1)).setFmt 0 fun f => { f with inRun := true }).holdsWord 0 (wd 0 19))
def formatterPrimitives5 : Mach := ((up.withItem (itemDone 0)).holdsWord 0 (wd 0 20))
theorem test_hyps_FormatterPrimitives :
    (∃ (s : State) (n : Stream) (inp : Bool) (u : Micro) (next : Nat),
      Running (seqDomain (seqFS n)) (seqBlock (seqFS n)) s.m ∧ AtWord s.m (seqFS n) inp u next ∧ u.alu = 0 ∧
      NoResetWaits s.m ∧ u.xop = 16 ∧ s.m.is (FMT_CTRL_EN n.val) = true ∧ s.m.otherWrites n = true) ∧
    (∃ (s : State) (n : Stream) (inp : Bool) (u : Micro) (next : Nat),
      Running (seqDomain (seqFS n)) (seqBlock (seqFS n)) s.m ∧ AtWord s.m (seqFS n) inp u next ∧ u.alu = 0 ∧
      NoResetWaits s.m ∧ u.xop = 16 ∧ s.m.is (FMT_CTRL_EN n.val) = true ∧ s.m.otherWrites n = false) ∧
    (∃ (s : State) (n : Stream) (inp : Bool) (u : Micro) (next : Nat) (i : FmtItem),
      Running (seqDomain (seqFS n)) (seqBlock (seqFS n)) s.m ∧ AtWord s.m (seqFS n) inp u next ∧ u.alu = 0 ∧
      NoResetWaits s.m ∧ u.xop = 17 ∧ s.m.media.fmt[n].items.getLast? = some i) ∧
    (∃ (s : State) (n : Stream) (inp : Bool) (u : Micro) (next : Nat) (i : FmtItem),
      Running (seqDomain (seqFS n)) (seqBlock (seqFS n)) s.m ∧ AtWord s.m (seqFS n) inp u next ∧ u.alu = 0 ∧
      NoResetWaits s.m ∧ u.xop = 18 ∧ s.m.curItem n = some i ∧ s.m.media.fmt[n].inRun = true ∧ s.m.headValid n = true ∧
      i.desc.reads = true ∧ s.m.otherWrites n = false) ∧
    (∃ (s : State) (n : Stream) (inp : Bool) (u : Micro) (next : Nat) (i : FmtItem),
      Running (seqDomain (seqFS n)) (seqBlock (seqFS n)) s.m ∧ AtWord s.m (seqFS n) inp u next ∧ u.alu = 0 ∧
      NoResetWaits s.m ∧ u.xop = 19 ∧ s.m.curItem n = some i ∧ s.m.media.fmt[n].inRun = true ∧ i.desc.writes = true ∧
      s.m.otherWrites n = false) ∧
    (∃ (s : State) (n : Stream) (inp : Bool) (u : Micro) (next : Nat) (i : FmtItem) (rest : List FmtItem) (st : Nat × Nat),
      Running (seqDomain (seqFS n)) (seqBlock (seqFS n)) s.m ∧ AtWord s.m (seqFS n) inp u next ∧ u.alu = 0 ∧
      NoResetWaits s.m ∧ u.xop = 20 ∧ s.m.media.fmt[n].items = i :: rest ∧ i.status = some st) :=
  ⟨⟨⟨[], formatterPrimitives0⟩, 0, true, (microOf (wd 0 16)), 0, by delta Running; decide +kernel,
    atWord_of (wd 0 16) (by decide +kernel), by decide +kernel, by delta NoResetWaits; decide +kernel, by decide +kernel,
    by decide +kernel, by decide +kernel⟩,
   ⟨⟨[], formatterPrimitives1⟩, 0, true, (microOf (wd 0 16)), 0, by delta Running; decide +kernel,
     atWord_of (wd 0 16) (by decide +kernel), by decide +kernel, by delta NoResetWaits; decide +kernel, by decide +kernel,
     by decide +kernel, by decide +kernel⟩,
   ⟨⟨[], formatterPrimitives2⟩, 0, true, (microOf (wd 0 17)), 0,
     ((formatterPrimitives2.media.fmt[0].items.getLast?).getD (item 0)), by delta Running; decide +kernel,
     atWord_of (wd 0 17) (by decide +kernel), by decide +kernel, by delta NoResetWaits; decide +kernel, by decide +kernel,
     by decide +kernel⟩,
   ⟨⟨[], formatterPrimitives3⟩, 0, true, (microOf (wd 0 18)), 0, ((formatterPrimitives3.curItem 0).getD (item 0)),
     by delta Running; decide +kernel, atWord_of (wd 0 18) (by decide +kernel), by decide +kernel,
     by delta NoResetWaits; decide +kernel, by decide +kernel, by decide +kernel, by decide +kernel, by decide +kernel,
     by decide +kernel, by decide +kernel⟩,
   ⟨⟨[], formatterPrimitives4⟩, 0, true, (microOf (wd 0 19)), 0, ((formatterPrimitives4.curItem 0).getD (item 0)),
     by delta Running; decide +kernel, atWord_of (wd 0 19) (by decide +kernel), by decide +kernel,
     by delta NoResetWaits; decide +kernel, by decide +kernel, by decide +kernel, by decide +kernel, by decide +kernel,
     by decide +kernel⟩,
   ⟨⟨[], formatterPrimitives5⟩, 0, true, (microOf (wd 0 20)), 0, (formatterPrimitives5.media.fmt[0].items.headD (item 0)),
     formatterPrimitives5.media.fmt[0].items.tail,
     (((formatterPrimitives5.media.fmt[0].items.headD (item 0)).status).getD (0, 0)), by delta Running; decide +kernel,
     atWord_of (wd 0 20) (by decide +kernel), by decide +kernel, by delta NoResetWaits; decide +kernel, by decide +kernel,
     by decide +kernel, by decide +kernel⟩⟩

def writePath1 : Mach := ((up.setFmt 0 fun f => { f with inRun := true }).set PWR_CAP_STREAMS 0)
def writePath2 : Mach := ((up.setPwr fun p => { p with runWait := [0] }).withItem (item 1))
def writePath4 : Mach := (up.setFmt 0 fun f => { f with searching := some (1, 0) })
def writePath6 : Mach := (up.withItem (item 1))
def writePath8 : Mach := ((up.setWpath 0 fun w => { w with encoding := some encoding }).setCal fun c => { c with demands := [⟨writePathPort 0, 0, 0, 1, 0⟩] })
def writePath9 : Mach := ((up.setWpath 0 fun w => { w with encoding := some encoding }).withItem (item 1))
set_option maxRecDepth 100000 in
theorem test_hyps_WritePath :
    (∃ (s : State), NoResetWaits s.m ∧ List.find? s.m.runMayBegin s.m.pwr.runWait = none) ∧
    (∃ (s : State), NoResetWaits s.m ∧ s.m.streamCap ≤ s.m.streamsInRuns ∧ s.m.get PWR_MODE_MODE ≠ 9) ∧
    (∃ (s : State) (n : Stream), NoResetWaits s.m ∧ List.find? s.m.runMayBegin s.m.pwr.runWait = some n ∧
      (s.m.streamsInRuns < s.m.streamCap ∨ s.m.get PWR_MODE_MODE = 9)) ∧
    (∃ (s : State) (n : Stream), NoResetWaits s.m ∧ Running (15 + n.val / 2) (8 + n.val) s.m ∧
      s.m.media.fmt[n].searching = none) ∧
    (∃ (s : State) (n : Stream) (cyl : Nat) (head : Nat), NoResetWaits s.m ∧ Running (15 + n.val / 2) (8 + n.val) s.m ∧
      s.m.media.fmt[n].searching = some (cyl, head)) ∧
    (∃ (s : State) (n : Stream), NoResetWaits s.m ∧ Running (15 + n.val / 2) (8 + n.val) s.m ∧
      (s.m.media.wpath[actOf n].encoding.isSome = true ∨ 4 ≤ s.m.media.wpath[actOf n].fifo.length ∨ s.m.nextFetch n = none)) ∧
    (∃ (s : State) (n : Stream) (i : FmtItem), NoResetWaits s.m ∧ Running (15 + n.val / 2) (8 + n.val) s.m ∧
      s.m.media.wpath[actOf n].encoding = none ∧ s.m.media.wpath[actOf n].fifo.length < 4 ∧ s.m.nextFetch n = some i ∧
      ((s.m.demandBlock (actOf n) i.desc.handle).loadBlock i.desc.handle).fst.snd = false) ∧
    (∃ (s : State) (a : Actuator), NoResetWaits s.m ∧ Running 14 64 s.m ∧ s.m.media.wpath[a].encoding = none) ∧
    (∃ (s : State) (a : Actuator) (e : Encoding), NoResetWaits s.m ∧ Running 14 64 s.m ∧
      s.m.media.wpath[a].encoding = some e ∧ s.m.portQuiet (writePathPort a) = false) ∧
    (∃ (s : State) (a : Actuator) (e : Encoding), NoResetWaits s.m ∧ Running 14 64 s.m ∧
      s.m.media.wpath[a].encoding = some e ∧ s.m.portQuiet (writePathPort a) = true ∧
      (s.m.media.fmt[e.word.stream].items.any fun i => i.ring == e.word.ring) = true) :=
  ⟨⟨⟨[], up⟩, by delta NoResetWaits; decide +kernel⟩,
   ⟨⟨[], writePath1⟩, by delta NoResetWaits; decide +kernel⟩,
   ⟨⟨[], writePath2⟩, ((List.find? writePath2.runMayBegin writePath2.pwr.runWait).getD (0)),
     by delta NoResetWaits; decide +kernel⟩,
   ⟨⟨[], up⟩, 0, by delta Running NoResetWaits; decide +kernel⟩,
   ⟨⟨[], writePath4⟩, 0, (writePath4.media.fmt[0].searching.getD (0, 0)).1, (writePath4.media.fmt[0].searching.getD (0,
     0)).2, by delta Running NoResetWaits; decide +kernel⟩,
   ⟨⟨[], up⟩, 0, by delta Running NoResetWaits; decide +kernel⟩,
   ⟨⟨[], writePath6⟩, 0, ((writePath6.nextFetch 0).getD (item 0)), by delta Running NoResetWaits; decide +kernel⟩,
   ⟨⟨[], up⟩, 0, by delta Running NoResetWaits; decide +kernel⟩,
   ⟨⟨[], writePath8⟩, 0, (writePath8.media.wpath[0].encoding.getD encoding), by delta Running NoResetWaits; decide +kernel⟩,
   ⟨⟨[], writePath9⟩, 0, (writePath9.media.wpath[0].encoding.getD encoding), by delta Running NoResetWaits; decide +kernel⟩⟩

def writeGate1 : Mach := (up.withItem (item 1) |>.setHsq 0 fun h => { h with moments := [moment] })
def writeGate2 : Mach := (((((up.withItem (item 1) |>.setHsq 0 fun h => { h with moments := [moment] }).setWpath 0 fun w => { w with fifo := [codeword] }).set (HSQ_SEL_VALID 0 0) 1).set (HSQ_CTRL_EN 0) 1).set (SRV_STAT_WSAFE 0) 1)
def writeGate3 : Mach := ((up.withItem (item 1) |>.setHsq 0 fun h => { h with moments := [moment] }).set (HSQ_SEL_VALID 0 0) 1)
def writeGate5 : Mach := ((up.setWpath 0 fun w => { w with split := true, writer := some 0 }).withItem (item 1) |>.setFmt 0 fun f => { f with writing := some ⟨5, [], 0, 0⟩ })
def writeGate6 : Mach := ((((up.setWpath 0 fun w => { w with split := true, writer := some 0 }).withItem (item 1) |>.setFmt 0 fun f => { f with writing := some ⟨5, [], 0, 0⟩ }).set (HSQ_SEL_VALID 0 0) 1).set (SRV_STAT_WSAFE 0) 1)
def writeGate7 : Mach := (up.withItem (item 1) |>.setFmt 0 fun f => { f with writing := some ⟨5, [], 0, 0⟩ })
def writeGate8 : Mach := ((up.withItem (item 1) |>.setFmt 0 fun f => { f with writing := some ⟨5, [], 0, 0⟩ }).set (FMT_STAT_GATE 0) 1)
def writeGate9 : Mach := (up.set (SRV_STAT_WSAFE 0) 1)
def writeGate10 : Mach := (((up.setWpath 0 fun w => { w with split := true, writer := some 0 }).withItem (item 1) |>.setFmt 0 fun f => { f with writing := some ⟨5, [], 0, 0⟩ }).set (FMT_STAT_GATE 0) 1)
theorem test_hyps_WriteGate :
    (∃ (s : State) (a : Actuator), NoResetWaits s.m ∧ Running (15 + a.val) (24 + a.val) s.m ∧
      (s.m.motion.hsq[a].moments = [] ∨ s.m.motion.hsq[a].frame.isSome = true)) ∧
    (∃ (s : State) (a : Actuator) (g : GateMoment) (rest : List GateMoment) (i : FmtItem), NoResetWaits s.m ∧
      Running (15 + a.val) (24 + a.val) s.m ∧ s.m.motion.hsq[a].moments = g :: rest ∧ s.m.motion.hsq[a].frame = none ∧
      s.m.itemAt (streamOf a g.slot) g.ring = some i ∧ s.m.raiseWithheld (streamOf a g.slot) i.desc = true) ∧
    (∃ (s : State) (a : Actuator) (g : GateMoment) (rest : List GateMoment) (i : FmtItem) (c : Codeword), NoResetWaits s.m ∧
      Running (15 + a.val) (24 + a.val) s.m ∧ s.m.motion.hsq[a].moments = g :: rest ∧ s.m.motion.hsq[a].frame = none ∧
      s.m.itemAt (streamOf a g.slot) g.ring = some i ∧ s.m.raiseWithheld (streamOf a g.slot) i.desc = false ∧
      s.m.codewordOf (streamOf a g.slot) g.ring = some c ∧ s.m.slotSafe a g.slot = 1 ∧ s.m.is (HSQ_CTRL_EN a.val) = true ∧
      s.m.otherIdle (streamOf a g.slot) = true) ∧
    (∃ (s : State) (a : Actuator) (g : GateMoment) (rest : List GateMoment) (i : FmtItem), NoResetWaits s.m ∧
      Running (15 + a.val) (24 + a.val) s.m ∧ s.m.motion.hsq[a].moments = g :: rest ∧ s.m.motion.hsq[a].frame = none ∧
      s.m.itemAt (streamOf a g.slot) g.ring = some i ∧ s.m.raiseWithheld (streamOf a g.slot) i.desc = false ∧
      (s.m.slotSafe a g.slot = 0 ∨ s.m.codewordOf (streamOf a g.slot) g.ring = none ∨ s.m.is (HSQ_CTRL_EN a.val) = false ∨ s.m.otherIdle (streamOf a g.slot) = false)) ∧
    (∃ (s : State) (n : Stream), NoResetWaits s.m ∧ Running (15 + n.val / 2) (8 + n.val) s.m ∧
      s.m.media.fmt[n].writing = none) ∧
    (∃ (s : State) (n : Stream) (w : Writing) (i : FmtItem), NoResetWaits s.m ∧ Running (15 + n.val / 2) (8 + n.val) s.m ∧
      s.m.media.fmt[n].writing = some w ∧ s.m.itemAt n w.ring = some i ∧ s.m.media.wpath[actOf n].split = true ∧
      s.m.media.wpath[actOf n].writer = some (slotOf n) ∧ s.m.is (FMT_STAT_GATE n.val) = false ∧
      s.m.slotSafe (actOf n) (slotOf n) = 0) ∧
    (∃ (s : State) (n : Stream) (w : Writing) (i : FmtItem), NoResetWaits s.m ∧ Running (15 + n.val / 2) (8 + n.val) s.m ∧
      s.m.media.fmt[n].writing = some w ∧ s.m.itemAt n w.ring = some i ∧ s.m.media.wpath[actOf n].split = true ∧
      s.m.media.wpath[actOf n].writer = some (slotOf n) ∧ s.m.is (FMT_STAT_GATE n.val) = false ∧
      s.m.slotSafe (actOf n) (slotOf n) ≠ 0 ∧ s.m.otherIdle n = true ∧ s.m.raiseWithheld n i.desc = false) ∧
    (∃ (s : State) (n : Stream) (w : Writing) (i : FmtItem), NoResetWaits s.m ∧ Running (15 + n.val / 2) (8 + n.val) s.m ∧
      s.m.media.fmt[n].writing = some w ∧ s.m.itemAt n w.ring = some i ∧
      (s.m.is (FMT_STAT_GATE n.val) = false ∨ (s.m.runNext n i).isSome = true)) ∧
    (∃ (s : State) (n : Stream) (w : Writing) (i : FmtItem), NoResetWaits s.m ∧ Running (15 + n.val / 2) (8 + n.val) s.m ∧
      s.m.media.fmt[n].writing = some w ∧ s.m.itemAt n w.ring = some i ∧ s.m.is (FMT_STAT_GATE n.val) = true ∧
      s.m.runNext n i = none) ∧
    (∃ (s : State) (a : Actuator), NoResetWaits s.m ∧ Running (15 + a.val) 64 s.m ∧ s.m.is (SRV_STAT_WSAFE a.val) = true) ∧
    (∃ (s : State) (a : Actuator) (k : HeadSlot) (w : Writing) (i : FmtItem), NoResetWaits s.m ∧
      Running (15 + a.val) 64 s.m ∧ s.m.is (SRV_STAT_WSAFE a.val) = false ∧ s.m.media.wpath[a].writer = some k ∧
      s.m.media.fmt[streamOf a k].writing = some w ∧ s.m.itemAt (streamOf a k) w.ring = some i ∧
      s.m.is (FMT_STAT_GATE ↑(streamOf a k)) = true) :=
  ⟨⟨⟨[], up⟩, 0, by delta Running NoResetWaits; decide +kernel⟩,
   ⟨⟨[], writeGate1⟩, 0, (writeGate1.motion.hsq[0].moments.headD moment), writeGate1.motion.hsq[0].moments.tail,
     ((writeGate1.itemAt (streamOf 0 (writeGate1.motion.hsq[0].moments.headD moment).slot) (writeGate1.motion.hsq[0].moments.headD moment).ring).getD (item 0)),
     by delta Running NoResetWaits; decide +kernel⟩,
   ⟨⟨[], writeGate2⟩, 0, (writeGate2.motion.hsq[0].moments.headD moment), writeGate2.motion.hsq[0].moments.tail,
     ((writeGate2.itemAt (streamOf 0 (writeGate2.motion.hsq[0].moments.headD moment).slot) (writeGate2.motion.hsq[0].moments.headD moment).ring).getD (item 0)),
     ((writeGate2.codewordOf (streamOf 0 (writeGate2.motion.hsq[0].moments.headD moment).slot) (writeGate2.motion.hsq[0].moments.headD moment).ring).getD codeword),
     by delta Running NoResetWaits; decide +kernel⟩,
   ⟨⟨[], writeGate3⟩, 0, (writeGate3.motion.hsq[0].moments.headD moment), writeGate3.motion.hsq[0].moments.tail,
     ((writeGate3.itemAt (streamOf 0 (writeGate3.motion.hsq[0].moments.headD moment).slot) (writeGate3.motion.hsq[0].moments.headD moment).ring).getD (item 0)),
     by delta Running NoResetWaits; decide +kernel⟩,
   ⟨⟨[], up⟩, 0, by delta Running NoResetWaits; decide +kernel⟩,
   ⟨⟨[], writeGate5⟩, 0, (writeGate5.media.fmt[0].writing.getD (⟨5, [], 0, 0⟩)),
     ((writeGate5.itemAt 0 (writeGate5.media.fmt[0].writing.getD (⟨5, [], 0, 0⟩)).ring).getD (item 0)),
     by delta Running NoResetWaits; decide +kernel⟩,
   ⟨⟨[], writeGate6⟩, 0, (writeGate6.media.fmt[0].writing.getD (⟨5, [], 0, 0⟩)),
     ((writeGate6.itemAt 0 (writeGate6.media.fmt[0].writing.getD (⟨5, [], 0, 0⟩)).ring).getD (item 0)),
     by delta Running NoResetWaits; decide +kernel⟩,
   ⟨⟨[], writeGate7⟩, 0, (writeGate7.media.fmt[0].writing.getD (⟨5, [], 0, 0⟩)),
     ((writeGate7.itemAt 0 (writeGate7.media.fmt[0].writing.getD (⟨5, [], 0, 0⟩)).ring).getD (item 0)),
     by delta Running NoResetWaits; decide +kernel⟩,
   ⟨⟨[], writeGate8⟩, 0, (writeGate8.media.fmt[0].writing.getD (⟨5, [], 0, 0⟩)),
     ((writeGate8.itemAt 0 (writeGate8.media.fmt[0].writing.getD (⟨5, [], 0, 0⟩)).ring).getD (item 0)),
     by delta Running NoResetWaits; decide +kernel⟩,
   ⟨⟨[], writeGate9⟩, 0, by delta Running NoResetWaits; decide +kernel⟩,
   ⟨⟨[], writeGate10⟩, 0, (writeGate10.media.wpath[0].writer.getD (0)),
     ((writeGate10.media.fmt[streamOf 0 (writeGate10.media.wpath[0].writer.getD (0))].writing).getD (⟨5, [], 0, 0⟩)),
     ((writeGate10.itemAt (streamOf 0 (writeGate10.media.wpath[0].writer.getD (0))) ((writeGate10.media.fmt[streamOf 0 (writeGate10.media.wpath[0].writer.getD (0))].writing).getD (⟨5,
     [], 0, 0⟩)).ring).getD (item 0)), by delta Running NoResetWaits; decide +kernel⟩⟩

def ladderJobsAndEvents0 : Mach := (up.withJob { job 1 with ending := some (.recovered, 1) })
def ladderJobsAndEvents1 : Mach := (up.withJob { job 1 with attempts := [⟨0, some (0, 0, []), none⟩] })
def ladderJobsAndEvents2 : Mach := (up.withJob { job 1 with attempts := List.replicate 1 ⟨0, some (2, 0, []), none⟩ })
def ladderJobsAndEvents3 : Mach := (up.withJob (job 1))
def ladderJobsAndEvents4 : Mach := (up.withJob { job 10 with armWait := true, heaterOk := false })
def ladderJobsAndEvents6 : Mach := (((up.withJob { job 11 with armed := true } |>.setChan 0 fun c => { c with capturing := true }).set (HSQ_SEL_VALID 0 0) 1).set (SRV_STAT_TRK_CONF 0) 1)
def ladderJobsAndEvents8 : Mach := (up.setLad 0 fun l => { l with jobs := List.replicate 16 (job 1) })
def ladderJobsAndEvents16 : Mach := (up.withJob { job 1 with recorded := true, ending := some (.recovered, 1) })
theorem test_hyps_LadderJobsAndEvents :
    (∃ (s : State) (a : Actuator) (j : LadJob) (n : Stream), Running (15 + a.val) (16 + a.val) s.m ∧ s.m.ladJob a = some j ∧
      n = streamOf a j.ssel ∧ j.ending.isSome = true) ∧
    (∃ (s : State) (a : Actuator) (j : LadJob) (n : Stream) (k : Nat) (code : Nat) (block : List Byte),
      Running (15 + a.val) (16 + a.val) s.m ∧ s.m.ladJob a = some j ∧ n = streamOf a j.ssel ∧ j.ending = none ∧
      j.withdraw = false ∧ Mach.winner j.attempts = some (k, code, block)) ∧
    (∃ (s : State) (a : Actuator) (j : LadJob) (n : Stream), Running (15 + a.val) (16 + a.val) s.m ∧ s.m.ladJob a = some j ∧
      n = streamOf a j.ssel ∧ j.ending = none ∧ j.withdraw = false ∧ Mach.winner j.attempts = none ∧
      j.attempts.length = stepAttempts j.step ∧ (j.attempts.all fun x => x.result.isSome) = true) ∧
    (∃ (s : State) (a : Actuator) (j : LadJob) (n : Stream), Running (15 + a.val) (16 + a.val) s.m ∧ s.m.ladJob a = some j ∧
      n = streamOf a j.ssel ∧ ¬(j.armWait = true ∧ j.heaterOk = false)) ∧
    (∃ (s : State) (a : Actuator) (j : LadJob) (n : Stream), Running (15 + a.val) (16 + a.val) s.m ∧ s.m.ladJob a = some j ∧
      n = streamOf a j.ssel ∧ j.armWait = true ∧ j.heaterOk = false) ∧
    (∃ (s : State) (a : Actuator) (j : LadJob) (n : Stream), Running (15 + a.val) (16 + a.val) s.m ∧ s.m.ladJob a = some j ∧
      n = streamOf a j.ssel ∧
      (j.armed = false ∨ s.m.media.chan[n].capturing = false ∨ s.m.headValid n = false ∨ s.m.bitAt (SRV_STAT_TRK_CONF a.val) ↑j.ssel = false ∨ 2 ≤ s.m.get (QDR_ACT_STATE a.val) ∨ s.m.noWriteRun a = false ∨ s.m.freeSlotOf n = none)) ∧
    (∃ (s : State) (a : Actuator) (j : LadJob) (n : Stream) (i : SampleIdx), Running (15 + a.val) (16 + a.val) s.m ∧
      s.m.ladJob a = some j ∧ n = streamOf a j.ssel ∧ j.armed = true ∧ s.m.media.chan[n].capturing = true ∧
      s.m.headValid n = true ∧ s.m.bitAt (SRV_STAT_TRK_CONF a.val) ↑j.ssel = true ∧ s.m.get (QDR_ACT_STATE a.val) < 2 ∧
      s.m.noWriteRun a = true ∧ (s.m.media.fmt[n].inRun = true ∨ s.m.streamsInRuns < s.m.streamCap) ∧
      s.m.freeSlotOf n = some i) ∧
    (∃ (s : State) (a : Actuator) (j : LadJob) (n : Stream), Running (15 + a.val) (16 + a.val) s.m ∧ s.m.ladJob a = some j ∧
      n = streamOf a j.ssel ∧ j.rebuilding = false) ∧
    (∃ (s : State) (a : Actuator), Running (15 + a.val) (16 + a.val) s.m ∧ 16 ≤ s.m.media.lad[a].jobs.length) ∧
    (∃ (s : State) (a : Actuator) (w : Word) (j : LadJob), Running (15 + a.val) (16 + a.val) s.m ∧
      j ∈ s.m.media.lad[a].jobs ∧ j.ring = getBits w 0 12 ∧ j.ssel = Fin.ofNat 2 (getBits w 12 1)) ∧
    (∃ (s : State) (a : Actuator) (w : Word), Running (15 + a.val) (16 + a.val) s.m ∧ getBits w 13 1 = 0 ∧
      s.m.pinnedSlot (streamOf a (Fin.ofNat 2 (getBits w 12 1))) (getBits w 0 12) = none) ∧
    (∃ (s : State) (a : Actuator) (w : Word), Running (15 + a.val) (16 + a.val) s.m ∧ s.m.media.lad[a].jobs.length < 16 ∧
      (∀ (j : LadJob), j ∈ s.m.media.lad[a].jobs → ¬(j.ring = getBits w 0 12 ∧ j.ssel = Fin.ofNat 2 (getBits w 12 1))) ∧
      (getBits w 13 1 = 1 ∨ (s.m.pinnedSlot (streamOf a (Fin.ofNat 2 (getBits w 12 1))) (getBits w 0 12)).isSome = true)) ∧
    (∃ (s : State) (a : Actuator) (w : Word), Running (15 + a.val) (16 + a.val) s.m ∧ (∀ (j : LadJob),
      j ∈ s.m.media.lad[a].jobs → ¬(j.ring = getBits w 0 12 ∧ j.ssel = Fin.ofNat 2 (getBits w 12 1) ∧ j.ending = none ∧
      j.limit ≤ getBits w 16 4 + 1))) ∧
    (∃ (s : State) (a : Actuator) (w : Word) (j : LadJob) (rest : List LadJob), Running (15 + a.val) (16 + a.val) s.m ∧
      s.m.media.lad[a].jobs = j :: rest ∧ j.ring = getBits w 0 12 ∧ j.ssel = Fin.ofNat 2 (getBits w 12 1) ∧ j.ending = none ∧
      j.limit ≤ getBits w 16 4 + 1) ∧
    (∃ (s : State) (a : Actuator) (j : LadJob), Running (15 + a.val) (16 + a.val) s.m ∧ s.m.ladJob a = some j ∧
      j.recorded = false) ∧
    (∃ (s : State) (a : Actuator), Running (15 + a.val) (16 + a.val) s.m ∧ s.m.ladJob a = none) ∧
    (∃ (s : State) (a : Actuator) (j : LadJob) (rest : List LadJob) (o : JobOutcome) (step : Nat),
      Running (15 + a.val) (16 + a.val) s.m ∧ s.m.media.lad[a].jobs = j :: rest ∧ j.recorded = true ∧ j.ending = some (o,
      step)) :=
  ⟨⟨⟨[], ladderJobsAndEvents0⟩, 0, ((ladderJobsAndEvents0.ladJob 0).getD (job 1)),
    (streamOf 0 ((ladderJobsAndEvents0.ladJob 0).getD (job 1)).ssel : Stream), by delta Running; decide +kernel⟩,
   ⟨⟨[], ladderJobsAndEvents1⟩, 0, ((ladderJobsAndEvents1.ladJob 0).getD (job 1)),
     (streamOf 0 ((ladderJobsAndEvents1.ladJob 0).getD (job 1)).ssel : Stream),
     ((Mach.winner ((ladderJobsAndEvents1.ladJob 0).getD (job 1)).attempts).getD (0, 0, [])).1,
     ((Mach.winner ((ladderJobsAndEvents1.ladJob 0).getD (job 1)).attempts).getD (0, 0, [])).2.1,
     ((Mach.winner ((ladderJobsAndEvents1.ladJob 0).getD (job 1)).attempts).getD (0, 0, [])).2.2,
     by delta Running; decide +kernel⟩,
   ⟨⟨[], ladderJobsAndEvents2⟩, 0, ((ladderJobsAndEvents2.ladJob 0).getD (job 1)),
     (streamOf 0 ((ladderJobsAndEvents2.ladJob 0).getD (job 1)).ssel : Stream), by delta Running; decide +kernel⟩,
   ⟨⟨[], ladderJobsAndEvents3⟩, 0, ((ladderJobsAndEvents3.ladJob 0).getD (job 1)),
     (streamOf 0 ((ladderJobsAndEvents3.ladJob 0).getD (job 1)).ssel : Stream), by delta Running; decide +kernel⟩,
   ⟨⟨[], ladderJobsAndEvents4⟩, 0, ((ladderJobsAndEvents4.ladJob 0).getD (job 1)),
     (streamOf 0 ((ladderJobsAndEvents4.ladJob 0).getD (job 1)).ssel : Stream), by delta Running; decide +kernel⟩,
   ⟨⟨[], ladderJobsAndEvents3⟩, 0, ((ladderJobsAndEvents3.ladJob 0).getD (job 1)),
     (streamOf 0 ((ladderJobsAndEvents3.ladJob 0).getD (job 1)).ssel : Stream), by delta Running; decide +kernel⟩,
   ⟨⟨[], ladderJobsAndEvents6⟩, 0, ((ladderJobsAndEvents6.ladJob 0).getD (job 1)),
     (streamOf 0 ((ladderJobsAndEvents6.ladJob 0).getD (job 1)).ssel : Stream),
     ((ladderJobsAndEvents6.freeSlotOf (streamOf 0 ((ladderJobsAndEvents6.ladJob 0).getD (job 1)).ssel : Stream)).getD (0)),
     by delta Running; decide +kernel⟩,
   ⟨⟨[], ladderJobsAndEvents3⟩, 0, ((ladderJobsAndEvents3.ladJob 0).getD (job 1)),
     (streamOf 0 ((ladderJobsAndEvents3.ladJob 0).getD (job 1)).ssel : Stream), by delta Running; decide +kernel⟩,
   ⟨⟨[], ladderJobsAndEvents8⟩, 0, by delta Running; decide +kernel⟩,
   ⟨⟨[], ladderJobsAndEvents3⟩, 0, 5, (ladderJobsAndEvents3.media.lad[0].jobs.headD (job 1)),
     by delta Running; decide +kernel⟩,
   ⟨⟨[], up⟩, 0, 1, by delta Running; decide +kernel⟩,
   ⟨⟨[], up⟩, 0, 4294967295, by delta Running; decide +kernel⟩,
   ⟨⟨[], up⟩, 0, 1, by delta Running; decide +kernel⟩,
   ⟨⟨[], ladderJobsAndEvents3⟩, 0, 983045, (ladderJobsAndEvents3.media.lad[0].jobs.headD (job 1)),
     ladderJobsAndEvents3.media.lad[0].jobs.tail, by delta Running; decide +kernel⟩,
   ⟨⟨[], ladderJobsAndEvents3⟩, 0, ((ladderJobsAndEvents3.ladJob 0).getD (job 1)), by delta Running; decide +kernel⟩,
   ⟨⟨[], up⟩, 0, by delta Running; decide +kernel⟩,
   ⟨⟨[], ladderJobsAndEvents16⟩, 0, (ladderJobsAndEvents16.media.lad[0].jobs.headD (job 1)),
     ladderJobsAndEvents16.media.lad[0].jobs.tail,
     (((ladderJobsAndEvents16.media.lad[0].jobs.headD (job 1)).ending).getD (.recovered, 0)).1,
     (((ladderJobsAndEvents16.media.lad[0].jobs.headD (job 1)).ending).getD (.recovered, 0)).2,
     by delta Running; decide +kernel⟩⟩

def ladderPrimitives0 : Mach := ((up.withJob (job 1)).holdsWord 8 (wd 0 16))
def ladderPrimitives1 : Mach := ((((up.withJob (job 1)).setGp 8 1 0x101).holdsWord 8 (wd 0 16)).set (LAD_CTRL_EN 0) 1)
def ladderPrimitives2 : Mach := ((up.withJob (job 1)).holdsWord 8 (wd 0 17))
def ladderPrimitives3 : Mach := ((((up.withJob (job 11)).setGp 8 1 11).holdsWord 8 (wd 0 17)).set (LAD_CTRL_EN 0) 1)
def ladderPrimitives4 : Mach := (((((up.withJob { job 10 with heaterOk := false }).setGp 8 1 10).setS (LAD_PARAM_HEAT1 0) 1).holdsWord 8 (wd 0 17)).set (LAD_CTRL_EN 0) 1)
def ladderPrimitives5 : Mach := ((up.withJob (job 1)).holdsWord 8 (wd 0 18))
def ladderPrimitives6 : Mach := (((up.withJob { job 11 with capSlot := some 0 }).withSlot 0 .captured true).holdsWord 8 (wd 0 18))
def ladderPrimitives7 : Mach := ((up.withJob (job 1)).holdsWord 8 (wd 0 19))
def ladderPrimitives8 : Mach := ((((up.withJob { job 11 with capSlot := some 0 }).holdsWord 8 (wd 0 19)).withJob (job 15)).set (LAD_CTRL_EN 0) 1)
def ladderPrimitives9 : Mach := ((up.withJob { job 1 with ending := some (.recovered, 1) }).holdsWord 8 (wd 0 20))
theorem test_hyps_LadderPrimitives :
    (∃ (s : State) (a : Actuator) (inp : Bool) (u : Micro) (next : Nat) (j : LadJob), Running (15 + a.val) (16 + a.val) s.m ∧
      AtWord s.m (seqLS a) inp u next ∧ u.alu = 0 ∧ s.m.ladJob a = some j ∧ u.xop = 16 ∧
      getBits (s.m.gp (seqLS a) u.xreg) 0 5 ≠ j.step) ∧
    (∃ (s : State) (a : Actuator) (inp : Bool) (u : Micro) (next : Nat) (j : LadJob) (k : Nat) (i : SampleIdx),
      Running (15 + a.val) (16 + a.val) s.m ∧ AtWord s.m (seqLS a) inp u next ∧ u.alu = 0 ∧ s.m.ladJob a = some j ∧
      u.xop = 16 ∧ getBits (s.m.gp (seqLS a) u.xreg) 0 5 = j.step ∧ getBits (s.m.gp (seqLS a) u.xreg) 8 5 = k ∧
      s.m.ladWorks a j = true ∧ k = j.attempts.length + 1 ∧ k ≤ stepAttempts j.step ∧ j.step ≤ 6 ∧ j.slot = some i ∧
      List.countP (fun x => x.result.isNone) j.attempts < 8) ∧
    (∃ (s : State) (a : Actuator) (inp : Bool) (u : Micro) (next : Nat) (j : LadJob), Running (15 + a.val) (16 + a.val) s.m ∧
      AtWord s.m (seqLS a) inp u next ∧ u.alu = 0 ∧ s.m.ladJob a = some j ∧ u.xop = 17 ∧
      getBits (s.m.gp (seqLS a) u.xreg) 0 5 ≠ j.step) ∧
    (∃ (s : State) (a : Actuator) (inp : Bool) (u : Micro) (next : Nat) (j : LadJob), Running (15 + a.val) (16 + a.val) s.m ∧
      AtWord s.m (seqLS a) inp u next ∧ u.alu = 0 ∧ s.m.ladJob a = some j ∧ u.xop = 17 ∧
      getBits (s.m.gp (seqLS a) u.xreg) 0 5 = j.step ∧ s.m.ladWorks a j = true ∧ 7 ≤ j.step ∧ j.step ≠ 15 ∧ j.armed = false ∧
      j.armWait = false ∧ j.capSlot = none ∧ j.step ≠ 10 ∧ j.step ≠ 13) ∧
    (∃ (s : State) (a : Actuator) (inp : Bool) (u : Micro) (next : Nat) (j : LadJob) (h : Int),
      Running (15 + a.val) (16 + a.val) s.m ∧ AtWord s.m (seqLS a) inp u next ∧ u.alu = 0 ∧ s.m.ladJob a = some j ∧
      u.xop = 17 ∧ getBits (s.m.gp (seqLS a) u.xreg) 0 5 = j.step ∧ s.m.ladWorks a j = true ∧ 7 ≤ j.step ∧ j.step ≠ 15 ∧
      j.armed = false ∧ j.armWait = false ∧ j.capSlot = none ∧ h ≠ 0 ∧ j.heaterOk = false ∧ (j.step = 10 ∧
      h = s.m.getS (LAD_PARAM_HEAT1 a.val) ∨ j.step = 13 ∧ h = s.m.getS (LAD_PARAM_HEAT2 a.val))) ∧
    (∃ (s : State) (a : Actuator) (inp : Bool) (u : Micro) (next : Nat) (j : LadJob), Running (15 + a.val) (16 + a.val) s.m ∧
      AtWord s.m (seqLS a) inp u next ∧ u.alu = 0 ∧ s.m.ladJob a = some j ∧ u.xop = 18 ∧ stepAverages j.step = 0) ∧
    (∃ (s : State) (a : Actuator) (inp : Bool) (u : Micro) (next : Nat) (j : LadJob) (i : SampleIdx),
      Running (15 + a.val) (16 + a.val) s.m ∧ AtWord s.m (seqLS a) inp u next ∧ u.alu = 0 ∧ s.m.ladJob a = some j ∧
      u.xop = 18 ∧ stepAverages j.step ≠ 0 ∧ j.capSlot = some i ∧ s.m.media.chan[streamOf a j.ssel].slots[i].framed = true ∧
      j.added.length < stepAverages j.step) ∧
    (∃ (s : State) (a : Actuator) (inp : Bool) (u : Micro) (next : Nat) (j : LadJob), Running (15 + a.val) (16 + a.val) s.m ∧
      AtWord s.m (seqLS a) inp u next ∧ u.alu = 0 ∧ s.m.ladJob a = some j ∧ u.xop = 19 ∧ j.step ≠ 15) ∧
    (∃ (s : State) (a : Actuator) (inp : Bool) (u : Micro) (next : Nat) (j : LadJob), Running (15 + a.val) (16 + a.val) s.m ∧
      AtWord s.m (seqLS a) inp u next ∧ u.alu = 0 ∧ s.m.ladJob a = some j ∧ u.xop = 19 ∧ j.step = 15 ∧
      s.m.ladWorks a j = true) ∧
    (∃ (s : State) (a : Actuator) (inp : Bool) (u : Micro) (next : Nat) (j : LadJob) (o : JobOutcome) (step : Nat),
      Running (15 + a.val) (16 + a.val) s.m ∧ AtWord s.m (seqLS a) inp u next ∧ u.alu = 0 ∧ s.m.ladJob a = some j ∧
      u.xop = 20 ∧ j.ending = some (o, step) ∧ j.recorded = false ∧ s.m.ladRoom a = true) :=
  ⟨⟨⟨[], ladderPrimitives0⟩, 0, true, (microOf (wd 0 16)), 0, ((ladderPrimitives0.ladJob 0).getD (job 1)),
    by delta Running; decide +kernel, atWord_of (wd 0 16) (by decide +kernel), by decide +kernel, by decide +kernel,
    by decide +kernel, by decide +kernel⟩,
   ⟨⟨[], ladderPrimitives1⟩, 0, true, (microOf (wd 0 16)), 0, ((ladderPrimitives1.ladJob 0).getD (job 1)),
     (((ladderPrimitives1.ladJob 0).getD (job 1)).attempts.length + 1 : Nat),
     ((((ladderPrimitives1.ladJob 0).getD (job 1)).slot).getD (0)), by delta Running; decide +kernel,
     atWord_of (wd 0 16) (by decide +kernel), by decide +kernel, by decide +kernel, by decide +kernel, by decide +kernel,
     by decide +kernel, by decide +kernel, by decide +kernel, by decide +kernel, by decide +kernel, by decide +kernel,
     by decide +kernel⟩,
   ⟨⟨[], ladderPrimitives2⟩, 0, true, (microOf (wd 0 17)), 0, ((ladderPrimitives2.ladJob 0).getD (job 1)),
     by delta Running; decide +kernel, atWord_of (wd 0 17) (by decide +kernel), by decide +kernel, by decide +kernel,
     by decide +kernel, by decide +kernel⟩,
   ⟨⟨[], ladderPrimitives3⟩, 0, true, (microOf (wd 0 17)), 0, ((ladderPrimitives3.ladJob 0).getD (job 1)),
     by delta Running; decide +kernel, atWord_of (wd 0 17) (by decide +kernel), by decide +kernel, by decide +kernel,
     by decide +kernel, by decide +kernel, by decide +kernel, by decide +kernel, by decide +kernel, by decide +kernel,
     by decide +kernel, by decide +kernel, by decide +kernel, by decide +kernel⟩,
   ⟨⟨[], ladderPrimitives4⟩, 0, true, (microOf (wd 0 17)), 0, ((ladderPrimitives4.ladJob 0).getD (job 1)), 1,
     by delta Running; decide +kernel, atWord_of (wd 0 17) (by decide +kernel), by decide +kernel, by decide +kernel,
     by decide +kernel, by decide +kernel, by decide +kernel, by decide +kernel, by decide +kernel, by decide +kernel,
     by decide +kernel, by decide +kernel, by decide +kernel, by decide +kernel, by decide +kernel⟩,
   ⟨⟨[], ladderPrimitives5⟩, 0, true, (microOf (wd 0 18)), 0, ((ladderPrimitives5.ladJob 0).getD (job 1)),
     by delta Running; decide +kernel, atWord_of (wd 0 18) (by decide +kernel), by decide +kernel, by decide +kernel,
     by decide +kernel, by decide +kernel⟩,
   ⟨⟨[], ladderPrimitives6⟩, 0, true, (microOf (wd 0 18)), 0, ((ladderPrimitives6.ladJob 0).getD (job 1)),
     ((((ladderPrimitives6.ladJob 0).getD (job 1)).capSlot).getD (0)), by delta Running; decide +kernel,
     atWord_of (wd 0 18) (by decide +kernel), by decide +kernel, by decide +kernel, by decide +kernel, by decide +kernel,
     by decide +kernel, by decide +kernel, by decide +kernel⟩,
   ⟨⟨[], ladderPrimitives7⟩, 0, true, (microOf (wd 0 19)), 0, ((ladderPrimitives7.ladJob 0).getD (job 1)),
     by delta Running; decide +kernel, atWord_of (wd 0 19) (by decide +kernel), by decide +kernel, by decide +kernel,
     by decide +kernel, by decide +kernel⟩,
   ⟨⟨[], ladderPrimitives8⟩, 0, true, (microOf (wd 0 19)), 0, ((ladderPrimitives8.ladJob 0).getD (job 1)),
     by delta Running; decide +kernel, atWord_of (wd 0 19) (by decide +kernel), by decide +kernel, by decide +kernel,
     by decide +kernel, by decide +kernel, by decide +kernel⟩,
   ⟨⟨[], ladderPrimitives9⟩, 0, true, (microOf (wd 0 20)), 0, ((ladderPrimitives9.ladJob 0).getD (job 1)),
     ((((ladderPrimitives9.ladJob 0).getD (job 1)).ending).getD (.recovered, 0)).1,
     ((((ladderPrimitives9.ladJob 0).getD (job 1)).ending).getD (.recovered, 0)).2, by delta Running; decide +kernel,
     atWord_of (wd 0 20) (by decide +kernel), by decide +kernel, by decide +kernel, by decide +kernel, by decide +kernel,
     by decide +kernel, by decide +kernel⟩⟩

def servoWedges1 : Mach := ((up.set (SRV_CTRL_SLOT_EN0 0) 1).set (SRV_STAT_LOCK 0) 1)
def servoWedges2 : Mach := (up.set (SRV_CTRL_SLOT_EN0 0) 1)
def servoWedges6 : Mach := (up.setCal fun c => { c with demands := [⟨scPort 0, 0, 0, 1, 0⟩] })
def servoWedges7 : Mach := (up.setSrvSlot 0 0 fun x => { x with rroFetch := some 0 })
def servoWedges100 : Mach := (up.setFlag (SRV_CTRL_SLOT_EN0 0) true)
theorem test_hyps_ServoWedges :
    (∃ (s : State) (a : Actuator) (k : HeadSlot), Running (15 + a.val) (20 + a.val) s.m ∧
      (s.m.slotEn a k = false ∨ s.m.slotLocked a k = false)) ∧
    (∃ (s : State) (a : Actuator) (k : HeadSlot), Running (15 + a.val) (20 + a.val) s.m ∧ s.m.slotEn a k = true ∧
      s.m.slotLocked a k = true) ∧
    (∃ (s : State) (a : Actuator) (k : HeadSlot) (x : List Bool) (y : List Bool), Running (15 + a.val) (20 + a.val) s.m ∧
      s.m.slotEn a k = true ∧ k = s.m.wslot a ∧ (s.m.get (SRV_CFG_SREADER a.val) ≠ 2 → samSearch (s.m.samTh a) x = none) ∧
      (s.m.get (SRV_CFG_SREADER a.val) ≠ 1 → samSearch (s.m.samTh a) y = none)) ∧
    (∃ (s : State) (a : Actuator) (k : HeadSlot) (x : List Bool) (y : List Bool), Running (15 + a.val) (20 + a.val) s.m ∧
      (s.m.slotEn a k = false ∨ k ≠ s.m.wslot a ∨ s.m.get (SRV_CFG_SREADER a.val) ≠ 2 ∧
      (samSearch (s.m.samTh a) x).isSome = true ∨ s.m.get (SRV_CFG_SREADER a.val) ≠ 1 ∧
      (samSearch (s.m.samTh a) y).isSome = true)) ∧
    (∃ (s : State) (a : Actuator) (k : HeadSlot), Running (15 + a.val) (20 + a.val) s.m ∧ s.m.slotEn a k = false) ∧
    (∃ (s : State) (a : Actuator) (k : HeadSlot), Running (15 + a.val) (20 + a.val) s.m ∧
      s.m.motion.srv[a].slots[k].rroFetch = none) ∧
    (∃ (s : State) (a : Actuator), Running (15 + a.val) (20 + a.val) s.m ∧ s.m.portQuiet (scPort a) = false) ∧
    (∃ (s : State) (a : Actuator) (k : HeadSlot) (addr : Nat), Running (15 + a.val) (20 + a.val) s.m ∧
      s.m.motion.srv[a].slots[k].rroFetch = some addr ∧ s.m.portQuiet (scPort a) = true) ∧
    (∃ (s : State) (a : Actuator) (k : HeadSlot) (f : WedgeField), Running (15 + a.val) (20 + a.val) s.m ∧
      s.m.slotEn a k = true ∧ s.m.demodulate a k f = none) ∧
    (∃ (s : State) (a : Actuator) (k : HeadSlot) (f : WedgeField) (y : Int) (src : Nat) (wedge : Nat) (w : Nat),
      Running (15 + a.val) (20 + a.val) s.m ∧ s.m.slotEn a k = true ∧ s.m.demodulate a k f = some (y, src, wedge, w)) :=
  ⟨⟨⟨[], up⟩, 0, 0, by delta Running; decide +kernel⟩,
   ⟨⟨[], servoWedges1⟩, 0, 0, by delta Running; decide +kernel⟩,
   ⟨⟨[], servoWedges2⟩, 0, (servoWedges2.wslot 0 : HeadSlot), ([]), ([]), by delta Running; decide +kernel⟩,
   ⟨⟨[], up⟩, 0, 0, ([]), ([]), by delta Running; decide +kernel⟩,
   ⟨⟨[], up⟩, 0, 0, by delta Running; decide +kernel⟩,
   ⟨⟨[], up⟩, 0, 0, by delta Running; decide +kernel⟩,
   ⟨⟨[], servoWedges6⟩, 0, by delta Running; decide +kernel⟩,
   ⟨⟨[], servoWedges7⟩, 0, 0, ((servoWedges7.motion.srv[0].slots[0].rroFetch).getD (0)), by delta Running; decide +kernel⟩,
   ⟨⟨[], servoWedges100⟩, 0, 0, ⟨⟨[], ⟨0, []⟩, ⟨0, []⟩, ⟨0, []⟩, ⟨0, []⟩⟩, ⟨[], ⟨0, []⟩, ⟨0, []⟩, ⟨0, []⟩, ⟨0, []⟩⟩, 0⟩,
     by delta Running; decide +kernel⟩,
   ⟨⟨[], up.setFlag (SRV_CTRL_SLOT_EN0 0) true⟩, 0, 0, ⟨wedgeField, wedgeField, 0⟩, 0, 0, 0, 3072,
     by delta Running; decide +kernel⟩⟩

def servoPostsAndInstants0 : Mach := (up.setSrv 0 fun x => { x with leadNext := some 1 })
def servoPostsAndInstants1 : Mach := (up.setPrg 0 fun x => { x with aborting := true })
def servoPostsAndInstants2 : Mach := (up.setSrv 0 fun x => { x with faulted := true })
def servoPostsAndInstants5 : Mach := (up.setSrv 0 fun x => { x with curSeq := some 1, post := some ⟨1, 0, 0, 0, false⟩ })
def servoPostsAndInstants6 : Mach := (up.setSrv 0 fun x => { x with curSeq := some 1, closed := true })
def servoPostsAndInstants7 : Mach := (up.setSrv 0 fun x => { x with curSeq := some 1 })
theorem test_hyps_ServoPostsAndInstants :
    (∃ (s : State) (a : Actuator) (k : HeadSlot), Running (15 + a.val) (20 + a.val) s.m ∧
      s.m.motion.srv[a].leadNext = some k) ∧
    (∃ (s : State) (a : Actuator), Running (15 + a.val) (20 + a.val) s.m ∧ s.m.motion.prg[a].aborting = true ∧
      s.m.motion.prg[a].ahead = false) ∧
    (∃ (s : State) (a : Actuator), Running (15 + a.val) (20 + a.val) s.m ∧ s.m.outOfService a = true) ∧
    (∃ (s : State) (a : Actuator), Running (15 + a.val) (20 + a.val) s.m ∧ s.m.motion.srv[a].faulted = true) ∧
    (∃ (s : State) (a : Actuator) (seq : BitVec 8), Running (15 + a.val) (20 + a.val) s.m ∧
      s.m.motion.srv[a].faulted = false ∧ s.m.motion.srv[a].curSeq ≠ some seq.toNat) ∧
    (∃ (s : State) (a : Actuator) (seq : BitVec 8), Running (15 + a.val) (20 + a.val) s.m ∧
      s.m.motion.srv[a].faulted = false ∧ s.m.motion.srv[a].curSeq = some seq.toNat ∧ s.m.motion.srv[a].post.isSome = true) ∧
    (∃ (s : State) (a : Actuator) (seq : BitVec 8), Running (15 + a.val) (20 + a.val) s.m ∧
      s.m.motion.srv[a].faulted = false ∧ s.m.motion.srv[a].curSeq = some seq.toNat ∧ s.m.motion.srv[a].post = none ∧
      s.m.motion.srv[a].closed = true) ∧
    (∃ (s : State) (a : Actuator) (seq : BitVec 8), Running (15 + a.val) (20 + a.val) s.m ∧
      s.m.motion.srv[a].faulted = false ∧ s.m.motion.srv[a].curSeq = some seq.toNat ∧ s.m.motion.srv[a].post = none ∧
      s.m.motion.srv[a].closed = false) ∧
    (∃ (s : State) (a : Actuator), Running (15 + a.val) (20 + a.val) s.m ∧
      (s.m.motion.srv[a].closed = true ∨ s.m.motion.srv[a].curSeq = none)) ∧
    (∃ (s : State) (a : Actuator), Running (15 + a.val) (20 + a.val) s.m ∧ s.m.motion.srv[a].closed = false ∧
      s.m.motion.srv[a].curSeq.isSome = true ∧ s.m.motion.srv[a].post.isSome = true) ∧
    (∃ (s : State) (a : Actuator), Running (15 + a.val) (20 + a.val) s.m ∧ s.m.motion.srv[a].closed = false ∧
      s.m.motion.srv[a].curSeq.isSome = true ∧ s.m.motion.srv[a].post = none) :=
  ⟨⟨⟨[], servoPostsAndInstants0⟩, 0, (servoPostsAndInstants0.motion.srv[0].leadNext.getD (0)),
    by delta Running; decide +kernel⟩,
   ⟨⟨[], servoPostsAndInstants1⟩, 0, by delta Running; decide +kernel⟩,
   ⟨⟨[], servoPostsAndInstants2⟩, 0, by delta Running; decide +kernel⟩,
   ⟨⟨[], servoPostsAndInstants2⟩, 0, by delta Running; decide +kernel⟩,
   ⟨⟨[], up⟩, 0, 1, by delta Running; decide +kernel⟩,
   ⟨⟨[], servoPostsAndInstants5⟩, 0, 1, by delta Running; decide +kernel⟩,
   ⟨⟨[], servoPostsAndInstants6⟩, 0, 1, by delta Running; decide +kernel⟩,
   ⟨⟨[], servoPostsAndInstants7⟩, 0, 1, by delta Running; decide +kernel⟩,
   ⟨⟨[], up⟩, 0, by delta Running; decide +kernel⟩,
   ⟨⟨[], servoPostsAndInstants5⟩, 0, by delta Running; decide +kernel⟩,
   ⟨⟨[], servoPostsAndInstants7⟩, 0, by delta Running; decide +kernel⟩⟩

def servoWrites0 : Mach := (up.setBitAt (SRV_STAT_LOCK 0) 0 true)
def servoWrites2 : Mach := ((up.withJob { job 11 with armed := true }).set (PRG_TGT_TARGET 0) 8192)
def servoWrites5 : Mach := ((up.setPrg 0 fun x => { x with planning := [(8192, false)] }).set (PRG_MAXTRK_MAXTRK 0) 0)
def servoWrites6 : Mach := (up.setPrg 0 fun x => { x with planning := [(0, false)] })
def servoWrites101 : Mach := (up.setPrg 0 fun x => { x with planning := [(4096, false)] })
def servoWrites102 : Mach := ((up.setPrg 0 fun x => { x with planning := [(4096, true)], parts := [{ profile with v := 10 ^ 14 }] }).set (PRG_STAT_STATE 0) 3)
theorem test_hyps_ServoWrites :
    (∃ (s : State) (a : Actuator) (k : HeadSlot), Running (15 + a.val) (20 + a.val) s.m ∧ s.m.profileIdle a = true ∧
      s.m.slotLocked a k = true) ∧
    (∃ (s : State) (a : Actuator) (k : HeadSlot), Running (15 + a.val) (20 + a.val) s.m ∧
      (s.m.profileIdle a = false ∨ s.m.slotLocked a k = false)) ∧
    (∃ (s : State) (a : Actuator), Running 20 29 s.m ∧ s.m.ladderKeeps a (s.m.get (PRG_TGT_TARGET a.val)) = true) ∧
    (∃ (s : State) (a : Actuator), Running 20 29 s.m ∧ s.m.ladderKeeps a (s.m.get (PRG_TGT_TARGET a.val)) = false) ∧
    (∃ (s : State) (a : Actuator), Running 20 29 s.m ∧ s.m.motion.prg[a].planning = []) ∧
    (∃ (s : State) (a : Actuator) (tgt : Int) (running : Bool) (rest : List (Int × Bool)), Running 20 29 s.m ∧
      s.m.motion.prg[a].planning = (tgt, running) :: rest ∧ ↑(s.m.get (PRG_MAXTRK_MAXTRK a.val)) < tgt / 4096) ∧
    (∃ (s : State) (a : Actuator) (tgt : Int) (running : Bool) (rest : List (Int × Bool)), Running 20 29 s.m ∧
      s.m.motion.prg[a].planning = (tgt, running) :: rest ∧ tgt / 4096 ≤ ↑(s.m.get (PRG_MAXTRK_MAXTRK a.val)) ∧
      (running = false ∨ s.m.get (PRG_STAT_STATE a.val) ≠ 3) ∧ tgt = ↑(s.m.get (PRG_REFP_REF a.val))) ∧
    (∃ (s : State) (a : Actuator) (tgt : Int) (running : Bool) (rest : List (Int × Bool)) (plan : Profile),
      Running 20 29 s.m ∧ s.m.motion.prg[a].planning = (tgt, running) :: rest ∧
      tgt / 4096 ≤ ↑(s.m.get (PRG_MAXTRK_MAXTRK a.val)) ∧ (running = false ∨ s.m.get (PRG_STAT_STATE a.val) ≠ 3) ∧
      tgt ≠ ↑(s.m.get (PRG_REFP_REF a.val)) ∧
      planMove (↑(s.m.get (PRG_REFP_REF a.val))) (tgt - ↑(s.m.get (PRG_REFP_REF a.val))) (s.m.planLimits a) = some plan) ∧
    (∃ (s : State) (a : Actuator) (tgt : Int) (running : Bool) (rest : List (Int × Bool)), Running 20 29 s.m ∧
      s.m.motion.prg[a].planning = (tgt, running) :: rest ∧ tgt / 4096 ≤ ↑(s.m.get (PRG_MAXTRK_MAXTRK a.val)) ∧
      running = true ∧ s.m.get (PRG_STAT_STATE a.val) = 3 ∧ tgt ≠ s.m.motion.prg[a].target ∧ s.m.headroom a = none) :=
  ⟨⟨⟨[], servoWrites0⟩, 0, 0, by delta Running; decide +kernel⟩,
   ⟨⟨[], up⟩, 0, 0, by delta Running; decide +kernel⟩,
   ⟨⟨[], servoWrites2⟩, 0, by delta Running; decide +kernel⟩,
   ⟨⟨[], up⟩, 0, by delta Running; decide +kernel⟩,
   ⟨⟨[], up⟩, 0, by delta Running; decide +kernel⟩,
   ⟨⟨[], servoWrites5⟩, 0, 8192, false, [], by delta Running; decide +kernel⟩,
   ⟨⟨[], servoWrites6⟩, 0, (↑(servoWrites6.get (PRG_REFP_REF (0 : Actuator).val)) : Int), false, ([]),
     by delta Running; decide +kernel⟩,
   ⟨⟨[], servoWrites101⟩, 0, 4096, false, [], ((planMove 0 4096 (servoWrites101.planLimits 0)).getD profile),
     by delta Running; decide +kernel⟩,
   ⟨⟨[], servoWrites102⟩, 0, 4096, true, [], by delta Running; decide +kernel⟩⟩

def quadrilleAndActuators3 : Mach := ((fun m : Mach => ({ m with motion := { m.motion with tdgTemp := updAt m.motion.tdgTemp 0 fun _ => some 1 } } : Mach)) up)
def quadrilleAndActuators4 : Mach := ((fun m : Mach => ({ m with motion := { m.motion with tdgTemp := updAt m.motion.tdgTemp 0 fun _ => some 20 } } : Mach)) up)
def quadrilleAndActuators7 : Mach := ((up.set (PRG_STAT_STATE 0) 2).setPrg 0 fun x => { x with waiting := some profile })
def quadrilleAndActuators8 : Mach := (((up.set (PRG_STAT_STATE 0) 2).setPrg 0 (fun x => { x with waiting := some profile }) |>.setPrg 1 fun x => { x with admitted := true }).set (QDR_KACC_EST 0) 65535)
def quadrilleAndActuators9 : Mach := ((up.set (PRG_STAT_STATE 0) 2).setSrv 0 fun x => { x with faulted := true })
def quadrilleAndActuators13 : Mach := ((up.set (QDR_ACT_HEAD_DEPOP 0) 63))
def quadrilleAndActuators14 : Mach := ((up.set (QDR_ACT_HEAD_DEPOP 0) 63).set (QDR_ACT_PARKED 0) 0)
def quadrilleAndActuators16 : Mach := (up.set (SRV_STAT_LOCK 0) 1)
theorem test_hyps_QuadrilleAndActuators :
    (∃ (s : State) (a : Actuator), s.m.motion.srv[a].faulted = true ∧
      s.m.get { addr := REG_SRV_FAULT a.val, lo := 0, w := 4 } = 0 ∧ s.m.is (QDR_ACT_PARKED a.val) = true) ∧
    (∃ (s : State) (a : Actuator),
      (s.m.motion.srv[a].faulted = false ∨ s.m.get { addr := REG_SRV_FAULT a.val, lo := 0, w := 4 } ≠ 0 ∨ s.m.is (QDR_ACT_PARKED a.val) = false)) ∧
    (∃ (s : State) (a : Actuator), s.m.motion.tdgTemp[a] = none) ∧
    (∃ (s : State) (a : Actuator) (temp : Int) (old : Int), s.m.motion.tdgTemp[a] = some old ∧ (temp - old).natAbs < 3) ∧
    (∃ (s : State) (a : Actuator) (temp : Int) (old : Int), s.m.motion.tdgTemp[a] = some old ∧ 3 ≤ (temp - old).natAbs) ∧
    (∃ (s : State) (a : Actuator), Running (15 + a.val) (24 + a.val) s.m) ∧
    (∃ (s : State), Running 20 30 s.m ∧ s.m.oldestAdmit = none) ∧
    (∃ (s : State) (a : Actuator) (plan : Profile), Running 20 30 s.m ∧ s.m.oldestAdmit = some a ∧
      s.m.motion.prg[a].waiting = some plan ∧ s.m.outOfService a = false ∧ ((∀ (b : Actuator),
      s.m.admitted b = false) ∨ s.m.get (QDR_KACC_EST a.val) + s.m.admittedTotal ≤ s.m.get QDR_TORQ_BUDGET)) ∧
    (∃ (s : State) (a : Actuator) (plan : Profile) (b : Actuator), Running 20 30 s.m ∧ s.m.oldestAdmit = some a ∧
      s.m.motion.prg[a].waiting = some plan ∧ s.m.admitted b = true ∧
      s.m.get QDR_TORQ_BUDGET < s.m.get (QDR_KACC_EST a.val) + s.m.admittedTotal) ∧
    (∃ (s : State) (a : Actuator), Running 20 30 s.m ∧ s.m.oldestAdmit = some a ∧ s.m.outOfService a = true) ∧
    (∃ (s : State) (w : Word), Running 20 30 s.m ∧ getBits w 16 8 / 128 = s.m.get QDR_CTRL_BANK) ∧
    (∃ (s : State) (w : Word), Running 20 30 s.m ∧ getBits w 16 8 / 128 ≠ s.m.get QDR_CTRL_BANK) ∧
    (∃ (s : State) (a : Actuator) (bad : BitVec 24) (h : Nat) (k : Nat), Running 20 30 s.m ∧ h < 6 ∧ k < 4 ∧
      headExists a h = true ∧ s.m.bitAt (QDR_ACT_HEAD_DEPOP a.val) h = false ∧ s.m.tableFresh a h k = false ∧
      bad.getLsbD (4 * h + k) = true) ∧
    (∃ (s : State) (a : Actuator) (bad : BitVec 24), Running 20 30 s.m ∧ (s.m.testTables a bad).headsGone a = true ∧
      s.m.is (QDR_ACT_PARKED a.val) = true ∧ s.m.rst.coresUp = true) ∧
    (∃ (s : State) (a : Actuator) (bad : BitVec 24), Running 20 30 s.m ∧ (s.m.testTables a bad).headsGone a = true ∧
      s.m.is (QDR_ACT_PARKED a.val) = false) ∧
    (∃ (s : State) (a : Actuator) (bad : BitVec 24), Running 20 30 s.m ∧ (s.m.testTables a bad).headsGone a = false ∧
      (s.m.motion.srv[a].faulted = true ∨ s.m.is (QDR_ACT_DEPOP a.val) = true ∨ s.m.slotLocked a (s.m.leadSlot a) = false ∨ ∃ k,
      s.m.slotEn a k = true ∧ s.m.bitAt (SRV_STAT_RRO_VALID a.val) k.val = false)) ∧
    (∃ (s : State) (a : Actuator) (bad : BitVec 24), Running 20 30 s.m ∧ (s.m.testTables a bad).headsGone a = false ∧
      s.m.motion.srv[a].faulted = false ∧ s.m.is (QDR_ACT_DEPOP a.val) = false ∧ s.m.slotLocked a (s.m.leadSlot a) = true ∧
      (∀ (k : HeadSlot), s.m.slotEn a k = true → s.m.bitAt (SRV_STAT_RRO_VALID a.val) k.val = true)) :=
  ⟨⟨⟨[], servoPostsAndInstants2⟩, 0, by decide +kernel⟩,
   ⟨⟨[], up⟩, 0, by decide +kernel⟩,
   ⟨⟨[], up⟩, 0, by decide +kernel⟩,
   ⟨⟨[], quadrilleAndActuators3⟩, 0, 0, (quadrilleAndActuators3.motion.tdgTemp[0].getD (0)), by decide +kernel⟩,
   ⟨⟨[], quadrilleAndActuators4⟩, 0, 0, (quadrilleAndActuators4.motion.tdgTemp[0].getD (0)), by decide +kernel⟩,
   ⟨⟨[], up⟩, 0, by delta Running; decide +kernel⟩,
   ⟨⟨[], up⟩, by delta Running; decide +kernel⟩,
   ⟨⟨[], quadrilleAndActuators7⟩, (quadrilleAndActuators7.oldestAdmit.getD (0)),
     ((quadrilleAndActuators7.motion.prg[(quadrilleAndActuators7.oldestAdmit.getD (0))].waiting).getD profile),
     by delta Running; decide +kernel⟩,
   ⟨⟨[], quadrilleAndActuators8⟩, (quadrilleAndActuators8.oldestAdmit.getD (0)),
     ((quadrilleAndActuators8.motion.prg[(quadrilleAndActuators8.oldestAdmit.getD (0))].waiting).getD profile), 1,
     by delta Running; decide +kernel⟩,
   ⟨⟨[], quadrilleAndActuators9⟩, (quadrilleAndActuators9.oldestAdmit.getD (0)), by delta Running; decide +kernel⟩,
   ⟨⟨[], up⟩, 1, by delta Running; decide +kernel⟩,
   ⟨⟨[], up⟩, 4294967295, by delta Running; decide +kernel⟩,
   ⟨⟨[], up⟩, 0, 1, 0, 0, by delta Running; decide +kernel⟩,
   ⟨⟨[], quadrilleAndActuators13⟩, 0, 0, by delta Running; decide +kernel, headsGone_depop (by decide +kernel),
     by decide +kernel, by decide +kernel⟩,
   ⟨⟨[], quadrilleAndActuators14⟩, 0, 0, by delta Running; decide +kernel, headsGone_depop (by decide +kernel),
     by decide +kernel⟩,
   ⟨⟨[], up⟩, 0, 0, by delta Running; decide +kernel, headsGone_kept (by decide +kernel), by decide +kernel⟩,
   ⟨⟨[], quadrilleAndActuators16⟩, 0, 0, by delta Running; decide +kernel, headsGone_kept (by decide +kernel),
     by decide +kernel, by decide +kernel, by decide +kernel, by decide +kernel⟩⟩

def headSequencer0 : Mach := ((up.holdsWord 16 (wd 0 18)).set (QDR_ACT_HEAD_DEPOP 0) 1)
def headSequencer1 : Mach := ((up.holdsWord 16 (wd 0 18)).set (QDR_ACT_PARKED 0) 0)
def headSequencer2 : Mach := ((up.holdsWord 16 (wd 0 18)).set (HSQ_SEL_VALID 0 1) 1)
def headSequencer3 : Mach := ((up.holdsWord 16 (wd 0 18)).set (HSQ_CTRL_EN 0) 1)
def headSequencer4 : Mach := ((up.set (HSQ_CTRL_EN 0) 1).holdsWord 16 (wd 0 16))
def headSequencer5 : Mach := (up.holdsWord 16 (wd 0 17))
def headSequencer6 : Mach := ((up.setHsq 0 fun h => { h with due := some moment }).holdsWord 16 (wd 0 19))
def headSequencer8 : Mach := (up.setHsq 0 fun h => { h with frame := some (.read 1 0) })
def headSequencer9 : Mach := (up.setHsq 0 fun h => { h with frame := some (.select 0 1 0) })
def headSequencer11 : Mach := (up.setHsq 0 fun h => { h with settling := updAt h.settling 0 fun _ => some 1 })
theorem test_hyps_HeadSequencer :
    (∃ (s : State) (a : Actuator) (inp : Bool) (u : Micro) (next : Nat), Running (15 + a.val) (24 + a.val) s.m ∧
      AtWord s.m (seqHS a) inp u next ∧ u.alu = 0 ∧ u.xop = 18 ∧
      s.m.bitAt (QDR_ACT_HEAD_DEPOP a.val) (getBits (s.m.gp (seqHS a) u.xreg) 24 3) = true) ∧
    (∃ (s : State) (a : Actuator) (inp : Bool) (u : Micro) (next : Nat), Running (15 + a.val) (24 + a.val) s.m ∧
      AtWord s.m (seqHS a) inp u next ∧ u.alu = 0 ∧ u.xop = 18 ∧
      s.m.bitAt (QDR_ACT_HEAD_DEPOP a.val) (getBits (s.m.gp (seqHS a) u.xreg) 24 3) = false ∧
      s.m.leadSlot a = Fin.ofNat 2 (getBits (s.m.gp (seqHS a) u.xreg) 28 1) ∧ s.m.is (QDR_ACT_PARKED a.val) = false) ∧
    (∃ (s : State) (a : Actuator) (inp : Bool) (u : Micro) (next : Nat) (h : Nat) (k : Fin 2),
      Running (15 + a.val) (24 + a.val) s.m ∧ AtWord s.m (seqHS a) inp u next ∧ u.alu = 0 ∧ u.xop = 18 ∧
      h = getBits (s.m.gp (seqHS a) u.xreg) 24 3 ∧ k = Fin.ofNat 2 (getBits (s.m.gp (seqHS a) u.xreg) 28 1) ∧
      s.m.bitAt (QDR_ACT_HEAD_DEPOP a.val) h = false ∧ (s.m.leadSlot a ≠ k ∨ s.m.is (QDR_ACT_PARKED a.val) = true) ∧
      s.m.holdsHead a (otherSlot k) h = true) ∧
    (∃ (s : State) (a : Actuator) (inp : Bool) (u : Micro) (next : Nat) (h : Nat) (k : Fin 2),
      Running (15 + a.val) (24 + a.val) s.m ∧ AtWord s.m (seqHS a) inp u next ∧ u.alu = 0 ∧ u.xop = 18 ∧
      h = getBits (s.m.gp (seqHS a) u.xreg) 24 3 ∧ k = Fin.ofNat 2 (getBits (s.m.gp (seqHS a) u.xreg) 28 1) ∧
      s.m.bitAt (QDR_ACT_HEAD_DEPOP a.val) h = false ∧ (s.m.leadSlot a ≠ k ∨ s.m.is (QDR_ACT_PARKED a.val) = true) ∧
      s.m.holdsHead a (otherSlot k) h = false ∧ s.m.motion.hsq[a].queued = [] ∧
      s.m.linkOpen a (selectFrame (s.m.gp (seqHS a) u.xreg)) = true) ∧
    (∃ (s : State) (a : Actuator) (inp : Bool) (u : Micro) (next : Nat) (f : Frame), Running (15 + a.val) (24 + a.val) s.m ∧
      AtWord s.m (seqHS a) inp u next ∧ u.alu = 0 ∧ f = Frame.write (BitVec.extractLsb' 0 22 (s.m.gp (seqHS a) u.xreg)) ∧
      u.xop = 16 ∧ s.m.linkOpen a f = true ∧ s.m.motion.hsq[a].queued = []) ∧
    (∃ (s : State) (a : Actuator) (inp : Bool) (u : Micro) (next : Nat) (f : Frame), Running (15 + a.val) (24 + a.val) s.m ∧
      AtWord s.m (seqHS a) inp u next ∧ u.alu = 0 ∧
      f = Frame.read u.xreg (BitVec.extractLsb' 0 22 (s.m.gp (seqHS a) u.xreg)) ∧ u.xop = 17 ∧
      (s.m.motion.hsq[a].frame.isSome = true ∨ s.m.is (HSQ_CTRL_EN a.val) = false ∨ s.m.gateUp a = true)) ∧
    (∃ (s : State) (a : Actuator) (inp : Bool) (u : Micro) (next : Nat) (g : GateMoment),
      Running (15 + a.val) (24 + a.val) s.m ∧ AtWord s.m (seqHS a) inp u next ∧ u.alu = 0 ∧ u.xop = 19 ∧
      s.m.motion.hsq[a].due = some g) ∧
    (∃ (s : State) (a : Actuator), Running (15 + a.val) (24 + a.val) s.m ∧ s.m.motion.hsq[a].frame = none) ∧
    (∃ (s : State) (a : Actuator) (r : Fin 32) (bits : BitVec 22), Running (15 + a.val) (24 + a.val) s.m ∧
      s.m.motion.hsq[a].frame = some (Frame.read r bits) ∧ r ≠ 0) ∧
    (∃ (s : State) (a : Actuator) (k : HeadSlot) (h : Nat) (bits : BitVec 22), Running (15 + a.val) (24 + a.val) s.m ∧
      s.m.motion.hsq[a].frame = some (Frame.select k h bits)) ∧
    (∃ (s : State) (a : Actuator) (k : HeadSlot), Running (15 + a.val) (24 + a.val) s.m ∧
      s.m.motion.hsq[a].settling[k] = none) ∧
    (∃ (s : State) (a : Actuator) (k : HeadSlot) (h : Nat), Running (15 + a.val) (24 + a.val) s.m ∧
      s.m.motion.hsq[a].settling[k] = some h) :=
  ⟨⟨⟨[], headSequencer0⟩, 0, true, (microOf (wd 0 18)), 0, by delta Running; decide +kernel,
    atWord_of (wd 0 18) (by decide +kernel), by decide +kernel, by decide +kernel, by decide +kernel⟩,
   ⟨⟨[], headSequencer1⟩, 0, true, (microOf (wd 0 18)), 0, by delta Running; decide +kernel,
     atWord_of (wd 0 18) (by decide +kernel), by decide +kernel, by decide +kernel, by decide +kernel, by decide +kernel,
     by decide +kernel⟩,
   ⟨⟨[], headSequencer2⟩, 0, true, (microOf (wd 0 18)), 0, 0, 0, by delta Running; decide +kernel,
     atWord_of (wd 0 18) (by decide +kernel), by decide +kernel, by decide +kernel, by decide +kernel, by decide +kernel,
     by decide +kernel, by decide +kernel, by decide +kernel⟩,
   ⟨⟨[], headSequencer3⟩, 0, true, (microOf (wd 0 18)), 0, 0, 0, by delta Running; decide +kernel,
     atWord_of (wd 0 18) (by decide +kernel), by decide +kernel, by decide +kernel, by decide +kernel, by decide +kernel,
     by decide +kernel, by decide +kernel, by decide +kernel, by decide +kernel, by decide +kernel⟩,
   ⟨⟨[], headSequencer4⟩, 0, true, (microOf (wd 0 16)), 0, (.write (BitVec.extractLsb' 0 22 (headSequencer4.gp 16 1))),
     by delta Running; decide +kernel, atWord_of (wd 0 16) (by decide +kernel), by decide +kernel, by decide +kernel,
     by decide +kernel, by decide +kernel, by decide +kernel⟩,
   ⟨⟨[], headSequencer5⟩, 0, true, (microOf (wd 0 17)), 0, (.read 1 (BitVec.extractLsb' 0 22 (headSequencer5.gp 16 1))),
     by delta Running; decide +kernel, atWord_of (wd 0 17) (by decide +kernel), by decide +kernel, by decide +kernel,
     by decide +kernel, by decide +kernel⟩,
   ⟨⟨[], headSequencer6⟩, 0, true, (microOf (wd 0 19)), 0, (headSequencer6.motion.hsq[0].due.getD moment),
     by delta Running; decide +kernel, atWord_of (wd 0 19) (by decide +kernel), by decide +kernel, by decide +kernel,
     by decide +kernel⟩,
   ⟨⟨[], up⟩, 0, by delta Running; decide +kernel⟩,
   ⟨⟨[], headSequencer8⟩, 0, 1, 0, by delta Running; decide +kernel⟩,
   ⟨⟨[], headSequencer9⟩, 0, 0, 1, 0, by delta Running; decide +kernel⟩,
   ⟨⟨[], up⟩, 0, 0, by delta Running; decide +kernel⟩,
   ⟨⟨[], headSequencer11⟩, 0, 0, ((headSequencer11.motion.hsq[0].settling[0]).getD (0)), by delta Running; decide +kernel⟩⟩

def spindleStart1 : Mach := (up.set SPN_STAT_STATE 1)
def spindleStart2 : Mach := (up.set SPN_STAT_STATE 2)
def spindleStart3 : Mach := (up.set SPN_STAT_STATE 3)
def spindleStart6 : Mach := ((up.setSpn fun x => { x with lossDue := true }).set SPN_STAT_STATE 5)
def spindleStart7 : Mach := (up.set SPN_STAT_STATE 5)
def spindleStart8 : Mach := (((up.setSpn fun x => { x with rampAcc := 200000 * 16000 }).set SPN_STAT_CONF 65535).set SPN_STAT_STATE 4)
def spindleStart10 : Mach := ((up.setSpn fun x => { x with obs := { x.obs with updates := 1, turn := 100, back := 100 } }).set SPN_STAT_STATE 5)
def spindleStart11 : Mach := (((up.setSpn fun x => { x with obs := { x.obs with updates := 1, turn := 100, back := 100 } }).setSpn fun x => { x with attempt := true }).set SPN_STAT_STATE 5)
def spindleStart12 : Mach := ((((up.setSpn fun x => { x with obs := { x.obs with updates := 1, turn := 100, load := some (200, 200) } }).set SPN_STAT_STATE 6).setSpn fun x => { x with obs := { x.obs with updates := 1, turn := 1, load := some (90, 90) } }).set SPN_PROM_HAND_RPM 65535)
def spindleStart13 : Mach := ((((up.set SPN_STAT_STATE 6).set SPN_STAT_CONF 31).set SPN_KE_NOM 100).setSpn fun x => { x with obs := { x.obs with updates := 100, turn := 682667, least := 1432394367, most := 1432394367, sum := 143239436700 } })
def spindleStart16 : Mach := ((up.setSpn fun x => { x with cleanPeriods := 1000 }).set SPN_STAT_STATE 5)
theorem test_hyps_SpindleStart :
    (∃ (s : State), Running 28 32 s.m ∧ s.m.spnState ≠ 1) ∧
    (∃ (s : State), Running 28 32 s.m ∧ s.m.spnState = 1) ∧
    (∃ (s : State), Running 28 32 s.m ∧ s.m.spnState = 2) ∧
    (∃ (s : State), Running 28 32 s.m ∧ s.m.spnState = 3) ∧
    (∃ (s : State), Running 28 32 s.m ∧ 1 ≤ s.m.spnState ∧ s.m.spnState ≤ 4) ∧
    (∃ (s : State), Running 28 32 s.m ∧ s.m.spnState ≠ 4 ∧ s.m.spnState ≠ 5) ∧
    (∃ (s : State), Running 28 32 s.m ∧ s.m.spnState = 5 ∧ s.m.spn.lossDue = true) ∧
    (∃ (s : State), Running 28 32 s.m ∧ s.m.spnState = 5 ∧ s.m.spn.lossDue = false ∧ s.m.spn.goal < 2 ^ 18) ∧
    (∃ (s : State), Running 28 32 s.m ∧ s.m.spnState = 4 ∧ s.m.rampAtHand = true ∧ 32 ≤ s.m.get SPN_STAT_CONF ∧
      s.m.is SPN_CTRL_KE_CHECK = false) ∧
    (∃ (s : State), Running 28 32 s.m ∧ s.m.periodMeas = none) ∧
    (∃ (s : State) (p : PeriodMeas), Running 28 32 s.m ∧ s.m.periodMeas = some p ∧ s.m.spnState = 5 ∧
      s.m.spn.lossDue = false ∧ (s.m.loadLost p = true ∨ 16 < p.back) ∧ s.m.spn.attempt = false) ∧
    (∃ (s : State) (p : PeriodMeas), Running 28 32 s.m ∧ s.m.periodMeas = some p ∧ s.m.spnState = 5 ∧
      s.m.spn.lossDue = false ∧ (s.m.loadLost p = true ∨ 16 < p.back) ∧ s.m.spn.attempt = true) ∧
    (∃ (s : State) (p : PeriodMeas), Running 28 32 s.m ∧ s.m.periodMeas = some p ∧ s.m.spnState = 6 ∧
      p.speed < s.m.handSpeed) ∧
    (∃ (s : State) (p : PeriodMeas), Running 28 32 s.m ∧ s.m.periodMeas = some p ∧ s.m.spnState = 6 ∧
      s.m.handSpeed ≤ p.speed ∧ s.m.periodTests p = (true, true, true, true) ∧ 31 ≤ s.m.get SPN_STAT_CONF) ∧
    (∃ (s : State), Running 28 32 s.m ∧ s.m.spnState ≠ 6) ∧
    (∃ (s : State), Running 28 32 s.m ∧ s.m.inhibitCause = true) ∧
    (∃ (s : State), Running 28 32 s.m ∧ s.m.inhibitCause = false ∧
      max 1 (s.m.get SPN_INH_REVS) * s.m.polePairs ≤ s.m.spn.cleanPeriods) :=
  ⟨⟨⟨[], up⟩, by delta Running; decide +kernel⟩,
   ⟨⟨[], spindleStart1⟩, by delta Running; decide +kernel⟩,
   ⟨⟨[], spindleStart2⟩, by delta Running; decide +kernel⟩,
   ⟨⟨[], spindleStart3⟩, by delta Running; decide +kernel⟩,
   ⟨⟨[], spindleStart1⟩, by delta Running; decide +kernel⟩,
   ⟨⟨[], up⟩, by delta Running; decide +kernel⟩,
   ⟨⟨[], spindleStart6⟩, by delta Running; decide +kernel⟩,
   ⟨⟨[], spindleStart7⟩, by delta Running; decide +kernel⟩,
   ⟨⟨[], spindleStart8⟩, by delta Running; decide +kernel⟩,
   ⟨⟨[], up⟩, by delta Running; decide +kernel⟩,
   ⟨⟨[], spindleStart10⟩, (spindleStart10.periodMeas.getD (⟨0, 0, 0, 0, 0, none⟩)), by delta Running; decide +kernel⟩,
   ⟨⟨[], spindleStart11⟩, (spindleStart11.periodMeas.getD (⟨0, 0, 0, 0, 0, none⟩)), by delta Running; decide +kernel⟩,
   ⟨⟨[], spindleStart12⟩, (spindleStart12.periodMeas.getD (⟨0, 0, 0, 0, 0, none⟩)), by delta Running; decide +kernel⟩,
   ⟨⟨[], spindleStart13⟩, (spindleStart13.periodMeas.getD ⟨0, 0, 0, 0, 0, none⟩), by delta Running; decide +kernel⟩,
   ⟨⟨[], up⟩, by delta Running; decide +kernel⟩,
   ⟨⟨[], up⟩, by delta Running; decide +kernel⟩,
   ⟨⟨[], spindleStart16⟩, by delta Running; decide +kernel⟩⟩

def spindleDemand0 : Mach := ((up.set SPN_CTRL_EN 1).set SPN_CURVE_CFG_L_ON 0)
def spindleDemand2 : Mach := ((up.set SPN_STAT_STATE 5).set SPN_BRK_FAULT 1)
def spindleDemand4 : Mach := (((up.set SPN_CTRL_EN 1).set SPN_STAT_STATE 5).set SPN_CURVE_CFG_L_ON 0)
def spindleDemand5 : Mach := ((up.setSpn fun x => { x with stopDue := true }).set SPN_STAT_STATE 5)
def spindleDemand8 : Mach := (up.set SPN_STAT_STATE 7)
theorem test_hyps_SpindleDemand :
    (∃ (s : State) (level : BitVec 8), Running 28 32 s.m ∧ (s.m.spnState = 0 ∨ s.m.spnState = 7) ∧
      s.m.is SPN_CTRL_EN = true ∧ s.m.levelOn ≤ level.toNat) ∧
    (∃ (s : State) (level : BitVec 8), Running 28 32 s.m ∧ s.m.spnState = 0 ∧ level.toNat < s.m.levelOn) ∧
    (∃ (s : State) (level : BitVec 8), Running 28 32 s.m ∧ s.m.spnState = 5 ∧ level.toNat < s.m.levelOff ∧
      s.m.stopRefused = true) ∧
    (∃ (s : State) (level : BitVec 8), Running 28 32 s.m ∧ s.m.spnState = 5 ∧ level.toNat < s.m.levelOff ∧
      s.m.stopRefused = false) ∧
    (∃ (s : State) (level : BitVec 8), Running 28 32 s.m ∧ s.m.spnState = 5 ∧ s.m.levelOff ≤ level.toNat ∧
      s.m.is SPN_CTRL_EN = true) ∧
    (∃ (s : State), Running 28 32 s.m ∧ s.m.spnState = 5 ∧ s.m.spn.stopDue = true ∧ s.m.allParked = true ∧
      s.m.stopRefused = false) ∧
    (∃ (s : State), Running 28 32 s.m ∧
      (s.m.spnState ≠ 5 ∨ s.m.spn.stopDue = false ∨ s.m.allParked = false ∨ s.m.stopRefused = true)) ∧
    (∃ (s : State), Running 28 32 s.m ∧ s.m.spnState ≠ 7) ∧
    (∃ (s : State), Running 28 32 s.m ∧ s.m.spnState = 7) :=
  ⟨⟨⟨[], spindleDemand0⟩, 1, by delta Running; decide +kernel⟩,
   ⟨⟨[], up⟩, 1, by delta Running; decide +kernel⟩,
   ⟨⟨[], spindleDemand2⟩, 1, by delta Running; decide +kernel⟩,
   ⟨⟨[], spindleStart7⟩, 1, by delta Running; decide +kernel⟩,
   ⟨⟨[], spindleDemand4⟩, 1, by delta Running; decide +kernel⟩,
   ⟨⟨[], spindleDemand5⟩, by delta Running; decide +kernel⟩,
   ⟨⟨[], up⟩, by delta Running; decide +kernel⟩,
   ⟨⟨[], up⟩, by delta Running; decide +kernel⟩,
   ⟨⟨[], spindleDemand8⟩, by delta Running; decide +kernel⟩⟩

def driverFaultsAndOvervoltage2 : Mach := (up.setDie fun d => { d with ocOnce := updAt d.ocOnce 0 fun _ => true })
def driverFaultsAndOvervoltage3 : Mach := (up.setDie fun d => { d with parked := updAt d.parked 0 fun _ => false })
def driverFaultsAndOvervoltage4 : Mach := (up.set SPN_BRK_FAULT 1 |>.setDie fun d => { d with shorted := true })
def driverFaultsAndOvervoltage5 : Mach := (up.setSpn fun x => { x with selfTest := true })
def driverFaultsAndOvervoltage6 : Mach := (up.set SPN_BRK_ON 1)
def driverFaultsAndOvervoltage11 : Mach := (up.setDie fun d => { d with level := 3 })
def driverFaultsAndOvervoltage14 : Mach := (up.setDie fun d => { d with level := 4 })
theorem test_hyps_DriverFaultsAndOvervoltage :
    (∃ (s : State), s.m.clockGood 28 = true) ∧
    (∃ (s : State) (a : Actuator), s.m.die.ocOnce[a] = false) ∧
    (∃ (s : State) (a : Actuator), s.m.die.ocOnce[a] = true) ∧
    (∃ (s : State) (a : Actuator), s.m.die.parked[a] = false ∧ s.m.die.retract[a] = RetractPhase.none ∧
      s.m.die.bridgeOff[a] = false ∧ s.m.die.level ≠ 4) ∧
    (∃ (s : State), s.m.chopperMay = false) ∧
    (∃ (s : State), s.m.spn.selfTest = true ∧ s.m.chopperMay = true) ∧
    (∃ (s : State) (ma : Nat), s.m.is SPN_BRK_ON = true ∧ 4 * ma * s.m.get SPN_BRK_RBRK < 138000 ∧
      s.m.is SPN_BRK_FAULT = false) ∧
    (∃ (s : State) (ma : Nat), (s.m.is SPN_BRK_ON = false ∨ 138000 ≤ 4 * ma * s.m.get SPN_BRK_RBRK)) ∧
    (∃ (s : State), s.m.is SPN_BRK_ON = false) ∧
    (∃ (s : State), s.m.die.level < 2) ∧
    (∃ (s : State), s.m.die.level < 3) ∧
    (∃ (s : State), s.m.die.level = 3) ∧
    (∃ (s : State), s.m.die.level ≠ 3) ∧
    (∃ (s : State), s.m.die.level < 4) ∧
    (∃ (s : State), s.m.die.level = 4) :=
  ⟨⟨⟨[], up⟩, by decide +kernel⟩,
   ⟨⟨[], up⟩, 0, by decide +kernel⟩,
   ⟨⟨[], driverFaultsAndOvervoltage2⟩, 0, by decide +kernel⟩,
   ⟨⟨[], driverFaultsAndOvervoltage3⟩, 0, by decide +kernel⟩,
   ⟨⟨[], driverFaultsAndOvervoltage4⟩, by decide +kernel⟩,
   ⟨⟨[], driverFaultsAndOvervoltage5⟩, by decide +kernel⟩,
   ⟨⟨[], driverFaultsAndOvervoltage6⟩, 0, by decide +kernel⟩,
   ⟨⟨[], up⟩, 0, by decide +kernel⟩,
   ⟨⟨[], up⟩, by decide +kernel⟩,
   ⟨⟨[], up⟩, by decide +kernel⟩,
   ⟨⟨[], up⟩, by decide +kernel⟩,
   ⟨⟨[], driverFaultsAndOvervoltage11⟩, by decide +kernel⟩,
   ⟨⟨[], up⟩, by decide +kernel⟩,
   ⟨⟨[], up⟩, by decide +kernel⟩,
   ⟨⟨[], driverFaultsAndOvervoltage14⟩, by decide +kernel⟩⟩

def retractAndLoad1 : Mach := (up.setDie fun d => { d with retract := updAt d.retract 0 fun _ => .velocity })
def retractAndLoad3 : Mach := (up.setDie fun d => { d with retract := updAt d.retract 0 fun _ => .climb })
def retractAndLoad6 : Mach := (up.setDie fun d => { d with retract := updAt d.retract 0 fun _ => .park })
def retractAndLoad7 : Mach := (((up.setDie fun d => { d with parked := updAt d.parked 0 fun _ => false }).set SPN_SPEED_VALID 1).set (VCM_STAT_PARKED 0) 0)
def retractAndLoad9 : Mach := (((up.set SPN_STAT_INHIBIT 0).set (HSQ_SEL_VALID 0 0) 1).set SPN_STAT_STATE 5)
def retractAndLoad11 : Mach := ((up.setDie fun d => { d with parked := updAt d.parked 0 fun _ => false }).set (VCM_STAT_PARKED 0) 0)
def retractAndLoad12 : Mach := (up.setDie fun d => { d with loading := updAt d.loading 0 fun _ => true })
theorem test_hyps_RetractAndLoad :
    (∃ (s : State) (a : Actuator), s.m.die.parked[a] = true) ∧
    (∃ (s : State) (a : Actuator), s.m.die.retract[a] = RetractPhase.velocity) ∧
    (∃ (s : State) (a : Actuator), s.m.die.retract[a] ≠ RetractPhase.velocity) ∧
    (∃ (s : State) (a : Actuator), s.m.die.retract[a] = RetractPhase.climb) ∧
    (∃ (s : State) (a : Actuator), s.m.die.retract[a] ≠ RetractPhase.climb) ∧
    (∃ (s : State) (a : Actuator), (s.m.die.retract[a] = RetractPhase.velocity ∨ s.m.die.retract[a] = RetractPhase.climb)) ∧
    (∃ (s : State) (a : Actuator), s.m.die.retract[a] = RetractPhase.park) ∧
    (∃ (s : State) (a : Actuator), s.m.is SPN_SPEED_VALID = true ∧ s.m.get SPN_SPEED_SPEED < 1600 * s.m.get VCM_RET1_MINRPM ∧
      s.m.allParked = false ∧ s.m.die.parked[a] = false ∧ s.m.die.retract[a] = RetractPhase.none ∧
      s.m.die.bridgeOff[a] = false ∧ s.m.die.level ≠ 4) ∧
    (∃ (s : State), (s.m.is SPN_SPEED_VALID = false ∨ 1600 * s.m.get VCM_RET1_MINRPM ≤ s.m.get SPN_SPEED_SPEED)) ∧
    (∃ (s : State) (a : Actuator), Running 28 33 s.m ∧ s.m.is (VCM_STAT_PARKED a.val) = true ∧
      s.m.headValid (streamOf a (s.m.leadSlot a)) = true ∧ s.m.spnState = 5 ∧ s.m.is SPN_STAT_INHIBIT = false ∧
      s.m.get (QDR_ACT_STATE a.val) < 2) ∧
    (∃ (s : State) (a : Actuator), Running 28 33 s.m ∧
      (s.m.is (VCM_STAT_PARKED a.val) = false ∨ s.m.spnState ≠ 5 ∨ s.m.is SPN_STAT_INHIBIT = true ∨ 2 ≤ s.m.get (QDR_ACT_STATE a.val) ∨ s.m.headValid (streamOf a (s.m.leadSlot a)) = false)) ∧
    (∃ (s : State) (a : Actuator), Running 28 33 s.m ∧ s.m.is (VCM_STAT_PARKED a.val) = false ∧
      s.m.die.retract[a] = RetractPhase.none ∧ s.m.die.parked[a] = false ∧ s.m.die.bridgeOff[a] = false ∧
      s.m.die.level ≠ 4) ∧
    (∃ (s : State) (a : Actuator), Running 28 33 s.m ∧ s.m.die.loading[a] = true ∧
      s.m.slotLocked a (s.m.leadSlot a) = false) :=
  ⟨⟨⟨[], up⟩, 0, by decide +kernel⟩,
   ⟨⟨[], retractAndLoad1⟩, 0, by decide +kernel⟩,
   ⟨⟨[], up⟩, 0, by decide +kernel⟩,
   ⟨⟨[], retractAndLoad3⟩, 0, by decide +kernel⟩,
   ⟨⟨[], up⟩, 0, by decide +kernel⟩,
   ⟨⟨[], retractAndLoad1⟩, 0, by decide +kernel⟩,
   ⟨⟨[], retractAndLoad6⟩, 0, by decide +kernel⟩,
   ⟨⟨[], retractAndLoad7⟩, 0, by decide +kernel⟩,
   ⟨⟨[], up⟩, by decide +kernel⟩,
   ⟨⟨[], retractAndLoad9⟩, 0, by delta Running; decide +kernel⟩,
   ⟨⟨[], up⟩, 0, by delta Running; decide +kernel⟩,
   ⟨⟨[], retractAndLoad11⟩, 0, by delta Running; decide +kernel⟩,
   ⟨⟨[], retractAndLoad12⟩, 0, by delta Running; decide +kernel⟩⟩

def bufferLines2 : Mach := (up.setMem fun b => b.poison 0)
def bufferLines5 : Mach := (up.set BUF_STAT_INIT 1)
def bufferLines6 : Mach := (up.set RST_PHASE_PHASE 4)
def bufferLines7 : Mach := ((up.set RST_PHASE_PHASE 4).set RST_STAT_BUFOK 1)
theorem test_hyps_BufferLines :
    (∃ (s : State) (p : Fin 30) (line : Nat) (errs : List Out), s.m.clockGood 10 = true ∧ s.m.buf.cache.find line = none ∧
      (∀ (r : MissReg), r ∈ s.m.buf.cache.misses → r.line ≠ line) ∧ (∀ (a : LineAccess),
      a ∈ s.m.buf.cache.queues[Fin.ofNat 16 line] → a.line ≠ line) ∧
      (errs = match Mach.portCore p with | some k => [Out.busError k] | none => []) ∧ bufEnd ≤ 64 * line) ∧
    (∃ (s : State) (p : Fin 30) (line : Nat) (errs : List Out), s.m.clockGood 10 = true ∧ s.m.buf.cache.find line = none ∧
      (∀ (r : MissReg), r ∈ s.m.buf.cache.misses → r.line ≠ line) ∧ (∀ (a : LineAccess),
      a ∈ s.m.buf.cache.queues[Fin.ofNat 16 line] → a.line ≠ line) ∧
      (errs = match Mach.portCore p with | some k => [Out.busError k] | none => []) ∧ 64 * line < bufEnd ∧
      s.m.get BUF_STAT_INIT ≠ 1 ∧ s.m.pageInvalid (line / 64) = false ∧ s.m.buf.mem.good line = true) ∧
    (∃ (s : State) (p : Fin 30) (line : Nat) (errs : List Out), s.m.clockGood 10 = true ∧ s.m.buf.cache.find line = none ∧
      (∀ (r : MissReg), r ∈ s.m.buf.cache.misses → r.line ≠ line) ∧ (∀ (a : LineAccess),
      a ∈ s.m.buf.cache.queues[Fin.ofNat 16 line] → a.line ≠ line) ∧
      (errs = match Mach.portCore p with | some k => [Out.busError k] | none => []) ∧ 64 * line < bufEnd ∧
      s.m.get BUF_STAT_INIT ≠ 1 ∧ s.m.pageInvalid (line / 64) = false ∧ s.m.buf.mem.good line = false) ∧
    (∃ (s : State) (p : Fin 30) (line : Nat) (errs : List Out) (w : LineWrite), s.m.clockGood 10 = true ∧
      s.m.buf.cache.find line = none ∧ (∀ (r : MissReg), r ∈ s.m.buf.cache.misses → r.line ≠ line) ∧ (∀ (a : LineAccess),
      a ∈ s.m.buf.cache.queues[Fin.ofNat 16 line] → a.line ≠ line) ∧
      (errs = match Mach.portCore p with | some k => [Out.busError k] | none => []) ∧ 64 * line < bufEnd ∧
      s.m.get BUF_STAT_INIT ≠ 1 ∧ s.m.pageInvalid (line / 64) = false ∧ w.full = true) ∧
    (∃ (s : State) (p : Fin 30) (line : Nat) (errs : List Out) (w : LineWrite), s.m.clockGood 10 = true ∧
      s.m.buf.cache.find line = none ∧ (∀ (r : MissReg), r ∈ s.m.buf.cache.misses → r.line ≠ line) ∧ (∀ (a : LineAccess),
      a ∈ s.m.buf.cache.queues[Fin.ofNat 16 line] → a.line ≠ line) ∧
      (errs = match Mach.portCore p with | some k => [Out.busError k] | none => []) ∧ 64 * line < bufEnd ∧
      s.m.get BUF_STAT_INIT ≠ 1 ∧ s.m.pageInvalid (line / 64) = false ∧ w.full = false) ∧
    (∃ (s : State), s.m.clockGood 10 = true ∧ s.m.get BUF_STAT_INIT = 1) ∧
    (∃ (s : State), s.m.get RST_PHASE_PHASE = 4 ∧ s.m.get BUF_STAT_INIT = 0 ∧ s.m.is RST_STAT_BUFOK = false) ∧
    (∃ (s : State), s.m.get RST_PHASE_PHASE = 4 ∧ s.m.get BUF_STAT_INIT = 0 ∧ s.m.is RST_STAT_BUFOK = true ∧
      s.m.buf.vsramOff = false) :=
  ⟨⟨⟨[], up⟩, 16, 1000000000, ([]), by decide +kernel⟩,
   ⟨⟨[], up⟩, 16, 0, ([]), by decide +kernel⟩,
   ⟨⟨[], bufferLines2⟩, 16, 0, ([]), by decide +kernel⟩,
   ⟨⟨[], up⟩, 16, 0, ([]), (⟨List.replicate 64 7, 0xFFFFFFFFFFFFFFFF⟩), by decide +kernel⟩,
   ⟨⟨[], up⟩, 16, 0, ([]), (⟨List.replicate 64 7, 1⟩), by decide +kernel⟩,
   ⟨⟨[], bufferLines5⟩, by decide +kernel⟩,
   ⟨⟨[], bufferLines6⟩, by decide +kernel⟩,
   ⟨⟨[], bufferLines7⟩, by decide +kernel⟩⟩

def bufferPools0 : Mach := ((fun m : Mach => ((m.set (POOL_CFG_EN 0) 1).set (POOL_CFG_COUNT 0) 600).setPool 0 fun p => { p with used := [0], cache := (List.range 512).map (· + 1) }) up)
def bufferPools2 : Mach := ((fun m : Mach => ((m.set (POOL_CFG_EN 0) 1).set (POOL_CFG_COUNT 0) 4).setPool 0 fun p => { p with used := [0], cache := [0] }) up)
def bufferPools4 : Mach := (up.setBuf fun b => { b with retired := [0] })
def bufferPools5 : Mach := (up.setBuf fun b => { b with retired := List.replicate 1024 7 })
def bufferPools7 : Mach := (up.holdsWord 12 (wd 0 2))
def bufferPools8 : Mach := (up.set (POOL_CFG_COUNT 0) 4)
def bufferPools10 : Mach := (up.set (POOL_CFG_EN 0) 1)
def bufferPools11 : Mach := ((fun m : Mach => ((m.set (POOL_CFG_EN 0) 1).set (POOL_CFG_COUNT 0) 4).setPool 0 fun p => { p with waiting := [⟨0, 1, 0, 0⟩], cache := [0] }) up)
def bufferPools13 : Mach := (up.set (POOL_CFG_INIT_BUSY 0) 1)
def bufferPools14 : Mach := (up.set (POOL_MBSTAT_BUSY 0) 1)
def bufferPools15 : Mach := (up.set (POOL_MBSTAT_K 0) 0)
def bufferPools19 : Mach := ((fun m : Mach => ((m.set (POOL_CFG_EN 0) 1).set (POOL_CFG_COUNT 0) 4).setPool 0 fun p => { p with waiting := [⟨0, 1, 2, 0⟩], cache := [0], free := 8 }) up)
def bufferPools22 : Mach := (((fun m : Mach => ((m.set (POOL_CFG_EN 0) 1).set (POOL_CFG_COUNT 0) 4).setPool 0 fun p => { p with used := [0], cache := [0] }) up).setPool 0 fun p => { p with moving := some false })
def bufferPools23 : Mach := ((fun m : Mach => ((m.set (POOL_CFG_EN 0) 1).set (POOL_CFG_COUNT 0) 600).setPool 0 fun p => { p with used := [0], cache := (List.range 512).map (· + 1) }) (up.setPool 0 fun p => { p with moving := some true, cache := List.range 64 }))
theorem test_hyps_BufferPools :
    (∃ (s : State) (h : BitVec 24), Running 10 34 s.m ∧ s.m.buf.frees = [] ∧ s.m.freeBlocked h.toNat = true) ∧
    (∃ (s : State) (h : BitVec 24), Running 10 34 s.m ∧ s.m.buf.frees = [] ∧
      (s.m.is (POOL_CFG_EN ↑(handlePool h.toNat)) = false ∨ s.m.poolCount (handlePool h.toNat) ≤ handleIndex h.toNat)) ∧
    (∃ (s : State) (h : BitVec 24), Running 10 34 s.m ∧ s.m.buf.frees = [] ∧
      s.m.is (POOL_CFG_EN ↑(handlePool h.toNat)) = true ∧ handleIndex h.toNat < s.m.poolCount (handlePool h.toNat) ∧
      ¬handleIndex h.toNat ∈ s.m.buf.pools[handlePool h.toNat].used) ∧
    (∃ (s : State) (h : BitVec 24), Running 10 34 s.m ∧ s.m.buf.frees = [] ∧
      s.m.is (POOL_CFG_EN ↑(handlePool h.toNat)) = true ∧ handleIndex h.toNat < s.m.poolCount (handlePool h.toNat) ∧
      handleIndex h.toNat ∈ s.m.buf.pools[handlePool h.toNat].used ∧ s.m.freeBlocked h.toNat = false) ∧
    (∃ (s : State) (h : BitVec 24), Running 10 34 s.m ∧ s.m.buf.frees = [] ∧ h.toNat ∈ s.m.buf.retired) ∧
    (∃ (s : State) (h : BitVec 24), Running 10 34 s.m ∧ s.m.buf.frees = [] ∧ ¬h.toNat ∈ s.m.buf.retired ∧
      1024 ≤ s.m.buf.retired.length) ∧
    (∃ (s : State) (h : BitVec 24), Running 10 34 s.m ∧ s.m.buf.frees = [] ∧ ¬h.toNat ∈ s.m.buf.retired ∧
      s.m.buf.retired.length < 1024) ∧
    (∃ (s : State) (q : SeqId) (inp : Bool) (u : Micro) (next : Nat), Running (seqDomain q) (seqBlock q) s.m ∧
      AtWord s.m q inp u next ∧ u.alu = 0 ∧ u.xop = 2) ∧
    (∃ (s : State) (p : PoolId), Running 10 34 s.m ∧ s.m.is (POOL_CFG_EN p.val) = false ∧ s.m.poolCfgOk p = true) ∧
    (∃ (s : State) (p : PoolId), Running 10 34 s.m ∧ s.m.is (POOL_CFG_EN p.val) = false ∧ s.m.poolCfgOk p = false) ∧
    (∃ (s : State) (p : PoolId), Running 10 34 s.m ∧ s.m.is (POOL_CFG_EN p.val) = true ∧ s.m.buf.pools[p].waiting = [] ∧
      s.m.buf.pools[p].free = s.m.poolCount p - s.m.retiredCount p) ∧
    (∃ (s : State) (p : PoolId), Running 10 34 s.m ∧ s.m.is (POOL_CFG_EN p.val) = true ∧ s.m.buf.pools[p].waiting ≠ []) ∧
    (∃ (s : State) (p : PoolId), Running 10 34 s.m ∧
      (s.m.is (POOL_CFG_INIT_BUSY p.val) = false ∨ s.m.portQuiet poolPort = false)) ∧
    (∃ (s : State) (p : PoolId), Running 10 34 s.m ∧ s.m.is (POOL_CFG_INIT_BUSY p.val) = true ∧
      s.m.portQuiet poolPort = true) ∧
    (∃ (s : State) (mb : Mailbox), Running 10 34 s.m ∧ s.m.is (POOL_MBSTAT_BUSY mb.val) = true) ∧
    (∃ (s : State) (mb : Mailbox), Running 10 34 s.m ∧ s.m.is (POOL_MBSTAT_BUSY mb.val) = false ∧
      (s.m.get (POOL_MBSTAT_K mb.val) = 0 ∨ 16 < s.m.get (POOL_MBSTAT_K mb.val))) ∧
    (∃ (s : State) (p : PoolId) (mb : Mailbox) (w : Word), Running 10 34 s.m ∧ s.m.is (POOL_MBSTAT_BUSY mb.val) = false ∧
      getBits w 27 3 = p.val ∧ 1 ≤ s.m.get (POOL_MBSTAT_K mb.val) ∧ s.m.get (POOL_MBSTAT_K mb.val) ≤ 16 ∧
      s.m.is (POOL_CFG_EN p.val) = true) ∧
    (∃ (s : State) (p : PoolId), Running 10 34 s.m ∧ s.m.poolServes p = false) ∧
    (∃ (s : State) (p : PoolId), Running 10 34 s.m ∧ s.m.poolServes p = true ∧ (∃ i, i ∈ s.m.buf.pools[p].cache ∧
      s.m.poolRetired p i = false ∧ i ∈ s.m.buf.pools[p].used)) ∧
    (∃ (s : State) (p : PoolId) (r : PoolReq) (x : Mach), Running 10 34 s.m ∧ s.m.poolServes p = true ∧
      x = s.m.sweepCache p ∧ x.nextReq p [] x.buf.pools[p].waiting = some r ∧ r.count ≤ x.buf.pools[p].cache.length) ∧
    (∃ (s : State) (p : PoolId), Running 10 34 s.m ∧ (s.m.poolServes p = false ∨ s.m.portQuiet poolPort = false)) ∧
    (∃ (s : State) (p : PoolId), Running 10 34 s.m ∧ s.m.poolServes p = true ∧ s.m.portQuiet poolPort = true ∧
      s.m.buf.frees = [] ∧ s.m.buf.pools[p].moving = none) ∧
    (∃ (s : State) (p : PoolId), Running 10 34 s.m ∧ s.m.poolServes p = true ∧ s.m.portQuiet poolPort = true ∧
      s.m.buf.frees = [] ∧ s.m.buf.pools[p].moving = some false) ∧
    (∃ (s : State) (p : PoolId), Running 10 34 s.m ∧ s.m.poolServes p = true ∧ s.m.portQuiet poolPort = true ∧
      s.m.buf.frees = [] ∧ s.m.buf.pools[p].moving = some true ∧ 64 ≤ s.m.buf.pools[p].cache.length) :=
  ⟨⟨⟨[], bufferPools0⟩, 0, by delta Running; decide +kernel⟩,
   ⟨⟨[], up⟩, 1, by delta Running; decide +kernel⟩,
   ⟨⟨[], bufferPools2⟩, 1, by delta Running; decide +kernel⟩,
   ⟨⟨[], bufferPools2⟩, 0, by delta Running; decide +kernel⟩,
   ⟨⟨[], bufferPools4⟩, 0, by delta Running; decide +kernel⟩,
   ⟨⟨[], bufferPools5⟩, 1, by delta Running; decide +kernel⟩,
   ⟨⟨[], up⟩, 1, by delta Running; decide +kernel⟩,
   ⟨⟨[], bufferPools7⟩, 12, true, (microOf (wd 0 2)), 0, by delta Running; decide +kernel,
     atWord_of (wd 0 2) (by decide +kernel), by decide +kernel, by decide +kernel⟩,
   ⟨⟨[], bufferPools8⟩, 0, by delta Running; decide +kernel⟩,
   ⟨⟨[], up⟩, 0, by delta Running; decide +kernel⟩,
   ⟨⟨[], bufferPools10⟩, 0, by delta Running; decide +kernel⟩,
   ⟨⟨[], bufferPools11⟩, 0, by delta Running; decide +kernel⟩,
   ⟨⟨[], up⟩, 0, by delta Running; decide +kernel⟩,
   ⟨⟨[], bufferPools13⟩, 0, by delta Running; decide +kernel⟩,
   ⟨⟨[], bufferPools14⟩, 0, by delta Running; decide +kernel⟩,
   ⟨⟨[], bufferPools15⟩, 0, by delta Running; decide +kernel⟩,
   ⟨⟨[], bufferPools2⟩, 0, 0, 1, by delta Running; decide +kernel⟩,
   ⟨⟨[], up⟩, 0, by delta Running; decide +kernel⟩,
   ⟨⟨[], bufferPools2⟩, 0, by delta Running; decide +kernel, by decide +kernel, ⟨0, by decide +kernel⟩⟩,
   ⟨⟨[], bufferPools19⟩, 0, ⟨0, 1, 2, 0⟩, (bufferPools19.sweepCache 0), by delta Running; decide +kernel, by decide +kernel,
     rfl, by decide +kernel, by decide +kernel⟩,
   ⟨⟨[], up⟩, 0, by delta Running; decide +kernel⟩,
   ⟨⟨[], bufferPools2⟩, 0, by delta Running; decide +kernel⟩,
   ⟨⟨[], bufferPools22⟩, 0, by delta Running; decide +kernel⟩,
   ⟨⟨[], bufferPools23⟩, 0, by delta Running; decide +kernel⟩⟩

def cacheAccesses0 : Mach := ((up.setCache fun c => { c with lines := [⟨0, 0, 0, true, List.replicate 64 0⟩] }).set CCH_CTRL_EN 1)
def cacheAccesses1 : Mach := (up.set CCH_CTRL_EN 1)
def cacheAccesses3 : Mach := (up.setCache fun c => { c with misses := [⟨0, [⟨0, 0, none⟩]⟩] })
theorem test_hyps_CacheAccesses :
    (∃ (s : State) (line : Nat) (l : CacheLine), Running 9 35 s.m ∧ s.m.is CCH_CTRL_EN = true ∧
      s.m.buf.cache.queues[Fin.ofNat 16 line] = [] ∧ s.m.buf.cache.find line = some l ∧ l.dirty = true) ∧
    (∃ (s : State) (line : Nat), Running 9 35 s.m ∧ s.m.is CCH_CTRL_EN = true ∧
      s.m.buf.cache.queues[Fin.ofNat 16 line] = [] ∧ s.m.buf.cache.find line = none ∧ (∀ (r : MissReg),
      r ∈ s.m.buf.cache.misses → r.line ≠ line) ∧ s.m.buf.cache.misses.length < 64) ∧
    (∃ (s : State) (k : Nat), Running 9 35 s.m ∧ s.m.buf.cache.misses[k]? = none) ∧
    (∃ (s : State) (p : Fin 30) (line : Nat) (k : Nat), Running 9 35 s.m ∧
      s.m.buf.cache.misses[k]? = some { line := line, accesses := [{ port := p, line := line, write := none }] } ∧
      s.m.buf.cache.find line = none ∧ 64 * line < bufEnd ∧ s.m.get BUF_STAT_INIT ≠ 1 ∧ s.m.pageInvalid (line / 64) = false ∧
      s.m.buf.mem.good line = true ∧ (∀ (v : CacheLine), v ∈ s.m.buf.cache.lines → v.dirty = false) ∧
      s.m.buf.cache.queues = Vector.replicate 16 []) :=
  ⟨⟨⟨[], cacheAccesses0⟩, 0, ((cacheAccesses0.buf.cache.find 0).getD (⟨0, 0, 0, true, []⟩)),
    by delta Running; decide +kernel⟩,
   ⟨⟨[], cacheAccesses1⟩, 0, by delta Running; decide +kernel⟩,
   ⟨⟨[], up⟩, 0, by delta Running; decide +kernel⟩,
   ⟨⟨[], cacheAccesses3⟩, 0, 0, 0, by delta Running; decide +kernel⟩⟩

def cacheMaintenance0 : Mach := (up.set CCH_MOP_STAT_BUSY 1)
def cacheMaintenance1 : Mach := (up.set CCH_MOP_LEN_LINES 0)
def cacheMaintenance5 : Mach := (up.set SCB_LEN_LINES 1)
def cacheMaintenance7 : Mach := (up.setBuf fun b => { b with scrub := some ⟨0, 4, 0, 0, false⟩ })
theorem test_hyps_CacheMaintenance :
    (∃ (s : State), Running 9 35 s.m ∧ s.m.is CCH_MOP_STAT_BUSY = true) ∧
    (∃ (s : State), Running 9 35 s.m ∧ s.m.is CCH_MOP_STAT_BUSY = false ∧
      (s.m.get CCH_MOP_LEN_LINES = 0 ∨ bufEnd < 64 * (s.m.get CCH_MOP_ADDR_LINE + s.m.get CCH_MOP_LEN_LINES))) ∧
    (∃ (s : State), Running 9 35 s.m ∧ s.m.is CCH_MOP_STAT_BUSY = false ∧ s.m.get CCH_MOP_LEN_LINES ≠ 0 ∧
      64 * (s.m.get CCH_MOP_ADDR_LINE + s.m.get CCH_MOP_LEN_LINES) ≤ bufEnd) ∧
    (∃ (s : State) (set : Fin 32768), Running 9 35 s.m ∧ s.m.is CCH_MOP_STAT_BUSY = false ∧ set.val < 24576) ∧
    (∃ (s : State), Running 10 36 s.m ∧
      (s.m.is SCB_STAT_BUSY = true ∨ s.m.get SCB_LEN_LINES = 0 ∨ bufEnd < 64 * (s.m.get SCB_START_LINE + s.m.get SCB_LEN_LINES))) ∧
    (∃ (s : State), Running 10 36 s.m ∧ s.m.is SCB_STAT_BUSY = false ∧ s.m.get SCB_LEN_LINES ≠ 0 ∧
      64 * (s.m.get SCB_START_LINE + s.m.get SCB_LEN_LINES) ≤ bufEnd) ∧
    (∃ (s : State), Running 10 36 s.m ∧ (s.m.buf.scrub = none ∨ s.m.portQuiet scrubPort = false)) ∧
    (∃ (s : State) (x : ScrubPass), Running 10 36 s.m ∧ s.m.buf.scrub = some x ∧ s.m.portQuiet scrubPort = true) :=
  ⟨⟨⟨[], cacheMaintenance0⟩, by delta Running; decide +kernel⟩,
   ⟨⟨[], cacheMaintenance1⟩, by delta Running; decide +kernel⟩,
   ⟨⟨[], up⟩, by delta Running; decide +kernel⟩,
   ⟨⟨[], up⟩, 0, by delta Running; decide +kernel⟩,
   ⟨⟨[], up⟩, by delta Running; decide +kernel⟩,
   ⟨⟨[], cacheMaintenance5⟩, by delta Running; decide +kernel⟩,
   ⟨⟨[], up⟩, by delta Running; decide +kernel⟩,
   ⟨⟨[], cacheMaintenance7⟩, (cacheMaintenance7.buf.scrub.getD (⟨0, 4, 0, 0, false⟩)), by delta Running; decide +kernel⟩⟩

def dmaRings0 : Mach := (up.withHold { dmaHold with step := .status })
def dmaRings1 : Mach := (up.withHold dmaHold)
def dmaRings2 : Mach := (up.withHold { dmaHold with cause := 1 })
def dmaRings5 : Mach := (up.withHold { dmaHold with cause := 5 })
def dmaRings9 : Mach := (((up.set DMA_CTRL_EN 1).set (DMA_RING_HEAD_HEAD 0) 1).set (DMA_CH_CFG_EN 0) 1)
def dmaRings10 : Mach := ((up.withHold { dmaHold with step := .taking }).setCal fun c => { c with demands := [⟨Mach.dmaPort, 0, 0, 1, 0⟩] })
def dmaRings11 : Mach := ((up.withHold { dmaHold with step := .taking }).setMem fun b => b.poison 0)
def dmaRings12 : Mach := (up.withHold { dmaHold with step := .taking })
def dmaRings13 : Mach := (((up.withHold { dmaHold with step := .taking }).setBuf fun b => { b with mem := b.mem.putBytes 0 (toBytesLE 64 (1)) }).set DMA_CTRL_BLOCK0 1)
def dmaRings14 : Mach := ((up.withHold { dmaHold with step := .taking }).setBuf fun b => { b with mem := b.mem.putBytes 0 (toBytesLE 64 (1)) })
def dmaRings15 : Mach := ((up.withHold { dmaHold with step := .taking }).setBuf fun b => { b with mem := b.mem.putBytes 0 (toBytesLE 64 (1 + 2 ^ 41)) })
theorem test_hyps_DmaRings :
    (∃ (s : State) (n : DmaCh) (h : DmaHold), Running 11 37 s.m ∧ s.m.dma.chans[n] = some h ∧ h.step = DmaStep.status) ∧
    (∃ (s : State) (n : DmaCh) (h : DmaHold), Running 11 37 s.m ∧ s.m.dma.chans[n] = some h ∧ h.step ≠ DmaStep.status ∧
      h.cause ≠ 5 ∧ (h.cause = 0 → h.step ≠ DmaStep.taking)) ∧
    (∃ (s : State) (n : DmaCh) (h : DmaHold), Running 11 37 s.m ∧ s.m.dma.chans[n] = some h ∧ (h.cause = 1 ∨ h.cause = 2)) ∧
    (∃ (s : State) (n : DmaCh) (h : DmaHold), Running 11 37 s.m ∧ s.m.dma.chans[n] = some h ∧ h.cause ≠ 1 ∧ h.cause ≠ 2) ∧
    (∃ (s : State) (n : DmaCh) (b0 : Bool) (b1 : Bool) (h : DmaHold), Running 11 37 s.m ∧ s.m.dma.chans[n] = some h ∧
      (h.step = DmaStep.taking ∧ h.cause = 0 ∨ h.step = DmaStep.status ∨ (if h.desc.port = 0 then b0 else b1) = false)) ∧
    (∃ (s : State) (n : DmaCh) (b0 : Bool) (b1 : Bool) (h : DmaHold), Running 11 37 s.m ∧ s.m.dma.chans[n] = some h ∧
      ¬(h.step = DmaStep.taking ∧ h.cause = 0) ∧ h.step ≠ DmaStep.status ∧ ((if h.desc.port = 0 then b0 else b1) = true) ∧
      h.cause = 5) ∧
    (∃ (s : State) (n : DmaCh) (b0 : Bool) (b1 : Bool) (h : DmaHold), Running 11 37 s.m ∧ s.m.dma.chans[n] = some h ∧
      ¬(h.step = DmaStep.taking ∧ h.cause = 0) ∧ h.step ≠ DmaStep.status ∧ ((if h.desc.port = 0 then b0 else b1) = true) ∧
      h.cause ≠ 5) ∧
    (∃ (s : State) (p : DmaLevel), Running 11 37 s.m ∧ (∀ (c : DmaCh) (h : DmaHold),
      s.m.dma.chans[c] = some h → ¬(h.step = DmaStep.taking ∧ h.cause = 0 ∧ h.ring = p)) ∧
      (s.m.is DMA_CTRL_EN = false ∨ s.m.get (DMA_RING_HEAD_HEAD p.val) = s.m.get (DMA_RING_TAIL_TAIL p.val))) ∧
    (∃ (s : State) (p : DmaLevel), Running 11 37 s.m ∧ (∀ (c : DmaCh) (h : DmaHold),
      s.m.dma.chans[c] = some h → ¬(h.step = DmaStep.taking ∧ h.cause = 0 ∧ h.ring = p)) ∧ (∀ (c : DmaCh),
      s.m.is (DMA_CH_CFG_EN c.val) = true → s.m.dmaLevel c = p → s.m.chQuiet c = true → s.m.dma.chans[c].isSome = true)) ∧
    (∃ (s : State) (p : DmaLevel) (n : DmaCh), Running 11 37 s.m ∧ (∀ (c : DmaCh) (h : DmaHold),
      s.m.dma.chans[c] = some h → ¬(h.step = DmaStep.taking ∧ h.cause = 0 ∧ h.ring = p)) ∧ s.m.is DMA_CTRL_EN = true ∧
      s.m.get (DMA_RING_HEAD_HEAD p.val) ≠ s.m.get (DMA_RING_TAIL_TAIL p.val) ∧ s.m.is (DMA_CH_CFG_EN n.val) = true ∧
      s.m.dmaLevel n = p ∧ s.m.dma.chans[n] = none ∧ s.m.chQuiet n = true ∧ (∀ (c : DmaCh),
      c < n → s.m.is (DMA_CH_CFG_EN c.val) = true → s.m.dmaLevel c = p → s.m.chQuiet c = true → s.m.dma.chans[c].isSome = true)) ∧
    (∃ (s : State) (p : DmaLevel) (n : DmaCh) (h : DmaHold), Running 11 37 s.m ∧ s.m.dma.chans[n] = some h ∧
      h.step = DmaStep.taking ∧ h.cause = 0 ∧ h.ring = p ∧ (∀ (c : DmaCh) (g : DmaHold),
      c < n → s.m.dma.chans[c] = some g → ¬(g.step = DmaStep.taking ∧ g.cause = 0 ∧ g.ring = p)) ∧ s.m.chQuiet n = false) ∧
    (∃ (s : State) (p : DmaLevel) (n : DmaCh) (h : DmaHold) (bs : List Byte) (m' : Mach), Running 11 37 s.m ∧
      s.m.dma.chans[n] = some h ∧ h.step = DmaStep.taking ∧ h.cause = 0 ∧ h.ring = p ∧ (∀ (c : DmaCh) (g : DmaHold),
      c < n → s.m.dma.chans[c] = some g → ¬(g.step = DmaStep.taking ∧ g.cause = 0 ∧ g.ring = p)) ∧ s.m.chQuiet n = true ∧
      s.m.attrRead (s.m.is (DMA_RING_CFG_CACHE p.val)) (s.m.slotLine p h.slot) = ((bs, true), m')) ∧
    (∃ (s : State) (p : DmaLevel) (n : DmaCh) (h : DmaHold) (d : DmaDesc) (bs : List Byte) (m' : Mach), Running 11 37 s.m ∧
      s.m.dma.chans[n] = some h ∧ h.step = DmaStep.taking ∧ h.cause = 0 ∧ h.ring = p ∧ (∀ (c : DmaCh) (g : DmaHold),
      c < n → s.m.dma.chans[c] = some g → ¬(g.step = DmaStep.taking ∧ g.cause = 0 ∧ g.ring = p)) ∧ s.m.chQuiet n = true ∧
      s.m.attrRead (s.m.is (DMA_RING_CFG_CACHE p.val)) (s.m.slotLine p h.slot) = ((bs, false), m') ∧
      d = BitVec.ofNat 512 (ofBytesLE bs) ∧ d.own = false) ∧
    (∃ (s : State) (p : DmaLevel) (n : DmaCh) (h : DmaHold) (d : DmaDesc) (bs : List Byte) (m' : Mach), Running 11 37 s.m ∧
      s.m.dma.chans[n] = some h ∧ h.step = DmaStep.taking ∧ h.cause = 0 ∧ h.ring = p ∧ (∀ (c : DmaCh) (g : DmaHold),
      c < n → s.m.dma.chans[c] = some g → ¬(g.step = DmaStep.taking ∧ g.cause = 0 ∧ g.ring = p)) ∧ s.m.chQuiet n = true ∧
      s.m.attrRead (s.m.is (DMA_RING_CFG_CACHE p.val)) (s.m.slotLine p h.slot) = ((bs, false), m') ∧
      d = BitVec.ofNat 512 (ofBytesLE bs) ∧ d.own = true ∧ (s.m.dmaBlocked d.port = true ∨ h.stop.isSome = true)) ∧
    (∃ (s : State) (p : DmaLevel) (n : DmaCh) (h : DmaHold) (d : DmaDesc) (bs : List Byte) (m' : Mach), Running 11 37 s.m ∧
      s.m.dma.chans[n] = some h ∧ h.step = DmaStep.taking ∧ h.cause = 0 ∧ h.ring = p ∧ (∀ (c : DmaCh) (g : DmaHold),
      c < n → s.m.dma.chans[c] = some g → ¬(g.step = DmaStep.taking ∧ g.cause = 0 ∧ g.ring = p)) ∧ s.m.chQuiet n = true ∧
      s.m.attrRead (s.m.is (DMA_RING_CFG_CACHE p.val)) (s.m.slotLine p h.slot) = ((bs, false), m') ∧
      d = BitVec.ofNat 512 (ofBytesLE bs) ∧ d.own = true ∧ s.m.dmaBlocked d.port = false ∧ h.stop = none ∧ d.isBad = true) ∧
    (∃ (s : State) (p : DmaLevel) (n : DmaCh) (h : DmaHold) (d : DmaDesc) (bs : List Byte) (m' : Mach), Running 11 37 s.m ∧
      s.m.dma.chans[n] = some h ∧ h.step = DmaStep.taking ∧ h.cause = 0 ∧ h.ring = p ∧ (∀ (c : DmaCh) (g : DmaHold),
      c < n → s.m.dma.chans[c] = some g → ¬(g.step = DmaStep.taking ∧ g.cause = 0 ∧ g.ring = p)) ∧ s.m.chQuiet n = true ∧
      s.m.attrRead (s.m.is (DMA_RING_CFG_CACHE p.val)) (s.m.slotLine p h.slot) = ((bs, false), m') ∧
      d = BitVec.ofNat 512 (ofBytesLE bs) ∧ d.own = true ∧ s.m.dmaBlocked d.port = false ∧ h.stop = none ∧ d.isBad = false ∧
      h.fin = none) :=
  ⟨⟨⟨[], dmaRings0⟩, 0, (dmaRings0.dma.chans[0].getD dmaHold), by delta Running; decide +kernel⟩,
   ⟨⟨[], dmaRings1⟩, 0, (dmaRings1.dma.chans[0].getD dmaHold), by delta Running; decide +kernel⟩,
   ⟨⟨[], dmaRings2⟩, 0, (dmaRings2.dma.chans[0].getD dmaHold), by delta Running; decide +kernel⟩,
   ⟨⟨[], dmaRings0⟩, 0, (dmaRings0.dma.chans[0].getD dmaHold), by delta Running; decide +kernel⟩,
   ⟨⟨[], dmaRings0⟩, 0, true, true, (dmaRings0.dma.chans[0].getD dmaHold), by delta Running; decide +kernel⟩,
   ⟨⟨[], dmaRings5⟩, 0, true, true, (dmaRings5.dma.chans[0].getD dmaHold), by delta Running; decide +kernel⟩,
   ⟨⟨[], dmaRings1⟩, 0, true, true, (dmaRings1.dma.chans[0].getD dmaHold), by delta Running; decide +kernel⟩,
   ⟨⟨[], up⟩, 0, by delta Running; decide +kernel, all_fin (by decide +kernel), by decide +kernel⟩,
   ⟨⟨[], up⟩, 0, by delta Running; decide +kernel, all_fin (by decide +kernel), by decide +kernel⟩,
   ⟨⟨[], dmaRings9⟩, dmaRings9.dmaLevel 0, 0, by delta Running; decide +kernel, all_fin (by decide +kernel),
     by decide +kernel, by decide +kernel, by decide +kernel, by decide +kernel, by decide +kernel, by decide +kernel,
     by decide +kernel⟩,
   ⟨⟨[], dmaRings10⟩, (dmaRings10.dma.chans[0].getD dmaHold).ring, 0, (dmaRings10.dma.chans[0].getD dmaHold),
     by delta Running; decide +kernel, by decide +kernel, by decide +kernel, by decide +kernel, by decide +kernel,
     all_fin_lt (by decide +kernel), by decide +kernel⟩,
   ⟨⟨[], dmaRings11⟩, 0, 0, (dmaRings11.dma.chans[0].getD dmaHold),
     (dmaRings11.attrRead (dmaRings11.is (DMA_RING_CFG_CACHE 0)) (dmaRings11.slotLine 0 0)).1.1,
     (dmaRings11.attrRead (dmaRings11.is (DMA_RING_CFG_CACHE 0)) (dmaRings11.slotLine 0 0)).2,
     by delta Running; decide +kernel, by decide +kernel, by decide +kernel, by decide +kernel, by decide +kernel,
     all_fin_lt (by decide +kernel), by decide +kernel, pair_eq (by decide +kernel)⟩,
   ⟨⟨[], dmaRings12⟩, 0, 0, (dmaRings12.dma.chans[0].getD dmaHold),
     (BitVec.ofNat 512 (ofBytesLE (dmaRings12.attrRead (dmaRings12.is (DMA_RING_CFG_CACHE 0)) (dmaRings12.slotLine 0 0)).1.1)),
     (dmaRings12.attrRead (dmaRings12.is (DMA_RING_CFG_CACHE 0)) (dmaRings12.slotLine 0 0)).1.1,
     (dmaRings12.attrRead (dmaRings12.is (DMA_RING_CFG_CACHE 0)) (dmaRings12.slotLine 0 0)).2,
     by delta Running; decide +kernel, by decide +kernel, by decide +kernel, by decide +kernel, by decide +kernel,
     all_fin_lt (by decide +kernel), by decide +kernel, pair_eq (by decide +kernel), rfl, by decide +kernel⟩,
   ⟨⟨[], dmaRings13⟩, 0, 0, (dmaRings13.dma.chans[0].getD dmaHold),
     (BitVec.ofNat 512 (ofBytesLE (dmaRings13.attrRead (dmaRings13.is (DMA_RING_CFG_CACHE 0)) (dmaRings13.slotLine 0 0)).1.1)),
     (dmaRings13.attrRead (dmaRings13.is (DMA_RING_CFG_CACHE 0)) (dmaRings13.slotLine 0 0)).1.1,
     (dmaRings13.attrRead (dmaRings13.is (DMA_RING_CFG_CACHE 0)) (dmaRings13.slotLine 0 0)).2,
     by delta Running; decide +kernel, by decide +kernel, by decide +kernel, by decide +kernel, by decide +kernel,
     all_fin_lt (by decide +kernel), by decide +kernel, pair_eq (by decide +kernel), rfl, by decide +kernel,
     by decide +kernel⟩,
   ⟨⟨[], dmaRings14⟩, 0, 0, (dmaRings14.dma.chans[0].getD dmaHold),
     (BitVec.ofNat 512 (ofBytesLE (dmaRings14.attrRead (dmaRings14.is (DMA_RING_CFG_CACHE 0)) (dmaRings14.slotLine 0 0)).1.1)),
     (dmaRings14.attrRead (dmaRings14.is (DMA_RING_CFG_CACHE 0)) (dmaRings14.slotLine 0 0)).1.1,
     (dmaRings14.attrRead (dmaRings14.is (DMA_RING_CFG_CACHE 0)) (dmaRings14.slotLine 0 0)).2,
     by delta Running; decide +kernel, by decide +kernel, by decide +kernel, by decide +kernel, by decide +kernel,
     all_fin_lt (by decide +kernel), by decide +kernel, pair_eq (by decide +kernel), rfl, by decide +kernel,
     by decide +kernel, by decide +kernel, by decide +kernel⟩,
   ⟨⟨[], dmaRings15⟩, 0, 0, (dmaRings15.dma.chans[0].getD dmaHold),
     (BitVec.ofNat 512 (ofBytesLE (dmaRings15.attrRead (dmaRings15.is (DMA_RING_CFG_CACHE 0)) (dmaRings15.slotLine 0 0)).1.1)),
     (dmaRings15.attrRead (dmaRings15.is (DMA_RING_CFG_CACHE 0)) (dmaRings15.slotLine 0 0)).1.1,
     (dmaRings15.attrRead (dmaRings15.is (DMA_RING_CFG_CACHE 0)) (dmaRings15.slotLine 0 0)).2,
     by delta Running; decide +kernel, by decide +kernel, by decide +kernel, by decide +kernel, by decide +kernel,
     all_fin_lt (by decide +kernel), by decide +kernel, pair_eq (by decide +kernel), rfl, by decide +kernel,
     by decide +kernel, by decide +kernel, by decide +kernel, by decide +kernel⟩⟩

def dmaMovement1 : Mach := (up.withHold { dmaHold with desc := 2 ^ 41 })
def dmaMovement2 : Mach := (up.withHold { dmaHold with step := .status, fin := some ⟨0, 0, 0⟩ })
def dmaMovement4 : Mach := (up.withHold { dmaHold with read := some (4, 4) })
def dmaMovement5 : Mach := (up.withHold { dmaHold with read := some (0, 4) })
def dmaMovement6 : Mach := ((up.withHold { dmaHold with fin := some ⟨0, 0, 0⟩, step := .host }).set (DMA_CH_STAT_STATE 0) 2)
def dmaMovement7 : Mach := ((up.withHold { dmaHold with step := .status, fin := some ⟨0, 0, 0⟩ }).set (DMA_CH_STAT_STATE 0) 3)
def dmaMovement8 : Mach := ((fun m : Mach => ({ m with clock := 10 ^ 18 } : Mach)) ((up.withHold dmaHold).set (DMA_CH_STAT_STATE 0) 3))
def dmaMovement9 : Mach := ((fun m : Mach => ({ m with clock := 10 ^ 18 } : Mach)) (up.withHold { dmaHold with read := some (4, 4) }))
theorem test_hyps_DmaMovement :
    (∃ (s : State), Running 11 37 s.m ∧ (∀ (c : DmaCh) (h : DmaHold),
      s.m.dma.chans[c] = some h → h.cause ≠ 0 ∨ s.m.chQuiet c = false) ∧ (∀ (c : DmaCh), s.m.hostReady c = false)) ∧
    (∃ (s : State) (n : DmaCh) (h : DmaHold), Running 11 37 s.m ∧ s.m.dma.chans[n] = some h ∧ (∀ (c : DmaCh),
      c ≠ n → s.m.dma.chans[c] = none) ∧ h.step = DmaStep.unit ∧ h.cause = 0 ∧ h.fin = none ∧ h.stop = none ∧
      s.m.chQuiet n = true ∧ h.desc.dir = 0 ∧ h.desc.bhdl = false ∧ h.desc.hidx = false ∧
      h.moved + h.arrived.length < h.desc.length) ∧
    (∃ (s : State) (n : DmaCh) (h : DmaHold) (e : DmaEnd), Running 11 37 s.m ∧ s.m.dma.chans[n] = some h ∧
      h.step = DmaStep.status ∧ h.fin = some e ∧ h.cause = 0 ∧ s.m.chQuiet n = true) ∧
    (∃ (s : State) (n : DmaCh), Running 11 37 s.m ∧ (∀ (h : DmaHold), s.m.dma.chans[n] = some h → h.read = none)) ∧
    (∃ (s : State) (n : DmaCh) (h : DmaHold) (r : Nat × Nat) (bs : List Byte), Running 11 37 s.m ∧
      s.m.dma.chans[n] = some h ∧ h.read = some r ∧ bs.length < r.snd) ∧
    (∃ (s : State) (n : DmaCh) (h : DmaHold) (r : Nat × Nat) (bs : List Byte), Running 11 37 s.m ∧
      s.m.dma.chans[n] = some h ∧ h.read = some r ∧ r.snd ≤ bs.length ∧ h.desc.unitSize h.moved ≤ h.arrived.length + r.snd) ∧
    (∃ (s : State) (n : DmaCh) (r : DmaRound) (h : DmaHold), Running 11 37 s.m ∧
      (DmaRound.next s.m.dmaWeight (fun l c => s.m.dmaLevel c == l && (s.m.get (DMA_CH_STAT_STATE c.val) == 2 && match s.m.dma.chans[c] with | some h => h.fin.isSome && h.cause == 0 && h.step == DmaStep.host | none => false)) 5 s.m.dma.host = some (n,
      r)) ∧ s.m.dma.chans[n] = some h) ∧
    (∃ (s : State) (n : DmaCh) (h : DmaHold) (e : DmaEnd), Running 11 37 s.m ∧ s.m.get (DMA_CH_STAT_STATE n.val) = 3 ∧
      s.m.dma.chans[n] = some h ∧ h.fin = some e) ∧
    (∃ (s : State) (n : DmaCh) (h : DmaHold), Running 11 37 s.m ∧ s.m.dma.chans[n] = some h ∧
      11200 * timeoutUs s.m.host.ports[h.desc.port].cto * 9 / 10 ≤ s.m.clock - h.since ∧ h.since ≤ s.m.clock ∧
      s.m.get (DMA_CH_STAT_STATE n.val) = 3) ∧
    (∃ (s : State) (n : DmaCh) (h : DmaHold) (r : Nat × Nat), Running 11 37 s.m ∧ s.m.dma.chans[n] = some h ∧
      11200 * timeoutUs s.m.host.ports[h.desc.port].cto * 9 / 10 ≤ s.m.clock - h.since ∧ h.since ≤ s.m.clock ∧
      s.m.get (DMA_CH_STAT_STATE n.val) ≠ 3 ∧ h.read = some r ∧ (h.desc.bhdl = true ∨ h.arrived = [])) ∧
    (∃ (s : State) (n : DmaCh) (h : DmaHold), Running 11 37 s.m ∧ s.m.dma.chans[n] = some h ∧
      s.m.clock < h.since + timeoutUs s.m.host.ports[h.desc.port].cto * 11200 * 9 / 10) ∧
    (∃ (s : State) (n : DmaCh) (h : DmaHold) (k : Nat) (p : PoolId) (i : Nat) (block : List Byte), Running 11 37 s.m ∧
      s.m.dma.chans[n] = some h ∧ (∀ (c : DmaCh), c ≠ n → s.m.dma.chans[c] = none) ∧ h.step = DmaStep.unit ∧ h.cause = 0 ∧
      h.fin = none ∧ s.m.chQuiet n = true ∧ h.desc.dir = 1 ∧ h.desc.bhdl = true ∧ h.last = none ∧
      k = h.moved / h.desc.sectorSize ∧ s.m.sectorBuffer h.desc k = ((some (p, i), none), s.m) ∧
      s.m.readSector p i = ((block, none), s.m) ∧
      ofBytesLE (List.take 4 (List.drop 4112 block)) ≠ sectorCrc (ofBytesLE (List.take 8 (List.drop 4116 block))) block) :=
  ⟨⟨⟨[], up⟩, by delta Running; decide +kernel, all_fin (by decide +kernel), by decide +kernel⟩,
   ⟨⟨[], dmaMovement1⟩, 0, { dmaHold with desc := 2 ^ 41 }, by delta Running; decide +kernel⟩,
   ⟨⟨[], dmaMovement2⟩, 0, (dmaMovement2.dma.chans[0].getD dmaHold),
     (((dmaMovement2.dma.chans[0].getD dmaHold).fin).getD (⟨0, 0, 0⟩)), by delta Running; decide +kernel⟩,
   ⟨⟨[], up⟩, 0, by delta Running; decide +kernel, all_some (by decide +kernel)⟩,
   ⟨⟨[], dmaMovement4⟩, 0, (dmaMovement4.dma.chans[0].getD dmaHold),
     (((dmaMovement4.dma.chans[0].getD dmaHold).read).getD (0, 0)), ([]), by delta Running; decide +kernel⟩,
   ⟨⟨[], dmaMovement5⟩, 0, { dmaHold with read := some (0, 4) }, (0, 4), [0, 0, 0, 0], by delta Running; decide +kernel⟩,
   ⟨⟨[], dmaMovement6⟩,
     ((DmaRound.next dmaMovement6.dmaWeight (fun l c => dmaMovement6.dmaLevel c == l && (dmaMovement6.get (DMA_CH_STAT_STATE c.val) == 2 && match dmaMovement6.dma.chans[c] with | some h => h.fin.isSome && h.cause == 0 && h.step == DmaStep.host | none => false)) 5 dmaMovement6.dma.host).getD (0,
     ⟨0, 0, Vector.replicate 4 0⟩)).1,
     ((DmaRound.next dmaMovement6.dmaWeight (fun l c => dmaMovement6.dmaLevel c == l && (dmaMovement6.get (DMA_CH_STAT_STATE c.val) == 2 && match dmaMovement6.dma.chans[c] with | some h => h.fin.isSome && h.cause == 0 && h.step == DmaStep.host | none => false)) 5 dmaMovement6.dma.host).getD (0,
     ⟨0, 0, Vector.replicate 4 0⟩)).2, { dmaHold with fin := some ⟨0, 0, 0⟩, step := .host },
     by delta Running; decide +kernel⟩,
   ⟨⟨[], dmaMovement7⟩, 0, (dmaMovement7.dma.chans[0].getD dmaHold),
     (((dmaMovement7.dma.chans[0].getD dmaHold).fin).getD (⟨0, 0, 0⟩)), by delta Running; decide +kernel⟩,
   ⟨⟨[], dmaMovement8⟩, 0, (dmaMovement8.dma.chans[0].getD dmaHold), by delta Running; decide +kernel⟩,
   ⟨⟨[], dmaMovement9⟩, 0, (dmaMovement9.dma.chans[0].getD dmaHold),
     ((((dmaMovement9.dma.chans[0].getD dmaHold) : DmaHold).read).getD (0, 0)), by delta Running; decide +kernel⟩,
   ⟨⟨[], dmaRings1⟩, 0, (dmaRings1.dma.chans[0].getD dmaHold), by delta Running; decide +kernel⟩,
   exists_bad_crc⟩

def hostLink1 : Mach := ((up.setFlag HIF_CTRL_TRAIN_EN0 true).setPort 0 fun p => { p with perst := false })
def hostLink2 : Mach := (up.set (HIF_LINK_UP 0) 1)
def hostLink3 : Mach := (up.setPort 0 fun p => { p with perst := false })
def hostLink4 : Mach := ((up.setPort 0 fun p => { p with aspmL1 := true, l11 := true, l12 := true }).set (HIF_LINK_UP 0) 1)
def hostLink6 : Mach := (up.set (HIF_LINK_PMSTATE 0) 1)
theorem test_hyps_HostLink :
    (∃ (s : State) (en0 : Bool) (en1 : Bool), (en0 = true ∨ s.m.is (HIF_LINK_UP 0) = false) ∧
      (en1 = true ∨ s.m.is (HIF_LINK_UP 1) = false)) ∧
    (∃ (s : State) (p : PortId) (speed : Fin 6) (width : Fin 5), s.m.clockGood 38 = true ∧ s.m.mayTrain p = true ∧
      s.m.is (HIF_LINK_UP p.val) = false ∧ 1 ≤ speed.val ∧ speed.val ≤ s.m.maxSpeed ∧
      (width.val = 1 ∨ width.val = 2 ∨ width.val = 4 ∧ s.m.dual = false)) ∧
    (∃ (s : State) (p : PortId), s.m.is (HIF_LINK_UP p.val) = true ∧ Sound s.m p) ∧
    (∃ (s : State) (p : PortId), s.m.host.ports[p].perst = false ∧ Sound s.m p) ∧
    (∃ (s : State) (p : PortId) (sub : Fin 3), s.m.clockGood 38 = true ∧ s.m.host.ports[p].aspmL1 = true ∧
      s.m.is (HIF_LINK_UP p.val) = true ∧ s.m.get (HIF_LINK_PMSTATE p.val) = 0 ∧ (sub = 1 → s.m.host.ports[p].l11 = true) ∧
      (sub = 2 → s.m.host.ports[p].l12 = true ∧ s.m.host.ports[p].l12Thr ≤ 1000 * s.m.host.ports[p].ltr)) ∧
    (∃ (s : State) (p : PortId) (sub : Fin 3), s.m.clockGood 38 = true ∧ (s.m.host.ports[p].aspmL1 = false ∨ sub = 1 ∧
      s.m.host.ports[p].l11 = false ∨ sub = 2 ∧
      (s.m.host.ports[p].l12 = false ∨ 1000 * s.m.host.ports[p].ltr < s.m.host.ports[p].l12Thr))) ∧
    (∃ (s : State) (p : PortId), s.m.clockGood 38 = true ∧ 1 ≤ s.m.get (HIF_LINK_PMSTATE p.val) ∧
      s.m.get (HIF_LINK_PMSTATE p.val) ≤ 3) :=
  ⟨⟨⟨[], up⟩, true, true, by decide +kernel⟩,
   ⟨⟨[], hostLink1⟩, 0, 1, 1, by decide +kernel⟩,
   ⟨⟨[], hostLink2⟩, 0, by delta Sound; decide +kernel⟩,
   ⟨⟨[], hostLink3⟩, 0, by delta Sound; decide +kernel⟩,
   ⟨⟨[], hostLink4⟩, 0, 0, by decide +kernel⟩,
   ⟨⟨[], up⟩, 0, 0, by decide +kernel⟩,
   ⟨⟨[], hostLink6⟩, 0, by decide +kernel⟩⟩

def controllerRegisters0 : Mach := (up.setCtrl 0 fun c => { c with aqa := 0x10001 })
def controllerRegisters1 : Mach := (up.rstf fun r => { r with coresUp := false })
def controllerRegisters3 : Mach := (up.withQueues subQueue compQueue)
def controllerRegisters5 : Mach := (up.setCtrl 0 fun c => { c with shst := 1 })
theorem test_hyps_ControllerRegisters :
    (∃ (s : State) (p : PortId) (cc : Word), s.m.clockGood 38 = true ∧ BitVec.getLsbD s.m.host.ctrls[p].cc 0 = false ∧
      s.m.host.ctrls[p].enableOk (cc ||| 1) = true ∧ s.m.rst.coresUp = true) ∧
    (∃ (s : State) (p : PortId), s.m.clockGood 38 = true ∧ BitVec.getLsbD s.m.host.ctrls[p].cc 0 = false ∧
      s.m.rst.coresUp = false) ∧
    (∃ (s : State) (p : PortId) (cc : Word), s.m.clockGood 38 = true ∧ BitVec.getLsbD s.m.host.ctrls[p].cc 0 = false ∧
      s.m.host.ctrls[p].enableOk (cc ||| 1) = false ∧ s.m.rst.coresUp = true) ∧
    (∃ (s : State) (p : PortId), s.m.clockGood 38 = true ∧ BitVec.getLsbD s.m.host.ctrls[p].cc 0 = true ∧ Sound s.m p) ∧
    (∃ (s : State) (p : PortId), s.m.clockGood 38 = true ∧ s.m.host.ctrls[p].rdy = true) ∧
    (∃ (s : State) (p : PortId), s.m.clockGood 38 = true ∧ s.m.host.ctrls[p].shst = 1 ∧ s.m.allDestaged = true ∧
      (∀ (c : Cmd), c ∈ s.m.cmd.table → c.ctrl = p → c.isAer = true)) ∧
    (∃ (s : State) (p : PortId), s.m.clockGood 38 = true ∧ (s.m.host.ctrls[p].shst ≠ 1 ∨ s.m.allDestaged = false)) ∧
    (∃ (s : State) (w : Word), s.m.clockGood 38 = true ∧ w ≠ 1314278757) ∧
    (∃ (s : State), s.m.clockGood 38 = true ∧ Sound s.m 0 ∧ Sound s.m 1) ∧
    (∃ (s : State) (p : PortId) (qid : BitVec 16), s.m.clockGood 38 = true ∧ (∀ (q : SubQueue),
      q ∈ s.m.host.ctrls[p].sqs → q.id ≠ qid.toNat)) ∧
    (∃ (s : State) (p : PortId) (qid : BitVec 16) (v : BitVec 16) (q : SubQueue), s.m.clockGood 38 = true ∧
      List.find? (fun x => x.id == qid.toNat) s.m.host.ctrls[p].sqs = some q ∧ q.size ≤ v.toNat) ∧
    (∃ (s : State) (p : PortId) (qid : BitVec 16) (v : BitVec 16) (q : SubQueue), s.m.clockGood 38 = true ∧
      List.find? (fun x => x.id == qid.toNat) s.m.host.ctrls[p].sqs = some q ∧ v.toNat < q.size) ∧
    (∃ (s : State) (p : PortId) (qid : BitVec 16), s.m.clockGood 38 = true ∧ (∀ (q : CompQueue),
      q ∈ s.m.host.ctrls[p].cqs → q.id ≠ qid.toNat)) ∧
    (∃ (s : State) (p : PortId) (qid : BitVec 16) (v : BitVec 16) (q : CompQueue), s.m.clockGood 38 = true ∧
      List.find? (fun x => x.id == qid.toNat) s.m.host.ctrls[p].cqs = some q ∧ v.toNat < q.size ∧
      (v.toNat + q.size - q.head) % q.size ≤ (q.tail + q.size - q.head) % q.size) ∧
    (∃ (s : State), s.m.clockGood 38 = true ∧ Running 19 38 s.m) :=
  ⟨⟨⟨[], controllerRegisters0⟩, 0, 4587520, by decide +kernel⟩,
   ⟨⟨[], controllerRegisters1⟩, 0, by decide +kernel⟩,
   ⟨⟨[], up⟩, 0, 1, by decide +kernel⟩,
   ⟨⟨[], controllerRegisters3⟩, 0, by delta Sound; decide +kernel⟩,
   ⟨⟨[], controllerRegisters3⟩, 0, by decide +kernel⟩,
   ⟨⟨[], controllerRegisters5⟩, 0, by decide +kernel⟩,
   ⟨⟨[], up⟩, 0, by decide +kernel⟩,
   ⟨⟨[], up⟩, 1, by decide +kernel⟩,
   ⟨⟨[], up⟩, by delta Sound; decide +kernel⟩,
   ⟨⟨[], up⟩, 0, 1, by decide +kernel⟩,
   ⟨⟨[], controllerRegisters3⟩, 0, 0, 38,
     ((List.find? (fun x => x.id == (0 : BitVec 16).toNat) controllerRegisters3.host.ctrls[0].sqs).getD subQueue),
     by decide +kernel⟩,
   ⟨⟨[], controllerRegisters3⟩, 0, 0, 1,
     ((List.find? (fun x => x.id == (0 : BitVec 16).toNat) controllerRegisters3.host.ctrls[0].sqs).getD subQueue),
     by decide +kernel⟩,
   ⟨⟨[], up⟩, 0, 1, by decide +kernel⟩,
   ⟨⟨[], controllerRegisters3⟩, 0, 0, 0,
     ((List.find? (fun x => x.id == (0 : BitVec 16).toNat) controllerRegisters3.host.ctrls[0].cqs).getD compQueue),
     by decide +kernel⟩,
   ⟨⟨[], up⟩, by delta Running; decide +kernel⟩⟩

def fetchAndCompletion0 : Mach := ((up.withQueues subQueue { compQueue with tail := 7 }).withCmd { cmdOf 0 0 .dispatched with result := some ⟨0, 0⟩ })
def fetchAndCompletion1 : Mach := (up.withQueues subQueue compQueue |>.withCmd { cmdOf 0 0 .dispatched with result := some ⟨0, 0⟩ })
def fetchAndCompletion3 : Mach := (up.setCmdState fun s => { s with quiet := some (7, 2) })
def fetchAndCompletion4 : Mach := (up.runs 1 0x100000000)
def fetchAndCompletion5 : Mach := ((up.setPwr fun p => { p with dirty := [dirtyUnit] }).runs 1 0xffffffff00000000)
def fetchAndCompletion7 : Mach := ((up.withQueues { subQueue with tail := 1 } compQueue).set QSQ_CTRL_FETCH_EN0 1)
def fetchAndCompletion8 : Mach := ((((fun m : Mach => ({ m with host := { m.host with grants := updAt m.host.grants 0 fun _ => some ⟨0, 0, 1, 0, 7, false, false⟩ } } : Mach)) up).withQueues subQueue compQueue).holdsWord 12 (wd 0 16))
def fetchAndCompletion10 : Mach := ((fun m : Mach => ({ m with host := { m.host with grants := updAt m.host.grants 0 fun _ => some ⟨0, 0, 1, 0, 7, true, false⟩ } } : Mach)) up)
def fetchAndCompletion11 : Mach := ((fun m : Mach => ({ m with host := { m.host with grants := updAt m.host.grants 0 fun _ => some ⟨0, 0, 1, 0, 7, true, true⟩ } } : Mach)) up)
theorem test_hyps_FetchAndCompletion :
    (∃ (s : State) (fsn : BitVec 32) (c : Cmd) (r : CmdResult) (sq : SubQueue) (cq : CompQueue), Running 19 38 s.m ∧
      s.m.command fsn.toNat = some c ∧ c.result = some r ∧
      List.find? (fun x => x.id == c.sqid) s.m.host.ctrls[c.ctrl].sqs = some sq ∧
      List.find? (fun x => x.id == sq.cq) s.m.host.ctrls[c.ctrl].cqs = some cq ∧
      ((cq.tail + 1) % cq.size = cq.head ∨ s.m.isDurable c = false ∨ s.m.cfs c.ctrl = true ∨ s.m.host.ports[c.ctrl].d3hot = true ∨ s.m.mode = 9)) ∧
    (∃ (s : State) (fsn : BitVec 32) (c : Cmd) (r : CmdResult) (sq : SubQueue) (cq : CompQueue), Running 19 38 s.m ∧
      s.m.command fsn.toNat = some c ∧ c.result = some r ∧
      List.find? (fun x => x.id == c.sqid) s.m.host.ctrls[c.ctrl].sqs = some sq ∧
      List.find? (fun x => x.id == sq.cq) s.m.host.ctrls[c.ctrl].cqs = some cq ∧ (cq.tail + 1) % cq.size ≠ cq.head ∧
      s.m.isDurable c = true ∧ s.m.cfs c.ctrl = false ∧ s.m.host.ports[c.ctrl].d3hot = false ∧ s.m.mode ≠ 9) ∧
    (∃ (s : State), s.m.cmd.quiet = none) ∧
    (∃ (s : State) (f : Nat) (slot : Nat), s.m.cmd.quiet = some (f, slot) ∧ s.m.isQuiet f = true) ∧
    (∃ (s : State) (fsn : BitVec 32) (c : Cmd), s.m.running fsn.toNat 1 0 = some c ∧ s.m.pwr.dirty = [] ∧ (∀ (d : Cmd),
      d ∈ s.m.cmd.table → d.kind ≠ some RangeKind.write) ∧ (∀ (a : Actuator), s.m.media.wpath[a].groups = [])) ∧
    (∃ (s : State) (fsn : BitVec 32) (c : Cmd) (u : DirtyUnit), s.m.running fsn.toNat 1 0 = some c ∧ c.nsid = 4294967295 ∧
      u ∈ s.m.pwr.dirty ∧ u.isMeta = false ∧ u.fsn = none) ∧
    (∃ (s : State), Running 19 38 s.m ∧ (s.m.idleQs = none ∨ s.m.offer 0 = none ∧ s.m.offer 1 = none)) ∧
    (∃ (s : State) (k : Fin 4) (p : PortId) (x : ArbChoice) (n : Nat), Running 19 38 s.m ∧ s.m.idleQs = some k ∧
      s.m.offer p = some (x, n) ∧ (s.m.offer (1 - p) = none ∨ s.m.host.lastCtrl ≠ p)) ∧
    (∃ (s : State) (k : Fin 4) (inp : Bool) (u : Micro) (next : Nat) (g : Grant) (q : SubQueue), Running 19 38 s.m ∧
      AtWord s.m (seqQS k) inp u next ∧ u.alu = 0 ∧ u.xop = 16 ∧ s.m.host.grants[k] = some g ∧
      List.find? (fun x => x.id == g.sqid) s.m.host.ctrls[g.ctrl].sqs = some q ∧ g.issued = false) ∧
    (∃ (s : State) (k : Fin 4), Running 19 38 s.m ∧ (s.m.host.grants[k] = none ∨ ∃ g, s.m.host.grants[k] = some g ∧
      g.issued = false)) ∧
    (∃ (s : State) (k : Fin 4) (g : Grant), Running 19 38 s.m ∧ s.m.host.grants[k] = some g ∧ g.issued = true ∧
      g.retried = false) ∧
    (∃ (s : State) (k : Fin 4) (g : Grant), Running 19 38 s.m ∧ s.m.host.grants[k] = some g ∧ g.issued = true ∧
      g.retried = true) :=
  ⟨⟨⟨[], fetchAndCompletion0⟩, 7, ((fetchAndCompletion0.command 7).getD (cmdOf 0 0 .granted)), ⟨0, 0⟩, subQueue,
    { compQueue with tail := 7 }, by delta Running; decide +kernel⟩,
   ⟨⟨[], fetchAndCompletion1⟩, 7, ((fetchAndCompletion1.command (7 : BitVec 32).toNat).getD (cmdOf 0 0 .granted)),
     (((((fetchAndCompletion1.command (7 : BitVec 32).toNat).getD (cmdOf 0 0 .granted)) : Cmd).result).getD (⟨0, 0⟩)),
     ((List.find? (fun x => x.id == (((fetchAndCompletion1.command (7 : BitVec 32).toNat).getD (cmdOf 0 0 .granted)) : Cmd).sqid) fetchAndCompletion1.host.ctrls[(((fetchAndCompletion1.command (7 : BitVec 32).toNat).getD (cmdOf 0 0 .granted)) : Cmd).ctrl].sqs).getD subQueue),
     ((List.find? (fun x => x.id == (((List.find? (fun x => x.id == (((fetchAndCompletion1.command (7 : BitVec 32).toNat).getD (cmdOf 0 0 .granted)) : Cmd).sqid) fetchAndCompletion1.host.ctrls[(((fetchAndCompletion1.command (7 : BitVec 32).toNat).getD (cmdOf 0 0 .granted)) : Cmd).ctrl].sqs).getD subQueue) : SubQueue).cq) fetchAndCompletion1.host.ctrls[(((fetchAndCompletion1.command (7 : BitVec 32).toNat).getD (cmdOf 0 0 .granted)) : Cmd).ctrl].cqs).getD compQueue),
     by delta Running; decide +kernel⟩,
   ⟨⟨[], up⟩, by decide +kernel⟩,
   ⟨⟨[], fetchAndCompletion3⟩, (fetchAndCompletion3.cmd.quiet.getD (0, 0)).1, (fetchAndCompletion3.cmd.quiet.getD (0, 0)).2,
     by decide +kernel⟩,
   ⟨⟨[], fetchAndCompletion4⟩, 7, ((fetchAndCompletion4.running (7 : BitVec 32).toNat 1 0).getD (cmdOf 0 0 .granted)),
     by decide +kernel⟩,
   ⟨⟨[], fetchAndCompletion5⟩, 7, ((fetchAndCompletion5.running (7 : BitVec 32).toNat 1 0).getD (cmdOf 0 0 .granted)),
     (fetchAndCompletion5.pwr.dirty.headD dirtyUnit), by decide +kernel⟩,
   ⟨⟨[], up⟩, by delta Running; decide +kernel⟩,
   ⟨⟨[], fetchAndCompletion7⟩, (fetchAndCompletion7.idleQs.getD (0)), 0, ((fetchAndCompletion7.offer 0).getD (⟨subQueue, 0,
     0, #v[0, 0, 0]⟩, 0)).1, ((fetchAndCompletion7.offer 0).getD (⟨subQueue, 0, 0, #v[0, 0, 0]⟩, 0)).2,
     by delta Running; decide +kernel⟩,
   ⟨⟨[], fetchAndCompletion8⟩, 0, true, (microOf (wd 0 16)), 0, (fetchAndCompletion8.host.grants[0].getD (⟨0, 0, 1, 0, 7,
     false, false⟩)), ((List.find? (fun x => x.id == ((fetchAndCompletion8.host.grants[0].getD (⟨0, 0, 1, 0, 7, false,
     false⟩)) : Grant).sqid) fetchAndCompletion8.host.ctrls[((fetchAndCompletion8.host.grants[0].getD (⟨0, 0, 1, 0, 7, false,
     false⟩)) : Grant).ctrl].sqs).getD subQueue), by delta Running; decide +kernel, atWord_of (wd 0 16) (by decide +kernel),
     by decide +kernel, by decide +kernel, by decide +kernel, by decide +kernel, by decide +kernel⟩,
   ⟨⟨[], up⟩, 0, by delta Running; decide +kernel⟩,
   ⟨⟨[], fetchAndCompletion10⟩, 0, (fetchAndCompletion10.host.grants[0].getD (⟨0, 0, 1, 0, 7, false, false⟩)),
     by delta Running; decide +kernel⟩,
   ⟨⟨[], fetchAndCompletion11⟩, 0, (fetchAndCompletion11.host.grants[0].getD (⟨0, 0, 1, 0, 7, false, false⟩)),
     by delta Running; decide +kernel⟩⟩

def checkAndDispatch1 : Mach := ((up.withCmd (cmdOf 0 6 .fetched)).holdsWord 12 (wd 0 17))
def checkAndDispatch2 : Mach := (up.withCmd { cmdOf 0 6 .checked with verdict := some 2 })
def checkAndDispatch3 : Mach := (up.withCmd (cmdOf 0 6 .checked))
def checkAndDispatch4 : Mach := ((up.withCmd (cmdOf 0 6 .checked)).valid 0 6)
def checkAndDispatch5 : Mach := ((((up.withQueues subQueue compQueue).withCmd { cmdOf 0 6 .checked with verdict := some 2 }).setEngine fun e => { e with seqs := updAt e.seqs 12 fun q => { q with checked := some 7 } }).holdsWord 12 (wd 0 18))
def checkAndDispatch6 : Mach := ((up.withNs (ns false)).set SEC_SLOTS_LOADED 0xFFFFFFFF)
def checkAndDispatch9 : Mach := (up.set (QDR_ACT_PARKED 0) 0)
def checkAndDispatch11 : Mach := (up.setCmdState fun s => { s with specs := [specCopy] })
def checkAndDispatch12 : Mach := ((fun m : Mach => { m with clock := 10 ^ 12 }) (up.setCmdState fun s => { s with specs := [specCopy] }))
theorem test_hyps_CheckAndDispatch :
    (∃ (s : State), Running 19 38 s.m ∧ s.m.nextToCheck = none) ∧
    (∃ (s : State) (k : Fin 4) (inp : Bool) (u : Micro) (next : Nat) (c : Cmd), Running 19 38 s.m ∧
      AtWord s.m (seqQS k) inp u next ∧ u.alu = 0 ∧ u.xop = 17 ∧ s.m.nextToCheck = some c) ∧
    (∃ (s : State) (fsn : BitVec 32) (c : Cmd) (v : Nat), Running 19 38 s.m ∧ s.m.command fsn.toNat = some c ∧ (∀ (q : Seq),
      q ∈ s.m.eng.seqs.toList → q.checked ≠ some fsn.toNat) ∧ c.stage = CmdStage.checked ∧ c.live = true ∧
      s.m.cmd.quiet = none ∧ (∀ (d : Cmd),
      d ∈ s.m.cmd.table → d.ctrl = c.ctrl → d.sqid = c.sqid → fsnBefore d.fsn c.fsn = false) ∧ (∀ (q : SubQueue),
      q ∈ s.m.host.ctrls[c.ctrl].sqs → q.id = c.sqid → q.halted = none) ∧ c.verdict = some v) ∧
    (∃ (s : State) (fsn : BitVec 32) (c : Cmd), Running 19 38 s.m ∧ s.m.command fsn.toNat = some c ∧ (∀ (q : Seq),
      q ∈ s.m.eng.seqs.toList → q.checked ≠ some fsn.toNat) ∧ c.stage = CmdStage.checked ∧ c.live = true ∧
      s.m.cmd.quiet = none ∧ (∀ (d : Cmd),
      d ∈ s.m.cmd.table → d.ctrl = c.ctrl → d.sqid = c.sqid → fsnBefore d.fsn c.fsn = false) ∧ (∀ (q : SubQueue),
      q ∈ s.m.host.ctrls[c.ctrl].sqs → q.id = c.sqid → q.halted = none) ∧ c.verdict = none ∧ s.m.opcodeValid c = false) ∧
    (∃ (s : State) (fsn : BitVec 32) (c : Cmd), Running 19 38 s.m ∧ s.m.command fsn.toNat = some c ∧ (∀ (q : Seq),
      q ∈ s.m.eng.seqs.toList → q.checked ≠ some fsn.toNat) ∧ c.stage = CmdStage.checked ∧ c.live = true ∧
      s.m.cmd.quiet = none ∧ (∀ (d : Cmd),
      d ∈ s.m.cmd.table → d.ctrl = c.ctrl → d.sqid = c.sqid → fsnBefore d.fsn c.fsn = false) ∧ (∀ (q : SubQueue),
      q ∈ s.m.host.ctrls[c.ctrl].sqs → q.id = c.sqid → q.halted = none) ∧ c.verdict = none ∧ s.m.opcodeValid c = true ∧
      s.m.heldByAction c = false ∧ s.m.mode = 3 ∧ (∀ (n : Namespace), s.m.nsOf c.nsid = some n → s.m.anaLost n = false)) ∧
    (∃ (s : State) (k : Fin 4) (inp : Bool) (u : Micro) (next : Nat) (c : Cmd) (v : Nat), Running 19 38 s.m ∧
      AtWord s.m (seqQS k) inp u next ∧ u.alu = 0 ∧ u.xop = 18 ∧ s.m.eng.seqs[seqQS k].checked = some c.fsn ∧
      s.m.command c.fsn = some c ∧ c.fsn < 2 ^ 32 ∧ c.stage = CmdStage.checked ∧ c.live = true ∧ s.m.cmd.quiet = none ∧
      c.verdict = some v ∧ (∀ (d : Cmd),
      d ∈ s.m.cmd.table → d.ctrl = c.ctrl → d.sqid = c.sqid → fsnBefore d.fsn c.fsn = false) ∧ (∀ (q : SubQueue),
      q ∈ s.m.host.ctrls[c.ctrl].sqs → q.id = c.sqid → q.halted = none)) ∧
    (∃ (s : State) (nsid : BitVec 4) (first : BitVec 40) (count : Fin 257) (n : Namespace), s.m.nsOf nsid.toNat = some n ∧
      1 ≤ count.val ∧ first.toNat + count.val ≤ n.nsze ∧ s.m.cmd.specs.length < 1024 ∧ s.m.cmd.quiet = none ∧
      (∀ (u : DirtyUnit), u ∈ s.m.pwr.dirty → u.nsid ≠ nsid.toNat ∨ u.lba < first.toNat ∨ first.toNat + count.val ≤ u.lba) ∧
      (∀ (c : Cmd), c ∈ s.m.cmd.table → c.live = true → c.kind = some RangeKind.write → ∀ (r : LbaRange),
      r ∈ c.ranges → ({ nsid := nsid.toNat, first := first.toNat, count := count.val } : LbaRange).meets r = false) ∧
      (∀ (l : Nat),
      first.toNat ≤ l → l < first.toNat + count.val → (s.m.get SEC_SLOTS_LOADED).testBit ↑(s.m.lockOf nsid.toNat l) = true)) ∧
    (∃ (s : State) (nsid : BitVec 4), s.m.nsOf nsid.toNat = none) ∧
    (∃ (s : State) (a : Actuator) (target : Word),
      (s.m.motion.srv[a].faulted = true ∨ s.m.is (QDR_ACT_DEPOP a.val) = true ∨ s.m.is (QDR_ACT_PARKED a.val) = true ∨ s.m.profileIdle a = false ∧
      s.m.cmd.seeking[a] = false ∨ s.m.media.wpath[a].writer.isSome = true ∨ s.m.ladderKeeps a (BitVec.toNat target) = true)) ∧
    (∃ (s : State) (a : Actuator) (target : Word), s.m.motion.srv[a].faulted = false ∧ s.m.is (QDR_ACT_DEPOP a.val) = false ∧
      s.m.is (QDR_ACT_PARKED a.val) = false ∧ (s.m.profileIdle a = true ∨ s.m.cmd.seeking[a] = true) ∧
      s.m.media.wpath[a].writer = none ∧ s.m.ladderKeeps a (BitVec.toNat target) = false) ∧
    (∃ (s : State) (i : Nat), s.m.cmd.specs[i]? = none) ∧
    (∃ (s : State) (i : Nat) (x : SpecCopy), s.m.cmd.specs[i]? = some x ∧ s.m.clock < x.since + 5600000000) ∧
    (∃ (s : State) (i : Nat) (x : SpecCopy), s.m.cmd.specs[i]? = some x ∧ (∀ (f : Nat) (h : Option Nat),
      ¬SpecSector.bound f h ∈ x.sectors) ∧ x.since + 5600000000 ≤ s.m.clock) :=
  ⟨⟨⟨[], up⟩, by delta Running; decide +kernel⟩,
   ⟨⟨[], checkAndDispatch1⟩, 0, true, (microOf (wd 0 17)), 0, (checkAndDispatch1.nextToCheck.getD (cmdOf 0 0 .granted)),
     by delta Running; decide +kernel, atWord_of (wd 0 17) (by decide +kernel), by decide +kernel, by decide +kernel,
     by decide +kernel⟩,
   ⟨⟨[], checkAndDispatch2⟩, 7, ((checkAndDispatch2.command (7 : BitVec 32).toNat).getD (cmdOf 0 0 .granted)),
     (((((checkAndDispatch2.command (7 : BitVec 32).toNat).getD (cmdOf 0 0 .granted)) : Cmd).verdict).getD (0)),
     by delta Running; decide +kernel⟩,
   ⟨⟨[], checkAndDispatch3⟩, 7, ((checkAndDispatch3.command (7 : BitVec 32).toNat).getD (cmdOf 0 0 .granted)),
     by delta Running; decide +kernel⟩,
   ⟨⟨[], checkAndDispatch4⟩, 7, ((checkAndDispatch4.command (7 : BitVec 32).toNat).getD (cmdOf 0 0 .granted)),
     by delta Running; decide +kernel, by decide +kernel, by decide +kernel, by decide +kernel, by decide +kernel,
     by decide +kernel, by decide +kernel, by decide +kernel, by decide +kernel, by decide +kernel, by decide +kernel,
     by decide +kernel, all_some (by decide +kernel)⟩,
   ⟨⟨[], checkAndDispatch5⟩, 0, true, (microOf (wd 0 18)), 0, { cmdOf 0 6 .checked with verdict := some 2 }, 2,
     by delta Running; decide +kernel, atWord_of (wd 0 18) (by decide +kernel), by decide +kernel, by decide +kernel,
     by decide +kernel, by decide +kernel, by decide +kernel, by decide +kernel, by decide +kernel, by decide +kernel,
     by decide +kernel, by decide +kernel, by decide +kernel⟩,
   ⟨⟨[], checkAndDispatch6⟩, 1, 0, 1, (ns false), by decide +kernel, by decide +kernel, by decide +kernel, by decide +kernel,
     by decide +kernel, by decide +kernel, by decide +kernel,
     by intro l _ hl; have e : l = 0 := (by simpa using hl); subst e; decide +kernel⟩,
   ⟨⟨[], up⟩, 1, by decide +kernel⟩,
   ⟨⟨[], up⟩, 0, 1, by decide +kernel⟩,
   ⟨⟨[], checkAndDispatch9⟩, 0, 1, by decide +kernel⟩,
   ⟨⟨[], up⟩, 0, by decide +kernel⟩,
   ⟨⟨[], checkAndDispatch11⟩, 0, (checkAndDispatch11.cmd.specs[0]?.getD specCopy), by decide +kernel⟩,
   ⟨⟨[], checkAndDispatch12⟩, 0, specCopy, by decide +kernel, by intro f h hm; simp [specCopy] at hm, by decide +kernel⟩⟩

def queueCommands0 : Mach := (up.runs 0 0x100000001)
def queueCommands1 : Mach := (up.runs 0 0x100010007000100000000000000000000000000000000000000000000000000000000000000000000000100000001)
def queueCommands2 : Mach := ((up.runs 0 0x100010007000100000000000000000000000000000000000000000000000000000000000000000000000100000001).withQueues subQueue { compQueue with id := 1 })
def queueCommands3 : Mach := (up.runs 0 0x100000005)
def queueCommands4 : Mach := (up.runs 0 0x100010007000100000000000000000000000000000000000000000000000000000000000000000000000100000005)
def queueCommands5 : Mach := ((up.runs 0 0x100000000000000000000000000000000000000000000000000000000000000000000000100000004).withQueues { subQueue with id := 1, cq := 1 } { compQueue with id := 1 })
def queueCommands6 : Mach := ((up.runs 0 0x100000000000000000000000000000000000000000000000000000000000000000000000100000004).withQueues subQueue { compQueue with id := 1 })
def queueCommands7 : Mach := ((up.runs 0 0x100000000000000000000000000000000000000000000000000000000000000000000000100000000).withQueues { subQueue with id := 1, cq := 1 } { compQueue with id := 1 })
def queueCommands8 : Mach := (((up.runs 0 0x100000000000000000000000000000000000000000000000000000000000000000000000100000000).earlier (cmdOf 1 0 .checked)).withQueues { subQueue with id := 1, cq := 1 } { compQueue with id := 1 })
def queueCommands9 : Mach := (((up.checks 0 0x1000000cc).checks 0 0x1000000000000000000000000000000000000000000000000000000000000000000000001000000cc).withQueues { subQueue with id := 1, cq := 1 } { compQueue with id := 1 })
def queueCommands10 : Mach := ((((up.checks 0 0x1000000cc).checks 0 0x1000000000000000000000000000000000000000000000000000000000000000000000001000000cc).withQueues { subQueue with id := 1, cq := 1 } { compQueue with id := 1 }).withQueues { subQueue with id := 1, halted := some (0, 0, 0) } compQueue)
def queueCommands11 : Mach := ((((up.checks 0 0x10000000000000000000000000000000000000000000000000000000000000000000000000001000000cc).checks 0 0x1000000000000000000000000000000000000000000000000000000000000000000000001000000cc).withQueues { subQueue with id := 1, halted := some (0, 0, 0) } compQueue).checks 0 0x10001000000000000000000000000000000000000000000000000000000000000000000000001000000cc)
def queueCommands12 : Mach := (up.checks 0 0x1000000cc)
def queueCommands13 : Mach := (up.checks 0 0x10000000000000000000000000000000000000000000000000000000000000000000000000001000000cc)
theorem test_hyps_QueueCommands :
    (∃ (s : State) (fsn : BitVec 32) (c : Cmd) (x : Answer), s.m.running fsn.toNat 0 1 = some c ∧
      Mach.queueRefused c (s.m.host.ctrls[c.ctrl].sqs.any fun x9 => x9.id == c.dw 10 0 16) = some x) ∧
    (∃ (s : State) (fsn : BitVec 32) (c : Cmd), s.m.running fsn.toNat 0 1 = some c ∧
      Mach.queueRefused c (s.m.host.ctrls[c.ctrl].sqs.any fun x => x.id == c.dw 10 0 16) = none ∧ (∀ (q : CompQueue),
      q ∈ s.m.host.ctrls[c.ctrl].cqs → q.id = 0 ∨ q.id ≠ c.dw 11 16 16)) ∧
    (∃ (s : State) (fsn : BitVec 32) (c : Cmd), s.m.running fsn.toNat 0 1 = some c ∧
      Mach.queueRefused c (s.m.host.ctrls[c.ctrl].sqs.any fun x => x.id == c.dw 10 0 16) = none ∧ (∃ q,
      q ∈ s.m.host.ctrls[c.ctrl].cqs ∧ q.id = c.dw 11 16 16 ∧ q.id ≠ 0) ∧ c.dw 6 0 64 % s.m.pageSize c.ctrl = 0) ∧
    (∃ (s : State) (fsn : BitVec 32) (c : Cmd) (x : Answer), s.m.running fsn.toNat 0 5 = some c ∧
      Mach.queueRefused c (s.m.host.ctrls[c.ctrl].cqs.any fun x9 => x9.id == c.dw 10 0 16) = some x) ∧
    (∃ (s : State) (fsn : BitVec 32) (c : Cmd), s.m.running fsn.toNat 0 5 = some c ∧
      Mach.queueRefused c (s.m.host.ctrls[c.ctrl].cqs.any fun x => x.id == c.dw 10 0 16) = none ∧ c.dw 11 16 16 ≤ 128 ∧
      c.dw 6 0 64 % s.m.pageSize c.ctrl = 0) ∧
    (∃ (s : State) (fsn : BitVec 32) (c : Cmd), s.m.running fsn.toNat 0 4 = some c ∧ c.dw 10 0 16 ≠ 0 ∧ (∃ q,
      q ∈ s.m.host.ctrls[c.ctrl].cqs ∧ q.id = c.dw 10 0 16) ∧ (∃ q, q ∈ s.m.host.ctrls[c.ctrl].sqs ∧ q.cq = c.dw 10 0 16)) ∧
    (∃ (s : State) (fsn : BitVec 32) (c : Cmd), s.m.running fsn.toNat 0 4 = some c ∧ c.dw 10 0 16 ≠ 0 ∧ (∃ q,
      q ∈ s.m.host.ctrls[c.ctrl].cqs ∧ q.id = c.dw 10 0 16) ∧ (∀ (q : SubQueue),
      q ∈ s.m.host.ctrls[c.ctrl].sqs → q.cq ≠ c.dw 10 0 16)) ∧
    (∃ (s : State) (fsn : BitVec 32) (c : Cmd), s.m.running fsn.toNat 0 0 = some c ∧ c.dw 10 0 16 ≠ 0 ∧ (∃ q,
      q ∈ s.m.host.ctrls[c.ctrl].sqs ∧ q.id = c.dw 10 0 16) ∧ (∀ (d : Cmd),
      d ∈ s.m.cmd.table → d.ctrl = c.ctrl → d.sqid ≠ c.dw 10 0 16)) ∧
    (∃ (s : State) (fsn : BitVec 32) (c : Cmd) (d : Cmd), s.m.running fsn.toNat 0 0 = some c ∧ c.dw 10 0 16 ≠ 0 ∧ (∃ q,
      q ∈ s.m.host.ctrls[c.ctrl].sqs ∧ q.id = c.dw 10 0 16) ∧ d ∈ s.m.cmd.table ∧ d.ctrl = c.ctrl ∧ d.sqid = c.dw 10 0 16 ∧
      d.live = true ∧ d.stage = CmdStage.checked) ∧
    (∃ (s : State) (fsn : BitVec 32) (c : Cmd) (q : SubQueue), s.m.checking fsn.toNat 0 204 = some c ∧ c.dw 10 16 1 = 0 ∧
      List.find? (fun q9 => q9.id == c.dw 10 0 16 && q9.id != 0) s.m.host.ctrls[c.ctrl].sqs = some q ∧ q.halted = none) ∧
    (∃ (s : State) (fsn : BitVec 32) (c : Cmd) (q : SubQueue), s.m.checking fsn.toNat 0 204 = some c ∧ c.dw 10 16 1 = 0 ∧
      List.find? (fun q9 => q9.id == c.dw 10 0 16 && q9.id != 0) s.m.host.ctrls[c.ctrl].sqs = some q ∧
      q.halted.isSome = true) ∧
    (∃ (s : State) (fsn : BitVec 32) (c : Cmd) (q : SubQueue), s.m.checking fsn.toNat 0 204 = some c ∧ c.dw 10 16 1 = 1 ∧
      List.find? (fun q9 => q9.id == c.dw 10 0 16 && q9.id != 0) s.m.host.ctrls[c.ctrl].sqs = some q ∧
      q.halted.isSome = true) ∧
    (∃ (s : State) (fsn : BitVec 32) (c : Cmd), s.m.checking fsn.toNat 0 204 = some c ∧ (∀ (q : SubQueue),
      q ∈ s.m.host.ctrls[c.ctrl].sqs → q.id = 0 ∨ q.id ≠ c.dw 10 0 16) ∧ c.dw 10 16 1 = 0) ∧
    (∃ (s : State) (fsn : BitVec 32) (c : Cmd), s.m.checking fsn.toNat 0 204 = some c ∧ (∀ (q : SubQueue),
      q ∈ s.m.host.ctrls[c.ctrl].sqs → q.id = 0 ∨ q.id ≠ c.dw 10 0 16) ∧ c.dw 10 16 1 = 1) :=
  ⟨⟨⟨[], queueCommands0⟩, 7, ((queueCommands0.running (7 : BitVec 32).toNat 0 1).getD (cmdOf 0 0 .granted)),
    ((Mach.queueRefused ((queueCommands0.running (7 : BitVec 32).toNat 0 1).getD (cmdOf 0 0 .granted)) (queueCommands0.host.ctrls[((queueCommands0.running (7 : BitVec 32).toNat 0 1).getD (cmdOf 0 0 .granted)).ctrl].sqs.any fun x9 => x9.id == ((queueCommands0.running (7 : BitVec 32).toNat 0 1).getD (cmdOf 0 0 .granted)).dw 10 0 16)).getD (Answer.ok 0 [])),
    by decide +kernel⟩,
   ⟨⟨[], queueCommands1⟩, 7, ((queueCommands1.running (7 : BitVec 32).toNat 0 1).getD (cmdOf 0 0 .granted)),
     by decide +kernel⟩,
   ⟨⟨[], queueCommands2⟩, 7, ((queueCommands2.running (7 : BitVec 32).toNat 0 1).getD (cmdOf 0 0 .granted)),
     by decide +kernel⟩,
   ⟨⟨[], queueCommands3⟩, 7, ((queueCommands3.running (7 : BitVec 32).toNat 0 5).getD (cmdOf 0 0 .granted)),
     ((Mach.queueRefused ((queueCommands3.running (7 : BitVec 32).toNat 0 5).getD (cmdOf 0 0 .granted)) (queueCommands3.host.ctrls[((queueCommands3.running (7 : BitVec 32).toNat 0 5).getD (cmdOf 0 0 .granted)).ctrl].cqs.any fun x9 => x9.id == ((queueCommands3.running (7 : BitVec 32).toNat 0 5).getD (cmdOf 0 0 .granted)).dw 10 0 16)).getD (Answer.ok 0 [])),
     by decide +kernel⟩,
   ⟨⟨[], queueCommands4⟩, 7, ((queueCommands4.running (7 : BitVec 32).toNat 0 5).getD (cmdOf 0 0 .granted)),
     by decide +kernel⟩,
   ⟨⟨[], queueCommands5⟩, 7, ((queueCommands5.running (7 : BitVec 32).toNat 0 4).getD (cmdOf 0 0 .granted)),
     by decide +kernel⟩,
   ⟨⟨[], queueCommands6⟩, 7, ((queueCommands6.running (7 : BitVec 32).toNat 0 4).getD (cmdOf 0 0 .granted)),
     by decide +kernel⟩,
   ⟨⟨[], queueCommands7⟩, 7, ((queueCommands7.running (7 : BitVec 32).toNat 0 0).getD (cmdOf 0 0 .granted)),
     by decide +kernel⟩,
   ⟨⟨[], queueCommands8⟩, 7, ((queueCommands8.running (7 : BitVec 32).toNat 0 0).getD (cmdOf 0 0 .granted)),
     (queueCommands8.cmd.table.headD (cmdOf 0 0 .granted)), by decide +kernel⟩,
   ⟨⟨[], queueCommands9⟩, 7, ((queueCommands9.checking (7 : BitVec 32).toNat 0 204).getD (cmdOf 0 0 .granted)),
     ((List.find? (fun q9 => q9.id == (((queueCommands9.checking (7 : BitVec 32).toNat 0 204).getD (cmdOf 0 0 .granted)) : Cmd).dw 10 0 16 && q9.id != 0) queueCommands9.host.ctrls[(((queueCommands9.checking (7 : BitVec 32).toNat 0 204).getD (cmdOf 0 0 .granted)) : Cmd).ctrl].sqs).getD subQueue),
     by decide +kernel⟩,
   ⟨⟨[], queueCommands10⟩, 7, ((queueCommands10.checking (7 : BitVec 32).toNat 0 204).getD (cmdOf 0 0 .granted)),
     ((List.find? (fun q9 => q9.id == (((queueCommands10.checking (7 : BitVec 32).toNat 0 204).getD (cmdOf 0 0 .granted)) : Cmd).dw 10 0 16 && q9.id != 0) queueCommands10.host.ctrls[(((queueCommands10.checking (7 : BitVec 32).toNat 0 204).getD (cmdOf 0 0 .granted)) : Cmd).ctrl].sqs).getD subQueue),
     by decide +kernel⟩,
   ⟨⟨[], queueCommands11⟩, 7, ((queueCommands11.checking (7 : BitVec 32).toNat 0 204).getD (cmdOf 0 0 .granted)),
     ((List.find? (fun q9 => q9.id == (((queueCommands11.checking (7 : BitVec 32).toNat 0 204).getD (cmdOf 0 0 .granted)) : Cmd).dw 10 0 16 && q9.id != 0) queueCommands11.host.ctrls[(((queueCommands11.checking (7 : BitVec 32).toNat 0 204).getD (cmdOf 0 0 .granted)) : Cmd).ctrl].sqs).getD subQueue),
     by decide +kernel⟩,
   ⟨⟨[], queueCommands12⟩, 7, ((queueCommands12.checking (7 : BitVec 32).toNat 0 204).getD (cmdOf 0 0 .granted)),
     by decide +kernel⟩,
   ⟨⟨[], queueCommands13⟩, 7, ((queueCommands13.checking (7 : BitVec 32).toNat 0 204).getD (cmdOf 0 0 .granted)),
     by decide +kernel⟩⟩

def adminRequests0 : Mach := (up.runs 0 0x1000000000000000000000000000000000000000000000000000000000000000000000000000000000000000100000002)
def adminRequests1 : Mach := (up.runs 0 (2 + 2 ^ 32 + 119 * 2 ^ 320))
def adminRequests2 : Mach := (up.runs 0 (2 + 2 ^ 32 + 3 * 2 ^ 320))
def adminRequests3 : Mach := (up.runs 0 0x100000000000000000000000000000000000000000000000000000000000000000000000100000006)
def adminRequests4 : Mach := (up.runs 0 0x9900000000000000000000000000000000000000000000000000000000000000000000000100000006)
def adminRequests5 : Mach := (up.runs 0 0x100000009)
def adminRequests6 : Mach := (up.runs 0 0x8000000100000000000000000000000000000000000000000000000000000000000000000000000100000009)
def adminRequests7 : Mach := (up.runs 0 0xb00000000000000000000000000000000000000000000000000000000000000000000000100000009)
def adminRequests8 : Mach := (up.runs 0 0x600000000000000000000000000000000000000000000000000000000000000000000000100000009)
def adminRequests9 : Mach := ((up.runs 0 0x700000000000000000000000000000000000000000000000000000000000000000000000100000009).setCtrl 0 fun c => { c with queued := true })
def adminRequests10 : Mach := (up.runs 0 0x10000000a)
def adminRequests11 : Mach := (up.runs 0 0xb0000000000000000000000000000000000000000000000000000000000000000000000010000000a)
def adminRequests12 : Mach := ((up.checks 0 0x100000008).setCmdState fun s => { s with table := (List.range 4).map (fun k => { cmdOf 0 8 .dispatched with fsn := k }) ++ s.table })
def adminRequests13 : Mach := (up.checks 0 0x100000008)
def adminRequests14 : Mach := (up.runs 0 0x100000008)
def adminRequests15 : Mach := ((((up.withQueues { subQueue with halted := some (0, 0, 0) } compQueue).runs 0 8).cmds fun c => { c with target := some 6 }).earlier (cmdOf 0 0 .checked))
def adminRequests16 : Mach := ((up.runs 0 0x10000000c).setCtrl 0 fun c => { c with aers := [1, 2, 3, 4] })
def adminRequests17 : Mach := (up.runs 0 0x10000000c)
theorem test_hyps_AdminRequests :
    (∃ (s : State) (fsn : BitVec 32) (c : Cmd), s.m.running fsn.toNat 0 2 = some c ∧ c.dw 12 0 64 % 4 ≠ 0) ∧
    (∃ (s : State) (fsn : BitVec 32) (c : Cmd), s.m.running fsn.toNat 0 2 = some c ∧ c.dw 12 0 64 % 4 = 0 ∧
      4 * (c.dw 10 16 16 + 65536 * c.dw 11 0 16 + 1) ≤ 4194304 ∧ c.dw 10 0 8 ≠ 2 ∧ c.dw 10 0 8 ≠ 192 ∧
      s.m.logPage c = none) ∧
    (∃ (s : State) (fsn : BitVec 32) (c : Cmd) (page : List Byte), s.m.running fsn.toNat 0 2 = some c ∧
      c.dw 12 0 64 % 4 = 0 ∧ 4 * (c.dw 10 16 16 + 65536 * c.dw 11 0 16 + 1) ≤ 4194304 ∧ c.dw 10 0 8 ≠ 2 ∧ c.dw 10 0 8 ≠ 192 ∧
      s.m.logPage c = some page) ∧
    (∃ (s : State) (fsn : BitVec 32) (c : Cmd), s.m.running fsn.toNat 0 6 = some c ∧ c.dw 10 0 8 = 1) ∧
    (∃ (s : State) (fsn : BitVec 32) (c : Cmd), s.m.running fsn.toNat 0 6 = some c ∧ (s.m.identifyData c).status = stField) ∧
    (∃ (s : State) (fsn : BitVec 32) (c : Cmd), s.m.running fsn.toNat 0 9 = some c ∧ featureSaves (c.dw 10 0 8) = none) ∧
    (∃ (s : State) (fsn : BitVec 32) (c : Cmd), s.m.running fsn.toNat 0 9 = some c ∧ c.dw 10 31 1 = 1 ∧
      featureSaves (c.dw 10 0 8) = some false) ∧
    (∃ (s : State) (fsn : BitVec 32) (c : Cmd), s.m.running fsn.toNat 0 9 = some c ∧ c.dw 10 0 8 = 11 ∧ c.dw 10 31 1 = 0) ∧
    (∃ (s : State) (fsn : BitVec 32) (c : Cmd), s.m.running fsn.toNat 0 9 = some c ∧ c.dw 10 0 8 = 6) ∧
    (∃ (s : State) (fsn : BitVec 32) (c : Cmd), s.m.running fsn.toNat 0 9 = some c ∧ c.dw 10 0 8 = 7 ∧ c.dw 10 31 1 = 0 ∧
      s.m.host.ctrls[c.ctrl].queued = true) ∧
    (∃ (s : State) (fsn : BitVec 32) (c : Cmd), s.m.running fsn.toNat 0 10 = some c ∧ featureSaves (c.dw 10 0 8) = none) ∧
    (∃ (s : State) (fsn : BitVec 32) (c : Cmd), s.m.running fsn.toNat 0 10 = some c ∧ c.dw 10 0 8 = 11 ∧ c.dw 10 8 3 = 0) ∧
    (∃ (s : State) (fsn : BitVec 32) (c : Cmd) (n : Nat), s.m.checking fsn.toNat 0 8 = some c ∧
      n = List.countP (fun d => d.admin && d.opcode == 8 && d.ctrl == c.ctrl && d.live && d.fsn != c.fsn && fsnBefore d.fsn c.fsn) s.m.cmd.table ∧
      4 ≤ n) ∧
    (∃ (s : State) (fsn : BitVec 32) (c : Cmd) (n : Nat), s.m.checking fsn.toNat 0 8 = some c ∧
      n = List.countP (fun d => d.admin && d.opcode == 8 && d.ctrl == c.ctrl && d.live && d.fsn != c.fsn && fsnBefore d.fsn c.fsn) s.m.cmd.table ∧
      n < 4) ∧
    (∃ (s : State) (fsn : BitVec 32) (c : Cmd), s.m.checking fsn.toNat 0 8 = none ∧ s.m.running fsn.toNat 0 8 = some c ∧
      c.target = none) ∧
    (∃ (s : State) (fsn : BitVec 32) (c : Cmd) (d : Cmd), s.m.checking fsn.toNat 0 8 = none ∧
      s.m.running fsn.toNat 0 8 = some c ∧ c.target = some d.fsn ∧ s.m.command d.fsn = some d ∧ d.fsn ≠ c.fsn ∧
      d.stage = CmdStage.checked ∧ (∃ q, q ∈ s.m.host.ctrls[d.ctrl].sqs ∧ q.id = d.sqid ∧ q.halted.isSome = true)) ∧
    (∃ (s : State) (fsn : BitVec 32) (c : Cmd), s.m.running fsn.toNat 0 12 = some c ∧ ¬c.fsn ∈ s.m.host.ctrls[c.ctrl].aers ∧
      4 ≤ s.m.host.ctrls[c.ctrl].aers.length) ∧
    (∃ (s : State) (fsn : BitVec 32) (c : Cmd), s.m.running fsn.toNat 0 12 = some c ∧ ¬c.fsn ∈ s.m.host.ctrls[c.ctrl].aers ∧
      s.m.host.ctrls[c.ctrl].aers.length < 4 ∧ s.m.host.ctrls[c.ctrl].events = []) :=
  ⟨⟨⟨[], adminRequests0⟩, 7, ((adminRequests0.running (7 : BitVec 32).toNat 0 2).getD (cmdOf 0 0 .granted)),
    by decide +kernel⟩,
   ⟨⟨[], adminRequests1⟩, 7, (cmdOf 0 (2 + 2 ^ 32 + 119 * 2 ^ 320) .dispatched), by decide +kernel⟩,
   ⟨⟨[], adminRequests2⟩, 7, (cmdOf 0 (2 + 2 ^ 32 + 3 * 2 ^ 320) .dispatched),
     ((adminRequests2.logPage (cmdOf 0 (2 + 2 ^ 32 + 3 * 2 ^ 320) .dispatched)).getD []), by decide +kernel⟩,
   ⟨⟨[], adminRequests3⟩, 7, ((adminRequests3.running (7 : BitVec 32).toNat 0 6).getD (cmdOf 0 0 .granted)),
     by decide +kernel⟩,
   ⟨⟨[], adminRequests4⟩, 7, ((adminRequests4.running (7 : BitVec 32).toNat 0 6).getD (cmdOf 0 0 .granted)),
     by decide +kernel⟩,
   ⟨⟨[], adminRequests5⟩, 7, ((adminRequests5.running (7 : BitVec 32).toNat 0 9).getD (cmdOf 0 0 .granted)),
     by decide +kernel⟩,
   ⟨⟨[], adminRequests6⟩, 7, ((adminRequests6.running (7 : BitVec 32).toNat 0 9).getD (cmdOf 0 0 .granted)),
     by decide +kernel⟩,
   ⟨⟨[], adminRequests7⟩, 7, ((adminRequests7.running (7 : BitVec 32).toNat 0 9).getD (cmdOf 0 0 .granted)),
     by decide +kernel⟩,
   ⟨⟨[], adminRequests8⟩, 7, ((adminRequests8.running (7 : BitVec 32).toNat 0 9).getD (cmdOf 0 0 .granted)),
     by decide +kernel⟩,
   ⟨⟨[], adminRequests9⟩, 7, ((adminRequests9.running (7 : BitVec 32).toNat 0 9).getD (cmdOf 0 0 .granted)),
     by decide +kernel⟩,
   ⟨⟨[], adminRequests10⟩, 7, ((adminRequests10.running (7 : BitVec 32).toNat 0 10).getD (cmdOf 0 0 .granted)),
     by decide +kernel⟩,
   ⟨⟨[], adminRequests11⟩, 7, ((adminRequests11.running (7 : BitVec 32).toNat 0 10).getD (cmdOf 0 0 .granted)),
     by decide +kernel⟩,
   ⟨⟨[], adminRequests12⟩, 7, ((adminRequests12.checking (7 : BitVec 32).toNat 0 8).getD (cmdOf 0 0 .granted)),
     (List.countP (fun d => d.admin && d.opcode == 8 && d.ctrl == (((adminRequests12.checking (7 : BitVec 32).toNat 0 8).getD (cmdOf 0 0 .granted)) : Cmd).ctrl && d.live && d.fsn != (((adminRequests12.checking (7 : BitVec 32).toNat 0 8).getD (cmdOf 0 0 .granted)) : Cmd).fsn && fsnBefore d.fsn (((adminRequests12.checking (7 : BitVec 32).toNat 0 8).getD (cmdOf 0 0 .granted)) : Cmd).fsn) adminRequests12.cmd.table : Nat),
     by decide +kernel⟩,
   ⟨⟨[], adminRequests13⟩, 7, ((adminRequests13.checking (7 : BitVec 32).toNat 0 8).getD (cmdOf 0 0 .granted)),
     (List.countP (fun d => d.admin && d.opcode == 8 && d.ctrl == ((adminRequests13.checking (7 : BitVec 32).toNat 0 8).getD (cmdOf 0 0 .granted)).ctrl && d.live && d.fsn != ((adminRequests13.checking (7 : BitVec 32).toNat 0 8).getD (cmdOf 0 0 .granted)).fsn && fsnBefore d.fsn ((adminRequests13.checking (7 : BitVec 32).toNat 0 8).getD (cmdOf 0 0 .granted)).fsn) adminRequests13.cmd.table : Nat),
     by decide +kernel⟩,
   ⟨⟨[], adminRequests14⟩, 7, ((adminRequests14.running (7 : BitVec 32).toNat 0 8).getD (cmdOf 0 0 .granted)),
     by decide +kernel⟩,
   ⟨⟨[], adminRequests15⟩, 7, { cmdOf 0 8 .dispatched with target := some 6 }, { cmdOf 0 0 .checked with fsn := 6 },
     by decide +kernel⟩,
   ⟨⟨[], adminRequests16⟩, 7, ((adminRequests16.running (7 : BitVec 32).toNat 0 12).getD (cmdOf 0 0 .granted)),
     by decide +kernel⟩,
   ⟨⟨[], adminRequests17⟩, 7, ((adminRequests17.running (7 : BitVec 32).toNat 0 12).getD (cmdOf 0 0 .granted)),
     by decide +kernel⟩⟩

def namespaces0 : Mach := (up.runs 0 0x2000000000000000000000000000000000000000000000000000000000000000000000000000000000000010000000d)
def namespaces2 : Mach := (up.runs 0 0x2000000000000010000000000000000000000000000000000000000000000000000000000000000000000010000000d)
def namespaces3 : Mach := ((up.runs 0 0x2000000000000010000000000000000000000000000000000000000000000000000000000000000000000010000000d).withNs (ns false))
def namespaces4 : Mach := ((up.runs 0 0x100000015).withNs (ns false))
def namespaces6 : Mach := ((up.runs 0 0x100000000000000000000000000000000000000000000000000000000000000000000000100000015).setCmdState fun s => { s with nss := [{ ns false with attached := #v[false, false] }] })
def namespaces7 : Mach := ((up.runs 0 0x100000000000000000000000000000000000000000000000000000000000000000000000100000015).withNs (ns false))
def namespaces8 : Mach := (up.checks 0 0x100000080)
def namespaces9 : Mach := ((up.checks 0 0x68300000000000000000000000000000000000000000000000000000000000000000000000100000080).withNs (ns false))
def namespaces10 : Mach := ((up.checks 0 0x42000000000000000000000000000000000000000000000000000000000000000000000000100000080).withNs (ns false))
def namespaces11 : Mach := ((up.checks 0 0x100000080).withNs (ns false))
theorem test_hyps_Namespaces :
    (∃ (s : State) (fsn : BitVec 32) (c : Cmd) (d : NsCreate) (st : Nat), s.m.running fsn.toNat 0 13 = some c ∧
      c.dw 10 0 4 = 0 ∧ (c.dw 11 24 8 = 0 ∨ c.dw 11 24 8 = 2) ∧ s.m.createRefused (c.dw 11 24 8 == 2) d = some st) ∧
    (∃ (s : State) (fsn : BitVec 32) (c : Cmd) (d : NsCreate) (i : Fin 8), s.m.running fsn.toNat 0 13 = some c ∧
      c.dw 10 0 4 = 0 ∧ (c.dw 11 24 8 = 0 ∨ c.dw 11 24 8 = 2) ∧ s.m.createRefused (c.dw 11 24 8 == 2) d = none ∧
      s.m.nsOf (i.val + 1) = none ∧ (∀ (j : Fin 8), j < i → (s.m.nsOf (j.val + 1)).isSome = true)) ∧
    (∃ (s : State) (fsn : BitVec 32) (c : Cmd), s.m.running fsn.toNat 0 13 = some c ∧ c.dw 10 0 4 = 1 ∧ c.nsid ≠ 4294967295 ∧
      s.m.nsOf c.nsid = none) ∧
    (∃ (s : State) (fsn : BitVec 32) (c : Cmd), s.m.running fsn.toNat 0 13 = some c ∧ c.dw 10 0 4 = 1 ∧ c.nsid ≠ 4294967295 ∧
      (s.m.nsOf c.nsid).isSome = true ∧ (∀ (d : Cmd), d ∈ s.m.cmd.table → fsnBefore d.fsn c.fsn = false)) ∧
    (∃ (s : State) (fsn : BitVec 32) (c : Cmd) (ctrls : BitVec 2) (n : Namespace), s.m.running fsn.toNat 0 21 = some c ∧
      s.m.nsOf c.nsid = some n ∧ c.dw 10 0 4 = 0 ∧ (∃ p : PortId, ctrls.getLsbD p.val = true ∧ n.attached[p] = true)) ∧
    (∃ (s : State) (fsn : BitVec 32) (c : Cmd) (ctrls : BitVec 2) (n : Namespace), s.m.running fsn.toNat 0 21 = some c ∧
      s.m.nsOf c.nsid = some n ∧ c.dw 10 0 4 = 0 ∧ (∀ (p : PortId), ctrls.getLsbD p.val = true → n.attached[p] = false)) ∧
    (∃ (s : State) (fsn : BitVec 32) (c : Cmd) (ctrls : BitVec 2) (n : Namespace), s.m.running fsn.toNat 0 21 = some c ∧
      s.m.nsOf c.nsid = some n ∧ c.dw 10 0 4 = 1 ∧ (∃ p : PortId, ctrls.getLsbD p.val = true ∧ n.attached[p] = false)) ∧
    (∃ (s : State) (fsn : BitVec 32) (c : Cmd) (ctrls : BitVec 2) (n : Namespace), s.m.running fsn.toNat 0 21 = some c ∧
      s.m.nsOf c.nsid = some n ∧ c.dw 10 0 4 = 1 ∧ (∀ (p : PortId), ctrls.getLsbD p.val = true → n.attached[p] = true)) ∧
    (∃ (s : State) (fsn : BitVec 32) (c : Cmd), s.m.checking fsn.toNat 0 128 = some c ∧ s.m.cmdNs c = none) ∧
    (∃ (s : State) (fsn : BitVec 32) (c : Cmd) (n : Namespace), s.m.checking fsn.toNat 0 128 = some c ∧
      s.m.cmdNs c = some n ∧ (2 < c.dw 10 0 4 ∨ 3 < c.dw 10 5 3 ∨ 2 < c.dw 10 9 3)) ∧
    (∃ (s : State) (fsn : BitVec 32) (c : Cmd) (n : Namespace), s.m.checking fsn.toNat 0 128 = some c ∧
      s.m.cmdNs c = some n ∧ c.dw 10 0 4 = 0 ∧ 1 ≤ c.dw 10 5 3 ∧ c.dw 10 5 3 ≤ 3 ∧ c.dw 10 9 3 ≤ 2) ∧
    (∃ (s : State) (fsn : BitVec 32) (c : Cmd) (n : Namespace), s.m.checking fsn.toNat 0 128 = some c ∧
      s.m.cmdNs c = some n ∧ c.dw 10 0 4 ≤ 2 ∧ c.dw 10 5 3 ≤ 3 ∧ c.dw 10 9 3 ≤ 2 ∧ (c.dw 10 5 3 = 0 ∨ c.dw 10 0 4 ≠ 0)) :=
  ⟨⟨⟨[], namespaces0⟩, 7, ((namespaces0.running (7 : BitVec 32).toNat 0 13).getD (cmdOf 0 0 .granted)), (⟨0, 0, 0, 0, 0, 0⟩),
    ((namespaces0.createRefused (((namespaces0.running (7 : BitVec 32).toNat 0 13).getD (cmdOf 0 0 .granted)).dw 11 24 8 == 2) (⟨0,
    0, 0, 0, 0, 0⟩)).getD (0)), by decide +kernel⟩,
   ⟨⟨[], namespaces0⟩, 7, ((namespaces0.running (7 : BitVec 32).toNat 0 13).getD (cmdOf 0 0 .granted)), (⟨0, 0, 0, 0, 1, 0⟩),
     0, by decide +kernel⟩,
   ⟨⟨[], namespaces2⟩, 7, ((namespaces2.running (7 : BitVec 32).toNat 0 13).getD (cmdOf 0 0 .granted)), by decide +kernel⟩,
   ⟨⟨[], namespaces3⟩, 7, ((namespaces3.running (7 : BitVec 32).toNat 0 13).getD (cmdOf 0 0 .granted)), by decide +kernel⟩,
   ⟨⟨[], namespaces4⟩, 7, ((namespaces4.running (7 : BitVec 32).toNat 0 21).getD (cmdOf 0 0 .granted)), 1,
     ((namespaces4.nsOf ((namespaces4.running (7 : BitVec 32).toNat 0 21).getD (cmdOf 0 0 .granted)).nsid).getD (ns false)),
     by decide +kernel⟩,
   ⟨⟨[], namespaces4⟩, 7, ((namespaces4.running (7 : BitVec 32).toNat 0 21).getD (cmdOf 0 0 .granted)), 0,
     ((namespaces4.nsOf ((namespaces4.running (7 : BitVec 32).toNat 0 21).getD (cmdOf 0 0 .granted)).nsid).getD (ns false)),
     by decide +kernel⟩,
   ⟨⟨[], namespaces6⟩, 7, ((namespaces6.running (7 : BitVec 32).toNat 0 21).getD (cmdOf 0 0 .granted)), 1,
     ((namespaces6.nsOf (((namespaces6.running (7 : BitVec 32).toNat 0 21).getD (cmdOf 0 0 .granted)) : Cmd).nsid).getD (ns false)),
     by decide +kernel⟩,
   ⟨⟨[], namespaces7⟩, 7, ((namespaces7.running (7 : BitVec 32).toNat 0 21).getD (cmdOf 0 0 .granted)), 1,
     ((namespaces7.nsOf ((namespaces7.running (7 : BitVec 32).toNat 0 21).getD (cmdOf 0 0 .granted)).nsid).getD (ns false)),
     by decide +kernel⟩,
   ⟨⟨[], namespaces8⟩, 7, ((namespaces8.checking (7 : BitVec 32).toNat 0 128).getD (cmdOf 0 0 .granted)), by decide +kernel⟩,
   ⟨⟨[], namespaces9⟩, 7, ((namespaces9.checking (7 : BitVec 32).toNat 0 128).getD (cmdOf 0 0 .granted)),
     ((namespaces9.cmdNs ((namespaces9.checking (7 : BitVec 32).toNat 0 128).getD (cmdOf 0 0 .granted))).getD (ns false)),
     by decide +kernel⟩,
   ⟨⟨[], namespaces10⟩, 7, ((namespaces10.checking (7 : BitVec 32).toNat 0 128).getD (cmdOf 0 0 .granted)),
     ((namespaces10.cmdNs ((namespaces10.checking (7 : BitVec 32).toNat 0 128).getD (cmdOf 0 0 .granted))).getD (ns false)),
     by decide +kernel⟩,
   ⟨⟨[], namespaces11⟩, 7, ((namespaces11.checking (7 : BitVec 32).toNat 0 128).getD (cmdOf 0 0 .granted)),
     ((namespaces11.cmdNs ((namespaces11.checking (7 : BitVec 32).toNat 0 128).getD (cmdOf 0 0 .granted))).getD (ns false)),
     by decide +kernel⟩⟩

def firmwareSlots0 : Mach := (up.runs 0 0x100000011)
def firmwareSlots1 : Mach := (up.runs 0 0x3ff00000000000000000000000000000000000000000000000000000000000000000000000100000011)
def firmwareSlots2 : Mach := (up.runs 0 0x400000000000000000000000000000000000000000000000000000000000000000000000100000010)
def firmwareSlots3 : Mach := (up.runs 0 0x200000000000000000000000000000000000000000000000000000000000000000000000100000010)
def firmwareSlots5 : Mach := (up.runs 0 0xb00000000000000000000000000000000000000000000000000000000000000000000000100000010)
def firmwareSlots6 : Mach := ((up.setFlash fun f => { f with slot2 := some (bundle 0) }).runs 0 0x1200000000000000000000000000000000000000000000000000000000000000000000000100000010)
def firmwareSlots7 : Mach := ((up.setFlash fun f => { f with slot2 := some (bundle 1) }).runs 0 0x1a00000000000000000000000000000000000000000000000000000000000000000000000100000010)
def firmwareSlots8 : Mach := ((up.setFlash fun f => { f with slot2 := some (bundle 0) }).runs 0 0x1a00000000000000000000000000000000000000000000000000000000000000000000000100000010)
def firmwareSlots9 : Mach := ((up.runs 0 0x200000000000000000000000000000000000000000000000000000000000000000000000100000010).setSec fun s => { s with fuses := { s.fuses with cfg := 1 } })
def firmwareSlots10 : Mach := ((up.runs 0 0xb00000000000000000000000000000000000000000000000000000000000000000000000100000010).setSec fun s => { s with fuses := { s.fuses with cfg := 1 } })
def firmwareSlots11 : Mach := ((((up.runs 0 0x1200000000000000000000000000000000000000000000000000000000000000000000000100000010).setFlash fun f => { f with slot2 := some (bundle 0) }).setFlash fun f => { f with slot2 := some { bundle 0 with svnCfg := 0 }, active := 2 }).setSec fun s => { s with fuses := { s.fuses with cfg := 1 } })
def firmwareSlots12 : Mach := ((((up.runs 0 0x1a00000000000000000000000000000000000000000000000000000000000000000000000100000010).setFlash fun f => { f with slot2 := some (bundle 0) }).setFlash fun f => { f with slot2 := some { bundle 0 with svnCfg := 0 }, active := 2 }).setSec fun s => { s with fuses := { s.fuses with cfg := 1 } })
def firmwareSlots13 : Mach := (((((up.setFlash fun f => { f with pending := some (2, 0) }).setFlash fun f => { f with slot2 := some (bundle 0) }).set RST_PHASE_PHASE 5).setFlash fun f => { f with slot2 := some { bundle 0 with svnCfg := 0 }, active := 2 }).setSec fun s => { s with fuses := { s.fuses with cfg := 1 } })
def firmwareSlots14 : Mach := (((up.setFlash fun f => { f with slot2 := some { bundle 0 with svnCfg := 0 }, active := 2 }).setSec fun s => { s with fuses := { s.fuses with cfg := 1 } }).set RST_PHASE_PHASE 5)
theorem test_hyps_FirmwareSlots :
    (∃ (s : State) (fsn : BitVec 32) (c : Cmd), s.m.running fsn.toNat 0 17 = some c ∧ 4 * (c.cdw 10 + 1) % 4096 ≠ 0) ∧
    (∃ (s : State) (fsn : BitVec 32) (c : Cmd), s.m.running fsn.toNat 0 17 = some c ∧ 4 * (c.cdw 10 + 1) % 4096 = 0 ∧
      4 * c.cdw 11 % 4096 = 0 ∧ 4 * c.cdw 11 + 4 * (c.cdw 10 + 1) ≤ 8388608) ∧
    (∃ (s : State) (fsn : BitVec 32) (c : Cmd), s.m.running fsn.toNat 0 16 = some c ∧ c.dw 10 3 3 = 0 ∧
      (c.dw 10 0 3 = 1 ∨ 3 < c.dw 10 0 3)) ∧
    (∃ (s : State) (fsn : BitVec 32) (c : Cmd) (b : Option Bundle), s.m.running fsn.toNat 0 16 = some c ∧ c.dw 10 3 3 = 0 ∧
      c.dw 10 0 3 = 2 ∧ (∀ (x : Bundle), b = some x → s.m.verify x ≠ 0)) ∧
    (∃ (s : State) (fsn : BitVec 32) (c : Cmd) (b : Option Bundle) (x : Bundle), s.m.running fsn.toNat 0 16 = some c ∧
      c.dw 10 3 3 = 0 ∧ b = some x ∧ s.m.verify x = 0 ∧ c.dw 10 0 3 = 2) ∧
    (∃ (s : State) (fsn : BitVec 32) (c : Cmd) (x : Bundle), s.m.running fsn.toNat 0 16 = some c ∧ c.dw 10 3 3 = 1 ∧
      s.m.verify x = 0 ∧ c.dw 10 0 3 = 3) ∧
    (∃ (s : State) (fsn : BitVec 32) (c : Cmd) (x : Bundle), s.m.running fsn.toNat 0 16 = some c ∧ c.dw 10 3 3 = 2 ∧
      s.m.slotBundle 2 = some x ∧ s.m.verify x = 0 ∧ c.dw 10 0 3 = 2) ∧
    (∃ (s : State) (fsn : BitVec 32) (c : Cmd) (x : Bundle), s.m.running fsn.toNat 0 16 = some c ∧ c.dw 10 3 3 = 3 ∧
      s.m.slotBundle 2 = some x ∧ s.m.verify x = 0 ∧ c.dw 10 0 3 = 2 ∧ x.cls ≠ 0) ∧
    (∃ (s : State) (fsn : BitVec 32) (c : Cmd) (x : Bundle), s.m.running fsn.toNat 0 16 = some c ∧ c.dw 10 3 3 = 3 ∧
      s.m.slotBundle 2 = some x ∧ s.m.verify x = 0 ∧ c.dw 10 0 3 = 2 ∧ x.cls = 0 ∧ s.m.cmd.quiet = none) ∧
    (∃ (s : State) (fsn : BitVec 32) (c : Cmd) (b : Bundle), s.m.svnOk b = false ∧ s.m.running fsn.toNat 0 16 = some c ∧
      (c.dw 10 0 3 = 2 ∨ c.dw 10 0 3 = 3) ∧ c.dw 10 3 3 = 0) ∧
    (∃ (s : State) (fsn : BitVec 32) (c : Cmd) (b : Bundle), s.m.svnOk b = false ∧ s.m.running fsn.toNat 0 16 = some c ∧
      (c.dw 10 0 3 = 2 ∨ c.dw 10 0 3 = 3) ∧ c.dw 10 3 3 = 1) ∧
    (∃ (s : State) (fsn : BitVec 32) (c : Cmd) (b : Bundle), s.m.svnOk b = false ∧ s.m.running fsn.toNat 0 16 = some c ∧
      (c.dw 10 0 3 = 2 ∨ c.dw 10 0 3 = 3) ∧ s.m.slotBundle (c.dw 10 0 3) = some b ∧ c.dw 10 3 3 = 2) ∧
    (∃ (s : State) (fsn : BitVec 32) (c : Cmd) (b : Bundle), s.m.svnOk b = false ∧ s.m.running fsn.toNat 0 16 = some c ∧
      (c.dw 10 0 3 = 2 ∨ c.dw 10 0 3 = 3) ∧ s.m.slotBundle (c.dw 10 0 3) = some b ∧ c.dw 10 3 3 = 3) ∧
    (∃ (s : State) (b : Bundle) (slot : Nat) (k : Nat), s.m.svnOk b = false ∧ (slot = 2 ∨ slot = 3) ∧
      s.m.slotBundle slot = some b ∧ s.m.get RST_PHASE_PHASE = 5 ∧ s.m.sec.flash.pending = some (slot, k)) ∧
    (∃ (s : State) (b : Bundle) (slot : Nat), s.m.svnOk b = false ∧ (slot = 2 ∨ slot = 3) ∧ s.m.slotBundle slot = some b ∧
      s.m.get RST_PHASE_PHASE = 5 ∧ s.m.sec.flash.pending = none ∧ s.m.sec.flash.active = slot) :=
  ⟨⟨⟨[], firmwareSlots0⟩, 7, ((firmwareSlots0.running (7 : BitVec 32).toNat 0 17).getD (cmdOf 0 0 .granted)),
    by decide +kernel⟩,
   ⟨⟨[], firmwareSlots1⟩, 7, ((firmwareSlots1.running (7 : BitVec 32).toNat 0 17).getD (cmdOf 0 0 .granted)),
     by decide +kernel⟩,
   ⟨⟨[], firmwareSlots2⟩, 7, ((firmwareSlots2.running (7 : BitVec 32).toNat 0 16).getD (cmdOf 0 0 .granted)),
     by decide +kernel⟩,
   ⟨⟨[], firmwareSlots3⟩, 7, ((firmwareSlots3.running (7 : BitVec 32).toNat 0 16).getD (cmdOf 0 0 .granted)), none,
     by decide +kernel, by decide +kernel, by decide +kernel, all_some (by decide +kernel)⟩,
   ⟨⟨[], firmwareSlots3⟩, 7, ((firmwareSlots3.running (7 : BitVec 32).toNat 0 16).getD (cmdOf 0 0 .granted)),
     (some (bundle 0)), ((some (bundle 0)).getD (bundle 0)), by decide +kernel⟩,
   ⟨⟨[], firmwareSlots5⟩, 7, ((firmwareSlots5.running (7 : BitVec 32).toNat 0 16).getD (cmdOf 0 0 .granted)), (bundle 0),
     by decide +kernel⟩,
   ⟨⟨[], firmwareSlots6⟩, 7, ((firmwareSlots6.running (7 : BitVec 32).toNat 0 16).getD (cmdOf 0 0 .granted)),
     ((firmwareSlots6.slotBundle 2).getD (bundle 0)), by decide +kernel⟩,
   ⟨⟨[], firmwareSlots7⟩, 7, ((firmwareSlots7.running (7 : BitVec 32).toNat 0 16).getD (cmdOf 0 0 .granted)),
     ((firmwareSlots7.slotBundle 2).getD (bundle 0)), by decide +kernel⟩,
   ⟨⟨[], firmwareSlots8⟩, 7, ((firmwareSlots8.running (7 : BitVec 32).toNat 0 16).getD (cmdOf 0 0 .granted)),
     ((firmwareSlots8.slotBundle 2).getD (bundle 0)), by decide +kernel⟩,
   ⟨⟨[], firmwareSlots9⟩, 7, ((firmwareSlots9.running (7 : BitVec 32).toNat 0 16).getD (cmdOf 0 0 .granted)),
     ({ bundle 0 with svnCfg := 0 }), by decide +kernel⟩,
   ⟨⟨[], firmwareSlots10⟩, 7, ((firmwareSlots10.running (7 : BitVec 32).toNat 0 16).getD (cmdOf 0 0 .granted)),
     ({ bundle 0 with svnCfg := 0 }), by decide +kernel⟩,
   ⟨⟨[], firmwareSlots11⟩, 7, ((firmwareSlots11.running (7 : BitVec 32).toNat 0 16).getD (cmdOf 0 0 .granted)),
     ((firmwareSlots11.slotBundle ((((firmwareSlots11.running (7 : BitVec 32).toNat 0 16).getD (cmdOf 0 0 .granted)) : Cmd).dw 10 0 3)).getD (bundle 0)),
     by decide +kernel⟩,
   ⟨⟨[], firmwareSlots12⟩, 7, ((firmwareSlots12.running (7 : BitVec 32).toNat 0 16).getD (cmdOf 0 0 .granted)),
     ((firmwareSlots12.slotBundle ((((firmwareSlots12.running (7 : BitVec 32).toNat 0 16).getD (cmdOf 0 0 .granted)) : Cmd).dw 10 0 3)).getD (bundle 0)),
     by decide +kernel⟩,
   ⟨⟨[], firmwareSlots13⟩, ((firmwareSlots13.slotBundle ((firmwareSlots13.sec.flash.pending.getD (0,
     0)).1)).getD (bundle 0)), (firmwareSlots13.sec.flash.pending.getD (0, 0)).1, (firmwareSlots13.sec.flash.pending.getD (0,
     0)).2, by decide +kernel⟩,
   ⟨⟨[], firmwareSlots14⟩, ((firmwareSlots14.slotBundle firmwareSlots14.sec.flash.active).getD (bundle 0)),
     firmwareSlots14.sec.flash.active, by decide +kernel⟩⟩

def maintenance0 : Mach := (up.runs 0 0x1000000c4)
def maintenance1 : Mach := (up.runs 0 0x1000000000000000000000000000000000000000000000000000000000000000000000001000000c4)
def maintenance2 : Mach := ((up.runs 0 0x2000000000000000000000000000000000000000000000000000000000000000000000001000000c4).withNs (ns false))
def maintenance3 : Mach := (up.runs 0 0x2000000000000000000000000000000000000000000000000000000000000000000000001000000c4)
def maintenance4 : Mach := (up.runs 0 0x7000000000000000000000000000000000000000000000000000000000000000000000001000000c4)
def maintenance5 : Mach := ((up.setCmdState fun s => { s with candPass := some ⟨1, 0, 0, true, [], []⟩ }).runs 0 0x5000000000000000000000000000000000000000000000000000000000000000000000001000000c4)
def maintenance6 : Mach := (up.setCmdState fun s => { s with candPass := some ⟨1, 0, 0, true, [], []⟩ })
def maintenance7 : Mach := (up.setCmdState fun s => { s with candPass := some ⟨1, 0, 0, false, [(0, 1)], []⟩ })
def maintenance9 : Mach := (up.runs 0 0x6000000000000000000000000000000000000000000000000000000000000000000000001000000c8)
def maintenance10 : Mach := ((up.runs 0 0x1000000000000000000000000000000000000000000000000000000000000000000000001000000c8).setFlag (QDR_ACT_DEPOP 0) true)
def maintenance11 : Mach := ((fun m : Mach => (((m.setFlag (QDR_ACT_DEPOP 1) true).setFlag (QDR_ACT_DEPOP 2) true).setFlag (QDR_ACT_DEPOP 3) true)) (up.runs 0 0x1000000000000000000000000000000000000000000000000000000000000000000000001000000c8))
def maintenance12 : Mach := ((up.runs 0 0x1000000000000000000000000000000000000000000000000000000000000000000000001000000c8).set (QDR_ACT_STATE 0) 2)
def maintenance13 : Mach := (up.runs 0 0x2000000000000000000000000000000000000000000000000000000000000000000000001000000c8)
def maintenance14 : Mach := ((up.runs 0 0x2000000000000000000000000000000000000000000000000000000000000000000000001000000c8).setFlag (QDR_ACT_DEPOP 0) true)
def maintenance15 : Mach := (((up.runs 0 0x2000000000000000000000000000000000000000000000000000000000000000000000001000000c8).cmds fun c => { c with begun := true }).set (QDR_ACT_STATE 0) 0)
def maintenance16 : Mach := (((up.runs 0 0x2000000000000000000000000000000000000000000000000000000000000000000000001000000c8).cmds fun c => { c with begun := true }).set (QDR_ACT_STATE 0) 3)
def maintenance17 : Mach := ((up.withCmd { cmdOf 0 (200 + 2 ^ 32 + 3 * 2 ^ 320) .dispatched with begun := false }).set (QDR_ACT_STATE 0) 2)
def maintenance18 : Mach := ((up.withCmd { cmdOf 0 (200 + 2 ^ 32 + 4 * 2 ^ 320) .dispatched with begun := false }).set (QDR_ACT_HEAD_DEPOP 0) 1)
def maintenance19 : Mach := ((up.withCmd { cmdOf 0 (200 + 2 ^ 32 + 4 * 2 ^ 320) .dispatched with begun := true }).set (QDR_ACT_STATE 0) 3)
def maintenance20 : Mach := ((up.withCmd { cmdOf 0 (200 + 2 ^ 32 + 4 * 2 ^ 320) .dispatched with begun := true }).set (QDR_ACT_STATE 0) 0)
def maintenance21 : Mach := (up.runs 0 0x5000000000000000000000000000000000000000000000000000000000000000000000001000000c8)
theorem test_hyps_Maintenance :
    (∃ (s : State) (fsn : BitVec 32) (c : Cmd), s.m.running fsn.toNat 0 196 = some c ∧ c.dw 10 0 4 = 0 ∧
      s.m.cmd.scrub = none ∧ s.m.is SCB_STAT_BUSY = false) ∧
    (∃ (s : State) (fsn : BitVec 32) (c : Cmd), s.m.running fsn.toNat 0 196 = some c ∧ c.dw 10 0 4 = 1) ∧
    (∃ (s : State) (fsn : BitVec 32) (c : Cmd), s.m.running fsn.toNat 0 196 = some c ∧ c.dw 10 0 4 = 2 ∧
      (s.m.cmdNs c).isSome = true ∧ s.m.cmd.scan = none) ∧
    (∃ (s : State) (fsn : BitVec 32) (c : Cmd), s.m.running fsn.toNat 0 196 = some c ∧ c.dw 10 0 4 = 2 ∧
      s.m.cmdNs c = none) ∧
    (∃ (s : State) (fsn : BitVec 32) (c : Cmd), s.m.running fsn.toNat 0 196 = some c ∧ (c.dw 10 0 4 = 3 ∨ 6 < c.dw 10 0 4)) ∧
    (∃ (s : State) (fsn : BitVec 32) (c : Cmd) (p : Pass), s.m.running fsn.toNat 0 196 = some c ∧ c.dw 10 0 4 = 5 ∧
      s.m.cmd.candPass = some p) ∧
    (∃ (s : State) (p : Pass), s.m.cmd.candPass = some p ∧ p.rewrites = [] ∧ (p.abort = true ∨ p.todo = [] ∧
      ∀ (k : Candidate), k ∈ s.m.cmd.cands → k.written = false)) ∧
    (∃ (s : State) (p : Pass), s.m.cmd.candPass = some p ∧ (p.rewrites ≠ [] ∨ p.abort = false ∧ (p.todo ≠ [] ∨ ∃ k,
      k ∈ s.m.cmd.cands ∧ k.written = true))) ∧
    (∃ (s : State), s.m.cmd.candPass = none) ∧
    (∃ (s : State) (fsn : BitVec 32) (c : Cmd) (a : Actuator), s.m.running fsn.toNat 0 200 = some c ∧ c.dw 10 4 2 = a.val ∧
      (c.dw 10 0 4 = 0 ∨ 5 < c.dw 10 0 4)) ∧
    (∃ (s : State) (fsn : BitVec 32) (c : Cmd) (a : Actuator), s.m.running fsn.toNat 0 200 = some c ∧ c.dw 10 4 2 = a.val ∧
      c.dw 10 0 4 = 1 ∧ s.m.is (QDR_ACT_DEPOP a.val) = true) ∧
    (∃ (s : State) (fsn : BitVec 32) (c : Cmd) (a : Actuator), s.m.running fsn.toNat 0 200 = some c ∧ c.dw 10 4 2 = a.val ∧
      c.dw 10 0 4 = 1 ∧ s.m.is (QDR_ACT_DEPOP a.val) = false ∧ (∀ (b : Actuator),
      b ≠ a → s.m.is (QDR_ACT_DEPOP b.val) = true)) ∧
    (∃ (s : State) (fsn : BitVec 32) (c : Cmd) (a : Actuator) (b : Actuator), s.m.running fsn.toNat 0 200 = some c ∧
      c.dw 10 4 2 = a.val ∧ c.dw 10 0 4 = 1 ∧ s.m.is (QDR_ACT_DEPOP a.val) = false ∧ b ≠ a ∧
      s.m.is (QDR_ACT_DEPOP b.val) = false ∧ s.m.get (QDR_ACT_STATE a.val) = 2 ∧ s.m.is (QDR_ACT_PARKED a.val) = true) ∧
    (∃ (s : State) (fsn : BitVec 32) (c : Cmd) (a : Actuator), s.m.running fsn.toNat 0 200 = some c ∧ c.dw 10 4 2 = a.val ∧
      c.dw 10 0 4 = 2 ∧ c.begun = false ∧ s.m.is (QDR_ACT_DEPOP a.val) = false) ∧
    (∃ (s : State) (fsn : BitVec 32) (c : Cmd) (a : Actuator), s.m.running fsn.toNat 0 200 = some c ∧ c.dw 10 4 2 = a.val ∧
      c.dw 10 0 4 = 2 ∧ c.begun = false ∧ s.m.is (QDR_ACT_DEPOP a.val) = true) ∧
    (∃ (s : State) (fsn : BitVec 32) (c : Cmd) (a : Actuator), s.m.running fsn.toNat 0 200 = some c ∧ c.dw 10 4 2 = a.val ∧
      c.dw 10 0 4 = 2 ∧ c.begun = true ∧ s.m.get (QDR_ACT_STATE a.val) = 0) ∧
    (∃ (s : State) (fsn : BitVec 32) (c : Cmd) (a : Actuator), s.m.running fsn.toNat 0 200 = some c ∧ c.dw 10 4 2 = a.val ∧
      c.dw 10 0 4 = 2 ∧ c.begun = true ∧ s.m.get (QDR_ACT_STATE a.val) = 3) ∧
    (0 < Config.headCount 0 → ∃ (s : State) (fsn : BitVec 32) (c : Cmd) (a : Actuator),
      s.m.running fsn.toNat 0 200 = some c ∧ c.dw 10 4 2 = a.val ∧ c.dw 10 0 4 = 3 ∧ c.dw 10 8 3 < Config.headCount a.val ∧
      c.dw 10 8 3 ≤ 5 ∧ s.m.bitAt (QDR_ACT_HEAD_DEPOP a.val) (c.dw 10 8 3) = false ∧ s.m.get (QDR_ACT_STATE a.val) = 2) ∧
    (0 < Config.headCount 0 → ∃ (s : State) (fsn : BitVec 32) (c : Cmd) (a : Actuator),
      s.m.running fsn.toNat 0 200 = some c ∧ c.dw 10 4 2 = a.val ∧ c.dw 10 0 4 = 4 ∧ c.dw 10 8 3 < Config.headCount a.val ∧
      c.dw 10 8 3 ≤ 5 ∧ c.begun = false ∧ s.m.bitAt (QDR_ACT_HEAD_DEPOP a.val) (c.dw 10 8 3) = true) ∧
    (0 < Config.headCount 0 → ∃ (s : State) (fsn : BitVec 32) (c : Cmd) (a : Actuator) (failed : Bool),
      s.m.running fsn.toNat 0 200 = some c ∧ c.dw 10 4 2 = a.val ∧ c.dw 10 0 4 = 4 ∧ c.dw 10 8 3 < Config.headCount a.val ∧
      c.dw 10 8 3 ≤ 5 ∧ c.begun = true ∧ (failed = true ∨ s.m.get (QDR_ACT_STATE a.val) = 3)) ∧
    (0 < Config.headCount 0 → ∃ (s : State) (fsn : BitVec 32) (c : Cmd) (a : Actuator),
      s.m.running fsn.toNat 0 200 = some c ∧ c.dw 10 4 2 = a.val ∧ c.dw 10 0 4 = 4 ∧ c.dw 10 8 3 < Config.headCount a.val ∧
      c.dw 10 8 3 ≤ 5 ∧ c.begun = true ∧ s.m.get (QDR_ACT_STATE a.val) = 0) ∧
    (∃ (s : State) (fsn : BitVec 32) (c : Cmd) (a : Actuator), s.m.running fsn.toNat 0 200 = some c ∧ c.dw 10 4 2 = a.val ∧
      c.dw 10 0 4 = 5) :=
  ⟨⟨⟨[], maintenance0⟩, 7, ((maintenance0.running (7 : BitVec 32).toNat 0 196).getD (cmdOf 0 0 .granted)),
    by decide +kernel⟩,
   ⟨⟨[], maintenance1⟩, 7, ((maintenance1.running (7 : BitVec 32).toNat 0 196).getD (cmdOf 0 0 .granted)),
     by decide +kernel⟩,
   ⟨⟨[], maintenance2⟩, 7, ((maintenance2.running (7 : BitVec 32).toNat 0 196).getD (cmdOf 0 0 .granted)),
     by decide +kernel⟩,
   ⟨⟨[], maintenance3⟩, 7, ((maintenance3.running (7 : BitVec 32).toNat 0 196).getD (cmdOf 0 0 .granted)),
     by decide +kernel⟩,
   ⟨⟨[], maintenance4⟩, 7, ((maintenance4.running (7 : BitVec 32).toNat 0 196).getD (cmdOf 0 0 .granted)),
     by decide +kernel⟩,
   ⟨⟨[], maintenance5⟩, 7, ((maintenance5.running (7 : BitVec 32).toNat 0 196).getD (cmdOf 0 0 .granted)),
     (maintenance5.cmd.candPass.getD (⟨1, 0, 0, true, [], []⟩)), by decide +kernel⟩,
   ⟨⟨[], maintenance6⟩, (maintenance6.cmd.candPass.getD (⟨1, 0, 0, true, [], []⟩)), by decide +kernel⟩,
   ⟨⟨[], maintenance7⟩, (maintenance7.cmd.candPass.getD (⟨1, 0, 0, true, [], []⟩)), by decide +kernel⟩,
   ⟨⟨[], up⟩, by decide +kernel⟩,
   ⟨⟨[], maintenance9⟩, 7, ((maintenance9.running (7 : BitVec 32).toNat 0 200).getD (cmdOf 0 0 .granted)), 0,
     by decide +kernel⟩,
   ⟨⟨[], maintenance10⟩, 7, ((maintenance10.running (7 : BitVec 32).toNat 0 200).getD (cmdOf 0 0 .granted)), 0,
     by decide +kernel⟩,
   ⟨⟨[], maintenance11⟩, 7, ((maintenance11.running (7 : BitVec 32).toNat 0 200).getD (cmdOf 0 0 .granted)), 0,
     by decide +kernel⟩,
   ⟨⟨[], maintenance12⟩, 7, ((maintenance12.running (7 : BitVec 32).toNat 0 200).getD (cmdOf 0 0 .granted)), 0, 1,
     by decide +kernel⟩,
   ⟨⟨[], maintenance13⟩, 7, ((maintenance13.running (7 : BitVec 32).toNat 0 200).getD (cmdOf 0 0 .granted)), 0,
     by decide +kernel⟩,
   ⟨⟨[], maintenance14⟩, 7, ((maintenance14.running (7 : BitVec 32).toNat 0 200).getD (cmdOf 0 0 .granted)), 0,
     by decide +kernel⟩,
   ⟨⟨[], maintenance15⟩, 7, ((maintenance15.running (7 : BitVec 32).toNat 0 200).getD (cmdOf 0 0 .granted)), 0,
     by decide +kernel⟩,
   ⟨⟨[], maintenance16⟩, 7, ((maintenance16.running (7 : BitVec 32).toNat 0 200).getD (cmdOf 0 0 .granted)), 0,
     by decide +kernel⟩,
   fun hc => ⟨⟨[], maintenance17⟩, 7, { cmdOf 0 (200 + 2 ^ 32 + 3 * 2 ^ 320) .dispatched with begun := false }, 0,
     by decide +kernel, by decide +kernel, by decide +kernel, lt_of_eq_zero (by decide +kernel) hc, by decide +kernel,
     by decide +kernel, by decide +kernel⟩,
   fun hc => ⟨⟨[], maintenance18⟩, 7, { cmdOf 0 (200 + 2 ^ 32 + 4 * 2 ^ 320) .dispatched with begun := false }, 0,
     by decide +kernel, by decide +kernel, by decide +kernel, lt_of_eq_zero (by decide +kernel) hc, by decide +kernel,
     by decide +kernel, by decide +kernel⟩,
   fun hc => ⟨⟨[], maintenance19⟩, 7, { cmdOf 0 (200 + 2 ^ 32 + 4 * 2 ^ 320) .dispatched with begun := true }, 0, true,
     by decide +kernel, by decide +kernel, by decide +kernel, lt_of_eq_zero (by decide +kernel) hc, by decide +kernel,
     by decide +kernel, by decide +kernel⟩,
   fun hc => ⟨⟨[], maintenance20⟩, 7, { cmdOf 0 (200 + 2 ^ 32 + 4 * 2 ^ 320) .dispatched with begun := true }, 0,
     by decide +kernel, by decide +kernel, by decide +kernel, lt_of_eq_zero (by decide +kernel) hc, by decide +kernel,
     by decide +kernel, by decide +kernel⟩,
   ⟨⟨[], maintenance21⟩, 7, ((maintenance21.running (7 : BitVec 32).toNat 0 200).getD (cmdOf 0 0 .granted)), 0,
     by decide +kernel⟩⟩

def ioAndZones0 : Mach := ((up.checks 1 0x100000079).withNs (ns true))
def ioAndZones1 : Mach := (((up.checks 1 0x100000079).withNs (ns true)).checks 1 0x200000000000000000000000000000000000000000000000000000000000000000000000000000000000000000000000100000079)
def ioAndZones2 : Mach := ((up.checks 1 0x300000000000000000000000000000000000000000000000000000000000000000000000000000000000000000000000100000079).withNs { ns true with zones := [(0, ⟨.full, 65536, 0⟩)] })
def ioAndZones3 : Mach := ((up.checks 1 0x300000000000000000000000000000000000000000000000000000000000000000000000000000000000000000000000100000079).withNs (ns true))
def ioAndZones4 : Mach := ((up.checks 1 0x300000000000000000000000000000000000000000000000000000000000000000000000000000000000000000000000100000079).withNs { ns true with limit := 0 })
def ioAndZones5 : Mach := (up.checks 1 0x100000079)
def ioAndZones6 : Mach := ((up.checks 1 0x10000007a).withNs (ns false))
def ioAndZones7 : Mach := ((up.checks 1 0x10000007a).withNs (ns true))
def ioAndZones8 : Mach := ((up.runs 1 0x100000002).atMode 10)
def ioAndZones9 : Mach := ((up.runs 1 0x100000002).setCmdState fun s => { s with specs := [⟨1, 1, 0, 0, [.bound 7 none], 0⟩] })
def ioAndZones10 : Mach := (((up.runs 1 0x100000002).cmds fun c => { c with ranges := [⟨1, 0, 1⟩] }).earlier { cmdOf 1 1 .checked with kind := some .write, inBuffer := false, ranges := [⟨1, 0, 1⟩] })
def ioAndZones12 : Mach := (up.runs 1 0x100000002)
def ioAndZones13 : Mach := (((fun m : Mach => ((allFin 4).foldl (fun (m : Mach) (a : Actuator) => m.setFlag (QDR_ACT_DEPOP a.val) true) (m.withNs (ns false))).withCmd { cmdOf 1 0x100000001 .dispatched with ranges := [⟨1, 0, 1⟩] }) up).withNs (ns true))
def ioAndZones14 : Mach := ((up.runs 1 0x100000002).setPwr fun p => { p with waitL := [(7, 1)] })
def ioAndZones16 : Mach := ((fun m : Mach => ((allFin 4).foldl (fun (m : Mach) (a : Actuator) => m.setFlag (QDR_ACT_DEPOP a.val) true) (m.withNs (ns false))).withCmd { cmdOf 1 0x100000001 .dispatched with ranges := [⟨1, 0, 1⟩] }) up)
def ioAndZones17 : Mach := (up.runs 1 0x100000008)
def ioAndZones19 : Mach := (up.runs 1 0x100000004)
theorem test_hyps_IoAndZones :
    (∃ (s : State) (fsn : BitVec 32) (c : Cmd) (n : Namespace) (k : Nat), s.m.checking fsn.toNat 1 121 = some c ∧
      s.m.cmdNs c = some n ∧ n.zoned = true ∧ c.dw 13 8 1 = 0 ∧ c.firstLba % 65536 = 0 ∧ c.firstLba / 65536 < n.zoneCount ∧
      s.m.locked true { nsid := n.nsid, first := 65536 * (c.firstLba / 65536), count := 65536 } = false ∧
      s.m.metaWaits n.nsid [c.firstLba / 65536] = false ∧ c.dw 13 0 8 = k ∧
      zoneMove k (n.zone (c.firstLba / 65536)) = none) ∧
    (∃ (s : State) (fsn : BitVec 32) (c : Cmd) (n : Namespace) (k : Nat) (z : Zone), s.m.checking fsn.toNat 1 121 = some c ∧
      s.m.cmdNs c = some n ∧ n.zoned = true ∧ c.dw 13 8 1 = 0 ∧ c.firstLba % 65536 = 0 ∧ c.firstLba / 65536 < n.zoneCount ∧
      s.m.locked true { nsid := n.nsid, first := 65536 * (c.firstLba / 65536), count := 65536 } = false ∧
      s.m.metaWaits n.nsid [c.firstLba / 65536] = false ∧ c.dw 13 0 8 = k ∧
      zoneMove k (n.zone (c.firstLba / 65536)) = some z) ∧
    (∃ (s : State) (fsn : BitVec 32) (c : Cmd) (n : Namespace), s.m.checking fsn.toNat 1 121 = some c ∧
      s.m.cmdNs c = some n ∧ n.zoned = true ∧ c.dw 13 8 1 = 0 ∧ c.firstLba % 65536 = 0 ∧ c.firstLba / 65536 < n.zoneCount ∧
      s.m.locked true { nsid := n.nsid, first := 65536 * (c.firstLba / 65536), count := 65536 } = false ∧
      s.m.metaWaits n.nsid [c.firstLba / 65536] = false ∧ c.dw 13 0 8 = 3 ∧
      (n.zone (c.firstLba / 65536)).state = ZoneState.full) ∧
    (∃ (s : State) (fsn : BitVec 32) (c : Cmd) (n : Namespace), s.m.checking fsn.toNat 1 121 = some c ∧
      s.m.cmdNs c = some n ∧ n.zoned = true ∧ c.dw 13 8 1 = 0 ∧ c.firstLba % 65536 = 0 ∧ c.firstLba / 65536 < n.zoneCount ∧
      s.m.locked true { nsid := n.nsid, first := 65536 * (c.firstLba / 65536), count := 65536 } = false ∧
      s.m.metaWaits n.nsid [c.firstLba / 65536] = false ∧ c.dw 13 0 8 = 3 ∧
      (n.zone (c.firstLba / 65536)).state = ZoneState.empty ∧ n.countZones ZoneState.active < n.limit ∧
      n.countZones ZoneState.isOpen < n.limit) ∧
    (∃ (s : State) (fsn : BitVec 32) (c : Cmd) (n : Namespace), s.m.checking fsn.toNat 1 121 = some c ∧
      s.m.cmdNs c = some n ∧ n.zoned = true ∧ c.dw 13 8 1 = 0 ∧ c.firstLba % 65536 = 0 ∧ c.firstLba / 65536 < n.zoneCount ∧
      s.m.locked true { nsid := n.nsid, first := 65536 * (c.firstLba / 65536), count := 65536 } = false ∧
      s.m.metaWaits n.nsid [c.firstLba / 65536] = false ∧ c.dw 13 0 8 = 3 ∧
      (n.zone (c.firstLba / 65536)).state = ZoneState.empty ∧ n.limit ≤ n.countZones ZoneState.active) ∧
    (∃ (s : State) (fsn : BitVec 32) (c : Cmd), s.m.checking fsn.toNat 1 121 = some c ∧
      (c.dw 13 0 8 = 0 ∨ 5 < c.dw 13 0 8)) ∧
    (∃ (s : State) (fsn : BitVec 32) (c : Cmd) (n : Namespace), s.m.checking fsn.toNat 1 122 = some c ∧
      s.m.cmdNs c = some n ∧ n.zoned = false) ∧
    (∃ (s : State) (fsn : BitVec 32) (c : Cmd) (n : Namespace), s.m.checking fsn.toNat 1 122 = some c ∧
      s.m.cmdNs c = some n ∧ n.zoned = true ∧ c.dw 13 0 8 = 0 ∧ c.dw 13 8 8 ≤ 7 ∧ c.firstLba < n.nsze ∧ c.dw 13 16 1 = 0 ∧
      (∀ (a : Actuator), s.m.media.wpath[a].groups = [])) ∧
    (∃ (s : State) (fsn : BitVec 32) (c : Cmd) (op : Nat), s.m.running fsn.toNat 1 op = some c ∧ s.m.mode = 10) ∧
    (∃ (s : State) (fsn : BitVec 32) (c : Cmd) (op : Nat), s.m.running fsn.toNat 1 op = some c ∧ s.m.mode ≠ 10 ∧
      s.m.readWaits c = true) ∧
    (∃ (s : State) (fsn : BitVec 32) (c : Cmd) (op : Nat), s.m.running fsn.toNat 1 op = some c ∧ (∃ d, d ∈ s.m.cmd.table ∧
      d.live = true ∧ d.kind = some RangeKind.write ∧ d.inBuffer = false ∧ fsnBefore d.fsn c.fsn = true ∧ ∃ r, r ∈ d.ranges ∧
      ∃ q, q ∈ c.ranges ∧ r.meets q = true)) ∧
    (∃ (s : State) (fsn : BitVec 32) (c : Cmd) (op : Nat), s.m.running fsn.toNat 1 op = some c ∧ (∃ k, k ∈ s.m.cmd.specs ∧
      SpecSector.bound c.fsn none ∈ k.sectors)) ∧
    (∃ (s : State) (fsn : BitVec 32) (c : Cmd) (op : Nat), s.m.running fsn.toNat 1 op = some c ∧ s.m.mode ≠ 10 ∧
      s.m.readWaits c = false ∧ s.m.depopHit c.nsid (List.flatMap LbaRange.list c.ranges) = false) ∧
    (∃ (s : State) (fsn : BitVec 32) (c : Cmd) (op : Nat), s.m.running fsn.toNat 1 op = some c ∧ s.m.mode ≠ 10 ∧
      s.m.readWaits c = false ∧ s.m.depopHit c.nsid (List.flatMap LbaRange.list c.ranges) = true ∧
      s.m.zonedNs c.nsid = true) ∧
    (∃ (s : State) (fsn : BitVec 32) (c : Cmd) (op : Nat), s.m.running fsn.toNat 1 op = some c ∧ s.m.mode ≠ 10 ∧ ((∃ w,
      w ∈ s.m.pwr.waitL ∧ w.fst = c.fsn) ∨ s.m.mode ≠ 3 ∧ s.m.mode ≠ 4)) ∧
    (∃ (s : State) (fsn : BitVec 32) (c : Cmd) (op : Nat), s.m.running fsn.toNat 1 op = some c ∧
      (s.m.mode = 3 ∨ s.m.mode = 4) ∧ (∀ (w : Nat × Nat), w ∈ s.m.pwr.waitL → w.fst ≠ c.fsn) ∧
      s.m.depopHit c.nsid (List.flatMap LbaRange.list c.ranges) = false) ∧
    (∃ (s : State) (fsn : BitVec 32) (c : Cmd) (op : Nat), s.m.running fsn.toNat 1 op = some c ∧
      (s.m.mode = 3 ∨ s.m.mode = 4) ∧ (∀ (w : Nat × Nat), w ∈ s.m.pwr.waitL → w.fst ≠ c.fsn) ∧
      s.m.depopHit c.nsid (List.flatMap LbaRange.list c.ranges) = true) ∧
    (∃ (s : State) (fsn : BitVec 32) (c : Cmd), s.m.running fsn.toNat 1 8 = some c ∧ (s.m.mode = 3 ∨ s.m.mode = 4) ∧
      (∀ (w : Nat × Nat), w ∈ s.m.pwr.waitL → w.fst ≠ c.fsn) ∧ (c.deac = false ∨ s.m.zonedNs c.nsid = true) ∧
      s.m.depopHit c.nsid (List.flatMap LbaRange.list c.ranges) = false) ∧
    (∃ (s : State) (fsn : BitVec 32) (c : Cmd) (op : Nat), s.m.running fsn.toNat 1 op = some c ∧ (op = 8 → c.deac = true ∧
      s.m.zonedNs c.nsid = false) ∧ (s.m.mode = 3 ∨ s.m.mode = 4) ∧ (∀ (w : Nat × Nat), w ∈ s.m.pwr.waitL → w.fst ≠ c.fsn) ∧
      s.m.depopHit c.nsid (List.flatMap Mach.partLbas c.ranges) = false) ∧
    (∃ (s : State) (fsn : BitVec 32) (c : Cmd), s.m.running fsn.toNat 1 4 = some c) :=
  ⟨⟨⟨[], ioAndZones0⟩, 7, ((ioAndZones0.checking (7 : BitVec 32).toNat 1 121).getD (cmdOf 0 0 .granted)),
    ((ioAndZones0.cmdNs ((ioAndZones0.checking (7 : BitVec 32).toNat 1 121).getD (cmdOf 0 0 .granted))).getD (ns false)),
    ((ioAndZones0.checking (7 : BitVec 32).toNat 1 121).getD (cmdOf 0 0 .granted)).dw 13 0 8, by decide +kernel,
    by decide +kernel, by decide +kernel, by decide +kernel, by decide +kernel, by decide +kernel,
    locked_false (by decide +kernel), by decide +kernel, by decide +kernel, by decide +kernel⟩,
   ⟨⟨[], ioAndZones1⟩, 7, ((ioAndZones1.checking (7 : BitVec 32).toNat 1 121).getD (cmdOf 0 0 .granted)),
     ((ioAndZones1.cmdNs ((ioAndZones1.checking (7 : BitVec 32).toNat 1 121).getD (cmdOf 0 0 .granted))).getD (ns false)),
     ((ioAndZones1.checking (7 : BitVec 32).toNat 1 121).getD (cmdOf 0 0 .granted)).dw 13 0 8,
     ((zoneMove (((ioAndZones1.checking (7 : BitVec 32).toNat 1 121).getD (cmdOf 0 0 .granted)).dw 13 0 8) (((ioAndZones1.cmdNs ((ioAndZones1.checking (7 : BitVec 32).toNat 1 121).getD (cmdOf 0 0 .granted))).getD (ns false)).zone (((ioAndZones1.checking (7 : BitVec 32).toNat 1 121).getD (cmdOf 0 0 .granted)).firstLba / 65536))).getD (⟨.empty,
     0, 0⟩)), by decide +kernel, by decide +kernel, by decide +kernel, by decide +kernel, by decide +kernel,
     by decide +kernel, locked_false (by decide +kernel), by decide +kernel, by decide +kernel, by decide +kernel⟩,
   ⟨⟨[], ioAndZones2⟩, 7, ((ioAndZones2.checking (7 : BitVec 32).toNat 1 121).getD (cmdOf 0 0 .granted)),
     ((ioAndZones2.cmdNs ((ioAndZones2.checking (7 : BitVec 32).toNat 1 121).getD (cmdOf 0 0 .granted))).getD (ns false)),
     by decide +kernel, by decide +kernel, by decide +kernel, by decide +kernel, by decide +kernel, by decide +kernel,
     locked_false (by decide +kernel), by decide +kernel, by decide +kernel, by decide +kernel⟩,
   ⟨⟨[], ioAndZones3⟩, 7, ((ioAndZones3.checking (7 : BitVec 32).toNat 1 121).getD (cmdOf 0 0 .granted)),
     ((ioAndZones3.cmdNs ((ioAndZones3.checking (7 : BitVec 32).toNat 1 121).getD (cmdOf 0 0 .granted))).getD (ns false)),
     by decide +kernel, by decide +kernel, by decide +kernel, by decide +kernel, by decide +kernel, by decide +kernel,
     locked_false (by decide +kernel), by decide +kernel, by decide +kernel, by decide +kernel, by decide +kernel,
     by decide +kernel⟩,
   ⟨⟨[], ioAndZones4⟩, 7, ((ioAndZones4.checking (7 : BitVec 32).toNat 1 121).getD (cmdOf 0 0 .granted)),
     ((ioAndZones4.cmdNs ((ioAndZones4.checking (7 : BitVec 32).toNat 1 121).getD (cmdOf 0 0 .granted))).getD (ns false)),
     by decide +kernel, by decide +kernel, by decide +kernel, by decide +kernel, by decide +kernel, by decide +kernel,
     locked_false (by decide +kernel), by decide +kernel, by decide +kernel, by decide +kernel, by decide +kernel⟩,
   ⟨⟨[], ioAndZones5⟩, 7, ((ioAndZones5.checking (7 : BitVec 32).toNat 1 121).getD (cmdOf 0 0 .granted)), by decide +kernel⟩,
   ⟨⟨[], ioAndZones6⟩, 7, ((ioAndZones6.checking (7 : BitVec 32).toNat 1 122).getD (cmdOf 0 0 .granted)),
     ((ioAndZones6.cmdNs ((ioAndZones6.checking (7 : BitVec 32).toNat 1 122).getD (cmdOf 0 0 .granted))).getD (ns false)),
     by decide +kernel⟩,
   ⟨⟨[], ioAndZones7⟩, 7, ((ioAndZones7.checking (7 : BitVec 32).toNat 1 122).getD (cmdOf 0 0 .granted)),
     ((ioAndZones7.cmdNs ((ioAndZones7.checking (7 : BitVec 32).toNat 1 122).getD (cmdOf 0 0 .granted))).getD (ns false)),
     by decide +kernel⟩,
   ⟨⟨[], ioAndZones8⟩, 7, ((ioAndZones8.running (7 : BitVec 32).toNat 1 2).getD (cmdOf 0 0 .granted)), 2, by decide +kernel⟩,
   ⟨⟨[], ioAndZones9⟩, 7, ((ioAndZones9.running (7 : BitVec 32).toNat 1 2).getD (cmdOf 0 0 .granted)), 2, by decide +kernel⟩,
   ⟨⟨[], ioAndZones10⟩, 7, ((ioAndZones10.running (7 : BitVec 32).toNat 1 2).getD (cmdOf 0 0 .granted)), 2,
     by decide +kernel⟩,
   ⟨⟨[], ioAndZones9⟩, 7, ((ioAndZones9.running (7 : BitVec 32).toNat 1 2).getD (cmdOf 0 0 .granted)), 2, by decide +kernel⟩,
   ⟨⟨[], ioAndZones12⟩, 7, ((ioAndZones12.running (7 : BitVec 32).toNat 1 2).getD (cmdOf 0 0 .granted)), 2,
     by decide +kernel⟩,
   ⟨⟨[], ioAndZones13⟩, 7, ((ioAndZones13.running (7 : BitVec 32).toNat 1 1).getD (cmdOf 0 0 .granted)), 1,
     by decide +kernel⟩,
   ⟨⟨[], ioAndZones14⟩, 7, ((ioAndZones14.running (7 : BitVec 32).toNat 1 2).getD (cmdOf 0 0 .granted)), 2,
     by decide +kernel⟩,
   ⟨⟨[], ioAndZones12⟩, 7, ((ioAndZones12.running (7 : BitVec 32).toNat 1 2).getD (cmdOf 0 0 .granted)), 2,
     by decide +kernel⟩,
   ⟨⟨[], ioAndZones16⟩, 7, ((ioAndZones16.running (7 : BitVec 32).toNat 1 1).getD (cmdOf 0 0 .granted)), 1,
     by decide +kernel⟩,
   ⟨⟨[], ioAndZones17⟩, 7, ((ioAndZones17.running (7 : BitVec 32).toNat 1 8).getD (cmdOf 0 0 .granted)), by decide +kernel⟩,
   ⟨⟨[], ioAndZones12⟩, 7, ((ioAndZones12.running (7 : BitVec 32).toNat 1 2).getD (cmdOf 0 0 .granted)), 2,
     by decide +kernel⟩,
   ⟨⟨[], ioAndZones19⟩, 7, ((ioAndZones19.running (7 : BitVec 32).toNat 1 4).getD (cmdOf 0 0 .granted)), by decide +kernel⟩⟩

def sideband1 : Mach := (up.atMode 8)
def sideband10 : Mach := (up.runs 0 0x400000000300000003000000000000000000000000000000000000000000000000000000000000000000000000000000010000001d)
def sideband11 : Mach := (up.runs 0 0x4000000000000000000000000000000000000000000000000000000000000000000000000000000010000001d)
def sideband12 : Mach := (up.runs 0 0x1000000000000000000000000000000000000000000000000000000000000000000000000000000010000001e)
theorem test_hyps_Sideband :
    (∃ (s : State), s.m.rst.coresUp = false) ∧
    (∃ (s : State), s.m.rst.coresUp = true ∧ s.m.mode = 8) ∧
    (∃ (s : State) (id : BitVec 8), s.m.rst.coresUp = true ∧ s.m.mode ≠ 8 ∧ id.toNat ≤ 5) ∧
    (∃ (s : State) (id : BitVec 8), s.m.rst.coresUp = true ∧ s.m.mode ≠ 8 ∧ 5 < id.toNat) ∧
    (∃ (s : State) (id : BitVec 8) (v : BitVec 16), s.m.rst.coresUp = true ∧ s.m.mode ≠ 8 ∧ id = 3 ∧ 64 ≤ v.toNat ∧
      v.toNat ≤ 256) ∧
    (∃ (s : State) (id : BitVec 8) (v : BitVec 16), s.m.rst.coresUp = true ∧ s.m.mode ≠ 8 ∧ id = 1 ∧
      (v.toNat = 0 ∨ 3 < v.toNat)) ∧
    (∃ (s : State) (o : BitVec 16) (l : BitVec 16), s.m.rst.coresUp = true ∧ s.m.mode ≠ 8 ∧ 256 < o.toNat + l.toNat) ∧
    (∃ (s : State) (o : BitVec 16) (l : BitVec 16), s.m.rst.coresUp = true ∧ s.m.mode ≠ 8 ∧ o.toNat + l.toNat ≤ 256) ∧
    (∃ (s : State), s.m.rst.coresUp = true ∧ s.m.mode ≠ 8 ∧ Sound s.m 0 ∧ Sound s.m 1) ∧
    (∃ (s : State) (sqe : BitVec 512), s.m.rst.coresUp = true ∧ s.m.mode ≠ 8 ∧ bitsAt sqe 0 8 = 6 ∧ bitsAt sqe 320 8 = 1) ∧
    (∃ (s : State) (fsn : BitVec 32) (c : Cmd), s.m.running fsn.toNat 0 29 = some c ∧ c.dw 11 0 8 = 3 ∧ c.dw 12 0 8 = 3 ∧
      64 ≤ c.dw 13 0 16 ∧ c.dw 13 0 16 ≤ 256) ∧
    (∃ (s : State) (fsn : BitVec 32) (c : Cmd), s.m.running fsn.toNat 0 29 = some c ∧ c.dw 11 0 8 ≠ 3 ∧ c.dw 11 0 8 ≠ 7) ∧
    (∃ (s : State) (fsn : BitVec 32) (c : Cmd), s.m.running fsn.toNat 0 30 = some c ∧ c.dw 11 0 8 = 1) :=
  ⟨⟨⟨[], controllerRegisters1⟩, by decide +kernel⟩,
   ⟨⟨[], sideband1⟩, by decide +kernel⟩,
   ⟨⟨[], up⟩, 1, by decide +kernel⟩,
   ⟨⟨[], up⟩, 8, by decide +kernel⟩,
   ⟨⟨[], up⟩, (3 : BitVec 8), 64, by decide +kernel⟩,
   ⟨⟨[], up⟩, (1 : BitVec 8), 0, by decide +kernel⟩,
   ⟨⟨[], up⟩, 1, 256, by decide +kernel⟩,
   ⟨⟨[], up⟩, 1, 1, by decide +kernel⟩,
   ⟨⟨[], up⟩, by delta Sound; decide +kernel⟩,
   ⟨⟨[], up⟩, 2135987035920910082395021706169552114602704522356652769947041607822219725780640550022962086936582,
     by decide +kernel⟩,
   ⟨⟨[], sideband10⟩, 7, ((sideband10.running (7 : BitVec 32).toNat 0 29).getD (cmdOf 0 0 .granted)), by decide +kernel⟩,
   ⟨⟨[], sideband11⟩, 7, ((sideband11.running (7 : BitVec 32).toNat 0 29).getD (cmdOf 0 0 .granted)), by decide +kernel⟩,
   ⟨⟨[], sideband12⟩, 7, ((sideband12.running (7 : BitVec 32).toNat 0 30).getD (cmdOf 0 0 .granted)), by decide +kernel⟩⟩

def powerModes0 : Mach := (up.atMode 5)
def powerModes2 : Mach := (up.runs 1 2 |>.valid 1 2)
def powerModes3 : Mach := (up.atMode 4)
def powerModes5 : Mach := ((up.atMode 6).set PWR_MODE_PS 4)
def powerModes7 : Mach := ((up.runs 1 2).set PWR_MODE_PS 4)
def powerModes8 : Mach := ((up.atMode 4).runs 1 2 |>.valid 1 2)
def powerModes9 : Mach := ((up.atMode 5).runs 1 2 |>.valid 1 2)
def powerModes10 : Mach := (((up.atMode 7).runs 1 2 |>.valid 1 2).set PWR_SPIN_ELIG 1)
def powerModes11 : Mach := ((up.atMode 7).runs 1 2 |>.valid 1 2)
def powerModes13 : Mach := (((((up.set SPN_STAT_STATE 5).atMode 5).setPwr fun p => { p with wakeDue := true }).set (QDR_ACT_PARKED 0) 0).set (QDR_ACT_STATE 0) 0)
def powerModes14 : Mach := (up.atMode 2)
def powerModes16 : Mach := (up.set RST_PHASE_PHASE 65535)
theorem test_hyps_PowerModes :
    (∃ (s : State), ¬(s.m.mode = 3 ∧ s.m.mediaWork = false)) ∧
    (∃ (s : State), s.m.mode = 3 ∧ s.m.mediaWork = false) ∧
    (∃ (s : State), s.m.mediaWork = true) ∧
    (∃ (s : State), s.m.mediaWork = false ∧ (s.m.mode = 4 ∨ s.m.mode = 3 ∧ 3 ≤ s.m.get PWR_MODE_PS) ∧
      (s.m.is PWR_IDLE_T5 = true ∨ 3 ≤ s.m.get PWR_MODE_PS)) ∧
    (∃ (s : State), s.m.mediaWork = false ∧ s.m.mode = 5 ∧ (s.m.is PWR_IDLE_T6 = true ∨ 3 ≤ s.m.get PWR_MODE_PS)) ∧
    (∃ (s : State), s.m.mediaWork = false ∧ s.m.mode = 6 ∧ (s.m.is PWR_IDLE_T7 = true ∨ s.m.get PWR_MODE_PS = 4)) ∧
    (∃ (s : State), s.m.mediaCommand = false ∧ (s.m.get PWR_MODE_PS < 3 ∨ s.m.ioCommand = false)) ∧
    (∃ (s : State), s.m.mediaCommand = false ∧ 3 ≤ s.m.get PWR_MODE_PS ∧ s.m.ioCommand = true) ∧
    (∃ (s : State), s.m.mediaCommand = true ∧ s.m.mode = 4) ∧
    (∃ (s : State), s.m.mediaCommand = true ∧ (s.m.mode = 5 ∨ s.m.mode = 6)) ∧
    (∃ (s : State), s.m.mediaCommand = true ∧ s.m.mode = 7 ∧ s.m.is PWR_SPIN_ELIG = true) ∧
    (∃ (s : State), s.m.mediaCommand = true ∧ s.m.mode = 7 ∧ s.m.is PWR_SPIN_ELIG = false ∧ s.m.get PWR_MODE_PS < 3) ∧
    (∃ (s : State), (s.m.spnState ≠ 5 ∨ s.m.qualified = false)) ∧
    (∃ (s : State), s.m.spnState = 5 ∧ s.m.qualified = true ∧ (s.m.mode = 2 ∧ s.m.pwr.measured = true ∧
      s.m.pwr.replayDue = false ∧ (s.m.pwr.replayDrain = false ∨ s.m.dirtyCount ≤ s.m.limitUnits) ∨ s.m.pwr.wakeDue = true ∧
      (s.m.mode = 5 ∨ s.m.mode = 6))) ∧
    (∃ (s : State), s.m.mode = 2 ∧ (s.m.pwr.measured = false ∨ s.m.pwr.replayDue = true) ∧ s.m.pwr.wakeDue = false) ∧
    (∃ (s : State), (s.m.get RST_PHASE_PHASE ≠ 7 ∨ s.m.is RST_PHASE_DONE = true ∨ s.m.rst.coresUp = false)) ∧
    (∃ (s : State), s.m.get RST_PHASE_PHASE = 7 ∧ s.m.is RST_PHASE_DONE = false ∧ s.m.rst.coresUp = true) :=
  ⟨⟨⟨[], powerModes0⟩, by decide +kernel⟩,
   ⟨⟨[], up⟩, by decide +kernel⟩,
   ⟨⟨[], powerModes2⟩, by decide +kernel⟩,
   ⟨⟨[], powerModes3⟩, by decide +kernel⟩,
   ⟨⟨[], powerModes0⟩, by decide +kernel⟩,
   ⟨⟨[], powerModes5⟩, by decide +kernel⟩,
   ⟨⟨[], up⟩, by decide +kernel⟩,
   ⟨⟨[], powerModes7⟩, by decide +kernel⟩,
   ⟨⟨[], powerModes8⟩, by decide +kernel⟩,
   ⟨⟨[], powerModes9⟩, by decide +kernel⟩,
   ⟨⟨[], powerModes10⟩, by decide +kernel⟩,
   ⟨⟨[], powerModes11⟩, by decide +kernel⟩,
   ⟨⟨[], up⟩, by decide +kernel⟩,
   ⟨⟨[], powerModes13⟩, by decide +kernel⟩,
   ⟨⟨[], powerModes14⟩, by decide +kernel⟩,
   ⟨⟨[], up⟩, by decide +kernel⟩,
   ⟨⟨[], powerModes16⟩, by decide +kernel⟩⟩

def capsAndLimits1 : Mach := (((up.atMode 2).set SPN_SPEED_VALID 1).set SPN_STAT_STATE 5)
def capsAndLimits3 : Mach := ((up.setPwr fun p => { p with waitL := [(6, 1), (7, 1)] }).set KSV_LIMIT_LIMIT 4)
def capsAndLimits4 : Mach := (up.setPwr fun p => { p with waitL := [(6, 1), (7, 1)] })
def capsAndLimits5 : Mach := ((up.setPwr fun p => { p with waitL := [(6, 1)] }).set KSV_LIMIT_LIMIT 4)
def capsAndLimits9 : Mach := (up.setPwr fun p => { p with throttle := true })
theorem test_hyps_CapsAndLimits :
    (∃ (s : State),
      (s.m.mode ≠ 2 ∨ s.m.spnState ≠ 5 ∨ s.m.allParked = false ∨ s.m.is SPN_SPEED_VALID = false ∨ s.m.get SPN_SPEED_SPEED < s.m.spn.goal)) ∧
    (∃ (s : State), s.m.mode = 2 ∧ s.m.spnState = 5 ∧ s.m.allParked = true ∧ s.m.is SPN_SPEED_VALID = true ∧
      s.m.spn.goal ≤ s.m.get SPN_SPEED_SPEED) ∧
    (∃ (s : State), ((∀ (x : Nat × Nat), x ∈ s.m.pwr.waitL → s.m.limitUnits < s.m.dirtyCount + x.snd) ∨ s.m.mode ≠ 3 ∧
      s.m.mode ≠ 4)) ∧
    (∃ (s : State) (x : Nat × Nat) (y : Nat × Nat), (s.m.pwr.waitL = [x, y] ∨ s.m.pwr.waitL = [y, x]) ∧
      fsnBefore x.fst y.fst = true ∧ fsnBefore y.fst x.fst = false ∧ (s.m.mode = 3 ∨ s.m.mode = 4) ∧
      s.m.dirtyCount + x.snd ≤ s.m.limitUnits) ∧
    (∃ (s : State) (x : Nat × Nat) (y : Nat × Nat), (s.m.pwr.waitL = [x, y] ∨ s.m.pwr.waitL = [y, x]) ∧
      fsnBefore x.fst y.fst = true ∧ fsnBefore y.fst x.fst = false ∧ (s.m.mode = 3 ∨ s.m.mode = 4) ∧
      s.m.limitUnits < s.m.dirtyCount + x.snd) ∧
    (∃ (s : State) (x : Nat × Nat), s.m.pwr.waitL = [x] ∧ (s.m.mode = 3 ∨ s.m.mode = 4) ∧
      s.m.dirtyCount + x.snd ≤ s.m.limitUnits) ∧
    (∃ (s : State) (c : BitVec 8), (c.toNat < 110 ∨ s.m.pwr.throttle = true)) ∧
    (∃ (s : State) (c : BitVec 8), 110 ≤ c.toNat ∧ s.m.pwr.throttle = false) ∧
    (∃ (s : State) (c : BitVec 8), (100 < c.toNat ∨ s.m.pwr.throttle = false)) ∧
    (∃ (s : State) (c : BitVec 8), c.toNat ≤ 100 ∧ s.m.pwr.throttle = true) :=
  ⟨⟨⟨[], up⟩, by decide +kernel⟩,
   ⟨⟨[], capsAndLimits1⟩, by decide +kernel⟩,
   ⟨⟨[], up⟩, by decide +kernel⟩,
   ⟨⟨[], capsAndLimits3⟩, (6, 1), (7, 1), by decide +kernel⟩,
   ⟨⟨[], capsAndLimits4⟩, (6, 1), (7, 1), by decide +kernel⟩,
   ⟨⟨[], capsAndLimits5⟩, (capsAndLimits5.pwr.waitL.headD (0, 0)), by decide +kernel⟩,
   ⟨⟨[], up⟩, 1, by decide +kernel⟩,
   ⟨⟨[], up⟩, 110, by decide +kernel⟩,
   ⟨⟨[], up⟩, 1, by decide +kernel⟩,
   ⟨⟨[], capsAndLimits9⟩, 1, by decide +kernel⟩⟩

def saveAndReplay3 : Mach := (up.rstf fun r => { r with kept := true })
def saveAndReplay4 : Mach := (((up.setPwr fun p => { p with dirty := [dirtyUnit] }).rstf fun r => { r with kept := true }).setMem fun b => b.poison (up.pageAddr 0 0 / 64))
def saveAndReplay6 : Mach := (up.atMode 9)
def saveAndReplay9 : Mach := (((up.atMode 9).setPwr fun p => { p with writers := updAt p.writers 0 fun _ => saveWriter none }).set (SRV_STAT_TRK_CONF 0) 1)
def saveAndReplay10 : Mach := ((((up.setPwr fun p => { p with saveList := [ownUnit] }).atMode 9).setPwr fun p => { p with writers := updAt p.writers 0 fun _ => saveWriter none }).set (SRV_STAT_TRK_CONF 0) 1)
def saveAndReplay11 : Mach := ((((up.setPwr fun p => { p with writers := updAt p.writers 0 fun _ => saveWriter (some dirtyUnit) }).atMode 9).setCal fun c => { c with demands := [⟨Mach.savePort, 0, 0, 1, 0⟩] }).set (SRV_STAT_TRK_CONF 0) 1)
def saveAndReplay12 : Mach := (((up.setPwr fun p => { p with writers := updAt p.writers 0 fun _ => saveWriter (some ownUnit) }).atMode 9).set (SRV_STAT_TRK_CONF 0) 1)
def saveAndReplay17 : Mach := ((up.atMode 9).setPwr fun p => { p with ended := true })
def saveAndReplay103 : Mach := ((up.atMode 2).setPwr fun p => { p with replayDue := true, retired := 5 })
set_option maxRecDepth 100000 in
theorem test_hyps_SaveAndReplay :
    (∃ (s : State), (s.m.mode ≠ 2 ∨ s.m.pwr.replayDue = false)) ∧
    (∃ (s : State) (g : GroupScan) (h : SaveHeader) (n : Fin 129), s.m.mode = 2 ∧ s.m.pwr.replayDue = true ∧
      g.header = some h ∧ g.parity[0] = some n ∧ s.m.pwr.retired < h.gen ∧ n.val = h.entries.length + 1) ∧
    (∃ (s : State), (s.m.rst.kept = false ∨ s.m.rst.coresUp = false)) ∧
    (∃ (s : State), s.m.rst.kept = true ∧ s.m.rst.coresUp = true ∧ (∀ (u : DirtyUnit),
      u ∈ s.m.pwr.dirty → Mach.ownHandle ≤ u.handle)) ∧
    (∃ (s : State) (u : DirtyUnit), s.m.rst.kept = true ∧ s.m.rst.coresUp = true ∧ s.m.pwr.dirty = [u] ∧
      (s.m.unitPasses u).fst = false) ∧
    (∃ (s : State) (v12 : BitVec 10) (v5 : BitVec 10) (us : BitVec 10), (s.m.get KSV_TRIP_V12 ≤ v12.toNat ∧
      s.m.get KSV_TRIP_V5 ≤ v5.toNat ∨ us.toNat < max 1 (s.m.get KSV_TRIP_FILT))) ∧
    (∃ (s : State) (v12 : BitVec 10) (v5 : BitVec 10) (us : BitVec 10),
      (v12.toNat < s.m.get KSV_TRIP_V12 ∨ v5.toNat < s.m.get KSV_TRIP_V5) ∧ max 1 (s.m.get KSV_TRIP_FILT) ≤ us.toNat ∧
      s.m.mode = 9 ∧ s.m.rst.entering = false) ∧
    (∃ (s : State) (v12 : BitVec 10) (v5 : BitVec 10) (us : BitVec 10),
      (v12.toNat < s.m.get KSV_TRIP_V12 ∨ v5.toNat < s.m.get KSV_TRIP_V5) ∧ max 1 (s.m.get KSV_TRIP_FILT) ≤ us.toNat ∧
      s.m.mode ≠ 9) ∧
    (∃ (s : State) (a : Actuator),
      (s.m.mode ≠ 9 ∨ s.m.pwr.ended = true ∨ s.m.pwr.writers[a].active = false ∨ s.m.bitAt (SRV_STAT_TRK_CONF a.val) ↑(s.m.leadSlot a) = false)) ∧
    (∃ (s : State) (a : Actuator) (w : SaveWriter), s.m.mode = 9 ∧ s.m.pwr.ended = false ∧ s.m.pwr.writers[a] = w ∧
      w.active = true ∧ s.m.bitAt (SRV_STAT_TRK_CONF a.val) ↑(s.m.leadSlot a) = true ∧ w.unit = none ∧
      s.m.pwr.saveList[s.m.pwr.nextUnit]? = none) ∧
    (∃ (s : State) (a : Actuator) (w : SaveWriter) (u : DirtyUnit), s.m.mode = 9 ∧ s.m.pwr.ended = false ∧
      s.m.pwr.writers[a] = w ∧ w.active = true ∧ s.m.bitAt (SRV_STAT_TRK_CONF a.val) ↑(s.m.leadSlot a) = true ∧
      w.unit = none ∧ s.m.pwr.saveList[s.m.pwr.nextUnit]? = some u) ∧
    (∃ (s : State) (a : Actuator) (w : SaveWriter) (u : DirtyUnit), s.m.mode = 9 ∧ s.m.pwr.ended = false ∧
      s.m.pwr.writers[a] = w ∧ w.active = true ∧ s.m.bitAt (SRV_STAT_TRK_CONF a.val) ↑(s.m.leadSlot a) = true ∧
      w.unit = some u ∧ s.m.saveQuiet a = false) ∧
    (∃ (s : State) (a : Actuator) (w : SaveWriter) (u : DirtyUnit), s.m.mode = 9 ∧ s.m.pwr.ended = false ∧
      s.m.pwr.writers[a] = w ∧ w.active = true ∧ s.m.bitAt (SRV_STAT_TRK_CONF a.val) ↑(s.m.leadSlot a) = true ∧
      w.unit = some u ∧ s.m.saveQuiet a = true ∧ Mach.ownHandle ≤ u.handle) ∧
    (∃ (s : State), (s.m.mode ≠ 9 ∨ s.m.pwr.ended = true)) ∧
    (∃ (s : State) (stop : SaveStop) (us : BitVec 32),
      (s.m.mode ≠ 9 ∨ s.m.pwr.ended = true ∨ s.m.saveMayStop stop us.toNat = false)) ∧
    (∃ (s : State) (stop : SaveStop) (us : BitVec 32), s.m.mode = 9 ∧ s.m.pwr.ended = false ∧
      s.m.saveMayStop stop us.toNat = true) ∧
    (∃ (s : State), s.m.mode = 9 ∧ (s.m.pwr.ended = false ∨ s.m.allParked = false)) ∧
    (∃ (s : State), s.m.mode = 9 ∧ s.m.pwr.ended = true ∧ s.m.allParked = true ∧ s.m.rst.entering = false) ∧
    (∃ (s : State) (scan : List GroupScan), s.m.mode = 2 ∧ s.m.pwr.replayDue = true ∧ (∀ (g : GroupScan),
      g ∈ scan → ∀ (h : SaveHeader), g.header = some h → (∃ i : Fin 4,
      g.parity[i].isSome = true) → h.gen ≤ s.m.pwr.retired)) :=
  ⟨⟨⟨[], up⟩, by decide +kernel⟩,
   ⟨⟨[], powerModes14⟩, (⟨0, 0, #v[some 1, none, none, none], some ⟨100, 0, true, 0, []⟩, []⟩), ((((⟨0, 0, #v[some 1, none,
     none, none], some ⟨100, 0, true, 0, []⟩, []⟩) : GroupScan).header).getD (⟨0, 0, true, 0, []⟩)), ((((⟨0, 0, #v[some 1,
     none, none, none], some ⟨100, 0, true, 0, []⟩, []⟩) : GroupScan).parity[0]).getD (0)), by decide +kernel⟩,
   ⟨⟨[], up⟩, by decide +kernel⟩,
   ⟨⟨[], saveAndReplay3⟩, by decide +kernel⟩,
   ⟨⟨[], saveAndReplay4⟩, dirtyUnit, by decide +kernel, by decide +kernel, by decide +kernel,
     unitPasses_false (by decide) (by decide +kernel)⟩,
   ⟨⟨[], up⟩, 1, 1, 1, by decide +kernel⟩,
   ⟨⟨[], saveAndReplay6⟩, 1, 1, 9, by decide +kernel⟩,
   ⟨⟨[], up⟩, 1, 1, 9, by decide +kernel⟩,
   ⟨⟨[], up⟩, 0, by decide +kernel⟩,
   ⟨⟨[], saveAndReplay9⟩, 0, saveAndReplay9.pwr.writers[0], by decide +kernel⟩,
   ⟨⟨[], saveAndReplay10⟩, 0, saveAndReplay10.pwr.writers[0],
     ((saveAndReplay10.pwr.saveList[saveAndReplay10.pwr.nextUnit]?).getD dirtyUnit), by decide +kernel⟩,
   ⟨⟨[], saveAndReplay11⟩, 0, saveAndReplay11.pwr.writers[0], (saveAndReplay11.pwr.writers[0].unit.getD dirtyUnit),
     by decide +kernel⟩,
   ⟨⟨[], saveAndReplay12⟩, 0, saveAndReplay12.pwr.writers[0], (saveAndReplay12.pwr.writers[0].unit.getD dirtyUnit),
     by decide +kernel⟩,
   ⟨⟨[], up⟩, by decide +kernel⟩,
   ⟨⟨[], up⟩, .exhausted, 1, by decide +kernel⟩,
   ⟨⟨[], saveAndReplay6⟩, .exhausted, 1, by decide +kernel⟩,
   ⟨⟨[], saveAndReplay6⟩, by decide +kernel⟩,
   ⟨⟨[], saveAndReplay17⟩, by decide +kernel⟩,
   ⟨⟨[], saveAndReplay103⟩, [⟨0, 0, #v[some 1, none, none, none], some ⟨5, 0, true, 0, []⟩, []⟩], by decide +kernel,
     by decide +kernel, by intro g hg h hh _; simp at hg; subst hg; simp at hh; subst hh; decide +kernel⟩⟩

def bootLoading1 : Mach := (up.rstf fun r => { r with entering := true, xtal := true })
def bootLoading3 : Mach := (up.set RST_PHASE_PHASE 2)
def bootLoading5 : Mach := (((up.setFlash fun f => { f with pending := some (2, 0) }).setFlash fun f => { f with slot2 := some (bundle 0) }).set RST_PHASE_PHASE 5)
def bootLoading6 : Mach := ((up.setFlash fun f => { f with pending := some (2, 0) }).set RST_PHASE_PHASE 5)
def bootLoading7 : Mach := (((up.setFlash fun f => { f with active := 2 }).setFlash fun f => { f with slot2 := some (bundle 0) }).set RST_PHASE_PHASE 5)
def bootLoading8 : Mach := ((up.setFlash fun f => { f with active := 2 }).set RST_PHASE_PHASE 5)
def bootLoading9 : Mach := (up.set RST_PHASE_PHASE 5)
def bootLoading11 : Mach := (up.set RST_PHASE_PHASE 6)
theorem test_hyps_BootLoading :
    (∃ (s : State), (s.m.rst.entering = false ∨ s.m.rst.pinLow = true ∨ s.m.rst.stormHold = true ∨ s.m.rst.xtal = false)) ∧
    (∃ (s : State), s.m.rst.entering = true ∧ s.m.rst.pinLow = false ∧ s.m.rst.stormHold = false ∧ s.m.rst.xtal = true ∧
      (s.m.rst.fromP0 = false ∨ s.m.get PWR_RAILS_GOOD % 256 = 255)) ∧
    (∃ (s : State), (s.m.rst.entering = true ∨ s.m.rst.testEn = true ∨ s.m.get RST_PHASE_PHASE ≠ 2)) ∧
    (∃ (s : State), s.m.rst.entering = false ∧ s.m.rst.testEn = false ∧ s.m.get RST_PHASE_PHASE = 2) ∧
    (∃ (s : State), s.m.get RST_PHASE_PHASE ≠ 5) ∧
    (∃ (s : State) (slot : Nat) (k : Nat), s.m.get RST_PHASE_PHASE = 5 ∧ s.m.sec.flash.pending = some (slot, k) ∧
      (slot = 2 ∨ slot = 3) ∧ s.m.slotVerdict slot = 0) ∧
    (∃ (s : State) (slot : Nat) (k : Nat), s.m.get RST_PHASE_PHASE = 5 ∧ s.m.sec.flash.pending = some (slot, k) ∧
      (slot = 2 ∨ slot = 3) ∧ s.m.slotVerdict slot ≠ 0) ∧
    (∃ (s : State), s.m.get RST_PHASE_PHASE = 5 ∧ s.m.sec.flash.pending = none ∧
      (s.m.sec.flash.active = 2 ∨ s.m.sec.flash.active = 3) ∧ s.m.slotVerdict s.m.sec.flash.active = 0) ∧
    (∃ (s : State), s.m.get RST_PHASE_PHASE = 5 ∧ s.m.sec.flash.pending = none ∧
      (s.m.sec.flash.active = 2 ∨ s.m.sec.flash.active = 3) ∧ s.m.slotVerdict s.m.sec.flash.active ≠ 0) ∧
    (∃ (s : State), s.m.get RST_PHASE_PHASE = 5 ∧ s.m.sec.flash.pending = none ∧ s.m.sec.flash.active = 1) ∧
    (∃ (s : State), s.m.get RST_PHASE_PHASE ≠ 6) ∧
    (∃ (s : State), s.m.get RST_PHASE_PHASE = 6 ∧ s.m.is (HIF_LINK_UP 1) = false) :=
  ⟨⟨⟨[], up⟩, by decide +kernel⟩,
   ⟨⟨[], bootLoading1⟩, by decide +kernel⟩,
   ⟨⟨[], up⟩, by decide +kernel⟩,
   ⟨⟨[], bootLoading3⟩, by decide +kernel⟩,
   ⟨⟨[], up⟩, by decide +kernel⟩,
   ⟨⟨[], bootLoading5⟩, (bootLoading5.sec.flash.pending.getD (0, 0)).1, (bootLoading5.sec.flash.pending.getD (0, 0)).2,
     by decide +kernel⟩,
   ⟨⟨[], bootLoading6⟩, (bootLoading6.sec.flash.pending.getD (0, 0)).1, (bootLoading6.sec.flash.pending.getD (0, 0)).2,
     by decide +kernel⟩,
   ⟨⟨[], bootLoading7⟩, by decide +kernel⟩,
   ⟨⟨[], bootLoading8⟩, by decide +kernel⟩,
   ⟨⟨[], bootLoading9⟩, by decide +kernel⟩,
   ⟨⟨[], up⟩, by decide +kernel⟩,
   ⟨⟨[], bootLoading11⟩, by decide +kernel⟩⟩

def keysAndSecurityProtocols2 : Mach := (up.atMode 11)
def keysAndSecurityProtocols5 : Mach := (up.checks 0 0x100000081)
def keysAndSecurityProtocols6 : Mach := (up.checks 0 0x110010000000000000000000000000000000000000000000000000000000000000000000000000100000081)
def keysAndSecurityProtocols7 : Mach := (up.checks 0 0x110000000000000000000000000000000000000000000000000000000000000000000000000000100000081)
def keysAndSecurityProtocols9 : Mach := (up.runs 0 0x100000082)
def keysAndSecurityProtocols10 : Mach := (up.runs 0 0x100010000000000000000000000000000000000000000000000000000000000000000000000000100000082)
def keysAndSecurityProtocols11 : Mach := (up.runs 0 0x300000000000000000000000000000000000000000000000000000000000000000000000000000100000082)
def keysAndSecurityProtocols13 : Mach := (up.setSec fun s => { s with active := some (bundle 0), svnDue := true })
theorem test_hyps_KeysAndSecurityProtocols :
    (∃ (s : State) (req : Requester), Running 27 64 s.m ∧ req ≠ Requester.bc) ∧
    (∃ (s : State) (k : KeySlot), Running 27 64 s.m ∧ 24 ≤ k.val ∧ k.val ≤ 30) ∧
    (∃ (s : State) (k : KeySlot), Running 27 64 s.m ∧ s.m.mode = 11 ∧ (k.val < 24 ∨ k.val = 31)) ∧
    (∃ (s : State) (k : KeySlot), Running 27 64 s.m ∧ s.m.mode ≠ 11 ∧ (k.val < 24 ∨ k.val = 31)) ∧
    (∃ (s : State) (fsn : BitVec 32), s.m.checking fsn.toNat 0 129 = none) ∧
    (∃ (s : State) (fsn : BitVec 32) (c : Cmd), s.m.checking fsn.toNat 0 129 = some c ∧ c.dw 10 24 8 ≠ 1 ∧
      c.dw 10 24 8 ≠ 2) ∧
    (∃ (s : State) (fsn : BitVec 32) (c : Cmd), s.m.checking fsn.toNat 0 129 = some c ∧ c.dw 10 24 8 = 1 ∧
      c.dw 10 8 16 ≠ 4096) ∧
    (∃ (s : State) (fsn : BitVec 32) (c : Cmd), s.m.checking fsn.toNat 0 129 = some c ∧ c.dw 10 24 8 = 1 ∧
      c.dw 10 8 16 = 4096) ∧
    (∃ (s : State) (fsn : BitVec 32), s.m.running fsn.toNat 0 130 = none) ∧
    (∃ (s : State) (fsn : BitVec 32) (c : Cmd), s.m.running fsn.toNat 0 130 = some c ∧ c.dw 10 24 8 = 0 ∧ c.dw 10 8 16 = 0) ∧
    (∃ (s : State) (fsn : BitVec 32) (c : Cmd), s.m.running fsn.toNat 0 130 = some c ∧ c.dw 10 24 8 = 1 ∧ c.dw 10 8 16 = 1) ∧
    (∃ (s : State) (fsn : BitVec 32) (c : Cmd), s.m.running fsn.toNat 0 130 = some c ∧ 2 < c.dw 10 24 8) ∧
    (∃ (s : State), (s.m.sec.active = none ∨ s.m.sec.svnDue = false ∨ s.m.mode ≠ 3)) ∧
    (∃ (s : State) (b : Bundle), s.m.sec.active = some b ∧ s.m.sec.svnDue = true ∧ s.m.mode = 3) :=
  ⟨⟨⟨[], up⟩, (.core 0), by delta Running; decide +kernel⟩,
   ⟨⟨[], up⟩, 27, by delta Running; decide +kernel⟩,
   ⟨⟨[], keysAndSecurityProtocols2⟩, 0, by delta Running; decide +kernel⟩,
   ⟨⟨[], up⟩, 0, by delta Running; decide +kernel⟩,
   ⟨⟨[], up⟩, 1, by decide +kernel⟩,
   ⟨⟨[], keysAndSecurityProtocols5⟩, 7,
     ((keysAndSecurityProtocols5.checking (7 : BitVec 32).toNat 0 129).getD (cmdOf 0 0 .granted)), by decide +kernel⟩,
   ⟨⟨[], keysAndSecurityProtocols6⟩, 7,
     ((keysAndSecurityProtocols6.checking (7 : BitVec 32).toNat 0 129).getD (cmdOf 0 0 .granted)), by decide +kernel⟩,
   ⟨⟨[], keysAndSecurityProtocols7⟩, 7,
     ((keysAndSecurityProtocols7.checking (7 : BitVec 32).toNat 0 129).getD (cmdOf 0 0 .granted)), by decide +kernel⟩,
   ⟨⟨[], up⟩, 1, by decide +kernel⟩,
   ⟨⟨[], keysAndSecurityProtocols9⟩, 7,
     ((keysAndSecurityProtocols9.running (7 : BitVec 32).toNat 0 130).getD (cmdOf 0 0 .granted)), by decide +kernel⟩,
   ⟨⟨[], keysAndSecurityProtocols10⟩, 7,
     ((keysAndSecurityProtocols10.running (7 : BitVec 32).toNat 0 130).getD (cmdOf 0 0 .granted)), by decide +kernel⟩,
   ⟨⟨[], keysAndSecurityProtocols11⟩, 7,
     ((keysAndSecurityProtocols11.running (7 : BitVec 32).toNat 0 130).getD (cmdOf 0 0 .granted)), by decide +kernel⟩,
   ⟨⟨[], up⟩, by decide +kernel⟩,
   ⟨⟨[], keysAndSecurityProtocols13⟩, (keysAndSecurityProtocols13.sec.active.getD (bundle 0)), by decide +kernel⟩⟩

def herug0 : Mach := (up.set DBG_STAT_LOCKED 1)
def herug3 : Mach := (up.set DBG_STAT_STATE 1)
def herug7 : Mach := (up.set DBG_STAT_STATE 2)
def herug9 : Mach := (up.set DBG_STAT_STATE 3)
def herug11 : Mach := ((up.setSec fun s => { s with scope := 8 }).set DBG_STAT_STATE 4)
theorem test_hyps_Herug :
    (∃ (s : State), Running 27 64 s.m ∧
      (s.m.is DBG_STAT_LOCKED = true ∨ s.m.mailboxOn = false ∨ 1 < s.m.get DBG_STAT_STATE)) ∧
    (∃ (s : State), Running 27 64 s.m ∧ s.m.is DBG_STAT_LOCKED = false ∧ s.m.mailboxOn = true ∧ s.m.get DBG_STAT_STATE ≤ 1) ∧
    (∃ (s : State), Running 27 64 s.m ∧ (s.m.mailboxOn = false ∨ s.m.get DBG_STAT_STATE ≠ 1)) ∧
    (∃ (s : State) (tok : Token), Running 27 64 s.m ∧ s.m.mailboxOn = true ∧ s.m.get DBG_STAT_STATE = 1 ∧
      tok.sigSceka = false ∧ (tok.sigOem = false ∨ s.m.sec.fuses.life ≠ 1)) ∧
    (∃ (s : State) (tok : Token), Running 27 64 s.m ∧ s.m.mailboxOn = true ∧ s.m.get DBG_STAT_STATE = 1 ∧
      tok.sigSceka = true ∧ tok.serial ≠ s.m.sec.fuses.serial) ∧
    (∃ (s : State) (tok : Token), Running 27 64 s.m ∧ s.m.mailboxOn = true ∧ s.m.get DBG_STAT_STATE = 1 ∧
      tok.sigSceka = true ∧ tok.serial = s.m.sec.fuses.serial ∧ (∀ (k : Fin 4),
      s.m.get (DBG_NONCE_NONCE k.val) = tok.nonce.toNat / 2 ^ (32 * k.val) % 2 ^ 32)) ∧
    (∃ (s : State), Running 27 64 s.m ∧ s.m.get DBG_STAT_STATE ≠ 2) ∧
    (∃ (s : State), Running 27 64 s.m ∧ s.m.get DBG_STAT_STATE = 2 ∧ s.m.rst.coresUp = true) ∧
    (∃ (s : State), Running 27 64 s.m ∧ s.m.get DBG_STAT_STATE ≠ 3) ∧
    (∃ (s : State), Running 27 64 s.m ∧ s.m.get DBG_STAT_STATE = 3) ∧
    (∃ (s : State), Running 27 64 s.m ∧ (s.m.get DBG_STAT_STATE ≠ 4 ∨ s.m.sec.scope.getLsbD 3 = false)) ∧
    (∃ (s : State), Running 27 64 s.m ∧ s.m.get DBG_STAT_STATE = 4 ∧ s.m.sec.scope.getLsbD 3 = true) :=
  ⟨⟨⟨[], herug0⟩, by delta Running; decide +kernel⟩,
   ⟨⟨[], up⟩, by delta Running; decide +kernel⟩,
   ⟨⟨[], up⟩, by delta Running; decide +kernel⟩,
   ⟨⟨[], herug3⟩, (⟨false, false, 0, 0, 0⟩), by delta Running; decide +kernel⟩,
   ⟨⟨[], herug3⟩, (⟨true, true, 0xFFFF, 1, 0⟩), by delta Running; decide +kernel⟩,
   ⟨⟨[], herug3⟩, (⟨true, true, 0xFFFF, 0, 0⟩), by delta Running; decide +kernel⟩,
   ⟨⟨[], up⟩, by delta Running; decide +kernel⟩,
   ⟨⟨[], herug7⟩, by delta Running; decide +kernel⟩,
   ⟨⟨[], up⟩, by delta Running; decide +kernel⟩,
   ⟨⟨[], herug9⟩, by delta Running; decide +kernel⟩,
   ⟨⟨[], up⟩, by delta Running; decide +kernel⟩,
   ⟨⟨[], herug11⟩, by delta Running; decide +kernel⟩⟩

def sequencerWords0 : Mach := ((up.holdsWord 12 (sealWord (2 ^ 36))).setEngine fun e => { e with seqs := updAt e.seqs 12 fun q => { q with fop := some (fop false) } })
def sequencerWords1 : Mach := ((up.holdsWord 12 (sealWord (2 ^ 36))).setEngine fun e => { e with seqs := updAt e.seqs 12 fun q => { q with fop := none } })
def sequencerWords2 : Mach := (up.setEngine fun e => { e with seqs := updAt e.seqs 12 fun q => { q with fop := some (fop false) } })
def sequencerWords3 : Mach := (up.setEngine fun e => { e with seqs := updAt e.seqs 12 fun q => { q with fop := some (fop true) } })
def sequencerWords4 : Mach := (up.holdsWord 12 (wd 0 1))
def sequencerWords5 : Mach := (up.holdsWord 12 (wd 0 3))
def sequencerWords6 : Mach := (up.holdsWord 12 (wd 1 0))
def sequencerWords7 : Mach := (up.holdsWord 12 (wd 9 0))
def sequencerWords8 : Mach := (up.holdsWord 12 (wd 10 0))
def sequencerWords9 : Mach := (up.holdsWord 12 (wd 11 0))
def sequencerWords10 : Mach := (up.holdsWord 12 (wd 12 0))
def sequencerWords11 : Mach := (up.holdsWord 12 (wd 13 0))
def sequencerWords12 : Mach := (up.holdsWord 12 (wd 0 0))
def sequencerWords14 : Mach := ((up.setEngine (fun e => { e with seqs := updAt e.seqs 12 fun q => { q with held := true } }) |>.holdsWord 12 (wd 0 1)).holdsWord 12 (sealWord (1 <<< 24)))
def sequencerWords15 : Mach := (up.setEngine (fun e => { e with seqs := updAt e.seqs 12 fun q => { q with held := true } }) |>.holdsWord 12 (wd 0 1))
def sequencerWords16 : Mach := (up.holdsWord 12 (sealWord (2 ^ 110)))
def sequencerWords17 : Mach := (up.holdsWord 12 (sealWord (2 ^ 125)))
theorem test_hyps_SequencerWords :
    (∃ (s : State) (q : SeqId) (inp : Bool) (u : Micro) (next : Nat) (w : BitVec 128) (c : Bool) (p : Nat × Instr),
      Running (seqDomain q) (seqBlock q) s.m ∧ s.m.executing q = true ∧ s.m.eng.seqs[q].held = false ∧
      fetchWord (s.m.storedWord q) = Fetched.good w ∧ microOf w = u ∧ u.wait = false ∧ u.xop = 0 ∧ u.alu = 0 ∧ u.loop = 0 ∧
      c = (s.m.seqCondition q u.cond inp != u.cinv) ∧ (next = if c = true then u.btgt else u.next) ∧ next < storeSize q ∧
      u.illegal (seqKind q) (s.m.gp q u.areg) (u.operandB (s.m.gp q u.srcb)) s.m.eng.seqs[q].fop.isSome = 0 ∧ u.fop = p.fst ∧
      s.m.eng.seqs[q].fop ≠ none) ∧
    (∃ (s : State) (q : SeqId) (inp : Bool) (u : Micro) (next : Nat) (w : BitVec 128) (c : Bool) (p : Nat × Instr),
      Running (seqDomain q) (seqBlock q) s.m ∧ s.m.executing q = true ∧ s.m.eng.seqs[q].held = false ∧
      fetchWord (s.m.storedWord q) = Fetched.good w ∧ microOf w = u ∧ u.wait = false ∧ u.xop = 0 ∧ u.alu = 0 ∧ u.loop = 0 ∧
      c = (s.m.seqCondition q u.cond inp != u.cinv) ∧ (next = if c = true then u.btgt else u.next) ∧ next < storeSize q ∧
      u.illegal (seqKind q) (s.m.gp q u.areg) (u.operandB (s.m.gp q u.srcb)) s.m.eng.seqs[q].fop.isSome = 0 ∧ u.fop = p.fst ∧
      s.m.eng.seqs[q].fop = none) ∧
    (∃ (s : State) (q : SeqId) (f : Fop), Running (seqDomain q) (seqBlock q) s.m ∧ s.m.eng.seqs[q].fop = some f ∧
      (f.offered = false ∨ s.m.fopMoves q = true)) ∧
    (∃ (s : State) (q : SeqId) (f : Fop), Running (seqDomain q) (seqBlock q) s.m ∧ s.m.eng.seqs[q].fop = some f ∧
      f.offered = true ∧ s.m.fopMoves q = false) ∧
    (∃ (s : State) (q : SeqId) (inp : Bool) (u : Micro) (next : Nat), Running (seqDomain q) (seqBlock q) s.m ∧
      AtWord s.m q inp u next ∧ u.alu = 0 ∧ u.xop = 1) ∧
    (∃ (s : State) (q : SeqId) (inp : Bool) (u : Micro) (next : Nat), Running (seqDomain q) (seqBlock q) s.m ∧
      AtWord s.m q inp u next ∧ u.alu = 0 ∧ u.xop = 3) ∧
    (∃ (s : State) (q : SeqId) (inp : Bool) (u : Micro) (next : Nat) (a : Word) (b : Word) (p : Nat × Instr),
      Running (seqDomain q) (seqBlock q) s.m ∧ AtWord s.m q inp u next ∧ u.xop = 0 ∧ a = s.m.gp q u.srca ∧
      b = u.operandB (s.m.gp q u.srcb) ∧ u.alu = p.fst) ∧
    (∃ (s : State) (q : SeqId) (inp : Bool) (u : Micro) (next : Nat) (a : Word) (b : Word),
      Running (seqDomain q) (seqBlock q) s.m ∧ AtWord s.m q inp u next ∧ u.xop = 0 ∧ a = s.m.gp q u.srca ∧
      b = u.operandB (s.m.gp q u.srcb) ∧ u.alu = 9) ∧
    (∃ (s : State) (q : SeqId) (inp : Bool) (u : Micro) (next : Nat) (a : Word) (b : Word),
      Running (seqDomain q) (seqBlock q) s.m ∧ AtWord s.m q inp u next ∧ u.xop = 0 ∧ a = s.m.gp q u.srca ∧
      b = u.operandB (s.m.gp q u.srcb) ∧ u.alu = 10) ∧
    (∃ (s : State) (q : SeqId) (inp : Bool) (u : Micro) (next : Nat) (a : Word) (b : Word),
      Running (seqDomain q) (seqBlock q) s.m ∧ AtWord s.m q inp u next ∧ u.xop = 0 ∧ a = s.m.gp q u.srca ∧
      b = u.operandB (s.m.gp q u.srcb) ∧ u.alu = 11) ∧
    (∃ (s : State) (q : SeqId) (inp : Bool) (u : Micro) (next : Nat) (a : Word) (b : Word),
      Running (seqDomain q) (seqBlock q) s.m ∧ AtWord s.m q inp u next ∧ u.xop = 0 ∧ a = s.m.gp q u.srca ∧
      b = u.operandB (s.m.gp q u.srcb) ∧ u.alu = 12) ∧
    (∃ (s : State) (q : SeqId) (inp : Bool) (u : Micro) (next : Nat) (a : Word) (b : Word),
      Running (seqDomain q) (seqBlock q) s.m ∧ AtWord s.m q inp u next ∧ u.xop = 0 ∧ a = s.m.gp q u.srca ∧
      b = u.operandB (s.m.gp q u.srcb) ∧ u.alu = 13) ∧
    (∃ (s : State) (q : SeqId) (inp : Bool) (u : Micro) (next : Nat) (a : Word) (b : Word),
      Running (seqDomain q) (seqBlock q) s.m ∧ AtWord s.m q inp u next ∧ u.xop = 0 ∧ a = s.m.gp q u.srca ∧
      b = u.operandB (s.m.gp q u.srcb) ∧ u.alu = 0) ∧
    (∃ (s : State) (q : SeqId) (inp : Bool) (u : Micro) (next : Nat) (a : Word) (b : Word),
      Running (seqDomain q) (seqBlock q) s.m ∧ AtWord s.m q inp u next ∧ u.xop = 0 ∧ a = s.m.gp q u.srca ∧
      b = u.operandB (s.m.gp q u.srcb) ∧ u.alu ≠ 0) ∧
    (∃ (s : State) (q : SeqId) (inp : Bool) (u : Micro), Running (seqDomain q) (seqBlock q) s.m ∧ s.m.executing q = true ∧
      s.m.eng.seqs[q].held = true ∧ u = s.m.currentWord q ∧ s.m.seqCondition q u.cond inp = u.cinv) ∧
    (∃ (s : State) (q : SeqId) (inp : Bool) (u : Micro), Running (seqDomain q) (seqBlock q) s.m ∧ s.m.executing q = true ∧
      s.m.eng.seqs[q].held = true ∧ u = s.m.currentWord q ∧ s.m.seqCondition q u.cond inp ≠ u.cinv ∧ u.next < storeSize q) ∧
    (∃ (s : State) (q : SeqId) (u : Micro) (w : BitVec 128), Running (seqDomain q) (seqBlock q) s.m ∧
      s.m.executing q = true ∧ s.m.eng.seqs[q].held = false ∧ fetchWord (s.m.storedWord q) = Fetched.good w ∧ microOf w = u ∧
      u.next < storeSize q ∧ u.btgt < storeSize q ∧ u.rsvd ≠ 0) ∧
    (∃ (s : State) (q : SeqId), Running (seqDomain q) (seqBlock q) s.m ∧ s.m.executing q = true ∧
      s.m.eng.seqs[q].held = false ∧ fetchWord (s.m.storedWord q) = Fetched.double) :=
  ⟨⟨⟨[], sequencerWords0⟩, 12, true, (microOf (sealWord (2 ^ 36))), 0, (sealWord (2 ^ 36)),
    (sequencerWords0.seqCondition 12 (microOf (sealWord (2 ^ 36))).cond true != (microOf (sealWord (2 ^ 36))).cinv), (1,
    .fopRead 12 true), by delta Running; decide +kernel⟩,
   ⟨⟨[], sequencerWords1⟩, 12, true, (microOf (sealWord (2 ^ 36))), 0, (sealWord (2 ^ 36)),
     (sequencerWords1.seqCondition 12 (microOf (sealWord (2 ^ 36))).cond true != (microOf (sealWord (2 ^ 36))).cinv), (1,
     .fopRead 12 true), by delta Running; decide +kernel⟩,
   ⟨⟨[], sequencerWords2⟩, 12, (sequencerWords2.eng.seqs[12].fop.getD (fop false)), by delta Running; decide +kernel⟩,
   ⟨⟨[], sequencerWords3⟩, 12, (sequencerWords3.eng.seqs[12].fop.getD (fop false)), by delta Running; decide +kernel⟩,
   ⟨⟨[], sequencerWords4⟩, 12, true, (microOf (wd 0 1)), 0, by delta Running; decide +kernel,
     atWord_of (wd 0 1) (by decide +kernel), by decide +kernel, by decide +kernel⟩,
   ⟨⟨[], sequencerWords5⟩, 12, true, (microOf (wd 0 3)), 0, by delta Running; decide +kernel,
     atWord_of (wd 0 3) (by decide +kernel), by decide +kernel, by decide +kernel⟩,
   ⟨⟨[], sequencerWords6⟩, 12, true, (microOf (wd 1 0)), 0, (sequencerWords6.gp 12 1),
     ((microOf (wd 1 0)).operandB (sequencerWords6.gp 12 2)), (1, .aluAdd 12 true), by delta Running; decide +kernel,
     atWord_of (wd 1 0) (by decide +kernel), by decide +kernel, by decide +kernel, by decide +kernel, by decide +kernel⟩,
   ⟨⟨[], sequencerWords7⟩, 12, true, (microOf (wd 9 0)), 0, 0, 0, by delta Running; decide +kernel,
     atWord_of (wd 9 0) (by decide +kernel), by decide +kernel, by decide +kernel, by decide +kernel, by decide +kernel⟩,
   ⟨⟨[], sequencerWords8⟩, 12, true, (microOf (wd 10 0)), 0, 0, 0, by delta Running; decide +kernel,
     atWord_of (wd 10 0) (by decide +kernel), by decide +kernel, by decide +kernel, by decide +kernel, by decide +kernel⟩,
   ⟨⟨[], sequencerWords9⟩, 12, true, (microOf (wd 11 0)), 0, 0, 0, by delta Running; decide +kernel,
     atWord_of (wd 11 0) (by decide +kernel), by decide +kernel, by decide +kernel, by decide +kernel, by decide +kernel⟩,
   ⟨⟨[], sequencerWords10⟩, 12, true, (microOf (wd 12 0)), 0, 0, 0, by delta Running; decide +kernel,
     atWord_of (wd 12 0) (by decide +kernel), by decide +kernel, by decide +kernel, by decide +kernel, by decide +kernel⟩,
   ⟨⟨[], sequencerWords11⟩, 12, true, (microOf (wd 13 0)), 0, 0, 0, by delta Running; decide +kernel,
     atWord_of (wd 13 0) (by decide +kernel), by decide +kernel, by decide +kernel, by decide +kernel, by decide +kernel⟩,
   ⟨⟨[], sequencerWords12⟩, 12, true, (microOf (wd 0 0)), 0, 0, 0, by delta Running; decide +kernel,
     atWord_of (wd 0 0) (by decide +kernel), by decide +kernel, by decide +kernel, by decide +kernel, by decide +kernel⟩,
   ⟨⟨[], sequencerWords6⟩, 12, true, (microOf (wd 1 0)), 0, 0, 0, by delta Running; decide +kernel,
     atWord_of (wd 1 0) (by decide +kernel), by decide +kernel, by decide +kernel, by decide +kernel, by decide +kernel⟩,
   ⟨⟨[], sequencerWords14⟩, 12, true, (sequencerWords14.currentWord 12 : Micro), by delta Running; decide +kernel⟩,
   ⟨⟨[], sequencerWords15⟩, 12, true, (sequencerWords15.currentWord 12 : Micro), by delta Running; decide +kernel⟩,
   ⟨⟨[], sequencerWords16⟩, 12, (microOf (sealWord (2 ^ 110))), (sealWord (2 ^ 110)), by delta Running; decide +kernel⟩,
   ⟨⟨[], sequencerWords17⟩, 12, by delta Running; decide +kernel⟩⟩

def controlStores6 : Mach := (up.holdsWord 0 (wd 1 0))
theorem test_hyps_ControlStores :
    (∃ (s : State) (q : SeqId) (req : Requester), Running (seqDomain q) (seqBlock q) s.m ∧ req ≠ Requester.bc) ∧
    (∃ (s : State) (q : SeqId) (k : Fin 4), Running (seqDomain q) (seqBlock q) s.m ∧ k ≠ 3) ∧
    (∃ (s : State) (q : SeqId) (a : Nat), Running (seqDomain q) (seqBlock q) s.m ∧ a = s.m.get (SEQ_CSADDR_ADDR q.val) ∧
      a < storeSize q) ∧
    (∃ (s : State) (q : SeqId), Running (seqDomain q) (seqBlock q) s.m ∧ s.m.is (SEQ_CTRL_RUN q.val) = true) ∧
    (∃ (s : State) (q : SeqId), Running (seqDomain q) (seqBlock q) s.m ∧ s.m.is (SEQ_CTRL_RUN q.val) = false) ∧
    (∃ (s : State) (req : Requester), Running 19 38 s.m ∧ req ≠ Requester.bc) ∧
    (∃ (s : State), Running 19 38 s.m ∧ (∃ p, s.m.seqIdle p = false)) ∧
    (∃ (s : State), Running 19 38 s.m ∧ (∀ (p : SeqId), s.m.is (SEQ_CTRL_RUN p.val) = false) ∧ s.m.cmd.quiet = none) :=
  ⟨⟨⟨[], up⟩, 12, (.core 0), by delta Running; decide +kernel⟩,
   ⟨⟨[], up⟩, 12, 0, by delta Running; decide +kernel⟩,
   ⟨⟨[], up⟩, 12, 0, by delta Running; decide +kernel⟩,
   ⟨⟨[], sequencerWords4⟩, 12, by delta Running; decide +kernel⟩,
   ⟨⟨[], up⟩, 12, by delta Running; decide +kernel⟩,
   ⟨⟨[], up⟩, (.core 0), by delta Running; decide +kernel⟩,
   ⟨⟨[], controlStores6⟩, by delta Running; decide +kernel, ⟨0, by decide +kernel⟩⟩,
   ⟨⟨[], up⟩, by delta Running; decide +kernel⟩⟩

def resetRequests3 : Mach := (up.rstf fun r => { r with entering := true })
def resetRequests5 : Mach := ((up.atMode 11).setSec fun s => { s with scope := 1 })
def resetRequests7 : Mach := (up.set DBG_STAT_STATE 4)
def resetRequests12 : Mach := (up.setCal fun c => { c with flights := [⟨0, 0, 1, 0, 0⟩] })
def resetRequests13 : Mach := (up.set CLK_GOOD0_GOOD 0)
def resetRequests15 : Mach := (up.rstf fun r => { r with xtal := true })
def resetRequests17 : Mach := (up.rstf fun r => { r with waiting := [0] })
def resetRequests18 : Mach := (up.rstf fun r => { r with history := List.replicate 8 0 })
theorem test_hyps_ResetRequests :
    (∃ (s : State) (rail : Fin 7), s.m.mode = 8 ∧ (rail.val ≤ 2 ∨ rail.val = 6)) ∧
    (∃ (s : State), s.m.mode = 9) ∧
    (∃ (s : State) (rail : Fin 7), s.m.mode ≠ 9 ∧ (s.m.mode ≠ 8 ∨ 2 < rail.val ∧ rail.val ≠ 6)) ∧
    (∃ (s : State), s.m.rst.entering = true) ∧
    (∃ (s : State) (k : Fin 16) (req : Requester) (w : Word), s.m.rst.entering = false ∧ req ∈ [Requester.bc,
      Requester.core k] ∧ w ≠ 1398231636) ∧
    (∃ (s : State), s.m.rst.entering = false ∧ s.m.bar2Open = true) ∧
    (∃ (s : State), s.m.rst.entering = false ∧ s.m.bar2Open = false) ∧
    (∃ (s : State), s.m.rst.entering = false ∧ s.m.get DBG_STAT_STATE = 4) ∧
    (∃ (s : State), s.m.rst.entering = false ∧ s.m.get DBG_STAT_STATE ≠ 4) ∧
    (∃ (s : State) (k : Fin 12), s.m.rst.entering = false ∧ s.m.coreRuns k.val = true) ∧
    (∃ (s : State) (k : Fin 12), s.m.rst.entering = false ∧ s.m.coreRuns k.val = false) ∧
    (∃ (s : State), s.m.rst.entering = false ∧ s.m.wdgRuns = false) ∧
    (∃ (s : State) (f : Flight) (rest : List Flight), s.m.rst.entering = false ∧ s.m.wdgRuns = true ∧
      s.m.clockGood 8 = true ∧ s.m.cal.flights = f :: rest) ∧
    (∃ (s : State) (d : Fin 64), s.m.rst.entering = false ∧ d.val ≤ 37 ∧
      (s.m.gateOpen d.val = false ∨ s.m.clockGood d.val = false)) ∧
    (∃ (s : State) (d : Fin 64) (k : Fin 3), s.m.rst.entering = false ∧ d.val ≤ 37 ∧ s.m.gateOpen d.val = true ∧
      s.m.clockGood d.val = true ∧ k = 0) ∧
    (∃ (s : State), s.m.rst.entering = false ∧ s.m.rst.xtal = true) ∧
    (∃ (s : State) (d : Domain), s.m.rst.entering = false ∧ ¬d ∈ s.m.rst.waiting) ∧
    (∃ (s : State) (d : Domain), s.m.rst.entering = false ∧ d ∈ s.m.rst.waiting ∧ d.val ≠ 38) ∧
    (∃ (s : State), s.m.rst.entering = false ∧
      7 ≤ (List.filter (fun x => decide (s.m.aonTime - x < 1000000)) s.m.rst.history).length) :=
  ⟨⟨⟨[], sideband1⟩, 0, by decide +kernel⟩,
   ⟨⟨[], saveAndReplay6⟩, by decide +kernel⟩,
   ⟨⟨[], up⟩, 0, by decide +kernel⟩,
   ⟨⟨[], resetRequests3⟩, by decide +kernel⟩,
   ⟨⟨[], up⟩, 0, (([Requester.bc, Requester.core 0]).headD (.bc)), 1, by decide +kernel⟩,
   ⟨⟨[], resetRequests5⟩, by decide +kernel⟩,
   ⟨⟨[], up⟩, by decide +kernel⟩,
   ⟨⟨[], resetRequests7⟩, by decide +kernel⟩,
   ⟨⟨[], up⟩, by decide +kernel⟩,
   ⟨⟨[], up⟩, 0, by decide +kernel⟩,
   ⟨⟨[], sideband1⟩, 0, by decide +kernel⟩,
   ⟨⟨[], up⟩, by decide +kernel⟩,
   ⟨⟨[], resetRequests12⟩, (resetRequests12.cal.flights.headD (⟨0, 0, 1, 0, 0⟩)), resetRequests12.cal.flights.tail,
     by decide +kernel⟩,
   ⟨⟨[], resetRequests13⟩, 0, by decide +kernel⟩,
   ⟨⟨[], up⟩, 0, (0 : Fin 3), by decide +kernel⟩,
   ⟨⟨[], resetRequests15⟩, by decide +kernel⟩,
   ⟨⟨[], up⟩, 0, by decide +kernel⟩,
   ⟨⟨[], resetRequests17⟩, (resetRequests17.rst.waiting.headD (0)), by decide +kernel⟩,
   ⟨⟨[], resetRequests18⟩, by decide +kernel⟩⟩

def clocksAndSleep1 : Mach := (up.rstf fun r => { r with entering := true, fromP0 := true, pinLow := false })
def clocksAndSleep4 : Mach := (up.set RST_PHASE_PHASE 3)
def clocksAndSleep6 : Mach := ((up.rstf fun r => { r with waiting := [0] }).set CLK_STAT_RPLL_LOCK 1)
def clocksAndSleep10 : Mach := ((fun m : Mach => ((((((m.atMode 7).setFlag PWR_FLEET_SLEEP_EN true).setCtrl 0 fun c => { c with shst := 2 }).setCtrl 1 fun c => { c with shst := 2 }).setPort 0 fun p => { p with d3hot := true }).setPort 1 fun p => { p with d3hot := true })) up)
def clocksAndSleep12 : Mach := ((up.atMode 8).set SEC_BOOT_ACTIVE 1)
def clocksAndSleep15 : Mach := (up.setDie fun d => { d with paOff := Vector.replicate 4 false })
theorem test_hyps_ClocksAndSleep :
    (∃ (s : State),
      (s.m.rst.entering = false ∨ s.m.rst.pinLow = true ∨ s.m.rst.stormHold = true ∨ s.m.die.v12Ok = false ∨ s.m.die.v5Ok = false)) ∧
    (∃ (s : State), s.m.rst.entering = true ∧ s.m.rst.fromP0 = true ∧ s.m.rst.pinLow = false ∧ s.m.rst.stormHold = false ∧
      s.m.die.v12Ok = true ∧ s.m.die.v5Ok = true) ∧
    (∃ (s : State), s.m.rst.entering = true ∧ s.m.rst.fromP0 = true ∧ s.m.get PWR_RAILS_GOOD % 256 ≠ 255) ∧
    (∃ (s : State), (s.m.rst.entering = true ∨ s.m.get RST_PHASE_PHASE ≠ 3 ∨ s.m.rst.pllOn = true)) ∧
    (∃ (s : State), s.m.rst.entering = false ∧ s.m.get RST_PHASE_PHASE = 3 ∧ s.m.rst.pllOn = false) ∧
    (∃ (s : State) (d : Domain), (s.m.gateOpen d.val = false ∨ ¬d ∈ s.m.rst.waiting)) ∧
    (∃ (s : State) (d : Domain), s.m.gateOpen d.val = true ∧ s.m.is CLK_STAT_RPLL_LOCK = true ∧
      (if s.m.get RST_PHASE_PHASE = 3 then s.m.rst.waiting.head? = some d else d ∈ s.m.rst.waiting)) ∧
    (∃ (s : State) (req : Requester) (half : Fin 2) (w : Word), (∃ d : Domain, 32 * half.val ≤ d.val ∧
      d.val < 32 * half.val + 32 ∧ s.m.gateOpen d.val = true ∧ BitVec.getLsbD w (d.val - 32 * half.val) = false ∧
      s.m.closureRefused req d.val = true)) ∧
    (∃ (s : State) (req : Requester) (half : Fin 2) (w : Word), (∀ (d : Domain),
      32 * half.val ≤ d.val → d.val < 32 * half.val + 32 → s.m.gateOpen d.val = true → BitVec.getLsbD w (d.val - 32 * half.val) = false → s.m.closureRefused req d.val = false)) ∧
    (∃ (s : State), s.m.sleepReady = false) ∧
    (∃ (s : State), s.m.sleepReady = true) ∧
    (∃ (s : State), (s.m.mode ≠ 8 ∨ s.m.rst.entering = true)) ∧
    (∃ (s : State), s.m.mode = 8 ∧ s.m.rst.entering = false ∧ s.m.get SEC_BOOT_ACTIVE = 1 ∧ s.m.is (HIF_LINK_UP 1) = false) ∧
    (∃ (s : State), s.m.mode = 8 ∧ s.m.rst.entering = false ∧ s.m.get SEC_BOOT_ACTIVE ≠ 1 ∧
      s.m.slotVerdict (s.m.get SEC_BOOT_ACTIVE) ≠ 0) ∧
    (∃ (s : State) (a : Actuator), s.m.die.paOff[a] = true) ∧
    (∃ (s : State) (a : Actuator), s.m.die.paOff[a] = false) :=
  ⟨⟨⟨[], up⟩, by decide +kernel⟩,
   ⟨⟨[], clocksAndSleep1⟩, by decide +kernel⟩,
   ⟨⟨[], clocksAndSleep1⟩, by decide +kernel⟩,
   ⟨⟨[], up⟩, by decide +kernel⟩,
   ⟨⟨[], clocksAndSleep4⟩, by decide +kernel⟩,
   ⟨⟨[], up⟩, 0, by decide +kernel⟩,
   ⟨⟨[], clocksAndSleep6⟩, 0, by decide +kernel⟩,
   ⟨⟨[], checkAndDispatch9⟩, .bc, 0, 1, by decide +kernel⟩,
   ⟨⟨[], up⟩, .bc, 0, 4294967295, by decide +kernel⟩,
   ⟨⟨[], up⟩, by decide +kernel⟩,
   ⟨⟨[], clocksAndSleep10⟩, by decide +kernel⟩,
   ⟨⟨[], up⟩, by decide +kernel⟩,
   ⟨⟨[], clocksAndSleep12⟩, by decide +kernel⟩,
   ⟨⟨[], sideband1⟩, by decide +kernel⟩,
   ⟨⟨[], up⟩, 0, by decide +kernel⟩,
   ⟨⟨[], clocksAndSleep15⟩, 0, by decide +kernel⟩⟩

def blockResets0 : Mach := (up.set RST_BLKSTAT0_BUSY 0xFFFFFFFF)
def blockResets4 : Mach := ((up.set RST_BLKSTAT0_BUSY 0xFFFFFFFF).set CLK_GOOD0_GOOD 0)
theorem test_hyps_BlockResets :
    (∃ (s : State) (p : Instr × Nat × Bool), (s.m.blockBusy p.snd.fst = true ∨ p.snd.snd = false ∨ ∃ q,
      q ∈ blockSeqs p.snd.fst ∧ s.m.get (SEQ_STAT_STATE q.val) = 3)) ∧
    (∃ (s : State) (p : Instr × Nat × Bool), s.m.blockBusy p.snd.fst = false ∧ p.snd.snd = true ∧ (∀ (q : SeqId),
      q ∈ blockSeqs p.snd.fst → s.m.get (SEQ_STAT_STATE q.val) ≠ 3)) ∧
    (∃ (s : State) (b : Fin 39), s.m.blockBusy b.val = false) ∧
    (∃ (s : State) (b : Fin 39), s.m.blockBusy b.val = true ∧ s.m.clockGood (blockDomain b.val) = true) ∧
    (∃ (s : State) (b : Fin 39), s.m.blockBusy b.val = true ∧ s.m.clockGood (blockDomain b.val) = false) :=
  ⟨⟨⟨[], blockResets0⟩, (.blockResetPrg, 29, true), by decide +kernel⟩,
   ⟨⟨[], up⟩, (.blockResetPrg, 29, up.prgIdle), by decide +kernel⟩,
   ⟨⟨[], up⟩, 0, by decide +kernel⟩,
   ⟨⟨[], blockResets0⟩, 0, by decide +kernel⟩,
   ⟨⟨[], blockResets4⟩, 0, by decide +kernel⟩⟩

def eventLogic1 : Mach := ((fun m : Mach => ({ m with reports := [5000] } : Mach)) up)
theorem test_hyps_EventLogic :
    (∃ (s : State), Running 26 64 s.m ∧ s.m.reports = []) ∧
    (∃ (s : State) (x : Nat) (rest : List Nat), Running 26 64 s.m ∧ s.m.reports = x :: rest ∧ sourceListed x = false) ∧
    (∃ (s : State) (x : Fin 1152), Running 26 64 s.m ∧ sourceListed x.val = false) ∧
    (∃ (s : State) (x : Nat), Running 26 64 s.m ∧ sourceListed x = true) ∧
    (∃ (s : State) (b : BitVec 5), Running 26 64 s.m ∧ b.toNat ≤ 19) ∧
    (∃ (s : State) (b : BitVec 5), Running 26 64 s.m ∧ 20 ≤ b.toNat) :=
  ⟨⟨⟨[], up⟩, by delta Running; decide +kernel⟩,
   ⟨⟨[], eventLogic1⟩, (eventLogic1.reports.headD (0)), eventLogic1.reports.tail, by delta Running; decide +kernel⟩,
   ⟨⟨[], up⟩, 26, by delta Running; decide +kernel⟩,
   ⟨⟨[], up⟩, 0, by delta Running; decide +kernel⟩,
   ⟨⟨[], up⟩, 1, by delta Running; decide +kernel⟩,
   ⟨⟨[], up⟩, 26, by delta Running; decide +kernel⟩⟩

def ledgerAndRecorder1 : Mach := ((up.setEvt fun e => { e with ledger := [List.replicate 32 0] }).rstf fun r => { r with coresUp := false })
def ledgerAndRecorder2 : Mach := (up.set REC_STAT_BUSY 1)
def ledgerAndRecorder5 : Mach := (up.setCal fun c => { c with demands := [⟨Mach.recorderPort, 0, 0, 1, 1⟩] })
def ledgerAndRecorder6 : Mach := (up.setEvt fun e => { e with op := some ⟨true, 0, [], 0⟩ })
theorem test_hyps_LedgerAndRecorder :
    (∃ (s : State), Running 26 64 s.m ∧ s.m.evt.ledger = []) ∧
    (∃ (s : State) (e : List Byte) (rest : List (List Byte)), Running 26 64 s.m ∧ s.m.evt.ledger = e :: rest ∧
      (s.m.rst.coresUp = false ∨ s.m.mode = 9)) ∧
    (∃ (s : State), Running 26 64 s.m ∧ s.m.is REC_STAT_BUSY = true) ∧
    (∃ (s : State), Running 26 64 s.m ∧ s.m.is REC_STAT_BUSY = false) ∧
    (∃ (s : State), Running 26 64 s.m ∧ s.m.evt.op = none) ∧
    (∃ (s : State), Running 26 64 s.m ∧ (s.m.quietFor fun p o => p == Mach.recorderPort && o == 1) = false) ∧
    (∃ (s : State) (op : RecOp), Running 26 64 s.m ∧ s.m.evt.op = some op ∧
      (s.m.quietFor fun p o => p == Mach.recorderPort && o == 1) = true) ∧
    (∃ (s : State), s.m.rst.coresUp = true ∧ s.m.mode ≠ 9) ∧
    (∃ (s : State), s.m.rst.coresUp = false) :=
  ⟨⟨⟨[], up⟩, by delta Running; decide +kernel⟩,
   ⟨⟨[], ledgerAndRecorder1⟩, (ledgerAndRecorder1.evt.ledger.headD ([])), ledgerAndRecorder1.evt.ledger.tail,
     by delta Running; decide +kernel⟩,
   ⟨⟨[], ledgerAndRecorder2⟩, by delta Running; decide +kernel⟩,
   ⟨⟨[], up⟩, by delta Running; decide +kernel⟩,
   ⟨⟨[], up⟩, by delta Running; decide +kernel⟩,
   ⟨⟨[], ledgerAndRecorder5⟩, by delta Running; decide +kernel⟩,
   ⟨⟨[], ledgerAndRecorder6⟩, (ledgerAndRecorder6.evt.op.getD (⟨true, 0, [], 0⟩)), by delta Running; decide +kernel⟩,
   ⟨⟨[], up⟩, by decide +kernel⟩,
   ⟨⟨[], controllerRegisters1⟩, by decide +kernel⟩⟩

def registerWrites3 : Mach := (up.atMode 11 |>.setSec fun s => { s with scope := 1 })
def registerWrites5 : Mach := (up.set SEC_SEAL_SEALED 1)
theorem test_hyps_RegisterWrites :
    (∃ (a : BitVec 32), inWindow a.toNat = false) ∧
    (∃ (a : BitVec 32) (len : Fin 5), inWindow a.toNat = true ∧ len ≠ 4) ∧
    (∃ (s : State) (len : Fin 5), (s.m.bar2Open = false ∨ len ≠ 4)) ∧
    (∃ (s : State) (o : BitVec 22) (b : Nat), s.m.bar2Open = true ∧ slotBase (o.toNat / 65536) = some b) ∧
    (∃ (a : Nat), (a % 4 ≠ 0 ∨ (findReg a regBlocks).isNone = true)) ∧
    (∃ (s : State) (req : Requester), req ≠ Requester.bc ∧ s.m.is SEC_SEAL_SEALED = true) :=
  ⟨⟨1, by decide +kernel⟩,
   ⟨1074003968, 0, by decide +kernel⟩,
   ⟨⟨[], up⟩, 0, by decide +kernel⟩,
   ⟨⟨[], registerWrites3⟩, 1, ((slotBase ((1 : BitVec 22).toNat / 65536)).getD (0)), by decide +kernel⟩,
   ⟨0, by decide +kernel⟩,
   ⟨⟨[], registerWrites5⟩, (.core 0), by decide +kernel⟩⟩

end Sys2Proof.Machine

namespace Sys2Proof

open Machine

/-! ### Ill-formed commands -/

theorem test_wf_check : (Instr.check 0 true (List.replicate 257 (0, 1))).wf = false := by decide +kernel
theorem test_wf_fetchComplete : (Instr.fetchComplete 0 (some [])).wf = false := by decide
theorem test_wf_readAheadIssue : (Instr.readAheadIssue 1 0 0).wf = false := by decide
theorem test_wf_adaptWindowEnd : (Instr.adaptWindowEnd 0 ⟨[0], []⟩ [1]).wf = false := by decide
theorem test_wf_sectorCapture : (Instr.sectorCapture 0 ⟨[], []⟩).wf = false := by decide
theorem test_wf_captureTaken : (Instr.captureTaken 0 ⟨[0], []⟩).wf = false := by decide
theorem test_wf_syncSearchEnd : (Instr.syncSearchEnd 0 [true] []).wf = false := by decide
theorem test_wf_rebuildDone : (Instr.rebuildDone 0 (List.replicate 133 none)).wf = false := by decide +kernel
theorem test_wf_wsafeFall : (Instr.wsafeFall 0 37505).wf = false := by decide
theorem test_wf_replay :
    (Instr.replay [⟨0, 0, #v[none, none, none, none], none, List.replicate 129 none⟩]).wf = false := by decide +kernel
theorem test_wf_bufferLineAccess : (Instr.bufferLineAccess ⟨0, 0, some ⟨[], 0⟩⟩ false).wf = false := by decide
theorem test_wf_cacheAccess : (Instr.cacheAccess ⟨0, 0, some ⟨[], 0⟩⟩ .good none).wf = false := by decide
theorem test_wf_hostReadCompletion : (Instr.hostReadCompletion 0 (some [])).wf = false := by decide
theorem test_wf_linkUp : (Instr.linkUp 0 5 3).wf = false := by decide
theorem test_wf_clockFailure : (Instr.clockFailure 38 0).wf = false := by decide
theorem test_wf_blockResetRelease : (Instr.blockResetRelease 31).wf = false := by decide
theorem test_wf_registerWrite : (Instr.registerWrite .bc 0x40000000 3 0).wf = false := by decide
theorem test_wf_bar2Write : (Instr.bar2Write 0 0 0).wf = false := by decide

end Sys2Proof

namespace Sys2Proof.Machine

/-! ### One step: expected results from the rules -/

/-- The machine after a command on `m` with an empty queue. -/
def after (i : Instr) (m : Mach) : Option Mach :=
  match exec i ⟨[], m⟩ with
  | .next t => some t.m
  | _ => none

/-- A sequencer about to add, subtract and so on: GP1 and GP2 hold `a` and `b`. -/
def alu (op : Nat) (a b : Word) : Mach := ((up.holdsWord 12 (wd op 0)).setGp 12 1 a).setGp 12 2 b

/-! The published check values of the codes that the spec names. -/

def digits : List Byte := [0x31, 0x32, 0x33, 0x34, 0x35, 0x36, 0x37, 0x38, 0x39]
theorem test_crc32c : crc32cFrom 0xFFFFFFFF digits = 0xE3069283 := by decide +kernel
theorem test_guard16 : guard16 digits = 0xD0DB := by decide +kernel
theorem test_guard64 : guard64 digits = 0xAE8B14860A799888 := by decide +kernel
theorem test_mixColumns :
    (mixColumns [2, 3, 1, 1] ([0xDB, 0x13, 0x53, 0x45] ++ List.replicate 12 1)).take 4 = [0x8E, 0x4D, 0xA1, 0xBC] := by decide +kernel

/-! Step and queue. -/

theorem test_step_takes_front :
    (match step ⟨[.calFreeze true, .calSwap], up⟩ with
      | .next t => t.pending.length == 1 && t.m.is CAL_CTRL_FREEZE
      | _ => false) = true := by decide +kernel

/-! Caller (R34, R47). -/

theorem test_frozen_grants_nothing :
    (after .fabricGrant ((up.set CAL_CTRL_FREEZE 1).setCal fun c =>
      { c with queues := updAt c.queues 0 fun _ => [⟨0, 0, 0⟩], pool := 5 })).map (fun m => m.cal.flights) = some [] := by
  decide +kernel

/-! Sequencers (R353, R354, R356, R361): the sum wraps, sets Z and leaves GP1 and GP2; a difference sets N; GP0 stays 0. -/

theorem test_aluAdd_wraps :
    (after (.aluAdd 12 true) (alu 1 0xFFFFFFFF 1)).map (fun m => (m.gp 12 3, m.eng.seqs[12].zero, m.gp 12 1)) =
      some (0, true, 0xFFFFFFFF) := by decide +kernel
theorem test_aluSub_negative :
    (after (.aluSub 12 true) (alu 2 1 2)).map (fun m => (m.gp 12 3, m.eng.seqs[12].neg)) = some (0xFFFFFFFF, true) := by
  decide +kernel
theorem test_aluXor : (after (.aluXor 12 true) (alu 5 0xF0F0 0xFF00)).map (·.gp 12 3) = some 0x0FF0 := by decide +kernel
theorem test_double_error_halts :
    (after (.seqNopWord 12 true) (up.holdsWord 12 (wd 0 0 ^^^ 3))).map (fun m => (m.get (SEQ_STAT_STATE 12), m.get (SEQ_HALT_CAUSE 12))) =
      some (3, 1) := by decide +kernel
theorem test_single_error_corrected :
    (after (.aluAdd 12 true) ((up.holdsWord 12 (wd 1 0 ^^^ 1)).setGp 12 1 5)).map (·.gp 12 3) = some 5 := by decide +kernel

/-! Servo (R136, R139, R140): a Gray-coded track, a pair 11 that no dibit has. -/

theorem test_gray : identTrack (BitVec.ofNat 32 (3 * 2 ^ 12)) = 2 := by decide +kernel
theorem test_dibit_violation : dibits [true, true] = none := by decide
theorem test_sam_tolerance : samSearch 0 (List.replicate 8 false ++ samMark) = some 8 := by decide +kernel

/-! Channel (R53): 16 samples more on each side; the fifth span extends the fourth. -/

theorem test_addSpan : addSpan [] 100 120 = ([⟨84, 136⟩], false) := by decide
theorem test_addSpan_fifth :
    addSpan (List.replicate 4 ⟨84, 136⟩) 200 220 = (List.replicate 3 ⟨84, 136⟩ ++ [⟨84, 236⟩], true) := by decide

/-! Buffer pools (R225): a handle that is not out is no return. -/

theorem test_poolFree_twice :
    (after (.poolFree 0) ((up.set (POOL_CFG_EN 0) 1).set (POOL_CFG_COUNT 0) 4)).map (fun m => m.buf.pools[0].used) = some [] := by
  decide +kernel

/-! Host link (R261, R264, R267). -/

theorem test_linkUp_not_trained : (after (.linkUp 0 4 4) up).map (fun m => m.is (HIF_LINK_UP 0)) = some false := by decide +kernel
theorem test_doorbell_moves_tail :
    (after (.sqTailDoorbell 0 0 3) (up.withQueues subQueue compQueue)).map (fun m => m.host.ctrls[0].sqs.map (·.tail)) =
      some [3] := by decide +kernel

/-! Zones (R300): reset empties, a full zone cannot be opened, an offline zone takes no action but its own. -/

theorem test_zone_reset : zoneMove 4 ⟨.full, 65536, 0⟩ = some Zone.initial := by decide
theorem test_zone_offline_refuses : [1, 2, 4].all (fun a => (zoneMove a ⟨.offline, 0, 0⟩).isNone) = true := by decide

/-! Power (R191, R205, R316). -/

theorem test_chopper_short_faults :
    (after .chopperShort (up.set SPN_BRK_ON 1)).map (fun m => (m.is SPN_BRK_FAULT, m.get SPN_BRK_CAUSE)) = some (true, 2) := by decide +kernel
theorem test_chopper_off_no_short : (after .chopperShort up).map (fun m => m.is SPN_BRK_FAULT) = some false := by decide +kernel

/-! Registers (R1, R423). -/

theorem test_registerWrite_rw :
    (after (.registerWrite .bc 0x40100004 4 0x8000) up).map (·.get (CHN_RATE_M 0)) =
      some 0x8000 := by decide +kernel

end Sys2Proof.Machine
end

/-! PROOFS. Statements of spec/00_scope.md: the fields that keep their value through a block reset (access type RWS) and the
reset classes they carry (R10). -/
namespace Sys2Proof.Machine

/-- The fields of access type RWS, each with the address of its register's first index. -/
def rwsFields (bs : List BlockRows) : List (Nat × FieldRow) :=
  bs.flatMap fun b => b.rows.flatMap fun r => (r.fields.filter (·.acc == .rws)).map (r.base, ·)

theorem mem_rwsFields {bs : List BlockRows} {b : BlockRows} {r : RegRow} {f : FieldRow}
    (hb : b ∈ bs) (hr : r ∈ b.rows) (hf : f ∈ r.fields) (hacc : f.acc = .rws) : (r.base, f) ∈ rwsFields bs := by
  have hkept : f ∈ r.fields.filter (·.acc == .rws) := List.mem_filter.mpr ⟨hf, by simp [hacc]⟩
  exact List.mem_flatMap.mpr ⟨b, hb, List.mem_flatMap.mpr ⟨r, hr, List.mem_map_of_mem hkept⟩⟩

/-- Only two registers hold RWS fields: the fabric watchdog's FAB_WDG_LAST and SPN_BRK. -/
theorem rwsFields_regBlocks :
    rwsFields regBlocks =
      [(0x40050008, ⟨0, 1, .rws, .A, [0]⟩), (0x40050008, ⟨8, 5, .rws, .A, [0]⟩), (0x40050008, ⟨16, 4, .rws, .A, [0]⟩),
       (0x40050008, ⟨24, 8, .rws, .A, [0]⟩), (0x40400038, ⟨16, 12, .rws, .A, [0xA0]⟩)] := by
  decide

theorem cls_of_mem_rwsFields {p : Nat × FieldRow} (hp : p ∈ rwsFields regBlocks) : p.2.cls = .A := by
  rw [rwsFields_regBlocks] at hp
  revert p
  decide

/-- Settles O3: every RWS field stands in the list of `rwsFields_regBlocks`, and each of these carries class A. -/
theorem rwsFieldsCarryClassAOrC : Obligations.RwsFieldsCarryClassAOrC := by
  unfold Obligations.RwsFieldsCarryClassAOrC
  intro b hb r hr f hf hacc
  exact .inl (cls_of_mem_rwsFields (mem_rwsFields hb hr hf hacc))

end Sys2Proof.Machine

/-! PROOFS. Statements of spec/02_caller_and_fabric.md: figures, table swaps, requests, grants and the watchdog's half
time. -/
namespace Sys2Proof.Machine

/-! ### A row of a running block -/

theorem yields_of_clocked {i : Instr} {s : State} {d b : Nat} {f : Mach → Mach} (hr : Running d b s.m)
    (hi : exec i s = s.run (Mach.clocked d b f)) : Yields i s (f s.m) := by
  rw [Yields, hi, State.run, clocked_running hr]

theorem completes_of_clocked {i : Instr} {s : State} {d b : Nat} {f : Mach → Mach} {Q : Mach → Prop}
    (hr : Running d b s.m) (hi : exec i s = s.run (Mach.clocked d b f)) (hQ : Q (f s.m)) : Completes i s Q :=
  ⟨_, yields_of_clocked hr hi, hQ⟩

theorem yields_eq_of_clocked {i : Instr} {s : State} {d b : Nat} {f : Mach → Mach} {t : Mach} (hr : Running d b s.m)
    (hi : exec i s = s.run (Mach.clocked d b f)) (ht : f s.m = t) : Yields i s t :=
  ht ▸ yields_of_clocked hr hi

/-! ### What a kept change leaves -/

theorem Kept.part {P : Part → Prop} {R : Nat → Prop} {m0 m : Mach} (h : Kept P R m0 m) (p : Part) (hp : ¬ P p) :
    SamePart p m0 m := h.1 p hp

theorem Kept.get {P : Part → Prop} {R : Nat → Prop} {m0 m : Mach} {l : Loc} (h : Kept P R m0 m) (hl : ¬ R l.addr) :
    m.get l = m0.get l := by
  obtain ⟨_, hword, _, _⟩ := h
  rw [Mach.get, hword _ hl, Mach.get]

theorem Kept.is {P : Part → Prop} {R : Nat → Prop} {m0 m : Mach} {l : Loc} (h : Kept P R m0 m) (hl : ¬ R l.addr) :
    m.is l = m0.is l := by
  rw [Mach.is, h.get hl, Mach.is]

theorem updAt_self {α : Type} {n : Nat} (v : Vector α n) (i : Fin n) (f : α → α) : (updAt v i f)[i] = f v[i] := by
  simp [updAt]

theorem updAt_other {α : Type} {n : Nat} {v : Vector α n} {i j : Fin n} {f : α → α} (h : j ≠ i) :
    (updAt v i f)[j] = v[j] := by
  have hv : i.val ≠ j.val := fun e => h (Fin.ext e.symm)
  simp [updAt, hv]

/-! ### The followers of the queues and the bursts in flight -/

/-- FAB_STATUS, FAB_PENDn and CAL_STATUS. -/
def FollowsFabric (a : Nat) : Prop := a = REG_CAL_STATUS ∨ a = REG_FAB_STATUS ∨ ∃ i, i < 4 ∧ a = REG_FAB_PEND i

theorem syncFab_keeps (m : Mach) : Kept (fun _ => False) FollowsFabric m m.syncFab :=
  Mach.syncFab_kept (.inl rfl) (fun i hi => .inr (.inr ⟨i, hi, rfl⟩)) (.inr (.inl rfl)) (Kept.refl m)

@[simp] theorem syncFab_cal (m : Mach) : m.syncFab.cal = m.cal := (syncFab_keeps m).part .cal id

@[simp] theorem syncFab_eng (m : Mach) : m.syncFab.eng = m.eng := (syncFab_keeps m).part .eng id

theorem not_followsFabric_ctrl : ¬ FollowsFabric CAL_CTRL_FREEZE.addr := by
  simp only [FollowsFabric, CAL_CTRL_FREEZE, REG_CAL_CTRL, REG_CAL_STATUS, REG_FAB_STATUS, REG_FAB_PEND]
  omega

theorem syncFab_freeze (m : Mach) : m.syncFab.is CAL_CTRL_FREEZE = m.is CAL_CTRL_FREEZE :=
  (syncFab_keeps m).is not_followsFabric_ctrl

theorem pend_ne_status (n : Nat) : REG_FAB_PEND n ≠ REG_CAL_STATUS := by
  simp only [REG_FAB_PEND, REG_CAL_STATUS]
  omega

/-- FROZEN is set before the FAB_PENDn follow, which stand at other addresses. -/
theorem syncFab_frozen (m : Mach) :
    m.syncFab.is CAL_STATUS_FROZEN = (m.is CAL_CTRL_FREEZE && m.cal.flights.isEmpty) := by
  have hpend : ∃ m' : Mach, Kept (fun _ => False) (· ≠ REG_CAL_STATUS)
      (m'.setFlag CAL_STATUS_FROZEN (m'.is CAL_CTRL_FREEZE && m'.cal.flights.isEmpty)) m.syncFab ∧
      m'.is CAL_CTRL_FREEZE = m.is CAL_CTRL_FREEZE ∧ m'.cal = m.cal := by
    refine ⟨_, foldl_kept (fun m n h => ?_) (Kept.refl _), ?_, rfl⟩
    · have hn := pend_ne_status n
      exact set_kept _ _ (set_kept _ _ (set_kept _ _ (set_kept _ _ h hn) hn) hn) hn
    · rw [is_set _ _ (by decide), is_set _ _ (by decide)]
  obtain ⟨m', hkept, hfreeze, hcal⟩ := hpend
  rw [hkept.is (by simp [CAL_STATUS_FROZEN]), is_setFlag_self _ _ (by decide) rfl, hfreeze, hcal]

/-! ### A new figure -/

@[simp] theorem figureUse_cal (m : Mach) : m.figureUse.cal = m.cal :=
  (Mach.figureUse_kept (P := fun _ => False) (R := fun _ => True) trivial (fun _ _ => trivial) (Kept.refl m)).part
    .cal id

@[simp] theorem makeLive_cal (m : Mach) (t : FabClass → Nat × Nat) : (m.makeLive t).cal = m.cal :=
  (Mach.makeLive_kept (P := (· = .reports)) (R := fun _ => True) t rfl trivial (fun _ _ => trivial) (Kept.refl m)).part
    .cal (by decide)

@[simp] theorem swapValidate_cal (m : Mach) : m.swapValidate.cal = m.cal :=
  (Mach.swapValidate_kept (P := (· = .reports)) (R := fun _ => True) rfl trivial (fun _ _ => trivial) trivial
    (Kept.refl m)).part .cal (by decide)

theorem front_ne_figno (i : Nat) : REG_CAL_FRONT i ≠ REG_CAL_FIGNO := by
  simp only [REG_CAL_FRONT, REG_CAL_FIGNO]
  omega

theorem use_ne_figno (i : Nat) : REG_CAL_USE i ≠ REG_CAL_FIGNO := by
  simp only [REG_CAL_USE, REG_CAL_FIGNO]
  omega

theorem figureUse_figno (m : Mach) : m.figureUse.get CAL_FIGNO_FIGURE = m.get CAL_FIGNO_FIGURE :=
  (Mach.figureUse_kept (P := fun _ => True) (R := (· ≠ REG_CAL_FIGNO)) (by decide) (fun i _ => use_ne_figno i)
    (Kept.refl m)).get (by simp [CAL_FIGNO_FIGURE])

theorem makeLive_figno (m : Mach) (t : FabClass → Nat × Nat) :
    (m.makeLive t).get CAL_FIGNO_FIGURE = m.get CAL_FIGNO_FIGURE :=
  (Mach.makeLive_kept (P := fun _ => True) (R := (· ≠ REG_CAL_FIGNO)) t trivial (by decide)
    (fun i _ => front_ne_figno i) (Kept.refl m)).get (by simp [CAL_FIGNO_FIGURE])

theorem swapValidate_figno (m : Mach) : m.swapValidate.get CAL_FIGNO_FIGURE = m.get CAL_FIGNO_FIGURE :=
  (Mach.swapValidate_kept (P := fun _ => True) (R := (· ≠ REG_CAL_FIGNO)) trivial (by decide)
    (fun i _ => front_ne_figno i) (by decide) (Kept.refl m)).get (by simp [CAL_FIGNO_FIGURE])

theorem figno_incWrap (m : Mach) :
    (m.incWrap CAL_FIGNO_FIGURE 1).get CAL_FIGNO_FIGURE = (m.get CAL_FIGNO_FIGURE + 1) % 2 ^ 32 :=
  get_set_self m _ (by decide)

/-- A figure boundary sets up the counts over the machine `m'` whose live table the boundary has settled (R43, R45): its
queues and its bursts in flight are those of `m`, and FIGNO has advanced. -/
theorem figureBoundary_eq_newFigure {m : Mach} (h : m.cal.running = true) :
    ∃ m' : Mach, figureBoundary m = m'.newFigure (fun c => m.cal.debt[c]) ∧
      m'.get CAL_FIGNO_FIGURE = (m.get CAL_FIGNO_FIGURE + 1) % 2 ^ 32 ∧
      m'.cal.queues = m.cal.queues ∧ m'.cal.flights = m.cal.flights := by
  have huse : (m.incWrap CAL_FIGNO_FIGURE 1).figureUse.get CAL_FIGNO_FIGURE =
      (m.get CAL_FIGNO_FIGURE + 1) % 2 ^ 32 := by
    rw [figureUse_figno, figno_incWrap]
  refine ⟨_, by rw [figureBoundary, if_neg (by simp [h])], ?_⟩
  split
  case isTrue =>
    refine ⟨?_, by simp [Mach.setCal], by simp [Mach.setCal]⟩
    rw [makeLive_figno, get_set _ _ (by decide)]
    exact huse
  case isFalse => exact ⟨by rw [swapValidate_figno, huse], by simp, by simp⟩

section
variable (m : Mach) (debt : FabClass → Nat)

theorem newFigure_get (l : Loc) : (m.newFigure debt).get l = m.get l := rfl
theorem newFigure_liveG : (m.newFigure debt).liveG = m.liveG := rfl
theorem newFigure_effectiveC : (m.newFigure debt).effectiveC = m.effectiveC := rfl
theorem newFigure_pool : (m.newFigure debt).cal.pool =
    2048 - (sumClasses m.liveG : Nat) - (sumClasses fun c => debt c - m.liveG c : Nat) := rfl

/-- The counts of a class at the start of a figure (R32). -/
theorem newFigure_counts (c : FabClass) :
    (m.newFigure debt).cal.guar[c] = m.liveG c - debt c ∧
      (m.newFigure debt).cal.room[c] = (m.effectiveC c : Int) - (debt c - m.liveG c : Nat) ∧
      (m.newFigure debt).cal.used[c] = 0 ∧ (m.newFigure debt).cal.debt[c] = 0 ∧
      (m.newFigure debt).cal.ended[c] = false := by
  simp [Mach.newFigure, Mach.setCal, spill]

end

/-! ### The release cycle -/

theorem releaseCycleReached_same {m : Mach} (h : m.cal.released = true) : releaseCycleReached m = m := by
  simp [releaseCycleReached, h]

theorem releaseCycleReached_first {m : Mach} (hrun : m.cal.running = true) (h : m.cal.released = false) :
    releaseCycleReached m = { m with cal := { m.cal with
      released := true, pool := m.cal.pool + (sumClasses fun c => m.cal.guar[c] : Nat),
      guar := Vector.replicate 16 0 } } := by
  simp [releaseCycleReached, hrun, h, Mach.setCal]

/-! ### Requests -/

theorem enqueue_of_room {m : Mach} {cls : FabClass} {r : BurstReq} (h : m.cal.queues[cls].length < 16) :
    m.enqueue cls r = (m.setCal fun s => { s with queues := updAt s.queues cls (· ++ [r]) }).syncFab := if_pos h

theorem enqueue_of_full {m : Mach} {cls : FabClass} {r : BurstReq} (h : 16 ≤ m.cal.queues[cls].length) :
    m.enqueue cls r = m.setCal fun s => { s with held := s.held ++ [HeldPort.mk cls r] } := if_neg (by omega)

/-- A request that finds room is the last of its class's queue, and leaves everything else of the Caller. -/
theorem enqueue_cal {m : Mach} {cls : FabClass} {r : BurstReq} (h : m.cal.queues[cls].length < 16) :
    (m.enqueue cls r).cal = { m.cal with queues := updAt m.cal.queues cls (· ++ [r]) } := by
  rw [enqueue_of_room h, syncFab_cal, Mach.setCal]

theorem enqueue_queue_self {m : Mach} {cls : FabClass} {r : BurstReq} (h : m.cal.queues[cls].length < 16) :
    (m.enqueue cls r).cal.queues[cls] = m.cal.queues[cls] ++ [r] := by
  rw [enqueue_cal h]
  exact updAt_self ..

theorem enqueue_queue_other {m : Mach} {cls c : FabClass} {r : BurstReq} (h : m.cal.queues[cls].length < 16)
    (hc : c ≠ cls) : (m.enqueue cls r).cal.queues[c] = m.cal.queues[c] := by
  rw [enqueue_cal h]
  exact updAt_other hc

theorem enqueue_eng {m : Mach} {cls : FabClass} {r : BurstReq} (h : m.cal.queues[cls].length < 16) :
    (m.enqueue cls r).eng = m.eng := by
  rw [enqueue_of_room h, syncFab_eng, Mach.setCal]

/-- Without a demand at a port there is none to offer, for any channel behind the DMA engine's port either. -/
theorem nextDemand_none {m : Mach} {port : Port} (h : m.cal.demands.find? (fun d => d.port == port) = none) :
    m.nextDemand port = none := by
  rw [Mach.nextDemand]
  split
  case isTrue hport =>
    subst hport
    split
    · next n r _ =>
      have hnone : m.cal.demands.find? (fun d => d.port == Mach.dmaPort && d.owner == n.val) = none := by
        simp only [List.find?_eq_none] at h ⊢
        intro d hd hdn
        exact h d hd (Bool.and_eq_true_iff.mp hdn).1
      rw [hnone, Option.map_none]
    · rfl
  case isFalse => rw [h, Option.map_none]

theorem nextDemand_oldest {m : Mach} {port : Port} {d : Demand} (hport : port ≠ Mach.dmaPort)
    (h : m.cal.demands.find? (fun d => d.port == port) = some d) : m.nextDemand port = some (d, m) := by
  rw [Mach.nextDemand, if_neg hport, h, Option.map_some]

section
variable {m : Mach} {port : Port} (tag : FabClass) (less1 : Fin 8)

theorem portRequest_fop {p : Fin 4} (h : port.val = 25 + p.val) : portRequest port tag less1 m = m.offerFop p port := by
  have hp : (⟨port.val - 25, by omega⟩ : Fin 4) = p := Fin.ext (by simp [h])
  rw [portRequest, dif_pos (by omega), hp]

theorem portRequest_plain (h : port.val < 25 ∨ 28 < port.val) :
    portRequest port tag less1 m = fabricRequest port tag less1 m := by
  rw [portRequest, dif_neg (by omega)]

theorem offerFop_refused {p : Fin 4}
    (h : m.cal.held.any (fun h => h.req.port == port) = true ∨ m.cal.portFrozen port = true) :
    m.offerFop p port = m := by
  rw [Mach.offerFop]
  split
  · rfl
  · split
    · rfl
    · rw [if_pos (by simpa using h)]

theorem fabricRequest_refused
    (h : m.cal.held.any (fun h => h.req.port == port) = true ∨ m.cal.portFrozen port = true) :
    fabricRequest port tag less1 m = m := by
  rw [fabricRequest, if_pos (by simpa using h)]

/-- A port that is held not-ready or frozen offers nothing (R38, R348). -/
theorem portRequest_refused
    (h : m.cal.held.any (fun h => h.req.port == port) = true ∨ m.cal.portFrozen port = true) :
    portRequest port tag less1 m = m := by
  rw [portRequest]
  split
  · exact offerFop_refused h
  · exact fabricRequest_refused tag less1 h

theorem offerFop_none {p : Fin 4} (h : m.nextOffer p = none) : m.offerFop p port = m := by
  rw [Mach.offerFop, h]

/-- The machine in which the oldest demand of `owner` at a port has offered its next burst. -/
def demandOffered (m : Mach) (port : Port) (owner : Nat) : Mach :=
  m.setCal fun s => { s with demands := offerNext port owner s.demands }

/-- The machine in which the FOP `f` of sequencer `q` is offered at the port of `p`. -/
def fopOffered (m : Mach) (p : Fin 4) (q : SeqId) (f : Fop) : Mach :=
  (m.setSeq q fun s => { s with fop := some { f with offered := true } }).setEng fun e =>
    { e with last := e.last.set p q }

theorem fopOffered_fop (p : Fin 4) (q : SeqId) (f : Fop) :
    ((fopOffered m p q f).eng.seqs[q]).fop = some { f with offered := true } := by
  simp [fopOffered, Mach.setEng, Mach.setSeq, updAt]

section
variable (hheld : m.cal.held.any (fun h => h.req.port == port) = false) (hfrozen : m.cal.portFrozen port = false)
include hheld hfrozen

theorem offerFop_some {p : Fin 4} {q : SeqId} {f : Fop} (hq : m.nextOffer p = some q)
    (hf : (m.eng.seqs[q]).fop = some f) :
    m.offerFop p port = (fopOffered m p q f).enqueue (m.chargedClass port f.cls) ⟨port, f.less1, q.val⟩ := by
  simp only [Mach.offerFop, hq, hf, hheld, hfrozen, Bool.or_self, Bool.false_eq_true, if_false]
  rfl

theorem fabricRequest_own (hnone : m.cal.demands.find? (fun d => d.port == port) = none)
    (hown : ownPort port = true) : fabricRequest port tag less1 m = m := by
  simp [fabricRequest, hheld, hfrozen, nextDemand_none hnone, hown]

theorem fabricRequest_given (hnone : m.cal.demands.find? (fun d => d.port == port) = none)
    (hown : ownPort port = false) :
    fabricRequest port tag less1 m = m.enqueue (m.chargedClass port (m.portTag port tag)) ⟨port, less1, 0⟩ := by
  simp [fabricRequest, hheld, hfrozen, nextDemand_none hnone, hown]

theorem fabricRequest_demand {d : Demand} (hport : port ≠ Mach.dmaPort)
    (hd : m.cal.demands.find? (fun d => d.port == port) = some d) :
    fabricRequest port tag less1 m =
      (demandOffered m port d.owner).enqueue (m.portTag port d.cls) ⟨port, Fin.ofNat 8 (d.tokens - 1), d.owner⟩ := by
  simp [fabricRequest, hheld, hfrozen, nextDemand_oldest hport hd, demandOffered]

end
end

/-! ### Grants -/

theorem roundRobin_sat {last c : FabClass} {p : FabClass → Bool} (h : roundRobin last p = some c) : p c = true :=
  List.find?_some h

/-- In each of the three groups the class chosen is eligible and takes part in arbitration (R34, R37). -/
theorem choose_sat {s : Caller} {c : FabClass} {g : Fin 3} (h : s.choose = some (c, g)) :
    s.eligible c = true ∧ s.offers c = true := by
  rw [Caller.choose] at h
  split at h
  · obtain ⟨c', hc', he⟩ := Option.map_eq_some_iff.mp h
    cases he
    exact Bool.and_eq_true_iff.mp (roundRobin_sat hc')
  · split at h
    · next c' hc' =>
      cases h
      exact Bool.and_eq_true_iff.mp (Bool.and_eq_true_iff.mp (roundRobin_sat hc')).1
    · obtain ⟨c', hc', he⟩ := Option.map_eq_some_iff.mp h
      cases he
      exact Bool.and_eq_true_iff.mp (Bool.and_eq_true_iff.mp (roundRobin_sat hc')).1

theorem offers_head {s : Caller} {c : FabClass} {r : BurstReq} {rest : List BurstReq} (hq : s.queues[c] = r :: rest)
    (h : s.offers c = true) :
    s.flights.all (fun f => f.port != r.port) = true ∧ s.portFrozen r.port = false := by
  simpa [Caller.offers, hq] using h

section
variable (s : Caller) (c : FabClass)

@[simp] theorem admitHeld_flights : (s.admitHeld c).flights = s.flights := by
  unfold Caller.admitHeld; split <;> rfl
@[simp] theorem admitHeld_used : (s.admitHeld c).used = s.used := by
  unfold Caller.admitHeld; split <;> rfl
@[simp] theorem admitHeld_guar : (s.admitHeld c).guar = s.guar := by
  unfold Caller.admitHeld; split <;> rfl
@[simp] theorem admitHeld_room : (s.admitHeld c).room = s.room := by
  unfold Caller.admitHeld; split <;> rfl

theorem admitHeld_queue_other {d : FabClass} (h : d ≠ c) : (s.admitHeld c).queues[d] = s.queues[d] := by
  unfold Caller.admitHeld
  split
  · exact updAt_other h
  · rfl

end

/-- The Caller once the burst `r`, the oldest of class `c`, is granted in group `g`: charged, out of its queue and in
flight from the instant `now` (R34, R37, R41). -/
def Caller.granted (s : Caller) (c : FabClass) (g : Fin 3) (r : BurstReq) (rest : List BurstReq) (now : Nat) : Caller :=
  { s.charge c r.tokens with
    queues := s.queues.set c rest
    flights := s.flights ++ [⟨r.port, c, r.tokens, now, r.owner⟩]
    lastGuar := if g = 0 then c else s.lastGuar
    lastPool := if g = 1 then c else s.lastPool
    lastAll := if g = 2 then c else s.lastAll }

theorem fabricGrant_none {m : Mach}
    (h : m.cal.running = false ∨ m.is CAL_CTRL_FREEZE = true ∨ m.cal.choose = none) : fabricGrant m = m := by
  rcases h with h | h | h <;> simp [fabricGrant, h]

theorem fabricGrant_some {m : Mach} {c : FabClass} {g : Fin 3} {r : BurstReq} {rest : List BurstReq}
    (hrun : m.cal.running = true) (hfreeze : m.is CAL_CTRL_FREEZE = false) (hchoose : m.cal.choose = some (c, g))
    (hq : m.cal.queues[c] = r :: rest) :
    (fabricGrant m).cal = (m.cal.granted c g r rest m.clock).admitHeld c := by
  simp only [fabricGrant, hrun, hfreeze, hchoose, hq, Bool.not_true, Bool.false_eq_true, or_self, if_false, syncFab_cal]
  rfl

section
variable (s : Caller) (c : FabClass) (g : Fin 3) (r : BurstReq) (rest : List BurstReq) (now : Nat)

/-- A grant charges the whole burst to its class (R34, R42). -/
theorem granted_charges :
    (s.granted c g r rest now).used[c] = s.used[c] + r.tokens ∧
      (s.granted c g r rest now).guar[c] = s.guar[c] - min r.tokens s.guar[c] ∧
      (s.granted c g r rest now).room[c] = s.room[c] - r.tokens :=
  ⟨updAt_self .., updAt_self .., updAt_self ..⟩

/-- A grant leaves the counts and the queues of the other classes. -/
theorem granted_other {d : FabClass} (h : d ≠ c) :
    (s.granted c g r rest now).used[d] = s.used[d] ∧ (s.granted c g r rest now).guar[d] = s.guar[d] ∧
      (s.granted c g r rest now).room[d] = s.room[d] ∧ (s.granted c g r rest now).queues[d] = s.queues[d] :=
  ⟨updAt_other h, updAt_other h, updAt_other h, updAt_other (f := fun _ => rest) h⟩

end

/-! ### Burst boundary, watchdog and the back table -/

theorem burstBoundary_cal (port : Port) (m : Mach) :
    (burstBoundary port m).cal = { m.cal with
      flights := m.cal.flights.filter (fun f => f.port != port)
      halfDone := m.cal.halfDone && !(m.cal.flights.take 1).any (fun f => f.port == port) } := by
  rw [burstBoundary, syncFab_cal, Mach.setCal]

theorem calBackWrite_locked {n : FabClass} {w : Word} {m : Mach} (h : m.is CAL_STATUS_SWAP_PENDING = true) :
    calBackWrite n w m = m.flagEvent CAL_ERR_BACK_LOCKED 2 := if_pos h

theorem calBackWrite_open {n : FabClass} {w : Word} {m : Mach} (h : m.is CAL_STATUS_SWAP_PENDING = false) :
    calBackWrite n w m = (m.set (CAL_BACK_GUAR n.val) (getBits w 0 12)).set (CAL_BACK_CEIL n.val) (getBits w 16 12) :=
  if_neg (by simp [h])

theorem back_ne_err (k : Nat) : REG_CAL_BACK k ≠ CAL_ERR_BACK_LOCKED.addr := by
  simp only [REG_CAL_BACK, CAL_ERR_BACK_LOCKED, REG_CAL_ERR]
  omega

theorem fabricWatchdogHalf_once {m : Mach} (h : m.wdgRuns = true ∧ m.cal.halfDone = false) :
    fabricWatchdogHalf m = (m.setCal fun s => { s with halfDone := true }).report 4 := by
  simp [fabricWatchdogHalf, h]

theorem fabricWatchdogHalf_same {m : Mach} (h : ¬ (m.wdgRuns = true ∧ m.cal.halfDone = false)) :
    fabricWatchdogHalf m = m := by
  rw [fabricWatchdogHalf, if_neg (by simpa using h)]

/-! ### The effect of each row -/

theorem figureBoundary_effect {m : Mach} (h : m.cal.running = true) :
    (figureBoundary m).get CAL_FIGNO_FIGURE = (m.get CAL_FIGNO_FIGURE + 1) % 2 ^ 32 ∧
      (∀ c : FabClass, (figureBoundary m).cal.guar[c] = (figureBoundary m).liveG c - m.cal.debt[c] ∧
        (figureBoundary m).cal.room[c] =
          ((figureBoundary m).effectiveC c : Int) - (m.cal.debt[c] - (figureBoundary m).liveG c : Nat) ∧
        (figureBoundary m).cal.used[c] = 0 ∧ (figureBoundary m).cal.debt[c] = 0 ∧
        (figureBoundary m).cal.ended[c] = false) ∧
      (figureBoundary m).cal.pool = 2048 - (sumClasses (figureBoundary m).liveG : Nat) -
        (sumClasses fun c => m.cal.debt[c] - (figureBoundary m).liveG c : Nat) ∧
      (figureBoundary m).cal.queues = m.cal.queues ∧ (figureBoundary m).cal.flights = m.cal.flights ∧
      (figureBoundary m).cal.released = false := by
  obtain ⟨m', heq, hfigno, hqueues, hflights⟩ := figureBoundary_eq_newFigure h
  simp only [heq, newFigure_get, newFigure_liveG, newFigure_effectiveC]
  exact ⟨hfigno, newFigure_counts m' _, newFigure_pool m' _, hqueues, hflights, rfl⟩

theorem releaseCycle_effect {m : Mach} (h : m.cal.running = true) :
    (releaseCycleReached m).cal.released = true ∧
      (m.cal.released = false → (∀ c : FabClass, (releaseCycleReached m).cal.guar[c] = 0) ∧
        (releaseCycleReached m).cal.pool = m.cal.pool + (sumClasses fun c => m.cal.guar[c] : Nat)) ∧
      releaseCycleReached m = { m with cal := (releaseCycleReached m).cal } := by
  cases hrel : m.cal.released with
  | true =>
    rw [releaseCycleReached_same hrel]
    exact ⟨hrel, nofun, rfl⟩
  | false =>
    rw [releaseCycleReached_first h hrel]
    exact ⟨rfl, fun _ => ⟨fun c => by simp, rfl⟩, rfl⟩

theorem calFreeze_effect (b : Bool) (m : Mach) :
    (calFreeze b m).is CAL_CTRL_FREEZE = b ∧
      (calFreeze b m).is CAL_STATUS_FROZEN = (b && m.cal.flights.isEmpty) ∧ (calFreeze b m).cal = m.cal := by
  have hset : (m.setFlag CAL_CTRL_FREEZE b).is CAL_CTRL_FREEZE = b := is_setFlag_self m b (by decide) rfl
  rw [calFreeze, syncFab_freeze, syncFab_frozen, syncFab_cal, hset]
  exact ⟨rfl, rfl, rfl⟩

/-- A write to a back table that is not locked stores both fields of the entry, and nothing else (R43). -/
theorem calBackWrite_stores (n : FabClass) (w : Word) {m : Mach} (h : m.is CAL_STATUS_SWAP_PENDING = false) :
    (calBackWrite n w m).get (CAL_BACK_GUAR n.val) = w.toNat % 4096 ∧
      (calBackWrite n w m).get (CAL_BACK_CEIL n.val) = w.toNat / 65536 % 4096 ∧
      calBackWrite n w m = { m with regs := (calBackWrite n w m).regs } ∧
      ∀ a, a ≠ REG_CAL_BACK n.val → (calBackWrite n w m).word a = m.word a := by
  rw [calBackWrite_open h]
  refine ⟨?_, ?_, rfl, fun a ha => ?_⟩
  · rw [get_set_bits _ _ (.inl (by simp [CAL_BACK_GUAR, CAL_BACK_CEIL])), get_set_self _ _ (by simp [CAL_BACK_GUAR])]
    simp [getBits, CAL_BACK_GUAR]
  · rw [get_set_self _ _ (by simp [CAL_BACK_CEIL])]
    simp [getBits, CAL_BACK_CEIL]
  · rw [word_set_other _ _ ha, word_set_other _ _ ha]

/-- A write to the back table while a swap is pending is ignored and flagged (R43). -/
theorem calBackWrite_ignored (n : FabClass) (w : Word) {m : Mach} (h : m.is CAL_STATUS_SWAP_PENDING = true) :
    (calBackWrite n w m).is CAL_ERR_BACK_LOCKED = true ∧ (calBackWrite n w m).reports = m.reports ++ [2] ∧
      (calBackWrite n w m).word (REG_CAL_BACK n.val) = m.word (REG_CAL_BACK n.val) := by
  rw [calBackWrite_locked h]
  refine ⟨is_flagEvent_self _ _ (by decide) rfl, rfl, ?_⟩
  rw [Mach.flagEvent, word_report, word_set_other _ _ (back_ne_err _)]

section
variable {m : Mach} {c : FabClass} {g : Fin 3} {r : BurstReq} {rest : List BurstReq}

theorem fabricGrant_effect (hrun : m.cal.running = true) (hfreeze : m.is CAL_CTRL_FREEZE = false)
    (hchoose : m.cal.choose = some (c, g)) (hq : m.cal.queues[c] = r :: rest) :
    (fabricGrant m).cal.flights = m.cal.flights ++ [⟨r.port, c, r.tokens, m.clock, r.owner⟩] ∧
      (fabricGrant m).cal.used[c] = m.cal.used[c] + r.tokens ∧
      (fabricGrant m).cal.guar[c] = m.cal.guar[c] - min r.tokens m.cal.guar[c] ∧
      (fabricGrant m).cal.room[c] = m.cal.room[c] - r.tokens ∧
      ∀ d, d ≠ c → (fabricGrant m).cal.used[d] = m.cal.used[d] ∧ (fabricGrant m).cal.guar[d] = m.cal.guar[d] ∧
        (fabricGrant m).cal.room[d] = m.cal.room[d] ∧ (fabricGrant m).cal.queues[d] = m.cal.queues[d] := by
  obtain ⟨hused, hguar, hroom⟩ := granted_charges m.cal c g r rest m.clock
  rw [fabricGrant_some hrun hfreeze hchoose hq, admitHeld_flights, admitHeld_used, admitHeld_guar, admitHeld_room]
  refine ⟨rfl, hused, hguar, hroom, fun d hd => ?_⟩
  rw [admitHeld_queue_other _ _ hd]
  exact granted_other m.cal c g r rest m.clock hd

end

theorem fabricWatchdogHalf_effect (m : Mach) :
    (fabricWatchdogHalf m).reports =
        (if m.wdgRuns = true ∧ m.cal.halfDone = false then m.reports ++ [4] else m.reports) ∧
      (fabricWatchdogHalf m).regs = m.regs ∧ (fabricWatchdogHalf m).cal.flights = m.cal.flights := by
  by_cases h : m.wdgRuns = true ∧ m.cal.halfDone = false
  · rw [fabricWatchdogHalf_once h, if_pos h]
    exact ⟨rfl, rfl, rfl⟩
  · rw [fabricWatchdogHalf_same h, if_neg h]
    exact ⟨rfl, rfl, rfl⟩

/-- Settles O7: while the fabric's clock is good each row acts as its operation (`completes_of_clocked`), whose effect
the lemmas above give; the cases are the rows, and for a request the ports of Table 2-2. -/
theorem callerAndFabric : Obligations.CallerAndFabric := by
  unfold Obligations.CallerAndFabric
  refine ⟨fun s hr => ⟨fun hrun => ⟨?figure, ?release⟩, fun b => ?freeze, ?swap, ?cancel, fun n w => ?back⟩,
    fun s hr => ⟨fun port tag less1 => ⟨fun h => ?refused, fun hheld hfrozen hnone => ⟨fun h12 h24 => ?own,
      fun p hp => ⟨fun hoffer => ?noFop, fun q f cls hq hf hcls hroom => ?fop⟩,
      fun hport cls hcls => ⟨fun hroom => ?given, fun hfull => ?held⟩⟩,
      fun d cls hheld hfrozen hdma hd hport hcls hroom => ?demand⟩,
    fun h => ?noGrant, fun c g r rest hrun hfreeze hchoose hq => ?grant, fun port => ?boundary, ?half⟩⟩
  case figure => exact completes_of_clocked hr rfl (figureBoundary_effect hrun)
  case release => exact completes_of_clocked hr rfl (releaseCycle_effect hrun)
  case freeze => exact completes_of_clocked hr rfl (calFreeze_effect b s.m)
  case swap => exact yields_of_clocked (f := calSwap) hr rfl
  case cancel => exact yields_of_clocked (f := calSwapCancel) hr rfl
  case back =>
    refine completes_of_clocked hr rfl ?_
    split
    case isTrue h => exact calBackWrite_ignored n w h
    case isFalse h => exact calBackWrite_stores n w (Bool.eq_false_iff.mpr h)
  case refused => exact yields_eq_of_clocked hr rfl (portRequest_refused tag less1 h)
  case own =>
    refine yields_eq_of_clocked hr rfl ?_
    rw [portRequest_plain tag less1 (by omega)]
    exact fabricRequest_own tag less1 hheld hfrozen hnone (by simp [ownPort]; omega)
  case noFop =>
    refine yields_eq_of_clocked hr rfl ?_
    rw [portRequest_fop tag less1 hp, offerFop_none hoffer]
  case fop =>
    subst hcls
    replace hroom : (fopOffered s.m p q f).cal.queues[s.m.chargedClass port f.cls].length < 16 := hroom
    refine completes_of_clocked hr rfl ?_
    rw [portRequest_fop tag less1 hp, offerFop_some hheld hfrozen hq hf]
    refine ⟨enqueue_queue_self hroom, ?_, by rw [enqueue_cal hroom]; rfl, fun c hc => enqueue_queue_other hroom hc⟩
    rw [enqueue_eng hroom]
    exact fopOffered_fop p q f
  case given =>
    subst hcls
    refine completes_of_clocked hr rfl ?_
    rw [portRequest_plain tag less1 (by omega),
      fabricRequest_given tag less1 hheld hfrozen hnone (by simp [ownPort]; omega)]
    exact ⟨enqueue_queue_self hroom, by rw [enqueue_cal hroom], by rw [enqueue_cal hroom],
      fun c hc => enqueue_queue_other hroom hc⟩
  case held =>
    subst hcls
    refine yields_eq_of_clocked hr rfl ?_
    rw [portRequest_plain tag less1 (by omega),
      fabricRequest_given tag less1 hheld hfrozen hnone (by simp [ownPort]; omega), enqueue_of_full hfull]
    rfl
  case demand =>
    subst hcls
    replace hroom : (demandOffered s.m port d.owner).cal.queues[s.m.portTag port d.cls].length < 16 := hroom
    refine completes_of_clocked hr rfl ?_
    rw [portRequest_plain tag less1 (.inl hport), fabricRequest_demand tag less1 hheld hfrozen hdma hd]
    exact ⟨enqueue_queue_self hroom, by rw [enqueue_cal hroom]; rfl, by rw [enqueue_cal hroom]; rfl,
      fun c hc => enqueue_queue_other hroom hc⟩
  case noGrant => exact yields_eq_of_clocked hr rfl (fabricGrant_none h)
  case grant =>
    obtain ⟨heligible, hoffers⟩ := choose_sat hchoose
    obtain ⟨hfree, hthawed⟩ := offers_head hq hoffers
    exact ⟨heligible, hfree, hthawed, completes_of_clocked hr rfl (fabricGrant_effect hrun hfreeze hchoose hq)⟩
  case boundary =>
    refine completes_of_clocked hr rfl ?_
    rw [burstBoundary_cal]
    exact ⟨rfl, rfl, rfl, rfl, rfl, rfl, rfl⟩
  case half => exact completes_of_clocked hr rfl (fabricWatchdogHalf_effect s.m)

end Sys2Proof.Machine

/-! PROOFS. Statements of spec/03_read_channel.md: the decoder pool and the writes of the channel registers. -/
namespace Sys2Proof.Machine

/-! ### Writes of the channel registers (R72, R81, R428) -/

/-- CHN_CADDR after a write of CHN_CDATA at ADDR `a`: with AUTOINC the address advances (R81). -/
def Mach.stepCaddr (m : Mach) (n : Stream) (a : Nat) : Mach :=
  m.when (m.is (CHN_CADDR_AUTOINC n.val)) fun m => m.set (CHN_CADDR_ADDR n.val) (a + 1)

section
variable {m : Mach} (n : Stream) (a : Nat)

@[simp] theorem stepCaddr_media : (m.stepCaddr n a).media = m.media := by
  rw [Mach.stepCaddr, Mach.when]
  split <;> rfl

@[simp] theorem stepCaddr_reports : (m.stepCaddr n a).reports = m.reports := by
  rw [Mach.stepCaddr, Mach.when]
  split <;> rfl

theorem stepCaddr_is {l : Loc} (h : l.apart (CHN_CADDR_ADDR n.val) = true) : (m.stepCaddr n a).is l = m.is l := by
  rw [Mach.stepCaddr, Mach.when]
  split
  · exact is_set m _ h
  · rfl

theorem stepCaddr_addr (h : m.get (CHN_CADDR_ADDR n.val) = a) :
    (m.stepCaddr n a).get (CHN_CADDR_ADDR n.val) =
      (a + if m.is (CHN_CADDR_AUTOINC n.val) then 1 else 0) % 0x1000 := by
  rw [Mach.stepCaddr, Mach.when]
  split
  · exact get_set_self m _ (by simp [CHN_CADDR_ADDR])
  · have hlt : a < 0x1000 := h ▸ getBits_lt (m.word _) _ 12
    rw [h, Nat.add_zero, Nat.mod_eq_of_lt hlt]

end

section
variable {n : Stream} (data : BitVec 10) {m : Mach}

theorem chnCdataWrite_live (hen : m.is (CHN_CTRL_EN n.val) = true)
    (hset : m.get (CHN_CADDR_ADDR n.val) / 0x400 = m.get (CHN_CTRL_EQ_SET n.val)) :
    chnCdataWrite n data m = (m.flagEvent (CHN_SMEM_CWR_IGN n.val) (Mach.chnSource n 0)).stepCaddr n
      (m.get (CHN_CADDR_ADDR n.val)) := by
  simp only [chnCdataWrite, hen, hset, beq_self_eq_true, Bool.and_true, if_true, Mach.stepCaddr]

theorem chnCdataWrite_stored
    (hlive : ¬ (m.is (CHN_CTRL_EN n.val) = true ∧
      m.get (CHN_CADDR_ADDR n.val) / 0x400 = m.get (CHN_CTRL_EQ_SET n.val)))
    (hwidth : coefWidth (m.get (CHN_CADDR_ADDR n.val) % 0x400) ≠ 0) :
    chnCdataWrite n data m =
      (m.setChan n fun c => c.putCoef (m.get (CHN_CADDR_ADDR n.val)) data.toNat).stepCaddr n
        (m.get (CHN_CADDR_ADDR n.val)) := by
  have hnot : (m.is (CHN_CTRL_EN n.val) &&
      m.get (CHN_CADDR_ADDR n.val) / 0x400 == m.get (CHN_CTRL_EQ_SET n.val)) = false := by
    simpa using hlive
  simp only [chnCdataWrite, hnot, Bool.false_eq_true, if_false, if_neg hwidth, Mach.stepCaddr]

end

theorem setChan_chan_self (m : Mach) (n : Stream) (f : ChanState → ChanState) :
    (m.setChan n f).media.chan[n] = f m.media.chan[n] := updAt_self ..

theorem coefAt_putCoef_self (c : ChanState) (a v : Nat) :
    (c.putCoef a v).coefAt a = v % 2 ^ coefWidth (a % 0x400) := getPair_putPair_self ..

theorem getPair_insertPair_other {β : Type} (d : β) {a b : Nat} (x : β) (l : List (Nat × β)) (h : a ≠ b) :
    getPair d a (insertPair b x l) = getPair d a l := by
  induction l with
  | nil => simp [insertPair, getPair, h]
  | cons c l ih =>
    rw [insertPair]
    split
    · simp [getPair, h]
    · simp only [getPair, ih]

/-- The defaults of the entries differ, so the list's default need not be the one that is read. -/
theorem getPair_putPair_apart {β : Type} [DecidableEq β] (d d' : β) {a b : Nat} (x : β) (l : List (Nat × β))
    (h : a ≠ b) : getPair d a (putPair d' b x l) = getPair d a l := by
  have hfilter : getPair d a (l.filter fun c => c.1 != b) = getPair d a l := by
    simpa [putPair] using getPair_putPair_other d d l h
  rw [putPair]
  split
  · exact hfilter
  · rw [getPair_insertPair_other d x _ h, hfilter]

theorem coefAt_putCoef_other (c : ChanState) {a b : Nat} (v : Nat) (h : b ≠ a) :
    (c.putCoef a v).coefAt b = c.coefAt b := getPair_putPair_apart _ _ _ _ h

/-- A write to the set EQ_SET while EN is 1 is ignored and flagged (R81). -/
theorem chnCdataWrite_ignored {n : Stream} (data : BitVec 10) {m : Mach} (hen : m.is (CHN_CTRL_EN n.val) = true)
    (hset : m.get (CHN_CADDR_ADDR n.val) / 0x400 = m.get (CHN_CTRL_EQ_SET n.val)) :
    (chnCdataWrite n data m).is (CHN_SMEM_CWR_IGN n.val) = true ∧ (chnCdataWrite n data m).media = m.media ∧
      (chnCdataWrite n data m).reports = m.reports ++ [32 * (5 + n.val)] := by
  rw [chnCdataWrite_live data hen hset, stepCaddr_is n _ (by simp [Loc.apart, CHN_SMEM_CWR_IGN, CHN_CADDR_ADDR])]
  exact ⟨is_flagEvent_self _ _ (by simp [CHN_SMEM_CWR_IGN]) rfl, by simp, by simp [Mach.chnSource]⟩

/-- Any other write to an entry that exists stores it at ADDR, and no other entry changes (R81). -/
theorem chnCdataWrite_stores {n : Stream} (data : BitVec 10) {m : Mach}
    (hlive : ¬ (m.is (CHN_CTRL_EN n.val) = true ∧
      m.get (CHN_CADDR_ADDR n.val) / 0x400 = m.get (CHN_CTRL_EQ_SET n.val)))
    (hwidth : coefWidth (m.get (CHN_CADDR_ADDR n.val) % 0x400) ≠ 0) :
    ((chnCdataWrite n data m).media.chan[n]).coefAt (m.get (CHN_CADDR_ADDR n.val)) =
        data.toNat % 2 ^ coefWidth (m.get (CHN_CADDR_ADDR n.val) % 0x400) ∧
      (∀ a, a ≠ m.get (CHN_CADDR_ADDR n.val) →
        ((chnCdataWrite n data m).media.chan[n]).coefAt a = (m.media.chan[n]).coefAt a) ∧
      (chnCdataWrite n data m).get (CHN_CADDR_ADDR n.val) = (m.get (CHN_CADDR_ADDR n.val) +
        if m.is (CHN_CADDR_AUTOINC n.val) then 1 else 0) % 0x1000 := by
  rw [chnCdataWrite_stored data hlive hwidth, stepCaddr_media, setChan_chan_self]
  exact ⟨coefAt_putCoef_self .., fun a ha => coefAt_putCoef_other _ _ ha, stepCaddr_addr n _ rfl⟩

/-- EN rises: the stream captures, and its sync status is cleared (R428). -/
theorem chnEnWrite_starts {n : Stream} {m : Mach} (h : m.is (CHN_CTRL_EN n.val) = false) :
    (chnEnWrite n true m).is (CHN_CTRL_EN n.val) = true ∧ (chnEnWrite n true m).media.chan[n].capturing = true ∧
      (chnEnWrite n true m).word (REG_LAD_SYNCSTAT (actOf n).val (slotOf n).val) = 0 := by
  have hstart : chnEnWrite n true m = ((m.setFlag (CHN_CTRL_EN n.val) true).setChan n fun c =>
      { c with capturing := true }).setWord (REG_LAD_SYNCSTAT (actOf n).val (slotOf n).val) 0 := by
    simp only [chnEnWrite, h, Bool.not_false, Bool.and_self, if_true]
    rfl
  have hapart : (CHN_CTRL_EN n.val).addr ≠ REG_LAD_SYNCSTAT (actOf n).val (slotOf n).val := by
    simp only [CHN_CTRL_EN, REG_CHN_CTRL, REG_LAD_SYNCSTAT]
    omega
  rw [hstart]
  refine ⟨?_, by rw [setWord_media, setChan_chan_self], word_setWord_self ..⟩
  rw [Mach.is, Mach.get, word_setWord_other _ _ hapart]
  exact is_setFlag_self m true (by simp [CHN_CTRL_EN]) rfl

theorem chnEnWrite_plain {n : Stream} {en : Bool} {m : Mach} (h : en = false ∨ m.is (CHN_CTRL_EN n.val) = true) :
    chnEnWrite n en m = m.setFlag (CHN_CTRL_EN n.val) en := by
  rw [chnEnWrite, if_neg]
  rcases h with h | h <;> simp [h]

theorem chnCntclr_clears (n : Stream) (m : Mach) :
    (chnCntclr n m).get (CHN_CNT_SECT_CAPT n.val) = 0 ∧ (chnCntclr n m).get (CHN_CNT_TA_SPANS n.val) = 0 ∧
      (chnCntclr n m).get (CHN_CNT_TA_MERGED n.val) = 0 ∧
      (chnCntclr n m).get (CHN_SMEM_HIGH n.val) = m.get (CHN_SMEM_USED n.val) ∧
      chnCntclr n m = { m with regs := (chnCntclr n m).regs } := by
  have hused : m.get (CHN_SMEM_USED n.val) % 2 ^ 7 = m.get (CHN_SMEM_USED n.val) := Nat.mod_eq_of_lt (getBits_lt ..)
  have hapart : (CHN_CNT_SECT_CAPT n.val).apart (CHN_SMEM_HIGH n.val) = true ∧
      (CHN_CNT_TA_SPANS n.val).apart (CHN_SMEM_HIGH n.val) = true ∧
      (CHN_CNT_TA_MERGED n.val).apart (CHN_SMEM_HIGH n.val) = true ∧
      (CHN_CNT_SECT_CAPT n.val).apart (CHN_CNT_TA_SPANS n.val) = true ∧
      (CHN_CNT_SECT_CAPT n.val).apart (CHN_CNT_TA_MERGED n.val) = true ∧
      (CHN_CNT_TA_SPANS n.val).apart (CHN_CNT_TA_MERGED n.val) = true := by
    simp [Loc.apart, CHN_CNT_SECT_CAPT, CHN_CNT_TA_SPANS, CHN_CNT_TA_MERGED, CHN_SMEM_HIGH, REG_CHN_CNT_SECT,
      REG_CHN_CNT_TA, REG_CHN_SMEM]
  obtain ⟨hcaptHigh, hspansHigh, hmergedHigh, hcaptSpans, hcaptMerged, hspansMerged⟩ := hapart
  refine ⟨?_, ?_, ?_, ?_, rfl⟩ <;> rw [chnCntclr]
  · rw [get_set _ _ hcaptHigh, get_set _ _ hcaptMerged, get_set _ _ hcaptSpans,
      get_set_self _ _ (by simp [CHN_CNT_SECT_CAPT]), Nat.zero_mod]
  · rw [get_set _ _ hspansHigh, get_set _ _ hspansMerged, get_set_self _ _ (by simp [CHN_CNT_TA_SPANS]), Nat.zero_mod]
  · rw [get_set _ _ hmergedHigh, get_set_self _ _ (by simp [CHN_CNT_TA_MERGED]), Nat.zero_mod]
  · rw [get_set_self _ _ (by simp [CHN_SMEM_HIGH])]
    exact hused

/-- DEC_ITERHk for the `k` of a list are cleared in turn. -/
def Mach.clearIterh (m : Mach) (ks : List Nat) : Mach := ks.foldl (fun m k => m.set (DEC_ITERH_COUNT k) 0) m

theorem clearIterh_cons (m : Mach) (k : Nat) (ks : List Nat) :
    m.clearIterh (k :: ks) = (m.set (DEC_ITERH_COUNT k) 0).clearIterh ks := rfl

theorem clearIterh_eq_regs (m : Mach) (ks : List Nat) :
    m.clearIterh ks = { m with regs := (m.clearIterh ks).regs } := by
  induction ks generalizing m with
  | nil => rfl
  | cons k ks ih => exact ih (m.set (DEC_ITERH_COUNT k) 0)

theorem clearIterh_get {l : Loc} (m : Mach) {ks : List Nat} (h : ∀ k ∈ ks, l.addr ≠ REG_DEC_ITERH k) :
    (m.clearIterh ks).get l = m.get l := by
  induction ks generalizing m with
  | nil => rfl
  | cons k ks ih =>
    rw [clearIterh_cons, ih _ fun j hj => h j (List.mem_cons_of_mem _ hj), get_set_addr _ _ (h k List.mem_cons_self)]

theorem clearIterh_iterh (m : Mach) {ks : List Nat} {k : Nat} (h : k ∈ ks) :
    (m.clearIterh ks).get (DEC_ITERH_COUNT k) = 0 := by
  induction ks generalizing m with
  | nil => exact absurd h List.not_mem_nil
  | cons j ks ih =>
    rw [clearIterh_cons]
    by_cases hk : k ∈ ks
    · exact ih _ hk
    · obtain rfl : k = j := (List.mem_cons.mp h).resolve_right hk
      have hapart : ∀ i ∈ ks, (DEC_ITERH_COUNT k).addr ≠ REG_DEC_ITERH i := fun i hi heq => by
        simp only [DEC_ITERH_COUNT, REG_DEC_ITERH] at heq
        exact hk ((show k = i by omega) ▸ hi)
      rw [clearIterh_get _ hapart, get_set_self _ _ (by simp [DEC_ITERH_COUNT]), Nat.zero_mod]

theorem decCntclr_clears (m : Mach) :
    (decCntclr m).get DEC_CNT_OTF_COUNT = 0 ∧ (decCntclr m).get DEC_CNT_NOCONV_COUNT = 0 ∧
      (decCntclr m).get DEC_CNT_CRC_COUNT = 0 ∧ (decCntclr m).get DEC_CNT_TAG_COUNT = 0 ∧
      (∀ k : Fin 24, (decCntclr m).get (DEC_ITERH_COUNT k.val) = 0) ∧
      decCntclr m = { m with regs := (decCntclr m).regs } := by
  have hclear : decCntclr m = ((((m.set DEC_CNT_OTF_COUNT 0).set DEC_CNT_NOCONV_COUNT 0).set DEC_CNT_CRC_COUNT 0).set
      DEC_CNT_TAG_COUNT 0).clearIterh (List.range 24) := rfl
  have hbelow {l : Loc} (h : l.addr < REG_DEC_ITERH 0) : ∀ k ∈ List.range 24, l.addr ≠ REG_DEC_ITERH k := by
    simp only [REG_DEC_ITERH] at h ⊢
    omega
  rw [hclear, clearIterh_get _ (hbelow (by decide)), clearIterh_get _ (hbelow (by decide)),
    clearIterh_get _ (hbelow (by decide)), clearIterh_get _ (hbelow (by decide))]
  simp (disch := decide) only [get_set, get_set_self, Nat.zero_mod, true_and]
  exact ⟨fun k => clearIterh_iterh _ (List.mem_range.mpr k.isLt), by rw [clearIterh_eq_regs]; rfl⟩

/-! ### What the formatters leave of the channels (R89, R103) -/

/-- What the formatters' operations leave: the channels, and which formatters wait for the reset that follows a fault
(R178). -/
def Mach.channelView (m : Mach) : Vector ChanState 8 × Vector Bool 8 := (m.media.chan, m.media.fmt.map (·.resetDue))

theorem channelView_of_media {m t : Mach} (h : t.media = m.media) : t.channelView = m.channelView := by
  rw [Mach.channelView, h, Mach.channelView]

theorem channelView_chan {m t : Mach} (h : t.channelView = m.channelView) : t.media.chan = m.media.chan :=
  (Prod.mk.inj h).1

theorem channelView_resetDue {m t : Mach} (h : t.channelView = m.channelView) (n : Stream) :
    t.media.fmt[n].resetDue = m.media.fmt[n].resetDue := by
  simpa using congrArg (fun v => v[n]) (Prod.mk.inj h).2

section
variable (m : Mach) (n : Stream)

@[simp] theorem set_channelView (l : Loc) (v : Nat) : (m.set l v).channelView = m.channelView := rfl
@[simp] theorem report_channelView (s : Nat) : (m.report s).channelView = m.channelView := rfl
@[simp] theorem incSat_channelView (l : Loc) (v : Nat) : (m.incSat l v).channelView = m.channelView := rfl
@[simp] theorem flagEvent_channelView (l : Loc) (s : Nat) : (m.flagEvent l s).channelView = m.channelView := rfl
@[simp] theorem setHsq_channelView (a : Actuator) (f : HsqState → HsqState) :
    (m.setHsq a f).channelView = m.channelView := rfl
@[simp] theorem setWpath_channelView (a : Actuator) (f : WritePath → WritePath) :
    (m.setWpath a f).channelView = m.channelView := rfl
@[simp] theorem setPwr_channelView (p : PowerMgr) : ({ m with pwr := p } : Mach).channelView = m.channelView := rfl

@[simp] theorem setFmt_channelView {f : FmtState → FmtState} (h : ∀ s, (f s).resetDue = s.resetDue) :
    (m.setFmt n f).channelView = m.channelView := by
  refine Prod.ext rfl (Vector.ext fun i hi => ?_)
  by_cases e : n.val = i
  · subst e; simp [Mach.channelView, Mach.setFmt, Mach.setMedia, updAt, h]
  · simp [Mach.channelView, Mach.setFmt, Mach.setMedia, updAt, e]

theorem foldl_channelView {α : Type} {f : Mach → α → Mach} (hf : ∀ m x, (f m x).channelView = m.channelView)
    (l : List α) : (l.foldl f m).channelView = m.channelView := by
  induction l generalizing m with
  | nil => rfl
  | cons x l ih => rw [List.foldl_cons, ih, hf]

@[simp] theorem itemStatus_channelView (ring status result : Nat) :
    (m.itemStatus n ring status result).channelView = m.channelView := setFmt_channelView m n fun _ => rfl

@[simp] theorem endDesc_channelView (ring status : Nat) : (m.endDesc n ring status).channelView = m.channelView := by
  unfold Mach.endDesc
  dsimp only
  split <;> simp

@[simp] theorem place_channelView (i : FmtItem) : (m.place n i).channelView = m.channelView := by
  rw [Mach.place]
  repeat' split
  all_goals simp

@[simp] theorem abandonNext_channelView (ring : Nat) : (m.abandonNext n ring).channelView = m.channelView := by
  rw [Mach.abandonNext]
  repeat' split
  all_goals simp

@[simp] theorem passStart_channelView (d : SectorDesc) : (m.passStart d).channelView = m.channelView :=
  channelView_of_media ((Mach.passStart_kept (P := (· = .pwr)) (R := fun _ => True) d rfl trivial trivial
    (Kept.refl m)).part .media (by decide))

@[simp] theorem takeDesc_channelView (d : SectorDesc) : (m.takeDesc n d).channelView = m.channelView := by
  simp only [Mach.takeDesc, Mach.when]
  repeat' split
  all_goals simp

@[simp] theorem dropCodewords_channelView : (m.dropCodewords n).channelView = m.channelView := rfl

@[simp] theorem runOver_channelView : (m.runOver n).channelView = m.channelView := by
  have hrun : (m.setFmt n fun f => { f with writing := none, armedWr := [], inRun := false }).channelView =
      m.channelView := setFmt_channelView m n fun _ => rfl
  simp only [Mach.runOver]
  repeat' split
  · exact (takeDesc_channelView _ _ _).trans hrun
  · exact hrun
  · exact hrun

@[simp] theorem nextRun_channelView : (m.nextRun n).channelView = m.channelView := by
  simp only [Mach.nextRun]
  split <;> simp

@[simp] theorem endReadRun_channelView : (m.endReadRun n).channelView = m.channelView := by
  rw [Mach.endReadRun]
  split <;> simp

@[simp] theorem foldl_endDesc_channelView {α : Type} (ring : α → Nat) (status : Nat) (l : List α) :
    (l.foldl (fun m i => m.endDesc n (ring i) status) m).channelView = m.channelView :=
  foldl_channelView m (fun m i => endDesc_channelView m n (ring i) status) l

@[simp] theorem failFrom_channelView (ring status : Nat) : (m.failFrom n ring status).channelView = m.channelView := by
  simp only [Mach.failFrom]
  repeat' split
  all_goals simp

@[simp] theorem dropForeign_channelView : (m.dropForeign n).channelView = m.channelView := by
  simp only [Mach.dropForeign]
  repeat' split
  all_goals simp

@[simp] theorem driven_channelView (w : Writing) (k : Nat) : (m.driven n w k).channelView = m.channelView :=
  channelView_of_media ((Mach.driven_kept (P := (· = .out)) (R := fun _ => True) n w k rfl (Kept.refl m)).part
    .media (by decide))

@[simp] theorem lowerGate_channelView (a : Actuator) (k : HeadSlot) : (m.lowerGate a k).channelView = m.channelView :=
  channelView_of_media ((Mach.lowerGate_kept (P := (· ≠ .media)) (R := fun _ => True) a k (by decide) (by decide)
    (by decide) (fun _ _ => trivial) (fun _ _ => trivial) (fun _ _ _ _ => trivial) (Kept.refl m)).part
    .media (by decide))

@[simp] theorem startSector_channelView (i : FmtItem) (c : Codeword) :
    (m.startSector n i c).channelView = m.channelView := by
  rw [Mach.startSector]
  simp

@[simp] theorem sectorDone_channelView (w : Writing) : (m.sectorDone n w).channelView = m.channelView := by
  rw [Mach.sectorDone]
  simp

@[simp] theorem writeBoundary_channelView : (m.writeBoundary n).channelView = m.channelView := by
  simp only [Mach.writeBoundary]
  repeat' split
  all_goals simp

theorem clockedFmt_channelView : (clockedFmt n m).channelView = m.channelView := by
  rw [clockedFmt, Mach.clocked]
  split <;> simp

end

/-! ### A changed EQ_SET at the sector boundary (R81) -/

theorem settled_of_no_waits {f : Mach → Mach} {m : Mach} (h : NoResetWaits (f m)) : m.settled f = f m :=
  List.foldlRecOn (motive := (· = f m)) _ _ rfl fun t ht k _ => by
    rw [ht, h k, Bool.false_and, if_neg Bool.false_ne_true]

theorem setLane_chan (m : Mach) (l : Lane) (f : LaneState → LaneState) :
    (m.setLane l f).media.chan = m.media.chan := rfl

theorem channelBoundary_eqSet (n : Stream) (m : Mach) :
    (m.channelBoundary n).media.chan[n].force.eqSet = Fin.ofNat 4 (m.get (CHN_CTRL_EQ_SET n.val)) := by
  simp only [Mach.channelBoundary, List.foldl_cons, List.foldl_nil, set_media, setLane_chan]
  rw [setChan_chan_self]
  rfl

/-- EQ_SET has two bits, so the set in force is the one that it names. -/
theorem sectorBoundary_eqSet (n : Stream) (m : Mach) :
    (sectorBoundary n m).media.chan[n].force.eqSet.val = m.get (CHN_CTRL_EQ_SET n.val) := by
  have hlt : m.get (CHN_CTRL_EQ_SET n.val) < 4 := getBits_lt (m.word _) _ 2
  rw [sectorBoundary, Mach.takeGeometry, channelView_chan (dropForeign_channelView _ n), setChan_chan_self,
    channelBoundary_eqSet]
  exact Nat.mod_eq_of_lt hlt

theorem sectorBoundary_resetDue (n k : Stream) (m : Mach) :
    ((sectorBoundary n m).media.fmt[k]).resetDue = (m.media.fmt[k]).resetDue := by
  rw [sectorBoundary, Mach.takeGeometry, channelView_resetDue (dropForeign_channelView _ n)]
  rfl

/-- The row of the boundary, while the channel runs and no formatter waits for a reset (R81, R178). -/
theorem sectorBoundary_completes {s : State} {n : Stream} (hrun : Running 14 n.val s.m) (hwaits : NoResetWaits s.m) :
    Completes (.sectorBoundary n) s fun t =>
      t.media.chan[n].force.eqSet.val = s.m.get (CHN_CTRL_EQ_SET n.val) := by
  have hview : (clockedFmt n (Mach.clocked 14 n.val (sectorBoundary n) s.m)).channelView =
      (sectorBoundary n s.m).channelView := by
    rw [clockedFmt_channelView, clocked_running hrun]
  refine ⟨_, rfl, ?_⟩
  dsimp only
  rw [settled_of_no_waits fun k => ?noWaits, channelView_chan hview, sectorBoundary_eqSet]
  case noWaits => rw [channelView_resetDue hview, sectorBoundary_resetDue, hwaits k]

theorem setSlot_slot_self (m : Mach) (n : Stream) (i : SampleIdx) (f : SampleSlot → SampleSlot) :
    (m.setSlot n i f).media.chan[n].slots[i] = f m.media.chan[n].slots[i] := by
  rw [Mach.setSlot, setChan_chan_self]
  exact updAt_self ..

/-! ### The grant of a decoder engine (R63, R76, R77) -/

@[simp] theorem syncDec_media (m : Mach) : m.syncDec.media = m.media := rfl

section
variable (m : Mach) (e : Engine) (h : EngineHold)

theorem startDecode_dec :
    (m.startDecode e h).media.dec = { m.media.dec with engines := m.media.dec.engines.set e (some h) } := rfl

theorem startDecode_chan {n : Stream} (hn : h.stream = n) :
    (m.startDecode e h).media.chan[n] = { m.media.chan[n] with replayEnd := m.clock + 1168 * 10 } := by
  subst hn
  exact updAt_self ..

theorem startDecode_engine : (m.startDecode e h).media.dec.engines[e] = some h := by
  rw [startDecode_dec]
  exact updAt_self _ _ fun _ => some h

theorem startDecode_engine_other {x : Engine} (hx : x ≠ e) :
    (m.startDecode e h).media.dec.engines[x] = m.media.dec.engines[x] := by
  rw [startDecode_dec]
  exact updAt_other (f := fun _ => some h) hx

end

section
variable {m : Mach}

theorem decoderGrant_none
    (h : (∀ e : Engine, m.media.dec.engines[e].isSome = true) ∨ m.get PWR_MODE_MODE = 4) : decoderGrant m = m := by
  rw [decoderGrant]
  rcases h with hheld | hmode
  · have hfree : (allFin 12).find? (fun e => m.media.dec.engines[e].isNone) = none :=
      List.find?_eq_none.mpr fun e _ => by
        rw [Option.isNone_iff_eq_none]
        exact Option.isSome_iff_ne_none.mp (hheld e)
    rw [hfree, ite_self]
  · rw [if_pos hmode]

/-- Where no ladder request may take an engine, the on-the-fly queue has its turn. -/
theorem ladderTurn_none (h : ¬ m.ladderHeld < m.ladderMax ∨ m.oldestLadder = none) :
    (if m.ladderHeld < m.ladderMax then m.oldestLadder else none) = none := by
  rcases h with h | h <;> simp [h]

variable {e : Engine} (hmode : m.get PWR_MODE_MODE ≠ 4)
  (hfree : (allFin 12).find? (fun x => m.media.dec.engines[x].isNone) = some e)
include hmode hfree

theorem decoderGrant_ladder {q : LadderReq} (hheld : m.ladderHeld < m.ladderMax) (hq : m.oldestLadder = some q) :
    ∃ h : EngineHold, h.ladder = some q.ref ∧ h.stream = q.stream ∧ h.slot = q.slot ∧
      decoderGrant m =
        (m.setDec fun d => { d with ladder := d.ladder.filter fun x => x.ref != q.ref }).startDecode e h := by
  refine ⟨_, ?_, ?_, ?_, by
    rw [decoderGrant, if_neg hmode, hfree]
    simp only [if_pos hheld, hq]
    rfl⟩ <;> rfl

theorem decoderGrant_otf {n : Stream} {i : SampleIdx} (hladder : ¬ m.ladderHeld < m.ladderMax ∨ m.oldestLadder = none)
    (hq : m.oldestOtf = some (n, i)) :
    ∃ h : EngineHold, h.ladder = none ∧ h.stream = n ∧ h.slot = some i ∧ h.sched = .otf ∧
      decoderGrant m = (m.setSlot n i fun s => { s with state := .decoding }).startDecode e h := by
  refine ⟨_, ?_, ?_, ?_, ?_, by
    rw [decoderGrant, if_neg hmode, hfree]
    simp only [ladderTurn_none hladder, hq]
    rfl⟩ <;> rfl

theorem decoderGrant_idle (hladder : ¬ m.ladderHeld < m.ladderMax ∨ m.oldestLadder = none)
    (hq : m.oldestOtf = none) : decoderGrant m = m := by
  rw [decoderGrant, if_neg hmode, hfree]
  simp only [ladderTurn_none hladder, hq]

end

section
variable {m : Mach} {e : Engine} (hmode : m.get PWR_MODE_MODE ≠ 4)
  (hfree : (allFin 12).find? (fun x => m.media.dec.engines[x].isNone) = some e)
include hmode hfree

theorem decoderGrant_ladder_effect {q : LadderReq} (hheld : m.ladderHeld < m.ladderMax) (hq : m.oldestLadder = some q) :
    (∃ h, (decoderGrant m).media.dec.engines[e] = some h ∧ h.ladder = some q.ref ∧ h.stream = q.stream ∧
        h.slot = q.slot) ∧
      (decoderGrant m).media.dec.ladder = m.media.dec.ladder.filter (fun x => x.ref != q.ref) ∧
      (decoderGrant m).media.chan[q.stream].replayEnd = m.clock + 1168 * 10 ∧
      ∀ x, x ≠ e → (decoderGrant m).media.dec.engines[x] = m.media.dec.engines[x] := by
  obtain ⟨h, hladder, hstream, hslot, heq⟩ := decoderGrant_ladder hmode hfree hheld hq
  rw [heq, startDecode_chan _ _ _ hstream]
  exact ⟨⟨h, startDecode_engine .., hladder, hstream, hslot⟩, rfl, rfl, fun x hx => startDecode_engine_other _ _ _ hx⟩

theorem decoderGrant_otf_effect {n : Stream} {i : SampleIdx}
    (hladder : ¬ m.ladderHeld < m.ladderMax ∨ m.oldestLadder = none) (hq : m.oldestOtf = some (n, i)) :
    (∃ h, (decoderGrant m).media.dec.engines[e] = some h ∧ h.ladder = none ∧ h.stream = n ∧ h.slot = some i ∧
        h.sched = .otf) ∧
      (decoderGrant m).media.chan[n].slots[i].state = .decoding ∧
      (decoderGrant m).media.dec.ladder = m.media.dec.ladder ∧
      (decoderGrant m).media.chan[n].replayEnd = m.clock + 1168 * 10 := by
  obtain ⟨h, hnone, hstream, hslot, hsched, heq⟩ := decoderGrant_otf hmode hfree hladder hq
  rw [heq, startDecode_chan _ _ _ hstream]
  exact ⟨⟨h, startDecode_engine .., hnone, hstream, hslot, hsched⟩,
    congrArg SampleSlot.state (setSlot_slot_self m n i _), rfl, congrArg (· + 1168 * 10) rfl⟩

end

/-! ### The end of a decode (R62, R73–R75) -/

/-- What the end of a decode does with its result: a ladder attempt's reaches its job (R117); a first decode is counted,
and its sector is verified, written back, pinned or given up (R62, R73, R75). -/
def Mach.decodeEnded (m : Mach) (h : EngineHold) (code : Nat) (block : List Byte) : Mach :=
  match h.ladder with
  | some r => m.attemptResult r code h.run.unsat block
  | none =>
    let m := m.countDecode code h.run.iter h.run.converged
    match h.slot with
    | none => m
    | some i =>
      let ring := m.media.chan[h.stream].slots[i].ring
      if code ≤ 1 then
        if h.desc.op = 3 then (m.itemStatus h.stream ring 0 code).freeSlot h.stream i
        else m.startWriteBack h.stream (some i) h.desc block h.copy
      else m.failSector h.stream i h.desc h.copy ring code

/-- An engine lets go of its sector. -/
def Mach.releaseEngine (m : Mach) (e : Engine) : Mach :=
  (m.setDec fun d => { d with engines := d.engines.set e none }).engineIdle e

theorem decodeComplete_idle {m : Mach} {e : Engine} (h : m.media.dec.engines[e] = none) : decodeComplete e m = m := by
  rw [decodeComplete, h]

theorem decodeComplete_held {m : Mach} {e : Engine} {h : EngineHold} (he : m.media.dec.engines[e] = some h) :
    decodeComplete e m = ((m.releaseEngine e).decodeEnded h (m.decodeResult h).1 (m.decodeResult h).2).syncDec := by
  rw [decodeComplete, he]
  rfl

section
variable (m : Mach)

@[simp] theorem itemStatus_dec (n : Stream) (ring status result : Nat) :
    (m.itemStatus n ring status result).media.dec = m.media.dec := rfl
@[simp] theorem syncSlots_media (n : Stream) : (m.syncSlots n).media = m.media := rfl
@[simp] theorem setSlot_dec (n : Stream) (i : SampleIdx) (f : SampleSlot → SampleSlot) :
    (m.setSlot n i f).media.dec = m.media.dec := rfl
@[simp] theorem freeSlot_dec (n : Stream) (i : SampleIdx) : (m.freeSlot n i).media.dec = m.media.dec := rfl
@[simp] theorem attemptResult_dec (r : AttemptRef) (code unsat : Nat) (block : List Byte) :
    (m.attemptResult r code unsat block).media.dec = m.media.dec := rfl

@[simp] theorem countDecode_media (code iter : Nat) (converged : Bool) :
    (m.countDecode code iter converged).media = m.media :=
  (Mach.countDecode_kept (P := (· = .reports)) (R := fun _ => True) code iter converged rfl trivial trivial trivial
    trivial (fun _ _ => trivial) (Kept.refl m)).part .media (by decide)

@[simp] theorem specFails_media (copy : Option Nat) (d : SectorDesc) : (m.specFails copy d).media = m.media :=
  (Mach.specFails_kept (P := (· ≠ .media)) (R := fun _ => True) copy d (by decide) (by decide) (by decide) (by decide)
    trivial trivial (fun _ _ => trivial) (fun _ _ => trivial) (Kept.refl m)).part .media (by decide)

@[simp] theorem failSector_dec (n : Stream) (i : SampleIdx) (d : SectorDesc) (copy : Option Nat) (ring code : Nat) :
    (m.failSector n i d copy ring code).media.dec = m.media.dec := by
  simp only [Mach.failSector]
  repeat' split
  all_goals simp

@[simp] theorem demand_media (port : Port) (cls : FabClass) (addr bytes : Nat) :
    (m.demand port cls addr bytes).media = m.media :=
  (Mach.demand_kept (P := (· = .cal)) (R := fun _ => True) port cls addr bytes rfl (Kept.refl m)).part
    .media (by decide)

/-- A write-back joins those in progress (R73). -/
theorem startWriteBack_media (n : Stream) (slot : Option SampleIdx) (d : SectorDesc) (block : List Byte)
    (copy : Option Nat) : ∃ keep, (m.startWriteBack n slot d block copy).media = { m.media with
      dec := { m.media.dec with writeBacks := m.media.dec.writeBacks ++ [⟨n, slot, d, block, keep, copy⟩] } } := by
  exact ⟨_, by simp only [Mach.startWriteBack, demand_media]; rfl⟩

@[simp] theorem startWriteBack_engines (n : Stream) (slot : Option SampleIdx) (d : SectorDesc) (block : List Byte)
    (copy : Option Nat) : (m.startWriteBack n slot d block copy).media.dec.engines = m.media.dec.engines := by
  obtain ⟨keep, heq⟩ := startWriteBack_media m n slot d block copy
  rw [heq]

variable (h : EngineHold) (code : Nat) (block : List Byte)

/-- The end of a decode leaves the engines to the sectors they hold. -/
theorem decodeEnded_engines : (m.decodeEnded h code block).media.dec.engines = m.media.dec.engines := by
  simp only [Mach.decodeEnded]
  repeat' split
  all_goals simp

theorem decodeEnded_writesBack {i : SampleIdx} (hladder : h.ladder = none) (hslot : h.slot = some i) (hcode : code ≤ 1)
    (hop : h.desc.op ≠ 3) : m.decodeEnded h code block =
      (m.countDecode code h.run.iter h.run.converged).startWriteBack h.stream (some i) h.desc block h.copy := by
  simp only [Mach.decodeEnded, hladder, hslot, if_pos hcode, if_neg hop]

theorem regDecEng_apart (e : Engine) :
    (∀ i, i < 8 → REG_CHN_SMEM i ≠ REG_DEC_ENG e.val) ∧ (∀ i, i < 24 → REG_DEC_ITERH i ≠ REG_DEC_ENG e.val) ∧
      (∀ i, i < 8 → REG_POOL_RETSTAT i ≠ REG_DEC_ENG e.val) ∧ (∀ i, i < 8 → REG_POOL_STAT i ≠ REG_DEC_ENG e.val) ∧
      ∀ a ∈ [REG_DEC_BUSY, REG_DEC_CNT_OTF, REG_DEC_CNT_NOCONV, REG_DEC_CNT_CRC, REG_DEC_CNT_TAG, REG_POOL_ERR,
        REG_POOL_FIRST], a ≠ REG_DEC_ENG e.val := by
  simp only [REG_CHN_SMEM, REG_DEC_ITERH, REG_POOL_RETSTAT, REG_POOL_STAT, REG_DEC_BUSY, REG_DEC_CNT_OTF,
    REG_DEC_CNT_NOCONV, REG_DEC_CNT_CRC, REG_DEC_CNT_TAG, REG_POOL_ERR, REG_POOL_FIRST, REG_DEC_ENG,
    List.forall_mem_cons]
  refine ⟨?_, ?_, ?_, ?_, ?_, ?_, ?_, ?_, ?_, ?_, ?_, by simp⟩ <;> omega

/-- The register of an engine is neither one that the end of a decode counts in nor one that follows the slots or the
pools. -/
theorem decodeEnded_keeps (e : Engine) :
    Kept (fun _ => True) (· ≠ REG_DEC_ENG e.val) m (m.decodeEnded h code block) := by
  obtain ⟨hsmem, hiterh, hretstat, hstat, hone⟩ := regDecEng_apart e
  have hcount : Kept (fun _ => True) (· ≠ REG_DEC_ENG e.val) m (m.countDecode code h.run.iter h.run.converged) :=
    Mach.countDecode_kept _ _ _ trivial (hone _ (by simp)) (hone _ (by simp)) (hone _ (by simp)) (hone _ (by simp))
      hiterh (Kept.refl m)
  simp only [Mach.decodeEnded]
  repeat' split
  · exact Mach.attemptResult_kept _ _ _ _ trivial (Kept.refl m)
  · exact hcount
  · exact Mach.freeSlot_kept _ _ trivial hsmem (Mach.itemStatus_kept _ _ _ _ trivial hcount)
  · exact Mach.startWriteBack_kept _ _ _ _ _ trivial trivial hcount
  · exact Mach.failSector_kept _ _ _ _ _ _ trivial trivial trivial trivial trivial hsmem (hone _ (by simp))
      (hone _ (by simp)) hretstat hstat hcount

end

theorem releaseEngine_engine (m : Mach) (e : Engine) : (m.releaseEngine e).media.dec.engines[e] = none :=
  updAt_self _ _ fun _ => none

theorem releaseEngine_engine_other (m : Mach) {e x : Engine} (hx : x ≠ e) :
    (m.releaseEngine e).media.dec.engines[x] = m.media.dec.engines[x] := updAt_other (f := fun _ => none) hx

theorem releaseEngine_state (m : Mach) (e : Engine) : (m.releaseEngine e).get (DEC_ENG_STATE e.val) = 0 := by
  rw [Mach.releaseEngine, Mach.engineIdle, get_set_bits _ _ (by simp [DEC_ENG_STATE, DEC_ENG_LOCAL]),
    get_set_bits _ _ (by simp [DEC_ENG_STATE, DEC_ENG_GLOBAL]),
    get_set_bits _ _ (by simp [DEC_ENG_STATE, DEC_ENG_STREAM]), get_set_bits _ _ (by simp [DEC_ENG_STATE, DEC_ENG_SCHED]), get_set_self _ _ (by simp [DEC_ENG_STATE]), Nat.zero_mod]

theorem decodeComplete_state {m : Mach} {e : Engine} {h : EngineHold} (he : m.media.dec.engines[e] = some h) :
    (decodeComplete e m).get (DEC_ENG_STATE e.val) = 0 := by
  have hkept := Mach.syncDec_kept ((regDecEng_apart e).2.2.2.2 REG_DEC_BUSY (by simp))
    (decodeEnded_keeps (m.releaseEngine e) h (m.decodeResult h).1 (m.decodeResult h).2 e)
  rw [decodeComplete_held he, hkept.get (by simp [DEC_ENG_STATE]), releaseEngine_state]

theorem decodeComplete_frees {m : Mach} {e : Engine} {h : EngineHold} (he : m.media.dec.engines[e] = some h) :
    (decodeComplete e m).media.dec.engines[e] = none ∧ (decodeComplete e m).get (DEC_ENG_STATE e.val) = 0 ∧
      ∀ x, x ≠ e → (decodeComplete e m).media.dec.engines[x] = m.media.dec.engines[x] := by
  refine ⟨?_, decodeComplete_state he, fun x hx => ?_⟩ <;>
    rw [decodeComplete_held he, syncDec_media, decodeEnded_engines]
  · exact releaseEngine_engine m e
  · exact releaseEngine_engine_other m hx

/-- A good first decode that is no verify starts its write-back, and its slot keeps its state until that ends (R62,
R73). -/
theorem decodeComplete_writesBack {m : Mach} {e : Engine} {h : EngineHold} {i : SampleIdx}
    (he : m.media.dec.engines[e] = some h) (hladder : h.ladder = none) (hslot : h.slot = some i)
    (hcode : (m.decodeResult h).1 ≤ 1) (hop : h.desc.op ≠ 3) :
    ∃ w, (decodeComplete e m).media.dec.writeBacks = m.media.dec.writeBacks ++ [w] ∧ w.slot = some i ∧
      w.block = (m.decodeResult h).2 ∧
      (decodeComplete e m).media.chan[h.stream].slots[i].state = m.media.chan[h.stream].slots[i].state := by
  obtain ⟨keep, heq⟩ := startWriteBack_media
    ((m.releaseEngine e).countDecode (m.decodeResult h).1 h.run.iter h.run.converged) h.stream (some i) h.desc
    (m.decodeResult h).2 h.copy
  rw [decodeComplete_held he, syncDec_media, decodeEnded_writesBack _ _ _ _ hladder hslot hcode hop, heq,
    countDecode_media]
  exact ⟨_, rfl, rfl, rfl, rfl⟩

/-! ### The end of a write-back (R62, R73) -/

section
variable (m : Mach)

@[simp] theorem storeBlock_media (handle : Nat) (block : List Byte) : (m.storeBlock handle block).media = m.media :=
  (Mach.storeBlock_kept (P := (· ≠ .media)) (R := fun _ => True) handle block (by decide) (by decide) (by decide)
    trivial trivial trivial trivial (Kept.refl m)).part .media (by decide)

@[simp] theorem poolFree_media (h : BitVec 24) : (poolFree h m).media = m.media :=
  (poolFree_kept (P := (· ≠ .media)) (R := fun _ => True) h (by decide) (by decide) (by decide) trivial trivial
    (fun _ _ => trivial) (fun _ _ => trivial) (Kept.refl m)).part .media (by decide)

@[simp] theorem setSpec_media (copy : Option Nat) (t : BitVec 64) (f : SpecSector → SpecSector) :
    (m.setSpec copy t f).media = m.media := rfl

theorem freeSlot_state (n : Stream) (i : SampleIdx) : (m.freeSlot n i).media.chan[n].slots[i].state = .free := by
  rw [Mach.freeSlot, syncSlots_media, setSlot_slot_self]
  rfl

end

section
variable {m : Mach} {k : Nat}

theorem writeBackComplete_none (h : m.media.dec.writeBacks[k]? = none) : writeBackComplete k m = m := by
  rw [writeBackComplete, h]

variable {w : WriteBack} (hw : m.media.dec.writeBacks[k]? = some w)
include hw

theorem writeBackComplete_waits (h : m.writeBackMoved k w = false) : writeBackComplete k m = m := by
  simp only [writeBackComplete, hw, h, Bool.not_false, if_true]

/-- The block goes to its buffer, or the buffer returns to its pool: either way the media side has only the write-back
taken out when the sector's slot is freed. -/
theorem writeBackComplete_moved {i : SampleIdx} (hslot : w.slot = some i) (h : m.writeBackMoved k w = true) :
    ∃ (t : Mach) (ring result : Nat),
      t.media = { m.media with dec := { m.media.dec with writeBacks := m.media.dec.writeBacks.eraseIdx k } } ∧
      writeBackComplete k m = (t.itemStatus w.stream ring 0 result).freeSlot w.stream i := by
  simp only [writeBackComplete, hw, h, Bool.not_true, Bool.false_eq_true, if_false, hslot]
  refine ⟨_, _, _, ?_, rfl⟩
  simp only [Mach.when]
  repeat' split
  all_goals simp [Mach.setDec, Mach.setMedia]

theorem writeBackComplete_frees {i : SampleIdx} (hslot : w.slot = some i) (h : m.writeBackMoved k w = true) :
    (writeBackComplete k m).media.dec.writeBacks = m.media.dec.writeBacks.eraseIdx k ∧
      (writeBackComplete k m).media.chan[w.stream].slots[i].state = .free := by
  obtain ⟨t, ring, result, hmedia, heq⟩ := writeBackComplete_moved hw hslot h
  rw [heq, freeSlot_dec, itemStatus_dec, hmedia]
  exact ⟨rfl, freeSlot_state ..⟩

end

/-- Settles O10: while its block runs each row acts as its operation (`completes_of_clocked`), whose effect the lemmas
above give; the cases are the rows, and within a row the conditions under which it differs. -/
theorem decodersAndChannelWrites : Obligations.DecodersAndChannelWrites := by
  unfold Obligations.DecodersAndChannelWrites
  refine ⟨fun s n hr => ⟨fun data hen hset => ?ignored, fun data hlive hwidth => ?stored, fun hwaits => ?boundary,
      fun hen => ?start, ?stop, fun hen => ?again, ?cntclr, fun hdec => ?decCntclr⟩,
    fun s => ⟨fun hr hnone => ?noGrant, fun e hr hmode hfree => ⟨fun q hheld hq => ?ladder, fun hladder =>
        ⟨fun n i hq => ?otf, fun hq => ?idle⟩⟩,
      fun e hr => ⟨fun hnone => ?noDecode, fun h he => ⟨?decoded, fun i hladder hslot hcode hop => ?written⟩⟩,
      fun k hr => ⟨fun hnone => ?noWriteBack, fun w i hw hslot => ⟨fun hmoved => ?waits, fun hmoved => ?moved⟩⟩⟩⟩
  case ignored => exact completes_of_clocked hr rfl (chnCdataWrite_ignored data hen hset)
  case stored => exact completes_of_clocked hr rfl (chnCdataWrite_stores data hlive hwidth)
  case boundary => exact sectorBoundary_completes hr hwaits
  case start => exact completes_of_clocked hr rfl (chnEnWrite_starts hen)
  case stop => exact yields_eq_of_clocked hr rfl (chnEnWrite_plain (.inl rfl))
  case again => exact yields_eq_of_clocked hr rfl (chnEnWrite_plain (.inr hen))
  case cntclr => exact completes_of_clocked hr rfl (chnCntclr_clears n s.m)
  case decCntclr => exact completes_of_clocked hdec rfl (decCntclr_clears s.m)
  case noGrant => exact yields_eq_of_clocked hr rfl (decoderGrant_none hnone)
  case ladder => exact completes_of_clocked hr rfl (decoderGrant_ladder_effect hmode hfree hheld hq)
  case otf => exact completes_of_clocked hr rfl (decoderGrant_otf_effect hmode hfree hladder hq)
  case idle => exact yields_eq_of_clocked hr rfl (decoderGrant_idle hmode hfree hladder hq)
  case noDecode => exact yields_eq_of_clocked hr rfl (decodeComplete_idle hnone)
  case decoded => exact completes_of_clocked hr rfl (decodeComplete_frees he)
  case written => exact completes_of_clocked hr rfl (decodeComplete_writesBack he hladder hslot hcode hop)
  case noWriteBack => exact yields_eq_of_clocked hr rfl (writeBackComplete_none hnone)
  case waits => exact yields_eq_of_clocked hr rfl (writeBackComplete_waits hw hmoved)
  case moved => exact completes_of_clocked hr rfl (writeBackComplete_frees hw hslot hmoved)

end Sys2Proof.Machine

/-! PROOFS. Statements of spec/06_servo.md: the servo gate, the search for the mark, the PES-ready and the RRO row. -/
namespace Sys2Proof.Machine

/-! ### Registers and slots of a servo block -/

theorem signedOf_codeOf16 {v : Int} (hlo : -32768 ≤ v) (hhi : v < 32768) : signedOf 16 (codeOf 16 v % 2 ^ 16) = v := by
  rw [signedOf, codeOf]
  by_cases hneg : v < 0
  · rw [if_neg (by omega)]
    omega
  · rw [if_pos (by omega)]
    omega

theorem clampInt_bounds {lo hi : Int} (v : Int) (h : lo ≤ hi) : lo ≤ clampInt lo hi v ∧ clampInt lo hi v ≤ hi := by
  rw [clampInt]
  omega

theorem get_of_word {m t : Mach} {l : Loc} (h : t.word l.addr = m.word l.addr) : t.get l = m.get l := by
  rw [Mach.get, h, Mach.get]

theorem Kept.word {P : Part → Prop} {R : Nat → Prop} {m t : Mach} {x : Nat} (h : Kept P R m t) (hx : ¬ R x) :
    t.word x = m.word x := by
  obtain ⟨-, hword, -, -⟩ := h
  exact hword x hx

theorem bitAt_setBitAt_true (m : Mach) {l : Loc} {i : Nat} (hl : l.lo + l.w ≤ 32) (hi : i < l.w) :
    (m.setBitAt l i true).bitAt l i = true := by
  rw [Mach.bitAt, Mach.setBitAt, get_set_self _ _ hl, if_pos rfl]
  simp [hi]

theorem when_keeps {α : Type} {g : Mach → α} {m : Mach} {c : Bool} {f : Mach → Mach} (h : g (f m) = g m) :
    g (m.when c f) = g m := by
  cases c
  · rfl
  · exact h

section
variable (m : Mach) (a : Actuator) (k : HeadSlot)

theorem setSrv_srv_self (f : SrvState → SrvState) : (m.setSrv a f).motion.srv[a] = f m.motion.srv[a] := updAt_self ..

theorem setSrvSlot_slot_self (f : SrvSlot → SrvSlot) :
    (m.setSrvSlot a k f).motion.srv[a].slots[k] = f m.motion.srv[a].slots[k] := by
  rw [Mach.setSrvSlot, setSrv_srv_self]
  exact updAt_self ..

end

/-! ### The servo gate (R88, R138, R176) -/

section
variable (m : Mach) (a : Actuator) (k : HeadSlot)

@[simp] theorem pumpOnce_srv : (m.pumpOnce a).motion.srv = m.motion.srv := by
  rw [Mach.pumpOnce]
  split
  · rfl
  · split
    · rfl
    · split
      · split <;> rfl
      · rfl

theorem pumpLink_srv : (m.pumpLink a).motion.srv = m.motion.srv :=
  List.foldlRecOn (motive := fun t : Mach => t.motion.srv = m.motion.srv) _ _ rfl fun t ht _ _ =>
    (pumpOnce_srv t a).trans ht

theorem lowerGate_srv : (m.lowerGate a k).motion.srv = m.motion.srv := by
  rw [Mach.lowerGate, pumpLink_srv]
  rfl

theorem fmtStat_ne_hsqErr (n : Stream) (i : Nat) : REG_FMT_STAT n.val ≠ REG_HSQ_ERR i := by
  simp only [REG_FMT_STAT, REG_HSQ_ERR]
  omega

/-- The link works off its held frames after the gate has closed, which touches no formatter's status. -/
theorem lowerGate_gate : (m.lowerGate a k).is (FMT_STAT_GATE (streamOf a k).val) = false := by
  have hpump : Kept (fun _ => True) (· ≠ REG_FMT_STAT (streamOf a k).val)
      (((m.set (HSQ_SEL_GATE a.val k.val) 0).set (FMT_STAT_GATE (streamOf a k).val) 0).emitFrame a (.lower k))
      (m.lowerGate a k) :=
    Mach.pumpLink_kept a trivial trivial trivial (fun i _ => (fmtStat_ne_hsqErr _ i).symm) (Kept.refl _)
  rw [hpump.is (by simp [FMT_STAT_GATE]), Mach.emitFrame, is_emit, Mach.is,
    get_set_self _ _ (by simp [FMT_STAT_GATE])]
  rfl

@[simp] theorem actOf_streamOf : actOf (streamOf a k) = a := Fin.ext (by simp only [actOf, streamOf]; omega)
@[simp] theorem slotOf_streamOf : slotOf (streamOf a k) = k := Fin.ext (by simp only [slotOf, streamOf]; omega)

theorem driven_motion (n : Stream) (w : Writing) (i : Nat) : (m.driven n w i).motion = m.motion :=
  (Mach.driven_kept (P := (· = .out)) (R := fun _ => True) n w i rfl (Kept.refl m)).part .motion (by decide)

theorem splitGate_srv (n : Stream) : (m.splitGate n).motion.srv = m.motion.srv := by
  simp only [Mach.splitGate]
  split
  · rfl
  · split
    · exact (lowerGate_srv ..).trans (congrArg MotionState.srv (driven_motion ..))
    · rfl

/-- An open gate closes for the servo field when the sector being written goes on behind it. -/
theorem splitGate_closes {w : Writing} (hw : m.media.fmt[streamOf a k].writing = some w)
    (hgate : m.is (FMT_STAT_GATE (streamOf a k).val) = true) (hrest : w.sent + Mach.segment w < sectorLength) :
    (m.splitGate (streamOf a k)).is (FMT_STAT_GATE (streamOf a k).val) = false ∧
      ((m.splitGate (streamOf a k)).media.wpath[a]).split = true := by
  simp only [Mach.splitGate, hw, hgate, hrest, decide_true, Bool.and_self, if_true, actOf_streamOf, slotOf_streamOf]
  exact ⟨lowerGate_gate .., congrArg WritePath.split (updAt_self ..)⟩

variable {m a k}

theorem servoGateOpen_idle (h : m.slotEn a k = false ∨ m.slotLocked a k = false) : servoGateOpen a k m = m := by
  rw [servoGateOpen, if_neg]
  rcases h with h | h <;> simp [h]

/-- A locked slot's gate opens, and its write gate closes in the middle of a sector. -/
theorem servoGateOpen_opens (hen : m.slotEn a k = true) (hlock : m.slotLocked a k = true) :
    ((servoGateOpen a k m).motion.srv[a].slots[k]).gateOpen = true ∧
      ∀ w, m.media.fmt[streamOf a k].writing = some w → m.is (FMT_STAT_GATE (streamOf a k).val) = true →
        w.sent + Mach.segment w < sectorLength →
        (servoGateOpen a k m).is (FMT_STAT_GATE (streamOf a k).val) = false ∧
          ((servoGateOpen a k m).media.wpath[a]).split = true := by
  rw [servoGateOpen, if_pos (by simp [hen, hlock])]
  refine ⟨?_, fun w hw hgate hrest => splitGate_closes _ a k (w := w) hw hgate hrest⟩
  rw [splitGate_srv, setSrvSlot_slot_self]

/-! ### The search for the mark (R139, R152) -/

/-- A reader in use finds the mark (SREADER 1 is X alone, 2 is Y alone). -/
def Mach.samFound (m : Mach) (a : Actuator) (x y : List Bool) : Bool :=
  match m.get (SRV_CFG_SREADER a.val) with
  | 1 => (samSearch (m.samTh a) x).isSome
  | 2 => (samSearch (m.samTh a) y).isSome
  | _ => (samSearch (m.samTh a) x).isSome || (samSearch (m.samTh a) y).isSome

theorem samFound_iff (x y : List Bool) : m.samFound a x y = true ↔
    (m.get (SRV_CFG_SREADER a.val) ≠ 2 ∧ (samSearch (m.samTh a) x).isSome = true) ∨
      (m.get (SRV_CFG_SREADER a.val) ≠ 1 ∧ (samSearch (m.samTh a) y).isSome = true) := by
  rw [Mach.samFound]
  split
  case h_1 h => simp [h]
  case h_2 h => simp [h]
  case h_3 h1 h2 => rw [Bool.or_eq_true, and_iff_right h2, and_iff_right h1]

theorem samSearchEnd_eq (x y : List Bool) : samSearchEnd a k x y m =
    if m.slotEn a k && !m.samFound a x y && k == m.wslot a then m.dropWsafe a else m := rfl

theorem samSearchEnd_missed (x y : List Bool) (hen : m.slotEn a k = true) (hk : k = m.wslot a)
    (hx : m.get (SRV_CFG_SREADER a.val) ≠ 2 → samSearch (m.samTh a) x = none)
    (hy : m.get (SRV_CFG_SREADER a.val) ≠ 1 → samSearch (m.samTh a) y = none) :
    samSearchEnd a k x y m = m.set (SRV_STAT_WSAFE a.val) 0 := by
  have hmiss : m.samFound a x y = false := by
    rw [Bool.eq_false_iff, ne_eq, samFound_iff]
    rintro (⟨hreader, h⟩ | ⟨hreader, h⟩)
    · simp [hx hreader] at h
    · simp [hy hreader] at h
  rw [samSearchEnd_eq, if_pos (by simp [hen, hmiss, ← hk]), Mach.dropWsafe]

theorem samSearchEnd_found (x y : List Bool)
    (h : m.slotEn a k = false ∨ k ≠ m.wslot a ∨
      (m.get (SRV_CFG_SREADER a.val) ≠ 2 ∧ (samSearch (m.samTh a) x).isSome = true) ∨
      (m.get (SRV_CFG_SREADER a.val) ≠ 1 ∧ (samSearch (m.samTh a) y).isSome = true)) :
    samSearchEnd a k x y m = m := by
  rw [samSearchEnd_eq, if_neg]
  rcases h with h | h | h
  · simp [h]
  · simp [h]
  · simp [(samFound_iff x y).mpr h]

/-! ### The RRO row (R145) -/

theorem rroFetchDone_waits
    (h : ((m.motion.srv[a]).slots[k]).rroFetch = none ∨ m.portQuiet (scPort a) = false) : rroFetchDone a k m = m := by
  rw [rroFetchDone]
  split
  · rfl
  case h_2 addr haddr =>
    have hport : m.portQuiet (scPort a) = false := h.resolve_left (by rw [haddr]; nofun)
    rw [if_pos (by simp [hport])]

theorem rroFetchDone_loads {addr : Nat} (haddr : ((m.motion.srv[a]).slots[k]).rroFetch = some addr)
    (hport : m.portQuiet (scPort a) = true) :
    (rroFetchDone a k m).bitAt (SRV_STAT_RRO_VALID a.val) k.val = true ∧
      (((rroFetchDone a k m).motion.srv[a]).slots[k]).rroFetch = none ∧
      (((rroFetchDone a k m).motion.srv[a]).slots[k]).rro = codes16 (m.readBytes addr (2 * m.nWedge a)).1.1 := by
  simp only [rroFetchDone, haddr, hport, Bool.not_true, Bool.false_eq_true, if_false]
  refine ⟨bitAt_setBitAt_true _ (by simp [SRV_STAT_RRO_VALID]) k.isLt, ?_, ?_⟩
  · exact congrArg SrvSlot.rroFetch (setSrvSlot_slot_self ..)
  · exact congrArg SrvSlot.rro (setSrvSlot_slot_self ..)

end

/-! ### What stands of a wedge (R143, R147, R151) -/

/-- What the last wedge has left in a slot's demodulator, and in the servo block for the post that answers it. -/
structure WedgeView where
  prevWedge : Option Nat
  since : Nat
  prevPes : Option Int
  curSeq : Option Nat
  closed : Bool
  post : Option Post

def SrvState.wedgeView (s : SrvState) (k : HeadSlot) : WedgeView where
  prevWedge := s.slots[k].prevWedge
  since := s.slots[k].since
  prevPes := s.slots[k].prevPes
  curSeq := s.curSeq
  closed := s.closed
  post := s.post

def Mach.wedgeView (m : Mach) (a : Actuator) (k : HeadSlot) : WedgeView := m.motion.srv[a].wedgeView k

/-- A register apart from those that report a wedge: the slot's SRV_PES and the actuator's SRV_STAT. -/
def ApartFromWedge (a : Actuator) (k : HeadSlot) (x : Nat) : Prop :=
  x ≠ REG_SRV_PES a.val k.val ∧ x ≠ REG_SRV_STAT a.val

/-- From `m` to `t` the wedge's report stands, and a dropped write-safe flag stays dropped. -/
structure WedgeStands (a : Actuator) (k : HeadSlot) (m t : Mach) : Prop where
  view : t.wedgeView a k = m.wedgeView a k
  pes : t.word (REG_SRV_PES a.val k.val) = m.word (REG_SRV_PES a.val k.val)
  flag : m.is (SRV_STAT_WSAFE a.val) = false → t.is (SRV_STAT_WSAFE a.val) = false

section
variable {a : Actuator} {k : HeadSlot} {m t u : Mach}

theorem WedgeStands.refl (m : Mach) : WedgeStands a k m m := ⟨rfl, rfl, id⟩

theorem WedgeStands.trans (h : WedgeStands a k m t) (h' : WedgeStands a k t u) : WedgeStands a k m u :=
  ⟨h'.view.trans h.view, h'.pes.trans h.pes, h'.flag ∘ h.flag⟩

theorem Kept.wedgeStands (h : Kept (· ≠ .motion) (ApartFromWedge a k) m t) : WedgeStands a k m t where
  view := congrArg (fun s : MotionState => s.srv[a].wedgeView k) (h.part .motion (by decide))
  pes := h.word fun hx => hx.1 rfl
  flag hm := by rw [h.is fun hx => hx.2 rfl, hm]

theorem wedgeStands_of_regs (hregs : t.regs = m.regs) (hview : t.wedgeView a k = m.wedgeView a k) :
    WedgeStands a k m t where
  view := hview
  pes := by rw [Mach.word, hregs, Mach.word]
  flag hm := by rw [Mach.is, Mach.get, Mach.word, hregs]; exact hm

theorem set_wedgeStands {l : Loc} (v : Nat) (hpes : l.addr ≠ REG_SRV_PES a.val k.val)
    (hflag : (SRV_STAT_WSAFE a.val).apart l = true) : WedgeStands a k m (m.set l v) where
  view := rfl
  pes := word_set_other _ _ hpes.symm
  flag hm := by rw [is_set _ _ hflag, hm]

theorem set_apart_wedgeStands {l : Loc} (v : Nat) (h : ApartFromWedge a k l.addr) : WedgeStands a k m (m.set l v) :=
  Kept.wedgeStands (set_kept l v (Kept.refl m) h)

theorem when_wedgeStands (c : Bool) {f : Mach → Mach} (hf : WedgeStands a k m (f m)) :
    WedgeStands a k m (m.when c f) := by
  cases c
  · exact .refl m
  · exact hf

theorem srvStat_ne_pes (a : Actuator) (k : HeadSlot) : REG_SRV_STAT a.val ≠ REG_SRV_PES a.val k.val := by
  simp only [REG_SRV_STAT, REG_SRV_PES]
  omega

theorem srvTarget_apart (a : Actuator) (k j : HeadSlot) : ApartFromWedge a k (REG_SRV_TARGET a.val j.val) := by
  simp only [ApartFromWedge, REG_SRV_TARGET, REG_SRV_PES, REG_SRV_STAT]
  omega

theorem dropWsafe_is (a : Actuator) (m : Mach) : (m.dropWsafe a).is (SRV_STAT_WSAFE a.val) = false := by
  rw [Mach.dropWsafe, Mach.is, get_set_self _ _ (by simp [SRV_STAT_WSAFE])]
  rfl

theorem dropWsafe_wedgeStands : WedgeStands a k m (m.dropWsafe a) where
  view := rfl
  pes := word_set_other _ _ (srvStat_ne_pes a k).symm
  flag _ := dropWsafe_is a m

theorem setSrv_wedgeView (m : Mach) (a : Actuator) (f : SrvState → SrvState) (k : HeadSlot) :
    (m.setSrv a f).wedgeView a k = (f m.motion.srv[a]).wedgeView k := by
  rw [Mach.wedgeView, setSrv_srv_self]

theorem setSrv_wedgeStands {f : SrvState → SrvState} (hf : ∀ s, (f s).wedgeView k = s.wedgeView k) :
    WedgeStands a k m (m.setSrv a f) :=
  wedgeStands_of_regs rfl ((setSrv_wedgeView ..).trans (hf _))

/-- A slot's change that leaves its last wedge. -/
theorem setSrvSlot_wedgeStands (j : HeadSlot) {f : SrvSlot → SrvSlot}
    (hf : ∀ s, (f s).prevWedge = s.prevWedge ∧ (f s).since = s.since ∧ (f s).prevPes = s.prevPes) :
    WedgeStands a k m (m.setSrvSlot a j f) := by
  refine setSrv_wedgeStands fun s => ?_
  by_cases hj : k = j
  · subst hj
    obtain ⟨hwedge, hsince, hpes⟩ := hf s.slots[k]
    simp only [SrvState.wedgeView, updAt_self, hwedge, hsince, hpes]
  · simp only [SrvState.wedgeView, updAt_other hj]

/-! ### What a fault of the actuator leaves of the wedge (R149, R178) -/

theorem setBitAt_stat_wedgeStands {l : Loc} (i : Nat) (b : Bool) (haddr : l.addr = REG_SRV_STAT a.val) (hlo : 1 ≤ l.lo) :
    WedgeStands a k m (m.setBitAt l i b) :=
  set_wedgeStands _ (haddr ▸ srvStat_ne_pes a k) (by simp [Loc.apart, SRV_STAT_WSAFE, hlo])

theorem writeTarget_wedgeStands (j : HeadSlot) (v : Nat) : WedgeStands a k m (m.writeTarget a j v) := by
  rw [Mach.writeTarget]
  refine .trans ?_ (when_wedgeStands _ dropWsafe_wedgeStands)
  refine .trans ?_ (setSrvSlot_wedgeStands j fun s => ⟨rfl, rfl, rfl⟩)
  refine .trans ?_ (setBitAt_stat_wedgeStands _ _ rfl (Nat.le_of_ble_eq_true rfl))
  refine .trans ?_ (setBitAt_stat_wedgeStands _ _ rfl (Nat.le_of_ble_eq_true rfl))
  exact set_apart_wedgeStands _ (srvTarget_apart a k j)

theorem restoreHead_wedgeStands : WedgeStands a k m (m.restoreHead a) := by
  rw [Mach.restoreHead]
  split
  · exact .refl m
  · split
    · exact .refl m
    · exact .trans (when_wedgeStands _ (writeTarget_wedgeStands _ _)) (wedgeStands_of_regs rfl rfl)

/-- Every register that a fault of the actuator writes beside the flag and the targets. -/
theorem faultRegs_apart (a : Actuator) (k : HeadSlot) :
    (∀ i, i < 8 → ApartFromWedge a k (REG_CHN_SMEM i)) ∧ (∀ i, i < 8 → ApartFromWedge a k (REG_FMT_CTRL i)) ∧
      ApartFromWedge a k REG_DEC_BUSY ∧ (∀ i, i < 4 → ApartFromWedge a k (REG_LAD_STAT i)) ∧
      (∀ i, i < 4 → ApartFromWedge a k (REG_QDR_ACT i)) ∧ (∀ i, i < 4 → ApartFromWedge a k (REG_QDR_OUT i)) ∧
      (∀ i, i < 4 → ApartFromWedge a k (REG_VCM_MA i)) ∧ (∀ i, i < 4 → ApartFromWedge a k (REG_VCM_STAT i)) ∧
      ApartFromWedge a k (REG_SRV_FAULT a.val) := by
  simp only [ApartFromWedge, REG_CHN_SMEM, REG_FMT_CTRL, REG_DEC_BUSY, REG_LAD_STAT, REG_QDR_ACT, REG_QDR_OUT,
    REG_VCM_MA, REG_VCM_STAT, REG_SRV_FAULT, REG_SRV_PES, REG_SRV_STAT]
  refine ⟨?_, ?_, ?_, ?_, ?_, ?_, ?_, ?_, ?_⟩ <;> omega

theorem withdrawAll_wedgeStands : WedgeStands a k m (m.withdrawAll a) := by
  obtain ⟨hsmem, -, hbusy, hlad, -⟩ := faultRegs_apart a k
  simp only [Mach.withdrawAll, Mach.withdrawNow]
  refine .trans ?_ (Kept.wedgeStands (Mach.syncLad_kept a hlad (Mach.syncDec_kept hbusy (Mach.setLad_kept a _ (by decide)
    (Mach.dropRequests_kept a _ (by decide) (foldl_kept (fun _ _ h => Mach.freeJobSlots_kept a _ (by decide) hsmem h)
      (Kept.refl _)))))))
  split
  · split
    · exact restoreHead_wedgeStands
    · exact .refl m
  · exact .refl m

theorem abortProfile_wedgeStands : WedgeStands a k m (m.abortProfile a) := by
  simp only [Mach.abortProfile]
  split
  · exact wedgeStands_of_regs rfl rfl
  · exact .refl m

theorem clearQdrOut_wedgeStands : WedgeStands a k m (m.clearQdrOut a) := by
  obtain ⟨-, -, -, -, -, hout, -⟩ := faultRegs_apart a k
  rw [Mach.clearQdrOut]
  refine .trans ?_ (set_apart_wedgeStands _ (hout _ a.isLt))
  refine .trans ?_ (set_apart_wedgeStands _ (hout _ a.isLt))
  exact wedgeStands_of_regs rfl rfl

/-- A fault stops the actuator and its ladder, and drops the flag; the wedge stands as it was read. -/
theorem actuatorFault_wedgeStands (cause : Nat) : WedgeStands a k m (m.actuatorFault a cause) := by
  obtain ⟨-, hctrl, -, -, hact, -, hma, hstat, hfault⟩ := faultRegs_apart a k
  simp only [Mach.actuatorFault]
  have hlatch : WedgeStands a k m (m.set ⟨REG_SRV_FAULT a.val, cause, 1⟩ 1) := set_apart_wedgeStands 1 hfault
  split
  · exact hlatch.trans (wedgeStands_of_regs rfl rfl)
  · refine .trans ?_ (Kept.wedgeStands (Mach.syncAct_kept a (by decide) hact (Mach.stopFormatters_kept a (by decide)
      hctrl (Kept.refl _))))
    refine .trans ?_ clearQdrOut_wedgeStands
    refine .trans ?_ withdrawAll_wedgeStands
    refine .trans ?_ abortProfile_wedgeStands
    refine .trans ?_ (Kept.wedgeStands (Mach.startRetract_kept a (by decide) hma hstat (Mach.setMaRef_kept a _ (by decide)
      hma (Kept.refl _))))
    refine .trans ?_ dropWsafe_wedgeStands
    refine .trans ?_ (setSrv_wedgeStands fun _ => rfl)
    exact hlatch.trans (wedgeStands_of_regs rfl rfl)

theorem leadFaults_wedgeStands (pes : Option Int) : WedgeStands a k m (m.leadFaults a pes) := by
  simp only [Mach.leadFaults]
  refine .trans ?_ (when_wedgeStands _ (actuatorFault_wedgeStands 2))
  refine .trans ?_ (when_wedgeStands _ (actuatorFault_wedgeStands 1))
  exact setSrv_wedgeStands fun _ => rfl

theorem deltaAt_wedgeStands : WedgeStands a k m (m.deltaAt a) :=
  Kept.wedgeStands (Mach.deltaAt_kept a (by decide) (Kept.refl m))

/-! ### What follows a step of the actuators leaves the wedge (R300, R306, R314, R178) -/

/-- The followers' registers of the host link, the save block, the power mode and the command table are not the servo's. -/
theorem followRegs_apart (a : Actuator) (k : HeadSlot) :
    (∀ x ∈ [REG_KSV_CTRL, REG_KSV_GENHI, REG_KSV_GENLO, REG_KSV_LIMIT, REG_PWR_MODE, REG_QSQ_CMDTAB],
        ApartFromWedge a k x) ∧
      (∀ i, i < 2 → ApartFromWedge a k (REG_HIF_LINK i)) := by
  simp only [ApartFromWedge, List.forall_mem_cons, REG_KSV_CTRL, REG_KSV_GENHI, REG_KSV_GENLO, REG_KSV_LIMIT,
    REG_PWR_MODE, REG_QSQ_CMDTAB, REG_HIF_LINK, REG_SRV_PES, REG_SRV_STAT]
  refine ⟨⟨?_, ?_, ?_, ?_, ?_, ?_, by simp⟩, ?_⟩ <;> omega

theorem fmtBlock_apart (a : Actuator) (k : HeadSlot) (n : Stream) : ∀ x ∈ fmtBlock n.val, ApartFromWedge a k x := by
  have hbelow : ∀ x ∈ fmtBlock n.val, x < 0x40280000 := by
    simp only [fmtBlock, List.forall_mem_cons, REG_RST_BLKSTAT0, REG_RST_ERR, REG_SEQ_STAT, seqBase, if_pos n.isLt,
      REG_FMT_CTRL, REG_FMT_STAT, REG_FMT_GEOM, REG_FMT_SKEW, REG_FMT_PRECOMP, REG_FMT_RING_BASE, REG_FMT_RING_CFG,
      REG_FMT_RING_TAIL, REG_FMT_RING_HEAD, REG_FMT_DMAP_BASE, REG_FMT_DMAP_COUNT, REG_FMT_CUR, REG_FMT_CNT_WR,
      REG_FMT_CNT_ABORT, REG_FMT_CNT_MISS, REG_FMT_CNTCLR, REG_FMT_ERR, List.not_mem_nil, false_implies, implies_true,
      and_true]
    have hn := n.isLt
    omega
  intro x hx
  have hlt := hbelow x hx
  simp only [ApartFromWedge, REG_SRV_PES, REG_SRV_STAT]
  omega

/-- The notices that follow a step change the controllers and the command side alone. -/
theorem followService_apart {x : Mach} (h : Kept (· ≠ .motion) (ApartFromWedge a k) m t) :
    Kept (· ≠ .motion) (ApartFromWedge a k) m (Mach.followService x t) := by
  have hqsq : ApartFromWedge a k REG_QSQ_CMDTAB := (followRegs_apart a k).1 _ (by simp)
  have hnotice := Mach.scekaNotice_kept 0xC1 0xC2 (by decide) (by decide) hqsq
    (Mach.syncZones_kept (by decide) (by decide) h)
  have hana (c : Bool) := when_kept c
    (fun _ hm => Mach.asyncBoth_kept (some 11) 2 0x03 0x0C (by decide) (by decide) hqsq hm) hnotice
  simp only [Mach.followService]
  split
  · exact h
  · split
    · exact Mach.criticalWarning_kept 2 (by decide) (by decide) hqsq (hana _)
    · exact Mach.setCmdState_kept _ (by decide) (hana _)

theorem followChopper_apart {x : Mach} (h : Kept (· ≠ .motion) (ApartFromWedge a k) m t) :
    Kept (· ≠ .motion) (ApartFromWedge a k) m (Mach.followChopper x t) := by
  have hqsq : ApartFromWedge a k REG_QSQ_CMDTAB := (followRegs_apart a k).1 _ (by simp)
  rw [Mach.followChopper]
  exact ite_kept (Mach.criticalWarning_kept 2 (by decide) (by decide) hqsq
    (Mach.scekaNotice_kept 0xC2 0xC2 (by decide) (by decide) hqsq h)) h

/-- The followers of a step write neither the servo's registers nor its state. -/
theorem watched_wedgeStands (f : Mach → Mach) : WedgeStands a k (f m) (Mach.watched f m) := by
  obtain ⟨hone, hlink⟩ := followRegs_apart a k
  obtain ⟨-, -, -, -, -, -, hma, hstat, -⟩ := faultRegs_apart a k
  refine Kept.wedgeStands (Mach.faultResets_kept (by decide) (by decide) (by decide) (by decide) (fmtBlock_apart a k)
    (followChopper_apart ?_))
  exact Mach.actuatorsChanged_kept (by decide) (by decide) (by decide) (by decide) (by decide) (by decide) hlink
    (hone _ (by simp)) (hone _ (by simp)) (hone _ (by simp)) (hone _ (by simp)) (hone _ (by simp)) (hone _ (by simp))
    hma hstat (followService_apart (Kept.refl (f m)))

end

/-! ### What a PES-ready does (R138–R145, R149–R153) -/

/-- The PES-ready of an enabled slot seeds T_est and raises its event before it reads the field (R138, R144). -/
def Mach.beginWedge (m : Mach) (a : Actuator) (k : HeadSlot) : Mach :=
  (m.seedTest a).report (Mach.actSource a (2 + k.val))

/-- The write of SRV_PES and SRV_POS (R143). -/
def Mach.reportWedge (m : Mach) (a : Actuator) (k : HeadSlot) (pes : Int) (seq : Nat) (valid : Bool)
    (src pos : Nat) : Mach :=
  ((((m.setS (SRV_PES_PES a.val k.val) pes).set (SRV_PES_SEQ a.val k.val) (seq % 256)).setFlag
    (SRV_PES_VALID a.val k.val) valid).set (SRV_PES_SRC a.val k.val) src).set (SRV_POS_POS a.val k.val) pos

/-- A valid wedge at its slot: its report, the demodulator's step, and the write-safe flag of the WSLOT slot. -/
def Mach.readWedge (m : Mach) (a : Actuator) (k : HeadSlot) (spacing y src wedge w : Nat) (pes : Int)
    (code : Nat) : Mach :=
  let m := (m.reportWedge a k pes wedge true src y).validWedge a k spacing y wedge w pes
  (m.when (k == m.wslot a) fun m => m.setFlag (SRV_STAT_WSAFE a.val) (m.writeSafe a k pes code)).setSrvSlot a k
    fun s => { s with prevPes := some pes }

/-- A missed wedge at its slot: its report, the demodulator's step, and the dropped flag of the WSLOT slot. -/
def Mach.missWedge (m : Mach) (a : Actuator) (k : HeadSlot) (seq : Nat) : Mach :=
  let m := (m.reportWedge a k 0 seq false 3 0).missedWedge a k
  (m.when (k == m.wslot a) (·.dropWsafe a)).setSrvSlot a k fun s => { s with prevPes := none }

/-- The lead slot's wedge opens the post that answers it (R147). -/
def Mach.openPost (m : Mach) (a : Actuator) (seq : Nat) : Mach :=
  m.setSrv a fun s => { s with curSeq := some (seq % 256), closed := false, post := none }

section
variable {m t : Mach} {a : Actuator} {k : HeadSlot}

theorem pesReady_disabled (f : WedgeField) (h : m.slotEn a k = false) : pesReady a k f m = m := by
  rw [pesReady, if_pos (by simp [h])]

/-- The field is read by registers that T_est is not among. -/
theorem beginWedge_keeps (m : Mach) (a : Actuator) (k : HeadSlot) :
    Kept (· = .reports) (fun x => ∃ i, i < 4 ∧ x = REG_SRV_TEST i) m (m.beginWedge a k) :=
  report_kept _ (Mach.seedTest_kept a (fun i hi => ⟨i, hi, rfl⟩) (Kept.refl m)) rfl

theorem beginWedge_motion : (m.beginWedge a k).motion = m.motion := (beginWedge_keeps m a k).part .motion (by decide)

/-- The registers that a wedge is read by. -/
def readRegs (a : Actuator) (k : HeadSlot) : List Nat :=
  [REG_SRV_CTRL a.val, REG_SRV_CFG a.val, REG_SRV_TARGET a.val k.val, REG_SRV_ROFS a.val k.val, REG_SRV_STAT a.val]

theorem readRegs_ne_test (a : Actuator) (k : HeadSlot) : ∀ x ∈ readRegs a k, ∀ i, i < 4 → x ≠ REG_SRV_TEST i := by
  simp only [readRegs, List.forall_mem_cons, REG_SRV_CTRL, REG_SRV_CFG, REG_SRV_TARGET, REG_SRV_ROFS, REG_SRV_STAT,
    REG_SRV_TEST]
  refine ⟨?_, ?_, ?_, ?_, ?_, by simp⟩ <;> omega

theorem beginWedge_word {x : Nat} (h : x ∈ readRegs a k) : (m.beginWedge a k).word x = m.word x :=
  (beginWedge_keeps m a k).word fun ⟨i, hi, hx⟩ => readRegs_ne_test a k x h i hi hx

theorem beginWedge_get {l : Loc} (h : l.addr ∈ readRegs a k) : (m.beginWedge a k).get l = m.get l :=
  get_of_word (beginWedge_word h)

/-- Demodulation reads the field, the slot's demodulator and three registers. -/
theorem demodulate_congr (f : WedgeField) (hmotion : t.motion = m.motion)
    (hcfg : t.word (REG_SRV_CFG a.val) = m.word (REG_SRV_CFG a.val))
    (hrofs : t.word (REG_SRV_ROFS a.val k.val) = m.word (REG_SRV_ROFS a.val k.val))
    (hstat : t.word (REG_SRV_STAT a.val) = m.word (REG_SRV_STAT a.val)) :
    t.demodulate a k f = m.demodulate a k f := by
  have hsam : t.samTh a = m.samTh a := congrArg (min 2) (get_of_word (l := SRV_CFG_SAM_TH a.val) hcfg)
  have hlock : t.slotLocked a k = m.slotLocked a k :=
    congrArg (Nat.testBit · k.val) (get_of_word (l := SRV_STAT_LOCK a.val) hstat)
  have hwedges : t.nWedge a = m.nWedge a :=
    congrArg (fun n => max 320 (min 1024 n)) (get_of_word (l := SRV_CFG_NWEDGE a.val) hcfg)
  have hnext : t.wedgeExpected a k = m.wedgeExpected a k := by
    rw [Mach.wedgeExpected, hmotion, hwedges, Mach.wedgeExpected]
  have hvalid (r : ReaderField) : t.readerValid a k r = m.readerValid a k r := by
    rw [Mach.readerValid, hmotion, hlock, hsam, hnext, Mach.readerValid]
  simp only [Mach.demodulate, hvalid, Mach.getS, get_of_word (l := SRV_CFG_SREADER a.val) hcfg,
    get_of_word (l := SRV_ROFS_XOFS a.val k.val) hrofs, get_of_word (l := SRV_ROFS_YOFS a.val k.val) hrofs]

theorem beginWedge_demodulate (f : WedgeField) : (m.beginWedge a k).demodulate a k f = m.demodulate a k f :=
  demodulate_congr f beginWedge_motion (beginWedge_word (by simp [readRegs])) (beginWedge_word (by simp [readRegs]))
    (beginWedge_word (by simp [readRegs]))

theorem beginWedge_leadSlot : (m.beginWedge a k).leadSlot a = m.leadSlot a :=
  congrArg (Fin.ofNat 2) (beginWedge_get (by simp [readRegs, SRV_CFG_LEAD]))

theorem beginWedge_wslot : (m.beginWedge a k).wslot a = m.wslot a :=
  congrArg (Fin.ofNat 2) (beginWedge_get (by simp [readRegs, SRV_CTRL_WSLOT]))

theorem beginWedge_targetInUse : (m.beginWedge a k).targetInUse a k = m.targetInUse a k := by
  obtain ⟨-, -, hclock, -⟩ := beginWedge_keeps m a k
  rw [Mach.targetInUse, beginWedge_motion, hclock, beginWedge_get (by simp [readRegs, SRV_TARGET_TARGET]),
    Mach.targetInUse]

theorem beginWedge_rroCode (wedge : Nat) : (m.beginWedge a k).rroCode a k wedge = m.rroCode a k wedge := by
  rw [Mach.rroCode, beginWedge_motion, Mach.bitAt, beginWedge_get (by simp [readRegs, SRV_STAT_RRO_VALID]),
    Mach.rroCode, Mach.bitAt]

/-- The position error of a wedge (R143, R145). -/
def Mach.pesOf (m : Mach) (a : Actuator) (k : HeadSlot) (y : Int) (wedge : Nat) : Int :=
  clampInt (-32767) 32767 (y - (m.targetInUse a k : Nat) - Mach.rroValue (m.rroCode a k wedge))

theorem pesOf_bounds (m : Mach) (a : Actuator) (k : HeadSlot) (y : Int) (wedge : Nat) :
    -32767 ≤ m.pesOf a k y wedge ∧ m.pesOf a k y wedge ≤ 32767 := clampInt_bounds _ (by decide)

/-- The branch of a valid wedge: the slot takes it, and the lead slot opens the post. -/
theorem pesReady_valid {f : WedgeField} {y : Int} {src wedge w : Nat} (hen : m.slotEn a k = true)
    (hd : m.demodulate a k f = some (y, src, wedge, w)) :
    pesReady a k f m =
      ((m.beginWedge a k).readWedge a k f.spacing y.toNat src wedge w (m.pesOf a k y wedge)
        (m.rroCode a k wedge)).when (k == m.leadSlot a) fun u =>
          (((u.set (SRV_STAT_WEDGE a.val) wedge).openPost a wedge).deltaAt a).leadFaults a
            (some (m.pesOf a k y wedge)) := by
  have hbegin : (m.beginWedge a k).demodulate a k f = some (y, src, wedge, w) := (beginWedge_demodulate f).trans hd
  rw [Mach.pesOf, ← beginWedge_targetInUse, ← beginWedge_rroCode, ← beginWedge_leadSlot (k := k), pesReady,
    if_neg (by simp [hen])]
  rw [Mach.beginWedge] at hbegin
  simp only [hbegin]
  rfl

/-- The branch of a missed wedge; its SEQ is the wedge expected, or a free value where none is (R140). -/
theorem pesReady_missed {f : WedgeField} (hen : m.slotEn a k = true) (hd : m.demodulate a k f = none) :
    ∃ (u : Mach) (seq : Nat), u.motion = m.motion ∧ u.wslot a = m.wslot a ∧
      pesReady a k f m =
        (u.missWedge a k seq).when (k == m.leadSlot a) fun t => (t.openPost a seq).leadFaults a none := by
  have hbegin : (m.beginWedge a k).demodulate a k f = none := (beginWedge_demodulate f).trans hd
  rw [← beginWedge_leadSlot (k := k), ← beginWedge_motion (a := a) (k := k), ← beginWedge_wslot (k := k), pesReady,
    if_neg (by simp [hen])]
  rw [Mach.beginWedge] at hbegin ⊢
  simp only [hbegin]
  refine ⟨_, _, ?motion, ?wslot, rfl⟩
  case motion => exact when_keeps (g := Mach.motion) rfl
  case wslot => exact when_keeps (g := (·.wslot a)) rfl

/-! ### The report reads back (R143) -/

section
variable (m : Mach) (a : Actuator) (k : HeadSlot) {pes : Int} (seq : Nat) (valid : Bool) (src pos : Nat)

theorem reportWedge_get {l : Loc} (haddr : l.addr = REG_SRV_PES a.val k.val) :
    (m.reportWedge a k pes seq valid src pos).get l =
      ((((m.setS (SRV_PES_PES a.val k.val) pes).set (SRV_PES_SEQ a.val k.val) (seq % 256)).setFlag
        (SRV_PES_VALID a.val k.val) valid).set (SRV_PES_SRC a.val k.val) src).get l := by
  have hpos : l.addr ≠ REG_SRV_POS a.val k.val := by
    rw [haddr, REG_SRV_PES, REG_SRV_POS]
    omega
  exact get_set_addr _ _ hpos

/-- The four fields of SRV_PES show the report. -/
theorem reportWedge_shows {t : Mach}
    (ht : t.word (REG_SRV_PES a.val k.val) = (m.reportWedge a k pes seq valid src pos).word (REG_SRV_PES a.val k.val)) :
    t.get (SRV_PES_PES a.val k.val) = codeOf 16 pes % 2 ^ 16 ∧ t.get (SRV_PES_SRC a.val k.val) = src % 4 ∧
      t.get (SRV_PES_SEQ a.val k.val) = seq % 256 ∧ t.is (SRV_PES_VALID a.val k.val) = valid := by
  have hget {l : Loc} (haddr : l.addr = REG_SRV_PES a.val k.val) :
      t.get l = (m.reportWedge a k pes seq valid src pos).get l := get_of_word (by rw [haddr, ht])
  refine ⟨?_, ?_, ?_, ?_⟩
  · rw [hget rfl, reportWedge_get _ _ _ _ _ _ _ rfl, get_set _ _ (by simp [Loc.apart, SRV_PES_PES, SRV_PES_SRC]),
      get_setFlag _ _ (by simp [Loc.apart, SRV_PES_PES, SRV_PES_VALID]),
      get_set _ _ (by simp [Loc.apart, SRV_PES_PES, SRV_PES_SEQ]), Mach.setS, get_set_self _ _ (by simp [SRV_PES_PES])]
    rfl
  · rw [hget rfl, reportWedge_get _ _ _ _ _ _ _ rfl, get_set_self _ _ (by simp [SRV_PES_SRC])]
    rfl
  · rw [hget rfl, reportWedge_get _ _ _ _ _ _ _ rfl, get_set _ _ (by simp [Loc.apart, SRV_PES_SEQ, SRV_PES_SRC]),
      get_setFlag _ _ (by simp [Loc.apart, SRV_PES_SEQ, SRV_PES_VALID]), get_set_self _ _ (by simp [SRV_PES_SEQ])]
    exact Nat.mod_mod ..
  · rw [Mach.is, hget rfl, reportWedge_get _ _ _ _ _ _ _ rfl,
      get_set _ _ (by simp [Loc.apart, SRV_PES_VALID, SRV_PES_SRC])]
    exact is_setFlag_self _ valid (by simp [SRV_PES_VALID]) rfl

end

/-! ### A valid wedge (R143–R145, R147) -/

theorem srvRegs_ne_pes (a : Actuator) (k : HeadSlot) :
    (∀ i, i < 4 → REG_SRV_STAT i ≠ REG_SRV_PES a.val k.val) ∧ (∀ i, i < 4 → REG_SRV_TEST i ≠ REG_SRV_PES a.val k.val) ∧
      ∀ i, i < 4 → REG_SRV_CNT i ≠ REG_SRV_PES a.val k.val := by
  simp only [REG_SRV_STAT, REG_SRV_TEST, REG_SRV_CNT, REG_SRV_PES]
  refine ⟨?_, ?_, ?_⟩ <;> omega

section
variable (m : Mach) (spacing y src wedge w : Nat) (pes : Int) (code : Nat)

theorem readWedge_pes : (m.readWedge a k spacing y src wedge w pes code).word (REG_SRV_PES a.val k.val) =
    (m.reportWedge a k pes wedge true src y).word (REG_SRV_PES a.val k.val) := by
  obtain ⟨hstat, htest, -⟩ := srvRegs_ne_pes a k
  have hkept : Kept (fun _ => True) (· ≠ REG_SRV_PES a.val k.val) (m.reportWedge a k pes wedge true src y)
      (m.readWedge a k spacing y src wedge w pes code) :=
    Mach.setSrvSlot_kept a k _ trivial (when_kept _ (fun _ h => setFlag_kept _ _ h (hstat _ a.isLt))
      (Mach.validWedge_kept a k spacing y wedge w pes trivial hstat htest (Kept.refl _)))
  exact hkept.word (by simp)

theorem validWedge_slot : ((m.validWedge a k spacing y wedge w pes).motion.srv[a].slots[k]).prevWedge = some wedge ∧
    ((m.validWedge a k spacing y wedge w pes).motion.srv[a].slots[k]).since = 0 :=
  ⟨congrArg SrvSlot.prevWedge (setSrvSlot_slot_self ..), congrArg SrvSlot.since (setSrvSlot_slot_self ..)⟩

theorem readWedge_view : ((m.readWedge a k spacing y src wedge w pes code).wedgeView a k).prevWedge = some wedge ∧
    ((m.readWedge a k spacing y src wedge w pes code).wedgeView a k).since = 0 := by
  obtain ⟨hwedge, hsince⟩ := validWedge_slot (a := a) (k := k) (m.reportWedge a k pes wedge true src y) spacing y
    wedge w pes
  simp only [Mach.readWedge, Mach.wedgeView, SrvState.wedgeView, setSrvSlot_slot_self]
  rw [when_keeps (g := Mach.motion) rfl]
  exact ⟨hwedge, hsince⟩

end

theorem openPost_view (m : Mach) (a : Actuator) (k : HeadSlot) (seq : Nat) : (m.openPost a seq).wedgeView a k =
    { m.wedgeView a k with curSeq := some (seq % 256), closed := false, post := none } := setSrv_wedgeView ..

theorem openPost_word (m : Mach) (a : Actuator) (seq x : Nat) : (m.openPost a seq).word x = m.word x := rfl

theorem setSrvSlot_is (m : Mach) (a : Actuator) (k : HeadSlot) (f : SrvSlot → SrvSlot) (l : Loc) :
    (m.setSrvSlot a k f).is l = m.is l := rfl

/-- Behind the report and the opened post, the faults of the lead slot leave the wedge as it stands at `u`. -/
theorem pesReady_valid_stands {f : WedgeField} {y : Int} {src wedge w : Nat} (hen : m.slotEn a k = true)
    (hd : m.demodulate a k f = some (y, src, wedge, w)) :
    ∃ u : Mach, WedgeStands a k u (pesReady a k f m) ∧
      u.word (REG_SRV_PES a.val k.val) = ((m.beginWedge a k).reportWedge a k (m.pesOf a k y wedge) wedge true src
        y.toNat).word (REG_SRV_PES a.val k.val) ∧
      (u.wedgeView a k).prevWedge = some wedge ∧ (u.wedgeView a k).since = 0 ∧
      (k = m.leadSlot a → (u.wedgeView a k).curSeq = some (wedge % 256) ∧ (u.wedgeView a k).closed = false ∧
        (u.wedgeView a k).post = none) := by
  rw [pesReady_valid hen hd]
  have hpes := readWedge_pes (a := a) (k := k) (m.beginWedge a k) f.spacing y.toNat src wedge w (m.pesOf a k y wedge)
    (m.rroCode a k wedge)
  have hview := readWedge_view (a := a) (k := k) (m.beginWedge a k) f.spacing y.toNat src wedge w (m.pesOf a k y wedge)
    (m.rroCode a k wedge)
  generalize (m.beginWedge a k).readWedge a k f.spacing y.toNat src wedge w (m.pesOf a k y wedge)
    (m.rroCode a k wedge) = r at hpes hview ⊢
  obtain ⟨hwedge, hsince⟩ := hview
  by_cases hlead : k = m.leadSlot a
  · rw [when_true (by simpa using hlead)]
    refine ⟨(r.set (SRV_STAT_WEDGE a.val) wedge).openPost a wedge,
      deltaAt_wedgeStands.trans (leadFaults_wedgeStands _), ?_, ?_⟩
    · rw [openPost_word, word_set_other _ _ (srvStat_ne_pes a k).symm, hpes]
    · rw [openPost_view]
      exact ⟨hwedge, hsince, fun _ => ⟨rfl, rfl, rfl⟩⟩
  · rw [when_false (by simpa using hlead)]
    exact ⟨r, .refl r, hpes, hwedge, hsince, fun h => absurd h hlead⟩

theorem pesReady_valid_effect {f : WedgeField} {y : Int} {src wedge w : Nat} (hen : m.slotEn a k = true)
    (hd : m.demodulate a k f = some (y, src, wedge, w)) {t : Mach} (ht : Mach.watched (pesReady a k f) m = t) :
    t.getS (SRV_PES_PES a.val k.val) = m.pesOf a k y wedge ∧ t.get (SRV_PES_SRC a.val k.val) = src % 4 ∧
      t.get (SRV_PES_SEQ a.val k.val) = wedge % 256 ∧ t.is (SRV_PES_VALID a.val k.val) = true ∧
      ((t.motion.srv[a]).slots[k]).prevWedge = some wedge ∧ ((t.motion.srv[a]).slots[k]).since = 0 ∧
      (k = m.leadSlot a → (t.motion.srv[a]).curSeq = some (wedge % 256) ∧ (t.motion.srv[a]).closed = false ∧
        (t.motion.srv[a]).post = none) := by
  obtain ⟨u, hstands, hpes, hview⟩ := pesReady_valid_stands hen hd
  replace hstands : WedgeStands a k u t := ht ▸ hstands.trans (watched_wedgeStands _)
  obtain ⟨hcode, hsrc, hseq, hvalid⟩ := reportWedge_shows _ a k wedge true src y.toNat (hstands.pes.trans hpes)
  have hshown : t.getS (SRV_PES_PES a.val k.val) = m.pesOf a k y wedge := by
    obtain ⟨hlo, hhi⟩ := pesOf_bounds m a k y wedge
    rw [Mach.getS, hcode]
    exact signedOf_codeOf16 (by omega) (by omega)
  rw [← hstands.view] at hview
  exact ⟨hshown, hsrc, hseq, hvalid, hview⟩

/-! ### A missed wedge (R140, R152) -/

section
variable (m : Mach) (seq : Nat)

theorem missRegs_ne_ctrl (a : Actuator) (k : HeadSlot) :
    REG_SRV_PES a.val k.val ≠ REG_SRV_CTRL a.val ∧ REG_SRV_POS a.val k.val ≠ REG_SRV_CTRL a.val ∧
      (∀ i, i < 4 → REG_SRV_CNT i ≠ REG_SRV_CTRL a.val) ∧ ∀ i, i < 4 → REG_SRV_STAT i ≠ REG_SRV_CTRL a.val := by
  simp only [REG_SRV_PES, REG_SRV_POS, REG_SRV_CNT, REG_SRV_STAT, REG_SRV_CTRL]
  refine ⟨?_, ?_, ?_, ?_⟩ <;> omega

theorem missWedge_pes : (m.missWedge a k seq).word (REG_SRV_PES a.val k.val) =
    (m.reportWedge a k 0 seq false 3 0).word (REG_SRV_PES a.val k.val) := by
  obtain ⟨hstat, -, hcnt⟩ := srvRegs_ne_pes a k
  have hkept : Kept (fun _ => True) (· ≠ REG_SRV_PES a.val k.val) (m.reportWedge a k 0 seq false 3 0)
      (m.missWedge a k seq) :=
    Mach.setSrvSlot_kept a k _ trivial (when_kept _ (fun _ h => set_kept _ _ h (hstat _ a.isLt))
      (Mach.missedWedge_kept a k trivial hcnt hstat (Kept.refl _)))
  exact hkept.word (by simp)

theorem missedWedge_since : ((m.missedWedge a k).motion.srv[a].slots[k]).since =
    ((m.motion.srv[a]).slots[k]).since + 1 :=
  congrArg SrvSlot.since (setSrvSlot_slot_self ..)

theorem missWedge_view : ((m.missWedge a k seq).wedgeView a k).since = ((m.motion.srv[a]).slots[k]).since + 1 ∧
    ((m.missWedge a k seq).wedgeView a k).prevPes = none := by
  simp only [Mach.missWedge, Mach.wedgeView, SrvState.wedgeView, setSrvSlot_slot_self, and_true]
  rw [when_keeps (g := Mach.motion) rfl, missedWedge_since]
  rfl

theorem missedWedge_wslot : ((m.reportWedge a k 0 seq false 3 0).missedWedge a k).wslot a = m.wslot a := by
  obtain ⟨hpes, hpos, hcnt, hstat⟩ := missRegs_ne_ctrl a k
  have hkept : Kept (fun _ => True) (· ≠ REG_SRV_CTRL a.val) m ((m.reportWedge a k 0 seq false 3 0).missedWedge a k) :=
    Mach.missedWedge_kept a k trivial hcnt hstat (set_kept _ _ (set_kept _ _ (setFlag_kept _ _ (set_kept _ _
      (setS_kept _ _ (Kept.refl m) hpes) hpes) hpes) hpes) hpos)
  exact congrArg (Fin.ofNat 2) (hkept.get (by simp [SRV_CTRL_WSLOT]))

theorem missWedge_flag (hk : k = m.wslot a) : (m.missWedge a k seq).is (SRV_STAT_WSAFE a.val) = false := by
  rw [Mach.missWedge, missedWedge_wslot, setSrvSlot_is, when_true (by simpa using hk), dropWsafe_is]

end

theorem openPost_is (m : Mach) (a : Actuator) (seq : Nat) (l : Loc) : (m.openPost a seq).is l = m.is l := rfl

theorem pesReady_missed_stands {f : WedgeField} (hen : m.slotEn a k = true) (hd : m.demodulate a k f = none) :
    ∃ (u v : Mach) (seq : Nat), WedgeStands a k u (pesReady a k f m) ∧
      u.word (REG_SRV_PES a.val k.val) = (v.reportWedge a k 0 seq false 3 0).word (REG_SRV_PES a.val k.val) ∧
      (u.wedgeView a k).since = ((m.motion.srv[a]).slots[k]).since + 1 ∧ (u.wedgeView a k).prevPes = none ∧
      (k = m.wslot a → u.is (SRV_STAT_WSAFE a.val) = false) := by
  obtain ⟨v, seq, hmotion, hwslot, heq⟩ := pesReady_missed hen hd
  have hpes := missWedge_pes (a := a) (k := k) v seq
  have hflag := missWedge_flag (a := a) (k := k) v seq
  obtain ⟨hsince, hprev⟩ := missWedge_view (a := a) (k := k) v seq
  rw [heq, ← hmotion, ← hwslot]
  generalize v.missWedge a k seq = r at hpes hflag hsince hprev ⊢
  by_cases hlead : k = m.leadSlot a
  · rw [when_true (by simpa using hlead)]
    refine ⟨r.openPost a seq, v, seq, leadFaults_wedgeStands _, ?_, ?_, ?_, ?_⟩
    · rw [openPost_word, hpes]
    · rw [openPost_view, hsince]
    · rw [openPost_view, hprev]
    · rwa [openPost_is]
  · rw [when_false (by simpa using hlead)]
    exact ⟨r, v, seq, .refl r, hpes, hsince, hprev, hflag⟩

theorem pesReady_missed_effect {f : WedgeField} (hen : m.slotEn a k = true) (hd : m.demodulate a k f = none)
    {t : Mach} (ht : Mach.watched (pesReady a k f) m = t) :
    t.is (SRV_PES_VALID a.val k.val) = false ∧ t.get (SRV_PES_SRC a.val k.val) = 3 ∧
      t.get (SRV_PES_PES a.val k.val) = 0 ∧ ((t.motion.srv[a]).slots[k]).prevPes = none ∧
      ((t.motion.srv[a]).slots[k]).since = ((m.motion.srv[a]).slots[k]).since + 1 ∧
      (k = m.wslot a → t.is (SRV_STAT_WSAFE a.val) = false) := by
  obtain ⟨u, v, seq, hstands, hpes, hsince, hprev, hflag⟩ := pesReady_missed_stands hen hd
  replace hstands : WedgeStands a k u t := ht ▸ hstands.trans (watched_wedgeStands _)
  obtain ⟨hcode, hsrc, -, hvalid⟩ := reportWedge_shows v a k seq false 3 0 (hstands.pes.trans hpes)
  exact ⟨hvalid, hsrc, hcode.trans (by decide), (congrArg WedgeView.prevPes hstands.view).trans hprev,
    (congrArg WedgeView.since hstands.view).trans hsince, fun hk => hstands.flag (hflag hk)⟩

end

/-- Settles O16: while its block runs each row acts as its operation (`completes_of_clocked`); the cases are the
conditions under which a row differs, and the lemmas above give the effect of each. -/
theorem servoWedges : Obligations.ServoWedges := by
  unfold Obligations.ServoWedges
  refine fun s a k hr => ⟨fun h => ?gateIdle, fun hen hlock => ?gateOpens, fun x y hen hk hx hy => ?samMissed,
    fun x y h => ?samFound, fun f hen => ?disabled, fun f y src wedge w hen hd => ?valid, fun f hen hd => ?missed,
    fun h => ?noFetch, fun h => ?fetching, fun addr haddr hport => ?fetched⟩
  case gateIdle => exact yields_eq_of_clocked hr rfl (servoGateOpen_idle h)
  case gateOpens => exact completes_of_clocked hr rfl (servoGateOpen_opens hen hlock)
  case samMissed => exact yields_eq_of_clocked hr rfl (samSearchEnd_missed x y hen hk hx hy)
  case samFound => exact yields_eq_of_clocked hr rfl (samSearchEnd_found x y h)
  case disabled => exact yields_eq_of_clocked hr rfl (by rw [Mach.watched, pesReady_disabled f hen]; rfl)
  case valid => exact completes_of_clocked hr rfl (pesReady_valid_effect hen hd rfl)
  case missed => exact completes_of_clocked hr rfl (pesReady_missed_effect hen hd rfl)
  case noFetch => exact yields_eq_of_clocked hr rfl (rroFetchDone_waits (.inl h))
  case fetching => exact yields_eq_of_clocked hr rfl (rroFetchDone_waits (.inr h))
  case fetched => exact completes_of_clocked hr rfl (rroFetchDone_loads haddr hport)

end Sys2Proof.Machine

/-! PROOFS. Statements of spec/14_boot_images_security.md: which resets reach the locks and the power die's register, and
the firmware slots. -/
namespace Sys2Proof.Machine

/-! ### A row that no clock gates -/

theorem completes_of_run {i : Instr} {s : State} {f : Mach → Mach} {Q : Mach → Prop} (hi : exec i s = s.run f)
    (hQ : Q (f s.m)) : Completes i s Q := ⟨f s.m, hi, hQ⟩

theorem of_completes_run {i : Instr} {s : State} {f : Mach → Mach} {Q : Mach → Prop} (hi : exec i s = s.run f)
    (h : Completes i s Q) : Q (f s.m) := by
  obtain ⟨t, ht, hQ⟩ := h
  have hnext : s.run f = .next { s with m := t } := hi.symm.trans ht
  have heq : f s.m = t := congrArg State.m (Host.Outcome.next.inj hnext)
  exact heq ▸ hQ

/-! ### A controller reset applies a pending bundle's configuration (R334, R371) -/

/-- A bundle of class 1 whose configuration sets SPN_BRK.RBRK to 0x40. -/
def rbrkBundle : Bundle :=
  { formOk := true, cls := 1, svnCfg := 0, svnPatch := 0, romX := 0, romY := 0, patchLvl := 0, sections := [2],
    live := false, sigSceka := true, sigOem := false, keyOk := false, patchSig := false, gcmOk := true, options := none,
    regs := [(REG_SPN_BRK, 0x00400000)], code := [], tables := [], idleCLevel := 0, activeLevel := 0, saveRate := 0 }

/-- The cores are up in M1, port 0's link is up, the release of PCIE waits for its clock-good (R371), and `rbrkBundle`
pends in slot 2. -/
def pcieWaits : Mach :=
  ((Mach.atReset.setRst fun r => { r with entering := false, coresUp := true, waiting := [38] }).set
    (HIF_LINK_UP 0) 1).setFlash fun f => { f with pending := some (2, 1), slot2 := some rbrkBundle }

theorem pcieWaits_canonical : regsWf pcieWaits.regs = true ∧ pcieWaits.buf.mem.wf = true := by decide +kernel

theorem pcieWaits_rbrk : pcieWaits.get SPN_BRK_RBRK = 0xA0 := by decide +kernel

theorem clockGoodTimeout_pcieWaits_rbrk : (clockGoodTimeout 38 pcieWaits).get SPN_BRK_RBRK = 0x40 := by decide +kernel

theorem clockGoodTimeout_pcieWaits_brk :
    (clockGoodTimeout 38 pcieWaits).word REG_SPN_BRK ≠ pcieWaits.word REG_SPN_BRK := by
  intro h
  have hget : (clockGoodTimeout 38 pcieWaits).get SPN_BRK_RBRK = pcieWaits.get SPN_BRK_RBRK :=
    congrArg (getBits · SPN_BRK_RBRK.lo SPN_BRK_RBRK.w) h
  rw [clockGoodTimeout_pcieWaits_rbrk, pcieWaits_rbrk] at hget
  exact absurd hget (by decide)

/-- Refutes O6: in `pcieWaits`, CLOCK_GOOD_TIMEOUT of PCIE carries out no chip reset but takes port 0 down (R371); its
controller reset applies the pending class-1 bundle (R334), whose configuration writes SPN_BRK.RBRK, a field of access RWS.
The clause about controller resets asks that no bundle pends (`Sound`); the clause about chip resets, which takes every
domain's timeout, does not. -/
theorem not_whatResetsReach : ¬ Obligations.WhatResetsReach := by
  unfold Obligations.WhatResetsReach
  intro h
  obtain ⟨hreset, -⟩ := h ⟨[], pcieWaits⟩ pcieWaits_canonical
  have htimeout := hreset 0 0 0 0 0 0 38 (.clockGoodTimeout 38) (by simp)
  obtain ⟨hbrk, -⟩ := of_completes_run (f := clockGoodTimeout 38) rfl htimeout
  exact clockGoodTimeout_pcieWaits_brk hbrk

/-! ### The command table -/

section
variable (m : Mach) (fsn status : Nat)

/-- The entry that a number names, once the entries of the number are updated. -/
theorem command_setCommand (f : Cmd → Cmd) (hf : ∀ c, (f c).fsn = c.fsn) :
    (m.setCommand fsn f).command fsn = (m.command fsn).map f := by
  have htable : (m.setCommand fsn f).cmd.table = m.cmd.table.map fun c => if c.fsn == fsn then f c else c := rfl
  have hsame : ((·.fsn == fsn) ∘ fun c => if c.fsn == fsn then f c else c) = (·.fsn == fsn) := by
    funext c
    simp only [Function.comp]
    split <;> simp [hf]
  rw [Mach.command, htable, List.find?_map, hsame, Mach.command]
  cases hfind : m.cmd.table.find? (·.fsn == fsn) with
  | none => rfl
  | some c =>
    have hc : c.fsn = fsn := by simpa using List.find?_some hfind
    simp [hc]

theorem command_finish : (m.finish fsn status).command fsn =
    (m.command fsn).map fun c => { c with stage := .ended, result := some ⟨status, 0⟩ } :=
  command_setCommand m fsn _ fun _ => rfl

variable {m fsn}

theorem ended_finish (h : (m.command fsn).isSome) : Ended (m.finish fsn status) fsn status := by
  obtain ⟨c, hc⟩ := Option.isSome_iff_exists.mp h
  rw [Ended, command_finish, hc]
  exact ⟨_, _, rfl, rfl, rfl, rfl⟩

theorem ended_invalid (byte bit : Nat) (h : (m.command fsn).isSome) : Ended (m.invalid fsn byte bit) fsn stField := by
  have hloc := command_setCommand m fsn (fun c => { c with loc := byte + 256 * bit }) fun _ => rfl
  exact ended_finish _ (by rwa [hloc, Option.isSome_map])

end

/-- The dispatched command of a number stands in the table. -/
theorem command_isSome_of_running {m : Mach} {fsn table opcode : Nat} {c : Cmd} (h : m.running fsn table opcode = some c) :
    (m.command c.fsn).isSome :=
  List.find?_isSome.mpr ⟨c, List.mem_of_find?_eq_some h, by simp⟩

theorem withRunning_of_running {m : Mach} {fsn : BitVec 32} {table opcode : Nat} {c : Cmd}
    (h : m.running fsn.toNat table opcode = some c) (f : Cmd → Mach) : m.withRunning fsn table opcode f = f c := by
  rw [Mach.withRunning, h]

/-! ### What a commit does with its slot (R292, R332, R334, R335) -/

section
variable {m : Mach} {c : Cmd}

theorem commitSlot_named {fs : Nat} (h : fs ≠ 0) : m.commitSlot fs = fs := if_pos h

theorem commitImage_badSlot {b : Option Bundle} {pend : Bool} (h : c.dw 10 0 3 = 1 ∨ 3 < c.dw 10 0 3) :
    m.commitImage c b pend = m.finish c.fsn stFwSlot := by
  have hbad : 3 < c.dw 10 0 3 ∨ m.commitSlot (c.dw 10 0 3) = 1 :=
    h.elim (fun h1 => .inr (by rw [h1, commitSlot_named (by decide)])) .inl
  simp only [Mach.commitImage, if_pos hbad]

theorem commitImage_rejected {b : Option Bundle} {pend : Bool} (hfs : c.dw 10 0 3 = 2 ∨ c.dw 10 0 3 = 3)
    (hb : ∀ x, b = some x → m.verify x ≠ 0) : m.commitImage c b pend = m.finish c.fsn stFwImage := by
  have hgood : ¬ (3 < c.dw 10 0 3 ∨ c.dw 10 0 3 = 1) := by omega
  simp only [Mach.commitImage, commitSlot_named (show c.dw 10 0 3 ≠ 0 by omega), if_neg hgood]
  cases b with
  | none => rfl
  | some x => simp only [if_pos (hb x rfl)]

theorem commitImage_stored {x : Bundle} {pend : Bool} (hfs : c.dw 10 0 3 = 2 ∨ c.dw 10 0 3 = 3) (hx : m.verify x = 0) :
    m.commitImage c (some x) pend = ((m.storeSlot c.ctrl (c.dw 10 0 3) x).when pend fun m =>
      m.setFlash fun f => { f with pending := some (c.dw 10 0 3, x.cls) }).finish c.fsn stOk := by
  have hgood : ¬ (3 < c.dw 10 0 3 ∨ c.dw 10 0 3 = 1) := by omega
  simp only [Mach.commitImage, commitSlot_named (show c.dw 10 0 3 ≠ 0 by omega), if_neg hgood,
    if_neg (not_not_intro hx)]

/-- An activation of slot 2 or 3 turns on the bundle that the slot holds. -/
theorem commitActivate_slot {b : Bundle} {now : Bool} (hfs : c.dw 10 0 3 = 2 ∨ c.dw 10 0 3 = 3)
    (hb : m.slotBundle (c.dw 10 0 3) = some b) :
    m.commitActivate c now =
      if m.verify b ≠ 0 then m.finish c.fsn stFwImage
      else if !now then (m.setFlash fun f => { f with pending := some (c.dw 10 0 3, b.cls) }).finish c.fsn stOk
      else if b.cls ≠ 0 then
        (m.setFlash fun f => { f with pending := some (c.dw 10 0 3, b.cls) }).finish c.fsn (Mach.classStatus b.cls)
      else if m.cmd.quiet.isSome then m
      else
        (((((m.loadShadow b).set QSQ_CTRL_FETCH_EN0 0).set QSQ_CTRL_FETCH_EN1 0).dropSpecs []).setCmdState fun x =>
          { x with quiet := some (c.fsn, c.dw 10 0 3) }).asyncBoth (some 9) 2 0x01 0x03 := by
  have hhigh : ¬ 3 < c.dw 10 0 3 := by omega
  have hrom : c.dw 10 0 3 ≠ 1 := by omega
  simp only [Mach.commitActivate, commitSlot_named (show c.dw 10 0 3 ≠ 0 by omega), if_neg hhigh, if_neg hrom, hb]

end

/-! ### Fetching stops until the quiet point (R284) -/

section
variable (m : Mach)

theorem serveEvents_quiet (p : PortId) : (m.serveEvents p).cmd.quiet = m.cmd.quiet := by
  simp only [Mach.serveEvents]
  split <;> rfl

theorem asyncEvent_quiet (p : PortId) (bit : Option Nat) (type info lid : Nat) :
    (m.asyncEvent p bit type info lid).cmd.quiet = m.cmd.quiet := by
  cases bit with
  | none => exact serveEvents_quiet _ p
  | some k =>
    simp only [Mach.asyncEvent]
    split
    · exact serveEvents_quiet _ p
    · rfl

theorem asyncBoth_quiet (bit : Option Nat) (type info lid : Nat) :
    (m.asyncBoth bit type info lid).cmd.quiet = m.cmd.quiet := by
  rw [Mach.asyncBoth, asyncEvent_quiet, asyncEvent_quiet]

theorem asyncBoth_keeps (bit : Option Nat) (type info lid : Nat) :
    Kept (fun _ => True) (· ≠ REG_QSQ_CTRL) m (m.asyncBoth bit type info lid) :=
  Mach.asyncBoth_kept _ _ _ _ trivial trivial (by decide) (Kept.refl m)

theorem dropSpecs_keeps (gone : List Nat) : Kept (fun _ => True) (· ≠ REG_QSQ_CTRL) m (m.dropSpecs gone) := by
  refine Mach.dropSpecs_kept _ trivial trivial trivial trivial (by decide) (by decide) (fun i _ => ?_) (fun i _ => ?_)
    (Kept.refl m)
  · simp only [REG_POOL_RETSTAT, REG_QSQ_CTRL]; omega
  · simp only [REG_POOL_STAT, REG_QSQ_CTRL]; omega

/-- What follows once fetching is switched off leaves QSQ_CTRL. -/
theorem quietWait_is {l : Loc} (hl : l.addr = REG_QSQ_CTRL) (f : CmdState → CmdState) (bit : Option Nat)
    (type info lid : Nat) : (((m.dropSpecs []).setCmdState f).asyncBoth bit type info lid).is l = m.is l := by
  rw [(asyncBoth_keeps _ _ _ _ _).is (not_not_intro hl)]
  exact (dropSpecs_keeps m []).is (not_not_intro hl)

end

/-! ### The anti-rollback test (R335) -/

section
variable {m : Mach} {b : Bundle}

theorem svnOk_iff : m.svnOk b = true ↔
    m.sec.fuses.cfg ≤ b.svnCfg ∧ (b.patched = true → m.sec.fuses.patch ≤ b.svnPatch) := by
  simp only [Mach.svnOk, Bool.and_eq_true, Bool.or_eq_true, Bool.not_eq_true', decide_eq_true_eq]
  cases b.patched <;> simp

theorem verify_ne_zero_of_svn (h : m.svnOk b = false) : m.verify b ≠ 0 := by
  simp only [Mach.verify, h, Bool.not_false, if_true]
  split
  · decide
  · split <;> decide

end

/-! ### The selection of a bundle at P5 (R331, R335) -/

section
variable (m : Mach)

theorem slotVerdict_of_bundle {m : Mach} {slot : Nat} {b : Bundle} (h : m.slotBundle slot = some b) :
    m.slotVerdict slot = m.verify b := by
  rw [Mach.slotVerdict, h]

theorem setSec_is (f : SecState → SecState) (l : Loc) : (m.setSec f).is l = m.is l := rfl

theorem rejectBundle_flag {l : Loc} (why : Nat) (hl : l.lo + l.w ≤ 32) (hw : l.w = 1) (haddr : l.addr ≠ REG_SEC_ERR) :
    (m.rejectBundle l why).is l = true := by
  have hset : (m.set l 1).is l = true := is_setFlag_self m true hl hw
  have herr {k : Loc} (hk : k.addr = REG_SEC_ERR) : l.apart k = true := by simp [Loc.apart, hk, haddr]
  simp only [Mach.rejectBundle]
  split
  · rwa [is_flagEvent _ _ (herr rfl)]
  · rwa [is_flagEvent _ _ (herr rfl)]

theorem rejectBundle_afail_pfail (why : Nat) :
    (m.rejectBundle SEC_BOOT_AFAIL why).is SEC_BOOT_PFAIL = m.is SEC_BOOT_PFAIL := by
  simp only [Mach.rejectBundle]
  split <;> simp (disch := decide) only [is_flagEvent, is_set]

theorem noBundle_source : m.noBundle.get SEC_BOOT_SOURCE = 2 := get_set_self _ _ (by decide)

theorem noBundle_is {l : Loc} (hactive : l.apart SEC_BOOT_ACTIVE = true) (hsource : l.apart SEC_BOOT_SOURCE = true) :
    m.noBundle.is l = m.is l := by
  rw [Mach.noBundle, is_set _ _ hsource, is_set _ _ hactive, setSec_is]

theorem loadStores_is (b : Bundle) {l : Loc} (hl : l.addr = REG_SEC_BOOT) : (m.loadStores b).is l = m.is l := by
  have hseq (i : Nat) (hi : i < 20) : REG_SEQ_STAT i ≠ REG_SEC_BOOT := by revert i; decide
  have hkept : Kept (fun _ => True) (· ≠ REG_SEC_BOOT) m (m.loadStores b) :=
    Mach.loadStores_kept _ trivial trivial (by decide) (by decide) hseq (Kept.refl m)
  exact hkept.is (not_not_intro hl)

theorem takeBundle_boot {m : Mach} {slot : Nat} {b : Bundle} (source : Nat) (h : m.slotBundle slot = some b) :
    (m.takeBundle slot source).get SEC_BOOT_SOURCE = source % 4 ∧
      (m.takeBundle slot source).is SEC_BOOT_PFAIL = m.is SEC_BOOT_PFAIL := by
  simp only [Mach.takeBundle, h]
  constructor
  · rw [get_setFlag _ _ (by decide), get_set_self _ _ (by decide)]
    rfl
  · rw [is_setFlag _ _ (by decide), is_set _ _ (by decide), is_set _ _ (by decide), setSec_is,
      loadStores_is _ _ rfl]

/-- An active slot that fails leaves no bundle. -/
theorem tryActive_rejected {m : Mach} (hrom : m.sec.flash.active ≠ 1) (h : m.slotVerdict m.sec.flash.active ≠ 0) :
    m.tryActive = (m.rejectBundle SEC_BOOT_AFAIL (m.slotVerdict m.sec.flash.active)).noBundle := by
  simp only [Mach.tryActive, if_neg hrom, if_neg h]

/-- What the active slot gives is never reported as the pending one. -/
theorem tryActive_boot :
    m.tryActive.get SEC_BOOT_SOURCE ≠ 0 ∧ m.tryActive.is SEC_BOOT_PFAIL = m.is SEC_BOOT_PFAIL := by
  by_cases hrom : m.sec.flash.active = 1
  · simp only [Mach.tryActive, if_pos hrom, noBundle_source]
    exact ⟨by decide, noBundle_is m (by decide) (by decide)⟩
  by_cases hv : m.slotVerdict m.sec.flash.active = 0
  · simp only [Mach.tryActive, if_neg hrom, if_pos hv]
    cases hb : m.slotBundle m.sec.flash.active with
    | none => simp [Mach.slotVerdict, hb] at hv
    | some b =>
      obtain ⟨hsource, hpfail⟩ := takeBundle_boot 1 hb
      exact ⟨by rw [hsource]; decide, hpfail⟩
  · rw [tryActive_rejected hrom hv, noBundle_source, noBundle_is _ (by decide) (by decide), rejectBundle_afail_pfail]
    exact ⟨by decide, rfl⟩

theorem tryPending_none {m : Mach} (h : m.sec.flash.pending = none) : m.tryPending = m.tryActive := by
  rw [Mach.tryPending, h]

/-- A pending slot that fails is passed over. -/
theorem tryPending_rejected {m : Mach} {slot k : Nat} (hp : m.sec.flash.pending = some (slot, k)) (hrom : slot ≠ 1)
    (h : m.slotVerdict slot ≠ 0) :
    m.tryPending = (m.rejectBundle SEC_BOOT_PFAIL (m.slotVerdict slot)).tryActive := by
  rw [Mach.tryPending, hp]
  simp only [if_neg hrom, if_neg h]

theorem bundleSelect_p5 {m : Mach} (h : m.get RST_PHASE_PHASE = 5) :
    bundleSelect m = (m.tryPending.set SEC_BOOT_VALID 1).set RST_PHASE_PHASE 6 := by
  rw [bundleSelect, if_neg (not_not_intro h)]

section
variable {m : Mach} {slot : Nat} {b : Bundle} (hphase : m.get RST_PHASE_PHASE = 5) (hslot : slot = 2 ∨ slot = 3)
  (hb : m.slotBundle slot = some b) (hv : m.verify b ≠ 0)
include hphase hslot hb hv

theorem bundleSelect_pending_rejected {k : Nat} (hp : m.sec.flash.pending = some (slot, k)) :
    (bundleSelect m).get SEC_BOOT_SOURCE ≠ 0 ∧ (bundleSelect m).is SEC_BOOT_PFAIL = true := by
  have hverdict : m.slotVerdict slot ≠ 0 := by rwa [slotVerdict_of_bundle hb]
  rw [bundleSelect_p5 hphase, tryPending_rejected hp (by omega) hverdict, get_set _ _ (by decide), get_set _ _ (by decide),
    is_set _ _ (by decide), is_set _ _ (by decide)]
  obtain ⟨hsource, hpfail⟩ := tryActive_boot (m.rejectBundle SEC_BOOT_PFAIL (m.slotVerdict slot))
  exact ⟨hsource, hpfail.trans (rejectBundle_flag m _ (by decide) rfl (by decide))⟩

theorem bundleSelect_active_rejected (hp : m.sec.flash.pending = none) (hactive : m.sec.flash.active = slot) :
    (bundleSelect m).sec.active = none ∧ (bundleSelect m).is SEC_BOOT_AFAIL = true := by
  subst hactive
  have hverdict : m.slotVerdict m.sec.flash.active ≠ 0 := by rwa [slotVerdict_of_bundle hb]
  rw [bundleSelect_p5 hphase, tryPending_none hp, tryActive_rejected (by omega) hverdict]
  refine ⟨rfl, ?_⟩
  rw [is_set _ _ (by decide), is_set _ _ (by decide), noBundle_is _ (by decide) (by decide)]
  exact rejectBundle_flag m _ (by decide) rfl (by decide)

end

end

/-! ### The effect of each row -/

section
variable {s : State} {fsn : BitVec 32} {c : Cmd} {Q : Mach → Prop} (hc : s.m.running fsn.toNat 0 0x10 = some c)
include hc

theorem completes_commitReplace {b : Option Bundle} (hca : c.dw 10 3 3 = 0) (hQ : Q (s.m.commitImage c b false)) :
    Completes (.firmwareCommitReplace fsn b) s Q :=
  completes_of_run rfl (by simpa only [firmwareCommitReplace, withRunning_of_running hc, if_pos hca] using hQ)

theorem completes_commitReplaceActivate {b : Option Bundle} (hca : c.dw 10 3 3 = 1)
    (hQ : Q (s.m.commitImage c b true)) : Completes (.firmwareCommitReplaceActivate fsn b) s Q :=
  completes_of_run rfl (by simpa only [firmwareCommitReplaceActivate, withRunning_of_running hc, if_pos hca] using hQ)

theorem completes_commitActivate (hca : c.dw 10 3 3 = 2) (hQ : Q (s.m.commitActivate c false)) :
    Completes (.firmwareCommitActivate fsn) s Q :=
  completes_of_run rfl (by simpa only [firmwareCommitActivate, withRunning_of_running hc, if_pos hca] using hQ)

theorem completes_commitActivateNow (hca : c.dw 10 3 3 = 3) (hQ : Q (s.m.commitActivate c true)) :
    Completes (.firmwareCommitActivateNow fsn) s Q :=
  completes_of_run rfl (by simpa only [firmwareCommitActivateNow, withRunning_of_running hc, if_pos hca] using hQ)

end

section
variable {m : Mach} {c : Cmd} (hlive : (m.command c.fsn).isSome)
include hlive

/-- A commit that ends without storing anything leaves flash. -/
theorem finish_refuses (status : Nat) : Ended (m.finish c.fsn status) c.fsn status ∧ (m.finish c.fsn status).sec = m.sec :=
  ⟨ended_finish status hlive, rfl⟩

theorem commitImage_rejected_effect {b : Option Bundle} {pend : Bool} (hfs : c.dw 10 0 3 = 2 ∨ c.dw 10 0 3 = 3)
    (hb : ∀ x, b = some x → m.verify x ≠ 0) :
    Ended (m.commitImage c b pend) c.fsn stFwImage ∧ (m.commitImage c b pend).sec = m.sec := by
  rw [commitImage_rejected hfs hb]
  exact finish_refuses hlive _

theorem commitImage_replaced {x : Bundle} (hx : m.verify x = 0) (hfs : c.dw 10 0 3 = 2) :
    Ended (m.commitImage c (some x) false) c.fsn stOk ∧
      (m.commitImage c (some x) false).sec.flash = { m.sec.flash with slot2 := some x } := by
  rw [commitImage_stored (.inl hfs) hx, when_false rfl, hfs]
  exact ⟨ended_finish stOk hlive, rfl⟩

theorem commitImage_pends {x : Bundle} (hx : m.verify x = 0) (hfs : c.dw 10 0 3 = 3) :
    Ended (m.commitImage c (some x) true) c.fsn stOk ∧
      (m.commitImage c (some x) true).sec.flash =
        { m.sec.flash with slot3 := some x, pending := some (3, x.cls) } := by
  rw [commitImage_stored (.inr hfs) hx, when_true rfl, hfs]
  exact ⟨ended_finish stOk hlive, rfl⟩

variable {b : Bundle}

theorem commitActivate_rejected {now : Bool} (hfs : c.dw 10 0 3 = 2 ∨ c.dw 10 0 3 = 3)
    (hb : m.slotBundle (c.dw 10 0 3) = some b) (hv : m.verify b ≠ 0) :
    Ended (m.commitActivate c now) c.fsn stFwImage ∧ (m.commitActivate c now).sec = m.sec := by
  rw [commitActivate_slot hfs hb, if_pos hv]
  exact finish_refuses hlive _

/-- An activation that waits for a reset names the pending slot and leaves the active bundle. -/
theorem commitActivate_pends {now : Bool} (hfs : c.dw 10 0 3 = 2) (hb : m.slotBundle 2 = some b) (hv : m.verify b = 0)
    (hwait : now = true → b.cls ≠ 0) :
    Ended (m.commitActivate c now) c.fsn (if now then Mach.classStatus b.cls else stOk) ∧
      (m.commitActivate c now).sec.flash.pending = some (2, b.cls) ∧
      (m.commitActivate c now).sec.active = m.sec.active := by
  rw [commitActivate_slot (.inl hfs) (by rwa [hfs]), if_neg (not_not_intro hv), hfs]
  cases now with
  | false => exact ⟨ended_finish stOk hlive, rfl, rfl⟩
  | true =>
    rw [if_neg (by decide), if_pos (hwait rfl)]
    exact ⟨ended_finish _ hlive, rfl, rfl⟩

end

/-- A class-0 bundle activated at once goes into the shadow banks, and its commit waits for the quiet point. -/
theorem commitActivate_waits {m : Mach} {c : Cmd} {b : Bundle} (hfs : c.dw 10 0 3 = 2) (hb : m.slotBundle 2 = some b)
    (hv : m.verify b = 0) (hcls : b.cls = 0) (hq : m.cmd.quiet = none) :
    (m.commitActivate c true).cmd.quiet = some (c.fsn, 2) ∧
      (m.commitActivate c true).is QSQ_CTRL_FETCH_EN0 = false ∧
      (m.commitActivate c true).is QSQ_CTRL_FETCH_EN1 = false := by
  rw [commitActivate_slot (.inl hfs) (by rwa [hfs]), if_neg (not_not_intro hv), if_neg (by decide),
    if_neg (not_not_intro hcls), if_neg (by simp [hq]), asyncBoth_quiet, quietWait_is _ rfl, quietWait_is _ rfl, hfs]
  refine ⟨rfl, ?_, is_setFlag_self _ false (by decide) rfl⟩
  rw [is_set _ _ (by decide)]
  exact is_setFlag_self _ false (by decide) rfl

/-- Settles O38: each commit acts on the command that its number names (`withRunning_of_running`); a bundle that fails the
anti-rollback test fails verification (`verify_ne_zero_of_svn`), so every commit and P5 refuse it as any failed one. -/
theorem firmwareSlots : Obligations.FirmwareSlots := by
  unfold Obligations.FirmwareSlots
  refine fun s fsn c => ⟨fun hc data => ⟨fun hlen => ?granularity, fun hlen hat hend => ?download⟩,
    fun hc => ⟨fun b hca => ⟨fun hfs => ?badSlot, fun hfs hb => ?badImage, fun x hb hx hfs => ?replaced⟩,
      fun x hca hx hfs => ?replacedPending, fun x hca hb hx hfs => ?pending,
      fun x hca hb hx hfs => ⟨fun hcls => ?deferred, fun hcls hq => ?atOnce⟩⟩,
    fun b => ⟨svnOk_iff, fun hsvn => ?rollback⟩⟩
  case granularity =>
    refine completes_of_run rfl ?_
    simp only [firmwareImageDownload, withRunning_of_running hc, if_pos hlen]
    exact ended_invalid 40 0 (command_isSome_of_running hc)
  case download =>
    have hinside : ¬ (4 * c.cdw 11 % 4096 ≠ 0 ∨ 8388608 < 4 * c.cdw 11 + 4 * (c.cdw 10 + 1)) := by omega
    refine completes_of_run rfl ?_
    simp only [firmwareImageDownload, withRunning_of_running hc, if_neg (not_not_intro hlen), if_neg hinside]
    exact ⟨ended_finish stOk (command_isSome_of_running hc), congrArg Ctrl.download (updAt_self ..)⟩
  case badSlot =>
    refine completes_commitReplace hc hca ?_
    rw [commitImage_badSlot hfs]
    exact finish_refuses (command_isSome_of_running hc) _
  case badImage =>
    exact completes_commitReplace hc hca (commitImage_rejected_effect (command_isSome_of_running hc) (.inl hfs) hb)
  case replaced =>
    subst hb
    obtain ⟨hended, hflash⟩ := commitImage_replaced (command_isSome_of_running hc) hx hfs
    exact completes_commitReplace hc hca ⟨hended, by rw [hflash], by rw [hflash], by rw [hflash]⟩
  case replacedPending =>
    obtain ⟨hended, hflash⟩ := commitImage_pends (command_isSome_of_running hc) hx hfs
    exact completes_commitReplaceActivate hc hca ⟨hended, by rw [hflash], by rw [hflash]⟩
  case pending =>
    exact completes_commitActivate hc hca (commitActivate_pends (command_isSome_of_running hc) hfs hb hx nofun)
  case deferred =>
    obtain ⟨hended, hpending, -⟩ := commitActivate_pends (now := true) (command_isSome_of_running hc) hfs hb hx fun _ => hcls
    exact completes_commitActivateNow hc hca ⟨hended, hpending⟩
  case atOnce => exact completes_commitActivateNow hc hca (commitActivate_waits hfs hb hx hcls hq)
  case rollback =>
    have hv : s.m.verify b ≠ 0 := verify_ne_zero_of_svn hsvn
    have himage : ∀ x, some b = some x → s.m.verify x ≠ 0 := fun x hx => Option.some.inj hx ▸ hv
    refine ⟨hv, fun hc hfs => ?_, fun slot hslot hb hphase => ⟨fun k hp => ?_, fun hp hactive => ?_⟩⟩
    · have hlive := command_isSome_of_running hc
      exact ⟨fun hca => completes_commitReplace hc hca (commitImage_rejected_effect hlive hfs himage),
        fun hca => completes_commitReplaceActivate hc hca (commitImage_rejected_effect hlive hfs himage),
        fun hb => ⟨fun hca => completes_commitActivate hc hca (commitActivate_rejected hlive hfs hb hv),
          fun hca => completes_commitActivateNow hc hca (commitActivate_rejected hlive hfs hb hv)⟩⟩
    · exact completes_of_run rfl (bundleSelect_pending_rejected hphase hslot hb hv hp)
    · exact completes_of_run rfl (bundleSelect_active_rejected hphase hslot hb hv hp hactive)

end Sys2Proof.Machine
